-- ==== Sys2Proof/Word.lean ====
section
/-! DEFINITION. The word types of the SL4 model and nothing else: bytes, 64-bit values, time values. -/

namespace Sys2Proof

/-- One byte (R2: records are sequences of bytes, little-endian). -/
abbrev Byte := BitVec 8
/-- A 64-bit stored value (the value field of a stall, a register, R86, R120). -/
abbrev W64 := BitVec 64
/-- A t64 (R11, R288): nanoseconds since 1970-01-01 TAI. Kept as a natural number below 2^64. -/
abbrev T64 := Nat

end Sys2Proof
end

