-- ==== Sys2Proof/Syntax.lean ====
section
/-! DEFINITION. The commands of the block: one constructor per row of the command table. A host command carries its path
(0 the line, 1 the host SPI, 2 the service port) and its mailbox; its payload lies in that mailbox (R52 to R59; log 11). A command
of the environment (an event, a frame, a due instant) carries what its source observes (log 5). Ranges are in WellFormed. -/

namespace Sys2Proof

/-- The 361 commands, in the order of the table. -/
inductive Instr where
  -- Islands and crossings (01)
  /-- ISLAND_CONTROL (R30): Host command that starts a reset, reload, recalibrate or re-clock operation on one island. -/
  | islandControl (path idx : Nat)
  /-- ISLAND_STATUS (R33): Host command that returns one state word for each island. -/
  | islandStatus (path idx : Nat)
  /-- QUIESCE_DRAINED (R32): The in-flight words of a QUIESCING island have drained, and the island moves to HELD, CALIBRATING or RELOCKING.
  Operands: `i` island. -/
  | quiesceDrained (i : Nat)
  /-- QUIESCE_TIMEOUT (R32): 10 µs pass in QUIESCING; the remaining words are discarded, their senders get OFFLINE, and the island moves on.
  Operands: `i` island. -/
  | quiesceTimeout (i : Nat)
  /-- HELD_ELAPSED (R32): 16 island cycles pass in HELD; the island enters RUN after a reset or LOADING after a reload. Operands: `i` island. -/
  | heldElapsed (i : Nat)
  /-- ISLAND_LOAD_DONE (R32): An island image load ends; the digest is checked and the island enters RUN or FAILED. Operands: `i` island; `ok`
  every word of the image arrived. -/
  | islandLoadDone (i : Nat) (ok : Bool)
  /-- CALIBRATION_DONE (R32): A calibration ends; the new trims are applied, or the island enters FAILED when a trim is out of range. Operands: `i`
  island; `ok` the calibration succeeded; `ports` line ports whose PHY is out of range. -/
  | calibrationDone (i : Nat) (ok : Bool) (ports : List Nat)
  /-- LOCK_ACHIEVED (R32): A RELOCKING island regains clock lock, resumes and reopens its crossings. Operands: `i` island. -/
  | lockAchieved (i : Nat)
  /-- RELOCK_TIMEOUT (R32): No lock is reached within 200 µs; the island enters FAILED and CLOCK_LOCK_LOST is logged. Operands: `i` island. -/
  | relockTimeout (i : Nat)
  /-- CLOCK_LOCK_LOST (R32): Hardware detects a lost island clock lock; the island enters RELOCKING and its crossings refuse with OFFLINE.
  Operands: `at_` island, and bank of a Main memory PLL output. -/
  | clockLockLost (at_ : Nat × Nat)
  /-- CORE_RESTART_DONE (R61): A firmware-core restart completes; the Core island enters RUN, interrupted commands are answered, and queued events
  and custody checks resume. Operands: `bad` parcels of own records whose crc fails. -/
  | coreRestartDone (bad : List Nat)
  /-- CROSSING_WORD (R14): A word reaches an inter-island crossing; it is ECC-checked, delivered, or answered OFFLINE or ABORTED. Operands: `src`
  source island; `dst` destination island; `a` address; `word` the word; `write` a write, not a request; `buffered` already in the crossing buffer
  when the destination stopped; `bank` difference of the array's word at the bank from what was stored, data bits; `bankCheck` the same, check
  bits; `err` difference of the word that arrives from its codeword, data bits; `errCheck` the same, check bits. -/
  | crossingWord (src dst a word : Nat) (write buffered : Bool) (bank bankCheck err errCheck : Nat)
  -- Memory health (01, 22)
  /-- SCRUB_READ (R26): The scrubber of a bank or SRAM reads its next word, corrects it and writes it back. Operands: `memory` memory, numbered as
  in R25; `bank` bank of main memory; `err` difference of the array's word from what was stored, data bits; `errCheck` the same, check bits;
  `beaten` a demand write came before the write-back. -/
  | scrubRead (memory bank err errCheck : Nat) (beaten : Bool)
  /-- ECC_REREAD (R490): 1 ms after a corrected finding the word is read again, and the finding is judged transient or permanent. Operands: `a`
  word address; `err` difference of the array's word from what was stored. -/
  | eccReread (a err : Nat)
  /-- ROW_COPY_DONE (R28): The corrected copy of a row into its spare row ends, and demand accesses to the row resume. Operands: `row` address of
  the row. -/
  | rowCopyDone (row : Nat)
  /-- PAGE_COPY_DONE (R491): The copy of a retired page ends; accesses resume, or the page's owner restarts when a word was poisoned. Operands:
  `page` address of the page. -/
  | pageCopyDone (page : Nat)
  -- Power (02)
  /-- POWER_UP_START (R47): The tap has stayed above the start threshold for 10 ms, and the converter starts. Operands: `below` the tap has stayed
  below the overvoltage release for 10 ms. -/
  | powerUpStart (below : Bool)
  /-- VAON_REGULATED (R47): VAON reaches regulation, and the Power and Gleaner islands run with the bypass closed. -/
  | vaonRegulated
  /-- SUPPLIES_REGULATED (R47): The other supplies reach regulation, the oscillators run, and VAUX comes on if VF24 is valid. Operands: `rise` VF24
  is valid, and the recorder slots whose CRC is now wrong, each with the sequence read from it; the Granary from 0, the Rick from 16,384. -/
  | suppliesRegulated (rise : Bool × List (Nat × Nat))
  /-- BOOT_SILO_SELECT (R473): With the PLLs locked, the boot ROM picks the silo from the boot-pointer copies. -/
  | bootSiloSelect
  /-- IMAGES_LOADED (R473): The island images are loaded and their digests checked; on a failure another silo is tried, else the node waits on the
  service port. -/
  | imagesLoaded
  /-- POWER_UP_READY (R47): At t5 the self-tests end, configuration, stalls and recipes load, and the Line island runs. Operands: `mV` VF24 in mV;
  `field` VF24 stayed above the restore threshold for 10 ms; `testA` start test of channel A: 0 to 6 the test that failed, 7 none; `testB` start
  test of channel B. -/
  | powerUpReady (mV : Nat) (field : Bool) (testA testB : Nat)
  /-- BYPASS_OPEN (R44): The Line island runs, the PHYs are powered and the tap is within 36 … 60 V; the bypass opens and PHYs A and B start
  training. -/
  | bypassOpen
  /-- POWER_FAIL (R48): The tap stays below the stop threshold for 20 µs, and the power-down sequence starts. -/
  | powerFail
  /-- LINE_OVERVOLTAGE (R48): The tap stays above the overvoltage threshold for 20 µs, and the power-down sequence starts. -/
  | lineOvervoltage
  /-- POWER_DOWN_BYPASS_CLOSE (R44): 100 µs after POWER_FAIL, LINE_OVERVOLTAGE or THERMAL_STOP is detected, the bypass closes. -/
  | powerDownBypassClose
  /-- CONVERTER_STOP (R48): After the power-down record is durable, the converter stops and the supplies fall. -/
  | converterStop
  /-- LINE_VOLTAGE_LOW (R40): The tap stays below 36 V for 1 ms, and LINE_VOLTAGE_LOW is raised. -/
  | lineVoltageLow
  /-- LINE_VOLTAGE_LOW_CLEAR (R40): The tap rises above the clear level, and a delayed bypass opening may proceed. -/
  | lineVoltageLowClear
  /-- NRST_LOW (R483): NRST is held low; every island except Power is held in reset and the bypass closes within 10 µs. -/
  | nrstLow
  /-- NRST_RELEASE (R483): NRST is released, and the device reset continues power-up from t1. -/
  | nrstRelease
  /-- VAON_LOW (R44): VAON falls below 0.60 V, and the bypass closes passively. -/
  | vaonLow
  /-- VAUX_FAULT (R46): The VAUX load exceeds the current limit for more than 1 ms; VAUX switches off and the fault is logged. -/
  | vauxFault
  /-- VAUX_RETRY (R46): The VAUX retry interval elapses, and VAUX is switched on again. -/
  | vauxRetry
  /-- DIE_TEMP_HIGH (R50): A die sensor reads 125 °C or more, and DIE_TEMP_HIGH is logged. -/
  | dieTempHigh
  /-- DIE_TEMP_CLEAR (R50): Every die sensor reads below 120 °C, and DIE_TEMP_HIGH clears. -/
  | dieTempClear
  /-- THERMAL_STOP (R50): A die sensor reads 135 °C or more; t1 … t3 of power-down run and only VAON is kept. -/
  | thermalStop
  /-- THERMAL_RECOVER (R50): Every sensor has read below 110 °C for 1 s, and power-up continues from t1. -/
  | thermalRecover
  -- Host access (03)
  /-- SPI_WRITE_FRAME (R68): A complete host SPI write frame is checked and applied whole, or refused with a status bit. Operands: `frame` bytes.
  -/
  | spiWriteFrame (frame : List Nat)
  /-- SPI_READ_FRAME (R67): A host SPI read frame returns the data and its CRC, or zeros when refused. Operands: `frame` bytes. -/
  | spiReadFrame (frame : List Nat)
  /-- HS_DOORBELL (R70): A write to HS_DOORBELL posts the mailboxes whose bits are set, or sets DB_OVERRUN. Operands: `svc` through the service
  port; `v` value written. -/
  | hsDoorbell (svc : Bool) (v : Nat)
  /-- HS_DONE (R70): A W1C write to HS_DONE clears done bits and frees their mailboxes. Operands: `svc` through the service port; `v` value
  written. -/
  | hsDone (svc : Bool) (v : Nat)
  /-- HS_REGISTER_WRITE (R70): A write to a host register that has no row of its own (status W1C bits, IRQ enables, window base). Operands: `svc`
  through the service port; `off` register offset; `v` value written. -/
  | hsRegisterWrite (svc : Bool) (off v : Nat)
  /-- SVC_READ (R72): A service-port read frame reads words from SRAM, the boot ROM or the service registers. Operands: `frame` bytes. -/
  | svcRead (frame : List Nat)
  /-- SVC_WRITE (R72): A service-port write frame writes words to SRAM or the service registers. Operands: `frame` bytes. -/
  | svcWrite (frame : List Nat)
  /-- MAILBOX_FRAME (R65): A Kerey mailbox frame arrives and posts a request into a line mailbox, or is answered MBOX_BUSY. Operands: `src` source
  address; `frame` bytes. -/
  | mailboxFrame (src : Nat) (frame : List Nat)
  /-- MAILBOX_TAKE (R62): The SL4 takes a POSTED mailbox for execution when a slot is free, and checks the header under R58. -/
  | mailboxTake
  /-- SESSION_HALF_OPEN_TIMEOUT (R75): A half-open session is discarded 5 s after the answer to its SESSION_HELLO. Operands: `id` session
  identifier. -/
  | sessionHalfOpenTimeout (id : Nat)
  /-- SESSION_IDLE_TIMEOUT (R76): A session idle for its timeout ends. Operands: `id` session identifier. -/
  | sessionIdleTimeout (id : Nat)
  /-- NODE_IDENT (R81): Host command that returns serial number, versions, levels and role. -/
  | nodeIdent (path idx : Nat)
  /-- NODE_STATUS (R499): Host command that returns node state, restart counts and alarms. -/
  | nodeStatus (path idx : Nat)
  /-- CONFIG_READ (R477): Host command that reads a snapshot of the configuration image. -/
  | configRead (path idx : Nat)
  /-- CONFIG_WRITE (R477): Host command that stages or commits a configuration image for replay at the next reset. -/
  | configWrite (path idx : Nat)
  /-- NODE_RESET (R485): Host command that requests a firmware-core restart or a device reset. -/
  | nodeReset (path idx : Nat)
  -- Node reset at standstill (22)
  /-- NODE_RESET_STANDSTILL (R485): Every axis reaches standstill after a class 1 NODE_RESET, and the power-down steps and the device reset run.
  Operands: `late` 30 s have passed before every axis stood. -/
  | nodeResetStandstill (late : Bool)
  -- Host commands of stalls and field I/O (04, 07, 08)
  /-- CHAN_READ (R98): Host command that returns state, status, value and stamp of a list of stalls. -/
  | chanRead (path idx : Nat)
  /-- CHAN_WRITE (R98): Host command that writes a channel value at once or at a line-time instant. -/
  | chanWrite (path idx : Nat)
  /-- STALL_READ (R98): Host command that returns a 64-byte stall. -/
  | stallRead (path idx : Nat)
  /-- STALL_WRITE (R98): Host command that stores the configuration part of a stall. -/
  | stallWrite (path idx : Nat)
  /-- CHAN_START (R98): Host command that validates a stall and loads it atomically into RUNNING. -/
  | chanStart (path idx : Nat)
  /-- CHAN_STOP (R98): Host command that runs a channel's stop behaviour and answers when it is STOPPED. -/
  | chanStop (path idx : Nat)
  /-- CHAN_SPARE (R102): Host command that designates or removes a spare, or swaps a stall onto its spare now. -/
  | chanSpare (path idx : Nat)
  /-- IO_WATCHDOG (R169): Host command that configures, feeds, rearms or reads the I/O watchdog. -/
  | ioWatchdog (path idx : Nat)
  /-- ADC_SEQUENCE (R187): Host command that sets the ADC slot list and ring descriptors. -/
  | adcSequence (path idx : Nat)
  -- Host commands of recipes and tasks (05)
  /-- RECIPE_LOAD (R136): Host command that allocates a recipe and writes its step records. -/
  | recipeLoad (path idx : Nat)
  /-- RECIPE_READ (R136): Host command that returns step records or instance records. -/
  | recipeRead (path idx : Nat)
  /-- RECIPE_START (R135): Host command that validates a recipe and starts or arms an instance. -/
  | recipeStart (path idx : Nat)
  /-- RECIPE_STOP (R136): Host command that stops an instance at once or when it leaves its present step. -/
  | recipeStop (path idx : Nat)
  /-- RECIPE_STOP_TIMEOUT (R136): 2 s pass after a mode-1 RECIPE_STOP without DONE, and it is answered with state RUNNING. Operands: `i` recipe
  instance. -/
  | recipeStopTimeout (i : Nat)
  /-- TASK_CANCEL (R136): Host command that cancels a Thresher task before dispatch. -/
  | taskCancel (path idx : Nat)
  /-- SCHED_CONFIG (R134): Host command that sets the Thresher policy, weights, firmware group and delay tick. -/
  | schedConfig (path idx : Nat)
  -- Host commands of motion and drives (09 to 11)
  /-- AXIS_MOVE (R222): Host command that moves an axis absolutely, relatively, at a velocity, by new limits or along a segment table. -/
  | axisMove (path idx : Nat)
  /-- AXIS_STOP (R225): Host command that stops an axis by stop ramp, quick stop or coils off. -/
  | axisStop (path idx : Nat)
  /-- AXIS_CONFIG (R217): Host command that writes or reads the axis configuration, or sets its position. -/
  | axisConfig (path idx : Nat)
  /-- AXIS_STATUS (R241): Host command that returns the axis state and commanded values. -/
  | axisStatus (path idx : Nat)
  /-- SEGMENT_LOAD (R227): Host command that writes points of an axis segment table. -/
  | segmentLoad (path idx : Nat)
  /-- GEAR_SET (R230): Host command that engages, changes, disengages or reads an axis gear. -/
  | gearSet (path idx : Nat)
  /-- POS_COMPARE (R212): Host command that arms, writes, disarms or reads a position compare. -/
  | posCompare (path idx : Nat)
  /-- POS_LATCH (R207): Host command that arms, disarms or reads a position latch. -/
  | posLatch (path idx : Nat)
  /-- DRIVE_CONFIG (R255): Host command that writes chopper settings, stages, commits or reads the sine table. -/
  | driveConfig (path idx : Nat)
  -- Host commands of the line and its time (12, 13)
  /-- LINE_STATUS (R285): Host command that returns a port's state and counters and clears those counters. -/
  | lineStatus (path idx : Nat)
  /-- LINE_CONFIG (R284): Host command that sets node line settings, a port's gate list or a port's control. -/
  | lineConfig (path idx : Nat)
  /-- TIME_STATUS (R304): Host command that returns line time and servo state. -/
  | timeStatus (path idx : Nat)
  /-- TIME_CONFIG (R303): Host command that sets the time source, servo, holdover and reference messages, or steps the head's time. -/
  | timeConfig (path idx : Nat)
  /-- LEVEL_RAISE (R479): Host command at the head that schedules a raise of the line protocol level. -/
  | levelRaise (path idx : Nat)
  -- Host commands of the zone bus (14)
  /-- ZB_CONFIG (R326): Host command that sets the zone bus controller, a filter element or the host ring. Operands: `at_` path and mailbox;
  `started` the head frame is in progress. -/
  | zbConfig (at_ : Nat × Nat) (started : Bool)
  /-- ZB_STATUS (R328): Host command that returns controller state and counters and clears the counters. -/
  | zbStatus (path idx : Nat)
  /-- ZB_SEND (R327): Host command that queues a zone bus frame and answers with its outcome. Operands: `at_` path and mailbox; `started` the head
  frame is in progress. -/
  | zbSend (at_ : Nat × Nat) (started : Bool)
  /-- ZB_SEND_TIMEOUT (R327): A ZB_SEND frame is still queued after 1.5 s and the command is answered with that outcome. -/
  | zbSendTimeout (path idx : Nat)
  /-- ZB_RECOVER (R329): Host command that starts bus-off recovery at once. -/
  | zbRecover (path idx : Nat)
  -- Host commands of custody (15)
  /-- CUSTODY_READ (R353): Host command that returns one custody record. -/
  | custodyRead (path idx : Nat)
  /-- CUSTODY_LIST (R353): Host command that lists own custody records by state. -/
  | custodyList (path idx : Nat)
  /-- CUSTODY_RESOLVE (R353): Host command that confirms, removes, merges or sets the destination of a record. -/
  | custodyResolve (path idx : Nat)
  /-- CUSTODY_CONFIG (R352): Host command that sets custody tracking, exits or routes. -/
  | custodyConfig (path idx : Nat)
  -- Host commands of lifts and gates (16)
  /-- LIFT_CALL (R373): Host command that queues or cancels a lift call. -/
  | liftCall (path idx : Nat)
  /-- LIFT_STATUS (R375): Host command that returns the lift state. -/
  | liftStatus (path idx : Nat)
  /-- LIFT_CONFIG (R372): Host command that sets lift settings, the level table or gate settings, or reads them. -/
  | liftConfig (path idx : Nat)
  /-- GATE_COMMAND (R374): Host command that closes, holds open or releases a gate. -/
  | gateCommand (path idx : Nat)
  -- Host commands of harvest and recorder (17, 18)
  /-- HARVEST_LIST (R378): Host command that stages, commits or reads the harvest list. -/
  | harvestList (path idx : Nat)
  /-- HARVEST_TRIGGER (R386): Host command that configures, disarms, fires or reads a harvest trigger. -/
  | harvestTrigger (path idx : Nat)
  /-- HARVEST_COLLECTOR (R390): Host command that adds or removes a collector slot and asks the head for a reservation. -/
  | harvestCollector (path idx : Nat)
  /-- HARVEST_STATUS (R396): Host command that returns harvest state and counters. -/
  | harvestStatus (path idx : Nat)
  /-- EVENT_READ (R406): Host command that returns event records from the Granary or the Rick. -/
  | eventRead (path idx : Nat)
  /-- EVENT_CLEAR (R408): Host command that checks a signed clear token and clears the Granary, and optionally the Rick. -/
  | eventClear (path idx : Nat)
  /-- RECORDER_STATUS (R407): Host command that returns recorder usage and state. -/
  | recorderStatus (path idx : Nat)
  -- Host commands of safety, Gleaner and energy (19, 20)
  /-- SAFETY_STATUS (R441): Host command that returns the safety zone state. -/
  | safetyStatus (path idx : Nat)
  /-- SAFETY_CONFIG_LOAD (R440): Host command that stages, commits or reads the signed safety configuration. -/
  | safetyConfigLoad (path idx : Nat)
  /-- SAFETY_RESTART (R442): Host command that restarts a safety function or the zone, or stops the zone. -/
  | safetyRestart (path idx : Nat)
  /-- GLEANER_RULES (R457): Host command that stages, commits or reads Gleaner rules. -/
  | gleanerRules (path idx : Nat)
  /-- SLEEP_POLICY (R446): Host command that writes or reads the sleep policy. -/
  | sleepPolicy (path idx : Nat)
  /-- ENERGY_READ (R459): Host command that returns the energy meters selected by a mask. -/
  | energyRead (path idx : Nat)
  -- Host commands of security, update and health (03, 21, 22)
  /-- SESSION_HELLO (R75): Host command that opens SM2 session set-up. -/
  | sessionHello (path idx : Nat)
  /-- SESSION_CONFIRM (R75): Host command that completes session set-up with the host confirmation. -/
  | sessionConfirm (path idx : Nat)
  /-- SESSION_CLOSE (R76): Host command that ends a session. -/
  | sessionClose (path idx : Nat)
  /-- CERT_READ (R463): Host command that returns bytes of the device certificate. -/
  | certRead (path idx : Nat)
  /-- HOSTKEY_ADD (R82): Host command that adds or replaces a host-key table entry. -/
  | hostkeyAdd (path idx : Nat)
  /-- HOSTKEY_REMOVE (R82): Host command that removes a host key and ends its sessions. -/
  | hostkeyRemove (path idx : Nat)
  /-- ATTEST (R467): Host command that returns a signed attestation report. -/
  | attest (path idx : Nat)
  /-- IMAGE_WRITE (R470): Host command that stages container bytes into the inactive silo, opens bulk staging or reads status. -/
  | imageWrite (path idx : Nat)
  /-- SILO_COMMIT (R474): Host command that verifies a staged silo and writes the boot pointer. Operands: `same` the read-back equals what was
  staged; `cut` 0 no reset, 1 before the erase, 2 after it. -/
  | siloCommit (path idx : Nat) (same : Bool) (cut : Nat)
  /-- ISLAND_UPDATE (R475): Host command that reloads one island from the active silo. -/
  | islandUpdate (path idx : Nat)
  /-- SERVICE_FLAG_CLEAR (R466): Host command that clears the service-touched flag. -/
  | serviceFlagClear (path idx : Nat)
  /-- HEALTH_READ (R500): Host command that returns health entries for one part class. -/
  | healthRead (path idx : Nat)
  -- Stalls (04)
  /-- CHAN_TRANSIENT_FAULT (R95): A channel detects a transient fault; it takes its safe state and enters RETRYING, or STOPPED during a stop.
  Operands: `k` stall; `cause` fault cause of R100. -/
  | chanTransientFault (k cause : Nat)
  /-- CHAN_PERMANENT_FAULT (R95): A fault becomes permanent; the channel is remapped to a healthy spare or goes FALLOW. Operands: `k` stall;
  `cause` fault cause of R100. -/
  | chanPermanentFault (k cause : Nat)
  /-- CHAN_RETRY (R101): The retry interval of a RETRYING channel elapses, and the retry is judged. Operands: `k` stall; `ok` the retry succeeded.
  -/
  | chanRetry (k : Nat) (ok : Bool)
  /-- FAULT_WINDOW_EXPIRE (R101): A fault episode becomes older than the window and leaves the channel's fault count. Operands: `k` stall. -/
  | faultWindowExpire (k : Nat)
  /-- HOLD_CAUSE_BEGIN (R96): A hold cause begins for a channel, which enters HOLD with that cause's action. Operands: `k` stall; `cause` hold
  cause, in the order of R96. -/
  | holdCauseBegin (k cause : Nat)
  /-- HOLD_CAUSE_END (R96): A hold cause ends; with no cause left the channel returns to RUNNING or STOPPED. Operands: `k` stall; `cause` hold
  cause, in the order of R96. -/
  | holdCauseEnd (k cause : Nat)
  /-- STOP_BEHAVIOUR_DONE (R95): A channel's stop behaviour completes; the channel is STOPPED and CHAN_STOP is answered. Operands: `k` stall. -/
  | stopBehaviourDone (k : Nat)
  /-- TIMED_WRITE_DUE (R98): The instant of a pending timed host write arrives, and the write takes effect. Operands: `k` stall. -/
  | timedWriteDue (k : Nat)
  /-- CACHE_MISS_FILL (R104): A stall-cache miss completes its fill and victim write-back, and the waiting access resumes. Operands: `k` stall. -/
  | cacheMissFill (k : Nat)
  /-- TIMER_ZERO (R92): A TIMER stall reaches a zero instant; it stays at 0 or reloads its preset. Operands: `k` stall. -/
  | timerZero (k : Nat)
  /-- LINEPOINT_STALE (R274): A LINEPOINT counts its stale limit of line cycles without an update and becomes INVALID. Operands: `k` stall. -/
  | linepointStale (k : Nat)
  -- Recipes and the Thresher (05)
  /-- CONDITION_EVAL (R117): The step engine evaluates the condition of a waiting instance in its turn. Operands: `i` recipe instance. -/
  | conditionEval (i : Nat)
  /-- STEP_TIMEOUT (R116): The final evaluation at T_enter plus timeout finds the condition false, and the instance enters its branch step.
  Operands: `i` recipe instance. -/
  | stepTimeout (i : Nat)
  /-- ACTION_ISSUE (R118): At least 5 µs before T_act the engine issues an action to its target island and locks the target stall. Operands: `i`
  recipe instance. -/
  | actionIssue (i : Nat)
  /-- TIMED_ACTION_APPLY (R118): The target island applies an issued action at T_act from its own comparator. -/
  | timedActionApply
  /-- INSTANCE_EPOCH (R122): An ARMED instance reaches its epoch and enters step 0. Operands: `i` recipe instance. -/
  | instanceEpoch (i : Nat)
  /-- END (R113): Recipe action that ends the instance as DONE. Operands: `i` recipe instance. -/
  | actEnd (i : Nat)
  /-- NOP (R113): Recipe action that does nothing. Operands: `i` recipe instance. -/
  | actNop (i : Nat)
  /-- SET (R114): Recipe action that writes a value to a stall. Operands: `i` recipe instance. -/
  | actSet (i : Nat)
  /-- ADD (R114): Recipe action that adds a value to a stall, saturating. Operands: `i` recipe instance. -/
  | actAdd (i : Nat)
  /-- TOGGLE (R113): Recipe action that inverts a BOOL stall. Operands: `i` recipe instance. -/
  | actToggle (i : Nat)
  /-- COPY (R114): Recipe action that copies one stall's value to another, converting between formats. Operands: `i` recipe instance. -/
  | actCopy (i : Nat)
  /-- PULSE (R113): Recipe action that sets a BOOL stall to 1 and schedules its return to 0. Operands: `i` recipe instance. -/
  | actPulse (i : Nat)
  /-- REG_SET (R113): Recipe action that sets an instance register. Operands: `i` recipe instance. -/
  | actRegSet (i : Nat)
  /-- REG_ADD (R113): Recipe action that adds to an instance register, wrapping. Operands: `i` recipe instance. -/
  | actRegAdd (i : Nat)
  /-- REG_LOAD (R114): Recipe action that loads a stall value into a register. Operands: `i` recipe instance. -/
  | actRegLoad (i : Nat)
  /-- REG_STORE (R114): Recipe action that stores a register into a stall. Operands: `i` recipe instance. -/
  | actRegStore (i : Nat)
  /-- JUMP (R113): Recipe action that names the next step. Operands: `i` recipe instance. -/
  | actJump (i : Nat)
  /-- DJNZ (R113): Recipe action that decrements a register and branches when it is not 0. Operands: `i` recipe instance. -/
  | actDjnz (i : Nat)
  /-- SIGNAL (R120): Recipe action that sets a node flag. Operands: `i` recipe instance. -/
  | actSignal (i : Nat)
  /-- UNSIGNAL (R120): Recipe action that clears a node flag. Operands: `i` recipe instance. -/
  | actUnsignal (i : Nat)
  /-- START_RECIPE (R115): Recipe action that starts another recipe instance. Operands: `i` recipe instance. -/
  | actStartRecipe (i : Nat)
  /-- STOP_RECIPE (R115): Recipe action that stops an instance. Operands: `i` recipe instance. -/
  | actStopRecipe (i : Nat)
  /-- RECIPE_AXIS_MOVE (R222): Recipe action that moves an axis to a target with default limits at T_act. Operands: `i` recipe instance. -/
  | actAxisMove (i : Nat)
  /-- RECIPE_CHAN_START (R113): Firmware-served recipe action that posts a channel start. Operands: `i` recipe instance. -/
  | actChanStart (i : Nat)
  /-- RECIPE_CHAN_STOP (R113): Firmware-served recipe action that posts a channel stop. Operands: `i` recipe instance. -/
  | actChanStop (i : Nat)
  /-- POST_TASK (R127): Recipe action that posts a handler task to the Thresher and stores its handle. Operands: `i` recipe instance. -/
  | actPostTask (i : Nat)
  /-- CANCEL_TASK (R132): Recipe action that cancels the task whose handle is in a register. Operands: `i` recipe instance. -/
  | actCancelTask (i : Nat)
  /-- RECIPE_NODE_WRITE (R113): Recipe action that sends a timed write to a stall of another node. Operands: `i` recipe instance. -/
  | actNodeWrite (i : Nat)
  /-- HARVEST_MARK (R386): Recipe action that fires a harvest trigger. Operands: `i` recipe instance. -/
  | actHarvestMark (i : Nat)
  /-- TASK_RELEASE (R128): At a delay-tick boundary the tasks whose release instant has passed become ready. -/
  | taskRelease
  /-- TASK_DISPATCH (R131): A core takes the task from its slot and runs it. Operands: `core` field core. -/
  | taskDispatch (core : Nat)
  /-- TASK_COMPLETE (R132): A task ends, and its outcome is written into the handle register. Operands: `core` field core. -/
  | taskComplete (core : Nat)
  -- Loops (06)
  /-- LOOP_UPDATE (R140): At a loop's update instant the engine reads source and set-point, computes the PI law and writes the sink. Operands: `k`
  stall; `drops` older updates that had not run. -/
  | loopUpdate (k drops : Nat)
  -- Field I/O (07)
  /-- INPUT_FILTERED_CHANGE (R157): An input's filtered value changes, and the stall is written and stamped. Operands: `i` input; `level` filtered
  level; `first` start of its run. -/
  | inputFilteredChange (i : Nat) (level : Bool) (first : Nat)
  /-- WIRE_BREAK_MEASURE (R156): Every 1 ms the input current is measured and classified for wire break. Operands: `i` input; `microAmp` current in
  µA. -/
  | wireBreakMeasure (i microAmp : Nat)
  /-- COMPARATOR_DISAGREE (R158): The two comparators of an input disagree for more than 20 µs: a transient fault. Operands: `i` input. -/
  | comparatorDisagree (i : Nat)
  /-- OUTPUT_CURRENT_LIMIT (R160): An output stays in current limit for the limit time and switches off with a transient fault. Operands: `o`
  output. -/
  | outputCurrentLimit (o : Nat)
  /-- GROUP_THERMAL_SHUTDOWN (R160): A thermal group reaches its shutdown temperature; its four outputs switch off and retry. Operands: `group`
  output group; `hot` outputs of the group above 0.5 A, a bit mask; `highest` output with the highest current. -/
  | groupThermalShutdown (group hot highest : Nat)
  /-- THERMAL_RESTART_TEMP (R160): A group or channel sensor falls below the restart temperature, and waiting retries go ahead. Operands: `sensor`
  0 to 2 a group, 3 to 6 a PO channel. -/
  | thermalRestartTemp (sensor : Nat)
  /-- OUTPUT_READBACK_FAULT (R161): A land of an output commanded off stays above the read-back threshold for 1 ms: an immediate condition.
  Operands: `o` output, PO0 to PO3 as 12 to 15. -/
  | outputReadbackFault (o : Nat)
  /-- PO_THERMAL_SHUTDOWN (R165): A protected output reaches its thermal shutdown and switches off with a transient fault. Operands: `p` PO
  channel. -/
  | poThermalShutdown (p : Nat)
  /-- OUTPUT_OPEN_LOAD (R166): The open-load condition holds, or ceases, for 50 ms; FIELD is set or cleared and logged. Operands: `p` PO channel;
  `isOpen` the condition holds; `milliAmp` current in mA. -/
  | outputOpenLoad (p : Nat) (isOpen : Bool) (milliAmp : Nat)
  /-- PWM_BOUNDARY (R164): A PWM period boundary arrives; a new duty or lower-ranked decision takes effect and the period starts on. Operands: `o`
  output, PO0 to PO3 as 12 to 15. -/
  | pwmBoundary (o : Nat)
  /-- FIRMWARE_WATCHDOG_FEED (R169): The field cores feed the I/O watchdog, at least every 250 µs while they run, with source 0. -/
  | firmwareWatchdogFeed
  /-- IO_WATCHDOG_EXPIRED (R170): The watchdog count reaches 0; every output takes the watchdog hold cause. -/
  | ioWatchdogExpired
  /-- IO_WATCHDOG_RESUME (R170): A SUSPENDED watchdog resumes counting when the field cores run again or 150 ms after the restart began. -/
  | ioWatchdogResume
  /-- FIELD_SUPPLY_WARN (R171): VF24 stays below the warning level for 1 ms, and the warning is raised. Operands: `mV` VF24 in mV. -/
  | fieldSupplyWarn (mV : Nat)
  /-- FIELD_SUPPLY_WARN_CLEAR (R171): VF24 stays above the clear level for 10 ms, and the warning is cleared. Operands: `mV` VF24 in mV. -/
  | fieldSupplyWarnClear (mV : Nat)
  /-- FIELD_SUPPLY_OFF (R172): VF24 stays below the cut-off for 200 µs; the latch sets, outputs switch off and field stalls hold. Operands: `mV`
  VF24 in mV. -/
  | fieldSupplyOff (mV : Nat)
  /-- FIELD_SUPPLY_RISE (R172): VF24 rises above the restore threshold, and the 10 ms wait starts. -/
  | fieldSupplyRise
  /-- FIELD_SUPPLY_LATCH_CLEAR (R172): VF24 has stayed above the restore threshold for 10 ms; the latch clears and VAUX comes on. Operands: `mV`
  VF24 in mV. -/
  | fieldSupplyLatchClear (mV : Nat)
  /-- OUTPUT_RESTORE_SLOT (R172): An output's restore slot arrives, and it takes its commanded value, watchdog safe state or STOPPED. Operands: `o`
  output, PO0 to PO3 as 12 to 15. -/
  | outputRestoreSlot (o : Nat)
  /-- INPUT_RESUME (R172): 5 ms after the latch clears the inputs are sampled again. -/
  | inputResume
  -- Analog (08)
  /-- ADC_FRAME (R184): At a frame boundary both converters start their slot lists. -/
  | adcFrame
  /-- ADC_SELF_CHECK (R186): At each 100 ms boundary the converters check AGND and the reference and judge faults and retries. Operands: `conv`
  converter; `agndV` AGND in nV; `refV` reference in nV. -/
  | adcSelfCheck (conv : Nat) (agndV refV : Int)
  /-- ADC_SLOT_RESULT (R185): A slot's conversions end; the result updates its stall and optionally its ring. Operands: `slot` slot of the frame;
  `nV` voltages its conversions saw, in nV; `nK` temperatures, in nK; `nA` currents, in nA. -/
  | adcSlotResult (slot : Nat) (nV nK nA : List Int)
  /-- ADC_LIST_APPLY (R188): An accepted slot list replaces the old one at a frame boundary, and the rings are initialised. -/
  | adcListApply
  -- Position (09)
  /-- ENCODER_STEP (R196): An accepted encoder change is decoded into a step and updates the count, speed and compares. Operands: `i` position
  interface; `a` level of A; `b` level of B; `t` instant as t64. -/
  | encoderStep (i : Nat) (a b : Bool) (t : Nat)
  /-- ENCODER_Z_EDGE (R206): A Z edge is captured by latches armed on it. Operands: `i` position interface; `rising` rising edge; `t` instant as
  t64. -/
  | encoderZEdge (i : Nat) (rising : Bool) (t : Nat)
  /-- LATCH_INPUT_EDGE (R206): A filtered input edge reaches the Motion island and is captured by latches armed on it. Operands: `input` input;
  `rising` rising edge. -/
  | latchInputEdge (input : Nat) (rising : Bool)
  /-- LATCH_INSTANT (R206): A latch armed on a line-time instant captures at the first sample at or after it. Operands: `i` position interface; `l`
  latch; `t` instant as t64. -/
  | latchInstant (i l t : Nat)
  /-- COMPARE_PULSE_END (R211): The width of a compare pulse elapses, and the output switches off. Operands: `o` output, PO0 to PO3 as 12 to 15. -/
  | comparePulseEnd (o : Nat)
  /-- SSI_FRAME_START (R199): At an SSI period instant the SL4 starts a frame by driving the clock low. Operands: `i` position interface; `aHigh`
  level of A. -/
  | ssiFrameStart (i : Nat) (aHigh : Bool)
  /-- SSI_FRAME_END (R199): An SSI frame ends; its word is checked and taken, or a frame error is raised. Operands: `i` position interface; `word`
  word sampled; `aHigh` level of A. -/
  | ssiFrameEnd (i word : Nat) (aHigh : Bool)
  /-- POSITION_REBASE (R201): Every 100 ms the field cores rebase the extended count. -/
  | positionRebase
  /-- POSITION_STALL_WRITE (R203): Every 10 µs the Motion island writes the extended count and speed to the POSITION stall. Operands: `i` position
  interface. -/
  | positionStallWrite (i : Nat)
  /-- ENCODER_STANDSTILL (R204): 100 ms pass without an edge; the speed is 0 and STANDSTILL is set. Operands: `i` position interface. -/
  | encoderStandstill (i : Nat)
  -- Motion (10)
  /-- PLANNER_TICK (R219): At each 20 µs tick the planner replans and integrates each axis and the gear and table advance. -/
  | plannerTick
  /-- TIMED_MOTION_DUE (R223): The instant of a scheduled AXIS_MOVE or AXIS_STOP arrives, and it takes effect. Operands: `a` axis. -/
  | timedMotionDue (a : Nat)
  /-- FOLLOWING_ERROR (R235): The following error stays beyond its window for ferr_time ticks: a transient fault. Operands: `a` axis. -/
  | followingError (a : Nat)
  /-- LIMIT_SWITCH (R236): A limit switch becomes active, and the axis makes a quick stop. Operands: `a` axis; `positive` the positive switch. -/
  | limitSwitch (a : Nat) (positive : Bool)
  /-- GEAR_SYNC_TIMEOUT (R233): A SYNCING axis finds no lock within 10 s and stops with GEAR_STEP logged. Operands: `a` axis. -/
  | gearSyncTimeout (a : Nat)
  /-- GEAR_MASTER_LOST (R234): A gear master goes invalid, FALLOW, stale or lost, and the axis stops. Operands: `a` axis. -/
  | gearMasterLost (a : Nat)
  -- Drive stage (11)
  /-- CHOPPER_BLANK_END (R247): Blanking of an on-time ends, and the comparator begins to sample. Operands: `a` axis; `p` phase. -/
  | chopperBlankEnd (a p : Nat)
  /-- CHOPPER_TRIP (R247): The sense voltage reaches V_ref on two samples, and the on-time ends in fast decay. Operands: `a` axis; `p` phase;
  `code` |V_sense| in units of 7.62939453125 µV. -/
  | chopperTrip (a p code : Nat)
  /-- CHOPPER_FORCED_OFF (R247): An on-time reaches 100 µs without a trip and is ended as a forced off. Operands: `a` axis; `p` phase; `peak` peak
  |V_sense| in the same units. -/
  | chopperForcedOff (a p peak : Nat)
  /-- CHOPPER_SLOW_DECAY (R247): The fast-decay time ends, and the phase enters BRAKE. Operands: `a` axis; `p` phase. -/
  | chopperSlowDecay (a p : Nat)
  /-- CHOPPER_OFF_END (R247): The off-time ends, and the next on-time begins. Operands: `a` axis; `p` phase. -/
  | chopperOffEnd (a p : Nat)
  /-- BRIDGE_OVERCURRENT (R252): The sense voltage stays above the overcurrent threshold for two samples; both phases go OPEN. Operands: `a` axis.
  -/
  | bridgeOvercurrent (a : Nat)
  /-- OPEN_PHASE (R253): 16 consecutive forced-off cycles with low current reveal an open phase: an immediate condition. Operands: `a` axis; `p`
  phase. -/
  | openPhase (a p : Nat)
  /-- COIL_IDLE_TIMEOUT (R251): The axis has stood still for the idle time, and the coils pass to HOLD, COAST or SHORT. Operands: `a` axis. -/
  | coilIdleTimeout (a : Nat)
  -- Line (12)
  /-- PARTNER_SIGNAL (R263): A port detects a partner signal and starts auto-negotiation. Operands: `p` line port; `adv` rates advertised, a bit
  for each rate code; `bypasses` estimate of closed bypasses. -/
  | partnerSignal (p adv bypasses : Nat)
  /-- TRAINING_RATE_TIMEOUT (R259): Training at a rate does not complete within 150 ms, and the next lower rate is tried. Operands: `p` line port.
  -/
  | trainingRateTimeout (p : Nat)
  /-- LINK_UP (R263): A port's link comes up, and it waits for LINK_HELLO. Operands: `p` line port; `length` channel estimate in m; `preempt` the
  verify exchange succeeded; `lpi` the partner agrees to low-power idle. -/
  | linkUp (p length : Nat) (preempt lpi : Bool)
  /-- LINK_HELLO_TIMEOUT (R261): No LINK_HELLO arrives within 1 s of link-up, and the port becomes FOREIGN. Operands: `p` line port. -/
  | linkHelloTimeout (p : Nat)
  /-- LINK_HELLO (R271): A LINK_HELLO frame arrives; it marks an SL4 partner, keeps the link alive and judges the level. Operands: `p` line port;
  `address` node address; `level` Kerey level byte; `serial` serial number. -/
  | linkHello (p address level serial : Nat)
  /-- LINK_LOST (R263): A port loses block lock or the PHY reports link down; the port goes DOWN and a ring wraps. Operands: `p` line port. -/
  | linkLost (p : Nat)
  /-- PORT_SILENT (R263): No good frame arrives for one line cycle plus 50 µs, and the port goes DOWN. Operands: `p` line port. -/
  | portSilent (p : Nat)
  /-- RATE_RETRY (R259): Every 10 min a port below its capped rate tries to retrain to it. Operands: `p` line port. -/
  | rateRetry (p : Nat)
  /-- TRAINING_FAIL_TIMEOUT (R281): Every rate has failed for 60 s with a partner signal present, and the port is retired. Operands: `p` line port.
  -/
  | trainingFailTimeout (p : Nat)
  /-- FEC_BURST (R281): More than 10 uncorrectable FEC blocks within 1 s drop and retrain the link. Operands: `p` line port; `blocks` uncorrectable
  blocks. -/
  | fecBurst (p blocks : Nat)
  /-- LINE_CYCLE_BOUNDARY (R277): A line-cycle boundary starts the gate list and sends LINK_HELLO on each UP or TRAINING port. Operands: `t`
  instant as t64. -/
  | lineCycleBoundary (t : Nat)
  /-- GATE_ENTRY_CHANGE (R277): A gate-list entry ends and the next entry's gate mask takes force. Operands: `p` line port; `t` instant as t64. -/
  | gateEntryChange (p t : Nat)
  /-- CYCLIC_SEND (R274): At the cycle boundary plus the publish offset the node sends its CYCLIC frame. -/
  | cyclicSend
  /-- KEREY_FRAME_FORWARD (R273): On byte 37 of an incoming frame the switch checks the header and forwards it cut-through or delivers it.
  Operands: `p` line port; `mac` source MAC address; `level` Kerey level byte; `type` frame type; `flags` flags; `dst` destination; `src` source;
  `ttl` ttl; `seq` sequence number; `payload` payload bytes; `hcrc` header CRC in the frame; `fcs` 0 good, 1 bad, 2 inverted; `fec` FEC blocks
  corrected and uncorrectable. -/
  | kereyFrameForward (p mac level type flags dst src ttl seq : Nat) (payload : List Nat) (hcrc fcs : Nat) (fec : Nat × Nat)
  /-- PLANT_FRAME_IN (R269): The head takes a frame from the plant, assigns a proxy address and rate-limits it. Operands: `mac` source MAC address;
  `level` Kerey level byte; `type` frame type; `flags` flags; `dst` destination; `src` source; `ttl` ttl; `seq` sequence number; `payload` payload
  bytes. -/
  | plantFrameIn (mac level type flags dst src ttl seq : Nat) (payload : List Nat)
  /-- PROXY_EXPIRE (R269): A plant proxy entry expires after 10 min without traffic. Operands: `address` node address. -/
  | proxyExpire (address : Nat)
  /-- LEAVE (R262): A neighbour's LEAVE frame arrives, and the port goes DOWN without waiting for loss of lock. Operands: `p` line port. -/
  | leave (p : Nat)
  /-- RING_BREAK (R280): A RING_BREAK frame arrives; routes point the other way, and the head forwards between A and B. Operands: `up` address
  above; `down` address below. -/
  | ringBreak (up down : Nat)
  /-- RING_CLOSED (R280): A RING_CLOSED frame arrives, and the restoration of routes is scheduled. Operands: `up` address above; `down` address
  below. -/
  | ringClosed (up down : Nat)
  /-- RING_ROUTE_RESTORE (R280): At the first cycle boundary after RING_CLOSED, routes are restored and the head stops forwarding between A and B.
  -/
  | ringRouteRestore
  /-- TOPO_REPORT (R268): The head receives a TOPO_REPORT and updates its map of the line. Operands: `serial` serial number; `address` node
  address; `level` Kerey level byte; `ports` port states; `neigh` neighbour addresses; `rates` port rates; `head` the sender is the head. -/
  | topoReport (serial address level : Nat) (ports neigh rates : List Nat) (head : Bool)
  /-- TOPO_MAP_SEND (R268): Within 2 line cycles of a change the head broadcasts TOPO_MAP. -/
  | topoMapSend
  /-- TOPO_MAP (R268): A node receives TOPO_MAP and derives its route table, line level and cycle. Operands: `src` source address; `cycle` line
  cycle in µs; `cycleAt` instant of a new cycle, 0 none; `level` Kerey level byte; `raiseLevel` level of a raise, 0 none; `raiseAt` instant of the
  raise; `nodes` map entries. -/
  | topoMap (src cycle cycleAt level raiseLevel raiseAt : Nat) (nodes : List (List Nat))
  /-- ADDR_REQUEST (R267): The head receives ADDR_REQUEST and, with auto-assign on, answers with ADDR_ASSIGN. Operands: `serial` serial number. -/
  | addrRequest (serial : Nat)
  /-- ADDR_ASSIGN (R267): A node receives ADDR_ASSIGN and stores its address, or suspends it on a conflict. Operands: `serial` serial number;
  `address` node address. -/
  | addrAssign (serial address : Nat)
  /-- CYCLIC (R274): A CYCLIC frame arrives, and the LINEPOINT stalls that mirror its entries take their values. Operands: `src` source address;
  `t` sample instant; `entries` entries [stall, status, format, value]. -/
  | cyclic (src t : Nat) (entries : List (List Nat))
  /-- NODE_WRITE (R275): A NODE_WRITE frame arrives and is applied as a timed write to the target stall. Operands: `src` source address; `stall`
  target stall; `value` value; `t` instant, 0 at once. -/
  | nodeWrite (src stall value t : Nat)
  /-- LINE_CYCLE_APPLY (R284): At the 10 ms boundary at least 100 ms after acceptance a new line cycle or gate list takes force. -/
  | lineCycleApply
  /-- LPI_ENTER (R458): A port's queues have been empty for 20 µs outside entry 0 and boundaries, and it enters low-power idle. Operands: `p` line
  port. -/
  | lpiEnter (p : Nat)
  /-- LPI_EXIT (R458): A frame is queued on a port in LPI, which leaves LPI within 16 µs. Operands: `p` line port. -/
  | lpiExit (p : Nat)
  -- Line time (13)
  /-- SYNC (R296): A Sync message arrives on the slave port and is relayed to the master ports. Operands: `p` line port; `raw` raw ingress stamp.
  -/
  | sync (p raw : Nat)
  /-- FOLLOW_UP (R297): A Follow_Up completes a Sync; the servo computes the offset and adjusts the increment through its states. Operands: `p`
  line port; `origin` precise origin and correction, in 2^-4 ns; `rateOffset` cumulative rate offset in 2^-41; `raws` raw egress stamps of the
  relayed Syncs, ports A to C. -/
  | followUp (p : Nat) (origin : Nat × Int) (rateOffset : Int) (raws : List Nat)
  /-- SYNC_LOST (R298): No Sync arrives within 3 intervals; the servo enters HOLDOVER or FREE. -/
  | syncLost
  /-- HOLDOVER_EXPIRED (R298): The holdover time elapses, and the servo enters FREE. -/
  | holdoverExpired
  /-- SYNC_SEND (R296): A master port sends Sync at its interval. Operands: `at_` line port and raw egress stamp. -/
  | syncSend (at_ : Nat × Nat)
  /-- PDELAY_REQ_SEND (R296): Once per second each port sends Pdelay_Req. Operands: `p` line port. -/
  | pdelayReqSend (p : Nat)
  /-- PDELAY_REQ (R294): A Pdelay_Req arrives and is answered with two-step Pdelay_Resp. Operands: `p` line port; `req` sequenceId and identity of
  the requesting port; `raw` raw stamps of its ingress and of the answer's egress. -/
  | pdelayReq (p : Nat) (req raw : Nat × Nat)
  /-- PDELAY_RESP (R296): A Pdelay_Resp completes a delay exchange, setting the link delay and asCapable. Operands: `p` line port; `raw1` raw
  egress stamp of the request; `t2` partner stamp; `t3` partner stamp; `raw4` raw ingress stamp of the response. -/
  | pdelayResp (p raw1 t2 t3 raw4 : Nat)
  /-- ANNOUNCE (R294): An Announce message arrives with grandmaster identity, stepsRemoved and UTC offset. Operands: `p` line port; `gm`
  grandmaster identity; `steps` steps removed; `utc` UTC offset in s. -/
  | announce (p gm steps : Nat) (utc : Int)
  -- Zone bus (14)
  /-- REFERENCE_MESSAGE_DUE (R323): At a reference period instant the time master places a reference message, withdrawing an unsent one. Operands:
  `started` the bus lets its start of frame out. -/
  | referenceMessageDue (started : Bool)
  /-- ZB_INTEGRATED (R310): The controller sees 11 recessive bits while INTEGRATING and becomes ERROR_ACTIVE or RESTRICTED. -/
  | zbIntegrated
  /-- ZB_FRAME_RECEIVED (R312): A zone-bus frame is received with a valid CRC and goes to the lane, objects and ring. Operands: `ident` identifier
  and IDE bit; `fd` FD format; `brs` bit rate switch; `esi` error state indicator; `rtr` remote frame; `data` data bytes; `sof` instant of the
  start of frame. -/
  | zbFrameReceived (ident : Nat) (fd brs esi rtr : Bool) (data : List Nat) (sof : Nat)
  /-- ZB_FRAME_SENT (R316): The head message is sent without error and leaves the FIFO. Operands: `sof` instant of the start of frame; `delay`
  measured loop delay. -/
  | zbFrameSent (sof delay : Nat)
  /-- ZB_TX_ERROR (R317): A transmission ends in an error; counters, retry limit, bus-off and clash count are applied. Operands: `kind` kind, coded
  as last_error of R328; `clash` bit error after arbitration; `add` added to TEC. -/
  | zbTxError (kind : Nat) (clash : Bool) (add : Nat)
  /-- ZB_RX_ERROR (R310): An error is detected in reception and the receive error counter and state change. Operands: `kind` kind, coded as
  last_error of R328; `add` added to REC; `res` recessive res bit. -/
  | zbRxError (kind add : Nat) (res : Bool)
  /-- ZB_ARB_LOST (R316): The head message loses arbitration and waits for the next bus idle. -/
  | zbArbLost
  /-- ZB_SUSPEND_END (R311): The suspend-transmission time of an error-passive node ends, and the head may start. -/
  | zbSuspendEnd
  /-- ZB_RECOVERY_DELAY (R310): The recovery delay elapses in BUS_OFF, and RECOVERING starts. -/
  | zbRecoveryDelay
  /-- ZB_RECOVERED (R310): 128 occurrences of 11 recessive bits complete recovery to ERROR_ACTIVE. -/
  | zbRecovered
  /-- ZB_EXPRESS_RELOAD (R318): At bus idle after an express request, firmware reloads the FIFO with express messages first. -/
  | zbExpressReload
  /-- REMOTE_TX_PERIOD (R321): At a transmit period instant the frame of a REMOTE identifier is placed in the FIFO. Operands: `ident` identifier
  and IDE bit; `started` the frame went out at its period. -/
  | remoteTxPeriod (ident : Nat) (started : Bool)
  /-- REMOTE_RX_TIMEOUT (R320): A REMOTE receive stall has no usable frame for its timeout: a transient fault. Operands: `k` stall. -/
  | remoteRxTimeout (k : Nat)
  -- Custody (15)
  /-- CUSTODY_EVAL (R337): Every 100 µs custody computes positions, fixes exits and sets or clears decision flags. -/
  | custodyEval
  /-- CUSTODY_EYE_RISE (R338): A rising edge of an exit eye matches records for handoff or release. Operands: `k` exit; `t` stamp of the edge. -/
  | custodyEyeRise (k t : Nat)
  /-- CUSTODY_EYE_FALL (R344): The falling edge of a leaving exit's eye releases the matched record. Operands: `k` exit; `t` stamp of the edge. -/
  | custodyEyeFall (k t : Nat)
  /-- CUSTODY_TRAVEL_LIMIT (R344): A rising edge without a falling edge within length + 500 mm of travel releases the record anyway. Operands: `k`
  exit. -/
  | custodyTravelLimit (k : Nat)
  /-- CUSTODY_CREATE (R339): The CREATE task creates a record at induction. Operands: `slot` task slot. -/
  | custodyCreate (slot : Nat)
  /-- CUSTODY_SCAN (R339): A scanner frame from the lane tags the nearest record or logs an orphan. -/
  | custodyScan
  /-- HANDOFF_OFFER (R342): A receiver gets an offered record and stores it INBOUND, or refuses. Operands: `p` line port the frame came in by;
  `record` record bytes. -/
  | handoffOffer (p : Nat) (record : List Nat)
  /-- HANDOFF_ACCEPT (R335): The giver receives ACCEPT, releases the record and sends COMMIT. Operands: `p` line port the frame came in by;
  `parcel` parcel identifier; `version` record version. -/
  | handoffAccept (p parcel version : Nat)
  /-- HANDOFF_REFUSE (R343): The giver receives REFUSE and keeps the record OUTBOUND. Operands: `p` line port the frame came in by; `parcel` parcel
  identifier; `version` record version; `status` status. -/
  | handoffRefuse (p parcel version status : Nat)
  /-- HANDOFF_COMMIT (R335): The receiver gets COMMIT, makes the record HELD and answers COMMIT_ACK. Operands: `p` line port the frame came in by;
  `parcel` parcel identifier; `version` record version. -/
  | handoffCommit (p parcel version : Nat)
  /-- COMMIT_ACK (R341): The giver receives COMMIT_ACK and stops repeating COMMIT. Operands: `p` line port the frame came in by; `parcel` parcel
  identifier; `version` record version. -/
  | commitAck (p parcel version : Nat)
  /-- HANDOFF_QUERY (R343): The giver receives HANDOFF_QUERY and answers with COMMIT. Operands: `p` line port the frame came in by; `parcel` parcel
  identifier; `version` record version. -/
  | handoffQuery (p parcel version : Nat)
  /-- MIRROR_UPDATE (R340): A holder receives record copies and replaces older versions, or answers MIRROR_FULL. Operands: `p` line port the frame
  came in by; `records` records, 128 bytes each. -/
  | mirrorUpdate (p : Nat) (records : List (List Nat))
  /-- MIRROR_FULL (R340): A custodian receives MIRROR_FULL, writes a checkpoint and sends the update again. Operands: `p` line port the frame came
  in by; `parcel` parcel identifier; `version` record version. -/
  | mirrorFull (p parcel version : Nat)
  /-- MIRROR_DROP (R340): A holder receives MIRROR_DROP and frees the named copies. Operands: `p` line port the frame came in by; `parcels` parcel
  identifiers. -/
  | mirrorDrop (p : Nat) (parcels : List Nat)
  /-- CKPT_NOTE (R340): A holder receives a durable checkpoint sequence and marks copies clean or frees them. Operands: `p` line port the frame
  came in by; `durable` durable sequence number. -/
  | ckptNote (p durable : Nat)
  /-- RECOVER_REQ (R349): A neighbour receives RECOVER_REQ and answers with RECOVER_DATA and RECOVER_END. Operands: `p` line port the frame came in
  by; `serial` serial number; `lastDurable` last durable sequence number. -/
  | recoverReq (p serial lastDurable : Nat)
  /-- RECOVER_DATA (R349): A recovering node receives copies from a neighbour. Operands: `p` line port the frame came in by; `status` status;
  `records` records, 128 bytes each. -/
  | recoverData (p status : Nat) (records : List (List Nat))
  /-- RECOVER_END (R349): A recovering node receives a neighbour's end of recovery data. Operands: `p` line port the frame came in by; `recovering`
  the sender is recovering. -/
  | recoverEnd (p : Nat) (recovering : Bool)
  /-- CUSTODY_REPEAT (R341): Once per line cycle every unanswered state-changing custody message is repeated. -/
  | custodyRepeat
  /-- HANDOFF_TIMEOUT (R335): No ACCEPT arrives within 8 line cycles, and CUSTODY_HANDOFF_FAIL is logged. Operands: `parcel` parcel identifier. -/
  | handoffTimeout (parcel : Nat)
  /-- COMMIT_WAIT_TIMEOUT (R343): An INBOUND record gets no COMMIT within 4 line cycles, and HANDOFF_QUERY is sent. Operands: `parcel` parcel
  identifier. -/
  | commitWaitTimeout (parcel : Nat)
  /-- CHECKPOINT_PERIOD (R345): At the end of a checkpoint period changed records are appended as a delta, or a snapshot is written. -/
  | checkpointPeriod
  /-- CHECKPOINT_DURABLE (R345): A checkpoint commit becomes durable; CKPT_NOTE is sent and released slots are freed. -/
  | checkpointDurable
  /-- CUSTODY_RECOVERY_START (R349): At t7 custody loads its checkpoint and sends RECOVER_REQ to its neighbours. -/
  | custodyRecoveryStart
  /-- RECOVERY_MERGE (R350): After every RECOVER_END, or 10 line cycles, the records are merged and handoffs re-run. -/
  | recoveryMerge
  -- Energy (20)
  /-- ENERGY_INTERVAL (R460): Every 10 ms the energy of the interval is shared among HELD records. Operands: `seen` voltage at the tap in mV, and
  increments of the 17 meters in µJ. -/
  | energyInterval (seen : Nat × List Nat)
  -- Lifts and gates (16)
  /-- LIFT_POSITION_UPDATE (R355): Every 1 ms the lift manager computes car_pos, writes the LIFT stall and checks flags. Operands: `l` lift. -/
  | liftPositionUpdate (l : Nat)
  /-- LEVEL_FLAG_EDGE (R356): A rising level-flag edge references the car or reveals a position fault. Operands: `l` lift; `k` level; `t` stamp of
  the edge. -/
  | levelFlagEdge (l k t : Nat)
  /-- LIFT_DRIVE_AT_TARGET (R361): The lift drive reports AT_TARGET, and torque off is requested for arrival. Operands: `l` lift. -/
  | liftDriveAtTarget (l : Nat)
  /-- LIFT_ARRIVAL_SETTLED (R361): With a REMOTE drive the car has stayed within stop_tol for 100 ms, and arrival starts. Operands: `l` lift. -/
  | liftArrivalSettled (l : Nat)
  /-- LIFT_ARRIVAL_TIMEOUT (R361): Arrival conditions are not all met within 2 s; the target is commanded again, or the lift faults. Operands: `l`
  lift. -/
  | liftArrivalTimeout (l : Nat)
  /-- GATE_DWELL_EXPIRED (R361): The dwell after a gate opens elapses, and the gate closes once hold_flag is 0. Operands: `g` gate. -/
  | gateDwellExpired (g : Nat)
  /-- LIFT_PARK_DUE (R359): A lift idle without calls for idle_time travels to its park level. Operands: `l` lift. -/
  | liftParkDue (l : Nat)
  /-- LIFT_REF_TRAVEL_EXCEEDED (R363): A referencing lift passes ref_travel without a flag edge and faults. Operands: `l` lift. -/
  | liftRefTravelExceeded (l : Nat)
  /-- GATE_INPUT_CHANGE (R365): A gate's closed or locked input changes, or open is reached, and the gate state advances. Operands: `g` gate. -/
  | gateInputChange (g : Nat)
  /-- GATE_TIMEOUT (R365): A gate's unlock, open, close or lock time elapses, and it faults or reopens. Operands: `g` gate. -/
  | gateTimeout (g : Nat)
  /-- GATE_OBSTRUCTION_CHECK (R366): Every 1 ms a closing gate is checked for obstruction and reversed on detection. Operands: `g` gate. -/
  | gateObstructionCheck (g : Nat)
  /-- GATE_RETRY_DWELL (R365): After a reopening the retry dwell elapses, and closing is requested again. Operands: `g` gate. -/
  | gateRetryDwell (g : Nat)
  /-- LIFT_INTERLOCK_CHANGE (R367): The lift interlock value changes, granting or withdrawing permits. Operands: `l` lift. -/
  | liftInterlockChange (l : Nat)
  -- Harvest (17)
  /-- HARVEST_SAMPLE (R381): At a sample instant the Sequencer snapshots the due entries into the raw ring and judges triggers. Operands: `full`
  the raw ring has no room. -/
  | harvestSample (full : Bool)
  /-- HARVEST_FRAME_SEND (R392): The field cores encode samples and send HARVEST frames through each slot's token bucket, dropping into GAPs.
  Operands: `k` collector slot. -/
  | harvestFrameSend (k : Nat)
  /-- HARVEST_LIST_APPLY (R380): A committed list takes effect at a sample instant with a new generation. -/
  | harvestListApply
  /-- TRIGGER_HOLDOFF_END (R387): An AUTO trigger's holdoff elapses, and it returns to ARMED. Operands: `k` trigger. -/
  | triggerHoldoffEnd (k : Nat)
  /-- TBUS_EDGE (R394): A TBUS falling edge fires every armed TBUS trigger. Operands: `stamp` stamp of the edge. -/
  | tbusEdge (stamp : Nat)
  /-- CBUS_EDGE (R394): A CBUS falling edge is a sample in slave mode, or reveals a second master. Operands: `stamp` stamp of the edge; `full` the
  raw ring has no room. -/
  | cbusEdge (stamp : Nat) (full : Bool)
  /-- CBUS_PULSE (R394): As CBUS master the SL4 pulls CBUS low ahead of each sample instant. Operands: `low` pull low, else release. -/
  | cbusPulse (low : Bool)
  /-- TBUS_PULSE_END (R394): A 10 µs TBUS output pulse ends, and the land is released. -/
  | tbusPulseEnd
  /-- HARVEST_RESERVE_REQUEST (R391): The head receives a reservation request and grants or refuses it. Operands: `node` address of the node;
  `slot` collector slot; `collector` collector address; `share` share in units of the request. -/
  | harvestReserveRequest (node slot collector share : Nat)
  /-- HARVEST_GRANT (R391): A node receives a grant, and the slot becomes GRANTED. Operands: `k` collector slot; `share` share granted. -/
  | harvestGrant (k share : Nat)
  /-- HARVEST_REFUSE (R391): A node receives a refusal, and the slot becomes REFUSED. Operands: `k` collector slot. -/
  | harvestRefuse (k : Nat)
  /-- HARVEST_REVOKE (R391): A node receives a revocation, and the slot stops sending. Operands: `k` collector slot. -/
  | harvestRevoke (k : Nat)
  /-- HARVEST_RESERVATION_TIMEOUT (R391): A request gets no answer within 2 s, and the slot becomes REFUSED. Operands: `k` collector slot. -/
  | harvestReservationTimeout (k : Nat)
  /-- HARVEST_RESERVATION_RETRY (R391): 60 s after a refusal or revocation the slot asks again. Operands: `k` collector slot. -/
  | harvestReservationRetry (k : Nat)
  -- Store and recorder (18, 22)
  /-- STORE_RECORD_REQUEST (R403): The store controller takes an event record and programs bytes 0 … 30 of the next slot. -/
  | storeRecordRequest
  /-- RECORD_PROGRAMMED (R403): The record body is programmed and verified, and the valid mark is programmed. -/
  | recordProgrammed
  /-- RECORD_VALID_MARK_DONE (R403): The valid mark is written, and the record is durable. -/
  | recordValidMarkDone
  /-- BLOCK_ERASE_DONE (R402): A store block erase completes. Operands: `b` block: the Granary from 0, the Rick from 128. -/
  | blockEraseDone (b : Nat)
  /-- NVS_RETRY (R495): A failed store program or erase is retried, and the block is judged. Operands: `p` partition; `t` instant as t64; `ok` the
  retry succeeded. -/
  | nvsRetry (p idx t : Nat) (ok : Bool)
  /-- NVS_REWRITE (R495): A block with a transient read failure is rewritten within 10 s. Operands: `p` partition; `u` data unit of the block; `ok`
  the retry succeeded. -/
  | nvsRewrite (p idx u : Nat) (ok : Bool)
  -- Safety (19)
  /-- SAFETY_CYCLE (R413): At each safety cycle instant a channel filters signals, evaluates functions, commands switches and sends its compare
  record. Operands: `c` safety channel. -/
  | safetyCycle (c : Nat)
  /-- SAFETY_INBOUND_READ (R413): Every 50 µs a channel reads safe frames in its inbound mailbox and opens switches on a 0 bit. Operands: `c`
  safety channel; `above` lands above the rising threshold, a bit mask; `below` lands below the falling threshold. -/
  | safetyInboundRead (c above below : Nat)
  /-- CROSS_RECORD (R414): A compare record arrives over the cross link and is compared with the channel's own. Operands: `c` safety channel. -/
  | crossRecord (c : Nat)
  /-- PARTNER_LOST (R414): No compare record arrives for 3 cycles, and the partner is lost. Operands: `c` safety channel. -/
  | partnerLost (c : Nat)
  /-- SAFETY_SELF_TEST (R415): A periodic self-test of a safety channel runs, and a failure declares the channel failed. Operands: `c` safety
  channel; `k` test, coded as the cause of SAFETY_CHANNEL_FAULT; `ok` it passed; `detail` detail. -/
  | safetySelfTest (c k : Nat) (ok : Bool) (detail : Nat)
  /-- FOLLOWER_TIMEOUT (R417): A follower receives no record for 2 cycles and opens its switches. Operands: `c` safety channel. -/
  | followerTimeout (c : Nat)
  /-- FALLBACK_EXPIRED (R416): The single-channel fallback time elapses, and the zone enters STOP. -/
  | fallbackExpired
  /-- SAFETY_DISCREPANCY (R419): Two lands of a signal disagree beyond the discrepancy time; the signal latches FAULT. Operands: `c` safety
  channel; `k` signal. -/
  | safetyDiscrepancy (c k : Nat)
  /-- LOCK_MONITOR_TIMEOUT (R424): A guard lock does not reach its expected reading within time0, setting FAULT and DEMAND. Operands: `i` function.
  -/
  | lockMonitorTimeout (i : Nat)
  /-- UNLOCK_REQUEST_TIMEOUT (R424): An unlock request stays pending for 60 s and is answered BUSY. Operands: `i` function. -/
  | unlockRequestTimeout (i : Nat)
  /-- DEGRADED_TIMEOUT (R435): A DEGRADED connection reaches its degrade time and becomes SAFE. Operands: `c` safety channel; `k` connection. -/
  | degradedTimeout (c k : Nat)
  /-- SAFE_FRAME_GATHER (R432): At each line-cycle boundary the field cores send produced copies and write received copies to the inbound
  mailboxes. -/
  | safeFrameGather
  /-- SAFETY_FRAME (R432): A Kerey SAFETY frame or zone-bus safe copy is received for the consumer. Operands: `src` source address; `path2` path 2;
  `copies` copies, in bytes. -/
  | safetyFrame (src : Nat) (path2 : Bool) (copies : List (List Nat))
  /-- SAFE_STALL_UPDATE (R422): Once per safety cycle the field cores write SAFE stalls from the outbound mailbox. -/
  | safeStallUpdate
  /-- TORQUE_ON (R428): Safety request to put a lift's torque on. Operands: `i` function. -/
  | torqueOn (i : Nat)
  /-- TORQUE_OFF (R428): Safety request to remove a lift's torque. Operands: `i` function. -/
  | torqueOff (i : Nat)
  /-- UNLOCK (R424): Safety request to release a guard lock. Operands: `i` function. -/
  | unlock (i : Nat)
  /-- LOCK (R424): Safety request to apply a guard lock. Operands: `i` function. -/
  | lock (i : Nat)
  /-- RESTART (R428): Safety request to restart a function or the zone. Operands: `i` function. -/
  | restart (i : Nat)
  /-- STOP_ZONE (R428): Safety request to stop the zone. -/
  | stopZone
  /-- RESTART_NOTICE (R436): Safety request announcing a planned firmware-core restart. -/
  | restartNotice
  -- Sleep and the Gleaner (20)
  /-- SLEEP_ENTRY (R449): No blocker has stood for the delay; sleep entry starts and firmware context is saved. -/
  | sleepEntry
  /-- SLEEP_CONTEXT_SAVED (R449): Context saved; the zone bus frame in progress completes and the controller goes OFFLINE. -/
  | sleepContextSaved
  /-- SLEEP_ZB_OFFLINE (R449): With the zone bus offline the islands gate and the wake timer is armed. -/
  | sleepZbOffline
  /-- WAKE_TIMER (R448): The wake timer reaches its instant and wakes the node. -/
  | wakeTimer
  /-- WAKE (R450): A wake cause starts the wake sequence. Operands: `lines` wake lines taken in, a bit mask. -/
  | wake (lines : Nat)
  /-- WOKE (R451): Every island is back in RUN, and outputs and functions resume. Operands: `edgesLost` interfaces whose decoder met more than 1
  MHz, a bit mask. -/
  | woke (edgesLost : Nat)
  /-- GLEANER_SAMPLE (R456): At a Gleaner sample instant the rules filter their inputs and carry out their actions. Operands: `levels` comparator
  levels of the inputs, a bit mask; `xs` inputs of the analog sources in nV. -/
  | gleanerSample (levels : Nat) (xs : List Int)
  -- Update and level (21)
  /-- BULK (R471): A BULK frame with a valid ticket stages data at the high-water mark. Operands: `src` source address; `payload` payload bytes. -/
  | bulk (src : Nat) (payload : List Nat)
  /-- LEVEL_FRAME (R480): A LEVEL frame announces or cancels a protocol level raise. Operands: `src` source address; `at_` line level of the frame;
  `op` 0 raise, 1 cancel; `l` level announced; `t` instant as t64. -/
  | levelFrame (src at_ op l t : Nat)
  /-- LEVEL_RAISE_INSTANT (R479): The raise instant arrives, and every node sends at the new level. -/
  | levelRaiseInstant
  -- Safety start and switches (19)
  /-- SWITCH_CHARGE_DRIVE_LAPSE (R411): When a safety channel's logic stops refreshing the charge drive of its switches (halt or supply loss), the
  switches open within 200 µs. Operands: `c` safety channel. -/
  | switchChargeDriveLapse (c : Nat)
  /-- SAFETY_START_TESTS_DONE (R415): The start tests of a safety channel, run after a reset or reload of its island or a restart from STOP,
  complete and the channel leaves TESTING. Operands: `c` safety channel; `ok` every test passed; `cause` test that failed; `detail` detail. -/
  | safetyStartTestsDone (c : Nat) (ok : Bool) (cause detail : Nat)
  -- Port PHY reload (21)
  /-- PORT_PHY_RELOAD_DONE (R475): The per-port PHY DSP reload of ISLAND_UPDATE code 5 ends with its digest checked, the port retrains and the
  command is answered. Operands: `p` line port; `ok` the digest is good. -/
  | portPhyReloadDone (p : Nat) (ok : Bool)
deriving DecidableEq, Repr

end Sys2Proof
end

