-- ==== Sys2Proof/Decode.lean ====
section
/-! DEFINITION. The command a word spells by the bits of the command table. No row of this table gives bits: a command is a
write, an event or a frame with its operands, not a word. So no word spells a command. -/

namespace Sys2Proof

/-- The command that an `nbits`-bit word spells: none, since the table gives no row bits. -/
def decodeTableWord (_nbits _w : Nat) : Option Instr := none

end Sys2Proof
end

