-- ==== Sys2Proof/Machine/Codes.lean ====
section
/-! DEFINITION. The codes of the spec's tables: status codes (R78), event codes (R79 and the event tables of the
chapters), command codes and their roles (R81). -/

namespace Sys2Proof.Machine

/-! Status codes (R78). -/

def Rs.ok : Nat := 0x0000
def Rs.busy : Nat := 0x0001
def Rs.busyRestarting : Nat := 0x0002
def Rs.restartAborted : Nat := 0x0003
def Rs.cmdUnknown : Nat := 0x0004
def Rs.lengthBad : Nat := 0x0005
def Rs.paramRange : Nat := 0x0006
def Rs.paramReserved : Nat := 0x0007
def Rs.noSession : Nat := 0x0008
def Rs.sessionUnknown : Nat := 0x0009
def Rs.authFail : Nat := 0x000A
def Rs.replay : Nat := 0x000B
def Rs.roleDenied : Nat := 0x000C
def Rs.mboxBusy : Nat := 0x000D
def Rs.sessionLimit : Nat := 0x000E
def Rs.keyUnknown : Nat := 0x000F
def Rs.notFound : Nat := 0x0010
def Rs.chanBusy : Nat := 0x0201
def Rs.chanFallow : Nat := 0x0202
def Rs.chanInvalid : Nat := 0x0203
def Rs.noSpare : Nat := 0x0204
def Rs.recipeInvalid : Nat := 0x0301
def Rs.instanceLimit : Nat := 0x0302
def Rs.cancelledBeforeDispatch : Nat := 0x0303
def Rs.taskUnknown : Nat := 0x0304
def Rs.axisMoving : Nat := 0x0401
def Rs.axisUnreferenced : Nat := 0x0402
def Rs.limitExceeded : Nat := 0x0403
def Rs.levelGap : Nat := 0x0501
def Rs.levelNotUniform : Nat := 0x0502
def Rs.nodeUnreachable : Nat := 0x0503
def Rs.zbBusOff : Nat := 0x0601
def Rs.zbFifoFull : Nat := 0x0602
def Rs.parcelUnknown : Nat := 0x0701
def Rs.ledgerFull : Nat := 0x0702
def Rs.gateNotClosed : Nat := 0x0801
def Rs.carMoving : Nat := 0x0802
def Rs.reservationRefused : Nat := 0x0901
def Rs.clearTokenInvalid : Nat := 0x0A01
def Rs.safetyNotStopped : Nat := 0x0B01
def Rs.safetySigInvalid : Nat := 0x0B02
def Rs.ruleInvalid : Nat := 0x0C01
def Rs.signatureInvalid : Nat := 0x0D01
def Rs.siloActive : Nat := 0x0D02
def Rs.imageDigestBad : Nat := 0x0D03
def Rs.islandForbidden : Nat := 0x0E01
def Rs.degradedCapacity : Nat := 0x0E02

/-! Event codes (R79 and the event tables). -/

def Ev.powerFail : Nat := 0x0180
def Ev.lineOvervoltage : Nat := 0x0181
def Ev.lineVoltageLow : Nat := 0x0182
def Ev.thermalStop : Nat := 0x0183
def Ev.dieTempHigh : Nat := 0x0184
def Ev.vauxFault : Nat := 0x0185
def Ev.resetCause : Nat := 0x0186
def Ev.chanRetrying : Nat := 0x0280
def Ev.chanFallow : Nat := 0x0281
def Ev.chanRemapped : Nat := 0x0282
def Ev.chanAutostartFail : Nat := 0x0283
def Ev.loopOverrun : Nat := 0x0284
def Ev.inputOpenWire : Nat := 0x0285
def Ev.outputOpenLoad : Nat := 0x0286
def Ev.ioWatchdogExpired : Nat := 0x0287
def Ev.fieldSupplyWarn : Nat := 0x0288
def Ev.fieldSupplyOff : Nat := 0x0289
def Ev.fieldSupplyRestored : Nat := 0x028A
def Ev.adcRingHalf : Nat := 0x028B
def Ev.adcRingFull : Nat := 0x028C
def Ev.adcFrameDropped : Nat := 0x028D
def Ev.adcSelfCheck : Nat := 0x028E
def Ev.recipeLate : Nat := 0x0380
def Ev.recipeActionRefused : Nat := 0x0381
def Ev.taskPoolFull : Nat := 0x0382
def Ev.recipeAutostartFail : Nat := 0x0383
def Ev.replanReverse : Nat := 0x0480
def Ev.overshootReplan : Nat := 0x0481
def Ev.compareBehind : Nat := 0x0482
def Ev.positionLost : Nat := 0x0483
def Ev.axisLimitStop : Nat := 0x0484
def Ev.gearStep : Nat := 0x0485
def Ev.gearMasterLost : Nat := 0x0486
def Ev.gearLocked : Nat := 0x0487
def Ev.segmentAborted : Nat := 0x0488
def Ev.axisUnreferenced : Nat := 0x0489
def Ev.bypassOpened : Nat := 0x0580
def Ev.bypassClosed : Nat := 0x0581
def Ev.lineCrc : Nat := 0x0582
def Ev.levelGap : Nat := 0x0583
def Ev.portUp : Nat := 0x0584
def Ev.portDown : Nat := 0x0585
def Ev.portRetired : Nat := 0x0586
def Ev.portDegraded : Nat := 0x0587
def Ev.ringBreak : Nat := 0x0588
def Ev.ringClosed : Nat := 0x0589
def Ev.addrConflict : Nat := 0x058A
def Ev.headConflict : Nat := 0x058B
def Ev.topologyChanged : Nat := 0x058C
def Ev.expressOverrun : Nat := 0x058D
def Ev.timedWriteLate : Nat := 0x058E
def Ev.remoteWriteRefused : Nat := 0x058F
def Ev.timeState : Nat := 0x0590
def Ev.timeStep : Nat := 0x0591
def Ev.timeSourceChanged : Nat := 0x0592
def Ev.levelRaised : Nat := 0x0593
def Ev.levelLowered : Nat := 0x0594
def Ev.idClash : Nat := 0x0680
def Ev.zbState : Nat := 0x0681
def Ev.zbMsgAborted : Nat := 0x0682
def Ev.zbTxDropped : Nat := 0x0683
def Ev.zbLaneOverrun : Nat := 0x0684
def Ev.zbRxDropped : Nat := 0x0685
def Ev.custodyHandoffFail : Nat := 0x0780
def Ev.custodyUnmatched : Nat := 0x0781
def Ev.custodyExit : Nat := 0x0782
def Ev.custodyRecovered : Nat := 0x0783
def Ev.custodyUncertain : Nat := 0x0784
def Ev.custodyResolved : Nat := 0x0785
def Ev.custodyMirrorFull : Nat := 0x0786
def Ev.custodyCkptFail : Nat := 0x0787
def Ev.custodyScanOrphan : Nat := 0x0788
def Ev.gateObstructed : Nat := 0x0880
def Ev.liftReferenced : Nat := 0x0881
def Ev.liftPositionFault : Nat := 0x0882
def Ev.gateFault : Nat := 0x0883
def Ev.liftHalted : Nat := 0x0884
def Ev.levelFlagFault : Nat := 0x0885
def Ev.harvestGap : Nat := 0x0980
def Ev.harvestReservation : Nat := 0x0981
def Ev.harvestListApplied : Nat := 0x0982
def Ev.harvestCompat : Nat := 0x0983
def Ev.eventCleared : Nat := 0x0A80
def Ev.recorderCorrupt : Nat := 0x0A81
def Ev.safetyState : Nat := 0x0B80
def Ev.safetyDemand : Nat := 0x0B81
def Ev.safetyDiscrepancy : Nat := 0x0B82
def Ev.crossMismatch : Nat := 0x0B83
def Ev.safetyChannelFault : Nat := 0x0B84
def Ev.safeConn : Nat := 0x0B85
def Ev.safetyConfigLoaded : Nat := 0x0B86
def Ev.safetyOutputFault : Nat := 0x0B87
def Ev.sleepEntered : Nat := 0x0C80
def Ev.woke : Nat := 0x0C81
def Ev.gleanerLog : Nat := 0x0C82
def Ev.sleepAborted : Nat := 0x0C83
def Ev.sessionOpened : Nat := 0x0D80
def Ev.sessionRefused : Nat := 0x0D81
def Ev.servicePortUsed : Nat := 0x0D82
def Ev.siloCommitted : Nat := 0x0D83
def Ev.islandUpdated : Nat := 0x0D84
def Ev.bootFallback : Nat := 0x0D85
def Ev.serviceFlagCleared : Nat := 0x0D86
def Ev.configCommitted : Nat := 0x0D87
def Ev.eccCorrected : Nat := 0x0E80
def Ev.eccUncorrectable : Nat := 0x0E81
def Ev.eccPoisonConsumed : Nat := 0x0E82
def Ev.crossingEcc : Nat := 0x0E83
def Ev.crossingDenied : Nat := 0x0E84
def Ev.islandState : Nat := 0x0E85
def Ev.clockLockLost : Nat := 0x0E86
def Ev.memRowSpared : Nat := 0x0E87
def Ev.memPageRetired : Nat := 0x0E88
def Ev.nvsBlockRetired : Nat := 0x0E89
def Ev.partitionReadOnly : Nat := 0x0E8A
def Ev.degradedCapacity : Nat := 0x0E8B

/-! Command codes (R81). -/

def Cmd.nodeIdent : Nat := 0x0101
def Cmd.nodeStatus : Nat := 0x0102
def Cmd.configRead : Nat := 0x0103
def Cmd.configWrite : Nat := 0x0104
def Cmd.nodeReset : Nat := 0x0105
def Cmd.chanRead : Nat := 0x0201
def Cmd.chanWrite : Nat := 0x0202
def Cmd.stallRead : Nat := 0x0203
def Cmd.stallWrite : Nat := 0x0204
def Cmd.chanStart : Nat := 0x0205
def Cmd.chanStop : Nat := 0x0206
def Cmd.chanSpare : Nat := 0x0207
def Cmd.ioWatchdog : Nat := 0x0208
def Cmd.adcSequence : Nat := 0x0209
def Cmd.recipeLoad : Nat := 0x0301
def Cmd.recipeRead : Nat := 0x0302
def Cmd.recipeStart : Nat := 0x0303
def Cmd.recipeStop : Nat := 0x0304
def Cmd.taskCancel : Nat := 0x0305
def Cmd.schedConfig : Nat := 0x0306
def Cmd.axisMove : Nat := 0x0401
def Cmd.axisStop : Nat := 0x0402
def Cmd.axisConfig : Nat := 0x0403
def Cmd.axisStatus : Nat := 0x0404
def Cmd.segmentLoad : Nat := 0x0405
def Cmd.gearSet : Nat := 0x0406
def Cmd.posCompare : Nat := 0x0407
def Cmd.posLatch : Nat := 0x0408
def Cmd.driveConfig : Nat := 0x0409
def Cmd.lineStatus : Nat := 0x0501
def Cmd.lineConfig : Nat := 0x0502
def Cmd.timeStatus : Nat := 0x0503
def Cmd.timeConfig : Nat := 0x0504
def Cmd.levelRaise : Nat := 0x0505
def Cmd.zbConfig : Nat := 0x0601
def Cmd.zbStatus : Nat := 0x0602
def Cmd.zbSend : Nat := 0x0603
def Cmd.zbRecover : Nat := 0x0604
def Cmd.custodyRead : Nat := 0x0701
def Cmd.custodyList : Nat := 0x0702
def Cmd.custodyResolve : Nat := 0x0703
def Cmd.custodyConfig : Nat := 0x0704
def Cmd.liftCall : Nat := 0x0801
def Cmd.liftStatus : Nat := 0x0802
def Cmd.liftConfig : Nat := 0x0803
def Cmd.gateCommand : Nat := 0x0804
def Cmd.harvestList : Nat := 0x0901
def Cmd.harvestTrigger : Nat := 0x0902
def Cmd.harvestCollector : Nat := 0x0903
def Cmd.harvestStatus : Nat := 0x0904
def Cmd.eventRead : Nat := 0x0A01
def Cmd.eventClear : Nat := 0x0A02
def Cmd.recorderStatus : Nat := 0x0A03
def Cmd.safetyStatus : Nat := 0x0B01
def Cmd.safetyConfigLoad : Nat := 0x0B02
def Cmd.safetyRestart : Nat := 0x0B03
def Cmd.gleanerRules : Nat := 0x0C01
def Cmd.sleepPolicy : Nat := 0x0C02
def Cmd.energyRead : Nat := 0x0C03
def Cmd.sessionHello : Nat := 0x0D01
def Cmd.sessionConfirm : Nat := 0x0D02
def Cmd.sessionClose : Nat := 0x0D03
def Cmd.certRead : Nat := 0x0D04
def Cmd.hostkeyAdd : Nat := 0x0D05
def Cmd.hostkeyRemove : Nat := 0x0D06
def Cmd.attest : Nat := 0x0D07
def Cmd.imageWrite : Nat := 0x0D08
def Cmd.siloCommit : Nat := 0x0D09
def Cmd.islandUpdate : Nat := 0x0D0A
def Cmd.serviceFlagClear : Nat := 0x0D0B
def Cmd.islandStatus : Nat := 0x0E01
def Cmd.islandControl : Nat := 0x0E02
def Cmd.healthRead : Nat := 0x0E03

/-- The commands of firmware 2.3 with the role each needs (R81): 0 observer, 1 operator, 2 engineer, 3 owner, 4 for a
command that runs without a session on every path. -/
def cmdRoles : List (Nat × Nat) :=
  [(0x0101, 0), (0x0102, 0), (0x0103, 2), (0x0104, 2), (0x0105, 3), (0x0201, 0), (0x0202, 1), (0x0203, 0)] ++
  [(0x0204, 2), (0x0205, 1), (0x0206, 1), (0x0207, 2), (0x0208, 2), (0x0209, 2), (0x0301, 2), (0x0302, 0)] ++
  [(0x0303, 1), (0x0304, 1), (0x0305, 1), (0x0306, 2), (0x0401, 1), (0x0402, 1), (0x0403, 2), (0x0404, 0)] ++
  [(0x0405, 2), (0x0406, 1), (0x0407, 1), (0x0408, 1), (0x0409, 2), (0x0501, 0), (0x0502, 2), (0x0503, 0)] ++
  [(0x0504, 2), (0x0505, 3), (0x0601, 2), (0x0602, 0), (0x0603, 1), (0x0604, 1), (0x0701, 0), (0x0702, 0)] ++
  [(0x0703, 1), (0x0704, 2), (0x0801, 1), (0x0802, 0), (0x0803, 2), (0x0804, 1), (0x0901, 2), (0x0902, 2)] ++
  [(0x0903, 2), (0x0904, 0), (0x0A01, 0), (0x0A02, 3), (0x0A03, 0), (0x0B01, 0), (0x0B02, 3), (0x0B03, 1)] ++
  [(0x0C01, 2), (0x0C02, 2), (0x0C03, 0), (0x0D01, 4), (0x0D02, 4), (0x0D03, 0), (0x0D04, 4), (0x0D05, 3)] ++
  [(0x0D06, 3), (0x0D07, 0), (0x0D08, 3), (0x0D09, 3), (0x0D0A, 3), (0x0D0B, 3), (0x0E01, 2), (0x0E02, 2)] ++
  [(0x0E03, 2)]

end Sys2Proof.Machine
end

