-- ==== Sys2Proof/Machine/Bytes.lean ====
section
/-! DEFINITION. Bytes and little-endian fields (R2, R3), and the two's complement readings of fields. -/

namespace Sys2Proof.Machine

/-- The `k` low bytes of `v`, lowest first (R2). -/
def leBytes : Nat → Nat → List Byte
  | 0, _ => []
  | k + 1, v => BitVec.ofNat 8 v :: leBytes k (v / 256)

/-- The number a little-endian byte sequence spells (R2). -/
def leNat : List Byte → Nat
  | [] => 0
  | b :: t => b.toNat + 256 * leNat t

/-- The `k` bytes from `off`; bytes beyond the end are 0. -/
def slice (bs : List Byte) (off k : Nat) : List Byte :=
  let t := (bs.drop off).take k
  t ++ List.replicate (k - t.length) 0

/-- The byte at `off`. -/
def u8 (bs : List Byte) (off : Nat) : Nat := leNat (slice bs off 1)
/-- The 16-bit field at `off`. -/
def u16 (bs : List Byte) (off : Nat) : Nat := leNat (slice bs off 2)
/-- The 32-bit field at `off`. -/
def u32 (bs : List Byte) (off : Nat) : Nat := leNat (slice bs off 4)
/-- The 64-bit field at `off`. -/
def u64 (bs : List Byte) (off : Nat) : Nat := leNat (slice bs off 8)

/-- The two's complement reading of the low `w` bits. -/
def toSigned (w n : Nat) : Int :=
  let m := n % 2 ^ w
  if m < 2 ^ (w - 1) then (m : Int) else (m : Int) - (2 ^ w : Nat)

/-- The low `w` bits that encode an integer in two's complement. -/
def ofSigned (w : Nat) (z : Int) : Nat := (z % ((2 ^ w : Nat) : Int)).toNat

/-- The signed 32-bit field at `off`. -/
def s32 (bs : List Byte) (off : Nat) : Int := toSigned 32 (u32 bs off)
/-- The signed 64-bit field at `off`. -/
def s64 (bs : List Byte) (off : Nat) : Int := toSigned 64 (u64 bs off)

/-- `z` held inside lo … hi. -/
def clampI (lo hi z : Int) : Int := if z < lo then lo else if hi < z then hi else z

/-- The largest and smallest S32 and S64. -/
def maxS32 : Int := 2147483647
def minS32 : Int := -2147483648
def maxS64 : Int := 9223372036854775807
def minS64 : Int := -9223372036854775808

/-- A counter of `w` bits that saturates. -/
def satInc (w n : Nat) : Nat := if n + 1 < 2 ^ w then n + 1 else 2 ^ w - 1

/-- Bit `k` of a number. -/
def bit (n k : Nat) : Bool := (n / 2 ^ k) % 2 == 1

/-- The field [hi:lo] of a number (R3). -/
def field (n hi lo : Nat) : Nat := (n / 2 ^ lo) % 2 ^ (hi + 1 - lo)

/-- A Bool as a number. -/
def b2n (b : Bool) : Nat := if b then 1 else 0

/-- Every byte of `k` bytes from `off` is 0. -/
def zeroAt (bs : List Byte) (off k : Nat) : Bool := (slice bs off k).all (· == 0)

/-- Overwrite the bytes from `off` with `d`. -/
def patch (bs : List Byte) (off : Nat) (d : List Byte) : List Byte :=
  slice bs 0 off ++ d ++ bs.drop (off + d.length)

/-- The sequence `a` is newer than `b` in `w` bits, within a window of half the range (R399, R433, R473). -/
def newer (w a b : Nat) : Bool :=
  let d := (a + 2 ^ w - b % 2 ^ w) % 2 ^ w
  d != 0 && decide (d < 2 ^ (w - 1))

/-- Floor division of integers by a positive number, and rounding to nearest with ties away from zero. -/
def roundDiv (a : Int) (b : Nat) : Int :=
  if 0 ≤ a then (2 * a + b) / (2 * b : Nat) else -((2 * (-a) + b) / (2 * b : Nat))

/-- The quotient rounded to nearest, ties to even (R179, R184). -/
def roundEven (a : Int) (b : Nat) : Int :=
  let q := a / (b : Int)
  let r := 2 * (a % (b : Int))
  if r < (b : Int) ∨ (r = (b : Int) ∧ q % 2 = 0) then q else q + 1

end Sys2Proof.Machine
end

