-- ==== Sys2Proof/Machine/Crc.lean ====
section
/-! DEFINITION. The three check sequences the spec writes out: CRC-16/CCITT (R67), CRC-32C and CRC-32 (R430). -/

namespace Sys2Proof.Machine

/-- `k` shift steps of CRC-16/CCITT, polynomial 0x1021, most significant bit first (R67). -/
def crc16Shift : Nat → BitVec 16 → BitVec 16
  | 0, c => c
  | k + 1, c => crc16Shift k (if c.msb then (c <<< 1) ^^^ 0x1021#16 else c <<< 1)

/-- CRC-16/CCITT with initial value 0xFFFF, no reflection and no final XOR (R67). -/
def crc16 (bs : List Byte) : BitVec 16 :=
  bs.foldl (fun c b => crc16Shift 8 (c ^^^ ((BitVec.setWidth 16 b) <<< (8 : Nat)))) 0xFFFF#16

/-- `k` shift steps of a reflected 32-bit check sequence with the reversed polynomial. -/
def crc32Shift (poly : BitVec 32) : Nat → BitVec 32 → BitVec 32
  | 0, c => c
  | k + 1, c => crc32Shift poly k (if c.getLsbD 0 then (c >>> 1) ^^^ poly else c >>> 1)

/-- A reflected 32-bit check sequence, initial value and final XOR 0xFFFF_FFFF (R430). -/
def crc32With (poly : BitVec 32) (bs : List Byte) : BitVec 32 :=
  (bs.foldl (fun c b => crc32Shift poly 8 (c ^^^ BitVec.setWidth 32 b)) 0xFFFFFFFF#32) ^^^ 0xFFFFFFFF#32

/-- CRC-32C: polynomial 0x1EDC_6F41, bit-reversed 0x82F6_3B78 (R430). -/
def crc32c (bs : List Byte) : BitVec 32 := crc32With 0x82F63B78#32 bs
/-- CRC-32: polynomial 0x04C1_1DB7, bit-reversed 0xEDB8_8320 (R430). -/
def crc32 (bs : List Byte) : BitVec 32 := crc32With 0xEDB88320#32 bs

end Sys2Proof.Machine
end

