-- ==== Sys2Proof/Config.lean ====
section
/-! DEFINITION. What the spec leaves open or fixes per device at manufacture: opaque constants and functions. Nothing in
Lean can evaluate them, so a statement about them holds for every value. -/

namespace Sys2Proof.Config

/-- The k-th free value of a kind: a value the spec leaves undefined (log 8). `kind` separates independent uses. -/
opaque freeValue : Nat → Nat → W64
/-- A free value that depends on the operand alone: an unstated result (log 9). -/
opaque freeOf : Nat → W64 → W64

/-- The device serial number (R462), written at manufacture (log 10). -/
opaque serial : BitVec 64
/-- The MAC address (R462), written at manufacture (log 10). -/
opaque macAddr : BitVec 48
/-- The device certificate in DER (R463), written at manufacture (log 10). -/
opaque certificate : List Byte
/-- The device's private SM2 key (R462), written at manufacture (log 10). -/
opaque devicePriv : Nat
/-- Bytes of the boot ROM (R18), written at manufacture (log 10). -/
opaque bootRom : Nat → Byte
/-- The firmware key in the boot ROM (R469; log 10). -/
opaque firmwareKey : BitVec 512
/-- Timestamp corrections of the ports (R293, R462), in 2^-4 ns (log 10): port and rate, ingress and egress. -/
opaque ingressCorr : Nat → Nat → Int
opaque egressCorr : Nat → Nat → Int

/-- The check bits of 64 data bits (R21): the spec does not give the matrix of the code (log 47). -/
opaque checkBits : BitVec 64 → BitVec 12
/-- What the decoder makes of an error in three symbols or more (R22; log 47): 0 no error seen, k + 1 a correction in symbol k, else
uncorrectable; and by what the data it then delivers differ from the data written. -/
opaque beyondCode : BitVec 76 → Nat
opaque beyondData : BitVec 76 → BitVec 64
/-- The SRAM regions an island image defines and their contents (R29): code, version (log 47). -/
opaque imageRegions : Nat → Nat → List (Nat × List Byte)

end Sys2Proof.Config
end

