-- ==== Sys2Proof/Machine/Ecc.lean ====
section
/-! DEFINITION. The error-correcting code (R21 to R24): the 76-bit word as 19 symbols of 4 bits, the codeword of 64 data bits, what
the decoder finds in a word that differs from its codeword, and the POISON mark. -/

namespace Sys2Proof.Machine

/-- The codeword of 64 data bits (R21): data in symbols 0 to 15, check bits in symbols 16 to 18. -/
def codeword (d : BitVec 64) : BitVec 76 := (Config.checkBits d ++ d : BitVec 76)

/-- The difference of a word in its 64 data bits and its 12 check bits. -/
def upset (data check : Nat) : BitVec 76 := (BitVec.ofNat 12 check ++ BitVec.ofNat 64 data : BitVec 76)

/-- Symbol `k` of a word (R21). -/
def symbolOf (w : BitVec 76) (k : Nat) : BitVec 4 := w.extractLsb' (4 * k) 4

/-- The symbols in which a word differs from its codeword, given the difference. -/
def badSymbols (e : BitVec 76) : List Nat := (List.range 19).filter (fun k => symbolOf e k != 0)

/-- The difference that marks a poisoned word (R24): correct check bits XOR 0xA5C. -/
def poisonErr : BitVec 76 := 0xA5C#76 <<< 64

/-- What the decoder finds (R22, R24). -/
inductive Finding where
  | clean
  | corrected (sym : Nat)
  | uncorrectable
  | poison
deriving DecidableEq, Repr

/-- The decoder on a word that differs by `e` from the codeword written (R22, R24): no difference is clean, POISON is itself, one
symbol is corrected, two are detected; what three or more become lies outside the guarantee (log 47). -/
def decodeErr (e : BitVec 76) : Finding :=
  if e = 0 then .clean
  else if e = poisonErr then .poison
  else match badSymbols e with
    | [k] => .corrected k
    | [_, _] => .uncorrectable
    | _ => match Config.beyondCode e with
      | 0 => .clean
      | k + 1 => if k < 19 then .corrected k else .uncorrectable

/-- By what the data delivered differ from the data written: nothing for up to two symbols (R22). -/
def decodeData (e : BitVec 76) : BitVec 64 := if e = poisonErr ∨ (badSymbols e).length ≤ 2 then 0 else Config.beyondData e

/-- The syndrome of a word (R22): the check bits of its data against its check bits. -/
def syndromeOf (w : BitVec 76) : BitVec 12 := Config.checkBits (w.extractLsb' 0 64) ^^^ w.extractLsb' 64 12

end Sys2Proof.Machine
end

