-- ==== Sys2Proof/Machine/Float.lean ====
section
/-! DEFINITION. IEEE 754 binary32 and binary64 arithmetic, every operation rounded once to nearest with ties to even
(R92, R140, R216), over exact numbers. The bits of a NaN result are a free value (log 9). -/

namespace Sys2Proof.Machine

/-- A binary format: exponent bits and fraction bits. -/
structure Fmt where
  eb : Nat
  mb : Nat
deriving DecidableEq, Repr

/-- binary32. -/
def b32 : Fmt := ⟨8, 23⟩
/-- binary64. -/
def b64 : Fmt := ⟨11, 52⟩

/-- An exact reading of a float: a number is (-1)^neg × m × 2^e. -/
inductive Fl where
  | nan
  | inf (neg : Bool)
  | num (neg : Bool) (m : Nat) (e : Int)
deriving DecidableEq, Repr

/-- The exponent of the smallest subnormal. -/
def Fmt.emin (f : Fmt) : Int := 3 - ((2 ^ (f.eb - 1) + f.mb : Nat) : Int) - 1

/-- Read the bits of a format. -/
def Fmt.unpack (f : Fmt) (b : Nat) : Fl :=
  let neg := bit b (f.eb + f.mb)
  let ex := (b / 2 ^ f.mb) % 2 ^ f.eb
  let fr := b % 2 ^ f.mb
  if ex = 2 ^ f.eb - 1 then (if fr = 0 then .inf neg else .nan)
  else if ex = 0 then .num neg fr f.emin
  else .num neg (2 ^ f.mb + fr) (f.emin + (ex : Int) - 1)

/-- The bits of an infinity. -/
def Fmt.infBits (f : Fmt) (neg : Bool) : Nat := b2n neg * 2 ^ (f.eb + f.mb) + (2 ^ f.eb - 1) * 2 ^ f.mb

/-- Quiet NaN bits; sign and payload are free (log 9). -/
def Fmt.nanBits (f : Fmt) : Nat :=
  let w := (Config.freeOf 1 (BitVec.ofNat 64 f.mb)).toNat
  (w % 2) * 2 ^ (f.eb + f.mb) + (2 ^ f.eb - 1) * 2 ^ f.mb + 2 ^ (f.mb - 1) + (w / 2) % 2 ^ (f.mb - 1)

/-- Round (-1)^neg × m × 2^e to the format, nearest with ties to even. -/
def Fmt.round (f : Fmt) (neg : Bool) (m : Nat) (e : Int) : Nat :=
  let s := b2n neg * 2 ^ (f.eb + f.mb)
  if m = 0 then s else
  let len := Nat.log2 m + 1
  let q0 : Int := e + (len : Int) - ((f.mb + 1 : Nat) : Int)
  let q : Int := if q0 < f.emin then f.emin else q0
  let r := if q ≤ e then m * 2 ^ (e - q).toNat
    else
      let sh := (q - e).toNat
      let d := m / 2 ^ sh
      let rem := m % 2 ^ sh
      let half := 2 ^ (sh - 1)
      if half < rem then d + 1 else if rem = half ∧ d % 2 = 1 then d + 1 else d
  let (r, q) := if r = 2 ^ (f.mb + 1) then (2 ^ f.mb, q + 1) else (r, q)
  if r < 2 ^ f.mb then s + r
  else
    let bexp := (q - f.emin + 1).toNat
    if 2 ^ f.eb - 1 ≤ bexp then f.infBits neg else s + bexp * 2 ^ f.mb + (r - 2 ^ f.mb)

/-- Write a reading back into bits. -/
def Fmt.pack (f : Fmt) : Fl → Nat
  | .nan => f.nanBits
  | .inf n => f.infBits n
  | .num n m e => f.round n m e

/-- Neither infinite nor NaN. -/
def Fmt.finite (f : Fmt) (b : Nat) : Bool := decide ((b / 2 ^ f.mb) % 2 ^ f.eb ≠ 2 ^ f.eb - 1)

/-- NaN. -/
def Fmt.isNaN (f : Fmt) (b : Nat) : Bool := !f.finite b && decide (b % 2 ^ f.mb ≠ 0)

/-- A signed dyadic number from a mantissa and an exponent. -/
def Fl.ofInt (z : Int) (e : Int) (negZero : Bool) : Fl := if z = 0 then .num negZero 0 e else .num (decide (z < 0)) z.natAbs e

/-- The mantissa with its sign. -/
def Fl.signed (neg : Bool) (m : Nat) : Int := if neg then -(m : Int) else m

/-- Exact sum of two readings. -/
def Fl.add : Fl → Fl → Fl
  | .nan, _ => .nan
  | _, .nan => .nan
  | .inf a, .inf b => if a = b then .inf a else .nan
  | .inf a, _ => .inf a
  | _, .inf b => .inf b
  | .num a m e, .num b k g =>
    let lo := if e ≤ g then e else g
    let x := Fl.signed a (m * 2 ^ (e - lo).toNat)
    let y := Fl.signed b (k * 2 ^ (g - lo).toNat)
    Fl.ofInt (x + y) lo (a && b)

/-- The opposite reading. -/
def Fl.neg : Fl → Fl
  | .nan => .nan
  | .inf a => .inf (!a)
  | .num a m e => .num (!a) m e

/-- Exact product of two readings. -/
def Fl.mul : Fl → Fl → Fl
  | .nan, _ => .nan
  | _, .nan => .nan
  | .inf a, .inf b => .inf (a != b)
  | .inf a, .num b m _ => if m = 0 then .nan else .inf (a != b)
  | .num a m _, .inf b => if m = 0 then .nan else .inf (a != b)
  | .num a m e, .num b k g => .num (a != b) (m * k) (e + g)

/-- Quotient to 140 bits with a sticky bit, enough for one rounding of either format. -/
def Fl.div : Fl → Fl → Fl
  | .nan, _ => .nan
  | _, .nan => .nan
  | .inf _, .inf _ => .nan
  | .inf a, .num b _ _ => .inf (a != b)
  | .num a _ _, .inf b => .num (a != b) 0 0
  | .num a m e, .num b k g =>
    if k = 0 then (if m = 0 then .nan else .inf (a != b))
    else
      let n := m * 2 ^ 140
      .num (a != b) (2 * (n / k) + (if n % k = 0 then 0 else 1)) (e - g - 141)

/-- The whole square root of `n`, bit by bit from bit `k` down. -/
def isqrt (n : Nat) : Nat → Nat → Nat
  | 0, r => if (r + 1) * (r + 1) ≤ n then r + 1 else r
  | k + 1, r => isqrt n k (if (r + 2 ^ (k + 1)) * (r + 2 ^ (k + 1)) ≤ n then r + 2 ^ (k + 1) else r)

/-- Square root to 140 bits with a sticky bit. -/
def Fl.sqrt : Fl → Fl
  | .nan => .nan
  | .inf a => if a then .nan else .inf false
  | .num a m e =>
    if m = 0 then .num a 0 e
    else if a then .nan
    else
      let (m, e) := if e % 2 = 0 then (m, e) else (2 * m, e - 1)
      let n := m * 2 ^ 280
      let r := isqrt n ((Nat.log2 n) / 2 + 1) 0
      .num false (2 * r + (if r * r = n then 0 else 1)) (e / 2 - 141)

/-- Sum, difference, product, quotient and root of a format, each rounded once. -/
def Fmt.add (f : Fmt) (a b : Nat) : Nat := f.pack ((f.unpack a).add (f.unpack b))
def Fmt.sub (f : Fmt) (a b : Nat) : Nat := f.pack ((f.unpack a).add (f.unpack b).neg)
def Fmt.mul (f : Fmt) (a b : Nat) : Nat := f.pack ((f.unpack a).mul (f.unpack b))
def Fmt.div (f : Fmt) (a b : Nat) : Nat := f.pack ((f.unpack a).div (f.unpack b))
def Fmt.sqrt (f : Fmt) (a : Nat) : Nat := f.pack (f.unpack a).sqrt

/-- The nearest float of an integer times 2^e. -/
def Fmt.ofInt (f : Fmt) (z : Int) (e : Int := 0) : Nat := f.pack (Fl.ofInt z e false)

/-- Order of two numbers; false when either is NaN. -/
def Fl.lt : Fl → Fl → Bool
  | .nan, _ => false
  | _, .nan => false
  | .inf a, .inf b => a && !b
  | .inf a, .num _ _ _ => a
  | .num _ _ _, .inf b => !b
  | .num a m e, .num b k g =>
    let lo := if e ≤ g then e else g
    decide (Fl.signed a (m * 2 ^ (e - lo).toNat) < Fl.signed b (k * 2 ^ (g - lo).toNat))

/-- Equality of two numbers as values; false when either is NaN. -/
def Fl.eq : Fl → Fl → Bool
  | .nan, _ => false
  | _, .nan => false
  | .inf a, .inf b => a == b
  | .inf _, .num _ _ _ => false
  | .num _ _ _, .inf _ => false
  | .num a m e, .num b k g =>
    let lo := if e ≤ g then e else g
    decide (Fl.signed a (m * 2 ^ (e - lo).toNat) = Fl.signed b (k * 2 ^ (g - lo).toNat))

/-- Comparisons of a format. -/
def Fmt.lt (f : Fmt) (a b : Nat) : Bool := (f.unpack a).lt (f.unpack b)
def Fmt.eqv (f : Fmt) (a b : Nat) : Bool := (f.unpack a).eq (f.unpack b)
def Fmt.le (f : Fmt) (a b : Nat) : Bool := f.lt a b || f.eqv a b
/-- The absolute value and the opposite. -/
def Fmt.abs (f : Fmt) (a : Nat) : Nat := a % 2 ^ (f.eb + f.mb)
def Fmt.neg (f : Fmt) (a : Nat) : Nat := if bit a (f.eb + f.mb) then a - 2 ^ (f.eb + f.mb) else a + 2 ^ (f.eb + f.mb)

/-- The integer nearest to a number, ties to even; none for NaN and infinities. -/
def Fl.nearest : Fl → Option Int
  | .num a m e =>
    if 0 ≤ e then some (Fl.signed a (m * 2 ^ e.toNat))
    else
      let sh := (-e).toNat
      let d := m / 2 ^ sh
      let rem := m % 2 ^ sh
      let half := 2 ^ (sh - 1)
      let r := if half < rem then d + 1 else if rem = half ∧ d % 2 = 1 then d + 1 else d
      some (Fl.signed a r)
  | _ => none

/-- The integer nearest to a number, ties away from zero; none for NaN and infinities. -/
def Fl.roundAway : Fl → Option Int
  | .num a m e =>
    if 0 ≤ e then some (Fl.signed a (m * 2 ^ e.toNat))
    else
      let sh := (-e).toNat
      some (Fl.signed a ((m + 2 ^ (sh - 1)) / 2 ^ sh))
  | _ => none

/-- The whole part towards zero; none for NaN and infinities. -/
def Fl.trunc : Fl → Option Int
  | .num a m e =>
    if 0 ≤ e then some (Fl.signed a (m * 2 ^ e.toNat)) else some (Fl.signed a (m / 2 ^ (-e).toNat))
  | _ => none

/-! ### Rationals -/

/-- A reading as a rational; infinities and NaN, which the planner never holds, as 0. -/
def Fl.toRat : Fl → ℚ
  | .num neg m e => if 0 ≤ e then (Fl.signed neg m : ℚ) * (2 ^ e.toNat : Nat) else (Fl.signed neg m : ℚ) / (2 ^ (-e).toNat : Nat)
  | _ => 0

/-- The rational a binary64 value holds. -/
def ratOf (v : W64) : ℚ := (b64.unpack v.toNat).toRat
/-- The binary64 nearest to a rational. -/
def ratTo (q : ℚ) : W64 := BitVec.ofNat 64 (b64.pack ((Fl.ofInt q.num 0 false).div (Fl.ofInt (q.den : Int) 0 false)))
/-- The nearest integer, ties away from zero. -/
def ratRound (q : ℚ) : Int := roundDiv q.num q.den
/-- A square root to 2^-30. -/
def ratSqrt (q : ℚ) : ℚ :=
  let n := (q.num.toNat * q.den) * 2 ^ 60
  (isqrt n (Nat.log2 n / 2 + 1) 0 : ℚ) / ((q.den * 2 ^ 30 : Nat) : ℚ)

end Sys2Proof.Machine
end

