-- ==== Sys2Proof/Machine/Sm.lean ====
section
/-! DEFINITION. The published algorithms the spec names: SM3 (GB/T 32905), HMAC with SM3 (R56), and SM2 on its recommended curve:
signatures (GB/T 32918.2, R408, R438, R467, R469) and key agreement (GB/T 32918.3, R75). Their constants come from those standards
(PRESUMED, log 8). Hashes, keys and points are byte sequences in the standards' own order (R2). -/

namespace Sys2Proof.Machine

/-- The number a big-endian byte sequence spells. -/
def beNat (bs : List Byte) : Nat := leNat bs.reverse
/-- `k` bytes of a number, most significant first. -/
def beBytes (k v : Nat) : List Byte := (leBytes k v).reverse

/-! ### SM3 -/

/-- The permutations P0 and P1. -/
def sm3P0 (x : BitVec 32) : BitVec 32 := x ^^^ x.rotateLeft 9 ^^^ x.rotateLeft 17
def sm3P1 (x : BitVec 32) : BitVec 32 := x ^^^ x.rotateLeft 15 ^^^ x.rotateLeft 23

/-- `k` further words of the message expansion; the words so far stand latest first. -/
def sm3Expand : Nat → List (BitVec 32) → List (BitVec 32)
  | 0, r => r
  | k + 1, r =>
    let w (i : Nat) : BitVec 32 := r.getD i 0
    sm3Expand k ((sm3P1 (w 15 ^^^ w 8 ^^^ (w 2).rotateLeft 15) ^^^ (w 12).rotateLeft 7 ^^^ w 5) :: r)

/-- The eight words of the chaining value. -/
structure Sm3St where
  a : BitVec 32
  b : BitVec 32
  c : BitVec 32
  d : BitVec 32
  e : BitVec 32
  f : BitVec 32
  g : BitVec 32
  h : BitVec 32
deriving DecidableEq, Repr

/-- Round `j` with the words W_j and W_(j+4). -/
def sm3Round (j : Nat) (w w4 : BitVec 32) (s : Sm3St) : Sm3St :=
  let t : BitVec 32 := if j < 16 then 0x79CC4519#32 else 0x7A879D8A#32
  let ss1 := (s.a.rotateLeft 12 + s.e + t.rotateLeft (j % 32)).rotateLeft 7
  let ss2 := ss1 ^^^ s.a.rotateLeft 12
  let ff := if j < 16 then s.a ^^^ s.b ^^^ s.c else (s.a &&& s.b) ||| (s.a &&& s.c) ||| (s.b &&& s.c)
  let gg := if j < 16 then s.e ^^^ s.f ^^^ s.g else (s.e &&& s.f) ||| (~~~s.e &&& s.g)
  { a := ff + s.d + ss2 + (w ^^^ w4), b := s.a, c := s.b.rotateLeft 9, d := s.c,
    e := sm3P0 (gg + s.h + ss1 + w), f := s.e, g := s.f.rotateLeft 19, h := s.g }

/-- `k` rounds from round `j`; the list starts with W_j. -/
def sm3Rounds : Nat → Nat → List (BitVec 32) → Sm3St → Sm3St
  | 0, _, _, s => s
  | k + 1, j, ws, s => sm3Rounds k (j + 1) ws.tail (sm3Round j (ws.headD 0) (ws.getD 4 0) s)

/-- The compression function over one block of 64 bytes. -/
def sm3Block (v : Sm3St) (b : List Byte) : Sm3St :=
  let w0 := (List.range 16).map (fun i => BitVec.ofNat 32 (beNat (slice b (4 * i) 4)))
  let s := sm3Rounds 64 0 (sm3Expand 52 w0.reverse).reverse v
  { a := s.a ^^^ v.a, b := s.b ^^^ v.b, c := s.c ^^^ v.c, d := s.d ^^^ v.d, e := s.e ^^^ v.e, f := s.f ^^^ v.f, g := s.g ^^^ v.g, h := s.h ^^^ v.h }

/-- `k` blocks in turn. -/
def sm3Blocks : Nat → List Byte → Sm3St → Sm3St
  | 0, _, v => v
  | k + 1, bs, v => sm3Blocks k (bs.drop 64) (sm3Block v (bs.take 64))

/-- The initial value. -/
def sm3Init : Sm3St :=
  ⟨0x7380166F#32, 0x4914B2B9#32, 0x172442D7#32, 0xDA8A0600#32, 0xA96F30BC#32, 0x163138AA#32, 0xE38DEE4D#32, 0xB0FB0E4E#32⟩

/-- SM3 of a byte sequence, 32 bytes. -/
@[irreducible] def sm3 (bs : List Byte) : List Byte :=
  let l := bs.length
  let m := bs ++ [0x80#8] ++ List.replicate ((119 - l % 64) % 64) 0 ++ beBytes 8 (8 * l)
  let s := sm3Blocks (m.length / 64) m sm3Init
  [s.a, s.b, s.c, s.d, s.e, s.f, s.g, s.h].flatMap (fun w => beBytes 4 w.toNat)

/-- HMAC-SM3 (ISO/IEC 9797-2, blocks of 64 bytes) of a message under a key of at most 64 bytes (R56). -/
@[irreducible] def hmacSm3 (key msg : List Byte) : List Byte :=
  let k := slice key 0 64
  sm3 (k.map (· ^^^ 0x5C#8) ++ sm3 (k.map (· ^^^ 0x36#8) ++ msg))

/-! ### SM2: the recommended curve -/

/-- The field, the coefficients a and b, the order and the base point of the recommended curve. -/
def sm2P : Nat := 0xFFFFFFFEFFFFFFFFFFFFFFFFFFFFFFFFFFFFFFFF00000000FFFFFFFFFFFFFFFF
def sm2A : Nat := 0xFFFFFFFEFFFFFFFFFFFFFFFFFFFFFFFFFFFFFFFF00000000FFFFFFFFFFFFFFFC
def sm2B : Nat := 0x28E9FA9E9D9F5E344D5A9E4BCF6509A7F39789F515AB8F92DDBCBD414D940E93
def sm2N : Nat := 0xFFFFFFFEFFFFFFFFFFFFFFFFFFFFFFFF7203DF6B21C6052B53BBF40939D54123
def sm2Gx : Nat := 0x32C4AE2C1F1981195F9904466A39C9948FE30BBFF2660BE1715A4589334C74C7
def sm2Gy : Nat := 0xBC3736A2F4F6779C59BDCEE36B692153D0A9877CC62A474002DF32E52139F0A0

/-- A point; none is the point at infinity. -/
abbrev Pt := Option (Nat × Nat)
/-- The base point. -/
def sm2G : Pt := some (sm2Gx, sm2Gy)

/-- x to the power e modulo m, by the bits of e; `fuel` is at least their number. -/
def powMod (m : Nat) : Nat → Nat → Nat → Nat
  | 0, _, _ => 1 % m
  | fuel + 1, x, e => if e = 0 then 1 % m else powMod m fuel (x * x % m) (e / 2) * (if e % 2 = 1 then x else 1) % m
/-- The inverse modulo a prime. -/
def invMod (m x : Nat) : Nat := powMod m 256 (x % m) (m - 2)
/-- x - y modulo the field. -/
def subP (x y : Nat) : Nat := (x % sm2P + sm2P - y % sm2P) % sm2P

/-- The sum of two points. -/
def ptAdd : Pt → Pt → Pt
  | none, q => q
  | p, none => p
  | some (x1, y1), some (x2, y2) =>
    if x1 = x2 ∧ (y1 + y2) % sm2P = 0 then none
    else
      let l := if x1 = x2 then (3 * x1 * x1 + sm2A) % sm2P * invMod sm2P (2 * y1) % sm2P
               else subP y2 y1 * invMod sm2P (subP x2 x1) % sm2P
      let x := subP (l * l) (x1 + x2)
      some (x, subP (l * subP x1 x) y1)

/-- k times a point, by the bits of k; `fuel` is at least their number. -/
def ptMul : Nat → Nat → Pt → Pt
  | 0, _, _ => none
  | fuel + 1, k, p =>
    if k = 0 then none else let q := ptMul fuel (k / 2) (ptAdd p p); if k % 2 = 1 then ptAdd q p else q

/-- The point lies on the curve. -/
def onCurve (p : Pt) : Bool :=
  match p with
  | some (x, y) => decide (x < sm2P) && decide (y < sm2P) && (y * y) % sm2P == (x * x * x + sm2A * x + sm2B) % sm2P
  | none => false

/-- A point from its 64 bytes, x then y (R75). -/
def ptOf (bs : List Byte) : Pt := some (beNat (slice bs 0 32), beNat (slice bs 32 32))
/-- The 64 bytes of a point. -/
def ptBytes (p : Pt) : List Byte := match p with | some (x, y) => beBytes 32 x ++ beBytes 32 y | none => List.replicate 64 0

/-- Z: the digest of an identifier, the curve and a public key. -/
def sm2Z (ident : List Byte) (pub : Pt) : List Byte :=
  sm3 (beBytes 2 (8 * ident.length) ++ ident ++ beBytes 32 sm2A ++ beBytes 32 sm2B ++ ptBytes sm2G ++ ptBytes pub)

/-! ### Signatures -/

/-- A signature r then s over the value e verifies under a public key. -/
@[irreducible] def sm2VerifyE (pub : Pt) (e : Nat) (sig : List Byte) : Bool :=
  let r := beNat (slice sig 0 32)
  let s := beNat (slice sig 32 32)
  let t := (r + s) % sm2N
  onCurve pub && decide (1 ≤ r ∧ r < sm2N) && decide (1 ≤ s ∧ s < sm2N) && t != 0 &&
    (match ptAdd (ptMul 256 s sm2G) (ptMul 256 t pub) with
     | some (x, _) => (e + x) % sm2N == r
     | none => false)

/-- A signature over an SM3 digest (R408, R438, R469, R477): the digest is the signed value e (DEDUCED, log 8). A public key is held
as the number its 64 bytes spell. -/
def sm2Verify (pub : BitVec 512) (digest sig : List Byte) : Bool := sm2VerifyE (ptOf (leBytes 64 pub.toNat)) (beNat digest) sig

/-- A signature of e under the private key `d` with the ephemeral value `k` (R467). -/
@[irreducible] def sm2Sign (d e k : Nat) : List Byte :=
  let r := match ptMul 256 k sm2G with | some (x, _) => (e + x) % sm2N | none => 0
  let s := invMod sm2N (1 + d) * ((k + sm2N * sm2N - r * d % sm2N) % sm2N) % sm2N
  beBytes 32 r ++ beBytes 32 s

/-- The device public key (R462): that of the device's private key. -/
def devicePub : BitVec 512 := BitVec.ofNat 512 (leNat (ptBytes (ptMul 256 Config.devicePriv sm2G)))

/-! ### Key agreement -/

/-- The key derivation of 256 bits: one block of SM3. -/
def sm2Kdf (z : List Byte) : List Byte := sm3 (z ++ beBytes 4 1)

/-- What the responder's side of a key agreement gives (R75). -/
structure Agreement where
  /-- the ephemeral point E_B -/
  eB : List Byte
  /-- the agreed key: host-to-node, then node-to-host -/
  key : List Byte
  /-- the responder's confirmation value -/
  sB : List Byte
  /-- the confirmation value expected of the initiator -/
  sA : List Byte
deriving DecidableEq, Repr

/-- The half of a coordinate that enters the exchange: 2^127 plus its low 127 bits. -/
def sm2Half (x : Nat) : Nat := 2 ^ 127 + x % 2 ^ 127

/-- The responder's side: identifiers of initiator and responder, the initiator's public key and ephemeral point, the responder's
private key and ephemeral value; none where E_A or the shared point is refused. -/
@[irreducible] def sm2Respond (idA idB : List Byte) (pubA eA : Pt) (d r : Nat) : Option Agreement :=
  let pubB := ptMul 256 d sm2G
  let eB := ptMul 256 r sm2G
  let xB := match eB with | some (x, _) => x | none => 0
  let xA := match eA with | some (x, _) => x | none => 0
  let t := (d + sm2Half xB * r) % sm2N
  let v := ptMul 256 t (ptAdd pubA (ptMul 256 (sm2Half xA) eA))
  if !onCurve eA then none
  else match v with
    | none => none
    | some (x, y) =>
      let zs := sm2Z idA pubA ++ sm2Z idB pubB
      let inner := sm3 (beBytes 32 x ++ zs ++ ptBytes eA ++ ptBytes eB)
      some { eB := ptBytes eB, key := sm2Kdf (beBytes 32 x ++ beBytes 32 y ++ zs),
             sB := sm3 ([2#8] ++ beBytes 32 y ++ inner), sA := sm3 ([3#8] ++ beBytes 32 y ++ inner) }

end Sys2Proof.Machine
end

