-- ==== Sys2Proof/Machine/Table.lean ====
section
/-! DEFINITION. Sparse tables: a list of (key, entry) pairs with strictly rising keys. A key that is not listed has
the default entry its reader names. Arrays of the manual (stalls, instances, ports, records) are held this way. -/

namespace Sys2Proof.Machine

/-- A sparse table keyed by natural numbers. -/
abbrev Tbl (α : Type) := List (Nat × α)

/-- The entry listed under `k`, if any. -/
def Tbl.look {α : Type} : Tbl α → Nat → Option α
  | [], _ => none
  | (j, a) :: t, k => if j = k then some a else Tbl.look t k

/-- The entry under `k`, or the default. -/
def Tbl.getD {α : Type} (t : Tbl α) (k : Nat) (d : α) : α := (Tbl.look t k).getD d

/-- Write the entry under `k`, keeping the keys rising. -/
def Tbl.put {α : Type} : Tbl α → Nat → α → Tbl α
  | [], k, a => [(k, a)]
  | (j, b) :: t, k, a =>
    if k < j then (k, a) :: (j, b) :: t
    else if k = j then (k, a) :: t
    else (j, b) :: Tbl.put t k a

/-- Remove the entry under `k`. -/
def Tbl.del {α : Type} : Tbl α → Nat → Tbl α
  | [], _ => []
  | (j, b) :: t, k => if j = k then t else (j, b) :: Tbl.del t k

/-- Apply `f` to every listed entry. -/
def Tbl.mapE {α : Type} (t : Tbl α) (f : Nat → α → α) : Tbl α := List.map (fun p => (p.1, f p.1 p.2)) t

/-- The keys that are listed. -/
def Tbl.keys {α : Type} (t : Tbl α) : List Nat := List.map Prod.fst t

/-- The keys rise strictly. -/
def Tbl.wf {α : Type} : Tbl α → Bool
  | [] => true
  | [_] => true
  | (j, _) :: (k, b) :: t => decide (j < k) && Tbl.wf ((k, b) :: t)

end Sys2Proof.Machine
end

