-- ==== Sys2Proof/Machine/Node.lean ====
section
/-! DEFINITION. The parts of the node as plain data: every register, queue, counter, mode and pin the spec gives it,
each with its width, the chapter and rule that name it and its reset value. A table holds only the entries that differ
from the default entry of its kind. -/

namespace Sys2Proof.Machine

/-- The island operations of R29. -/
inductive IslOp where
  | reset | reload | recalibrate | reclock
deriving DecidableEq, Repr

/-! ## Islands, memory and data paths (01) -/

/-- The states of R32, coded as R33 codes them. -/
inductive IslSt where
  | run | quiescing | held | loading | calibrating | relocking | gated | failed
deriving DecidableEq, Repr

/-- One island (R12, R32, R33). -/
structure Island where
  /-- [3 bits] state of the island -- 01 R32, R33; reset RUN -/
  st : IslSt := .run
  /-- [1] clock locked -- 01 R33; reset 0 -/
  locked : Bool := false
  /-- [1] the loaded image passed its digest -- 01 R33; reset 0 -/
  imageOk : Bool := false
  /-- [8] corrected ECC findings since the last read, saturating -- 01 R33; reset 0 -/
  ceCount : BitVec 8 := 0
  /-- [8] uncorrectable ECC findings since the last read, saturating -- 01 R33; reset 0 -/
  ueCount : BitVec 8 := 0
  /-- [8] island operations since the last device reset, saturating -- 01 R33; reset 0 -/
  opCount : BitVec 8 := 0
  /-- the operation in progress, none when no operation runs -- 01 R29, R32; reset none -/
  op : Option IslOp := none
  /-- [4] the bank of a Main memory operation -- 01 R12; reset DESIGN CHOICE 0 (log 3) -/
  bank : Nat := 0
  /-- the state a lock loss left, to which LOCK_ACHIEVED returns -- 01 R32; reset none -/
  resume : Option IslSt := none
  /-- generation of the trims in force; a completed calibration applies new ones -- 01 R29, R32; reset DESIGN CHOICE 0 (log 3) -/
  trims : Nat := 0
  /-- [32] version of the image running -- 03 R81, 21 R469, R475; reset DESIGN CHOICE 2.3.0, the firmware of this manual (log 3) -/
  version : BitVec 32 := 0x00020300#32
  /-- the mailbox whose ISLAND_UPDATE or restart command waits for this operation -- 03 R61, 21 R475; reset none -/
  waiter : Option Nat := none
deriving DecidableEq, Repr

/-- How a crossing answered the last word (R14 to R17, "Crossings and island operations"). -/
inductive CrossAns where
  | none | delivered | deliveredPoison | offline | aborted | denied
deriving DecidableEq, Repr

/-- The SRAM's error bookkeeping (R21 to R28, R490 to R494). -/
structure MemHealth where
  /-- [76 each] by what a stored word, data and check bits, differs from the codeword of its data, by word address; 0xA5C in the
  check bits is POISON -- 01 R21, R24; reset no difference -/
  err : Tbl (BitVec 76) := []
  /-- [32 each] corrected findings per 1 KB row since the last device reset, saturating -- 01 R25; reset 0 -/
  rowCount : Tbl Nat := []
  /-- t64 of the transient findings of each row inside 24 h -- 22 R490; reset empty -/
  transients : Tbl (List T64) := []
  /-- words waiting for their re-read, each with the symbol corrected and t64 of the write-back -- 22 R490; reset none -/
  reread : Tbl (Nat × T64) := []
  /-- row maps: row address to (bank, spare row), 16 spare rows per bank -- 01 R28, 22 R498; reset empty (health map) -/
  rowMap : Tbl (Nat × Nat) := []
  /-- spare rows used in each bank, 16 each -- 22 R497; reset 0 -/
  spareUsed : Tbl Nat := []
  /-- rows whose corrected copy runs: demand accesses wait -- 01 R28; reset none -/
  copyingRows : List Nat := []
  /-- page remaps: 4 KB page address to replacement page -- 22 R491, R498; reset empty (health map) -/
  pageMap : Tbl Nat := []
  /-- pages whose copy runs: demand accesses wait -- 22 R491; reset none -/
  copyingPages : List Nat := []
  /-- writes that wait for the copy of their row or page: address and bytes, oldest first -- 01 R28, 22 R491; reset none -/
  waiting : List (Nat × List Byte) := []
  /-- pages retired per memory code of R25 -- 22 R494, R500; reset 0 -/
  retiredPages : Tbl Nat := []
  /-- [7 bits] pages left in the free region -- 22 R492, R497; reset 112 -/
  freePages : Nat := 112
  /-- pages taken from the harvest buffers -- 22 R492; reset 0 -/
  harvestTaken : Nat := 0
  /-- pages taken from the recipe step slots, each of 128 slots -- 22 R492; reset none -/
  recipeTaken : List Nat := []
  /-- pages in service with a faulty row, no source having a page left -- 22 R493; reset none -/
  unreplaced : List Nat := []
  /-- scrub position (next word) of each bank or SRAM, by memory code and bank -- 01 R26, R27; reset DESIGN CHOICE 0 (log 3) -/
  scrubPos : Tbl Nat := []
  /-- corrected findings in the last 24 h: (memory code or 256 + bank, t64) -- 22 R500; reset empty -/
  recent : List (Nat × T64) := []
deriving DecidableEq, Repr

/-! ## Module, line power and heat (02) -/

/-- Where the power sequence stands (R47, R48, R50). -/
inductive PowerStage where
  | off | t0 | t1 | t2 | t3 | t4 | t5 | t6 | t7 | downT1 | downT2 | downT3 | thermalWait | bootFailed
deriving DecidableEq, Repr

/-- The Power island (R37 to R50). -/
structure Power where
  /-- stage of R47 or R48 -- 02 R47, R48; reset t1: a device reset continues power-up from t1 (22 R483, log 1) -/
  stage : PowerStage := .t1
  /-- [1] the bypass switch pair is closed -- 02 R43, R44, R47; reset closed -/
  bypassClosed : Bool := true
  /-- [1] the PHYs of A and B are powered (VPHY in regulation) -- 02 R44, R47; reset 0 -/
  phyPowered : Bool := false
  /-- [1] LINE_VOLTAGE_LOW raised -- 02 R40; reset 0 -/
  lvLow : Bool := false
  /-- line voltage at the tap in mV, as the Power island last measured it -- 02 R40, R44; reset PRESUMED 48,000, the nominal voltage (log 3) -/
  tap : Nat := 48000
  /-- [1] the tap must first stay below the overvoltage release for 10 ms -- 02 R40, R48; reset 0 -/
  ovHold : Bool := false
  /-- [1] VAUX on -- 02 R46; reset off -/
  vauxOn : Bool := false
  /-- [1] VAUX switched off by its current limit, retry pending -- 02 R46; reset 0 -/
  vauxRetry : Bool := false
  /-- t64 at which its limit last switched it off -- 02 R46; reset DESIGN CHOICE 0 (log 3) -/
  vauxAt : T64 := 0
  /-- [1] DIE_TEMP_HIGH raised -- 02 R50; reset 0 -/
  dieHigh : Bool := false
  /-- [1] NRST held low -- 02 R37, 22 R483; reset released -/
  nrstLow : Bool := false
  /-- [3] cause of the reset in progress, coded as R486 -- 22 R486; reset 1 NRST (log 1) -/
  resetCause : Nat := 1
  /-- [1] LED_STAT driven at 2 Hz: no silo passed -- 21 R473; reset 0 -/
  ledBlink : Bool := false
  /-- converter running -- 02 R47, R48; reset 1 (power-up stands at t1) -/
  converterOn : Bool := true
  /-- silo chosen by the boot ROM, and the step of R473 that chose it -- 21 R473; reset (0, 1) DESIGN CHOICE (log 3) -/
  bootChoice : Nat × Nat := (0, 1)
deriving DecidableEq, Repr

/-! ## Host paths, mailboxes and sessions (03) -/

/-- The states of a mailbox (R59). -/
inductive MbxSt where
  | free | posted | executing | done
deriving DecidableEq, Repr

/-- One mailbox beside its 512 bytes of the window (R53, R59, R62, R63). -/
structure Mbx where
  /-- [2] state -- 03 R59; reset FREE -/
  st : MbxSt := .free
  /-- [16] requester's Kerey address on the line -- 03 R65; reset DESIGN CHOICE 0 (log 3) -/
  src : Nat := 0
  /-- the request last completed: code, sequence and payload -- 03 R63; reset none -/
  lastReq : Option (Nat × Nat × List Byte) := none
  /-- the response stored for the duplicate rule (header and payload) -- 03 R63; reset empty -/
  lastResp : List Byte := []
  /-- [2] role the request in execution runs with -- 03 R73; reset DESIGN CHOICE 0 (log 3) -/
  role : Nat := 0
  /-- session the request in execution belongs to, 0 for none -- 03 R55; reset 0 -/
  session : Nat := 0
  /-- the request taken for execution: code, sequence, flags, payload -- 03 R53, R62; reset none -/
  req : Option (Nat × Nat × Nat × List Byte) := none
  /-- the request was posted while the mailbox was DONE -- 03 R59, R63; reset 0 -/
  again : Bool := false
  /-- an answer that is held back, by a firmware-core restart or by an earlier command on the same object: status, detail, without
  session, results -- 03 R61, R62; reset none -/
  deferred : Option (Nat × Nat × Bool × List Byte) := none
  /-- the how many-th request taken it is -- 03 R62; reset 0 -/
  takenNo : Nat := 0
  /-- t64 at which it was taken -- 03 R64, 05 R136; reset DESIGN CHOICE 0 (log 3) -/
  takenAt : T64 := 0
  /-- its command has begun: it runs or waits for what it starts -- 03 R62; reset 0 -/
  begun : Bool := false
deriving DecidableEq, Repr

/-- The register set of R70; the host SPI and the service path have one each. -/
structure HsRegs where
  /-- [1] HS_STATUS.FRAME_ERR -- 03 R70; reset 0 -/
  frameErr : Bool := false
  /-- [1] HS_STATUS.CRC_ERR -- 03 R70; reset 0 -/
  crcErr : Bool := false
  /-- [1] HS_STATUS.WIN_ERR -- 03 R70; reset 0 -/
  winErr : Bool := false
  /-- [1] HS_STATUS.DB_OVERRUN -- 03 R70; reset 0 -/
  dbOverrun : Bool := false
  /-- [32] HS_IRQ_EN -- 03 R70; reset 0 -/
  irqEn : BitVec 32 := 0
  /-- [2] HS_WINBASE.base -- 03 R70; reset 0 -/
  winBase : BitVec 2 := 0
deriving DecidableEq, Repr

/-- One session (R55, R66, R73 to R76). -/
structure Session where
  /-- [2] path: 0 line, 1 host SPI -- 03 R73; set at set-up -/
  path : Nat := 0
  /-- [2] role granted -- 03 R73, R75; set at set-up -/
  role : Nat := 0
  /-- [64] key identifier it was set up with -- 03 R75; set at set-up -/
  keyId : Nat := 0
  /-- half open: SESSION_HELLO answered, SESSION_CONFIRM awaited -- 03 R75; set at set-up -/
  halfOpen : Bool := true
  /-- [32] highest counter accepted from the host -- 03 R55; set-up 0 (DESIGN CHOICE, log 43: the counter 0 is refused) -/
  cntIn : Nat := 0
  /-- [32] counter of the last message sent -- 03 R55; set-up 0 -/
  cntOut : Nat := 0
  /-- [256] agreed key: host-to-node then node-to-host -- 03 R75; set at set-up -/
  key : BitVec 256 := 0
  /-- [3] line slot k, giving mailboxes 2k and 2k + 1 -- 03 R66; set at set-up -/
  slot : Nat := 0
  /-- [16] source address of the session on the line -- 21 R471; set at set-up -/
  src : Nat := 0
  /-- t64 of the last response -- 03 R76; set at set-up -/
  lastResp : T64 := 0
  /-- the session ended; it is kept while commands of it still execute -- 03 R76; set-up 0 -/
  ended : Bool := false
  /-- [256] confirmation value S_A that SESSION_CONFIRM must carry -- 03 R75; set at set-up -/
  sA : BitVec 256 := 0
deriving DecidableEq, Repr

/-- Host access (03). -/
structure HostIf where
  /-- 3 × 16 mailboxes, key path × 16 + index (0 line, 1 host SPI, 2 service) -- 03 R52, R59; reset FREE -/
  mbx : Tbl Mbx := []
  /-- mailboxes POSTED, oldest first, per path -- 03 R62; reset empty -/
  posted : Tbl (List Nat) := []
  /-- requests taken so far -- 03 R62; reset 0 -/
  taken : Nat := 0
  /-- [2] path served next -- 03 R62; reset line (0) DESIGN CHOICE (log 3) -/
  nextPath : Nat := 0
  /-- host-SPI register set -- 03 R70; reset per R70 -/
  spi : HsRegs := {}
  /-- service-path register set -- 03 R70; reset per R70 -/
  svc : HsRegs := {}
  /-- [1] HS_STATUS.ALIVE: 1 from t5 -- 03 R70; reset 0 -/
  alive : Bool := false
  /-- t64 at which the last restart of the field cores began -- 07 R170; reset DESIGN CHOICE 0 (log 3) -/
  restartFrom : T64 := 0
  /-- [1] the field cores restart (HS_STATUS.RESTARTING) -- 03 R60, R70; reset 0 -/
  restarting : Bool := false
  /-- bytes last driven on HS_MISO -- 03 R67; reset empty -/
  miso : List Byte := []
  /-- bytes last driven on SVC_IO -- 03 R72; reset empty -/
  svcOut : List Byte := []
  /-- sessions by identifier, at most 8 -- 03 R75; reset none -/
  sessions : Tbl Session := []
  /-- host-key table, 32 entries: entry to (identifier, role, public key) -- 03 R74, 21 R464; reset empty (as it leaves manufacture) -/
  keys : Tbl (Nat × Nat × BitVec 512) := []
  /-- [2] SPI role of the node configuration -- 03 R73; reset 1 operator (default) -/
  spiRole : Nat := 1
  /-- [12] idle timeout in s -- 03 R76; reset 60 (default) -/
  idleTimeout : Nat := 60
  /-- class 1 NODE_RESET accepted, standstill awaited -- 22 R485; reset 0 -/
  resetPending : Bool := false
  /-- t64 of that acceptance -- 22 R485; reset DESIGN CHOICE 0 (log 3) -/
  resetFrom : T64 := 0
deriving DecidableEq, Repr

/-! ## Channels and the stall table (04) -/

/-- Channel states (R86 byte 44). -/
inductive ChSt where
  | idle | running | hold | stopped | retrying | fallow
deriving DecidableEq, Repr

/-- The hold causes of R96. -/
inductive HoldCause where
  | watchdog | supply | ioIsland | motionIsland | zoneBus | lineIsland | bound
deriving DecidableEq, Repr

/-- One stall: the 64-byte entry of R86 and the sequencer's bookkeeping for it. -/
structure Stall where
  /-- [8] kind -- 04 R86, R87; reset the bound kind, 0x00 for user stalls (R84) -/
  kind : BitVec 8 := 0
  /-- [8] stop behaviour -- 04 R86, R88; reset 0xFF (as it leaves manufacture) -/
  stop : BitVec 8 := 0xFF
  /-- [16] flags -- 04 R86, R89; reset 0 -/
  flags : BitVec 16 := 0
  /-- [16] designated spare -- 04 R86; reset 0xFFFF (none) -/
  spare : BitVec 16 := 0xFFFF
  /-- [8] value format -- 04 R86, R90; reset per kind -/
  format : BitVec 8 := 0
  /-- [224] kind part, bytes 8 to 35 -- 04 R86, R92; reset DESIGN CHOICE 0 (log 3), INTERNAL per R183 -/
  part : BitVec 224 := 0
  /-- [8] retries -- 04 R86; reset 0xFF (R88) -/
  retries : BitVec 8 := 0xFF
  /-- [8] permanence -- 04 R86; reset 0 (R88) -/
  permanence : BitVec 8 := 0
  /-- [16] retry interval -- 04 R86; reset 0 (R88) -/
  interval : BitVec 16 := 0
  /-- [16] fault window -- 04 R86; reset 0 (R88) -/
  window : BitVec 16 := 0
  /-- [8] state -- 04 R86, R95; reset IDLE -/
  st : ChSt := .idle
  /-- [8] faults counted in the present window, saturating -- 04 R86, R101; reset DESIGN CHOICE 0 (log 3) -/
  faults : BitVec 8 := 0
  /-- [8] cause of the last fault -- 04 R86, R100; reset DESIGN CHOICE 0 (log 3) -/
  cause : BitVec 8 := 0
  /-- [8] status -- 04 R91; reset INVALID 1, the rest 0 -/
  status : BitVec 8 := 1
  /-- [64] present value -- 04 R86; reset DESIGN CHOICE 0 (log 3) -/
  value : W64 := 0
  /-- [64] t64 of the last change of value -- 04 R86; reset DESIGN CHOICE 0 (log 3) -/
  stamp : T64 := 0
  /-- [64] the commanded value, kept through HOLD and RETRYING -- 04 R94, R95; reset DESIGN CHOICE 0 (log 3) -/
  commanded : W64 := 0
  /-- a write stored in HOLD of a COUNTER or LOOP, applied at the return to RUNNING -- 04 R92, R94; reset none -/
  heldWrite : Option W64 := none
  /-- the hold causes that last -- 04 R96; reset none -/
  holds : List HoldCause := []
  /-- t64 at which the episodes inside the window began -- 04 R101; reset none -/
  episodes : List T64 := []
  /-- retries failed in the present episode -- 04 R101; reset 0 -/
  failedRetries : Nat := 0
  /-- a group thermal episode that is not counted against this output -- 07 R160; reset 0 -/
  uncounted : Bool := false
  /-- t64 at which the interval before the next retry has elapsed -- 04 R101; reset DESIGN CHOICE 0 (log 3) -/
  retryAt : T64 := 0
  /-- [10] the resource the stall runs on, by the stall number it belongs to; none for its own -- 04 R102; reset none -/
  res : Option Nat := none
  /-- the pending timed host write: value and instant -- 04 R98; reset none -/
  timedWrite : Option (W64 × T64) := none
  /-- mailboxes whose CHAN_STOP waits for STOPPED -- 04 R95, R98; reset none -/
  stopWaiters : List Nat := []
  /-- TIMER: its next zero instant while the count runs -- 04 R92; reset none -/
  zeroAt : Option T64 := none
  /-- TIMER: first instant of the periodic grid -- 04 R92; reset DESIGN CHOICE 0 (log 3) -/
  gridAt : T64 := 0
  /-- COUNTER: the reference bit of the source, none after an invalid period -- 04 R92; reset none -/
  counterRef : Option Bool := none
  /-- LINEPOINT: line cycles without a matching entry -- 12 R274; reset 0 -/
  staleCount : Nat := 0
  /-- [1] LINEPOINT: an entry matched in the present line cycle -- 12 R274; reset 0 -/
  entrySeen : Bool := false
  /-- LINEPOINT: stamps and values of its last two updates, the newest first -- 10 R231; reset none -/
  points : List (T64 × Int) := []
  /-- REMOTE receive: stamp of the last usable frame -- 14 R320; reset DESIGN CHOICE 0 (log 3) -/
  lastUsable : T64 := 0
deriving DecidableEq, Repr

/-- One entry of the stall cache (R104). -/
structure CacheEntry where
  /-- [10] stall -- 04 R104 -/
  stall : Nat
  /-- pinned -- 04 R104; filled per the pin flag -/
  pinned : Bool := false
  /-- locks held by timed actions -- 04 R104; filled 0 -/
  locks : Nat := 0
  /-- modified since the fill -- 04 R105; filled 0 -/
  dirty : Bool := false
  /-- the 64 bytes main memory holds while they differ from the entry -- 04 R105; filled with the entry -/
  image : List Byte := []
  /-- the service port has written the stall's place in main memory since the fill -- 01 R19, 04 R104; filled 0 -/
  poked : Bool := false
deriving DecidableEq, Repr

/-! ## Recipes and the Thresher (05) -/

/-- Instance states, coded as R137. -/
inductive InstSt where
  | free | armed | running | held | done
deriving DecidableEq, Repr

/-- One recipe instance (R122, R137). -/
structure Inst where
  /-- [8] state -- 05 R122, R137; reset FREE -/
  st : InstSt := .free
  /-- [8] recipe number -- 05 R137; reset DESIGN CHOICE 0 (log 3) -/
  recipe : Nat := 0
  /-- [8] task group -- 05 R137; reset DESIGN CHOICE 0 (log 3) -/
  group : Nat := 0
  /-- [1] STOPPED -- 05 R137; reset DESIGN CHOICE 0 (log 3) -/
  stopped : Bool := false
  /-- [1] RESET -- 05 R137; reset DESIGN CHOICE 0 (log 3) -/
  wasReset : Bool := false
  /-- [1] LATE -- 05 R137; reset DESIGN CHOICE 0 (log 3) -/
  late : Bool := false
  /-- [1] WAIT_FW -- 05 R126, R137; reset DESIGN CHOICE 0 (log 3) -/
  waitFw : Bool := false
  /-- [1] STOP_PENDING -- 05 R122, R137; reset DESIGN CHOICE 0 (log 3) -/
  stopPending : Bool := false
  /-- [16] sheaf -- 05 R137; reset DESIGN CHOICE 0 (log 3) -/
  sheaf : Nat := 0
  /-- [16] present step -- 05 R137; reset DESIGN CHOICE 0 (log 3) -/
  step : Nat := 0
  /-- [32] late actions since the start, saturating -- 05 R137; reset DESIGN CHOICE 0 (log 3) -/
  lateCount : Nat := 0
  /-- [32] task deadline in µs -- 05 R137; reset DESIGN CHOICE 0 (log 3) -/
  deadline : Nat := 0
  /-- [64] epoch -- 05 R137; reset DESIGN CHOICE 0 (log 3) -/
  epoch : T64 := 0
  /-- [64] T_enter of the present step -- 05 R137; reset DESIGN CHOICE 0 (log 3) -/
  entered : T64 := 0
  /-- [8 × 64] registers -- 05 R120, R137; reset DESIGN CHOICE 0 (log 3) -/
  regs : Tbl W64 := []
  /-- T_act of the action the instance has reached, once its condition was met -- 05 R116, R125; reset none -/
  act : Option T64 := none
  /-- the action was issued to its target island -- 05 R118; reset 0 -/
  issued : Bool := false
  /-- its T_act was less than 5 µs away when the engine judged it, so it is carried out at once -- 05 R118; reset 0 -/
  atOnce : Bool := false
  /-- its issue waits for a lock to become free -- 05 R118; reset 0 -/
  lockWait : Bool := false
  /-- RECIPE_STOP commands that wait for a reload to end: mailbox and mode -- 05 R122; reset none -/
  heldStops : List (Nat × Nat) := []
  /-- mailboxes whose RECIPE_STOP mode 1 waits -- 05 R136; reset none -/
  stopWaiters : List Nat := []
deriving DecidableEq, Repr

/-- An action the target island holds until T_act (R118), or the trailing edge of a PULSE (R119). -/
structure Issued where
  /-- [6] instance -- 05 R118 -/
  inst : Nat
  /-- [16] step whose action it is -- 05 R118 -/
  step : Nat
  /-- [10] target stall -- 05 R118 -/
  stall : Nat
  /-- [64] operand: the immediate value, the register stored, or the source of a COPY -- 05 R118 -/
  value : W64
  /-- [64] T_act -- 05 R118 -/
  at_ : T64
  /-- [8] action code -- 05 R113 -/
  act : Nat := 0x02
  /-- it is the trailing edge of a PULSE -- 05 R119 -/
  edge : Bool := false
  /-- the instant from which it holds the lock of its stall; none while it waits for one -- 05 R118 -/
  lockAt : Option T64 := none
deriving DecidableEq, Repr

/-- Where a task stands (R127, R131). -/
inductive TaskSt where
  | delayed | ready | prefetched (core : Nat) | inService (core : Nat)
deriving DecidableEq, Repr

/-- One Thresher task (R127, R132). -/
structure ThTask where
  /-- [16] handler: area and number -- 05 R113, R127 -/
  handler : Nat
  /-- [64] argument -- 05 R127 -/
  arg : W64
  /-- [64] release instant -- 05 R127 -/
  release : T64
  /-- [64] deadline instant -- 05 R127 -/
  deadline : T64
  /-- [3] group -- 05 R127 -/
  group : Nat
  /-- [12] sheaf, 0 for none -- 05 R127 -/
  sheaf : Nat
  /-- where the task stands -- 05 R127 -/
  st : TaskSt
  /-- order in which the task became ready -- 05 R129 -/
  readyNo : Nat
  /-- [16] generation of its handle -- 05 R132 -/
  gen : Nat
  /-- instance and register that hold the handle, for a recipe task; none for a task of firmware's own -- 05 R127, R132 -/
  owner : Option (Nat × Nat)
  /-- [16] status its handler returned -- 05 R132; set at dispatch -/
  result : Nat := 0
  /-- its handler has run -- 05 R127; reset 0 -/
  ran : Bool := false
deriving DecidableEq, Repr

/-- Recipes and the Thresher (05). The directory and the step slots lie in recipe space of main memory (R106). -/
structure Recipes where
  /-- 64 instances -- 05 R122; reset FREE -/
  insts : Tbl Inst := []
  /-- [64 × 1] node flags -- 05 R120; reset 0 -/
  flags : BitVec 64 := 0
  /-- issued timed actions and trailing edges, in order of T_act -- 05 R118, R119; reset none -/
  issued : List Issued := []
  /-- 4,096 task slots -- 05 R127; reset empty -/
  tasks : Tbl ThTask := []
  /-- cores out of service: eight pages of their SRAM are lost -- 22 R494; reset none -/
  coresOut : List Nat := []
  /-- [16 each] generation of each task slot -- 05 R132; reset DESIGN CHOICE 0 (log 3) -/
  gens : Tbl Nat := []
  /-- next ready number -- 05 R129; reset DESIGN CHOICE 0 (log 3) -/
  readyNo : Nat := 0
  /-- [1] policy: weighted -- 05 R129; reset EDF -/
  weighted : Bool := false
  /-- [8 × 8] weights, 1 where unlisted -- 05 R129; reset 1 -/
  weights : Tbl Nat := []
  /-- credits of the groups -- 05 R129; reset 0 -/
  credits : Tbl Int := []
  /-- [3] firmware group -- 05 R129; reset 0 -/
  fwGroup : Nat := 0
  /-- [7] delay tick in µs -- 05 R128; reset 10 -/
  tick : Nat := 10
  /-- a new tick and the boundary from which it applies -- 05 R128; reset none -/
  newTick : Option (Nat × T64) := none
  /-- recipe store partition: directory entries by recipe (length, autostart, records) -- 05 R107; reset empty -/
  store : Tbl (Nat × Nat × List (List Byte)) := []
deriving DecidableEq, Repr

/-! ## Control loops (06) -/

/-- The engine's state of one LOOP stall (R139 to R151). -/
structure Loop where
  /-- [32] integrator I, binary32 -- 06 R139; reset DESIGN CHOICE 0 (log 3) -/
  integ : BitVec 32 := 0
  /-- [32] kiT, binary32 -- 06 R139; computed at CHAN_START -/
  kiT : BitVec 32 := 0
  /-- the next update initialises per R149 -- 06 R149; set at CHAN_START -/
  fresh : Bool := true
  /-- the rest value is still to be written to the sink -- 06 R150; reset 0 -/
  restDue : Bool := false
  /-- the present HOLD has written the rest value -- 06 R150; reset 0 -/
  rested : Bool := false
  /-- drops since the last LOOP_OVERRUN -- 06 R147, R153; reset 0 -/
  drops : Nat := 0
  /-- t64 of the last update instant served -- 06 R145, R147; reset DESIGN CHOICE 0 (log 3) -/
  last : T64 := 0
deriving DecidableEq, Repr

/-! ## 24 V inputs and outputs (07) -/

/-- One input IN0 to IN15 (R154 to R158). -/
structure InPin where
  /-- [1] filtered level, before the stall -- 07 R157; reset 0 DESIGN CHOICE (log 3) -/
  level : Bool := false
  /-- [1] comparator level seen by the Gleaner -- 07 R174; reset 0 DESIGN CHOICE (log 3) -/
  comparator : Bool := false
  /-- [8] type in force; every value but 3 uses the Type 1 thresholds -- 07 R155; reset 1 -/
  typeInForce : Nat := 1
  /-- [4] consecutive measurements below 0.15 mA -- 07 R156; reset 0 -/
  lowRun : Nat := 0
  /-- [4] consecutive measurements of 0.3 mA or above -- 07 R156; reset 0 -/
  highRun : Nat := 0
  /-- last current in µA -- 07 R176; reset DESIGN CHOICE 0 (log 3) -/
  microAmp : Nat := 0
  /-- the input waits for its filter time after a start, a resume or a wake -- 07 R157, R172, R174; reset 0 -/
  settling : Bool := false
  /-- t64 at which the filter last restarted -- 07 R157, R172, R174; reset DESIGN CHOICE 0 (log 3) -/
  since : T64 := 0
  /-- it was a wake that restarted the filter -- 07 R174; reset 0 -/
  woke : Bool := false
deriving DecidableEq, Repr

/-- One output OUT0 to OUT11, PO0 to PO3 as 0 to 15 (R159 to R167, R173). -/
structure OutPin where
  /-- [1] level the I/O island's own switch drives (switch mode), or the period's on state -- 07 R163, R164; reset off -/
  on : Bool := false
  /-- [17] duty in force of the running PWM period -- 07 R164; reset 0 -/
  duty : Nat := 0
  /-- a thermal retry waits for the restart temperature -- 07 R160, R165; reset 0 -/
  thermalWait : Bool := false
  /-- a retry drives the output: the instant at which it switched on -- 07 R160; reset none -/
  trying : Option T64 := none
  /-- [17] duty kept by a channel that stopped with HOLD -- 04 R88; reset 0 -/
  keptDuty : Nat := 0
  /-- a pulse of a compare holds the output on until this instant -- 09 R211; reset none -/
  pulseUntil : Option T64 := none
  /-- duty in force when the watchdog expired or an I/O island operation began -- 07 R173; reset 0 -/
  heldDuty : Nat := 0
  /-- [3] the rule of R173 that decides the output in force -- 07 R173; reset 1 (VF24 latched off) -/
  rank : Nat := 1
  /-- level the pad latch keeps in sleep -- 07 R175, 20 R445; reset off -/
  padLatch : Bool := false
deriving DecidableEq, Repr

/-- States of the I/O watchdog, coded as R169. -/
inductive WdSt where
  | disabled | armed | suspended | expired
deriving DecidableEq, Repr

/-- Where the field supply stands (R171, R172). -/
inductive SupplySt where
  | on | latched | rising | restoring
deriving DecidableEq, Repr

/-- Field inputs and outputs (07). -/
structure FieldIo where
  /-- 16 inputs -- 07 R154 to R158 -/
  ins : Tbl InPin := []
  /-- 16 outputs -- 07 R159 to R167 -/
  outs : Tbl OutPin := []
  /-- [2] watchdog state -- 07 R169, R170; reset DISABLED (no timeout stored) -/
  wdSt : WdSt := .disabled
  /-- [1] source: 0 firmware, 1 host -- 07 R169; reset DESIGN CHOICE 0 (log 3) -/
  wdSource : Nat := 0
  /-- [10] timeout in ms -- 07 R169; reset 0 (disabled) -/
  wdTimeout : Nat := 0
  /-- instant at which the running count reaches 0 -- 07 R170; reset DESIGN CHOICE 0 (log 3) -/
  wdDeadline : T64 := 0
  /-- count held in SUSPENDED, ns -- 07 R170; reset DESIGN CHOICE 0 (log 3) -/
  wdHeld : Nat := 0
  /-- [64] t64 of the last feed -- 07 R169; reset DESIGN CHOICE 0 (log 3) -/
  wdLastFeed : T64 := 0
  /-- state of the field supply -- 07 R171, R172; reset latched (starts latched unless VF24 held 10 ms before t5) -/
  supply : SupplySt := .latched
  /-- [1] FIELD_SUPPLY_WARN raised -- 07 R171; reset 0 -/
  warn : Bool := false
  /-- t3 of R172, the rise above the restore threshold -- 07 R172; reset DESIGN CHOICE 0 (log 3) -/
  risenAt : T64 := 0
  /-- t4 of R172 -- 07 R172; reset DESIGN CHOICE 0 (log 3) -/
  clearedAt : T64 := 0
  /-- VF24 in mV at t4 -- 07 R176; reset DESIGN CHOICE 0 (log 3) -/
  vf24AtClear : Nat := 0
  /-- [16] outputs restored on since t4 -- 07 R176; reset 0 -/
  restoredMask : BitVec 16 := 0
  /-- [16] outputs gone to STOPPED since t4 -- 07 R176; reset 0 -/
  stoppedMask : BitVec 16 := 0
  /-- [8] series switches of PO0 to PO3, bit k channel A, bit 4 + k channel B: 1 closed -- 07 R167, 19 R411; reset open -/
  series : BitVec 8 := 0
deriving DecidableEq, Repr

/-! ## Analogue inputs (08) -/

/-- One slot of the slot list (R187). -/
structure AdcSlot where
  /-- [5] source -- 08 R178 -/
  source : Nat
  /-- [1] converter -- 08 R187 -/
  conv : Nat
  /-- [3] averaging -- 08 R184 -/
  avg : Nat
  /-- [1] also to the ring -- 08 R187 -/
  ring : Bool
deriving DecidableEq, Repr

/-- A slot list (R187, R188). -/
structure AdcList where
  /-- [16] frame period in µs -- 08 R187; list before any command: 100 -/
  period : Nat
  /-- [32] address of the ADC0 ring descriptor, 0 none -- 08 R187 -/
  desc0 : Nat
  /-- [32] address of the ADC1 ring descriptor, 0 none -- 08 R187 -/
  desc1 : Nat
  /-- up to 32 slots -- 08 R187 -/
  slots : List AdcSlot
deriving DecidableEq, Repr

/-- The list in force before any ADC_SEQUENCE (R188). -/
def AdcList.default : AdcList :=
  { period := 100, desc0 := 0, desc1 := 0,
    slots := ([0, 1, 2, 3, 8, 9, 10, 11, 14, 15].map (fun n => ⟨n, 0, 0, false⟩))
      ++ ([4, 5, 6, 7, 12, 13, 16, 17].map (fun n => ⟨n, 1, 0, false⟩)) }

/-- The converters (08). Ring descriptors and rings lie in the host-shared window. -/
structure Adc where
  /-- slot list in force -- 08 R187, R188; reset the default list of R188 -/
  list : AdcList := AdcList.default
  /-- accepted list and its instant -- 08 R188; reset none -/
  pending : Option (AdcList × T64) := none
  /-- boundary of the frame in progress -- 08 R184; reset DESIGN CHOICE 0 (log 3) -/
  frameAt : T64 := 0
  /-- [1] no frame that gives results is in progress: none has begun, or it is dropped -- 08 R184, R186; reset 1 -/
  frameDropped : Bool := true
  /-- no frame begins earlier -- 08 R194; reset 0 -/
  notBefore : T64 := 0
  /-- boundary of the last self-check of each converter -- 08 R186; reset DESIGN CHOICE 0 (log 3) -/
  checkedAt : Tbl T64 := []
  /-- [7 each] front-end gain G of AIN0 to AIN7 -- 08 R181; reset 1 -/
  gains : Tbl Nat := []
  /-- slots of the frame whose result has come -- 08 R185, R191; reset none -/
  slotsDone : List Nat := []
  /-- [2] the last self-check of each converter passed, bit per converter -- 08 R186; reset passed -/
  checkOk : BitVec 2 := 3
  /-- run of dropped frames: boundary of the first, count, last cause -- 08 R192; reset none -/
  dropRun : Option (T64 × Nat × Nat) := none
  /-- ring samples of the frame in progress, by converter, in slot order -- 08 R191; reset none -/
  samples : List (Nat × BitVec 32) := []
deriving DecidableEq, Repr

/-! ## Position and speed feedback (09) -/

/-- One latch (R206, R207). -/
structure Latch where
  /-- [2] 0 DISARMED, 1 ARMED, 2 CAPTURED -- 09 R207; reset DISARMED -/
  st : Nat := 0
  /-- [6] source -- 09 R206; reset DESIGN CHOICE 0 (log 3) -/
  source : Nat := 0
  /-- [1] continuous mode -- 09 R206; reset DESIGN CHOICE 0 (log 3) -/
  continuous : Bool := false
  /-- [64] instant of source 4 -- 09 R207; reset DESIGN CHOICE 0 (log 3) -/
  instant : T64 := 0
  /-- [1] OVERRUN -- 09 R206; reset DESIGN CHOICE 0 (log 3) -/
  overrun : Bool := false
  /-- [1] DOWN -- 09 R207; reset DESIGN CHOICE 0 (log 3) -/
  down : Bool := false
  /-- [1] INVALID at capture -- 09 R207; reset DESIGN CHOICE 0 (log 3) -/
  invalid : Bool := false
  /-- [32] captures since arming, wrapping -- 09 R207; reset DESIGN CHOICE 0 (log 3) -/
  captures : BitVec 32 := 0
  /-- [64] captured position -- 09 R206; reset DESIGN CHOICE 0 (log 3) -/
  position : W64 := 0
  /-- [64] captured t64 -- 09 R206; reset DESIGN CHOICE 0 (log 3) -/
  time : T64 := 0
  /-- the capture was returned by a read -- 09 R206; reset DESIGN CHOICE 0 (log 3) -/
  wasRead : Bool := true
deriving DecidableEq, Repr

/-- One compare (R208 to R212). -/
structure Compare where
  /-- [1] ARMED -- 09 R212; reset DISARMED -/
  armed : Bool := false
  /-- [1] auto-advance -- 09 R210; reset DESIGN CHOICE 0 (log 3) -/
  auto : Bool := false
  /-- [1] catch-up -- 09 R210; reset DESIGN CHOICE 0 (log 3) -/
  catchUp : Bool := false
  /-- [31] spacing D -- 09 R210; reset DESIGN CHOICE 0 (log 3) -/
  spacing : Nat := 0
  /-- [64] value C -- 09 R208; reset DESIGN CHOICE 0 (log 3) -/
  value : Int := 0
  /-- [8] node flag, 0xFF none -- 09 R211; reset 0xFF -/
  flag : Nat := 0xFF
  /-- [16] pulse stall, 0xFFFF none -- 09 R211; reset 0xFFFF -/
  pulse : Nat := 0xFFFF
  /-- [20] pulse width in µs -- 09 R211; reset DESIGN CHOICE 0 (log 3) -/
  width : Nat := 0
  /-- [1] BEHIND -- 09 R209; reset DESIGN CHOICE 0 (log 3) -/
  behind : Bool := false
  /-- [1] OVERRUN -- 09 R211; reset DESIGN CHOICE 0 (log 3) -/
  overrun : Bool := false
  /-- [1] DOWN, direction of the last hit -- 09 R212; reset DESIGN CHOICE 0 (log 3) -/
  down : Bool := false
  /-- [32] hits since arming, wrapping -- 09 R211; reset DESIGN CHOICE 0 (log 3) -/
  hits : BitVec 32 := 0
  /-- [32] points skipped, saturating -- 09 R210; reset DESIGN CHOICE 0 (log 3) -/
  skipped : Nat := 0
  /-- [64] t64 of the last hit -- 09 R211; reset DESIGN CHOICE 0 (log 3) -/
  last : T64 := 0
  /-- t64 of the last hit whose actions were carried out -- 09 R211; reset none -/
  lastAction : Option T64 := none
  /-- hits during a Sequencer reload wait to set the flag -- 09 R215; reset 0 -/
  flagDue : Bool := false
deriving DecidableEq, Repr

/-- One position interface (R195 to R205). -/
structure Enc where
  /-- [1] accepted level of A -- 09 R195; reset DESIGN CHOICE 0 (log 3) -/
  a : Bool := false
  /-- [1] accepted level of B -- 09 R195; reset DESIGN CHOICE 0 (log 3) -/
  b : Bool := false
  /-- [1] accepted level of Z -- 09 R195; reset DESIGN CHOICE 0 (log 3) -/
  z : Bool := false
  /-- [1] counting: RUNNING, HOLD or RETRYING since CHAN_START -- 09 R202, R215; reset 0 -/
  counting : Bool := false
  /-- [32] raw counter -- 09 R201; reset 0 (R202) -/
  raw : BitVec 32 := 0
  /-- [64] base -- 09 R201; reset 0 (R202) -/
  base : Int := 0
  /-- [32] raw_base -- 09 R201; reset 0 (R202) -/
  rawBase : BitVec 32 := 0
  /-- [64] extended count -- 09 R201; reset 0 (R202) -/
  ext : Int := 0
  /-- mode 2: a first good frame has set the count -- 09 R202; reset 0 -/
  haveFrame : Bool := false
  /-- [1] direction of the last step: down -- 09 R209; reset DESIGN CHOICE 0 (log 3) -/
  down : Bool := false
  /-- edge instant of the last step, or stamp of the last good frame -- 09 R203, R204; reset DESIGN CHOICE 0 (log 3) -/
  lastEdge : T64 := 0
  /-- last interval between edges in ns, 0 none -- 09 R204; reset 0 -/
  interval : Nat := 0
  /-- [64] speed in 2^-16 counts/s -- 09 R204; reset 0 (standstill) -/
  speed : Int := 0
  /-- [1] SPEED_INVALID -- 09 R204; reset 1 (standstill) -/
  speedInvalid : Bool := true
  /-- [1] STANDSTILL -- 09 R204; reset 1 (standstill after power-up) -/
  standstill : Bool := true
  /-- [1] ILLEGAL -- 09 R198; reset 0 -/
  illegal : Bool := false
  /-- [1] POSITION_LOST -- 09 R201; reset 0 -/
  lost : Bool := false
  /-- [8] illegal transitions since the last read, saturating -- 09 R207; reset 0 -/
  illegalCount : Nat := 0
  /-- a further illegal transition since the retry interval began -- 09 R198; reset 0 -/
  illegalSince : Bool := false
  /-- good frames in a row -- 09 R205; reset 0 -/
  goodFrames : Nat := 0
  /-- stamp of the SSI frame in progress, with the check at t0 -- 09 R199; reset none -/
  frame : Option (T64 × Bool) := none
  /-- [1] level the SL4 drives on ENCn_Z in mode 2: high between frames -- 09 R199; reset 1 -/
  clock : Bool := true
  /-- t64 of the last frame boundary at which a frame started -- 09 R199; reset DESIGN CHOICE 0 (log 3) -/
  frameAt : T64 := 0
  /-- value last written to the stall -- 09 R203; reset DESIGN CHOICE 0 (log 3) -/
  lastWritten : Int := 0
  /-- four latches -- 09 R206 -/
  latches : Tbl Latch := []
  /-- two compares -- 09 R208 -/
  compares : Tbl Compare := []
deriving DecidableEq, Repr

/-! ## Motion (10) -/

/-- Axis states, coded as R238. -/
inductive AxSt where
  | disabled | standstill | moving | stopping | segment | syncing | geared
deriving DecidableEq, Repr

/-- The axis configuration of R217. -/
structure AxisCfg where
  /-- [32] vmax -- 10 R217 -/
  vmax : Int := 0
  /-- [32] amax -- 10 R217 -/
  amax : Nat := 0
  /-- [32] dmax -- 10 R217 -/
  dmax : Nat := 0
  /-- [32] jmin -- 10 R217 -/
  jmin : Nat := 0
  /-- [32] v_def -- 10 R217 -/
  vDef : Int := 0
  /-- [32] a_def -- 10 R217 -/
  aDef : Nat := 0
  /-- [32] d_def -- 10 R217 -/
  dDef : Nat := 0
  /-- [32] j_def -- 10 R217 -/
  jDef : Nat := 0
  /-- [32] d_stop -- 10 R217 -/
  dStop : Nat := 0
  /-- [32] j_stop -- 10 R217 -/
  jStop : Nat := 0
  /-- [32] vstart -- 10 R217 -/
  vstart : Int := 0
  /-- [64] soft_min -- 10 R217 -/
  softMin : Int := 0
  /-- [64] soft_max -- 10 R217 -/
  softMax : Int := 0
  /-- [32] enc_num -- 10 R217 -/
  encNum : Int := 1
  /-- [32] enc_den -- 10 R217 -/
  encDen : Nat := 1
  /-- [32] ferr_window -- 10 R217 -/
  ferrWindow : Nat := 0
  /-- [16] ferr_time -- 10 R217 -/
  ferrTime : Nat := 0
  /-- [16] flags -- 10 R217 -/
  flags : BitVec 16 := 0
  /-- [16] lim_neg -- 10 R217 -/
  limNeg : Nat := 0xFFFF
  /-- [16] lim_pos -- 10 R217 -/
  limPos : Nat := 0xFFFF
deriving DecidableEq, Repr

/-- What a planner move aims at (R222, R238). -/
inductive Goal where
  | none | position (target : Int) | velocity (v : Int)
deriving DecidableEq, Repr

/-- What started the stop of an axis in STOPPING (R225, R236, R238). -/
inductive StopBy where
  | none | command | channel | limit | gear
deriving DecidableEq, Repr

/-- A scheduled motion command (R222, R225). -/
inductive Timed where
  | move (mode : Nat) (v : Int) (a d j : Nat) (target : Int) (at_ : T64)
  | stop (ramp : Nat) (at_ : T64)
deriving DecidableEq, Repr

/-- A gear (R230 to R234). -/
structure Gear where
  /-- [2] source -- 10 R230; reset DESIGN CHOICE 0 (log 3) -/
  source : Nat := 0
  /-- [8] flags: SYNC, CAM, REPEAT, NOW -- 10 R230; reset DESIGN CHOICE 0 (log 3) -/
  flags : BitVec 8 := 0
  /-- [16] master stall -- 10 R230; reset 0xFFFF -/
  master : Nat := 0xFFFF
  /-- [32] numerator in force -- 10 R232; reset DESIGN CHOICE 0 (log 3) -/
  num : Int := 0
  /-- [32] denominator in force -- 10 R232; reset 1 DESIGN CHOICE (log 3) -/
  den : Nat := 1
  /-- remainder r -- 10 R232; reset DESIGN CHOICE 0 (log 3) -/
  rem : Int := 0
  /-- [64] gear position p_g -- 10 R232; reset DESIGN CHOICE 0 (log 3) -/
  pg : Int := 0
  /-- pending change: M_c, N, D -- 10 R232; reset none -/
  change : Option (Int × Int × Nat) := none
  /-- [1] BEHIND -- 10 R232; reset DESIGN CHOICE 0 (log 3) -/
  behind : Bool := false
  /-- [32] vm_vel -- 10 R230; reset DESIGN CHOICE 0 (log 3) -/
  vmVel : Int := 0
  /-- [64] vm_start -- 10 R230; reset DESIGN CHOICE 0 (log 3) -/
  vmStart : T64 := 0
  /-- [64] master position at the last tick -- 10 R231; reset DESIGN CHOICE 0 (log 3) -/
  lastMaster : Int := 0
  /-- commanded position at engagement (CAM) -- 10 R233; reset DESIGN CHOICE 0 (log 3) -/
  engagedAt : Int := 0
  /-- t64 at which SYNCING began -- 10 R233; reset DESIGN CHOICE 0 (log 3) -/
  syncFrom : T64 := 0
  /-- [96] distance an overlay has added, units of 2^-32 microstep -- 10 R239; reset 0 -/
  shift : Int := 0
  /-- [32] last velocity step computed, 8 fraction bits -- 10 R233; reset DESIGN CHOICE 0 (log 3) -/
  step : Int := 0
deriving DecidableEq, Repr

/-- The overlay of a relative move in GEARED (R239). -/
structure Overlay where
  /-- [96] distance left, units of 2^-32 microstep -- 10 R239; set at the move -/
  left : Int
  /-- [64] velocity, binary64 -- 10 R216, R239; starts 0 -/
  v : W64 := 0
  /-- [64] acceleration, binary64 -- 10 R216, R239; starts 0 -/
  a : W64 := 0
  /-- limits V, A, D, J -- 10 R239; set at the move -/
  lim : Int × Nat × Nat × Nat
deriving DecidableEq, Repr

/-- One axis (10). Position is held with 32 fraction bits, velocity and acceleration in binary64 (R216). -/
structure Axis where
  /-- configuration -- 10 R217; reset none accepted -/
  cfg : AxisCfg := {}
  /-- [1] op 0 of AXIS_CONFIG accepted since the stall was assigned -- 10 R218; reset 0 -/
  configured : Bool := false
  /-- [3] state -- 10 R238; reset DISABLED -/
  st : AxSt := .disabled
  /-- [96] held position, units of 2^-32 microstep -- 10 R216; reset DESIGN CHOICE 0 (log 3) -/
  p : Int := 0
  /-- [64] velocity, binary64 -- 10 R216; reset DESIGN CHOICE 0 (log 3) -/
  v : W64 := 0
  /-- [64] acceleration, binary64 -- 10 R216; reset DESIGN CHOICE 0 (log 3) -/
  a : W64 := 0
  /-- [1] REFERENCED -- 10 R218, R241; reset 0 -/
  referenced : Bool := false
  /-- [1] AT_TARGET -- 10 R241; reset 0 -/
  atTarget : Bool := false
  /-- [1] LIMIT -- 10 R241; reset 0 -/
  limit : Bool := false
  /-- goal of the move -- 10 R222; reset none -/
  goal : Goal := .none
  /-- limits of the move: V (8 fraction bits), A, D, J -- 10 R220; reset DESIGN CHOICE 0 (log 3) -/
  lim : Int × Nat × Nat × Nat := (0, 0, 0, 0)
  /-- what began the stop in progress -- 10 R238; reset none -/
  stopBy : StopBy := .none
  /-- deceleration and jerk of the stop in progress -- 10 R225; reset DESIGN CHOICE 0 (log 3) -/
  stopLim : Nat × Nat := (0, 0)
  /-- moves and stops waiting for their instants, in order of acceptance -- 10 R222, R223, R225; reset none -/
  timed : List Timed := []
  /-- mailboxes whose AXIS_STOP waits for standstill -- 10 R225; reset none -/
  stopWaiters : List Nat := []
  /-- [64] encoder offset -- 10 R217, R235; reset 0 DESIGN CHOICE (log 3) -/
  encOffset : Int := 0
  /-- [1] the offset was set since the interface started, or stored in mode 2 -- 22 R489; reset 0 -/
  encOffsetSet : Bool := false
  /-- ticks for which the following error has stayed beyond its window -- 10 R235; reset 0 -/
  ferrTicks : Nat := 0
  /-- segment table: points (time, velocity, position) by index -- 10 R226; reset empty, loaded from the store (R227) -/
  seg : Tbl (Nat × Int × Int) := []
  /-- [13] length of the segment table -- 10 R226; reset 0 -/
  segLen : Nat := 0
  /-- start instant and start position of the running table -- 10 R229; reset DESIGN CHOICE 0 (log 3) -/
  segStart : T64 × Int := (0, 0)
  /-- [16] present point -- 10 R241; reset 0xFFFF -/
  segAt : Nat := 0xFFFF
  /-- gear -- 10 R230 -/
  gear : Gear := {}
  /-- overlay of a relative move in GEARED -- 10 R239; reset none -/
  overlay : Option Overlay := none
  /-- [64] instant of the held position, velocity and acceleration -- 10 R219, R224; reset DESIGN CHOICE 0 (log 3) -/
  at_ : T64 := 0
  /-- [64] t64 of the last tick -- 10 R241; reset DESIGN CHOICE 0 (log 3) -/
  tick : T64 := 0
  /-- held position, velocity and acceleration at the last tick -- 10 R241; reset DESIGN CHOICE 0 (log 3) -/
  shown : Int × W64 × W64 := (0, 0, 0)
  /-- [64] t64 at which the axis last entered STANDSTILL, from which the idle timer runs -- 11 R251; reset DESIGN CHOICE 0 (log 3) -/
  stood : T64 := 0
deriving DecidableEq, Repr

/-! ## Drive stage (11) -/

/-- Bridge state of a phase (R243). -/
inductive Bridge where
  | opn | drivePos | driveNeg | brake
deriving DecidableEq, Repr

/-- Where the chopper of a phase stands in its cycle (R247). -/
inductive Chop where
  | off | blank | sampling | fast | allFast | slow
deriving DecidableEq, Repr

/-- Coil states of an axis (R251). -/
inductive Coil where
  | off | run | hold | coast | short
deriving DecidableEq, Repr

/-- One phase (R243 to R253). -/
structure Phase where
  /-- [2] lands of the phase -- 11 R243; reset OPEN -/
  bridge : Bridge := .opn
  /-- chopper position -- 11 R247; reset off -/
  chop : Chop := .off
  /-- [17] amplitude in force, signed -- 11 R244; reset 0 DESIGN CHOICE (log 3) -/
  amplitude : Int := 0
  /-- [1] the last on-time drove the positive sense -- 11 R243, R248; reset DESIGN CHOICE false (log 3) -/
  lastPos : Bool := false
  /-- [1] the last amplitude that was not 0 was positive -- 11 R248; reset DESIGN CHOICE false (log 3) -/
  heading : Bool := false
  /-- [64] t64 at which the present on-time or off-time began -- 11 R247; reset DESIGN CHOICE 0 (log 3) -/
  since : T64 := 0
  /-- [16] sense code of the last trip or forced off, signed -- 11 R250; reset DESIGN CHOICE 0 (log 3) -/
  sense : Int := 0
  /-- [1] an on-time ran since the last tick -- 11 R250; reset 0 -/
  worked : Bool := false
  /-- [5] consecutive forced-off cycles with low current -- 11 R253; reset 0 -/
  lowCycles : Nat := 0
deriving DecidableEq, Repr

/-- The drive stage of one axis (R244 to R256). -/
structure Drive where
  /-- [11] t_off in 25 ns -- 11 R254; reset 800 -/
  tOff : Nat := 800
  /-- [7] t_blank in 25 ns -- 11 R254; reset 40 -/
  tBlank : Nat := 40
  /-- [7] fast-decay fraction in % -- 11 R254; reset 25 -/
  fast : Nat := 25
  /-- [9] cs_run -- 11 R254; reset 128 -/
  csRun : Nat := 128
  /-- [9] cs_hold -- 11 R254; reset 64 -/
  csHold : Nat := 64
  /-- [2] standstill mode -- 11 R254; reset 2 HOLD -/
  standstill : Nat := 2
  /-- [16] idle time in ms -- 11 R254; reset 500 -/
  idle : Nat := 500
  /-- [256 × 16] loaded sine table; the default table of R245 when none -- 11 R244, R245; reset none (default) -/
  table : Option (List Nat) := none
  /-- a committed table that takes effect at the next tick -- 11 R255; reset none -/
  nextTable : Option (Option (List Nat)) := none
  /-- staged entries -- 11 R255; reset empty -/
  staged : List Nat := []
  /-- coil state -- 11 R251; reset OFF -/
  coil : Coil := .off
  /-- phase A -- 11 R243 -/
  phA : Phase := {}
  /-- phase B -- 11 R243 -/
  phB : Phase := {}
deriving DecidableEq, Repr

/-! ## The line (12) -/

/-- Port states, coded as R285. -/
inductive PortSt where
  | disabled | down | training | up | foreign | levelRefused | retired | bypassed
deriving DecidableEq, Repr

/-- A Kerey frame, header fields and payload (R270, R271); the FCS outcome is the event's operand. -/
structure KFrame where
  /-- [8] level -- 12 R270 -/
  level : Nat
  /-- [8] type -- 12 R271 -/
  type : Nat
  /-- [16] flags -- 12 R270 -/
  flags : BitVec 16
  /-- [16] dst -- 12 R270 -/
  dst : Nat
  /-- [16] src -- 12 R270 -/
  src : Nat
  /-- [16] ttl -- 12 R270 -/
  ttl : Nat
  /-- [32] seq -- 12 R270 -/
  seq : Nat
  /-- payload -- 12 R270 -/
  payload : List Byte
  /-- [48] destination MAC -- 12 R269, R270; the multicast of the line -/
  dmac : Nat := 0x030000000000
  /-- [48] source MAC -- 12 R270; set by the sender -/
  smac : Nat := 0
  /-- [1] the copy ends with the correct FCS inverted -- 12 R273; reset 0 -/
  inverted : Bool := false
deriving DecidableEq, Repr

/-- One port, A, B, C as 0, 1, 2 (R258 to R285). -/
structure Port where
  /-- [3] state -- 12 R263, R285; reset BYPASSED for A and B (the bypass is closed), DISABLED for C in mode OFF (log 1) -/
  st : PortSt := .down
  /-- [3] rate: 0 none, 1 1000BASE-T1 to 4 10GBASE-T1 -- 12 R285; reset 0 -/
  rate : Nat := 0
  /-- [3] rate being tried in training -- 12 R259; reset 0 DESIGN CHOICE (log 3) -/
  trying : Nat := 0
  /-- [3] rate at which the port was degraded, 0 none -- 12 R259, R281; reset 0 -/
  degraded : Nat := 0
  /-- [2] partner: 0 none, 1 SL4, 2 foreign -- 12 R285; reset 0 -/
  partner : Nat := 0
  /-- [8] partner's protocol level -- 12 R285; reset DESIGN CHOICE 0 (log 3) -/
  plevel : Nat := 0
  /-- [16] partner's address -- 12 R285; reset DESIGN CHOICE 0 (log 3) -/
  paddr : Nat := 0
  /-- [64] partner's serial number -- 12 R285; reset DESIGN CHOICE 0 (log 3) -/
  pserial : Nat := 0
  /-- [1] preemption verified -- 12 R261, R278; reset 0 -/
  preempt : Bool := false
  /-- [1] in low-power idle -- 20 R458; reset 0 -/
  lpi : Bool := false
  /-- [1] the partner agreed to LPI at link-up -- 12 R261, 20 R458; reset 0 -/
  lpiAgreed : Bool := false
  /-- [1] wrap active -- 12 R280; reset 0 -/
  wrap : Bool := false
  /-- [2] closed bypasses estimated in the channel -- 12 R260, R285; reset DESIGN CHOICE 0 (log 3) -/
  bypasses : Nat := 0
  /-- [16] channel length estimate in 0.1 m -- 12 R285; reset DESIGN CHOICE 0 (log 3) -/
  length : Nat := 0
  /-- t64 of the drops inside the fault window of 10 min -- 12 R281; reset none -/
  drops : List T64 := []
  /-- [32] frames with bad FCS or hcrc -- 12 R285; reset 0 DESIGN CHOICE (log 3) -/
  fcs : Nat := 0
  /-- [32] corrected FEC blocks -- 12 R285; reset 0 DESIGN CHOICE (log 3) -/
  fecCorr : Nat := 0
  /-- [32] uncorrectable FEC blocks -- 12 R285; reset 0 DESIGN CHOICE (log 3) -/
  fecUnc : Nat := 0
  /-- [32] frames dropped at this egress -- 12 R285; reset 0 DESIGN CHOICE (log 3) -/
  qdrop : Nat := 0
  /-- frames since the last LINE_CRC -- 12 R286; reset 0 -/
  crcRun : Nat := 0
  /-- link up, LINK_HELLO awaited -- 12 R261, R263; reset 0 -/
  linkUp : Bool := false
  /-- rate lost by the last drop, for the retrain judgement of R281 -- 12 R281; reset none -/
  lost : Option (Nat × Option T64) := none
  /-- rates the partner advertises, bit per rate code -- 12 R259; reset 0 DESIGN CHOICE (log 3) -/
  adv : Nat := 0
  /-- [64] t64 of the last entry into UP -- 12 R285; reset DESIGN CHOICE 0 (log 3) -/
  upSince : T64 := 0
  /-- gate list in force: (ns, mask); none is the default list of R277 -- 12 R277; reset none (default) -/
  gates : Option (List (Nat × Nat)) := none
  /-- accepted gate list and its instant -- 12 R284; reset none -/
  newGates : Option (List (Nat × Nat) × T64) := none
  /-- [4] gate-list entry in force -- 12 R277; reset 0 -/
  entry : Nat := 0
  /-- [64] t64 at which it took force -- 12 R277; reset DESIGN CHOICE 0 (log 3) -/
  entryAt : T64 := 0
  /-- frame in transmission: the frame, its bytes sent before this fragment, start of the fragment in 0.1 ns -- 12 R278; reset none -/
  sending : Option (KFrame × Nat × Nat) := none
  /-- preempted or held frame and its bytes sent -- 12 R278; reset none -/
  held : Option (KFrame × Nat) := none
  /-- instant up to which transmission has been followed, 0.1 ns -- 12 R276; reset DESIGN CHOICE 0 (log 3) -/
  clock : Nat := 0
  /-- instant from which the next frame may start, 0.1 ns -- 12 R276; reset DESIGN CHOICE 0 (log 3) -/
  freeAt : Nat := 0
  /-- [64] t64 at which training at the present rate began -- 12 R259; reset DESIGN CHOICE 0 (log 3) -/
  trainFrom : T64 := 0
  /-- [64] t64 of the link-up whose LINK_HELLO is awaited -- 12 R261; reset DESIGN CHOICE 0 (log 3) -/
  upAt : T64 := 0
  /-- [64] t64 of the last good frame -- 12 R263; reset DESIGN CHOICE 0 (log 3) -/
  lastGood : T64 := 0
  /-- [64] t64 of the last class 5 to 7 frame but LINK_HELLO -- 12 R259; reset DESIGN CHOICE 0 (log 3) -/
  lastExpress : T64 := 0
  /-- [64] t64 from which 10 min run to the next retrain -- 12 R259; reset DESIGN CHOICE 0 (log 3) -/
  retryFrom : T64 := 0
  /-- [1] asCapable -- 13 R296; reset 0 -/
  asCapable : Bool := false
  /-- [32] mean link delay in 2^-4 ns -- 13 R296, R304; reset DESIGN CHOICE 0 (log 3) -/
  linkDelay : Nat := 0
  /-- a Pdelay_Req was sent and its response is awaited -- 13 R296; reset 0 -/
  pdelayOut : Bool := false
  /-- rate of the partner against this node, as an offset in 2^-41 -- 13 R296; reset 0 DESIGN CHOICE (log 3) -/
  rateOffset : Int := 0
  /-- partner's t3 and own t4 of the last Pdelay exchange, in 2^-4 ns -- 13 R296; reset none -/
  lastPdelay : Option (Nat × Nat) := none
  /-- [16] sequenceId of the last Sync, Pdelay_Req and Announce sent -- 13 R294; reset DESIGN CHOICE 0 (log 3) -/
  syncSeq : Nat := 0
  pdelaySeq : Nat := 0
  announceSeq : Nat := 0
  /-- [64] t64 of the last Sync, Pdelay_Req and Announce sent -- 13 R296; reset DESIGN CHOICE 0 (log 3) -/
  syncAt : T64 := 0
  pdelayAt : T64 := 0
  announceAt : T64 := 0
  /-- waiter of a per-port PHY reload (ISLAND_UPDATE code 5) -- 21 R475; reset none -/
  reload : Option Nat := none
  /-- t64 since which every rate has failed with a partner signal present -- 12 R281; reset none -/
  failFrom : Option T64 := none
deriving DecidableEq, Repr

/-- Node settings of LINE_CONFIG op 0 (R284). -/
structure LineCfg where
  /-- [2] topology -- 12 R284; reset DESIGN CHOICE 0 (log 3) -/
  topology : Nat := 0
  /-- [1] role: head -- 12 R284; reset DESIGN CHOICE 0 (log 3) -/
  head : Bool := false
  /-- [2] port C mode -- 12 R266, R284; reset DESIGN CHOICE 0 (log 3) -/
  portC : Nat := 0
  /-- [16] address -- 12 R284; reset 0x0000 (unassigned, R264) -/
  address : Nat := 0
  /-- [8] publish radius -- 12 R284; reset 1 DESIGN CHOICE (log 3) -/
  radius : Nat := 1
  /-- [8] flags -- 12 R284; reset DESIGN CHOICE 0 (log 3) -/
  flags : BitVec 8 := 0
  /-- [32] publish offset in µs -- 12 R284; reset DESIGN CHOICE 0 (log 3) -/
  offset : Nat := 0
  /-- [32] rate caps -- 12 R284; reset 0x3F top of R258 DESIGN CHOICE (log 3) -/
  maxRate : BitVec 32 := 0x3F
  /-- [32] line cycle of the settings, µs; 0 on a member -- 12 R284; reset 0 DESIGN CHOICE (log 3) -/
  cycle : Nat := 0
deriving DecidableEq, Repr

/-- One node of the head's map (R268). -/
structure MapNode where
  /-- [64] serial -- 12 R268 -/
  serial : Nat
  /-- [16] address -- 12 R268 -/
  address : Nat
  /-- [8] protocol level -- 12 R268 -/
  level : Nat
  /-- port states A, B, C -- 12 R268 -/
  ports : List Nat
  /-- neighbour addresses on A, B, C -- 12 R268 -/
  neigh : List Nat
  /-- role head announced -- 12 R267 -/
  head : Bool
  /-- rates of A, B, C, as the head learns them -- 17 R391 -/
  rates : List Nat := []
deriving DecidableEq, Repr

/-- The line (12). -/
structure Line where
  /-- three ports -- 12 R258 -/
  ports : Tbl Port := []
  /-- settings in force -- 12 R284 -/
  cfg : LineCfg := {}
  /-- stored settings, part applied at the next boundary or reset -- 12 R284; reset none pending -/
  stored : Option LineCfg := none
  /-- [1] address suspended on a conflict -- 12 R267; reset 0 -/
  suspended : Bool := false
  /-- [1] acts as a member after HEAD_CONFLICT -- 12 R267; reset 0 -/
  headYielded : Bool := false
  /-- [32] line cycle in force, µs -- 12 R284; reset 1,000 (before the first TOPO_MAP) -/
  cycle : Nat := 1000
  /-- new line cycle and its instant -- 12 R284; reset none -/
  newCycle : Option (Nat × T64) := none
  /-- [8] line level -- 12 R272, 21 R478; reset 5 DESIGN CHOICE (log 3) -/
  level : Nat := 5
  /-- accepted level raise: level and instant -- 21 R479; reset none -/
  raise : Option (Nat × T64) := none
  /-- route table: address to port -- 12 R268; reset no entries -/
  routes : Tbl Nat := []
  /-- routes before a ring break -- 12 R280; reset none -/
  savedRoutes : Option (Tbl Nat) := none
  /-- hop counts to the head by ports A and B in the last TOPO_MAP -- 13 R295; reset (0, 0) DESIGN CHOICE (log 3) -/
  hops : Nat × Nat := (0, 0)
  /-- the head's map, by serial -- 12 R268; reset empty -/
  map : Tbl MapNode := []
  /-- TOPO_MAP due within 2 line cycles -- 12 R268; reset 0 -/
  mapDue : Bool := false
  /-- content of the last TOPO_MAP received -- 12 R268, 20 R450; reset empty -/
  lastMap : List Byte := []
  /-- [1] the ring is broken -- 12 R280; reset 0 -/
  ringBroken : Bool := false
  /-- RING_CLOSED frames received towards the restoration -- 12 R280; reset 0 -/
  ringClosed : Nat := 0
  /-- [1] the head forwards between A and B -- 12 R280; reset 0 -/
  headBridges : Bool := false
  /-- proxy table: address 0xFF01 to 0xFF3F to (MAC, last traffic) -- 12 R269; reset empty -/
  proxies : Tbl (Nat × T64) := []
  /-- plant ingress token bucket: bytes and t64 of the last refill -- 12 R269; reset full (65,536) DESIGN CHOICE (log 3) -/
  bucket : Nat × T64 := (65536, 0)
  /-- last seq accepted, key source × 256 + type -- 12 R270; reset none -/
  seqIn : Tbl Nat := []
  /-- next seq of own frames by type -- 12 R270; reset DESIGN CHOICE 0 (log 3) -/
  seqOut : Tbl Nat := []
  /-- class queues, key port × 8 + class -- 12 R276; reset empty -/
  queues : Tbl (List KFrame) := []
  /-- the 32 KB per port reserved for classes 5 to 7 and the shared rest: bytes retired from the shared part -- 12 R276, 22 R494; reset 0 -/
  sharedLost : Nat := 0
  /-- CYCLIC entries kept for LINEPOINT stalls in sleep: stall to (value, invalid, format, stamp) -- 20 R452; reset none -/
  kept : Tbl (W64 × Bool × Nat × T64) := []
  /-- the frame last handed to the node -- 12 R268; reset none -/
  delivered : Option (Nat × KFrame) := none
  /-- payload of the CYCLIC frame sampled at the last line-cycle boundary -- 12 R274; reset none -/
  cyclic : List Byte := []
  /-- [1] that frame has not been sent -- 12 R274; reset 0 -/
  cyclicDue : Bool := false
  /-- [64] t64 of the last line-cycle boundary -- 12 R274; reset DESIGN CHOICE 0 (log 3) -/
  boundary : T64 := 0
deriving DecidableEq, Repr

/-! ## Line time (13) -/

/-- Servo states, coded as R304. -/
inductive ServoSt where
  | free | acquiring | locked | holdover
deriving DecidableEq, Repr

/-- Settings of TIME_CONFIG (R303). -/
structure TimeCfg where
  /-- [2] source -- 13 R303; reset DESIGN CHOICE 0 (log 3) -/
  source : Nat := 0
  /-- [8] log_sync -- 13 R296; reset -5 (default) -/
  logSync : Int := -5
  /-- [32] kp, binary32 -- 13 R297; reset 0.25 (default) -/
  kp : BitVec 32 := 0x3E800000
  /-- [32] ki, binary32 -- 13 R297; reset 0.015625 (default) -/
  ki : BitVec 32 := 0x3C800000
  /-- [16] holdover time in s -- 13 R300; reset 60 (typical) -/
  holdover : Nat := 60
  /-- [16] step threshold in µs -- 13 R300; reset 1 (typical) -/
  step : Nat := 1
  /-- [32] reference identifier -- 13 R303; reset DESIGN CHOICE 0 (log 3) -/
  refId : Nat := 0
  /-- [16] reference period in ms, 0 off -- 13 R303; reset 0 (off) -/
  refPeriod : Nat := 0
  /-- [16] UTC offset of the head -- 13 R303; reset DESIGN CHOICE 0 (log 3) -/
  utc : Int := 0
deriving DecidableEq, Repr

/-- Line time (13). -/
structure Time where
  /-- [64 + 32 + 48] the counter in units of 2^-48 ns: seconds, ns and the fraction -- 13 R287, R290; reset 2^48 × 10^9 (Rick empty plus 1 s, R292) -/
  count : Nat := 281474976710656000000000
  /-- increment I, units of 2^-48 ns per 400 MHz cycle -- 13 R290; reset nominal 0x2_8000_0000_0000 -/
  incr : Nat := 0x2800000000000
  /-- [2] servo state -- 13 R298; reset FREE (R292) -/
  servo : ServoSt := .free
  /-- integral S in 2^-4 ns -- 13 R297; reset 0 DESIGN CHOICE (log 3) -/
  integ : Int := 0
  /-- last θ in 2^-4 ns -- 13 R304; reset 0 DESIGN CHOICE (log 3) -/
  theta : Int := 0
  /-- consecutive Syncs with |θ| below 50 ns -- 13 R298; reset 0 -/
  goodRun : Nat := 0
  /-- consecutive Syncs with |θ| above 500 ns -- 13 R298; reset 0 -/
  badRun : Nat := 0
  /-- increments of the Syncs of the last 10 s, with their t64 -- 13 R298; reset empty -/
  history : List (T64 × Nat) := []
  /-- a Sync awaiting its Follow_Up: ingress stamp and port -- 13 R294; reset none -/
  sync : Option (T64 × Nat) := none
  /-- [64] t64 of the last valid Sync -- 13 R304; reset 0 DESIGN CHOICE (log 3) -/
  lastSync : T64 := 0
  /-- [2] slave port, 0xFF none -- 13 R295; reset 0 (port A) -/
  slave : Nat := 0
  /-- settings -- 13 R303 -/
  cfg : TimeCfg := {}
  /-- settings that apply at the next Sync interval boundary -- 13 R303; reset none -/
  newCfg : Option TimeCfg := none
  /-- [64] grandmaster identity -- 13 R304; reset 0 DESIGN CHOICE (log 3) -/
  gm : Nat := 0
  /-- [16] stepsRemoved -- 13 R304; reset 0 DESIGN CHOICE (log 3) -/
  steps : Nat := 0
  /-- [16] UTC offset reported -- 13 R289; reset 0 DESIGN CHOICE (log 3) -/
  utc : Int := 0
  /-- [1] STEPPED since the last read -- 13 R304; reset 0 -/
  stepped : Bool := false
  /-- [1] SOURCE_LOST -- 13 R304; reset 0 -/
  sourceLost : Bool := false
  /-- t64 at which HOLDOVER began -- 13 R298; reset 0 DESIGN CHOICE (log 3) -/
  holdFrom : T64 := 0
  /-- [6] cycle count of the next reference message -- 13 R302; reset 0 DESIGN CHOICE (log 3) -/
  refCount : Nat := 0
  /-- start of frame of the previous reference message, none when it was not sent -- 13 R302; reset none -/
  refPrev : Option T64 := none
  /-- highest grid instant carried out before a backward step: grids pause until it passes -- 13 R299; reset 0 -/
  gridFloor : T64 := 0
deriving DecidableEq, Repr

/-! ## Zone bus (14) -/

/-- Controller states, coded as R310. -/
inductive ZbSt where
  | off | integrating | errorActive | errorPassive | busOff | recovering | restricted | loopback | offline
deriving DecidableEq, Repr

/-- Where a message came from (R316). -/
inductive MsgSrc where
  | host (mbx : Nat) | remote | reference | firmware | safety
deriving DecidableEq, Repr

/-- One message of the transmit FIFO (R316, R317). -/
structure ZbMsg where
  /-- [32] identifier, coded as R92 -- 14 R316 -/
  ident : Nat
  /-- FD frame -- 14 R316 -/
  fd : Bool
  /-- bit-rate switch -- 14 R316 -/
  brs : Bool
  /-- data bytes -- 14 R316 -/
  data : List Byte
  /-- [8] retry limit, 0xFF unlimited -- 14 R317 -/
  limit : Nat
  /-- attempts that ended in an error -- 14 R317 -/
  attempts : Nat := 0
  /-- consecutive clashes -- 14 R319 -/
  clashes : Nat := 0
  /-- ID_CLASH logged for this message -- 14 R319 -/
  clashLogged : Bool := false
  /-- source -- 14 R316 -/
  src : MsgSrc
  /-- express -- 14 R318 -/
  express : Bool := false
  /-- [64] t64 at which the message entered the FIFO -- 14 R327 -/
  at_ : T64 := 0
deriving DecidableEq, Repr

/-- A received frame (R312 to R315). -/
structure ZbFrame where
  /-- [32] identifier -- 14 R313 -/
  ident : Nat
  /-- FD frame -- 14 R315 -/
  fd : Bool
  /-- bit-rate switch -- 14 R315 -/
  brs : Bool
  /-- ESI received -- 14 R315 -/
  esi : Bool
  /-- data bytes -- 14 R313 -/
  data : List Byte
  /-- start of frame -- 14 R313 -/
  stamp : T64
deriving DecidableEq, Repr

/-- One filter element (R312, R326). -/
structure ZbFilter where
  /-- [2] action -- 14 R326; reset 0 disabled DESIGN CHOICE (log 3) -/
  action : Nat := 0
  /-- [2] type -- 14 R326; reset DESIGN CHOICE 0 (log 3) -/
  type : Nat := 0
  /-- [1] extended -- 14 R326; reset DESIGN CHOICE 0 (log 3) -/
  ext : Bool := false
  /-- [32] id1 -- 14 R326; reset DESIGN CHOICE 0 (log 3) -/
  id1 : Nat := 0
  /-- [32] id2 -- 14 R326; reset DESIGN CHOICE 0 (log 3) -/
  id2 : Nat := 0
deriving DecidableEq, Repr

/-- The zone bus controller (14). -/
structure Zb where
  /-- [4] state -- 14 R310; reset OFF (R325) -/
  st : ZbSt := .off
  /-- [2] mode -- 14 R326; reset 0 OFF -/
  mode : Nat := 0
  /-- a mode change that takes effect at the next bus idle -- 14 R310; reset none -/
  newMode : Option Nat := none
  /-- [16] flags -- 14 R326; reset DESIGN CHOICE 0 (log 3) -/
  flags : BitVec 16 := 0
  /-- bit timing: nbrp, ntseg1, ntseg2, nsjw, dbrp, dtseg1, dtseg2, dsjw, tdco -- 14 R308, R326; reset none -/
  timing : List Nat := []
  /-- [8] lane flag -- 14 R314, R326; reset 0xFF none DESIGN CHOICE (log 3) -/
  laneFlag : Nat := 0xFF
  /-- [16] recovery delay in ms -- 14 R326; reset DESIGN CHOICE 0 (log 3) -/
  recoveryDelay : Nat := 0
  /-- [16] TEC -- 14 R310; reset 0 -/
  tec : Nat := 0
  /-- [8] REC -- 14 R310; reset 0 -/
  recCnt : Nat := 0
  /-- transmit FIFO, head first, 32 -- 14 R316; reset empty -/
  fifo : List ZbMsg := []
  /-- the head's frame has started -- 14 R316, R321; reset 0 -/
  started : Bool := false
  /-- suspend-transmission wait of an error-passive node -- 14 R311; reset 0 -/
  suspend : Bool := false
  /-- an express request waits for bus idle -- 14 R318; reset 0 -/
  expressDue : Bool := false
  /-- priority lane, 4 entries -- 14 R314; reset empty -/
  lane : List ZbFrame := []
  /-- 96 receive objects: identifier to newest frame -- 14 R313; reset none -/
  objects : Tbl (Option ZbFrame) := []
  /-- 32 filter elements -- 14 R312 -/
  filters : Tbl ZbFilter := []
  /-- [32] host ring descriptor, 0 none -- 14 R315; reset 0 -/
  ring : Nat := 0
  /-- [64] t64 of the last entry into BUS_OFF, from which recovery_delay runs -- 14 R310; reset DESIGN CHOICE 0 (log 3) -/
  busOffAt : T64 := 0
  /-- [64] last reference period instant served -- 14 R323; reset DESIGN CHOICE 0 (log 3) -/
  refAt : T64 := 0
  /-- last transmit period instant served, by identifier -- 14 R321; reset none -/
  txAt : Tbl T64 := []
  /-- [3] last error -- 14 R328; reset 0 -/
  lastError : Nat := 0
  /-- [8] last measured delay -- 14 R309, R328; reset DESIGN CHOICE 0 (log 3) -/
  tdc : Nat := 0
  /-- [1] protocol exception seen -- 14 R328; reset 0 -/
  protException : Bool := false
  /-- [32] tx_ok -- 14 R328; reset 0 -/
  txOk : Nat := 0
  /-- [32] rx_ok -- 14 R328; reset 0 -/
  rxOk : Nat := 0
  /-- [32] errors -- 14 R328; reset 0 -/
  errors : Nat := 0
  /-- [32] arb_lost -- 14 R328; reset 0 -/
  arbLost : Nat := 0
  /-- [32] aborted -- 14 R328; reset 0 -/
  aborted : Nat := 0
  /-- [32] clashes -- 14 R328; reset 0 -/
  clashes : Nat := 0
  /-- [32] bus_off -- 14 R328; reset 0 -/
  busOffs : Nat := 0
  /-- [32] dropped -- 14 R328; reset 0 -/
  dropped : Nat := 0
  /-- drops since the last ZB_TX_DROPPED, ZB_LANE_OVERRUN, ZB_RX_DROPPED -- 14 R330; reset 0 -/
  dropRuns : Nat × Nat × Nat := (0, 0, 0)
deriving DecidableEq, Repr

/-! ## Parcel custody (15) -/

/-- Record states, coded as R332. -/
inductive RecSt where
  | inbound | held | outbound | released | uncertain
deriving DecidableEq, Repr

/-- One custody record (R332) and the bookkeeping custody keeps for it. -/
structure CRec where
  /-- [64] parcel -- 15 R333 -/
  parcel : Nat := 0
  /-- [8] state -- 15 R332 -/
  st : RecSt := .held
  /-- [8] cflags -- 15 R332 -/
  cflags : BitVec 8 := 0
  /-- [8] hops -- 15 R332 -/
  hops : Nat := 0
  /-- [8] level -- 15 R332 -/
  level : Nat := 5
  /-- [32] version -- 15 R334 -/
  version : Nat := 1
  /-- [64] created -- 15 R332 -/
  created : T64 := 0
  /-- [64] entered -- 15 R332 -/
  entered : T64 := 0
  /-- [64] entered_ref -- 15 R332 -/
  enteredRef : Int := 0
  /-- [16] length -- 15 R332 -/
  length : Nat := 0
  /-- [16] destination -- 15 R332 -/
  destination : Nat := 0
  /-- [16] from -- 15 R332 -/
  from_ : Nat := 0
  /-- [16] to -- 15 R332 -/
  to_ : Nat := 0
  /-- [8] from_port -- 15 R332 -/
  fromPort : Nat := 3
  /-- [8] exit -- 15 R332 -/
  exit : Nat := 0xFF
  /-- tag, up to 24 bytes -- 15 R332 -/
  tag : List Byte := []
  /-- [32] energy_zone -- 15 R332 -/
  energyZone : Nat := 0
  /-- [32] energy_line -- 15 R332 -/
  energyLine : Nat := 0
  /-- [64] boundary -- 15 R332 -/
  boundary : T64 := 0
  /-- [64] resolved -- 15 R332 -/
  resolved : T64 := 0
  /-- [32] ckpt -- 15 R332 -/
  ckpt : Nat := 0
  /-- accumulator of R460, µJ -- 20 R460; reset 0 -/
  acc : Nat := 0
  /-- changed since the last checkpoint -- 15 R345; reset 0 -/
  changed : Bool := true
  /-- port of the mirror holder, none when UNMIRRORED -- 15 R340; set at creation -/
  holder : Option Nat := none
  /-- serial of the partner the offer goes to -- 15 R343; set at t1 -/
  partner : Option Nat := none
  /-- [64] t64 from which the time without an ACCEPT or a COMMIT counts -- 15 R335, R343; reset DESIGN CHOICE 0 (log 3) -/
  since : T64 := 0
deriving DecidableEq, Repr

/-- A custody message that is repeated until it is answered (R341). -/
structure CMsg where
  /-- [8] message code -- 15 R341 -/
  msg : Nat
  /-- [2] port it goes out on -- 15 R341 -/
  port : Nat
  /-- parcel, 0 for none -- 15 R341 -/
  parcel : Nat
  /-- version -- 15 R341 -/
  version : Nat
deriving DecidableEq, Repr

/-- One exit (R337, R352 op 1). -/
structure Exit where
  /-- [2] kind -- 15 R352; reset 0 unused DESIGN CHOICE (log 3) -/
  kind : Nat := 0
  /-- [2] port -- 15 R352; reset DESIGN CHOICE 0 (log 3) -/
  port : Nat := 0
  /-- [16] eye -- 15 R352; reset DESIGN CHOICE 0 (log 3) -/
  eye : Nat := 0
  /-- [8] decision flag -- 15 R352; reset 0xFF none -/
  flag : Nat := 0xFF
  /-- [32] boundary -- 15 R352; reset DESIGN CHOICE 0 (log 3) -/
  boundary : Int := 0
  /-- [32] decision -- 15 R352; reset DESIGN CHOICE 0 (log 3) -/
  decision : Int := 0
deriving DecidableEq, Repr

/-- A copy held for a neighbour (R340). -/
structure Copy where
  /-- the record -- 15 R340 -/
  body : CRec
  /-- clean: durable at the custodian -- 15 R340 -/
  clean : Bool
  /-- [2] neighbour's port -- 15 R331 -/
  port : Nat
deriving DecidableEq, Repr

/-- A checkpoint run: its records and what its commit record tells (R345). -/
structure CkptRun where
  /-- [1] kind: a snapshot, else a delta -- 15 R345 -/
  snap : Bool
  /-- records, 128 bytes each -- 15 R345 -/
  recs : List (List Byte)
  /-- [32] sequence -- 15 R345 -/
  seq : Nat
  /-- [64] the period's end -- 15 R345 -/
  time : T64
  /-- [48] next creation counter -- 15 R345 -/
  counter : Nat
deriving DecidableEq, Repr

/-- Parcel custody (15). -/
structure Custody where
  /-- own records by slot, 4,096 -- 15 R331; reset empty -/
  own : Tbl CRec := []
  /-- upstream mirror by slot, 1,024 -- 15 R331; reset empty -/
  up : Tbl Copy := []
  /-- downstream mirror by slot, 1,024 -- 15 R331; reset empty -/
  down : Tbl Copy := []
  /-- [48] creation counter -- 15 R333; reset DESIGN CHOICE 0 (log 3) -/
  counter : Nat := 0
  /-- op 0 accepted -- 15 R352; reset 0 -/
  configured : Bool := false
  /-- [1] source is a stall -- 15 R352; reset DESIGN CHOICE 0 (log 3) -/
  stallSource : Bool := false
  /-- [16] source stall -- 15 R352; reset 0xFFFF -/
  stall : Nat := 0xFFFF
  /-- [32] scale, binary32 -- 15 R352; reset DESIGN CHOICE 0 (log 3) -/
  scale : BitVec 32 := 0
  /-- [32] speed in mm/s -- 15 R352; reset DESIGN CHOICE 0 (log 3) -/
  speed : Nat := 0
  /-- [16] checkpoint period in ms -- 15 R352; reset 100 (default) -/
  period : Nat := 100
  /-- [16] match window in 0.1 mm -- 15 R352; reset 500 (default) -/
  window : Nat := 500
  /-- [32] scanner identifier -- 15 R352; reset 0xFFFF_FFFF none -/
  scanner : Nat := 0xFFFFFFFF
  /-- [32] scan_pos -- 15 R352; reset DESIGN CHOICE 0 (log 3) -/
  scanPos : Int := 0
  /-- [8] default exit -- 15 R352; reset DESIGN CHOICE 0 (log 3) -/
  defaultExit : Nat := 0
  /-- 16 exits -- 15 R352 -/
  exits : Tbl Exit := []
  /-- 64 route entries: dest_lo, dest_hi, exit -- 15 R352; reset unused -/
  routes : Tbl (Nat × Nat × Nat) := []
  /-- source values of the last 100 ms: (t64, value), newest first -- 15 R336; reset empty -/
  samples : List (T64 × Int) := []
  /-- messages repeated until answered -- 15 R341; reset none -/
  unanswered : List CMsg := []
  /-- COMMITs delayed for a full mirror -- 15 R343; reset none -/
  delayedCommits : List CMsg := []
  /-- exits whose eye rose and has not fallen: exit to (parcels, t64 of the rise) -- 15 R337, R344; reset none -/
  leaving : Tbl (List Nat × T64) := []
  /-- [64] last position evaluation -- 15 R337; reset DESIGN CHOICE 0 (log 3) -/
  evalAt : T64 := 0
  /-- [64] t64 at which recovery began -- 15 R349; reset DESIGN CHOICE 0 (log 3) -/
  recoverAt : T64 := 0
  /-- parcels rebuilt alone after a failed crc or a retired page -- 15 R347, 22 R491; reset none -/
  rebuild : List Nat := []
  /-- stamp of the last edge processed at each exit -- 15 R347; reset DESIGN CHOICE 0 (log 3) -/
  lastEdge : Tbl T64 := []
  /-- [32] sequence of the last checkpoint written -- 15 R345; reset 0 DESIGN CHOICE (log 3) -/
  ckptSeq : Nat := 0
  /-- [32] latest durable sequence -- 15 R345; reset 0 DESIGN CHOICE (log 3) -/
  durable : Nat := 0
  /-- [1] active half -- 15 R345; reset DESIGN CHOICE 0 (log 3) -/
  half : Nat := 0
  /-- half 0 of the checkpoint partition, 128-byte records in order of writing -- 15 R345; reset empty -/
  half0 : List (List Byte) := []
  /-- half 1 of the checkpoint partition -- 15 R345; reset empty -/
  half1 : List (List Byte) := []
  /-- the checkpoint run being written -- 15 R345; reset none -/
  writing : Option CkptRun := none
  /-- [64] end of the last checkpoint period -- 15 R345; reset DESIGN CHOICE 0 (log 3) -/
  periodAt : T64 := 0
  /-- [64] last repeat of unanswered messages -- 15 R341; reset DESIGN CHOICE 0 (log 3) -/
  repeatAt : T64 := 0
  /-- updates a full mirror refused: (port, parcel), sent again after the next checkpoint -- 15 R340; reset none -/
  resend : List (Nat × Nat) := []
  /-- CUSTODY_CKPT_FAIL was logged -- 15 R346; reset 0 -/
  ckptFailLogged : Bool := false
  /-- recovery runs -- 15 R349; reset 0 -/
  recovering : Bool := false
  /-- neighbours (ports) whose RECOVER_END is awaited -- 15 R349; reset none -/
  awaiting : List Nat := []
  /-- copies received in recovery: (port, status, neighbour recovering, record) -- 15 R349; reset none -/
  received : List (Nat × Nat × Bool × CRec) := []
  /-- neighbours that are themselves recovering -- 15 R349; reset none -/
  neighRecovering : List Nat := []
  /-- [64] energy carried over, µJ -- 20 R460; reset 0 -/
  energyRem : Nat := 0
  /-- [64] energy charged to parcels, µJ -- 20 R459; reset 0 -/
  charged : Nat := 0
  /-- [32] parcels released since power-up -- 20 R459; reset 0 -/
  releasedCount : Nat := 0
deriving DecidableEq, Repr

/-! ## Lifts and gates (16) -/

/-- Lift states, coded as R363. -/
inductive LiftSt where
  | inactive | unreferenced | referencing | idle | departing | travelling | arriving | atLevel | halted | fault
deriving DecidableEq, Repr

/-- Gate states, coded as R364. -/
inductive GateSt where
  | unknown | closedLocked | unlocking | opening | opened | closing | reopening | locking | obstructed | fault
deriving DecidableEq, Repr

/-- One lift (R355 to R375). -/
structure Lift where
  /-- op 0 of LIFT_CONFIG accepted -- 16 R371, R372; reset 0 -/
  cfgOk : Bool := false
  /-- op 1 of LIFT_CONFIG accepted -- 16 R371, R372; reset 0 -/
  tableOk : Bool := false
  /-- [32] scale, binary32 -- 16 R372; reset DESIGN CHOICE 0 (log 3) -/
  scale : BitVec 32 := 0
  /-- [32] drive_scale, binary32 -- 16 R372; reset DESIGN CHOICE 0 (log 3) -/
  driveScale : BitVec 32 := 0
  /-- [32] decel, binary32 -- 16 R372; reset DESIGN CHOICE 0 (log 3) -/
  decel : BitVec 32 := 0
  /-- [16] v_ref in mm/s -- 16 R372; reset DESIGN CHOICE 0 (log 3) -/
  vRef : Nat := 0
  /-- [16] ref_tol in 0.1 mm -- 16 R372; reset DESIGN CHOICE 0 (log 3) -/
  refTol : Nat := 0
  /-- [16] flag_half in 0.1 mm -- 16 R372; reset DESIGN CHOICE 0 (log 3) -/
  flagHalf : Nat := 0
  /-- [16] stop_tol in 0.1 mm -- 16 R372; reset DESIGN CHOICE 0 (log 3) -/
  stopTol : Nat := 0
  /-- [32] ref_travel in 0.1 mm -- 16 R372; reset DESIGN CHOICE 0 (log 3) -/
  refTravel : Nat := 0
  /-- [16] dwell in ms -- 16 R372; reset DESIGN CHOICE 0 (log 3) -/
  dwell : Nat := 0
  /-- [8] ref_dir: up -- 16 R372; reset DESIGN CHOICE 0 (log 3) -/
  refUp : Bool := false
  /-- [8] hold_flag, 0xFF none -- 16 R372; reset 0xFF DESIGN CHOICE (log 3) -/
  holdFlag : Nat := 0xFF
  /-- [8] park_level, 0xFF none -- 16 R372; reset 0xFF DESIGN CHOICE (log 3) -/
  parkLevel : Nat := 0xFF
  /-- [16] idle_time in s -- 16 R372; reset DESIGN CHOICE 0 (log 3) -/
  idleTime : Nat := 0
  /-- [16 × 32] level table -- 16 R372; reset DESIGN CHOICE 0 (log 3) -/
  levelTable : Tbl Int := []
  /-- [4] state -- 16 R363; reset INACTIVE -/
  st : LiftSt := .inactive
  /-- [32] reference offset off -- 16 R355; reset DESIGN CHOICE 0 (log 3) -/
  off : Int := 0
  /-- source values of the last 100 ms: (t64, value in 2^-32), newest first -- 16 R355; reset empty -/
  samples : List (T64 × Int) := []
  /-- [32] car_pos last written -- 16 R355; reset DESIGN CHOICE 0 (log 3) -/
  carPos : Int := 0
  /-- [1] REFERENCED -- 16 R375; reset 0 -/
  referenced : Bool := false
  /-- [1] reference pending -- 16 R363, R375; reset 0 -/
  refPending : Bool := false
  /-- [2] direction: 0 none, 1 up, 2 down -- 16 R375; reset 0 -/
  dir : Nat := 0
  /-- last direction of travel -- 16 R363; reset 0 -/
  lastDir : Nat := 0
  /-- [8] target level, 0xFF none -- 16 R375; reset 0xFF -/
  target : Nat := 0xFF
  /-- the present travel was started by a park, or by a call without a gate to open -- 16 R359, R362; reset 0 -/
  noGate : Bool := false
  /-- [16] call set -- 16 R358; reset 0 -/
  calls : BitVec 16 := 0
  /-- [16] levels out of service -- 16 R357; reset 0 -/
  outOfService : BitVec 16 := 0
  /-- a failed arrival at this stop was already repeated -- 16 R361, R363; reset 0 -/
  arrivalTried : Bool := false
  /-- [64] t64 of the last LIFT_REFERENCED -- 16 R375; reset DESIGN CHOICE 0 (log 3) -/
  lastRef : T64 := 0
  /-- [32] last correction -- 16 R375; reset DESIGN CHOICE 0 (log 3) -/
  correction : Int := 0
  /-- [1] DEMAND of the interlock -- 16 R367, R375; reset 0 -/
  demand : Bool := false
  /-- [1] the lift's safety torque was requested on -- 16 R361, R367; reset 0 -/
  torqueOn : Bool := false
  /-- flags passed or seen on the present pass of each level, for the missing-flag test -- 16 R357; reset 0 -/
  flagSeen : BitVec 16 := 0
  /-- t64 at which IDLE was entered -- 16 R359; reset DESIGN CHOICE 0 (log 3) -/
  idleFrom : T64 := 0
  /-- car position at the start of the referencing move -- 16 R363; reset DESIGN CHOICE 0 (log 3) -/
  refStart : Int := 0
  /-- [64] t64 of the last position update -- 16 R355; reset DESIGN CHOICE 0 (log 3) -/
  updAt : T64 := 0
  /-- [64] t64 at which ARRIVING was entered -- 16 R361; reset DESIGN CHOICE 0 (log 3) -/
  arriveAt : T64 := 0
  /-- [64] t64 since which the car has stayed within stop_tol of its target, REMOTE drive -- 16 R361; reset none -/
  nearFrom : Option T64 := none
  /-- torque was removed since the lift was halted -- 16 R363; reset 0 -/
  torqueCut : Bool := false
  /-- a position for the REMOTE drive that waits for the Sequencer, 0.1 mm -- 16 R370; reset none -/
  writeDue : Option Int := none
deriving DecidableEq, Repr

/-- One gate (R364 to R366). -/
structure Gate where
  /-- op 2 of LIFT_CONFIG accepted -- 16 R371; reset 0 -/
  cfgOk : Bool := false
  /-- [16] t_unlock in ms -- 16 R372; reset DESIGN CHOICE 0 (log 3) -/
  tUnlock : Nat := 0
  /-- [16] t_open in ms -- 16 R372; reset DESIGN CHOICE 0 (log 3) -/
  tOpen : Nat := 0
  /-- [16] t_close in ms -- 16 R372; reset DESIGN CHOICE 0 (log 3) -/
  tClose : Nat := 0
  /-- [16] t_lock in ms -- 16 R372; reset DESIGN CHOICE 0 (log 3) -/
  tLock : Nat := 0
  /-- [16] retry_dwell in ms -- 16 R372; reset DESIGN CHOICE 0 (log 3) -/
  retryDwell : Nat := 0
  /-- [16] i_obst in mA -- 16 R372; reset DESIGN CHOICE 0 (log 3) -/
  iObst : Nat := 0
  /-- [32] ferr_obst in microsteps -- 16 R372; reset DESIGN CHOICE 0 (log 3) -/
  ferrObst : Nat := 0
  /-- [64] open_pos -- 16 R372; reset DESIGN CHOICE 0 (log 3) -/
  openPos : Int := 0
  /-- [64] closed_pos -- 16 R372; reset DESIGN CHOICE 0 (log 3) -/
  closedPos : Int := 0
  /-- [4] state -- 16 R364, R365; reset UNKNOWN -/
  st : GateSt := .unknown
  /-- closing attempts -- 16 R365; reset 0 -/
  attempts : Nat := 0
  /-- [1] held open by GATE_COMMAND -- 16 R374; reset 0 -/
  heldOpen : Bool := false
  /-- the dwell after OPEN has elapsed -- 16 R361; reset 0 -/
  dwellDone : Bool := false
  /-- a closing request waits (DEPARTING, or after retry_dwell) -- 16 R363, R365; reset 0 -/
  closeDue : Bool := false
  /-- an open request waits for the permit -- 16 R365; reset 0 -/
  openDue : Bool := false
  /-- [2] cause of the last failed attempt -- 16 R366; reset DESIGN CHOICE 0 (log 3) -/
  cause : Nat := 0
  /-- consecutive checks with the following error above ferr_obst -- 16 R366; reset 0 -/
  ferrRun : Nat := 0
  /-- milliseconds for which the current stayed above i_obst -- 16 R366; reset 0 -/
  currentRun : Nat := 0
  /-- the gate is held (R369): no new sequence step starts -- 16 R369; reset 0 -/
  held : Bool := false
  /-- [64] t64 at which the present state was entered -- 16 R361, R365; reset DESIGN CHOICE 0 (log 3) -/
  stepAt : T64 := 0
  /-- an AXIS drive is set to open once its quick stop has ended -- 16 R365, R366; reset 0 -/
  reopenDue : Bool := false
  /-- [64] last obstruction check -- 16 R366; reset DESIGN CHOICE 0 (log 3) -/
  checkAt : T64 := 0
  /-- a setting of the drive, open or closed, that waits for the Sequencer -- 16 R370; reset none -/
  writeDue : Option Bool := none
deriving DecidableEq, Repr

/-! ## The harvest stream (17) -/

/-- Settings of HARVEST_LIST op 0 (R378). -/
structure HvSet where
  /-- [2] clock: 0 line, 1 CBUS master, 2 CBUS slave -- 17 R378; reset 0 (both lands released, R393) -/
  clock : Nat := 0
  /-- [1] stream: WINDOWED -- 17 R378; reset 0 DESIGN CHOICE (log 3) -/
  windowed : Bool := false
  /-- [1] TBUS in use -- 17 R378; reset 0 DESIGN CHOICE (log 3) -/
  tbus : Bool := false
  /-- [20] period P in µs -- 17 R378; reset 1,000 DESIGN CHOICE (log 3) -/
  period : Nat := 1000
  /-- [16] key_every -- 17 R378; reset 1 DESIGN CHOICE (log 3) -/
  keyEvery : Nat := 1
  /-- [16] pre -- 17 R378; reset DESIGN CHOICE 0 (log 3) -/
  pre : Nat := 0
  /-- [16] post -- 17 R378; reset DESIGN CHOICE 0 (log 3) -/
  post : Nat := 0
  /-- [17] comp in ns -- 17 R378; reset DESIGN CHOICE 0 (log 3) -/
  comp : Nat := 0
deriving DecidableEq, Repr

/-- One list entry (R379). -/
structure HvEntry where
  /-- [16] stall, 0xFFFF end -- 17 R379 -/
  stall : Nat := 0xFFFF
  /-- [2] mode -- 17 R379 -/
  mode : Nat := 0
  /-- [16] divider -- 17 R379 -/
  divider : Nat := 1
  /-- [32] band -- 17 R379 -/
  band : BitVec 32 := 0
deriving DecidableEq, Repr

/-- One snapshot entry as read (R381): its value, INVALID bit and format. -/
structure HvValue where
  /-- [7] entry -- 17 R381 -/
  entry : Nat
  /-- [64] value -- 17 R381 -/
  value : W64
  /-- [1] INVALID -- 17 R381 -/
  invalid : Bool
  /-- [3] format -- 17 R380 -/
  format : Nat
deriving DecidableEq, Repr

/-- What the raw ring holds: a snapshot, a mark, or a gap, in index order (R381 to R388). -/
inductive HvRaw where
  | sample (index : Nat) (stamp : T64) (stamped key : Bool) (vals : List HvValue)
  | mark (index : Nat) (fires : List (Nat × T64))
  | gap (index count cause : Nat)
deriving DecidableEq, Repr

/-- Collector slot states, coded as R391. -/
inductive SlotSt where
  | none | requested | granted | refused | revoked
deriving DecidableEq, Repr

/-- One encoded record (R383), its offset not yet set. -/
structure HvRec where
  /-- [64] index -- 17 R383 -/
  index : Nat
  /-- [16] generation -- 17 R382 -/
  gen : Nat
  /-- [32] period in µs -- 17 R382 -/
  period : Nat
  /-- [8] type -- 17 R383 -/
  kind : Nat
  /-- [8] rflags -- 17 R383 -/
  flags : Nat
  /-- body after the offset -- 17 R383 -/
  body : List Byte
deriving DecidableEq, Repr

/-- One collector slot (R390 to R392). -/
structure HvSlot where
  /-- [3] state -- 17 R391; reset NONE -/
  st : SlotSt := .none
  /-- [16] collector address -- 17 R390; reset DESIGN CHOICE 0 (log 3) -/
  address : Nat := 0
  /-- [17] share asked, kbit/s -- 17 R390; reset DESIGN CHOICE 0 (log 3) -/
  share : Nat := 0
  /-- [17] share granted -- 17 R390; reset DESIGN CHOICE 0 (log 3) -/
  granted : Nat := 0
  /-- [32] frame sequence, wrapping -- 17 R382; reset DESIGN CHOICE 0 (log 3) -/
  fseq : BitVec 32 := 0
  /-- records encoded and waiting in the transmit ring -- 17 R381, R392; reset empty -/
  ring : List HvRec := []
  /-- token bucket: 10^-9 bytes and t64 of the last refill -- 17 R392; reset full DESIGN CHOICE (log 3) -/
  bucket : Nat × T64 := (65536000000000, 0)
  /-- sending starts at the next KEY sample -- 17 R391; reset 0 -/
  waitKey : Bool := false
  /-- last value sent of each entry, and whether the last present sample was INVALID -- 17 R384; reset none -/
  last : Tbl (Option W64 × Bool) := []
  /-- the next sample is KEY: it follows a GAP of this slot -- 17 R385; reset 0 -/
  forceKey : Bool := false
  /-- [64] t64 of the request, the refusal or the revocation -- 17 R391; reset DESIGN CHOICE 0 (log 3) -/
  since : T64 := 0
  /-- a gap to report once sending resumes: first index, count, cause -- 17 R392, R395; reset none -/
  gapDue : Option (Nat × Nat × Nat) := none
  /-- the mailbox whose HARVEST_COLLECTOR waits for the head -- 17 R390; reset none -/
  waiter : Option Nat := none
deriving DecidableEq, Repr

/-- Trigger states, coded as R387. -/
inductive TrigSt where
  | disarmed | armed | holdoff | fired
deriving DecidableEq, Repr

/-- One trigger (R386 to R388). -/
structure Trig where
  /-- [2] state -- 17 R387; reset DISARMED -/
  st : TrigSt := .disarmed
  /-- [2] source -- 17 R386; reset DESIGN CHOICE 0 (log 3) -/
  source : Nat := 0
  /-- [1] arm: AUTO -- 17 R386; reset DESIGN CHOICE 0 (log 3) -/
  auto : Bool := false
  /-- [8] condition -- 17 R386; reset DESIGN CHOICE 0 (log 3) -/
  cond : Nat := 0
  /-- [1] tbus_out -- 17 R386; reset DESIGN CHOICE 0 (log 3) -/
  tbusOut : Bool := false
  /-- [16] stall -- 17 R386; reset 0xFFFF -/
  stall : Nat := 0xFFFF
  /-- [64] c_value -- 17 R386; reset DESIGN CHOICE 0 (log 3) -/
  value : W64 := 0
  /-- [26] holdoff in µs -- 17 R386; reset DESIGN CHOICE 0 (log 3) -/
  holdoff : Nat := 0
  /-- [32] fires since arming, wrapping -- 17 R386; reset 0 -/
  fires : BitVec 32 := 0
  /-- [64] t64 of the last fire -- 17 R386; reset DESIGN CHOICE 0 (log 3) -/
  last : T64 := 0
  /-- [64] index of the last fire -- 17 R386; reset DESIGN CHOICE 0 (log 3) -/
  lastIndex : Nat := 0
deriving DecidableEq, Repr

/-- The harvest stream (17). -/
structure Harvest where
  /-- staged settings -- 17 R378; reset as the committed -/
  stagedSet : HvSet := {}
  /-- [128 × 96] staged entries; unlisted entries are end entries -- 17 R378, R379; reset empty -/
  stagedEnt : Tbl HvEntry := []
  /-- settings in force -- 17 R378 -/
  inForce : HvSet := {}
  /-- entries in force -- 17 R379; reset none (no list committed) -/
  entries : List HvEntry := []
  /-- [16] generation in force -- 17 R380; reset DESIGN CHOICE 0 (log 3) -/
  generation : Nat := 0
  /-- accepted list and its first instant -- 17 R380; reset none -/
  newList : Option (HvSet × List HvEntry × T64) := none
  /-- raw ring, oldest first -- 17 R381; reset empty -/
  raw : List HvRaw := []
  /-- four slots -- 17 R390 -/
  slots : Tbl HvSlot := []
  /-- 32 triggers -- 17 R386 -/
  trigs : Tbl Trig := []
  /-- fires that wait for their index: (index, trigger, instant) -- 17 R386, R388; reset none -/
  fires : List (Nat × Nat × T64) := []
  /-- t64 of each entry's previous snapshot -- 17 R386; reset none -/
  prevAt : Tbl T64 := []
  /-- [64] index of the last CBUS edge counted as slave -- 17 R394; reset DESIGN CHOICE 0 (log 3) -/
  edgeIndex : Nat := 0
  /-- index of the last KEY sample -- 17 R385; reset none -/
  lastKey : Option Nat := none
  /-- the next sample is KEY: first of a generation, after a GAP, after a format change -- 17 R385; reset 1 -/
  keyDue : Bool := true
  /-- formats of the entries at the last snapshot -- 17 R385; reset empty -/
  formats : Tbl Nat := []
  /-- last index of the window in progress -- 17 R389; reset none -/
  windowEnd : Option Nat := none
  /-- samples held for windows not yet opened, oldest first -- 17 R389; reset empty -/
  held : List HvRaw := []
  /-- [32] samples taken since the last read -- 17 R396; reset 0 -/
  samples : Nat := 0
  /-- [32] indices lost since the last read -- 17 R396; reset 0 -/
  gaps : Nat := 0
  /-- [32] MARK records written since the last read -- 17 R396; reset 0 -/
  marks : Nat := 0
  /-- [64] index of the last sample taken -- 17 R396; reset DESIGN CHOICE 0 (log 3) -/
  lastIndex : Nat := 0
  /-- index from which a gap runs, with its cause, while sampling stands -- 17 R395; reset none -/
  gapFrom : Option (Nat × Nat) := none
  /-- [1] the SL4 pulls TBUS low -- 17 R394; reset released -/
  tbusLow : Bool := false
  /-- [64] t64 at which the SL4 pulled TBUS low -- 17 R394; reset DESIGN CHOICE 0 (log 3) -/
  tbusAt : T64 := 0
  /-- [1] the SL4 pulls CBUS low -- 17 R394; reset released -/
  cbusLow : Bool := false
  /-- t64 of the last CBUS edge taken -- 17 R394; reset DESIGN CHOICE 0 (log 3) -/
  lastCbus : T64 := 0
  /-- the head's grants, latest first: (node, slot, collector, share) -- 17 R391; reset none -/
  grants : List (Nat × Nat × Nat × Nat) := []
deriving DecidableEq, Repr

/-! ## Event recorder (18) -/

/-- An event record without its slot bytes crc and valid (R398). -/
structure EvRec where
  /-- [16] code -- 18 R398 -/
  code : Nat
  /-- [8] flags -- 18 R398 -/
  flags : BitVec 8
  /-- [8] suppressed -- 18 R398 -/
  suppressed : Nat
  /-- [32] sequence -- 18 R398 -/
  seq : Nat
  /-- [64] t64 -- 18 R398 -/
  t : T64
  /-- [96] parameters -- 18 R398 -/
  p0 : Nat
  /-- parameter 1 -- 18 R398 -/
  p1 : Nat
  /-- parameter 2 -- 18 R398 -/
  p2 : Nat
deriving DecidableEq, Repr

/-- What a slot of the store holds (R404). -/
inductive Slot where
  | valid (r : EvRec) | torn | corrupt (seq : Nat)
deriving DecidableEq, Repr

/-- One token bucket (R405). -/
structure Bucket where
  /-- tokens, in 10^-9 of one -- 18 R405 -/
  tokens : Nat
  /-- t64 of the last refill -- 18 R405 -/
  at_ : T64
deriving DecidableEq, Repr

/-- Where an EVENT_CLEAR stands (R408); an erase with the blocks that are left, the one being erased first. -/
inductive ClearSt where
  | none
  | rickRecord (scope before : Nat) | granaryErase (scope block : Nat) | granaryRecord (scope : Nat)
  | rickErase (blocks : List Nat) | rickAgain
deriving DecidableEq, Repr

/-- The event recorder (18). -/
structure Recorder where
  /-- Granary slots, 16,384 -- 18 R402; reset empty (as it leaves manufacture) -/
  granary : Tbl Slot := []
  /-- Rick slots, 131,328 -- 18 R402; reset empty (as it leaves manufacture) -/
  rick : Tbl Slot := []
  /-- slots whose CRC is now wrong, each with the sequence read from it; Granary slot k as k, Rick slot k as 16,384 + k -- 18 R404; reset none -/
  wrongCrc : List (Nat × Nat) := []
  /-- next Granary slot -- 18 R403; reset 0 -/
  gHead : Nat := 0
  /-- next Rick slot -- 18 R403; reset 0 -/
  rHead : Nat := 0
  /-- [32] next sequence -- 18 R404; reset DESIGN CHOICE 0 (log 3) -/
  seq : Nat := 0
  /-- store controller queue, oldest first, 512 -- 18 R401; reset empty -/
  queue : List EvRec := []
  /-- the record being programmed and its step: bytes 0 to 30 (false) or the valid mark (true), Granary copy first -- 18 R403; reset none -/
  program : Option (EvRec × Bool × Bool) := none
  /-- Sequencer's event queue, 256 -- 18 R401; reset empty -/
  held : List EvRec := []
  /-- token buckets of the areas -- 18 R405; full where unlisted -/
  buckets : Tbl Bucket := []
  /-- line-wide token bucket -- 18 R405; reset full -/
  globalBucket : Bucket := { tokens := 4096000000000, at_ := 1000000000 }
  /-- suppressed counts per code -- 18 R398, R405; reset 0 -/
  supp : Tbl Nat := []
  /-- [32] events suppressed since power-up, saturating -- 18 R407; reset 0 -/
  suppressed : Nat := 0
  /-- [32] torn slots found since power-up -- 18 R407; reset 0 -/
  torn : Nat := 0
  /-- [16] highest fill of the queue since the last read -- 18 R407; reset 0 -/
  queuePeak : Nat := 0
  /-- stage of a clear -- 18 R408; reset none -/
  clear : ClearSt := .none
  /-- a reset tore an erase: it is done again before writing resumes -- 18 R404; reset false -/
  eraseFirst : Bool := false
  /-- the record of the clear in progress -- 18 R408; reset none -/
  clearRec : Option EvRec := none
  /-- the mailbox whose EVENT_CLEAR runs -- 18 R408; reset none -/
  clearWaiter : Option Nat := none
  /-- Rick blocks retired without replacement -- 18 R407; reset none -/
  rickRetired : List Nat := []
  /-- blocks whose erase runs: Granary block b as b, Rick block b as 128 + b -- 18 R402; reset none -/
  erasing : List Nat := []
deriving DecidableEq, Repr

/-! ## Safety functions (19) -/

/-- Zone states, coded as R416. -/
inductive ZoneSt where
  | stop | two | singleA | singleB
deriving DecidableEq, Repr

/-- Channel states, coded as R441. -/
inductive ChanSt where
  | run | follower | testing | lost
deriving DecidableEq, Repr

/-- One signal record (R419). -/
structure SfSignal where
  /-- [8] land_a, 0xFF unused -- 19 R419 -/
  landA : Nat := 0xFF
  /-- [8] land_b, 0xFF none -- 19 R419 -/
  landB : Nat := 0xFF
  /-- [2] mode -- 19 R419 -/
  mode : Nat := 0
  /-- [5] filter, 0.5 ms -- 19 R419 -/
  filter : Nat := 2
  /-- [12] discrepancy, ms -- 19 R419 -/
  discrepancy : Nat := 0
deriving DecidableEq, Repr

/-- One function record (R420). -/
structure SfFunc where
  /-- [8] code, 0 unused -- 19 R420, R421 -/
  code : Nat := 0
  /-- [1] manual restart -- 19 R420 -/
  manual : Bool := false
  /-- [8] level, 0xFF none -- 19 R420 -/
  level : Nat := 0xFF
  /-- [16] src0 -- 19 R420 -/
  src0 : BitVec 16 := 0
  /-- [16] src1 -- 19 R420 -/
  src1 : BitVec 16 := 0
  /-- [16] src2 -- 19 R420 -/
  src2 : BitVec 16 := 0
  /-- [16] time0, ms -- 19 R420 -/
  time0 : Nat := 0
  /-- [16] time1, ms -- 19 R420 -/
  time1 : Nat := 0
  /-- [8] output, 0xFF none -- 19 R420 -/
  output : Nat := 0xFF
  /-- [8] lift, 0xFF none -- 19 R420 -/
  lift : Nat := 0xFF
deriving DecidableEq, Repr

/-- One output record (R425). -/
structure SfOut where
  /-- [2] use -- 19 R425 -/
  use : Nat := 0
  /-- [8] owner, 0xFF none -- 19 R425 -/
  owner : Nat := 0xFF
  /-- [32] mask -- 19 R425 -/
  mask : BitVec 32 := 0
deriving DecidableEq, Repr

/-- One connection record (R439). -/
structure SfConn where
  /-- used -- 19 R439 -/
  used : Bool := false
  /-- [2] path kind -- 19 R431, R439 -/
  kind : Nat := 0
  /-- [1] hold_ok -- 19 R436, R439 -/
  holdOk : Bool := false
  /-- [16] peer -- 19 R439 -/
  peer : Nat := 0
  /-- [16] conn_id -- 19 R439 -/
  connId : Nat := 0
  /-- [16] watchdog, ms -- 19 R439 -/
  watchdog : Nat := 0
  /-- [32] content -- 19 R439 -/
  content : BitVec 32 := 0
  /-- [32] zb_id -- 19 R439 -/
  zbId : Nat := 0
deriving DecidableEq, Repr

/-- The safety configuration, parsed (R438). -/
structure SfCfg where
  /-- [32] sequence -- 19 R438 -/
  sequence : Nat := 0
  /-- [16] Tc in µs -- 19 R413, R438 -/
  cycle : Nat := 1000
  /-- [16] fallback time in min -- 19 R418, R438 -/
  fallback : Nat := 480
  /-- [16] degrade time in 100 ms -- 19 R435, R438 -/
  degrade : Nat := 100
  /-- [1] auto_start -- 19 R416, R438 -/
  autoStart : Bool := false
  /-- 16 signals -- 19 R419, R438 -/
  signals : Tbl SfSignal := []
  /-- 32 functions -- 19 R420, R438 -/
  funcs : Tbl SfFunc := []
  /-- 5 outputs: PO0 to PO3, STO -- 19 R425, R438 -/
  outs : Tbl SfOut := []
  /-- 16 produced connections -- 19 R438, R439 -/
  produced : Tbl SfConn := []
  /-- 12 consumed connections -- 19 R438, R439 -/
  consumed : Tbl SfConn := []
  /-- [64] key identifier -- 19 R438 -/
  key : Nat := 0
deriving DecidableEq, Repr

/-- One safe frame (R429), with the outcome of its crc as R430 computes it over the two addresses. -/
structure SafeFrame where
  /-- [16] conn_id -- 19 R429 -/
  connId : Nat
  /-- [8] fflags -- 19 R429 -/
  fflags : BitVec 8
  /-- [32] sequence -- 19 R429 -/
  seq : Nat
  /-- [64] t64 -- 19 R429 -/
  t : T64
  /-- [16] watchdog, ms -- 19 R429 -/
  watchdog : Nat
  /-- [32] data -- 19 R429 -/
  data : BitVec 32
  /-- [32] ndata -- 19 R429 -/
  ndata : BitVec 32
  /-- [32] crc -- 19 R430 -/
  crc : BitVec 32
deriving DecidableEq, Repr

/-- What a channel remembers of one signal (R419). -/
structure SigSt where
  /-- filtered reading of land_a -- 19 R419; reset 0 -/
  a : Bool := false
  /-- filtered reading of land_b -- 19 R419; reset 0 -/
  b : Bool := false
  /-- 50 µs samples for which land_a has held its new reading -- 19 R412, R419; reset 0 -/
  runA : Nat := 0
  /-- the same of land_b -- 19 R412, R419; reset 0 -/
  runB : Nat := 0
  /-- [1] the filtered signal at the last cycle -- 19 R413, R419; reset 0 -/
  value : Bool := false
  /-- [1] FAULT latch -- 19 R419; reset 0 -/
  fault : Bool := false
  /-- t64 since which the lands disagree with the mode -- 19 R419; reset none -/
  disFrom : Option T64 := none
deriving DecidableEq, Repr

/-- What a channel remembers of one function (R421 to R424). -/
structure FunSt where
  /-- [1] PERMIT -- 19 R422; reset 0 -/
  permit : Bool := false
  /-- [1] DEMAND -- 19 R422; reset 0 DESIGN CHOICE (log 3) -/
  demand : Bool := false
  /-- [1] RESTART_WAIT -- 19 R422, R423; reset 0 DESIGN CHOICE (log 3) -/
  wait : Bool := false
  /-- [1] FAULT -- 19 R422, R423; reset 0 -/
  fault : Bool := false
  /-- [1] restarted: the manual restart has been given since the last demand -- 19 R423; reset 0 -/
  restarted : Bool := false
  /-- t64 at which the reset signal rose -- 19 R423; reset none -/
  resetFrom : Option T64 := none
  /-- TWO_HAND: t64 of the rise of each hand from the common 0 -- 19 R421; reset none -/
  rise0 : Option T64 := none
  /-- TWO_HAND: right hand -- 19 R421; reset none -/
  rise1 : Option T64 := none
  /-- TWO_HAND: both signals were at 0 since the last PERMIT ended -- 19 R421; reset 0 -/
  bothZero : Bool := false
  /-- GUARD: unlock granted -- 19 R424; reset 0 -/
  unlocked : Bool := false
  /-- GUARD: pending unlock request: sequence and t64 -- 19 R424; reset none -/
  unlockReq : Option (Nat × T64) := none
  /-- GUARD: t64 of the last lock or unlock, for time0 -- 19 R424; reset DESIGN CHOICE 0 (log 3) -/
  lockAt : T64 := 0
  /-- GUARD: t64 at which closed last rose -- 19 R424; reset DESIGN CHOICE 0 (log 3) -/
  closedAt : T64 := 0
  /-- GUARD: closed at the last cycle -- 19 R424; reset 0 -/
  closed : Bool := false
  /-- LIFT_INTERLOCK: torque requested -- 19 R423; reset 0 -/
  torqueReq : Bool := false
  /-- LIFT_INTERLOCK: torque on -- 19 R423; reset 0 -/
  torque : Bool := false
  /-- LIFT_INTERLOCK: t64 since which the torque is off -- 19 R423; reset DESIGN CHOICE 0 (log 3) -/
  offSince : T64 := 0
  /-- LIFT_INTERLOCK: the flags at the last cycle -- 19 R423; reset 0 -/
  flags : BitVec 16 := 0
deriving DecidableEq, Repr

/-- A request in an inbound mailbox (R427, R428). -/
structure SfReq where
  /-- [8] code -- 19 R428 -/
  code : Nat
  /-- [8] target -- 19 R428 -/
  target : Nat
  /-- [32] sequence -- 19 R427 -/
  seq : Nat
deriving DecidableEq, Repr

/-- States of a consumed connection, coded as R441. -/
inductive ConnSt where
  | safe | valid | degraded
deriving DecidableEq, Repr

/-- What a channel remembers of one consumed connection (R433 to R436). -/
structure ConnRec where
  /-- [2] state -- 19 R434; reset SAFE DESIGN CHOICE (log 3) -/
  st : ConnSt := .safe
  /-- [32] data -- 19 R434; reset 0 (SAFE) -/
  data : BitVec 32 := 0
  /-- last 8 accepted copies of path 1, newest first -- 19 R433; reset none -/
  path1 : List SafeFrame := []
  /-- last 8 accepted copies of path 2, newest first -- 19 R433; reset none -/
  path2 : List SafeFrame := []
  /-- degraded timer, ns already counted -- 19 R435; reset 0 -/
  degraded : Nat := 0
  /-- t64 of the entry into DEGRADED -- 19 R435; reset DESIGN CHOICE 0 (log 3) -/
  degFrom : T64 := 0
  /-- t64 at which DEGRADED was last left -- 19 R435; reset DESIGN CHOICE 0 (log 3) -/
  degLeft : T64 := 0
  /-- consecutive matching sequences towards VALID: count and last sequence -- 19 R434; reset 0 -/
  matching : Nat × Nat := (0, 0)
  /-- the consumer's own restart notice extends the freshness of path 1 until a newer copy -- 19 R436; reset 0 -/
  hold1 : Bool := false
  /-- the same of path 2 -- 19 R436; reset 0 -/
  hold2 : Bool := false
  /-- copies discarded -- 19 R433; reset 0 -/
  discarded : Nat := 0
deriving DecidableEq, Repr

/-- One safety channel (R411 to R417). -/
structure Channel where
  /-- [2] state -- 19 R441; reset TESTING DESIGN CHOICE (log 3) -/
  st : ChanSt := .testing
  /-- [1] start tests passed since the last reset, reload or entry into STOP -- 19 R415, R416; reset 0 -/
  tested : Bool := false
  /-- [22] comparator readings: IN0 to IN15, PO0 to PO3, STO_A, STO_B -- 19 R411, R412; reset 0 DESIGN CHOICE (log 3) -/
  lands : BitVec 22 := 0
  /-- 16 signals -- 19 R419 -/
  sigs : Tbl SigSt := []
  /-- 32 functions -- 19 R420 to R424 -/
  funs : Tbl FunSt := []
  /-- [5] switch commands of PO0 to PO3 and STO: 1 closed -- 19 R425; reset open -/
  switches : BitVec 5 := 0
  /-- t64 since which each switch is open, for the run-down time -- 19 R424; reset DESIGN CHOICE 0 (log 3) -/
  openSince : Tbl T64 := []
  /-- cycles for which the land of an opened switch has read 1 -- 19 R426; reset 0 -/
  stuck : Tbl Nat := []
  /-- [5] outputs with SAFETY_OUTPUT_FAULT, cleared by the switch test -- 19 R426; reset 0 -/
  outFault : BitVec 5 := 0
  /-- 12 consumed connections -- 19 R433 -/
  conns : Tbl ConnRec := []
  /-- requests in the inbound mailbox, oldest first -- 19 R427; reset empty -/
  inbox : List SfReq := []
  /-- copies in the inbound mailbox, key 2c + p -- 19 R427; reset none -/
  inCopies : Tbl SafeFrame := []
  /-- responses in the outbound mailbox: (sequence, status), 8 -- 19 R427; reset none -/
  responses : List (Nat × Nat) := []
  /-- produced copies in the outbound mailbox -- 19 R427, R429; reset none -/
  outCopies : Tbl SafeFrame := []
  /-- function values in the outbound mailbox -- 19 R422, R427; reset 0 -/
  values : Tbl (BitVec 32) := []
  /-- event ring in the outbound mailbox, 8, oldest first -- 19 R427; reset empty -/
  ring : List EvRec := []
  /-- RESTART_NOTICE received: HOLD is set in the copies of the next cycle -- 19 R436; reset 0 -/
  notice : Bool := false
  /-- consecutive cycles without a compare record of the partner -- 19 R414; reset 0 -/
  silent : Nat := 0
  /-- t64 of the last cycle -- 19 R413; reset DESIGN CHOICE 0 (log 3) -/
  cycleAt : T64 := 0
  /-- t64 of the last cycle whose compare records this channel has compared -- 19 R414; reset DESIGN CHOICE 0 (log 3) -/
  recAt : T64 := 0
deriving DecidableEq, Repr

/-- The safety zone (19). -/
structure Safety where
  /-- [2] zone state -- 19 R416; reset STOP (22 R484) -/
  zone : ZoneSt := .stop
  /-- [3] last STOP cause -- 19 R441; reset DESIGN CHOICE 0 (log 3) -/
  cause : Nat := 0
  /-- Safety A -- 19 R411 -/
  chA : Channel := {}
  /-- Safety B -- 19 R411 -/
  chB : Channel := {}
  /-- [32] cycle count -- 19 R413, R441; reset DESIGN CHOICE 0 (log 3) -/
  cycles : Nat := 0
  /-- configuration in force -- 19 R438; reset none (as it leaves manufacture) DESIGN CHOICE (log 3) -/
  cfg : Option SfCfg := none
  /-- its 1,232 bytes -- 19 R438; reset empty -/
  cfgBytes : List Byte := []
  /-- staged bytes by offset -- 19 R440; reset none -/
  staged : Tbl (BitVec 8) := []
  /-- t64 at which the fallback time elapses -- 19 R416, R418; reset DESIGN CHOICE 0 (log 3) -/
  fallbackEnd : T64 := 0
  /-- copies received since the last line-cycle boundary, key 2c + p -- 19 R432; reset none -/
  arrived : Tbl SafeFrame := []
  /-- mismatch cycles per item of R414 -- 19 R414; reset 0 -/
  mismatch : Tbl Nat := []
  /-- auto_start is still to come: no zone start since the configuration was loaded -- 19 R416; reset 0 -/
  auto : Bool := false
  /-- a zone restart was requested -- 19 R416, R442; reset 0 -/
  restartReq : Bool := false
  /-- next request sequence of the firmware -- 19 R427; reset DESIGN CHOICE 0 (log 3) -/
  reqSeq : Nat := 0
  /-- safety commands waiting for both channels: (sequence, mailbox) -- 19 R428; reset none -/
  waiters : List (Nat × Nat) := []
deriving DecidableEq, Repr

/-! ## Sleep, the Gleaner and energy (20) -/

/-- Where the node stands between awake and asleep (R449, R451). -/
inductive SleepSt where
  | awake | entering0 | entering1 | entering2 | asleep | waking
deriving DecidableEq, Repr

/-- One Gleaner rule (R454). -/
structure GlRule where
  /-- [2] src, 0 unused -- 20 R454 -/
  src : Nat := 0
  /-- [8] index -- 20 R454 -/
  index : Nat := 0
  /-- [3] filter -- 20 R454 -/
  filter : Nat := 0
  /-- [5] p1 -- 20 R454 -/
  p1 : Nat := 0
  /-- [5] p2 -- 20 R454 -/
  p2 : Nat := 0
  /-- [3] cond -- 20 R454 -/
  cond : Nat := 0
  /-- [3] action -- 20 R454 -/
  action : Nat := 0
  /-- [2] when: active asleep, active awake -- 20 R454 -/
  act : BitVec 8 := 0
  /-- [16] level -- 20 R454 -/
  level : Nat := 0
  /-- [16] hyst -- 20 R454 -/
  hyst : Nat := 0
  /-- [8] target -- 20 R454 -/
  target : Nat := 0xFF
  /-- [8] value -- 20 R454 -/
  value : Nat := 0
  /-- [16] limit -- 20 R454 -/
  limit : Nat := 0
deriving DecidableEq, Repr

/-- What the Gleaner remembers of a rule (R455, R456). -/
structure GlSt where
  /-- samples of the filter, newest first -- 20 R455; reset none (filter restarts) -/
  hist : List Int := []
  /-- filtered value, none before the first -- 20 R455; reset none -/
  y : Option Int := none
  /-- analogue condition armed -- 20 R455; reset 0 -/
  armed : Bool := false
  /-- [32] counter -- 20 R456; reset 0 -/
  count : BitVec 32 := 0
deriving DecidableEq, Repr

/-- Sleep and the Gleaner (20). -/
structure Gleaner where
  /-- [1] enable -- 20 R446; reset 0 -/
  enable : Bool := false
  /-- [8] flags -- 20 R446; reset 0 -/
  flags : BitVec 8 := 0
  /-- [4] rate in kHz -- 20 R446; reset 1 -/
  rate : Nat := 1
  /-- [22] delay in ms -- 20 R446; reset 10,000 -/
  delay : Nat := 10000
  /-- 8 watched LINEPOINT stalls -- 20 R446; reset 0xFFFF each -/
  watch : List Nat := List.replicate 8 0xFFFF
  /-- stage -- 20 R449, R451; reset awake -/
  st : SleepSt := .awake
  /-- [10] wake reasons of the last wake -- 20 R446, R450; reset DESIGN CHOICE 0 (log 3) -/
  reasons : BitVec 32 := 0
  /-- [10] wake lines raised since the entry into sleep began -- 01 R16, 20 R450; reset 0 -/
  pend : BitVec 10 := 0
  /-- [32] sleeps since power-up -- 20 R446; reset 0 -/
  sleeps : Nat := 0
  /-- [64] time asleep since power-up, ns -- 20 R446; reset 0 -/
  asleep : Nat := 0
  /-- t64 of the entry into sleep -- 20 R446; reset DESIGN CHOICE 0 (log 3) -/
  since : T64 := 0
  /-- first rule that woke the node, 0xFF none -- 20 R461; reset 0xFF -/
  wakeRule : Nat := 0xFF
  /-- the wake timer armed -- 20 R448, R449; reset none -/
  timer : Option T64 := none
  /-- 64 rules in force -- 20 R454; reset unused -/
  rules : Tbl GlRule := []
  /-- 64 staged rules -- 20 R457; reset unused -/
  staged : Tbl GlRule := []
  /-- rule states -- 20 R455, R456 -/
  sts : Tbl GlSt := []
  /-- GLEANER_LOG records waiting while asleep, 64: (t64, rule, value, counter) -- 20 R456; reset none -/
  logs : List (T64 × Nat × Nat × Nat) := []
  /-- [17 × 64] energy meters in µJ: islands 0 to 11, tap, VF24, ports A, B, C -- 20 R459; reset 0 -/
  meters : Tbl Nat := []
  /-- [64] t64 of the last energy interval taken -- 20 R460; reset DESIGN CHOICE 0 (log 3) -/
  energyAt : T64 := 0
  /-- [64] t64 of the last sample instant -- 20 R453; reset DESIGN CHOICE 0 (log 3) -/
  sampleAt : T64 := 0
  /-- frames that wait in the shared buffers while asleep, oldest first: (port, frame) -- 20 R450; reset empty -/
  frames : List (Nat × KFrame) := []
deriving DecidableEq, Repr

/-! ## Identity and updates (21) -/

/-- One image entry of a silo header (R469). -/
structure SiloImg where
  /-- [8] code -- 21 R469 -/
  code : Nat
  /-- [8] port mask -- 21 R469 -/
  ports : Nat
  /-- [32] offset -- 21 R469 -/
  offset : Nat
  /-- [32] length -- 21 R469 -/
  length : Nat
  /-- SM3 of the image -- 21 R469 -/
  digest : List Byte
deriving DecidableEq, Repr

/-- One silo (R469, R470). -/
structure Silo where
  /-- staged or stored bytes, in order from offset 0 -- 21 R469, R470; reset empty DESIGN CHOICE (log 3) -/
  bytes : List Byte := []
  /-- [32] high-water mark: bytes staged from offset 0 -- 21 R470; reset 0 -/
  high : Nat := 0
  /-- bulk ticket and the session and source address it serves -- 21 R471; reset none -/
  ticket : Option (Nat × Nat × Nat) := none
deriving DecidableEq, Repr

/-- One boot-pointer copy (R472). -/
structure BootPtr where
  /-- valid: marker and digest match -- 21 R472; reset 0 DESIGN CHOICE (log 3) -/
  valid : Bool := false
  /-- [32] sequence -- 21 R472; reset DESIGN CHOICE 0 (log 3) -/
  seq : Nat := 0
  /-- [8] silo -- 21 R472; reset DESIGN CHOICE 0 (log 3) -/
  silo : Nat := 0
  /-- SM3 of bytes 0 to 511 of the chosen silo -- 21 R472; reset empty DESIGN CHOICE (log 3) -/
  header : List Byte := []
deriving DecidableEq, Repr

/-- One record of the configuration image (R476). -/
structure CfgRec where
  /-- [16] code of the configuring command -- 21 R476 -/
  code : Nat
  /-- [16] index -- 21 R476 -/
  index : Nat
  /-- that command's last accepted payload -- 21 R476 -/
  data : List Byte
deriving DecidableEq, Repr

/-- Identity, attestation and updates (21). -/
structure Security where
  /-- [1] touch latch on VAON -- 21 R466; reset 0 (touched field) -/
  latch : Bool := false
  /-- [1] touched -- 21 R466; reset 0 DESIGN CHOICE (log 3) -/
  touched : Bool := false
  /-- [32] touches since manufacture, saturating -- 21 R466; reset 0 -/
  touches : Nat := 0
  /-- [64] touched_at -- 21 R466; reset 0 -/
  touchedAt : T64 := 0
  /-- [64] cleared_at -- 21 R466; reset 0 -/
  clearedAt : T64 := 0
  /-- a good frame has come since power-up or the last clear -- 21 R466; reset 0 -/
  touchedNow : Bool := false
  /-- silo A -- 21 R469 -/
  siloA : Silo := {}
  /-- silo B -- 21 R469 -/
  siloB : Silo := {}
  /-- boot-pointer copy 0 -- 21 R472 -/
  boot0 : BootPtr := {}
  /-- boot-pointer copy 1 -- 21 R472 -/
  boot1 : BootPtr := {}
  /-- [1] active silo -- 21 R473; reset 0 DESIGN CHOICE (log 3) -/
  active : Nat := 0
  /-- the silo booted -- 22 R486; reset 0 DESIGN CHOICE (log 3) -/
  booted : Nat := 0
  /-- stored configuration: the last accepted payload of each configuring command -- 21 R476; reset empty -/
  stored : List CfgRec := []
  /-- snapshot of CONFIG_READ -- 21 R477; reset none -/
  snapshot : Option (List Byte) := none
  /-- bytes staged by CONFIG_WRITE -- 21 R477; reset empty -/
  cfgStaged : List Byte := []
  /-- pending configuration image -- 21 R477; reset none -/
  cfgPending : Option (List Byte) := none
  /-- digest of the last commit that carried an owner signature -- 21 R468; reset none -/
  signedDigest : Option (List Byte) := none
  /-- images running: image code, for code 5 plus 16 × port, to (version, digest) -- 21 R468, R475; reset DESIGN CHOICE none (log 3) -/
  running : Tbl (Nat × List Byte) := []
  /-- SILO_COMMIT interrupted or run last: stage reached -- 21 R474; reset 0 -/
  commitStage : Nat := 0
deriving DecidableEq, Repr

/-! ## Resets, memory health and wear (22) -/

/-- Health and reset counts (22). -/
structure Health where
  /-- [8] cause of the last device reset -- 22 R486, R499; reset 1 NRST (log 1) -/
  cause : Nat := 1
  /-- [32] device resets since manufacture -- 22 R486, R498; reset DESIGN CHOICE 0 (log 3) -/
  deviceResets : Nat := 0
  /-- [32] firmware-core restarts since the last device reset -- 22 R499; reset 0 -/
  coreRestarts : Nat := 0
  /-- [1] DEGRADED_CAPACITY refused -- 22 R499; reset 0 -/
  degradedRefused : Bool := false
  /-- commands whose first refusal was logged -- 22 R492; reset none -/
  refusedCmds : List Nat := []
  /-- [16] seed blocks left -- 22 R497; reset 256 -/
  seedBlocks : Nat := 256
  /-- [16] read-only partitions, bits of R499 -- 22 R496, R499; reset 0 -/
  readOnly : BitVec 16 := 0
  /-- [64] t64 of t5 -- 22 R499; reset DESIGN CHOICE 0 (log 3) -/
  upSince : T64 := 0
  /-- retired store blocks: how often the block of partition × 65,536 + index was retired -- 22 R496, R498; reset none -/
  retiredBlocks : Tbl Nat := []
  /-- permanent blocks that no seed block replaced, by partition × 65,536 + index -- 22 R496; reset none -/
  lostBlocks : List Nat := []
  /-- corrupt slots found per Rick block -- 22 R495; reset 0 -/
  corruptIn : Tbl Nat := []
  /-- failed attempts of the store operation on a block and t64 of the first, by partition × 65,536 + block -- 22 R495; reset none -/
  failing : Tbl (Nat × T64) := []
  /-- erase counts by partition × 65,536 + block -- 22 R500; reset 0 DESIGN CHOICE (log 3) -/
  erases : Tbl Nat := []
  /-- blocks with a read finding, to be rewritten within 10 s, by partition × 65,536 + block, with t64 -- 22 R495; reset none -/
  rewrite : Tbl T64 := []
  /-- [32] sequence of health-map copy 0, none when the copy is lost -- 22 R496, R498; reset DESIGN CHOICE 0 (log 3) -/
  map0 : Option Nat := some 0
  /-- [32] sequence of health-map copy 1, none when the copy is lost -- 22 R496, R498; reset DESIGN CHOICE 0 (log 3) -/
  map1 : Option Nat := some 0
deriving DecidableEq, Repr

/-! ## The node -/

/-- Everything the spec gives the machine, beside the queue of commands. -/
structure Node where
  /-- the twelve islands in the order of R12 -- 01 R12, R33 -/
  isl : Tbl Island := []
  /-- answer of the last crossing word -- 01 R14 to R17; reset none -/
  lastCrossing : CrossAns := .none
  /-- memory error bookkeeping and remaps -- 01 R21 to R28 -/
  mem : MemHealth := {}
  /-- SRAM contents by byte address (R18), canonical; an unlisted byte reads 0 -- 01 R18, R19; reset nothing listed (log 2) -/
  ram : List Host.Cell := []
  /-- Power island -- 02 -/
  power : Power := {}
  /-- host access -- 03 -/
  host : HostIf := {}
  /-- 1,024 stalls -- 04 R83; unlisted stalls are as they leave manufacture -/
  stalls : Tbl Stall := []
  /-- stall cache, most recently used first -- 04 R104; reset empty -/
  cache : List CacheEntry := []
  /-- configuration partition copy of the stalls' configuration parts -- 04 R93; reset empty -/
  stored : Tbl Stall := []
  /-- recipes and Thresher -- 05 -/
  rcp : Recipes := {}
  /-- loop engine state by stall -- 06 R139 -/
  loops : Tbl Loop := []
  /-- 24 V inputs and outputs -- 07 -/
  fio : FieldIo := {}
  /-- converters -- 08 -/
  adc : Adc := {}
  /-- two position interfaces -- 09 R195 -/
  encs : Tbl Enc := []
  /-- two axes -- 10 R216 -/
  axes : Tbl Axis := []
  /-- two drive stages -- 11 R243 -/
  drives : Tbl Drive := []
  /-- line -- 12 -/
  line : Line := {}
  /-- line time -- 13 -/
  time : Time := {}
  /-- zone bus -- 14 -/
  zb : Zb := {}
  /-- custody -- 15 -/
  cust : Custody := {}
  /-- four lifts -- 16 R355 -/
  lifts : Tbl Lift := []
  /-- sixteen gates -- 16 R364 -/
  gates : Tbl Gate := []
  /-- harvest stream -- 17 -/
  harv : Harvest := {}
  /-- event recorder -- 18 -/
  rcd : Recorder := {}
  /-- safety zone -- 19 -/
  safe : Safety := {}
  /-- sleep and Gleaner -- 20 -/
  glean : Gleaner := {}
  /-- identity and updates -- 21 -/
  sec : Security := {}
  /-- resets and health -- 22 -/
  hlth : Health := {}
  /-- the MODEL's own: how many free values have been drawn (log 8); reset 0 DESIGN CHOICE -/
  freeCtr : Nat := 0
deriving DecidableEq, Repr

end Sys2Proof.Machine
end

