-- ==== Sys2Proof/Machine/State.lean ====
section
/-! DEFINITION. The state of the block: the node and the queue of commands that wait. The reasons a step can stop. The
state after reset. -/

namespace Sys2Proof.Machine

/-- Why a step stops. -/
inductive Fault where
  /-- CROSSING_WORD between two islands for which R15 lists no crossing: the spec gives no path on which such a word
  could travel. Raised by execCrossingWord alone. Safe: the hardware has no such behaviour. -/
  | noCrossing
deriving DecidableEq, Repr

/-- Why a command has no meaning here. -/
inductive Refusal where
  /-- The command has no meaning in this model. Raised by refused arms of exec alone. Safe: nothing can be proved of it. -/
  | notModelled (mnemonic : String)
deriving DecidableEq, Repr

/-- The block: the node and the queue of commands that wait, first in, first out. -/
structure State where
  /-- the node -- 01 to 22 -/
  node : Node := {}
  /-- commands that wait, first in, first out -- the interface of the model (log 7); reset empty -/
  pending : List Instr := []
deriving DecidableEq, Repr

/-- The machine right after reset: t1 of R47 (log 1), nothing queued. -/
def State.reset : State := {}

/-- The one way a meaning answers: the next state has the node `f` gives and the same queue. -/
def State.run (s : State) (f : Node → Node) : Host.Outcome State Fault Refusal :=
  .next { s with node := f s.node }

end Sys2Proof.Machine
end

