-- ==== Sys2Proof/Machine/Ops.lean ====
section
/-! DEFINITION. The named operations every meaning is built from: line time, islands, free values, event logging, main
memory, frames on the line, mailbox answers, stored configuration and stalls. -/

namespace Sys2Proof.Machine

/-! ### Line time -/

/-- t64 now (R288): the counter is held in 2^-48 ns. -/
def Node.now (n : Node) : T64 := n.time.count / 2 ^ 48

/-- An event that is due at `t` happens at `t` or later: line time comes up to `t` (log 14). -/
def Node.upTo (n : Node) (t : T64) : Node := { n with time := { n.time with count := max n.time.count (t * 2 ^ 48) } }

/-- A span in microseconds, as nanoseconds. -/
def us (k : Nat) : Nat := k * 1000
/-- A span in milliseconds, as nanoseconds. -/
def ms (k : Nat) : Nat := k * 1000000
/-- A span in seconds, as nanoseconds. -/
def sec (k : Nat) : Nat := k * 1000000000

/-- The first multiple of `g` at or after `t`. -/
def nextGrid (t g : Nat) : Nat := if g = 0 then t else (t + g - 1) / g * g

/-- Where a periodic grid may resume: after a backward step no grid instant is carried out twice (R299). -/
def Node.gridNow (n : Node) : T64 := if n.now ≤ n.time.gridFloor then n.time.gridFloor + 1 else n.now

/-! ### Islands, numbered in the order of R12 -/

def Isl.line : Nat := 0
def Isl.core : Nat := 1
def Isl.mem : Nat := 2
def Isl.seq : Nat := 3
def Isl.motion : Nat := 4
def Isl.io : Nat := 5
def Isl.zb : Nat := 6
def Isl.safeA : Nat := 7
def Isl.safeB : Nat := 8
def Isl.sec : Nat := 9
def Isl.glean : Nat := 10
def Isl.power : Nat := 11

/-- Island `i`. -/
def Node.island (n : Node) (i : Nat) : Island := n.isl.getD i {}
/-- Write island `i`. -/
def Node.setIsland (n : Node) (i : Nat) (x : Island) : Node := { n with isl := n.isl.put i x }
/-- Change island `i`. -/
def Node.updIsland (n : Node) (i : Nat) (f : Island → Island) : Node := n.setIsland i (f (n.island i))
/-- Island `i` has its supply and is not held in reset: VAON from t1, the Security island from t3 with the boot ROM, every
other island from t5 of power-up (R47, R48, R50, R483). -/
def Node.powered (n : Node) (i : Nat) : Bool :=
  match n.power.stage with
  | .off | .t0 => false
  | .t1 | .t2 | .thermalWait => i == Isl.power || (i == Isl.glean && !n.power.nrstLow)
  | .t3 | .t4 | .bootFailed => i == Isl.power || ((i == Isl.glean || i == Isl.sec) && !n.power.nrstLow)
  | _ => i == Isl.power || !n.power.nrstLow
/-- Island `i` is in the state RUN and can act. -/
def Node.runs (n : Node) (i : Nat) : Bool := (n.island i).st == .run && n.powered i

/-! ### Free values (log 8) -/

/-- Draw a free value of a kind. -/
def Node.free (n : Node) (kind : Nat) : W64 × Node :=
  (Config.freeValue kind n.freeCtr, { n with freeCtr := n.freeCtr + 1 })

/-! ### Event records (R398 to R401, R405) -/

/-- Rate and depth of an area's token bucket (R405). -/
def areaRate (area : Nat) : Nat × Nat :=
  match area with
  | 0x01 => (10, 100) | 0x02 => (20, 500) | 0x03 => (10, 200) | 0x04 => (10, 200) | 0x05 => (10, 500)
  | 0x06 => (10, 200) | 0x07 => (20, 500) | 0x08 => (5, 100) | 0x09 => (5, 100) | 0x0C => (5, 100)
  | 0x0D => (5, 100) | 0x0E => (10, 500) | _ => (10, 100)

/-- Events that take no token (R405). -/
def exempt (code : Nat) : Bool :=
  code == Ev.powerFail || code == Ev.lineOvervoltage || code == Ev.lineVoltageLow || code == Ev.thermalStop
    || code == Ev.servicePortUsed || code / 256 == 0x0A || code / 256 == 0x0B

/-- The three records the store controller forms by itself (R400). -/
def alwaysOn (code : Nat) : Bool := code == Ev.powerFail || code == Ev.lineOvervoltage || code == Ev.thermalStop

/-- One token, in the unit of a bucket: a rate of one a second gives one unit a ns (R405). -/
def oneToken : Nat := 1000000000

/-- Refill a bucket up to `now` (R405). -/
def Bucket.refill (b : Bucket) (rate depth now : Nat) : Bucket :=
  { tokens := min (depth * oneToken) (b.tokens + (now - b.at_) * rate), at_ := max now b.at_ }

/-- The area's bucket, full where unlisted. -/
def Recorder.bucket (r : Recorder) (area : Nat) : Bucket :=
  r.buckets.getD area { tokens := (areaRate area).2 * oneToken, at_ := 0 }

/-- An event is suppressed under its code (R405). -/
def Recorder.suppress (r : Recorder) (code : Nat) : Recorder :=
  { r with supp := r.supp.put code (r.supp.getD code 0 + 1), suppressed := satInc 32 r.suppressed }

/-- A record enters the store controller's queue of 512 and carries its code's suppressed count (R398, R401). -/
def Recorder.accept (r : Recorder) (e : EvRec) : Recorder :=
  if 512 ≤ r.queue.length then r.suppress e.code
  else
    let c := r.supp.getD e.code 0
    let e := { e with suppressed := min c 255, flags := if 255 < c then e.flags ||| 4#8 else e.flags }
    { r with queue := r.queue ++ [e], supp := r.supp.del e.code, queuePeak := max r.queuePeak (r.queue.length + 1) }

/-- A record waits in the Sequencer's event queue of 256 while the field cores restart (R401). -/
def Recorder.hold (r : Recorder) (e : EvRec) : Recorder :=
  if 256 ≤ r.held.length then r.suppress e.code else { r with held := r.held ++ [{ e with flags := e.flags ||| 2#8 }] }

/-- Take a token from the area's bucket and one from the line-wide bucket, or none from either (R405). -/
def Recorder.takeToken (r : Recorder) (area now : Nat) : Option Recorder :=
  let b := (r.bucket area).refill (areaRate area).1 (areaRate area).2 now
  let g := r.globalBucket.refill 40 4096 now
  if oneToken ≤ b.tokens ∧ oneToken ≤ g.tokens then
    some { r with buckets := r.buckets.put area { b with tokens := b.tokens - oneToken },
                  globalBucket := { g with tokens := g.tokens - oneToken } }
  else none

/-- The record of an event of instant `t`, before it is given its suppressed count and its sequence (R398). -/
def Node.evRec (n : Node) (t code p0 p1 p2 : Nat) : EvRec :=
  { code := code, flags := if n.time.servo == .free then 8#8 else 0#8, suppressed := 0, seq := 0, t := t, p0 := p0 % 2 ^ 32, p1 := p1 % 2 ^ 32,
    p2 := p2 % 2 ^ 32 }

/-- A record of an exempt code is placed, another with the token it was given, or it is suppressed (R405). -/
def Node.logWith (n : Node) (code : Nat) (place : Recorder → Recorder) (token : Option Recorder) : Node :=
  if exempt code then { n with rcd := place n.rcd }
  else match token with
    | some r => { n with rcd := place r }
    | none => { n with rcd := n.rcd.suppress code }

/-- Log an event with the instant `t` of the event (R398 to R401, R405). -/
def Node.logAt (n : Node) (t code p0 p1 p2 : Nat) : Node :=
  let e := n.evRec t code p0 p1 p2
  n.logWith code (fun r => if n.host.restarting && !alwaysOn code then r.hold e else r.accept e) (n.rcd.takeToken (code / 256) n.now)

/-- Log an event that happens now. -/
def Node.log (n : Node) (code p0 p1 p2 : Nat) : Node := n.logAt n.now code p0 p1 p2

/-- Log an event whose parameters the spec does not state: they are free values (log 12). -/
def Node.logFree (n : Node) (code : Nat) : Node :=
  let (a, n) := n.free 2
  let (b, n) := n.free 2
  let (c, n) := n.free 2
  n.log code a.toNat b.toNat c.toNat

/-- A signed parameter as 32 bits. -/
def par (z : Int) : Nat := ofSigned 32 z

/-! ### Main memory -/

/-- What a byte that nothing has written reads as (log 2). -/
def ramDefault : Byte := 0

/-- The byte listed at `a`, or what an unlisted address reads as. -/
def ramGet : List Host.Cell → Nat → Byte
  | [], _ => ramDefault
  | (j, b) :: t, a => if j = a then b else ramGet t a

/-- Write one byte, keeping the canonical form: addresses rise strictly, no entry equals the unlisted byte. -/
def ramPut : List Host.Cell → Nat → Byte → List Host.Cell
  | [], a, b => if b = ramDefault then [] else [(a, b)]
  | (j, c) :: t, a, b =>
    if a < j then (if b = ramDefault then (j, c) :: t else (a, b) :: (j, c) :: t)
    else if a = j then (if b = ramDefault then t else (a, b) :: t)
    else (j, c) :: ramPut t a b

/-- Write a sequence of bytes from `a`. -/
def ramPuts : List Host.Cell → Nat → List Byte → List Host.Cell
  | m, _, [] => m
  | m, a, b :: t => ramPuts (ramPut m a b) (a + 1) t

/-- Read `k` bytes from `a`. -/
def ramGets (m : List Host.Cell) : Nat → Nat → List Byte
  | _, 0 => []
  | a, k + 1 => ramGet m a :: ramGets m (a + 1) k

/-- The addresses rise strictly. -/
def ramRising : List Host.Cell → Bool
  | [] => true
  | [_] => true
  | (j, _) :: (k, c) :: t => decide (j < k) && ramRising ((k, c) :: t)

/-- The canonical form of memory (log 2). -/
def Memory.wf (m : List Host.Cell) : Bool := ramRising m && m.all (fun c => c.2 != ramDefault)

/-- Read `k` bytes of SRAM from address `a`. -/
def Node.read (n : Node) (a k : Nat) : List Byte := ramGets n.ram a k
/-- A span meets a row or a page that is being copied (R28, R491). -/
def MemHealth.copies (x : MemHealth) (a k : Nat) : Bool :=
  x.copyingRows.any (fun r => decide (a < r + 1024 ∧ r < a + k)) || x.copyingPages.any (fun p => decide (a < p + 4096 ∧ p < a + k))
/-- The words that lie whole in a written span carry the check bits of their data again; POISON and every other error in them is gone
(R23, R24). A write to a row or a page under copy takes effect when the copy ends (R28). -/
def MemHealth.written (x : MemHealth) (a : Nat) (bs : List Byte) : MemHealth :=
  if x.copies a bs.length then { x with waiting := x.waiting ++ [(a, bs)] }
  else { x with err := x.err.filter (fun (e : Nat × BitVec 76) => !(decide (a ≤ e.1) && decide (e.1 + 8 ≤ a + bs.length))) }
/-- Write bytes of SRAM from address `a`, with the check bits of whole words (R23, R24). -/
def Node.write (n : Node) (a : Nat) (bs : List Byte) : Node := { n with ram := ramPuts n.ram a bs, mem := n.mem.written a bs }

/-- Base of the host-shared window (R20, R52). -/
def winBaseAddr : Nat := 0x10550000
/-- Address of mailbox `m` = path × 16 + index (R52). -/
def mbxAddr (m : Nat) : Nat := winBaseAddr + (m / 16) * 0x2000 + (m % 16) * 0x200

/-! ### Frames on the line (R268, R270, R271, R276) -/

/-- Port `p`: A, B, C as 0, 1, 2. -/
def Node.port (n : Node) (p : Nat) : Port := n.line.ports.getD p (if p = 2 then { st := .disabled } else { st := .bypassed })
/-- Write port `p`. -/
def Node.setPort (n : Node) (p : Nat) (x : Port) : Node := { n with line := { n.line with ports := n.line.ports.put p x } }
/-- Change port `p`. -/
def Node.updPort (n : Node) (p : Nat) (f : Port → Port) : Node := n.setPort p (f (n.port p))

/-- Supplies other than VAON are up and the outputs may act. -/
def PowerStage.up : PowerStage → Bool
  | .t5 | .t6 | .t7 => true
  | _ => false

/-- Wake line `k` of R450 is raised (R16): outside RUN of the whole node it waits for WAKE. -/
def Node.raise (n : Node) (k : Nat) : Node :=
  if n.glean.st = .awake then n else { n with glean := { n.glean with pend := n.glean.pend ||| (1#10 <<< k) } }

/-- Port `p` is UP. -/
def Node.portUp (n : Node) (p : Nat) : Bool := (n.port p).st == .up

/-- The node's address in force; 0 while unassigned or suspended (R264, R267). -/
def Node.addr (n : Node) : Nat := if n.line.suspended then 0 else n.line.cfg.address
/-- The node acts as the head (R267). -/
def Node.isHead (n : Node) : Bool := n.line.cfg.head && !n.line.headYielded

/-- The class of a frame type (R271); 0x88F7 stands for the IEEE 1588 messages of R294. -/
def classOf (type : Nat) : Nat :=
  match type with
  | 0x01 => 6 | 0x02 => 6 | 0x03 => 6 | 0x04 => 6 | 0x05 => 3 | 0x06 => 1 | 0x07 => 3 | 0x08 => 3
  | 0x10 => 3 | 0x11 => 5 | 0x12 => 5 | 0x20 => 4 | 0x30 => 7 | 0x40 => 2 | 0x50 => 1 | 0x51 => 3 | 0x88F7 => 6 | _ => 0

/-- Bytes 0 to 17 of the Kerey header, over which hcrc runs (R270). -/
def KFrame.head (f : KFrame) : List Byte :=
  leBytes 1 f.level ++ leBytes 1 f.type ++ leBytes 2 f.flags.toNat ++ leBytes 2 f.dst ++ leBytes 2 f.src ++ leBytes 2 f.ttl
    ++ leBytes 2 f.payload.length ++ leBytes 4 f.seq ++ leBytes 2 0
/-- The header CRC (R67, R270). -/
def KFrame.hcrc (f : KFrame) : Nat := (crc16 f.head).toNat
/-- A frame on the wire, but for its FCS: MACs, the 802.1Q tag with the class, the EtherType, the Kerey header, payload and padding
(R270, R294). -/
def KFrame.wire (f : KFrame) : List Byte :=
  let b := beBytes 6 f.dmac ++ beBytes 6 f.smac ++ beBytes 2 0x8100 ++ beBytes 2 (classOf f.type * 8192)
    ++ (if f.type = 0x88F7 then beBytes 2 0x88F7 else beBytes 2 0x88B5 ++ f.head ++ leBytes 2 f.hcrc) ++ f.payload
  b ++ List.replicate (60 - b.length) 0
/-- Bytes a frame takes in the frame buffers: Ethernet header, tag, Kerey header, payload and FCS, padded to 64 (R270); a message of
IEEE 802.1AS has no Kerey header (R294). -/
def KFrame.size (f : KFrame) : Nat := max 64 ((if f.type = 0x88F7 then 22 else 42) + f.payload.length)

/-- Frames queued on a port in a class. -/
def Line.queue (l : Line) (p c : Nat) : List KFrame := l.queues.getD (p * 8 + c) []
/-- Bytes of a queue. -/
def queueBytes (q : List KFrame) : Nat := (q.map KFrame.size).sum
/-- Bytes of the shared part that are in use: what exceeds the reserve of 32 KB of each class 5 to 7 queue (R276). -/
def Line.sharedUsed (l : Line) : Nat :=
  (l.queues.map (fun e => if 5 ≤ e.1 % 8 then queueBytes e.2 - 32768 else queueBytes e.2)).sum
/-- Size of the shared part: 1 MB less nine reserves of 32 KB, less the pages retired (R276, R494). -/
def Line.sharedSize (l : Line) : Nat := 1048576 - 9 * 32768 - 4096 * l.sharedLost

/-! ### Transmission at a port (R276 to R278) -/

/-- The gate list in force on a port; the default list opens the express classes for 10 % of the cycle (R277). -/
def Node.gateList (n : Node) (p : Nat) : List (Nat × Nat) :=
  (n.port p).gates.getD [(us n.line.cycle / 10, 0xE0), (us n.line.cycle - us n.line.cycle / 10, 0xFF)]
/-- An entry of a port's list: duration and mask. -/
def Node.gateItem (n : Node) (p e : Nat) : Nat × Nat := (n.gateList p).getD e (0, 0xFF)
/-- The mask of an entry of a port. -/
def Node.gateMask (n : Node) (p e : Nat) : Nat := (n.gateItem p e).2
/-- The end of the entry in force; the first of a new list waits for its boundary. -/
def Node.entryEnd (n : Node) (p : Nat) : T64 := (n.port p).entryAt + (n.gateItem p (n.port p).entry).1

/-- 0.1 ns per byte at a rate code. -/
def byteTime (rate : Nat) : Nat := if rate = 1 then 80 else if rate = 2 then 32 else if rate = 3 then 16 else 8
/-- Preamble bytes before a fragment, the bytes of gap after it and of the check of a fragment that is not the last
(IEEE 802.3 and 802.3br; PRESUMED, log 35). -/
def preambleLen : Nat := 8
def gapLen : Nat := 12
def mcrcLen : Nat := 4
/-- The shortest fragment (R278). -/
def minFragment : Nat := 64

/-- When the gate of class `c` of a port closes, in ns; none if it never does (R277). -/
def Node.gateCloses (n : Node) (p c : Nat) : Option T64 :=
  let gl := n.gateList p
  let e := (n.port p).entry
  let later := (List.range gl.length).map (fun k => gl.getD ((e + 1 + k) % gl.length) (0, 0xFF))
  (later.foldl (fun (r : Option T64 × T64) g => match r.1 with
    | some _ => r
    | none => if g.2.testBit c then (none, r.2 + g.1) else (some r.2, r.2)) (none, n.entryEnd p)).1

/-- A frame may start at `t` (0.1 ns): with preemption always, else only if it ends before its gate closes (R277). -/
def Node.mayStart (n : Node) (p : Nat) (f : KFrame) (t : Nat) : Bool :=
  let x := n.port p
  x.preempt || (match n.gateCloses p (classOf f.type) with
    | some g => decide (t + (preambleLen + f.size) * byteTime x.rate ≤ 10 * g)
    | none => true)

/-- The class whose frame starts next at `t`: the highest of those in `cs` with an open gate and a frame that may start (R276). -/
def Node.nextClass (n : Node) (p t : Nat) (cs : List Nat) : Option (Nat × KFrame) :=
  cs.findSome? (fun c => if (n.gateMask p (n.port p).entry).testBit c then
    (match (n.line.queue p c).head? with | some f => if n.mayStart p f t then some (c, f) else none | none => none) else none)

/-- A frame of class `c` starts at `t`. -/
def Node.startFrame (n : Node) (p c : Nat) (f : KFrame) (t : Nat) : Node :=
  ({ n with line := { n.line with queues := n.line.queues.put (p * 8 + c) (n.line.queue p c).tail } } : Node).updPort p
    (fun x => { x with sending := some (f, 0, t), clock := t })

/-- The frame in transmission has to yield: preemption is verified, it is preemptable, and an express frame waits at an open gate or
its own gate has closed (R278). -/
def Node.mustYield (n : Node) (p : Nat) (f : KFrame) : Bool :=
  let m := n.gateMask p (n.port p).entry
  (n.port p).preempt && decide (classOf f.type < 5)
    && ([5, 6, 7].any (fun c => m.testBit c && !(n.line.queue p c).isEmpty) || !m.testBit (classOf f.type))

/-- One decision of a port's transmission before `t` (0.1 ns); none when nothing more happens before `t` (R276 to R278). -/
def Node.txStep (n : Node) (p t : Nat) : Option Node :=
  let x := n.port p
  let bt := byteTime x.rate
  match x.sending with
  | some (f, base, from_) =>
    let fin := from_ + (preambleLen + (f.size - base)) * bt
    let cut := max x.clock (from_ + (preambleLen + minFragment) * bt)
    let sent := base + ((cut - from_) / bt - preambleLen)
    if n.mustYield p f ∧ cut < fin ∧ sent + minFragment ≤ f.size then
      if cut ≤ t then
        some (n.setPort p { x with sending := none, held := some (f, sent), clock := cut, freeAt := cut + (mcrcLen + gapLen) * bt })
      else none
    else if fin ≤ t then some (n.setPort p { x with sending := none, clock := fin, freeAt := fin + gapLen * bt })
    else none
  | none =>
    let s := max x.clock x.freeAt
    if t < s then none
    else match n.nextClass p s [7, 6, 5] with
      | some (c, f) => some (n.startFrame p c f s)
      | none => match x.held with
        | some (f, k) =>
          if (n.gateMask p x.entry).testBit (classOf f.type) then some (n.setPort p { x with sending := some (f, k, s), held := none, clock := s })
          else none
        | none => (n.nextClass p s [4, 3, 2, 1, 0]).map (fun e => n.startFrame p e.1 e.2 s)

/-- The decisions up to `t`, at most `fuel`. -/
def Node.txRun (p t : Nat) : Nat → Node → Node
  | 0, n => n
  | k + 1, n => match n.txStep p t with | some n' => Node.txRun p t k n' | none => n

/-- Transmission at port `p` goes on to the present instant, at most to the end of its gate entry (R276 to R278). -/
def Node.transmit (n : Node) (p : Nat) : Node :=
  let x := n.port p
  let t := 10 * min n.now (n.entryEnd p)
  if x.rate = 0 ∨ x.lpi ∨ t < x.clock then n
  else
    let k := ((List.range 8).map (fun c => (n.line.queue p c).length)).sum
    (Node.txRun p t (4 * k + 4) n).updPort p (fun x => { x with clock := max x.clock t })

/-- The frames of a port whose link is gone are lost (R280). -/
def Node.dropQueues (n : Node) (p : Nat) : Node :=
  { n with line := { n.line with queues := n.line.queues.filter (fun e => e.1 / 8 != p) } }

/-- Queue a frame at an egress; a full queue drops it and counts it in qdrop (R273, R276). A queued frame ends
low-power idle on the port (R458). -/
def Node.enqueue (n : Node) (p : Nat) (f : KFrame) : Node :=
  let n := n.transmit p
  let c := classOf f.type
  let l : Line := { n.line with queues := n.line.queues.put (p * 8 + c) (n.line.queue p c ++ [f]) }
  let fits : Bool := decide ((5 ≤ c ∧ queueBytes (l.queue p c) ≤ 32768) ∨ l.sharedUsed ≤ l.sharedSize)
  if fits then ({ n with line := l } : Node).updPort p (fun x => { x with lastExpress := if 5 ≤ c ∧ f.type ≠ 0x01 then n.now else x.lastExpress })
  else n.updPort p (fun x => { x with qdrop := satInc 32 x.qdrop })

/-- A plant host's address (R264). -/
def plantAddr (a : Nat) : Bool := decide (0xFF01 ≤ a ∧ a ≤ 0xFF3F)

/-- The trunk port an own unicast frame leaves on: the route table's, else A, the head's side (R268; log 13). -/
def Node.routeOwn (n : Node) (dst : Nat) : Nat :=
  if n.isHead && plantAddr dst then 2 else
  match n.line.routes.look dst with
  | some p => if p < 3 then p else 0
  | none => if n.portUp 0 then 0 else 1

/-- Port C in spine mode carries only link hellos and class 7 frames of the second path (R266). -/
def Node.spineBars (n : Node) (p : Nat) (f : KFrame) : Bool :=
  p == 2 && n.line.cfg.portC == 2 && f.type != 0x01 && !(f.type == 0x30 && f.flags.getLsbD 3)

/-- An egress on a port with wrap active is turned to the other trunk port with WRAPPED set; safe frames are never
wrapped (R280, R431). A frame to a plant host leaves on the head's plant port with the MAC of its proxy (R269). -/
def Node.egress (n : Node) (p : Nat) (f : KFrame) : Node :=
  let x := n.port p
  if n.spineBars p f then n
  else if x.st == .up && !x.wrap then n.enqueue p f
  else if x.wrap && p < 2 && f.type != 0x30 && n.portUp (1 - p) then
    n.enqueue (1 - p) { f with flags := f.flags ||| 16#16 }
  else if x.st == .training && f.type == 0x01 then n.enqueue p f
  else if p == 2 && x.st == .foreign && n.isHead && n.line.cfg.portC == 3 && plantAddr f.dst then
    match n.line.proxies.look f.dst with
    | some e => n.enqueue p { f with dmac := e.1 }
    | none => n
  else n

/-- A new own frame: level of the line, next seq of its type, hops left free (R270, R272; log 13). -/
def Node.newFrame (n : Node) (type : Nat) (flags : BitVec 16) (dst ttl : Nat) (payload : List Byte) : KFrame × Node :=
  let s := (n.line.seqOut.getD type 0 + 1) % 2 ^ 32
  ({ level := n.line.level, type := type, flags := flags, dst := dst, src := n.addr, ttl := ttl, seq := s, payload := payload,
     smac := Config.macAddr.toNat },
    { n with line := { n.line with seqOut := n.line.seqOut.put type s } })

/-- The hops an own unicast or broadcast frame starts with: the spec states none (log 13). -/
def Node.freeTtl (n : Node) : Nat × Node :=
  let (v, n) := n.free 3
  (1 + v.toNat % 65535, n)

/-- The Line island can send: it runs and the bypass is not in the way (R32, R44). -/
def Node.lineSends (n : Node) : Bool := n.runs Isl.line

/-- Send a frame of the node's own to a unicast address, or to every other node at 0xFFFF (R268). -/
def Node.send (n : Node) (type : Nat) (flags : BitVec 16) (dst : Nat) (payload : List Byte) : Node :=
  if !n.lineSends then n else
  let (ttl, n) := n.freeTtl
  let (f, n) := n.newFrame type flags dst ttl payload
  if dst = 0xFFFF then (n.egress 0 f).egress 1 f |>.egress 2 f
  else n.egress (n.routeOwn dst) f

/-- Send a frame one hop out of a port, hop-addressed (R270, R271). -/
def Node.sendHop (n : Node) (type : Nat) (p : Nat) (payload : List Byte) : Node :=
  if !n.lineSends then n else
  let (f, n) := n.newFrame type (1#16 ||| BitVec.ofNat 16 (2 * p)) 1 1 payload
  n.egress p f

/-! ### Mailboxes (R52 to R63) -/

/-- Mailbox `m` = path × 16 + index. -/
def Node.mbx (n : Node) (m : Nat) : Mbx := n.host.mbx.getD m {}
/-- Write mailbox `m`. -/
def Node.setMbx (n : Node) (m : Nat) (x : Mbx) : Node := { n with host := { n.host with mbx := n.host.mbx.put m x } }

/-- Whether another executing mailbox belongs to a session. -/
def HostIf.sessionBusy (h : HostIf) (id : Nat) : Bool := h.mbx.any (fun e => e.2.st == .executing && e.2.session == id)

/-- The bytes of a response: header, status block, results and, in a session, the trailer (R53 to R57). Its mailbox field is the index of the
mailbox that was posted (DESIGN CHOICE, log 43). -/
def respBytes (code seq m status detail : Nat) (dup : Bool) (auth : Option (Nat × Nat × BitVec 256)) (results : List Byte) :
    List Byte × List Byte :=
  let flags := 1 + 2 * b2n auth.isSome + 4 * b2n dup + 16 * (m % 16)
  let tag := match auth with | some (id, cnt, _) => leBytes 4 id ++ leBytes 4 cnt | none => leBytes 8 0
  let body := leBytes 2 code ++ leBytes 2 seq ++ leBytes 2 (4 + results.length) ++ leBytes 2 flags ++ tag
    ++ leBytes 2 status ++ leBytes 2 detail ++ results
  let trailer := match auth with
    | some (_, _, key) => (hmacSm3 (leBytes 32 key.toNat |>.drop 16) body).take 16
    | none => []
  (body, trailer)

/-- The authentication of a response in session `id`: the next counter and the keys; none outside a session (R55, R56). -/
def HostIf.authOut (h : HostIf) (id : Nat) : Option (Nat × Nat × BitVec 256) :=
  if id = 0 then none else (h.sessions.look id).map (fun s => (id, s.cntOut + 1, s.key))

/-- A response counts as the last of its session: counter and idle time (R55, R76). -/
def HostIf.touch (h : HostIf) (id now : Nat) : HostIf :=
  match h.sessions.look id with
  | some s => { h with sessions := h.sessions.put id { s with cntOut := s.cntOut + 1, lastResp := now } }
  | none => h

/-- Drop an ended session once no command of it executes (R76). -/
def HostIf.purge (h : HostIf) (id : Nat) : HostIf :=
  match h.sessions.look id with
  | some s => if s.ended && !h.sessionBusy id then { h with sessions := h.sessions.del id } else h
  | none => h

/-- Put response bytes into mailbox `m`, and on the line send them to the requester (R59, R65). -/
def Node.putResp (n : Node) (m : Nat) (body trailer : List Byte) : Node :=
  let n := n.write (mbxAddr m) body
  let n := if trailer = [] then n else n.write (mbxAddr m + 496) trailer
  if m < 16 then n.send 0x10 32#16 (n.mbx m).src (body ++ trailer) else n

/-- What a command changes (R62), as pairs: 0 channel, 1 axis, 2 recipe instance, 3 lift, 4 store partition by its bit in R499, 5
session. -/
def cmdObjects (code : Nat) (pl : List Byte) (session : Nat) : List (Nat × Nat) :=
  let cfg := (4, 2)
  if code = Cmd.chanWrite ∨ code = Cmd.chanStart ∨ code = Cmd.chanStop then [(0, u16 pl 0)]
  else if code = Cmd.stallWrite then [(0, u16 pl 0), cfg]
  else if code = Cmd.chanSpare then [(0, u16 pl 0), (0, u16 pl 2), cfg]
  else if code = Cmd.recipeStart then [(2, u8 pl 1)]
  else if code = Cmd.recipeStop then [(2, u8 pl 0)]
  else if code = Cmd.recipeLoad then [(4, 3)]
  else if code = Cmd.axisMove ∨ code = Cmd.axisStop ∨ code = Cmd.gearSet then [(1, u8 pl 0)]
  else if code = Cmd.axisConfig ∨ code = Cmd.driveConfig then [(1, u8 pl 0), cfg]
  else if code = Cmd.segmentLoad then [(1, u8 pl 0), (4, 3)]
  else if code = Cmd.liftCall then [(3, u8 pl 0)]
  else if code = Cmd.liftConfig then [(3, u8 pl 0), cfg]
  else if code = Cmd.eventClear then [(4, 4), (4, 5)]
  else if code = Cmd.imageWrite then [(4, u8 pl 1)]
  else if code = Cmd.siloCommit then [(4, u8 pl 0), (4, 8)]
  else if code = Cmd.serviceFlagClear then [(4, 7)]
  else if code = Cmd.sessionConfirm then [(5, u32 pl 0)]
  else if code = Cmd.sessionClose then [(5, session)]
  else if [Cmd.ioWatchdog, Cmd.adcSequence, Cmd.schedConfig, Cmd.lineConfig, Cmd.timeConfig, Cmd.zbConfig, Cmd.custodyConfig, Cmd.harvestList,
      Cmd.harvestCollector, Cmd.gleanerRules, Cmd.sleepPolicy, Cmd.hostkeyAdd, Cmd.hostkeyRemove, Cmd.configWrite].contains code then [cfg]
  else if code = Cmd.safetyConfigLoad then [cfg]
  else []

/-- What the command in a mailbox changes. -/
def Mbx.objects (x : Mbx) : List (Nat × Nat) :=
  match x.req with | some (c, _, _, pl) => cmdObjects c pl x.session | none => []

/-- A mailbox taken before `m` executes a command on the same object (R62). -/
def Node.earlier (n : Node) (m : Nat) (p : Mbx → Bool) : Bool :=
  let x := n.mbx m
  n.host.mbx.any (fun e => e.1 != m && e.2.st == .executing && decide (e.2.takenNo < x.takenNo) && p e.2
    && e.2.objects.any (fun o => x.objects.contains o))
/-- The command of mailbox `m` waits for an earlier one on the same object to begin (R62). -/
def Node.blocked (n : Node) (m : Nat) : Bool := n.earlier m (fun x => !x.begun)
/-- The command of mailbox `m` begins. -/
def Node.begins (n : Node) (m : Nat) : Node := n.setMbx m { n.mbx m with begun := true }

/-- SESSION_REFUSED for a refused SESSION_HELLO or a failed SESSION_CONFIRM (R80): the key identifier the payload names, that of the
session it names, or a free value. -/
def Node.sessionRefused (n : Node) (m code status : Nat) (pl : List Byte) : Node :=
  if code = Cmd.sessionHello then n.log Ev.sessionRefused status (u64 pl 0 % 2 ^ 32) (m / 16)
  else if code = Cmd.sessionConfirm then
    match n.host.sessions.look (u32 pl 0) with
    | some x => n.log Ev.sessionRefused status (x.keyId % 2 ^ 32) (m / 16)
    | none => let (v, n) := n.free 2; n.log Ev.sessionRefused status v.toNat (m / 16)
  else n

/-- The command of mailbox `m` completes now: the response is written, the mailbox is DONE (R57, R59), and the request and response are
kept for the duplicate rule (R63). `noAuth` drops the session from the response (R58). -/
def Node.complete (n : Node) (m status detail : Nat) (noAuth : Bool) (results : List Byte) : Node :=
  let x := n.mbx m
  match x.req with
  | none => n
  | some (code, seq, _, pl) =>
    let n := if status = Rs.ok then n else n.sessionRefused m code status pl
    let auth := if noAuth then none else n.host.authOut x.session
    let (body, trailer) := respBytes code seq m status detail false auth results
    let n := n.setMbx m { x with st := .done, req := none, again := false, deferred := none, begun := false, lastReq := some (code, seq, pl), lastResp := body }
    let n := { n with host := (n.host.touch x.session n.now).purge x.session }
    n.putResp m body trailer

/-- Insertion by the order of taking. -/
def insertTaken (e : Nat × Mbx) : List (Nat × Mbx) → List (Nat × Mbx)
  | [] => [e]
  | h :: t => if e.2.takenNo ≤ h.2.takenNo then e :: h :: t else h :: insertTaken e t
/-- The mailboxes whose answers are held back, in the order in which they were taken. -/
def HostIf.held (h : HostIf) : List Nat :=
  ((h.mbx.filter (fun e => e.2.st == .executing && e.2.deferred.isSome)).foldr insertTaken []).map Prod.fst
/-- Answers held back for an earlier command go out once none is left (R62). -/
def Node.releaseAnswers (n : Node) : Node :=
  n.host.held.foldl (fun n m =>
    match (n.mbx m).deferred with
    | some (st, d, na, res) => if n.host.restarting || n.earlier m (fun _ => true) then n else n.complete m st d na res
    | none => n) n

/-- Answer the command that executes in mailbox `m`. The answer waits while the field cores restart (R59, R61), and while a command on the
same object that was taken earlier still executes (R62). -/
def Node.answerWith (n : Node) (m status detail : Nat) (noAuth : Bool) (results : List Byte) : Node :=
  let x := n.mbx m
  if x.req.isNone then n
  else if n.host.restarting || (x.begun && n.earlier m (fun _ => true)) then n.setMbx m { x with deferred := some (status, detail, noAuth, results) }
  else (n.complete m status detail noAuth results).releaseAnswers

/-- Complete the command that executes in mailbox `m` (R57, R59). -/
def Node.answer (n : Node) (m status detail : Nat) (results : List Byte) : Node := n.answerWith m status detail false results

/-- Answer OK with results. -/
def Node.ok (n : Node) (m : Nat) (results : List Byte) : Node := n.answer m Rs.ok 0 results

/-- The first check that fails, as (violated, status, detail). -/
def firstBad : List (Bool × Nat × Nat) → Option (Nat × Nat)
  | [] => none
  | (b, s, d) :: t => if b then some (s, d) else firstBad t

/-- Answer the first check that fails, else go on (R58 step 9). -/
def Node.checked (n : Node) (m : Nat) (cs : List (Bool × Nat × Nat)) (k : Node) : Node :=
  match firstBad cs with
  | some (s, d) => n.answer m s d []
  | none => k

/-- The payload has the length the command needs (R78). -/
def badLen (pl : List Byte) (k : Nat) : Bool × Nat × Nat := (pl.length != k, Rs.lengthBad, 0)
/-- Reserved bytes are 0 (R7). -/
def badRes (pl : List Byte) (off k : Nat) : Bool × Nat × Nat := (!zeroAt pl off k, Rs.paramReserved, off)
/-- A value outside its range (R6). -/
def badRange (b : Bool) (off : Nat) : Bool × Nat × Nat := (b, Rs.paramRange, off)
/-- A value outside lo … hi (R6). -/
def badIn (v lo hi off : Nat) : Bool × Nat × Nat := (decide (v < lo ∨ hi < v), Rs.paramRange, off)

/-- The commands a FAILED Line island lets run on the host SPI (R71). -/
def runsOnFailedLine (code : Nat) : Bool :=
  code == Cmd.nodeIdent || code == Cmd.nodeStatus || code == Cmd.islandStatus || code == Cmd.islandControl
    || code == Cmd.healthRead || code == Cmd.eventRead || code == Cmd.recorderStatus

/-- The commands that run while the Core island is FAILED: those by which a host sees it and brings it back (R32; log 43). -/
def runsOnFailedCore (code : Nat) : Bool :=
  code == Cmd.islandControl || code == Cmd.islandStatus || code == Cmd.nodeReset

/-- Run host command `code` of mailbox (path, index): nothing happens unless that command executes there and has not begun (log 11), no
earlier one on the same object still has to begin (R62) and the field cores run (R60); a SILO_COMMIT runs in the Security island and goes
on through a restart (R474). A pending device reset (R485), a FAILED Line island (R71) or a FAILED Core island (log 43) answers BUSY. -/
def Node.hostCmd (n : Node) (code path idx : Nat) (f : Node → Nat → List Byte → Node) : Node :=
  let m := path * 16 + idx
  let x := n.mbx m
  match x.req with
  | none => n
  | some (c, _, _, pl) =>
    if x.st != .executing || c != code || x.begun || n.blocked m || (n.host.restarting && code != Cmd.siloCommit) || x.deferred.isSome then n
    else
      let n := n.begins m
      if n.host.resetPending then n.answer m Rs.busy 0 []
      else if (n.island Isl.line).st == .failed && path == 1 && !runsOnFailedLine code then n.answer m Rs.busy 0 []
      else if (n.island Isl.core).st == .failed && !runsOnFailedCore code then n.answer m Rs.busy 0 []
      else f n m pl

/-- The path of mailbox `m`. -/
def mbxPath (m : Nat) : Nat := m / 16

/-! ### Stored configuration (R476, R496) -/

/-- A partition is read-only, bits as in R499. -/
def Node.partRo (n : Node) (b : Nat) : Bool := n.hlth.readOnly.getLsbD b
/-- The configuration partition is read-only. -/
def Node.cfgRo (n : Node) : Bool := n.partRo 2

/-- The health map is written: the copy with the lower sequence takes it, or the copy that is left (R496, R498). -/
def Health.mapWrite (h : Health) : Health :=
  match h.map0, h.map1 with
  | some a, some b => if a ≤ b then { h with map0 := some (b + 1) } else { h with map1 := some (a + 1) }
  | some a, none => { h with map0 := some (a + 1) }
  | none, some b => { h with map1 := some (b + 1) }
  | none, none => h
/-- The health map of the node is written. -/
def Node.mapWrite (n : Node) : Node := { n with hlth := n.hlth.mapWrite }

/-- Keep the last accepted payload of a configuring command, by item and instance (R476). -/
def Node.storeCfg (n : Node) (code index : Nat) (data : List Byte) : Node :=
  let keep := n.sec.stored.filter (fun r => !(r.code == code && r.index == index))
  { n with sec := { n.sec with stored := keep ++ [{ code := code, index := index, data := data }] } }

/-- Answer DEGRADED_CAPACITY; the first refusal of each command is logged and the alarm stands (R492, R499). -/
def Node.degraded (n : Node) (m code pages : Nat) : Node :=
  let n := { n with hlth := { n.hlth with degradedRefused := true } }
  let n := if n.hlth.refusedCmds.contains code then n
    else ({ n with hlth := { n.hlth with refusedCmds := code :: n.hlth.refusedCmds } }).log Ev.degradedCapacity code pages n.mem.freePages
  n.answer m Rs.degradedCapacity 0 []

/-- Answer DEGRADED_CAPACITY when the configuration partition is read-only, else go on (R496). -/
def Node.needCfg (n : Node) (m code : Nat) (k : Node) : Node := if n.cfgRo then n.degraded m code 0 else k

end Sys2Proof.Machine
end

