-- ==== Sys2Proof/Machine/EccOps.lean ====
section
/-! DEFINITION. Memories and findings as operations (01): the SRAMs of R18, the ECC records of R25, the stored difference of a word (R21,
R24) and what a consumer of a poisoned word sees. -/

namespace Sys2Proof.Machine

/-- Change the SRAM's bookkeeping. -/
def Node.updMem (n : Node) (f : MemHealth → MemHealth) : Node := { n with mem := f n.mem }

/-! ### Memories (R18, R20, R25) -/

/-- Memory codes of R25 with base and size. -/
def memories : List (Nat × Nat × Nat) :=
  [(0, 0x10000000, 0x600000), (1, 0x20000000, 0x100000), (2, 0x30000000, 0x20000), (3, 0x30020000, 0x20000), (4, 0x30040000, 0x20000)] ++
  [(5, 0x30060000, 0x20000), (6, 0x40000000, 0x20000), (7, 0x41000000, 0x20000), (8, 0x50000000, 0x38000), (9, 0x60000000, 0x8000)]
/-- The memory that holds an address. -/
def memOf (a : Nat) : Option Nat :=
  (memories.find? (fun (e : Nat × Nat × Nat) => decide (e.2.1 ≤ a ∧ a < e.2.1 + e.2.2))).map Prod.fst
/-- The island of a memory. -/
def memIsland (code : Nat) : Nat :=
  match code with
  | 0 => Isl.mem | 1 => Isl.line | 6 => Isl.safeA | 7 => Isl.safeB | 8 => Isl.sec | 9 => Isl.glean | _ => Isl.core
/-- The bank of a main-memory address. -/
def bankOf (a : Nat) : Nat := (a - 0x10000000) / 0x80000
/-- The 1 KB row, the 4 KB page and the word of an address. -/
def rowOf (a : Nat) : Nat := a / 1024 * 1024
def pageOf (a : Nat) : Nat := a / 4096 * 4096
def wordOf (a : Nat) : Nat := a / 8 * 8

/-- Bank `b` of main memory serves accesses: an operation of the Main memory island acts on one bank and leaves the other eleven
running (R12). -/
def Node.bankRuns (n : Node) (b : Nat) : Bool :=
  let x := n.island Isl.mem
  n.powered Isl.mem && (x.st == .run || (x.st != .gated && x.st != .held && x.bank != b))

/-! ### Findings (R23 to R25) -/

/-- An ECC event: address, then symbol, syndrome, memory, island and kind, then the row count. A crossing has no row: its row count
is 0 (log 47). -/
def Node.eccLog (n : Node) (code a sym syn memory isl kind : Nat) : Node :=
  n.log code (if memory = 10 then 0 else wordOf a) (sym % 32 + 2 ^ 8 * (syn % 4096) + 2 ^ 20 * (memory % 16) + 2 ^ 24 * (isl % 16) + 2 ^ 28 * kind)
    (if memory = 10 then 0 else n.mem.rowCount.getD (rowOf a) 0)

/-- A corrected finding in a memory, consumed by an island. -/
def Node.corrected (n : Node) (a sym syn memory isl : Nat) : Node :=
  let row := rowOf a
  let key := if memory = 0 then 256 + bankOf a else memory
  let n := n.updMem (fun x => { x with rowCount := x.rowCount.put row (satInc 32 (x.rowCount.getD row 0)),
                                       recent := (key, n.now) :: x.recent.filter (fun e => decide (n.now ≤ e.2 + ms 86400000)) })
  let n := n.updIsland (memIsland memory) (fun i => { i with ceCount := BitVec.ofNat 8 (satInc 8 i.ceCount.toNat) })
  n.eccLog Ev.eccCorrected a sym syn memory isl 1

/-- The stored word of `a` differs by `e` from the codeword of its data (R21). -/
def Node.setErr (n : Node) (a : Nat) (e : BitVec 76) : Node :=
  n.updMem (fun x => { x with err := if e = 0 then x.err.del (wordOf a) else x.err.put (wordOf a) e })
/-- A word takes the POISON syndrome (R24). -/
def Node.poisonWord (n : Node) (a : Nat) : Node := n.setErr a poisonErr
/-- Poison of a span is gone with what replaces the words. -/
def Node.unpoison (n : Node) (a k : Nat) : Node :=
  n.updMem (fun x => { x with err := x.err.filter (fun (e : Nat × BitVec 76) => !(decide (a ≤ e.1 ∧ e.1 < a + k))) })
/-- The first poisoned word that a span meets. -/
def Node.poisonIn (n : Node) (a k : Nat) : Option Nat :=
  (n.mem.err.find? (fun (e : Nat × BitVec 76) => e.2 == poisonErr && decide (a < e.1 + 8 ∧ e.1 < a + k))).map Prod.fst
/-- A word of a span is poisoned. -/
def Node.poisoned (n : Node) (a k : Nat) : Bool := (n.poisonIn a k).isSome

/-- The syndrome of POISON. -/
def poisonSyn : Nat := 0xA5C

/-- An island consumes a span of SRAM (R24): a poisoned word is logged, and the answer tells that the data are no valid data. -/
def Node.consume (n : Node) (a k isl : Nat) : Bool × Node :=
  match n.poisonIn a k with
  | some w => (true, n.eccLog Ev.eccPoisonConsumed w 31 poisonSyn ((memOf w).getD 0) isl 3)
  | none => (false, n)

/-- An uncorrectable finding: the word is poisoned. -/
def Node.uncorrectable (n : Node) (a syn memory isl : Nat) : Node :=
  let n := n.updIsland (memIsland memory) (fun i => { i with ueCount := BitVec.ofNat 8 (satInc 8 i.ueCount.toNat) })
  (n.eccLog Ev.eccUncorrectable a 31 syn memory isl 2).poisonWord a

end Sys2Proof.Machine
end

