-- ==== Sys2Proof/Machine/Stalls.lean ====
section
/-! DEFINITION. The stall table (R83 to R93): kinds, the 64-byte layout, the entries as they leave manufacture, the kind
part, the default fault policy and the stall cache. -/

namespace Sys2Proof.Machine

/-! ### Kinds (R87) -/

def K.unassigned : Nat := 0x00
def K.input : Nat := 0x01
def K.output : Nat := 0x02
def K.prot : Nat := 0x03
def K.analog : Nat := 0x04
def K.position : Nat := 0x05
def K.axis : Nat := 0x06
def K.internal : Nat := 0x07
def K.loop : Nat := 0x10
def K.timer : Nat := 0x11
def K.remote : Nat := 0x12
def K.linepoint : Nat := 0x13
def K.safe : Nat := 0x14
def K.lift : Nat := 0x15
def K.gate : Nat := 0x16
def K.counter : Nat := 0x17

/-- Every code of R87. -/
def K.known (k : Nat) : Bool := decide (k ≤ 7) || decide (0x10 ≤ k ∧ k ≤ 0x17)

/-- The kind a stall is bound to by its number, 0 for a user stall (R84). -/
def fixedKind (k : Nat) : Nat :=
  if k < 16 then K.input else if k < 28 then K.output else if k < 32 then K.prot else if k < 40 then K.analog
  else if k < 42 then K.position else if k < 44 then K.axis else if k < 64 then K.internal else K.unassigned

/-- The number of stalls (R83). -/
def numStalls : Nat := 1024
/-- The value 0xFFFF of a stall number: none (R92). -/
def noStall : Nat := 0xFFFF

/-! ### Fields -/

/-- The state byte (R86). -/
def ChSt.code : ChSt → Nat
  | .idle => 0 | .running => 1 | .hold => 2 | .stopped => 3 | .retrying => 4 | .fallow => 5

/-- Kind as a number. -/
def Stall.kd (s : Stall) : Nat := s.kind.toNat
/-- Kind-part field of `k` bytes at stall offset `off` (R92). -/
def Stall.pf (s : Stall) (off k : Nat) : Nat := (s.part.toNat / 2 ^ ((off - 8) * 8)) % 2 ^ (8 * k)
/-- Write a kind-part field of `k` bytes at stall offset `off`. -/
def Stall.setPf (s : Stall) (off k v : Nat) : Stall :=
  let sh := (off - 8) * 8
  let p := s.part.toNat
  let old := (p / 2 ^ sh) % 2 ^ (8 * k)
  { s with part := BitVec.ofNat 224 (p - old * 2 ^ sh + (v % 2 ^ (8 * k)) * 2 ^ sh) }

/-- RUNNING, HOLD or RETRYING. -/
def ChSt.active : ChSt → Bool
  | .running => true | .hold => true | .retrying => true | _ => false
/-- The channel is RUNNING, HOLD or RETRYING. -/
def Stall.active (s : Stall) : Bool := s.st.active
/-- The pin flag (R89). -/
def Stall.pin (s : Stall) : Bool := s.flags.getLsbD 0
/-- The is_spare flag (R89). -/
def Stall.isSpare (s : Stall) : Bool := s.flags.getLsbD 1
/-- The autostart flag (R89). -/
def Stall.autostart (s : Stall) : Bool := s.flags.getLsbD 2
/-- The publish flag (R89). -/
def Stall.publish (s : Stall) : Bool := s.flags.getLsbD 3

/-- The value format of a kind with its kind part (R90). A LINEPOINT starts as S64; an unassigned stall has 0. -/
def Stall.formatOf (s : Stall) : Nat :=
  let k := s.kd
  if k = K.output then (if s.pf 8 1 = 1 then 2 else 0)
  else if k = K.analog ∨ k = K.internal ∨ k = K.loop then 3
  else if k = K.position ∨ k = K.axis ∨ k = K.counter ∨ k = K.linepoint then 4
  else if k = K.timer ∨ k = K.safe ∨ k = K.gate then 2
  else if k = K.lift then 1
  else if k = K.remote then
    (if s.pf 15 1 = 2 then 3 else if 32 < s.pf 14 1 then 4 else if s.pf 15 1 = 1 then 1 else 2)
  else 0

/-- Set the format from the kind and the kind part (R86 offset 6). -/
def Stall.reformat (s : Stall) : Stall := { s with format := BitVec.ofNat 8 s.formatOf }

/-- The source code of an INTERNAL stall: the code of R178 for the measurement of R85 (DEDUCED, log 20). -/
def internalSource (k : Nat) : Nat :=
  if k = 44 then 8 else if k = 45 then 9 else if k < 50 then 10 + (k - 46) else if k < 54 then 14 + (k - 50)
  else if k < 58 then 18 + (k - 54) else 0

/-- The default gain and offset of an INTERNAL stall (R183), as binary32. -/
def internalScale (k : Nat) : Nat × Nat :=
  if k = 44 then (0x3A200000, 0) else if k = 45 then (0x3AA00000, 0)
  else if k < 50 then (0x3C000000, 0xC3889333) else if k < 54 then (0x38800000, 0)
  else if k < 58 then (0x37000000, 0) else (0, 0)

/-- A stall as it leaves manufacture (R84, R88, R183). -/
def Stall.dflt (k : Nat) : Stall :=
  let s : Stall := { kind := BitVec.ofNat 8 (fixedKind k) }
  let s := if s.kd = K.internal then
      ((s.setPf 8 1 (internalSource k)).setPf 12 4 (internalScale k).1).setPf 16 4 (internalScale k).2
    else s
  s.reformat

/-- Stall `k`. -/
def Node.stall (n : Node) (k : Nat) : Stall := n.stalls.getD k (Stall.dflt k)
/-- Write stall `k` in the table. -/
def Node.setStall (n : Node) (k : Nat) (s : Stall) : Node := { n with stalls := n.stalls.put k s }

/-! ### The 64-byte layout (R86) -/

/-- Bytes 0 to 43: the configuration part. -/
def Stall.cfgBytes (s : Stall) : List Byte :=
  [s.kind, s.stop] ++ leBytes 2 s.flags.toNat ++ leBytes 2 s.spare.toNat ++ [s.format, 0] ++ leBytes 28 s.part.toNat
    ++ [s.retries, s.permanence] ++ leBytes 2 s.interval.toNat ++ leBytes 2 s.window.toNat ++ [0, 0]

/-- The 64 bytes of a stall. -/
def Stall.toBytes (s : Stall) : List Byte :=
  s.cfgBytes ++ [BitVec.ofNat 8 s.st.code, s.faults, s.cause, s.status] ++ leBytes 8 s.value.toNat ++ leBytes 8 s.stamp

/-- Take the configuration part from bytes; is_spare and the format stay the SL4's (R86, R89), and so does the spare field, which CHAN_SPARE
alone designates (R102; DEDUCED, log 51). -/
def Stall.withCfg (s : Stall) (b : List Byte) : Stall :=
  { s with kind := BitVec.ofNat 8 (u8 b 0), stop := BitVec.ofNat 8 (u8 b 1),
           flags := (BitVec.ofNat 16 (u16 b 2) &&& 0xFFFD#16) ||| (s.flags &&& 2#16),
           part := BitVec.ofNat 224 (leNat (slice b 8 28)), retries := BitVec.ofNat 8 (u8 b 36),
           permanence := BitVec.ofNat 8 (u8 b 37), interval := BitVec.ofNat 16 (u16 b 38),
           window := BitVec.ofNat 16 (u16 b 40) }.reformat

/-- A stall's 64 bytes come from main memory (R86). -/
def Stall.withImage (s : Stall) (b : List Byte) : Stall :=
  let st : ChSt := match u8 b 44 with | 0 => .idle | 1 => .running | 2 => .hold | 3 => .stopped | 4 => .retrying | _ => .fallow
  { s.withCfg b with flags := BitVec.ofNat 16 (u16 b 2), spare := BitVec.ofNat 16 (u16 b 4), format := BitVec.ofNat 8 (u8 b 6), st := st, faults := BitVec.ofNat 8 (u8 b 45),
                     cause := BitVec.ofNat 8 (u8 b 46), status := BitVec.ofNat 8 (u8 b 47), value := BitVec.ofNat 64 (u64 b 48), stamp := u64 b 56 }

/-! ### Fault policy (R100, R101) -/

/-- Retries, interval and window in ns (R100). -/
structure Policy where
  retries : Nat
  interval : Nat
  window : Nat
deriving DecidableEq, Repr

/-- The default policy of a kind (R100); `cycle` is the line cycle in µs. -/
def kindPolicy (s : Stall) (cycle : Nat) : Policy :=
  let k := s.kd
  if k = K.input then ⟨3, ms 1, sec 10⟩
  else if k = K.output ∨ k = K.prot then ⟨3, ms 100, sec 60⟩
  else if k = K.analog then ⟨3, ms 1, sec 10⟩
  else if k = K.position then ⟨8, us 100, sec 1⟩
  else if k = K.axis then ⟨2, ms 50, sec 60⟩
  else if k = K.internal then ⟨3, ms 10, sec 10⟩
  else if k = K.loop then ⟨3, us (s.pf 14 2), sec 1⟩
  else if k = K.remote then ⟨5, ms 100, sec 60⟩
  else if k = K.linepoint then ⟨10, us cycle, sec 10⟩
  else ⟨0, 0, 0⟩

/-- The policy in force: bytes 36 to 41 override the default field by field (R100). -/
def Node.policy (n : Node) (s : Stall) : Policy :=
  let d := kindPolicy s n.line.cycle
  ⟨if s.retries = 0xFF then d.retries else s.retries.toNat,
   if s.interval = 0 then d.interval else us 100 * s.interval.toNat,
   if s.window = 0 then d.window else ms 100 * s.window.toNat⟩

/-- Permanence 2: only the immediate condition retires the channel (R101). -/
def Stall.immediateOnly (s : Stall) : Bool := s.permanence = 2

/-- The stop behaviour in force (R88): 0 SAFE, 1 HOLD, 2 RAMP. -/
def Stall.stopCode (s : Stall) : Nat :=
  if s.stop = 0xFF then (if s.kd = K.axis ∨ s.kd = K.lift ∨ s.kd = K.gate then 2 else 0) else s.stop.toNat

/-! ### Resources (R102) -/

/-- The resource stall `k` runs on, as the number of the stall it belongs to. -/
def Node.resource (n : Node) (k : Nat) : Nat := (n.stall k).res.getD k
/-- The stall that runs on resource `r`. -/
def Node.stallOf (n : Node) (r : Nat) : Nat :=
  match n.stalls.find? (fun e => e.2.res == some r) with
  | some e => e.1
  | none => r

/-! ### The stall cache (R104, R105) -/

/-- The cache entry of stall `k`. -/
def Node.cached (n : Node) (k : Nat) : Option CacheEntry := n.cache.find? (fun e => e.stall == k)

/-- An access moves a cached stall to the front: the list is in order of use. -/
def Node.touch (n : Node) (k : Nat) : Node :=
  match n.cached k with
  | some e => { n with cache := e :: n.cache.filter (fun x => x.stall != k) }
  | none => n

/-- A change of a cached stall marks its entry modified (R105). -/
def Node.markDirty (n : Node) (k : Nat) : Node :=
  { n with cache := n.cache.map (fun e => if e.stall = k then { e with dirty := true } else e) }

/-- Remove a stall from the cache: a modified entry goes back to main memory, an unmodified one is dropped, so what the service port
has written in its place stands (R104, R105). -/
def Node.uncache (n : Node) (k : Nat) : Node :=
  let n := match n.cached k with
    | some e => if e.poked && !e.dirty then n.setStall k ((n.stall k).withImage e.image) else n
    | none => n
  { n with cache := n.cache.filter (fun e => e.stall != k) }
/-- The cache empties (R29). -/
def Node.dropCache (n : Node) : Node := (n.cache.map CacheEntry.stall).foldl (fun n k => n.uncache k) n

/-- The last entry in order of use that a test allows. -/
def lastWhere (p : CacheEntry → Bool) (c : List CacheEntry) : Option CacheEntry := (c.filter p).getLast?

/-- The entry a miss evicts: neither pinned nor locked, first among stalls that are not active, then the least recently
used (R104). -/
def Node.victim (n : Node) : Option CacheEntry :=
  let free (e : CacheEntry) : Bool := !e.pinned && e.locks == 0
  match lastWhere (fun e => free e && !(n.stall e.stall).active) n.cache with
  | some e => some e
  | none => lastWhere free n.cache

/-- Fill the cache with stall `k` (R104): 128 entries; a full cache first evicts the victim. -/
def Node.fill (n : Node) (k : Nat) : Node :=
  match n.cached k with
  | some _ => n.touch k
  | none =>
    let n := if n.cache.length < 128 then n
      else match n.victim with | some v => n.uncache v.stall | none => n
    if n.cache.length < 128 then
      { n with cache := { stall := k, pinned := (n.stall k).pin && (n.stall k).active, image := (n.stall k).toBytes } :: n.cache }
    else n

/-- Lock the entry of a timed action's stall, filling it first (R104); release it when the action is done. -/
def Node.lock (n : Node) (k : Nat) : Node :=
  let n := n.fill k
  { n with cache := n.cache.map (fun e => if e.stall = k then { e with locks := e.locks + 1 } else e) }
def Node.unlock (n : Node) (k : Nat) : Node :=
  { n with cache := n.cache.map (fun e => if e.stall = k then { e with locks := e.locks - 1 } else e) }
/-- Entries locked. -/
def Node.locked (n : Node) : Nat := (n.cache.filter (fun e => e.locks != 0)).length
/-- The pin of a cached stall follows its flag while the channel is active (R89, R104). -/
def Node.repin (n : Node) (k : Nat) : Node :=
  let s := n.stall k
  { n with cache := n.cache.map (fun e => if e.stall = k then { e with pinned := s.pin && s.active } else e) }
/-- Stalls that are pinned: the flag is set and the channel is active (R104). -/
def Node.pinnedCount (n : Node) : Nat := (n.stalls.filter (fun e => e.2.pin && e.2.active)).length

/-- Every modified entry is written back (R105). -/
def Node.flushCache (n : Node) : Node :=
  { n with cache := n.cache.map (fun e => if e.dirty then { e with dirty := false, poked := false, image := (n.stall e.stall).toBytes } else e) }

/-- What main memory holds for stall `k`: the image of a cached entry that differs from it, else the stall itself. -/
def Node.stallImage (n : Node) (k : Nat) : List Byte :=
  match n.cached k with
  | some e => if e.dirty || e.poked then e.image else (n.stall k).toBytes
  | none => (n.stall k).toBytes

/-! ### Values and COUNTER edges (R86, R92) -/

/-- Remaining µs of a TIMER whose zero instant is `z`, rounded up, at `now` (R92; rounding DEDUCED, log 22). -/
def remaining (z now : Nat) : Nat := (z - now + 999) / 1000

/-- Stall `k` as it reads at this instant: a running TIMER's value is its remaining µs. -/
def Node.view (n : Node) (k : Nat) : Stall :=
  let s := n.stall k
  match s.zeroAt with
  | some z => if s.kd = K.timer then { s with value := BitVec.ofNat 64 (remaining z n.now), stamp := z - us (remaining z n.now) } else s
  | none => s

/-- The value is valid: RUNNING and INVALID clear (R91, R94). -/
def Stall.valid (s : Stall) : Bool := s.st == .running && !s.status.getLsbD 0
/-- Set or clear a status bit (R91). -/
def Stall.setStatus (s : Stall) (b : Nat) (v : Bool) : Stall :=
  { s with status := if v then s.status ||| (1#8 <<< b) else s.status &&& ~~~(1#8 <<< b) }

/-- Take a value; the stamp is that of the last change of value (R86). -/
def Stall.take (s : Stall) (v : W64) (t : T64) : Stall := if s.value = v then s else { s with value := v, stamp := t }
/-- Take a value with its own stamp. -/
def Stall.takeAt (s : Stall) (v : W64) (t : T64) : Stall := { s with value := v, stamp := t }

/-- One COUNTER sees its source (R92): an edge counts between two successive valid values; the first valid value after
an invalid period is the reference. The count wraps at the ends of S64. -/
def Stall.see (c src : Stall) : Stall :=
  if src.valid then
    let b := src.value.getLsbD 0
    let c' := { c with counterRef := some b }
    match c.counterRef with
    | some r =>
      let want := c.pf 10 1 = 2 ∨ (c.pf 10 1 = 0 ∧ b = true) ∨ (c.pf 10 1 = 1 ∧ b = false)
      if r ≠ b ∧ want ∧ c.st = .running then
        c'.takeAt (if c.pf 11 1 = 1 then c.value - 1 else c.value + 1) src.stamp
      else c'
    | none => c'
  else { c with counterRef := none }

/-- Every COUNTER of source `k` sees the source (R92). -/
def Node.seeCounters (n : Node) (k : Nat) : Node :=
  let src := n.stall k
  { n with stalls := n.stalls.mapE (fun _ c =>
      if c.kd = K.counter ∧ c.pf 8 2 = k ∧ (c.st = .running ∨ c.st = .hold) then c.see src else c) }

/-! ### Formats (R90) -/

def F.bool : Nat := 0
def F.s32 : Nat := 1
def F.u32 : Nat := 2
def F.f32 : Nat := 3
def F.s64 : Nat := 4

/-- Format as a number. -/
def Stall.fm (s : Stall) : Nat := s.format.toNat

/-- The integer an integer-format value stands for (R111, R114). -/
def valueInt (fmt : Nat) (v : W64) : Int :=
  if fmt = F.bool then (v.toNat % 2 : Nat) else if fmt = F.s32 then toSigned 32 v.toNat
  else if fmt = F.u32 then (v.toNat % 2 ^ 32 : Nat) else toSigned 64 v.toNat

/-- A stall's value as a number in units of 2^-32. -/
def Stall.fixed (s : Stall) : Int :=
  if s.fm = F.f32 then ratRound ((b32.unpack (s.value.toNat % 2 ^ 32)).toRat * (2 ^ 32 : Nat)) else valueInt s.fm s.value * 2 ^ 32

/-- Keep the samples of the last 100 ms (R336, R355). -/
def keepSamples (ss : List (T64 × Int)) (t : T64) (v : Int) : List (T64 × Int) :=
  (t, v) :: ss.filter (fun s => decide (t ≤ s.1 + ms 100) && s.1 != t)

/-- Custody keeps the values its belt source is written (R336). -/
def Node.seeBelt (n : Node) (k : Nat) : Node :=
  let c := n.cust
  let s := n.stall k
  if c.stallSource && c.stall == k && s.valid then
    let t := if (c.samples.head?.map Prod.snd) = some s.fixed then n.now else s.stamp
    if c.samples.any (fun x => decide (t < x.1)) then n else { n with cust := { c with samples := keepSamples c.samples t s.fixed } }
  else n

/-- Write stall `k` with what follows from it: its cached entry is modified and pinned by its flag, the COUNTERs of this
source see it, and custody when it is the belt source. -/
def Node.putStall (n : Node) (k : Nat) (s : Stall) : Node := ((((n.setStall k s).markDirty k).repin k).seeCounters k).seeBelt k
/-- Change stall `k`. -/
def Node.updStall (n : Node) (k : Nat) (f : Stall → Stall) : Node := n.putStall k (f (n.stall k))

end Sys2Proof.Machine
end

