-- ==== Sys2Proof/Machine/Operands.lean ====
section
/-! DEFINITION. The operand forms of the spec: value formats and their conversions (R90, R114, R143), the ranges of
writable kinds, step records (R108, R109) and the conditions of R110 to R112. -/

namespace Sys2Proof.Machine

/-! ### Ranges (R90) -/

/-- The range of an integer format. -/
def formatRange (fmt : Nat) : Int × Int :=
  if fmt = F.bool then (0, 1) else if fmt = F.s32 then (minS32, maxS32)
  else if fmt = F.u32 then (0, 4294967295) else (minS64, maxS64)

/-- An integer stored in an integer format; a 32-bit format leaves bytes 52 to 55 at 0 (R90). -/
def storeInt (fmt : Nat) (z : Int) : W64 :=
  if fmt = F.s64 then BitVec.ofNat 64 (ofSigned 64 z) else BitVec.ofNat 64 (ofSigned 32 z)

/-- Read a value as binary32 (R143). -/
def toF32 (fmt : Nat) (v : W64) : Nat := if fmt = F.f32 then v.toNat % 2 ^ 32 else b32.ofInt (valueInt fmt v)

/-- The range a write must keep (R143, R164): duty of a PWM output, width and encoding of a REMOTE, else the format's. -/
def Stall.range (s : Stall) : Int × Int :=
  if s.kd = K.output ∧ s.fm = F.u32 then (0, 65536)
  else if s.kd = K.remote ∧ s.fm ≠ F.f32 then
    (if s.pf 15 1 = 1 then (-((2 ^ (s.pf 14 1 - 1) : Nat) : Int), ((2 ^ (s.pf 14 1 - 1) : Nat) : Int) - 1)
     else (0, ((2 ^ s.pf 14 1 : Nat) : Int) - 1))
  else formatRange s.fm

/-- The integer of a written value of a REMOTE whose unsigned encoding fills S64 is read unsigned. -/
def Stall.writtenInt (s : Stall) (v : W64) : Int :=
  if s.kd = K.remote ∧ s.fm = F.s64 ∧ s.pf 15 1 = 0 then (v.toNat : Int) else valueInt s.fm v

/-- A value keeps the format and the kind's range (R6, R90, R98): for a 32-bit format bits [63:32] are 0. -/
def Stall.accepts (s : Stall) (v : W64) : Bool :=
  (s.fm = F.s64 || decide (v.toNat < 2 ^ 32)) &&
  (if s.fm = F.bool then decide (v.toNat ≤ 1)
   else if s.fm = F.f32 then true
   else decide (s.range.1 ≤ s.writtenInt v ∧ s.writtenInt v ≤ s.range.2))

/-- The range at which a loop's write saturates: a REMOTE of width 64 saturates at its format's, S64 (R143). -/
def Stall.loopRange (s : Stall) : Int × Int := if s.kd = K.remote ∧ s.pf 14 1 = 64 then formatRange s.fm else s.range

/-- Convert a finite binary32 into the target's format: nearest, ties to even, saturated at its range (R143). -/
def Stall.fromF32 (s : Stall) (b : Nat) : W64 :=
  if s.fm = F.f32 then BitVec.ofNat 64 (b % 2 ^ 32)
  else storeInt s.fm (clampI s.loopRange.1 s.loopRange.2 ((b32.unpack b).nearest.getD 0))

/-! ### Registers (R114) -/

/-- REG_LOAD: zero-extended, sign-extended, or towards zero with saturation and NaN giving 0. -/
def regOf (fmt : Nat) (v : W64) : W64 :=
  if fmt = F.f32 then
    let z := match b32.unpack (v.toNat % 2 ^ 32) with
      | .nan => 0
      | .inf neg => if neg then minS64 else maxS64
      | f => clampI minS64 maxS64 (f.trunc.getD 0)
    BitVec.ofNat 64 (ofSigned 64 z)
  else BitVec.ofNat 64 (ofSigned 64 (valueInt fmt v))

/-- REG_STORE: nearest even into F32, saturated into narrower integer formats, BOOL the narrowest. -/
def regTo (fmt : Nat) (r : W64) : W64 :=
  let z := toSigned 64 r.toNat
  if fmt = F.f32 then BitVec.ofNat 64 (b32.ofInt z)
  else storeInt fmt (clampI (formatRange fmt).1 (formatRange fmt).2 z)

/-- ADD (R114): saturating on integers; on F32 one addition whose overflow of finite operands saturates. -/
def addValue (fmt : Nat) (v a : W64) : W64 :=
  if fmt = F.f32 then
    let x := v.toNat % 2 ^ 32
    let y := a.toNat % 2 ^ 32
    let r := b32.add x y
    if b32.finite x && b32.finite y && !b32.finite r then
      (if bit r 31 then 0xFF7FFFFF#64 else 0x7F7FFFFF#64)
    else BitVec.ofNat 64 r
  else storeInt fmt (clampI (formatRange fmt).1 (formatRange fmt).2 (valueInt fmt v + valueInt fmt a))

/-- COPY (R114): same format unchanged, else REG_LOAD followed by REG_STORE. -/
def copyValue (src dst : Nat) (v : W64) : W64 := if src = dst then v else regTo dst (regOf src v)

/-- SET, ADD, COPY and REG_STORE accept these stalls (R114). -/
def Stall.writable (s : Stall) : Bool :=
  s.kd = K.output || s.kd = K.prot || s.kd = K.timer || s.kd = K.counter || s.kd = K.loop
    || (s.kd = K.remote && s.pf 12 1 = 1)

/-! ### Step records (R108, R109) -/

/-- One step record. -/
structure Step where
  cond : Nat
  act : Nat
  flags : Nat
  cStall : Nat
  aStall : Nat
  cValue : W64
  aValue : W64
  delay : Nat
  timeout : Nat
  branch : Nat
deriving DecidableEq, Repr

/-- The record in 32 bytes. -/
def Step.ofBytes (b : List Byte) : Step :=
  { cond := u8 b 0, act := u8 b 1, flags := u16 b 2, cStall := u16 b 4, aStall := u16 b 6,
    cValue := BitVec.ofNat 64 (u64 b 8), aValue := BitVec.ofNat 64 (u64 b 16), delay := u32 b 24,
    timeout := u16 b 28, branch := u16 b 30 }

def Step.unit (r : Step) : Nat := field r.flags 1 0
def Step.anchor (r : Step) : Nat := field r.flags 3 2
def Step.stamp (r : Step) : Bool := bit r.flags 4
def Step.regSrc (r : Step) : Bool := bit r.flags 5
def Step.test (r : Step) : Bool := bit r.flags 6
def Step.andNext (r : Step) : Bool := bit r.flags 7
def Step.aux (r : Step) : Nat := field r.flags 10 8

/-- The delay in ns. -/
def Step.delayNs (r : Step) : Nat := if r.unit = 0 then r.delay else if r.unit = 1 then us r.delay else ms r.delay

/-! ### Conditions (R110, R111) -/

/-- The comparison codes 0x01 to 0x06 on integers. -/
def cmpInt (code : Nat) (x y : Int) : Bool :=
  match code with
  | 1 => decide (x = y) | 2 => decide (x ≠ y) | 3 => decide (x > y) | 4 => decide (x ≥ y)
  | 5 => decide (x < y) | 6 => decide (x ≤ y) | _ => false

/-- The comparison codes on binary32: with a NaN only NE is true. -/
def cmpF32 (code x y : Nat) : Bool :=
  match code with
  | 1 => b32.eqv x y | 2 => !b32.eqv x y | 3 => b32.lt y x | 4 => b32.le y x
  | 5 => b32.lt x y | 6 => b32.le x y | _ => false

/-- ALLSET and ALLCLEAR on stored bits. -/
def bitTest (code : Nat) (x c : W64) : Bool :=
  if code = 7 then x &&& c == c else x &&& c == 0#64

/-- Condition 0x01 to 0x08 on a value in a format (R111); a 32-bit format compares c_value[31:0] alone (R124). -/
def valueCond (code fmt : Nat) (v c : W64) : Bool :=
  if code = 7 ∨ code = 8 then bitTest code v c
  else if fmt = F.f32 then cmpF32 code (v.toNat % 2 ^ 32) (c.toNat % 2 ^ 32)
  else if fmt = F.bool then cmpInt code (v.toNat % 2 : Nat) (c.toNat % 2 ^ 32 : Nat)
  else cmpInt code (valueInt fmt v) (valueInt fmt c)

/-- The condition of one record. `regs` are the instance's registers, `enter` is T_enter, `ended` tells whether an
instance is FREE or DONE. -/
def Node.cond (n : Node) (r : Step) (regs : Tbl W64) (enter : T64) (ended : Nat → Bool) : Bool :=
  let s := n.view r.cStall
  let inv := !s.valid
  if r.cond = 0 then true
  else if r.regSrc then (if r.cond ≤ 8 then valueCond r.cond F.s64 (regs.getD r.cStall 0) r.cValue else false)
  else if r.cond ≤ 8 then !inv && valueCond r.cond s.fm s.value (if s.fm = F.s64 then r.cValue else r.cValue &&& 0xFFFFFFFF#64)
  else match r.cond with
  | 0x09 => !inv && s.value.getLsbD 0 && decide (enter < s.stamp)
  | 0x0A => !inv && !s.value.getLsbD 0 && decide (enter < s.stamp)
  | 0x0B => !inv && decide (enter < s.stamp)
  | 0x0C => !inv
  | 0x0D => inv
  | 0x0E => s.st.code == r.cValue.toNat % 256
  | 0x0F => decide (r.cValue.toNat ≤ n.now)
  | 0x10 => n.rcp.flags.getLsbD r.cStall
  | 0x11 => !n.rcp.flags.getLsbD r.cStall
  | 0x12 => ended r.cStall
  | _ => false

end Sys2Proof.Machine
end

