-- ==== Sys2Proof/Machine/Flags.lean ====
section
/-! DEFINITION. The flag computations the spec gives: the status byte of a stall (R91) through the channel states, the
fault count of the window (R101), the bits of HS_STATUS (R70) and of the stored windows of faults. -/

namespace Sys2Proof.Machine

/-! ### Status bits of a stall (R91) -/

def St.invalid : Nat := 0
def St.field : Nat := 1
def St.stopping : Nat := 2
def St.remapped : Nat := 3
def St.writeDropped : Nat := 4
def St.overRange : Nat := 5

/-- STOPPING is set. -/
def Stall.stopping (s : Stall) : Bool := s.status.getLsbD St.stopping

/-- Kinds whose value is valid at once in RUNNING; the others wait for their first measurement, frame or entry (R91,
R90 for LINEPOINT, R202 for SSI; DEDUCED for INPUT, ANALOG, INTERNAL and REMOTE receive, log 21). -/
def Stall.validAtOnce (s : Stall) : Bool :=
  s.kd = K.output || s.kd = K.prot || s.kd = K.axis || s.kd = K.loop || s.kd = K.timer || s.kd = K.counter
    || s.kd = K.gate || (s.kd = K.remote && s.pf 12 1 = 1) || (s.kd = K.position && s.pf 8 1 ≠ 2)

/-- Enter a channel state: INVALID is 1 outside RUNNING; entering RUNNING clears WRITE_DROPPED; STOPPING ends with
RUNNING (R91, R95). -/
def Stall.enter (s : Stall) (st : ChSt) : Stall :=
  if st = .running then ({ s with st := st }.setStatus St.writeDropped false).setStatus St.invalid (!s.validAtOnce)
  else ({ s with st := st }.setStatus St.invalid true).setStatus St.stopping false

/-! ### The fault count (R101) -/

/-- Drop the episodes older than the window; byte 45 holds their number, saturating (R86, R101). -/
def Stall.dropEpisodes (s : Stall) (window now : Nat) : Stall :=
  let e := s.episodes.filter (fun t => decide (now ≤ t + window))
  { s with episodes := e, faults := BitVec.ofNat 8 (min e.length 255) }

/-- A new episode begins (R101). -/
def Stall.addEpisode (s : Stall) (window now : Nat) : Stall :=
  { s with episodes := now :: s.episodes }.dropEpisodes window now

/-! ### HS_STATUS (R70) -/

/-- The bits of HS_STATUS: RESTARTING 0, SESSION 1, FRAME_ERR 2, CRC_ERR 3, WIN_ERR 4, DB_OVERRUN 5, ALIVE 6. -/
def HsRegs.statusWord (r : HsRegs) (restarting session alive : Bool) : Nat :=
  b2n restarting + 2 * b2n session + 4 * b2n r.frameErr + 8 * b2n r.crcErr + 16 * b2n r.winErr + 32 * b2n r.dbOverrun
    + 64 * b2n alive

end Sys2Proof.Machine
end

