-- ==== Sys2Proof/Machine/IoOps.lean ====
section
/-! DEFINITION. What decides an output (R173), its PWM on-time (R164), and the safety channels' series switches (R167). -/

namespace Sys2Proof.Machine

/-- Output `o` (OUT0 to OUT11, PO0 to PO3 as 0 to 15). -/
def Node.outPin (n : Node) (o : Nat) : OutPin := n.fio.outs.getD o {}
def Node.setOut (n : Node) (o : Nat) (p : OutPin) : Node := { n with fio := { n.fio with outs := n.fio.outs.put o p } }
/-- Input `i`. -/
def Node.inPin (n : Node) (i : Nat) : InPin := n.fio.ins.getD i {}
def Node.setIn (n : Node) (i : Nat) (p : InPin) : Node := { n with fio := { n.fio with ins := n.fio.ins.put i p } }

/-- The stall that runs on output `o`. -/
def Node.outStall (n : Node) (o : Nat) : Nat := n.stallOf (16 + o)
/-- The stall that runs on input `i`. -/
def Node.inStall (n : Node) (i : Nat) : Nat := n.stallOf i

/-- The I/O watchdog safe state of an output's stall (R92): 0 OFF, 1 ON, 2 HOLD. -/
def Stall.safeState (s : Stall) : Nat := if s.kd = K.prot then s.pf 8 1 else s.pf 9 1
/-- The restore setting of an output's stall (R92). -/
def Stall.restore (s : Stall) : Nat := if s.kd = K.prot then s.pf 9 1 else s.pf 12 1
/-- An output stall. -/
def Stall.isOut (s : Stall) : Bool := s.kd == K.output || s.kd == K.prot
/-- PWM mode. -/
def Stall.pwm (s : Stall) : Bool := s.kd = K.output && s.pf 8 1 = 1

/-- The PWM period in ns, a multiple of 20 ns (R164). -/
def pwmPeriod (freq : Nat) : Nat := if freq = 0 then 0 else 1000000000 / freq / 20 * 20
/-- The on-time of a duty in ns: duty × P ÷ 65,536 to the nearest multiple of 20 ns, halfway to a multiple of 40 ns; an
on-time or off-time below 10 µs gives a whole period off or on (R164). -/
def pwmOnTime (period duty : Nat) : Nat :=
  let num := duty * period
  let den := 65536 * 20
  let q := num / den
  let r := num % den
  let k := if den < 2 * r then q + 1 else if 2 * r = den ∧ q % 2 = 1 then q + 1 else q
  let t := k * 20
  if t < 10000 then 0 else if period - t < 10000 then period else t

/-- The field side is powered: from t5 of power-up to power-down (R47, R48, R173). -/
def Node.fieldPowered (n : Node) : Bool := n.power.stage == .t5 || n.power.stage == .t6 || n.power.stage == .t7
/-- The latch holds the outputs off (R172). -/
def Node.latchedOff (n : Node) : Bool := n.fio.supply == .latched || n.fio.supply == .rising
/-- The island is GATED, or HELD on its way from GATED to RUN (R32, R451). -/
def Node.slept (n : Node) (i : Nat) : Bool := (n.island i).st == .gated || ((n.island i).st == .held && (n.island i).op == none)
/-- The I/O island is under an operation, so rule 2 of R173 decides. -/
def Node.ioOperation (n : Node) : Bool := !(n.runs Isl.io) && !n.slept Isl.io

/-- The duty of the watchdog safe state: OFF 0, ON 65,536, HOLD what was in force (R173). -/
def safeDuty (s : Stall) (held : Nat) : Nat := if s.safeState = 1 then 65536 else if s.safeState = 2 then held else 0

/-- The commanded duty of an output's stall: the PWM duty, or 65,536 while the switch command is 1. -/
def Stall.cmdDuty (s : Stall) : Nat := if s.pwm then s.commanded.toNat else if s.commanded.getLsbD 0 then 65536 else 0

/-- The rule of R173 that decides output `o`, and the duty it gives. Rule 4, the series switches, acts at the land
(`Node.conducts`). A retry drives the commanded value (R160). A channel that is IDLE or STOPPED has nothing in force unless it stopped with
HOLD, and what it kept gives way to an I/O island operation and to an expired watchdog (R88, R173). -/
def Node.ruling (n : Node) (o : Nat) : Nat × Nat :=
  let s := n.stall (n.outStall o)
  let p := n.outPin o
  let live := s.st == .running || s.st == .hold
  if !n.fieldPowered || n.latchedOff || s.holds.contains .supply then (1, 0)
  else if n.ioOperation && live then (2, safeDuty s p.heldDuty)
  else if s.st == .retrying && p.trying.isSome && !n.ioOperation then (6, s.cmdDuty)
  else if s.st == .retrying || s.st == .fallow then (3, 0)
  else if n.fio.wdSt == .expired && live then (5, safeDuty s p.heldDuty)
  else if live then (6, s.cmdDuty)
  else if s.st == .stopped && decide (0 < p.keptDuty) && !n.ioOperation && n.fio.wdSt != .expired then (6, p.keptDuty)
  else (3, 0)

/-- A duty switches the output's stall on, in PWM mode for some of each period. -/
def Stall.lit (s : Stall) (d : Nat) : Bool := if s.pwm then decide (0 < pwmOnTime (pwmPeriod (s.pf 10 2)) d) else decide (0 < d)

/-- Put a decision into force. A level kept by a stop with HOLD is gone once another rule has decided (log 51). -/
def Node.force (n : Node) (o : Nat) (r d : Nat) : Node :=
  let p := n.outPin o
  n.setOut o { p with rank := r, duty := d, on := (n.stall (n.outStall o)).lit d, keptDuty := if r = 6 then p.keptDuty else 0 }

/-- The I/O island's own switch of output `o` is on now: in PWM mode from each period boundary for the on-time (R164). -/
def Node.outOn (n : Node) (o : Nat) : Bool :=
  let s := n.stall (n.outStall o)
  let p := n.outPin o
  let period := pwmPeriod (s.pf 10 2)
  p.on && (!s.pwm || n.slept Isl.io || decide (n.now % period < pwmOnTime period p.duty))

/-- The output follows its decision: at once, but a PWM output takes a lower-ranked decision or a new duty at its next
period boundary (R164, R173). -/
def Node.driveOut (n : Node) (o : Nat) : Node :=
  let (r, d) := n.ruling o
  let p := n.outPin o
  if (n.stall (n.outStall o)).pwm && (decide (p.rank < r) || (p.rank == 6 && r == 6)) then n else n.force o r d

/-- Every output follows its decision. -/
def Node.driveAll (n : Node) : Node := (List.range 16).foldl (fun n o => n.driveOut o) n

/-- The output stall's own pin follows when `k` is an output stall. -/
def Node.driveStall (n : Node) (k : Nat) : Node :=
  let r := n.resource k
  if 16 ≤ r ∧ r < 32 then n.driveOut (r - 16) else n

/-- What is in force is kept for the safe state HOLD (R173). -/
def Node.captureHeld (n : Node) : Node :=
  (List.range 16).foldl (fun n o => n.setOut o { n.outPin o with heldDuty := (n.outPin o).duty }) n

/-- Both series switches of PO `k` are closed (R167). -/
def Node.seriesClosed (n : Node) (k : Nat) : Bool := n.fio.series.getLsbD k && n.fio.series.getLsbD (4 + k)
/-- The land of output `o` conducts (R165, R173). -/
def Node.conducts (n : Node) (o : Nat) : Bool := n.outOn o && (decide (o < 12) || n.seriesClosed (o - 12))

end Sys2Proof.Machine
end

