-- ==== Sys2Proof/Machine/AxisOps.lean ====
section
/-! DEFINITION. Operations on axes, encoders and drive stages that several commands share: the sine table and phase
amplitudes (R244, R245), coil states (R251) and encoder conditions. Stops and faults are in Plan.lean. -/

namespace Sys2Proof.Machine

/-- Axis `a`, drive stage `a`, position interface `i`. -/
def Node.axis (n : Node) (a : Nat) : Axis := n.axes.getD a {}
def Node.setAxis (n : Node) (a : Nat) (x : Axis) : Node := { n with axes := n.axes.put a x }
def Node.updAxis (n : Node) (a : Nat) (f : Axis → Axis) : Node := n.setAxis a (f (n.axis a))
def Node.drv (n : Node) (a : Nat) : Drive := n.drives.getD a {}
def Node.setDrv (n : Node) (a : Nat) (d : Drive) : Node := { n with drives := n.drives.put a d }
def Node.enc (n : Node) (i : Nat) : Enc := n.encs.getD i {}
def Node.setEnc (n : Node) (i : Nat) (e : Enc) : Node := { n with encs := n.encs.put i e }
def Node.updEnc (n : Node) (i : Nat) (f : Enc → Enc) : Node := n.setEnc i (f (n.enc i))

/-- The stall of axis `a` and of interface `i`. -/
def Node.axisStall (n : Node) (a : Nat) : Nat := n.stallOf (42 + a)
def Node.encStall (n : Node) (i : Nat) : Nat := n.stallOf (40 + i)

/-- The commanded position: the held position to the nearest microstep, ties away from zero (R216). -/
def Axis.pos (x : Axis) : Int := roundDiv x.p (2 ^ 32)

/-- The interface bound to axis `a` as encoder (R92). -/
def Node.encOf (n : Node) (a : Nat) : Option Nat :=
  let fb := (n.stall (n.axisStall a)).pf 8 2
  if fb = 40 ∨ fb = 41 then some (n.resource fb - 40) else none
/-- The scaled encoder position without its offset (R235). -/
def Node.encScaled (n : Node) (a : Nat) (i : Nat) : Int := (n.enc i).ext * (n.axis a).cfg.encNum / ((n.axis a).cfg.encDen : Int)
/-- The scaled encoder position of R235 where an encoder is bound. -/
def Node.encPos (n : Node) (a : Nat) : Option Int :=
  (n.encOf a).map (fun i => n.encScaled a i + (n.axis a).encOffset)
/-- An encoder is bound and valid (R218, R237). -/
def Node.encValid (n : Node) (a : Nat) : Bool :=
  match n.encOf a with
  | some i => (n.stall (n.encStall i)).valid && !(n.enc i).lost
  | none => false

/-! ### Phase amplitudes (R244, R245) -/

/-- The default table: round(32,768 × sin(i × π ÷ 512)). -/
def sineTable : List Nat :=
  [0, 201, 402, 603, 804, 1005, 1206, 1407, 1608, 1809, 2009, 2210, 2411, 2611, 2811, 3012,
   3212, 3412, 3612, 3812, 4011, 4211, 4410, 4609, 4808, 5007, 5205, 5404, 5602, 5800, 5998, 6195] ++
  [6393, 6590, 6787, 6983, 7180, 7376, 7571, 7767, 7962, 8157, 8351, 8546, 8740, 8933, 9127, 9319,
   9512, 9704, 9896, 10088, 10279, 10469, 10660, 10850, 11039, 11228, 11417, 11605, 11793, 11980, 12167, 12354] ++
  [12540, 12725, 12910, 13095, 13279, 13463, 13646, 13828, 14010, 14192, 14373, 14553, 14733, 14912, 15091, 15269,
   15447, 15624, 15800, 15976, 16151, 16326, 16500, 16673, 16846, 17018, 17190, 17361, 17531, 17700, 17869, 18037] ++
  [18205, 18372, 18538, 18703, 18868, 19032, 19195, 19358, 19520, 19681, 19841, 20001, 20160, 20318, 20475, 20632,
   20788, 20943, 21097, 21251, 21403, 21555, 21706, 21856, 22006, 22154, 22302, 22449, 22595, 22740, 22884, 23028] ++
  [23170, 23312, 23453, 23593, 23732, 23870, 24008, 24144, 24279, 24414, 24548, 24680, 24812, 24943, 25073, 25202,
   25330, 25457, 25583, 25708, 25833, 25956, 26078, 26199, 26320, 26439, 26557, 26674, 26791, 26906, 27020, 27133] ++
  [27246, 27357, 27467, 27576, 27684, 27791, 27897, 28002, 28106, 28209, 28311, 28411, 28511, 28610, 28707, 28803,
   28899, 28993, 29086, 29178, 29269, 29359, 29448, 29535, 29622, 29707, 29792, 29875, 29957, 30038, 30118, 30196] ++
  [30274, 30350, 30425, 30499, 30572, 30644, 30715, 30784, 30853, 30920, 30986, 31050, 31114, 31177, 31238, 31298,
   31357, 31415, 31471, 31527, 31581, 31634, 31686, 31737, 31786, 31834, 31881, 31927, 31972, 32015, 32058, 32099] ++
  [32138, 32177, 32214, 32251, 32286, 32319, 32352, 32383, 32413, 32442, 32470, 32496, 32522, 32546, 32568, 32590,
   32610, 32629, 32647, 32664, 32679, 32693, 32706, 32718, 32729, 32738, 32746, 32753, 32758, 32762, 32766, 32767]

/-- Entry `i` of the table in force; T(256) is fixed at 32,768 (R244). -/
def Drive.entry (d : Drive) (i : Nat) : Nat := if 256 ≤ i then 32768 else (d.table.getD sineTable).getD i 0

/-- The phase amplitudes at commanded position `p` (R244). -/
def Drive.amplitudes (d : Drive) (p : Int) : Int × Int :=
  let m := (p % 1024).toNat
  let q := m / 256
  let i := m % 256
  let up : Int := d.entry i
  let dn : Int := d.entry (256 - i)
  if q = 0 then (dn, up) else if q = 1 then (-up, dn) else if q = 2 then (-dn, -up) else (up, -dn)

/-- The current scale in force (R246, R251). -/
def Drive.scale (d : Drive) : Nat := if d.coil = .hold then d.csHold else d.csRun

/-- V_ref in units of V_fs ÷ 2^23: cs × |amplitude| (R246). -/
def Drive.vref (d : Drive) (amp : Int) : Nat := d.scale * amp.natAbs

/-- An on-time begins at `t` in the sense of the amplitude (R247). -/
def Phase.onTime (ph : Phase) (t : T64) : Phase :=
  { ph with bridge := if 0 < ph.amplitude then .drivePos else .driveNeg, chop := .blank, lastPos := decide (0 < ph.amplitude), since := t,
            worked := true }
/-- An off-time begins at `t`: fast decay, the drive state of the sense opposite to the last on-time, then BRAKE; `fast` is the
fast-decay fraction in % (R243, R247). -/
def Phase.offTime (ph : Phase) (fast : Nat) (t : T64) : Phase :=
  if fast = 0 then { ph with bridge := .brake, chop := .slow, since := t }
  else { ph with bridge := if ph.lastPos then .driveNeg else .drivePos, chop := if 100 ≤ fast then .allFast else .fast, since := t }
/-- An on-time is due at `t`; amplitude 0 has none, so an off-time follows (R248), and no forced off ends that cycle (R253). -/
def Phase.next (ph : Phase) (fast : Nat) (t : T64) : Phase :=
  if ph.amplitude = 0 then { ph with lowCycles := 0 }.offTime fast t else ph.onTime t
/-- Both lands go to 0: OPEN (R243). -/
def Phase.openLands (ph : Phase) : Phase := { ph with bridge := .opn, chop := .off, lowCycles := 0 }
/-- Both low sides on (R243). -/
def Phase.brakeLands (ph : Phase) : Phase := { ph with bridge := .brake, chop := .off, lowCycles := 0 }

/-- The coils go OFF: lands OPEN (R251). -/
def Drive.off (d : Drive) : Drive := { d with coil := .off, phA := d.phA.openLands, phB := d.phB.openLands }
/-- A phase takes an amplitude; the sense of the last one that was not 0 is kept (R248). -/
def Phase.withAmplitude (ph : Phase) (amp : Int) : Phase :=
  { ph with amplitude := amp, heading := if amp = 0 then ph.heading else decide (0 < amp) }

/-- The coils run at cs_run from the microstep in force (R251). -/
def Drive.energise (d : Drive) (p : Int) (t : T64) : Drive :=
  let (x, y) := d.amplitudes p
  { d with coil := .run, phA := (d.phA.withAmplitude x).next d.fast t, phB := (d.phB.withAmplitude y).next d.fast t }

/-- Coils of axis `a` off. -/
def Node.coilsOff (n : Node) (a : Nat) : Node := n.setDrv a (n.drv a).off
/-- Coils of axis `a` on at the commanded position. -/
def Node.coilsOn (n : Node) (a : Nat) : Node := n.setDrv a ((n.drv a).energise (n.axis a).pos n.now)

/-! ### Encoder conditions -/

/-- Disarm every latch and compare (R202). -/
def Enc.disarmAll (e : Enc) : Enc :=
  { e with latches := e.latches.mapE (fun _ l => { l with st := 0 }), compares := e.compares.mapE (fun _ c => { c with armed := false }) }

/-- Standstill: speed 0, SPEED_INVALID and STANDSTILL (R204). -/
def Enc.rest (e : Enc) : Enc := { e with speed := 0, speedInvalid := true, standstill := true, interval := 0, goodFrames := 0 }

/-- An SSI frame in progress is given up; the clock rests high (R199, R215). -/
def Enc.dropFrame (e : Enc) : Enc := { e with frame := none, clock := true }

/-- POSITION_LOST is set and logged with its cause (R201, R213, R215). -/
def Node.positionLost (n : Node) (i cause : Nat) : Node :=
  (n.updEnc i (fun e => { e with lost := true })).log Ev.positionLost i cause 0

end Sys2Proof.Machine
end

