-- ==== Sys2Proof/Machine/Plan.lean ====
section
/-! DEFINITION. The planner (R219 to R221): stopping distances, the trajectory of one 20 µs tick to a position or to a
velocity in exact rationals rounded once into the held formats of R216, segment curves (R228), and the state between
ticks; then what begins and ends moves: stops (R225), lost positions (R237), faults (R235) and new goals (R222, R224). The
spec gives the law of a tick and bounds its jerk; which jerk of −J … +J a tick takes is the model's (DEDUCED, log 24). -/

namespace Sys2Proof.Machine

/-- The tick τ in seconds (R219). -/
def tau : ℚ := 1 / 50000

/-- Limits of a move: V, A, D, J (R220), and the velocity of the frame it is planned in (R233; 0 for a plain move). -/
structure Lims where
  V : ℚ
  A : ℚ
  D : ℚ
  J : ℚ
  base : ℚ := 0

/-- Stopping distance from speed `u` with a = 0 (R220, the three rows). -/
def stopFlat (u D J : ℚ) : ℚ :=
  if D ≤ 0 then 0
  else if J = 0 then u * u / (2 * D)
  else if D * D ≤ u * J then u * u / (2 * D) + u * D / (2 * J)
  else u * ratSqrt (u / J)

/-- Stopping distance from speed `u` ≥ 0 and acceleration `a` along the motion (R220): a is first taken to 0 or to −D at
the jerk limit, and that segment's distance is added. -/
def stopDist (u a D J : ℚ) : ℚ :=
  if J = 0 ∨ a = 0 then stopFlat u D J
  else if 0 < a then
    let t := a / J
    (u * t + a * t * t / 2 - J * t * t * t / 6) + stopFlat (u + a * a / (2 * J)) D J
  else
    let b := -a
    if u * J * 2 < b * b then
      let t := b / J
      u * t - b * t * t / 2 + J * t * t * t / 6
    else if D < b then
      let t := (b - D) / J
      let u1 := u - b * t + J * t * t / 2
      let u2 := D * D / (2 * J)
      (u * t - b * t * t / 2 + J * t * t * t / 6) + (u1 * u1 - u2 * u2) / (2 * D) + D * D * D / (6 * J * J)
    else if u * J * 2 + b * b < 2 * D * D then
      let bp := ratSqrt (u * J + b * b / 2)
      let t := (bp - b) / J
      u * t - b * t * t / 2 - J * t * t * t / 6 + bp * bp * bp / (6 * J * J)
    else
      let t := (D - b) / J
      let u1 := u - b * t - J * t * t / 2
      let u2 := D * D / (2 * J)
      (u * t - b * t * t / 2 - J * t * t * t / 6) + (u1 * u1 - u2 * u2) / (2 * D) + D * D * D / (6 * J * J)

/-- A motion: position in microsteps, velocity, acceleration. -/
structure Mot where
  p : ℚ
  v : ℚ
  a : ℚ

/-- Integrate over `d` seconds with jerk `j` (R219). -/
def Mot.tick (m : Mot) (j d : ℚ) : Mot :=
  { p := m.p + m.v * d + m.a * d * d / 2 + j * d * d * d / 6, v := m.v + m.a * d + j * d * d / 2, a := m.a + j * d }

/-- The trajectory of one tick: the acceleration it starts with, its jerk, and the motion at its end. -/
structure Leg where
  a : ℚ
  j : ℚ
  fin : Mot

/-- A trajectory, `d` seconds after it began at motion `m`. -/
def Leg.after (g : Leg) (m : Mot) (d : ℚ) : Mot := { m with a := g.a }.tick g.j d

/-- Rounding of the held binary64 values: a velocity so near its goal at acceleration 0 is at its goal (log 24). -/
def residue : ℚ := 1 / 2 ^ 30
/-- The motion with the rounding of its velocity taken off, at acceleration 0. -/
def Mot.settle (m : Mot) (w : ℚ) : Mot := if |m.v - w| ≤ residue ∧ |m.a| ≤ 1024 * residue then { m with v := w, a := 0 } else m

/-- The trajectory over a span `d` with jerk `j`, which may end at velocity `w`. -/
def Mot.jerkLeg (m : Mot) (j w d : ℚ) : Leg := { a := m.a, j := j, fin := (m.tick j d).settle w }

/-- The least velocity change while an acceleration `b` is brought to 0 in whole ticks at jerk `J`, with the sign of b. -/
def fadeOut (b J : ℚ) : ℚ :=
  let c := |b|
  let k : ℚ := max 0 ((⌈c / (J * tau)⌉ - 1 : Int) : ℚ)
  let g := tau * (k * c - J * tau * k * k / 2 + (c - k * J * tau) / 2)
  if b < 0 then -g else g

def clampQ (x lo hi : ℚ) : ℚ := max lo (min hi x)

/-- The jerk of a span `d` that brings velocity `u` with acceleration `b` towards `y`; A bounds b above, D below. The
goal is met exactly in this span or this span and a tick where the jerk limit admits it; else the jerk is the largest
from which b can still fade out before the goal (DEDUCED, log 24). -/
def velJerk (u b y A D J d : ℚ) : ℚ :=
  let e := y - u
  let j1 := (e - b * (d + tau / 2)) / (d * (d + tau) / 2)
  let b1 := b + j1 * d
  let slack (j : ℚ) : ℚ := e - (b * d + j * d * d / 2) - fadeOut (b + j * d) J
  let up := clampQ ((A - b) / d) (-J) J
  let dn := clampQ ((-D - b) / d) (-J) J
  if |b| ≤ J * d ∧ |e - b * d / 2| ≤ residue then -b / d
  else if |j1| ≤ J ∧ |b1| ≤ J * tau ∧ -D ≤ b1 ∧ b1 ≤ A ∧ (if 0 ≤ e then 0 ≤ b1 else b1 ≤ 0) then j1
  else if fadeOut b J < e then
    if 0 ≤ slack up then up else if b < 0 then clampQ (-b / d) (-J) J else if b ≤ A ∧ 0 ≤ slack 0 then 0 else dn
  else if slack dn ≤ 0 then dn else if 0 < b then clampQ (-b / d) (-J) J else if -D ≤ b ∧ slack 0 ≤ 0 then 0 else up

/-- What bounds an acceleration in direction `s` and against it, at velocity `v`: A while the speed rises, D while it
falls; the speed is that of the axis, which a moving frame adds to (R220, R233). -/
def Lims.bounds (l : Lims) (s v : ℚ) : ℚ × ℚ := if 0 ≤ s * (v + l.base) then (l.A, l.D) else (l.D, l.A)

/-- The trajectory of a span `d` towards velocity `w` (R219 to R221); a goal of opposite sign is reached through a full
stop. With J = 0 the acceleration is set directly. -/
def Mot.toVel (m : Mot) (w : ℚ) (l : Lims) (d : ℚ) : Leg :=
  let w := if m.v * w < 0 then 0 else w
  let s : ℚ := if 0 < m.v ∨ (m.v = 0 ∧ 0 ≤ w) then 1 else -1
  let (A, D) := l.bounds s m.v
  if l.J = 0 then
    let e := s * (w - m.v)
    let dv := clampQ e (-(D * d)) (A * d)
    { a := s * dv / d, j := 0,
      fin := { p := m.p + (m.v + s * dv / 2) * d, v := m.v + s * dv, a := if dv = e then 0 else s * dv / d } }
  else m.jerkLeg (s * velJerk (s * m.v) (s * m.a) (s * w) A D l.J d) w d

/-- The move has come to its end: within one microstep of the target at v = 0 and a = 0 (R220). -/
def Mot.arrived (m : Mot) (t : ℚ) : Bool := decide (|t - m.p| < 1 ∧ m.v = 0 ∧ m.a = 0)
/-- The held position is placed on the target at the end of the move (R220). -/
def Leg.place (g : Leg) (t : ℚ) : Leg := if g.fin.arrived t then { g with fin := { p := t, v := 0, a := 0 } } else g

/-- The jerk that stops speed `u` with acceleration `b` in the span `d`, or in it and the tick that follows, within one
microstep of `sr`. -/
def stopJerk (u b sr D J d : ℚ) : Option ℚ :=
  let m : Mot := { p := 0, v := u, a := b }
  let j1 := (-u - b * (d + tau / 2)) / (d * (d + tau) / 2)
  let b1 := b + j1 * d
  if |b| ≤ J * d ∧ |u + b * d / 2| ≤ residue ∧ |sr - (m.tick (-b / d) d).p| < 1 then some (-b / d)
  else if |j1| ≤ J ∧ |b1| ≤ J * tau ∧ -D ≤ b1 ∧ b1 ≤ 0 ∧ |sr - ((m.tick j1 d).tick (-b1 / tau) tau).p| < 1 then some j1
  else none

/-- Halve the jerks between one that leaves room to stop and one that does not. -/
def bisect (fits : ℚ → Bool) : Nat → ℚ → ℚ → ℚ
  | 0, lo, _ => lo
  | k + 1, lo, hi => let m := (lo + hi) / 2; if fits m then bisect fits k m hi else bisect fits k lo m

/-- The trajectory of a span `d` towards position `t` (R220, R221): away from the target the axis first stops; towards it
the jerk is the largest, up to that which leads to V, after which the stopping distance is within the remaining one. -/
def Mot.toPos (m : Mot) (t : ℚ) (l : Lims) (d : ℚ) : Leg :=
  let s : ℚ := if m.p ≤ t then 1 else -1
  let u := m.v * s
  let b := m.a * s
  let sr := |t - m.p|
  let (A, D) := l.bounds s m.v
  let V := if l.base = 0 then l.V else max 0 (l.V - s * l.base)
  if m.arrived t then { a := 0, j := 0, fin := { p := t, v := 0, a := 0 } }
  else if u < 0 then m.toVel 0 l d
  else if l.J = 0 then
    let h := D * d / 2
    let room := sr - u * d / 2
    let best := if room ≤ 0 then 0 else ratSqrt (h * h + 2 * D * room) - h
    let u1 := min (min (u + A * d) V) best
    let u1 := max (max u1 (u - D * d)) 0
    let a := s * (u1 - u) / d
    ({ a := a, j := 0, fin := { p := m.p + s * (u + u1) / 2 * d, v := s * u1, a := if u1 = 0 then 0 else a } } : Leg).place t
  else
    let fits (j : ℚ) : Bool :=
      let q := ({ p := 0, v := u, a := b } : Mot).tick j d
      decide (if q.v < 0 then q.p ≤ sr else stopDist q.v q.a D l.J + q.p ≤ sr)
    let lo := velJerk u b 0 A D l.J d
    let hi := velJerk u b V A D l.J d
    let j := match stopJerk u b sr D l.J d with
      | some j => j
      | none => if fits hi then hi else if hi ≤ lo ∨ !fits lo then lo else bisect fits 16 lo hi
    (m.jerkLeg (s * j) 0 d).place t

/-- The motion an axis holds. -/
def Axis.mot (x : Axis) : Mot := { p := (x.p : ℚ) / (2 ^ 32 : Nat), v := ratOf x.v, a := ratOf x.a }
/-- Hold a motion: position with 32 fraction bits, velocity and acceleration in binary64 (R216). -/
def Axis.withMot (x : Axis) (m : Mot) : Axis := { x with p := ratRound (m.p * (2 ^ 32 : Nat)), v := ratTo m.v, a := ratTo m.a }

/-- The limits of the move in force; V has 8 fraction bits (R216, R220). -/
def Axis.lims (x : Axis) : Lims := { V := (x.lim.1 : ℚ) / 256, A := x.lim.2.1, D := x.lim.2.2.1, J := x.lim.2.2.2 }
/-- The default limits v_def, a_def, d_def, j_def (R217, R222). -/
def AxisCfg.defaults (c : AxisCfg) : Int × Nat × Nat × Nat := (c.vDef, c.aDef, c.dDef, c.jDef)

/-- Stopping distance of the axis with a deceleration and a jerk, in the direction of its motion (R220). -/
def Axis.stopping (x : Axis) (D J : ℚ) : ℚ :=
  let m := x.mot
  if 0 ≤ m.v then stopDist m.v m.a D J else stopDist (-m.v) (-m.a) D J
/-- Where the axis would stop, in microsteps (R224, R242). -/
def Axis.stopPoint (x : Axis) (D J : ℚ) : Int :=
  let m := x.mot
  ratRound (if 0 ≤ m.v then m.p + x.stopping D J else m.p - x.stopping D J)

/-! ### Segment curves (R226, R228) -/

/-- A velocity field with 8 fraction bits as a number (R216). -/
def vel (v : Int) : ℚ := (v : ℚ) / 256

/-- Point `i`: time, velocity, position; an unwritten point is zeros (R226, R227). -/
def Axis.point (x : Axis) (i : Nat) : Nat × Int × Int := x.seg.getD i (0, 0, 0)

/-- The interval of `k` and `k + 1`: its length h with `unit` per table unit, and its four values. -/
def Axis.span (x : Axis) (k : Nat) (unit : ℚ) : ℚ × ℚ × ℚ × ℚ × ℚ :=
  let p := x.point k
  let q := x.point (k + 1)
  ((((q.1 : Int) - (p.1 : Int) : Int) : ℚ) * unit, (p.2.2 : ℚ), vel p.2.1, (q.2.2 : ℚ), vel q.2.1)

/-- The cubic Hermite curve at `s`, with its velocity and acceleration (R228). -/
def hermite (h p0 v0 p1 v1 s : ℚ) : Mot :=
  { p := (2 * s * s * s - 3 * s * s + 1) * p0 + (s * s * s - 2 * s * s + s) * h * v0 + (-2 * s * s * s + 3 * s * s) * p1
      + (s * s * s - s * s) * h * v1,
    v := ((6 * s * s - 6 * s) * (p0 - p1) + (3 * s * s - 4 * s + 1) * h * v0 + (3 * s * s - 2 * s) * h * v1) / h,
    a := ((12 * s - 6) * (p0 - p1) + (6 * s - 4) * h * v0 + (6 * s - 2) * h * v1) / (h * h) }

/-- The last index k below the last point with t(k) ≤ `u`. -/
def Axis.segIndex (x : Axis) (u : ℚ) : Nat :=
  (List.range (x.segLen - 1)).foldl (fun b k => if ((x.point k).1 : ℚ) ≤ u then k else b) 0

/-- The table at `u` table units after its start. -/
def Axis.curveAt (x : Axis) (u unit : ℚ) : Nat × Mot :=
  let k := x.segIndex u
  let (h, p0, v0, p1, v1) := x.span k unit
  (k, hermite h p0 v0 p1 v1 ((u - ((x.point k).1 : ℚ)) * unit / h))

/-- The time of the last point. -/
def Axis.segEnd (x : Axis) : Nat := (x.point (x.segLen - 1)).1

/-- The table at instant `t`, as a motion of the axis, past its end at its last velocity (R228, R229). -/
def Axis.tableAt (x : Axis) (t : T64) : Mot :=
  let u : ℚ := (((t : Int) - (x.segStart.1 : Int) : Int) : ℚ) / 1000
  let last := x.point (x.segLen - 1)
  if (x.segEnd : ℚ) ≤ u then
    { p := (x.segStart.2 : ℚ) + (last.2.2 : ℚ) + vel last.2.1 * (u - (x.segEnd : ℚ)) / 1000000, v := vel last.2.1, a := 0 }
  else
    let c := (x.curveAt u (1 / 1000000)).2
    { c with p := (x.segStart.2 : ℚ) + c.p }

/-! ### Between ticks -/

/-- Nanoseconds from the held state to the tick that follows it (R219). -/
def Axis.tickSpan (x : Axis) : Nat := 20000 - x.at_ % 20000
/-- Nanoseconds of that span that have passed at `t`. -/
def Axis.elapsed (x : Axis) (t : T64) : Nat := min (t - x.at_) x.tickSpan
/-- Seconds of nanoseconds. -/
def nsec (d : Nat) : ℚ := (d : ℚ) / 1000000000

/-- The limits of the stop in progress (R225). -/
def Axis.stopLims (x : Axis) : Lims := { V := 0, A := x.stopLim.1, D := x.stopLim.1, J := x.stopLim.2 }
/-- The limits of a move with V as a magnitude. -/
def Axis.moveLims (x : Axis) : Lims := { x.lims with V := |x.lims.V| }
/-- The velocity goal within V (R222). -/
def Axis.velGoal (x : Axis) (w : Int) : ℚ := clampQ (vel w) (-x.moveLims.V) x.moveLims.V

/-- The trajectory that the planner chose from the held state to the next tick. -/
def Axis.leg (x : Axis) : Option Leg :=
  match x.st, x.goal with
  | .stopping, _ => some (x.mot.toVel 0 x.stopLims (nsec x.tickSpan))
  | .moving, .position t => some (x.mot.toPos (t : ℚ) x.moveLims (nsec x.tickSpan))
  | .moving, .velocity w => some (x.mot.toVel (x.velGoal w) x.moveLims (nsec x.tickSpan))
  | _, _ => none

/-- The motion of the axis at `t`, at most a tick after the held state: along its trajectory or its table; a geared axis
goes on at its last velocity until its tick (R219). -/
def Axis.motAt (x : Axis) (t : T64) : Mot :=
  let e := x.elapsed t
  if e = 0 then x.mot
  else match x.leg with
    | some g => if e = x.tickSpan then g.fin else g.after x.mot (nsec e)
    | none => if x.st = .segment ∧ x.segStart.1 ≤ t then x.tableAt t else x.mot.tick 0 (nsec e)

/-- The held state is taken at the present instant, along the trajectory in force (R222, R224). -/
def Node.settle (n : Node) (a : Nat) : Node :=
  n.updAxis a (fun x => if x.at_ < n.now then { x.withMot (x.motAt n.now) with at_ := n.now } else x)

/-! ### Position, stops and faults -/

/-- Set the held position to whole microsteps. -/
def Axis.place (x : Axis) (p : Int) : Axis := { x with p := p * 2 ^ 32 }

/-- The commanded position is lost (R237): taken from a valid encoder, else REFERENCED is cleared and AXIS_UNREFERENCED
logged. The cause of a stop in SEGMENT is not stated: parameter 1 is then a free value (log 12). -/
def Node.losePosition (n : Node) (a : Nat) (cause : Option Nat) : Node :=
  if n.encValid a then n.updAxis a (fun x => x.place ((n.encPos a).getD 0))
  else
    let n := n.updAxis a (fun x => { x with referenced := false })
    match cause with
    | some c => n.log Ev.axisUnreferenced a c 0
    | none => let (v, n) := n.free 2; n.log Ev.axisUnreferenced a v.toNat 0

/-- A table that has not ended is abandoned: SEGMENT_ABORTED (R238, R242). -/
def Node.abandonTable (n : Node) (a : Nat) : Node :=
  let n := n.settle a
  let x := n.axis a
  if x.st = .segment then
    (n.log Ev.segmentAborted a x.segAt (par x.pos)).updAxis a (fun x => { x with segAt := 0xFFFF })
  else n

/-- AXIS_STOP commands that wait are answered OK: the axis stands still (R225). -/
def Node.answerAxisStops (n : Node) (a : Nat) : Node :=
  let ws := (n.axis a).stopWaiters
  ws.foldl (fun n m => n.ok m []) (n.updAxis a (fun x => { x with stopWaiters := [] }))

/-- The axis stands: velocity and acceleration 0, no goal, nothing scheduled. -/
def Axis.still (x : Axis) : Axis :=
  { x with v := 0, a := 0, goal := .none, stopBy := .none, timed := [], overlay := none, atTarget := false }

/-- The axis enters DISABLED with its coils off (R238, R251). -/
def Node.disableAxis (n : Node) (a : Nat) : Node :=
  let n := (n.settle a).updAxis a (fun x => { x.still with st := .disabled, ferrTicks := 0 })
  (n.coilsOff a).answerAxisStops a

/-- A transient or permanent fault: coils off, the move abandoned, DISABLED (R235, R238). -/
def Node.faultAxis (n : Node) (a : Nat) : Node := (n.abandonTable a).disableAxis a

/-- A Motion island operation or a lost lock: DISABLED, and the position is lost (R237, R238). -/
def Node.loseAxis (n : Node) (a : Nat) (cause : Nat) : Node :=
  if (n.axis a).st = .disabled then n.coilsOff a
  else ((n.abandonTable a).losePosition a (some cause)).disableAxis a

/-- The axis begins to brake from its held state with a deceleration and a jerk (R225). A table or gear in progress is
left. -/
def Node.brakeAxis (n : Node) (a : Nat) (dec jerk : Nat) (by_ : StopBy) : Node :=
  let x := n.axis a
  if x.st = .disabled ∨ x.st = .standstill then n
  else
    let n := if x.st = .segment then (n.abandonTable a).losePosition a none else n
    n.updAxis a (fun x => { x with st := .stopping, stopBy := by_, stopLim := (dec, jerk), goal := .none, timed := [], overlay := none })

/-- The stop ramp of axis `a` from its held state: d_stop and j_stop (R225). -/
def Node.rampFrom (n : Node) (a : Nat) (by_ : StopBy) : Node :=
  n.brakeAxis a (n.axis a).cfg.dStop (n.axis a).cfg.jStop by_
/-- The quick stop from the held state: dmax and unlimited jerk (R225). -/
def Node.quickFrom (n : Node) (a : Nat) (by_ : StopBy) : Node := n.brakeAxis a (n.axis a).cfg.dmax 0 by_
/-- The stop ramp begins at the present instant. -/
def Node.rampStop (n : Node) (a : Nat) (by_ : StopBy) : Node := (n.settle a).rampFrom a by_
/-- The quick stop begins at the present instant. -/
def Node.quickStop (n : Node) (a : Nat) (by_ : StopBy) : Node := (n.settle a).quickFrom a by_

/-- Coils off at once (R225 ramp 2, R237): the axis stands where it is and has lost its position. -/
def Node.coilsOffStop (n : Node) (a : Nat) : Node :=
  let x := n.axis a
  if x.st = .disabled then n.coilsOff a
  else
    let n := (n.abandonTable a).losePosition a (some 0)
    let n := n.updAxis a (fun x => { x.still with st := .standstill, stood := n.now })
    (n.coilsOff a).answerAxisStops a

/-- A valid CHAN_START or a successful retry: coils on, STANDSTILL, the commanded position from a valid encoder (R218,
R235, R251). -/
def Node.standAxis (n : Node) (a : Nat) (idleFrom : Nat) : Node :=
  let enc := n.encValid a && (n.axis a).encOffsetSet
  let pos := (n.encPos a).getD 0
  let n := n.updAxis a (fun x =>
    let x := { x.still with st := .standstill, limit := false, ferrTicks := 0, stood := idleFrom }
    if enc then { x.place pos with referenced := true } else x)
  n.coilsOn a

/-! ### New goals -/

/-- A new target needs a reversal: behind p, or ahead with s_r < s_b (R224). -/
def Axis.mustReverse (x : Axis) (t : Int) (D J : ℚ) : Bool :=
  let m := x.mot
  if m.v = 0 then false
  else if 0 < m.v then decide ((t : ℚ) - m.p < x.stopping D J) else decide (m.p - (t : ℚ) < x.stopping D J)

/-- A new goal with new limits takes effect; REPLAN_REVERSE is logged where the axis must reverse (R222, R224). The
answer tells whether it was. -/
def Node.moveTo (n : Node) (a : Nat) (t : Int) (lim : Int × Nat × Nat × Nat) : Bool × Node :=
  let n := n.settle a
  let x := n.axis a
  let rev := x.mustReverse t lim.2.2.1 lim.2.2.2
  let n := n.updAxis a (fun x => { x with st := .moving, goal := .position t, lim := lim, stopBy := .none, timed := [],
                                          atTarget := false, limit := false, overlay := none })
  (rev, if rev then n.log Ev.replanReverse a (par t) (par (x.stopPoint lim.2.2.1 lim.2.2.2)) else n)

/-- A velocity goal takes effect (R222). -/
def Node.moveAt (n : Node) (a : Nat) (w : Int) (lim : Int × Nat × Nat × Nat) : Node :=
  (n.settle a).updAxis a (fun x => { x with st := .moving, goal := .velocity w, lim := lim, stopBy := .none, timed := [],
                                            atTarget := false, limit := false, overlay := none })

/-- The coils leave HOLD, COAST or SHORT as the axis leaves STANDSTILL; from COAST and SHORT the commanded position is
first taken from a valid encoder (R251). -/
def Node.leaveStandstill (n : Node) (a : Nat) : Node :=
  match (n.drv a).coil with
  | .hold => n.setDrv a { n.drv a with coil := .run }
  | .coast => (if n.encValid a then n.updAxis a (fun x => x.place ((n.encPos a).getD 0)) else n).coilsOn a
  | .short => (if n.encValid a then n.updAxis a (fun x => x.place ((n.encPos a).getD 0)) else n).coilsOn a
  | _ => n

/-- AXIS_MOVE mode 0 with DEFAULTS, as the recipe action, the lift manager and gates use it (R222, R360, R364). -/
def Node.defaultMove (n : Node) (a : Nat) (t : Int) : Node :=
  let n := if (n.axis a).st = .standstill then n.leaveStandstill a else n.abandonTable a
  (n.moveTo a t (n.axis a).cfg.defaults).2

end Sys2Proof.Machine
end

