-- ==== Sys2Proof/Machine/ZbOps.lean ====
section
/-! DEFINITION. Shared operations of the zone bus: states and their event (R310), the transmit FIFO (R316, R317), the
frame of the REMOTE transmit stalls of one identifier (R321) and the receive objects (R313). -/

namespace Sys2Proof.Machine

/-- States as coded by R310. -/
def ZbSt.code : ZbSt → Nat
  | .off => 0 | .integrating => 1 | .errorActive => 2 | .errorPassive => 3 | .busOff => 4 | .recovering => 5
  | .restricted => 6 | .loopback => 7 | .offline => 8

/-- Flags of ZB_CONFIG (R326). -/
def Zb.fdOn (z : Zb) : Bool := z.flags.getLsbD 0
def Zb.brsOn (z : Zb) : Bool := z.flags.getLsbD 1
def Zb.autoRecover (z : Zb) : Bool := z.flags.getLsbD 3
def Zb.refExpress (z : Zb) : Bool := z.flags.getLsbD 5
def Zb.unmatched (z : Zb) : Bool := z.flags.getLsbD 6

/-- Change the controller. -/
def Node.updZb (n : Node) (f : Zb → Zb) : Node := { n with zb := f n.zb }

/-- Enter a state and log ZB_STATE (R310, R330). -/
def Node.zbEnter (n : Node) (st : ZbSt) : Node :=
  let old := n.zb.st
  (n.updZb (fun z => { z with st := st })).log Ev.zbState st.code old.code (n.zb.tec % 65536 + 65536 * n.zb.recCnt)

/-- Enter a state that R310 does not log. -/
def Node.zbSet (n : Node) (st : ZbSt) : Node := n.updZb (fun z => { z with st := st })

/-- The event would be logged now: a token is there or none is needed (R405). -/
def Node.wouldLog (n : Node) (code : Nat) : Bool := exempt code || (n.rcd.takeToken (code / 256) n.now).isSome

/-- The data lengths of R306. -/
def fdLengths : List Nat := [0, 1, 2, 3, 4, 5, 6, 7, 8, 12, 16, 20, 24, 32, 48, 64]
/-- The smallest length that holds `k` bytes. -/
def fdLength (k : Nat) : Nat := (fdLengths.find? (fun l => decide (k ≤ l))).getD 64

/-- The REMOTE transmit stalls of an identifier that are RUNNING, HOLD or RETRYING (R321). -/
def Node.remoteTx (n : Node) (ident : Nat) : List Stall :=
  (n.stalls.map Prod.snd).filter (fun s => s.kd == K.remote && s.active && s.pf 12 1 == 1 && s.pf 8 4 == ident)

/-- Put `width` low bits of a value at bit `pos` of a number. -/
def putBits (acc v pos width : Nat) : Nat :=
  let old := (acc / 2 ^ pos) % 2 ^ width
  acc - old * 2 ^ pos + (v % 2 ^ width) * 2 ^ pos

/-- The frame of an identifier (R321): its data, with bits no field uses 0. -/
def remoteData (ss : List Stall) : List Byte :=
  let need := (ss.map (fun s => (s.pf 13 1 * 8 + s.pf 14 1 + 7) / 8)).foldl max 0
  let bits := ss.foldl (fun acc s => putBits acc s.value.toNat (s.pf 13 1 * 8) (s.pf 14 1)) 0
  leBytes (fdLength need) bits

/-- The message is a REMOTE frame of the identifier that has not started (R321). -/
def Zb.waiting (z : Zb) (ident : Nat) : Bool :=
  ((if z.started then z.fifo.drop 1 else z.fifo).any (fun m => m.src == .remote && m.ident == ident))

/-- Update the waiting frame of the identifier in place. -/
def Zb.updateWaiting (z : Zb) (ident : Nat) (data : List Byte) (fd brs : Bool) : Zb :=
  let f (m : ZbMsg) : ZbMsg := if m.src == .remote && m.ident == ident then { m with data := data, fd := fd, brs := brs } else m
  { z with fifo := if z.started then z.fifo.take 1 ++ (z.fifo.drop 1).map f else z.fifo.map f }

/-- Drop a frame for a full FIFO: ZB_TX_DROPPED with the drops since the last such event (R321, R330). -/
def Node.zbTxDropped (n : Node) (ident : Nat) : Node :=
  let c := min (n.zb.dropRuns.1 + 1) (2 ^ 32 - 1)
  let keep := !n.wouldLog Ev.zbTxDropped
  (n.updZb (fun z => { z with dropped := satInc 32 z.dropped, dropRuns := (if keep then c else 0, z.dropRuns.2) })).log
    Ev.zbTxDropped ident 0 c

/-- Place the frame of an identifier in the FIFO, or update it in place (R321). While every stall of it is held or has taken its safe
state, transmission is suspended (R96, R100). -/
def Node.zbPlace (n : Node) (ident : Nat) : Node :=
  let ss := n.remoteTx ident
  if ss.any Stall.valid then
    let data := remoteData ss
    let fd := decide (8 < data.length)
    let brs := fd && n.zb.brsOn
    if n.zb.waiting ident then n.updZb (fun z => z.updateWaiting ident data fd brs)
    else if 32 ≤ n.zb.fifo.length then n.zbTxDropped ident
    else
      let lim := ((ss.head?.map (fun s => s.pf 20 1)).getD 0xFF)
      n.updZb (fun z => { z with fifo := z.fifo ++ [{ ident := ident, fd := fd, brs := brs, data := data, limit := lim, src := .remote, at_ := n.now }] })
  else n

/-- The frame of an identifier that has not started leaves the FIFO, unless a valid stall of it remains (R100). -/
def Node.zbWithdraw (n : Node) (ident : Nat) : Node :=
  if (n.remoteTx ident).any Stall.valid then n
  else
    let stays (m : ZbMsg) : Bool := !(m.src == .remote && m.ident == ident)
    n.updZb (fun z => { z with fifo := if z.started then z.fifo.take 1 ++ (z.fifo.drop 1).filter stays else z.fifo.filter stays })

/-- Stalls that run the REMOTE transmit identifier, by number. -/
def Node.remoteTxStalls (n : Node) (ident : Nat) : List Nat :=
  (n.stalls.filter (fun e => e.2.kd == K.remote && e.2.active && e.2.pf 12 1 == 1 && e.2.pf 8 4 == ident)).map Prod.fst

/-- Identifiers of ZONE connections, each with a receive object reserved for it (R432). -/
def Safety.zbReserved (f : Safety) : List Nat :=
  match f.cfg with
  | some c => (c.consumed.filter (fun e => e.2.used && e.2.kind == 0)).map (fun e => e.2.zbId)
  | none => []

/-- A receive object is freed when no active REMOTE receive stall uses it (R313). -/
def Node.zbFreeObjects (n : Node) : Node :=
  let used (i : Nat) : Bool := n.stalls.any (fun e => e.2.kd == K.remote && e.2.active && e.2.pf 12 1 == 0 && e.2.pf 8 4 == i)
    || n.safe.zbReserved.contains i
  n.updZb (fun z => { z with objects := z.objects.filter (fun o => used o.1) })

/-- The value a REMOTE receive stall takes from a frame; none when the frame is too short (R320). -/
def Stall.remoteValue (s : Stall) (f : ZbFrame) : Option W64 :=
  let first := s.pf 13 1 * 8
  let width := s.pf 14 1
  if f.data.length * 8 < first + width then none
  else
    let v := (leNat f.data / 2 ^ first) % 2 ^ width
    if s.pf 15 1 = 1 then some (storeInt s.fm (toSigned width v)) else some (BitVec.ofNat 64 v)

end Sys2Proof.Machine
end

