-- ==== Sys2Proof/Machine/Writes.lean ====
section
/-! DEFINITION. How a value reaches a stall: the effect of a write on each kind
(R114, R144, R321), and the rule of engine writes by channel state (R94). -/

namespace Sys2Proof.Machine

/-- A write of `r` µs restarts a TIMER at `t`; 0 makes that instant a zero instant, where a periodic TIMER reloads its
preset and lays its grid (R92). -/
def Stall.setTimer (s : Stall) (r : Nat) (t : T64) : Stall :=
  let preset := s.pf 8 4
  if r = 0 then
    if s.pf 12 1 = 1 then { (s.takeAt (BitVec.ofNat 64 preset) t) with zeroAt := some (t + us preset), gridAt := t }
    else { s.takeAt 0 t with zeroAt := none }
  else { s.takeAt (BitVec.ofNat 64 r) t with zeroAt := some (t + us r), gridAt := t + us r }

/-- A stopped TIMER keeps its remaining µs (R92). -/
def Stall.freezeTimer (s : Stall) (now : T64) : Stall :=
  match s.zeroAt with
  | some z => { s.take (BitVec.ofNat 64 (remaining z now)) now with zeroAt := none }
  | none => s

/-- A written value takes effect on a RUNNING channel at `t` (R95, R114). -/
def Node.effect (n : Node) (k : Nat) (v : W64) (t : T64) : Node :=
  let s := n.stall k
  if s.kd = K.timer then n.putStall k (s.setTimer v.toNat t)
  else if s.kd = K.output ∨ s.kd = K.prot then (n.putStall k ({ s with commanded := v }.take v t)).driveStall k
  else if s.kd = K.remote then
    let n := n.putStall k (({ s with commanded := v }.take v t).setStatus St.invalid false)
    if s.pf 18 2 = 0 ∧ (s.value ≠ v ∨ !s.valid) then n.zbPlace (s.pf 8 4) else n
  else n.putStall k (s.take v t)

/-- A write this kind takes: in range, and not to a LOOP whose set-point is a stall (R144). -/
def Stall.takesWrite (s : Stall) (v : W64) : Bool := s.accepts v && !(s.kd == K.loop && s.pf 12 2 != noStall)

/-- A write from an engine or a timed host write (R94): effective in RUNNING, stored in HOLD, otherwise discarded with
WRITE_DROPPED. A value the kind does not accept is discarded the same way (R6, DEDUCED, log 23). -/
def Node.engineWrite (n : Node) (k : Nat) (v : W64) (t : T64) : Node :=
  let s := n.stall k
  if !s.takesWrite v then n.updStall k (fun s => s.setStatus St.writeDropped true)
  else match s.st with
  | .running => n.effect k v t
  | .hold =>
    n.updStall k (fun s =>
      if s.kd = K.counter ∨ s.kd = K.loop then { s with heldWrite := some v } else { s with commanded := v })
  | _ => n.updStall k (fun s => s.setStatus St.writeDropped true)

/-- The rest value of a loop: the value of [out_min, out_max] nearest to 0, as binary32 bits (R141). -/
def Stall.restValue (s : Stall) : Nat :=
  let lo := s.pf 24 4
  let hi := s.pf 28 4
  if b32.lt 0 lo then lo else if b32.lt hi 0 then hi else 0

/-- Write a binary32 number to a loop's sink at `t` (R140, R143). -/
def Node.writeSink (n : Node) (sink b : Nat) (t : T64) : Node := n.engineWrite sink ((n.stall sink).fromF32 b) t

/-- The loop writes its rest value to its sink (R141). -/
def Node.restSink (n : Node) (k : Nat) : Node := n.writeSink ((n.stall k).pf 10 2) (n.stall k).restValue n.now

/-- The engine state of loop `k` (R139). -/
def Node.loop (n : Node) (k : Nat) : Loop := n.loops.getD k {}
def Node.setLoop (n : Node) (k : Nat) (l : Loop) : Node := { n with loops := n.loops.put k l }

end Sys2Proof.Machine
end

