-- ==== Sys2Proof/Machine/LiftOps.lean ====
section
/-! DEFINITION. Shared operations of lifts and gates (16): the stalls they name, car position and stop point (R355, R360),
choice of stops (R359), commanding a target, halting, gate drives (R364), and requests to the safety channels (R427). -/

namespace Sys2Proof.Machine

def Node.lift (n : Node) (l : Nat) : Lift := n.lifts.getD l {}
def Node.setLift (n : Node) (l : Nat) (x : Lift) : Node := { n with lifts := n.lifts.put l x }
def Node.updLift (n : Node) (l : Nat) (f : Lift → Lift) : Node := n.setLift l (f (n.lift l))
def Node.gate (n : Node) (g : Nat) : Gate := n.gates.getD g {}
def Node.setGate (n : Node) (g : Nat) (x : Gate) : Node := { n with gates := n.gates.put g x }
def Node.updGate (n : Node) (g : Nat) (f : Gate → Gate) : Node := n.setGate g (f (n.gate g))

def LiftSt.code : LiftSt → Nat
  | .inactive => 0 | .unreferenced => 1 | .referencing => 2 | .idle => 3 | .departing => 4 | .travelling => 5
  | .arriving => 6 | .atLevel => 7 | .halted => 8 | .fault => 9
def GateSt.code : GateSt → Nat
  | .unknown => 0 | .closedLocked => 1 | .unlocking => 2 | .opening => 3 | .opened => 4 | .closing => 5
  | .reopening => 6 | .locking => 7 | .obstructed => 8 | .fault => 9

/-! ### The stalls of lifts and gates (R92) -/

/-- The LIFT stall of lift `l` that is active, else any LIFT stall of it. -/
def Node.liftStall (n : Node) (l : Nat) : Option Nat :=
  let is (e : Nat × Stall) : Bool := e.2.kd == K.lift && e.2.pf 8 1 == l
  match n.stalls.find? (fun e => is e && e.2.active) with
  | some e => some e.1
  | none => (n.stalls.find? is).map Prod.fst
/-- The GATE stall of gate `g` that is active, else any GATE stall of it. -/
def Node.gateStall (n : Node) (g : Nat) : Option Nat :=
  let is (e : Nat × Stall) : Bool := e.2.kd == K.gate && e.2.pf 8 1 == g
  match n.stalls.find? (fun e => is e && e.2.active) with
  | some e => some e.1
  | none => (n.stalls.find? is).map Prod.fst
/-- The entry of lift `l`'s stall; an unassigned entry without one. -/
def Node.liftEntry (n : Node) (l : Nat) : Stall := match n.liftStall l with | some k => n.stall k | none => {}
def Node.gateEntry (n : Node) (g : Nat) : Stall := match n.gateStall g with | some k => n.stall k | none => {}

/-- The active GATE stalls that name the LIFT stall of lift `l`, as (gate, level). -/
def Node.gatesOf (n : Node) (l : Nat) : List (Nat × Nat) :=
  match n.liftStall l with
  | some k => (n.stalls.filter (fun e => e.2.kd == K.gate && e.2.active && e.2.pf 18 2 == k)).map
      (fun e => (e.2.pf 8 1, e.2.pf 9 1))
  | none => []
/-- The gate that serves level `k` of lift `l`. -/
def Node.gateAt (n : Node) (l k : Nat) : Option Nat := ((n.gatesOf l).find? (fun p => p.2 == k)).map Prod.fst
/-- The lift a gate serves. -/
def Node.gateLift (n : Node) (g : Nat) : Nat := (n.stall ((n.gateEntry g).pf 18 2)).pf 8 1
def Node.levels (n : Node) (l : Nat) : Nat := (n.liftEntry l).pf 16 1
/-- The position of level `k`, 0.1 mm. -/
def Lift.level (x : Lift) (k : Nat) : Int := x.levelTable.getD k 0
/-- Flag `k` reads 1 and is valid (R356). -/
def Node.flagReads (n : Node) (l k : Nat) : Bool :=
  let s := n.stall ((n.liftEntry l).pf 14 2 + k)
  s.valid && s.value.getLsbD 0

/-- The interlock value (R367), 0 while it is not valid. -/
def Node.interlock (n : Node) (l : Nat) : Nat :=
  let s := n.stall ((n.liftEntry l).pf 18 2)
  if s.valid then s.value.toNat else 0
def Node.movePermit (n : Node) (l : Nat) : Bool := bit (n.interlock l) 0
def Node.unlockPermit (n : Node) (l k : Nat) : Bool := bit (n.interlock l) (16 + k)

/-! ### Requests to the safety channels (R427, R428) -/

/-- Firmware writes a request into both inbound mailboxes; each holds 32. -/
def Node.sfRequest (n : Node) (code target : Nat) : Node :=
  let s := (n.safe.reqSeq + 1) % 2 ^ 32
  let r : SfReq := { code := code, target := target, seq := s }
  let put (c : Channel) : Channel := if c.inbox.length < 32 then { c with inbox := c.inbox ++ [r] } else c
  { n with safe := { n.safe with reqSeq := s, chA := put n.safe.chA, chB := put n.safe.chB } }

/-- The LIFT_INTERLOCK instance of lift `l`: that of its interlock stall. -/
def Node.interlockInst (n : Node) (l : Nat) : Nat := (n.stall ((n.liftEntry l).pf 18 2)).pf 9 1
/-- The GUARD instance of a gate: the function of code 2 with its lift and level (R420, R421). -/
def Node.guardOf (n : Node) (g : Nat) : Option Nat :=
  match n.safe.cfg with
  | some c => (c.funcs.find? (fun e => e.2.code == 2 && e.2.lift == n.gateLift g && e.2.level == (n.gateEntry g).pf 9 1)).map Prod.fst
  | none => none
/-- Ask the safety channels for a gate's lock (R364): code 3 UNLOCK, 4 LOCK. -/
def Node.lockRequest (n : Node) (g code : Nat) : Node := match n.guardOf g with | some i => n.sfRequest code i | none => n

/-! ### Car position (R355, R360) -/

/-- Linear interpolation of samples, newest first, at `t`; the nearest sample outside their span (R355). -/
def interpolate : List (T64 × Int) → T64 → ℚ
  | [], _ => 0
  | [s], _ => (s.2 : ℚ) / (2 ^ 32 : Nat)
  | a :: b :: rest, t =>
    if a.1 ≤ t then (a.2 : ℚ) / (2 ^ 32 : Nat)
    else if b.1 ≤ t then
      ((b.2 : ℚ) + (((a.2 - b.2 : Int) : ℚ) * ((t - b.1 : Nat) : ℚ)) / ((a.1 - b.1 : Nat) : ℚ)) / (2 ^ 32 : Nat)
    else interpolate (b :: rest) t

/-- The binary32 scale of a lift as a number. -/
def f32Rat (b : BitVec 32) : ℚ := (b32.unpack b.toNat).toRat

/-- car_pos at `t` (R355). -/
def Lift.posAt (x : Lift) (t : T64) : Int := ratRound (f32Rat x.scale * interpolate x.samples t + (x.off : ℚ))

/-- The axis that drives the lift, if the drive is an AXIS (R371). -/
def Node.liftAxis (n : Node) (l : Nat) : Option Nat :=
  let d := (n.liftEntry l).pf 10 2
  if (n.stall d).kd = K.axis then some (n.resource d - 42) else none

/-- Stopping distance of the car in 0.1 mm (R360). -/
def Node.liftStopDist (n : Node) (l : Nat) : ℚ :=
  let x := n.lift l
  match n.liftAxis l with
  | some a =>
    let ax := n.axis a
    if f32Rat x.driveScale = 0 then 0
    else |ax.stopping ax.cfg.dDef ax.cfg.jDef / f32Rat x.driveScale|
  | none =>
    let v : ℚ := ((x.posAt n.now - x.posAt (n.now - ms 10) : Int) : ℚ) * 10
    if f32Rat x.decel = 0 then 0 else v * v / (2 * f32Rat x.decel) * 10

/-- The stop point of the car (R360). -/
def Node.stopAt (n : Node) (l : Nat) : ℚ :=
  let x := n.lift l
  if x.dir = 1 then (x.carPos : ℚ) + n.liftStopDist l else if x.dir = 2 then (x.carPos : ℚ) - n.liftStopDist l else x.carPos

/-- The source's present value joins the samples of the last 100 ms (R355); one that stands unchanged is taken as of now. -/
def Node.sampleLift (n : Node) (l : Nat) : Node :=
  let src := n.stall ((n.liftEntry l).pf 12 2)
  n.updLift l (fun x =>
    let stamp := if (x.samples.head?.map Prod.snd) = some src.fixed then n.now else src.stamp
    if src.valid && x.samples.all (fun s => decide (s.1 ≤ stamp)) then { x with samples := keepSamples x.samples stamp src.fixed } else x)

/-- Command position `L` (0.1 mm) of the car (R360), from car_pos and the commanded position of the same instant. A write to a REMOTE
drive waits for the Sequencer (R370). -/
def Node.driveCar (n : Node) (l : Nat) (L : Int) : Node :=
  let n := n.sampleLift l
  let x := n.lift l
  match n.liftAxis l with
  | some a =>
    let n := n.settle a
    n.defaultMove a ((n.axis a).pos + ratRound (((L - x.posAt n.now : Int) : ℚ) * f32Rat x.driveScale))
  | none =>
    if !n.runs Isl.seq then n.updLift l (fun x => { x with writeDue := some L }) else
    let d := (n.liftEntry l).pf 10 2
    let s := n.stall d
    let q := ((L - x.off : Int) : ℚ) * f32Rat x.driveScale
    let b := b32.pack ((Fl.ofInt q.num 0 false).div (Fl.ofInt (q.den : Int) 0 false))
    let v := if s.fm = F.f32 then BitVec.ofNat 64 b else storeInt s.fm (clampI s.range.1 s.range.2 (ratRound q))
    n.engineWrite d v n.now

/-- Stop the drive of the car with the stop ramp; a REMOTE drive is sent to the stop point (R363; DEDUCED, log 25). -/
def Node.stopCar (n : Node) (l : Nat) : Node :=
  match n.liftAxis l with
  | some a => n.rampStop a .command
  | none => n.driveCar l (ratRound (n.stopAt l))

/-! ### Stops (R359) -/

/-- The levels with a call. -/
def Lift.called (x : Lift) : List Nat := (List.range 16).filter (fun k => x.calls.getLsbD k)
/-- The level whose position is nearest to `p`; the first of the list wins a tie. -/
def nearestLevel (x : Lift) (p : Int) : List Nat → Option Nat
  | [] => none
  | k :: t =>
    match nearestLevel x p t with
    | some j => if (x.level j - p).natAbs < (x.level k - p).natAbs then some j else some k
    | none => some k
/-- Levels at or beyond the stop point in a direction (1 up, 2 down). -/
def Node.beyond (n : Node) (l dir : Nat) (ks : List Nat) : List Nat :=
  let x := n.lift l
  let p := n.stopAt l
  if dir = 1 then ks.filter (fun k => decide (p ≤ (x.level k : ℚ))) else (ks.filter (fun k => decide ((x.level k : ℚ) ≤ p))).reverse
/-- The level within stop_tol of the car (R375). -/
def Node.atLevel (n : Node) (l : Nat) : Option Nat :=
  let x := n.lift l
  (List.range (n.levels l)).find? (fun k => decide ((x.carPos - x.level k).natAbs ≤ x.stopTol))

/-- The car leaves for level `k`: target and direction are set and the drive commanded (R360, R363). -/
def Node.travelTo (n : Node) (l k : Nat) : Node :=
  let x := n.lift l
  let up := decide (x.carPos < x.level k)
  let dir := if x.level k = x.carPos then x.dir else if up then 1 else 2
  let n := n.updLift l (fun x => { x with st := .travelling, target := k, dir := dir, lastDir := if dir = 0 then x.lastDir else dir,
                                          nearFrom := none })
  n.driveCar l (x.level k)

/-- The position source still gives a valid position after a halt (R363). -/
def Node.liftPosValid (n : Node) (l : Nat) : Bool :=
  let k := (n.liftEntry l).pf 12 2
  let s := n.stall k
  s.valid && !(s.kd == K.position && (n.enc (n.resource k - 40)).lost)
    && !(s.kd == K.axis && k == (n.liftEntry l).pf 10 2 && (n.encOf (n.resource k - 42)).isNone && (n.lift l).torqueCut)

/-- The value of a GATE stall is the gate state (R364); it is not written while the Sequencer is down (R370). -/
def Node.showGate (n : Node) (g : Nat) : Node :=
  match n.gateStall g with
  | some k => if n.runs Isl.seq then n.updStall k (fun s => s.take (BitVec.ofNat 64 (n.gate g).st.code) n.now) else n
  | none => n
/-- Gate `g` enters a state, shown in its stall. -/
def Node.gateEnter (n : Node) (g : Nat) (st : GateSt) : Node := (n.updGate g (fun x => { x with st := st, stepAt := n.now })).showGate g

/-- Set a gate's drive to open or to close (R364); a write to a stall other than an AXIS waits for the Sequencer (R370). -/
def Node.driveGate (n : Node) (g : Nat) (opening : Bool) : Node :=
  let d := (n.gateEntry g).pf 10 2
  if (n.stall d).kd = K.axis then n.defaultMove (n.resource d - 42) (if opening then (n.gate g).openPos else (n.gate g).closedPos)
  else if n.runs Isl.seq then n.engineWrite d (if opening then 1 else 0) n.now
  else n.updGate g (fun y => { y with writeDue := some opening })

/-- The Sequencer is back in RUN: what waited for it is written, and the gates' states are shown (R370). -/
def Node.drivesAgain (n : Node) : Node :=
  let n := [0, 1, 2, 3].foldl (fun n l => match (n.lift l).writeDue with
    | some L => (n.updLift l (fun x => { x with writeDue := none })).driveCar l L
    | none => n) n
  n.gates.keys.foldl (fun n g =>
    let n := match (n.gate g).writeDue with
      | some o => (n.updGate g (fun y => { y with writeDue := none })).driveGate g o
      | none => n
    if (n.gateEntry g).active then n.showGate g else n) n

/-- The gate's drive stops where it stands: an AXIS with a quick stop, another drive keeps what it has (R365, R366). -/
def Node.haltGate (n : Node) (g : Nat) : Node :=
  let d := (n.gateEntry g).pf 10 2
  if (n.stall d).kd = K.axis then n.quickStop (n.resource d - 42) .command else n

/-- An input stall of a gate reads 1 and is valid. -/
def Node.reads1 (n : Node) (k : Nat) : Bool := (n.stall k).valid && (n.stall k).value.getLsbD 0
/-- An input stall of a gate reads 0 and is valid. -/
def Node.reads0 (n : Node) (k : Nat) : Bool := (n.stall k).valid && !(n.stall k).value.getLsbD 0
def Node.gateOff (n : Node) (g : Nat) : Bool := n.reads0 ((n.gateEntry g).pf 12 2)
def Node.gateFree (n : Node) (g : Nat) : Bool := n.reads0 ((n.gateEntry g).pf 14 2)
def Node.gateClosed (n : Node) (g : Nat) : Bool := n.reads1 ((n.gateEntry g).pf 12 2)
def Node.gateLocked (n : Node) (g : Nat) : Bool := n.reads1 ((n.gateEntry g).pf 14 2)

/-- The lift of a gate is AT_LEVEL or IDLE at the gate's level (R367, R374). -/
def Node.carAtGate (n : Node) (g : Nat) : Bool :=
  let l := n.gateLift g
  ((n.lift l).st == .idle || (n.lift l).st == .atLevel) && n.atLevel l == some ((n.gateEntry g).pf 9 1)

/-- Open a closed and locked gate: it needs UNLOCK_PERMIT for its level, the car there and the gate not held (R365, R367, R369);
until then the request waits. -/
def Node.openGate (n : Node) (g : Nat) : Node :=
  if (n.gate g).st = .closedLocked ∧ !(n.gate g).held ∧ n.carAtGate g ∧ n.unlockPermit (n.gateLift g) ((n.gateEntry g).pf 9 1) then
    ((n.updGate g (fun x => { x with openDue := false })).gateEnter g .unlocking).lockRequest g 3
  else n.updGate g (fun x => { x with openDue := (n.gate g).st = .closedLocked })

/-- Close an open gate (R365): the attempt counts; a held gate starts no step. -/
def Node.closeGate (n : Node) (g : Nat) : Node :=
  if (n.gate g).st = .opened then
    if (n.gate g).held then n.updGate g (fun x => { x with closeDue := true })
    else
      ((n.updGate g (fun x => { x with attempts := x.attempts + 1, closeDue := false, ferrRun := 0, currentRun := 0 })).gateEnter
        g .closing).driveGate g false
  else n

/-- Every gate of the lift is CLOSED_LOCKED (R363). -/
def Node.gatesShut (n : Node) (l : Nat) : Bool := (n.gatesOf l).all (fun p => (n.gate p.1).st == .closedLocked)

/-- DEPARTING ends when every gate is CLOSED_LOCKED and MOVE_PERMIT is set: torque is asked for and the car travels to its
target, or references first (R361, R363, R423). -/
def Node.depart (n : Node) (l : Nat) : Node :=
  let x := n.lift l
  if x.st = .departing ∧ n.gatesShut l ∧ n.movePermit l then
    let n := n.sfRequest 1 (n.interlockInst l)
    if x.refPending then
      let n := n.updLift l (fun x => { x with st := .referencing, torqueOn := true, dir := if x.refUp then 1 else 2,
                                              lastDir := if x.refUp then 1 else 2, refStart := x.carPos })
      match n.liftAxis l with
      | some a =>
        let w := ratRound ((x.vRef : ℚ) * 10 * f32Rat x.driveScale * 256)
        let n := if (n.axis a).st = .standstill then n.leaveStandstill a else n
        n.moveAt a (if x.refUp then w else -w) (n.axis a).cfg.defaults
      | none => n.driveCar l (if x.refUp then x.carPos + x.refTravel else x.carPos - x.refTravel)
    else (n.updLift l (fun x => { x with torqueOn := true })).travelTo l x.target
  else n

/-- Leave for level `k`: every gate not CLOSED_LOCKED and not held open is asked to close (R363). -/
def Node.departTo (n : Node) (l k : Nat) (noGate : Bool) : Node :=
  let n := n.updLift l (fun x => { x with st := .departing, target := k, noGate := noGate, arrivalTried := false,
                                          refPending := x.refPending || !x.referenced })
  let n := (n.gatesOf l).foldl (fun n p => if (n.gate p.1).heldOpen then n else n.closeGate p.1) n
  n.depart l

/-- A served level is left behind (R359): the direction is kept while calls lie ahead, else it reverses, else IDLE. -/
def Node.nextStop (n : Node) (l : Nat) : Node :=
  let x := n.lift l
  let ks := x.called
  let up := ks.filter (fun k => decide (x.carPos ≤ x.level k))
  let dn := ks.filter (fun k => decide (x.level k ≤ x.carPos))
  let pick (o : List Nat) := nearestLevel x x.carPos o
  let go := match (if x.lastDir = 2 then pick dn else pick up) with
    | some k => some k
    | none => if x.lastDir = 2 then pick up else pick dn
  match go with
  | some k => n.departTo l k false
  | none => n.updLift l (fun x => { x with st := .idle, dir := 0, target := 0xFF, idleFrom := n.now })

/-- AT_LEVEL ends once the gate is shut or there is none (R363). -/
def Node.leaveLevel (n : Node) (l : Nat) : Node :=
  let x := n.lift l
  if x.st = .atLevel then
    match n.gateAt l x.target with
    | some g => if (n.gate g).st = .closedLocked ∧ !(n.gate g).openDue then n.nextStop l else n
    | none => n.nextStop l
  else n

/-- The car is at level `k`: its call is cleared and its gate asked to open (R358, R361, R363). -/
def Node.serveLevel (n : Node) (l k : Nat) : Node :=
  let noGate := (n.lift l).noGate
  let n := n.updLift l (fun x => { x with st := .atLevel, target := k, dir := 0, calls := x.calls &&& ~~~(1#16 <<< k),
                                          noGate := false, arrivalTried := false })
  match n.gateAt l k with
  | some g => if noGate then n.leaveLevel l else n.openGate g
  | none => n.leaveLevel l

/-- A lift with calls starts to serve them (R359, R363): from UNREFERENCED and IDLE. -/
def Node.serveCalls (n : Node) (l : Nat) : Node :=
  let x := n.lift l
  if x.st = .unreferenced then
    match nearestLevel x x.carPos x.called with
    | some k => n.departTo l k false
    | none => n
  else if x.st = .idle then
    match n.atLevel l with
    | some k => if x.calls.getLsbD k then n.serveLevel l k else
        match nearestLevel x x.carPos x.called with | some j => n.departTo l j false | none => n
    | none => match nearestLevel x x.carPos x.called with | some j => n.departTo l j false | none => n
  else n

/-- DEMAND or a hold stops the lift: HALTED, with LIFT_HALTED (R363, R367, R369); DEMAND also removes the torque. -/
def Node.haltLift (n : Node) (l cause : Nat) : Node :=
  let x := n.lift l
  if x.st = .halted then n.updLift l (fun x => { x with torqueCut := x.torqueCut || cause == 0 })
  else if x.st = .inactive ∨ x.st = .fault then n
  else
    let n := n.stopCar l
    (n.updLift l (fun x => { x with st := .halted, dir := 0, torqueCut := cause == 0 })).log Ev.liftHalted l cause (par x.carPos)

/-- HALTED ends when DEMAND is clear and the stall RUNNING (R363). -/
def Node.unhaltLift (n : Node) (l : Nat) : Node :=
  let x := n.lift l
  if x.st = .halted ∧ !x.demand ∧ (n.liftEntry l).st = .running then
    if n.liftPosValid l then
      let near := (List.range (n.levels l)).filter (fun k => if x.lastDir = 2 then decide (x.level k ≤ x.carPos) else decide (x.carPos ≤ x.level k))
      match n.atLevel l with
      | some k => n.departTo l (match nearestLevel x x.carPos x.called with | some j => j | none => k) (x.calls == 0)
      | none =>
        match nearestLevel x x.carPos near with
        | some k => (n.updLift l (fun x => { x with calls := x.calls ||| (1#16 <<< k) })).departTo l k false
        | none => n.departTo l ((nearestLevel x x.carPos (List.range (n.levels l))).getD 0) false
    else n.updLift l (fun x => { x with st := .unreferenced, referenced := false, idleFrom := n.now })
  else n

/-- The lift goes INACTIVE and forgets its calls (R363). -/
def Node.liftOff (n : Node) (l : Nat) : Node :=
  n.updLift l (fun x => { x with st := .inactive, calls := 0, dir := 0, target := 0xFF, refPending := false, noGate := false,
                                 arrivalTried := false })

/-- A valid CHAN_START of a LIFT stall (R363): a flag that reads 1 gives the reference. -/
def Node.liftStart (n : Node) (l : Nat) : Node :=
  let e := n.liftEntry l
  let src := n.stall (e.pf 12 2)
  let n := n.updLift l (fun x => { x with outOfService := 0, calls := 0, samples := keepSamples [] src.stamp src.fixed, flagSeen := 0,
                                          demand := bit (n.interlock l) 1 })
  match (List.range (n.levels l)).find? (fun k => n.flagReads l k) with
  | some k =>
    let x := n.lift l
    let d : Int := x.level k - x.posAt n.now
    let n := n.updLift l (fun x => { x with st := .idle, off := x.off + d, carPos := x.level k, referenced := true, refPending := false,
                                            lastRef := n.now, correction := -d, idleFrom := n.now, dir := 0, target := 0xFF })
    n.log Ev.liftReferenced l k (par (-d))
  | none => n.updLift l (fun x => { x with st := .unreferenced, referenced := false, dir := 0, target := 0xFF, idleFrom := n.now })

/-- A valid CHAN_START of a GATE stall (R365). -/
def Node.gateStart (n : Node) (g : Nat) : Node :=
  let n := n.updGate g (fun x => { x with attempts := 0, heldOpen := false, held := false, openDue := false, closeDue := false })
  n.gateEnter g (if n.gateClosed g && n.gateLocked g then .closedLocked else .opened)

end Sys2Proof.Machine
end

