-- ==== Sys2Proof/Machine/LoopOps.lean ====
section
/-! DEFINITION. The PI law (R139, R140), its initialisation (R149) and the integrator's constants. -/

namespace Sys2Proof.Machine

/-- kiT = (ki × period) ÷ 1,000,000, two rounded operations (R139). -/
def Stall.kiT (s : Stall) : Nat := b32.div (b32.mul (s.pf 20 4) (b32.ofInt (s.pf 14 2 : Nat))) (b32.ofInt 1000000)

/-- clamp(x, a, b) on binary32 (R140). -/
def clampF (x a b : Nat) : Nat := if b32.lt x a then a else if b32.lt b x then b else x

/-- Stall `k`'s value read as binary32 (R143). -/
def Node.readF (n : Node) (k : Nat) : Nat := toF32 (n.view k).fm (n.view k).value

/-- The stall the set-point of loop `k` comes from: the loop itself with 0xFFFF (R144). -/
def Stall.setpointOf (s : Stall) (k : Nat) : Nat := if s.pf 12 2 = noStall then k else s.pf 12 2

/-- One update from the integrator `i`: the new integrator and the output; none when e, v or I' is not finite (R140). -/
def piUpdate (s : Stall) (kiT sp pv i : Nat) : Option (Nat × Nat) :=
  let lo := s.pf 24 4
  let hi := s.pf 28 4
  let e := b32.sub sp pv
  let p := b32.mul (s.pf 16 4) e
  let f := b32.mul (s.pf 32 4) sp
  let i1 := b32.add i (b32.mul kiT e)
  let v := b32.add (b32.add p i1) f
  let wind := (b32.lt hi v && b32.lt 0 e) || (b32.lt v lo && b32.lt e 0)
  let i2 := if wind then i else i1
  let w := if wind then b32.add (b32.add p i) f else v
  if b32.finite e && b32.finite w && b32.finite i2 then some (clampF i2 lo hi, clampF w lo hi) else none

/-- The initialisation from the sink's value `y0`; none when e, y0 − p − f or u is not finite (R149). -/
def piInit (s : Stall) (sp pv y0 : Nat) : Option (Nat × Nat) :=
  let lo := s.pf 24 4
  let hi := s.pf 28 4
  let e := b32.sub sp pv
  let p := b32.mul (s.pf 16 4) e
  let f := b32.mul (s.pf 32 4) sp
  let w := b32.sub (b32.sub y0 p) f
  let i := clampF w lo hi
  let u := clampF (b32.add (b32.add p i) f) lo hi
  if b32.finite e && b32.finite w && b32.finite u then some (i, u) else none

/-- What an update of loop `k` computes now, with the set-point read (R140, R149). -/
def Node.loopCompute (n : Node) (k : Nat) (fresh : Bool) : Nat × Option (Nat × Nat) :=
  let s := n.stall k
  let sink := n.stall (s.pf 10 2)
  let sp := n.readF (s.setpointOf k)
  let pv := n.readF (s.pf 8 2)
  let y0 := if sink.valid then n.readF (s.pf 10 2) else s.restValue
  (sp, if fresh then piInit s sp pv y0 else piUpdate s (n.loop k).kiT.toNat sp pv (n.loop k).integ.toNat)

/-- A finite update is taken: integrator, set-point copy and sink (R140, R144, R145). -/
def Node.loopTake (n : Node) (k : Nat) (t : T64) (sp i u : Nat) : Node :=
  let s := n.stall k
  let n := if s.pf 12 2 = noStall then n else n.updStall k (fun s => s.take (BitVec.ofNat 64 sp) t)
  let n := n.setLoop k { n.loop k with integ := BitVec.ofNat 32 i, fresh := false, last := t }
  n.writeSink (s.pf 10 2) u t

/-- Loops go on at their next instant; no update missed while the engine stood still or line time was stepped is made up or logged (R152,
R299). -/
def Node.skipUpdates (n : Node) : Node := { n with loops := n.loops.mapE (fun _ l => { l with last := max l.last n.now }) }

end Sys2Proof.Machine
end

