-- ==== Sys2Proof/Machine/Channels.lean ====
section
/-! DEFINITION. The channel states of R95 as shared operations: holds (R96), transient and permanent faults (R100, R101),
the swap onto a spare (R102), starting, retrying and stopping a channel. -/

namespace Sys2Proof.Machine

/-! ### Hold causes (R96) -/

/-- Stalls whose state LOOP, COUNTER, LIFT or GATE `s` depends on (R150, R92, R369). -/
def Node.boundTo (n : Node) (s : Stall) : List Nat :=
  if s.kd = K.loop then [s.pf 8 2, s.pf 10 2] ++ (if s.pf 12 2 = noStall then [] else [s.pf 12 2])
  else if s.kd = K.counter then [s.pf 8 2]
  else if s.kd = K.lift then
    [s.pf 10 2, s.pf 12 2, s.pf 18 2] ++ (List.range (s.pf 16 1)).map (fun i => s.pf 14 2 + i)
      ++ (match n.liftStall (s.pf 8 1) with
          | some k => (n.stalls.filter (fun e => e.2.kd == K.gate && e.2.pf 18 2 == k)).map Prod.fst
          | none => [])
  else if s.kd = K.gate then
    [s.pf 10 2, s.pf 12 2, s.pf 14 2, s.pf 18 2] ++ (if s.pf 16 2 = noStall then [] else [s.pf 16 2])
  else []

/-- A bound stall is in a state that holds the channel: not RUNNING; for a LIFT, neither RUNNING nor FALLOW (R369). -/
def Node.boundDown (n : Node) (k : Nat) : Bool :=
  let s := n.stall k
  (n.boundTo s).any (fun j =>
    let t := (n.stall j).st
    if s.kd = K.lift then t != .running && t != .fallow else t != .running)

/-- An island operation or a lost lock keeps the island from running; sleep and the wake from it do not count (R96, R445). -/
def Node.islandDown (n : Node) (i : Nat) : Bool := !(n.runs i) && !n.slept i

/-- The supply cause of INPUT `k` lasts on after t4 of R172: until its filter time has passed after t6 (R96). -/
def Node.inputRestores (n : Node) (k : Nat) : Bool :=
  let s := n.stall k
  n.fio.supply == .restoring
    || ((n.inPin (n.resource k)).settling && (s.holds.contains .supply || decide (n.now < n.fio.clearedAt + ms 5 + us (10 * s.pf 10 2))))

/-- Cause `c` lasts for stall `k` (R96). -/
def Node.causeLasts (n : Node) (k : Nat) (c : HoldCause) : Bool :=
  let s := n.stall k
  let out := s.kd = K.output || s.kd = K.prot
  let r := n.resource k
  match c with
  | .watchdog => out && n.fio.wdSt == .expired
  | .supply => (out || s.kd = K.input) && (n.latchedOff || (s.kd = K.input && n.inputRestores k))
  | .ioIsland =>
    (n.islandDown Isl.io && (out || s.kd = K.input || s.kd = K.analog || (s.kd = K.internal && decide (r < 54))))
      || (s.kd = K.input && (n.inPin r).settling && s.holds.contains .ioIsland)
  | .motionIsland => n.islandDown Isl.motion && (s.kd = K.position || s.kd = K.axis || (s.kd = K.internal && decide (54 ≤ r)))
  | .zoneBus => s.kd = K.remote && (n.islandDown Isl.zb || n.zb.st == .busOff || n.zb.st == .recovering)
  | .lineIsland => s.kd = K.linepoint && n.islandDown Isl.line
  | .bound => n.boundDown k

def HoldCause.all : List HoldCause := [.watchdog, .supply, .ioIsland, .motionIsland, .zoneBus, .lineIsland, .bound]

/-- A loop in HOLD writes its rest value, once in each HOLD (R150). -/
def Node.restNow (n : Node) (k : Nat) : Node := (n.restSink k).setLoop k { n.loop k with restDue := false, rested := true }
/-- Stall `j` has reached RUNNING: a loop in HOLD that still owes it a rest value writes it (R150). -/
def Node.sinkRuns (n : Node) (j : Nat) : Node :=
  (n.stalls.filter (fun e => e.2.kd == K.loop && e.2.st == .hold && e.2.pf 10 2 == j && (n.loop e.1).restDue)).foldl (fun n e => n.restNow e.1) n

/-- The hold action of a cause (R96, R150, R369). -/
def Node.holdAction (n : Node) (k : Nat) : Node :=
  let s := n.stall k
  if s.kd = K.output ∨ s.kd = K.prot then n.driveStall k
  else if s.kd = K.lift then n.haltLift (s.pf 8 1) 1
  else if s.kd = K.gate then n.updGate (s.pf 8 1) (fun x => { x with held := true })
  else if s.kd = K.loop then
    let srcGone := (n.stall (s.pf 8 2)).st == .fallow || (s.pf 12 2 != noStall && (n.stall (s.pf 12 2)).st == .fallow)
    if srcGone && !(n.loop k).rested then
      (match (n.stall (s.pf 10 2)).st with
       | .running => n.restNow k
       | .fallow => n
       | _ => n.setLoop k { n.loop k with restDue := true })
    else n
  else if s.kd = K.counter then n.updStall k (fun s => { s with counterRef := none })
  else n

/-- A hold cause begins (R96): RUNNING goes to HOLD, RETRYING only tracks the cause. A loop in HOLD whose source has now gone FALLOW takes
the action of that row (R150). -/
def Node.beginHold (n : Node) (k : Nat) (c : HoldCause) : Node :=
  let s := n.stall k
  if s.holds.contains c ∨ !s.active then (if s.kd = K.loop ∧ s.st = .hold then n.holdAction k else n)
  else
    let s' := { s with holds := c :: s.holds }
    if s.st = .running then (n.putStall k ((s'.enter .hold).setStatus St.stopping s.stopping)).holdAction k
    else if s.st = .hold then (n.putStall k s').holdAction k
    else n.putStall k s'

/-- What a channel does on its return to RUNNING: the commanded value is applied (R94, R95, R149); a position that has moved since its last
stall write is valid with the next (R203). -/
def Node.resumed (n : Node) (k : Nat) : Node :=
  let s := n.stall k
  if s.kd = K.output ∨ s.kd = K.prot then (n.putStall k (s.take s.commanded n.now)).driveStall k
  else if s.kd = K.remote ∧ s.pf 12 1 = 1 then n.effect k s.commanded n.now
  else if s.kd = K.loop then
    let n := n.setLoop k { n.loop k with fresh := true, restDue := false, rested := false, last := max (n.loop k).last n.now }
    match s.heldWrite with
    | some v => n.putStall k ({ s with heldWrite := none }.take v n.now)
    | none => n
  else if s.kd = K.counter then
    let s := { s with counterRef := if (n.stall (s.pf 8 2)).valid then some ((n.stall (s.pf 8 2)).value.getLsbD 0) else none }
    match s.heldWrite with
    | some v => n.putStall k ({ s with heldWrite := none }.take v n.now)
    | none => n.putStall k s
  else if s.kd = K.input then
    let p := n.inPin (n.resource k)
    if p.settling then n else n.putStall k ((s.take (BitVec.ofNat 64 (b2n p.level)) n.now).setStatus St.invalid false)
  else if s.kd = K.position ∧ s.pf 8 1 ≠ 2 then
    (let e := n.enc (n.resource k - 40)
     n.putStall k (s.setStatus St.invalid (e.ext != e.lastWritten)))
  else if s.kd = K.lift then n.unhaltLift (s.pf 8 1)
  else if s.kd = K.gate then
    let g := s.pf 8 1
    let n := n.updGate g (fun x => { x with held := false })
    if (n.gate g).openDue then n.openGate g else if (n.gate g).closeDue then n.closeGate g else n
  else n

/-- A hold cause ends; the last one to end returns HOLD to RUNNING (R95, R96). A rest value that is still due is written
before the loop leaves HOLD (R150). -/
def Node.endHold (n : Node) (k : Nat) (c : HoldCause) : Node :=
  let s := n.stall k
  if !s.holds.contains c then n
  else
    let s' := { s with holds := s.holds.filter (· != c) }
    if s.st = .hold ∧ s'.holds = [] then
      let n := n.putStall k s'
      let n := if (n.loop k).restDue && s.kd == K.loop then n.restNow k else n
      ((n.updStall k (fun s => s.enter .running)).resumed k).sinkRuns k
    else n.putStall k s'

/-- Every cause that lasts is taken by a channel that becomes active (R95, R99). -/
def Node.takeHolds (n : Node) (k : Nat) : Node :=
  HoldCause.all.foldl (fun n c => if n.causeLasts k c then n.beginHold k c else n) n

/-! ### Leaving activity -/

/-- CHAN_STOP commands that wait for stall `k` are answered (R98). -/
def Node.answerStops (n : Node) (k status : Nat) : Node :=
  let ws := (n.stall k).stopWaiters
  let n := n.setStall k { n.stall k with stopWaiters := [] }
  ws.foldl (fun n m => n.answer m status 0 (if status = Rs.ok then [BitVec.ofNat 8 (n.stall k).st.code, 0, 0, 0] else [])) n

/-- What follows when a channel is no longer active. -/
def Node.quiet (n : Node) (k : Nat) : Node :=
  let s := n.stall k
  if s.kd = K.position then n.updEnc (n.resource k - 40) (fun e => { e.disarmAll.dropFrame with counting := false })
  else if s.kd = K.remote then n.zbFreeObjects
  else if s.kd = K.timer then n.putStall k (s.freezeTimer n.now)
  else if s.kd = K.lift then n.liftOff (s.pf 8 1)
  else if s.kd = K.gate then (n.updGate (s.pf 8 1) (fun x => { x with openDue := false, closeDue := false })).gateEnter (s.pf 8 1) .unknown
  else n

/-- The safe state of R100 that a fault takes; called with the new channel state in force. -/
def Node.safeTake (n : Node) (k : Nat) : Node :=
  let s := n.stall k
  if s.kd = K.output ∨ s.kd = K.prot then n.driveStall k
  else if s.kd = K.axis then n.faultAxis (n.resource k - 42)
  else if s.kd = K.loop then n.restSink k
  else if s.kd = K.lift then n.stopCar (s.pf 8 1)
  else n

/-! ### Faults (R95, R97, R101, R102) -/

/-- The designated spare of stall `k` while it can take over (R102): of its kind, marked as a spare, and IDLE or STOPPED. -/
def Node.spareOf (n : Node) (k : Nat) : Option Nat :=
  let j := (n.stall k).spare.toNat
  let s := n.stall j
  if j < numStalls ∧ j ≠ k ∧ s.isSpare ∧ s.kd = (n.stall k).kd ∧ (s.st = .idle ∨ s.st = .stopped) then some j else none

/-- A new format follows the kind part, but for a LINEPOINT, which takes its format from its entries (R90). -/
def Stall.reformatSwap (s : Stall) : Stall := if s.kd = K.linepoint then s else s.reformat

/-- The levels that two outputs keep go with the stalls that drive them (R88, R102). -/
def Node.swapPins (n : Node) (a b : Nat) : Node :=
  if 16 ≤ a ∧ a < 32 ∧ 16 ≤ b ∧ b < 32 then
    let p := n.outPin (a - 16)
    let q := n.outPin (b - 16)
    (n.setOut (a - 16) { p with heldDuty := q.heldDuty, keptDuty := q.keptDuty, trying := none }).setOut (b - 16)
      { q with heldDuty := p.heldDuty, keptDuty := p.keptDuty, trying := none }
  else n

/-- Swap the kind parts, and with them the resources, of a logical stall and its spare (R102). -/
def Node.swapParts (n : Node) (k j : Nat) : Node :=
  let a := n.stall k
  let b := n.stall j
  let ra := n.resource k
  let rb := n.resource j
  let a' := ({ a with part := b.part, res := if rb = k then none else some rb }.setStatus St.remapped (rb != k)).reformatSwap
  let b' := ({ b with part := a.part, res := if ra = j then none else some ra }).reformatSwap
  (((n.swapPins ra rb).setStall k a').setStall j b' |>.uncache k).uncache j

/-- What the channel leaves as its kind part goes to the spare (R102). -/
def Node.leaveResource (n : Node) (k : Nat) : Node :=
  let s := n.stall k
  if s.kd = K.axis then n.faultAxis (n.resource k - 42)
  else if s.kd = K.position then n.updEnc (n.resource k - 40) (fun e => { e.disarmAll.dropFrame with counting := false })
  else if s.kd = K.lift then n.liftOff (s.pf 8 1)
  else if s.kd = K.gate then n.gateEnter (s.pf 8 1) .unknown
  else n

/-- A filter restarts (R157). -/
def InPin.restart (p : InPin) (now : T64) (woke : Bool) : InPin := { p with settling := true, since := now, woke := woke }

/-- A REMOTE receive stall has an object for its identifier (R313). -/
def Node.needObject (n : Node) (k : Nat) : Node :=
  let id := (n.stall k).pf 8 4
  match n.zb.objects.look id with
  | some _ => n
  | none => n.updZb (fun z => { z with objects := z.objects.put id none })

/-- The channel goes on on the resource it now has (R102): a comparator keeps the type that its own CHAN_START set (R155), a loop
initialises anew (R149), a COUNTER takes a new reference. -/
def Node.onNewResource (n : Node) (k : Nat) : Node :=
  let s := n.stall k
  if s.kd = K.axis then n.standAxis (n.resource k - 42) n.now
  else if s.kd = K.position then n.updEnc (n.resource k - 40) (fun e => { e with counting := true })
  else if s.kd = K.input then n.setIn (n.resource k) ((n.inPin (n.resource k)).restart n.now false)
  else if s.kd = K.loop then n.setLoop k { n.loop k with kiT := BitVec.ofNat 32 s.kiT, fresh := true, last := max (n.loop k).last n.now }
  else if s.kd = K.counter then n.updStall k (fun s => { s with counterRef := none })
  else if s.kd = K.remote then (let n := n.zbFreeObjects; if s.pf 12 1 = 1 then n else n.needObject k)
  else if s.kd = K.lift then n.liftStart (s.pf 8 1)
  else if s.kd = K.gate then n.gateStart (s.pf 8 1)
  else n.driveStall k

/-- A fault of stall `k` is permanent (R95): remapped to a healthy spare, else FALLOW. The remapped channel is RUNNING, from HOLD too, and
its hold causes are taken anew; the spare that goes FALLOW is a spare no more (R102; DESIGN CHOICE for is_spare, log 51). -/
def Node.permanentFault (n : Node) (k cause : Nat) : Node :=
  let s := n.stall k
  if !s.active then n
  else match n.spareOf k with
  | some j =>
    let stopping := s.stopping
    let n := (n.leaveResource k).swapParts k j
    let n := n.updStall k (fun x =>
      { ((x.enter .running).setStatus St.stopping stopping) with spare := 0xFFFF, cause := BitVec.ofNat 8 cause, holds := [],
                                                                 failedRetries := 0, uncounted := false })
    let n := n.updStall j (fun x => { (x.enter .fallow) with flags := x.flags &&& 0xFFFD#16, cause := BitVec.ofNat 8 cause })
    let n := ((n.driveStall j).onNewResource k).sinkRuns k
    n.mapWrite.log Ev.chanRemapped k j cause
  | none =>
    let n := (n.updStall k (fun x => { (x.enter .fallow) with cause := BitVec.ofNat 8 cause, holds := [], timedWrite := none, uncounted := false })).mapWrite
    let n := ((n.safeTake k).quiet k).log Ev.chanFallow k cause 0
    n.answerStops k Rs.chanFallow

/-- An output that stops with HOLD keeps the duty in force, when its commanded value is what decides (R88, R95, R173). -/
def Node.keepDuty (n : Node) (k : Nat) : Node :=
  let s := n.stall k
  let o := n.resource k - 16
  if s.isOut then
    n.setOut o { n.outPin o with trying := none, keptDuty := if (s.st = .running ∨ s.st = .hold) ∧ s.stopCode = 1 ∧ (n.outPin o).rank = 6
                                                               then (n.outPin o).duty else 0 }
  else n

/-- A channel is STOPPED (R95): CHAN_STOP is answered with the state reached. -/
def Node.stopped (n : Node) (k : Nat) : Node :=
  let n := (n.keepDuty k).updStall k (fun s => { (s.enter .stopped) with timedWrite := none, holds := [], heldWrite := none })
  ((n.driveStall k).quiet k).answerStops k Rs.ok

/-- No retry drives the output of stall `k` any more (R160). -/
def Node.endTry (n : Node) (k : Nat) : Node :=
  let o := n.resource k - 16
  if (n.stall k).isOut then n.setOut o { n.outPin o with trying := none } else n

/-- A transient fault of stall `k` (R95, R101). `counted` is false for a group thermal episode that is not counted
against this output (R160). -/
def Node.transientFault (n : Node) (k cause : Nat) (counted : Bool := true) : Node :=
  let s := n.stall k
  if s.st ≠ .running ∧ s.st ≠ .hold then n
  else
    let p := n.policy s
    let s1 := { (if counted then s.addEpisode p.window n.now else s) with cause := BitVec.ofNat 8 cause, failedRetries := 0, uncounted := !counted }
    let perm := counted && !s.immediateOnly && decide (p.retries < s1.episodes.length)
    let n := n.putStall k s1
    if perm then n.permanentFault k cause
    else
      let n := (n.updStall k (fun x => { (x.enter .retrying) with retryAt := n.now + p.interval })).endTry k
      let n := (n.safeTake k).log Ev.chanRetrying k cause s1.faults.toNat
      if s.stopping then n.stopped k else n

/-- A retry of a RETRYING channel is judged (R95, R101); after a failed one the interval runs again. -/
def Node.judgeRetry (n : Node) (k : Nat) (ok : Bool) : Node :=
  let s := n.stall k
  if s.st ≠ .retrying then n
  else if ok then
    let n := (n.endTry k).updStall k (fun x => { x with failedRetries := 0, uncounted := false })
    let n := if s.kd = K.axis then
        let a := n.resource k - 42
        (n.standAxis a n.now).losePosition a none
      else n
    if s.holds = [] then
      let n := n.updStall k (fun x => x.enter .running)
      if s.kd = K.axis then n else (n.resumed k).sinkRuns k
    else (n.updStall k (fun x => x.enter .hold)).holdAction k
  else
    let f := s.failedRetries + 1
    let n := ((n.endTry k).updStall k (fun x => { x with failedRetries := f, retryAt := n.now + (n.policy s).interval })).driveStall k
    if (n.policy s).retries ≤ f ∧ !s.immediateOnly ∧ !s.uncounted then n.permanentFault k s.cause.toNat else n

/-! ### Starting (R95, R98) -/

/-- The front-end gain of an ANALOG stall (R181): in mode 2 the largest of 1 to 64 that keeps 24 mA × shunt within 10 V ÷ G, else 1. -/
def Stall.frontGain (s : Stall) : Nat :=
  if s.pf 8 1 = 2 then ([64, 32, 16, 8, 4, 2].find? (fun g => decide (24 * s.pf 10 2 * g ≤ 100000))).getD 1 else 1

/-- The value a kind starts with, and what its engine sets up (R92, R144, R202, R218, R363, R365). -/
def Node.initKind (n : Node) (k : Nat) : Node :=
  let s := n.stall k
  let r := n.resource k
  if s.kd = K.output ∨ s.kd = K.prot then (n.putStall k ({ s with commanded := 0 }.take 0 n.now)).driveStall k
  else if s.kd = K.input then (let n := if s.pf 9 1 = 0 then n.putStall k (s.setStatus St.field false) else n
     n.setIn r { (n.inPin r).restart n.now false with typeInForce := s.pf 8 1, lowRun := 0, highRun := 0 })
  else if s.kd = K.timer then n.putStall k (s.setTimer (s.pf 8 4) n.now)
  else if s.kd = K.analog then { n with adc := { n.adc with gains := n.adc.gains.put (r - 32) s.frontGain } }
  else if s.kd = K.counter then
    let src := n.stall (s.pf 8 2)
    n.putStall k ({ s with counterRef := if src.valid then some (src.value.getLsbD 0) else none }.take (BitVec.ofNat 64 (s.pf 12 8)) n.now)
  else if s.kd = K.loop then
    let v := if (n.stall (s.pf 8 2)).valid then n.readF (s.pf 8 2) else 0
    (n.putStall k (if s.pf 12 2 = noStall then s.take (BitVec.ofNat 64 v) n.now else s)).setLoop k
      { integ := 0, kiT := BitVec.ofNat 32 s.kiT, fresh := true, last := n.now }
  else if s.kd = K.remote then
    if s.pf 12 1 = 1 then n.putStall k { s with commanded := 0, value := 0, stamp := n.now }
    else
      (n.putStall k { s with lastUsable := n.now }).needObject k
  else if s.kd = K.linepoint then n.putStall k { s with format := 4, value := 0, staleCount := 0, points := [] }
  else if s.kd = K.position then
    let n := if s.pf 8 1 = 2 then n else
      [0, 1].foldl (fun n a => if n.encOf a = some (r - 40) then n.updAxis a (fun x => { x with encOffsetSet := false }) else n) n
    n.updEnc (r - 40) (fun e =>
      let e := { e.disarmAll.rest.dropFrame with lost := false, illegal := false, counting := true, haveFrame := false, illegalSince := false }
      if s.pf 8 1 = 2 then e else { e with ext := 0, base := 0, rawBase := 0, raw := 0, lastWritten := 0 })
      |>.updStall k (fun s => if s.pf 8 1 = 2 then s else s.take 0 n.now)
  else if s.kd = K.axis then
    let n := n.standAxis (r - 42) n.now
    n.updStall k (fun s => s.take (BitVec.ofNat 64 (ofSigned 64 (n.axis (r - 42)).pos)) n.now)
  else if s.kd = K.lift then n.liftStart (s.pf 8 1)
  else if s.kd = K.gate then n.gateStart (s.pf 8 1)
  else n

/-- A valid CHAN_START: the entry is loaded into the cache, the value initialised, and the causes that last taken. -/
def Node.startChan (n : Node) (k : Nat) : Node :=
  let n := (n.fill k).updStall k (fun s =>
    { (s.enter .running).setStatus St.stopping false with holds := [], failedRetries := 0, uncounted := false, heldWrite := none })
  (((n.initKind k).repin k).takeHolds k).sinkRuns k

/-! ### Stopping (R88, R95, R98) -/

/-- A REMOTE drive takes its safe state of R100: INVALID, and its frame that waits is not sent (R88; log 51). -/
def Node.safeRemote (n : Node) (d : Nat) : Node :=
  let s := n.stall d
  if s.kd = K.remote ∧ s.active then (n.putStall d (s.setStatus St.invalid true)).zbWithdraw (s.pf 8 4) else n

/-- The stop behaviour of a channel in RUNNING or HOLD begins. -/
def Node.stopAction (n : Node) (k : Nat) : Node :=
  let s := n.stall k
  let r := n.resource k
  let c := s.stopCode
  if s.kd = K.output ∨ s.kd = K.prot then
    if c = 1 then n else (n.putStall k { s with commanded := 0 }).driveStall k
  else if s.kd = K.loop then if c = 1 then n else n.restSink k
  else if s.kd = K.timer then n.putStall k (s.freezeTimer n.now)
  else if s.kd = K.axis then
    if c = 2 then n.rampStop (r - 42) .channel else if c = 0 then n.coilsOffStop (r - 42) else n.abandonTable (r - 42)
  else if s.kd = K.lift then
    let l := s.pf 8 1
    if c = 2 then n.stopCar l
    else if c = 0 then (match n.liftAxis l with | some a => n.coilsOffStop a | none => n.safeRemote (s.pf 10 2))
    else n
  else if s.kd = K.gate then
    let d := s.pf 10 2
    if c = 0 then
      (if (n.stall d).kd = K.axis then n.coilsOffStop (n.resource d - 42)
       else if (n.stall d).kd = K.remote then n.safeRemote d else n.engineWrite d 0 n.now)
    else if c = 2 then (if (n.stall d).kd = K.axis then n.rampStop (n.resource d - 42) .command else n)
    else n
  else n

/-- CHAN_STOP reaches an active channel: a pending timed write is discarded and the stop behaviour begins; a RETRYING
channel is STOPPED with its safe state kept (R95). -/
def Node.stopChan (n : Node) (k : Nat) (waiter : Option Nat) : Node :=
  let s := n.stall k
  let ws := match waiter with | some m => s.stopWaiters ++ [m] | none => s.stopWaiters
  if !s.active then n
  else if s.st = .retrying then (n.putStall k { s with stopWaiters := ws }).stopped k
  else if s.stopping then n.putStall k { s with stopWaiters := ws }
  else (n.putStall k ({ s with timedWrite := none, stopWaiters := ws }.setStatus St.stopping true)).stopAction k

/-- The stop behaviour of a channel has ended: its axis stands, or nothing moved. -/
def Node.stopReached (n : Node) (k : Nat) : Bool :=
  let s := n.stall k
  let stands (a : Nat) : Bool := (n.axis a).st == .standstill || (n.axis a).st == .disabled
  if s.kd = K.axis then s.stopCode = 1 || stands (n.resource k - 42)
  else if s.kd = K.lift then (match n.liftAxis (s.pf 8 1) with | some a => s.stopCode = 1 || stands a | none => true)
  else if s.kd = K.gate then
    (if (n.stall (s.pf 10 2)).kd = K.axis then s.stopCode = 1 || stands (n.resource (s.pf 10 2) - 42) else true)
  else true

/-- The stop behaviour completes: an axis enters DISABLED with its coils off (R238, R251). -/
def Node.stopDone (n : Node) (k : Nat) : Node :=
  let n := if (n.stall k).kd = K.axis then n.disableAxis (n.resource k - 42) else n
  n.stopped k

end Sys2Proof.Machine
end

