-- ==== Sys2Proof/Machine/Validate.lean ====
section
/-! DEFINITION. The checks of CHAN_START. First come those of R98: every range of R86, R88, R89 and R92 and every bound stall, in the order
of their offsets. Then come those each kind's chapter adds: R85, R104, R148, R180, R181, R185, R200, R218, R274, R322, R371, R422. A check
is (violated, detail); the first violated one is answered. -/

namespace Sys2Proof.Machine

/-- A bound stall holds an allowed kind and is not FALLOW (R92). -/
def Node.boundOk (n : Node) (j : Nat) (kinds : List Nat) : Bool :=
  decide (j < numStalls) && kinds.contains (n.stall j).kd && (n.stall j).st != .fallow

/-- A value outside lo … hi, reported at a detail. -/
def out (v lo hi d : Nat) : Bool × Nat := (decide (v < lo ∨ hi < v), d)

/-- Kinds a LOOP reads from (R142). -/
def loopSources : List Nat := [K.analog, K.internal, K.position, K.axis, K.counter, K.linepoint, K.remote]

/-- A stall a loop may read: kind, direction, format, not itself (R142). -/
def Node.loopReads (n : Node) (k j : Nat) : Bool :=
  n.boundOk j loopSources && j != k && (n.stall j).fm != F.bool && !((n.stall j).kd == K.remote && (n.stall j).pf 12 1 != 0)

/-- A stall a loop may write (R142). -/
def Node.loopWrites (n : Node) (k j : Nat) : Bool :=
  let t := n.stall j
  n.boundOk j [K.output, K.remote, K.loop] && j != k && t.fm != F.bool
    && (t.kd != K.output || t.pf 8 1 == 1) && (t.kd != K.remote || t.pf 12 1 == 1)
    && (t.kd != K.loop || (t.pf 12 2 == noStall && (n.stall (t.pf 10 2)).kd != K.loop))

/-- The active stalls of a kind, other than `k`. -/
def Node.others (n : Node) (k kind : Nat) : List Stall :=
  (n.stalls.filter (fun e => e.1 != k && e.2.kd == kind && e.2.active)).map Prod.snd

/-- Updates of all loops together per second: the sum of 10^6 ÷ period stays within 2,500,000 (R146, R148). -/
def loopLoad (periods : List Nat) : ℚ := (periods.map (fun p => if p = 0 then 0 else (1000000 : ℚ) / p)).sum

/-- R148. -/
def Node.loopChecks (n : Node) (k : Nat) (s : Stall) : List (Bool × Nat) :=
  let act := n.others k K.loop
  let period := s.pf 14 2
  let fin (o : Nat) : Bool := b32.finite (s.pf o 4)
  [(decide (256 ≤ act.length), 0), (!n.loopReads k (s.pf 8 2), 8),
   (!n.loopWrites k (s.pf 10 2) || act.any (fun t => t.pf 10 2 == s.pf 10 2)
      || ((n.stall (s.pf 10 2)).kd == K.loop && act.any (fun t => t.pf 10 2 == k)), 10),
   (s.pf 12 2 != noStall && !n.loopReads k (s.pf 12 2), 12),
   (decide (period < 50) || decide (2500000 < loopLoad (period :: act.map (fun t => t.pf 14 2))), 14),
   (!fin 16, 16), (!fin 20 || !b32.finite s.kiT, 20), (!fin 24, 24), (!fin 28 || !b32.lt (s.pf 24 4) (s.pf 28 4), 28), (!fin 32, 32)]

/-- R200: an SSI frame and its pause fit the period; its other checks are ranges. -/
def positionChecks (s : Stall) : List (Bool × Nat) :=
  [(s.pf 8 1 == 2 && decide (s.pf 14 2 * s.pf 12 2 < (s.pf 10 1 + 1) * 1000 + 25 * s.pf 12 2), 14)]

/-- R180, R181, R185. -/
def Node.analogChecks (n : Node) (k : Nat) (s : Stall) : List (Bool × Nat) :=
  let m := s.pf 8 1
  let r := n.resource k
  let odd := decide (r % 2 = 1)
  let mate := n.stall (n.stallOf (if odd then r - 1 else r + 1))
  let shunt := s.pf 10 2
  [(m == 1 && odd, 8), (m == 1 && mate.active, 8), (odd && mate.active && mate.pf 8 1 == 1, 8),
   if m = 2 then out shunt 1 4166 10 else out shunt 0 0 10,
   (!(n.adc.list.slots.any (fun x => x.source == r - 32)), 0)]

/-- R85, R185. -/
def Node.internalChecks (n : Node) (k : Nat) (s : Stall) : List (Bool × Nat) :=
  let r := n.resource k
  [(decide (58 ≤ k) || decide (58 ≤ r), 0), (decide (r < 54) && !(n.adc.list.slots.any (fun x => x.source == s.pf 8 1)), 0)]

/-- R218. -/
def Node.axisChecks (n : Node) (k : Nat) (s : Stall) : List (Bool × Nat) :=
  let x := n.axis (n.resource k - 42)
  let other := n.stall (if k = 42 then 43 else 42)
  let fb := s.pf 8 2
  let lim (j : Nat) : Bool := j == noStall || (decide (j < numStalls) && (n.stall j).fm == F.bool && (n.stall j).kd != K.unassigned && (n.stall j).st != .fallow)
  [(!x.configured, 0), (fb != noStall && !((fb == 40 || fb == 41) && other.pf 8 2 != fb && (n.stall fb).st != .fallow), 8),
   (!(lim x.cfg.limNeg && lim x.cfg.limPos), 0x150)]

/-- Two bit fields of one frame overlap (R322). -/
def overlap (s t : Stall) : Bool :=
  decide (s.pf 13 1 * 8 < t.pf 13 1 * 8 + t.pf 14 1 ∧ t.pf 13 1 * 8 < s.pf 13 1 * 8 + s.pf 14 1)

/-- R322. -/
def Node.remoteChecks (n : Node) (k : Nat) (s : Stall) : List (Bool × Nat) :=
  let id := s.pf 8 4
  let tx := s.pf 12 1 == 1
  let all := n.others k K.remote
  let same := all.filter (fun t => t.pf 12 1 == 1 && t.pf 8 4 == id)
  let txIds := ((all.filter (fun t => t.pf 12 1 == 1)).map (fun t => t.pf 8 4)).eraseDups
  let endBit := s.pf 13 1 * 8 + s.pf 14 1
  [(n.time.cfg.refPeriod != 0 && n.time.cfg.refId == id, 8),
   (!tx && (n.zb.objects.look id).isNone && decide (96 ≤ n.zb.objects.length), 8),
   (tx && !(txIds.contains id) && decide (64 ≤ txIds.length), 8),
   ((decide (64 < endBit) && !n.zb.fdOn) || (tx && same.any (overlap s)), 13),
   (s.pf 15 1 == 1 && decide (s.pf 14 1 < 2), 15),
   (tx && same.any (fun t => t.pf 18 2 != s.pf 18 2), 18), (tx && same.any (fun t => t.pf 20 1 != s.pf 20 1), 20)]

/-- A level flag stall: INPUT with both edges, or REMOTE receive of width 1 (R371). -/
def Node.flagStall (n : Node) (j : Nat) : Bool :=
  let t := n.stall j
  n.boundOk j [K.input, K.remote] && (if t.kd = K.input then t.pf 12 1 == 3 else t.pf 12 1 == 0 && t.pf 14 1 == 1)

/-- The strictly rising level table with the spacing of R371. -/
def Lift.tableFits (x : Lift) (levels : Nat) : Bool :=
  let gap : Int := 2 * ((x.flagHalf + x.refTol : Nat) : Int)
  (List.range (levels - 1)).all (fun i => decide (x.level i < x.level (i + 1) ∧ gap ≤ x.level (i + 1) - x.level i))
    && decide (x.level (levels - 1) - x.level 0 ≤ (x.refTravel : Int))

/-- No other active lift or gate has this drive (R371). -/
def Node.driveFree (n : Node) (k d : Nat) : Bool :=
  !((n.others k K.lift).any (fun t => t.pf 10 2 == d)) && !((n.others k K.gate).any (fun t => t.pf 10 2 == d))

/-- The SAFE stall holds a function of code `c` (R371, R421). -/
def Node.safeFunc (n : Node) (j : Nat) : SfFunc :=
  match n.safe.cfg with | some c => c.funcs.getD ((n.stall j).pf 9 1) {} | none => {}

/-- R371, LIFT. -/
def Node.liftChecks (n : Node) (k : Nat) (s : Stall) : List (Bool × Nat) :=
  let l := s.pf 8 1
  let x := n.lift l
  let d := s.pf 10 2
  let lv := s.pf 16 1
  [(!(x.cfgOk && x.tableOk), 0), ((n.others k K.lift).any (fun t => t.pf 8 1 == l), 8),
   (!(((n.stall d).kd == K.axis || (n.stall d).pf 12 1 == 1) && n.driveFree k d), 10),
   ((n.stall (s.pf 12 2)).kd == K.remote && (n.stall (s.pf 12 2)).pf 12 1 != 0, 12),
   (!((List.range (min lv 16)).all (fun i => n.flagStall (s.pf 14 2 + i))), 14),
   (!(x.tableFits lv), 16),
   (!((n.safeFunc (s.pf 18 2)).code == 5 && (n.safeFunc (s.pf 18 2)).lift == l), 18)]

/-- The GUARD of a lift and a level reads an INPUT stall through signal `src` (R371, R419). -/
def Node.guardReads (n : Node) (src : BitVec 16) (j : Nat) : Bool :=
  let t := n.stall j
  match n.safe.cfg with
  | some c =>
    if t.kd = K.input ∧ src.toNat / 2 ^ 14 = 1 then
      let g := c.signals.getD (src.toNat % 16) {}
      g.landA == n.resource j || g.landB == n.resource j
    else true
  | none => false

/-- R371, GATE. -/
def Node.gateChecks (n : Node) (k : Nat) (s : Stall) : List (Bool × Nat) :=
  let g := s.pf 8 1
  let lv := s.pf 9 1
  let d := s.pf 10 2
  let dt := n.stall d
  let ls := n.stall (s.pf 18 2)
  let guard := match n.safe.cfg with
    | some c => (c.funcs.find? (fun (e : Nat × SfFunc) => e.2.code == 2 && e.2.lift == ls.pf 8 1 && e.2.level == lv)).map Prod.snd
    | none => none
  let sends (j : Nat) : Bool := (n.stall j).kd == K.remote && (n.stall j).pf 12 1 != 0
  [(!(n.gate g).cfgOk, 0), ((n.others k K.gate).any (fun t => t.pf 8 1 == g), 8),
   (decide (ls.pf 16 1 ≤ lv) || (n.others k K.gate).any (fun t => t.pf 18 2 == s.pf 18 2 && t.pf 9 1 == lv), 9),
   (!((dt.kd != K.output || dt.pf 8 1 == 0) && (dt.kd != K.remote || dt.pf 12 1 == 1)
      && n.driveFree k d && !(dt.kd == K.axis && (n.gate g).ferrObst != 0 && (n.encOf (n.resource d - 42)).isNone)), 10),
   (sends (s.pf 12 2) || sends (s.pf 14 2) ||
      !(match guard with | some f => n.guardReads f.src0 (s.pf 12 2) && n.guardReads f.src1 (s.pf 14 2) | none => false), 12),
   (s.pf 16 2 != noStall && (n.safeFunc (s.pf 16 2)).code != 4, 16)]

/-- The ranges and the bound stalls of R92, in the order of their offsets. -/
def Node.partChecks (n : Node) (s : Stall) : List (Bool × Nat) :=
  let c := s.kd
  let bound (o : Nat) (kinds : List Nat) : Bool × Nat := (!(n.boundOk (s.pf o 2) kinds), o)
  let orNone (o : Nat) (kinds : List Nat) : Bool × Nat := (s.pf o 2 != noStall && !(n.boundOk (s.pf o 2) kinds), o)
  if c = K.input then [(s.pf 8 1 != 1 && s.pf 8 1 != 3, 8), out (s.pf 9 1) 0 1 9, out (s.pf 10 2) 0 2000 10, out (s.pf 12 1) 0 3 12]
  else if c = K.output then
    [out (s.pf 8 1) 0 1 8, out (s.pf 9 1) 0 2 9, if s.pf 8 1 = 1 then out (s.pf 10 2) 1 2000 10 else out (s.pf 10 2) 0 0 10, out (s.pf 12 1) 0 1 12]
  else if c = K.prot then [out (s.pf 8 1) 0 2 8, out (s.pf 9 1) 0 1 9, out (s.pf 10 2) 500 3000 10, out (s.pf 12 1) 0 1 12]
  else if c = K.analog then [out (s.pf 8 1) 0 2 8, if s.pf 8 1 = 2 then out (s.pf 10 2) 1 5000 10 else out (s.pf 10 2) 0 0 10]
  else if c = K.position then
    let m := decide (s.pf 8 1 = 2)
    [out (s.pf 8 1) 0 2 8, out (s.pf 9 1) 0 1 9, if m then out (s.pf 10 1) 8 32 10 else out (s.pf 10 1) 0 0 10,
     if m then out (s.pf 11 1) 0 1 11 else out (s.pf 11 1) 0 0 11, if m then out (s.pf 12 2) 100 1000 12 else out (s.pf 12 2) 0 0 12,
     if m then out (s.pf 14 2) 10 10000 14 else out (s.pf 14 2) 0 0 14]
  else if c = K.axis then [orNone 8 [K.position]]
  else if c = K.loop then
    [bound 8 loopSources, bound 10 [K.output, K.remote, K.loop], orNone 12 loopSources, out (s.pf 14 2) 50 65535 14,
     (b32.finite (s.pf 24 4) && !b32.lt (s.pf 24 4) (s.pf 28 4), 28)]
  else if c = K.timer then [out (s.pf 8 4) 1 4294967295 8, out (s.pf 12 1) 0 1 12]
  else if c = K.remote then
    let id := s.pf 8 4
    let tx := decide (s.pf 12 1 = 1)
    [(field id 30 29 != 0 || (!bit id 31 && decide (0x7FF < id)), 8), out (s.pf 12 1) 0 1 12,
     (decide (63 < s.pf 13 1) || decide (512 < s.pf 13 1 * 8 + s.pf 14 1), 13), out (s.pf 14 1) 1 64 14,
     (decide (2 < s.pf 15 1) || (s.pf 15 1 == 2 && s.pf 14 1 != 32), 15), if tx then out (s.pf 16 2) 0 0 16 else out (s.pf 16 2) 0 60000 16,
     if tx then out (s.pf 18 2) 0 60000 18 else out (s.pf 18 2) 0 0 18,
     if tx then (decide (15 < s.pf 20 1) && s.pf 20 1 != 0xFF, 20) else out (s.pf 20 1) 0 0 20]
  else if c = K.linepoint then [out (s.pf 8 2) 1 65279 8, out (s.pf 10 2) 0 1023 10, out (s.pf 12 2) 1 1000 12]
  else if c = K.safe then [out (s.pf 9 1) 0 31 9]
  else if c = K.lift then
    [out (s.pf 8 1) 0 3 8, bound 10 [K.axis, K.remote], bound 12 [K.position, K.axis, K.remote],
     (!((List.range (min (s.pf 16 1) 16)).all (fun i => n.boundOk (s.pf 14 2 + i) [K.input, K.remote])), 14), out (s.pf 16 1) 2 16 16,
     bound 18 [K.safe]]
  else if c = K.gate then
    [out (s.pf 8 1) 0 15 8, out (s.pf 9 1) 0 15 9, bound 10 [K.axis, K.output, K.prot, K.remote], bound 12 [K.input, K.remote],
     bound 14 [K.input, K.remote], orNone 16 [K.safe], bound 18 [K.lift]]
  else if c = K.counter then
    [(!(n.boundOk (s.pf 8 2) [K.input, K.remote, K.linepoint] && (n.stall (s.pf 8 2)).fm == F.bool), 8), out (s.pf 10 1) 0 2 10, out (s.pf 11 1) 0 1 11]
  else []

/-- The checks of the kind's own chapter, in its table's order. -/
def Node.kindChecks (n : Node) (k : Nat) (s : Stall) : List (Bool × Nat) :=
  let c := s.kd
  if c = K.analog then n.analogChecks k s
  else if c = K.internal then n.internalChecks k s
  else if c = K.position then positionChecks s
  else if c = K.axis then n.axisChecks k s
  else if c = K.loop then n.loopChecks k s
  else if c = K.remote then n.remoteChecks k s
  else if c = K.safe then [((n.safeFunc k).code == 0, 9)]
  else if c = K.lift then n.liftChecks k s
  else if c = K.gate then n.gateChecks k s
  else []

/-- The first failure of CHAN_START: the kind, then the checks of R98 by offset, then the chapter's. -/
def Node.startFault (n : Node) (k : Nat) : Option Nat :=
  let s := n.stall k
  let ramp := s.kd = K.axis || s.kd = K.lift || s.kd = K.gate
  let stopBad := !(s.stop == 0xFF || s.stop == 0 || s.stop == 1 || (s.stop == 2 && ramp))
  let pubs := (n.stalls.filter (fun e => e.1 != k && e.2.publish && e.2.active)).length
  let pre := [(s.kd == K.unassigned, 0), (stopBad, 1), (s.isSpare || (s.pin && decide (64 ≤ n.pinnedCount)), 2)]
  let pol := [(decide (15 < s.retries.toNat) && s.retries != 0xFF, 36), (decide (2 < s.permanence.toNat), 37)]
  let cs := pre ++ n.partChecks s ++ pol ++ (s.publish && decide (64 ≤ pubs), 2) :: n.kindChecks k s
  (cs.find? (fun c => c.1)).map Prod.snd

/-- CHAN_START of one stall from any source: started, or the failing detail. -/
def Node.tryStart (n : Node) (k : Nat) : Option Nat × Node :=
  match n.startFault k with
  | some d => (some d, n)
  | none => (none, n.startChan k)

end Sys2Proof.Machine
end

