-- ==== Sys2Proof/Machine/Chan.lean ====
section
/-! DEFINITION. Channels and the stall table (04): the seven channel commands of R98 and R102, and the channel events of
R92, R95, R96, R98, R101 and R104. -/

namespace Sys2Proof.Machine

/-- A stall number of a payload lies in the table (R83). -/
def badStall (pl : List Byte) (off : Nat) : Bool × Nat × Nat := (decide (numStalls ≤ u16 pl off), Rs.paramRange, off)

/-- One entry of CHAN_READ (R98). -/
def Node.readEntry (n : Node) (k : Nat) : List Byte :=
  let s := n.view k
  leBytes 2 k ++ [BitVec.ofNat 8 s.st.code, s.status] ++ leBytes 8 s.value.toNat ++ leBytes 8 s.stamp

/-- CHAN_READ (R98). -/
def execChanRead (path idx : Nat) (s : State) : Host.Outcome State Fault Refusal :=
  s.run fun n => n.hostCmd Cmd.chanRead path idx fun n m pl =>
    let c := u16 pl 0
    n.checked m ([(decide (pl.length < 4), Rs.lengthBad, 0), badIn c 1 23 0, badLen pl (4 + 2 * c), badRes pl 2 2]
        ++ (List.range c).map (fun i => badStall pl (4 + 2 * i)))
      (let ks := (List.range c).map (fun i => u16 pl (4 + 2 * i))
       (ks.foldl Node.touch n).ok m (leBytes 2 c ++ [0, 0] ++ ks.flatMap n.readEntry))

/-- The kinds CHAN_WRITE refuses (R98). -/
def Stall.readOnly (s : Stall) : Bool := !s.writable

/-- CHAN_WRITE (R94, R98, R144). -/
def execChanWrite (path idx : Nat) (s : State) : Host.Outcome State Fault Refusal :=
  s.run fun n => n.hostCmd Cmd.chanWrite path idx fun n m pl =>
    let k := u16 pl 0
    let st := n.stall k
    let v := BitVec.ofNat 64 (u64 pl 4)
    let t := u64 pl 12
    n.checked m [badLen pl 20, badStall pl 0, badRes pl 2 2, (st.st == .fallow, Rs.chanFallow, 0),
        (st.st != .running && st.st != .hold, Rs.busy, 0), (st.readOnly, Rs.paramRange, 0), (!st.takesWrite v, Rs.paramRange, 4),
        (t != 0 && decide (t < n.now ∨ n.now + sec 60 < t), Rs.paramRange, 12)]
      (if t = 0 then (n.touch k |>.engineWrite k v n.now).ok m []
       else (n.setStall k { st with timedWrite := some (v, t) }).ok m [])

/-- STALL_READ (R98). -/
def execStallRead (path idx : Nat) (s : State) : Host.Outcome State Fault Refusal :=
  s.run fun n => n.hostCmd Cmd.stallRead path idx fun n m pl =>
    n.checked m [badLen pl 4, badStall pl 0, badRes pl 2 2] ((n.touch (u16 pl 0)).ok m (n.view (u16 pl 0)).toBytes)

/-- The bytes of the kind part that R92 lays out, as (offset, size). An unassigned stall has no layout: its 28 bytes are kept as written
(DESIGN CHOICE, log 51). -/
def kindFields (k : Nat) : List (Nat × Nat) :=
  if k = K.input ∨ k = K.output then [(8, 5)] else if k = K.prot then [(8, 6)] else if k = K.analog then [(8, 1), (10, 10)]
  else if k = K.position then [(8, 8)] else if k = K.axis then [(8, 2)] else if k = K.internal then [(8, 1), (12, 8)]
  else if k = K.loop then [(8, 28)] else if k = K.timer then [(8, 5)] else if k = K.remote then [(8, 13)]
  else if k = K.linepoint then [(8, 6)] else if k = K.safe then [(8, 2)] else if k = K.lift then [(8, 1), (10, 7), (18, 2)]
  else if k = K.gate ∨ k = K.counter then [(8, 12)] else [(8, 28)]

/-- The first reserved byte of a stall's configuration part that is not 0 (R7, R86, R89, R92). -/
def reservedStall (b : List Byte) : Option Nat :=
  let covered (o : Nat) : Bool := (kindFields (u8 b 0)).any (fun f => decide (f.1 ≤ o ∧ o < f.1 + f.2))
  let bad (o : Nat) : Bool :=
    if o = 2 then decide (16 ≤ u8 b 2) else if o = 3 ∨ o = 7 ∨ o = 42 ∨ o = 43 then decide (u8 b o ≠ 0)
    else decide (8 ≤ o ∧ o < 36) && !covered o && decide (u8 b o ≠ 0)
  (List.range 44).find? bad

/-- The configuration part is taken and kept in the configuration partition (R86, R92, R93): the fields the SL4 writes
stay. -/
def Node.storeStall (n : Node) (k : Nat) (b : List Byte) : Node :=
  let old := n.stall k
  let s := old.withCfg b
  let s := if s.kd = K.prot then s.setPf 13 1 (old.pf 13 1) else if s.kd = K.internal then s.setPf 8 1 (old.pf 8 1)
    else if s.kd = K.safe then
      s.setPf 8 1 (match n.safe.cfg with | some c => (c.funcs.getD (s.pf 9 1) {}).code | none => 0)
    else if s.kd = K.input ∧ s.pf 9 1 = 0 then s.setStatus St.field false
    else s
  let s := if s.st = .fallow then
      { (s.enter .stopped) with faults := 0, cause := 0, episodes := [], failedRetries := 0, holds := [], res := none }.setStatus St.remapped false
    else s
  let n := (n.uncache k).setStall k s
  { n with stored := n.stored.put k s }

/-- STALL_WRITE (R84, R87, R93, R95, R98). -/
def execStallWrite (path idx : Nat) (s : State) : Host.Outcome State Fault Refusal :=
  s.run fun n => n.hostCmd Cmd.stallWrite path idx fun n m pl =>
    let k := u16 pl 0
    let st := n.stall k
    let b := slice pl 4 64
    let kind := u8 b 0
    let wrong := if k < 64 then decide (kind ≠ fixedKind k) else decide (0 < kind ∧ kind < 0x10)
    n.checked m [badLen pl 68, badStall pl 0, badRes pl 2 2, (st.active, Rs.chanBusy, 0),
        (st.st == .fallow && decide (k < 64), Rs.chanFallow, 0), (st.isSpare, Rs.busy, 0),
        (!K.known kind || wrong, Rs.paramRange, 4),
        ((reservedStall b).isSome, Rs.paramReserved, 4 + (reservedStall b).getD 0)]
      (n.needCfg m Cmd.stallWrite (((n.storeStall k b).storeCfg Cmd.stallWrite k pl).ok m []))

/-- CHAN_START (R95, R98). -/
def execChanStart (path idx : Nat) (s : State) : Host.Outcome State Fault Refusal :=
  s.run fun n => n.hostCmd Cmd.chanStart path idx fun n m pl =>
    let k := u16 pl 0
    n.checked m [badLen pl 4, badStall pl 0, badRes pl 2 2, ((n.stall k).active, Rs.chanBusy, 0),
        ((n.stall k).st == .fallow, Rs.chanFallow, 0)]
      (match n.tryStart k with
       | (some d, n) => n.answer m Rs.chanInvalid d []
       | (none, n) => n.ok m [])

/-- CHAN_STOP (R88, R95, R98). -/
def execChanStop (path idx : Nat) (s : State) : Host.Outcome State Fault Refusal :=
  s.run fun n => n.hostCmd Cmd.chanStop path idx fun n m pl =>
    let k := u16 pl 0
    n.checked m [badLen pl 4, badStall pl 0, badRes pl 2 2, ((n.stall k).st == .fallow, Rs.chanFallow, 0)]
      (if (n.stall k).active then n.stopChan k (some m) else n.ok m [BitVec.ofNat 8 (n.stall k).st.code, 0, 0, 0])

/-- Keep the configuration parts of two stalls and drop their cache entries (R93, R105). -/
def Node.keepPair (n : Node) (k j : Nat) : Node :=
  let n := (n.uncache k).uncache j
  { n with stored := (n.stored.put k (n.stall k)).put j (n.stall j) }

/-- The swap of CHAN_SPARE 0xFFFF (R102). The spare that takes a failed resource is a spare no more (DESIGN CHOICE, log 51). -/
def Node.swapNow (n : Node) (k j : Nat) : Node :=
  if (n.stall k).st = .fallow then
    let n := n.swapParts k j
    let n := n.updStall k (fun x => { (x.enter .stopped) with spare := 0xFFFF })
    let n := n.updStall j (fun x => { (x.enter .fallow) with flags := x.flags &&& 0xFFFD#16 })
    n.mapWrite.keepPair k j
  else
    let r := n.resource k
    let act := (n.stall k).active
    let n := if act && (n.stall k).kd == K.axis then n.losePosition (r - 42) none else n
    let n := (if act then n.leaveResource k else n).swapParts k j
    let n := (n.updStall j (fun x => x.enter .stopped)).driveStall j
    (if act then n.onNewResource k else n.driveStall k).keepPair k j

/-- CHAN_SPARE (R102). A stall is no spare of itself: CHAN_INVALID, as for one of another kind (DESIGN CHOICE, log 51). -/
def execChanSpare (path idx : Nat) (s : State) : Host.Outcome State Fault Refusal :=
  s.run fun n => n.hostCmd Cmd.chanSpare path idx fun n m pl =>
    let k := u16 pl 0
    let j := u16 pl 2
    let a := n.stall k
    let b := n.stall j
    let cur := a.spare.toNat
    n.checked m [badLen pl 4, badStall pl 0, (decide (numStalls ≤ j ∧ j < 0xFFFE), Rs.paramRange, 2)]
      (if j = 0xFFFE then
         n.checked m [(decide (numStalls ≤ cur), Rs.notFound, 0)]
           (n.needCfg m Cmd.chanSpare
             (((n.setStall k { a with spare := 0xFFFF }).setStall cur { n.stall cur with flags := (n.stall cur).flags &&& 0xFFFD#16 }
               |>.keepPair k cur |>.storeCfg Cmd.chanSpare k pl).ok m []))
       else if j = 0xFFFF then
         n.checked m [((n.spareOf k).isNone, Rs.noSpare, 0)]
           (n.needCfg m Cmd.chanSpare ((n.swapNow k cur).ok m []))
       else
         n.checked m [(a.kd != b.kd || k == j, Rs.chanInvalid, 0), (b.active, Rs.chanBusy, 0), (b.st == .fallow, Rs.chanFallow, 0),
             (b.isSpare, Rs.busy, 0), (decide (cur < numStalls), Rs.busy, 0)]
           (n.needCfg m Cmd.chanSpare
             (((n.setStall k { a with spare := BitVec.ofNat 16 j }).setStall j { b with flags := b.flags ||| 2#16 }
               |>.keepPair k j |>.storeCfg Cmd.chanSpare k pl).ok m [])))

/-! ### Channel events -/

/-- Kinds with transient faults (R100). -/
def Stall.faultable (s : Stall) : Bool :=
  !(s.kd == K.unassigned || s.kd == K.timer || s.kd == K.safe || s.kd == K.counter)

/-- CHAN_TRANSIENT_FAULT (R95, R100): LIFT and GATE have none (R369). -/
def execChanTransientFault (k cause : Nat) (s : State) : Host.Outcome State Fault Refusal :=
  s.run fun n => if (n.stall k).faultable && (n.stall k).kd != K.lift && (n.stall k).kd != K.gate then n.transientFault k cause else n

/-- CHAN_PERMANENT_FAULT (R95, R100, R102). -/
def execChanPermanentFault (k cause : Nat) (s : State) : Host.Outcome State Fault Refusal :=
  s.run fun n => if (n.stall k).faultable then n.permanentFault k cause else n

/-- The longest time in current limit (R159, R165): how long a retry drives an output before it has succeeded (R160). -/
def tryTime : Nat := us 5500

/-- The retry of one output begins: its commanded value is driven; one commanded off succeeds at once (R160). -/
def Node.tryOut (n : Node) (k : Nat) : Node :=
  let o := n.resource k - 16
  if (n.stall k).cmdDuty = 0 then n.judgeRetry k true
  else (n.setOut o { n.outPin o with trying := some n.now }).driveOut o

/-- The outputs of a thermal group that wait for the group's retry (R160). -/
def Node.groupWaits (n : Node) (o : Nat) : List Nat :=
  ((List.range 4).map (fun j => n.outStall (o / 4 * 4 + j))).filter (fun k =>
    (n.stall k).st == .retrying && (n.stall k).cause == 2 && (n.outPin (n.resource k - 16)).trying.isNone)

/-- A retry of an output (R160, R165): it begins when its interval, or that of every output of its group, has elapsed and the sensor is
below the restart temperature; driven with current free of the limit for its time it has succeeded. While another rule holds the output
off it waits (log 51). -/
def Node.retryOut (n : Node) (k : Nat) (ok : Bool) : Node :=
  let s := n.stall k
  let o := n.resource k - 16
  let p := n.outPin o
  match p.trying with
  | some t =>
    if (n.ruling o).1 ≠ 6 then (n.endTry k).updStall k (fun x => { x with retryAt := n.now + (n.policy s).interval })
    else if ok then (n.upTo (t + tryTime)).judgeRetry k true
    else (n.judgeRetry k false).driveStall k
  | none =>
    if p.thermalWait ∨ (s.cmdDuty ≠ 0 ∧ (!n.fieldPowered ∨ n.latchedOff ∨ !(n.runs Isl.io))) then n
    else if s.cause = 2 ∧ o < 12 then
      let ks := n.groupWaits o
      let t := (ks.map (fun j => (n.stall j).retryAt)).foldl max 0
      ks.foldl (fun n j => n.tryOut j) (n.upTo t)
    else (n.upTo s.retryAt).tryOut k

/-- A retry of a loop (R151): the update instant at or after the end of its interval, initialised anew. -/
def Node.retryLoop (n : Node) (k : Nat) : Node :=
  let s := n.stall k
  let t := nextGrid (max n.gridNow s.retryAt) (us (s.pf 14 2))
  if !(n.runs Isl.seq) then n
  else
    let n := n.upTo t
    if (n.stall (s.pf 8 2)).valid then
      match n.loopCompute k true with
      | (sp, some (i, u)) =>
        let n := (n.loopTake k t sp i u).judgeRetry k true
        n.setLoop k { n.loop k with fresh := false, last := t }
      | (_, none) => n.judgeRetry k false
    else n.updStall k (fun x => { x with retryAt := n.now + (n.policy s).interval })

/-- The judgement of a retry, when its interval has elapsed: a loop's is its own update (R151), a position interface's its illegal
transitions (R198), an output's its current (R160); any other is observed (log 5). A retry of a converter check is judged by the
next check (R186). -/
def Node.retry (n : Node) (k : Nat) (ok : Bool) : Node :=
  let s := n.stall k
  let r := n.resource k
  if s.st ≠ .retrying then n
  else if s.kd = K.loop then n.retryLoop k
  else if s.isOut then n.retryOut k ok
  else if s.kd = K.analog ∧ s.cause = 10 then n
  else
    let n := n.upTo s.retryAt
    if s.kd = K.position ∧ s.pf 8 1 ≠ 2 then
      let ok := !(n.enc (r - 40)).illegalSince
      (n.updEnc (r - 40) (fun e => { e with illegalSince := false })).judgeRetry k ok
    else n.judgeRetry k ok

/-- CHAN_RETRY (R95, R101). -/
def execChanRetry (k : Nat) (ok : Bool) (s : State) : Host.Outcome State Fault Refusal := s.run fun n => n.retry k ok

/-- FAULT_WINDOW_EXPIRE (R101): the oldest episode is older than the window. -/
def execFaultWindowExpire (k : Nat) (s : State) : Host.Outcome State Fault Refusal :=
  s.run fun n =>
    let w := (n.policy (n.stall k)).window
    match (n.stall k).episodes.getLast? with
    | some t =>
      let n := n.upTo (t + w + 1)
      n.putStall k ((n.stall k).dropEpisodes w n.now)
    | none => n

/-- HOLD_CAUSE_BEGIN (R95, R96). -/
def execHoldCauseBegin (k : Nat) (cause : Nat) (s : State) : Host.Outcome State Fault Refusal :=
  s.run fun n => match HoldCause.all[cause]? with
    | some c => if n.causeLasts k c then n.beginHold k c else n
    | none => n

/-- HOLD_CAUSE_END (R95, R96). The supply cause of an output ends in its restore slot (R172). -/
def execHoldCauseEnd (k : Nat) (cause : Nat) (s : State) : Host.Outcome State Fault Refusal :=
  s.run fun n => match HoldCause.all[cause]? with
    | some c =>
      let slot := c == .supply && ((n.stall k).kd == K.output || (n.stall k).kd == K.prot)
      if n.causeLasts k c || slot then n else n.endHold k c
    | none => n

/-- STOP_BEHAVIOUR_DONE (R95, R97). -/
def execStopBehaviourDone (k : Nat) (s : State) : Host.Outcome State Fault Refusal :=
  s.run fun n => if (n.stall k).stopping && n.stopReached k then n.stopDone k else n

/-- CACHE_MISS_FILL (R104). -/
def execCacheMissFill (k : Nat) (s : State) : Host.Outcome State Fault Refusal :=
  s.run fun n => n.fill k

/-- TIMER_ZERO (R92, R299): one-shot stays at 0, periodic reloads its preset on its grid; reloads that a step skipped are
not made up. -/
def execTimerZero (k : Nat) (s : State) : Host.Outcome State Fault Refusal :=
  s.run fun n => match (n.stall k).zeroAt with
    | some z =>
      let st := n.stall k
      let n := n.upTo z
      let per := us (st.pf 8 4)
      let next := if per = 0 then z else z + per * ((n.now - z) / per + 1)
      if st.pf 12 1 = 1 then n.putStall k { st.takeAt (BitVec.ofNat 64 (st.pf 8 4)) z with zeroAt := some next }
      else n.putStall k { st.takeAt 0 z with zeroAt := none }
    | none => n

/-- LINEPOINT_STALE (R100, R274): the stale limit is counted, so the channel has the transient fault of cause 9. -/
def execLinepointStale (k : Nat) (s : State) : Host.Outcome State Fault Refusal :=
  s.run fun n =>
    let st := n.stall k
    if st.kd = K.linepoint ∧ st.pf 12 2 ≤ st.staleCount then n.transientFault k 9 else n

end Sys2Proof.Machine
end

