-- ==== Sys2Proof/Machine/FieldIo.lean ====
section
/-! DEFINITION. 24 V inputs and outputs (07): the I/O watchdog (R169, R170), the inputs (R155 to R158), the outputs (R160 to
R166) and the field supply (R171, R172). -/

namespace Sys2Proof.Machine

/-- Change the field I/O registers. -/
def Node.updFio (n : Node) (f : FieldIo → FieldIo) : Node := { n with fio := f n.fio }

/-! ### The I/O watchdog -/

def WdSt.code : WdSt → Nat
  | .disabled => 0 | .armed => 1 | .suspended => 2 | .expired => 3

/-- The count set to the timeout (R170). -/
def FieldIo.rearm (x : FieldIo) (now : T64) : FieldIo := { x with wdSt := .armed, wdDeadline := now + ms x.wdTimeout }

/-- A feed (R170). -/
def FieldIo.feed (x : FieldIo) (now : T64) : FieldIo :=
  match x.wdSt with
  | .armed => { x with wdDeadline := now + ms x.wdTimeout, wdLastFeed := now }
  | .suspended => { x with wdHeld := ms x.wdTimeout, wdLastFeed := now }
  | _ => x

/-- ARMED goes to SUSPENDED with its count held (R170). -/
def FieldIo.suspend (x : FieldIo) (now : T64) : FieldIo :=
  if x.wdSt = .armed then { x with wdSt := .suspended, wdHeld := x.wdDeadline - now } else x

/-- The results of every op: remaining time in whole ms (log 22). -/
def Node.wdResults (n : Node) : List Byte :=
  let x := n.fio
  let rem := match x.wdSt with | .armed => (x.wdDeadline - n.now) / 1000000 | .suspended => x.wdHeld / 1000000 | _ => 0
  leBytes 1 x.wdSt.code ++ leBytes 1 x.wdSource ++ leBytes 2 x.wdTimeout ++ leBytes 2 rem ++ [0, 0] ++ leBytes 8 x.wdLastFeed

/-- Stalls of a kind of cause. -/
def Node.stallsWhere (n : Node) (p : Stall → Bool) : List Nat := (n.stalls.filter (fun e => p e.2)).map Prod.fst

/-- The watchdog's hold cause ends for every output (R170). -/
def Node.endWatchdog (n : Node) : Node := ((n.stallsWhere Stall.isOut).foldl (fun n k => n.endHold k .watchdog) n).driveAll

/-- The safe_state field of output `o`'s stall (R92). -/
def Node.setSafe (n : Node) (o v : Nat) : Node :=
  let k := n.outStall o
  let s := n.stall k
  let s' := s.setPf (if s.kd = K.prot then 8 else 9) 1 v
  let n := (n.uncache k).setStall k s'
  { n with stored := n.stored.put k s' }

/-- IO_WATCHDOG (R169, R170). -/
def execIoWatchdog (path idx : Nat) (s : State) : Host.Outcome State Fault Refusal :=
  s.run fun n => n.hostCmd Cmd.ioWatchdog path idx fun n m pl =>
    let op := u8 pl 0
    let conf := decide (op = 0)
    let tmo := u16 pl 2
    let entry (i : Nat) : Nat := u8 pl (4 + i)
    let busy (i : Nat) : Bool := entry i != 0xFF && (n.stall (n.outStall i)).active && (n.stall (n.outStall i)).safeState != entry i
    n.checked m ([badIn op 0 3 0, badLen pl (if conf then 20 else 4)]
        ++ (if conf then [badIn (u8 pl 1) 0 1 1, badIn tmo 0 1000 2]
              ++ (List.range 16).map (fun i => badRange (decide (2 < entry i) && entry i != 0xFF) (4 + i))
              ++ (List.range 16).map (fun i => (busy i, Rs.chanBusy, 4 + i))
            else [badRes pl 1 3, badRange (op == 1 && n.fio.wdSource == 0) 0, (op == 1 && n.fio.wdSt == .expired, Rs.busy, 0)]))
      (if conf then
         n.needCfg m Cmd.ioWatchdog
           (let n := (List.range 16).foldl (fun n i => if entry i = 0xFF then n else n.setSafe i (entry i)) n
            let n := n.updFio (fun x => { x with wdSource := u8 pl 1, wdTimeout := tmo })
            let n := if tmo = 0 then
                (let was := n.fio.wdSt
                 let n := n.updFio (fun x => { x with wdSt := .disabled })
                 if was = .disabled then n else n.endWatchdog)
              else match n.fio.wdSt with
                | .suspended => n.updFio (fun x => { x with wdHeld := ms tmo })
                | .expired => n
                | _ => n.updFio (fun x => x.rearm n.now)
            let n := n.storeCfg Cmd.ioWatchdog 0 pl
            n.ok m n.wdResults)
       else if op = 1 then
         let n := n.updFio (fun x => x.feed n.now)
         n.ok m n.wdResults
       else if op = 2 then
         let n := if n.fio.wdSt = .expired then (n.updFio (fun x => x.rearm n.now)).endWatchdog else n
         n.ok m n.wdResults
       else n.ok m n.wdResults)

/-- FIRMWARE_WATCHDOG_FEED (R169): with source 0, while the field cores run. -/
def execFirmwareWatchdogFeed (s : State) : Host.Outcome State Fault Refusal :=
  s.run fun n => if n.fio.wdSource = 0 ∧ n.runs Isl.core ∧ !n.host.restarting then n.updFio (fun x => x.feed n.now) else n

/-- IO_WATCHDOG_EXPIRED (R96, R170, R173): what is in force is kept for the safe state HOLD. -/
def execIoWatchdogExpired (s : State) : Host.Outcome State Fault Refusal :=
  s.run fun n =>
    if n.fio.wdSt = .armed then
      let n := (n.upTo n.fio.wdDeadline).captureHeld
      let n := (n.updFio (fun x => { x with wdSt := .expired })).log Ev.ioWatchdogExpired n.fio.wdTimeout n.fio.wdSource n.fio.wdLastFeed
      ((n.stallsWhere Stall.isOut).foldl (fun n k => n.beginHold k .watchdog) n).driveAll
    else n

/-- The count of a SUSPENDED watchdog resumes from its held value (R170). -/
def FieldIo.resume (x : FieldIo) (now : T64) : FieldIo :=
  if x.wdSt = .suspended then { x with wdSt := .armed, wdDeadline := now + x.wdHeld } else x

/-- IO_WATCHDOG_RESUME (R170): the field cores run, or 150 ms have passed since their restart began. In sleep the wake resumes it. -/
def execIoWatchdogResume (s : State) : Host.Outcome State Fault Refusal :=
  s.run fun n =>
    if n.fio.wdSt = .suspended ∧ n.glean.st = .awake then
      let n := if n.host.restarting then n.upTo (n.host.restartFrom + ms 150) else n
      n.updFio (fun x => x.resume n.now)
    else n

/-! ### Inputs -/

/-- INPUT_FILTERED_CHANGE (R96, R157, R172, R174): input `i` has a filtered value after a run of `first` and the filter time; a run
reaches back no further than the filter's restart. An input that settles leaves its holds with this first valid value, and after a wake
its stamp is the instant at which it became valid. -/
def execInputFilteredChange (i : Nat) (level : Bool) (first : T64) (s : State) : Host.Outcome State Fault Refusal :=
  s.run fun n =>
    let p := n.inPin i
    let k := n.inStall i
    if n.latchedOff ∨ !(n.runs Isl.io) ∨ (n.fio.supply = .restoring ∧ (n.stall k).holds.contains .supply) ∨ (p.level = level ∧ !p.settling) then n
    else
      let first := if p.settling then max first p.since else first
      let n := n.upTo (first + us (10 * (n.stall k).pf 10 2))
      let n := n.setIn i { p with level := level, comparator := level, settling := false, woke := false }
      let n := ((n.endHold k .supply).endHold k .ioIsland)
      let st := n.stall k
      if st.st = .running then
        let edges := st.pf 12 1
        let stamped := if level then edges == 1 || edges == 3 else edges == 2 || edges == 3
        let t := if p.settling && p.woke then n.now else if stamped then first else nextGrid n.now 10000
        let v := BitVec.ofNat 64 (b2n level)
        let fresh := st.value ≠ v ∨ !st.valid ∨ p.settling
        if fresh then n.putStall k ((st.takeAt v t).setStatus St.invalid false) else n
      else n

/-- WIRE_BREAK_MEASURE (R156, R176): the current of input `i` in µA. -/
def execWireBreakMeasure (i microAmp : Nat) (s : State) : Host.Outcome State Fault Refusal :=
  s.run fun n =>
    let k := n.inStall i
    let st := n.stall k
    let p := n.inPin i
    if st.kd = K.input ∧ st.pf 9 1 = 1 ∧ st.active ∧ n.runs Isl.io ∧ !n.latchedOff then
      let lo := if microAmp < 150 then min 10 (p.lowRun + 1) else 0
      let hi := if 300 ≤ microAmp then min 10 (p.highRun + 1) else 0
      let n := n.setIn i { p with lowRun := lo, highRun := hi, microAmp := microAmp }
      let fieldOn := st.status.getLsbD St.field
      if lo = 10 ∧ !fieldOn then (n.putStall k (st.setStatus St.field true)).log Ev.inputOpenWire k 1 microAmp
      else if hi = 10 ∧ fieldOn then (n.putStall k (st.setStatus St.field false)).log Ev.inputOpenWire k 0 microAmp
      else n
    else n

/-- COMPARATOR_DISAGREE (R158). -/
def execComparatorDisagree (i : Nat) (s : State) : Host.Outcome State Fault Refusal :=
  s.run fun n => if (n.stall (n.inStall i)).kd = K.input then n.transientFault (n.inStall i) 4 else n

/-! ### Outputs -/

/-- An output switches off with a fault of cause `c`: a retry that drives it has failed; one that only waits for its retry has no new
fault (R160, R165). -/
def Node.outFault (n : Node) (o c : Nat) (counted : Bool) : Node :=
  let k := n.outStall o
  if (n.stall k).st = .retrying then (if (n.outPin o).trying.isSome then (n.judgeRetry k false).driveOut o else n)
  else (n.transientFault k c counted).driveOut o

/-- OUTPUT_CURRENT_LIMIT (R160, R165). -/
def execOutputCurrentLimit (o : Nat) (s : State) : Host.Outcome State Fault Refusal :=
  s.run fun n => n.outFault o 1 true

/-- Outputs wait for their restart temperature. -/
def Node.setThermal (n : Node) (os : List Nat) (v : Bool) : Node := os.foldl (fun n o => n.setOut o { n.outPin o with thermalWait := v }) n

/-- GROUP_THERMAL_SHUTDOWN (R160): `hot` are the outputs of the group whose current exceeded 0.5 A, `highest` the one with
the highest current. -/
def execGroupThermalShutdown (group hot highest : Nat) (s : State) : Host.Outcome State Fault Refusal :=
  s.run fun n =>
    let counted (j : Nat) : Bool := if hot % 16 = 0 then j == highest else bit hot j
    let n := (List.range 4).foldl (fun n j => n.outFault (group * 4 + j) 2 (counted j)) n
    n.setThermal ((List.range 4).map (fun j => group * 4 + j)) true

/-- THERMAL_RESTART_TEMP (R160, R165): sensors 0 to 2 are the groups, 3 to 6 the channels PO0 to PO3. -/
def execThermalRestartTemp (sensor : Nat) (s : State) : Host.Outcome State Fault Refusal :=
  s.run fun n => n.setThermal (if sensor < 3 then (List.range 4).map (fun j => sensor * 4 + j) else [9 + sensor]) false

/-- OUTPUT_READBACK_FAULT (R161): only while the switch is commanded off, and not while the field supply is latched off. -/
def execOutputReadbackFault (o : Nat) (s : State) : Host.Outcome State Fault Refusal :=
  s.run fun n => if n.outOn o ∨ n.latchedOff then n else n.permanentFault (n.outStall o) 3

/-- PO_THERMAL_SHUTDOWN (R165). -/
def execPoThermalShutdown (p : Nat) (s : State) : Host.Outcome State Fault Refusal :=
  s.run fun n => (n.outFault (12 + p) 2 true).setThermal [12 + p] true

/-- OUTPUT_OPEN_LOAD (R166, R176): a condition of PO `p` has held for 50 ms, or neither has; current in mA. FIELD clears whatever open_load
holds by then. -/
def execOutputOpenLoad (p : Nat) (isOpen : Bool) (milliAmp : Nat) (s : State) : Host.Outcome State Fault Refusal :=
  s.run fun n =>
    let k := n.outStall (12 + p)
    let st := n.stall k
    let tested := st.pf 12 1 == 1 && (!n.outOn (12 + p) || (n.seriesClosed p && !n.latchedOff))
    if st.kd = K.prot ∧ (tested ∨ !isOpen) ∧ st.status.getLsbD St.field ≠ isOpen then
      (n.putStall k (st.setStatus St.field isOpen)).log Ev.outputOpenLoad k (b2n isOpen) milliAmp
    else n

/-- PWM_BOUNDARY (R164, R173): the next period boundary of output `o`. -/
def execPwmBoundary (o : Nat) (s : State) : Host.Outcome State Fault Refusal :=
  s.run fun n =>
    let st := n.stall (n.outStall o)
    if st.pwm ∧ n.runs Isl.io then
      let n := n.upTo (nextGrid n.gridNow (pwmPeriod (st.pf 10 2)))
      n.force o (n.ruling o).1 (n.ruling o).2
    else n

/-! ### The field supply -/

/-- FIELD_SUPPLY_WARN (R171). -/
def execFieldSupplyWarn (mV : Nat) (s : State) : Host.Outcome State Fault Refusal :=
  s.run fun n => if n.fio.warn then n else (n.updFio (fun x => { x with warn := true })).log Ev.fieldSupplyWarn mV 1 0

/-- FIELD_SUPPLY_WARN_CLEAR (R171). -/
def execFieldSupplyWarnClear (mV : Nat) (s : State) : Host.Outcome State Fault Refusal :=
  s.run fun n => if n.fio.warn then (n.updFio (fun x => { x with warn := false })).log Ev.fieldSupplyWarn mV 0 0 else n

/-- The mask of outputs whose switch is on. -/
def Node.outMask (n : Node) : Nat := ((List.range 16).map (fun o => if n.outOn o then 2 ^ o else 0)).sum

/-- VAUX switched on or off, no retry pending. -/
def Node.setVaux (n : Node) (v : Bool) : Node := { n with power := { n.power with vauxOn := v, vauxRetry := false } }

/-- Every output and input stall holds with the supply latched off, and every switch goes off (R172). -/
def Node.latchSupply (n : Node) : Node :=
  let n := n.updFio (fun x => { x with supply := .latched })
  let n := n.setVaux false
  ((n.stallsWhere (fun s => s.isOut || s.kd == K.input)).foldl (fun n k => n.beginHold k .supply) n).driveAll

/-- Between t2 and t5 of power-up VAUX alone follows VF24 (R45, R46, R47). -/
def Node.vauxOnly (n : Node) : Bool := n.power.stage == .t2 || n.power.stage == .t3 || n.power.stage == .t4

/-- FIELD_SUPPLY_OFF (R45, R46, R172, R176): t1, with the lowest VF24 in mV. A fall before the latch clears only restarts the wait; before
t5 it only takes VAUX off. -/
def execFieldSupplyOff (mV : Nat) (s : State) : Host.Outcome State Fault Refusal :=
  s.run fun n =>
    if n.vauxOnly then (n.updFio (fun x => { x with supply := .latched })).setVaux false
    else if !n.fieldPowered then n
    else match n.fio.supply with
    | .latched => n
    | .rising => n.updFio (fun x => { x with supply := .latched })
    | _ =>
      let mask := n.outMask
      (n.latchSupply.log Ev.fieldSupplyOff mV mask 0).raise 7

/-- FIELD_SUPPLY_RISE (R172): t3. -/
def execFieldSupplyRise (s : State) : Host.Outcome State Fault Refusal :=
  s.run fun n =>
    if n.fio.supply = .latched ∧ (n.fieldPowered ∨ n.vauxOnly) then n.updFio (fun x => { x with supply := .rising, risenAt := n.now }) else n

/-- FIELD_SUPPLY_LATCH_CLEAR (R46, R172): t4, 10 ms after t3, with VF24 in mV. Before t5 it only brings VAUX on. -/
def execFieldSupplyLatchClear (mV : Nat) (s : State) : Host.Outcome State Fault Refusal :=
  s.run fun n =>
    if n.fio.supply = .rising ∧ (n.fieldPowered ∨ n.vauxOnly) then
      let n := (n.upTo (n.fio.risenAt + ms 10)).setVaux true
      if n.vauxOnly then n
      else (n.raise 7).updFio (fun x => { x with supply := .restoring, clearedAt := x.risenAt + ms 10, vf24AtClear := mV, restoredMask := 0, stoppedMask := 0 })
    else n

/-- OUTPUT_RESTORE_SLOT (R172, R173, R176): the slot of output `o` at t4 + o × 100 µs; the last one logs. -/
def execOutputRestoreSlot (o : Nat) (s : State) : Host.Outcome State Fault Refusal :=
  s.run fun n =>
    if n.fio.supply = .restoring then
      let n := n.upTo (n.fio.clearedAt + us (100 * o))
      let k := n.outStall o
      let st := n.stall k
      let n :=
        if st.st = .hold ∧ st.holds.contains .supply ∧ st.restore = 1 then
          (n.stopped k).updFio (fun x => { x with stoppedMask := x.stoppedMask ||| (1#16 <<< o) })
        else n.endHold k .supply
      let n := n.driveOut o
      let (r, d) := n.ruling o
      let n := if 1 < r && st.lit d then n.updFio (fun x => { x with restoredMask := x.restoredMask ||| (1#16 <<< o) }) else n
      if o = 15 then n.log Ev.fieldSupplyRestored n.fio.vf24AtClear n.fio.restoredMask.toNat n.fio.stoppedMask.toNat else n
    else n

/-- INPUT_RESUME (R96, R172): t6, the inputs are sampled again and settle. -/
def execInputResume (s : State) : Host.Outcome State Fault Refusal :=
  s.run fun n =>
    if n.fio.supply = .restoring then
      let n := (n.upTo (n.fio.clearedAt + ms 5)).updFio (fun x => { x with supply := .on })
      (List.range 16).foldl (fun n i =>
        if (n.stall (n.inStall i)).holds.contains .supply then n.setIn i ((n.inPin i).restart n.now false) else n) n
    else n

end Sys2Proof.Machine
end

