-- ==== Sys2Proof/Machine/Analog.lean ====
section
/-! DEFINITION. Analogue inputs and internal measurements (08): the slot list (R187, R188), frames (R184, R186, R192), slot
results (R179, R183, R185), the self-check (R186) and the rings (R189 to R191). -/

namespace Sys2Proof.Machine

/-- Change the converters. -/
def Node.updAdc (n : Node) (f : Adc → Adc) : Node := { n with adc := f n.adc }

/-- The stall a source belongs to (R178); none for AGND and the reference. -/
def Node.sourceStall (n : Node) (src : Nat) : Option Nat :=
  if src < 8 then some (n.stallOf (32 + src)) else if src < 22 then some (n.stallOf (36 + src)) else none
/-- The source gives a signed code (R179, R183). -/
def Node.sourceSigned (n : Node) (src : Nat) : Bool :=
  (decide (src < 8) && (n.stall (n.stallOf (32 + src))).pf 8 1 == 1) || decide (18 ≤ src ∧ src < 22)

/-- Length of one converter's slots in units of 500 ns (R184). -/
def slotTime (slots : List AdcSlot) (conv : Nat) : Nat := ((slots.filter (fun s => s.conv == conv)).map (fun s => 2 ^ s.avg)).sum
/-- Ring slots of a converter. -/
def ringSlots (slots : List AdcSlot) (conv : Nat) : Nat := (slots.filter (fun s => s.conv == conv && s.ring)).length
/-- The descriptor address of a converter in a list. -/
def AdcList.desc (l : AdcList) (conv : Nat) : Nat := if conv = 0 then l.desc0 else l.desc1

/-! ### Ring descriptors (R189) -/

def ringLo : Nat := 0x10558000
def ringHi : Nat := 0x10590000
/-- Two address ranges overlap. -/
def rangesMeet (a la b lb : Nat) : Bool := decide (a < b + lb ∧ b < a + la)

/-- A descriptor of a converter with its slots is valid under the ring rules. -/
def Node.descOk (n : Node) (d conv : Nat) (slots : List AdcSlot) : Bool :=
  let b := n.read d 64
  let base := u32 b 0
  let size := u32 b 4
  let k := ringSlots slots conv
  let signed := slots.all (fun s => s.conv != conv || !s.ring || n.sourceSigned s.source)
  d % 64 == 0 && decide (ringLo ≤ d ∧ d + 64 ≤ ringHi) && base % 64 == 0 && decide (ringLo ≤ base ∧ base + size ≤ ringHi)
    && decide (256 ≤ size ∧ size ≤ 229376) && size % 64 == 0 && (k == 0 || (size / 2) % (4 * k) == 0)
    && decide (u8 b 8 ≤ 2 ∧ u8 b 9 ≤ 1 ∧ u8 b 10 ≤ 1) && zeroAt b 11 1 && zeroAt b 48 16 && (u8 b 8 != 2 || signed)

/-- The address ranges of a descriptor of `k` bytes and its ring; none without a descriptor. -/
def Node.ringSpans (n : Node) (d k : Nat) : List (Nat × Nat) := if d = 0 then [] else [(d, k), (u32 (n.read d 8) 0, u32 (n.read d 8) 4)]
/-- Ranges of two lists keep apart. -/
def spansApart (a b : List (Nat × Nat)) : Bool := a.all (fun x => b.all (fun y => !rangesMeet x.1 x.2 y.1 y.2))
/-- Neither descriptor overlaps the other or the other's ring (R189). -/
def Node.descsApart (n : Node) (d0 d1 : Nat) : Bool :=
  let meets (d e : Nat) : Bool := rangesMeet d 64 (u32 (n.read e 8) 0) (u32 (n.read e 8) 4)
  d0 == 0 || d1 == 0 || !(rangesMeet d0 64 d1 64 || meets d0 d1 || meets d1 d0)

/-- A slot of the payload (R187). -/
def slotAt (pl : List Byte) (i : Nat) : AdcSlot :=
  { source := u8 pl (16 + 4 * i), conv := u8 pl (17 + 4 * i), avg := u8 pl (18 + 4 * i), ring := u8 pl (19 + 4 * i) == 1 }

/-- An active stall 32 to 53 that a list would leave without a slot (R188). -/
def Node.slotless (n : Node) (slots : List AdcSlot) : Option Nat :=
  (List.range 18).find? (fun src => match n.sourceStall src with
    | some k => (n.stall k).active && !(slots.any (fun s => s.source == src))
    | none => false) |>.bind n.sourceStall

/-- ADC_SEQUENCE (R187, R188). -/
def execAdcSequence (path idx : Nat) (s : State) : Host.Outcome State Fault Refusal :=
  s.run fun n => n.hostCmd Cmd.adcSequence path idx fun n m pl =>
    let per := u32 pl 0
    let c := u8 pl 12
    let slots := (List.range c).map (slotAt pl)
    let l : AdcList := { period := per, desc0 := u32 pl 4, desc1 := u32 pl 8, slots := slots }
    let desc (conv off : Nat) : Bool × Nat × Nat := badRange (l.desc conv != 0 && !n.descOk (l.desc conv) conv slots) off
    n.checked m ([(decide (pl.length < 16), Rs.lengthBad, 0), badIn per 1 65535 0, badIn c 0 32 12, badRes pl 13 3, badLen pl (16 + 4 * c)]
        ++ (List.range c).flatMap (fun i => [badIn (u8 pl (16 + 4 * i)) 0 23 (16 + 4 * i), badIn (u8 pl (17 + 4 * i)) 0 1 (17 + 4 * i),
              badIn (u8 pl (18 + 4 * i)) 0 4 (18 + 4 * i), badIn (u8 pl (19 + 4 * i)) 0 1 (19 + 4 * i)])
        ++ [badRange (decide (per * 1000 < 500 * slotTime slots 0 ∨ per * 1000 < 500 * slotTime slots 1)) 0, desc 0 4, desc 1 8,
            badRange (!n.descsApart l.desc0 l.desc1) 8]
        ++ (List.range c).map (fun i => badRange ((slotAt pl i).ring && l.desc (slotAt pl i).conv == 0) (16 + 4 * i))
        ++ [((n.slotless slots).isSome, Rs.chanBusy, (n.slotless slots).getD 0)])
      (n.needCfg m Cmd.adcSequence
        (((n.updAdc (fun a => { a with pending := some (l, nextGrid (n.now + us 10) (us per)) })).storeCfg Cmd.adcSequence 0 pl).ok m []))

/-- A ring starts empty: write and read 0, counters and flags 0 (R188). -/
def Node.initRing (n : Node) (d : Nat) : Node := if d = 0 then n else n.write (d + 12) (List.replicate 20 0)

/-- ADC_LIST_APPLY (R188): at its instant the list replaces the old one whole. -/
def execAdcListApply (s : State) : Host.Outcome State Fault Refusal :=
  s.run fun n => match n.adc.pending with
    | some (l, t) =>
      let n := (n.upTo t).updAdc (fun a => { a with list := l, pending := none, frameDropped := true, slotsDone := [], samples := [] })
      (n.initRing l.desc0).initRing l.desc1
    | none => n

/-! ### Frames -/

/-- Each ring counts one dropped frame (R186, R191). -/
def Node.ringDropped (n : Node) (d : Nat) : Node := if d = 0 then n else n.write (d + 24) (leBytes 4 (satInc 32 (u32 (n.read d 64) 24)))

/-- The frame at boundary `t` is dropped on both converters (R186, R192, R194). -/
def Node.dropFrame (n : Node) (t : T64) (cause : Nat) : Node :=
  let n := (n.ringDropped n.adc.list.desc0).ringDropped n.adc.list.desc1
  n.updAdc (fun a => { a with frameAt := t, frameDropped := true, slotsDone := [], samples := [],
                              dropRun := some (match a.dropRun with | some (f, c, _) => (f, satInc 32 c, cause) | none => (t, 1, cause)) })

/-- A frame in progress that the I/O island or the Sequencer leaves unfinished is dropped (R194). -/
def Node.cutFrame (n : Node) : Node :=
  if n.adc.frameDropped || decide (n.adc.list.slots.length ≤ n.adc.slotsDone.length) then n else n.dropFrame n.adc.frameAt 1
/-- Frames begin again 5 µs from now (R194). -/
def Node.framesFrom (n : Node) : Node := n.updAdc (fun a => { a with frameDropped := true, notBefore := n.now + us 5 })

/-- ADC_FRAME (R184, R186, R192, R194): the next frame boundary. In sleep and on the wake from it nothing is counted. -/
def execAdcFrame (s : State) : Host.Outcome State Fault Refusal :=
  s.run fun n =>
    if (n.island Isl.io).st = .gated ∨ (n.glean.st = .waking ∧ !(n.runs Isl.io && n.runs Isl.seq)) then n
    else
      let p := us n.adc.list.period
      let t := nextGrid (max (max n.gridNow n.adc.notBefore) (n.adc.frameAt + 1)) p
      let n := n.upTo t
      let check := t % ms 100 == 0
      let long := check && decide (p < 1000 + 500 * slotTime n.adc.list.slots 0 ∨ p < 1000 + 500 * slotTime n.adc.list.slots 1)
      if !(n.runs Isl.io) ∨ !(n.runs Isl.seq) then n.dropFrame t 1
      else if long then n.dropFrame t 0
      else
        let n := match n.adc.dropRun with
          | some (f, c, cause) => (n.updAdc (fun a => { a with dropRun := none })).log Ev.adcFrameDropped f cause c
          | none => n
        n.updAdc (fun a => { a with frameAt := t, frameDropped := false, slotsDone := [], samples := [] })

/-! ### Rings -/

/-- One ring sample (R190): code as given, in the format, with slot, INVALID and OVR. -/
def ringSample (fmt slot : Nat) (code : Int) (signed inv ovr : Bool) : Nat :=
  let c := if fmt = 2 then ofSigned 16 code else ofSigned 16 (if signed then code + 32768 else code)
  if fmt = 1 then c * 2 ^ 16 + slot * 8 + 2 * b2n inv + b2n ovr
  else slot * 2 ^ 27 + b2n inv * 2 ^ 25 + b2n ovr * 2 ^ 24 + c

/-- A whole frame of a converter goes to its ring (R191). -/
def Node.ringWrite (n : Node) (conv : Nat) (samples : List (BitVec 32)) : Node :=
  let d := n.adc.list.desc conv
  let b := n.read d 64
  let base := u32 b 0
  let size := u32 b 4
  let rd := u32 b 12
  let w := u32 b 16
  let bytes := 4 * samples.length
  let room := if w < rd then rd - w else size - (w - rd)
  if size = 0 ∨ bytes = 0 then n
  else if u8 b 9 = 1 ∧ room ≤ bytes then
    (n.ringDropped d).write (d + 28) (leBytes 4 (u32 b 28 ||| 4))
  else
    let n := if w = 0 then n.write (d + 32) (leBytes 8 n.adc.frameAt) else if w = size / 2 then n.write (d + 40) (leBytes 8 n.adc.frameAt) else n
    let n := n.write (base + w) (samples.flatMap (fun x => leBytes 4 x.toNat))
    let w' := if size ≤ w + bytes then 0 else w + bytes
    let half := decide (w < size / 2 ∧ size / 2 ≤ w')
    let full := decide (w' = 0)
    let ev := (u32 b 20 + (b2n half + b2n full)) % 2 ^ 32
    let n := (n.write (d + 16) (leBytes 4 w' ++ leBytes 4 ev)).write (d + 28) (leBytes 4 (u32 b 28 ||| (b2n half + 2 * b2n full)))
    if u8 b 10 = 1 ∧ (half ∨ full) then n.log (if half then Ev.adcRingHalf else Ev.adcRingFull) conv ev (u32 b 24) else n

/-- The stall takes slots of both converters. -/
def AdcList.onBoth (l : AdcList) (src : Nat) : Bool :=
  l.slots.any (fun s => s.source == src && s.conv == 0) && l.slots.any (fun s => s.source == src && s.conv == 1)

/-! ### Codes (R179 to R183) -/

/-- The full scale of a source in nV, nK or nA, at which k is 65,536, or 32,768 for a signed one (R179, R183). AGND and the reference are
on the 0 to 10 V scale (R186). -/
def fullScale (src : Nat) : Nat :=
  if src = 8 then 40000000000 else if src = 9 then 80000000000 else if 10 ≤ src ∧ src < 14 then 512000000000
  else if 14 ≤ src ∧ src < 18 then 4000000000 else if 18 ≤ src ∧ src < 22 then 250000000 else 10000000000

/-- k of R179 for an input `x` of a source, in nV, nK or nA. In mode 2 `x` is the voltage at the land, which drives x ÷ shunt through the
shunt; the front end's gain cancels (R181). -/
def Node.inputK (n : Node) (src : Nat) (x : Int) : Int :=
  let st := n.stall (n.stallOf (32 + src))
  if src < 8 ∧ st.pf 8 1 = 2 then roundEven (x * 10 * 65536) (st.pf 10 2 * 24000000)
  else roundEven (x * (if n.sourceSigned src then 32768 else 65536)) (fullScale src)

/-- Code and OVR from k (R182); the internal sources saturate alike (DEDUCED, log 27). -/
def satCode (signed : Bool) (k : Int) : Int × Bool :=
  if signed then (clampI (-32768) 32767 k, decide (k < -32768 ∨ 32768 < k)) else (clampI 0 65535 k, decide (k < 0 ∨ 65536 < k))

/-- The result of a slot's conversions (R184): the mean of their codes, and OVR of any. -/
def Node.slotCode (n : Node) (src : Nat) (xs : List Int) : Int × Bool :=
  let cs := xs.map (fun x => satCode (n.sourceSigned src) (n.inputK src x))
  (roundEven (cs.map Prod.fst).sum cs.length, cs.any Prod.snd)

/-- Slot index `slot` of the frame in progress starts at this instant on its converter (R184, R186). -/
def Adc.slotStart (a : Adc) (slot conv : Nat) : T64 :=
  a.frameAt + (if a.frameAt % ms 100 = 0 then 1000 else 0) + 500 * slotTime (a.list.slots.take slot) conv

/-- The odd stall of a pair takes no value while its even stall runs in mode 1 (R180). -/
def Node.pairedOff (n : Node) (src : Nat) : Bool :=
  let e := n.stall (n.stallOf (31 + src))
  decide (src < 8 ∧ src % 2 = 1) && e.st == .running && e.pf 8 1 == 1

/-- A slot's result reaches its stall (R92, R180, R185): code × gain + offset, two rounded operations. OVER_RANGE is ANALOG's (R91). -/
def Node.slotToStall (n : Node) (sl : AdcSlot) (code : Int) (ovr : Bool) (t : T64) : Node :=
  match n.sourceStall sl.source with
  | some k =>
    let st := n.stall k
    let healthy := n.adc.checkOk.getLsbD sl.conv || !n.adc.list.onBoth sl.source
    if sl.source < 18 ∧ st.st = .running ∧ healthy ∧ !n.pairedOff sl.source then
      let v := b32.add (b32.mul (b32.ofInt code) (st.pf 12 4)) (st.pf 16 4)
      n.putStall k (((st.take (BitVec.ofNat 64 v) t).setStatus St.invalid false).setStatus St.overRange (ovr && st.kd == K.analog))
    else n
  | none => n

/-- Slot `slot` is the next of its converter: those before it on it are done (R184). -/
def Adc.nextSlot (a : Adc) (slot conv : Nat) : Bool :=
  !a.slotsDone.contains slot && (List.range slot).all (fun j => a.slotsDone.contains j || (a.list.slots[j]?.map AdcSlot.conv) != some conv)

/-- The inputs that the conversions of a source see: temperatures in nK from the die sensors, currents in nA in mode 2 and from PO0 to
PO3, voltages in nV from the others (R178, R179, R183). -/
def Node.inputsOf (n : Node) (src : Nat) (nV nK nA : List Int) : List Int :=
  if 10 ≤ src ∧ src < 14 then nK
  else if (src < 8 ∧ (n.stall (n.stallOf (32 + src))).pf 8 1 = 2) ∨ (14 ≤ src ∧ src < 18) then nA
  else nV

/-- ADC_SLOT_RESULT (R184, R185, R190, R191): the conversions of slot `slot` of the frame in progress saw these inputs, one for each;
which of the lists counts, follows from what the source measures. -/
def execAdcSlotResult (slot : Nat) (nV nK nA : List Int) (s : State) : Host.Outcome State Fault Refusal :=
  s.run fun n => match n.adc.list.slots[slot]? with
    | some sl =>
      let xs := n.inputsOf sl.source nV nK nA
      if n.adc.frameDropped ∨ !n.adc.nextSlot slot sl.conv ∨ xs.length ≠ 2 ^ sl.avg ∨ !(n.runs Isl.io) ∨ !(n.runs Isl.seq) then n
      else
        let start := n.adc.slotStart slot sl.conv
        let t := start + 160 + 250 * (2 ^ sl.avg - 1)
        let (code, ovr) := n.slotCode sl.source xs
        let n := n.upTo (start + 500 * 2 ^ sl.avg)
        let n := (n.updAdc (fun a => { a with slotsDone := a.slotsDone ++ [slot] })).slotToStall sl code ovr t
        let d := n.adc.list.desc sl.conv
        if sl.ring ∧ d ≠ 0 then
          let inv := match n.sourceStall sl.source with | some k => (n.stall k).st != .running | none => false
          let x := ringSample (u8 (n.read d 64) 8) slot code (n.sourceSigned sl.source) inv ovr
          let n := n.updAdc (fun a => { a with samples := a.samples ++ [(sl.conv, BitVec.ofNat 32 x)] })
          let mine := (n.adc.samples.filter (fun p => p.1 == sl.conv)).map Prod.snd
          if mine.length = ringSlots n.adc.list.slots sl.conv then n.ringWrite sl.conv mine else n
        else n
    | none => n

/-! ### The self-check -/

/-- The ANALOG stalls that have slots, all of them on a converter (R186). -/
def Node.analogOn (n : Node) (conv : Nat) : List Nat :=
  (List.range 8).filterMap (fun src =>
    let mine := n.adc.list.slots.filter (fun s => s.source == src)
    if mine ≠ [] ∧ mine.all (fun s => s.conv == conv) then n.sourceStall src else none)

/-- A check judges a stall of the converter: a transient fault, or the retry of one whose interval has elapsed (R186). -/
def Node.checkAnalog (n : Node) (k : Nat) (ok : Bool) : Node :=
  let st := n.stall k
  if st.st = .retrying ∧ st.cause = 10 then
    if st.retryAt ≤ n.now then n.judgeRetry k ok else n
  else if !ok ∧ st.st = .running then n.transientFault k 10 else n

/-- ADC_SELF_CHECK (R186, R192): converter `conv` at its next boundary on the 100 ms grid converted AGND, at `agndV`, and the reference,
at `refV`, in nV. On the 0 to 10 V scale 2.5 V is code 16,384 and 0.5 % of it 81.92; the code of AGND keeps its sign (DEDUCED, log 27). -/
def execAdcSelfCheck (conv : Nat) (agndV refV : Int) (s : State) : Host.Outcome State Fault Refusal :=
  s.run fun n =>
    if n.runs Isl.io then
      let t := nextGrid (max (max n.gridNow n.adc.notBefore) (n.adc.checkedAt.getD conv 0 + 1)) (Nat.lcm (us n.adc.list.period) (ms 100))
      let n := (n.upTo t).updAdc (fun a => { a with checkedAt := a.checkedAt.put conv t })
      let agnd := clampI (-32768) 32767 (n.inputK 22 agndV)
      let ref := (satCode false (n.inputK 23 refV)).1
      let ok := decide (agnd.natAbs ≤ 16) && decide (16303 ≤ ref ∧ ref ≤ 16465)
      let bits := if ok then n.adc.checkOk ||| (1#2 <<< conv) else n.adc.checkOk &&& ~~~(1#2 <<< conv)
      let n := n.updAdc (fun a => { a with checkOk := bits })
      let n := if ok then n else n.log Ev.adcSelfCheck conv (par agnd) (par ref)
      (n.analogOn conv).foldl (fun n k => n.checkAnalog k ok) n
    else n

/-- A recalibration of the I/O island failed: the immediate condition of cause 11 for the stalls whose slots all lie on one converter
(R186). -/
def Node.calibrationFailed (n : Node) : Node :=
  ((n.analogOn 0) ++ (n.analogOn 1)).foldl (fun n k => n.permanentFault k 11) n

end Sys2Proof.Machine
end

