-- ==== Sys2Proof/Machine/Position.lean ====
section
/-! DEFINITION. Position and speed feedback (09): decoding (R196 to R198), SSI frames (R199), count and extension (R201 to
R203), speed (R204, R205), latches (R206, R207) and compares (R208 to R213). -/

namespace Sys2Proof.Machine

/-- The stall's POSITION mode and settings of interface `i`. -/
def Node.encSet (n : Node) (i : Nat) : Stall := n.stall (n.encStall i)

/-- The interface counts: it was started, and the Motion island runs or sleeps (R202, R215). -/
def Node.encRuns (n : Node) (i : Nat) : Bool := (n.enc i).counting && (n.runs Isl.motion || n.slept Isl.motion)

/-! ### Speed (R204, R205) -/

/-- A rate in 2^-16 counts/s: `d` counts in `t` ns, rounded to nearest. -/
def rate (d : Int) (t : Nat) : Int := if t = 0 then 0 else roundDiv (d * 1000000000 * 65536) t

/-- The speed after an edge at `t` in a direction (R204). -/
def Enc.edge (e : Enc) (down : Bool) (t : T64) : Enc :=
  let sgn : Int := if down then -1 else 1
  let same := !e.standstill && e.down == down
  { e with speed := if same then rate sgn (t - e.lastEdge) else 0, speedInvalid := !same, standstill := false,
           interval := if e.standstill then 0 else t - e.lastEdge, down := down, lastEdge := t }

/-- A step in sleep: the direction and the instant of the last step are those of this one; the speed is not estimated (R203, R209, R215). -/
def Enc.sleepEdge (e : Enc) (down : Bool) (t : T64) : Enc :=
  { e with speed := 0, speedInvalid := true, standstill := false, interval := 0, down := down, lastEdge := t }

/-- The speed at a stall write with no edge since longer than the last interval (R204). -/
def Enc.fade (e : Enc) (now : T64) : Enc :=
  if e.interval ≠ 0 ∧ !e.standstill ∧ e.interval < now - e.lastEdge then
    { e with speed := rate (if e.down then -1 else 1) (now - e.lastEdge) }
  else e

/-! ### Latches (R206, R207) -/

/-- Latch `l` captures a position and a time. -/
def Latch.capture (l : Latch) (pos : Int) (t : T64) (down inv : Bool) : Latch :=
  if l.st = 1 ∨ (l.st = 2 ∧ l.continuous) then
    { l with st := if l.continuous then 1 else 2, overrun := l.overrun || !l.wasRead, position := BitVec.ofNat 64 (ofSigned 64 pos),
             time := t, down := down, invalid := inv, captures := l.captures + 1, wasRead := false }
  else l

/-- Every armed latch of a source captures. -/
def Node.captureAll (n : Node) (i source : Nat) (pos : Int) (t : T64) : Node :=
  let inv := !(n.encSet i).valid
  n.updEnc i (fun e => { e with latches := e.latches.mapE (fun _ l => if l.source = source then l.capture pos t e.down inv else l) })

/-! ### Compares (R208 to R211) -/

def Enc.compare (e : Enc) (c : Nat) : Compare := e.compares.getD c {}
def Node.setCompare (n : Node) (i c : Nat) (x : Compare) : Node := n.updEnc i (fun e => { e with compares := e.compares.put c x })

/-- C is behind for a position and a direction (R209). -/
def behindOf (c p : Int) (down : Bool) : Bool := if down then decide (p ≤ c) else decide (c ≤ p)

/-- The first grid point strictly ahead of `p` in a direction, and how many spacings away from `c` (R210). -/
def aheadOf (c p : Int) (d : Nat) (down : Bool) : Int × Nat :=
  let k := (p - c).natAbs / d + 1
  if behindOf c p down then (if down then (c - (k * d : Nat), k) else (c + (k * d : Nat), k)) else (c, 0)

/-- The nearest grid point ahead of `p` in a direction: the grid runs both ways from `c` (R210, reversal). -/
def nearestAhead (c p : Int) (d : Nat) (down : Bool) : Int :=
  let off := (if down then p - 1 - c else p + 1 - c)
  if down then c + off / (d : Int) * d else c - (-off) / (d : Int) * d

/-- The actions of a hit (R211, R215): the flag and the pulse, at most once per microsecond. -/
def Node.compareActs (n : Node) (i c : Nat) (t : T64) : Node :=
  let x := (n.enc i).compare c
  let soon := match x.lastAction with | some u => decide (t < u + us 1) | none => false
  if soon then n.setCompare i c { x with overrun := true }
  else
    let up := n.runs Isl.seq
    let n := n.setCompare i c { x with lastAction := some t, flagDue := x.flagDue || (!up && x.flag != 0xFF), overrun := x.overrun || (!up && x.pulse != noStall) }
    let n := if up && x.flag != 0xFF then { n with rcp := { n.rcp with flags := n.rcp.flags ||| (1#64 <<< x.flag) } } else n
    if up ∧ x.pulse ≠ noStall then
      let o := n.resource x.pulse - 16
      (n.setOut o { n.outPin o with pulseUntil := some (t + us x.width) }).engineWrite x.pulse 1 t
    else n

/-- Compare `c` sees the step from `p` to `p'` at `t` (R208, R210). -/
def Node.compareStep (n : Node) (i c : Nat) (p p' : Int) (reversed : Bool) (t : T64) : Node :=
  let x := (n.enc i).compare c
  let down := decide (p' < p)
  if !x.armed ∨ p = p' then n
  else
    let x := if reversed && x.auto && x.catchUp && behindOf x.value p down then { x with value := nearestAhead x.value p x.spacing down, behind := false } else x
    let n := n.setCompare i c x
    let hit := if down then decide (p' ≤ x.value ∧ x.value < p) else decide (p < x.value ∧ x.value ≤ p')
    if hit then
      let n := n.setCompare i c { x with hits := x.hits + 1, last := t, down := down }
      let n := (n.compareActs i c t).captureAll i (2 + c) x.value t
      let y := (n.enc i).compare c
      if y.auto then
        let v := if down then y.value - y.spacing else y.value + y.spacing
        if y.catchUp then
          let (w, k) := aheadOf v p' y.spacing down
          n.setCompare i c { y with value := w, skipped := min (y.skipped + k) (2 ^ 32 - 1), behind := false }
        else n.setCompare i c { y with value := v, behind := behindOf v p' down }
      else n.setCompare i c { y with armed := false, behind := false }
    else n

/-- Both compares see a step. -/
def Node.comparesStep (n : Node) (i : Nat) (p p' : Int) (reversed : Bool) (t : T64) : Node :=
  (n.compareStep i 0 p p' reversed t).compareStep i 1 p p' reversed t

/-! ### Decoding -/

/-- Place of the two levels in the up sequence 00, 10, 11, 01 (R196). -/
def quad (a b : Bool) : Nat := if a then (if b then 2 else 1) else if b then 3 else 0

/-- The step of new levels: some count, or none for an illegal transition (R196, R197). -/
def decodeStep (mode : Nat) (invert pa pb a b : Bool) : Option Int :=
  let d : Option Int :=
    if mode = 0 then
      let k := (quad a b + 4 - quad pa pb) % 4
      if k = 0 then some 0 else if k = 1 then some 1 else if k = 3 then some (-1) else none
    else if !pa && a then (if pb != b then none else some (if b then 1 else -1))
    else some 0
  d.map (fun z => if invert then -z else z)

/-- An illegal transition (R198): the transient fault of cause 6, and standstill for the speed. In RETRYING it is a further one, which the
retry fails for. -/
def Node.illegalStep (n : Node) (i : Nat) : Node :=
  let again := (n.encSet i).st == .retrying
  (n.updEnc i (fun e => { e.rest with illegal := true, illegalCount := min 255 (e.illegalCount + 1), illegalSince := again })).transientFault (n.encStall i) 6

/-- A step of one count at `t` (R201, R204, R208). In sleep only the count goes on (R215). The step that brings the raw counter 2^31 − 1
counts from its base loses the position (R201). -/
def Node.countStep (n : Node) (i : Nat) (d : Int) (t : T64) : Node :=
  let e := n.enc i
  let down := decide (d < 0)
  let raw := e.raw + BitVec.ofNat 32 (ofSigned 32 d)
  let moved := toSigned 32 (raw - e.rawBase).toNat
  let p' := e.base + moved
  let reversed := !e.standstill && e.down != down
  let live := n.runs Isl.motion
  let n := n.setEnc i { (if live then e.edge down t else e.sleepEdge down t) with raw := raw, ext := p' }
  let n := if moved = 2147483647 * d then n.positionLost i 2 else n
  if live then n.comparesStep i e.ext p' reversed t else n

/-- ENCODER_STEP (R195 to R198, R201, R204, R208): accepted levels of A and B at edge instant `t`. -/
def execEncoderStep (i : Nat) (a b : Bool) (t : T64) (s : State) : Host.Outcome State Fault Refusal :=
  s.run fun n =>
    let e := n.enc i
    let set := n.encSet i
    let n := n.setEnc i { e with a := a, b := b }
    if n.encRuns i ∧ set.pf 8 1 ≠ 2 then
      match decodeStep (set.pf 8 1) (set.pf 9 1 == 1) e.a e.b a b with
      | none => n.illegalStep i
      | some d => if d = 0 then n else n.countStep i d t
    else n

/-- ENCODER_Z_EDGE (R206). -/
def execEncoderZEdge (i : Nat) (rising : Bool) (t : T64) (s : State) : Host.Outcome State Fault Refusal :=
  s.run fun n =>
    let n := n.updEnc i (fun e => { e with z := rising })
    if (n.encSet i).pf 8 1 = 2 ∨ !(n.runs Isl.motion) then n else n.captureAll i (if rising then 0 else 1) (n.enc i).ext t

/-- LATCH_INPUT_EDGE (R206): the filtered edge of an input arrives now. -/
def execLatchInputEdge (input : Nat) (rising : Bool) (s : State) : Host.Outcome State Fault Refusal :=
  s.run fun n =>
    let src := (if rising then 16 else 32) + input
    if n.runs Isl.motion then (n.captureAll 0 src (n.enc 0).ext n.now).captureAll 1 src (n.enc 1).ext n.now else n

/-- LATCH_INSTANT (R206): the first sample at or after the instant lies at `t`. -/
def execLatchInstant (i l : Nat) (t : T64) (s : State) : Host.Outcome State Fault Refusal :=
  s.run fun n =>
    let e := n.enc i
    let x := e.latches.getD l {}
    if x.source = 4 ∧ x.st = 1 ∧ n.runs Isl.motion then
      let u := max x.instant t
      (n.upTo u).setEnc i { e with latches := e.latches.put l (x.capture e.ext u e.down (!(n.encSet i).valid)) }
    else n

/-- COMPARE_PULSE_END (R211): the width of a pulse on output `o` elapses. -/
def execComparePulseEnd (o : Nat) (s : State) : Host.Outcome State Fault Refusal :=
  s.run fun n => match (n.outPin o).pulseUntil with
    | some t => ((n.upTo t).setOut o { n.outPin o with pulseUntil := none }).engineWrite (n.outStall o) 0 t
    | none => n

/-! ### SSI (R199) -/

/-- SSI_FRAME_START (R199): t0 at the next multiple of ssi_period; `aHigh` is the level checked there, then Z is driven low. -/
def execSsiFrameStart (i : Nat) (aHigh : Bool) (s : State) : Host.Outcome State Fault Refusal :=
  s.run fun n =>
    let set := n.encSet i
    if set.pf 8 1 = 2 ∧ (n.enc i).counting ∧ n.runs Isl.motion ∧ (n.enc i).frame = none then
      let t := nextGrid (max n.gridNow ((n.enc i).frameAt + 1)) (us (set.pf 14 2))
      (n.upTo t).updEnc i (fun e => { e with frame := some (t, aHigh), a := aHigh, clock := false, frameAt := t })
    else n

/-- Gray code to binary: bit k is the parity of the bits from k upwards. -/
def grayToBin : Nat → Nat → Nat
  | 0, _ => 0
  | k + 1, g => let hi := grayToBin k (g / 2); 2 * hi + (hi + g) % 2

/-- A good word arrives (R201, R202, R205). -/
def Node.ssiWord (n : Node) (i word : Nat) (t : T64) : Node :=
  let set := n.encSet i
  let e := n.enc i
  let bits := set.pf 10 1
  let w := word % 2 ^ bits
  let w := if set.pf 11 1 = 1 then grayToBin bits w else w
  let raw := BitVec.ofNat 32 w
  if !e.haveFrame then
    n.setEnc i { e with haveFrame := true, raw := raw, ext := w, speed := 0, speedInvalid := true, goodFrames := 1, lastEdge := t }
  else
    let d0 : Int := ((w : Int) - e.raw.toNat + (2 ^ (bits - 1) : Nat)) % (2 ^ bits : Nat) - (2 ^ (bits - 1) : Nat)
    let d := if set.pf 9 1 = 1 then -d0 else d0
    let down := if d = 0 then e.down else decide (d < 0)
    let reversed := !e.standstill && d != 0 && e.down != down
    let second := decide (1 ≤ e.goodFrames)
    let n := n.setEnc i { e with raw := raw, ext := e.ext + d, goodFrames := min 2 (e.goodFrames + 1), lastEdge := t, down := down,
                                 standstill := e.standstill && d == 0, speed := if second then rate d (t - e.lastEdge) else 0,
                                 speedInvalid := !second }
    n.comparesStep i e.ext (e.ext + d) reversed t

/-- t5 of a frame that started at `t` (R199): half a clock period after the last bit, and 1 µs. -/
def Stall.frameEnd (s : Stall) (t : T64) : T64 := t + (2 * s.pf 10 1 + 1) * 1000000 / (2 * s.pf 12 2) + us 1

/-- SSI_FRAME_END (R199, R205): the word sampled and the level of A at t5; Z has been held high since t4. -/
def execSsiFrameEnd (i word : Nat) (aHigh : Bool) (s : State) : Host.Outcome State Fault Refusal :=
  s.run fun n => match (n.enc i).frame with
    | some (t, okAtStart) =>
      let n := (n.upTo ((n.encSet i).frameEnd t)).updEnc i (fun e => { e.dropFrame with a := aHigh })
      if !(n.enc i).counting || !(n.runs Isl.motion) then n
      else if !okAtStart || aHigh then
        (n.updEnc i (fun e => { e with speed := 0, speedInvalid := true, goodFrames := 0 })).transientFault (n.encStall i) 7
      else n.ssiWord i word t
    | none => n

/-! ### Rebase, stall write, standstill -/

/-- POSITION_REBASE (R201): the field cores rebase both interfaces; not while they restart (R215). -/
def execPositionRebase (s : State) : Host.Outcome State Fault Refusal :=
  s.run fun n =>
    if n.host.restarting ∨ !(n.runs Isl.core) then n
    else
      let f (e : Enc) : Enc := { e with base := e.ext, rawBase := e.raw }
      (n.updEnc 0 f).updEnc 1 f

/-- POSITION_STALL_WRITE (R198, R202 to R204): at the next multiple of 10 µs; in RETRYING the value is written and stays INVALID. -/
def execPositionStallWrite (i : Nat) (s : State) : Host.Outcome State Fault Refusal :=
  s.run fun n =>
    let n := n.upTo (nextGrid n.gridNow 10000)
    let k := n.encStall i
    let st := n.stall k
    if st.kd = K.position ∧ n.runs Isl.motion ∧ n.runs Isl.seq then
      let n := n.updEnc i (fun e => if st.pf 8 1 = 2 then e else e.fade n.now)
      let e := n.enc i
      if (st.st = .running ∨ st.st = .retrying) ∧ (st.pf 8 1 ≠ 2 ∨ e.haveFrame) then
        let st := st.setStatus St.invalid (st.st != .running)
        let v := BitVec.ofNat 64 (ofSigned 64 e.ext)
        let n := n.putStall k (if e.ext = e.lastWritten then { st with value := v } else st.takeAt v e.lastEdge)
        n.updEnc i (fun e => { e with lastWritten := e.ext })
      else n
    else n

/-- ENCODER_STANDSTILL (R204): 100 ms without an edge. -/
def execEncoderStandstill (i : Nat) (s : State) : Host.Outcome State Fault Refusal :=
  s.run fun n =>
    if (n.enc i).standstill ∨ (n.encSet i).pf 8 1 = 2 then n
    else (n.upTo ((n.enc i).lastEdge + ms 100)).updEnc i Enc.rest

/-! ### Commands -/

/-- The state of the POSITION stall refuses a latch or compare command (R207, R212). -/
def Node.posRefused (n : Node) (i : Nat) : List (Bool × Nat × Nat) :=
  let st := (n.encSet i).st
  [(st == .fallow, Rs.chanFallow, 0), (st != .running && st != .retrying, Rs.busy, 0)]

/-- The results of POS_LATCH (R207). -/
def Enc.latchResults (e : Enc) (l : Latch) : List Byte :=
  leBytes 1 l.st ++ leBytes 1 (b2n l.overrun + 2 * b2n l.down + 4 * b2n l.invalid) ++ [0, 0] ++ leBytes 4 l.captures.toNat
    ++ leBytes 8 l.position.toNat ++ leBytes 8 l.time ++ leBytes 4 e.raw.toNat
    ++ leBytes 4 (b2n e.illegal + 2 * b2n e.speedInvalid + 4 * b2n e.standstill + 8 * b2n e.lost + 256 * e.illegalCount)
    ++ leBytes 8 (ofSigned 64 e.speed)

/-- POS_LATCH (R206, R207). -/
def execPosLatch (path idx : Nat) (s : State) : Host.Outcome State Fault Refusal :=
  s.run fun n => n.hostCmd Cmd.posLatch path idx fun n m pl =>
    let i := u8 pl 0
    let j := u8 pl 1
    let op := u8 pl 2
    let src := u8 pl 3
    let t := u64 pl 8
    let arm := decide (op = 0)
    let e := n.enc i
    let l := e.latches.getD j {}
    n.checked m ([badIn i 0 1 0, badIn j 0 3 1, badIn op 0 2 2, badLen pl (if arm then 16 else 4)]
        ++ (if arm then [badRange (decide (4 < src ∧ src < 16 ∨ 47 < src)) 3, badIn (u8 pl 4) 0 1 4, badRes pl 5 3] else [])
        ++ n.posRefused i
        ++ (if arm then [badRange (decide (src ≤ 1) && (n.encSet i).pf 8 1 == 2) 3,
              badRange (if src = 4 then decide (t ≤ n.now ∨ n.now + sec 60 < t) else t != 0) 8] else []))
      (if arm then
         let l := { st := 1, source := src, continuous := u8 pl 4 == 1, instant := t : Latch }
         (n.setEnc i { e with latches := e.latches.put j l }).ok m (e.latchResults l)
       else if op = 1 then
         let l := { l with st := 0 }
         (n.setEnc i { e with latches := e.latches.put j l }).ok m (e.latchResults l)
       else
         (n.setEnc i { e with latches := e.latches.put j { l with overrun := false, wasRead := true }, illegal := false, illegalCount := 0 }).ok
           m (e.latchResults l))

/-- The results of POS_COMPARE (R212). -/
def Compare.results (c : Compare) : List Byte :=
  leBytes 1 (b2n c.armed) ++ leBytes 1 (b2n c.behind + 2 * b2n c.overrun + 4 * b2n c.down) ++ [0, 0] ++ leBytes 4 c.hits.toNat
    ++ leBytes 8 (ofSigned 64 c.value) ++ leBytes 4 c.skipped ++ leBytes 8 c.last

/-- A value is armed or written (R209, R210): behind while the interface moves, it is logged, and catch-up moves it ahead. -/
def Node.armCompare (n : Node) (i c : Nat) (x : Compare) : Node :=
  let e := n.enc i
  if !e.standstill ∧ behindOf x.value e.ext e.down then
    let (v, k) := if x.auto && x.catchUp then aheadOf x.value e.ext x.spacing e.down else (x.value, 0)
    let n := n.setCompare i c { x with value := v, behind := !x.catchUp, skipped := min (x.skipped + k) (2 ^ 32 - 1) }
    n.log Ev.compareBehind (i + 256 * c) (par x.value) k
  else n.setCompare i c { x with behind := false }

/-- POS_COMPARE (R208 to R213). -/
def execPosCompare (path idx : Nat) (s : State) : Host.Outcome State Fault Refusal :=
  s.run fun n => n.hostCmd Cmd.posCompare path idx fun n m pl =>
    let i := u8 pl 0
    let c := u8 pl 1
    let op := u8 pl 2
    let mode := u8 pl 3
    let d := u32 pl 4
    let flag := u8 pl 16
    let pulse := u16 pl 18
    let width := u32 pl 20
    let auto := bit mode 0
    let arm := decide (op = 0)
    let x := (n.enc i).compare c
    let pst := n.stall pulse
    let pulseOk := pulse == noStall || (decide (pulse < numStalls) && pst.isOut && !pst.pwm)
    n.checked m ([badIn i 0 1 0, badIn c 0 1 1, badIn op 0 2 2, badLen pl (if arm then 24 else 4)]
        ++ [(decide (4 ≤ mode), Rs.paramReserved, 3)] ++ (if arm then [badRange (decide (63 < flag) && flag != 0xFF) 16, badRes pl 17 1] else [])
        ++ n.posRefused i
        ++ (if arm then [badRange (bit mode 1 && !auto) 3, badRange (if auto then decide (d < 1 ∨ 2147483647 < d) else d != 0) 4,
              badRange (!pulseOk) 18, badRange (if pulse = noStall then width != 0 else decide (width < 1 ∨ 1000000 < width)) 20] else []))
      (if arm then
         let y : Compare := { x with armed := true, auto := auto, catchUp := bit mode 1, spacing := d, value := s64 pl 8, flag := flag,
                                     pulse := pulse, width := width, hits := 0, skipped := 0 }
         let n := n.armCompare i c y
         n.ok m ((n.enc i).compare c).results
       else if op = 1 then (n.setCompare i c { x with armed := false }).ok m { x with armed := false }.results
       else (n.setCompare i c { x with overrun := false }).ok m x.results)

end Sys2Proof.Machine
end

