-- ==== Sys2Proof/Machine/Drive.lean ====
section
/-! DEFINITION. The drive stage (11): DRIVE_CONFIG (R254, R255), the chopper (R247, R248), its faults (R252, R253), the
coils at standstill (R251), and what the stage does at each planner tick (R246, R250, R255). -/

namespace Sys2Proof.Machine

/-! ### Phases -/

/-- Phase A is 0, phase B is 1. -/
def Drive.phase (d : Drive) (p : Nat) : Phase := if p = 0 then d.phA else d.phB
def Drive.setPhase (d : Drive) (p : Nat) (ph : Phase) : Drive := if p = 0 then { d with phA := ph } else { d with phB := ph }
/-- The chopper runs in RUN and HOLD (R251). -/
def Drive.chops (d : Drive) : Bool := d.coil == .run || d.coil == .hold
/-- Change a phase of axis `a`. -/
def Node.updPhase (n : Node) (a p : Nat) (f : Phase → Phase) : Node := n.setDrv a ((n.drv a).setPhase p (f ((n.drv a).phase p)))

/-- The commanded position gives a phase a new amplitude (R246): a change of sign, also by way of 0, ends any on-time at
once and starts an off-time that is all fast decay (R248; DEDUCED, log 53). -/
def Phase.place (ph : Phase) (amp : Int) (chops : Bool) (t : T64) : Phase :=
  let x := ph.withAmplitude amp
  if chops ∧ amp ≠ 0 ∧ x.heading ≠ ph.heading then { x with bridge := if ph.lastPos then .driveNeg else .drivePos, chop := .allFast, since := t }
  else x

/-- A sense voltage stall takes a code with its gain and offset (R183, R250). -/
def Node.senseStall (n : Node) (r : Nat) (code : Int) (t : T64) : Node :=
  let k := n.stallOf r
  let st := n.stall k
  if st.st = .running ∧ n.runs Isl.seq then
    let v := b32.add (b32.mul (b32.ofInt code) (st.pf 12 4)) (st.pf 16 4)
    n.putStall k ((st.take (BitVec.ofNat 64 v) t).setStatus St.invalid false)
  else n

/-- The sense code a tick writes: of the last trip or forced off, 0 where no on-time ran since the last tick and where the
chopper does not run (R250, R251). -/
def Drive.senseCode (d : Drive) (ph : Phase) : Int := if d.chops && ph.worked then ph.sense else 0
/-- At a tick only an on-time in progress counts as one since it. -/
def Phase.tickWork (ph : Phase) : Phase := { ph with worked := ph.chop == .blank || ph.chop == .sampling }

/-- The amplitudes of axis `a` follow commanded position `p` at `t` (R246). -/
def Node.placeAt (n : Node) (a : Nat) (p : Int) (t : T64) : Node :=
  let d := n.drv a
  let (x, y) := d.amplitudes p
  n.setDrv a { d with phA := d.phA.place x d.chops t, phB := d.phB.place y d.chops t }
/-- The amplitudes follow the microsteps that the trajectory has crossed by the present instant (R219, R246). -/
def Node.placeSteps (n : Node) (a : Nat) : Node := n.placeAt a (ratRound ((n.axis a).motAt n.now).p) n.now

/-- What the drive stage of axis `a` does at tick `t`: a committed table takes effect, the amplitudes follow the commanded
position, and the sense stalls are written (R246, R250, R251, R255). -/
def Node.driveTick (n : Node) (a : Nat) (t : T64) : Node :=
  let d := n.drv a
  let n := (n.senseStall (54 + 2 * a) (d.senseCode d.phA) t).senseStall (55 + 2 * a) (d.senseCode d.phB) t
  let n := n.setDrv a { d with phA := d.phA.tickWork, phB := d.phB.tickWork, table := d.nextTable.getD d.table, nextTable := none }
  n.placeAt a (n.axis a).pos t

/-! ### The chopper -/

/-- Nanoseconds of 25 ns units. -/
def base25 (k : Nat) : Nat := 25 * k
/-- The longest on-time, 100 µs (R247). -/
def maxOnTime : Nat := 100000
/-- The fast-decay time in units of 25 ns: fast × t_off ÷ 100, rounded, a tie up (R247; log 53). -/
def Drive.fastTime (d : Drive) : Nat := (2 * d.fast * d.tOff + 100) / 200

/-- An event of the chopper of phase `p`, which follows the microsteps crossed by now. -/
def Node.chopStep (n : Node) (a p : Nat) (f : Node → Drive → Phase → Phase) : Node :=
  let n := n.placeSteps a
  n.updPhase a p (f n (n.drv a))

/-- CHOPPER_BLANK_END (R247): t_blank after the on-time began. -/
def execChopperBlankEnd (a p : Nat) (s : State) : Host.Outcome State Fault Refusal :=
  s.run fun n =>
    let ph := (n.drv a).phase p
    if ph.chop = .blank then
      (n.upTo (ph.since + base25 (n.drv a).tBlank)).chopStep a p (fun _ _ ph => if ph.chop = .blank then { ph with chop := .sampling } else ph)
    else n

/-- The signed sense code of an on-time: the sign of its drive state (R250), saturated at 16 bits. -/
def Phase.signed (ph : Phase) (code : Nat) : Int := clampI (-32768) 32767 (if ph.bridge = .drivePos then code else -(code : Int))

/-- `code` can reach V_ref, whose error is up to 2 % and 1 mV (R246, R249): V_fs is 26,214.4 units of the code and 1 mV is
131.072. -/
def reachesRef (code vref : Nat) : Bool := decide (98 * vref ≤ 32 * (1000 * code + 131072))
/-- `code` can stay below V_ref. -/
def belowRef (code vref : Nat) : Bool := decide (32 * 1000 * code < 102 * vref + 32 * 131072)

/-- CHOPPER_TRIP (R247, R250): `code` is |V_sense| in units of 7.62939453125 µV, at or above V_ref. -/
def execChopperTrip (a p code : Nat) (s : State) : Host.Outcome State Fault Refusal :=
  s.run fun n => n.chopStep a p (fun n d ph =>
    if ph.chop = .sampling ∧ n.now ≤ ph.since + maxOnTime ∧ reachesRef code (d.vref ph.amplitude) then
      { ph.offTime d.fast n.now with sense := ph.signed code, lowCycles := 0 }
    else ph)

/-- |V_sense| stays below 10 % of V_ref: V_ref is V_fs × vref ÷ 2^23 (R246, R253). -/
def lowSense (code vref : Nat) : Bool := decide (code * 3200 < vref)

/-- CHOPPER_FORCED_OFF (R247, R253): the on-time reached 100 µs; `peak` is the peak |V_sense|, which stayed below V_ref. -/
def execChopperForcedOff (a p peak : Nat) (s : State) : Host.Outcome State Fault Refusal :=
  s.run fun n =>
    let ph := (n.drv a).phase p
    if ph.chop = .sampling then
      (n.upTo (ph.since + maxOnTime)).chopStep a p (fun _ d ph =>
        if ph.chop = .sampling ∧ belowRef peak (d.vref ph.amplitude) then
          let low := d.chops && lowSense peak (d.vref ph.amplitude) && decide (8192 ≤ ph.amplitude.natAbs)
          { ph.offTime d.fast (ph.since + maxOnTime) with sense := ph.signed peak, lowCycles := if low then min 16 (ph.lowCycles + 1) else 0 }
        else ph)
    else n

/-- CHOPPER_SLOW_DECAY (R247): t_fast after the off-time began. -/
def execChopperSlowDecay (a p : Nat) (s : State) : Host.Outcome State Fault Refusal :=
  s.run fun n =>
    let ph := (n.drv a).phase p
    if ph.chop = .fast then
      (n.upTo (ph.since + base25 (n.drv a).fastTime)).chopStep a p (fun _ _ ph => if ph.chop = .fast then { ph with bridge := .brake, chop := .slow } else ph)
    else n

/-- CHOPPER_OFF_END (R247, R248): t_off after the off-time began. -/
def execChopperOffEnd (a p : Nat) (s : State) : Host.Outcome State Fault Refusal :=
  s.run fun n =>
    let ph := (n.drv a).phase p
    let t := ph.since + base25 (n.drv a).tOff
    if ph.chop = .slow ∨ ph.chop = .allFast then
      (n.upTo t).chopStep a p (fun _ d ph' => if ph'.since = ph.since then ph'.next d.fast t else ph')
    else n

/-! ### Faults and standstill -/

/-- BRIDGE_OVERCURRENT (R252): outside blanking, the transient fault of cause 1; both phases OPEN. -/
def execBridgeOvercurrent (a : Nat) (s : State) : Host.Outcome State Fault Refusal :=
  s.run fun n =>
    let d := n.drv a
    let seen (ph : Phase) : Bool := ph.chop != .off && ph.chop != .blank
    if d.chops && (seen d.phA || seen d.phB) then (n.coilsOff a).transientFault (n.axisStall a) 1 else n

/-- OPEN_PHASE (R253): 16 low cycles of a phase are the immediate condition of cause 12; the coils go OFF. -/
def execOpenPhase (a p : Nat) (s : State) : Host.Outcome State Fault Refusal :=
  s.run fun n =>
    let d := n.drv a
    if d.chops && decide (16 ≤ (d.phase p).lowCycles) then (n.coilsOff a).permanentFault (n.axisStall a) 12 else n

/-- COIL_IDLE_TIMEOUT (R251). -/
def execCoilIdleTimeout (a : Nat) (s : State) : Host.Outcome State Fault Refusal :=
  s.run fun n =>
    let d := n.drv a
    let x := n.axis a
    if x.st = .standstill ∧ d.coil = .run then
      let n := n.upTo (x.stood + ms d.idle)
      if d.standstill = 2 then n.setDrv a { d with coil := .hold }
      else
        let n := n.setDrv a (if d.standstill = 0 then { d with coil := .coast, phA := d.phA.openLands, phB := d.phB.openLands }
          else { d with coil := .short, phA := d.phA.brakeLands, phB := d.phB.brakeLands })
        if (n.encOf a).isNone then (n.updAxis a (fun x => { x with referenced := false })).log Ev.axisUnreferenced a 0 0 else n
    else n

/-! ### DRIVE_CONFIG (R254, R255) -/

/-- Entry `i` of an op 1 payload. -/
def tableEntry (pl : List Byte) (i : Nat) : Nat := u16 pl (8 + 2 * i)

/-- The first entry that fails: T(0) = 0, rising, at most 32,768 (R255). -/
def badEntry (prev : Option Nat) : List Nat → Nat → Option Nat
  | [], _ => none
  | e :: t, i =>
    if decide (32768 < e) || (match prev with | some q => decide (e < q) | none => e != 0) then some i else badEntry (some e) t (i + 1)

/-- The op 1 payload that stages entries `start` to `start + 127` of a table, as the configuration partition keeps it. -/
def stagePayload (a start : Nat) (tb : List Nat) : List Byte :=
  [BitVec.ofNat 8 a, 1, 0, 0] ++ leBytes 2 start ++ leBytes 2 128 ++ ((tb.drop start).take 128).flatMap (leBytes 2)

/-- The settings of op 0 and op 3, from offset 4. -/
def Drive.settings (d : Drive) : List Byte :=
  leBytes 2 d.tOff ++ leBytes 1 d.tBlank ++ leBytes 1 d.fast ++ leBytes 2 d.csRun ++ leBytes 2 d.csHold ++ leBytes 1 d.standstill
    ++ leBytes 1 (b2n (match d.nextTable with | some tb => tb.isSome | none => d.table.isSome)) ++ leBytes 2 d.idle

/-- DRIVE_CONFIG. -/
def execDriveConfig (path idx : Nat) (s : State) : Host.Outcome State Fault Refusal :=
  s.run fun n => n.hostCmd Cmd.driveConfig path idx fun n m pl =>
    let a := u8 pl 0
    let op := u8 pl 1
    let d := n.drv a
    let c := u16 pl 6
    let start := u16 pl 4
    let moving := !((n.axis a).st == .disabled || (n.axis a).st == .standstill)
    n.checked m [(decide (pl.length < 4), Rs.lengthBad, 0), badIn a 0 1 0, badIn op 0 5 1, badRes pl 2 2,
        (pl.length != (if op = 0 then 16 else if op = 1 then 8 + 2 * c else if op = 4 then 8 else 4), Rs.lengthBad, 0)]
      (if op = 0 then
         n.checked m [badIn (u16 pl 4) 80 1600 4, badIn (u8 pl 6) 20 120 6, badIn (u8 pl 7) 0 100 7, badIn (u16 pl 8) 1 256 8,
             badIn (u16 pl 10) 0 (min 256 (u16 pl 8)) 10, badIn (u8 pl 12) 0 2 12, badRes pl 13 1,
             ((n.stall (n.axisStall a)).active, Rs.chanBusy, 0)]
           (n.needCfg m Cmd.driveConfig
             (((n.setDrv a { d with tOff := u16 pl 4, tBlank := u8 pl 6, fast := u8 pl 7, csRun := u16 pl 8, csHold := u16 pl 10,
                                    standstill := u8 pl 12, idle := u16 pl 14 }).storeCfg Cmd.driveConfig a pl).ok m []))
       else if op = 1 then
         let es := (List.range c).map (tableEntry pl)
         let kept := if start = 0 then [] else d.staged
         let bad := badEntry kept.getLast? es 0
         n.checked m [badIn c 1 128 6, badRange (decide (256 < start + c)) 6, badRange (decide (start ≠ 0 ∧ start ≠ d.staged.length)) 4]
           (match bad with
            | some i => (n.setDrv a { d with staged := kept }).answer m Rs.paramRange (8 + 2 * i) []
            | none => (n.setDrv a { d with staged := kept ++ es }).ok m [])
       else if op = 2 then
         n.checked m [(d.staged.length != 256, Rs.busy, 0), (moving, Rs.axisMoving, 0)]
           (n.needCfg m Cmd.driveConfig
             (((((n.setDrv a { d with nextTable := some (some d.staged) }).storeCfg Cmd.driveConfig (a + 2) (stagePayload a 0 d.staged)).storeCfg
               Cmd.driveConfig (a + 4) (stagePayload a 128 d.staged)).storeCfg Cmd.driveConfig (a + 6) pl).ok m []))
       else if op = 3 then n.ok m ([BitVec.ofNat 8 a, 3, 0, 0] ++ d.settings)
       else if op = 4 then
         n.checked m [badIn c 1 128 6, badRange (decide (256 < start + c)) 6]
           (n.ok m ((List.range c).flatMap (fun i => leBytes 2 (d.entry (start + i)))))
       else
         n.checked m [(moving, Rs.axisMoving, 0)]
           (n.needCfg m Cmd.driveConfig (((n.setDrv a { d with nextTable := some none }).storeCfg Cmd.driveConfig (a + 6) pl).ok m [])))

end Sys2Proof.Machine
end

