-- ==== Sys2Proof/Machine/MoveOps.lean ====
section
/-! DEFINITION. What AXIS_MOVE is refused with (R223, R239) and its effect in each axis state (R224, R238, R239); the
recipe action uses both. -/

namespace Sys2Proof.Machine

/-- A limit switch of axis `a` is active (R217, R236): the positive one, or the negative one. -/
def Node.limitActive (n : Node) (a : Nat) (pos : Bool) : Bool :=
  let c := (n.axis a).cfg
  let j := if pos then c.limPos else c.limNeg
  j != noStall && (n.stall j).valid && ((n.stall j).value.getLsbD 0 != c.flags.getLsbD 1)

/-- Soft limits are on (R217). -/
def AxisCfg.soft (c : AxisCfg) : Bool := c.flags.getLsbD 0

/-- The end of a move: a distance counts from the target in force while the axis is MOVING toward a position, else from
the commanded position (R222). -/
def Axis.endOf (x : Axis) (mode : Nat) (target : Int) : Int :=
  if mode = 1 then
    match x.st, x.goal with
    | .moving, .position t => t + target
    | _, _ => x.pos + target
  else target

/-- BUSY or CHAN_FALLOW (R223). -/
def Node.moveBusy (n : Node) (a : Nat) : Option Nat :=
  let s := n.stall (n.axisStall a)
  if s.st = .fallow then some Rs.chanFallow
  else if s.st ≠ .running ∨ s.stopping ∨ (n.axis a).st = .disabled then some Rs.busy else none

/-- A table moves toward a switch where a point lies beyond its start on that side (R223, R236; DEDUCED, log 33). -/
def Axis.tableToward (x : Axis) (up : Bool) : Bool :=
  (List.range x.segLen).any (fun k => if up then decide (0 < (x.point k).2.2) else decide ((x.point k).2.2 < 0))

/-- The refusals of R223 after the ranges, and those of R239. -/
def Node.moveRefused (n : Node) (a mode : Nat) (target : Int) (lim : Int × Nat × Nat × Nat) : Option Nat :=
  let x := n.axis a
  let c := x.cfg
  let e := x.endOf mode target
  let up := if mode = 2 then decide (0 < lim.1) else if mode = 4 then x.tableToward true else decide (x.pos < e)
  let dn := if mode = 2 then decide (lim.1 < 0) else if mode = 4 then x.tableToward false else decide (e < x.pos)
  if mode = 0 ∧ !x.referenced then some Rs.axisUnreferenced
  else if c.vmax < lim.1.natAbs ∨ c.amax < lim.2.1 ∨ c.dmax < lim.2.2.1 then some Rs.limitExceeded
  else if mode ≤ 1 ∧ c.soft ∧ (e < c.softMin ∨ c.softMax < e) then some Rs.limitExceeded
  else if mode ≠ 3 ∧ ((up ∧ n.limitActive a true) ∨ (dn ∧ n.limitActive a false)) then some Rs.limitExceeded
  else if x.st = .segment ∧ (mode = 3 ∨ mode = 4) then some Rs.busy
  else if mode = 4 ∧ x.st ≠ .standstill then some Rs.axisMoving
  else none

/-- New limits for the present goal (R224): OVERSHOOT_REPLAN where they alone make the axis reverse. The answer tells
whether they do. -/
def Node.relimit (n : Node) (a : Nat) (t : Int) (lim : Int × Nat × Nat × Nat) : Bool × Node :=
  let n := n.settle a
  let x := n.axis a
  let rev := x.mustReverse t lim.2.2.1 lim.2.2.2 && !x.mustReverse t x.lim.2.2.1 x.lim.2.2.2
  let n := n.updAxis a (fun x => { x with lim := lim, timed := [] })
  (rev, if rev then n.log Ev.overshootReplan a (par t) (par (x.stopPoint lim.2.2.1 lim.2.2.2)) else n)

/-- A move of mode 0 to 3 takes effect (R224, R238, R239). The answer tells whether the axis must reverse. -/
def Node.applyMove (n : Node) (a mode : Nat) (target : Int) (lim : Int × Nat × Nat × Nat) : Bool × Node :=
  let n := n.settle a
  let x := n.axis a
  let geared := x.st = .geared ∨ x.st = .syncing
  if mode = 3 then
    (match x.st, x.goal with
     | .moving, .position t => n.relimit a t lim
     | .moving, .velocity w => (false, n.moveAt a w lim)
     | _, _ =>
       if geared then (false, n.updAxis a (fun x => { x with overlay := x.overlay.map (fun o => { o with lim := lim }) }))
       else (false, n))
  else if geared ∧ mode = 1 then
    (false, n.updAxis a (fun x => { x with timed := [], overlay := some (match x.overlay with
      | some o => { o with left := o.left + target * 2 ^ 32, lim := lim }
      | none => { left := target * 2 ^ 32, lim := lim }) }))
  else
    let e := x.endOf mode target
    let n := if x.st = .standstill then n.leaveStandstill a else n.abandonTable a
    if mode = 2 then (false, n.moveAt a lim.1 lim) else n.moveTo a e lim

/-- The recipe action AXIS_MOVE on axis stall `k` (R113, R222, R223): none when it took effect, else the status. -/
def Node.recipeMove (n : Node) (k : Nat) (target : Int) : Option Nat × Node :=
  if (n.stall k).kd ≠ K.axis then (some Rs.chanInvalid, n)
  else
    let a := n.resource k - 42
    let lim := (n.axis a).cfg.defaults
    match n.moveBusy a with
    | some st => (some st, n)
    | none =>
      match n.moveRefused a 0 target lim with
      | some st => (some st, n)
      | none => (none, (n.applyMove a 0 target lim).2)

end Sys2Proof.Machine
end

