-- ==== Sys2Proof/Machine/Gearing.lean ====
section
/-! DEFINITION. The validation of segment tables (R229) and the gear (R230 to R234):
master positions, the ratio arithmetic with its remainder, and cams. -/

namespace Sys2Proof.Machine

/-! ### Segment tables -/

/-- The coefficients of the velocity of an interval, times h: c2·s² + c1·s + c0 (R228). -/
def velPoly (h p0 v0 p1 v1 : ℚ) : ℚ × ℚ × ℚ :=
  (-6 * (p1 - p0) + 3 * h * (v0 + v1), 6 * (p1 - p0) - 2 * h * (2 * v0 + v1), h * v0)

/-- The peak of |velocity| inside an interval. -/
def peakVel (h p0 v0 p1 v1 : ℚ) : ℚ :=
  let (c2, c1, c0) := velPoly h p0 v0 p1 v1
  let ends := max |v0| |v1|
  if c2 = 0 then ends
  else
    let s := -c1 / (2 * c2)
    if 0 < s ∧ s < 1 then max ends |(c0 - c1 * c1 / (4 * c2)) / h| else ends

/-- Where the velocity of an interval is zero, inside it. -/
def velZeros (h p0 v0 p1 v1 : ℚ) : List ℚ :=
  let (c2, c1, c0) := velPoly h p0 v0 p1 v1
  let inside (s : ℚ) : Bool := decide (0 < s ∧ s < 1)
  if c2 = 0 then (if c1 = 0 then [] else [-c0 / c1].filter inside)
  else
    let disc := c1 * c1 - 4 * c2 * c0
    if disc < 0 then [] else [(-c1 + ratSqrt disc) / (2 * c2), (-c1 - ratSqrt disc) / (2 * c2)].filter inside

/-- Limits a table is checked against; no accelerations for a cam (R229, R233). -/
structure SegLimits where
  V : ℚ
  acc : Option (ℚ × ℚ)
  minStep : Nat
  unit : ℚ

/-- The check of R229 on interval k; the answer is the status. Structure answers PARAM_RANGE, magnitudes LIMIT_EXCEEDED
(DEDUCED, log 33). -/
def Axis.spanFault (x : Axis) (l : SegLimits) (start : Int) (k : Nat) : Option Nat :=
  let (h, p0, v0, p1, v1) := x.span k l.unit
  let soft (p : ℚ) : Bool := x.cfg.soft && decide (start + p < (x.cfg.softMin : ℚ) ∨ (x.cfg.softMax : ℚ) < start + p)
  if (x.point (k + 1)).1 < (x.point k).1 + l.minStep then some Rs.paramRange
  else if l.V < |v0| ∨ l.V < |v1| ∨ l.V < peakVel h p0 v0 p1 v1 then some Rs.limitExceeded
  else
    let a0 := |(6 * (p1 - p0) - 2 * h * (2 * v0 + v1)) / (h * h)|
    let a1 := |(-6 * (p1 - p0) + 2 * h * (v0 + 2 * v1)) / (h * h)|
    let accBad := match l.acc with
      | some (A, D) => decide ((if |v0| ≤ |v1| then A else D) < max a0 a1)
      | none => false
    if accBad then some Rs.limitExceeded
    else if soft p0 || soft p1 || (velZeros h p0 v0 p1 v1).any (fun s => soft (hermite h p0 v0 p1 v1 s).p) then some Rs.limitExceeded
    else none

/-- Validation of the whole table (R229): the status and the point index of the first failure. -/
def Axis.tableFault (x : Axis) (l : SegLimits) (start : Int) : Option (Nat × Nat) :=
  if x.segLen < 2 ∨ x.point 0 ≠ (0, 0, 0) then some (Rs.paramRange, 0)
  else (List.range (x.segLen - 1)).findSome? (fun k => (x.spanFault l start k).map (fun st => (st, k + 1)))

/-! ### Masters (R231) -/

/-- A value of 64 bits as a signed integer, in the format of the stall. -/
def Stall.asInt (s : Stall) : Int := toSigned 64 (regOf s.fm s.value).toNat
/-- A LINEPOINT takes an update: value, INVALID bit and format, with the sample instant as its stamp (R274). Its last two
updates are kept for a gear that follows it (R231). -/
def Stall.takePoint (x : Stall) (invalid : Bool) (format : Nat) (value : W64) (t : T64) : Stall :=
  let x := { x with staleCount := 0, entrySeen := true }
  if x.st = .running then
    let y := ({ x with format := BitVec.ofNat 8 format }.takeAt value t).setStatus St.invalid invalid
    { y with points := (t, y.asInt) :: (x.points.filter (fun q => q.1 != t)).take 1 }
  else x

/-- The two updates of a published master give a slope in counts per ns. -/
def slope : List (T64 × Int) → ℚ
  | a :: b :: _ => if a.1 = b.1 then 0 else (((a.2 - b.2 : Int) : ℚ)) / (((a.1 : Int) - (b.1 : Int) : Int) : ℚ)
  | _ => 0

/-- The master position at `t` (R231); until a second update a published master stands (DEDUCED, log 30). -/
def Node.masterPos (n : Node) (g : Gear) (t : T64) : Int :=
  if g.source = 0 then (n.enc (n.resource g.master - 40)).ext
  else if g.source = 1 then g.vmVel * ((t : Int) - (g.vmStart : Int)) / 256000000000
  else match (n.stall g.master).points with
    | (t1, v1) :: _ => v1 + ⌊slope (n.stall g.master).points * (((t : Int) - (t1 : Int) : Int) : ℚ)⌋
    | [] => 0

/-- The master speed in counts per second (R231). -/
def Node.masterSpeed (n : Node) (g : Gear) : ℚ :=
  if g.source = 0 then
    let e := n.enc (n.resource g.master - 40)
    if e.speedInvalid then 0 else (e.speed : ℚ) / 65536
  else if g.source = 1 then vel g.vmVel
  else slope (n.stall g.master).points * 1000000000

/-- The master is lost (R234); an encoder that is RETRYING continues from the decoded count (R240). -/
def Node.masterLost (n : Node) (g : Gear) : Bool :=
  let s := n.stall g.master
  if g.source = 0 then (n.enc (n.resource g.master - 40)).lost || !(s.st == .retrying || s.valid)
  else if g.source = 1 then false else !s.valid

/-! ### The gear arithmetic (R232, R233) -/

def Gear.sync (g : Gear) : Bool := g.flags.getLsbD 0
def Gear.cam (g : Gear) : Bool := g.flags.getLsbD 1
def Gear.repeats (g : Gear) : Bool := g.flags.getLsbD 2

/-- Move the master by `dm` at the ratio in force. -/
def Gear.feed (g : Gear) (dm : Int) : Gear :=
  let r := g.rem + dm * g.num
  let q := r / (g.den : Int)
  { g with rem := r - q * (g.den : Int), pg := g.pg + q }

/-- The master steps from m0 onto or across M_c, in either direction. -/
def crosses (m0 m1 mc : Int) : Bool := decide ((m0 < mc ∧ mc ≤ m1) ∨ (m1 ≤ mc ∧ mc < m0))

/-- Put a ratio in force, carrying the remainder. -/
def Gear.setRatio (g : Gear) (num : Int) (den : Nat) : Gear :=
  { g with num := num, den := den, rem := g.rem * (den : Int) / (g.den : Int), change := none, behind := false }

/-- The master reaches `m1`; the answer tells whether a scheduled change took effect. -/
def Gear.advance (g : Gear) (m1 : Int) : Bool × Gear :=
  let m0 := g.lastMaster
  let g := { g with lastMaster := m1 }
  match g.change with
  | some (mc, num, den) =>
    if crosses m0 m1 mc then (true, ((g.feed (mc - m0)).setRatio num den).feed (m1 - mc)) else (false, g.feed (m1 - m0))
  | none => (false, g.feed (m1 - m0))

/-- The velocity step between two ratios (R233). -/
def ratioStep (speed : ℚ) (num : Int) (den : Nat) (num' : Int) (den' : Nat) : ℚ :=
  |speed| * |(num' : ℚ) / (den' : ℚ) - (num : ℚ) / (den : ℚ)|

/-- The cam at `u` table units (R233): P(0) before the table, P(last) past it, or the table again with REPEAT. -/
def Axis.camAt (x : Axis) (u : Int) : ℚ :=
  let L := x.segEnd
  let pl : ℚ := ((x.point (x.segLen - 1)).2.2 : ℚ)
  if u < 0 ∨ L = 0 then 0
  else if u < (L : Int) then (x.curveAt (u : ℚ) 1).2.p
  else if x.gear.repeats then
    let r := u % (L : Int)
    ((u / (L : Int) : Int) : ℚ) * pl + (if r = 0 then 0 else (x.curveAt (r : ℚ) 1).2.p)
  else pl

/-- The position a gear commands: p_g, or the cam, with what an overlay has added (R233, R239). -/
def Axis.gearBase (x : Axis) (g : Gear) : ℚ :=
  (if g.cam then (g.engagedAt : ℚ) + x.camAt (g.pg - g.engagedAt) else (g.pg : ℚ)) + (g.shift : ℚ) / (2 ^ 32 : Nat)

end Sys2Proof.Machine
end

