-- ==== Sys2Proof/Machine/Motion.lean ====
section
/-! DEFINITION. Motion (10): the axis commands (R217, R222, R223, R225, R227, R230, R241), the planner tick (R219 to R221,
R224, R226 to R234), and the events of R223, R233 to R236. -/

namespace Sys2Proof.Machine

/-- The motion state as AXIS_STATUS codes it (R238). -/
def AxSt.code : AxSt → Nat
  | .disabled => 0 | .standstill => 1 | .moving => 2 | .stopping => 3 | .segment => 4 | .syncing => 5 | .geared => 6

/-- A limit stops axis `a` from its held state (R236): stop ramp, or quick stop on a switch; AXIS_LIMIT_STOP with its
cause. -/
def Node.limitStop (n : Node) (a cause : Nat) : Node :=
  let n := n.log Ev.axisLimitStop a cause (par (n.axis a).pos)
  let n := if cause = 2 ∨ cause = 3 then n.quickFrom a .limit else n.rampFrom a .limit
  n.updAxis a (fun x => { x with limit := true })

/-- The soft limit that the stop ramp from motion `m` would pass (R236): 0 lower, 1 upper. -/
def Axis.softBreach (x : Axis) (m : Mot) : Option Nat :=
  let D : ℚ := x.cfg.dStop
  let J : ℚ := x.cfg.jStop
  if !x.cfg.soft then none
  else if 0 < m.v ∧ (x.cfg.softMax : ℚ) < m.p + stopDist m.v m.a D J then some 1
  else if m.v < 0 ∧ m.p - stopDist (-m.v) (-m.a) D J < (x.cfg.softMin : ℚ) then some 0
  else none

/-- The axis comes to rest where it is held. -/
def Node.standStill (n : Node) (a : Nat) (t : T64) : Node :=
  (n.updAxis a (fun x => { x with st := .standstill, v := 0, a := 0, goal := .none, stopBy := .none, stood := t })).answerAxisStops a

/-- A stop goes on to `t` (R225). -/
def Node.stopTick (n : Node) (a : Nat) (t : T64) : Node :=
  let m := (n.axis a).motAt t
  let n := n.updAxis a (fun x => x.withMot m)
  if m.v = 0 ∧ m.a = 0 then n.standStill a t else n

/-- Take a motion unless a soft limit forbids it: then the axis brakes from its held state (R236). -/
def Node.takeMot (n : Node) (a : Nat) (m : Mot) (t : T64) (k : Node → Node) : Node :=
  match (n.axis a).softBreach m with
  | some c => (n.limitStop a c).stopTick a t
  | none => k (n.updAxis a (fun x => x.withMot m))

/-- A planner move goes on to `t` (R220, R221): the goal reached puts the axis in STANDSTILL with AT_TARGET. -/
def Node.moveTick (n : Node) (a : Nat) (t : T64) : Node :=
  let x := n.axis a
  let m := x.motAt t
  let done : Bool := decide (m.v = 0 ∧ m.a = 0) && (match x.goal with
    | .position tgt => decide (m.p = (tgt : ℚ))
    | .velocity w => decide (x.velGoal w = 0)
    | .none => false)
  n.takeMot a m t (fun n => if done then (n.standStill a t).updAxis a (fun x => { x with atTarget := true }) else n)

/-- A segment table at `t` (R228, R229): at its last point the axis stands, or goes on at the last velocity. -/
def Node.segTick (n : Node) (a : Nat) (t : T64) : Node :=
  let x := n.axis a
  let u : ℚ := (((t : Int) - (x.segStart.1 : Int) : Int) : ℚ) / 1000
  let last := x.point (x.segLen - 1)
  if u < 0 then n
  else n.takeMot a (x.tableAt t) t (fun n =>
    if (x.segEnd : ℚ) ≤ u then
      let n := n.updAxis a (fun x => { x with segAt := 0xFFFF })
      if last.2.1 = 0 then n.standStill a t
      else n.updAxis a (fun x => { x with st := .moving, goal := .velocity last.2.1, lim := (last.2.1, x.lim.2) })
    else n.updAxis a (fun x => { x with segAt := x.segIndex u }))

/-- The step of a ratio change is judged (R233): GEARED goes on, SYNCING begins, or the axis stops. -/
def Node.judgeStep (n : Node) (a : Nat) (step : ℚ) (t : T64) : Node :=
  let x := n.axis a
  let n := n.updAxis a (fun x => { x with gear := { x.gear with step := ratRound (step * 256) } })
  if step ≤ vel x.cfg.vstart then n
  else if x.gear.sync then n.updAxis a (fun x => { x with st := .syncing, gear := { x.gear with syncFrom := t } })
  else (n.log Ev.gearStep a 0 (par (ratRound (step * 256)))).rampFrom a .gear

/-- The motion of a trajectory from the held state, `e` of its span passed. -/
def Axis.legAt (x : Axis) (g : Leg) (m : Mot) (e : Nat) : Mot := if e = x.tickSpan then g.fin else g.after m (nsec e)

/-- The overlay of a relative move goes on to `t` (R239). -/
def Axis.overlayTick (x : Axis) (t : T64) : Axis :=
  match x.overlay with
  | some o =>
    let m : Mot := { p := 0, v := ratOf o.v, a := ratOf o.a }
    let l : Lims := { V := |vel o.lim.1|, A := o.lim.2.1, D := o.lim.2.2.1, J := o.lim.2.2.2 }
    let m' := x.legAt (m.toPos ((o.left : ℚ) / (2 ^ 32 : Nat)) l (nsec x.tickSpan)) m (x.elapsed t)
    let d := ratRound (m'.p * (2 ^ 32 : Nat))
    let o' : Overlay := { o with left := o.left - d, v := ratTo m'.v, a := ratTo m'.a }
    { x with gear := { x.gear with shift := x.gear.shift + d }, overlay := if o'.left = 0 then none else some o' }
  | none => x

/-- A geared or syncing axis goes on to `t` (R231 to R233, R236, R239). SYNCING is planned in the frame that moves with
the gear. -/
def Node.gearTick (n : Node) (a : Nat) (t : T64) : Node :=
  let x0 := n.axis a
  let g := x0.gear
  let base0 := x0.gearBase g
  let passed := nsec (t - x0.at_)
  let (changed, g') := g.advance (n.masterPos g t)
  let n := n.setAxis a ({ x0 with gear := g' }.overlayTick t)
  let n := if changed then n.judgeStep a (ratioStep (n.masterSpeed g') g.num g.den g'.num g'.den) t else n
  let x := n.axis a
  let base := x.gearBase x.gear
  let gv := (base - base0) / passed
  if x.st = .stopping then n.stopTick a t
  else if x.st = .syncing then
    let rel : Mot := { p := x.mot.p - base0, v := x.mot.v - gv, a := x.mot.a }
    let l : Lims := { V := vel x.cfg.vDef, A := x.cfg.aDef, D := x.cfg.dDef, J := x.cfg.jDef, base := gv }
    let rel := x.legAt (rel.toPos 0 l (nsec x.tickSpan)) rel (x.elapsed t)
    let m : Mot := { p := rel.p + base, v := rel.v + gv, a := rel.a }
    if vel x.cfg.vmax < |m.v| then (n.limitStop a 4).stopTick a t
    else n.takeMot a m t (fun n =>
      if |m.p - base| < 1 ∧ |m.v - gv| ≤ vel x.cfg.vstart then
        (n.log Ev.gearLocked a ((t - x.gear.syncFrom) / 1000) (par x.gear.lastMaster)).updAxis a (fun x => { x with st := .geared })
      else n)
  else
    let v := (base - x.mot.p) / passed
    if vel x.cfg.vmax < |v| then (n.limitStop a 4).stopTick a t
    else n.takeMot a { p := base, v := v, a := 0 } t id

/-- Axis `a` goes on from its held state to `t` by its state. -/
def Node.axisMotion (n : Node) (a : Nat) (t : T64) : Node :=
  if t ≤ (n.axis a).at_ then n
  else
    let n := match (n.axis a).st with
      | .disabled => n
      | .standstill => n
      | .moving => n.moveTick a t
      | .stopping => n.stopTick a t
      | .segment => n.segTick a t
      | .syncing => n.gearTick a t
      | .geared => n.gearTick a t
    n.updAxis a (fun x => { x with at_ := t })

/-- The following error of R235, none without a valid encoder. -/
def Node.ferr (n : Node) (a : Nat) : Option Int :=
  if n.encValid a then (n.encPos a).map (fun e => (n.axis a).pos - e) else none

/-- Count the ticks for which the following error stays beyond its window (R235); the check is suspended without a valid
encoder (R240). -/
def Node.ferrTick (n : Node) (a : Nat) : Node :=
  let x := n.axis a
  let beyond : Bool := match n.ferr a with
    | some e => x.cfg.ferrWindow != 0 && x.st != .disabled && decide (x.cfg.ferrWindow < e.natAbs)
    | none => false
  n.updAxis a (fun x => { x with ferrTicks := if beyond then x.ferrTicks + 1 else 0 })

/-- The AXIS stall takes the commanded position with the tick instant (R218); not while the Sequencer is away (R240). -/
def Node.writeAxis (n : Node) (a : Nat) (t : T64) : Node :=
  let k := n.axisStall a
  let s := n.stall k
  if s.active && n.runs Isl.seq && s.kd == K.axis then
    n.putStall k (s.takeAt (BitVec.ofNat 64 (ofSigned 64 (n.axis a).pos)) t)
  else n

/-- Axis `a` at tick `t`. -/
def Node.axisTick (n : Node) (a : Nat) (t : T64) : Node :=
  let n := (n.axisMotion a t).updAxis a (fun x => { x with tick := t, shown := (x.p, x.v, x.a) })
  ((n.ferrTick a).writeAxis a t).driveTick a t

/-- The next tick: the first multiple of 20 µs that has not been carried out (R219). -/
def Node.tickAt (n : Node) : T64 :=
  let t := nextGrid n.gridNow 20000
  if (n.axis 0).tick = t then t + 20000 else t

/-- PLANNER_TICK (R219). -/
def execPlannerTick (s : State) : Host.Outcome State Fault Refusal :=
  s.run fun n =>
    if n.runs Isl.motion then
      let t := n.tickAt
      ((n.upTo t).axisTick 0 t).axisTick 1 t
    else n

/-! ### Commands -/

/-- The instant of a motion command is 0, or not past and at most 60 s ahead (R223). -/
def badInstant (n : Node) (t off : Nat) : Bool × Nat × Nat := badRange (t != 0 && decide (t < n.now ∨ n.now + sec 60 < t)) off

/-- A jerk a move may use (R217, R222). -/
def jerkOk (jmin j : Nat) : Bool := if j = 0 then jmin == 0 else decide (jmin ≤ j)

/-- The ranges of op 0 (R217). -/
def axisCfgChecks (pl : List Byte) : List (Bool × Nat × Nat) :=
  let g (o : Nat) := u32 pl o
  let ceil := 0x0BB80000
  let acc := 1000000000
  [badIn (g 4) 1 ceil 4, badIn (g 8) 1 acc 8, badIn (g 12) 1 acc 12, badIn (g 20) 1 (g 4) 20, badIn (g 24) 1 (g 8) 24,
   badIn (g 28) 1 (g 12) 28, badRange (!jerkOk (g 16) (g 32)) 32, badIn (g 36) 1 (g 12) 36, badRange (!jerkOk (g 16) (g 40)) 40,
   badIn (g 44) 0 (g 4) 44, badRange (decide (s64 pl 56 ≤ s64 pl 48)) 56, badRange (s32 pl 64 == 0) 64, badRange (g 68 == 0) 68,
   badRange (u16 pl 76 == 0) 76, (decide (4 ≤ u16 pl 78), Rs.paramReserved, 78),
   badRange (decide (numStalls ≤ u16 pl 80) && u16 pl 80 != noStall) 80, badRange (decide (numStalls ≤ u16 pl 82) && u16 pl 82 != noStall) 82]

/-- The configuration of a payload. -/
def AxisCfg.ofBytes (pl : List Byte) : AxisCfg :=
  { vmax := u32 pl 4, amax := u32 pl 8, dmax := u32 pl 12, jmin := u32 pl 16, vDef := u32 pl 20, aDef := u32 pl 24, dDef := u32 pl 28,
    jDef := u32 pl 32, dStop := u32 pl 36, jStop := u32 pl 40, vstart := u32 pl 44, softMin := s64 pl 48, softMax := s64 pl 56,
    encNum := s32 pl 64, encDen := u32 pl 68, ferrWindow := u32 pl 72, ferrTime := u16 pl 76, flags := BitVec.ofNat 16 (u16 pl 78),
    limNeg := u16 pl 80, limPos := u16 pl 82 }

/-- The 96 bytes of op 2. -/
def AxisCfg.toBytes (c : AxisCfg) (a : Nat) : List Byte :=
  [BitVec.ofNat 8 a, 2, 0, 0] ++ leBytes 4 c.vmax.toNat ++ leBytes 4 c.amax ++ leBytes 4 c.dmax ++ leBytes 4 c.jmin ++ leBytes 4 c.vDef.toNat
    ++ leBytes 4 c.aDef ++ leBytes 4 c.dDef ++ leBytes 4 c.jDef ++ leBytes 4 c.dStop ++ leBytes 4 c.jStop ++ leBytes 4 c.vstart.toNat
    ++ leBytes 8 (ofSigned 64 c.softMin) ++ leBytes 8 (ofSigned 64 c.softMax) ++ leBytes 4 (ofSigned 32 c.encNum) ++ leBytes 4 c.encDen
    ++ leBytes 4 c.ferrWindow ++ leBytes 2 c.ferrTime ++ leBytes 2 c.flags.toNat ++ leBytes 2 c.limNeg ++ leBytes 2 c.limPos
    ++ leBytes 4 0 ++ leBytes 8 0

/-- Set the commanded position (R217 op 1); an axis that is DISABLED stands still too (DEDUCED, log 28). -/
def Node.setPosition (n : Node) (a : Nat) (p : Int) : Node :=
  let off := match n.encOf a with | some i => p - n.encScaled a i | none => (n.axis a).encOffset
  n.updAxis a (fun x => { x.place p with referenced := true, encOffset := off, encOffsetSet := true })

/-- AXIS_CONFIG (R217, R489). -/
def execAxisConfig (path idx : Nat) (s : State) : Host.Outcome State Fault Refusal :=
  s.run fun n => n.hostCmd Cmd.axisConfig path idx fun n m pl =>
    let a := u8 pl 0
    let op := u8 pl 1
    let k := n.axisStall a
    let x := n.axis a
    let noPos := badRange (u64 pl 88 != 0) 88
    n.checked m [badLen pl 96, badIn a 0 1 0, badIn op 0 2 1, badRes pl 2 2, badRes pl 84 4]
      (if op = 0 then
         n.checked m ([((n.stall k).active, Rs.chanBusy, 0)] ++ axisCfgChecks pl ++ [noPos])
           (n.needCfg m Cmd.axisConfig
             (((n.updAxis a (fun x => { x with cfg := AxisCfg.ofBytes pl, configured := true })).storeCfg Cmd.axisConfig a pl).ok m []))
       else if op = 1 then
         n.checked m [((n.stall k).st == .fallow, Rs.chanFallow, 0),
             (x.st != .standstill && x.st != .disabled, Rs.axisMoving, 0)]
           (let mode2 := match n.encOf a with | some i => (n.stall (n.encStall i)).pf 8 1 == 2 | none => false
            let n := n.setPosition a (s64 pl 88)
            (if mode2 then n.storeCfg Cmd.axisConfig (a + 2) pl else n).ok m [])
       else n.checked m [noPos] (n.ok m (x.cfg.toBytes a)))

/-- The ranges of AXIS_MOVE (R216, R222). -/
def Node.moveRanges (n : Node) (a : Nat) (pl : List Byte) : List (Bool × Nat × Nat) :=
  let mode := u8 pl 1
  let dflt := bit (u16 pl 2) 0
  [badIn mode 0 4 1, (decide (2 ≤ u16 pl 2), Rs.paramReserved, 2),
   badRange (!dflt && mode != 2 && decide (u32 pl 4 < 1 ∨ 0x0BB80000 < u32 pl 4)) 4,
   badRange (!dflt && mode == 2 && decide (0x0BB80000 < (s32 pl 4).natAbs)) 4,
   badRange (!dflt && decide (u32 pl 8 < 1 ∨ 1000000000 < u32 pl 8)) 8, badRange (!dflt && decide (u32 pl 12 < 1 ∨ 1000000000 < u32 pl 12)) 12,
   badRange (!dflt && !jerkOk (n.axis a).cfg.jmin (u32 pl 16)) 16, badRes pl 20 4, badRange (decide (2 ≤ mode) && u64 pl 24 != 0) 24,
   badInstant n (u64 pl 32) 32]

/-- The limits a payload names: its own, or the defaults (R222). -/
def Node.moveLims (n : Node) (a : Nat) (pl : List Byte) : Int × Nat × Nat × Nat :=
  if bit (u16 pl 2) 0 then (n.axis a).cfg.defaults
  else (if u8 pl 1 = 2 then s32 pl 4 else (u32 pl 4 : Int), u32 pl 8, u32 pl 12, u32 pl 16)

/-- What a table is checked against with the limits of a mode 4 request (R229). -/
def segLims (lim : Int × Nat × Nat × Nat) : SegLimits :=
  { V := vel lim.1, acc := some (lim.2.1, lim.2.2.1), minStep := 20, unit := 1 / 1000000 }

/-- The segment table starts at `t` from the commanded position (R229). -/
def Node.startTable (n : Node) (a : Nat) (lim : Int × Nat × Nat × Nat) (t : T64) : Node :=
  ((n.settle a).leaveStandstill a).updAxis a (fun x =>
    { x with st := .segment, lim := lim, segStart := (t, x.pos), segAt := 0, goal := .none, timed := [], atTarget := false, limit := false })

/-- A move of any mode takes effect at `t`. -/
def Node.moveNow (n : Node) (a mode : Nat) (target : Int) (lim : Int × Nat × Nat × Nat) (t : T64) : Bool × Node :=
  if mode = 4 then (false, n.startTable a lim t) else n.applyMove a mode target lim

/-- The next tick after now, at which a command with instant 0 takes effect (R222, R224). -/
def Node.nextTick (n : Node) : T64 := nextGrid n.gridNow 20000

/-- The results of AXIS_MOVE (R222). -/
def moveResults (st : AxSt) (rev shoot : Bool) (e : Int) : List Byte :=
  [BitVec.ofNat 8 st.code, BitVec.ofNat 8 (b2n rev + 2 * b2n shoot), 0, 0] ++ leBytes 8 (ofSigned 64 e)

/-- AXIS_MOVE (R222 to R224, R229). -/
def execAxisMove (path idx : Nat) (s : State) : Host.Outcome State Fault Refusal :=
  s.run fun n => n.hostCmd Cmd.axisMove path idx fun n m pl =>
    let a := u8 pl 0
    let mode := u8 pl 1
    let t := u64 pl 32
    let target := s64 pl 24
    let lim := n.moveLims a pl
    let x := n.axis a
    let fault := if mode = 4 then x.tableFault (segLims lim) x.pos else none
    n.checked m ([badLen pl 40, badIn a 0 1 0, ((n.moveBusy a).isSome, (n.moveBusy a).getD 0, 0)] ++ n.moveRanges a pl
        ++ [((n.moveRefused a mode target lim).isSome, (n.moveRefused a mode target lim).getD 0, 0),
            (fault.isSome, (fault.getD (0, 0)).1, (fault.getD (0, 0)).2)])
      (let e := if mode = 2 ∨ mode = 4 then 0 else if mode = 3 then (match x.goal with | .position p => p | _ => 0) else x.endOf mode target
       if t = 0 then
         let at_ := n.nextTick
         let (rev, n) := ((n.upTo at_).axisMotion a at_).moveNow a mode target lim at_
         n.ok m (moveResults (n.axis a).st (rev && mode != 3) (rev && mode == 3) e)
       else
         (n.updAxis a (fun x => { x with timed := x.timed ++ [.move mode lim.1 lim.2.1 lim.2.2.1 lim.2.2.2 target t] })).ok m
           (moveResults x.st false false e))

/-- A stop of axis `a` takes effect (R225); an axis that stands answers at once. -/
def Node.stopNow (n : Node) (a ramp : Nat) : Node :=
  let n := n.updAxis a (fun x => { x with timed := [] })
  let n := if ramp = 2 then n.coilsOffStop a else if ramp = 1 then n.quickStop a .command else n.rampStop a .command
  if (n.axis a).st = .standstill ∨ (n.axis a).st = .disabled then n.answerAxisStops a else n

/-- AXIS_STOP (R225): answered when the axis stands. -/
def execAxisStop (path idx : Nat) (s : State) : Host.Outcome State Fault Refusal :=
  s.run fun n => n.hostCmd Cmd.axisStop path idx fun n m pl =>
    let a := u8 pl 0
    let ramp := u8 pl 1
    let t := u64 pl 4
    n.checked m [badLen pl 12, badIn a 0 1 0, badIn ramp 0 2 1, badRes pl 2 2, badInstant n t 4]
      (let n := n.updAxis a (fun x => { x with stopWaiters := x.stopWaiters ++ [m] })
       if t = 0 then ((n.upTo n.nextTick).axisMotion a n.nextTick).stopNow a ramp
       else n.updAxis a (fun x => { x with timed := x.timed ++ [.stop ramp t] }))

/-- The instant of a scheduled command. -/
def Timed.instant : Timed → T64
  | .move _ _ _ _ _ _ t => t
  | .stop _ t => t

/-- The first of the earliest scheduled commands, and those accepted after it: what was accepted before it is cancelled
when it takes effect (R223). -/
def earliest (ts : List Timed) : Option (Timed × List Timed) :=
  (List.range ts.length).foldl (fun b i =>
    match ts[i]?, b with
    | some e, some (c, _) => if e.instant < c.instant then some (e, ts.drop (i + 1)) else b
    | some e, none => some (e, ts.drop (i + 1))
    | none, _ => b) none

/-- TIMED_MOTION_DUE (R222, R223, R225). -/
def execTimedMotionDue (a : Nat) (s : State) : Host.Outcome State Fault Refusal :=
  s.run fun n => match earliest (n.axis a).timed with
    | some (e, rest) =>
      let n := (n.upTo e.instant).axisMotion a e.instant
      let n := match e with
        | .move mode v ac d j target t => (n.moveNow a mode target (v, ac, d, j) t).2
        | .stop ramp _ => n.stopNow a ramp
      n.updAxis a (fun x => { x with timed := rest })
    | none => n

/-- SEGMENT_LOAD (R227). -/
def execSegmentLoad (path idx : Nat) (s : State) : Host.Outcome State Fault Refusal :=
  s.run fun n => n.hostCmd Cmd.segmentLoad path idx fun n m pl =>
    let a := u8 pl 0
    let x := n.axis a
    let off := u16 pl 4
    let c := u16 pl 6
    let len := if off = 0 then u16 pl 2 else x.segLen
    let camBusy := (x.st == .geared || x.st == .syncing) && x.gear.cam
    n.checked m [(decide (pl.length < 8), Rs.lengthBad, 0), badIn a 0 1 0, badRes pl 1 1, badRange (off == 0 && decide (len < 2 ∨ 4096 < len)) 2,
        badIn c 1 29 6, badLen pl (8 + 16 * c), (x.st == .segment || camBusy, Rs.busy, 0), badRange (decide (len < off + c)) 4]
      (if n.partRo 3 then n.degraded m Cmd.segmentLoad 0 else
       let base := if off = 0 then [] else x.seg
       let seg := (List.range c).foldl (fun sg i =>
         let o := 8 + 16 * i
         Tbl.put sg (off + i) (u32 pl o, s32 pl (o + 4), s64 pl (o + 8))) base
       (n.updAxis a (fun x => { x with seg := seg, segLen := len })).ok m [])

/-- gstatus: PENDING, BEHIND, LOCKED (R230). -/
def Axis.gstatus (x : Axis) : Nat := b2n x.gear.change.isSome + 2 * b2n x.gear.behind + 4 * b2n (x.st == .geared)

/-- The results of GEAR_SET (R230). -/
def Axis.gearResults (x : Axis) : List Byte :=
  let g := x.gear
  [BitVec.ofNat 8 x.st.code, BitVec.ofNat 8 x.gstatus, 0, 0] ++ leBytes 8 (ofSigned 64 g.lastMaster) ++ leBytes 8 (ofSigned 64 g.pg)
    ++ leBytes 8 (ofSigned 64 ((g.change.map (fun c => c.1)).getD 0)) ++ leBytes 4 (ofSigned 32 g.num) ++ leBytes 4 g.den
    ++ leBytes 8 (ofSigned 64 g.rem)

/-- The ranges of GEAR_SET op 0 (R230). -/
def Node.gearChecks (n : Node) (pl : List Byte) : List (Bool × Nat × Nat) :=
  let src := u8 pl 2
  let ms := u16 pl 4
  let okMaster := if src = 0 then ms == 40 || ms == 41 else if src = 1 then ms == noStall else decide (ms < numStalls) && (n.stall ms).kd == K.linepoint
  [badIn src 0 2 2, badRange (!okMaster) 4, badRange (u32 pl 12 == 0) 12,
   badRange (bit (u8 pl 3) 3 && u64 pl 16 != 0) 16, badRange (src != 1 && u32 pl 24 != 0) 24, badRange (src != 1 && u64 pl 32 != 0) 32]

/-- What a cam is checked against at engagement (R233): R229 without accelerations, in table units; the velocity limit is
vmax and times rise by at least one unit (DEDUCED, log 33). -/
def camLims (c : AxisCfg) : SegLimits := { V := vel c.vmax, acc := none, minStep := 1, unit := 1 }

/-- The cam's fault at engagement, with REPEAT's equal end velocities (R233). -/
def Axis.camFault (x : Axis) (rep : Bool) : Option (Nat × Nat) :=
  match x.tableFault (camLims x.cfg) x.pos with
  | some f => some f
  | none => if rep && (x.point 0).2.1 != (x.point (x.segLen - 1)).2.1 then some (Rs.paramRange, x.segLen - 1) else none

/-- The gear a payload engages from the commanded position (R232): ratio 0/1 until M_c, or N/D at once with NOW. -/
def Node.newGear (n : Node) (a : Nat) (pl : List Byte) (t : T64) : Gear :=
  let x := n.axis a
  let now := bit (u8 pl 3) 3
  let g : Gear := { source := u8 pl 2, flags := BitVec.ofNat 8 (u8 pl 3), master := u16 pl 4, pg := x.pos, engagedAt := x.pos,
                    vmVel := s32 pl 24, vmStart := u64 pl 32, syncFrom := t }
  let m0 := n.masterPos g t
  let g := { g with lastMaster := m0 }
  if now then { g with num := s32 pl 8, den := u32 pl 12 }
  else
    let sp := n.masterSpeed g
    let mc := s64 pl 16
    { g with change := some (mc, s32 pl 8, u32 pl 12), behind := decide ((0 < sp ∧ mc ≤ m0) ∨ (sp < 0 ∧ m0 ≤ mc)) }

/-- Engage from STANDSTILL, MOVING or a stop that is replaced (R232, R233, R239). -/
def Node.engage (n : Node) (a : Nat) (g : Gear) (sync : Bool) : Node :=
  let n := n.settle a
  let n := if (n.axis a).st = .standstill then n.leaveStandstill a else n
  n.updAxis a (fun x =>
    { x with st := if sync then .syncing else .geared, gear := g, goal := .none, timed := [], stopBy := .none, overlay := none,
             atTarget := false, limit := false })

/-- GEAR_SET op 0 on an axis that is not geared. -/
def Node.gearEngage (n : Node) (m a : Nat) (pl : List Byte) : Node :=
  let x := n.axis a
  let t := n.nextTick
  let n' := (n.upTo t).axisMotion a t
  let g := n'.newGear a pl t
  let step := if bit (u8 pl 3) 3 then ratioStep (n.masterSpeed g) 0 1 g.num g.den else 0
  let above := decide (vel x.cfg.vstart < step)
  let fault := if g.cam then x.camFault g.repeats else none
  n.checked m [(x.st == .segment || (x.st != .standstill && !g.sync), Rs.axisMoving, 0),
      (fault.isSome, (fault.getD (0, 0)).1, (fault.getD (0, 0)).2), (above && !g.sync, Rs.limitExceeded, 0)]
    (let n := n'.engage a { g with step := ratRound (step * 256) } (x.st != .standstill || above)
     n.ok m (n.axis a).gearResults)

/-- GEAR_SET op 0 on a geared axis schedules, replaces or with NOW makes a change of ratio; source, master and cam stay
(DEDUCED, log 31). -/
def Node.gearChange (n : Node) (m a : Nat) (pl : List Byte) : Node :=
  let x := n.axis a
  let num := s32 pl 8
  let den := u32 pl 12
  let sync := bit (u8 pl 3) 0
  let keep := (x.gear.flags &&& 0xFE#8) ||| (if sync then 1#8 else 0#8)
  let sp := n.masterSpeed x.gear
  if bit (u8 pl 3) 3 then
    let step := ratioStep sp x.gear.num x.gear.den num den
    n.checked m [(decide (vel x.cfg.vstart < step) && !sync, Rs.limitExceeded, 0)]
      (let t := n.nextTick
       let n := ((n.upTo t).axisMotion a t).updAxis a (fun x => { x with timed := [], gear := { x.gear.setRatio num den with flags := keep } })
       let n := n.judgeStep a step t
       n.ok m (n.axis a).gearResults)
  else
    let mc := s64 pl 16
    let m0 := x.gear.lastMaster
    let behind := decide ((0 < sp ∧ mc ≤ m0) ∨ (sp < 0 ∧ m0 ≤ mc))
    let n := n.updAxis a (fun x => { x with timed := [], gear := { x.gear with change := some (mc, num, den), behind := behind, flags := keep } })
    n.ok m (n.axis a).gearResults

/-- GEAR_SET (R230 to R234, R239). -/
def execGearSet (path idx : Nat) (s : State) : Host.Outcome State Fault Refusal :=
  s.run fun n => n.hostCmd Cmd.gearSet path idx fun n m pl =>
    let a := u8 pl 0
    let op := u8 pl 1
    let geared := (n.axis a).st == .geared || (n.axis a).st == .syncing
    n.checked m [badLen pl 40, badIn a 0 1 0, badIn op 0 2 1, (decide (16 ≤ u8 pl 3), Rs.paramReserved, 3), badRes pl 6 2, badRes pl 28 4]
      (if op = 0 then
         n.checked m (((n.moveBusy a).isSome, (n.moveBusy a).getD 0, 0) :: n.gearChecks pl)
           (if geared then n.gearChange m a pl else n.gearEngage m a pl)
       else if op = 1 then
         let n := if geared then ((n.upTo n.nextTick).axisMotion a n.nextTick).moveAt a 0 (n.axis a).cfg.defaults else n
         n.ok m (n.axis a).gearResults
       else n.ok m (n.axis a).gearResults)

/-- AXIS_STATUS (R241). -/
def execAxisStatus (path idx : Nat) (s : State) : Host.Outcome State Fault Refusal :=
  s.run fun n => n.hostCmd Cmd.axisStatus path idx fun n m pl =>
    let a := u8 pl 0
    n.checked m [badLen pl 4, badIn a 0 1 0, badRes pl 1 3]
      (let x := n.axis a
       let st := b2n x.referenced + 2 * b2n x.atTarget + 4 * b2n x.overlay.isSome + 8 * b2n x.limit
         + 16 * b2n (!x.timed.isEmpty || x.gear.change.isSome) + 32 * b2n (x.st == .geared)
       let tgt := match x.goal with | .position p => p | _ => 0
       let pos := roundDiv x.shown.1 (2 ^ 32)
       n.ok m ([BitVec.ofNat 8 x.st.code, BitVec.ofNat 8 st] ++ leBytes 2 x.segAt
         ++ leBytes 4 (ofSigned 32 (clampI minS32 maxS32 (ratRound (ratOf x.shown.2.1 * 256))))
         ++ leBytes 4 (ofSigned 32 (clampI minS32 maxS32 (ratRound (ratOf x.shown.2.2)))) ++ leBytes 8 (ofSigned 64 pos)
         ++ leBytes 8 (ofSigned 64 tgt) ++ leBytes 8 (ofSigned 64 ((n.encPos a).getD 0))
         ++ leBytes 4 (ofSigned 32 (clampI minS32 maxS32 (((n.encPos a).map (fun e => pos - e)).getD 0))) ++ leBytes 4 0 ++ leBytes 8 x.tick))

/-! ### Events -/

/-- FOLLOWING_ERROR (R235): the transient fault of cause 13. -/
def execFollowingError (a : Nat) (s : State) : Host.Outcome State Fault Refusal :=
  s.run fun n =>
    let x := n.axis a
    if x.cfg.ferrWindow ≠ 0 ∧ 0 < x.ferrTicks ∧ x.cfg.ferrTime ≤ x.ferrTicks then n.transientFault (n.axisStall a) 13 else n

/-- LIMIT_SWITCH (R236). -/
def execLimitSwitch (a : Nat) (positive : Bool) (s : State) : Host.Outcome State Fault Refusal :=
  s.run fun n =>
    let st := (n.axis a).st
    if n.limitActive a positive ∧ st ≠ .disabled ∧ st ≠ .standstill then (n.settle a).limitStop a (if positive then 3 else 2) else n

/-- GEAR_SYNC_TIMEOUT (R233): 10 s without a lock. -/
def execGearSyncTimeout (a : Nat) (s : State) : Host.Outcome State Fault Refusal :=
  s.run fun n =>
    let x := n.axis a
    if x.st = .syncing then ((n.upTo (x.gear.syncFrom + sec 10)).log Ev.gearStep a 1 (par x.gear.step)).rampStop a .gear else n

/-- GEAR_MASTER_LOST (R234). -/
def execGearMasterLost (a : Nat) (s : State) : Host.Outcome State Fault Refusal :=
  s.run fun n =>
    let x := n.axis a
    if (x.st = .geared ∨ x.st = .syncing) ∧ n.masterLost x.gear then
      (n.log Ev.gearMasterLost a x.gear.master (par x.gear.lastMaster)).rampStop a .gear
    else n

end Sys2Proof.Machine
end

