-- ==== Sys2Proof/Machine/LineOps.lean ====
section
/-! DEFINITION. Shared operations of the line (12): port states and rates (R258 to R263), breaks and retirement (R280 to
R282), the bypass (R44), the head's map and the route table (R267, R268, R280), the queues at a gate (R276, R277), and what
the switch does with a frame (R268 to R273). -/

namespace Sys2Proof.Machine

/-- The node's protocol level: firmware 2.3 is level 5 (R478). -/
def ownLevel : Nat := 5
/-- Accepted levels of a frame at ingress (R272). -/
def levelOk (l : Nat) : Bool := l == ownLevel || l + 1 == ownLevel
/-- A partner level inside N − 1 … N + 1 (R272). -/
def partnerLevelOk (l : Nat) : Bool := decide (ownLevel ≤ l + 1 ∧ l ≤ ownLevel + 1)

def PortSt.code : PortSt → Nat
  | .disabled => 0 | .down => 1 | .training => 2 | .up => 3 | .foreign => 4 | .levelRefused => 5 | .retired => 6 | .bypassed => 7

/-- Change the line. -/
def Node.updLine (n : Node) (f : Line → Line) : Node := { n with line := f n.line }

/-! ### Rates (R258 to R260) -/

/-- The rate of a cap of R284; the top of port C is 2.5GBASE-T1. -/
def capRate (p v : Nat) : Nat := if v = 3 then (if p = 2 then 2 else 4) else min v 2
/-- The highest rate over `b` closed bypasses (R260). -/
def bypassRate (b : Nat) : Nat := if b = 0 then 4 else if b = 1 then 2 else if b = 2 then 1 else 0
/-- The rate R260 and LINE_CONFIG allow on port `p`. -/
def Node.allowedRate (n : Node) (p : Nat) : Nat :=
  min (capRate p (field n.line.cfg.maxRate.toNat (2 * p + 1) (2 * p))) (bypassRate (n.port p).bypasses)
/-- The cap in force: also the rate at which the port was degraded (R259). -/
def Node.capOf (n : Node) (p : Nat) : Nat :=
  let d := (n.port p).degraded
  if d = 0 then n.allowedRate p else min d (n.allowedRate p)
/-- The highest advertised rate at most `r`, 0 for none. -/
def topRate (adv r : Nat) : Nat := (((List.range 5).filter (fun k => decide (1 ≤ k ∧ k ≤ r) && bit adv k)).getLast?).getD 0

/-! ### Reports, breaks and port changes -/

/-- The report of this node (R268). -/
def Node.ownReport (n : Node) : MapNode :=
  { serial := Config.serial.toNat, address := n.addr, level := ownLevel, ports := (List.range 3).map (fun p => (n.port p).st.code),
    neigh := (List.range 3).map (fun p => if n.portUp p then (n.port p).paddr else 0), head := n.isHead,
    rates := (List.range 3).map (fun p => (n.port p).rate) }

/-- The bytes of a report: the fields R268 names, in its order (log 34). -/
def MapNode.bytes (x : MapNode) : List Byte :=
  leBytes 2 x.address ++ leBytes 8 x.serial ++ leBytes 1 x.level ++ leBytes 1 (b2n x.head) ++ x.ports.flatMap (leBytes 1)
    ++ x.neigh.flatMap (leBytes 2)

/-- A change of a port state is reported to the head; the head's own goes into its map (R268). -/
def Node.report (n : Node) : Node :=
  if n.isHead then n.updLine (fun l => { l with map := l.map.put Config.serial.toNat n.ownReport, mapDue := true })
  else n.send 0x05 0 0xFF00 n.ownReport.bytes

/-- The line is a ring (R265). -/
def Line.ring (l : Line) : Bool := l.cfg.topology == 1

/-- The two addresses beside a break at trunk port `p`: upstream, downstream. -/
def Node.besideBreak (n : Node) (p : Nat) : Nat × Nat := if p = 1 then (n.addr, (n.port p).paddr) else ((n.port p).paddr, n.addr)

/-- Routes through port `p` are withdrawn (R262). -/
def Node.withdraw (n : Node) (p : Nat) : Node := n.updLine (fun l => { l with routes := l.routes.filter (fun e => e.2 != p) })

/-- Ring recovery at the node beside a break (R280): wrap on the port, RING_BREAK out of the other trunk port. -/
def Node.ringBreakAt (n : Node) (p : Nat) : Node :=
  if n.line.ring ∧ p < 2 then
    let (u, d) := n.besideBreak p
    let n := (n.updPort p (fun x => { x with wrap := true })).updLine (fun l =>
      { l with ringBroken := true, ringClosed := 0, headBridges := l.headBridges || n.isHead })
    let n := n.log Ev.ringBreak u d 0
    if n.lineSends then
      let (ttl, n) := n.freeTtl
      let (f, n) := n.newFrame 0x03 0 0xFFFF ttl (leBytes 2 u ++ leBytes 2 d)
      n.egress (1 - p) f
    else n
  else n

/-- The frame that tells a healed break (R280). -/
def Node.ringHealedAt (n : Node) (p : Nat) : Node :=
  if (n.port p).wrap then
    let (u, d) := n.besideBreak p
    let n := (n.updPort p (fun x => { x with wrap := false })).updLine (fun l => { l with ringClosed := l.ringClosed + 1 })
    let n := n.log Ev.ringClosed u d 0
    if n.lineSends then
      let (ttl, n) := n.freeTtl
      let (f, n) := n.newFrame 0x04 0 0xFFFF ttl (leBytes 2 u ++ leBytes 2 d)
      n.egress (1 - p) f
    else n
  else n

/-- What a port keeps when its link is gone. -/
def Port.unlinked (x : Port) (st : PortSt) : Port :=
  { x with st := st, rate := 0, trying := 0, preempt := false, lpi := false, lpiAgreed := false, linkUp := false, asCapable := false,
           pdelayOut := false, sending := none, held := none, lastPdelay := none, rateOffset := 0 }

/-- States of the servo, coded as R304 codes them. -/
def ServoSt.code : ServoSt → Nat
  | .free => 0 | .acquiring => 1 | .locked => 2 | .holdover => 3

/-- θ in ns, S32, saturating (R305); it is held in 2^-4 ns. -/
def Time.thetaNs (t : Time) : Int := clampI minS32 maxS32 (t.theta / 16)

/-- The servo enters a state that R298 logs. -/
def Node.servoTo (n : Node) (st : ServoSt) : Node :=
  let old := n.time.servo
  ({ n with time := { n.time with servo := st, goodRun := 0, badRun := 0 } }).log Ev.timeState st.code old.code (par n.time.thetaNs)

/-- The mean of the increments of the last 10 s; the present one when none is kept. -/
def Time.meanIncr (t : Time) (now : T64) : Nat :=
  let h := t.history.filter (fun e => decide (now ≤ e.1 + sec 10))
  if h.length = 0 then t.incr else (h.map Prod.snd).sum / h.length

/-- LOCKED to HOLDOVER (R298). -/
def Node.enterHoldover (n : Node) : Node :=
  ({ n with time := { n.time with incr := n.time.meanIncr n.now, holdFrom := n.now } }).servoTo .holdover

/-- The slave port R295 gives, 0xFF for none: port A, on a ring the port of the shorter path; the head's plant port with
source 1. -/
def Node.slaveOf (n : Node) : Nat :=
  if n.isHead then (if n.time.cfg.source = 1 then 2 else 0xFF)
  else if n.line.ring then (match n.line.routes.look 0xFF00 with | some p => if p < 2 then p else 0 | none => if n.time.slave = 1 then 1 else 0)
  else 0

/-- The slave port follows topology; a change in LOCKED is logged (R295, R298). -/
def Node.reslave (n : Node) : Node :=
  let p := n.slaveOf
  if p = n.time.slave then n
  else
    let locked := n.time.servo == .locked
    let n := { n with time := { n.time with slave := p } }
    if locked then n.log Ev.timeSourceChanged p n.time.steps n.time.gm else n

/-- A slave port that leaves UP ends LOCKED (R298). -/
def Node.slaveLeaves (n : Node) (p : Nat) (old : PortSt) : Node :=
  if p = n.time.slave ∧ (old = .up ∨ old = .foreign) ∧ n.time.servo = .locked then n.enterHoldover else n

/-- A port that was UP, FOREIGN or LEVEL_REFUSED goes DOWN (R263): PORT_DOWN with its cause, its break, the report. -/
def Node.portDown (n : Node) (p cause : Nat) (lost : Option (Nat × Option T64)) : Node :=
  let x := n.port p
  if x.st = .up ∨ x.st = .foreign ∨ x.st = .levelRefused then
    let n := ((n.setPort p { x.unlinked .down with lost := lost }).dropQueues p).raise 9
    let n := n.slaveLeaves p x.st
    let n := ((n.log Ev.portDown p cause x.paddr).withdraw p)
    (if x.st = .up then n.ringBreakAt p else n).report
  else n

/-- The ports A and B leave the line as the bypass closes (R44, R263); their routes go. -/
def Node.bypassPort (n : Node) (p : Nat) : Node :=
  let x := n.port p
  if x.st = .retired then n else ((((n.setPort p (x.unlinked .bypassed)).slaveLeaves p x.st).withdraw p).dropQueues p).raise 9

/-- The bypass closes (R44): ports A and B BYPASSED. BYPASS_CLOSED carries its cause. -/
def Node.closeBypass (n : Node) (cause : Option Nat) : Node :=
  if n.power.bypassClosed then n
  else
    let n := { n with power := { n.power with bypassClosed := true } }
    let n := ((n.bypassPort 0).bypassPort 1)
    match cause with | some c => n.log Ev.bypassClosed c 0 0 | none => n

/-- LEAVE out of ports A and B (R44, R271). -/
def Node.sendLeave (n : Node) (cause : Nat) : Node :=
  let pl := [BitVec.ofNat 8 cause, 0, 0, 0]
  (n.sendHop 0x02 0 pl).sendHop 0x02 1 pl

/-- A port fault is permanent (R281, R282): RETIRED, the break, and on a chain with bypass-on-retire the bypass closes. -/
def Node.retirePort (n : Node) (p finding : Nat) : Node :=
  let x := n.port p
  if x.st = .disabled ∨ x.st = .retired then n
  else
    let n := ((((n.setPort p (x.unlinked .retired)).slaveLeaves p x.st).dropQueues p).raise 9).mapWrite
    let n := (n.log Ev.portRetired p finding x.drops.length).withdraw p
    let n := if x.st = .up then n.ringBreakAt p else n
    let n := if p < 2 ∧ !n.line.ring ∧ n.line.cfg.flags.getLsbD 1 then n.closeBypass (some 4) else n
    n.report

/-- The fault window of a port: 10 min (R281). -/
def portWindow : Nat := sec 600

/-- A drop is counted; the fifth within the window retires the port (R281). -/
def Node.countDrop (n : Node) (p : Nat) : Node :=
  let d := n.now :: (n.port p).drops.filter (fun t => decide (n.now ≤ t + portWindow))
  let n := n.updPort p (fun x => { x with drops := d })
  if 5 ≤ d.length then n.retirePort p 4 else n

/-- A frame with bad FCS or hcrc (R273, R281): counted, and LINE_CRC with the frames since the last one. -/
def Node.badFrame (n : Node) (p src : Nat) : Node :=
  let x := n.port p
  let logged := n.wouldLog Ev.lineCrc
  (n.setPort p { x with fcs := satInc 32 x.fcs, crcRun := if logged then 0 else x.crcRun }).log Ev.lineCrc p x.crcRun src

/-! ### The map and the route table (R268) -/

/-- The neighbours of an address that the map lists on UP ports, less a link that is broken. -/
def adjacent (map : Tbl MapNode) (cut : Option (Nat × Nat)) (a : Nat) : List Nat :=
  let broken (b : Nat) : Bool := match cut with | some (u, d) => (a == u && b == d) || (a == d && b == u) | none => false
  map.flatMap (fun e =>
    if e.2.address = a then ((e.2.neigh.zip e.2.ports).filter (fun q => q.2 == 3 && q.1 != 0 && !broken q.1)).map Prod.fst else [])

/-- Hop counts from a frontier by layers; an address in `stop` is reached but not passed. -/
def layers (adj : Nat → List Nat) (stop : List Nat) : Nat → Nat → List Nat → Tbl Nat → Tbl Nat
  | 0, _, _, acc => acc
  | fuel + 1, d, front, acc =>
    let acc' := front.foldl (fun t a => if (Tbl.look t a).isSome then t else Tbl.put t a d) acc
    let next := ((front.filter (fun a => !stop.contains a)).flatMap adj).eraseDups.filter (fun a => (Tbl.look acc' a).isNone)
    if next.isEmpty then acc' else layers adj stop fuel (d + 1) next acc'

/-- The head's node address in a map. -/
def headOf (map : Tbl MapNode) : Nat := ((map.find? (fun (e : Nat × MapNode) => e.2.head)).map (fun e => e.2.address)).getD 0

/-- Hop counts from port `p`'s neighbour, never back through this node. -/
def Node.hopsVia (n : Node) (map : Tbl MapNode) (cut : Option (Nat × Nat)) (p : Nat) : Tbl Nat :=
  let own := n.addr
  let stop := own :: (if n.line.ring && cut.isNone && !n.line.ringBroken then [headOf map] else [])
  if n.portUp p && !(p == 2 && n.line.cfg.portC == 2) then
    (layers (adjacent map cut) stop (map.length + 1) 1 [(n.port p).paddr] []).filter (fun e => e.1 != own)
  else []

/-- The route table a map gives: the port with the fewest hops, A before B before C; 0xFF00 goes with the head. -/
def Node.routesFrom (n : Node) (map : Tbl MapNode) (cut : Option (Nat × Nat)) : Tbl Nat :=
  let vs := (List.range 3).map (n.hopsVia map cut)
  let best (a : Nat) : Option Nat :=
    ((List.range 3).foldl (fun (b : Option (Nat × Nat)) p =>
      match Tbl.look (vs.getD p []) a, b with
      | some d, some (_, e) => if d < e then some (p, d) else b
      | some d, none => some (p, d)
      | none, _ => b) none).map Prod.fst
  let addrs := (vs.flatMap (fun (t : Tbl Nat) => Tbl.keys t)).eraseDups
  let t := addrs.foldl (fun t a => match best a with | some p => Tbl.put t a p | none => t) ([] : Tbl Nat)
  match best (headOf map) with | some p => Tbl.put t 0xFF00 p | none => t

/-- Take a map: routes and hop counts to the head (R268, R295). -/
def Node.takeMap (n : Node) (map : Tbl MapNode) : Node :=
  let h := headOf map
  let hop (p : Nat) : Nat := Tbl.getD (n.hopsVia map none p) h 0
  (n.updLine (fun l => { l with map := map, routes := n.routesFrom map none, hops := (hop 0, hop 1) })).reslave

/-- The content of a TOPO_MAP: cycle, its instant, level, the raise, and the reports (log 34). -/
def mapBytes (cycle cycleAt level raiseLevel raiseAt : Nat) (nodes : List MapNode) : List Byte :=
  leBytes 4 cycle ++ leBytes 8 cycleAt ++ leBytes 1 level ++ leBytes 1 raiseLevel ++ leBytes 2 nodes.length ++ leBytes 8 raiseAt
    ++ nodes.flatMap MapNode.bytes

/-- Trunk order from the head along port B, a branch after the node that carries it (R265, R267): serials in order. -/
def trunkWalk (map : Tbl MapNode) : Nat → List (Nat × Nat) → List Nat → List Nat
  | 0, _, seen => seen
  | _ + 1, [], seen => seen
  | fuel + 1, (from_, a) :: todo, seen =>
    match map.find? (fun (e : Nat × MapNode) => e.2.address == a && !seen.contains e.1 && (from_ == 0xFFFF || e.2.neigh.contains from_)) with
    | some (s, x) =>
      let nb (p : Nat) : List (Nat × Nat) := let v := x.neigh.getD p 0; if v = 0 then [] else [(x.address, v)]
      trunkWalk map fuel (nb 2 ++ nb 1 ++ todo) (seen ++ [s])
    | none => trunkWalk map fuel todo seen

/-- Of two serials, the one later in trunk order. -/
def later (order : List Nat) (s t : Nat) : Nat :=
  if order.idxOf s < order.idxOf t then t else s

/-! ### Harvest reservations at the head (R391) -/

/-- Rate of a rate code in kbit/s. -/
def kbitOf (r : Nat) : Nat := if r = 1 then 1000000 else if r = 2 then 2500000 else if r = 3 then 5000000 else if r = 4 then 10000000 else 0

/-- The links of the path between two addresses, as pairs in the direction of travel, by fewest hops; a closed ring is not
crossed at the head (R265). -/
def walkLinks (adj : Nat → List Nat) (d : Tbl Nat) (goal : Nat) : Nat → Nat → List (Nat × Nat)
  | 0, _ => []
  | fuel + 1, a =>
    if a = goal then []
    else match (adj a).find? (fun b => match Tbl.look d b, Tbl.look d a with | some x, some y => decide (x < y) | _, _ => false) with
      | some b => (a, b) :: walkLinks adj d goal fuel b
      | none => []
/-- The path of a grant (R391): for a plant collector it ends with the plant port, named (head, 0). -/
def Node.grantPath (n : Node) (node collector : Nat) : List (Nat × Nat) :=
  let map := n.line.map.put Config.serial.toNat n.ownReport
  let adj := adjacent map none
  let goal := if plantAddr collector then n.addr else collector
  let stop := if n.line.ring && !n.line.ringBroken then [n.addr] else []
  let d := layers adj stop (map.length + 1) 0 [goal] []
  walkLinks adj d goal (map.length + 1) node ++ (if plantAddr collector then [(n.addr, 0)] else [])
/-- The present rate of a link direction in kbit/s. -/
def Node.linkRate (n : Node) (x : Nat × Nat) : Nat :=
  if x.2 = 0 then kbitOf (n.port 2).rate
  else
    let map := n.line.map.put Config.serial.toNat n.ownReport
    match map.find? (fun (e : Nat × MapNode) => e.2.address == x.1) with
    | some e => kbitOf (e.2.rates.getD (e.2.neigh.idxOf x.2) 0)
    | none => 0
/-- A set of grants fits: 45 % of each link direction, 9 Gbit/s to each collector (R391). -/
def Node.grantsFit (n : Node) (gs : List (Nat × Nat × Nat × Nat)) : Bool :=
  let paths := gs.map (fun g => (n.grantPath g.1 g.2.2.1, g.2.2.2))
  let links := (paths.flatMap Prod.fst).eraseDups
  let cols := (gs.map (fun g => g.2.2.1)).eraseDups
  links.all (fun l => decide (100 * ((paths.filter (fun p => p.1.contains l)).map Prod.snd).sum ≤ 45 * n.linkRate l))
    && cols.all (fun c => decide (((gs.filter (fun g => g.2.2.1 == c)).map (fun g => g.2.2.2)).sum ≤ 9000000))

/-- A HARVEST control frame, kinds 1 to 4 (R382). -/
def harvestCtl (kind slot generation period collector share : Nat) : List Byte :=
  leBytes 1 kind ++ leBytes 1 slot ++ leBytes 2 generation ++ leBytes 4 0 ++ leBytes 4 period ++ leBytes 2 0 ++ leBytes 2 0
    ++ leBytes 2 collector ++ leBytes 2 0 ++ leBytes 4 share

/-- A collector slot. -/
def Node.hslot (n : Node) (k : Nat) : HvSlot := n.harv.slots.getD k {}
/-- Write a collector slot. -/
def Node.setHslot (n : Node) (k : Nat) (x : HvSlot) : Node := { n with harv := { n.harv with slots := n.harv.slots.put k x } }
/-- The node asks the head for a slot's reservation (R391). -/
def Node.askHead (n : Node) (k : Nat) : Node :=
  let x := n.hslot k
  n.send 0x40 0 0xFF00 (harvestCtl 1 k n.harv.generation n.harv.inForce.period x.address x.share)
/-- The field cores run. -/
def Node.coresRun (n : Node) : Bool := n.runs Isl.core && !n.host.restarting
/-- Requests are repeated once per line cycle until answered (R391). -/
def Node.repeatRequests (n : Node) : Node :=
  (List.range 4).foldl (fun n k => if (n.hslot k).st == .requested && n.coresRun then n.askHead k else n) n
/-- HARVEST_RESERVATION of a slot (R397). -/
def Node.reservationLog (n : Node) (k st : Nat) : Node := n.log Ev.harvestReservation k st (n.hslot k).granted

/-- A GRANTED slot is revoked: sending stops, and what it loses is a gap of cause 6 (R391, R395). -/
def Node.slotRevoked (n : Node) (k : Nat) : Node :=
  let x := n.hslot k
  if x.st = .granted then
    (n.setHslot k { x with st := .revoked, since := n.now, gapDue := some (x.gapDue.map Prod.fst |>.getD (n.harv.lastIndex + 1), 0, 6) }).reservationLog k 4
  else n

/-- The head answers the holder of a slot: at once when it is its own. -/
def Node.tellSlot (n : Node) (kind node slot collector share : Nat) (own : Node → Node) : Node :=
  if node = n.addr then own n else n.send 0x40 0 node (harvestCtl kind slot n.harv.generation n.harv.inForce.period collector share)

/-- The latest grants are revoked until every link fits (R391). -/
def Node.revokeUnfit : Nat → Node → Node
  | 0, n => n
  | fuel + 1, n =>
    if n.grantsFit n.harv.grants then n
    else match n.harv.grants with
      | g :: rest =>
        let n : Node := { n with harv := { n.harv with grants := rest } }
        Node.revokeUnfit fuel (n.tellSlot 4 g.1 g.2.1 g.2.2.1 g.2.2.2 (fun n => n.slotRevoked g.2.1))
      | [] => n

/-! ### Gates (R277) -/

/-- Entry `e` takes force on port `p` at `t`: express classes that close with frames still queued are an EXPRESS_OVERRUN (R277). -/
def Node.gateChange (n : Node) (p e : Nat) (t : T64) : Node :=
  let n := n.transmit p
  let old := n.gateMask p (n.port p).entry
  let new := n.gateMask p e
  let n := (List.range 8).foldl (fun n c =>
    let k := (n.line.queue p c).length
    if 5 ≤ c ∧ bit old c ∧ !bit new c ∧ 0 < k then n.log Ev.expressOverrun p c k else n) n
  n.updPort p (fun x => { x with entry := e, entryAt := t })

/-! ### The switch (R268 to R273) -/

/-- Frame types R271 lists. -/
def knownType (t : Nat) : Bool := decide (1 ≤ t ∧ t ≤ 8) || [0x10, 0x11, 0x12, 0x20, 0x30, 0x40, 0x50, 0x51].contains t

/-- A type that never comes from the plant (R269). -/
def neverPlant (t : Nat) : Bool := t == 0x11 || t == 0x12 || decide (4 ≤ classOf t)

/-- The node does not sleep (R395, R445). -/
def Node.awake (n : Node) : Bool := n.glean.st != .asleep && n.glean.st != .waking

/-- Frames for the node that wake it: MAILBOX, CUSTODY, NODE_WRITE, BULK, LEVEL and ADDR_ASSIGN (R450). -/
def frameWakes (t : Nat) : Bool := [0x10, 0x20, 0x11, 0x50, 0x51, 0x08].contains t

/-- Hand a frame to the node unless its FCS is bad or its seq is not newer than the last accepted (R270, R273). While the node sleeps, frames wait in the
shared buffers (R450). -/
def Node.deliver (n : Node) (p : Nat) (f : KFrame) : Node :=
  let k := f.src * 256 + f.type
  let fresh := match n.line.seqIn.look k with | some s => newer 32 f.seq s | none => true
  if !fresh ∨ f.inverted then n
  else
    let n := n.updLine (fun l => { l with seqIn := l.seqIn.put k f.seq, delivered := some (p, f) })
    if n.awake then n
    else
      let n := if frameWakes f.type then n.raise 2 else n
      { n with glean := { n.glean with frames := n.glean.frames ++ [(p, f)] } }

/-- Forward a frame out of a port: ttl is decremented, and at 0 the frame is dropped (R270); a frame that a ring break turns
back keeps it (R280). -/
def Node.forward (n : Node) (q : Nat) (f : KFrame) : Node :=
  if (n.port q).wrap then n.egress q f else if f.ttl ≤ 1 then n else n.egress q { f with ttl := f.ttl - 1 }

/-- Between A and B the head forwards nothing while a ring is closed (R265). -/
def Node.headGap (n : Node) (p q : Nat) : Bool := n.isHead && n.line.ring && !n.line.headBridges && decide (p < 2 ∧ q < 2)

/-- The port a unicast frame from port `p` leaves on: the route table's, else the opposite trunk port; from C it is A. -/
def Node.routeFrom (n : Node) (p dst : Nat) : Nat :=
  if n.isHead && plantAddr dst then 2
  else match n.line.routes.look dst with
    | some q => q
    | none => if p = 0 then 1 else 0

/-- The trunk port that the route table does not name for a destination: the second path of a RING connection (R431). -/
def Node.otherWay (n : Node) (dst : Nat) : Nat := if n.routeOwn dst = 0 then 1 else 0

/-- What the switch does with a frame that passed its checks, from ingress port `p` (R268); a PATH2 frame takes the other way
(R431). -/
def Node.switch (n : Node) (p : Nat) (f : KFrame) : Node :=
  let n := if n.isHead && f.flags.getLsbD 4 then n.updLine (fun l => { l with headBridges := true }) else n
  if f.flags.getLsbD 0 then
    let dir := (f.flags.toNat / 2) % 4
    if f.dst ≤ 1 then n.deliver p f
    else if dir = 3 then n
    else n.forward dir { f with dst := f.dst - 1 }
  else if f.dst = 0xFFFF then
    (List.range 3).foldl (fun n q => if q = p ∨ n.headGap p q then n else n.forward q f) (n.deliver p f)
  else if 0xFF40 ≤ f.dst then n
  else if (f.dst = n.addr ∧ f.dst ≠ 0) ∨ (f.dst = 0xFF00 ∧ n.isHead) then n.deliver p f
  else if f.type = 0x30 ∧ f.flags.getLsbD 3 then n.forward (n.otherWay f.dst) f
  else
    let q := n.routeFrom p f.dst
    if n.headGap p q then n else n.forward q f

end Sys2Proof.Machine
end

