-- ==== Sys2Proof/Machine/Line.lean ====
section
/-! DEFINITION. The line (12): LINE_STATUS and LINE_CONFIG (R284, R285), the ports (R259 to R263, R281), the schedule (R274,
R276, R277), the switch and the head's bridge (R269 to R273), ring recovery (R280), topology and addresses (R267, R268) and
the frames CYCLIC and NODE_WRITE (R274, R275). Operands of an arriving frame are its decoded fields (log 5). -/

namespace Sys2Proof.Machine

/-! ### Commands -/

/-- LINE_STATUS (R285): its results clear the counters they report. -/
def execLineStatus (path idx : Nat) (s : State) : Host.Outcome State Fault Refusal :=
  s.run fun n => n.hostCmd Cmd.lineStatus path idx fun n m pl =>
    let p := u8 pl 0
    n.checked m [badLen pl 4, badIn p 0 2 0, badRes pl 1 3]
      (let x := n.port p
       let drops := (x.drops.filter (fun t => decide (n.now ≤ t + portWindow))).length
       let fl := b2n x.preempt + 2 * b2n x.lpi + 4 * b2n x.wrap + 8 * b2n (x.degraded != 0)
       let n := n.setPort p { x with fcs := 0, fecCorr := 0, fecUnc := 0, qdrop := 0 }
       n.ok m (leBytes 1 x.st.code ++ leBytes 1 x.rate ++ leBytes 1 x.partner ++ leBytes 1 x.plevel ++ leBytes 2 x.paddr ++ leBytes 1 fl
         ++ leBytes 1 (min 2 x.bypasses) ++ leBytes 8 x.pserial ++ leBytes 2 x.length ++ leBytes 2 drops ++ leBytes 4 x.fcs
         ++ leBytes 4 x.fecCorr ++ leBytes 4 x.fecUnc ++ leBytes 4 x.qdrop ++ leBytes 2 n.addr ++ leBytes 1 n.line.cfg.topology
         ++ leBytes 1 (b2n n.isHead) ++ leBytes 4 n.line.cycle ++ leBytes 8 x.upSince))

/-- The port C mode fits role and topology (R283). -/
def portCFits (mode topology : Nat) (head : Bool) : Bool :=
  mode == 0 || (mode == 1 && !head && topology == 2) || (mode == 2 && !head) || (mode == 3 && head)

/-- The first multiple of 10 ms at least `lead` after now (R284, R479). -/
def Node.tenMs (n : Node) (lead : Nat) : T64 := nextGrid (n.now + lead) 10000000

/-- LINE_CONFIG op 0 (R284): stored; radius, offset and max_rate apply at the next boundary, the rest at a reset. -/
def Node.lineSettings (n : Node) (m : Nat) (pl : List Byte) : Node :=
  let head := u8 pl 2 == 1
  let cyc := u32 pl 8
  let inForce := if head then cyc else n.line.cycle
  let c : LineCfg := { topology := u8 pl 1, head := head, portC := u8 pl 3, address := u16 pl 4, radius := u8 pl 6,
                       flags := BitVec.ofNat 8 (u8 pl 7), offset := u32 pl 12, maxRate := BitVec.ofNat 32 (u32 pl 16), cycle := cyc }
  n.checked m [badLen pl 20, badIn (u8 pl 1) 0 2 1, badIn (u8 pl 2) 0 1 2,
      badRange (decide (3 < u8 pl 3) || !portCFits (u8 pl 3) (u8 pl 1) head) 3, badIn (u16 pl 4) 0 0xFEFF 4, badIn (u8 pl 6) 1 255 6,
      (decide (8 ≤ u8 pl 7), Rs.paramReserved, 7), badRange (bit (u8 pl 7) 0 && !head) 7,
      badRange (if head then decide (cyc < 250 ∨ 10000 % cyc ≠ 0) else cyc != 0) 8, badRange (decide (inForce < u32 pl 12 + 10)) 12,
      (decide (64 ≤ u32 pl 16), Rs.paramReserved, 16)]
    (n.needCfg m Cmd.lineConfig
      (let acting := n.line.cfg.head && head
       let n := n.updLine (fun l => { l with stored := some c, headYielded := false,
                                             newCycle := if !acting then l.newCycle else if cyc != l.cycle then some (cyc, n.tenMs (ms 100)) else none,
                                             mapDue := l.mapDue || acting })
       (n.storeCfg Cmd.lineConfig 0 pl).ok m []))

/-- The settings as op 0 carries them. -/
def LineCfg.bytes (c : LineCfg) : List Byte :=
  [0, BitVec.ofNat 8 c.topology, BitVec.ofNat 8 (b2n c.head), BitVec.ofNat 8 c.portC] ++ leBytes 2 c.address
    ++ [BitVec.ofNat 8 c.radius, c.flags] ++ leBytes 4 c.cycle ++ leBytes 4 c.offset ++ leBytes 4 c.maxRate.toNat

/-- LINE_CONFIG op 1 (R277, R284): a gate list. -/
def Node.lineSchedule (n : Node) (m : Nat) (pl : List Byte) : Node :=
  let p := u8 pl 1
  let c := u8 pl 2
  let es := (List.range c).map (fun i => (u32 pl (4 + 8 * i), u8 pl (8 + 8 * i)))
  let closes := (List.range c).find? (fun i => (es.getD i (0, 0)).2 < 0xC0)
  n.checked m ([(decide (pl.length < 4), Rs.lengthBad, 0), badIn c 1 16 2, badLen pl (4 + 8 * c), badIn p 0 2 1, badRes pl 3 1]
      ++ (List.range c).map (fun i => badRes pl (9 + 8 * i) 3)
      ++ [(closes.isSome, Rs.paramRange, 8 + 8 * closes.getD 0), badRange ((es.map Prod.fst).sum != us n.line.cycle) 2])
    (n.needCfg m Cmd.lineConfig
      (let n := n.updPort p (fun x => { x with newGates := some (es, n.tenMs (ms 100)) })
       (n.storeCfg Cmd.lineConfig (1 + p) pl).ok m []))

/-- A session of the plant is open (R284). -/
def Node.plantSession (n : Node) : Bool := n.host.sessions.any (fun e => e.2.path == 0 && !e.2.ended && plantAddr e.2.src)

/-- LINE_CONFIG op 2 (R263, R284). Port C in mode OFF stays DISABLED (R266). A or B enabled while the bypass is closed is BYPASSED: its PHY is disconnected (R43). -/
def Node.lineControl (n : Node) (m : Nat) (pl : List Byte) : Node :=
  let p := u8 pl 1
  let a := u8 pl 2
  let x := n.port p
  n.checked m [badLen pl 3, badIn p 0 2 1, badIn a 0 2 2,
      (p == 2 && n.isHead && n.line.cfg.portC == 3 && n.plantSession, Rs.busy, 0)]
    (let n :=
       if a = 0 then (((n.portDown p 0 none).updPort p (fun x => x.unlinked .disabled)).withdraw p).dropQueues p |>.report
       else if a = 1 then
         (if (x.st = .disabled ∨ x.st = .retired) ∧ !(p == 2 && n.line.cfg.portC == 0) then
            (n.setPort p { x with st := if p < 2 && n.power.bypassClosed then .bypassed else .down, drops := [], failFrom := none, degraded := 0 }).report.raise 9
          else n)
       else n.portDown p 0 none
     n.ok m [])

/-- LINE_CONFIG. -/
def execLineConfig (path idx : Nat) (s : State) : Host.Outcome State Fault Refusal :=
  s.run fun n => n.hostCmd Cmd.lineConfig path idx fun n m pl =>
    n.checked m [(decide (pl.length < 3), Rs.lengthBad, 0), badIn (u8 pl 0) 0 2 0]
      (if u8 pl 0 = 0 then n.lineSettings m pl else if u8 pl 0 = 1 then n.lineSchedule m pl else n.lineControl m pl)

/-! ### Ports -/

/-- PARTNER_SIGNAL (R43, R258 to R260, R263): a closed bypass keeps A and B from their lands. `adv` holds the rates the partner advertises, bit per rate code; `bypasses` is the
estimate of closed bypasses. -/
def execPartnerSignal (p adv bypasses : Nat) (s : State) : Host.Outcome State Fault Refusal :=
  s.run fun n =>
    let x := n.port p
    if x.st = .down ∧ p < 3 ∧ x.reload.isNone ∧ n.runs Isl.line ∧ (p = 2 ∨ !n.power.bypassClosed) then
      let n := n.setPort p { x with bypasses := bypasses, adv := adv }
      (n.updPort p (fun x => { x with st := .training, linkUp := false, trying := topRate adv (n.capOf p), trainFrom := n.now })).report.raise 9
    else n

/-- TRAINING_RATE_TIMEOUT (R259, R262, R263): after 150 ms the next lower rate; with the bypass limit of 1 failed, the limit is 2; else
every rate failed. -/
def execTrainingRateTimeout (p : Nat) (s : State) : Host.Outcome State Fault Refusal :=
  s.run fun n =>
    let x := n.port p
    if x.st = .training ∧ !x.linkUp then
      let n := n.upTo (x.trainFrom + ms 150)
      let r := topRate x.adv (x.trying - 1)
      if 1 ≤ r then n.setPort p { x with trying := r, trainFrom := n.now }
      else if x.bypasses = 1 then
        let n := n.setPort p { x with bypasses := 2 }
        n.updPort p (fun x => { x with trying := topRate x.adv (n.capOf p), trainFrom := n.now })
      else (n.setPort p { x.unlinked .down with failFrom := some (x.failFrom.getD n.now) }).report
    else n

/-- A regained link is judged against the rate lost (R281). -/
def Node.judgeLink (n : Node) (p : Nat) : Node :=
  let x := n.port p
  match x.lost with
  | some (r, at_) =>
    let n := n.setPort p { x with lost := none }
    let allowed := n.allowedRate p
    if x.rate < allowed then (n.updPort p (fun x => { x with degraded := x.rate })).log Ev.portDegraded p x.rate allowed
    else match at_ with
      | some t => if x.rate = r ∧ n.now ≤ t + ms 1000 then n.countDrop p else n
      | none => n
  | none => n

/-- LINK_UP (R263): the rate tried is reached; `length` is the channel estimate, `preempt` the outcome of the verify exchange
(R261), `lpi` the partner's agreement to low-power idle. -/
def execLinkUp (p length : Nat) (preempt lpi : Bool) (s : State) : Host.Outcome State Fault Refusal :=
  s.run fun n =>
    let x := n.port p
    if x.st = .training ∧ !x.linkUp ∧ 1 ≤ x.trying then
      (n.setPort p { x with linkUp := true, rate := x.trying, length := length, preempt := preempt, lpiAgreed := lpi, failFrom := none, upAt := n.now,
                            retryFrom := n.now, clock := 10 * n.now, freeAt := 10 * n.now }).judgeLink p
    else n

/-- LINK_HELLO_TIMEOUT (R261, R263): 1 s after link-up. -/
def execLinkHelloTimeout (p : Nat) (s : State) : Host.Outcome State Fault Refusal :=
  s.run fun n =>
    let x := n.port p
    if x.st = .training ∧ x.linkUp then ((n.upTo (x.upAt + sec 1)).setPort p { x with st := .foreign, partner := 2 }).report.raise 9 else n

/-- The routes of the last map, with the neighbour learned (R263, R268). -/
def Node.learnRoutes (n : Node) : Node := n.updLine (fun l => { l with routes := if l.map.isEmpty then l.routes else n.routesFrom l.map none })

/-- A line cycle ends for a LINEPOINT: without a matching entry it counts towards stale (R274). -/
def Stall.cycleEnds (x : Stall) : Stall := { x with staleCount := if x.entrySeen then 0 else x.staleCount + 1, entrySeen := false }

/-- LINK_HELLO (R261, R263, R272, R280). -/
def execLinkHello (p address level serial : Nat) (s : State) : Host.Outcome State Fault Refusal :=
  s.run fun n =>
    let x := n.port p
    let known := { x with partner := 1, plevel := level, paddr := address, pserial := serial, lastGood := n.now }
    if !n.runs Isl.line ∨ !(x.st == .up || x.st == .levelRefused || (x.st == .training && x.linkUp && decide (n.now ≤ x.upAt + sec 1))) then n
    else if partnerLevelOk level then
      if x.st = .up then n.setPort p known
      else
        let n := (n.setPort p { known with st := .up, upSince := n.now }).log Ev.portUp p x.rate address
        (n.ringHealedAt p).learnRoutes.report.raise 9
    else
      let n := (n.setPort p { known with st := .levelRefused }).log Ev.levelGap p level ownLevel
      let n := if x.st = .up then ((n.slaveLeaves p .up).withdraw p).ringBreakAt p else n
      if x.st = .levelRefused then n else n.report.raise 9

/-- LINK_LOST (R263, R281). -/
def execLinkLost (p : Nat) (s : State) : Host.Outcome State Fault Refusal :=
  s.run fun n =>
    let x := n.port p
    if x.st = .training then (n.setPort p (x.unlinked .down)).report else n.portDown p 0 (some (x.rate, some n.now))

/-- PORT_SILENT (R263): no good frame for one line cycle plus 50 µs. -/
def execPortSilent (p : Nat) (s : State) : Host.Outcome State Fault Refusal :=
  s.run fun n =>
    let x := n.port p
    if x.st = .up ∨ x.st = .levelRefused then (n.upTo (x.lastGood + us n.line.cycle + us 50)).portDown p 2 (some (x.rate, some n.now)) else n

/-- RATE_RETRY (R259): once every 10 min the link to an SL4 is given up so that it trains at the capped rate; a degraded rate is tried
again (R281). Link hellos, which every line cycle carries, do not count as traffic (DEDUCED, log 54). -/
def execRateRetry (p : Nat) (s : State) : Host.Outcome State Fault Refusal :=
  s.run fun n =>
    let x := n.port p
    let n := if x.st = .up then n.upTo (x.retryFrom + sec 600) else n
    if x.st = .up ∧ x.partner = 1 ∧ x.rate < topRate x.adv (n.allowedRate p) ∧ x.lastExpress + ms 2 ≤ n.now then
      (n.updPort p (fun x => { x with degraded := 0 })).portDown p 0 (some (x.rate, none))
    else n

/-- TRAINING_FAIL_TIMEOUT (R281): every rate failed for 60 s. -/
def execTrainingFailTimeout (p : Nat) (s : State) : Host.Outcome State Fault Refusal :=
  s.run fun n => match (n.port p).failFrom with
    | some t => (n.upTo (t + sec 60)).retirePort p 5
    | none => n

/-- FEC_BURST (R281): the link is dropped, retrained and counted as a drop; `blocks` uncorrectable blocks were seen. -/
def execFecBurst (p blocks : Nat) (s : State) : Host.Outcome State Fault Refusal :=
  s.run fun n =>
    let x := n.port p
    if x.rate ≠ 0 ∧ 10 < blocks then
      ((n.setPort p { x with fecUnc := min (x.fecUnc + blocks) (2 ^ 32 - 1) }).portDown p 0 (some (x.rate, none))).countDrop p
    else n

/-! ### The schedule -/

/-- The CYCLIC payload sampled at `t` (R274). -/
def Node.cyclicPayload (n : Node) (t : T64) : List Byte :=
  let ks := (n.stalls.filter (fun e => e.2.publish && e.2.active)).map Prod.fst
  let ks := ks.take 64
  leBytes 8 t ++ leBytes 2 ks.length ++ [0, 0] ++ ks.flatMap (fun k =>
    let s := n.view k
    leBytes 2 k ++ [BitVec.ofNat 8 (b2n (s.status.getLsbD 0)), s.format] ++ leBytes 8 s.value.toNat)

/-- LINE_CYCLE_BOUNDARY at `t`, the next boundary (in sleep the values stay those at entry and no staleness counts, R445, R452; R271, R274,
R277, R284, R391). -/
def execLineCycleBoundary (t : T64) (s : State) : Host.Outcome State Fault Refusal :=
  s.run fun n =>
    if n.runs Isl.line ∧ t = nextGrid n.gridNow (us n.line.cycle) then
      let n := n.upTo t
      let n := (List.range 3).foldl (fun n p => n.gateChange p 0 t) n
      let n := match n.line.stored with
        | some c => n.updLine (fun l => { l with cfg := { l.cfg with radius := c.radius, offset := c.offset, maxRate := c.maxRate, flags := c.flags } })
        | none => n
      let n := n.updLine (fun l => { l with cyclic := if n.awake then n.cyclicPayload t else leBytes 8 t ++ l.cyclic.drop 8, cyclicDue := true, boundary := t })
      let n := { n with stalls := n.stalls.mapE (fun _ x => if x.kd = K.linepoint ∧ x.active ∧ n.awake then x.cycleEnds else x) }
      let n := n.repeatRequests
      (List.range 3).foldl (fun n p =>
        let x := n.port p
        if x.st = .up ∨ (x.st = .training ∧ x.linkUp) then
          n.sendHop 0x01 p (leBytes 2 n.addr ++ leBytes 1 ownLevel ++ leBytes 1 p ++ leBytes 8 Config.serial.toNat
            ++ leBytes 6 Config.macAddr.toNat ++ [0, 0])
        else n) n
    else n

/-- GATE_ENTRY_CHANGE (R277) at `t`, the end of the entry in force; the last entry ends with the cycle. -/
def execGateEntryChange (p : Nat) (t : T64) (s : State) : Host.Outcome State Fault Refusal :=
  s.run fun n =>
    let e := (n.port p).entry + 1
    if p < 3 ∧ e < (n.gateList p).length ∧ n.runs Isl.line ∧ t = n.entryEnd p then (n.upTo t).gateChange p e t else n

/-- CYCLIC_SEND (R274): at the cycle boundary plus the publish offset, a broadcast with ttl equal to the publish radius on every UP
port. -/
def execCyclicSend (s : State) : Host.Outcome State Fault Refusal :=
  s.run fun n =>
    if n.lineSends ∧ n.line.cyclicDue then
      let n := (n.upTo (n.line.boundary + us n.line.cfg.offset)).updLine (fun l => { l with cyclicDue := false })
      let (f, n) := n.newFrame 0x12 0 0xFFFF n.line.cfg.radius n.line.cyclic
      (List.range 3).foldl (fun n p => n.egress p f) n
    else n

/-- LINE_CYCLE_APPLY (R284): a new cycle or a gate list at its 10 ms boundary. -/
def execLineCycleApply (s : State) : Host.Outcome State Fault Refusal :=
  s.run fun n =>
    let at_ := (n.line.newCycle.map Prod.snd).toList ++ (List.range 3).filterMap (fun p => (n.port p).newGates.map Prod.snd)
    match at_.min? with
    | some t =>
      let n := n.upTo t
      let n := match n.line.newCycle with
        | some (c, u) => if u ≤ n.now then n.updLine (fun l => { l with cycle := c, newCycle := none }) else n
        | none => n
      (List.range 3).foldl (fun n p => match (n.port p).newGates with
        | some (g, u) => if u ≤ n.now then (n.transmit p).updPort p (fun x => { x with gates := some g, newGates := none, entry := 0, entryAt := n.now }) else n
        | none => n) n
    | none => n

/-! ### Frames -/

/-- KEREY_FRAME_FORWARD (R268 to R273): the source MAC, the header with its hcrc, the FCS (0 good, 1 bad, 2 inverted by the node
before), and `fec`, the FEC blocks corrected and uncorrectable since the last frame. The copy of a frame whose FCS proves bad ends with an
inverted FCS. A frame that is not of R271 is foreign: class 0, stored whole and sent on where LINE_CONFIG allows it (R271). -/
def execKereyFrameForward (p mac level type flags dst src ttl seq : Nat) (payload : List Nat) (hcrc fcs : Nat) (fec : Nat × Nat) (s : State) :
    Host.Outcome State Fault Refusal :=
  s.run fun n =>
    if !n.runs Isl.line ∨ p ≥ 3 then n else
    let n := n.updPort p (fun x => { x with crcRun := satInc 32 x.crcRun, fecCorr := min (x.fecCorr + fec.1) (2 ^ 32 - 1),
                                            fecUnc := min (x.fecUnc + fec.2) (2 ^ 32 - 1) })
    let f : KFrame := { level := level, type := type, flags := BitVec.ofNat 16 flags, dst := dst, src := src, ttl := ttl, seq := seq,
                        payload := payload.map (BitVec.ofNat 8), smac := mac }
    let n := if fcs = 0 then n.updPort p (fun x => { x with lastGood := n.now,
                                                            lastExpress := if 5 ≤ classOf type ∧ type ≠ 0x01 then n.now else x.lastExpress }) else n
    if !knownType type then
      if n.line.cfg.flags.getLsbD 2 ∧ fcs = 0 ∧ (n.port p).st = .up then n.egress (if p = 0 then 1 else 0) f else n
    else if hcrc ≠ f.hcrc then n.badFrame p 0xFFFF
    else if type = 0x01 then (if fcs = 0 then n.deliver p f else if fcs = 1 then n.badFrame p src else n)
    else if !levelOk level then n.log Ev.levelGap p level ownLevel
    else if (n.port p).st ≠ .up ∨ n.spineBars p f ∨ (plantAddr src && neverPlant type) then n
    else if fcs = 1 then (n.badFrame p src).switch p { f with inverted := true }
    else if fcs = 2 then n
    else n.switch p f

/-- The token bucket of plant ingress at `now`: 100 Mbit/s is a byte each 80 ns, 64 KB deep; the part of a byte is kept (R269). -/
def Line.refill (l : Line) (now : T64) : Nat × T64 :=
  (min 65536 (l.bucket.1 + (now - l.bucket.2) / 80), now - (now - l.bucket.2) % 80)

/-- The proxy address of a plant MAC: its own, or the lowest free one (R269). -/
def Line.proxy (l : Line) (mac : Nat) : Option Nat :=
  match l.proxies.find? (fun (e : Nat × Nat × T64) => e.2.1 == mac) with
  | some e => some e.1
  | none => ((List.range 63).map (fun i => 0xFF01 + i)).find? (fun a => (Tbl.look l.proxies a).isNone)

/-- PLANT_FRAME_IN (R269). -/
def execPlantFrameIn (mac level type flags dst src ttl seq : Nat) (payload : List Nat) (s : State) : Host.Outcome State Fault Refusal :=
  s.run fun n =>
    if n.isHead ∧ n.line.cfg.portC = 3 ∧ (n.port 2).st = .foreign ∧ n.runs Isl.line then
      let drop := n.updPort 2 (fun x => { x with qdrop := satInc 32 x.qdrop })
      let f : KFrame := { level := level, type := type, flags := BitVec.ofNat 16 flags, dst := dst, src := src, ttl := ttl, seq := seq,
                          payload := payload.map (BitVec.ofNat 8), smac := mac }
      let (tok, at_) := n.line.refill n.now
      if !(type == 0x10 || type == 0x40 || type == 0x50) then drop
      else if src ≠ 0 then n
      else if !levelOk level then n.log Ev.levelGap 2 level ownLevel
      else if tok < f.size then drop
      else match n.line.proxy mac with
        | some a =>
          (n.updLine (fun l => { l with bucket := (tok - f.size, at_), proxies := l.proxies.put a (mac, n.now) })).switch 2 { f with src := a }
        | none => n
    else n

/-- PROXY_EXPIRE (R269). -/
def execProxyExpire (address : Nat) (s : State) : Host.Outcome State Fault Refusal :=
  s.run fun n => match n.line.proxies.look address with
    | some (_, t) => (n.upTo (t + sec 600)).updLine (fun l => { l with proxies := l.proxies.del address })
    | none => n

/-- LEAVE (R262): the port is DOWN at once; an announced leave is no finding of R281. -/
def execLeave (p : Nat) (s : State) : Host.Outcome State Fault Refusal :=
  s.run fun n => if (n.port p).st = .up then n.portDown p 1 none else n

/-! ### Ring recovery (R280) -/

/-- RING_BREAK between two addresses. -/
def execRingBreak (up down : Nat) (s : State) : Host.Outcome State Fault Refusal :=
  s.run fun n =>
    if n.line.ring ∧ n.runs Isl.line then
      let n := (n.raise 4).log Ev.ringBreak up down 0
      (n.updLine (fun l =>
        { l with ringBroken := true, ringClosed := 0, headBridges := l.headBridges || n.isHead,
                 savedRoutes := some (l.savedRoutes.getD l.routes), routes := n.routesFrom l.map (some (up, down)) })).reslave
    else n

/-- RING_CLOSED: the restoration is scheduled. -/
def execRingClosed (up down : Nat) (s : State) : Host.Outcome State Fault Refusal :=
  s.run fun n =>
    if n.line.ring ∧ n.line.ringBroken ∧ n.runs Isl.line then
      ((n.raise 4).log Ev.ringClosed up down 0).updLine (fun l => { l with ringClosed := l.ringClosed + 1 })
    else n

/-- RING_ROUTE_RESTORE: at the first boundary after RING_CLOSED; the head waits for both frames. -/
def execRingRouteRestore (s : State) : Host.Outcome State Fault Refusal :=
  s.run fun n =>
    if n.line.ringBroken ∧ (if n.isHead then 2 else 1) ≤ n.line.ringClosed then
      let n := n.upTo (nextGrid n.gridNow (us n.line.cycle))
      (n.updLine (fun l => { l with ringBroken := false, ringClosed := 0, headBridges := false,
                                    routes := l.savedRoutes.getD l.routes, savedRoutes := none })).reslave
    else n

/-! ### Topology and addresses (R267, R268) -/

/-- The head lowers the line level for a node one level below (R478), and cancels a raise it cannot follow (R479). -/
def Node.judgeLevel (n : Node) (x : MapNode) : Node :=
  let n := match n.line.raise with
    | some (l, t) =>
      if x.level < l then
        ((n.updLine (fun y => { y with raise := none })).send 0x51 0 0xFFFF ([1, BitVec.ofNat 8 l, 0, 0] ++ leBytes 8 t)).log Ev.levelRaised l 1 t
      else n
    | none => n
  if x.level + 1 = n.line.level then
    (n.updLine (fun y => { y with level := x.level, mapDue := true })).log Ev.levelLowered x.level x.address n.line.level
  else n

/-- The later of two nodes with one address is told of the conflict (R267). -/
def Node.judgeAddress (n : Node) (x : MapNode) : Node :=
  match n.line.map.find? (fun (e : Nat × MapNode) => e.2.address == x.address && x.address != 0 && e.1 != x.serial) with
  | some (s, _) =>
    let order := trunkWalk n.line.map (3 * n.line.map.length + 3) [(0xFFFF, headOf n.line.map)] []
    n.send 0x08 0 0xFFFF (leBytes 8 (later order x.serial s) ++ leBytes 2 0xFFFF ++ [0, 0])
  | none => n

/-- Of two heads the one with the lower address stays (R267). -/
def Node.yieldTo (n : Node) (address : Nat) : Node :=
  if n.isHead ∧ address < n.addr then (n.updLine (fun l => { l with headYielded := true })).log Ev.headConflict address 0 0 else n

/-- TOPO_REPORT (R267, R268, R391): `rates` are the rates of the node's ports, which the head knows (log 38). -/
def execTopoReport (serial address level : Nat) (ports neigh rates : List Nat) (head : Bool) (s : State) : Host.Outcome State Fault Refusal :=
  s.run fun n =>
    if n.isHead ∧ n.runs Isl.line then
      let x : MapNode := { serial := serial, address := address, level := level, ports := ports, neigh := neigh, head := head, rates := rates }
      let n := if head then n.yieldTo address else n
      if n.isHead then
        let n := n.updLine (fun l => { l with map := l.map.put serial { x with head := false }, mapDue := true })
        let n := (n.judgeLevel x).judgeAddress x
        Node.revokeUnfit n.harv.grants.length n
      else n
    else n

/-- The breaks that the map shows (R286; DEDUCED, log 54): on a ring each has two trunk ports beside it that are not UP; on a chain
or tree each open port B but those at the ends of the trunk and of the branches. -/
def Line.breakCount (l : Line) : Nat :=
  let ports (i : Nat) (up : Bool) : Nat := (l.map.filter (fun e => (e.2.ports.getD i 0 == 3) == up)).length
  if l.ring then (ports 0 false + ports 1 false + 1) / 2 else ports 1 false - 1 - ports 2 true

/-- TOPO_MAP_SEND (R268). -/
def execTopoMapSend (s : State) : Host.Outcome State Fault Refusal :=
  s.run fun n =>
    if n.isHead ∧ n.line.mapDue ∧ n.lineSends then
      let n := (n.updLine (fun l => { l with mapDue := false, map := l.map.put Config.serial.toNat n.ownReport }))
      let n := n.takeMap n.line.map
      let (c, u) := n.line.newCycle.getD (n.line.cycle, 0)
      let (rl, rt) := n.line.raise.getD (0, 0)
      let n := n.log Ev.topologyChanged n.line.map.length n.line.level n.line.breakCount
      n.send 0x06 0 0xFFFF (mapBytes c u n.line.level rl rt (n.line.map.map Prod.snd))
    else n

/-- One node of a TOPO_MAP: serial, address, level, states A to C, neighbours A to C, head. -/
def MapNode.ofList (l : List Nat) : MapNode :=
  let g (i : Nat) := l.getD i 0
  { serial := g 0, address := g 1, level := g 2, ports := [g 3, g 4, g 5], neigh := [g 6, g 7, g 8], head := g 9 != 0 }

/-- TOPO_MAP (R267, R268, R272, R284, R479). -/
def execTopoMap (src cycle cycleAt level raiseLevel raiseAt : Nat) (nodes : List (List Nat)) (s : State) : Host.Outcome State Fault Refusal :=
  s.run fun n =>
    if !n.runs Isl.line then n else
    let n := n.yieldTo src
    if n.isHead then n
    else
      let ms := nodes.map MapNode.ofList
      let map := ms.foldl (fun t x => Tbl.put t x.serial x) ([] : Tbl MapNode)
      let n := if mapBytes cycle cycleAt level raiseLevel raiseAt ms = n.line.lastMap then n else n.raise 4
      let n := n.takeMap map
      let n := n.updLine (fun l =>
        { l with level := level, lastMap := mapBytes cycle cycleAt level raiseLevel raiseAt ms,
                 raise := if raiseLevel = 0 then l.raise else some (raiseLevel, raiseAt),
                 cycle := if cycleAt = 0 then cycle else l.cycle,
                 newCycle := if cycleAt = 0 then none else some (cycle, cycleAt) })
      if n.addr = 0 then n.send 0x07 0 0xFF00 (leBytes 8 Config.serial.toNat) else n

/-- ADDR_REQUEST (R267): the lowest free node address. -/
def execAddrRequest (serial : Nat) (s : State) : Host.Outcome State Fault Refusal :=
  s.run fun n =>
    if n.isHead ∧ n.line.cfg.flags.getLsbD 0 ∧ n.runs Isl.line then
      let used := n.addr :: n.line.map.map (fun e => e.2.address)
      match ((List.range (used.length + 1)).map (· + 1)).find? (fun a => !used.contains a && decide (a ≤ 0xFEFF)) with
      | some a =>
        let x := n.line.map.getD serial { serial := serial, address := 0, level := ownLevel, ports := [], neigh := [], head := false }
        (n.updLine (fun l => { l with map := l.map.put serial { x with address := a } })).send 0x08 0 0xFFFF
          (leBytes 8 serial ++ leBytes 2 a ++ [0, 0])
      | none => n
    else n

/-- ADDR_ASSIGN (R267): the address is stored before it is used, or a conflict suspends it. -/
def execAddrAssign (serial address : Nat) (s : State) : Host.Outcome State Fault Refusal :=
  s.run fun n =>
    if serial = Config.serial.toNat ∧ n.runs Isl.line then
      let n := n.raise 2
      if address = 0xFFFF then
        let own := n.line.cfg.address
        let other := (n.line.map.find? (fun (e : Nat × MapNode) => e.2.address == own && e.1 != serial)).map Prod.fst
        if n.addr = 0 then n
        else (n.updLine (fun l => { l with suspended := true })).log Ev.addrConflict own (other.getD 0) 0
      else if n.addr = 0 ∧ 1 ≤ address ∧ address ≤ 0xFEFF ∧ !n.cfgRo then
        let kept := { n.line.stored.getD n.line.cfg with address := address }
        ((n.storeCfg Cmd.lineConfig 0 kept.bytes).updLine (fun l => { l with cfg := { l.cfg with address := address }, suspended := false,
                                                                                  stored := l.stored.map (fun c => { c with address := address }) })).report
      else n
    else n

/-! ### CYCLIC and NODE_WRITE -/

/-- CYCLIC (R274): entries are [stall, status, format, value]. In sleep the latest entry of each LINEPOINT is kept (R452), and a change
of a watched one raises its wake line (R450). -/
def execCyclic (src : Nat) (t : T64) (entries : List (List Nat)) (s : State) : Host.Outcome State Fault Refusal :=
  s.run fun n =>
    if !n.runs Isl.line ∨ plantAddr src then n else
    entries.foldl (fun n e =>
      let ks := (n.stalls.filter (fun x => x.2.kd == K.linepoint && x.2.active && x.2.pf 8 2 == src && x.2.pf 10 2 == e.getD 0 0)).map Prod.fst
      ks.foldl (fun n k =>
        if n.awake then n.putStall k ((n.stall k).takePoint (bit (e.getD 1 0) 0) (e.getD 2 0) (BitVec.ofNat 64 (e.getD 3 0)) t)
        else
          let new : W64 × Bool × Nat × T64 := (BitVec.ofNat 64 (e.getD 3 0), bit (e.getD 1 0) 0, e.getD 2 0, t)
          let moved := match n.line.kept.look k with
            | some o => o.1 != new.1 || o.2.1 != new.2.1
            | none => (n.stall k).value != new.1 || (n.stall k).valid == new.2.1
          let n := if n.glean.watch.contains k && moved then n.raise 3 else n
          n.updLine (fun l => { l with kept := l.kept.put k new })) n) n

/-- NODE_WRITE (R275): a timed CHAN_WRITE without session; late, it is applied at once with TIMED_WRITE_LATE. A frame that finds the node
asleep wakes it and is delivered after the wake (R450; log 6). -/
def execNodeWrite (src stall value : Nat) (t : T64) (s : State) : Host.Outcome State Fault Refusal :=
  s.run fun n =>
    if !n.runs Isl.line ∨ src = 0 ∨ 0xFEFF < src then n else if !n.awake then n.raise 2 else
    let st := n.stall stall
    let v := BitVec.ofNat 64 value
    match firstBad [(decide (numStalls ≤ stall), Rs.paramRange, 0), (st.st == .fallow, Rs.chanFallow, 0),
        (st.st != .running && st.st != .hold, Rs.busy, 0), (st.readOnly, Rs.paramRange, 0), (!st.takesWrite v, Rs.paramRange, 0),
        (decide (n.now + sec 60 < t), Rs.paramRange, 0)] with
    | some (code, _) => n.log Ev.remoteWriteRefused src stall code
    | none =>
      if t = 0 then (n.touch stall).engineWrite stall v n.now
      else if t < n.now then (n.log Ev.timedWriteLate src stall (min (n.now - t) (2 ^ 32 - 1))).engineWrite stall v n.now
      else n.setStall stall { st with timedWrite := some (v, t) }

end Sys2Proof.Machine
end

