-- ==== Sys2Proof/Machine/RecipeOps.lean ====
section
/-! DEFINITION. Recipe space (R106, R107), the validation of R124, instances (R122), the step sequence of R116, and the
Thresher (R127 to R132). -/

namespace Sys2Proof.Machine

/-! ### Recipe space -/

def dirAddr (r : Nat) : Nat := 0x10290000 + r * 16
def slotAddr (i : Nat) : Nat := 0x10291000 + i * 32
/-- First step slot and length of a recipe. -/
def Node.recBase (n : Node) (r : Nat) : Nat := u16 (n.read (dirAddr r) 16) 0
def Node.recLen (n : Node) (r : Nat) : Nat := u16 (n.read (dirAddr r) 16) 2
def Node.recAuto (n : Node) (r : Nat) : Nat := u8 (n.read (dirAddr r) 16) 4
/-- A directory entry (R106). -/
def dirEntry (base len auto : Nat) : List Byte := leBytes 2 base ++ leBytes 2 len ++ leBytes 1 auto ++ leBytes 11 0
/-- The bytes and the record of step `s` of recipe `r`. -/
def Node.stepBytes (n : Node) (r s : Nat) : List Byte := n.read (slotAddr (n.recBase r + s)) 32
def Node.stepRec (n : Node) (r s : Nat) : Step := Step.ofBytes (n.stepBytes r s)
/-- The records of a recipe. -/
def Node.steps (n : Node) (r : Nat) : List Step := (List.range (n.recLen r)).map (n.stepRec r)
/-- Step slots (R106). -/
def stepSlots : Nat := 32640
/-- Runs of slots that pages taken from recipe space have lost (R492). -/
def Node.takenRuns (n : Node) : List (Nat × Nat) := n.mem.recipeTaken.map (fun p => (128 * p, 128))
/-- Runs of slots of the other recipes, as (base, length). -/
def Node.otherRuns (n : Node) (r : Nat) : List (Nat × Nat) :=
  ((List.range 256).filter (fun q => q != r && n.recLen q != 0)).map (fun q => (n.recBase q, n.recLen q))
/-- The first contiguous run of `len` slots clear of other runs: it starts at 0 or where another run ends (R136). -/
def firstRun (runs : List (Nat × Nat)) (len : Nat) : Option Nat :=
  let fits (b : Nat) : Bool := decide (b + len ≤ stepSlots) && runs.all (fun q => decide (b + len ≤ q.1 ∨ q.1 + q.2 ≤ b))
  let best (acc : Option Nat) (b : Nat) : Option Nat :=
    if fits b then (match acc with | some a => some (min a b) | none => some b) else acc
  (0 :: runs.map (fun q => q.1 + q.2)).foldl best none
/-- Where recipe `r` of `len` steps goes: clear of the other recipes and of the slots that are gone. -/
def Node.freeRun (n : Node) (r len : Nat) : Option Nat := firstRun (n.otherRuns r ++ n.takenRuns) len
/-- The recipe would fit but for the slots that are gone (R492). -/
def Node.runLost (n : Node) (r len : Nat) : Bool := (n.freeRun r len).isNone && (firstRun (n.otherRuns r) len).isSome

/-- The recipe store partition takes the recipe as recipe space holds it, its autostart with it (R107). -/
def Node.keepRecipe (n : Node) (r : Nat) : Node :=
  { n with rcp := { n.rcp with store := n.rcp.store.put r (n.recLen r, n.recAuto r, (List.range (n.recLen r)).map (n.stepBytes r)) } }

/-- Recipe space from the recipe store, in ascending order, each recipe in the first run that takes it; a recipe the store does not
hold is empty and starts no instance (R107). -/
def Node.layRecipes (n : Node) : Node :=
  let n := n.write (dirAddr 0) ((List.range 256).flatMap (fun r => match n.rcp.store.look r with
    | some (0, auto, _) => dirEntry 0 0 auto
    | some _ => dirEntry 0 0 0
    | none => dirEntry 0 0 0xFF))
  (n.rcp.store.filter (fun e => e.2.1 != 0)).foldl (fun n e =>
    let (len, auto, recs) := e.2
    match n.freeRun e.1 len with
    | some b => (n.write (dirAddr e.1) (dirEntry b len auto)).write (slotAddr b) recs.flatten
    | none => n) n

/-- The step records of a recipe from the recipe store. -/
def Node.reloadSteps (n : Node) (r : Nat) : Node :=
  match n.rcp.store.look r with
  | some (_, _, recs) => n.write (slotAddr (n.recBase r)) recs.flatten
  | none => n

/-! ### Validation (R124) -/

/-- A stall of a record: in the table and assigned. -/
def Node.recStall (n : Node) (k : Nat) : Bool := decide (k < numStalls) && (n.stall k).kd != K.unassigned
/-- A 32-bit format keeps the upper half of an operand 0. -/
def Stall.half (s : Stall) (v : W64) : Bool := s.fm == F.s64 || decide (v.toNat < 2 ^ 32)

/-- The condition of a record is well formed. -/
def Node.condOk (n : Node) (r : Step) : Bool :=
  decide (r.cond ≤ 0x12) && (!r.regSrc || (decide (1 ≤ r.cond ∧ r.cond ≤ 8) && decide (r.cStall ≤ 7)))
    && (!r.stamp || (decide (1 ≤ r.cond ∧ r.cond ≤ 0x0E) && !r.regSrc))
    && (if 1 ≤ r.cond ∧ r.cond ≤ 0x0E ∧ !r.regSrc then n.recStall r.cStall && (n.stall r.cStall).half r.cValue
        else if 0x10 ≤ r.cond ∧ r.cond ≤ 0x12 then decide (r.cStall ≤ 63) else true)

/-- The action of a record is well formed in a recipe of `len` steps. -/
def Node.actOk (n : Node) (len : Nat) (r : Step) : Bool :=
  let t := n.stall r.aStall
  let w := decide (r.aStall < numStalls) && t.writable
  let v := r.aValue.toNat
  match r.act with
  | 0x00 => true | 0x01 => true
  | 0x02 => w && t.half r.aValue
  | 0x03 => w && t.fm != F.bool && t.half r.aValue
  | 0x04 => w && t.fm == F.bool
  | 0x05 => w && n.recStall (v % 65536)
  | 0x06 => w && t.fm == F.bool && decide (1000 ≤ v ∧ v ≤ 60000000000)
  | 0x07 => decide (r.aStall ≤ 7) | 0x08 => decide (r.aStall ≤ 7)
  | 0x09 => decide (r.aStall ≤ 7) && n.recStall (v % 65536)
  | 0x0A => w
  | 0x0B => decide (v % 65536 < len)
  | 0x0C => decide (r.aStall ≤ 7) && decide (v % 65536 < len)
  | 0x0D => decide (r.aStall ≤ 63) | 0x0E => decide (r.aStall ≤ 63)
  | 0x0F => decide (v / 256 % 256 ≤ 63 ∨ v / 256 % 256 = 0xFF)
  | 0x10 => decide (r.aStall ≤ 63)
  | 0x11 => (r.aStall == 42 || r.aStall == 43) && t.kd == K.axis
  | 0x12 => n.recStall r.aStall | 0x13 => n.recStall r.aStall
  | 0x14 => decide (1 ≤ r.aStall / 256 ∧ r.aStall / 256 ≤ 0x0E)
  | 0x15 => true
  | 0x16 => decide (v / 65536 % 65536 < numStalls)
  | 0x17 => decide (r.aStall ≤ 31)
  | _ => false

/-- The records of the AND group that begins with the first of a list: the group's length (R112). -/
def groupLen : List Step → Nat
  | [] => 0
  | r :: t => if r.andNext then 1 + groupLen t else 1

/-- A record behind the first of its group carries a condition only (R112). -/
def Step.follows (r : Step) : Bool :=
  r.act == 1 && r.flags % 16 == 0 && r.aux == 0 && r.aStall == 0 && r.aValue == 0#64 && r.delay == 0 && r.timeout == 0 && r.branch == 0

/-- The first failing step of the validation of R124. `prev` tells that the record before joins this one. -/
def Node.validateFrom (n : Node) (len : Nat) : Nat → Bool → List Step → Option Nat
  | _, _, [] => none
  | i, prev, r :: t =>
    let own := n.condOk r && n.actOk len r && decide (r.flags < 2048) && r.unit != 3 && r.anchor != 3 && decide (r.branch < len)
      && (!r.test || r.timeout == 0)
    let group := if prev then r.follows else decide (groupLen (r :: t) ≤ 4)
    let ends := !(r.andNext && t.isEmpty)
    if own && group && ends then n.validateFrom len (i + 1) r.andNext t else some i
/-- The first step at which the recipe fails. -/
def Node.recipeFault (n : Node) (r : Nat) : Option Nat := n.validateFrom (n.recLen r) 0 false (n.steps r)

/-! ### Instances -/

def Node.inst (n : Node) (i : Nat) : Inst := n.rcp.insts.getD i {}
def Node.setInst (n : Node) (i : Nat) (x : Inst) : Node := { n with rcp := { n.rcp with insts := n.rcp.insts.put i x } }
def Node.updInst (n : Node) (i : Nat) (f : Inst → Inst) : Node := n.setInst i (f (n.inst i))
def InstSt.code : InstSt → Nat
  | .free => 0 | .armed => 1 | .running => 2 | .held => 3 | .done => 4
/-- FREE or DONE. -/
def Node.instEnded (n : Node) (i : Nat) : Bool := (n.inst i).st == .free || (n.inst i).st == .done
/-- The lowest FREE instance, else the lowest DONE (R135). -/
def Node.freeInst (n : Node) : Option Nat :=
  match (List.range 64).find? (fun i => (n.inst i).st == .free) with
  | some i => some i
  | none => (List.range 64).find? (fun i => (n.inst i).st == .done)

/-- The 96-byte record (R137). -/
def Inst.record (x : Inst) : List Byte :=
  leBytes 1 x.st.code ++ leBytes 1 x.recipe ++ leBytes 1 x.group
    ++ leBytes 1 (b2n x.stopped + 2 * b2n x.wasReset + 4 * b2n x.late + 8 * b2n x.waitFw + 16 * b2n x.stopPending)
    ++ leBytes 2 x.sheaf ++ leBytes 2 x.step ++ leBytes 4 x.lateCount ++ leBytes 4 x.deadline ++ leBytes 8 x.epoch ++ leBytes 8 x.entered
    ++ (List.range 8).flatMap (fun r => leBytes 8 (x.regs.getD r 0).toNat)

/-- The results of RECIPE_STOP: the state reached. -/
def stateResult (st : InstSt) : List Byte := [BitVec.ofNat 8 st.code, 0, 0, 0]

/-- An instance is DONE; RECIPE_STOP commands that wait for it are answered (R122, R136). -/
def Node.endInst (n : Node) (i : Nat) (stopped : Bool) : Node :=
  let ws := (n.inst i).stopWaiters
  let n := n.updInst i (fun x => { x with st := .done, stopped := x.stopped || stopped, stopPending := false, waitFw := false, act := none,
                                          issued := false, atOnce := false, lockWait := false, stopWaiters := [] })
  ws.foldl (fun n m => n.ok m (stateResult .done)) n

/-- A RECIPE_STOP from mailbox `m` acts on instance `i` (R122, R136): in `mode` 0 at once, in mode 1 when the instance leaves its step. -/
def Node.stopInst (n : Node) (i m mode : Nat) : Node :=
  match (n.inst i).st with
  | .running =>
    if mode = 0 then (n.endInst i true).ok m (stateResult .done)
    else n.updInst i (fun x => { x with stopPending := true, stopWaiters := x.stopWaiters ++ [m] })
  | .armed => (n.endInst i true).ok m (stateResult .done)
  | _ => n.ok m (stateResult .done)

/-- An instance ends with RESET set (R122, R491); RECIPE_STOP commands that waited are answered. -/
def Node.resetInst (n : Node) (i : Nat) : Node :=
  let x := n.inst i
  let n := (n.setInst i { x with wasReset := true, heldStops := [] }).endInst i false
  x.heldStops.foldl (fun n e => n.ok e.1 (stateResult .done)) n

/-- A page of recipe space is lost (R491): its slots are restored from the recipe store; instances of the recipes concerned end with
RESET set. -/
def Node.restoreRecipes (n : Node) (page : Nat) : Node :=
  let dir := decide (page < 0x10291000)
  let lo := (page - 0x10291000) / 32
  let hit (r : Nat) : Bool := n.recLen r != 0 && (dir || decide (n.recBase r < lo + 128 ∧ lo < n.recBase r + n.recLen r))
  let rs := (List.range 256).filter hit
  let n := if dir then n.layRecipes else rs.foldl (fun n r => n.reloadSteps r) n
  (List.range 64).foldl (fun n i =>
    let x := n.inst i
    if rs.contains x.recipe ∧ (x.st = .armed ∨ x.st = .running ∨ x.st = .held) then n.resetInst i else n) n

/-- The instance leaves its present step and enters `target` at `t` (R116, R122): a pending stop ends it, as does a step
past the last. -/
def Node.enterStep (n : Node) (i target : Nat) (t : T64) : Node :=
  let x := n.inst i
  if x.stopPending then n.endInst i true
  else
    let n := n.setInst i { x with step := target, entered := t, act := none, issued := false, atOnce := false, lockWait := false, waitFw := false }
    if n.recLen x.recipe ≤ target then n.endInst i false else n

/-- Start an instance (R122, R135): RUNNING at `epoch`, or ARMED for it. A stop that waits for a reload to end goes on waiting. -/
def Node.startInst (n : Node) (i recipe group sheaf deadline : Nat) (reg0 : W64) (epoch : T64) (armed : Bool) : Node :=
  n.setInst i { st := if armed then .armed else .running, recipe := recipe, group := group, sheaf := sheaf, deadline := deadline,
                epoch := epoch, entered := epoch, regs := Tbl.put [] 0 reg0, heldStops := (n.inst i).heldStops }

/-- Records of the group at the instance's present step. -/
def Node.groupAt (n : Node) (i : Nat) : List Step :=
  let x := n.inst i
  let r0 := n.stepRec x.recipe x.step
  let r1 := n.stepRec x.recipe (x.step + 1)
  let r2 := n.stepRec x.recipe (x.step + 2)
  let r3 := n.stepRec x.recipe (x.step + 3)
  let g := [r0, r1, r2, r3]
  g.take (groupLen g)

/-- The group's condition now (R112). -/
def Node.groupTrue (n : Node) (i : Nat) : Bool :=
  let x := n.inst i
  (n.groupAt i).all (fun r => n.cond r x.regs x.entered n.instEnded)

/-- T_met: now, or with STAMP the later of T_enter and the latest stamp named (R112, R116). -/
def Node.metAt (n : Node) (i : Nat) : T64 :=
  let g := (n.groupAt i).filter Step.stamp
  if g = [] then n.now else g.foldl (fun t r => max t (n.view r.cStall).stamp) (n.inst i).entered

/-- T_act of the present step (R116). -/
def Node.actAt (n : Node) (i : Nat) (met : T64) : T64 :=
  let x := n.inst i
  let r := n.stepRec x.recipe x.step
  (if r.anchor = 1 then x.entered else if r.anchor = 2 then x.epoch else met) + r.delayNs

/-- The engine judges the action of the present step with T_act `t` (R118): less than 5 µs away it is carried out at once, and with a
delay other than 0 it is late. -/
def Node.judgeAct (n : Node) (i : Nat) (t : T64) : Node :=
  let x := n.inst i
  let soon := decide (t < n.now + us 5)
  let late := (n.stepRec x.recipe x.step).delay != 0 && soon
  let n := n.setInst i { x with act := some t, atOnce := soon, late := x.late || late,
                                lateCount := if late then satInc 32 x.lateCount else x.lateCount }
  if late then n.log Ev.recipeLate i x.step (min (n.now - t) (2 ^ 32 - 1)) else n

/-- An action the instance had reached before it was held up is judged anew, once (R125, R126). -/
def Node.rejudge (n : Node) (i : Nat) : Node :=
  let x := n.inst i
  match x.act with
  | some t => if x.issued || x.atOnce then n else n.judgeAct i t
  | none => n

/-- A forward step of line time from `old` skipped T_act of an action that waits for it: it falls due at once and is late (R118, R299). -/
def Node.skippedActs (n : Node) (old : T64) : Node :=
  (List.range 64).foldl (fun n i =>
    let x := n.inst i
    match x.act with
    | some t => if x.st = .running ∧ !x.atOnce ∧ old < t ∧ t ≤ n.now then (n.judgeAct i t).updInst i (fun y => { y with atOnce := !x.issued }) else n
    | none => n) n

/-- The instance reaches its action (R116, R118). -/
def Node.reachAction (n : Node) (i : Nat) (met : T64) : Node := n.judgeAct i (n.actAt i met)

/-- The bytes of the records the present step is made of: address and length. -/
def Node.stepSpan (n : Node) (i : Nat) : Nat × Nat := (slotAddr (n.recBase (n.inst i).recipe + (n.inst i).step), 32 * max 1 (n.groupAt i).length)

/-- The engine fetches the present step: while its row or page is copied the fetch waits (R28, R491); a poisoned record is never used,
and recipe space, its owner, restarts (R24, R493). -/
def Node.withStep (n : Node) (i : Nat) (f : Node → Node) : Node :=
  let (a, k) := n.stepSpan i
  if n.mem.copies a k then n
  else match n.poisonIn a k with
    | some w => ((n.consume a k Isl.seq).2.restoreRecipes (pageOf w)).unpoison (pageOf w) 4096
    | none => f n

/-- The step after the present group. -/
def Node.afterStep (n : Node) (i : Nat) : Nat := (n.inst i).step + max 1 (n.groupAt i).length

/-- RECIPE_ACTION_REFUSED (R115, R138). -/
def Node.refuseAction (n : Node) (i status : Nat) : Node := n.log Ev.recipeActionRefused i (n.inst i).step status

/-- A register of an instance. -/
def Node.reg (n : Node) (i r : Nat) : W64 := (n.inst i).regs.getD r 0
def Node.setReg (n : Node) (i r : Nat) (v : W64) : Node := n.updInst i (fun x => { x with regs := x.regs.put r v })

/-- Codes of actions that act on a stall, which its island holds until T_act (R118). -/
def issuable (act : Nat) : Bool := [0x02, 0x03, 0x04, 0x05, 0x06, 0x0A, 0x11].contains act

/-- A lower-numbered instance has reached an action on the same stall with the same T_act and has still to carry it out (R119). -/
def Node.yields (n : Node) (i : Nat) (r : Step) (t : T64) : Bool :=
  issuable r.act && (List.range i).any (fun j =>
    let y := n.inst j
    let q := n.stepRec y.recipe y.step
    y.st == .running && y.act == some t && !y.issued && issuable q.act && q.aStall == r.aStall)

/-- Carry out the action with code `code` that instance `i` has reached (R116 to R119): `f` gives the effect at its instant and the
next step. An action that is due at once is carried out now; one on a stall with a future T_act goes through its island instead; for
any other line time comes up to T_act. -/
def Node.carryOut (n : Node) (i code : Nat) (f : Node → Step → T64 → Node × Nat) : Node :=
  let x := n.inst i
  let r := n.stepRec x.recipe x.step
  match x.act with
  | some t =>
    if x.st = .running ∧ r.act = code ∧ !x.issued ∧ n.runs Isl.seq ∧ (x.atOnce ∨ !issuable code) ∧ !n.yields i r t then
      n.withStep i fun n =>
        let (n, next) := f (if x.atOnce then n else n.upTo t) r t
        if (n.inst i).st = .running then n.enterStep i next t else n
    else n
  | none => n

/-- A write of an engine action to its target, or its refusal when the target is no longer of an allowed kind (R114). -/
def Node.actWrite (n : Node) (i k : Nat) (ok : Bool) (v : W64) (t : T64) : Node :=
  if ok then n.engineWrite k v (max n.now t) else n.refuseAction i Rs.chanInvalid

/-- The value that action `act` with operand `a` writes to stall `k` now: none for a COPY from an INVALID source, and whether
the target is still allowed (R113, R114). -/
def Node.stallAction (n : Node) (act k : Nat) (a : W64) : Bool × Option W64 :=
  let t := n.view k
  let src := n.view (a.toNat % 65536)
  match act with
  | 0x02 => (t.writable && t.half a, some a)
  | 0x03 => (t.writable && t.fm != F.bool, some (addValue t.fm t.value a))
  | 0x04 => (t.writable && t.fm == F.bool, some (if t.value.getLsbD 0 then 0 else 1))
  | 0x05 => (t.writable, if src.valid then some (copyValue src.fm t.fm src.value) else none)
  | 0x06 => (t.writable && t.fm == F.bool, some 1)
  | 0x0A => (t.writable, some (regTo t.fm a))
  | _ => (true, some a)

/-- The operand of an action on a stall: the instance's register for REG_STORE, else a_value (R113). -/
def Node.actOperand (n : Node) (i : Nat) (r : Step) : W64 := if r.act = 0x0A then n.reg i r.aux else r.aValue

/-- The value the step record `r` of instance `i` writes now. -/
def Node.actValue (n : Node) (i : Nat) (r : Step) : Bool × Option W64 := n.stallAction r.act r.aStall (n.actOperand i r)

/-- Put an action into the list of issued ones, in order of T_act, then instance (R118, R119). -/
def insertIssued (e : Issued) : List Issued → List Issued
  | [] => [e]
  | h :: t => if e.at_ < h.at_ ∨ (e.at_ = h.at_ ∧ e.inst < h.inst) then e :: h :: t else h :: insertIssued e t
/-- A lock of stall `k` can be had (R118): fewer than 32 entries are locked, or its own is. -/
def Node.lockFree (n : Node) (k : Nat) : Bool := decide (n.locked < 32) || decide (0 < ((n.cached k).map CacheEntry.locks).getD 0)
/-- Issue an action, or queue it until a lock is free, which sets LATE (R118). -/
def Node.issue (n : Node) (e : Issued) : Node :=
  if n.lockFree e.stall then
    { n.lock e.stall with rcp := { n.rcp with issued := insertIssued { e with lockAt := some n.now } n.rcp.issued } }
  else ({ n with rcp := { n.rcp with issued := insertIssued e n.rcp.issued } }).updInst e.inst (fun x => { x with late := true })
/-- The trailing edge of a PULSE with T_act `t` is issued for its own instant (R119). -/
def Node.issueEdge (n : Node) (i step : Nat) (r : Step) (t : T64) : Node :=
  n.issue { inst := i, step := step, stall := r.aStall, value := 0, at_ := t + r.aValue.toNat, act := 0x06, edge := true }

/-- Queued actions get the locks that have become free, in order of T_act (R118). -/
def Node.lockQueued (n : Node) : List Issued → Node × List Issued
  | [] => (n, [])
  | e :: t =>
    let (n, e) := if e.lockAt = none ∧ n.lockFree e.stall then (n.lock e.stall, { e with lockAt := some n.now }) else (n, e)
    let (n, t) := n.lockQueued t
    (n, e :: t)

/-- The first issued action that its island holds. -/
def Recipes.firstIssued (r : Recipes) : Option Issued := r.issued.find? (fun e => e.lockAt.isSome)

/-- An issued action takes effect (R118, R119, R122): its stall's lock is free for the next, and its instance goes on. One that got its
lock only after T_act takes effect then. -/
def Node.applyIssued (n : Node) (e : Issued) : Node :=
  let at_ := max e.at_ (e.lockAt.getD 0)
  let n := ({ n.upTo at_ with rcp := { n.rcp with issued := n.rcp.issued.erase e } }).unlock e.stall
  let (n, q) := n.lockQueued n.rcp.issued
  let n := { n with rcp := { n.rcp with issued := q } }
  let n := if e.act = 0x11 then
      match n.recipeMove e.stall (toSigned 64 e.value.toNat) with
      | (some st, n) => n.log Ev.recipeActionRefused e.inst e.step st
      | (none, n) => n
    else match n.stallAction e.act e.stall e.value with
      | (true, some v) => n.engineWrite e.stall (if e.edge then 0 else v) at_
      | (true, none) => n
      | (false, _) => n.log Ev.recipeActionRefused e.inst e.step Rs.chanInvalid
  let x := n.inst e.inst
  if !e.edge ∧ (x.st = .running ∨ x.st = .held) ∧ x.issued ∧ x.step = e.step ∧ x.act = some e.at_ then n.enterStep e.inst (n.afterStep e.inst) e.at_
  else n

/-- Recipe actions take effect before loop updates and timed host writes of the same instant (R119, R145): line time comes up to `t`
and every action issued for it or earlier is done. -/
def Node.applyDue (n : Node) (t : T64) : Node :=
  (n.rcp.issued.filter (fun e => decide (e.at_ ≤ t))).foldl (fun n _ =>
    match n.rcp.firstIssued with
    | some e => if e.at_ ≤ t then n.applyIssued e else n
    | none => n) (n.upTo t)

/-! ### The Thresher -/

/-- Rank of a task under EDF: deadline, group, order of becoming ready (R129). -/
def ThTask.before (a b : ThTask) : Bool :=
  decide (a.deadline < b.deadline) || (a.deadline == b.deadline && (decide (a.group < b.group) || (a.group == b.group && decide (a.readyNo < b.readyNo))))
/-- Rank inside one group: deadline, then order of becoming ready (R129, R131). -/
def ThTask.ahead (a b : ThTask) : Bool := decide (a.deadline < b.deadline) || (a.deadline == b.deadline && decide (a.readyNo < b.readyNo))

/-- A task's sheaf has a task prefetched or in service (R130). -/
def Recipes.sheafBusy (r : Recipes) (sheaf : Nat) : Bool :=
  sheaf != 0 && r.tasks.any (fun e => e.2.sheaf == sheaf && e.2.st != .delayed && e.2.st != .ready)
/-- Eligible tasks by slot (R130). -/
def Recipes.eligible (r : Recipes) : List (Nat × ThTask) := r.tasks.filter (fun e => e.2.st == .ready && !r.sheafBusy e.2.sheaf)
/-- The best of a list under an order. -/
def bestTask (lt : ThTask → ThTask → Bool) : List (Nat × ThTask) → Option (Nat × ThTask)
  | [] => none
  | e :: t => match bestTask lt t with | some b => if lt b.2 e.2 then some b else some e | none => some e

/-- Change the task of a slot. -/
def Recipes.updTask (r : Recipes) (slot : Nat) (f : ThTask → ThTask) : Recipes :=
  match r.tasks.look slot with | some t => { r with tasks := r.tasks.put slot (f t) } | none => r

/-- The credits of one weighted choice (R129), with the group chosen. -/
def Recipes.credit (r : Recipes) : Nat × Tbl Int :=
  let has (g : Nat) : Bool := r.eligible.any (fun e => e.2.group == g)
  let w (g : Nat) : Int := (r.weights.getD g 1 : Nat)
  let c1 : Tbl Int := (List.range 8).map (fun g => (g, if has g then r.credits.getD g 0 + w g else 0))
  let pick := (c1.filter (fun e => has e.1)).foldl (fun (acc : Option (Nat × Int)) e =>
      match acc with | some b => if b.2 < e.2 then some e else some b | none => some e) none
  let g := (pick.map Prod.fst).getD 0
  let total := (((List.range 8).filter has).map w).sum
  (g, c1.put g (c1.getD g 0 - total))

/-- Fill the empty slot of a core with the chosen task (R129, R131). -/
def Recipes.choose (r : Recipes) (core : Nat) : Recipes :=
  if r.tasks.any (fun e => e.2.st == .prefetched core) then r
  else if r.weighted then
    match r.eligible with
    | [] => r
    | es =>
      let (g, cs) := r.credit
      match bestTask ThTask.ahead (es.filter (fun e => e.2.group == g)) with
      | some (s, _) => { r.updTask s (fun t => { t with st := .prefetched core }) with credits := cs }
      | none => r
  else match bestTask ThTask.before r.eligible with
    | some (s, _) => r.updTask s (fun t => { t with st := .prefetched core })
    | none => r

/-- A higher-ranked eligible task displaces the one in a slot (R131). The slot's own sheaf is busy with the task in it, so no other task of
that sheaf is eligible (R130). -/
def Recipes.displace (r : Recipes) (core : Nat) : Recipes :=
  match r.tasks.find? (fun e => e.2.st == .prefetched core) with
  | none => r
  | some (s, t) =>
    let cand := if r.weighted then bestTask ThTask.ahead (r.eligible.filter (fun e => e.2.group == t.group))
      else bestTask ThTask.before r.eligible
    match cand with
    | some (s', t') =>
      if (if r.weighted then t'.ahead t else t'.before t) then
        (r.updTask s (fun t => { t with st := .ready })).updTask s' (fun t => { t with st := .prefetched core })
      else r
    | none => r

/-- Every slot of a core in service is looked after (R131, R494). -/
def Recipes.prefetch (r : Recipes) : Recipes :=
  ((List.range 4).filter (fun c => !r.coresOut.contains c)).foldl (fun r c => (r.choose c).displace c) r

/-- A task becomes ready. -/
def Recipes.ready (r : Recipes) (slot : Nat) : Recipes :=
  { r.updTask slot (fun t => { t with st := .ready, readyNo := r.readyNo }) with readyNo := r.readyNo + 1 }

/-- The first tick boundary at or after `t`; from its boundary on a new tick applies (R128). -/
def Recipes.nextTick (r : Recipes) (t : T64) : T64 :=
  match r.newTick with
  | some (k, b) => if t ≤ b then min b (nextGrid t (us r.tick)) else nextGrid t (us k)
  | none => nextGrid t (us r.tick)

/-- Handle of a task (R132). -/
def handleOf (slot gen : Nat) : Nat := slot + 65536 * (gen % 65536)

/-- Post a task (R127): 4,096 in all, at most 3,584 of recipes; none when no slot is free. A task whose first tick at or
after its release has come is ready at once (R118, R128). -/
def Node.postTask (n : Node) (handler : Nat) (arg : W64) (release deadline group sheaf : Nat) (owner : Option (Nat × Nat)) (fw : Bool) :
    Option Nat × Node :=
  let r := n.rcp
  let mine := (r.tasks.filter (fun e => e.2.owner.isSome)).length
  match (List.range 4096).find? (fun s => (r.tasks.look s).isNone) with
  | none => (none, n)
  | some s =>
    if !fw && decide (3584 ≤ mine) then (none, n)
    else
      let gen := (r.gens.getD s 0 + 1) % 65536
      let t : ThTask := { handler := handler, arg := arg, release := release, deadline := deadline, group := group, sheaf := sheaf,
                          st := .delayed, readyNo := 0, gen := gen, owner := owner, ran := fw }
      let r := { r with tasks := r.tasks.put s t, gens := r.gens.put s gen }
      let r := if r.nextTick release ≤ n.now then (r.ready s).prefetch else r
      (some (handleOf s gen), { n with rcp := r })

/-- The field cores post a task of firmware's own for a mailbox command they take (R127, R129, R138): it is of the firmware group;
handler, deadline and sheaf are firmware's choice, so deadline and sheaf are free values, the sheaf 0 or 1024 to 4095 (log 52). Without a
slot TASK_POOL_FULL is logged; the answer tells whether there was one. -/
def Node.postFirmware (n : Node) (handler : Nat) : Bool × Node :=
  let (d, n) := n.free 19
  let (v, n) := n.free 19
  let sheaf := v.toNat % 3073
  match n.postTask handler 0 n.now (n.now + d.toNat) n.rcp.fwGroup (if sheaf = 0 then 0 else 1023 + sheaf) none true with
  | (some _, n) => (true, n)
  | (none, n) => (false, n.log Ev.taskPoolFull 0xFF handler 0)

/-- The outcome is written into the handle register if its low half still holds the handle (R132). Register 8 stands for
no register: an action that keeps no handle. -/
def Node.outcome (n : Node) (slot : Nat) (t : ThTask) (status : Nat) : Node :=
  match t.owner with
  | some (i, r) =>
    let h := handleOf slot t.gen
    if r < 8 ∧ (n.reg i r).toNat % 2 ^ 32 = h then n.setReg i r (BitVec.ofNat 64 (h + status % 65536 * 2 ^ 48)) else n
  | none => n

/-- Remove a task before dispatch (R132): the outcome, or none for an unknown handle, `some false` when it is in service. -/
def Node.cancelTask (n : Node) (handle : Nat) : Option Bool × Node :=
  let slot := handle % 4096
  match n.rcp.tasks.look slot with
  | some t =>
    if handleOf slot t.gen ≠ handle then (none, n)
    else match t.st with
      | .inService _ => (some false, n)
      | _ =>
        let n := n.outcome slot t Rs.cancelledBeforeDispatch
        (some true, { n with rcp := ({ n.rcp with tasks := n.rcp.tasks.del slot }).prefetch })
  | none => (none, n)

/-- Handlers of the firmware-served actions: the action code above the 16 bits of POST_TASK's handlers. -/
def fwHandler (act : Nat) : Nat := 0x10000 + act

/-- A firmware-served action posts its task (R113, R118, R126, R127): WAIT_FW while the field cores restart. -/
def Node.postAction (n : Node) (i code : Nat) (handler : Step → Nat) (arg : Node → Step → W64) (reg : Step → Nat) : Node :=
  let x := n.inst i
  let r := n.stepRec x.recipe x.step
  match x.act with
  | some t =>
    if x.st = .running ∧ r.act = code ∧ n.runs Isl.seq then n.withStep i fun n =>
      if n.host.restarting then n.setInst i { x with waitFw := true }
      else
        let n := if x.waitFw then n.rejudge i else n
        let n := n.updInst i (fun x => { x with waitFw := false })
        let (h, n) := n.postTask (handler r) (arg n r) t (t + us x.deadline) x.group x.sheaf (some (i, reg r)) false
        let n := match h with
          | some h => if reg r < 8 then n.setReg i (reg r) (BitVec.ofNat 64 (h + 0xFFFF * 2 ^ 48)) else n
          | none =>
            let n := n.log Ev.taskPoolFull i (handler r % 65536) 0
            if reg r < 8 then n.setReg i (reg r) (BitVec.ofNat 64 ((n.reg i (reg r)).toNat % 2 ^ 48 + Rs.busy * 2 ^ 48)) else n
        n.enterStep i (n.afterStep i) t
    else n
  | none => n

end Sys2Proof.Machine
end

