-- ==== Sys2Proof/Machine/LineTime.lean ====
section
/-! DEFINITION. Line time (13): TIME_STATUS and TIME_CONFIG (R303, R304), the IEEE 802.1AS messages of R294 to R296, the servo
of R297 and R298, and steps of line time (R299). Stamps are in units of 2^-4 ns. Messages of IEEE 802.1AS go through the
class 6 queues as frames of type 0x88F7 whose payload is the message. -/

namespace Sys2Proof.Machine

/-- Change line time. -/
def Node.updTime (n : Node) (f : Time → Time) : Node := { n with time := f n.time }

/-- The nominal increment, 2.5 ns (R290). -/
def nominalIncr : Nat := 0x2800000000000

/-- A port that carries time: UP or FOREIGN, and not a spine (R295). -/
def Node.carriesTime (n : Node) (p : Nat) : Bool :=
  ((n.port p).st == .up || (n.port p).st == .foreign) && !(p == 2 && n.line.cfg.portC == 2) && n.runs Isl.line && decide (p < 3)
/-- A master port: every port that carries time but the slave port (R295). -/
def Node.masterPort (n : Node) (p : Nat) : Bool := n.carriesTime p && p != n.time.slave

/-- Message types of IEEE 1588. -/
def Ptp.sync : Nat := 0
def Ptp.pdelayReq : Nat := 2
def Ptp.pdelayResp : Nat := 3
def Ptp.followUp : Nat := 8
def Ptp.pdelayRespFollowUp : Nat := 0xA
def Ptp.announce : Nat := 0xB

/-! The layouts below are those of IEEE 1588-2019 and IEEE 802.1AS-2020, to which R294 refers (PRESUMED, log 34); their fields are
big-endian (R2). -/

/-- The clock identity: the MAC address as an EUI-64. -/
def clockIdentity : Nat :=
  let m := Config.macAddr.toNat
  m / 2 ^ 24 * 2 ^ 40 + 0xFFFE * 2 ^ 24 + m % 2 ^ 24
/-- The identity of port `p`: its port number counts from 1. -/
def portIdentity (p : Nat) : List Byte := beBytes 8 clockIdentity ++ beBytes 2 (p + 1)
/-- A timestamp of whole ns: seconds and nanoseconds. -/
def ptpStamp (ns : Nat) : List Byte := beBytes 6 (ns / 1000000000) ++ beBytes 4 (ns % 1000000000)

/-- The header of a message in domain 0: type, body length, two-step flag, correction in 2^-4 ns, sequence and interval. -/
def ptpHeader (p kind len : Nat) (two : Bool) (corr : Int) (seq : Nat) (interval : Int) : List Byte :=
  [BitVec.ofNat 8 (0x10 + kind), 0x12#8] ++ beBytes 2 (34 + len) ++ [0, 0, if two then 0x02#8 else 0#8, 0x08#8]
    ++ beBytes 8 (ofSigned 64 (corr * 4096)) ++ beBytes 4 0 ++ portIdentity p ++ beBytes 2 seq ++ [0, BitVec.ofNat 8 (ofSigned 8 interval)]

/-- Send a message of IEEE 802.1AS out of a port, in class 6 (R294). -/
def Node.sendPtp (n : Node) (p kind : Nat) (two : Bool) (corr : Int) (seq : Nat) (interval : Int) (body : List Byte) : Node :=
  if n.carriesTime p then
    n.enqueue p { level := 0, type := 0x88F7, flags := 0, dst := 0, src := 0, ttl := 0, seq := 0, dmac := 0x0180C200000E,
                  smac := Config.macAddr.toNat, payload := ptpHeader p kind body.length two corr seq interval ++ body }
  else n

/-- A two-step Sync out of port `p`. -/
def Node.sendSync (n : Node) (p : Nat) : Node :=
  let q := ((n.port p).syncSeq + 1) % 65536
  (n.updPort p (fun x => { x with syncSeq := q, syncAt := n.now })).sendPtp p Ptp.sync true 0 q n.time.cfg.logSync (beBytes 10 0)

/-- The Follow_Up of the last Sync of port `p`: the precise origin in ns, the correction in 2^-4 ns, and the Follow_Up information TLV
with the cumulative rate offset in 2^-41. -/
def Node.sendFollowUp (n : Node) (p origin : Nat) (corr rateOffset : Int) : Node :=
  n.sendPtp p Ptp.followUp false corr (n.port p).syncSeq n.time.cfg.logSync
    (ptpStamp origin ++ beBytes 2 3 ++ beBytes 2 28 ++ beBytes 3 0x0080C2 ++ beBytes 3 1 ++ beBytes 4 (ofSigned 32 rateOffset)
      ++ beBytes 2 0 ++ beBytes 12 0 ++ beBytes 4 0)

/-- An Announce out of port `p`: grandmaster identity, stepsRemoved and currentUtcOffset (R289, R294); the priorities and the clock
quality are the standard's defaults. -/
def Node.sendAnnounce (n : Node) (p gm steps : Nat) (utc : Int) : Node :=
  let q := ((n.port p).announceSeq + 1) % 65536
  (n.updPort p (fun x => { x with announceSeq := q, announceAt := n.now })).sendPtp p Ptp.announce false 0 q 0
    (beBytes 10 0 ++ beBytes 2 (ofSigned 16 utc) ++ [0, 246#8] ++ beBytes 4 0xF8FE436A ++ [248#8] ++ beBytes 8 gm ++ beBytes 2 steps ++ [0xA0#8])

/-- A port takes part in the relay of time: its Pdelay exchange has succeeded (R296). -/
def Node.capable (n : Node) (p : Nat) : Bool := n.carriesTime p && (n.port p).asCapable
/-- To every master port that is asCapable (R296). -/
def Node.relay (n : Node) (f : Node → Nat → Node) : Node :=
  (List.range 3).foldl (fun n p => if n.masterPort p && n.capable p then f n p else n) n

/-- The grandmaster identity, stepsRemoved and UTC offset that this node announces (R289, R295). -/
def Node.announced (n : Node) : Nat × Nat × Int :=
  if n.isHead then (clockIdentity, 0, if n.time.cfg.source = 1 then n.time.utc else n.time.cfg.utc) else (n.time.gm, n.time.steps, n.time.utc)

/-- Transmission does not follow a step of line time, `d` in 0.1 ns. -/
def Port.shifted (x : Port) (d : Int) : Port :=
  let f (t : Nat) : Nat := ((t : Int) + d).toNat
  { x with clock := f x.clock, freeAt := f x.freeAt, sending := x.sending.map (fun q => (q.1, q.2.1, f q.2.2)) }

/-- Step line time by `d`, in 2^-4 ns (R299): after a backward step the grids wait for the time they had reached; after a forward one the actions
and updates it skipped are due at once or not made up. -/
def Node.stepTime (n : Node) (d : Int) : Node :=
  let old := n.now
  let new := ((n.time.count : Int) + d * (2 ^ 44 : Nat)).toNat
  let n := n.updTime (fun t => { t with count := new, stepped := true, gridFloor := if d < 0 then max old t.gridFloor else t.gridFloor })
  let n : Node := if 0 < d && n.harv.gapFrom.isNone && n.harv.inForce.clock != 2 then { n with harv := { n.harv with gapFrom := some (n.harv.lastIndex + 1, 4) } } else n
  let n := if 0 < d then (n.skippedActs old).skipUpdates else n
  let n := (List.range 3).foldl (fun n p => n.updPort p (fun x => x.shifted (d * 10 / 16))) n
  let b := ofSigned 64 (d / 16)
  n.log Ev.timeStep (b % 2 ^ 32) (b / 2 ^ 32) n.time.servo.code

/-- New settings apply at a Sync interval boundary (R303); a head that becomes the reference is LOCKED (R298). -/
def Node.applyTimeCfg (n : Node) : Node :=
  match n.time.newCfg with
  | some c =>
    let n := (n.updTime (fun t => { t with cfg := c, newCfg := none })).reslave
    if n.isHead ∧ c.source ≠ 1 ∧ n.power.stage = .t7 ∧ n.time.servo ≠ .locked then n.servoTo .locked else n
  | none => n

/-! ### The servo -/

/-- The Sync interval in ns (R296). -/
def TimeCfg.interval (c : TimeCfg) : ℚ := 1000000000 / (2 ^ (-c.logSync).toNat : Nat)

/-- The servo's increment for an offset and a rate (R297): the new S and I. -/
def Time.servoRun (t : Time) (theta : Int) (rate : ℚ) : Int × Nat :=
  let k (b : BitVec 32) : ℚ := (b32.unpack b.toNat).toRat
  let s := t.integ + theta
  let y := -(k t.cfg.kp * (theta : ℚ) / 16 + k t.cfg.ki * (s : ℚ) / 16) / t.cfg.interval
  let i := ratRound ((nominalIncr : ℚ) * rate * (1 + y))
  let w : Int := nominalIncr / 4000
  let lo := (nominalIncr : Int) - w
  let hi := (nominalIncr : Int) + w
  if i < lo then (t.integ, lo.toNat) else if hi < i then (t.integ, hi.toNat) else (s, i.toNat)

/-- The servo sets S and I and keeps the increments of 10 s (R297, R298). -/
def Node.servoSet (n : Node) (theta : Int) (rate : ℚ) : Node :=
  let (s, i) := n.time.servoRun theta rate
  n.updTime (fun t => { t with integ := s, incr := i,
                               history := (n.now, i) :: t.history.filter (fun e => decide (n.now ≤ e.1 + ms 10000)) })

/-- A valid Sync with its offset θ in 2^-4 ns moves the servo through R298. -/
def Node.servoSync (n : Node) (theta : Int) (rate : ℚ) : Node :=
  let n := n.updTime (fun t => { t with theta := theta, lastSync := n.now, sourceLost := false })
  let mag := theta.natAbs
  match n.time.servo with
  | .free => ({ n with time := { n.time with servo := .acquiring, integ := 0, goodRun := 0, badRun := 0 } }).servoSet theta rate
  | .acquiring =>
    if n.time.cfg.step * 16000 < mag then (n.stepTime (-theta)).updTime (fun t => { t with integ := 0, goodRun := 0 })
    else
      let good := if mag < 800 then n.time.goodRun + 1 else 0
      let n := (n.updTime (fun t => { t with goodRun := good })).servoSet theta rate
      if 16 ≤ good then n.servoTo .locked else n
  | .locked =>
    let bad := if 8000 < mag then n.time.badRun + 1 else 0
    let n := (n.updTime (fun t => { t with badRun := bad })).servoSet theta rate
    if 4 ≤ bad then n.servoTo .acquiring else n
  | .holdover => (n.servoTo (if mag ≤ 8000 then .locked else .acquiring)).servoSet theta rate

/-! ### Messages -/

/-- SYNC (R293 to R296): `raw` is the raw ingress stamp. -/
def execSync (p raw : Nat) (s : State) : Host.Outcome State Fault Refusal :=
  s.run fun n =>
    if n.capable p ∧ p = n.time.slave then
      let n := n.applyTimeCfg
      let stamp := ((raw : Int) - Config.ingressCorr p (n.port p).rate).toNat
      (n.updTime (fun t => { t with sync := some (stamp, p) })).relay Node.sendSync
    else n

/-- A rate offset in 2^-41 as a ratio. -/
def rateOf (o : Int) : ℚ := 1 + (o : ℚ) / (2 ^ 41 : Nat)
/-- The rate ratio as an offset in 2^-41. -/
def offsetOf (r : ℚ) : Int := ratRound ((r - 1) * (2 ^ 41 : Nat))

/-- FOLLOW_UP (R296 to R298): `origin`, the precise origin and the correction, both in 2^-4 ns, and the cumulative rate offset in 2^-41; `raws` are the
raw egress stamps of the Syncs relayed on ports A to C. What is relayed carries the upstream link delay, the residence time and the rate
ratio. -/
def execFollowUp (p : Nat) (origin : Nat × Int) (rateOffset : Int) (raws : List Nat) (s : State) : Host.Outcome State Fault Refusal :=
  s.run fun n => match n.time.sync with
    | some (stamp, q) =>
      if q = p ∧ p = n.time.slave ∧ n.capable p then
        let x := n.port p
        let theta := (stamp : Int) - ((origin.1 : Int) + origin.2 + (x.linkDelay : Int))
        let rate := rateOf rateOffset * rateOf x.rateOffset
        let n := (n.updTime (fun t => { t with sync := none })).relay (fun n q =>
          let stay := (raws.getD q 0 : Int) + Config.egressCorr q (n.port q).rate - (stamp : Int)
          n.sendFollowUp q (origin.1 / 16) (origin.2 + (x.linkDelay : Int) + ratRound ((stay : ℚ) * rate) + (origin.1 % 16 : Nat)) (offsetOf rate))
        n.servoSync theta rate
      else n
    | none => n

/-- SYNC_LOST (R296, R298): none for 3 intervals. -/
def execSyncLost (s : State) : Host.Outcome State Fault Refusal :=
  s.run fun n =>
    if n.isHead ∧ n.time.cfg.source ≠ 1 then n
    else
      let n := n.upTo (n.time.lastSync + ⌈3 * n.time.cfg.interval⌉.toNat)
      let n := if n.isHead then n.updTime (fun t => { t with sourceLost := true }) else n
      match n.time.servo with
      | .acquiring => n.servoTo .free
      | .locked => n.enterHoldover
      | _ => n

/-- HOLDOVER_EXPIRED (R298). -/
def execHoldoverExpired (s : State) : Host.Outcome State Fault Refusal :=
  s.run fun n =>
    if n.time.servo = .holdover then (n.upTo (n.time.holdFrom + sec n.time.cfg.holdover)).servoTo .free else n

/-- SYNC_SEND (R296): an interval after the last one the head sends on port `at_.1`, with the raw egress stamp `at_.2`; a member relays what it receives. New
settings apply at the interval boundary (R303). The Announce goes with a Sync, once per second (DESIGN CHOICE, log 34). -/
def execSyncSend (at_ : Nat × Nat) (s : State) : Host.Outcome State Fault Refusal :=
  s.run fun n =>
    let n := (n.upTo ((n.port at_.1).syncAt + ratRound n.time.cfg.interval |>.toNat)).applyTimeCfg
    if n.masterPort at_.1 ∧ n.capable at_.1 then
      let (gm, steps, utc) := n.announced
      let n := if (n.port at_.1).announceAt + sec 1 ≤ n.now then n.sendAnnounce at_.1 gm steps utc else n
      if n.isHead then
        let out := ((at_.2 : Int) + Config.egressCorr at_.1 (n.port at_.1).rate).toNat
        (n.sendSync at_.1).sendFollowUp at_.1 (out / 16) (out % 16 : Nat) 0
      else n
    else n

/-- PDELAY_REQ_SEND (R296): once per second; an exchange that stayed unanswered leaves the port not asCapable. -/
def execPdelayReqSend (p : Nat) (s : State) : Host.Outcome State Fault Refusal :=
  s.run fun n =>
    if n.carriesTime p then
      let n := n.upTo ((n.port p).pdelayAt + sec 1)
      let q := ((n.port p).pdelaySeq + 1) % 65536
      (n.updPort p (fun x => { x with pdelayOut := true, asCapable := x.asCapable && !x.pdelayOut, pdelaySeq := q, pdelayAt := n.now })).sendPtp p
        Ptp.pdelayReq false 0 q 0 (beBytes 20 0)
    else n

/-- PDELAY_REQ (R294): `req` is its sequence and the identity of the requesting port, `raw` the raw stamps of its ingress and of the answer's
egress; the two-step answer carries the ingress stamp, then its
own egress stamp; parts of a ns go into the correction. -/
def execPdelayReq (p : Nat) (req raw : Nat × Nat) (s : State) : Host.Outcome State Fault Refusal :=
  s.run fun n =>
    let r := (n.port p).rate
    let t2 := ((raw.1 : Int) - Config.ingressCorr p r).toNat
    let t3 := ((raw.2 : Int) + Config.egressCorr p r).toNat
    (n.sendPtp p Ptp.pdelayResp true (-((t2 % 16 : Nat) : Int)) req.1 0 (ptpStamp (t2 / 16) ++ beBytes 10 req.2)).sendPtp p
      Ptp.pdelayRespFollowUp false (t3 % 16 : Nat) req.1 0 (ptpStamp (t3 / 16) ++ beBytes 10 req.2)

/-- The rate of the partner against this node over two successive exchanges (IEEE 802.1AS neighborRateRatio; PRESUMED, log 34). -/
def Port.neighborRate (x : Port) (t3 : Nat) (t4 : Int) : Int :=
  match x.lastPdelay with
  | some (u3, u4) => if t4 = (u4 : Int) then x.rateOffset else offsetOf ((((t3 : Int) - (u3 : Int) : Int) : ℚ) / ((t4 - (u4 : Int) : Int) : ℚ))
  | none => x.rateOffset

/-- PDELAY_RESP (R296): the raw stamps of the request's egress and the response's ingress, and the partner's two stamps. -/
def execPdelayResp (p raw1 t2 t3 raw4 : Nat) (s : State) : Host.Outcome State Fault Refusal :=
  s.run fun n =>
    let x := n.port p
    if x.pdelayOut ∧ n.carriesTime p then
      let t1 := (raw1 : Int) + Config.egressCorr p x.rate
      let t4 := (raw4 : Int) - Config.ingressCorr p x.rate
      let ro := x.neighborRate t3 t4
      let d := (ratRound ((rateOf ro * ((t4 - t1 : Int) : ℚ) - (((t3 : Int) - (t2 : Int) : Int) : ℚ)) / 2)).toNat
      n.setPort p { x with pdelayOut := false, linkDelay := min d (2 ^ 32 - 1), asCapable := decide (d < 12800), rateOffset := ro,
                           lastPdelay := some (t3, t4.toNat) }
    else n

/-- ANNOUNCE (R289, R294): taken on the slave port and relayed. -/
def execAnnounce (p gm steps : Nat) (utc : Int) (s : State) : Host.Outcome State Fault Refusal :=
  s.run fun n =>
    if n.capable p ∧ p = n.time.slave then
      let n := n.updTime (fun t => { t with gm := gm, steps := steps + 1, utc := utc })
      let (gm, steps, utc) := n.announced
      n.relay (fun n q => n.sendAnnounce q gm steps utc)
    else n

/-! ### Commands -/

/-- The settings of a TIME_CONFIG payload. -/
def TimeCfg.ofBytes (pl : List Byte) : TimeCfg :=
  { source := u8 pl 0, logSync := toSigned 8 (u8 pl 1), kp := BitVec.ofNat 32 (u32 pl 4), ki := BitVec.ofNat 32 (u32 pl 8),
    holdover := u16 pl 12, step := u16 pl 14, refId := u32 pl 16, refPeriod := u16 pl 20, utc := toSigned 16 (u16 pl 22) }

/-- TIME_CONFIG (R303). -/
def execTimeConfig (path idx : Nat) (s : State) : Host.Outcome State Fault Refusal :=
  s.run fun n => n.hostCmd Cmd.timeConfig path idx fun n m pl =>
    let head := n.isHead
    let src := u8 pl 0
    let ls := toSigned 8 (u8 pl 1)
    let kp := u32 pl 4
    let ki := u32 pl 8
    let t := u64 pl 24
    let id := u32 pl 16
    n.checked m [badLen pl 32, badIn src 0 (if head then 2 else 0) 0, badRange (src == 1 && n.line.cfg.portC != 3) 0,
        badRange (decide (ls < -7 ∨ 0 < ls)) 1, badRes pl 2 2, badRange (!(b32.lt 0 kp && b32.le kp 0x3F800000)) 4,
        badRange (!(b32.le 0 ki && b32.lt ki kp)) 8, badIn (u16 pl 12) 1 3600 12, badIn (u16 pl 14) 1 1000 14,
        badRange (field id 30 29 != 0 || (!bit id 31 && decide (0x7FF < id))) 16, badIn (u16 pl 20) 0 1000 20,
        badRange (!head && u16 pl 22 != 0) 22, badRange (!(head && src == 2) && t != 0) 24]
      (n.needCfg m Cmd.timeConfig
        (let n := (n.updTime (fun x => { x with newCfg := some (TimeCfg.ofBytes pl) })).storeCfg Cmd.timeConfig 0 pl
         let n := if t = 0 then n else n.stepTime (((t : Int) - (n.now : Int)) * 16)
         n.ok m []))

/-- Line time in the 16 bytes of R287. -/
def Time.bytes (t : Time) : List Byte :=
  let ns := t.count / 2 ^ 48
  leBytes 8 (ns / 1000000000) ++ leBytes 4 (ns % 1000000000) ++ leBytes 2 (t.count % 2 ^ 48 / 2 ^ 32) ++ [0, 0]

/-- The applied correction of I in parts per 10^12. -/
def Time.ratePpt (t : Time) : Int := roundDiv (((t.incr : Int) - (nominalIncr : Int)) * 1000000000000) nominalIncr

/-- TIME_STATUS (R304). -/
def execTimeStatus (path idx : Nat) (s : State) : Host.Outcome State Fault Refusal :=
  s.run fun n => n.hostCmd Cmd.timeStatus path idx fun n m pl =>
    n.checked m [badLen pl 0]
      (let t := n.time
       let fl := b2n (t.servo == .locked || t.servo == .holdover) + 2 * b2n n.isHead + 4 * b2n t.sourceLost + 8 * b2n t.stepped
       let left := if t.servo = .holdover then (t.holdFrom + sec t.cfg.holdover - n.now) / 1000000000 else 0
       let delay := if t.slave < 3 then (n.port t.slave).linkDelay else 0
       let n := n.updTime (fun x => { x with stepped := false })
       n.ok m (leBytes 1 t.servo.code ++ leBytes 1 t.cfg.source ++ leBytes 1 t.slave ++ leBytes 1 fl ++ t.bytes
         ++ leBytes 4 (ofSigned 32 (clampI minS32 maxS32 t.theta)) ++ leBytes 4 (ofSigned 32 (clampI minS32 maxS32 t.ratePpt))
         ++ leBytes 2 n.announced.2.1 ++ leBytes 2 (ofSigned 16 n.announced.2.2) ++ leBytes 4 delay ++ leBytes 2 left
         ++ leBytes 2 0 ++ leBytes 8 t.lastSync ++ leBytes 8 n.announced.1))

/-- The bypass is open and neither A nor B is BYPASSED or still trains (t7 of R47); a port without a partner is not waited for (log 51). -/
def Node.portsTrained (n : Node) : Bool :=
  !n.power.bypassClosed && [0, 1].all (fun p => (n.port p).st != .bypassed && (n.port p).st != .training)

/-- t7 of power-up (R47, R298): the head with source 0 or 2 is LOCKED from now on. -/
def Node.reachT7 (n : Node) : Node :=
  if n.power.stage = .t6 ∧ n.portsTrained then
    let n := { n with power := { n.power with stage := .t7 } }
    if n.isHead ∧ n.time.cfg.source ≠ 1 ∧ n.time.servo ≠ .locked then n.servoTo .locked else n
  else n

end Sys2Proof.Machine
end

