-- ==== Sys2Proof/Machine/Recipes.lean ====
section
/-! DEFINITION. Recipes and tasks (05): the recipe and task commands (R134 to R136), the step engine (R115 to R119, R122),
the recipe actions of R113, and the Thresher's release (R128). -/

namespace Sys2Proof.Machine

/-! ### Commands -/

/-- RECIPE_LOAD's records into step slots. -/
def Node.writeSteps (n : Node) (base off : Nat) (bytes : List Byte) : Node := n.write (slotAddr (base + off)) bytes

/-- RECIPE_LOAD (R107, R134, R136). -/
def execRecipeLoad (path idx : Nat) (s : State) : Host.Outcome State Fault Refusal :=
  s.run fun n => n.hostCmd Cmd.recipeLoad path idx fun n m pl =>
    let r := u8 pl 0
    let auto := u8 pl 1
    let first := decide (u16 pl 4 = 0)
    let len := if first then u16 pl 2 else n.recLen r
    let off := u16 pl 4
    let c := u16 pl 6
    let empty := first && len == 0
    let active := n.rcp.insts.any (fun e => e.2.recipe == r && (e.2.st == .armed || e.2.st == .running || e.2.st == .held))
    let dup := first && auto != 0xFF && (List.range 256).any (fun q => q != r && n.recAuto q == auto)
    let base := if first then n.freeRun r len else some (n.recBase r)
    n.checked m [(decide (pl.length < 8), Rs.lengthBad, 0), badRange (decide (14 < c) || (c == 0 && !empty)) 6,
        (pl.length != 8 + 32 * c && !empty, Rs.lengthBad, 0), badRange (first && decide (63 < auto) && auto != 0xFF) 1,
        badRange (first && decide (4096 < len)) 2, (active, Rs.busy, 0), badRange (!empty && decide (len < off + c)) 4,
        badRange dup 1, badRange (!empty && base.isNone && !n.runLost r len) 2]
      (if n.partRo 3 then n.degraded m Cmd.recipeLoad 0
       else if !empty && base.isNone then n.degraded m Cmd.recipeLoad n.mem.recipeTaken.length else
       let b := base.getD 0
       let n := if empty then n.write (dirAddr r) (dirEntry 0 0 auto)
         else if first then (n.write (dirAddr r) (dirEntry b len auto)).writeSteps b 0 (List.replicate (32 * len) 0)
         else n
       let n := if empty then n else n.writeSteps b off (slice pl 8 (32 * c))
       (n.keepRecipe r).ok m [])

/-- RECIPE_READ (R134, R136). -/
def execRecipeRead (path idx : Nat) (s : State) : Host.Outcome State Fault Refusal :=
  s.run fun n => n.hostCmd Cmd.recipeRead path idx fun n m pl =>
    let r := u8 pl 0
    let off := u16 pl 2
    let c := u16 pl 4
    let insts := decide (r = 0xFF)
    let len := if insts then 64 else n.recLen r
    n.checked m [badLen pl 6, badRes pl 1 1, badRange (decide (len < off + c)) 2, badIn c 1 (if insts then 4 else 14) 4]
      (n.ok m (leBytes 2 len ++ [0, 0] ++ (List.range c).flatMap (fun i =>
        if insts then (n.inst (off + i)).record else n.stepBytes r (off + i))))

/-- RECIPE_START (R122, R135, R136). -/
def execRecipeStart (path idx : Nat) (s : State) : Host.Outcome State Fault Refusal :=
  s.run fun n => n.hostCmd Cmd.recipeStart path idx fun n m pl =>
    let r := u8 pl 0
    let named := u8 pl 1
    let t := u64 pl 8
    let inst := if named = 0xFF then n.freeInst else some named
    let i := inst.getD 0
    n.checked m [badLen pl 32, badRange (decide (63 < named) && named != 0xFF) 1, badIn (u8 pl 2) 0 7 2, badRes pl 3 1,
        badIn (u16 pl 4) 0 1023 4, badRes pl 6 2, badIn (u32 pl 16) 1 1000000 16, badRes pl 20 4,
        (n.recLen r == 0, Rs.notFound, 0), (named != 0xFF && !n.instEnded i, Rs.busy, 0), (inst.isNone, Rs.instanceLimit, 0),
        badRange (t != 0 && decide (t < n.now ∨ n.now + sec 60 < t)) 8,
        ((n.recipeFault r).isSome, Rs.recipeInvalid, (n.recipeFault r).getD 0)]
      ((n.startInst i r (u8 pl 2) (u16 pl 4) (u32 pl 16) (BitVec.ofNat 64 (u64 pl 24)) (if t = 0 then n.now else t) (decide (n.now < t))).ok
        m [BitVec.ofNat 8 i, 0, 0, 0])

/-- RECIPE_STOP (R122, R136). -/
def execRecipeStop (path idx : Nat) (s : State) : Host.Outcome State Fault Refusal :=
  s.run fun n => n.hostCmd Cmd.recipeStop path idx fun n m pl =>
    let i := u8 pl 0
    let mode := u8 pl 1
    let x := n.inst i
    n.checked m [badLen pl 4, badIn i 0 63 0, badIn mode 0 1 1, badRes pl 2 2, (x.st == .free, Rs.notFound, 0)]
      (if x.st = .held then n.setInst i { x with heldStops := x.heldStops ++ [(m, mode)] } else n.stopInst i m mode)

/-- RECIPE_STOP_TIMEOUT (R136): 2 s after the first waiting stop of the instance was taken it is answered with state RUNNING, and with it
every other that is due; the stop stays pending. -/
def execRecipeStopTimeout (i : Nat) (s : State) : Host.Outcome State Fault Refusal :=
  s.run fun n =>
    let dueAt (m : Nat) : T64 := (n.mbx m).takenAt + sec 2
    match ((n.inst i).stopWaiters.map dueAt).min? with
    | some t =>
      let n := n.upTo t
      let due := (n.inst i).stopWaiters.filter (fun m => decide (dueAt m ≤ n.now))
      let n := n.updInst i (fun x => { x with stopWaiters := x.stopWaiters.filter (fun m => !due.contains m) })
      due.foldl (fun n m => n.ok m (stateResult .running)) n
    | none => n

/-- TASK_CANCEL (R132, R136). -/
def execTaskCancel (path idx : Nat) (s : State) : Host.Outcome State Fault Refusal :=
  s.run fun n => n.hostCmd Cmd.taskCancel path idx fun n m pl =>
    n.checked m [badLen pl 4]
      (match n.cancelTask (u32 pl 0) with
       | (none, n) => n.answer m Rs.taskUnknown 0 []
       | (some false, n) => n.answer m Rs.busy 0 []
       | (some true, n) => n.ok m [])

/-- SCHED_CONFIG (R128, R129, R134, R136). -/
def execSchedConfig (path idx : Nat) (s : State) : Host.Outcome State Fault Refusal :=
  s.run fun n => n.hostCmd Cmd.schedConfig path idx fun n m pl =>
    n.checked m ([badLen pl 12, badIn (u8 pl 0) 0 1 0, badIn (u8 pl 1) 0 7 1, badIn (u8 pl 2) 1 100 2, badRes pl 3 1]
        ++ (List.range 8).map (fun g => badIn (u8 pl (4 + g)) 1 255 (4 + g)))
      (n.needCfg m Cmd.schedConfig
        (let r := n.rcp
         let r := match r.newTick with | some (k, b) => if b ≤ n.now then { r with tick := k } else r | none => r
         let r := { r with weighted := u8 pl 0 == 1, fwGroup := u8 pl 1, weights := (List.range 8).map (fun g => (g, u8 pl (4 + g))),
                           newTick := if u8 pl 2 = r.tick then none else some (u8 pl 2, nextGrid (n.now + 1) (us r.tick)) }
         ({ n with rcp := r }.storeCfg Cmd.schedConfig 0 pl).ok m []))

/-! ### The step engine -/

/-- CONDITION_EVAL (R112, R116, R117). -/
def execConditionEval (i : Nat) (s : State) : Host.Outcome State Fault Refusal :=
  s.run fun n =>
    let x := n.inst i
    let r := n.stepRec x.recipe x.step
    let expired := r.timeout != 0 && decide (x.entered + ms r.timeout < n.now)
    if x.st = .running ∧ x.act = none ∧ n.runs Isl.seq ∧ !expired then n.withStep i fun n =>
      if n.groupTrue i then n.reachAction i (n.metAt i)
      else if r.test then n.enterStep i r.branch x.entered
      else n
    else n

/-- STEP_TIMEOUT (R116): the final evaluation at T_enter plus timeout. -/
def execStepTimeout (i : Nat) (s : State) : Host.Outcome State Fault Refusal :=
  s.run fun n =>
    let x := n.inst i
    let r := n.stepRec x.recipe x.step
    if x.st = .running ∧ x.act = none ∧ n.runs Isl.seq ∧ r.timeout ≠ 0 then n.withStep i fun n =>
      let t := x.entered + ms r.timeout
      let n := n.upTo t
      if n.groupTrue i then n.reachAction i (n.metAt i) else n.enterStep i r.branch t
    else n

/-- No instance whose issue waits for a lock has an earlier T_act (R118). -/
def Node.lockTurn (n : Node) (i : Nat) (t : T64) : Bool :=
  (List.range 64).all (fun j =>
    let y := n.inst j
    !(j != i && y.lockWait && y.st == .running && (match y.act with | some u => decide (u < t) || (u == t && decide (j < i)) | none => false)))

/-- ACTION_ISSUE (R104, R118): the island gets the action and its operand; the value is that of T_act (DEDUCED, log 15). With
32 entries locked the action waits and sets LATE; it is issued when a lock is free, in order of T_act. A PULSE's trailing edge is
issued with it. -/
def execActionIssue (i : Nat) (s : State) : Host.Outcome State Fault Refusal :=
  s.run fun n =>
    let x := n.inst i
    let r := n.stepRec x.recipe x.step
    match x.act with
    | some t =>
      if x.st = .running ∧ !x.issued ∧ !x.atOnce ∧ n.runs Isl.seq ∧ issuable r.act then n.withStep i fun n =>
        if n.lockFree r.aStall ∧ n.lockTurn i t then
          let n := (n.setInst i { x with issued := true, lockWait := false }).issue
            { inst := i, step := x.step, stall := r.aStall, value := n.actOperand i r, at_ := t, act := r.act }
          if r.act = 0x06 then n.issueEdge i x.step r t else n
        else n.setInst i { x with late := true, lockWait := true }
      else n
    | none => n

/-- TIMED_ACTION_APPLY (R118, R119, R122): the first issued action takes effect at its T_act, and its instance goes on. -/
def execTimedActionApply (s : State) : Host.Outcome State Fault Refusal :=
  s.run fun n => match n.rcp.firstIssued with
    | some e => n.applyIssued e
    | none => n

/-- INSTANCE_EPOCH (R122). -/
def execInstanceEpoch (i : Nat) (s : State) : Host.Outcome State Fault Refusal :=
  s.run fun n =>
    let x := n.inst i
    if x.st = .armed ∧ n.runs Isl.seq then (n.upTo x.epoch).setInst i { x with st := .running, entered := x.epoch, step := 0 } else n

/-! ### Engine-served actions (R113 to R115) -/

/-- The actions that write a stall. -/
def Node.valueAction (n : Node) (i code : Nat) : Node :=
  n.carryOut i code fun n r t =>
    let (ok, v) := n.actValue i r
    let n := match v with
      | some v => n.actWrite i r.aStall ok v t
      | none => if ok then n else n.refuseAction i Rs.chanInvalid
    (n, n.afterStep i)

/-- END. -/
def execActEnd (i : Nat) (s : State) : Host.Outcome State Fault Refusal :=
  s.run fun n => n.carryOut i 0x00 fun n _ _ => (n.endInst i (n.inst i).stopPending, 0)
/-- NOP. -/
def execActNop (i : Nat) (s : State) : Host.Outcome State Fault Refusal :=
  s.run fun n => n.carryOut i 0x01 fun n _ _ => (n, n.afterStep i)
/-- SET. -/
def execActSet (i : Nat) (s : State) : Host.Outcome State Fault Refusal := s.run fun n => n.valueAction i 0x02
/-- ADD. -/
def execActAdd (i : Nat) (s : State) : Host.Outcome State Fault Refusal := s.run fun n => n.valueAction i 0x03
/-- TOGGLE. -/
def execActToggle (i : Nat) (s : State) : Host.Outcome State Fault Refusal := s.run fun n => n.valueAction i 0x04
/-- COPY. -/
def execActCopy (i : Nat) (s : State) : Host.Outcome State Fault Refusal := s.run fun n => n.valueAction i 0x05
/-- PULSE: the trailing edge is issued for T_act plus the width. -/
def execActPulse (i : Nat) (s : State) : Host.Outcome State Fault Refusal :=
  s.run fun n => n.carryOut i 0x06 fun n r t =>
    let (ok, _) := n.actValue i r
    let n := n.actWrite i r.aStall ok 1 t
    let n := if ok then n.issueEdge i (n.inst i).step r t else n
    (n, n.afterStep i)
/-- REG_SET. -/
def execActRegSet (i : Nat) (s : State) : Host.Outcome State Fault Refusal :=
  s.run fun n => n.carryOut i 0x07 fun n r _ => (n.setReg i r.aStall r.aValue, n.afterStep i)
/-- REG_ADD, wrapping. -/
def execActRegAdd (i : Nat) (s : State) : Host.Outcome State Fault Refusal :=
  s.run fun n => n.carryOut i 0x08 fun n r _ => (n.setReg i r.aStall (n.reg i r.aStall + r.aValue), n.afterStep i)
/-- REG_LOAD: an INVALID source leaves the register unchanged. -/
def execActRegLoad (i : Nat) (s : State) : Host.Outcome State Fault Refusal :=
  s.run fun n => n.carryOut i 0x09 fun n r _ =>
    let src := n.view (r.aValue.toNat % 65536)
    (if src.valid then n.setReg i r.aStall (regOf src.fm src.value) else n, n.afterStep i)
/-- REG_STORE. -/
def execActRegStore (i : Nat) (s : State) : Host.Outcome State Fault Refusal := s.run fun n => n.valueAction i 0x0A
/-- JUMP. -/
def execActJump (i : Nat) (s : State) : Host.Outcome State Fault Refusal :=
  s.run fun n => n.carryOut i 0x0B fun n r _ => (n, r.aValue.toNat % 65536)
/-- DJNZ. -/
def execActDjnz (i : Nat) (s : State) : Host.Outcome State Fault Refusal :=
  s.run fun n => n.carryOut i 0x0C fun n r _ =>
    let v := n.reg i r.aStall - 1
    (n.setReg i r.aStall v, if v = 0 then n.afterStep i else r.aValue.toNat % 65536)

/-- Set or clear a node flag (R120). -/
def Node.setFlag (n : Node) (f : Nat) (v : Bool) : Node :=
  { n with rcp := { n.rcp with flags := if v then n.rcp.flags ||| (1#64 <<< f) else n.rcp.flags &&& ~~~(1#64 <<< f) } }
/-- SIGNAL. -/
def execActSignal (i : Nat) (s : State) : Host.Outcome State Fault Refusal :=
  s.run fun n => n.carryOut i 0x0D fun n r _ => (n.setFlag r.aStall true, n.afterStep i)
/-- UNSIGNAL. -/
def execActUnsignal (i : Nat) (s : State) : Host.Outcome State Fault Refusal :=
  s.run fun n => n.carryOut i 0x0E fun n r _ => (n.setFlag r.aStall false, n.afterStep i)

/-- START_RECIPE (R115): group, sheaf and deadline of the carrying instance, epoch T_act. -/
def execActStartRecipe (i : Nat) (s : State) : Host.Outcome State Fault Refusal :=
  s.run fun n => n.carryOut i 0x0F fun n r t =>
    let x := n.inst i
    let rec_ := r.aValue.toNat % 256
    let named := r.aValue.toNat / 256 % 256
    let inst := if named = 0xFF then n.freeInst else some named
    let next := n.afterStep i
    (if n.recLen rec_ = 0 then n.refuseAction i Rs.notFound
     else if named ≠ 0xFF ∧ !n.instEnded named then n.refuseAction i Rs.busy
     else match inst with
       | none => n.refuseAction i Rs.instanceLimit
       | some j =>
         if (n.recipeFault rec_).isSome then n.refuseAction i Rs.recipeInvalid
         else n.startInst j rec_ x.group x.sheaf x.deadline (n.reg i r.aux) t false, next)

/-- STOP_RECIPE (R115, R122): its own instance ends as with END. -/
def execActStopRecipe (i : Nat) (s : State) : Host.Outcome State Fault Refusal :=
  s.run fun n => n.carryOut i 0x10 fun n r _ =>
    let j := r.aStall
    let next := n.afterStep i
    (if j = i then n.endInst i (n.inst i).stopPending
     else match (n.inst j).st with
       | .free => n.refuseAction i Rs.notFound
       | .done => n
       | .running => if r.aValue.getLsbD 0 then n.updInst j (fun y => { y with stopPending := true }) else n.endInst j true
       | _ => n.endInst j true, next)

/-- RECIPE_AXIS_MOVE (R113, R222). -/
def execActAxisMove (i : Nat) (s : State) : Host.Outcome State Fault Refusal :=
  s.run fun n => n.carryOut i 0x11 fun n r _ =>
    let next := n.afterStep i
    (match n.recipeMove r.aStall (toSigned 64 r.aValue.toNat) with
     | (some st, n) => n.refuseAction i st
     | (none, n) => n, next)

/-! ### Firmware-served actions (R113, R127, R132) -/

/-- What a firmware-served action posts, by its code: the task's handler, argument and handle register. A node write's
handler holds the target and its argument the register's value. -/
def Node.postFw (n : Node) (i code : Nat) : Node :=
  n.postAction i code
    (fun r => if code = 0x14 then r.aStall else if code = 0x16 then fwHandler 0x16 + 0x10000 * (1 + r.aValue.toNat % 2 ^ 32) else fwHandler code)
    (fun n r => if code = 0x14 then r.aValue else if code = 0x16 then n.reg i r.aux else BitVec.ofNat 64 r.aStall)
    (fun r => if code = 0x14 then r.aux else 8)

/-- RECIPE_CHAN_START: posts a channel start. -/
def execActChanStart (i : Nat) (s : State) : Host.Outcome State Fault Refusal :=
  s.run fun n => n.postFw i 0x12
/-- RECIPE_CHAN_STOP: posts a channel stop. -/
def execActChanStop (i : Nat) (s : State) : Host.Outcome State Fault Refusal :=
  s.run fun n => n.postFw i 0x13
/-- POST_TASK. -/
def execActPostTask (i : Nat) (s : State) : Host.Outcome State Fault Refusal :=
  s.run fun n => n.postFw i 0x14
/-- CANCEL_TASK: it reaches the Thresher at once; during a restart it completes without effect (R126, R132). -/
def execActCancelTask (i : Nat) (s : State) : Host.Outcome State Fault Refusal :=
  s.run fun n => n.carryOut i 0x15 fun n r _ =>
    let next := n.afterStep i
    (if n.host.restarting then n else (n.cancelTask ((n.reg i r.aux).toNat % 2 ^ 32)).2, next)
/-- RECIPE_NODE_WRITE: posts the write of register aux to a stall of another node at T_act, the task's release. -/
def execActNodeWrite (i : Nat) (s : State) : Host.Outcome State Fault Refusal :=
  s.run fun n => n.postFw i 0x16
/-- HARVEST_MARK: posts the fire of a harvest trigger. -/
def execActHarvestMark (i : Nat) (s : State) : Host.Outcome State Fault Refusal :=
  s.run fun n => n.postFw i 0x17

/-! ### Release -/

/-- Insert a task into a list in order of release; equal releases keep the order of their slots. -/
def insertDue (e : Nat × ThTask) : List (Nat × ThTask) → List (Nat × ThTask)
  | [] => [e]
  | h :: t => if e.2.release ≤ h.2.release then e :: h :: t else h :: insertDue e t

/-- Delayed tasks that a boundary releases, in order of release (R128). -/
def Recipes.due (r : Recipes) (b : T64) : List (Nat × ThTask) :=
  let d := r.tasks.filter (fun e => e.2.st == .delayed && decide (e.2.release ≤ b))
  d.foldr insertDue []

/-- TASK_RELEASE (R128): at the next tick boundary. -/
def execTaskRelease (s : State) : Host.Outcome State Fault Refusal :=
  s.run fun n =>
    let b := n.rcp.nextTick n.now
    let n := n.upTo b
    let r := match n.rcp.newTick with
      | some (k, at_) => if at_ ≤ b then { n.rcp with tick := k, newTick := none } else n.rcp
      | none => n.rcp
    let r := (r.due b).foldl (fun r e => r.ready e.1) r
    { n with rcp := r.prefetch }

end Sys2Proof.Machine
end

