-- ==== Sys2Proof/Machine/Loops.lean ====
section
/-! DEFINITION. The loop engine (06): the update of R140 to R151, and the order of what falls on one instant of line time (R98, R119,
R145): recipe actions, then loop updates in ascending stall number, then timed host writes. -/

namespace Sys2Proof.Machine

/-- Older updates that had not run are dropped, each with LOOP_OVERRUN (R147, R153). -/
def Node.dropUpdates (n : Node) (k : Nat) (ts : List T64) : Node :=
  ts.foldl (fun n t =>
    let d := min ((n.loop k).drops + 1) (2 ^ 32 - 1)
    let logged := n.wouldLog Ev.loopOverrun
    (n.setLoop k { n.loop k with drops := if logged then 0 else d }).log Ev.loopOverrun k t d) n

/-- The period of loop `k` in ns (R145). -/
def Node.loopPeriod (n : Node) (k : Nat) : Nat := us ((n.stall k).pf 14 2)
/-- The first update instant of loop `k` that has not been served: after a backward step of line time none comes before the time that had
been reached (R145, R299). -/
def Node.loopNext (n : Node) (k : Nat) : T64 :=
  let floor := if n.now ≤ n.time.gridFloor then n.time.gridFloor + 1 else 0
  nextGrid (max ((n.loop k).last + 1) floor) (n.loopPeriod k)
/-- Loop `k` updates (R150, R152). -/
def Node.loopRuns (n : Node) (k : Nat) : Bool := (n.stall k).kd == K.loop && (n.stall k).st == .running && n.runs Isl.seq

/-- The update of loop `k` at `t` (R140, R149 to R151): a source or set-point stall without a valid value skips it. -/
def Node.loopAt (n : Node) (k : Nat) (t : T64) : Node :=
  let st := n.stall k
  if (n.stall (st.pf 8 2)).valid && (st.pf 12 2 == noStall || (n.stall (st.pf 12 2)).valid) then
    match n.loopCompute k (n.loop k).fresh with
    | (sp, some (i, u)) => n.loopTake k t sp i u
    | (_, none) => (n.setLoop k { n.loop k with last := t }).transientFault k 8
  else n.setLoop k { n.loop k with last := t }

/-- The loops below stall number `lim` whose next update falls on `t` update, in ascending number (R145). -/
def Node.loopsAt (n : Node) (lim : Nat) (t : T64) : Node :=
  (n.stalls.keys.filter (fun k => decide (k < lim))).foldl (fun n k => if n.loopRuns k && n.loopNext k == t then n.loopAt k t else n) n

/-- LOOP_UPDATE (R119, R140, R145, R147, R149 to R151): the update of the loop's next instant, or of the latest that line time has
reached, after `drops` more that had not run. Recipe actions and the loops of lower number come first; every older update is dropped. -/
def execLoopUpdate (k drops : Nat) (s : State) : Host.Outcome State Fault Refusal :=
  s.run fun n =>
    if n.loopRuns k then
      let g := n.loopPeriod k
      let t0 := n.loopNext k
      let t := max (t0 + drops * g) (n.now / g * g)
      let n := ((n.applyDue t).loopsAt k t).dropUpdates k ((List.range ((t - t0) / g)).map (fun i => t0 + i * g))
      if n.loopRuns k then n.loopAt k t else n
    else n

/-- TIMED_WRITE_DUE (R98, R119, R145): after the recipe actions and loop updates of its instant. -/
def execTimedWriteDue (k : Nat) (s : State) : Host.Outcome State Fault Refusal :=
  s.run fun n => match (n.stall k).timedWrite with
    | some (v, t) =>
      let n := (n.applyDue t).loopsAt numStalls t
      (n.setStall k { n.stall k with timedWrite := none }).engineWrite k v t
    | none => n

end Sys2Proof.Machine
end

