-- ==== Sys2Proof/Machine/Zb.lean ====
section
/-! DEFINITION. The zone bus (14): ZB_CONFIG, ZB_STATUS, ZB_SEND and ZB_RECOVER, reference messages, and the events of the
controller. TEC and REC change by what ISO 11898-1 adds, an operand of the error events; the start of the head's frame is
seen by the events that carry `started` (log 36). -/

namespace Sys2Proof.Machine

/-! ### States and messages -/

/-- The REMOTE stalls follow the zone bus hold cause (R96, R310). -/
def Node.zbHolds (n : Node) : Node :=
  (n.stalls.filter (fun e => e.2.kd == K.remote && e.2.active)).foldl
    (fun n e => if n.causeLasts e.1 .zoneBus then n.beginHold e.1 .zoneBus else n.endHold e.1 .zoneBus) n

/-- The outcome of a message reaches its source (R317, R327). -/
def Node.zbOutcome (n : Node) (src : MsgSrc) (outcome t : Nat) : Node :=
  match src with
  | .host m =>
    match (n.mbx m).req with
    | some (c, _) => if c = Cmd.zbSend ∧ (n.mbx m).st = .executing then n.ok m ([BitVec.ofNat 8 outcome, 0, 0, 0] ++ leBytes 8 t) else n
    | none => n
  | _ => n

/-- A message left the FIFO unsent: ZB_MSG_ABORTED, and the outcome to its source (R317, R330). An island operation holds the REMOTE
stalls (R96) instead of a fault (log 54). -/
def Node.zbAbort (n : Node) (x : ZbMsg) (cause : Nat) : Node :=
  let n := (n.updZb (fun z => { z with aborted := satInc 32 z.aborted })).log Ev.zbMsgAborted x.ident cause x.attempts
  let n := n.zbOutcome x.src (if cause = 0 then 1 else 2) 0
  if x.src = .remote ∧ cause ≠ 2 then (n.remoteTxStalls x.ident).foldl (fun n k => n.transientFault k 14) n else n

/-- Every message is aborted, but for a head whose frame is in progress when `keep` says so (R310). -/
def Node.zbEmpty (n : Node) (cause : Nat) (keep : Bool) : Node :=
  let c := if keep && n.zb.started then 1 else 0
  let gone := n.zb.fifo.drop c
  gone.foldl (fun n x => n.zbAbort x cause)
    (n.updZb (fun z => { z with fifo := z.fifo.take c, started := z.started && keep, expressDue := false, suspend := false }))

/-- ERROR_ACTIVE and ERROR_PASSIVE follow the counters (R310). -/
def Node.zbLevel (n : Node) : Node :=
  let high := decide (127 < n.zb.tec ∨ 127 < n.zb.recCnt)
  match n.zb.st with
  | .errorActive => if high then n.zbEnter .errorPassive else n
  | .errorPassive => if high then n else n.zbEnter .errorActive
  | _ => n

/-- The controller leaves OFF by its mode (R310). -/
def Zb.leaveOff (z : Zb) : Zb :=
  if z.mode = 0 then z
  else if z.mode = 3 then { z with st := .loopback }
  else { z with st := .integrating, tec := 0, recCnt := 0 }

/-- OFF is entered, and left again where a later ZB_CONFIG asked for it meanwhile (R310). -/
def Node.zbOff (n : Node) : Node :=
  (n.updZb (fun z => ({ z with st := .off, newMode := none } : Zb).leaveOff)).zbHolds

/-- At bus idle a mode change takes effect: between NORMAL and RESTRICTED, or to OFF after the frame in progress (R310). -/
def Node.zbIdle (n : Node) : Node :=
  match n.zb.newMode, n.zb.started with
  | some 0, false => n.zbOff
  | some m, false =>
    match n.zb.st with
    | .errorActive | .errorPassive =>
      if m = 2 then n.updZb (fun z => { z with st := .restricted, newMode := none }) else n.updZb (fun z => { z with newMode := none })
    | .restricted =>
      if m = 1 then
        n.updZb (fun z => { z with st := if 127 < z.tec ∨ 127 < z.recCnt then .errorPassive else .errorActive, newMode := none })
      else n.updZb (fun z => { z with newMode := none })
    | _ => n
  | _, _ => n

/-- ZB_STB (R307): high in OFF and OFFLINE, low in every other state. -/
def Zb.stb (z : Zb) : Bool := z.st == .off || z.st == .offline

/-- ZB_TX is recessive for certain (R307, R310): no frame of the SL4's own is in progress, or the controller is in LOOPBACK, which
holds it recessive. The bits of a frame in progress, acknowledge bits and error flags are the bus's own (log 36). -/
def Zb.txRecessive (z : Zb) : Bool := !z.started || z.st == .loopback

/-- A new attempt may start: no express request waits for its reload, but while the field cores restart none runs (R318). -/
def Node.zbStarts (n : Node) : Bool := !n.zb.expressDue || n.host.restarting

/-- The controller attempts its head: by its state, or a frame in progress that completes (R310, R311, R318, R324). -/
def Node.zbSends (n : Node) : Bool :=
  let z := n.zb
  !z.fifo.isEmpty && (z.started ||
    ((z.st == .errorActive || z.st == .errorPassive || z.st == .loopback) && z.newMode != some 0 && !z.suspend && n.zbStarts))

/-- The head's frame has started, as the event saw it. -/
def Node.zbSaw (n : Node) (started : Bool) : Node :=
  n.updZb (fun z => { z with started := z.started || (started && n.zbSends) })

/-- A message enters at the tail (R316). -/
def Node.zbPush (n : Node) (x : ZbMsg) : Node :=
  n.updZb (fun z => { z with fifo := z.fifo ++ [x], expressDue := z.expressDue || x.express })

/-! ### Reception (R312 to R315, R320) -/

/-- A filter element's identifier type and match fit (R312). -/
def ZbFilter.fits (f : ZbFilter) (ident : Nat) : Bool :=
  let id := ident % 2 ^ 29
  f.ext == bit ident 31 &&
    (if f.type = 0 then decide (f.id1 ≤ id ∧ id ≤ f.id2) else if f.type = 1 then id == f.id1 || id == f.id2
     else ((id ^^^ f.id1) &&& f.id2) == 0)

/-- The frame goes to the host ring with its source (R315); a full ring drops it. -/
def Node.zbRing (n : Node) (f : ZbFrame) (source : Nat) : Node :=
  let d := n.zb.ring
  if d = 0 then n
  else
    let b := n.read d 32
    let base := u32 b 0
    let size := u32 b 4
    let w := u32 b 12
    let next := if w + 80 < size then w + 80 else 0
    if next = u32 b 8 then
      let run := min (n.zb.dropRuns.2.2 + 1) (2 ^ 32 - 1)
      let kept := if n.wouldLog Ev.zbRxDropped then 0 else run
      let n := n.updZb (fun z => { z with dropped := satInc 32 z.dropped, dropRuns := (z.dropRuns.1, z.dropRuns.2.1, kept) })
      ((n.write (d + 16) (leBytes 4 (satInc 32 (u32 b 16)))).write (d + 20) (leBytes 4 (u32 b 20 ||| 1))).log Ev.zbRxDropped f.ident 0 run
    else
      let id := f.ident % 2 ^ 29 + 2 ^ 29 * b2n f.brs + 2 ^ 30 * b2n f.fd + 2 ^ 31 * b2n (bit f.ident 31)
      let e := leBytes 8 f.stamp ++ leBytes 4 id ++ leBytes 1 f.data.length ++ leBytes 1 source
        ++ leBytes 1 (b2n f.esi + 2 * b2n (source == 0xFF)) ++ [0] ++ f.data ++ List.replicate (64 - f.data.length) 0
      (n.write (base + w) e).write (d + 12) (leBytes 4 next)

/-- The frame enters the priority lane and sets its node flag; a full lane drops it (R314). -/
def Node.zbLane (n : Node) (f : ZbFrame) : Node :=
  if 4 ≤ n.zb.lane.length then
    let run := min (n.zb.dropRuns.2.1 + 1) (2 ^ 32 - 1)
    let kept := if n.wouldLog Ev.zbLaneOverrun then 0 else run
    (n.updZb (fun z => { z with dropped := satInc 32 z.dropped, dropRuns := (z.dropRuns.1, kept, z.dropRuns.2.2) })).log
      Ev.zbLaneOverrun f.ident run 0
  else
    let n := n.updZb (fun z => { z with lane := z.lane ++ [f] })
    if n.zb.laneFlag < 64 then n.setFlag n.zb.laneFlag true else n

/-- A REMOTE receive stall takes its frame (R320): a usable frame is a successful retry after a timeout. -/
def Node.remoteTake (n : Node) (k : Nat) (f : ZbFrame) : Node :=
  match (n.stall k).remoteValue f with
  | none => n
  | some v =>
    let n := n.setStall k { n.stall k with lastUsable := f.stamp }
    let n := if (n.stall k).st = .retrying ∧ (n.stall k).cause = 5 then n.judgeRetry k true else n
    if (n.stall k).st = .running then n.putStall k ((n.stall k).takeAt v f.stamp) else n

/-- The active REMOTE receive stalls of an identifier. -/
def Node.remoteRxStalls (n : Node) (ident : Nat) : List Nat :=
  (n.stalls.filter (fun e => e.2.kd == K.remote && e.2.active && e.2.pf 12 1 == 0 && e.2.pf 8 4 == ident)).map Prod.fst

/-- A received frame is handled in the order of R312. -/
def Node.zbReceive (n : Node) (f : ZbFrame) : Node :=
  let lane := n.zb.filters.any (fun e => e.2.action == 2 && e.2.fits f.ident)
  let obj := (n.zb.objects.look f.ident).isSome
  let n := if lane then (n.zbLane f).zbRing f 0xFF else n
  let n := if obj then
      let n := n.updZb (fun z => { z with objects := z.objects.put f.ident (some f) })
      (n.remoteRxStalls f.ident).foldl (fun n k => n.remoteTake k f) n
    else n
  if lane || obj then n
  else match n.zb.filters.find? (fun (e : Nat × ZbFilter) => (e.2.action == 1 || e.2.action == 3) && e.2.fits f.ident) with
    | some (i, e) => if e.action = 1 then n.zbRing f i else n
    | none => if n.zb.unmatched then n.zbRing f 0xFE else n

/-! ### Commands -/

/-- A new mode (R310, R326); in OFFLINE it is only stored, for the return to RUN. OFF waits for the frame in progress, and a mode set
during that wait is taken after it. -/
def Node.zbMode (n : Node) (mode : Nat) : Node :=
  let old := n.zb.st
  let leaving := n.zb.newMode == some 0
  let n := n.updZb (fun z => { z with mode := mode })
  if old = .offline ∨ leaving then n
  else if mode = 0 then
    if old = .off then n else ((n.zbEmpty 1 true).updZb (fun z => { z with newMode := some 0 })).zbIdle
  else if old = .off then n.updZb Zb.leaveOff
  else (n.updZb (fun z => { z with newMode := some mode })).zbIdle

/-- The timing fields of op 0. -/
def zbTiming (pl : List Byte) : List Nat :=
  [u8 pl 4, u16 pl 6, u8 pl 8, u8 pl 9, u8 pl 10, u8 pl 11, u8 pl 12, u8 pl 13, u8 pl 14]

/-- The checks of op 0 on the settings (R308, R309, R326). -/
def zbSettingChecks (pl : List Byte) : List (Bool × Nat × Nat) :=
  let fl := u16 pl 2
  let nq := u8 pl 4 * (1 + u16 pl 6 + u8 pl 8)
  let dq := u8 pl 10 * (1 + u8 pl 11 + u8 pl 12)
  [badLen pl 20, badIn (u8 pl 1) 0 3 1, (decide (128 ≤ fl), Rs.paramReserved, 2), badIn (u8 pl 4) 1 32 4, badRes pl 5 1,
   badIn (u16 pl 6) 2 256 6, badIn (u8 pl 8) 1 128 8, badIn (u8 pl 9) 1 (u8 pl 8) 9, badIn (u8 pl 10) 1 32 10,
   badIn (u8 pl 11) 1 32 11, badIn (u8 pl 12) 1 16 12, badIn (u8 pl 13) 1 (u8 pl 12) 13, badIn (u8 pl 14) 0 127 14,
   badRange (decide (63 < u8 pl 15) && u8 pl 15 != 0xFF) 15, badIn (u16 pl 16) 0 60000 16, badRes pl 18 2,
   badRange (decide (nq < 80)) 4, badRange (decide (dq < 10) || decide (nq < dq)) 10, badRange (bit fl 1 && !bit fl 0) 2,
   badRange (bit fl 4 && decide (2 < u8 pl 10)) 2, badRange (bit fl 1 && decide (dq < 80) && !bit fl 4) 2]

/-- Settings other than the mode are those in force. -/
def Zb.sameSettings (z : Zb) (pl : List Byte) : Bool :=
  z.flags == BitVec.ofNat 16 (u16 pl 2) && z.timing == zbTiming pl && z.laneFlag == u8 pl 15 && z.recoveryDelay == u16 pl 16

/-- A host ring descriptor keeps the rules of R315. -/
def Node.zbRingOk (n : Node) (d : Nat) : Bool :=
  let b := n.read d 8
  let base := u32 b 0
  let size := u32 b 4
  d == 0 || (d % 64 == 0 && decide (ringLo ≤ d ∧ d + 32 ≤ ringHi) && base % 64 == 0 && decide (800 ≤ size ∧ size ≤ 229360)
    && size % 80 == 0 && decide (ringLo ≤ base ∧ base + size ≤ ringHi)
    && spansApart (n.ringSpans d 32) (n.ringSpans n.adc.list.desc0 64 ++ n.ringSpans n.adc.list.desc1 64))

/-- ZB_CONFIG (R308, R309, R310, R315, R326); `started`: the head's frame is in progress. -/
def execZbConfig (at_ : Nat × Nat) (started : Bool) (s : State) : Host.Outcome State Fault Refusal :=
  s.run fun n => n.hostCmd Cmd.zbConfig at_.1 at_.2 fun n m pl =>
    let op := u8 pl 0
    n.checked m [(decide (pl.length < 1), Rs.lengthBad, 0), badIn op 0 2 0]
      (if op = 0 then
         let mode := u8 pl 1
         let swap := (mode == 1 || mode == 2) && (n.zb.mode == 1 || n.zb.mode == 2) && n.zb.sameSettings pl
         n.checked m (zbSettingChecks pl ++ [(!(n.zb.mode == 0 || mode == 0 || swap), Rs.busy, 0)])
           (n.needCfg m Cmd.zbConfig
             (let n := n.updZb (fun z => { z with flags := BitVec.ofNat 16 (u16 pl 2), timing := zbTiming pl, laneFlag := u8 pl 15,
                                                  recoveryDelay := u16 pl 16 })
              (((n.zbSaw started).zbMode mode).storeCfg Cmd.zbConfig 0 pl).ok m []))
       else if op = 1 then
         let i := u8 pl 1
         n.checked m [badLen pl 16, badIn i 0 31 1, badIn (u8 pl 2) 0 3 2, badIn (u8 pl 3) 0 2 3, badIn (u8 pl 4) 0 1 4, badRes pl 5 3,
             badIn (u32 pl 8) 0 (if u8 pl 4 = 1 then 0x1FFFFFFF else 0x7FF) 8, badIn (u32 pl 12) 0 (if u8 pl 4 = 1 then 0x1FFFFFFF else 0x7FF) 12,
             badRange (u8 pl 2 == 2 && n.zb.filters.any (fun e => e.1 != i && e.2.action == 2)) 2]
           (n.needCfg m Cmd.zbConfig
             (let f : ZbFilter := { action := u8 pl 2, type := u8 pl 3, ext := u8 pl 4 == 1, id1 := u32 pl 8, id2 := u32 pl 12 }
              ((n.updZb (fun z => { z with filters := z.filters.put i f })).storeCfg Cmd.zbConfig (1 + i) pl).ok m []))
       else
         let d := u32 pl 4
         n.checked m [badLen pl 8, badRes pl 1 3, badRange (!n.zbRingOk d) 4]
           (n.needCfg m Cmd.zbConfig
             (let n := n.updZb (fun z => { z with ring := d })
              let n := if d = 0 then n else n.write (d + 12) (leBytes 12 0)
              (n.storeCfg Cmd.zbConfig 33 pl).ok m [])))

/-- ZB_STATUS (R328). -/
def execZbStatus (path idx : Nat) (s : State) : Host.Outcome State Fault Refusal :=
  s.run fun n => n.hostCmd Cmd.zbStatus path idx fun n m pl =>
    n.checked m [badLen pl 0]
      (let z := n.zb
       let fl := b2n (z.flags.getLsbD 4 && z.brsOn) + 2 * b2n z.protException + 4 * b2n (z.st == .busOff && !z.autoRecover)
       let n := n.updZb (fun z => { z with txOk := 0, rxOk := 0, errors := 0, arbLost := 0, aborted := 0, clashes := 0, busOffs := 0, dropped := 0 })
       n.ok m (leBytes 1 z.st.code ++ leBytes 1 z.mode ++ leBytes 2 (min z.tec 65535) ++ leBytes 1 (min z.recCnt 255)
         ++ leBytes 1 z.fifo.length ++ leBytes 1 z.lane.length ++ leBytes 1 fl ++ leBytes 1 z.lastError ++ leBytes 1 z.tdc
         ++ leBytes 1 z.objects.length ++ [0] ++ leBytes 4 z.txOk ++ leBytes 4 z.rxOk ++ leBytes 4 z.errors ++ leBytes 4 z.arbLost
         ++ leBytes 4 z.aborted ++ leBytes 4 z.clashes ++ leBytes 4 z.busOffs ++ leBytes 4 z.dropped))

/-- An identifier a host frame may not use: of an active REMOTE transmit stall or of the reference message (R327). -/
def Node.zbTaken (n : Node) (ident : Nat) : Bool :=
  !(n.remoteTx ident).isEmpty || (n.time.cfg.refPeriod != 0 && n.time.cfg.refId == ident)

/-- ZB_SEND (R316, R318, R327): the outcome follows. `started`: the head's frame is in progress, which an express request lets end. -/
def execZbSend (at_ : Nat × Nat) (started : Bool) (s : State) : Host.Outcome State Fault Refusal :=
  s.run fun n => n.hostCmd Cmd.zbSend at_.1 at_.2 fun n m pl =>
    let z := n.zb
    let id := u32 pl 0
    let fl := u8 pl 4
    let len := u8 pl 6
    n.checked m [(decide (pl.length < 8), Rs.lengthBad, 0), badLen pl (8 + len), (z.st == .busOff || z.st == .recovering, Rs.zbBusOff, 0),
        (z.st == .off || z.st == .offline || z.st == .restricted, Rs.busy, 0), (decide (32 ≤ z.fifo.length), Rs.zbFifoFull, 0),
        badRange (field id 30 29 != 0 || (!bit id 31 && decide (0x7FF < id))) 0, (decide (8 ≤ fl), Rs.paramReserved, 4),
        badRange ((bit fl 0 || bit fl 1) && !z.fdOn) 4, badRange (bit fl 1 && !bit fl 0) 4,
        badRange (decide (15 < u8 pl 5) && u8 pl 5 != 0xFF) 5,
        badRange (if bit fl 0 then !fdLengths.contains len else decide (8 < len)) 6, badRes pl 7 1, badRange (n.zbTaken id) 0]
      ((n.zbSaw started).zbPush
        { ident := id, fd := bit fl 0, brs := bit fl 1, data := slice pl 8 len, limit := u8 pl 5, src := .host m, express := bit fl 2, at_ := n.now })

/-- ZB_SEND_TIMEOUT (R327): the frame stays queued, and its outcome reaches no one any more. -/
def execZbSendTimeout (path idx : Nat) (s : State) : Host.Outcome State Fault Refusal :=
  s.run fun n =>
    let m := path * 16 + idx
    match n.zb.fifo.find? (fun x => x.src == .host m) with
    | some x =>
      let n := (n.upTo (x.at_ + ms 1500)).zbOutcome (.host m) 3 0
      n.updZb (fun z => { z with fifo := z.fifo.map (fun y => if y.src = .host m then { y with src := .firmware } else y) })
    | none => n

/-- ZB_RECOVER (R310, R329). -/
def execZbRecover (path idx : Nat) (s : State) : Host.Outcome State Fault Refusal :=
  s.run fun n => n.hostCmd Cmd.zbRecover path idx fun n m pl =>
    n.checked m [badLen pl 0]
      (let n := if n.zb.st = .busOff then n.zbSet .recovering else n
       n.ok m [BitVec.ofNat 8 n.zb.st.code, 0, 0, 0])

/-! ### The controller -/

/-- A frame of R306: CBFF, CEFF, FBFF or FEFF, its data length, and a remote frame only in classical format. -/
def zbLegal (ident : Nat) (fd brs rtr : Bool) (len : Nat) : Bool :=
  field ident 30 29 == 0 && (bit ident 31 || decide (ident ≤ 0x7FF)) && (if fd then fdLengths.contains len && !rtr else decide (len ≤ 8) && !brs)

/-- ZB_INTEGRATED (R310): 11 recessive bits while INTEGRATING. -/
def execZbIntegrated (s : State) : Host.Outcome State Fault Refusal :=
  s.run fun n =>
    if n.zb.st = .integrating then
      (n.updZb (fun z => { z with newMode := none })).zbEnter (if n.zb.mode = 2 then .restricted else .errorActive)
    else n

/-- ZB_FRAME_RECEIVED (R306, R310 to R315, R320, R324): a frame of another node with a valid CRC; remote frames are discarded, and an FD
frame is none while FD is off outside RESTRICTED. It ends a suspend-transmission wait (R311). -/
def execZbFrameReceived (ident : Nat) (fd brs esi rtr : Bool) (data : List Nat) (sof : Nat) (s : State) : Host.Outcome State Fault Refusal :=
  s.run fun n =>
    match n.zb.st with
    | .off | .integrating | .loopback | .offline => n
    | st =>
      if !zbLegal ident fd brs rtr data.length || (fd && !n.zb.fdOn && st != .restricted) then n else
      let n := (n.upTo sof).updZb (fun z => { z with suspend := false })
      let n := if st = .errorActive ∨ st = .errorPassive then
          let (v, n) := if 127 < n.zb.recCnt then n.free 14 else (0, n)
          let r := n.zb.recCnt
          (n.updZb (fun z => { z with recCnt := if 127 < r then 119 + v.toNat % 9 else r - 1 })).zbLevel
        else n
      let n := n.updZb (fun z => { z with rxOk := satInc 32 z.rxOk })
      let f : ZbFrame := { ident := ident, fd := fd, brs := brs, esi := esi, data := data.map (BitVec.ofNat 8), stamp := sof }
      (if rtr then n else n.zbReceive f).zbIdle

/-- ZB_FRAME_SENT (R302, R309, R310, R316, R324, R327): the head is sent, its start of frame at `sof`; `delay` is the measured
loop delay of an FD frame. In LOOPBACK the frame is also received. -/
def execZbFrameSent (sof delay : Nat) (s : State) : Host.Outcome State Fault Refusal :=
  s.run fun n =>
    match n.zb.fifo with
    | [] => n
    | x :: rest =>
      if !n.zbSends then n
      else
        let st := n.zb.st
        let n := n.upTo sof
        let n := n.updZb (fun z =>
          { z with fifo := rest, started := false, txOk := satInc 32 z.txOk, suspend := st == .errorPassive,
                   tec := if st = .loopback then z.tec else z.tec - 1,
                   tdc := if x.fd && z.flags.getLsbD 4 && st != .loopback then min delay 127 else z.tdc })
        let n := if x.src = .reference then { n with time := { n.time with refPrev := some sof } } else n
        let n := (n.zbLevel).zbOutcome x.src 0 sof
        let n := if st = .loopback then
            (n.updZb (fun z => { z with rxOk := satInc 32 z.rxOk })).zbReceive
              { ident := x.ident, fd := x.fd, brs := x.brs, esi := false, data := x.data, stamp := sof }
          else n
        n.zbIdle

/-- ZB_TX_ERROR (R310, R311, R317, R319): the attempt of the head ends in an error of a kind (coded as last_error of R328).
`clash` says a bit error after arbitration in the control, data or CRC field; `add` is what ISO 11898-1 adds to TEC. -/
def execZbTxError (kind : Nat) (clash : Bool) (add : Nat) (s : State) : Host.Outcome State Fault Refusal :=
  s.run fun n =>
    match n.zb.fifo with
    | [] => n
    | x :: rest =>
      if !n.zbSends || n.zb.st == .loopback then n
      else
        let st := n.zb.st
        let x := { x with attempts := x.attempts + 1, clashes := if clash then x.clashes + 1 else 0 }
        let n := n.updZb (fun z =>
          { z with fifo := x :: rest, started := false, suspend := st == .errorPassive, lastError := kind, errors := satInc 32 z.errors,
                   clashes := if clash then satInc 32 z.clashes else z.clashes, tec := z.tec + (if clash then 8 else add) })
        let n := if x.clashes = 3 && !x.clashLogged then
            (n.updZb (fun z => { z with fifo := { x with clashLogged := true } :: rest })).log Ev.idClash x.ident x.clashes n.zb.tec
          else n
        if n.zb.newMode = some 0 then ((n.updZb (fun z => { z with fifo := rest })).zbAbort x 1).zbIdle
        else if (st = .errorActive ∨ st = .errorPassive) ∧ 255 < n.zb.tec then
          let n := n.updZb (fun z => { z with fifo := z.fifo.take 1 |>.map (fun y => { y with attempts := 0 }) |> (· ++ z.fifo.drop 1),
                                              busOffs := satInc 32 z.busOffs, busOffAt := n.now, suspend := false })
          (n.zbEnter .busOff).zbHolds
        else
          let n := n.zbLevel
          let n := if x.limit ≠ 0xFF ∧ x.limit < x.attempts then (n.updZb (fun z => { z with fifo := rest })).zbAbort x 0 else n
          n.zbIdle

/-- ZB_RX_ERROR (R306, R310): an error in reception; `add` is what ISO 11898-1 adds to REC. A recessive res bit is a protocol
exception where that is enabled, and a form error otherwise. -/
def execZbRxError (kind add : Nat) (res : Bool) (s : State) : Host.Outcome State Fault Refusal :=
  s.run fun n =>
    match n.zb.st with
    | .off | .offline | .loopback | .integrating => n
    | st =>
      if res && n.zb.flags.getLsbD 2 then n.updZb (fun z => { z with protException := true })
      else
        let n := n.updZb (fun z => { z with lastError := if res then 2 else kind, errors := satInc 32 z.errors })
        let n := if st = .errorActive ∨ st = .errorPassive then (n.updZb (fun z => { z with recCnt := z.recCnt + add })).zbLevel else n
        n.zbIdle

/-- ZB_ARB_LOST (R316, R319): the head stays, and tries again at the next bus idle; on the way to OFF it is aborted. -/
def execZbArbLost (s : State) : Host.Outcome State Fault Refusal :=
  s.run fun n =>
    match n.zb.fifo with
    | [] => n
    | x :: rest =>
      if !n.zbSends then n
      else
        let n := n.updZb (fun z => { z with fifo := { x with clashes := 0 } :: rest, started := false, arbLost := satInc 32 z.arbLost })
        (if n.zb.newMode = some 0 then (n.updZb (fun z => { z with fifo := rest })).zbAbort x 1 else n).zbIdle

/-- ZB_SUSPEND_END (R311). -/
def execZbSuspendEnd (s : State) : Host.Outcome State Fault Refusal :=
  s.run fun n => n.updZb (fun z => { z with suspend := false })

/-- ZB_RECOVERY_DELAY (R310, R311). -/
def execZbRecoveryDelay (s : State) : Host.Outcome State Fault Refusal :=
  s.run fun n =>
    if n.zb.st = .busOff ∧ n.zb.autoRecover then (n.upTo (n.zb.busOffAt + ms n.zb.recoveryDelay)).zbSet .recovering else n

/-- ZB_RECOVERED (R310, R311): REMOTE receive stalls take the latest frame of their object, if it is young enough. -/
def execZbRecovered (s : State) : Host.Outcome State Fault Refusal :=
  s.run fun n =>
    if n.zb.st = .recovering then
      let n := ((n.updZb (fun z => { z with tec := 0, recCnt := 0 })).zbEnter .errorActive).zbHolds
      let n := n.zb.objects.foldl (fun n e => match e.2 with
        | some f => (n.remoteRxStalls e.1).foldl (fun n k =>
            let out := (n.stall k).pf 16 2
            if out = 0 ∨ n.now < f.stamp + ms out then n.remoteTake k f else n) n
        | none => n) n
      n.zbIdle
    else n

/-- ZB_EXPRESS_RELOAD (R318): express messages first, each part in its order of arrival. -/
def execZbExpressReload (s : State) : Host.Outcome State Fault Refusal :=
  s.run fun n =>
    if n.zb.expressDue ∧ !n.zb.started ∧ !n.host.restarting then
      n.updZb (fun z => { z with fifo := z.fifo.filter (·.express) ++ z.fifo.filter (fun x => !x.express), expressDue := false })
    else n

/-! ### Periodic frames -/

/-- The data of a reference message (R302). -/
def refData (count : Nat) (prev : Option T64) (locked : Bool) : List Byte :=
  leBytes 1 (count % 64 + 64 * b2n prev.isSome + 128 * b2n locked) ++ leBytes 7 (prev.getD 0)

/-- REFERENCE_MESSAGE_DUE (R302, R318, R323, R324). -/
def execReferenceMessageDue (started : Bool) (s : State) : Host.Outcome State Fault Refusal :=
  s.run fun n =>
    let c := n.time.cfg
    if c.refPeriod = 0 ∨ !n.runs Isl.zb then n
    else
      let t := nextGrid (max n.gridNow (n.zb.refAt + 1)) (ms c.refPeriod)
      let n := ((n.upTo t).zbSaw started).updZb (fun z => { z with refAt := t })
      let held := if n.zb.started then n.zb.fifo.take 1 else []
      let rest := if n.zb.started then n.zb.fifo.drop 1 else n.zb.fifo
      let old := rest.filter (fun x => x.src == .reference)
      let n := n.updZb (fun z => { z with fifo := held ++ rest.filter (fun x => x.src != .reference) })
      let n := old.foldl (fun n x => n.zbAbort x 3) n
      let prev := n.time.refPrev
      let count := n.time.refCount
      let locked := n.time.servo == .locked || n.time.servo == .holdover
      let n : Node := { n with time := { n.time with refPrev := none, refCount := (count + 1) % 64 } }
      let st := n.zb.st
      if (((st == .errorActive || st == .errorPassive) && n.zb.mode == 1) || st == .loopback) && decide (n.zb.fifo.length < 32) then
        n.zbPush { ident := c.refId, fd := false, brs := false, data := refData count prev locked, limit := 0, src := .reference,
                   express := n.zb.refExpress && !n.host.restarting, at_ := t }
      else n

/-- REMOTE_TX_PERIOD (R321). -/
def execRemoteTxPeriod (ident : Nat) (started : Bool) (s : State) : Host.Outcome State Fault Refusal :=
  s.run fun n =>
    match (n.remoteTx ident).head? with
    | some x =>
      let g := ms (x.pf 18 2)
      if g = 0 ∨ !n.runs Isl.zb then n
      else
        let t := nextGrid (max n.gridNow (n.zb.txAt.getD ident 0 + 1)) g
        (((n.upTo t).zbSaw started).updZb (fun z => { z with txAt := z.txAt.put ident t })).zbPlace ident
    | none => n

/-- REMOTE_RX_TIMEOUT (R100, R320). -/
def execRemoteRxTimeout (k : Nat) (s : State) : Host.Outcome State Fault Refusal :=
  s.run fun n =>
    let x := n.stall k
    if x.kd = K.remote ∧ x.st = .running ∧ x.pf 12 1 = 0 ∧ x.pf 16 2 ≠ 0 then
      (n.upTo (x.lastUsable + ms (x.pf 16 2))).transientFault k 5
    else n

end Sys2Proof.Machine
end

