-- ==== Sys2Proof/Machine/CustodyOps.lean ====
section
/-! DEFINITION. Shared operations of parcel custody (15): the 128-byte record (R332), positions (R336), exits (R337), version
changes and mirrors (R334, R340), messages (R341), handoffs (R335, R343), checkpoints (R345) and recovery (R349, R350). -/

namespace Sys2Proof.Machine

/-! ### Records (R332) -/

/-- States as coded by R332. -/
def RecSt.code : RecSt → Nat
  | .inbound => 0 | .held => 1 | .outbound => 2 | .released => 3 | .uncertain => 4
/-- A state from its code. -/
def RecSt.ofCode (c : Nat) : RecSt :=
  if c = 0 then .inbound else if c = 1 then .held else if c = 2 then .outbound else if c = 3 then .released else .uncertain

/-- Bits of cflags. -/
def Cf.idRead : Nat := 0
def Cf.extAbsent : Nat := 1
def Cf.recovered : Nat := 2
def Cf.posLost : Nat := 3
def Cf.estimated : Nat := 4
def Cf.unmatched : Nat := 5
def Cf.unmirrored : Nat := 6

/-- A flag of a record. -/
def CRec.has (r : CRec) (b : Nat) : Bool := r.cflags.getLsbD b
/-- Set or clear a flag of a record. -/
def CRec.setCf (r : CRec) (b : Nat) (v : Bool) : CRec :=
  { r with cflags := if v then r.cflags ||| (1#8 <<< b) else r.cflags &&& ~~~(1#8 <<< b) }

/-- Bytes 0 to 123 of a record; at line level 4 the extension is sent as 0 (R351). -/
def CRec.body (r : CRec) (level4 : Bool) : List Byte :=
  leBytes 8 r.parcel ++ leBytes 1 r.st.code ++ [r.cflags] ++ leBytes 1 r.hops ++ leBytes 1 r.level ++ leBytes 4 r.version
    ++ leBytes 8 r.created ++ leBytes 8 r.entered ++ leBytes 8 (ofSigned 64 r.enteredRef) ++ leBytes 2 r.length ++ leBytes 2 r.destination
    ++ leBytes 2 r.from_ ++ leBytes 2 r.to_ ++ leBytes 1 r.fromPort ++ leBytes 1 r.exit ++ leBytes 1 r.tag.length ++ [0]
    ++ r.tag ++ List.replicate (24 - r.tag.length) 0 ++ leBytes 4 0
    ++ (if level4 then leBytes 16 0 else leBytes 4 r.energyZone ++ leBytes 4 r.energyLine ++ leBytes 8 0)
    ++ leBytes 8 r.boundary ++ leBytes 8 r.resolved ++ leBytes 4 r.ckpt ++ leBytes 8 0
/-- The 128 bytes of a record with its crc. -/
def CRec.bytes (r : CRec) (level4 : Bool) : List Byte := r.body level4 ++ leBytes 4 (crc32c (r.body level4)).toNat

/-- The crc of 128 bytes is right. -/
def crecOk (b : List Byte) : Bool := b.length == 128 && (crc32c (b.take 124)).toNat == u32 b 124
/-- A record from its bytes. -/
def CRec.ofBytes (b : List Byte) : CRec :=
  { parcel := u64 b 0, st := RecSt.ofCode (u8 b 8), cflags := BitVec.ofNat 8 (u8 b 9), hops := u8 b 10, level := u8 b 11, version := u32 b 12,
    created := u64 b 16, entered := u64 b 24, enteredRef := s64 b 32, length := u16 b 40, destination := u16 b 42, from_ := u16 b 44,
    to_ := u16 b 46, fromPort := u8 b 48, exit := u8 b 49, tag := slice b 52 (min 24 (u8 b 50)), energyZone := u32 b 80, energyLine := u32 b 84,
    boundary := u64 b 96, resolved := u64 b 104, ckpt := u32 b 112 }

/-- Change custody. -/
def Node.updCust (n : Node) (f : Custody → Custody) : Node := { n with cust := f n.cust }
/-- The own record of a parcel, with its slot. -/
def Node.parcel (n : Node) (p : Nat) : Option (Nat × CRec) := n.cust.own.find? (fun (e : Nat × CRec) => e.2.parcel == p)
/-- Write the own record of a slot. -/
def Node.setOwn (n : Node) (slot : Nat) (r : CRec) : Node := n.updCust (fun c => { c with own := c.own.put slot r })
/-- The lowest free slot of the 4,096 (R331). -/
def Custody.freeSlot (c : Custody) : Option Nat := (List.range 4096).find? (fun i => (c.own.look i).isNone)

/-! ### Neighbours and mirrors (R340) -/

/-- An SL4 neighbour in UP. -/
def Node.neighbour (n : Node) (p : Nat) : Bool := decide (p < 3) && n.portUp p && (n.port p).partner == 1
/-- The mirror holder's port (R340). -/
def Node.holderOf (n : Node) (r : CRec) : Option Nat :=
  if r.fromPort < 3 then (if n.neighbour r.fromPort ∧ (n.port r.fromPort).paddr = r.from_ then some r.fromPort else none)
  else
    let x := n.cust.exits.getD n.cust.defaultExit {}
    ((if x.kind = 1 then [x.port] else []) ++ [0, 1]).find? n.neighbour

/-- A CUSTODY frame to the neighbour on port `p` (R341). -/
def Node.custSend (n : Node) (p msg count status : Nat) (body : List Byte) : Node :=
  if n.neighbour p then
    n.send 0x20 0 (n.port p).paddr (leBytes 1 msg ++ leBytes 1 count ++ leBytes 2 status ++ leBytes 4 n.cust.durable ++ body)
  else n
/-- A message whose body is a parcel and a version. -/
def Node.custNote (n : Node) (p msg status parcel version : Nat) : Node :=
  n.custSend p msg 1 status (leBytes 8 parcel ++ leBytes 4 version ++ leBytes 4 0)
/-- Records as they are sent (R351): a handoff completes at the level its record carries. -/
def Node.wire (n : Node) (rs : List CRec) : List Byte :=
  rs.flatMap (fun r => r.bytes ((if r.st = .outbound ∨ r.st = .inbound then r.level else n.line.level) == 4))
/-- A list in runs of `k`. -/
def chunks {α : Type} (k : Nat) : Nat → List α → List (List α)
  | 0, _ => []
  | _ + 1, [] => []
  | f + 1, l => l.take k :: chunks k f (l.drop k)
/-- Records in messages of at most 11 (R341). -/
def Node.custRecords (n : Node) (p msg status : Nat) (rs : List CRec) : Node :=
  (chunks 11 rs.length rs).foldl (fun n c => n.custSend p msg c.length status (n.wire c)) n

/-- A message waits for its answer and is repeated until then (R341). -/
def Node.await (n : Node) (m : CMsg) : Node := n.updCust (fun c => { c with unanswered := c.unanswered.filter (· != m) ++ [m] })
/-- A message was answered. -/
def Node.answered (n : Node) (msg parcel : Nat) : Node :=
  n.updCust (fun c => { c with unanswered := c.unanswered.filter (fun m => !(m.msg == msg && m.parcel == parcel)) })

/-- A record changed: version, ckpt, crc and holder follow, and the holder is sent the new version (R334, R340). -/
def Node.recPut (n : Node) (slot : Nat) (r : CRec) (version : Nat) : Node :=
  let h := n.holderOf r
  let r := { (r.setCf Cf.unmirrored h.isNone) with version := version % 2 ^ 32, holder := h, changed := true, ckpt := (n.cust.ckptSeq + 1) % 2 ^ 32 }
  let n := n.setOwn slot r
  match h with
  | some p => n.custRecords p 0x10 0 [r]
  | none => n
/-- A change of an own record raises its version by 1 (R334). -/
def Node.recChange (n : Node) (slot : Nat) (r : CRec) : Node := n.recPut slot r (r.version + 1)

/-- Free an own record's slot. -/
def Node.recFree (n : Node) (slot : Nat) : Node := n.updCust (fun c => { c with own := c.own.del slot })

/-- The mirror region of a port: upstream for A, downstream for B and C (R331). -/
def Custody.mirror (c : Custody) (p : Nat) : Tbl Copy := if p = 0 then c.up else c.down
def Custody.setMirror (c : Custody) (p : Nat) (m : Tbl Copy) : Custody := if p = 0 then { c with up := m } else { c with down := m }

/-- Place a copy in a mirror region: over an older version, in a free slot, or over a clean copy; none when the region is
full of copies that are not clean (R340). -/
def Custody.placeCopy (c : Custody) (p : Nat) (r : CRec) : Option Custody :=
  let m := c.mirror p
  let x : Copy := { body := r, clean := false, port := p }
  match m.find? (fun (e : Nat × Copy) => e.2.port == p && e.2.body.parcel == r.parcel) with
  | some e => some (if e.2.body.version < r.version then c.setMirror p (m.put e.1 x) else c)
  | none =>
    let slot := match (List.range 1024).find? (fun i => (m.look i).isNone) with
      | some i => some i
      | none => (m.find? (fun (e : Nat × Copy) => e.2.clean)).map Prod.fst
    match slot with
    | some i => some (c.setMirror p (m.put i x))
    | none => none

/-- Free the copies of parcels of a neighbour. -/
def Custody.dropCopies (c : Custody) (p : Nat) (ps : List Nat) : Custody :=
  c.setMirror p ((c.mirror p).filter (fun e => !(e.2.port == p && ps.contains e.2.body.parcel)))

/-! ### Positions (R336) -/

/-- The belt source's value at `t`. -/
def Custody.beltAt (c : Custody) (t : T64) : ℚ := if c.stallSource then interpolate c.samples t else 0
/-- The position of a record at `t` in 0.1 mm. -/
def Custody.posAt (c : Custody) (r : CRec) (t : T64) : Int :=
  if c.stallSource then ratRound (f32Rat c.scale * (c.beltAt t - (r.enteredRef : ℚ)))
  else roundDiv ((c.speed : Int) * ((t : Int) - (r.entered : Int))) 100000
/-- The belt source gives a valid position. -/
def Node.beltValid (n : Node) : Bool :=
  let s := n.stall n.cust.stall
  !n.cust.stallSource || (s.valid && !(s.kd == K.position && (n.enc (n.resource n.cust.stall - 40)).lost))
/-- The flags a record gets on entering the zone: ESTIMATED with fixed speed, POS_LOST without a valid source. -/
def Node.enterFlags (n : Node) (r : CRec) : CRec := (r.setCf Cf.estimated (!n.cust.stallSource)).setCf Cf.posLost (!n.beltValid)

/-- The exit of a destination: the first route entry that matches, else the default exit (R337). -/
def Custody.routeFor (c : Custody) (dest : Nat) : Nat :=
  if dest = 0 then c.defaultExit
  else match c.routes.find? (fun (e : Nat × Nat × Nat × Nat) => e.2.2.2 != 0xFF && decide (e.2.1 ≤ dest ∧ dest ≤ e.2.2.1)) with
    | some e => e.2.2.2
    | none => c.defaultExit
/-- Exit `k`. -/
def Custody.exit (c : Custody) (k : Nat) : Exit := c.exits.getD k {}

/-! ### Energy (R351, R460) -/

/-- The energy fields at the transition from HELD (R460). -/
def CRec.charge (r : CRec) : CRec :=
  let z := min ((r.acc + 500) / 1000) (2 ^ 32 - 1)
  { r with energyZone := z, energyLine := min (r.energyLine + z) (2 ^ 32 - 1), acc := 0 }

/-! ### Creation and handoff (R335, R338, R339, R342, R343) -/

/-- CUSTODY_HANDOFF_FAIL. -/
def Node.handoffFail (n : Node) (r : CRec) (cause status : Nat) : Node :=
  n.log Ev.custodyHandoffFail (r.parcel % 2 ^ 32) (r.parcel / 2 ^ 32) (cause + 65536 * status)

/-- Create a HELD record; the slot, or none without an address or a free slot (R331, R333, R335). -/
def Node.recCreate (n : Node) (entered length dest exit : Nat) (unmatched : Bool) : Option Nat × Node :=
  match n.cust.freeSlot with
  | some slot =>
    if n.addr = 0 then (none, n)
    else
      let r : CRec := { parcel := n.addr * 2 ^ 48 + n.cust.counter % 2 ^ 48, st := .held, level := n.line.level, created := n.now, entered := entered,
                        enteredRef := ratRound (n.cust.beltAt entered), length := length, destination := dest, exit := exit }
      let r := (n.enterFlags r).setCf Cf.unmatched unmatched
      let n := n.updCust (fun c => { c with counter := (c.counter + 1) % 2 ^ 48 })
      (some slot, n.recPut slot r 1)
  | none => (none, n)

/-- Offer an OUTBOUND record to its partner (R342, R343). -/
def Node.offer (n : Node) (slot : Nat) : Node :=
  match n.cust.own.look slot with
  | some r =>
    let p := (n.cust.exit r.exit).port
    if n.neighbour p ∧ r.partner = some (n.port p).pserial then
      (n.setOwn slot { r with since := n.now }).custRecords p 0x01 0 [r] |>.await ⟨0x01, p, r.parcel, r.version⟩
    else (n.handoffFail r 2 0).answered 0x01 r.parcel
  | none => n

/-- A matched record leaves by exit `k` at `t` (R335, R338, R344): handed off, or kept until the eye falls. -/
def Node.recMatch (n : Node) (k slot t : Nat) : Node :=
  match n.cust.own.look slot with
  | some r =>
    let x := n.cust.exit k
    let n := n.updCust (fun c => { c with leaving := c.leaving.put k ((c.leaving.getD k ([], t)).1 ++ [r.parcel], t) })
    if x.kind = 1 then
      let r := { r.charge with st := .outbound, boundary := t, exit := k, to_ := (n.port x.port).paddr, level := n.line.level,
                               partner := some (n.port x.port).pserial }
      (n.recChange slot r).offer slot
    else n.recChange slot { r with boundary := t, exit := k }
  | none => n

/-- A record leaves the line (R335, R344). -/
def Node.recExit (n : Node) (k parcel cause : Nat) : Node :=
  match n.parcel parcel with
  | some (slot, r) =>
    if r.st = .held then
      let n := n.recChange slot { r.charge with st := .released, to_ := 0xFFFF }
      let n := n.updCust (fun c => { c with releasedCount := satInc 32 c.releasedCount })
      n.log Ev.custodyExit (parcel % 2 ^ 32) (parcel / 2 ^ 32) (k + 256 * cause)
    else n
  | none => n

/-- CUSTODY_MIRROR_FULL. -/
def Node.mirrorFull (n : Node) (p held : Nat) : Node := n.log Ev.custodyMirrorFull (n.port p).paddr p held

/-- ACCEPT reached the giver (R335, R342, R343): the record is RELEASED and the copy placed, or the COMMIT waits for room. -/
def Node.accepted (n : Node) (p slot : Nat) (r : CRec) : Node :=
  let n := n.answered 0x01 r.parcel
  match n.cust.placeCopy p { r with st := .inbound } with
  | some c =>
    let h := r.holder
    let c := { c with releasedCount := satInc 32 c.releasedCount, delayedCommits := c.delayedCommits.filter (fun m => m.parcel != r.parcel) }
    let n : Node := { n with cust := c }
    let n := n.setOwn slot { r with st := .released, version := (r.version + 1) % 2 ^ 32, changed := true, ckpt := (c.ckptSeq + 1) % 2 ^ 32 }
    let n := (n.custNote p 0x04 0 r.parcel r.version).await ⟨0x04, p, r.parcel, r.version⟩
    match h with
    | some q => n.custSend q 0x12 1 0 (leBytes 8 r.parcel)
    | none => n
  | none =>
    let d : CMsg := ⟨0x04, p, r.parcel, r.version⟩
    if n.cust.delayedCommits.contains d then n
    else (n.updCust (fun c => { c with delayedCommits := c.delayedCommits ++ [d] })).mirrorFull p (n.cust.mirror p).length

/-- COMMITs that waited for room in a mirror are tried again (R343). -/
def Node.retryCommits (n : Node) (p : Nat) : Node :=
  (n.cust.delayedCommits.filter (fun m => m.port == p)).foldl (fun n m => match n.parcel m.parcel with
    | some (slot, r) => if r.st = .outbound then n.accepted p slot r else n
    | none => n) n

/-- An OFFER reached the receiver on port `p` (R335, R343, R351, R352). -/
def Node.offered (n : Node) (p : Nat) (b : List Byte) : Node :=
  let r := CRec.ofBytes b
  let refuse (n : Node) (st : Nat) : Node := n.custNote p 0x03 st r.parcel r.version
  if !n.cust.configured || n.cust.recovering then refuse n Rs.busy
  else if !crecOk b then refuse n Rs.paramRange
  else match n.parcel r.parcel with
    | some (_, x) =>
      if x.version = r.version ∧ (x.st = .inbound ∨ x.st = .held) then n.custNote p 0x02 0 r.parcel r.version
      else refuse n Rs.paramRange
    | none =>
      match n.cust.freeSlot with
      | none => refuse n Rs.ledgerFull
      | some slot =>
        let four := r.level == 4
        let r := { r with st := .inbound, holder := some p, changed := true, since := n.now,
                          energyLine := if four then 0 else r.energyLine, energyZone := if four then 0 else r.energyZone }
        let r := if four then r.setCf Cf.extAbsent true else r
        (n.setOwn slot r).custNote p 0x02 0 r.parcel r.version

/-- COMMIT reached the receiver (R335, R342). -/
def Node.committed (n : Node) (p parcel version : Nat) : Node :=
  let n : Node := match n.parcel parcel with
    | some (slot, r) =>
      if r.st = .inbound ∧ r.version = version then
        let t0 := r.boundary
        let r := n.enterFlags { r with st := .held, from_ := (n.port p).paddr, fromPort := p, entered := t0,
                                       enteredRef := ratRound (n.cust.beltAt t0), hops := min 255 (r.hops + 1), boundary := 0, exit := 0xFF,
                                       to_ := 0, acc := 0, energyZone := 0 }
        (n.answered 0x06 parcel).recChange slot r
      else n
    | none => n
  n.custNote p 0x05 0 parcel version

/-! ### Holders and offers as ports change (R340, R343) -/

/-- A record's holder comes or goes with the neighbour in UP: UNMIRRORED follows, and a new holder is sent the record (R340). -/
def Node.custHolders (n : Node) : Node :=
  if n.cust.recovering then n else
  n.cust.own.foldl (fun n e =>
    let r := e.2
    let h := n.holderOf r
    if r.st = .inbound ∨ r.st = .released ∨ h = r.holder then n
    else match h with
      | some p => if r.has Cf.unmirrored then n.recChange e.1 r else (n.setOwn e.1 { r with holder := h }).custRecords p 0x10 0 [r]
      | none => n.recChange e.1 r) n

/-- An OUTBOUND record whose offer was given up is offered again once its partner stands at the port (R343). -/
def Node.offerAgain (n : Node) : Node :=
  n.cust.own.foldl (fun n e =>
    let r := e.2
    let p := (n.cust.exit r.exit).port
    if r.st = .outbound && n.neighbour p && r.partner == some (n.port p).pserial
        && !(n.cust.unanswered.any (fun m => m.msg == 0x01 && m.parcel == r.parcel))
        && !(n.cust.delayedCommits.any (fun m => m.parcel == r.parcel)) then n.offer e.1
    else n) n

/-! ### Checkpoints (R345, R346) -/

/-- Bytes 0 to 123 of a run's commit record (R345). -/
def CkptRun.commitBody (r : CkptRun) : List Byte :=
  leBytes 4 0x4B434C47 ++ leBytes 4 r.seq ++ leBytes 1 (b2n r.snap) ++ [0] ++ leBytes 2 r.recs.length ++ leBytes 4 0 ++ leBytes 8 r.time
    ++ leBytes 8 r.counter ++ sm3 r.recs.flatten ++ leBytes 60 0
/-- The commit record that closes a run, written last. -/
def CkptRun.commit (r : CkptRun) : List Byte := r.commitBody ++ leBytes 4 (crc32c r.commitBody).toNat

/-- The commit record in 128 bytes closes the records before it: marker, count, digest and crc are right (R346). -/
def commitOk (b : List Byte) (recs : List (List Byte)) : Bool :=
  u32 b 0 == 0x4B434C47 && crecOk b && u16 b 10 == recs.length && slice b 32 32 == sm3 recs.flatten

/-- What a load gives: the snapshot's sequence, the last run's, the records and the next counter. -/
structure CkptLoad where
  snapSeq : Nat
  seq : Nat
  recs : List CRec
  counter : Nat
deriving DecidableEq, Repr

/-- The checkpoint with a run applied: newer records replace older ones of the same parcel. -/
def applyRun (old run : List CRec) : List CRec :=
  old.filter (fun r => !(run.any (fun x => x.parcel == r.parcel))) ++ run

/-- A half read from its start (R346): a snapshot, then each delta in order, up to the first run without a good commit. -/
def loadHalf : List (List Byte) → List (List Byte) → Option CkptLoad → Option CkptLoad
  | [], _, x => x
  | b :: rest, pending, x =>
    if commitOk b pending then
      let run := pending.map CRec.ofBytes
      let seq := u32 b 4
      let counter := u64 b 24
      loadHalf rest [] (if u8 b 8 = 1 then some ⟨seq, seq, run, counter⟩
        else x.map (fun y => ⟨y.snapSeq, seq, applyRun y.recs run, counter⟩))
    else loadHalf rest (pending ++ [b]) x

/-- A half of the partition. -/
def Custody.halfOf (c : Custody) (h : Nat) : List (List Byte) := if h = 0 then c.half0 else c.half1
def Custody.setHalf (c : Custody) (h : Nat) (l : List (List Byte)) : Custody := if h = 0 then { c with half0 := l } else { c with half1 := l }

/-- The checkpoint as R346 loads it: the half whose snapshot is valid and has the higher sequence. -/
def Custody.load (c : Custody) : Option CkptLoad :=
  match loadHalf c.half0 [] none, loadHalf c.half1 [] none with
  | some a, some b => some (if a.snapSeq < b.snapSeq then b else a)
  | some a, none => some a
  | none, b => b

/-- Start a checkpoint of the changed records, or a snapshot of all when the active half holds no snapshot yet or cannot take the run;
a read-only partition takes none (R345, R346). -/
def Node.startCheckpoint (n : Node) : Node :=
  let c := n.cust
  if n.partRo 6 then
    if c.ckptFailLogged then n else (n.updCust (fun c => { c with ckptFailLogged := true })).log Ev.custodyCkptFail c.durable 0 0
  else
    let ch := (c.own.map Prod.snd).filter (·.changed)
    if ch.isEmpty || c.writing.isSome then n
    else
      let active := c.halfOf c.half
      let snap := active.isEmpty || decide (8192 < active.length + ch.length + 1)
      let rs := if snap then c.own.map Prod.snd else ch
      let seq := (c.ckptSeq + 1) % 2 ^ 32
      n.updCust (fun c => { c with ckptSeq := seq, own := c.own.mapE (fun _ r => { r with changed := false }),
                                   writing := some { snap := snap, recs := rs.map (fun r => r.bytes false), seq := seq, time := n.now,
                                                     counter := c.counter } })

/-- A run is durable: a delta ends the active half; a snapshot fills the other half, and the old one is erased (R345). -/
def Custody.keepRun (c : Custody) (r : CkptRun) : Custody :=
  let run := r.recs ++ [r.commit]
  if r.snap then { (c.setHalf (1 - c.half) run).setHalf c.half [] with half := 1 - c.half }
  else c.setHalf c.half (c.halfOf c.half ++ run)

/-! ### Recovery (R347, R349, R350) -/

/-- RECOVER_REQ to the SL4 neighbours on some ports (R349). -/
def Node.askPorts (n : Node) (ps : List Nat) : Node :=
  let n := n.updCust (fun c => { c with awaiting := ps, received := [], neighRecovering := [], recoverAt := n.now })
  ps.foldl (fun n p => (n.custSend p 0x20 0 0 (leBytes 8 Config.serial.toNat ++ leBytes 4 n.cust.durable ++ leBytes 4 0)).await ⟨0x20, p, 0, 0⟩) n
/-- RECOVER_REQ to every SL4 neighbour in UP. -/
def Node.askNeighbours (n : Node) : Node := n.askPorts ((List.range 3).filter n.neighbour)

/-- Parcels are rebuilt alone, as after a failed crc (R347, R491). -/
def Node.custRebuild (n : Node) (ps : List Nat) : Node :=
  if ps.isEmpty || n.cust.recovering then n
  else (n.updCust (fun c => { c with own := c.own.filter (fun e => !(ps.contains e.2.parcel)), rebuild := c.rebuild ++ ps })).askNeighbours

/-- Put a merged record among the own records (R349): RECOVERED and POS_LOST; an OUTBOUND one goes to the neighbour it names. -/
def Node.recRecover (n : Node) (r : CRec) (st : RecSt) : Node :=
  match n.cust.freeSlot with
  | some slot =>
    let p := (n.cust.exit r.exit).port
    let r := (({ r with st := st, acc := 0, partner := if (n.port p).paddr = r.to_ then some (n.port p).pserial else none }.setCf
      Cf.recovered true).setCf Cf.posLost true)
    n.recChange slot r
  | none => n

/-- The copy with the highest version. -/
def newest (rs : List CRec) : Option CRec :=
  rs.foldl (fun b r => match b with | none => some r | some x => if x.version < r.version then some r else b) none

/-- Merge one parcel (R350): `ck` is the checkpoint's records. -/
def Node.mergeParcel (n : Node) (ck : List CRec) (p : Nat) : Node :=
  let c := n.cust
  let of_ (st : Nat) : List CRec := (c.received.filter (fun x => x.2.1 == st && x.2.2.2.parcel == p)).map (fun x => x.2.2.2)
  let gone := (of_ 1).any (fun r => r.st != RecSt.inbound)
  let cks := ck.filter (fun r => r.parcel == p)
  let copies := of_ 0
  match newest (cks ++ copies) with
  | none => n
  | some r =>
    if gone then n
    else
      let byCopy := copies.any (fun x => x.version == r.version)
      let h := n.holderOf r
      let confirmed := byCopy || (match h with
        | some q => !r.has Cf.unmirrored && !c.awaiting.contains q && !c.neighRecovering.contains q
        | none => false)
      if !confirmed && r.st != .released then
        (n.recRecover r .uncertain).log Ev.custodyUncertain (p % 2 ^ 32) (p / 2 ^ 32) r.version
      else n.recRecover r r.st

/-- The merge of R350, and what follows it (R349). -/
def Node.mergeAll (n : Node) : Node :=
  let c := n.cust
  let ck := if c.recovering then c.own.map Prod.snd
    else ((c.load.map CkptLoad.recs).getD []).filter (fun r => c.rebuild.contains r.parcel)
  let full := c.recovering
  let n := if full then n.updCust (fun c => { c with own := [] }) else n
  let parcels := ((ck ++ (c.received.filter (fun x => x.2.1 == 0)).map (fun x => x.2.2.2)).map (·.parcel)).eraseDups
  let parcels := if full then parcels else parcels.filter c.rebuild.contains
  let n := parcels.foldl (fun n p => n.mergeParcel ck p) n
  let n := (c.received.filter (fun x => x.2.1 == 1)).foldl (fun n x => match n.cust.placeCopy x.1 x.2.2.2 with
    | some c => { n with cust := c }
    | none => n) n
  let n := n.updCust (fun c => { c with recovering := false, rebuild := [], received := [], awaiting := [],
                                        unanswered := c.unanswered.filter (fun m => m.msg != 0x20) })
  let n := (c.received.filter (fun x => x.2.1 == 2 && x.2.2.2.st == .outbound)).foldl (fun n x => n.offered x.1 (x.2.2.2.bytes false)) n
  if full then
    let unc := (n.cust.own.filter (fun e => e.2.st == .uncertain)).length
    n.log Ev.custodyRecovered (n.cust.own.length - unc) unc n.cust.durable
  else n

end Sys2Proof.Machine
end

