-- ==== Sys2Proof/Machine/Custody.lean ====
section
/-! DEFINITION. Parcel custody (15): the custody commands (R352, R353), tracking and exits (R336 to R339), the messages of
R341, handoffs (R342 to R344), checkpoints (R345) and recovery (R349, R350). Custody acts while the field cores run. -/

namespace Sys2Proof.Machine

/-! ### Commands -/

/-- The record's 128 bytes as CUSTODY_READ gives them. -/
def readCopy (region : Nat) (r : CRec) : List Byte := leBytes 1 region ++ leBytes 3 0 ++ r.bytes false

/-- CUSTODY_READ (R353). -/
def execCustodyRead (path idx : Nat) (s : State) : Host.Outcome State Fault Refusal :=
  s.run fun n => n.hostCmd Cmd.custodyRead path idx fun n m pl =>
    let p := u64 pl 0
    let own := n.parcel p
    let up := n.cust.up.find? (fun (e : Nat × Copy) => e.2.body.parcel == p)
    let down := n.cust.down.find? (fun (e : Nat × Copy) => e.2.body.parcel == p)
    n.checked m [badLen pl 12, badIn (u8 pl 8) 0 1 8, badRes pl 9 3,
        (if u8 pl 8 = 0 then own.isNone else up.isNone && down.isNone, Rs.parcelUnknown, 0)]
      (match if u8 pl 8 = 0 then own.map (fun e => (0, e.2)) else match up with
          | some e => some (1, e.2.body)
          | none => down.map (fun e => (2, e.2.body)) with
       | some (g, r) => n.ok m (readCopy g r)
       | none => n)

/-- CUSTODY_LIST (R353). -/
def execCustodyList (path idx : Nat) (s : State) : Host.Outcome State Fault Refusal :=
  s.run fun n => n.hostCmd Cmd.custodyList path idx fun n m pl =>
    let want (r : CRec) : Bool := bit (u8 pl 0) r.st.code
    n.checked m [badLen pl 4, badIn (u8 pl 0) 0 31 0, badRes pl 1 1, badIn (u16 pl 2) 0 4095 2]
      (let all := n.cust.own.filter (fun e => want e.2)
       let from_ := all.filter (fun e => decide (u16 pl 2 ≤ e.1))
       let next := match from_.drop 28 with | e :: _ => e.1 | [] => 0xFFFF
       n.ok m (leBytes 2 all.length ++ leBytes 2 next ++ (from_.take 28).flatMap (fun e =>
         leBytes 8 e.2.parcel ++ leBytes 1 e.2.st.code ++ [e.2.cflags] ++ leBytes 1 e.2.exit ++ [0] ++ leBytes 4 e.2.version)))

/-- CUSTODY_RESOLVED. -/
def Node.resolvedLog (n : Node) (p res : Nat) : Node := n.log Ev.custodyResolved (p % 2 ^ 32) (p / 2 ^ 32) res

/-- CUSTODY_RESOLVE (R335, R353). -/
def execCustodyResolve (path idx : Nat) (s : State) : Host.Outcome State Fault Refusal :=
  s.run fun n => n.hostCmd Cmd.custodyResolve path idx fun n m pl =>
    let p := u64 pl 0
    let res := u8 pl 8
    let tgt := u64 pl 12
    n.checked m [badLen pl 20, badIn res 0 3 8, badRes pl 9 1, ((n.parcel p).isNone, Rs.parcelUnknown, 0),
        (res == 2 && (n.parcel tgt).isNone, Rs.parcelUnknown, 12)]
      (match n.parcel p with
       | none => n
       | some (slot, r) =>
         let r := { r with resolved := n.now }
         let fits := if res = 0 ∨ res = 2 then r.st == .uncertain else if res = 1 then r.st == .uncertain || r.st == .held else r.st == .held
         if !fits then n.answer m Rs.busy 0 []
         else if res = 0 then
           (n.recChange slot ({ r with st := .held }.setCf Cf.posLost true)).ok m (leBytes 4 ((r.version + 1) % 2 ^ 32))
         else if res = 1 then
           ((n.recFree slot).resolvedLog p 1).ok m (leBytes 4 ((r.version + 1) % 2 ^ 32))
         else if res = 2 then
           match n.parcel tgt with
           | some (ts, t) =>
             if t.st ≠ .held then n.answer m Rs.busy 0 []
             else
               let n := n.recChange ts { t with tag := r.tag, destination := r.destination, length := r.length, resolved := n.now }
               ((n.recFree slot).resolvedLog p 2).ok m (leBytes 4 ((t.version + 1) % 2 ^ 32))
           | none => n
         else (n.recChange slot { r with destination := u16 pl 10 }).ok m (leBytes 4 ((r.version + 1) % 2 ^ 32)))

/-- The ledger holds an INBOUND, HELD or OUTBOUND record (R352). -/
def Custody.busy (c : Custody) : Bool := c.own.any (fun e => e.2.st == .inbound || e.2.st == .held || e.2.st == .outbound)

/-- An eye: INPUT with both edges, or REMOTE receive of width 1 (R352). -/
def Node.eyeOk (n : Node) (k : Nat) : Bool :=
  let t := n.stall k
  decide (k < numStalls) && ((t.kd == K.input && t.pf 12 1 == 3) || (t.kd == K.remote && t.pf 12 1 == 0 && t.pf 14 1 == 1))

/-- CUSTODY_CONFIG (R352). -/
def execCustodyConfig (path idx : Nat) (s : State) : Host.Outcome State Fault Refusal :=
  s.run fun n => n.hostCmd Cmd.custodyConfig path idx fun n m pl =>
    let op := u8 pl 0
    n.checked m [(decide (pl.length < 1), Rs.lengthBad, 0), badIn op 0 2 0]
      (if op = 0 then
         let stall := u8 pl 1 == 1
         let k := u16 pl 2
         let kd := (n.stall k).kd
         let sc := u32 pl 4
         let scan := u32 pl 16
         let finite := sc / 2 ^ 23 % 256 != 255
         n.checked m [badLen pl 32, badIn (u8 pl 1) 0 1 1,
             badRange (if stall then !(decide (k < numStalls) && (kd == K.position || kd == K.axis || kd == K.linepoint)) else k != 0xFFFF) 2,
             badRange (if stall then !finite || sc % 2 ^ 31 == 0 else sc != 0) 4,
             badRange (if stall then u32 pl 8 != 0 else decide (u32 pl 8 < 1 ∨ 10000 < u32 pl 8)) 8, badIn (u16 pl 12) 100 1000 12,
             badIn (u16 pl 14) 10 5000 14,
             badRange (scan != 0xFFFFFFFF && (field scan 30 29 != 0 || (!bit scan 31 && decide (0x7FF < scan)))) 16,
             badIn (u8 pl 24) 0 15 24, badRes pl 25 7, (n.cust.busy, Rs.busy, 0)]
           (n.needCfg m Cmd.custodyConfig
             ((n.updCust (fun c => { c with configured := true, stallSource := stall, stall := k, scale := BitVec.ofNat 32 sc, speed := u32 pl 8,
                                            period := u16 pl 12, window := u16 pl 14, scanner := scan, scanPos := s32 pl 20,
                                            defaultExit := u8 pl 24, samples := [] })
               |>.seeBelt k |>.storeCfg Cmd.custodyConfig 0 pl).ok m []))
       else if op = 1 then
         let k := u8 pl 1
         n.checked m [badLen pl 16, badIn k 0 15 1, badIn (u8 pl 2) 0 2 2, badIn (u8 pl 3) 0 (if u8 pl 2 = 1 then 2 else 0) 3,
             badRange (u8 pl 2 != 0 && !n.eyeOk (u16 pl 4)) 4, badRange (decide (63 < u8 pl 6) && u8 pl 6 != 0xFF) 6, badRes pl 7 1,
             badRange (decide (s32 pl 8 < s32 pl 12)) 12, (n.cust.busy, Rs.busy, 0)]
           (n.needCfg m Cmd.custodyConfig
             (let x : Exit := { kind := u8 pl 2, port := u8 pl 3, eye := u16 pl 4, flag := u8 pl 6, boundary := s32 pl 8, decision := s32 pl 12 }
              ((n.updCust (fun c => { c with exits := c.exits.put k x })).storeCfg Cmd.custodyConfig (1 + k) pl).ok m []))
       else
         let st := u8 pl 1
         let c := u8 pl 2
         n.checked m ([(decide (pl.length < 4), Rs.lengthBad, 0), badIn st 0 63 1, badIn c 1 32 2, badLen pl (4 + 8 * c), badRange (decide (64 < st + c)) 1,
               badRes pl 3 1] ++ (List.range c).flatMap (fun i =>
               [badRange (decide (15 < u8 pl (8 + 8 * i)) && u8 pl (8 + 8 * i) != 0xFF) (8 + 8 * i), badRes pl (9 + 8 * i) 3]))
           (n.needCfg m Cmd.custodyConfig
             (let rs := (List.range c).foldl (fun (t : Tbl (Nat × Nat × Nat)) i =>
                t.put (st + i) (u16 pl (4 + 8 * i), u16 pl (6 + 8 * i), u8 pl (8 + 8 * i))) n.cust.routes
              ((n.updCust (fun x => { x with routes := rs })).storeCfg Cmd.custodyConfig (32 + st) pl).ok m [])))

/-! ### Tracking -/

/-- A record HELD with a known position. -/
def CRec.tracked (r : CRec) : Bool := r.st == .held && !r.has Cf.posLost

/-- The exit of a record is fixed at the first decision position it reaches (R337). -/
def Node.decide_ (n : Node) (t : T64) : Node :=
  n.cust.own.foldl (fun n e =>
    let r := e.2
    if r.tracked && r.exit == 0xFF then
      let at_ := n.cust.posAt r t
      if n.cust.exits.any (fun x => x.2.kind != 0 && decide (x.2.decision ≤ at_)) then
        n.recChange e.1 { r with exit := n.cust.routeFor r.destination }
      else n
    else n) n

/-- A record of exit `k` lies between the decision position and the fall of the eye. -/
def Custody.between (c : Custody) (k : Nat) (t : T64) : Bool :=
  !(c.leaving.getD k ([], 0)).1.isEmpty || c.own.any (fun e => e.2.exit == k && e.2.tracked && decide ((c.exit k).decision ≤ c.posAt e.2 t))

/-- CUSTODY_EVAL (R336, R337, R340): exits are fixed, and decision flags set when a record reaches its exit's decision position
and cleared when none lies between there and the eye; mirror holders follow the neighbours. -/
def execCustodyEval (s : State) : Host.Outcome State Fault Refusal :=
  s.run fun n =>
    if n.cust.configured ∧ n.coresRun then
      let t := nextGrid (max n.gridNow (n.cust.evalAt + 1)) (us 100)
      let last := n.cust.evalAt
      let n := (n.upTo t).custHolders
      let n := if n.beltValid then n else n.cust.own.foldl (fun n e =>
        if e.2.st == .held && !e.2.has Cf.posLost then n.recChange e.1 (e.2.setCf Cf.posLost true) else n) n
      let before := n.cust.own
      let n := (n.decide_ t).updCust (fun c => { c with evalAt := t })
      n.cust.exits.foldl (fun n e =>
        let k := e.1
        let x := e.2
        if x.kind = 0 ∨ 64 ≤ x.flag then n
        else
          let reached := n.cust.own.any (fun o =>
            o.2.tracked && o.2.exit == k && decide (x.decision ≤ n.cust.posAt o.2 t) &&
              ((before.getD o.1 {}).exit == 0xFF || decide (n.cust.posAt o.2 last < x.decision)))
          if reached then n.setFlag x.flag true else if n.cust.between k t then n else n.setFlag x.flag false) n
    else n

/-- The records an edge at exit `k` matches, in order (R338). -/
def Custody.matches (c : Custody) (k : Nat) (t : T64) : List Nat :=
  let x := c.exit k
  let out := (c.leaving.getD k ([], 0)).1
  let near := c.own.filter (fun e => e.2.tracked && e.2.exit == k && !out.contains e.2.parcel
    && decide (x.boundary - (c.window : Int) ≤ c.posAt e.2 t))
  let rec ins (p : Int) (s : Nat) : List (Int × Nat) → List (Int × Nat)
    | [] => [(p, s)]
    | a :: l => if a.1 < p then (p, s) :: a :: l else a :: ins p s l
  let sorted := near.foldl (fun l e => ins (c.posAt e.2 t) e.1 l) []
  if near.isEmpty then
    let lost := c.own.filter (fun e => e.2.st == .held && e.2.has Cf.posLost &&
      (e.2.exit == k || (e.2.exit == 0xFF && c.routeFor e.2.destination == k)) && !out.contains e.2.parcel)
    match lost.foldl (fun (b : Option (Nat × CRec)) e => match b with
        | none => some e
        | some x => if e.2.entered < x.2.entered then some e else b) none with
    | some e => [e.1]
    | none => []
  else sorted.map Prod.snd

/-- A rising edge of the eye of exit `k` with stamp `t` (R338). -/
def Node.eyeRise (n : Node) (k t : Nat) : Node :=
  if n.coresRun ∧ n.cust.configured ∧ (n.cust.exit k).kind ≠ 0 ∧ n.cust.lastEdge.getD k 0 < t then
    let n := (n.upTo t).updCust (fun c => { c with lastEdge := c.lastEdge.put k t })
    match n.cust.matches k t with
    | [] =>
      match n.recCreate t 0 0 k true with
      | (some slot, n) =>
        let p := (n.cust.own.getD slot {}).parcel
        (n.log Ev.custodyUnmatched (p % 2 ^ 32) (p / 2 ^ 32) k).recMatch k slot t
      | (none, n) => n.log Ev.custodyUnmatched 0 0 k
    | ms => ms.foldl (fun n slot => n.recMatch k slot t) n
  else n

/-- CUSTODY_EYE_RISE (R338). -/
def execCustodyEyeRise (k t : Nat) (s : State) : Host.Outcome State Fault Refusal := s.run fun n => n.eyeRise k t

/-- A falling edge of the eye of exit `k` with stamp `t` (R337, R344). -/
def Node.eyeFall (n : Node) (k t : Nat) : Node :=
  if n.coresRun then
    match n.cust.leaving.look k with
    | some (ps, _) =>
      let n := (n.upTo t).updCust (fun c => { c with leaving := c.leaving.del k, lastEdge := c.lastEdge.put k (max t (c.lastEdge.getD k 0)) })
      if (n.cust.exit k).kind = 2 then ps.foldl (fun n p => n.recExit k p 0) n else n
    | none => n
  else n

/-- CUSTODY_EYE_FALL (R337, R344). -/
def execCustodyEyeFall (k t : Nat) (s : State) : Host.Outcome State Fault Refusal := s.run fun n => n.eyeFall k t

/-- After a restart each exit eye's stall is read: a stamp later than the last one processed is one edge (R347). -/
def Node.eyesAfterRestart (n : Node) : Node :=
  n.cust.exits.foldl (fun n e =>
    let s := n.stall e.2.eye
    if e.2.kind = 0 ∨ !s.valid ∨ s.stamp ≤ n.cust.lastEdge.getD e.1 0 then n
    else if s.value.getLsbD 0 then n.eyeRise e.1 s.stamp else n.eyeFall e.1 s.stamp) n

/-- CUSTODY_TRAVEL_LIMIT (R344): length + 500 mm of belt travel since the rise. -/
def execCustodyTravelLimit (k : Nat) (s : State) : Host.Outcome State Fault Refusal :=
  s.run fun n =>
    match n.cust.leaving.look k with
    | some (p :: ps, t) =>
      match n.parcel p with
      | some (_, r) =>
        let lim : Int := ((r.length + 500) * 10 : Nat)
        let n := if n.cust.stallSource then n else n.upTo (t + (lim.toNat * 100000 + n.cust.speed - 1) / max 1 n.cust.speed)
        if n.coresRun && (n.cust.exit k).kind == 2 && decide (lim ≤ n.cust.posAt r n.now - n.cust.posAt r t) then
          (n.updCust (fun c => { c with leaving := if ps = [] then c.leaving.del k else c.leaving.put k (ps, t) })).recExit k p 1
        else n
      | none => n
    | _ => n

/-- CREATE (R339): the status of the task. -/
def Node.custodyCreate (n : Node) (arg : W64) (release : T64) : Nat × Node :=
  if !n.cust.configured || n.cust.recovering || n.addr == 0 then (Rs.busy, n)
  else match n.recCreate release (arg.toNat % 65536) (arg.toNat / 65536 % 65536) 0xFF false with
    | (some _, n) => (Rs.ok, n)
    | (none, n) => (Rs.ledgerFull, n)

/-- CUSTODY_CREATE (R339): the CREATE task in slot `slot` of the Thresher runs. -/
def execCustodyCreate (slot : Nat) (s : State) : Host.Outcome State Fault Refusal :=
  s.run fun n => match n.rcp.tasks.look slot with
    | some t =>
      match t.st with
      | .inService _ =>
        if t.handler = 0x0701 ∧ !t.ran then
          let (st, n) := n.custodyCreate t.arg t.release
          { n with rcp := { n.rcp with tasks := n.rcp.tasks.put slot { t with result := st, ran := true } } }
        else n
      | _ => n
    | none => n

/-- CUSTODY_SCAN (R314, R339): the field cores take the oldest frame of the lane; a scanner frame tags the nearest record. -/
def execCustodyScan (s : State) : Host.Outcome State Fault Refusal :=
  s.run fun n =>
    match n.zb.lane with
    | f :: rest =>
      if !n.coresRun then n
      else
        let n := n.updZb (fun z => { z with lane := rest })
        if n.cust.scanner ≠ 0xFFFFFFFF ∧ f.ident = n.cust.scanner then
          let c := n.cust
          let d (r : CRec) : Nat := (c.posAt r f.stamp - c.scanPos).natAbs
          let near := c.own.filter (fun e => e.2.tracked && decide (d e.2 ≤ c.window))
          match near.foldl (fun (b : Option (Nat × CRec)) e => match b with
              | none => some e
              | some x => if d e.2 < d x.2 then some e else b) none with
          | some (slot, r) => n.recChange slot ({ r with tag := f.data.take 24 }.setCf Cf.idRead true)
          | none => n.log Ev.custodyScanOrphan (f.stamp % 2 ^ 32) (leNat (f.data.take 4)) 0
        else n
    | [] => n

/-! ### Messages -/

/-- Bytes of an operand. -/
def toBytes (l : List Nat) : List Byte := l.map (BitVec.ofNat 8)

/-- A custody message of the neighbour on port `p` is handled while custody runs. -/
def Node.custIn (n : Node) (p : Nat) (f : Node → Node) : Node :=
  if !n.neighbour p then n else if n.coresRun then f n else if n.runs Isl.line then n.raise 2 else n

/-- HANDOFF_OFFER (R335, R342, R343). -/
def execHandoffOffer (p : Nat) (record : List Nat) (s : State) : Host.Outcome State Fault Refusal :=
  s.run fun n => n.custIn p fun n => n.offered p (toBytes record)

/-- HANDOFF_ACCEPT (R335, R342, R343). -/
def execHandoffAccept (p parcel version : Nat) (s : State) : Host.Outcome State Fault Refusal :=
  s.run fun n => n.custIn p fun n => match n.parcel parcel with
    | some (slot, r) => if r.st = .outbound ∧ r.version = version ∧ (n.cust.exit r.exit).port = p then n.accepted p slot r else n
    | none => n

/-- HANDOFF_REFUSE (R335, R343). -/
def execHandoffRefuse (p parcel version status : Nat) (s : State) : Host.Outcome State Fault Refusal :=
  s.run fun n => n.custIn p fun n => match n.parcel parcel with
    | some (_, r) => if r.st = .outbound ∧ r.version = version then n.handoffFail r 1 status else n
    | none => n

/-- HANDOFF_COMMIT (R335, R342, R343). -/
def execHandoffCommit (p parcel version : Nat) (s : State) : Host.Outcome State Fault Refusal :=
  s.run fun n => n.custIn p fun n => n.committed p parcel version

/-- COMMIT_ACK (R341). -/
def execCommitAck (p parcel version : Nat) (s : State) : Host.Outcome State Fault Refusal :=
  s.run fun n => n.custIn p fun n => n.updCust (fun c => { c with unanswered := c.unanswered.filter (· != ⟨0x04, p, parcel, version⟩) })

/-- HANDOFF_QUERY (R343): it stands for the ACCEPT that was lost, and COMMIT answers it. -/
def execHandoffQuery (p parcel version : Nat) (s : State) : Host.Outcome State Fault Refusal :=
  s.run fun n => n.custIn p fun n => match n.parcel parcel with
    | some (slot, r) =>
      if r.st = .outbound ∧ r.version = version then n.accepted p slot r else n.custNote p 0x04 0 parcel version
    | none => n.custNote p 0x04 0 parcel version

/-- MIRROR_UPDATE (R340, R351): the records in one list, 128 bytes each. -/
def execMirrorUpdate (p : Nat) (records : List (List Nat)) (s : State) : Host.Outcome State Fault Refusal :=
  s.run fun n => n.custIn p fun n => records.foldl (fun n b =>
    let b := toBytes b
    if crecOk b then
      let r := CRec.ofBytes b
      let r := if n.line.level = 4 then r.setCf Cf.extAbsent true else r
      match n.cust.placeCopy p r with
      | some c => { n with cust := c }
      | none => n.custNote p 0x11 0 r.parcel r.version
    else n) n

/-- MIRROR_UPDATE again for the updates a full mirror refused (R340). -/
def Node.mirrorAgain (n : Node) : Node :=
  n.cust.resend.foldl (fun n e => match n.parcel e.2 with
    | some (_, r) => if r.holder = some e.1 then n.custRecords e.1 0x10 0 [r] else n
    | none => n) (n.updCust (fun c => { c with resend := [] }))

/-- MIRROR_FULL (R340, R346): a checkpoint at once, and the update again once it is written. -/
def execMirrorFull (p parcel version : Nat) (s : State) : Host.Outcome State Fault Refusal :=
  s.run fun n => n.custIn p fun n =>
    let n := (n.mirrorFull p (n.cust.own.filter (fun e => e.2.holder == some p)).length).startCheckpoint
    match n.parcel parcel with
    | some (_, r) =>
      if r.version = version ∧ !n.partRo 6 then
        let n := n.updCust (fun c => { c with resend := c.resend.filter (· != (p, parcel)) ++ [(p, parcel)] })
        if n.cust.writing.isSome then n else n.mirrorAgain
      else n
    | none => n

/-- MIRROR_DROP (R340). -/
def execMirrorDrop (p : Nat) (parcels : List Nat) (s : State) : Host.Outcome State Fault Refusal :=
  s.run fun n => n.custIn p fun n => n.updCust (fun c => c.dropCopies p parcels)

/-- CKPT_NOTE (R340): copies up to the durable sequence are clean, and RELEASED ones are freed. -/
def execCkptNote (p durable : Nat) (s : State) : Host.Outcome State Fault Refusal :=
  s.run fun n => n.custIn p fun n =>
    let n := n.updCust (fun c =>
      let m := (c.mirror p).mapE (fun _ x => if x.port = p ∧ x.body.ckpt ≤ durable then { x with clean := true } else x)
      c.setMirror p (m.filter (fun e => !(e.2.port == p && e.2.clean && e.2.body.st == .released))))
    n.retryCommits p

/-- RECOVER_REQ (R349). -/
def execRecoverReq (p serial lastDurable : Nat) (s : State) : Host.Outcome State Fault Refusal :=
  s.run fun n => n.custIn p fun n =>
    if serial ≠ (n.port p).pserial then n
    else if n.cust.recovering then n.custSend p 0x22 0 0 (leBytes 1 1 ++ leBytes 3 0 ++ leBytes 4 0)
    else
      let n := n.updCust (fun c => c.setMirror p ((c.mirror p).mapE (fun _ x => if x.port = p ∧ x.body.ckpt ≤ lastDurable then { x with clean := true } else x)))
      let copies := ((n.cust.mirror p).filter (fun e => e.2.port == p)).map (fun e => e.2.body)
      let own := n.cust.own.map Prod.snd
      let held := own.filter (fun r => r.holder == some p)
      let both := own.filter (fun r => (r.st == .outbound && (n.cust.exit r.exit).port == p) || (r.st == .inbound && r.holder == some p))
      let n := ((n.custRecords p 0x21 0 copies).custRecords p 0x21 1 held).custRecords p 0x21 2 both
      n.custSend p 0x22 0 0 (leBytes 4 0 ++ leBytes 4 (copies.length + held.length + both.length))

/-- RECOVER_DATA (R349). -/
def execRecoverData (p status : Nat) (records : List (List Nat)) (s : State) : Host.Outcome State Fault Refusal :=
  s.run fun n => n.custIn p fun n =>
    if n.cust.awaiting.contains p then
      let rs := (records.map toBytes).filter crecOk
      n.updCust (fun c => { c with received := c.received ++ rs.map (fun b => (p, status, false, CRec.ofBytes b)) })
    else n

/-- RECOVER_END (R349): RECOVERING says the sender is itself recovering. -/
def execRecoverEnd (p : Nat) (recovering : Bool) (s : State) : Host.Outcome State Fault Refusal :=
  s.run fun n => n.custIn p fun n =>
    n.updCust (fun c => { c with awaiting := c.awaiting.filter (· != p), unanswered := c.unanswered.filter (fun m => !(m.msg == 0x20 && m.port == p)),
                                 neighRecovering := if recovering && c.awaiting.contains p then p :: c.neighRecovering else c.neighRecovering })

/-! ### Repeats and timeouts -/

/-- One message sent again (R341); an offer whose partner changed fails (R343). -/
def Node.custAgain (n : Node) (m : CMsg) : Node :=
  if m.msg = 0x01 then
    match n.parcel m.parcel with
    | some (_, r) =>
      if n.neighbour m.port ∧ r.partner = some (n.port m.port).pserial then n.custRecords m.port 0x01 0 [r]
      else (n.handoffFail r 2 0).answered 0x01 m.parcel
    | none => n.answered 0x01 m.parcel
  else if m.msg = 0x20 then n.custSend m.port 0x20 0 0 (leBytes 8 Config.serial.toNat ++ leBytes 4 n.cust.durable ++ leBytes 4 0)
  else n.custNote m.port m.msg 0 m.parcel m.version
/-- Every unanswered message is sent again. -/
def Node.custRepeat (n : Node) : Node := n.cust.unanswered.foldl (fun n m => n.custAgain m) n

/-- CUSTODY_REPEAT (R341, R343): once per line cycle. -/
def execCustodyRepeat (s : State) : Host.Outcome State Fault Refusal :=
  s.run fun n =>
    if n.coresRun then
      let t := nextGrid (max n.gridNow (n.cust.repeatAt + 1)) (us n.line.cycle)
      (((n.upTo t).updCust (fun c => { c with repeatAt := t })).custRepeat).offerAgain
    else n

/-- HANDOFF_TIMEOUT (R335). -/
def execHandoffTimeout (parcel : Nat) (s : State) : Host.Outcome State Fault Refusal :=
  s.run fun n => match n.parcel parcel with
    | some (slot, r) =>
      if n.coresRun ∧ r.st = .outbound then
        let n := n.upTo (r.since + us (8 * n.line.cycle))
        (n.setOwn slot { r with since := n.now }).handoffFail r 0 0
      else n
    | none => n

/-- COMMIT_WAIT_TIMEOUT (R343). -/
def execCommitWaitTimeout (parcel : Nat) (s : State) : Host.Outcome State Fault Refusal :=
  s.run fun n => match n.parcel parcel with
    | some (_, r) =>
      if n.coresRun ∧ r.st = .inbound then
        let p := r.holder.getD 3
        ((n.upTo (r.since + us (4 * n.line.cycle))).custNote p 0x06 0 parcel r.version).await ⟨0x06, p, parcel, r.version⟩
      else n
    | none => n

/-! ### Checkpoint and recovery -/

/-- CHECKPOINT_PERIOD (R345, R346): one period after the last one ended. -/
def execCheckpointPeriod (s : State) : Host.Outcome State Fault Refusal :=
  s.run fun n =>
    if n.cust.configured ∧ n.coresRun then
      let n := n.upTo (n.cust.periodAt + ms n.cust.period)
      (n.updCust (fun c => { c with periodAt := n.now })).startCheckpoint
    else n

/-- CHECKPOINT_DURABLE (R335, R340, R345): RELEASED records the checkpoint holds are freed and CKPT_NOTE goes to every
mirror holder. -/
def execCheckpointDurable (s : State) : Host.Outcome State Fault Refusal :=
  s.run fun n => match n.cust.writing with
    | some run =>
      let inRun (r : CRec) : Bool := run.recs.any (fun b => u64 b 0 == r.parcel && u32 b 12 == r.version)
      let ports := (n.cust.own.filterMap (fun e => e.2.holder)).eraseDups
      let n := n.updCust (fun c => { c.keepRun run with writing := none, durable := run.seq,
                                                        own := c.own.filter (fun e => !(e.2.st == .released && inRun e.2)) })
      (ports.foldl (fun n p => n.custSend p 0x13 0 0 []) n).mirrorAgain
    | none => n

/-- CUSTODY_RECOVERY_START (R47, R348, R349): at t7 of power-up. -/
def execCustodyRecoveryStart (s : State) : Host.Outcome State Fault Refusal :=
  s.run fun n =>
    if n.coresRun ∧ n.power.stage = .t6 ∧ n.portsTrained then
      let n := n.reachT7
      let x := n.cust.load.getD ⟨0, n.cust.durable, [], n.cust.counter⟩
      let own := x.recs.foldl (fun (t : Tbl CRec) r => t.put t.length ((r.setCf Cf.recovered true).setCf Cf.posLost true)) []
      (n.updCust (fun c => { c with own := own, counter := x.counter, ckptSeq := x.seq, durable := x.seq, recovering := true })).askNeighbours
    else n

/-- RECOVERY_MERGE (R349, R350): after every RECOVER_END, or 10 line cycles. -/
def execRecoveryMerge (s : State) : Host.Outcome State Fault Refusal :=
  s.run fun n =>
    if n.coresRun ∧ (n.cust.recovering ∨ n.cust.rebuild ≠ []) then
      (if n.cust.awaiting = [] then n else n.upTo (n.cust.recoverAt + us (10 * n.line.cycle))).mergeAll
    else n

end Sys2Proof.Machine
end

