-- ==== Sys2Proof/Machine/Lifts.lean ====
section
/-! DEFINITION. Lifts and gates (16): LIFT_CALL, LIFT_STATUS, LIFT_CONFIG and GATE_COMMAND (R372 to R375), the position
update and flag edges (R355 to R357), arrival (R361), parking, and the gate sequence (R364 to R366). The lift manager acts
while the field cores run (R370). -/

namespace Sys2Proof.Machine

/-- The lift manager runs (R370). -/
def Node.liftRuns (n : Node) : Bool := n.coresRun

/-! ### Calls (R358, R359, R362, R373, R374) -/

/-- While travelling, the target is the nearest called level at or beyond the stop point (R359). A level without a call that the car
travels to, to park or to stop (R359, R362), counts as the target until a call comes before it. -/
def Node.retarget (n : Node) (l : Nat) : Node :=
  let x := n.lift l
  if x.st = .travelling ∧ x.dir ≠ 0 then
    match n.beyond l x.dir x.called with
    | k :: _ =>
      let past := x.noGate && (if x.dir = 1 then decide (x.level x.target < x.level k) else decide (x.level k < x.level x.target))
      if past then n
      else
        let n := n.updLift l (fun x => { x with noGate := false })
        if k = x.target then n else n.travelTo l k
    | [] => n
  else n

/-- The target's call was cancelled (R362): the next target, or the first level at or beyond the stop point, where no gate
opens. -/
def Node.dropTarget (n : Node) (l : Nat) : Node :=
  let x := n.lift l
  if x.st = .travelling then
    match n.beyond l x.dir x.called with
    | k :: _ => n.travelTo l k
    | [] =>
      match n.beyond l x.dir (List.range (n.levels l)) with
      | k :: _ => (n.travelTo l k).updLift l (fun x => { x with noGate := true })
      | [] => n.updLift l (fun x => { x with noGate := true })
  else if x.st = .departing then
    match nearestLevel x x.carPos x.called with
    | some k => n.updLift l (fun x => { x with target := k })
    | none => n.updLift l (fun x => { x with st := if x.refPending then .unreferenced else .idle, target := 0xFF, refPending := false,
                                             idleFrom := n.now })
  else n

/-- A call for the level of a car that has not departed, while its gate is closing (R362, R365). -/
def Node.recall (n : Node) (l k : Nat) : Option Node :=
  let x := n.lift l
  match n.gateAt l k with
  | some g =>
    if (x.st = .atLevel ∨ x.st = .departing) ∧ n.atLevel l = some k ∧ (n.gate g).st = .closing then
      let n := (n.updGate g (fun y => { y with attempts := y.attempts - 1 })).gateEnter g .opening
      let n := n.driveGate g true
      some (n.updLift l (fun y => { y with st := .atLevel, target := k, dir := 0 }))
    else none
  | none => none

/-- The status of a call (R373), and the node after it. -/
def Node.liftCall (n : Node) (l level op : Nat) : Nat × Nat × Node :=
  let e := n.liftEntry l
  let x := n.lift l
  if e.st = .fallow then (Rs.chanFallow, 0, n)
  else if e.st ≠ .running then (Rs.busy, 0, n)
  else if op ≠ 2 ∧ (n.levels l ≤ level ∨ x.outOfService.getLsbD level) then (Rs.paramRange, 1, n)
  else if op = 0 ∧ (n.gatesOf l).any (fun p => (n.gate p.1).heldOpen || (n.gate p.1).st == .obstructed || (n.gate p.1).st == .fault) then
    (Rs.gateNotClosed, 0, n)
  else if op = 0 then
    match n.recall l level with
    | some n => (Rs.ok, 0, n)
    | none =>
      let n := n.updLift l (fun x => { x with calls := x.calls ||| (1#16 <<< level) })
      (Rs.ok, 0, (n.serveCalls l).retarget l)
  else
    let hit := x.calls.getLsbD x.target && (op == 2 || x.target == level)
    let n := n.updLift l (fun x => { x with calls := if op = 1 then x.calls &&& ~~~(1#16 <<< level) else 0 })
    (Rs.ok, 0, if hit then n.dropTarget l else n)

/-- LIFT_CALL (R373). -/
def execLiftCall (path idx : Nat) (s : State) : Host.Outcome State Fault Refusal :=
  s.run fun n => n.hostCmd Cmd.liftCall path idx fun n m pl =>
    let l := u8 pl 0
    n.checked m [badLen pl 4, badIn l 0 3 0, badIn (u8 pl 2) 0 2 2, badRes pl 3 1]
      (match n.liftCall l (u8 pl 1) (u8 pl 2) with
       | (st, d, n) => if st = Rs.ok then n.ok m (leBytes 2 (n.lift l).calls.toNat ++ [0, 0]) else n.answer m st d [])

/-- The status of a gate command (R374), and the node after it. -/
def Node.gateCommand (n : Node) (g op : Nat) : Nat × Node :=
  let e := n.gateEntry g
  if e.st = .fallow then (Rs.chanFallow, n)
  else if e.st ≠ .running then (Rs.busy, n)
  else if op = 1 then
    if n.carAtGate g then
      let n := n.updGate g (fun y => { y with heldOpen := true, closeDue := false })
      let st := (n.gate g).st
      (Rs.ok, if st = .closing ∨ st = .locking then n.updGate g (fun y => { y with openDue := true }) else n.openGate g)
    else (Rs.carMoving, n)
  else
    let n := n.updGate g (fun y => { y with heldOpen := false, openDue := false })
    if op = 0 then
      let st := (n.gate g).st
      (Rs.ok, if st = .obstructed ∨ st = .fault then
          ((n.updGate g (fun y => { y with attempts := 1, closeDue := false, ferrRun := 0, currentRun := 0 })).gateEnter g .closing).driveGate g false
        else n.closeGate g)
    else (Rs.ok, n)

/-- GATE_COMMAND (R374). -/
def execGateCommand (path idx : Nat) (s : State) : Host.Outcome State Fault Refusal :=
  s.run fun n => n.hostCmd Cmd.gateCommand path idx fun n m pl =>
    n.checked m [badLen pl 4, badIn (u8 pl 0) 0 15 0, badIn (u8 pl 1) 0 2 1, badRes pl 2 2]
      (match n.gateCommand (u8 pl 0) (u8 pl 1) with
       | (st, n) => if st = Rs.ok then n.ok m (leBytes 1 (n.gate (u8 pl 0)).st.code ++ [0, 0, 0]) else n.answer m st 0 [])

/-- LIFT_STATUS (R375). -/
def execLiftStatus (path idx : Nat) (s : State) : Host.Outcome State Fault Refusal :=
  s.run fun n => n.hostCmd Cmd.liftStatus path idx fun n m pl =>
    n.checked m [badLen pl 4, badIn (u8 pl 0) 0 3 0, badRes pl 1 3]
      (let l := u8 pl 0
       let x := n.lift l
       let fl := b2n x.referenced + 2 * b2n x.demand + 4 * b2n x.refPending
       let gates := (List.range 16).map (fun k => BitVec.ofNat 8 (match n.gateAt l k with | some g => (n.gate g).st.code | none => 0xFF))
       n.ok m (leBytes 1 x.st.code ++ leBytes 1 fl ++ leBytes 1 ((n.atLevel l).getD 0xFF) ++ leBytes 1 x.dir ++ leBytes 4 (ofSigned 32 x.carPos)
         ++ leBytes 1 x.target ++ [0] ++ leBytes 2 x.calls.toNat ++ leBytes 2 x.outOfService.toNat ++ [0, 0] ++ gates ++ leBytes 8 x.lastRef
         ++ leBytes 4 (ofSigned 32 x.correction)))

/-! ### LIFT_CONFIG (R372) -/

/-- A finite binary32 that is not 0. -/
def finiteNonzero (b : Nat) : Bool := b / 2 ^ 23 % 256 != 255 && b % 2 ^ 31 != 0

/-- The payload of op 0 of a lift. -/
def Lift.settings (x : Lift) (l : Nat) : List Byte :=
  leBytes 1 l ++ leBytes 1 0 ++ leBytes 2 0 ++ leBytes 4 x.scale.toNat ++ leBytes 4 x.driveScale.toNat ++ leBytes 4 x.decel.toNat ++ leBytes 2 x.vRef
    ++ leBytes 2 x.refTol ++ leBytes 2 x.flagHalf ++ leBytes 2 x.stopTol ++ leBytes 4 x.refTravel ++ leBytes 2 x.dwell ++ leBytes 1 (b2n x.refUp)
    ++ leBytes 1 x.holdFlag ++ leBytes 1 x.parkLevel ++ leBytes 1 0 ++ leBytes 2 x.idleTime
/-- The payload of op 1 of a lift, all levels. -/
def Lift.tableBytes (x : Lift) (l : Nat) : List Byte :=
  leBytes 1 l ++ leBytes 1 1 ++ leBytes 1 0 ++ leBytes 1 16 ++ (List.range 16).flatMap (fun k => leBytes 4 (ofSigned 32 (x.level k)))
/-- The payload of op 2 of a gate. -/
def Gate.settings (y : Gate) (g : Nat) : List Byte :=
  leBytes 1 g ++ leBytes 1 2 ++ leBytes 2 0 ++ leBytes 2 y.tUnlock ++ leBytes 2 y.tOpen ++ leBytes 2 y.tClose ++ leBytes 2 y.tLock
    ++ leBytes 2 y.retryDwell ++ leBytes 2 y.iObst ++ leBytes 4 y.ferrObst ++ leBytes 8 (ofSigned 64 y.openPos) ++ leBytes 8 (ofSigned 64 y.closedPos)

/-- Op 0 of LIFT_CONFIG. -/
def Node.liftSettings (n : Node) (m : Nat) (pl : List Byte) : Node :=
  let l := u8 pl 0
  let dk := (n.stall ((n.liftEntry l).pf 10 2)).kd
  let dec := u32 pl 12
  let inDec := b32.le 0x3F800000 dec && b32.le dec 0x461C4000
  let known := (n.liftStall l).isSome
  n.checked m [badLen pl 36, badIn l 0 3 0, ((n.liftEntry l).active, Rs.chanBusy, 0), badRes pl 2 2, badRange (!finiteNonzero (u32 pl 4)) 4,
      badRange (!finiteNonzero (u32 pl 8)) 8,
      badRange (if known then (if dk = K.axis then dec != 0 else !inDec) else !(inDec || dec == 0)) 12, badIn (u16 pl 16) 1 500 16,
      badIn (u16 pl 18) 10 1000 18, badIn (u16 pl 20) 10 30 20, badIn (u16 pl 22) 1 30 22, badIn (u32 pl 24) 1 10000000 24,
      badIn (u16 pl 28) 0 60000 28, badIn (u8 pl 30) 0 1 30, badRange (decide (63 < u8 pl 31) && u8 pl 31 != 0xFF) 31,
      badRange (decide (15 < u8 pl 32) && u8 pl 32 != 0xFF) 32, badRes pl 33 1, badIn (u16 pl 34) 0 3600 34]
    (n.needCfg m Cmd.liftConfig
      (((n.updLift l (fun x => { x with cfgOk := true, scale := BitVec.ofNat 32 (u32 pl 4), driveScale := BitVec.ofNat 32 (u32 pl 8),
                                        decel := BitVec.ofNat 32 dec, vRef := u16 pl 16, refTol := u16 pl 18, flagHalf := u16 pl 20,
                                        stopTol := u16 pl 22, refTravel := u32 pl 24, dwell := u16 pl 28, refUp := u8 pl 30 == 1,
                                        holdFlag := u8 pl 31, parkLevel := u8 pl 32, idleTime := u16 pl 34 })).storeCfg
          Cmd.liftConfig l pl).ok m []))

/-- Op 1 of LIFT_CONFIG. -/
def Node.liftTable (n : Node) (m : Nat) (pl : List Byte) : Node :=
  let l := u8 pl 0
  let st := u8 pl 2
  let c := u8 pl 3
  n.checked m [(decide (pl.length < 4), Rs.lengthBad, 0), badIn l 0 3 0, ((n.liftEntry l).active, Rs.chanBusy, 0), badIn c 1 16 3,
      badRange (decide (16 < st + c)) 3, badLen pl (4 + 4 * c)]
    (n.needCfg m Cmd.liftConfig
      (let tb := (List.range c).foldl (fun (t : Tbl Int) i => t.put (st + i) (s32 pl (4 + 4 * i))) (n.lift l).levelTable
       ((n.updLift l (fun x => { x with tableOk := true, levelTable := tb })).storeCfg Cmd.liftConfig (4 + l * 16 + st) pl).ok m []))

/-- Op 2 of LIFT_CONFIG. -/
def Node.gateSettings (n : Node) (m : Nat) (pl : List Byte) : Node :=
  let g := u8 pl 0
  let dk := (n.stall ((n.gateEntry g).pf 10 2)).kd
  let known := (n.gateStall g).isSome
  let io := u16 pl 14
  let fo := u32 pl 16
  let axis := dk == K.axis
  n.checked m [badLen pl 36, badIn g 0 15 0, ((n.gateEntry g).active, Rs.chanBusy, 0), badRes pl 2 2, badIn (u16 pl 4) 10 5000 4,
      badIn (u16 pl 6) 100 30000 6, badIn (u16 pl 8) 100 30000 8, badIn (u16 pl 10) 10 5000 10, badIn (u16 pl 12) 0 30000 12,
      badRange (if known && dk != K.prot then io != 0 else if known then decide (io < 100 ∨ 3000 < io) else io != 0 && decide (io < 100 ∨ 3000 < io)) 14,
      badRange (decide (1000000 < fo) || (known && !axis && fo != 0)) 16, badRange (known && !axis && u64 pl 20 != 0) 20,
      badRange (known && !axis && u64 pl 28 != 0) 28]
    (n.needCfg m Cmd.liftConfig
      (((n.updGate g (fun y => { y with cfgOk := true, tUnlock := u16 pl 4, tOpen := u16 pl 6, tClose := u16 pl 8, tLock := u16 pl 10,
                                        retryDwell := u16 pl 12, iObst := io, ferrObst := fo, openPos := s64 pl 20,
                                        closedPos := s64 pl 28 })).storeCfg Cmd.liftConfig (68 + g) pl).ok m []))

/-- LIFT_CONFIG (R372). -/
def execLiftConfig (path idx : Nat) (s : State) : Host.Outcome State Fault Refusal :=
  s.run fun n => n.hostCmd Cmd.liftConfig path idx fun n m pl =>
    n.checked m [(decide (pl.length < 2), Rs.lengthBad, 0), badIn (u8 pl 1) 0 3 1]
      (if u8 pl 1 = 0 then n.liftSettings m pl
       else if u8 pl 1 = 1 then n.liftTable m pl
       else if u8 pl 1 = 2 then n.gateSettings m pl
       else
         let t := u8 pl 0
         let r := u8 pl 2
         n.checked m [badLen pl 3, badIn r 0 2 2, badIn t 0 (if r = 2 then 15 else 3) 0]
           (n.ok m (if r = 0 then (n.lift t).settings t else if r = 1 then (n.lift t).tableBytes t else (n.gate t).settings t)))

/-! ### Car position, flags and arrival -/

/-- The LIFT stall takes car_pos with the stamp of the source sample; INVALID while UNREFERENCED (R355). It is not written while the
Sequencer is down (R370). -/
def Node.showLift (n : Node) (l : Nat) (stamp : T64) : Node :=
  match n.liftStall l with
  | some k =>
    if (n.stall k).st = .running ∧ n.runs Isl.seq then
      let x := n.lift l
      n.updStall k (fun s => (s.takeAt (storeInt F.s32 x.carPos) stamp).setStatus St.invalid (x.st == .unreferenced))
    else n
  | none => n

/-- A level's flag is faulty (R357): the level is out of service and its call dropped. -/
def Node.flagFault (n : Node) (l k cause : Nat) : Node :=
  let hit := (n.lift l).target == k && (n.lift l).calls.getLsbD k
  let n := (n.updLift l (fun x => { x with outOfService := x.outOfService ||| (1#16 <<< k), calls := x.calls &&& ~~~(1#16 <<< k) })).log
    Ev.levelFlagFault l k cause
  if hit then n.dropTarget l else n

/-- The flags are checked as the car moves from `p` to `q` (R357). -/
def Node.checkFlags (n : Node) (l : Nat) (p q : Int) : Node :=
  (List.range (n.levels l)).foldl (fun n k =>
    let x := n.lift l
    let lv := x.level k
    let h : Int := x.flagHalf
    let reads := n.flagReads l k
    let seen := x.flagSeen.getLsbD k || reads
    let inBand := decide ((q - lv).natAbs ≤ x.flagHalf)
    let left := x.dir != 0 && (decide (p ≤ lv + h ∧ lv + h < q) || decide (q < lv - h ∧ lv - h ≤ p))
    let n := n.updLift l (fun x => { x with flagSeen := if inBand && seen then x.flagSeen ||| (1#16 <<< k) else x.flagSeen &&& ~~~(1#16 <<< k) })
    if x.outOfService.getLsbD k then n
    else if (n.stall ((n.liftEntry l).pf 14 2 + k)).st = .fallow then n.flagFault l k 1
    else if !x.referenced then n
    else if reads && decide (x.flagHalf + x.refTol < (q - lv).natAbs) then n.flagFault l k 0
    else if left && !seen then n.flagFault l k 1
    else n) n

/-- Arrival succeeds when the car is within stop_tol, the flag reads 1 and UNLOCK_PERMIT is given (R361). -/
def Node.arriveNow (n : Node) (l : Nat) : Node :=
  let x := n.lift l
  if x.st = .arriving ∧ (x.carPos - x.level x.target).natAbs ≤ x.stopTol ∧ n.flagReads l x.target ∧ n.unlockPermit l x.target then
    n.serveLevel l x.target
  else n

/-- Open gates of the lift whose dwell has elapsed close once hold_flag reads 0 (R361). -/
def Node.dwellClose (n : Node) (l : Nat) : Node :=
  let f := (n.lift l).holdFlag
  if f < 64 && n.rcp.flags.getLsbD f then n
  else (n.gatesOf l).foldl (fun n p => let y := n.gate p.1
                                       if y.st == .opened && y.dwellDone && !y.heldOpen then n.closeGate p.1 else n) n

/-- LIFT_POSITION_UPDATE (R355, R357 to R359): on its 1 ms grid. -/
def execLiftPositionUpdate (l : Nat) (s : State) : Host.Outcome State Fault Refusal :=
  s.run fun n =>
    if n.liftRuns ∧ (n.lift l).st ≠ .inactive then
      let t := nextGrid (max n.gridNow ((n.lift l).updAt + 1)) (ms 1)
      let n := (n.upTo t).sampleLift l
      let src := n.stall ((n.liftEntry l).pf 12 2)
      let p := (n.lift l).carPos
      let n := n.updLift l (fun x =>
        let near := decide ((x.posAt t - x.level x.target).natAbs ≤ x.stopTol)
        { x with updAt := t, carPos := x.posAt t, nearFrom := if x.st == .travelling && near then some (x.nearFrom.getD t) else none })
      let n := (n.showLift l src.stamp).checkFlags l p (n.lift l).carPos
      let n := ((n.retarget l).arriveNow l).dwellClose l
      let n := n.depart l
      let stands : Bool := match n.liftAxis l with | some a => (n.axis a).st == .standstill | none => true
      if (n.lift l).calls ≠ 0 ∧ stands then n.serveCalls l else n
    else n

/-- A correction of the reference moves the drive target with it (R356). -/
def Node.shiftDrive (n : Node) (l : Nat) (d : Int) : Node :=
  match n.liftAxis l with
  | some a =>
    match (n.axis a).goal with
    | .position tgt => n.defaultMove a (tgt + ratRound ((d : ℚ) * f32Rat (n.lift l).driveScale))
    | _ => n
  | none => n.driveCar l ((n.lift l).level (n.lift l).target)

/-- The reference is corrected by −δ at level `k` (R356). -/
def Node.correct (n : Node) (l k : Nat) (d : Int) : Node :=
  (n.updLift l (fun x => { x with off := x.off - d, carPos := x.carPos - d, referenced := true, refPending := false, lastRef := n.now,
                                  correction := d })).log Ev.liftReferenced l k (par d)

/-- LEVEL_FLAG_EDGE (R356, R363): the rising edge of flag `k` with stamp `t`; not used while the car stands. -/
def execLevelFlagEdge (l k t : Nat) (s : State) : Host.Outcome State Fault Refusal :=
  s.run fun n =>
    let x := n.lift l
    if !n.liftRuns ∨ x.dir = 0 ∨ n.levels l ≤ k ∨ x.outOfService.getLsbD k then n
    else
      let n := ((n.upTo t).sampleLift l).updLift l (fun x => { x with flagSeen := x.flagSeen ||| (1#16 <<< k) })
      let x := n.lift l
      let e : Int := if x.dir = 1 then x.level k - x.flagHalf else x.level k + x.flagHalf
      let d := x.posAt t - e
      if x.st = .referencing then (n.correct l k d).travelTo l x.target
      else if d.natAbs ≤ x.refTol then
        let n := n.correct l k d
        if x.st = .travelling then n.shiftDrive l d else n
      else if x.st = .travelling ∨ x.st = .arriving then
        ((n.stopCar l).updLift l (fun x => { x with st := .unreferenced, referenced := false, dir := 0, target := 0xFF, idleFrom := n.now })).log
          Ev.liftPositionFault l 0 (par x.carPos)
      else n

/-- ARRIVING: torque off is requested (R361). -/
def Node.arriving (n : Node) (l : Nat) : Node :=
  (n.updLift l (fun x => { x with st := .arriving, arriveAt := n.now, torqueOn := false })).sfRequest 2 (n.interlockInst l)

/-- LIFT_DRIVE_AT_TARGET (R361, R363): the axis reports AT_TARGET. -/
def execLiftDriveAtTarget (l : Nat) (s : State) : Host.Outcome State Fault Refusal :=
  s.run fun n =>
    match n.liftAxis l with
    | some a => if n.liftRuns ∧ (n.lift l).st = .travelling ∧ (n.axis a).atTarget then n.arriving l else n
    | none => n

/-- LIFT_ARRIVAL_SETTLED (R361): with a REMOTE drive the car has stayed within stop_tol for 100 ms. -/
def execLiftArrivalSettled (l : Nat) (s : State) : Host.Outcome State Fault Refusal :=
  s.run fun n =>
    let x := n.lift l
    match x.nearFrom with
    | some t => if n.liftRuns ∧ x.st = .travelling ∧ (n.liftAxis l).isNone then (n.upTo (t + ms 100)).arriving l else n
    | none => n

/-- LIFT_POSITION_FAULT and FAULT. -/
def Node.liftFault (n : Node) (l cause : Nat) : Node :=
  let c := (n.lift l).carPos
  (n.updLift l (fun x => { x with st := .fault, dir := 0 })).log Ev.liftPositionFault l cause (par c)

/-- LIFT_ARRIVAL_TIMEOUT (R361, R363): the first failure at a stop commands the target again, the second is a fault. -/
def execLiftArrivalTimeout (l : Nat) (s : State) : Host.Outcome State Fault Refusal :=
  s.run fun n =>
    if n.liftRuns ∧ (n.lift l).st = .arriving then
      let n := (n.upTo ((n.lift l).arriveAt + ms 2000)).arriveNow l
      let x := n.lift l
      if x.st ≠ .arriving then n
      else if x.arrivalTried then n.liftFault l 1
      else ((n.updLift l (fun x => { x with arrivalTried := true, torqueOn := true })).sfRequest 1 (n.interlockInst l)).travelTo l x.target
    else n

/-- LIFT_PARK_DUE (R359, R363). -/
def execLiftParkDue (l : Nat) (s : State) : Host.Outcome State Fault Refusal :=
  s.run fun n =>
    let x := n.lift l
    if n.liftRuns ∧ (x.st = .idle ∨ x.st = .unreferenced) ∧ x.calls = 0 ∧ x.idleTime ≠ 0 ∧ x.parkLevel < n.levels l then
      let n := n.upTo (x.idleFrom + ms (1000 * x.idleTime))
      if x.st = .idle ∧ n.atLevel l = some x.parkLevel then n
      else n.departTo l x.parkLevel true
    else n

/-- LIFT_REF_TRAVEL_EXCEEDED (R363): the car has passed ref_travel without a flag edge. -/
def execLiftRefTravelExceeded (l : Nat) (s : State) : Host.Outcome State Fault Refusal :=
  s.run fun n =>
    let n' := n.sampleLift l
    let x := n'.lift l
    if n.liftRuns ∧ x.st = .referencing ∧ x.refTravel ≤ (x.posAt n.now - x.refStart).natAbs then (n'.stopCar l).liftFault l 2 else n

/-- LIFT_INTERLOCK_CHANGE (R361, R363, R367, R368): DEMAND halts the lift and its end releases it; permits let waiting
steps go on. -/
def execLiftInterlockChange (l : Nat) (s : State) : Host.Outcome State Fault Refusal :=
  s.run fun n =>
    if !n.liftRuns then n
    else
      let valid := (n.stall ((n.liftEntry l).pf 18 2)).valid
      let d := if valid then bit (n.interlock l) 1 else (n.lift l).demand
      let n := n.updLift l (fun x => { x with demand := d })
      if d then n.haltLift l 0
      else
        let n := ((n.unhaltLift l).depart l).arriveNow l
        (n.gatesOf l).foldl (fun n p => if (n.gate p.1).openDue then n.openGate p.1 else n) n

/-! ### Gates -/

/-- The gate's drive is an AXIS: its axis. -/
def Node.gateAxis (n : Node) (g : Nat) : Option Nat :=
  let d := (n.gateEntry g).pf 10 2
  if (n.stall d).kd = K.axis then some (n.resource d - 42) else none

/-- Open is reached (R364). -/
def Node.openReached (n : Node) (g : Nat) : Bool :=
  let y := n.gate g
  match n.gateAxis g with
  | some a => (n.axis a).atTarget && !y.reopenDue
  | none => decide (y.stepAt + ms y.tOpen ≤ n.now) && n.gateOff g

/-- GATE_FAULT. -/
def Node.gateFail (n : Node) (g cause : Nat) : Node :=
  let st := (n.gate g).st.code
  (n.gateEnter g .fault).log Ev.gateFault g cause st

/-- What follows at the lift when a gate is closed and locked (R363, R365). -/
def Node.gateShut (n : Node) (g : Nat) : Node :=
  let l := n.gateLift g
  let n := (n.updGate g (fun y => { y with attempts := 0 })).gateEnter g .closedLocked
  if (n.gate g).openDue then n.openGate g else (n.leaveLevel l).depart l

/-- A closing gate is reversed (R365, R366): the drive is stopped, then set to open. -/
def Node.reverseGate (n : Node) (g cause : Nat) : Node :=
  let n := (n.updGate g (fun y => { y with cause := cause })).gateEnter g .reopening
  let n := n.haltGate g
  match n.gateAxis g with
  | some a => if (n.axis a).st = .standstill then n.driveGate g true else n.updGate g (fun y => { y with reopenDue := true })
  | none => n.driveGate g true

/-- The open command that waited for the end of a quick stop is given. -/
def Node.reopenNow (n : Node) (g : Nat) : Node :=
  match n.gateAxis g with
  | some a =>
    if (n.gate g).reopenDue ∧ (n.axis a).st = .standstill then (n.updGate g (fun y => { y with reopenDue := false })).driveGate g true else n
  | none => n

/-- OPEN is entered: the dwell runs; a departing lift closes the gate again (R361, R363, R365). -/
def Node.gateOpened (n : Node) (g : Nat) : Node :=
  let n := (n.updGate g (fun y => { y with dwellDone := false })).gateEnter g .opened
  if (n.lift (n.gateLift g)).st = .departing ∧ !(n.gate g).heldOpen then n.closeGate g else n

/-- GATE_INPUT_CHANGE (R364, R365, R369): the gate advances by its inputs; a held gate starts no new step. -/
def execGateInputChange (g : Nat) (s : State) : Host.Outcome State Fault Refusal :=
  s.run fun n =>
    if !n.liftRuns then n
    else
      let n := n.reopenNow g
      let y := n.gate g
      match y.st with
      | .unlocking => if n.gateFree g ∧ !y.held then (n.gateEnter g .opening).driveGate g true else n
      | .opening => if n.openReached g then n.gateOpened g else n
      | .closing =>
        let there := match n.gateAxis g with | some a => (n.axis a).atTarget && (n.axis a).pos == y.closedPos | none => true
        if n.gateClosed g && there && !y.held then (n.gateEnter g .locking).lockRequest g 4 else n
      | .reopening =>
        if n.openReached g then
          if y.attempts < 3 then (n.updGate g (fun y => { y with closeDue := true, dwellDone := false })).gateEnter g .opened
          else (n.gateEnter g .obstructed).log Ev.gateObstructed g y.attempts y.cause
        else n
      | .locking => if n.gateLocked g then n.gateShut g else n
      | .closedLocked => if n.gateOff g || n.gateFree g then n.gateFail g 3 else n
      | _ => n

/-- GATE_TIMEOUT (R365). -/
def execGateTimeout (g : Nat) (s : State) : Host.Outcome State Fault Refusal :=
  s.run fun n =>
    if !n.liftRuns then n
    else
      let y := n.gate g
      match y.st with
      | .unlocking => (n.upTo (y.stepAt + ms y.tUnlock)).gateFail g 0
      | .opening => (n.upTo (y.stepAt + ms (y.tOpen + 1000))).gateFail g 1
      | .closing => (n.upTo (y.stepAt + ms y.tClose)).reverseGate g 3
      | .locking => (n.upTo (y.stepAt + ms y.tLock)).gateFail g 2
      | _ => n

/-- The milliamperes the PROTECTED drive's current stall reads (R85, R366). -/
def Node.gateCurrent (n : Node) (g : Nat) : Int :=
  let s := n.stall (50 + (n.resource ((n.gateEntry g).pf 10 2) - 28))
  if s.valid then ratRound ((b32.unpack (s.value.toNat % 2 ^ 32)).toRat * 1000) else 0

/-- GATE_OBSTRUCTION_CHECK (R366): every 1 ms while CLOSING. -/
def execGateObstructionCheck (g : Nat) (s : State) : Host.Outcome State Fault Refusal :=
  s.run fun n =>
    if !n.liftRuns then n
    else
      let n := n.reopenNow g
      if (n.gate g).st ≠ .closing then n
      else
        let n := n.upTo (max (n.gate g).stepAt (n.gate g).checkAt + ms 1)
        let n := n.updGate g (fun y => { y with checkAt := n.now })
        let y := n.gate g
        let e := n.gateEntry g
        let far : Bool := match n.gateAxis g with
          | some a => (match n.ferr a with | some d => y.ferrObst != 0 && decide (y.ferrObst < d.natAbs) | none => false)
          | none => false
        let above : Bool := (n.stall (e.pf 10 2)).kd == K.prot && decide ((y.iObst : Int) < n.gateCurrent g)
        let n := n.updGate g (fun y => { y with ferrRun := if far then y.ferrRun + 1 else 0, currentRun := if above then y.currentRun + 1 else 0 })
        let cur := n.stall (e.pf 16 2)
        if 2 ≤ (n.gate g).ferrRun then n.reverseGate g 0
        else if 20 ≤ (n.gate g).currentRun then n.reverseGate g 1
        else if e.pf 16 2 ≠ 0xFFFF ∧ cur.valid ∧ cur.value.getLsbD 5 then n.reverseGate g 2
        else n

/-- GATE_RETRY_DWELL (R365). -/
def execGateRetryDwell (g : Nat) (s : State) : Host.Outcome State Fault Refusal :=
  s.run fun n =>
    let y := n.gate g
    if n.liftRuns ∧ y.st = .opened ∧ y.closeDue ∧ !y.heldOpen then (n.upTo (y.stepAt + ms y.retryDwell)).closeGate g else n

/-- GATE_DWELL_EXPIRED (R361). -/
def execGateDwellExpired (g : Nat) (s : State) : Host.Outcome State Fault Refusal :=
  s.run fun n =>
    let y := n.gate g
    let l := n.gateLift g
    if n.liftRuns ∧ y.st = .opened ∧ !y.closeDue then
      ((n.upTo (y.stepAt + ms (n.lift l).dwell)).updGate g (fun y => { y with dwellDone := true })).dwellClose l
    else n

end Sys2Proof.Machine
end

