-- ==== Sys2Proof/Machine/HarvestOps.lean ====
section
/-! DEFINITION. The harvest stream's operations (17): indices (R377), snapshots and KEY samples (R381, R385), triggers and
windows (R386 to R389), the encoding of records (R383, R384) and the transmit rings (R392). -/

namespace Sys2Proof.Machine

/-- Change the harvest stream. -/
def Node.updHarv (n : Node) (f : Harvest → Harvest) : Node := { n with harv := f n.harv }
/-- Change a collector slot. -/
def Node.updHslot (n : Node) (k : Nat) (f : HvSlot → HvSlot) : Node := n.setHslot k (f (n.hslot k))
/-- Trigger `k`. -/
def Node.trig (n : Node) (k : Nat) : Trig := n.harv.trigs.getD k {}
/-- Write trigger `k`. -/
def Node.setTrig (n : Node) (k : Nat) (x : Trig) : Node := n.updHarv (fun h => { h with trigs := h.trigs.put k x })

/-- Trigger states, coded as R387. -/
def TrigSt.code : TrigSt → Nat
  | .disarmed => 0 | .armed => 1 | .holdoff => 2 | .fired => 3
/-- Slot states, coded as R391. -/
def SlotSt.code : SlotSt → Nat
  | .none => 0 | .requested => 1 | .granted => 2 | .refused => 3 | .revoked => 4

/-! ### Indices (R377) -/

/-- The period in ns. -/
def HvSet.ns (c : HvSet) : Nat := us (max 1 c.period)
/-- The first index at or after `i` at which an entry is due. -/
def nextDue (es : List HvEntry) (i : Nat) : Nat :=
  ((es.map (fun e => nextGrid i (max 1 e.divider))).min?).getD i
/-- The index of the first sample instant at or after `t` (R386); of a CBUS slave, of the next edge. -/
def Harvest.indexAt (h : Harvest) (t : T64) : Nat :=
  if h.inForce.clock = 2 then h.edgeIndex + 1 else (t + h.inForce.ns - 1) / h.inForce.ns

/-! ### The raw ring (R381, R385, R388) -/

/-- The index a raw item belongs to. -/
def HvRaw.index : HvRaw → Nat
  | .sample i _ _ _ _ => i | .mark i _ => i | .gap i _ _ => i

/-- Put an item into index order; what is at the same index stays behind it. -/
def insertRaw (x : HvRaw) : List HvRaw → List HvRaw
  | [] => [x]
  | y :: t => if x.index ≤ y.index then x :: y :: t else y :: insertRaw x t

/-- A gap enters the raw ring; it grows a gap of the same cause that it continues. The next sample is KEY. -/
def Harvest.rawGap (h : Harvest) (first count cause : Nat) : Harvest :=
  let h := { h with keyDue := true, gaps := (h.gaps + count) % 2 ^ 32 }
  match h.raw.getLast? with
  | some (.gap f c k) =>
    if k = cause ∧ f + c = first then { h with raw := h.raw.dropLast ++ [.gap f (c + count) k] }
    else { h with raw := h.raw ++ [.gap first count cause] }
  | _ => { h with raw := h.raw ++ [.gap first count cause] }

/-- A snapshot enters the raw ring, KEY as R385 says. -/
def Harvest.rawSample (h : Harvest) (i : Nat) (t : T64) (stamped key : Bool) (vals : List HvValue) : Harvest :=
  let due := match h.lastKey with | some j => decide (j + h.inForce.keyEvery ≤ i) | none => true
  let key := key || h.keyDue || due
  { h with raw := h.raw ++ [.sample i t stamped key vals], keyDue := false, lastKey := if key then some i else h.lastKey }

/-! ### Triggers (R386 to R389) -/

/-- An ARMED trigger fires at instant `t` for index `i` (R386, R387, R394). -/
def Node.fireAt (n : Node) (k i : Nat) (t : T64) : Node :=
  let x := n.trig k
  let st : TrigSt := if !x.auto then .fired else if x.holdoff = 0 then .armed else .holdoff
  let n := n.setTrig k { x with st := st, fires := x.fires + 1, last := t, lastIndex := i }
  n.updHarv (fun h => { h with fires := if h.entries.isEmpty then h.fires else h.fires ++ [(i, k, t)],
                               tbusLow := h.tbusLow || (x.tbusOut && h.inForce.tbus),
                               tbusAt := if !h.tbusLow && x.tbusOut && h.inForce.tbus then n.now else h.tbusAt })

/-- A fire whose instant is `t`. -/
def Node.fireTrigger (n : Node) (k : Nat) (t : T64) : Node := n.fireAt k (n.harv.indexAt t) t

/-- The fires of one index as a mark: by trigger, each once, with its first instant (R388). -/
def marksAt (fires : List (Nat × Nat × T64)) (i : Nat) : List (Nat × T64) :=
  (List.range 32).filterMap (fun k => (fires.find? (fun (f : Nat × Nat × T64) => f.1 == i && f.2.1 == k)).map (fun f => (k, f.2.2)))

/-- The window of a fire at index `j`, opened before the item of index `i` is taken (R389): the samples kept from the window's
start go into the ring, what is no longer held is a gap of cause 0, and the first sample is KEY. -/
def Harvest.openWindow (h : Harvest) (j i : Nat) : Harvest :=
  let from_ := j - h.inForce.pre
  let fresh := match h.windowEnd with | some e => decide (e + 1 < from_) | none => true
  let start := match h.windowEnd with | some e => max from_ (e + 1) | none => from_
  let sent := h.held.filter (fun x => decide (start ≤ x.index))
  let oldest := (sent.head?.map HvRaw.index).getD (nextDue h.entries i)
  let firstDue := nextDue h.entries start
  let h := if firstDue < oldest then h.rawGap firstDue (oldest - firstDue) 0 else h
  let h := { h with keyDue := h.keyDue || fresh }
  let h := sent.foldl (fun h x => match x with | .sample a t st k v => h.rawSample a t st k v | _ => h) h
  { h with held := h.held.filter (fun x => decide (x.index < start)),
           windowEnd := some (max (j + h.inForce.post) (h.windowEnd.getD 0)) }

/-- The fires that belong to index `j` become a mark in the raw ring (R388). -/
def Harvest.markIndex (h : Harvest) (j i : Nat) : Harvest :=
  let h := if h.inForce.windowed then h.openWindow j i else h
  { h with raw := insertRaw (.mark j (marksAt h.fires j)) h.raw, fires := h.fires.filter (fun f => f.1 != j),
           marks := (h.marks + 1) % 2 ^ 32 }

/-- Indices of the fires that wait, up to `i`, in ascending order. -/
def Harvest.markDue (h : Harvest) (i : Nat) : List Nat :=
  ((h.fires.map (fun f => f.1)).filter (fun j => decide (j ≤ i))).foldl (fun l j => if l.contains j then l else l.filter (· < j) ++ [j] ++ l.filter (j < ·)) []

/-- A source 0 trigger's condition on a snapshot value (R386, R111): `changed` means since the entry's previous snapshot. -/
def Trig.meets (x : Trig) (v : HvValue) (changed : Bool) : Bool :=
  !v.invalid && (if x.cond ≤ 8 then valueCond x.cond v.format v.value x.value
    else if x.cond = 9 then v.value.getLsbD 0 && changed
    else if x.cond = 10 then !v.value.getLsbD 0 && changed
    else changed)

/-- Source 0 triggers are judged on the snapshot of index `i` (R386). -/
def Node.judgeTriggers (n : Node) (i : Nat) (t : T64) (vals : List HvValue) (prev : Tbl T64) : Node :=
  (List.range 32).foldl (fun n k =>
    let x := n.trig k
    if x.st = .armed ∧ x.source = 0 then
      match vals.find? (fun (v : HvValue) => ((n.harv.entries[v.entry]?).map HvEntry.stall) == some x.stall) with
      | some v =>
        let changed := match prev.look v.entry with | some p => decide (p < (n.view x.stall).stamp) | none => false
        if x.meets v changed then n.fireAt k i t else n
      | none => n
    else n) n

/-! ### Snapshots (R381) -/

/-- Read the due entries of index `i` in list order through the stall cache. -/
def Node.snapshot (n : Node) (i : Nat) : List HvValue × Node :=
  ((List.range n.harv.entries.length).zip n.harv.entries).foldl (fun (a : List HvValue × Node) e =>
    if i % max 1 e.2.divider = 0 then
      let s := a.2.view e.2.stall
      (a.1 ++ [{ entry := e.1, value := s.value, invalid := !s.valid, format := s.fm }], a.2.fill e.2.stall)
    else a) ([], n)

/-- The formats of all entries. -/
def Node.entryFormats (n : Node) : Tbl Nat :=
  (List.range n.harv.entries.length).zip (n.harv.entries.map (fun e => (n.stall e.stall).fm))

/-- Take the sample of index `i` at instant `t` (R381, R385 to R389). `full` tells that the raw ring has no room for it. -/
def Node.takeSample (n : Node) (i : Nat) (t : T64) (full : Bool) : Node :=
  let h := n.harv
  let prev := h.prevAt
  let (vals, n) := n.snapshot i
  let fmts := n.entryFormats
  let changed := !h.formats.isEmpty && h.formats != fmts
  let n := n.judgeTriggers i t vals prev
  let n := n.updHarv (fun h => { h with formats := fmts, prevAt := vals.foldl (fun p v => p.put v.entry n.now) h.prevAt })
  let n := n.updHarv (fun h => (h.markDue i).foldl (fun h j => h.markIndex j i) h)
  if vals.isEmpty then n
  else
    let stamped := h.inForce.clock == 2
    let n := n.updHarv (fun h => { h with samples := (h.samples + 1) % 2 ^ 32, lastIndex := i })
    n.updHarv (fun h =>
      if !h.inForce.windowed then (if full then h.rawGap i 1 0 else h.rawSample i t stamped changed vals)
      else if h.windowEnd.any (fun e => decide (i ≤ e)) then (if full then h.rawGap i 1 0 else h.rawSample i t stamped changed vals)
      else
        let kept := if full then h.held.drop 1 else h.held
        { h with held := (kept ++ [HvRaw.sample i t stamped changed vals]).filter (fun x => decide (i ≤ x.index + h.inForce.pre)) })

/-- Sampling stands from the next index on, for a cause of R383, unless it stands already. -/
def Node.holdSampling (n : Node) (cause : Nat) : Node :=
  if n.harv.entries.isEmpty || n.harv.gapFrom.isSome then n
  else n.updHarv (fun h => { h with gapFrom := some ((if h.inForce.clock = 2 then h.edgeIndex else h.lastIndex) + 1, cause) })

/-- Sampling goes on at index `i` (R395): what was skipped is a gap. -/
def Harvest.resumeAt (h : Harvest) (i : Nat) : Harvest :=
  match h.gapFrom with
  | some (f, c) => let h := { h with gapFrom := none }; if f < i then h.rawGap f (i - f) c else h
  | none => h

/-! ### Encoding (R383, R384) -/

/-- Zigzag of a 64-bit difference. -/
def zigzag (d : W64) : Nat := ((d <<< 1) ^^^ (d.sshiftRight 63)).toNat

/-- LEB128: at most ten groups of 7 bits. -/
def leb128 : Nat → Nat → List Byte
  | 0, _ => []
  | fuel + 1, v => if v < 128 then [BitVec.ofNat 8 v] else BitVec.ofNat 8 (128 + v % 128) :: leb128 fuel (v / 128)

/-- The value as RAW and KEY samples send it. -/
def rawValue (fmt : Nat) (v : W64) : List Byte :=
  leBytes (if fmt = F.bool then 1 else if fmt = F.s64 then 8 else 4) v.toNat

/-- The value against the last one sent. -/
def deltaValue (fmt : Nat) (v last : W64) : List Byte :=
  if fmt = F.bool then leBytes 1 v.toNat
  else if fmt = F.f32 then leb128 10 (v.toNat % 2 ^ 32 ^^^ last.toNat % 2 ^ 32)
  else if fmt = F.s64 then leb128 10 (zigzag (v - last))
  else leb128 10 (zigzag (BitVec.ofInt 64 (valueInt fmt v - valueInt fmt last)))

/-- A DEADBAND value moved by its band since the last one sent (R384). -/
def moved (fmt : Nat) (band : Nat) (v last : W64) : Bool :=
  if fmt = F.f32 then
    let x := v.toNat % 2 ^ 32
    let y := last.toNat % 2 ^ 32
    let d := b32.abs (b32.sub x y)
    b32.isNaN x || b32.isNaN y || b32.isNaN d || (if band % 2 ^ 31 = 0 then x != y else b32.le band d)
  else
    let d := (valueInt fmt v - valueInt fmt last).natAbs
    if band = 0 then d != 0 else decide (band ≤ d)

/-- Bit `k` of a bitmap over `n` entries, for the entries listed. -/
def bitmap (n : Nat) (on : List Nat) : List Byte := leBytes ((n + 7) / 8) ((on.map (fun k => 2 ^ k)).sum)

/-- One entry of a sample for a slot: absent, or present with its bytes; what the slot last sent follows it (R384). A value
that no value of the generation precedes has a free reference (log 40). -/
def Node.encodeEntry (n : Node) (e : HvEntry) (key : Bool) (last : Tbl (Option W64 × Bool)) (v : HvValue) :
    Node × Tbl (Option W64 × Bool) × Option (List Byte) :=
  let (free, n) := n.free 8
  let old := last.look v.entry
  let ref := ((old.bind Prod.fst).getD free)
  let present := key || e.mode != 2 || (match old with | some o => o.2 != v.invalid | none => true)
    || (!v.invalid && moved v.format e.band.toNat v.value ref)
  if !present then (n, last, none)
  else if v.invalid then (n, last.put v.entry (old.bind Prod.fst, true), some [])
  else (n, last.put v.entry (some v.value, false), some (if key || e.mode == 0 then rawValue v.format v.value else deltaValue v.format v.value ref))

/-- The SAMPLE record of a snapshot for a slot (R383). -/
def Node.encodeSample (n : Node) (i : Nat) (t : T64) (stamped key : Bool) (vals : List HvValue) (last : Tbl (Option W64 × Bool)) :
    Node × Tbl (Option W64 × Bool) × HvRec :=
  let h := n.harv
  let (n, last, out) := vals.foldl (fun (a : Node × Tbl (Option W64 × Bool) × List (HvValue × List Byte)) v =>
    let (n, last, o) := a.1.encodeEntry (h.entries.getD v.entry {}) key a.2.1 v
    (n, last, match o with | some b => a.2.2 ++ [(v, b)] | none => a.2.2)) (n, last, [])
  let bad := (out.filter (fun o => o.1.invalid)).map (fun o => o.1.entry)
  let len := h.entries.length
  let body := (if stamped then leBytes 8 t else []) ++ bitmap len (out.map (fun o => o.1.entry)) ++ (if bad.isEmpty then [] else bitmap len bad)
    ++ out.flatMap Prod.snd
  (n, last, { index := i, gen := h.generation, period := h.inForce.period, kind := 1,
              flags := b2n key + 2 * b2n stamped + 4 * b2n !bad.isEmpty, body := body })

/-- The MARK record of an index (R383, R388). -/
def markRec (h : Harvest) (i : Nat) (fires : List (Nat × T64)) : HvRec :=
  { index := i, gen := h.generation, period := h.inForce.period, kind := 2, flags := 0,
    body := leBytes 4 (fires.map (fun f => 2 ^ f.1)).sum ++ fires.flatMap (fun f => leBytes 8 f.2) }
/-- A GAP record (R383). -/
def gapRec (h : Harvest) (first count cause : Nat) : HvRec :=
  { index := first, gen := h.generation, period := h.inForce.period, kind := 3, flags := 0,
    body := leBytes 4 count ++ leBytes 1 cause ++ [0, 0, 0] }

/-- Bytes of a record. -/
def HvRec.size (r : HvRec) : Nat := 8 + r.body.length
/-- Bytes of a ring. -/
def ringSize (l : List HvRec) : Nat := (l.map HvRec.size).sum
/-- Capacity of a slot's transmit ring: 128 KB less the pages taken, slot 3 first (R381, R492). -/
def Node.ringCap (n : Node) (k : Nat) : Nat := 131072 - 4096 * min 32 (n.mem.harvestTaken - 32 * (3 - k))

/-- Indices a slot lost on its own, for a full transmit ring or a lost reservation, count as lost (R396); those of the raw ring are
counted there. -/
def Node.slotLost (n : Node) (count cause : Nat) : Node :=
  if cause = 1 ∨ cause = 6 then n.updHarv (fun h => { h with gaps := (h.gaps + count) % 2 ^ 32 }) else n

/-- A gap is told to a slot: its record, its event, and KEY for what follows (R383, R385, R397). -/
def Node.slotGap (n : Node) (k first count cause : Nat) : Node :=
  ((n.slotLost count cause).updHslot k (fun x => { x with ring := x.ring ++ [gapRec n.harv first count cause], forceKey := true })).log Ev.harvestGap
    (k + 256 * cause) first count

/-- Drop the oldest samples up to the next KEY sample; marks among them stay. Answers the ring, the first and last index
dropped and whether a KEY sample follows (R392). -/
def dropOldest (l : List HvRec) : Option (List HvRec × Nat × Nat × Bool) :=
  let pre := l.takeWhile (fun r => r.kind != 1)
  match l.drop pre.length with
  | [] => none
  | r :: t =>
    let run := t.takeWhile (fun (q : HvRec) => !(q.kind == 1 && q.flags % 2 == 1))
    let rest := t.drop run.length
    let lastIdx := ((run.filter (fun (q : HvRec) => q.kind == 1)).getLast?.map HvRec.index).getD r.index
    some (pre ++ run.filter (fun (q : HvRec) => q.kind != 1) ++ rest, r.index, lastIdx, !rest.isEmpty)

/-- Make room for `need` bytes in a slot's ring (R392). -/
def Node.makeRoom (n : Node) (k need : Nat) : Nat → Node
  | 0 => n
  | fuel + 1 =>
    let x := n.hslot k
    if ringSize x.ring + need ≤ n.ringCap k then n
    else match dropOldest x.ring with
      | none => n
      | some (ring, first, lastIdx, keyLeft) =>
        let g := gapRec n.harv first (lastIdx + 1 - first) 1
        let before := ring.takeWhile (fun (q : HvRec) => decide (q.index < first))
        let n := n.setHslot k { x with ring := before ++ [g] ++ ring.drop before.length, forceKey := x.forceKey || !keyLeft }
        ((n.slotLost (lastIdx + 1 - first) 1).log Ev.harvestGap (k + 256) first (lastIdx + 1 - first)).makeRoom k need fuel

/-- A snapshot goes to a slot (R384, R385, R391, R392). -/
def Node.slotSample (n : Node) (k i : Nat) (t : T64) (stamped key : Bool) (vals : List HvValue) : Node :=
  let n := match (n.hslot k).gapDue with
    | some (f, _, c) => (n.slotGap k f (i - f) c).updHslot k (fun x => { x with gapDue := none, waitKey := false })
    | none => n
  let x := n.hslot k
  if x.waitKey && !key then n
  else
    let (n, _, r) := n.encodeSample i t stamped (key || x.forceKey) vals x.last
    let n := n.makeRoom k r.size (x.ring.length + 1)
    let y := n.hslot k
    let (n, last, r) := n.encodeSample i t stamped (key || y.forceKey) vals y.last
    if ringSize y.ring + r.size ≤ n.ringCap k then
      n.setHslot k { y with ring := y.ring ++ [r], last := last, waitKey := false, forceKey := false }
    else n.slotGap k i 1 1

/-- A mark goes to a slot, samples giving way to it (R392). -/
def Node.slotMark (n : Node) (k i : Nat) (fires : List (Nat × T64)) : Node :=
  if (n.hslot k).waitKey then n
  else
    let r := markRec n.harv i fires
    let n := n.makeRoom k r.size ((n.hslot k).ring.length + 1)
    n.updHslot k (fun x => { x with ring := x.ring ++ [r] })

/-- The field cores encode one item of the raw ring into every GRANTED slot's transmit ring (R381, R390). -/
def Node.encodeItem (n : Node) (x : HvRaw) : Node :=
  (List.range 4).foldl (fun n k =>
    if (n.hslot k).st = .granted then
      match x with
      | .sample i t st key vals => n.slotSample k i t st key vals
      | .mark i fires => n.slotMark k i fires
      | .gap f c cause => if (n.hslot k).waitKey then n else n.slotGap k f c cause
    else n) n

/-- All that waits in the raw ring is encoded. -/
def Node.encodeRaw (n : Node) : Node :=
  let raw := n.harv.raw
  raw.foldl (fun n x => n.encodeItem x) (n.updHarv (fun h => { h with raw := [] }))

/-! ### Frames (R382, R392) -/

/-- Records of one generation that fit one payload of 1,480 bytes. -/
def frameRecs (gen period : Nat) : Nat → List HvRec → List HvRec
  | _, [] => []
  | room, r :: t => if r.gen = gen ∧ r.period = period ∧ r.size ≤ room then r :: frameRecs gen period (room - r.size) t else []

/-- The payload of a data frame (R382, R383). -/
def dataFrame (k : Nat) (fseq : BitVec 32) (gen period base : Nat) (rs : List HvRec) : List Byte :=
  leBytes 1 0 ++ leBytes 1 k ++ leBytes 2 gen ++ leBytes 4 fseq.toNat ++ leBytes 4 period ++ leBytes 2 rs.length ++ leBytes 2 0 ++ leBytes 8 base
    ++ rs.flatMap (fun r => leBytes 1 r.kind ++ leBytes 1 r.flags ++ leBytes 2 r.size ++ leBytes 4 (r.index - base) ++ r.body)

/-- Send one frame of a GRANTED slot when its token bucket covers it (R392): 64 KB deep, filled at the granted share; a kbit/s is
125 bytes a second. -/
def Node.sendSlotFrame (n : Node) (k : Nat) : Node :=
  let x := n.hslot k
  match x.ring with
  | r :: _ =>
    let rs := frameRecs r.gen r.period 1456 x.ring
    let pl := dataFrame k x.fseq r.gen r.period r.index rs
    let cost := max 64 (42 + pl.length)
    let cost := cost * 1000000000
    let tokens := min 65536000000000 (x.bucket.1 + (n.now - x.bucket.2) * (x.granted * 125))
    if x.st = .granted ∧ cost ≤ tokens then
      (n.setHslot k { x with ring := x.ring.drop rs.length, fseq := x.fseq + 1, bucket := (tokens - cost, n.now) }).send 0x40 0 x.address pl
    else n
  | [] => n

end Sys2Proof.Machine
end

