-- ==== Sys2Proof/Machine/Harvest.lean ====
section
/-! DEFINITION. The harvest stream (17): HARVEST_LIST, HARVEST_TRIGGER, HARVEST_COLLECTOR and HARVEST_STATUS (R378 to R380,
R386, R390, R396), the samples and edges (R377, R381, R394), frames (R392) and the reservations (R391). -/

namespace Sys2Proof.Machine

/-! ### HARVEST_LIST (R378 to R380) -/

/-- Settings out of the payload of op 0. -/
def HvSet.ofBytes (pl : List Byte) : HvSet :=
  { clock := u8 pl 1, windowed := u8 pl 2 == 1, tbus := u8 pl 3 == 1, period := u32 pl 4, keyEvery := u16 pl 8, pre := u16 pl 10, post := u16 pl 12,
    comp := u32 pl 16 }
/-- The payload of op 0 for settings. -/
def HvSet.bytes (c : HvSet) : List Byte :=
  leBytes 1 0 ++ leBytes 1 c.clock ++ leBytes 1 (b2n c.windowed) ++ leBytes 1 (b2n c.tbus) ++ leBytes 4 c.period ++ leBytes 2 c.keyEvery
    ++ leBytes 2 c.pre ++ leBytes 2 c.post ++ leBytes 2 0 ++ leBytes 4 c.comp
/-- An entry out of 12 bytes. -/
def HvEntry.ofBytes (b : List Byte) (o : Nat) : HvEntry :=
  { stall := u16 b o, mode := u8 b (o + 2), divider := u16 b (o + 4), band := BitVec.ofNat 32 (u32 b (o + 8)) }
/-- An entry in 12 bytes. -/
def HvEntry.bytes (e : HvEntry) : List Byte :=
  leBytes 2 e.stall ++ leBytes 1 e.mode ++ leBytes 1 0 ++ leBytes 2 e.divider ++ leBytes 2 0 ++ leBytes 4 e.band.toNat
/-- The entry that ends a list. -/
def HvEntry.ends (e : HvEntry) : Bool := e.stall == 0xFFFF

/-- The committed list: accepted and waiting, or in force. -/
def Harvest.committed (h : Harvest) : HvSet × List HvEntry :=
  match h.newList with | some (c, es, _) => (c, es) | none => (h.inForce, h.entries)
/-- Values per second of a list (R380). -/
def hvLoad (c : HvSet) (es : List HvEntry) : ℚ := (es.map (fun e => (1000000 : ℚ) / ((c.period * e.divider : Nat) : ℚ))).sum
/-- Pages the harvest buffers may lose before the raw ring falls below 256 KB (R492). -/
def rawPages : Nat := 192

/-- Op 0: stage the settings. -/
def Node.hvStageSet (n : Node) (m : Nat) (pl : List Byte) : Node :=
  let w := u8 pl 2 == 1
  n.checked m [badLen pl 20, badIn (u8 pl 1) 0 2 1, badIn (u8 pl 2) 0 1 2, badIn (u8 pl 3) 0 1 3,
      badIn (u32 pl 4) (if u8 pl 1 = 0 then 10 else 20) 1000000 4, badIn (u16 pl 8) 1 65535 8, badRange (!w && u16 pl 10 != 0) 10,
      badRange (if w then u16 pl 12 == 0 else u16 pl 12 != 0) 12, badRes pl 14 2, badIn (u32 pl 16) 0 100000 16]
    ((n.updHarv (fun h => { h with stagedSet := HvSet.ofBytes pl })).ok m [])

/-- Op 1: stage entries. -/
def Node.hvStageEntries (n : Node) (m : Nat) (pl : List Byte) : Node :=
  let start := u8 pl 1
  let c := u8 pl 2
  let off (i : Nat) : Nat := 4 + 12 * i
  n.checked m ([(decide (pl.length < 4), Rs.lengthBad, 0), badIn c 1 38 2, badLen pl (4 + 12 * c), badIn start 0 127 1,
        badRange (decide (128 < start + c)) 2, badRes pl 3 1]
      ++ (List.range c).flatMap (fun i =>
        let e := HvEntry.ofBytes pl (off i)
        [badRange (decide (1024 ≤ e.stall) && !e.ends) (off i), badIn e.mode 0 2 (off i + 2), badRes pl (off i + 3) 1,
         badRange (e.divider == 0 && !e.ends) (off i + 4), badRes pl (off i + 6) 2]))
    ((n.updHarv (fun h =>
      { h with stagedEnt := (List.range c).foldl (fun t i => t.put (start + i) (HvEntry.ofBytes pl (off i))) h.stagedEnt })).ok m [])

/-- The staged entry `i`. -/
def Harvest.stagedAt (h : Harvest) (i : Nat) : HvEntry := h.stagedEnt.getD i {}
/-- A band is good for its entry (R379, R380). -/
def Node.bandOk (n : Node) (e : HvEntry) : Bool :=
  if e.mode = 2 then (n.stall e.stall).fm != F.f32 || (b32.finite e.band.toNat && !(bit e.band.toNat 31 && e.band.toNat % 2 ^ 31 != 0))
  else e.band == 0

/-- Op 2: commit (R380). -/
def Node.hvCommit (n : Node) (m : Nat) (pl : List Byte) : Node :=
  let h := n.harv
  let all := (List.range 128).map h.stagedAt
  let es := all.takeWhile (fun e => !e.ends)
  let c := h.stagedSet
  let per (p : HvEntry → Bool) : Bool × Nat × Nat :=
    match ((List.range es.length).zip es).find? (fun (e : Nat × HvEntry) => p e.2) with
    | some e => (true, Rs.paramRange, 0x100 + e.1)
    | none => (false, 0, 0)
  n.checked m [badLen pl 1, badRange (es.isEmpty || (all.drop es.length).any (fun e => !e.ends)) 0,
      per (fun e => (n.stall e.stall).kd == K.unassigned), per (fun e => e.mode == 1 && (n.stall e.stall).fm == F.bool),
      per (fun e => !n.bandOk e), badRange (decide (2000000 < hvLoad c es)) 4]
    (n.needCfg m Cmd.harvestList
      (if rawPages < n.mem.harvestTaken then n.degraded m Cmd.harvestList n.mem.harvestTaken
       else
         let n := n.storeCfg Cmd.harvestList 0 c.bytes
         let n := (List.range 4).foldl (fun n i =>
           let k := min 38 (128 - 38 * i)
           n.storeCfg Cmd.harvestList (1 + i) ([1, BitVec.ofNat 8 (38 * i), BitVec.ofNat 8 k, 0]
             ++ (List.range k).flatMap (fun j => (h.stagedAt (38 * i + j)).bytes))) n
         let n := n.storeCfg Cmd.harvestList 5 pl
         let t := n.now + us 100
         let first := if c.clock = 2 then t else nextGrid t c.ns
         let n := n.updHarv (fun h =>
           { h with newList := some (c, es, first),
                    trigs := h.trigs.mapE (fun _ x => if x.source = 0 ∧ !es.any (fun e => e.stall == x.stall) then { x with st := .disarmed } else x) })
         n.ok m []))

/-- Op 3: read the committed settings or entries. -/
def Node.hvReadList (n : Node) (m : Nat) (pl : List Byte) : Node :=
  let (c, es) := n.harv.committed
  if u8 pl 1 = 0 then n.checked m [badLen pl 2] (n.ok m c.bytes)
  else
    n.checked m [badIn (u8 pl 1) 0 1 1, badLen pl 4, badIn (u8 pl 2) 0 127 2, badIn (u8 pl 3) 1 38 3, badRange (decide (128 < u8 pl 2 + u8 pl 3)) 3]
      (n.ok m ((List.range (u8 pl 3)).flatMap (fun i => (es.getD (u8 pl 2 + i) {}).bytes)))

/-- HARVEST_LIST. -/
def execHarvestList (path idx : Nat) (s : State) : Host.Outcome State Fault Refusal :=
  s.run fun n => n.hostCmd Cmd.harvestList path idx fun n m pl =>
    n.checked m [(pl.isEmpty, Rs.lengthBad, 0), badIn (u8 pl 0) 0 3 0]
      (match u8 pl 0 with
       | 0 => n.hvStageSet m pl
       | 1 => n.hvStageEntries m pl
       | 2 => n.hvCommit m pl
       | _ => n.hvReadList m pl)

/-- An accepted list takes effect (R380): what the raw ring holds is encoded under the old generation. -/
def Node.applyList (n : Node) : Node :=
  match n.harv.newList with
  | some (c, es, t) =>
    let last := n.harv.fires.map (fun f => f.1)
    let n := (n.updHarv (fun h => (h.markDue (last.foldl max 0)).foldl (fun h j => h.markIndex j j) h)).encodeRaw
    let n := n.updHarv (fun h =>
      let li := if c.clock = 2 then h.lastIndex else t / c.ns - 1
      { h with newList := none, inForce := c, entries := es, generation := (h.generation + 1) % 65536, keyDue := true, lastKey := none,
               formats := [], prevAt := [], windowEnd := none, held := [], lastIndex := li, edgeIndex := li,
               cbusLow := h.cbusLow && c.clock == 1, tbusLow := h.tbusLow && c.tbus,
               gapFrom := h.gapFrom.map (fun g => (li + 1, g.2)),
               slots := h.slots.mapE (fun _ x => { x with last := [] }) })
    n.log Ev.harvestListApplied n.harv.generation es.length c.period
  | none => n

/-- HARVEST_LIST_APPLY (R380). -/
def execHarvestListApply (s : State) : Host.Outcome State Fault Refusal :=
  s.run fun n => match n.harv.newList with
    | some (_, _, t) => (n.upTo t).applyList
    | none => n

/-! ### Samples (R377, R381, R394, R395) -/

/-- The next index with the line clock: the one after the last sample; after a gap the first whose instant is not past. -/
def Harvest.nextIndex (h : Harvest) (now : T64) : Nat :=
  match h.gapFrom with
  | some (f, _) => max f ((now + h.inForce.ns - 1) / h.inForce.ns)
  | none => h.lastIndex + 1

/-- HARVEST_SAMPLE (R377, R381): `full` tells that the raw ring has no room (log 40). A list that is due by then applies
first. The entries are read from 2 µs after the sample instant. -/
def execHarvestSample (full : Bool) (s : State) : Host.Outcome State Fault Refusal :=
  s.run fun n =>
    let due (n : Node) : T64 := nextDue n.harv.entries (n.harv.nextIndex n.now) * n.harv.inForce.ns
    let n := match n.harv.newList with
      | some (_, _, t) => if n.harv.entries.isEmpty || n.harv.inForce.clock == 2 || decide (t ≤ due n) then (n.upTo t).applyList else n
      | none => n
    let h := n.harv
    if n.runs Isl.seq && n.awake && !h.entries.isEmpty && h.inForce.clock != 2 then
      let start := h.nextIndex n.now
      let i := nextDue h.entries start
      ((n.upTo (i * h.inForce.ns + us 2)).updHarv (fun h => h.resumeAt start)).takeSample i (i * h.inForce.ns) full
    else n

/-- CBUS_EDGE (R394): a falling edge at `stamp`. A slave takes a sample; a master sees a second one, unless the edge is its
own. `full` as in HARVEST_SAMPLE. -/
def execCbusEdge (stamp : Nat) (full : Bool) (s : State) : Host.Outcome State Fault Refusal :=
  s.run fun n =>
    let n := n.upTo stamp
    let h := n.harv
    if !n.awake then n
    else if h.inForce.clock = 1 then
      if h.cbusLow then n
      else (n.updHarv (fun h => { h with inForce := { h.inForce with clock := 0 } })).log Ev.harvestCompat 0 stamp 0
    else if h.inForce.clock = 2 then
      if h.lastCbus ≠ 0 ∧ stamp < h.lastCbus + us 10 then n.log Ev.harvestCompat 1 stamp 0
      else
        let t := stamp - h.inForce.comp
        let n := (n.updHarv (fun h => { h with lastCbus := stamp })).upTo (stamp + us 2)
        let n := match n.harv.newList with
          | some (c, _, t1) => if c.clock = 2 ∧ t1 ≤ t then n.applyList else n
          | none => n
        let i := n.harv.edgeIndex + 1
        if n.runs Isl.seq then
          (n.updHarv (fun h => { h.resumeAt i with edgeIndex := i })).takeSample i t full
        else n.updHarv (fun h => { h with edgeIndex := i })
    else n

/-- CBUS_PULSE (R394): as master the SL4 pulls CBUS low (`low`) at a sample instant minus comp, and releases it 2 µs later. -/
def execCbusPulse (low : Bool) (s : State) : Host.Outcome State Fault Refusal :=
  s.run fun n =>
    let h := n.harv
    if h.inForce.clock = 1 ∧ n.awake ∧ !h.entries.isEmpty then
      if low then
        let i := (n.gridNow + h.inForce.comp + h.inForce.ns - 1) / h.inForce.ns
        let t := i * h.inForce.ns - h.inForce.comp
        (n.upTo t).updHarv (fun h => { h with cbusLow := true, lastCbus := t })
      else if h.cbusLow then (n.upTo (h.lastCbus + us 2)).updHarv (fun h => { h with cbusLow := false })
      else n
    else n

/-- TBUS_EDGE (R394): a falling edge at `stamp` fires every ARMED trigger of source 2; the own pulse is ignored. -/
def execTbusEdge (stamp : Nat) (s : State) : Host.Outcome State Fault Refusal :=
  s.run fun n =>
    let n := n.upTo stamp
    if n.harv.inForce.tbus ∧ !n.harv.tbusLow ∧ n.awake then
      (List.range 32).foldl (fun n k =>
        let x := n.trig k
        if x.st = .armed ∧ x.source = 2 then n.fireTrigger k (stamp - n.harv.inForce.comp) else n) n
    else n

/-- TBUS_PULSE_END (R394): 10 µs after TBUS was pulled low. -/
def execTbusPulseEnd (s : State) : Host.Outcome State Fault Refusal :=
  s.run fun n => if n.harv.tbusLow then (n.upTo (n.harv.tbusAt + us 10)).updHarv (fun h => { h with tbusLow := false }) else n

/-- TRIGGER_HOLDOFF_END (R387). -/
def execTriggerHoldoffEnd (k : Nat) (s : State) : Host.Outcome State Fault Refusal :=
  s.run fun n =>
    let x := n.trig k
    if x.st = .holdoff then (n.upTo (x.last + us x.holdoff)).setTrig k { x with st := .armed } else n

/-! ### HARVEST_TRIGGER (R386, R387) -/

/-- State, fires, and the last fire. -/
def Trig.results (x : Trig) : List Byte :=
  leBytes 1 x.st.code ++ leBytes 3 0 ++ leBytes 4 x.fires.toNat ++ leBytes 8 x.last ++ leBytes 8 x.lastIndex

/-- Op 0: configure and arm. -/
def Node.trigArm (n : Node) (m : Nat) (pl : List Byte) : Node :=
  let src := u8 pl 2
  let listed := n.harv.committed.2.any (fun e => e.stall == u16 pl 6)
  n.checked m [badLen pl 24, badIn src 0 3 2, badIn (u8 pl 3) 0 1 3,
      badRange (if src = 0 then decide (u8 pl 4 < 1 ∨ 0x0B < u8 pl 4) else u8 pl 4 != 0) 4, badIn (u8 pl 5) 0 1 5,
      badRange (if src = 0 then !listed || u16 pl 6 == 0xFFFF else u16 pl 6 != 0xFFFF) 6,
      badRange (if u8 pl 3 = 1 then decide (60000000 < u32 pl 16) else u32 pl 16 != 0) 16, badRes pl 20 4]
    (let k := u8 pl 0
     let x := n.trig k
     let y : Trig := { st := .armed, source := src, auto := u8 pl 3 == 1, cond := u8 pl 4, tbusOut := u8 pl 5 == 1, stall := u16 pl 6,
                       value := BitVec.ofNat 64 (u64 pl 8), holdoff := u32 pl 16, fires := 0, last := x.last, lastIndex := x.lastIndex }
     (n.setTrig k y).ok m y.results)

/-- HARVEST_TRIGGER. -/
def execHarvestTrigger (path idx : Nat) (s : State) : Host.Outcome State Fault Refusal :=
  s.run fun n => n.hostCmd Cmd.harvestTrigger path idx fun n m pl =>
    let k := u8 pl 0
    let op := u8 pl 1
    n.checked m [(decide (pl.length < 4), Rs.lengthBad, 0), badIn k 0 31 0, badIn op 0 3 1]
      (if op = 0 then n.trigArm m pl
       else n.checked m [badLen pl 4]
         (if op = 1 then
            let n := n.setTrig k { n.trig k with st := .disarmed }
            n.ok m (n.trig k).results
          else if op = 2 then
            n.checked m [badRange ((n.trig k).source != 3) 1, ((n.trig k).st != .armed, Rs.busy, 0)]
              (let n := n.fireTrigger k n.now
               n.ok m (n.trig k).results)
          else n.ok m (n.trig k).results))

/-- The fire of a HARVEST_MARK action at its T_act (R386): BUSY unless the trigger is ARMED with source 1. -/
def Node.harvestMark (n : Node) (k : Nat) (t : T64) : Nat × Node :=
  let x := n.trig k
  if x.st = .armed ∧ x.source = 1 then (Rs.ok, n.fireTrigger k t) else (Rs.busy, n)

/-! ### Collectors and reservations (R390 to R392) -/

/-- The head decides on a request (R391). -/
def Node.hvDecide (n : Node) (node slot collector share : Nat) : Bool × Node :=
  let g := (node, slot, collector, share) :: n.harv.grants.filter (fun x => !(x.1 == node && x.2.1 == slot))
  if n.grantsFit g then (true, n.updHarv (fun h => { h with grants := g })) else (false, n)

/-- The mailbox that waits for a slot is answered (R390): the results are the slot state and the granted share. -/
def Node.answerSlot (n : Node) (k status : Nat) : Node :=
  let x := n.hslot k
  let n := n.setHslot k { x with waiter := none }
  match x.waiter with
  | some m => n.answer m status 0 (if status = Rs.ok then leBytes 1 x.st.code ++ leBytes 4 x.granted else [])
  | none => n

/-- REQUESTED to GRANTED (R391). -/
def Node.slotGranted (n : Node) (k share : Nat) : Node :=
  let x := n.hslot k
  if x.st = .requested then
    (n.setHslot k { x with st := .granted, granted := share, waitKey := true, bucket := (65536000000000, n.now) }).answerSlot k Rs.ok
  else n
/-- REQUESTED to REFUSED (R391). -/
def Node.slotRefused (n : Node) (k status : Nat) : Node :=
  let x := n.hslot k
  if x.st = .requested then
    ((n.setHslot k { x with st := .refused, granted := 0, since := n.now }).reservationLog k 3).answerSlot k status
  else n

/-- A slot asks the head; the head asks itself (R391). -/
def Node.requestSlot (n : Node) (k : Nat) : Node :=
  let n := n.updHslot k (fun x => { x with st := .requested, granted := 0, since := n.now })
  let x := n.hslot k
  if n.isHead then
    match n.hvDecide n.addr k x.address x.share with
    | (true, n) => n.slotGranted k x.share
    | (false, n) => n.slotRefused k Rs.reservationRefused
  else n.askHead k

/-- An address that can be a collector (R390). -/
def collectorAddr (a : Nat) : Bool := decide (1 ≤ a ∧ a ≤ 0xFEFF) || plantAddr a

/-- HARVEST_COLLECTOR (R390, R391, R492). -/
def execHarvestCollector (path idx : Nat) (s : State) : Host.Outcome State Fault Refusal :=
  s.run fun n => n.hostCmd Cmd.harvestCollector path idx fun n m pl =>
    let k := u8 pl 0
    let add := u8 pl 1 == 0
    let share := u32 pl 8
    let others := (((List.range 4).filter (· != k)).map (fun j => if (n.hslot j).st = .none then 0 else (n.hslot j).share)).sum
    n.checked m [badLen pl 12, badIn k 0 3 0, badIn (u8 pl 1) 0 1 1, badRes pl 2 2, badRange (add && !collectorAddr (u16 pl 4)) 4, badRes pl 6 2,
        badRange (add && decide (share < 64 ∨ 100000 < share)) 8, ((n.hslot k).waiter.isSome, Rs.busy, 0)]
      (if add && n.ringCap k == 0 then n.degraded m Cmd.harvestCollector n.mem.harvestTaken
       else n.checked m [(add && decide (100000 < others + share), Rs.reservationRefused, 0)]
         (n.needCfg m Cmd.harvestCollector
           (let n := n.storeCfg Cmd.harvestCollector k pl
            let x := n.hslot k
            if add then
              (n.setHslot k { address := u16 pl 4, share := share, fseq := x.fseq, waiter := some m, bucket := x.bucket }).requestSlot k
            else
              let n := n.updHarv (fun h => { h with grants := h.grants.filter (fun g => !(g.1 == n.addr && g.2.1 == k)) })
              (n.setHslot k { fseq := x.fseq, bucket := x.bucket }).ok m (leBytes 1 0 ++ leBytes 4 0))))

/-- HARVEST_RESERVE_REQUEST (R391) at the head, from slot `slot` of `node`. -/
def execHarvestReserveRequest (node slot collector share : Nat) (s : State) : Host.Outcome State Fault Refusal :=
  s.run fun n =>
    if n.isHead ∧ n.coresRun then
      match n.hvDecide node slot collector share with
      | (ok, n) => n.send 0x40 0 node (harvestCtl (if ok then 2 else 3) slot n.harv.generation n.harv.inForce.period collector share)
    else n

/-- HARVEST_GRANT (R391). -/
def execHarvestGrant (k share : Nat) (s : State) : Host.Outcome State Fault Refusal :=
  s.run fun n => if n.coresRun ∧ k < 4 then n.slotGranted k share else n
/-- HARVEST_REFUSE (R391). -/
def execHarvestRefuse (k : Nat) (s : State) : Host.Outcome State Fault Refusal :=
  s.run fun n => if n.coresRun ∧ k < 4 then n.slotRefused k Rs.reservationRefused else n
/-- HARVEST_REVOKE (R391). -/
def execHarvestRevoke (k : Nat) (s : State) : Host.Outcome State Fault Refusal :=
  s.run fun n => if n.coresRun ∧ k < 4 then n.slotRevoked k else n
/-- HARVEST_RESERVATION_TIMEOUT (R390, R391): 2 s without an answer. -/
def execHarvestReservationTimeout (k : Nat) (s : State) : Host.Outcome State Fault Refusal :=
  s.run fun n =>
    if (n.hslot k).st = .requested ∧ n.coresRun then (n.upTo ((n.hslot k).since + sec 2)).slotRefused k Rs.nodeUnreachable else n
/-- HARVEST_RESERVATION_RETRY (R391): 60 s after a refusal or revocation. -/
def execHarvestReservationRetry (k : Nat) (s : State) : Host.Outcome State Fault Refusal :=
  s.run fun n =>
    let x := n.hslot k
    if (x.st = .refused ∨ x.st = .revoked) ∧ n.coresRun then (n.upTo (x.since + sec 60)).requestSlot k else n

/-- HARVEST_FRAME_SEND (R381 to R385, R388, R392): the field cores encode what waits and send a frame of slot `k`. -/
def execHarvestFrameSend (k : Nat) (s : State) : Host.Outcome State Fault Refusal :=
  s.run fun n => if n.coresRun ∧ k < 4 then n.encodeRaw.sendSlotFrame k else n

/-! ### HARVEST_STATUS (R396) -/

/-- HARVEST_STATUS: the read clears samples, gaps and marks. The bytes of the raw ring are a free value while it holds any
(log 40). -/
def execHarvestStatus (path idx : Nat) (s : State) : Host.Outcome State Fault Refusal :=
  s.run fun n => n.hostCmd Cmd.harvestStatus path idx fun n m pl =>
    n.checked m [badLen pl 0]
      (let h := n.harv
       let slots := ((List.range 4).map (fun k => (n.hslot k).st.code * 256 ^ k)).sum
       let (v, n) := n.free 8
       let fill := if h.raw.isEmpty ∧ h.held.isEmpty then 0 else v.toNat % 524289
       let n := n.updHarv (fun h => { h with samples := 0, gaps := 0, marks := 0 })
       n.ok m (leBytes 2 h.generation ++ leBytes 1 h.inForce.clock ++ leBytes 1 (b2n h.inForce.windowed) ++ leBytes 4 slots ++ leBytes 4 h.samples
         ++ leBytes 4 h.gaps ++ leBytes 4 h.marks ++ leBytes 4 (⌊hvLoad h.inForce h.entries⌋).toNat ++ leBytes 4 fill ++ leBytes 8 h.lastIndex))

end Sys2Proof.Machine
end

