-- ==== Sys2Proof/Machine/RecorderOps.lean ====
section
/-! DEFINITION. The store's operations for events (18) and its wear (22): slots and areas (R402 to R404), the stages of a clear
(R408), and the judgement of blocks (R495, R496). Partitions are numbered as in R500; a block is named by its index in its
partition. -/

namespace Sys2Proof.Machine

/-- Change the recorder. -/
def Node.updRcd (n : Node) (f : Recorder → Recorder) : Node := { n with rcd := f n.rcd }
/-- Change the health record. -/
def Node.updHlth (n : Node) (f : Health → Health) : Node := { n with hlth := f n.hlth }

/-! ### The record in the store (R398) -/

/-- The 32 bytes of a complete record. -/
def EvRec.bytes (e : EvRec) : List Byte :=
  let b := leBytes 2 e.code ++ leBytes 1 e.flags.toNat ++ leBytes 1 e.suppressed ++ leBytes 4 e.seq ++ leBytes 8 e.t ++ leBytes 4 e.p0 ++ leBytes 4 e.p1
    ++ leBytes 4 e.p2
  b ++ leBytes 2 (crc16 b).toNat ++ [0, 0x5A]

/-! ### Areas (R402) -/

/-- Slots of the Granary and the Rick. -/
def granarySlots : Nat := 16384
def rickSlots : Nat := 131328
/-- Blocks of the Rick. -/
def rickBlocks : Nat := 1026

/-- The Rick block after `b` that is in use. -/
def Recorder.blockAfter (r : Recorder) (b : Nat) : Nat :=
  let ks := (List.range rickBlocks).map (fun i => (b + 1 + i) % rickBlocks)
  (ks.find? (fun k => !r.rickRetired.contains k)).getD b
/-- The Rick slot after `h`. -/
def Recorder.slotAfter (r : Recorder) (h : Nat) : Nat := if h % 128 = 127 then r.blockAfter (h / 128) * 128 else h + 1

/-- An erase starts (R402): the slots of the block are gone. Rick block b is 128 + b. -/
def Recorder.startErase (r : Recorder) (b : Nat) : Recorder :=
  let r := { r with erasing := if r.erasing.contains b then r.erasing else r.erasing ++ [b] }
  if b < 128 then { r with granary := r.granary.filter (fun e => e.1 / 128 != b) }
  else { r with rick := r.rick.filter (fun e => e.1 / 128 != b - 128) }

/-- The Rick block that was written last: R404 finds it by the first slots of the blocks. -/
def Recorder.headBlock (r : Recorder) : Nat :=
  if r.rHead % 128 ≠ 0 then r.rHead / 128
  else
    let ks := (List.range rickBlocks).map (fun i => (r.rHead / 128 + rickBlocks - 1 - i) % rickBlocks)
    (ks.find? (fun k => !r.rickRetired.contains k)).getD 0

/-- The write enters the Rick's next slot: with a new block the one after it starts to erase (R402). -/
def Recorder.enterRick (r : Recorder) : Recorder :=
  if r.rHead % 128 = 0 then r.startErase (128 + r.blockAfter (r.rHead / 128)) else r

/-- A slot of an area in the order of writing. -/
def Recorder.inOrder (r : Recorder) (rick : Bool) : List (Nat × Slot) :=
  if rick then r.rick.filter (fun e => r.rHead ≤ e.1) ++ r.rick.filter (fun e => e.1 < r.rHead) else r.granary

/-- The records of a scan. -/
def validRecs (l : List (Nat × Slot)) : List EvRec := l.filterMap (fun e => match e.2 with | .valid r => some r | _ => none)

/-- The clear count (R408). -/
def Recorder.clears (r : Recorder) : Nat :=
  match r.granary.look 0 with
  | some (.valid e) => if e.code = Ev.eventCleared then e.p0 else 0
  | _ => 0

/-! ### Writing (R403, R408) -/

/-- The Granary takes the next record (R402, R407). -/
def Node.granaryTakes (n : Node) : Bool := decide (n.rcd.gHead < granarySlots) && !n.partRo 4

/-- A record takes the next sequence and starts to be programmed, Granary copy first when there is one (R398, R402, R403). -/
def Recorder.begin (r : Recorder) (e : EvRec) (granary : Bool) : Recorder :=
  let e := { e with seq := r.seq, flags := if granary then e.flags ||| 1#8 else e.flags }
  let r := { r with seq := (r.seq + 1) % 2 ^ 32, program := some (e, false, granary) }
  if granary then r else r.enterRick

/-- The first queued record a clear lets pass: those of R400. -/
def Recorder.urgent (r : Recorder) : Option EvRec := r.queue.find? (fun e => alwaysOn e.code)

/-- A clear of the Rick has erased a block, so that a record of R400 finds an erased slot (R408). -/
def Recorder.erasedOne (r : Recorder) (left : List Nat) : Bool := decide (left.length + r.rickRetired.length < rickBlocks)

/-- The controller takes the next record it may write. -/
def Node.takeRecord (n : Node) : Node :=
  let r := n.rcd
  let fromQueue (granary : Bool) (clear : ClearSt) : Node :=
    match r.queue with
    | e :: t => n.updRcd (fun r => { r with queue := t, clear := clear }.begin e granary)
    | [] => n
  match r.clear with
  | .none => fromQueue n.granaryTakes .none
  | .rickRecord sc k =>
    if 0 < k ∧ r.queue ≠ [] then fromQueue n.granaryTakes (.rickRecord sc (k - 1))
    else match r.clearRec with
      | some e =>
        let e := { e with seq := r.seq, flags := e.flags ||| 1#8 }
        n.updRcd (fun r => { r with clearRec := some e, seq := (r.seq + 1) % 2 ^ 32, program := some (e, false, false) }.enterRick)
      | none => n
  | .granaryRecord _ => n.updRcd (fun r => { r with program := r.clearRec.map (fun e => (e, false, true)) })
  | .rickAgain => n.updRcd (fun r => { r with program := r.clearRec.map (fun e => (e, false, false)) }.enterRick)
  | .granaryErase _ _ =>
    (match r.urgent with
     | some e => n.updRcd (fun r => { r with queue := r.queue.erase e }.begin e false)
     | none => n)
  | .rickErase ks =>
    (match r.urgent with
     | some e =>
       if r.erasedOne ks then
         n.updRcd (fun r => { r with queue := r.queue.erase e, seq := (r.seq + 1) % 2 ^ 32, program := some ({ e with seq := r.seq }, false, false) })
       else n
     | none => n)

/-- The clear is complete (R408). -/
def Node.clearDone (n : Node) : Node :=
  let w := n.rcd.clearWaiter
  let n := n.updRcd (fun r => { r with clear := .none, clearRec := none, clearWaiter := none })
  match w with | some m => n.ok m [] | none => n

/-- Step 4 of a clear begins: the Rick's blocks are erased in turn, from the one that holds the record of step 1, so that the Rick lacks
the record as soon as step 4 has begun (R408; the order of the blocks is a DESIGN CHOICE, log 41). -/
def Recorder.eraseRick (r : Recorder) : Recorder :=
  let b := (r.rick.find? (fun e => match e.2, r.clearRec with | .valid x, some y => x.seq == y.seq | _, _ => false)).elim r.headBlock (fun e => e.1 / 128)
  let ks := ((List.range rickBlocks).map (fun i => (b + i) % rickBlocks)).filter (fun k => !r.rickRetired.contains k)
  { r with clear := .rickErase ks, rHead := ks.headD b * 128 }.startErase (128 + ks.headD b)
/-- Step 2 of a clear begins. -/
def Recorder.eraseGranary (r : Recorder) (scope : Nat) : Recorder := { r with clear := .granaryErase scope 0 }.startErase 0

/-- The valid mark is written: the record is durable (R403, R408). -/
def Node.recordDurable (n : Node) (e : EvRec) (granary : Bool) : Node :=
  if granary then
    let n := n.updRcd (fun r => { r with granary := r.granary.put r.gHead (.valid e), gHead := r.gHead + 1, program := none })
    match n.rcd.clear with
    | .granaryRecord sc => if sc = 0 then n.clearDone else n.updRcd Recorder.eraseRick
    | _ => n.updRcd (fun r => { r with program := some (e, false, false) }.enterRick)
  else
    let n := n.updRcd (fun r => { r with rick := r.rick.put r.rHead (.valid e), rHead := r.slotAfter r.rHead, program := none })
    match n.rcd.clear with
    | .rickRecord sc _ => if n.rcd.clearRec = some e then n.updRcd (fun r => r.eraseGranary sc) else n
    | .rickAgain => if n.rcd.clearRec = some e then n.clearDone else n
    | _ => n

/-- A block erase ends; a clear goes on with the next block or its next record (R402, R408). -/
def Node.eraseDone (n : Node) (b : Nat) : Node :=
  let key := if b < 128 then 4 * 65536 + b else 5 * 65536 + (b - 128)
  let n := n.updHlth (fun h => { h with erases := h.erases.put key (h.erases.getD key 0 + 1) })
  n.updRcd (fun r =>
    let left := r.erasing.filter (· != b)
    let r := { r with erasing := left, eraseFirst := r.eraseFirst && !left.isEmpty }
    match r.clear with
    | .granaryErase sc k =>
      if b = k then (if k + 1 < 128 then { r with clear := .granaryErase sc (k + 1) }.startErase (k + 1)
                     else { r with clear := .granaryRecord sc, gHead := 0 })
      else r
    | .rickErase (k :: k' :: ks) => if b = 128 + k then { r with clear := .rickErase (k' :: ks) }.startErase (128 + k') else r
    | .rickErase _ => { r with clear := .rickAgain }
    | _ => r)

/-! ### Blocks (R495, R496) -/

/-- The Rick block `idx` is gone: a record that was being programmed into it enters the next one, and a clear that was erasing it goes on
(R402, R407). `o` is the recorder before. -/
def Recorder.reenter (r : Recorder) (idx : Nat) (o : Recorder) : Recorder :=
  let cut := match r.program with | some (_, _, false) => true | _ => false
  let r := if cut && o.rHead / 128 == idx then r.enterRick else r
  match r.clear with
  | .rickErase (k :: k' :: ks) =>
    if k = idx then { r with clear := .rickErase (k' :: ks) }.startErase (128 + k') else { r with clear := .rickErase ((k :: k' :: ks).filter (· != idx)) }
  | .rickErase [k] => if k = idx then { r with clear := .rickAgain } else r
  | _ => r

/-- The bit of read_only that partition `p` has (R499), none for the health map and the rest of the reserve. -/
def roBit (p : Nat) : Option Nat := if p ≤ 8 then some p else none

/-- The key of block `idx` of partition `p`. -/
def blockKey (p idx : Nat) : Nat := p * 65536 + idx

/-- The data unit `u` of a block is lost (R495; what a unit is follows the partition, log 41): a block of a silo reads free values, a
stored configuration part, a recipe, a record or a checkpoint half is gone, a copy of the boot pointer or health map is invalid. -/
def Node.loseUnit (n : Node) (p idx u : Nat) : Node :=
  let torn (t : Tbl Slot) : Tbl Slot := match t.look (128 * idx + u) with | some (.valid _) => t.put (128 * idx + u) .torn | _ => t
  let wipe (x : Silo) : Silo :=
    if 4096 * idx < x.bytes.length then
      { x with bytes := (patch x.bytes (4096 * idx) ((List.range 512).flatMap (fun j => leBytes 8 (Config.freeValue 20 (n.freeCtr + j)).toNat))).take x.bytes.length }
    else x
  if p = 0 then { n with sec := { n.sec with siloA := wipe n.sec.siloA }, freeCtr := n.freeCtr + 512 }
  else if p = 1 then { n with sec := { n.sec with siloB := wipe n.sec.siloB }, freeCtr := n.freeCtr + 512 }
  else if p = 2 then { n with stored := n.stored.del u }
  else if p = 3 then { n with rcp := { n.rcp with store := n.rcp.store.del u } }
  else if p = 4 then n.updRcd (fun r => { r with granary := torn r.granary })
  else if p = 5 then n.updRcd (fun r => { r with rick := torn r.rick })
  else if p = 6 then { n with cust := n.cust.setHalf (idx / 256) [] }
  else if p = 8 then
    { n with sec := (if idx = 0 then { n.sec with boot0 := { n.sec.boot0 with valid := false } }
                     else { n.sec with boot1 := { n.sec.boot1 with valid := false } }) }
  else if p = 9 then n.updHlth (fun h => if idx = 0 then { h with map0 := h.map0.map (fun _ => 0) } else { h with map1 := h.map1.map (fun _ => 0) })
  else n

/-- A permanent block (R496): replaced from the seed pool, or its partition acts as the table says; the health map is written last
(R487). A block is named by its index in its partition (DESIGN CHOICE, log 41). -/
def Node.retireBlock (n : Node) (p idx : Nat) : Node :=
  let key := blockKey p idx
  if n.hlth.lostBlocks.contains key then n
  else
    let n := n.updHlth (fun h => { h with failing := h.failing.del key, rewrite := h.rewrite.del key,
                                          retiredBlocks := h.retiredBlocks.put key (h.retiredBlocks.getD key 0 + 1) })
    if 0 < n.hlth.seedBlocks then
      let n := n.updHlth (fun h => { h with seedBlocks := h.seedBlocks - 1 }.mapWrite)
      n.log Ev.nvsBlockRetired idx p n.hlth.seedBlocks
    else
      let n := n.updHlth (fun h => { h with lostBlocks := key :: h.lostBlocks })
      let n := match roBit p with | some b => n.updHlth (fun h => { h with readOnly := h.readOnly ||| (1#16 <<< b) }) | none => n
      let n := if p = 5 then
          n.updRcd (fun r => { r with rickRetired := r.rickRetired ++ [idx], rick := r.rick.filter (fun e => e.1 / 128 != idx),
                                      erasing := r.erasing.filter (· != 128 + idx),
                                      rHead := if r.rHead / 128 = idx then r.blockAfter idx * 128 else r.rHead }.reenter idx r)
        else if p = 8 then n.loseUnit 8 idx 0
        else if p = 9 then n.updHlth (fun h => if idx = 0 then { h with map0 := none } else { h with map1 := none })
        else n
      n.mapWrite.log Ev.partitionReadOnly p 0 0

/-! ### Power-up (R404, R405, R408) -/

/-- The next sequence: one above the highest valid one, so that a torn record's is used again (R404). -/
def Recorder.nextSeq (r : Recorder) : Nat :=
  ((validRecs r.granary ++ validRecs r.rick).foldl (fun (b : Option Nat) e =>
    match b with | some s => if newer 32 e.seq s then some e.seq else b | none => some e.seq) none).elim 0 (fun s => (s + 1) % 2 ^ 32)

/-- A device reset: what is not durable is lost, a slot whose program was cut is torn, an erase that was cut is done again first (R404,
R484). A clear whose record was not durable yet is forgotten (R408). -/
def Recorder.atReset (r : Recorder) : Recorder :=
  let r := match r.program with
    | some (_, _, true) => { r with granary := r.granary.put r.gHead .torn, gHead := r.gHead + 1 }
    | some (_, _, false) => { r with rick := r.rick.put r.rHead .torn, rHead := r.slotAfter r.rHead }
    | none => r
  let cut := match r.clear with | .rickRecord _ _ => true | _ => false
  { r with queue := [], held := [], program := none, buckets := [], globalBucket := { tokens := 4096 * oneToken, at_ := 0 }, supp := [], suppressed := 0,
           torn := 0, queuePeak := 0, clearWaiter := none, seq := r.nextSeq, clear := if cut then .none else r.clear,
           clearRec := if cut then none else r.clearRec, eraseFirst := !r.erasing.isEmpty }

/-- The slots a power-up classifies: the Granary's last written block and the Rick's head block (R404). -/
def Recorder.scanned (r : Recorder) : List (Nat × Nat × Slot) :=
  (r.granary.filter (fun e => e.1 / 128 == (r.gHead - 1) / 128)).map (fun e => (0, e.1, e.2))
    ++ (r.rick.filter (fun e => e.1 / 128 == r.headBlock)).map (fun e => (1, e.1, e.2))

/-- A slot reads with a wrong CRC: it holds no record from here on (R404). -/
def Recorder.spoil (r : Recorder) (area k seq : Nat) : Recorder :=
  if area = 0 then { r with granary := r.granary.put k (.corrupt seq) } else { r with rick := r.rick.put k (.corrupt seq) }

/-- The slots of t3 are classified (R404, R495): torn ones are counted, corrupt ones logged; a second one in a Rick block retires it. A
corrupt slot that an earlier power-up found is logged again and is no new finding of its block. -/
def Node.slotScan (n : Node) : Node :=
  let bad (e : Nat × Nat × Slot) : Option Nat :=
    match e.2.2 with
    | .valid _ => Tbl.look n.rcd.wrongCrc (16384 * e.1 + e.2.1)
    | .corrupt s => some s
    | .torn => none
  let found := n.rcd.scanned
  let spoiled := found.filterMap (fun e => (bad e).map (fun s => (e.1, e.2.1, s, (match e.2.2 with | .valid _ => true | _ => false))))
  let n := n.updRcd (fun r => spoiled.foldl (fun r e => r.spoil e.1 e.2.1 e.2.2.1) r)
  let n := n.updRcd (fun r => { r with seq := r.nextSeq, torn := (found.filter (fun e => e.2.2 == .torn)).length })
  spoiled.foldl (fun n (e : Nat × Nat × Nat × Bool) =>
      let n := n.log Ev.recorderCorrupt e.1 e.2.1 e.2.2.1
      if e.1 = 1 ∧ e.2.2.2 then
        let b := e.2.1 / 128
        let k := n.hlth.corruptIn.getD b 0 + 1
        let n := n.updHlth (fun h => { h with corruptIn := h.corruptIn.put b k, rewrite := h.rewrite.put (blockKey 5 b) n.now })
        if 2 ≤ k then n.retireBlock 5 b else n
      else n) n

/-- EVENT_CLEAR_COMPLETION (R408): a clear that a reset cut is redone from its erase. -/
def Node.clearResume (n : Node) : Node :=
  match n.rcd.clear with
  | .none => n
  | .rickRecord _ _ => n
  | .granaryErase sc _ => n.updRcd (fun r => r.eraseGranary sc)
  | .granaryRecord sc => n.updRcd (fun r => r.eraseGranary sc)
  | .rickErase _ => n.updRcd (fun r => r.eraseRick)
  | .rickAgain => n.updRcd (fun r => r.eraseRick)

end Sys2Proof.Machine
end

