-- ==== Sys2Proof/Machine/Recorder.lean ====
section
/-! DEFINITION. The event recorder (18) and store findings (22): EVENT_READ, EVENT_CLEAR and RECORDER_STATUS (R406 to R408), the
store controller's steps (R402, R403), NVS_RETRY and NVS_REWRITE (R495, R496). -/

namespace Sys2Proof.Machine

/-- A clear runs (R408). -/
def Recorder.clearing (r : Recorder) : Bool := r.clear != .none

/-- The slots of a read from a start sequence (R406): what lies after the last record older than the start. -/
def fromStart (start : Nat) (l : List (Nat × Slot)) : List Slot :=
  l.foldl (fun (a : List Slot) e =>
    match e.2 with
    | .valid r => if r.seq = start ∨ newer 32 r.seq start then a ++ [e.2] else []
    | s => a ++ [s]) []

/-- Take up to `k` records in order, with the slots passed over on the way. -/
def takeRecs : Nat → List Slot → List EvRec × Nat
  | _, [] => ([], 0)
  | 0, _ => ([], 0)
  | k + 1, .valid r :: t => let (rs, c) := takeRecs k t; (r :: rs, c)
  | k + 1, _ :: t => let (rs, c) := takeRecs (k + 1) t; (rs, c + 1)

/-- EVENT_READ (R406). The oldest sequence of an empty area is a free value. -/
def execEventRead (path idx : Nat) (s : State) : Host.Outcome State Fault Refusal :=
  s.run fun n => n.hostCmd Cmd.eventRead path idx fun n m pl =>
    n.checked m [badLen pl 12, badIn (u8 pl 0) 0 1 0, badRes pl 1 3, badIn (u16 pl 8) 1 14 8, badRes pl 10 2, (n.rcd.clearing, Rs.busy, 0)]
      (let l := n.rcd.inOrder (u8 pl 0 == 1)
       let (rs, skipped) := takeRecs (u16 pl 8) (fromStart (u32 pl 4) l)
       let next := (rs.getLast?.map (fun r => (r.seq + 1) % 2 ^ 32)).getD (u32 pl 4)
       let (v, n) := n.free 9
       let oldest := ((validRecs l).head?.map EvRec.seq).getD (v.toNat % 2 ^ 32)
       n.ok m (leBytes 2 rs.length ++ leBytes 2 skipped ++ leBytes 4 next ++ leBytes 4 oldest ++ rs.flatMap EvRec.bytes))

/-- The owner key `id` of the host-key table (R74). -/
def Node.ownerKey (n : Node) (id : Nat) : Option (BitVec 512) :=
  match n.host.keys.find? (fun (e : Nat × Nat × Nat × BitVec 512) => e.2.1 == id) with
  | some (_, _, r, k) => if r = 3 then some k else none
  | none => none

/-- EVENT_CLEAR (R408). -/
def execEventClear (path idx : Nat) (s : State) : Host.Outcome State Fault Refusal :=
  s.run fun n => n.hostCmd Cmd.eventClear path idx fun n m pl =>
    let good := match n.ownerKey (u64 pl 16) with
      | some k => sm2Verify k (sm3 (slice pl 0 24)) (slice pl 24 64)
      | none => false
    n.checked m [badLen pl 88, badIn (u8 pl 12) 0 1 12, badRes pl 13 3, (n.rcd.clearing, Rs.busy, 0),
        (u64 pl 0 != Config.serial.toNat || u32 pl 8 != (n.rcd.clears + 1) % 2 ^ 32 || !good, Rs.clearTokenInvalid, 0)]
      (n.updRcd (fun r =>
        { r with clear := .rickRecord (u8 pl 12) r.queue.length, clearWaiter := some m,
                 clearRec := some { code := Ev.eventCleared, flags := if n.time.servo == .free then 8#8 else 0#8, suppressed := 0, seq := 0, t := n.now,
                                    p0 := u32 pl 8, p1 := u8 pl 12, p2 := u32 pl 16 } }))

/-- RECORDER_STATUS (R407). The newest sequence of an empty store is a free value. -/
def execRecorderStatus (path idx : Nat) (s : State) : Host.Outcome State Fault Refusal :=
  s.run fun n => n.hostCmd Cmd.recorderStatus path idx fun n m pl =>
    n.checked m [badLen pl 0, (n.rcd.clearing, Rs.busy, 0)]
      (let r := n.rcd
       let (v, n) := n.free 9
       let newest := if (validRecs r.rick).isEmpty then v.toNat % 2 ^ 32 else (r.nextSeq + 2 ^ 32 - 1) % 2 ^ 32
       let n := n.updRcd (fun r => { r with queuePeak := r.queue.length })
       n.ok m (leBytes 2 r.gHead ++ leBytes 1 (b2n (n.partRo 4) + 2 * b2n (n.partRo 5)) ++ [0] ++ leBytes 4 (131072 - 128 * r.rickRetired.length)
         ++ leBytes 4 newest ++ leBytes 4 r.clears ++ leBytes 4 r.suppressed ++ leBytes 4 r.torn ++ leBytes 2 r.queuePeak ++ [0, 0]))

/-! ### The store controller's steps -/

/-- The store controller works: with the Security island, and in a power-down whatever NRST does (R48, R400). -/
def Node.storeWorks (n : Node) : Bool := n.runs Isl.sec || n.power.stage == .downT1 || n.power.stage == .downT2

/-- STORE_RECORD_REQUEST (R400, R402, R403, R408). -/
def execStoreRecordRequest (s : State) : Host.Outcome State Fault Refusal :=
  s.run fun n => if n.storeWorks && n.rcd.program.isNone && !n.rcd.eraseFirst then n.takeRecord else n

/-- RECORD_PROGRAMMED (R403). -/
def execRecordProgrammed (s : State) : Host.Outcome State Fault Refusal :=
  s.run fun n => match n.rcd.program with
    | some (e, false, g) => n.updRcd (fun r => { r with program := some (e, true, g) })
    | _ => n

/-- RECORD_VALID_MARK_DONE (R403). -/
def execRecordValidMarkDone (s : State) : Host.Outcome State Fault Refusal :=
  s.run fun n => match n.rcd.program with
    | some (e, true, g) => n.recordDurable e g
    | _ => n

/-- BLOCK_ERASE_DONE (R402, R408): Granary block b is b, Rick block b is 128 + b. -/
def execBlockEraseDone (b : Nat) (s : State) : Host.Outcome State Fault Refusal :=
  s.run fun n => if n.rcd.erasing.contains b then n.eraseDone b else n

/-- NVS_RETRY (R495, R496): at `t` a failed program or erase of a block is retried, `ok` tells with what outcome; the third failure within
100 ms makes the block permanent. -/
def execNvsRetry (p idx : Nat) (t : T64) (ok : Bool) (s : State) : Host.Outcome State Fault Refusal :=
  s.run fun n =>
    let n := n.upTo t
    let key := blockKey p idx
    let old := (n.hlth.failing.look key).filter (fun e => decide (n.now ≤ e.2 + ms 100))
    let k := (old.map Prod.fst).getD 0 + 1
    if ok then n.updHlth (fun h => { h with failing := h.failing.del key })
    else if 3 ≤ k then n.retireBlock p idx
    else n.updHlth (fun h => { h with failing := h.failing.put key (k, (old.map Prod.snd).getD n.now) })

/-- NVS_REWRITE (R495): a read that failed the store's correction is retried; with `ok` the block is rewritten, else it is
permanent and its data unit `u` is lost. -/
def execNvsRewrite (p idx u : Nat) (ok : Bool) (s : State) : Host.Outcome State Fault Refusal :=
  s.run fun n =>
    if ok then
      let key := blockKey p idx
      n.updHlth (fun h => { h with rewrite := h.rewrite.del key, erases := h.erases.put key (h.erases.getD key 0 + 1) })
    else (n.loseUnit p idx u).retireBlock p idx

end Sys2Proof.Machine
end

