-- ==== Sys2Proof/Machine/SafetyOps.lean ====
section
/-! DEFINITION. The safety zone's operations (19): channels and zone states (R411, R416, R417), signals (R419), functions (R420
to R424), switches (R425, R426), connections (R429 to R436) and requests (R427, R428). A channel is named 0 for Safety A, 1 for
Safety B. What both channels see is logged once, by the channel that sees it first (log 42). -/

namespace Sys2Proof.Machine

/-- Channel `c`. -/
def Node.chan (n : Node) (c : Nat) : Channel := if c = 0 then n.safe.chA else n.safe.chB
/-- Write channel `c`. -/
def Node.setChan (n : Node) (c : Nat) (x : Channel) : Node :=
  { n with safe := if c = 0 then { n.safe with chA := x } else { n.safe with chB := x } }
/-- Change channel `c`. -/
def Node.updChan (n : Node) (c : Nat) (f : Channel → Channel) : Node := n.setChan c (f (n.chan c))
/-- Change the zone. -/
def Node.updSafe (n : Node) (f : Safety → Safety) : Node := { n with safe := f n.safe }
/-- The island of channel `c`. -/
def safeIsl (c : Nat) : Nat := if c = 0 then Isl.safeA else Isl.safeB
/-- Zone states, coded as R416. -/
def ZoneSt.code : ZoneSt → Nat
  | .stop => 0 | .two => 1 | .singleA => 2 | .singleB => 3
/-- Channel states, coded as R441. -/
def ChanSt.code : ChanSt → Nat
  | .run => 0 | .follower => 1 | .testing => 2 | .lost => 3
/-- Connection states, coded as R441. -/
def ConnSt.code : ConnSt → Nat
  | .safe => 0 | .valid => 1 | .degraded => 2
/-- SINGLE with channel `c` the survivor. -/
def singleOf (c : Nat) : ZoneSt := if c = 0 then .singleA else .singleB
/-- The zone is SINGLE. -/
def ZoneSt.isSingle (z : ZoneSt) : Bool := z == .singleA || z == .singleB
/-- The safety configuration in force, or the empty one. -/
def Node.sfCfg (n : Node) : SfCfg := n.safe.cfg.getD {}
/-- Function instance `i` of the configuration. -/
def SfCfg.func (g : SfCfg) (i : Nat) : SfFunc := g.funcs.getD i {}
/-- What a channel remembers of function `i`, signal `k` and connection `k`. -/
def Channel.fn (x : Channel) (i : Nat) : FunSt := x.funs.getD i {}
def Channel.sig (x : Channel) (k : Nat) : SigSt := x.sigs.getD k {}
def Channel.conn (x : Channel) (k : Nat) : ConnRec := x.conns.getD k {}
/-- Change them. -/
def Channel.updFn (x : Channel) (i : Nat) (f : FunSt → FunSt) : Channel := { x with funs := x.funs.put i (f (x.fn i)) }
def Channel.updSig (x : Channel) (k : Nat) (f : SigSt → SigSt) : Channel := { x with sigs := x.sigs.put k (f (x.sig k)) }
def Channel.updConn (x : Channel) (k : Nat) (f : ConnRec → ConnRec) : Channel := { x with conns := x.conns.put k (f (x.conn k)) }

/-- The channel whose outbound mailbox the firmware reads: A while it runs, else B (log 42). -/
def Safety.speaker (f : Safety) : Nat := if f.chA.st = .run then 0 else if f.chB.st = .run then 1 else 0

/-! ### Events (R427, R444) -/

/-- Channel `c` logs an event: the field cores take it from its event ring, where it waits out their restart; a full ring counts it
(R401, R427). -/
def Node.sfLog (n : Node) (c code p0 p1 p2 : Nat) : Node :=
  if n.host.restarting then
    let e := n.evRec n.now code p0 p1 p2
    if (n.chan c).ring.length < 8 then n.updChan c (fun x => { x with ring := x.ring ++ [{ e with flags := e.flags ||| 2#8 }] })
    else { n with rcd := n.rcd.suppress code }
  else n.log code p0 p1 p2

/-! ### Switches (R411, R425) -/

/-- Channel `c` commands its switches; what opens notes its instant, and the PO series switches follow (R411, R424). -/
def Node.sfSwitch (n : Node) (c : Nat) (sw : BitVec 5) : Node :=
  let x := n.chan c
  let opened := (List.range 5).filter (fun o => x.switches.getLsbD o && !sw.getLsbD o)
  let n := n.setChan c { x with switches := sw, openSince := opened.foldl (fun t o => t.put o n.now) x.openSince }
  let a := n.safe.chA.switches.toNat % 16
  let b := n.safe.chB.switches.toNat % 16
  { n with fio := { n.fio with series := BitVec.ofNat 8 (a + 16 * b) } }

/-- Every switch of channel `c` opens. -/
def Node.sfOpen (n : Node) (c : Nat) : Node := n.sfSwitch c 0

/-- Use 0 of PO0 to PO3 (R167): closed while VF24 is valid and the island runs, open at a power-down; STO stays off. -/
def Node.standardClosed (n : Node) (c : Nat) (o : Nat) : Bool :=
  decide (o < 4) && (n.sfCfg.outs.getD o {}).use == 0 && n.fieldPowered && !n.latchedOff && n.runs (safeIsl c) && n.power.stage.up

/-- A channel whose logic gives no commands of R425 holds its use-0 switches by R167 and the others open. -/
def Node.sfStandard (n : Node) (c : Nat) : Node :=
  n.sfSwitch c (BitVec.ofNat 5 (((List.range 5).filter (n.standardClosed c)).map (fun o => 2 ^ o)).sum)

/-- Every instance of a mask is in PERMIT. -/
def Channel.permits (x : Channel) (mask : BitVec 32) : Bool :=
  (List.range 32).all (fun i => !mask.getLsbD i || (x.fn i).permit)

/-- The switch commands of channel `c` by its own view (R425). -/
def Node.sfCommand (n : Node) (c : Nat) : BitVec 5 :=
  let x := n.chan c
  let live := n.safe.zone != .stop
  let closed (o : Nat) : Bool :=
    let r := n.sfCfg.outs.getD o {}
    match r.use with
    | 0 => n.standardClosed c o
    | 1 => live && x.permits r.mask
    | 2 => live && (x.fn r.owner).unlocked
    | _ => live && (x.fn r.owner).torque && x.permits r.mask
  BitVec.ofNat 5 (((List.range 5).filter closed).map (fun o => 2 ^ o)).sum

/-! ### Zone states (R416) -/

/-- A zone state is entered; a change is logged (R416, R444). -/
def Node.zoneEnter (n : Node) (z : ZoneSt) (cause : Nat) : Node :=
  let old := n.safe.zone
  let n := n.updSafe (fun f => { f with zone := z, cause := if z = .stop then cause else f.cause, auto := f.auto && z == .stop })
  if z = old then n else n.sfLog n.safe.speaker Ev.safetyState z.code old.code cause

/-- What a function keeps through STOP: a demand, a fault and an unlock request that waits (log 42). -/
def FunSt.atStop (x : FunSt) (now : T64) : FunSt :=
  { x with permit := false, wait := false, restarted := false, bothZero := false, rise0 := none, rise1 := none,
           unlocked := false, lockAt := if x.unlocked then now else x.lockAt, torqueReq := false, torque := false,
           offSince := if x.torque then now else x.offSince }

/-- The zone enters STOP (R416): every safe, lock and brake output and STO open. -/
def Node.zoneStop (n : Node) (cause : Nat) : Node :=
  let halt (x : Channel) : Channel := { x with tested := x.tested && n.safe.zone == .stop, funs := x.funs.mapE (fun _ f => f.atStop n.now) }
  let n := n.updSafe (fun f => { f with chA := halt f.chA, chB := halt f.chB, restartReq := false })
  let n := n.zoneEnter .stop cause
  (List.range 2).foldl (fun n c => n.sfSwitch c ((n.chan c).switches &&& n.sfCommand c)) n

/-- Channel `c` has failed (R416): `follows` tells whether its follower answers (R417). Without one its switches of R425 open; those of
use 0 stay by R167 while its island runs. -/
def Node.chanGone (n : Node) (c : Nat) (follows : Bool) : Node :=
  let other := 1 - c
  let n := n.updChan c (fun x => { x with st := if follows then .follower else .lost, tested := false })
  let n := if follows then n else n.sfStandard c
  match n.safe.zone with
  | .two =>
    if follows ∧ (n.chan other).st = .run then
      (n.updSafe (fun f => { f with fallbackEnd := n.now + ms (60000 * n.sfCfg.fallback) })).zoneEnter (singleOf other) 3
    else n.zoneStop 3
  | .stop => n
  | z => if z = singleOf c then n.zoneStop 3 else n.zoneStop 5

/-- A channel declares itself failed (R415, R444). -/
def Node.chanFault (n : Node) (c cause detail : Nat) : Node :=
  let n := (n.sfLog c Ev.safetyChannelFault c cause detail).chanGone c (cause != 6 && n.runs (safeIsl c))
  if cause = 6 then n.sfOpen c else n

/-! ### Signals (R412, R419) -/

/-- A land's filtered reading after one 50 µs sample. -/
def filterLand (f : Nat) (old : Bool) (run : Nat) (v : Bool) : Bool × Nat :=
  if v = old then (old, 0) else if 10 * f ≤ run then (v, 0) else (old, run + 1)

/-- One sample of the comparators goes through the filters of channel `c`; a FAULT latch clears once both lands show the 0 state of the
mode together (R419). -/
def Channel.filterAll (x : Channel) (g : SfCfg) (now : T64) : Channel :=
  (List.range 16).foldl (fun x k =>
    let r := g.signals.getD k {}
    if r.landA = 0xFF then x
    else
      let s := x.sig k
      let (a, ra) := filterLand r.filter s.a s.runA (x.lands.getLsbD r.landA)
      let (b, rb) := filterLand r.filter s.b s.runB (x.lands.getLsbD r.landB)
      let odd := (r.mode == 1 && a != b) || (r.mode == 2 && a == b)
      let zero := !a && (if r.mode = 2 then b else !b)
      x.updSig k (fun s => { s with a := a, b := b, runA := ra, runB := rb, disFrom := if odd then some (s.disFrom.getD now) else none,
                                    fault := s.fault && !zero })) x

/-- The signals a channel takes at a cycle (R413, R419). -/
def Channel.takeSignals (x : Channel) (g : SfCfg) : Channel :=
  (List.range 16).foldl (fun x k =>
    let r := g.signals.getD k {}
    if r.landA = 0xFF then x
    else x.updSig k (fun s =>
      let v := s.a && (if r.mode = 1 then s.b else if r.mode = 2 then !s.b else true)
      { s with value := v && !s.fault })) x

/-! ### Sources (R420) -/

/-- Kind of a source: 0 none, 1 signal, 2 connection bit. -/
def srcKind (s : BitVec 16) : Nat := s.toNat / 2 ^ 14
/-- Connection and bit of a source. -/
def srcConn (s : BitVec 16) : Nat := field s.toNat 11 8
def srcBit (s : BitVec 16) : Nat := field s.toNat 4 0
/-- Signal of a source. -/
def srcSig (s : BitVec 16) : Nat := field s.toNat 3 0
/-- What a source reads in a channel. -/
def Channel.reads (x : Channel) (s : BitVec 16) : Bool :=
  if srcKind s = 1 then (x.sig (srcSig s)).value else if srcKind s = 2 then (x.conn (srcConn s)).data.getLsbD (srcBit s) else false
/-- Source `s` moved up by `k`: the level flags (R421). -/
def srcPlus (s : BitVec 16) (k : Nat) : BitVec 16 := s + BitVec.ofNat 16 k
/-- The flag of level `k` in a channel. -/
def Channel.flagAt (x : Channel) (f : SfFunc) (k : Nat) : Bool := x.reads (srcPlus f.src0 k)
/-- Sources a function uses. -/
def SfFunc.sources (f : SfFunc) : List (BitVec 16) :=
  if f.code = 5 then (List.range f.src1.toNat).map (srcPlus f.src0) else [f.src0, f.src1, f.src2]
/-- Sources that must read 1 for PERMIT. -/
def SfFunc.needs (f : SfFunc) : List (BitVec 16) :=
  if f.code = 2 then (if srcKind f.src1 = 0 then [f.src0] else [f.src0, f.src1]) else if f.code = 3 then [f.src0, f.src1]
  else if f.code = 5 then [] else [f.src0]

/-! ### Functions (R421 to R424) -/

/-- The lock of a GUARD reads other than it should (R424). -/
def Channel.lockWrong (x : Channel) (f : SfFunc) (i : Nat) (now : T64) : Bool :=
  let y := x.fn i
  let locked := x.reads f.src1
  f.code == 2 && srcKind f.src1 != 0 &&
    (if y.unlocked then locked && decide (y.lockAt + ms f.time0 ≤ now)
     else x.reads f.src0 && !locked && decide (max y.lockAt y.closedAt + ms f.time0 ≤ now))
/-- A source's signal has its FAULT latch set. -/
def Channel.srcFault (x : Channel) (f : SfFunc) : Bool := f.sources.any (fun s => srcKind s == 1 && (x.sig (srcSig s)).fault)

/-- The reset signal of ESTOP and CURTAIN falls after 0.1 to 5 s at 1 (R423): whether it gives the restart, and the new mark. -/
def Channel.resetFall (x : Channel) (f : SfFunc) (y : FunSt) (now : T64) : Bool × Option T64 :=
  if (f.code = 1 ∨ f.code = 4) ∧ srcKind f.src1 ≠ 0 then
    if x.reads f.src1 then (false, some (y.resetFrom.getD now))
    else (match y.resetFrom with | some t => decide (t + ms 100 ≤ now ∧ now ≤ t + sec 5) | none => false, none)
  else (false, none)

/-- TWO_HAND at a cycle (R421): the state after it, and whether the second hand came too late. -/
def FunSt.twoHand (y : FunSt) (l r : Bool) (now : T64) : FunSt × Bool :=
  if y.permit then
    (if l && r then y else { y with permit := false, demand := true, bothZero := !l && !r, rise0 := none, rise1 := none }, false)
  else if !l && !r then ({ y with bothZero := true, rise0 := none, rise1 := none }, false)
  else
    let y := { y with rise0 := if l then some (y.rise0.getD now) else none, rise1 := if r then some (y.rise1.getD now) else none }
    if l && r && y.bothZero then
      let d := ((y.rise0.getD now : Int) - (y.rise1.getD now : Int)).natAbs
      if d ≤ ms 500 then ({ y with permit := true, demand := false, bothZero := false }, false)
      else ({ y with bothZero := false }, true)
    else (y, false)

/-- A function other than TWO_HAND and LIFT_INTERLOCK at a cycle (R421, R423). -/
def Channel.judgeFn (x : Channel) (f : SfFunc) (i : Nat) (now : T64) : FunSt :=
  let y := x.fn i
  let bad := x.srcFault f || x.lockWrong f i now
  let y := { y with fault := y.fault || bad, closedAt := if x.reads f.src0 && !y.closed then now else y.closedAt, closed := x.reads f.src0 }
  let (fell, mark) := x.resetFall f y now
  let y := { y with resetFrom := mark }
  let ok := f.needs.all x.reads
  if !ok || bad then { y with permit := false, wait := false, demand := y.demand || y.permit || !ok || bad }
  else if y.permit && !y.fault then y
  else if y.fault then { y with permit := false, demand := false, wait := true, fault := !fell, restarted := fell }
    |> fun z => if fell then { z with permit := true, wait := false } else z
  else if f.manual && !fell then { y with demand := false, wait := true }
  else { y with permit := true, demand := false, wait := false }

/-- The GUARDs of a lift. -/
def SfCfg.guardsOf (g : SfCfg) (lift : Nat) : List (Nat × SfFunc) := g.funcs.filter (fun e => e.2.code == 2 && e.2.lift == lift)

/-- LIFT_INTERLOCK at a cycle (R423): MOVE_PERMIT is its PERMIT. `live` tells that the zone is TWO or SINGLE; `before` is the
channel before the GUARDs were judged. -/
def Channel.judgeLift (x before : Channel) (g : SfCfg) (f : SfFunc) (i : Nat) (live : Bool) (now : T64) : FunSt :=
  let y := x.fn i
  let guards := g.guardsOf f.lift
  let left := y.torque && guards.any (fun e => (before.fn e.1).permit && !(x.fn e.1).permit)
  let flags := ((List.range f.src1.toNat).filter (fun k => x.flagAt f k)).map (fun k => 2 ^ k)
  let fl := BitVec.ofNat 16 flags.sum
  let fellOpen := guards.any (fun e => y.flags.getLsbD e.2.level && !fl.getLsbD e.2.level && (x.fn e.1).unlocked)
  let demand := y.demand || left || fellOpen
  let permit := guards.all (fun e => (x.fn e.1).permit) && !demand
  let torque := y.torqueReq && permit && live
  { y with flags := fl, demand := demand, permit := permit, torque := torque, offSince := if y.torque && !torque then now else y.offSince }

/-- UNLOCK_PERMIT for level `k` (R423). -/
def Channel.unlockPermit (x : Channel) (f : SfFunc) (i k : Nat) (now : T64) : Bool :=
  let y := x.fn i
  !y.torque && decide (y.offSince + ms f.time1 ≤ now) && x.flagAt f k && !y.demand

/-- The unlock condition of GUARD `i` (R424). -/
def Node.unlockOk (n : Node) (c i : Nat) (now : T64) : Bool :=
  let g := n.sfCfg
  let x := n.chan c
  let f := g.func i
  if f.lift ≠ 0xFF then
    match g.funcs.find? (fun (e : Nat × SfFunc) => e.2.code == 5 && e.2.lift == f.lift) with
    | some e => x.unlockPermit e.2 e.1 f.level now
    | none => false
  else (List.range 5).all (fun o =>
    let r := g.outs.getD o {}
    !(r.use == 1 && r.mask.getLsbD i) || (!x.switches.getLsbD o && decide (x.openSince.getD o 0 + ms f.time1 ≤ now)))

/-- The value of function `i` in channel `c` (R422). -/
def Node.fnValue (n : Node) (c i : Nat) (now : T64) : Nat :=
  let f := n.sfCfg.func i
  let x := n.chan c
  let y := x.fn i
  if f.code = 0 then 0
  else if f.code = 5 then
    b2n y.permit + 2 * b2n y.demand + (((List.range f.src1.toNat).filter (fun k => x.unlockPermit f i k now)).map (fun k => 2 ^ (16 + k))).sum
  else
    let deg := f.sources.any (fun s => srcKind s == 2 && (x.conn (srcConn s)).st == .degraded)
    b2n y.permit + 2 * b2n y.demand + 4 * b2n y.wait + 8 * b2n y.fault + 16 * b2n deg + 32 * b2n (f.code == 4 && !x.reads f.src0)

/-- A demand of instance `i` that channel `c` sees first is logged (R423, R444; log 42). -/
def Node.demandLog (n : Node) (c i cause : Nat) (already : Bool) : Node :=
  if already || ((n.chan (1 - c)).fn i).demand && (n.chan (1 - c)).st == .run then n
  else n.sfLog c Ev.safetyDemand i (n.fnValue c i n.now) cause

/-- Every function of channel `c` is evaluated (R413): the LIFT_INTERLOCKs after the others. -/
def Node.evalFuncs (n : Node) (c : Nat) (now : T64) : Node :=
  let g := n.sfCfg
  let before := n.chan c
  let n := g.funcs.foldl (fun n e =>
    let i := e.1
    let f := e.2
    let x := n.chan c
    let old := x.fn i
    if f.code = 0 ∨ f.code = 5 then n
    else if f.code = 3 then
      let (y, late) := old.twoHand (x.reads f.src0) (x.reads f.src1) now
      let n := n.setChan c (x.updFn i (fun _ => y))
      if late then n.demandLog c i 2 false else if y.demand then n.demandLog c i 0 old.demand else n
    else
      let y := x.judgeFn f i now
      let n := n.setChan c (x.updFn i (fun _ => y))
      if y.fault ∧ !old.fault then n.demandLog c i 1 false else if y.demand then n.demandLog c i 0 old.demand else n) n
  g.funcs.foldl (fun n e =>
    if e.2.code = 5 then
      let x := n.chan c
      let y := x.judgeLift before g e.2 e.1 (n.safe.zone != .stop) now
      let n := n.setChan c (x.updFn e.1 (fun _ => y))
      if y.demand then n.demandLog c e.1 0 (x.fn e.1).demand else n
    else n) n

/-! ### Requests (R423, R424, R427, R428) -/

/-- A response is written to the outbound mailbox, which keeps eight. -/
def Channel.respond (x : Channel) (seq status : Nat) : Channel := { x with responses := ((seq, status) :: x.responses).take 8 }

/-- The zone can restart (R416): both channels in RUN, or in the start tests of this restart, the records of the last cycle compared and
matching, a configuration in force, no power-down. -/
def Node.zoneReady (n : Node) : Bool :=
  let ok (x : Channel) : Bool :=
    (x.st == .run || (x.st == .testing && n.safe.restartReq)) && decide (x.cycleAt ≤ x.recAt + us n.sfCfg.cycle)
  n.power.stage.up && n.safe.zone == .stop && n.safe.cfg.isSome && ok n.safe.chA && ok n.safe.chB && n.safe.mismatch.isEmpty

/-- Channel `c` goes through its start tests for a zone restart (R415, R416). -/
def Node.beginTests (n : Node) (c : Nat) : Node :=
  (n.updSafe (fun s => { s with restartReq := true })).updChan c (fun x => { x with st := .testing, tested := false })

/-- A restart of instance `i` (R423): the status, and the function after it. -/
def Channel.restartFn (x : Channel) (f : SfFunc) (i : Nat) (now : T64) : Nat × FunSt :=
  let y := x.fn i
  if f.code = 5 then (Rs.ok, { y with demand := false })
  else if y.permit then (Rs.ok, y)
  else if y.wait && f.needs.all x.reads && !x.srcFault f && !x.lockWrong f i now then
    (Rs.ok, { y with permit := true, wait := false, demand := false, fault := false, restarted := true })
  else (Rs.busy, y)

/-- An unlock request that a later UNLOCK or LOCK of its GUARD overtakes is answered BUSY (log 42). -/
def Node.dropUnlock (n : Node) (c i : Nat) : Node :=
  match ((n.chan c).fn i).unlockReq with
  | some (q, _) => n.updChan c (fun x => (x.updFn i (fun y => { y with unlockReq := none })).respond q Rs.busy)
  | none => n

/-- Channel `c` carries out one request; `stopped` tells that a stop came in the same cycle (R428, R442). -/
def Node.sfServe (n : Node) (c : Nat) (r : SfReq) (stopped : Bool) (now : T64) : Node :=
  let g := n.sfCfg
  let f := g.func r.target
  let x := n.chan c
  let say (n : Node) (st : Nat) : Node := n.updChan c (fun x => x.respond r.seq st)
  let live := n.safe.zone != .stop
  match r.code with
  | 1 => if f.code = 5 then say (n.setChan c (x.updFn r.target (fun y => { y with torqueReq := true }))) Rs.ok else say n Rs.notFound
  | 2 => if f.code = 5 then
      say (n.setChan c (x.updFn r.target (fun y => { y with torqueReq := false, torque := false, offSince := if y.torque then now else y.offSince }))) Rs.ok
    else say n Rs.notFound
  | 3 => if f.code ≠ 2 then say n Rs.notFound
    else
    let n := n.dropUnlock c r.target
    if live && n.unlockOk c r.target now then
      say (n.updChan c (fun x => x.updFn r.target (fun y => { y with unlocked := true, lockAt := if y.unlocked then y.lockAt else now }))) Rs.ok
    else n.updChan c (fun x => x.updFn r.target (fun y => { y with unlockReq := some (r.seq, now) }))
  | 4 => if f.code ≠ 2 then say n Rs.notFound
    else
      let n := n.dropUnlock c r.target
      say (n.updChan c (fun x => x.updFn r.target (fun y => { y with unlocked := false, unlockReq := none, lockAt := if y.unlocked then now else y.lockAt }))) Rs.ok
  | 5 =>
    if r.target = 0xFF then
      if !stopped && n.zoneReady then
        say (n.beginTests c) Rs.ok
      else say n Rs.busy
    else if f.code = 0 then say n Rs.notFound
    else if stopped || !live then say n Rs.busy
    else
      let (st, y) := x.restartFn f r.target now
      say (n.setChan c (x.updFn r.target (fun _ => y))) st
  | 6 => say (if live then n.zoneStop 1 else n) Rs.ok
  | _ => say (n.updChan c (fun x => { x with notice := true, conns := x.conns.mapE (fun k y => if (g.consumed.getD k {}).holdOk then { y with hold1 := true, hold2 := true } else y) })) Rs.ok

/-- Pending unlock requests whose condition is met now are granted (R424). -/
def Node.grantUnlocks (n : Node) (c : Nat) (now : T64) : Node :=
  (n.chan c).funs.foldl (fun n e =>
    match ((n.chan c).fn e.1).unlockReq with
    | some (q, _) =>
      if n.safe.zone != .stop && n.unlockOk c e.1 now then
        n.updChan c (fun x => (x.updFn e.1 (fun y => { y with unlocked := true, unlockReq := none, lockAt := now })).respond q Rs.ok)
      else n
    | none => n) n

/-- Channel `c` serves its inbound requests, a stop before the others (R442). -/
def Node.sfServeAll (n : Node) (c : Nat) (now : T64) : Node :=
  let inbox := (n.chan c).inbox
  let stops := inbox.filter (fun r => r.code == 6)
  let rest := inbox.filter (fun r => r.code != 6)
  let n := n.updChan c (fun x => { x with inbox := [] })
  (stops ++ rest).foldl (fun n r => n.sfServe c r (!stops.isEmpty) now) n

/-! ### Safe frames (R429, R430) -/

/-- Bytes 0 to 27 of a safe frame. -/
def SafeFrame.body (f : SafeFrame) : List Byte :=
  leBytes 2 f.connId ++ [f.fflags, 0] ++ leBytes 4 f.seq ++ leBytes 8 f.t ++ leBytes 2 f.watchdog ++ [0, 0] ++ leBytes 4 f.data.toNat
    ++ leBytes 4 f.ndata.toNat
/-- The crc of a copy on a path between two addresses (R430). -/
def SafeFrame.crcOf (f : SafeFrame) (producer consumer : Nat) (path2 : Bool) : BitVec 32 :=
  let b := leBytes 2 producer ++ leBytes 2 consumer ++ f.body
  if path2 then crc32 b else crc32c b
/-- The 32 bytes of a safe frame. -/
def SafeFrame.bytes (f : SafeFrame) : List Byte := f.body ++ leBytes 4 f.crc.toNat
/-- A safe frame out of 32 bytes. -/
def SafeFrame.ofBytes (b : List Byte) : SafeFrame :=
  { connId := u16 b 0, fflags := BitVec.ofNat 8 (u8 b 2), seq := u32 b 4, t := u64 b 8, watchdog := u16 b 16, data := BitVec.ofNat 32 (u32 b 20),
    ndata := BitVec.ofNat 32 (u32 b 24), crc := BitVec.ofNat 32 (u32 b 28) }
/-- The data a copy gives: 0 with STOP (R434). -/
def SafeFrame.gives (f : SafeFrame) : BitVec 32 := if f.fflags.getLsbD 3 then 0 else f.data

/-- The copy of produced connection `p` that a channel builds for a path (R429). -/
def Node.buildCopy (n : Node) (c : Nat) (p : SfConn) (path2 : Bool) (now : T64) : SafeFrame :=
  let x := n.chan c
  let z := n.safe.zone
  let permits := (((List.range 32).filter (fun i => (x.fn i).permit)).map (fun i => 2 ^ i)).sum
  let data := if z = .stop then 0 else BitVec.ofNat 32 permits &&& p.content
  let fl := b2n path2 + 2 * b2n z.isSingle + 4 * b2n x.notice + 8 * b2n (z == .stop)
  let f : SafeFrame := { connId := p.connId, fflags := BitVec.ofNat 8 fl, seq := n.safe.cycles, t := now, watchdog := p.watchdog, data := data,
                         ndata := ~~~data, crc := 0 }
  { f with crc := f.crcOf n.addr p.peer path2 }

/-- The produced copies of a cycle: A builds path 1, B path 2, a survivor both; the second of a survivor's copies of connection
p has key 16 + p (R418, R430). -/
def Node.produceCopies (n : Node) (c : Nat) (now : T64) : Node :=
  let own := n.sfCfg.produced.foldl (fun (t : Tbl SafeFrame) e =>
    if e.2.used then
      let t := t.put e.1 (n.buildCopy c e.2 (c == 1) now)
      if n.safe.zone = singleOf c then t.put (16 + e.1) (n.buildCopy c e.2 (c == 0) now) else t
    else t) []
  n.updChan c (fun x => { x with outCopies := own, notice := false })

/-! ### Consumed connections (R433 to R436) -/

/-- Line time is VALID (R304). -/
def Node.timeValid (n : Node) : Bool := n.time.servo == .locked || n.time.servo == .holdover

/-- The newest copy of a path is fresh (R433, R436); `hold` tells that the consumer's own notice extends it. -/
def Node.copyFresh (n : Node) (r : SfConn) (hold : Bool) (l : List SafeFrame) (now : T64) : Bool :=
  match l with
  | f :: _ =>
    let ext := if r.holdOk && (f.fflags.getLsbD 2 || hold) then ms 160 else 0
    n.timeValid && decide (f.t ≤ now + ms 1 ∧ now ≤ f.t + ms r.watchdog + ext)
  | [] => false

/-- A channel accepts a copy of consumed connection `k` on a path (R433), or counts it as discarded. -/
def Node.acceptCopy (n : Node) (c k : Nat) (path2 : Bool) (f : SafeFrame) : Node :=
  let r := n.sfCfg.consumed.getD k {}
  let x := n.chan c
  let y := x.conn k
  let l := if path2 then y.path2 else y.path1
  let newest := match l with | h :: _ => newer 32 f.seq h.seq | [] => true
  if r.used && f.crc == f.crcOf r.peer n.addr path2 && f.fflags.getLsbD 0 == path2 && f.connId == r.connId && f.ndata == ~~~f.data
      && f.watchdog == r.watchdog && newest then
    let l := (f :: l).take 8
    n.setChan c (x.updConn k (fun y => if path2 then { y with path2 := l, hold2 := false } else { y with path1 := l, hold1 := false }))
  else n.setChan c (x.updConn k (fun y => { y with discarded := y.discarded + 1 }))

/-- SAFE_CONN, logged by the channel that sees the change first (R434, R444; log 42). -/
def Node.connLog (n : Node) (c k : Nat) (st : ConnSt) (cause : Nat) : Node :=
  if ((n.chan (1 - c)).conn k).st = st ∧ (n.chan (1 - c)).st = .run then n else n.sfLog c Ev.safeConn k st.code cause

/-- A connection leaves DEGRADED: its timer keeps what it counted (R435). -/
def ConnRec.leave (y : ConnRec) (now : T64) : ConnRec :=
  if y.st = .degraded then { y with degraded := y.degraded + (now - y.degFrom), degLeft := now } else y

/-- A connection becomes SAFE (R434, R435). -/
def Node.connSafe (n : Node) (c k cause : Nat) (now : T64) : Node :=
  let y := (n.chan c).conn k
  let n := n.updChan c (fun x => x.updConn k (fun y => { y.leave now with st := .safe, data := 0, matching := (0, 0) }))
  if y.st = .safe then n else n.connLog c k .safe cause

/-- A VALID connection becomes DEGRADED (R434, R435): the timer goes on when it was left less than 60 s ago. The cause of this
change is a free value. -/
def Node.connDegrade (n : Node) (c k : Nat) (data : BitVec 32) (now : T64) : Node :=
  let y := (n.chan c).conn k
  match y.st with
  | .valid =>
    let n := n.updChan c (fun x => x.updConn k (fun y =>
      { y with st := .degraded, data := data, degFrom := now, degraded := if now ≤ y.degLeft + ms 60000 then y.degraded else 0, matching := (0, 0) }))
    let (v, n) := n.free 10
    n.connLog c k .degraded v.toNat
  | .degraded => n.updChan c (fun x => x.updConn k (fun y => { y with data := data, matching := (0, 0) }))
  | .safe => n

/-- Both paths are fresh and agree (R434). -/
def Node.connAgree (n : Node) (c k seq : Nat) (data : BitVec 32) (now : T64) : Node :=
  let y := (n.chan c).conn k
  if y.st = .valid then n.updChan c (fun x => x.updConn k (fun y => { y with data := data }))
  else
    let cnt := if y.matching.1 = 0 then 1 else if newer 32 seq y.matching.2 then y.matching.1 + 1 else y.matching.1
    if 3 ≤ cnt then
      (n.updChan c (fun x => x.updConn k (fun y => { y.leave now with st := .valid, data := data, matching := (0, 0) }))).connLog c k .valid 3
    else n.updChan c (fun x => x.updConn k (fun y => { y with matching := (cnt, seq), data := if y.st = .degraded then data else 0 }))

/-- One consumed connection at a cycle (R434). -/
def Node.judgeConn (n : Node) (c k : Nat) (now : T64) : Node :=
  let r := n.sfCfg.consumed.getD k {}
  let y := (n.chan c).conn k
  let f1 := n.copyFresh r y.hold1 y.path1 now
  let f2 := n.copyFresh r y.hold2 y.path2 now
  match y.path1, y.path2 with
  | a :: _, b :: _ =>
    if f1 && f2 then
      match y.path1.find? (fun (f : SafeFrame) => y.path2.any (fun (g : SafeFrame) => g.seq == f.seq)) with
      | some f =>
        let g := (y.path2.find? (fun (g : SafeFrame) => g.seq == f.seq)).getD f
        if f.gives = g.gives then n.connAgree c k f.seq (a.gives &&& b.gives) now else n.connSafe c k 2 now
      | none => if newer 32 a.seq b.seq then n.connDegrade c k a.gives now else n.connDegrade c k b.gives now
    else if f1 then n.connDegrade c k a.gives now
    else if f2 then n.connDegrade c k b.gives now
    else n.connSafe c k 0 now
  | a :: _, [] => if f1 then n.connDegrade c k a.gives now else n.connSafe c k 0 now
  | [], b :: _ => if f2 then n.connDegrade c k b.gives now else n.connSafe c k 0 now
  | [], [] => n.connSafe c k 0 now

/-- Every used consumed connection at a cycle. -/
def Node.judgeConns (n : Node) (c : Nat) (now : T64) : Node :=
  n.sfCfg.consumed.foldl (fun n e => if e.2.used then n.judgeConn c e.1 now else n) n

/-! ### Outputs watched (R426) -/

/-- The comparator land of output `o` in a channel: PO0 to PO3, then its STO land. -/
def outLand (c o : Nat) : Nat := if o < 4 then 16 + o else 20 + c

/-- Opened switches whose land still reads 1 for 2 cycles (R426). -/
def Node.watchOutputs (n : Node) (c : Nat) : Node :=
  (List.range 5).foldl (fun n o =>
    let x := n.chan c
    if !x.switches.getLsbD o && x.lands.getLsbD (outLand c o) then
      let k := x.stuck.getD o 0 + 1
      let n := n.setChan c { x with stuck := x.stuck.put o k }
      if 2 ≤ k ∧ !x.outFault.getLsbD o then
        ((n.updChan c (fun x => { x with outFault := x.outFault ||| (1#5 <<< o) })).sfLog c Ev.safetyOutputFault o c 0).zoneStop 3
      else n
    else n.setChan c { x with stuck := x.stuck.del o }) n

/-! ### Compare records (R414) -/

/-- The items of a compare record as numbers, in the order of R414: cycle, instant and digest, which tells the firmware versions apart too
(R475), signals, function values, switches,
connections, requests. -/
def Node.compareItems (n : Node) (c : Nat) : List (Nat × Nat) :=
  let x := n.chan c
  let sigs := (((List.range 16).filter (fun k => (x.sig k).value)).map (fun k => 2 ^ k)).sum
  let vals := ((List.range 32).map (fun i => (x.values.getD i 0).toNat * 2 ^ (32 * i))).sum
  let perm := (((List.range 32).filter (fun i => (x.values.getD i 0).getLsbD 0)).map (fun i => 2 ^ i)).sum
  let conns := ((List.range 12).map (fun k => ((x.conn k).data.toNat * 4 + (x.conn k).st.code) * 2 ^ (34 * k))).sum
  let cst := ((List.range 12).map (fun k => (x.conn k).st.code * 4 ^ k)).sum
  let reqs := (x.responses.map (fun r => r.1 * 65536 + r.2)).foldl (fun a v => a * 2 ^ 48 + v) 0
  [(x.cycleAt * 2 ^ 32 + (n.island (safeIsl c)).version.toNat, x.cycleAt % 2 ^ 32), (sigs, sigs), (vals, perm), (x.switches.toNat, x.switches.toNat), (conns, cst),
   (reqs, (x.responses.head?.map Prod.fst).getD 0)]

/-- Cycles an item may differ (R414). -/
def allowance (item : Nat) : Nat := if item = 0 then 0 else 2

/-- Channel `c` compares the partner's record with its own of the same cycle, once (R414); before both have it there is nothing to
compare. -/
def Node.compareRecords (n : Node) (c : Nat) : Node :=
  let a := n.compareItems 0
  let b := n.compareItems 1
  if n.safe.chA.cycleAt ≠ n.safe.chB.cycleAt then n
  else
   let n := n.updChan c (fun x => { x with recAt := x.cycleAt })
   (List.range 6).foldl (fun n k =>
    let x := a.getD k (0, 0)
    let y := b.getD k (0, 0)
    let key := 8 * c + k
    if x.1 = y.1 then n.updSafe (fun f => { f with mismatch := f.mismatch.del key })
    else
      let m := n.safe.mismatch.getD key 0 + 1
      let n := n.updSafe (fun f => { f with mismatch := f.mismatch.put key m })
      if allowance k < m ∧ n.safe.zone = .two then (n.sfLog c Ev.crossMismatch k x.2 y.2).zoneStop 2 else n) n

end Sys2Proof.Machine
end

