-- ==== Sys2Proof/Machine/SafetyConfig.lean ====
section
/-! DEFINITION. The safety configuration (R438, R439): its records out of bytes, the checks of a commit (R440), and SAFETY_STATUS,
SAFETY_CONFIG_LOAD and SAFETY_RESTART (R440 to R442). -/

namespace Sys2Proof.Machine

/-- The size of a safety configuration. -/
def sfSize : Nat := 1232

/-- A signal record (R419). -/
def SfSignal.ofBytes (b : List Byte) (o : Nat) : SfSignal :=
  { landA := u8 b o, landB := u8 b (o + 1), mode := u8 b (o + 2), filter := u8 b (o + 3), discrepancy := u16 b (o + 4) }
/-- A function record (R420). -/
def SfFunc.ofBytes (b : List Byte) (o : Nat) : SfFunc :=
  { code := u8 b o, manual := u8 b (o + 2) == 1, level := u8 b (o + 3), src0 := BitVec.ofNat 16 (u16 b (o + 4)),
    src1 := BitVec.ofNat 16 (u16 b (o + 6)), src2 := BitVec.ofNat 16 (u16 b (o + 8)), time0 := u16 b (o + 10), time1 := u16 b (o + 12),
    output := u8 b (o + 14), lift := u8 b (o + 15) }
/-- An output record (R425). -/
def SfOut.ofBytes (b : List Byte) (o : Nat) : SfOut := { use := u8 b o, owner := u8 b (o + 1), mask := BitVec.ofNat 32 (u32 b (o + 4)) }
/-- A connection record (R439). -/
def SfConn.ofBytes (b : List Byte) (o : Nat) : SfConn :=
  { used := u8 b o == 1, kind := u8 b (o + 1) % 4, holdOk := bit (u8 b (o + 1)) 2, peer := u16 b (o + 2), connId := u16 b (o + 4),
    watchdog := u16 b (o + 6), content := BitVec.ofNat 32 (u32 b (o + 8)), zbId := u32 b (o + 12) }

/-- Offsets of the records (R438). -/
def sfSigOff (i : Nat) : Nat := 32 + 8 * i
def sfFunOff (i : Nat) : Nat := 160 + 16 * i
def sfOutOff (i : Nat) : Nat := 672 + 8 * i
def sfProdOff (i : Nat) : Nat := 712 + 16 * i
def sfConsOff (i : Nat) : Nat := 968 + 16 * i

/-- A table of `k` records. -/
def recTable {α : Type} (k : Nat) (f : Nat → α) : Tbl α := (List.range k).map (fun i => (i, f i))

/-- The configuration out of its bytes (R438). -/
def SfCfg.ofBytes (b : List Byte) : SfCfg :=
  { sequence := u32 b 16, cycle := u16 b 20, fallback := u16 b 22, degrade := u16 b 24, autoStart := bit (u8 b 26) 0,
    signals := recTable 16 (fun i => SfSignal.ofBytes b (sfSigOff i)), funcs := recTable 32 (fun i => SfFunc.ofBytes b (sfFunOff i)),
    outs := recTable 5 (fun i => SfOut.ofBytes b (sfOutOff i)), produced := recTable 16 (fun i => SfConn.ofBytes b (sfProdOff i)),
    consumed := recTable 12 (fun i => SfConn.ofBytes b (sfConsOff i)), key := u64 b 1160 }

/-! ### Checks of a commit (R440 step 4): violated, the status (R6, R7) and the offset -/

/-- The land is used. -/
def landOk (v : Nat) : Bool := decide (v < 16)

/-- A signal record is in range (R419). -/
def sfSigChecks (b : List Byte) (i : Nat) : List (Bool × Nat × Nat) :=
  let o := sfSigOff i
  let r := SfSignal.ofBytes b o
  if r.landA = 0xFF then []
  else [badRange (!landOk r.landA) o, badRange (if r.mode = 0 then r.landB != 0xFF else decide (r.mode ≤ 2) && !landOk r.landB) (o + 1),
        badIn r.mode 0 2 (o + 2), badIn r.filter 0 20 (o + 3),
        if r.mode = 0 then badRange (r.discrepancy != 0) (o + 4) else badIn r.discrepancy 10 3000 (o + 4), badRes b (o + 6) 2]

/-- A source names a used signal or connection, or nothing where it may (R420, R440). -/
def SfCfg.srcOk (g : SfCfg) (s : BitVec 16) (none sig conn : Bool) : Bool :=
  if srcKind s = 0 then none && s == 0
  else if srcKind s = 1 then sig && decide (s.toNat % 2 ^ 14 < 16) && (g.signals.getD (srcSig s) {}).landA != 0xFF
  else if srcKind s = 2 then
    conn && s.toNat % 2 ^ 14 == srcConn s * 256 + srcBit s && decide (srcConn s < 12) && (g.consumed.getD (srcConn s) {}).used
  else false
/-- The mode of the signal a source names. -/
def SfCfg.srcMode (g : SfCfg) (s : BitVec 16) : Nat := (g.signals.getD (srcSig s) {}).mode

/-- An output PO0 … PO3 or a lift 0 … 3, or none (R420). -/
def badFour (v o : Nat) : Bool × Nat × Nat := badRange (decide (3 < v) && v != 0xFF) o

/-- A lift's flags cover its levels (R440). -/
def SfCfg.flagsCover (g : SfCfg) (f : SfFunc) : Bool := (List.range f.src1.toNat).all (fun k => g.srcOk (srcPlus f.src0 k) false true true)
/-- A lift's GUARDs cover its levels (R440; DEDUCED, log 50). -/
def SfCfg.guardsCover (g : SfCfg) (f : SfFunc) : Bool := (List.range f.src1.toNat).all (fun k => (g.guardsOf f.lift).any (fun e => e.2.level == k))

/-- The sources of a function (R421); one that the function does not use names nothing, or something used (R420). -/
def sfSrcChecks (g : SfCfg) (f : SfFunc) (o : Nat) : List (Bool × Nat × Nat) :=
  let idle (s : BitVec 16) (o : Nat) : Bool × Nat × Nat := badRange (!g.srcOk s true true true) o
  (match f.code with
   | 1 => [badRange (!g.srcOk f.src0 false true false) (o + 4), badRange (!g.srcOk f.src1 true true false) (o + 6)]
   | 2 => [badRange (!g.srcOk f.src0 false true true) (o + 4), badRange (!g.srcOk f.src1 true true true) (o + 6)]
   | 3 => [badRange (!g.srcOk f.src0 false true false || g.srcMode f.src0 != 2) (o + 4),
           badRange (!g.srcOk f.src1 false true false || g.srcMode f.src1 != 2) (o + 6)]
   | 4 => [badRange (!g.srcOk f.src0 false true false || g.srcMode f.src0 != 1) (o + 4), badRange (!g.srcOk f.src1 true true false) (o + 6)]
   | 5 => [badRange (!g.srcOk f.src0 false true true || !g.flagsCover f) (o + 4), badRange (decide (f.src1.toNat < 2 ∨ 16 < f.src1.toNat) || !g.guardsCover f) (o + 6)]
   | _ => [badRange (!g.srcOk f.src0 false false true) (o + 4), idle f.src1 (o + 6)]) ++ [idle f.src2 (o + 8)]

/-- A function record is in range (R420, R421). -/
def sfFunChecks (g : SfCfg) (b : List Byte) (i : Nat) : List (Bool × Nat × Nat) :=
  let o := sfFunOff i
  let f := g.func i
  let noLock := srcKind f.src1 = 0 ∧ f.output = 0xFF
  if f.code = 0 then []
  else
    [badIn f.code 1 6 o, badRange (u8 b (o + 1) != i) (o + 1), badIn (u8 b (o + 2)) 0 1 (o + 2), badRange (f.code == 5 && !f.manual) (o + 2),
     badRange (if f.code = 2 ∧ f.lift ≠ 0xFF then decide (15 < f.level) else f.level != 0xFF) (o + 3)] ++ sfSrcChecks g f o ++
    [badRange (f.code == 2 && !decide noLock && decide (f.time0 < 50 ∨ 5000 < f.time0)) (o + 10),
     badRange ((f.code == 2 && decide (60000 < f.time1)) || (f.code == 5 && decide (10000 < f.time1))) (o + 12), badFour f.output (o + 14),
     badFour f.lift (o + 15), badRange (f.code == 5 && f.lift == 0xFF) (o + 15)]

/-- An output record is in range (R425). -/
def sfOutChecks (g : SfCfg) (b : List Byte) (i : Nat) : List (Bool × Nat × Nat) :=
  let o := sfOutOff i
  let r := g.outs.getD i {}
  [badIn r.use 0 3 o,
   badRange (if r.use = 2 then decide (31 < r.owner) || (g.func r.owner).code != 2 else if r.use = 3 then decide (31 < r.owner) || (g.func r.owner).code != 5
     else r.owner != 0xFF) (o + 1),
   badRes b (o + 2) 2, badRange ((r.use == 0 || r.use == 2) && r.mask != 0) (o + 4)]

/-- An identifier of the zone bus as R92 codes it. -/
def zbIdOk (v : Nat) : Bool := !bit v 29 && !bit v 30 && (bit v 31 || decide (v < 2048))

/-- A connection record is in range (R439); `others` are the identifiers of the same producer before it. -/
def sfConnChecks (b : List Byte) (o : Nat) (produced : Bool) (others : List Nat) : List (Bool × Nat × Nat) :=
  let r := SfConn.ofBytes b o
  [badIn (u8 b o) 0 1 o] ++
  (if r.used then
    [(decide (8 ≤ u8 b (o + 1)), Rs.paramReserved, o + 1), badRange (r.kind == 3) (o + 1), badIn r.peer 1 0xFEFF (o + 2),
     badRange (decide (r.connId < 1 ∨ 0xFFFE < r.connId) || others.contains r.connId) (o + 4), badIn r.watchdog 2 1000 (o + 6),
     badRange (!produced && r.content != 0) (o + 8), badRange (if r.kind = 0 then !zbIdOk r.zbId else r.zbId != 0) (o + 12)]
   else [])

/-- The identifiers in use among the first `i` connections of a table that a rule picks. -/
def connIds (t : Tbl SfConn) (i : Nat) (same : SfConn → Bool) : List Nat :=
  ((List.range i).map (fun j => t.getD j {})).filterMap (fun r => if r.used && same r then some r.connId else none)

/-- The ranges of chapter 19 in the order of their offsets. -/
def sfRangeChecks (g : SfCfg) (b : List Byte) (sequence : Option Nat) : List (Bool × Nat × Nat) :=
  [badRange (match sequence with | some s => decide (g.sequence ≤ s) | none => false) 16,
   badRange (decide (g.cycle < 500 ∨ 8000 < g.cycle ∨ g.cycle % 250 ≠ 0)) 20, badIn g.fallback 1 480 22, badIn g.degrade 1 100 24,
   (decide (1 < u8 b 26), Rs.paramReserved, 26), badRes b 27 5]
  ++ (List.range 16).flatMap (sfSigChecks b) ++ (List.range 32).flatMap (sfFunChecks g b) ++ (List.range 5).flatMap (sfOutChecks g b)
  ++ (List.range 16).flatMap (fun i => sfConnChecks b (sfProdOff i) true (connIds g.produced i (fun _ => true)))
  ++ (List.range 12).flatMap (fun i =>
       sfConnChecks b (sfConsOff i) false (connIds g.consumed i (fun r => r.peer == (g.consumed.getD i {}).peer)))

/-! ### Loading (R440) -/

/-- The function code a SAFE stall shows, and safe_use of a PROTECTED stall (R92, R425). -/
def Node.copySafeUse (n : Node) : Node :=
  let g := n.sfCfg
  let n := n.stalls.foldl (fun n e =>
    if (n.stall e.1).kd = K.safe then n.setStall e.1 ((n.stall e.1).setPf 8 1 (g.func ((n.stall e.1).pf 9 1)).code) else n) n
  (List.range 4).foldl (fun n k => n.setStall (28 + k) ((n.stall (28 + k)).setPf 13 1 (b2n ((g.outs.getD k {}).use != 0)))) n

/-- Both channels load a configuration; the zone stays in STOP (R416, R440). Receive objects are reserved for its ZONE
connections (R432). -/
def Node.sfLoad (n : Node) (b : List Byte) : Node :=
  let fresh (x : Channel) : Channel := { st := x.st, tested := x.tested, lands := x.lands, inbox := x.inbox, cycleAt := x.cycleAt, silent := x.silent,
                                         switches := x.switches, openSince := x.openSince, outFault := x.outFault, responses := x.responses,
                                         ring := x.ring }
  let n := n.updSafe (fun f =>
    { f with cfg := some (SfCfg.ofBytes b), cfgBytes := b, chA := fresh f.chA, chB := fresh f.chB, mismatch := [], arrived := [],
             auto := (SfCfg.ofBytes b).autoStart })
  let n := n.zbFreeObjects
  let n := n.safe.zbReserved.foldl (fun n i => if (n.zb.objects.look i).isNone then n.updZb (fun z => { z with objects := z.objects.put i none }) else n) n
  n.copySafeUse

/-- The staged bytes in order, none when one is missing. -/
def Safety.stagedAll (f : Safety) : Option (List Byte) :=
  let l := (List.range sfSize).filterMap (fun i => f.staged.look i)
  if l.length = sfSize then some l else none

/-- Op 1: commit (R440). -/
def Node.sfCommit (n : Node) (m : Nat) (pl : List Byte) : Node :=
  let b := n.safe.stagedAll.getD []
  let g := SfCfg.ofBytes b
  let head := n.safe.stagedAll.isNone || u32 b 0 != 0x47464353 || u16 b 4 != 1 || u16 b 6 != sfSize || u64 b 8 != Config.serial.toNat
  let headOff := if n.safe.stagedAll.isNone then ((List.range sfSize).find? (fun i => (n.safe.staged.look i).isNone)).getD 0
    else if u32 b 0 != 0x47464353 then 0 else if u16 b 4 != 1 then 4 else if u16 b 6 != sfSize then 6 else 8
  let good := match n.ownerKey g.key with
    | some k => sm2Verify k (sm3 (slice b 0 1168)) (slice b 1168 64)
    | none => false
  n.checked m ([badLen pl 8, badRes pl 1 1, badRange (u16 pl 2 != 0) 2, badRange (u16 pl 4 != 0) 4, badRes pl 6 2, (!n.runs Isl.sec, Rs.busy, 0),
      (n.safe.zone != .stop, Rs.safetyNotStopped, 0), (head, Rs.paramRange, headOff), (!good, Rs.safetySigInvalid, 0)]
      ++ sfRangeChecks g b (n.safe.cfg.map SfCfg.sequence))
    (n.needCfg m Cmd.safetyConfigLoad
      (let n := ((n.sfLoad b).zoneStop 7).log Ev.safetyConfigLoaded g.sequence (u32 (sm3 b) 0) (g.key % 2 ^ 32)
       n.ok m []))

/-- SAFETY_CONFIG_LOAD (R440). Without a configuration in force a read answers NOT_FOUND (log 42). -/
def execSafetyConfigLoad (path idx : Nat) (s : State) : Host.Outcome State Fault Refusal :=
  s.run fun n => n.hostCmd Cmd.safetyConfigLoad path idx fun n m pl =>
    let off := u16 pl 2
    let len := u16 pl 4
    n.checked m [(decide (pl.length < 8), Rs.lengthBad, 0), badIn (u8 pl 0) 0 2 0]
      (match u8 pl 0 with
       | 0 =>
         n.checked m [badRes pl 1 1, badIn len 1 464 4, badLen pl (8 + len), badRange (decide (sfSize < off + len)) 2, badRes pl 6 2]
           ((n.updSafe (fun f => { f with staged := (List.range len).foldl (fun t i => t.put (off + i) (BitVec.ofNat 8 (u8 pl (8 + i)))) f.staged })).ok m [])
       | 1 => n.sfCommit m pl
       | _ =>
         n.checked m [badRes pl 1 1, badIn len 1 464 4, badLen pl 8, badRange (decide (sfSize < off + len)) 2, badRes pl 6 2,
             (n.safe.cfg.isNone, Rs.notFound, 0)]
           (n.ok m (slice n.safe.cfgBytes off len)))

/-! ### Status and restart (R441, R442) -/

/-- SAFETY_STATUS (R441). -/
def execSafetyStatus (path idx : Nat) (s : State) : Host.Outcome State Fault Refusal :=
  s.run fun n => n.hostCmd Cmd.safetyStatus path idx fun n m pl =>
    n.checked m [badLen pl 0]
      (let f := n.safe
       let x := n.chan f.speaker
       let left := if f.zone.isSingle then (f.fallbackEnd - n.now) / 1000000000 else 0
       let conns := ((List.range 12).map (fun k => (x.conn k).st.code * 4 ^ k)).sum
       n.ok m (leBytes 1 f.zone.code ++ leBytes 1 f.chA.st.code ++ leBytes 1 f.chB.st.code ++ leBytes 1 f.cause ++ leBytes 4 left
         ++ leBytes 4 n.sfCfg.sequence ++ (if f.cfg.isSome then sm3 f.cfgBytes else List.replicate 32 0) ++ leBytes 4 conns
         ++ leBytes 4 f.cycles ++ (List.range 32).flatMap (fun i => leBytes 4 (x.values.getD i 0).toNat)))

/-- SAFETY_RESTART (R442): the answer comes when the channels have answered. -/
def execSafetyRestart (path idx : Nat) (s : State) : Host.Outcome State Fault Refusal :=
  s.run fun n => n.hostCmd Cmd.safetyRestart path idx fun n m pl =>
    let t := u8 pl 0
    let op := u8 pl 1
    n.checked m [badLen pl 4, badRange (decide (31 < t) && t != 0xFF) 0, badIn op 0 1 1, badRes pl 2 2,
        (op == 0 && t != 0xFF && (n.sfCfg.func t).code == 0, Rs.notFound, 0)]
      (let n := n.sfRequest (if op = 0 then 5 else 6) t
       n.updSafe (fun f => { f with waiters := f.waiters ++ [(f.reqSeq, m)] }))

end Sys2Proof.Machine
end

