-- ==== Sys2Proof/Machine/SafetyZone.lean ====
section
/-! DEFINITION. What the safety zone does in time (19): cycles and inbound reads (R413), compare records and loss of a partner
(R414, R417), tests (R415), time limits (R416, R419, R424, R435), safe frames (R431, R432), SAFE stalls (R422) and the requests
of the firmware (R428, R436). -/

namespace Sys2Proof.Machine

/-- Channel `c` has its island and is not lost. -/
def Node.chanAlive (n : Node) (c : Nat) : Bool := decide (c < 2) && n.runs (safeIsl c) && (n.chan c).st != .lost

/-- Zone restart at a cycle (R416): both channels in RUN with their start tests passed, matching records, a configuration, and
the restart asked for or auto_start still to come (log 42). -/
def Node.tryZoneStart (n : Node) : Node :=
  let f := n.safe
  if n.zoneReady && f.chA.st == .run && f.chB.st == .run && f.chA.tested && f.chB.tested && (f.restartReq || f.auto) then
    (n.updSafe (fun f => { f with restartReq := false })).zoneEnter .two 0
  else n

/-- auto_start with the other conditions met: a channel that has not passed its start tests since STOP runs them first (R415, R416). -/
def Node.autoTests (n : Node) (c : Nat) : Node :=
  if n.safe.auto && n.zoneReady && !(n.chan c).tested && (n.chan c).st == .run then n.beginTests c else n

/-- The work of a running channel at a cycle instant (R413). -/
def Node.sfCycle (n : Node) (c : Nat) (t : T64) : Node :=
  let n := (n.updChan c (fun x => x.takeSignals n.sfCfg)).judgeConns c t
  let n := n.tryZoneStart
  let n := if n.safe.zone = .stop then n else n.evalFuncs c t
  let n := (n.sfServeAll c t).grantUnlocks c t
  let n := if n.safe.zone = .stop then n else n.evalFuncs c t
  let n := (n.sfSwitch c (n.sfCommand c)).watchOutputs c
  let vals := (List.range 32).foldl (fun (v : Tbl (BitVec 32)) i => v.put i (BitVec.ofNat 32 (n.fnValue c i t))) []
  let n := if (List.range 32).all (fun i => (n.chan c).values.getD i 0 == vals.getD i 0) then n else n.raise 6
  (n.updChan c (fun x => { x with values := vals })).produceCopies c t

/-- SAFETY_CYCLE of channel `c` (R413). A channel that is lost or in its start tests keeps to R167. -/
def execSafetyCycle (c : Nat) (s : State) : Host.Outcome State Fault Refusal :=
  s.run fun n =>
    if n.chanAlive c then
      let t := nextGrid (max n.gridNow ((n.chan c).cycleAt + 1)) (us n.sfCfg.cycle)
      let n := n.upTo t
      let n := if (n.chan (1 - c)).cycleAt < t then n.updSafe (fun f => { f with cycles := (f.cycles + 1) % 2 ^ 32 }) else n
      let n := n.updChan c (fun x => { x with cycleAt := t, silent := x.silent + 1 })
      match (n.chan c).st with
      | .run => (n.sfCycle c t).autoTests c
      | .testing => (n.sfStandard c).sfServeAll c t
      | _ => n
    else if c < 2 ∧ n.runs (safeIsl c) then n.sfStandard c
    else n

/-- A bit of a fresh copy that reads 0 opens what depends on it at once (R413). -/
def Node.openAtOnce (n : Node) (c k : Nat) : Node :=
  let g := n.sfCfg
  let x := n.chan c
  let low (i : Nat) : Bool := (g.func i).needs.any (fun s => srcKind s == 2 && srcConn s == k && !x.reads s)
  let dead (i : Nat) : Bool := low i || ((g.func i).code == 5 && (g.guardsOf (g.func i).lift).any (fun e => low e.1))
  let stays (o : Nat) : Bool :=
    let r := g.outs.getD o {}
    !((r.use == 1 && (List.range 32).any (fun i => r.mask.getLsbD i && dead i))
      || (r.use == 3 && (dead r.owner || (List.range 32).any (fun i => r.mask.getLsbD i && dead i))))
  let keep := BitVec.ofNat 5 (((List.range 5).filter stays).map (fun o => 2 ^ o)).sum
  n.sfSwitch c (x.switches &&& keep)

/-- SAFETY_INBOUND_READ of channel `c` (R412, R413, R433): the lands above the rising threshold and those below the falling one
are the comparators' observation. -/
def execSafetyInboundRead (c above below : Nat) (s : State) : Host.Outcome State Fault Refusal :=
  s.run fun n =>
    if n.chanAlive c ∧ (n.chan c).st ≠ .follower then
      let n := n.upTo (nextGrid n.gridNow (us 50))
      let n := n.updChan c (fun x =>
        ({ x with lands := (x.lands ||| BitVec.ofNat 22 above) &&& ~~~(BitVec.ofNat 22 below) }).filterAll n.sfCfg n.now)
      let copies := (n.chan c).inCopies
      let n := n.updChan c (fun x => { x with inCopies := [] })
      copies.foldl (fun n e =>
        let k := e.1 / 2
        let path2 := e.1 % 2 == 1
        let before := (n.chan c).conn k
        let n := n.acceptCopy c k path2 e.2
        let y := (n.chan c).conn k
        if y.discarded = before.discarded ∧ y.st ≠ .safe ∧ n.copyFresh (n.sfCfg.consumed.getD k {}) false [e.2] n.now then
          (n.updChan c (fun x => x.updConn k (fun y => { y with data := y.data &&& e.2.gives }))).openAtOnce c k
        else n) n
    else n

/-- CROSS_RECORD (R414, R417): the partner's record reaches channel `c`. A follower takes the partner's switch commands. A partner that
has had no cycle since the last record has sent none. -/
def execCrossRecord (c : Nat) (s : State) : Host.Outcome State Fault Refusal :=
  s.run fun n =>
    if n.chanAlive c ∧ n.chanAlive (1 - c) ∧ ((n.chan (1 - c)).st = .run → (n.chan c).recAt < (n.chan (1 - c)).cycleAt) then
      let n := n.updChan c (fun x => { x with silent := 0 })
      match (n.chan c).st with
      | .follower => if (n.chan (1 - c)).st = .run then n.sfSwitch c (n.chan (1 - c)).switches else n
      | .run => if (n.chan (1 - c)).st = .run then n.compareRecords c else n
      | _ => n
    else n

/-- PARTNER_LOST (R414, R416): channel `c` has had no record for 3 cycles, in SINGLE for 2. -/
def execPartnerLost (c : Nat) (s : State) : Host.Outcome State Fault Refusal :=
  s.run fun n =>
    let need := if n.safe.zone.isSingle then 2 else 3
    if n.chanAlive c ∧ (n.chan c).st = .run ∧ need ≤ (n.chan c).silent ∧ (n.chan (1 - c)).st ≠ .testing then n.chanGone (1 - c) false else n

/-- SAFETY_SELF_TEST (R415): test `k` (coded as the cause of SAFETY_CHANNEL_FAULT) of channel `c` ends. -/
def execSafetySelfTest (c k : Nat) (ok : Bool) (detail : Nat) (s : State) : Host.Outcome State Fault Refusal :=
  s.run fun n => if n.chanAlive c ∧ (n.chan c).st = .run ∧ !ok then n.chanFault c k detail else n

/-- FOLLOWER_TIMEOUT (R417). -/
def execFollowerTimeout (c : Nat) (s : State) : Host.Outcome State Fault Refusal :=
  s.run fun n => if c < 2 ∧ (n.chan c).st = .follower ∧ 2 ≤ (n.chan c).silent then n.sfOpen c else n

/-- FALLBACK_EXPIRED (R416). -/
def execFallbackExpired (s : State) : Host.Outcome State Fault Refusal :=
  s.run fun n => if n.safe.zone.isSingle then (n.upTo n.safe.fallbackEnd).zoneStop 4 else n

/-- SAFETY_DISCREPANCY (R419): signal `k` in channel `c`. -/
def execSafetyDiscrepancy (c k : Nat) (s : State) : Host.Outcome State Fault Refusal :=
  s.run fun n =>
    let y := (n.chan c).sig k
    match y.disFrom with
    | some t =>
      if n.chanAlive c ∧ !y.fault then
        ((n.upTo (t + ms (n.sfCfg.signals.getD k {}).discrepancy)).updChan c (fun x => x.updSig k (fun y => { y with fault := true, value := false }))).sfLog c
          Ev.safetyDiscrepancy k c (b2n y.a + 2 * b2n y.b)
      else n
    | none => n

/-- LOCK_MONITOR_TIMEOUT (R424): the lock of GUARD `i` has not reached its reading within time0. -/
def execLockMonitorTimeout (i : Nat) (s : State) : Host.Outcome State Fault Refusal :=
  s.run fun n =>
    let f := n.sfCfg.func i
    let due (x : Channel) : T64 := (if (x.fn i).unlocked then (x.fn i).lockAt else max (x.fn i).lockAt (x.fn i).closedAt) + ms f.time0
    (List.range 2).foldl (fun n c =>
      let x := n.chan c
      let t := max n.now (due x)
      if n.chanAlive c ∧ x.st = .run ∧ n.safe.zone ≠ .stop ∧ x.lockWrong f i t ∧ !(x.fn i).fault then
        let n := (n.upTo t).updChan c (fun x => x.updFn i (fun y => { y with fault := true, demand := true, permit := false, wait := false }))
        let n := n.sfSwitch c ((n.chan c).switches &&& n.sfCommand c)
        if ((n.chan (1 - c)).fn i).fault ∧ (n.chan (1 - c)).st = .run then n else n.sfLog c Ev.safetyDemand i (n.fnValue c i n.now) 1
      else n) n

/-- UNLOCK_REQUEST_TIMEOUT (R424): a request for GUARD `i` has stood 60 s. -/
def execUnlockRequestTimeout (i : Nat) (s : State) : Host.Outcome State Fault Refusal :=
  s.run fun n => (List.range 2).foldl (fun n c =>
    match ((n.chan c).fn i).unlockReq with
    | some (q, t) =>
      if n.chanAlive c then (n.upTo (t + ms 60000)).updChan c (fun x => (x.updFn i (fun y => { y with unlockReq := none })).respond q Rs.busy) else n
    | none => n) n

/-- DEGRADED_TIMEOUT (R435): connection `k` in channel `c`. -/
def execDegradedTimeout (c k : Nat) (s : State) : Host.Outcome State Fault Refusal :=
  s.run fun n =>
    let y := (n.chan c).conn k
    if n.chanAlive c ∧ y.st = .degraded then
      let n := n.upTo (y.degFrom + (ms (100 * n.sfCfg.degrade) - y.degraded))
      (n.connSafe c k 1 n.now).openAtOnce c k
    else n

/-! ### Safe frames between the mailboxes and the paths (R431, R432) -/

/-- The produced copies of both outbound mailboxes: connection, path and copy. -/
def Node.outbound (n : Node) : List (Nat × Bool × SafeFrame) :=
  (List.range 2).flatMap (fun c =>
    if n.chanAlive c && (n.chan c).st == .run then
      (n.chan c).outCopies.map (fun e => (e.1 % 16, if e.1 < 16 then c == 1 else c == 0, e.2))
    else [])

/-- The payload of a SAFETY frame. -/
def safetyPayload (l : List SafeFrame) : List Byte := leBytes 1 l.length ++ [0, 0, 0] ++ l.flatMap SafeFrame.bytes

/-- A SAFETY frame with PATH2 set out of a port (R431). -/
def Node.sendPath2 (n : Node) (q dst : Nat) (l : List SafeFrame) : Node :=
  if !n.lineSends then n
  else
    let (ttl, n) := n.freeTtl
    let (f, n) := n.newFrame 0x30 8#16 dst ttl (safetyPayload l)
    n.egress q f

/-- A ZONE path-2 copy as one FD frame (R432); a full FIFO drops it. -/
def Node.sendZoneCopy (n : Node) (id : Nat) (f : SafeFrame) : Node :=
  if n.zb.st = .off ∨ n.zb.st = .offline ∨ n.zb.st = .busOff ∨ n.zb.st = .recovering then n
  else if 32 ≤ n.zb.fifo.length then n.zbTxDropped id
  else n.zbPush { ident := id, fd := true, brs := n.zb.brsOn, data := f.bytes, limit := 0, src := .safety, express := true, at_ := n.now }

/-- One frame per destination and path (R432). -/
def Node.gather (n : Node) : Node :=
  let g := n.sfCfg
  let out := n.outbound
  let peer (p : Nat) : SfConn := g.produced.getD p {}
  let dests := (out.map (fun e => (peer e.1).peer)).eraseDups
  let n := dests.foldl (fun n d =>
    let to_ := out.filter (fun e => (peer e.1).peer == d)
    let p1 := (to_.filter (fun e => !e.2.1)).map (fun e => e.2.2)
    let ring := (to_.filter (fun e => e.2.1 && (peer e.1).kind == 1)).map (fun e => e.2.2)
    let spine := (to_.filter (fun e => e.2.1 && (peer e.1).kind == 2)).map (fun e => e.2.2)
    let n := if p1.isEmpty then n else n.send 0x30 0 d (safetyPayload p1)
    let n := if ring.isEmpty then n else n.sendPath2 (n.otherWay d) d ring
    if spine.isEmpty then n else n.sendPath2 2 d spine) n
  out.foldl (fun n e => if e.2.1 && (peer e.1).kind == 0 then n.sendZoneCopy (peer e.1).zbId e.2.2 else n) n

/-- SAFE_FRAME_GATHER (R432): produced copies leave, received ones go into both inbound mailboxes. -/
def execSafeFrameGather (s : State) : Host.Outcome State Fault Refusal :=
  s.run fun n =>
    if n.coresRun then
      let n := (n.upTo (nextGrid n.gridNow (us n.line.cycle))).gather
      let a := n.safe.arrived
      let put (x : Channel) : Channel := { x with inCopies := a.foldl (fun t e => t.put e.1 e.2) x.inCopies }
      n.updSafe (fun f => { f with chA := put f.chA, chB := put f.chB, arrived := [] })
    else n

/-- SAFETY_FRAME (R431, R432): copies from `src` arrive on a path; one that no consumed connection names is not kept. -/
def execSafetyFrame (src : Nat) (path2 : Bool) (copies : List (List Nat)) (s : State) : Host.Outcome State Fault Refusal :=
  s.run fun n => copies.foldl (fun n b =>
    let f := SafeFrame.ofBytes (b.map (BitVec.ofNat 8))
    match n.sfCfg.consumed.find? (fun (e : Nat × SfConn) => e.2.used && e.2.connId == f.connId && e.2.peer == src) with
    | some e => n.updSafe (fun s => { s with arrived := s.arrived.put (2 * e.1 + b2n path2) f })
    | none => n) n

/-! ### The firmware's side (R422, R428) -/

/-- The answer to a request once every channel that serves requests has given its own (R428). -/
def Node.sfAnswer (n : Node) (seq : Nat) : Option Nat :=
  let serves (c : Nat) : Bool := n.chanAlive c && ((n.chan c).st == .run || (n.chan c).st == .testing)
  let cs := (List.range 2).filter serves
  let got := cs.filterMap (fun c => ((n.chan c).responses.find? (fun (r : Nat × Nat) => r.1 == seq)).map Prod.snd)
  if cs.isEmpty then some Rs.busy
  else if got.length = cs.length then some ((got.find? (fun st => st != Rs.ok)).getD Rs.ok)
  else none

/-- SAFE_STALL_UPDATE (R422, R428): SAFE stalls and answers out of the outbound mailboxes. -/
def execSafeStallUpdate (s : State) : Host.Outcome State Fault Refusal :=
  s.run fun n =>
    if n.coresRun then
      let x := n.chan n.safe.speaker
      let old := decide (x.cycleAt + 3 * us n.sfCfg.cycle < n.now)
      let n := if n.runs Isl.seq then
          n.stalls.foldl (fun n e =>
            let k := n.stall e.1
            if k.kd = K.safe ∧ k.st = .running then
              let i := k.pf 9 1
              let bad := (n.sfCfg.func i).code == 0 || old
              let v := BitVec.ofNat 64 (x.values.getD i 0).toNat
              n.putStall e.1 (if bad then k.setStatus St.invalid true else (k.take v n.now).setStatus St.invalid false)
            else n) n
        else n
      n.safe.waiters.foldl (fun n w =>
        match n.sfAnswer w.1 with
        | some st =>
          let n := n.updSafe (fun f => { f with waiters := f.waiters.filter (fun v => v != w) })
          n.answer w.2 st 0 []
        | none => n) n
    else n

/-- The firmware places a request in both inbound mailboxes (R428). -/
def Node.sfPlace (n : Node) (code target : Nat) : Node := if n.coresRun then n.sfRequest code target else n

/-- TORQUE_ON (R428). -/
def execTorqueOn (i : Nat) (s : State) : Host.Outcome State Fault Refusal := s.run fun n => n.sfPlace 1 i
/-- TORQUE_OFF (R428). -/
def execTorqueOff (i : Nat) (s : State) : Host.Outcome State Fault Refusal := s.run fun n => n.sfPlace 2 i
/-- UNLOCK (R424, R428). -/
def execUnlock (i : Nat) (s : State) : Host.Outcome State Fault Refusal := s.run fun n => n.sfPlace 3 i
/-- LOCK (R424, R428). -/
def execLock (i : Nat) (s : State) : Host.Outcome State Fault Refusal := s.run fun n => n.sfPlace 4 i
/-- RESTART (R423, R428). -/
def execRestart (i : Nat) (s : State) : Host.Outcome State Fault Refusal := s.run fun n => n.sfPlace 5 i
/-- STOP_ZONE (R428). -/
def execStopZone (s : State) : Host.Outcome State Fault Refusal := s.run fun n => n.sfPlace 6 0
/-- RESTART_NOTICE (R436). -/
def execRestartNotice (s : State) : Host.Outcome State Fault Refusal := s.run fun n => n.sfPlace 7 0

/-! ### Islands (R411, R415) -/

/-- SWITCH_CHARGE_DRIVE_LAPSE (R411, R416): the logic of channel `c` no longer refreshes its charge drive. -/
def execSwitchChargeDriveLapse (c : Nat) (s : State) : Host.Outcome State Fault Refusal :=
  s.run fun n => if c < 2 then ((if (n.chan c).st = .lost then n else n.chanGone c false).sfOpen c) else n

/-- SAFETY_START_TESTS_DONE (R415, R416, R426): a channel in TESTING passes to RUN, or declares itself failed for `cause`. -/
def execSafetyStartTestsDone (c : Nat) (ok : Bool) (cause detail : Nat) (s : State) : Host.Outcome State Fault Refusal :=
  s.run fun n =>
    if c < 2 ∧ n.runs (safeIsl c) ∧ (n.chan c).st = .testing then
      if ok then n.updChan c (fun x => { x with st := .run, tested := true, stuck := [], outFault := 0, silent := 0 })
      else (n.updSafe (fun f => { f with restartReq := false })).chanFault c cause detail
    else n

end Sys2Proof.Machine
end

