-- ==== Sys2Proof/Machine/HostOps.lean ====
section
/-! DEFINITION. Host access (03): the register sets of R70, posting and taking mailboxes (R58 to R66), sessions (R55, R73 to
R76) and the frames of the host SPI and the service port (R67 to R72). -/

namespace Sys2Proof.Machine

/-- Change host access. -/
def Node.updHost (n : Node) (f : HostIf → HostIf) : Node := { n with host := f n.host }

/-! ### Registers (R70) -/

/-- The register set of the host SPI (path 1) or of the service path (path 2). -/
def Node.regs (n : Node) (path : Nat) : HsRegs := if path = 2 then n.host.svc else n.host.spi
/-- Change a register set. -/
def Node.updRegs (n : Node) (path : Nat) (f : HsRegs → HsRegs) : Node :=
  n.updHost (fun h => if path = 2 then { h with svc := f h.svc } else { h with spi := f h.spi })

/-- The mask of a path's mailboxes that pass a test. -/
def Node.mbxMask (n : Node) (path : Nat) (p : Mbx → Bool) : Nat :=
  ((List.range 16).map (fun i => if p (n.mbx (path * 16 + i)) then 2 ^ i else 0)).sum
/-- HS_PENDING: POSTED or EXECUTING. -/
def Node.hsPending (n : Node) (path : Nat) : Nat := n.mbxMask path (fun x => x.st == .posted || x.st == .executing)
/-- HS_DONE: DONE. -/
def Node.hsDone (n : Node) (path : Nat) : Nat := n.mbxMask path (fun x => x.st == .done)
/-- HS_STATUS.SESSION: a session of the host SPI is open; the service path has none. -/
def Node.spiSession (n : Node) (path : Nat) : Bool :=
  path == 1 && n.host.sessions.any (fun e => e.2.path == 1 && !e.2.halfOpen && !e.2.ended)
/-- HS_STATUS. -/
def Node.hsStatus (n : Node) (path : Nat) : Nat := (n.regs path).statusWord n.host.restarting (n.spiSession path) n.host.alive

/-- The register at `off` of a path's set as it reads; 0 beyond the set. -/
def Node.hsRead (n : Node) (path off : Nat) : Nat :=
  if off = 0x00 then 0x02035404
  else if off = 0x04 then n.hsStatus path
  else if off = 0x0C then n.hsPending path
  else if off = 0x10 then n.hsDone path
  else if off = 0x14 then (n.regs path).irqEn.toNat
  else if off = 0x18 then (n.regs path).winBase.toNat
  else 0

/-- The Line island holds the host SPI (R71): bytes of 0xFF, writes ignored, HS_IRQ high. -/
def Node.lineHeld (n : Node) : Bool :=
  match (n.island Isl.line).st with
  | .quiescing | .held | .loading | .calibrating | .relocking => true
  | _ => false
/-- The supplies and the PLLs the interfaces run from are up (R47) and NRST is not low (R483). -/
def Node.ifaceOn (n : Node) : Bool :=
  !n.power.nrstLow && (match n.power.stage with | .off | .t0 | .t1 | .t2 | .thermalWait => false | _ => true)

/-- HS_IRQ is driven low (R71): an enabled condition holds and the interface is not held. -/
def Node.irqLow (n : Node) (path : Nat) : Bool :=
  let en := (n.regs path).irqEn.toNat
  let r := n.regs path
  !n.lineHeld && ((List.range 16).any (fun i => bit en i && bit (n.hsDone path) i) || (bit en 16 && n.host.restarting)
    || (bit en 17 && (r.frameErr || r.crcErr || r.winErr || r.dbOverrun)))

/-! ### Mailboxes (R59 to R66) -/

/-- The mailbox front end answers a posted request with BUSY_RESTARTING, outside any session, and frees the mailbox (R59,
R60; log 43). -/
def Node.frontBusy (n : Node) (m : Nat) : Node :=
  let b := n.read (mbxAddr m) 16
  let n := n.sessionRefused m (u16 b 0) Rs.busyRestarting (n.read (mbxAddr m + 16) 12)
  let (body, _) := respBytes (u16 b 0) (u16 b 2) m Rs.busyRestarting 0 false none []
  (n.setMbx m { n.mbx m with st := .free, again := false, req := none, deferred := none }).putResp m body []

/-- A request is posted in mailbox `m` (R59, R60); `src` is the requester's address on the line. -/
def Node.post (n : Node) (m src : Nat) : Node :=
  let x := n.mbx m
  if x.st = .posted ∨ x.st = .executing then n.updRegs (mbxPath m) (fun r => { r with dbOverrun := true })
  else
    let n := n.setMbx m { x with st := .posted, src := src, again := x.st == .done }
    if n.host.restarting then n.frontBusy m
    else n.updHost (fun h => { h with posted := h.posted.put (mbxPath m) (h.posted.getD (mbxPath m) [] ++ [m]) })

/-- Doorbell bits post mailboxes of a path, and wake the node (R450); those of one write count as posted lowest first (log 43). -/
def Node.ring (n : Node) (path mask : Nat) : Node :=
  (List.range 16).foldl (fun n i => if bit mask i then n.post (path * 16 + i) 0 else n) (if mask % 2 ^ 16 = 0 then n else n.raise 5)
/-- Done bits written with 1 free their mailboxes. -/
def Node.clearDoneBits (n : Node) (path mask : Nat) : Node :=
  (List.range 16).foldl (fun n i =>
    let m := path * 16 + i
    if bit mask i && (n.mbx m).st == .done then n.setMbx m { n.mbx m with st := .free } else n) n

/-- A write of the register at `off` (R8, R70). -/
def Node.hsWrite (n : Node) (path off v : Nat) : Node :=
  if off = 0x04 then n.updRegs path (fun r => { r with frameErr := r.frameErr && !bit v 2, crcErr := r.crcErr && !bit v 3,
                                                       winErr := r.winErr && !bit v 4, dbOverrun := r.dbOverrun && !bit v 5 })
  else if off = 0x08 then n.ring path v
  else if off = 0x10 then n.clearDoneBits path v
  else if off = 0x14 then n.updRegs path (fun r => { r with irqEn := BitVec.ofNat 32 (v % 2 ^ 18) })
  else if off = 0x18 then
    if 4 ≤ v % 2 ^ 32 then n.updRegs path (fun r => { r with winErr := true })
    else n.updRegs path (fun r => { r with winBase := BitVec.ofNat 2 v })
  else n

/-- Whole registers written from `off` in ascending order. -/
def Node.hsWrites (n : Node) (path : Nat) : Nat → Nat → List Byte → Node
  | 0, _, _ => n
  | k + 1, off, bs => (n.hsWrite path off (u32 bs 0)).hsWrites path k (off + 4) (bs.drop 4)
/-- Whole registers read from `off`. -/
def Node.hsReads (n : Node) (path : Nat) : Nat → Nat → List Byte
  | 0, _ => []
  | k + 1, off => leBytes 4 (n.hsRead path off) ++ n.hsReads path k (off + 4)

/-- Commands that run without a session on every path (R58 step 3, R66). -/
def sessionless (code : Nat) : Bool := code == Cmd.sessionHello || code == Cmd.sessionConfirm || code == Cmd.certRead

/-- Mailboxes that execute; at most 8 do (R62). -/
def Node.executing (n : Node) : Nat := (n.host.mbx.filter (fun e => e.2.st == .executing)).length

/-- The path served next: in turn from `nextPath`, the first with a mailbox POSTED (R62). -/
def HostIf.nextPosted (h : HostIf) : Option (Nat × Nat) :=
  (List.range 3).findSome? (fun k =>
    let p := (h.nextPath + k) % 3
    match h.posted.getD p [] with | m :: _ => some (p, m) | [] => none)

/-- The session a request names: open, on the mailbox's path, its set-up complete (R58 step 4, R65). -/
def Node.sessionOf (n : Node) (m id : Nat) : Option Session :=
  match n.host.sessions.look id with
  | some x => if x.path = mbxPath m ∧ !x.halfOpen ∧ !x.ended then some x else none
  | none => none

/-- The role a request outside a session runs with (R73). -/
def Node.pathRole (n : Node) (path : Nat) : Nat := if path = 2 then 3 else if path = 1 then n.host.spiRole else 0

/-- The trailer a request must carry (R56): HMAC-SM3 under the host-to-node key, the first half of the agreed key. -/
def requestTrailer (key : BitVec 256) (bytes : List Byte) (len : Nat) : List Byte :=
  (hmacSm3 ((leBytes 32 key.toNat).take 16) (slice bytes 0 (16 + len))).take 16

/-- The request counter is accepted; after 0xFFFF_FFFF the session ends (R55). -/
def HostIf.acceptCounter (h : HostIf) (id cnt : Nat) : HostIf :=
  match h.sessions.look id with
  | some x => { h with sessions := h.sessions.put id { x with cntIn := cnt, ended := x.ended || cnt == 0xFFFFFFFF } }
  | none => h

/-- The stored response goes out again with DUP set, under a new counter (R63). -/
def Node.resend (n : Node) (m : Nat) : Node :=
  let x := n.mbx m
  let b := x.lastResp
  let (body, trailer) := respBytes (u16 b 0) (u16 b 2) m (u16 b 16) (u16 b 18) true (n.host.authOut x.session) (b.drop 20)
  let n := n.setMbx m { x with st := .done, req := none, again := false }
  (n.updHost (fun h => (h.touch x.session n.now).purge x.session)).putResp m body trailer

/-- The checks 1 to 8 of R58 on a taken request, in their order; a repeat of R63 is found once its counter is accepted. DESIGN CHOICE, log 43:
the counter counts as accepted from step 6 on, whatever steps 7 to 9 answer; a failure of step 1 or 2 is answered without a trailer. -/
def Node.judgeRequest (n : Node) (m : Nat) : Node :=
  let b := n.read (mbxAddr m) 512
  let code := u16 b 0
  let len := u16 b 4
  let flags := u16 b 6
  let auth := bit flags 1
  let id := u32 b 8
  let cnt := u32 b 12
  let req := (code, u16 b 2, flags, slice b 16 (min len 480))
  let n := n.updHost (fun h => { h with taken := h.taken + 1 })
  let x := { n.mbx m with st := MbxSt.executing, req := some req, session := 0, role := n.pathRole (mbxPath m), takenNo := n.host.taken, takenAt := n.now, begun := false,
                          deferred := none }
  let n := n.setMbx m x
  if 480 < len then n.answer m Rs.lengthBad 0 []
  else if bit flags 0 || bit flags 2 || bit flags 3 || flags / 256 != 0 then n.answer m Rs.paramReserved 0 []
  else if m < 16 && !auth && !sessionless code then n.answer m Rs.noSession 0 []
  else
    let go (n : Node) (role : Nat) : Node :=
      if x.again && x.lastReq == some (code, req.2.1, req.2.2.2) then n.resend m
      else match (cmdRoles.find? (fun e => e.1 == code)) with
        | none => n.answer m Rs.cmdUnknown 0 []
        | some (_, need) => if need < 4 && decide (role < need) then n.answer m Rs.roleDenied 0 [] else n
    if !auth then go n x.role
    else match n.sessionOf m id with
      | none => n.answerWith m Rs.sessionUnknown 0 true []
      | some y =>
        if slice b 496 16 ≠ requestTrailer y.key b len then n.answerWith m Rs.authFail 0 true []
        else
          let n := n.setMbx m { x with session := id, role := y.role }
          if cnt ≤ y.cntIn then n.answer m Rs.replay 0 []
          else go (n.updHost (fun h => h.acceptCounter id cnt)) y.role

/-! ### Sessions (R75, R76) -/

/-- A session ends (R76): its commands in execution still complete; its bulk tickets are void (R471). -/
def Node.endSession (n : Node) (id : Nat) : Node :=
  let void (x : Silo) : Silo := match x.ticket with | some (_, s, _) => if s = id then { x with ticket := none } else x | none => x
  let n := { n with sec := { n.sec with siloA := void n.sec.siloA, siloB := void n.sec.siloB } }
  n.updHost (fun h =>
    match h.sessions.look id with
    | some x => ({ h with sessions := h.sessions.put id { x with ended := true } }).purge id
    | none => h)

/-- Every session ends (R31). -/
def Node.endSessions (n : Node) : Node := n.host.sessions.keys.foldl (fun n id => n.endSession id) n

/-- A session identifier that no session has: free but for that (log 43). -/
def Node.freshSession (n : Node) : Nat × Node :=
  let (v, n) := n.free 12
  let base := v.toNat % (2 ^ 32 - 16)
  (((List.range 10).map (fun k => base + 1 + k)).find? (fun id => (n.host.sessions.look id).isNone) |>.getD 1, n)

/-- A random value of the SM2 order, 1 to n - 1: free but for that (log 43). -/
def Node.freeScalar (n : Node) : Nat × Node :=
  let (a, n) := n.free 15
  let (b, n) := n.free 15
  let (c, n) := n.free 15
  let (d, n) := n.free 15
  (1 + (a.toNat + 2 ^ 64 * b.toNat + 2 ^ 128 * c.toNat + 2 ^ 192 * d.toNat) % (sm2N - 1), n)

/-- A free session of a path (R66, R75): 7 on the line, 1 on the host SPI; its line slot. -/
def Node.freeSlot (n : Node) (path : Nat) : Option Nat :=
  let mine := n.host.sessions.filter (fun e => e.2.path == path && !e.2.ended)
  if path = 0 then (List.range 7).find? (fun k => !mine.any (fun e => e.2.slot == k))
  else if path = 1 then (if mine.isEmpty then some 0 else none)
  else none

/-- Fewer than 192 KB of the Security SRAM remain (R494). -/
def Node.secShort (n : Node) : Bool := decide (224 - 4 * n.mem.retiredPages.getD 8 0 < 192)

/-- The owner entries of the host-key table. -/
def HostIf.owners (h : HostIf) : Nat := (h.keys.filter (fun (e : Nat × Nat × Nat × BitVec 512) => e.2.2.1 == 3)).length
/-- The serial number in 8 bytes. -/
def serialBytes : List Byte := leBytes 8 Config.serial.toNat

end Sys2Proof.Machine
end

