-- ==== Sys2Proof/Machine/Image.lean ====
section
/-! DEFINITION. What the SRAM addresses hold where the spec lays them out (R17 to R19): the stall table (R86), own records and mirrors
(R331), the exchange mailboxes (R427) and the boot ROM; reads and writes of single bytes, the 76-bit words (R21) and the reads of a
bank (R23). -/

namespace Sys2Proof.Machine

/-! ### Exchange mailboxes (R17, R427) -/

/-- Bytes at an offset of a table's entries, zeros where there is none. -/
def tblBytes {α : Type} (t : Tbl α) (count width : Nat) (f : α → List Byte) : List Byte :=
  (List.range count).flatMap (fun k => match t.look k with | some x => f x | none => List.replicate width 0)

/-- The outbound mailbox of channel `c`: header, function values, responses, produced copies, event ring. -/
def Node.outMail (n : Node) (c : Nat) : List Byte :=
  let f := n.safe
  let x := n.chan c
  let conns := ((List.range 12).map (fun k => (x.conn k).st.code * 4 ^ k)).sum
  leBytes 4 f.cycles ++ [BitVec.ofNat 8 f.zone.code, BitVec.ofNat 8 x.st.code, BitVec.ofNat 8 f.cause, 0] ++ leBytes 8 x.cycleAt
    ++ leBytes 4 (if f.zone.isSingle then (f.fallbackEnd - n.now) / 1000000000 else 0) ++ leBytes 4 n.sfCfg.sequence
    ++ (if f.cfg.isSome then sm3 f.cfgBytes else List.replicate 32 0) ++ leBytes 4 conns ++ leBytes 4 0
    ++ tblBytes x.values 32 4 (fun v => leBytes 4 v.toNat)
    ++ (List.range 8).flatMap (fun k => match x.responses[k]? with | some r => leBytes 4 r.1 ++ leBytes 2 r.2 ++ [0, 0] | none => List.replicate 8 0)
    ++ tblBytes x.outCopies 16 32 SafeFrame.bytes
    ++ (List.range 8).flatMap (fun k => match x.ring[k]? with | some e => e.bytes | none => List.replicate 32 0)

/-- The inbound mailbox of channel `c`: requests, consumed copies. -/
def Node.inMail (n : Node) (c : Nat) : List Byte :=
  let x := n.chan c
  (List.range 32).flatMap (fun k => match x.inbox[k]? with
      | some r => leBytes 1 r.code ++ leBytes 1 r.target ++ [0, 0] ++ leBytes 4 r.seq
      | none => List.replicate 8 0)
    ++ tblBytes x.inCopies 24 32 SafeFrame.bytes

/-- Copies laid out from offset `off` of mailbox bytes; 32 zeros are no copy. -/
def copiesOf (b : List Byte) (off count : Nat) : Tbl SafeFrame :=
  (List.range count).foldl (fun t k => if zeroAt b (off + 32 * k) 32 then t else t.put k (SafeFrame.ofBytes (slice b (off + 32 * k) 32))) []
/-- The inbound mailbox takes bytes: an entry with code 0 is no request. -/
def Channel.withInbound (x : Channel) (b : List Byte) : Channel :=
  let req (k : Nat) : SfReq := { code := u8 b (8 * k), target := u8 b (8 * k + 1), seq := u32 b (8 * k + 4) }
  { x with inbox := ((List.range 32).map req).filter (fun r => r.code != 0), inCopies := copiesOf b 0x100 24 }
/-- The outbound mailbox takes bytes; its header and its event ring are the safety core's at every cycle (log 42). -/
def Channel.withOutbound (x : Channel) (b : List Byte) : Channel :=
  { x with values := (List.range 32).foldl (fun t i => t.put i (BitVec.ofNat 32 (u32 b (0x40 + 4 * i)))) x.values
           responses := ((List.range 8).filter (fun k => !zeroAt b (0xC0 + 8 * k) 8)).map (fun k => (u32 b (0xC0 + 8 * k), u16 b (0xC4 + 8 * k)))
           outCopies := copiesOf b 0x100 16 ++ x.outCopies.filter (fun e => decide (16 ≤ e.1)) }

/-- The channel of a safety island's address, and its offset when that lies in the exchange mailboxes. -/
def exchOff (a : Nat) : Option (Nat × Nat) :=
  if 0x4001F800 ≤ a ∧ a < 0x40020000 then some (0, a - 0x4001F800)
  else if 0x4101F800 ≤ a ∧ a < 0x41020000 then some (1, a - 0x4101F800)
  else none

/-! ### Bytes by address -/

/-- What an address holds where the spec lays it out: the stall table (R83), own records and mirrors (R331), the exchange mailboxes
(R427) and the boot ROM, else the byte itself. -/
def Node.memByte (n : Node) (a : Nat) : Byte :=
  let of (bs : Option (List Byte)) (off : Nat) : Byte := match bs with | some b => b.getD off 0 | none => 0
  if 0x10280000 ≤ a ∧ a < 0x10290000 then (n.stallImage ((a - 0x10280000) / 64)).getD (a % 64) 0
  else if 0x10390000 ≤ a ∧ a < 0x10410000 then of ((n.cust.own.look ((a - 0x10390000) / 128)).map (fun r => r.bytes false)) (a % 128)
  else if 0x10410000 ≤ a ∧ a < 0x10430000 then of ((n.cust.up.look ((a - 0x10410000) / 128)).map (fun c => c.body.bytes false)) (a % 128)
  else if 0x10430000 ≤ a ∧ a < 0x10450000 then of ((n.cust.down.look ((a - 0x10430000) / 128)).map (fun c => c.body.bytes false)) (a % 128)
  else if 0x58000000 ≤ a ∧ a < 0x58010000 then Config.bootRom (a - 0x58000000)
  else match exchOff a with
    | some (c, o) => if o < 1024 then (n.outMail c).getD o 0 else (n.inMail c).getD (o - 1024) 0
    | none => ramGet n.ram a

/-- A byte of a custody record is replaced; what custody keeps beside the 128 bytes stays. -/
def CRec.poke (old : Option CRec) (off : Nat) (b : Byte) : CRec :=
  let x := old.getD {}
  let r := CRec.ofBytes (patch ((old.map (fun r => r.bytes false)).getD (List.replicate 128 0)) off [b])
  { r with acc := x.acc, changed := x.changed, holder := x.holder, partner := x.partner, since := x.since }
/-- A byte of a mirror slot is replaced. -/
def Copy.poke (old : Option Copy) (off : Nat) (b : Byte) : Copy :=
  { body := CRec.poke (old.map Copy.body) off b, clean := (old.map Copy.clean).getD false, port := (old.map Copy.port).getD 3 }

/-- One byte written through an array's test port or from a crossing. A cached stall goes on from the cache; main memory holds the byte
(R19, R104; log 46). -/
def Node.poke (n : Node) (a : Nat) (b : Byte) : Node :=
  if 0x10280000 ≤ a ∧ a < 0x10290000 then
    let k := (a - 0x10280000) / 64
    let img := patch (n.stallImage k) (a % 64) [b]
    if (n.cached k).isSome then
      { n with cache := n.cache.map (fun e => if e.stall = k then { e with poked := true, image := img } else e) }
    else n.setStall k ((n.stall k).withImage img)
  else if 0x10390000 ≤ a ∧ a < 0x10410000 then
    let slot := (a - 0x10390000) / 128
    { n with cust := { n.cust with own := n.cust.own.put slot (CRec.poke (n.cust.own.look slot) (a % 128) b) } }
  else if 0x10410000 ≤ a ∧ a < 0x10430000 then
    let slot := (a - 0x10410000) / 128
    { n with cust := { n.cust with up := n.cust.up.put slot (Copy.poke (n.cust.up.look slot) (a % 128) b) } }
  else if 0x10430000 ≤ a ∧ a < 0x10450000 then
    let slot := (a - 0x10430000) / 128
    { n with cust := { n.cust with down := n.cust.down.put slot (Copy.poke (n.cust.down.look slot) (a % 128) b) } }
  else match exchOff a with
    | some (c, o) =>
      if o < 1024 then n.updChan c (fun x => x.withOutbound (patch (n.outMail c) o [b]))
      else n.updChan c (fun x => x.withInbound (patch (n.inMail c) (o - 1024) [b]))
    | none => { n with ram := ramPuts n.ram a [b] }

/-- Bytes written through an array's test port or from a crossing, with the check bits of whole words (R16, R23, R24). -/
def Node.pokes (n : Node) (a : Nat) (bs : List Byte) : Node :=
  let n := ((List.range bs.length).zip bs).foldl (fun n e => n.poke (a + e.1) e.2) n
  n.updMem (fun x => x.written a bs)

/-! ### Words and reads of a bank (R21 to R23) -/

/-- The data bits of the word at `a`. -/
def Node.dataAt (n : Node) (a : Nat) : BitVec 64 := BitVec.ofNat 64 (leNat ((List.range 8).map (fun j => n.memByte (wordOf a + j))))
/-- The 76-bit word stored at `a` (R21). -/
def Node.wordAt (n : Node) (a : Nat) : BitVec 76 := codeword (n.dataAt a) ^^^ n.mem.err.getD (wordOf a) 0

end Sys2Proof.Machine
end

