-- ==== Sys2Proof/Machine/SecurityOps.lean ====
section
/-! DEFINITION. Silos, the boot pointer and images as operations (21): headers (R469), digests (R468), the boot-pointer copies
(R472) and the configuration image (R476). -/

namespace Sys2Proof.Machine

/-- Change the Security island's registers. -/
def Node.updSec (n : Node) (f : Security → Security) : Node := { n with sec := f n.sec }
/-- Silo A or B as 0 or 1. -/
def Node.silo (n : Node) (k : Nat) : Silo := if k = 0 then n.sec.siloA else n.sec.siloB
/-- Write a silo. -/
def Node.setSilo (n : Node) (k : Nat) (x : Silo) : Node :=
  n.updSec (fun s => if k = 0 then { s with siloA := x } else { s with siloB := x })

/-- A digest as 32 bytes. -/
def sm3Bytes (b : List Byte) : List Byte := sm3 b
/-- 32 bytes of 0. -/
def noDigest : List Byte := List.replicate 32 0

/-! ### The header of a silo (R469) -/

def Silo.marker (x : Silo) : Nat := u32 x.bytes 0
def Silo.count (x : Silo) : Nat := u16 x.bytes 6
def Silo.version (x : Silo) : Nat := u32 x.bytes 8
def Silo.cmdLevel (x : Silo) : Nat := u16 x.bytes 12
def Silo.level (x : Silo) : Nat := u8 x.bytes 14
def Silo.length (x : Silo) : Nat := u32 x.bytes 16
def Silo.beside (x : Silo) : Nat := u32 x.bytes 20

/-- Entry `i` of the image table. -/
def Silo.entry (x : Silo) (i : Nat) : SiloImg :=
  let o := 32 + 48 * i
  { code := u8 x.bytes o, ports := u8 x.bytes (o + 1), offset := u32 x.bytes (o + 4), length := u32 x.bytes (o + 8), digest := slice x.bytes (o + 16) 32 }
/-- The images of the container. -/
def Silo.images (x : Silo) : List SiloImg := (List.range (min x.count 8)).map x.entry

/-- The header is valid but for its signature: marker, format, counts, and entries with codes of the table, none repeated, none
outside the container. -/
def Silo.headerOk (x : Silo) : Bool :=
  x.marker == 0x4F4C4953 && u16 x.bytes 4 == 1 && decide (1 ≤ x.count ∧ x.count ≤ 8) && decide (512 ≤ x.length ∧ x.length ≤ 8388608)
    && zeroAt x.bytes 15 1 && zeroAt x.bytes 24 8 && zeroAt x.bytes 416 32
    && x.images.all (fun e => decide (e.code ≤ 6) && decide (e.offset + e.length ≤ x.length))
    && decide ((x.images.map SiloImg.code).Nodup)
/-- The header's signature is correct under the firmware key. -/
def Silo.signed (x : Silo) : Bool := sm2Verify Config.firmwareKey (sm3 (slice x.bytes 0 448)) (slice x.bytes 448 64)
/-- A valid, correctly signed header. -/
def Silo.valid (x : Silo) : Bool := x.headerOk && x.signed
/-- SM3 of bytes 0 to 511 (R472). -/
def Silo.headerDigest (x : Silo) : List Byte := sm3Bytes (slice x.bytes 0 512)
/-- The bytes of an image match its digest. -/
def Silo.imageOk (x : Silo) (e : SiloImg) : Bool := sm3Bytes (slice x.bytes e.offset e.length) == e.digest
/-- Every image matches. -/
def Silo.imagesOk (x : Silo) : Bool := x.images.all x.imageOk
/-- The silo digest of R468. -/
def Silo.digest (x : Silo) : List Byte := if x.valid then sm3Bytes (slice x.bytes 0 x.length) else noDigest
/-- The image of a code. -/
def Silo.image (x : Silo) (code : Nat) : Option SiloImg := x.images.find? (fun e => e.code == code)

/-- The active silo (R473). -/
def Node.activeSilo (n : Node) : Silo := n.silo n.sec.active

/-! ### Islands and images (R469, R475) -/

/-- The image code of an island. -/
def imageCode (i : Nat) : Option Nat :=
  if i = Isl.core then some 0 else if i = Isl.seq then some 1 else if i = Isl.safeA then some 2 else if i = Isl.safeB then some 3
  else if i = Isl.glean then some 4 else if i = Isl.line then some 5 else if i = Isl.sec then some 6 else none
/-- The island of an image code. -/
def islandOf (code : Nat) : Nat :=
  if code = 0 then Isl.core else if code = 1 then Isl.seq else if code = 2 then Isl.safeA else if code = 3 then Isl.safeB
  else if code = 4 then Isl.glean else if code = 5 then Isl.line else Isl.sec

/-- The active silo holds the image of a code with a good digest. -/
def Node.imageGood (n : Node) (code : Nat) : Bool :=
  n.activeSilo.valid && (match n.activeSilo.image code with | some e => n.activeSilo.imageOk e | none => false)

/-- A region that an image may define: the SRAM of its own island, for the Core island with the firmware regions of main memory (R18, R20,
R29). -/
def imageRegion (code a k : Nat) : Bool :=
  (code == 0 && decide (0x10000000 ≤ a ∧ a + k ≤ 0x10280000))
    || (match memOf a with | some c => c != 0 && memIsland c == islandOf code && memOf (a + k - 1) == some c && (exchOff (a + k - 1)).isNone | none => false)
/-- A reload writes the regions that the image defines (R29). -/
def Node.loadRegions (n : Node) (code version : Nat) : Node :=
  (Config.imageRegions code version).foldl (fun n (r : Nat × List Byte) => if imageRegion code r.1 r.2.length then n.write r.1 r.2 else n) n

/-- The key under which the image running is kept: a code, and for the PHY DSP code its port (R475). -/
def runKey (code p : Nat) : Nat := code + 16 * p

/-- An island, or a port of it, runs the active silo's image of a code from now on (R29, R468). -/
def Node.runImageOn (n : Node) (code : Nat) (ports : List Nat) : Node :=
  match n.activeSilo.image code with
  | some e =>
    let v := n.activeSilo.version
    let n := n.loadRegions code v
    let n := n.updSec (fun s => { s with running := ports.foldl (fun t p => t.put (runKey code p) (v, e.digest)) s.running })
    n.updIsland (islandOf code) (fun x => { x with imageOk := true, version := BitVec.ofNat 32 v })
  | none => n

/-- An island runs an image whole: the Line island on all three ports (R31). -/
def Node.runImage (n : Node) (code : Nat) : Node := n.runImageOn code (if code = 5 then [0, 1, 2] else [0])

/-- An island runs an image that is not the active silo's (R468). -/
def Node.mixed (n : Node) : Bool :=
  n.sec.running.any (fun (e : Nat × Nat × List Byte) => match n.activeSilo.image (e.1 % 16) with | some i => i.digest != e.2.2 | none => true)

/-! ### The boot pointer (R472, R473) -/

/-- Copy `k`. -/
def Node.bootCopy (n : Node) (k : Nat) : BootPtr := if k = 0 then n.sec.boot0 else n.sec.boot1
/-- Write copy `k`. -/
def Node.setBoot (n : Node) (k : Nat) (x : BootPtr) : Node := n.updSec (fun s => if k = 0 then { s with boot0 := x } else { s with boot1 := x })
/-- The copy in force: the valid one with the higher sequence within half the range. -/
def Node.bootBest (n : Node) : Option Nat :=
  let a := n.sec.boot0
  let b := n.sec.boot1
  if a.valid ∧ b.valid then (if newer 32 b.seq a.seq then some 1 else some 0)
  else if a.valid then some 0 else if b.valid then some 1 else none
/-- The silo a copy names passes step 2 of R473. -/
def Node.bootNames (n : Node) (k : Nat) : Bool :=
  let c := n.bootCopy k
  c.valid && (n.silo c.silo).valid && (n.silo c.silo).headerDigest == c.header
/-- The silo that R473 chooses among those not yet ruled out, with the step that chose it. -/
def Node.bootChoose (n : Node) (out : List Nat) : Option (Nat × Nat) :=
  let fits (k : Nat) : Bool := n.bootNames k && !out.contains (n.bootCopy k).silo
  let best := n.bootBest
  let other := best.map (fun k => 1 - k)
  match best.filter (fun k => fits k) with
  | some k => some ((n.bootCopy k).silo, if out.isEmpty then 1 else 3)
  | none =>
    match other.filter (fun k => fits k) with
    | some k => some ((n.bootCopy k).silo, 3)
    | none => ([0, 1].find? (fun k => !out.contains k && (n.silo k).valid)).map (fun k => (k, 3))
/-- Sequence of the copy in force; 0 when none is valid. -/
def Node.bootSeq (n : Node) : Nat := match n.bootBest with | some k => (n.bootCopy k).seq | none => 0

/-! ### The configuration image (R476, R477) -/

/-- Pad to a multiple of 8. -/
def pad8 (b : List Byte) : List Byte := b ++ List.replicate ((8 - b.length % 8) % 8) 0
/-- One record of the image. -/
def CfgRec.bytes (r : CfgRec) : List Byte :=
  pad8 (leBytes 1 (r.code / 256) ++ leBytes 1 (r.code % 256) ++ leBytes 2 r.index ++ leBytes 2 r.data.length ++ [0, 0] ++ r.data)
/-- The configuration image of the stored records. -/
def Node.configImage (n : Node) : List Byte :=
  let body := n.sec.stored.flatMap CfgRec.bytes
  leBytes 4 0x47464343 ++ leBytes 2 1 ++ [0, 0] ++ leBytes 4 (32 + body.length) ++ leBytes 4 n.sec.stored.length ++ leBytes 8 Config.serial.toNat
    ++ List.replicate 8 0 ++ body
/-- The records of an image, from its body; `fuel` is their count. -/
def cfgRecords : Nat → List Byte → List CfgRec
  | 0, _ => []
  | k + 1, b =>
    if b.length < 8 then []
    else
      let len := u16 b 4
      { code := u8 b 0 * 256 + u8 b 1, index := u16 b 2, data := slice b 8 len } :: cfgRecords k (b.drop (8 + (len + 7) / 8 * 8))
/-- The header of an image is good: marker, format, length, reserved bytes. -/
def cfgHeaderOk (b : List Byte) : Bool :=
  decide (32 ≤ b.length) && u32 b 0 == 0x47464343 && u16 b 4 == 1 && zeroAt b 6 2 && u32 b 8 == b.length && zeroAt b 24 8

/-! ### Silo staging (R470, R471) -/

/-- Size of a silo. -/
def siloSize : Nat := 8388608
/-- A partition of the store the silo lies in (R496): 0 and 1. -/
def Node.siloRo (n : Node) (k : Nat) : Bool := n.partRo k
/-- Data staged at the high-water mark; at offset 0 the silo is erased first and its ticket is void. -/
def Silo.stage (x : Silo) (off : Nat) (d : List Byte) : Silo :=
  if off = 0 then { bytes := d, high := d.length, ticket := none } else { x with bytes := x.bytes.take x.high ++ d, high := x.high + d.length }

end Sys2Proof.Machine
end

