-- ==== Sys2Proof/Machine/IslandOps.lean ====
section
/-! DEFINITION. Island operations as shared operations (01): what an island that leaves RUN, returns to its reset values, fails or
runs again does to the rest of the node (R29 to R32, R152, R170, R194, R215, R237, R310, R395, R415), and the firmware-core restart
(R59 to R61, R126, R347, R401, R484). -/

namespace Sys2Proof.Machine

/-- States as R33 codes them. -/
def IslSt.code : IslSt → Nat
  | .run => 0 | .quiescing => 1 | .held => 2 | .loading => 3 | .calibrating => 4 | .relocking => 5 | .gated => 6 | .failed => 7

/-- The operations R12 lists for an island. -/
def islandOps (i : Nat) : List IslOp :=
  if i = Isl.line then [.reset, .reload, .recalibrate, .reclock]
  else if i = Isl.core ∨ i = Isl.seq then [.reset, .reload, .reclock]
  else if i = Isl.mem then [.recalibrate, .reclock]
  else if i = Isl.motion ∨ i = Isl.zb then [.reset, .reclock]
  else if i = Isl.io then [.reset, .recalibrate, .reclock]
  else if i = Isl.safeA ∨ i = Isl.safeB ∨ i = Isl.glean then [.reset, .reload]
  else if i = Isl.sec then [.reset]
  else []

/-- Operations that return the island to its reset values. -/
def IslOp.clears : IslOp → Bool
  | .reset => true | .reload => true | .recalibrate => false | .reclock => false

/-- Every stall takes or leaves a hold cause as it lasts (R95, R96). -/
def Node.refreshHolds (n : Node) (c : HoldCause) : Node :=
  n.stalls.keys.foldl (fun n k => if n.causeLasts k c then n.beginHold k c else n.endHold k c) n

/-- The safety channel of an island. -/
def safeOf (i : Nat) : Nat := i - Isl.safeA

/-! ### The firmware-core restart -/

/-- Every posted request is answered BUSY_RESTARTING (R59). -/
def Node.refusePosted (n : Node) : Node :=
  let ms := (List.range 3).flatMap (fun p => n.host.posted.getD p [])
  ms.foldl (fun n m => n.frontBusy m) (n.updHost (fun h => { h with posted := [] }))

/-- A restart of the field cores begins (R59, R60, R170, R499): posted requests are refused, the watchdog is SUSPENDED. A planned
one, which a command has asked for, writes RESTART_NOTICE to both inbound mailboxes first (R436). -/
def Node.coreStop (n : Node) : Node :=
  let n := if (n.island Isl.core).waiter.isSome then n.sfRequest 7 0 else n
  let n := n.updHost (fun h => { h with restarting := true, restartFrom := n.now })
  let n := (n.updFio (fun x => x.suspend n.now)).updHlth (fun h => { h with coreRestarts := satInc 32 h.coreRestarts })
  n.refusePosted

/-- A command in execution goes on through a restart (R61; log 43): its chapter defines its stages, or it belongs to an island that does not
restart, or it started the restart itself. -/
def Node.goesOn (n : Node) (m : Nat) : Bool :=
  n.stalls.any (fun e => e.2.stopWaiters.contains m) || n.rcd.clearWaiter == some m || n.safe.waiters.any (fun x => x.2 == m)
    || n.isl.any (fun e => e.2.waiter == some m) || n.line.ports.any (fun e => e.2.reload == some m)
    || (match (n.mbx m).req with | some (c, _) => c == Cmd.siloCommit | none => false)

/-- What mailbox `m` waited for is given up without effect (R61; log 43): the stop of a recipe, a collector's request, a message of the
zone bus that has not begun; an axis that ramps down goes on to standstill. -/
def Node.giveUp (n : Node) (m : Nat) : Node :=
  let stopOff (x : Inst) : Inst :=
    let ws := x.stopWaiters.filter (· != m)
    { x with heldStops := x.heldStops.filter (fun e => e.1 != m), stopWaiters := ws,
             stopPending := x.stopPending && !(x.stopWaiters.contains m && ws.isEmpty) }
  { n with axes := n.axes.mapE (fun _ x => { x with stopWaiters := x.stopWaiters.filter (· != m) })
           rcp := { n.rcp with insts := n.rcp.insts.mapE (fun _ x => stopOff x) }
           harv := { n.harv with slots := n.harv.slots.mapE (fun _ x => if x.waiter == some m then { fseq := x.fseq, bucket := x.bucket } else x) }
           zb := { n.zb with fifo := (if n.zb.started then n.zb.fifo.take 1 else [])
                               ++ (if n.zb.started then n.zb.fifo.drop 1 else n.zb.fifo).filter (fun x => x.src != .host m) } }

/-- A command that was in execution is answered after the restart (R61): as it had been answered, or RESTART_ABORTED without effect. -/
def Node.afterRestart (n : Node) (m : Nat) : Node :=
  let x := n.mbx m
  if x.st = .executing then
    match x.deferred with
    | some (st, d, na, res) => n.answerWith m st d na res
    | none => if n.goesOn m then n else (n.giveUp m).answer m Rs.restartAborted 0 []
  else n

/-- Tasks posted before the restart are dropped; their handles' outcome reads RESTART_ABORTED (R126, R132, R133). -/
def Node.dropTasks (n : Node) : Node :=
  let n := n.rcp.tasks.foldl (fun n e => n.outcome e.1 e.2 Rs.restartAborted) n
  { n with rcp := { n.rcp with tasks := [], credits := [] } }

/-- A step that waited at its firmware-served action posts it (R126). -/
def Node.postWaiting (n : Node) : Node :=
  (List.range 64).foldl (fun n i =>
    let x := n.inst i
    if x.waitFw then n.postFw i (n.stepRec x.recipe x.step).act else n) n

/-- Events that waited in the Sequencer's queue, and in the rings of the safety channels, are written (R401, R427). -/
def Node.flushEvents (n : Node) : Node :=
  let es := n.rcd.held ++ n.safe.chA.ring ++ n.safe.chB.ring
  let n := (n.updRcd (fun r => { r with held := [] })).updSafe (fun f => { f with chA := { f.chA with ring := [] }, chB := { f.chB with ring := [] } })
  es.foldl (fun n e => n.updRcd (fun r => r.accept e)) n

/-- The version of the image of a code that runs, on a port for the PHY DSP code (R475). -/
def Node.runningVersion (n : Node) (code p : Nat) : Nat := (n.sec.running.getD (runKey code p) (0, [])).1

/-- The answer to the command that an island operation holds (R61, R475, R485): ISLAND_UPDATE logs ISLAND_UPDATED (R482) and carries
the island state. -/
def Node.answerIsland (n : Node) (m st : Nat) : Node :=
  match (n.mbx m).req with
  | some (c, _, _, pl) =>
    if c = Cmd.islandUpdate then
      (n.log Ev.islandUpdated (u8 pl 0) (u8 pl 1 + 256 * st) (n.runningVersion (u8 pl 0) (u8 pl 1))).ok m [BitVec.ofNat 8 st, 0, 0, 0]
    else n.ok m []
  | none => n

/-- The command that waits for an island is answered. -/
def Node.releaseWaiter (n : Node) (i : Nat) : Node :=
  match (n.island i).waiter with
  | some m => (n.updIsland i (fun x => { x with waiter := none })).answerIsland m (n.island i).st.code
  | none => n

/-- The restart is complete (R32, R61, R126, R170, R347, R401); `bad` holds the parcels of own records that fail their crc. -/
def Node.coreStart (n : Node) (bad : List Nat) : Node :=
  let n := n.updHost (fun h => { h with restarting := false })
  let n := if n.awake then n.updFio (fun x => x.resume n.now) else n
  let n := n.dropTasks
  let n := (n.releaseWaiter Isl.core).flushEvents
  let n := n.host.mbx.keys.foldl (fun n m => n.afterRestart m) n
  ((n.postWaiting.custRebuild bad).custRepeat).eyesAfterRestart

/-! ### An island leaves RUN -/

/-- Interfaces that count in mode 0 or 1 lose their position (R213, R215). -/
def Node.losePositions (n : Node) (cause : Nat) : Node :=
  [0, 1].foldl (fun n i => if (n.enc i).counting && (n.stall (n.encStall i)).pf 8 1 != 2 then n.positionLost i cause else n) n

/-- A Sequencer reload begins: RUNNING instances are held at their step (R122, R125). -/
def Node.holdInsts (n : Node) : Node :=
  { n with rcp := { n.rcp with insts := n.rcp.insts.mapE (fun _ x => if x.st = .running then { x with st := .held } else x) } }

/-- The zone bus controller leaves the bus (R31, R310, R325); its REMOTE stalls hold before their messages are aborted (R97). -/
def Node.zbLeaves (n : Node) : Node :=
  ((n.updZb (fun z => { z with st := .offline, newMode := none, objects := z.objects.mapE (fun _ _ => none) })).zbHolds).zbEmpty 2 false

/-- What happens outside an island as it leaves RUN for operation `op`, or for a lost lock (R31). -/
def Node.islDown (n : Node) (i : Nat) (op : Option IslOp) : Node :=
  if i = Isl.line then n.refreshHolds .lineIsland
  else if i = Isl.core then (if op.any IslOp.clears then n.coreStop else n)
  else if i = Isl.seq then (let n := (n.flushCache.holdSampling 2).cutFrame; if op = some .reload then n.holdInsts else n)
  else if i = Isl.motion then
    (let n := [0, 1].foldl (fun n i => n.updEnc i Enc.dropFrame) (n.losePositions (if op = some .reset then 0 else 1))
     ([0, 1].foldl (fun n a => n.loseAxis a 1) n).refreshHolds .motionIsland)
  else if i = Isl.io then ((n.captureHeld.refreshHolds .ioIsland).driveAll).cutFrame
  else if i = Isl.zb then n.zbLeaves
  else if i = Isl.safeA ∨ i = Isl.safeB then (n.sfOpen (safeOf i)).chanGone (safeOf i) false
  else if i = Isl.sec then (if op.isSome then n.endSessions else n)
  else n

/-- The Line island's operation closes the bypass as the island enters QUIESCING, after the leave notice (R31, R44, R271). -/
def Node.leaveLine (n : Node) (i : Nat) : Node := if i = Isl.line then (n.sendLeave 3).closeBypass (some 3) else n

/-! ### Reset values (R9, R29) -/

/-- The settings a reset of the Line island brings into force, and the line as it starts (R266, R268, R284). -/
def Line.started (l : Line) (bypass : Bool) : Line :=
  let cfg := l.stored.getD l.cfg
  let port (p : Nat) : Port :=
    let x := l.ports.getD p {}
    let st : PortSt := if x.st = .retired then .retired else if p = 2 then (if cfg.portC = 0 then .disabled else .down)
      else if bypass then .bypassed else .down
    { st := st, drops := x.drops, degraded := x.degraded, gates := x.gates, newGates := x.newGates, reload := x.reload }
  { ports := (List.range 3).map (fun p => (p, port p)), cfg := cfg, cycle := if cfg.head && cfg.cycle != 0 then cfg.cycle else 1000,
    level := l.level, raise := l.raise, sharedLost := l.sharedLost, mapDue := cfg.head }

/-- A Line island reset (R29, R59, R70): mailboxes FREE, host registers, switch and ports at their reset values. -/
def Node.lineReset (n : Node) : Node :=
  let n := n.portDown 2 0 none
  let n := n.updHost (fun h => { h with mbx := [], posted := [], nextPath := 0, spi := {}, svc := {} })
  n.updLine (fun l => l.started n.power.bypassClosed)

/-- A Sequencer reset keeps no instance (R122); stops that waited for a reload are answered. -/
def Node.dropInsts (n : Node) (all : Bool) : Node :=
  (List.range 64).foldl (fun n i =>
    let x := n.inst i
    if x.st = .armed ∨ x.st = .held ∨ (all ∧ x.st = .running) then n.resetInst i
    else x.heldStops.foldl (fun n e => n.ok e.1 (stateResult .done)) (n.setInst i { x with heldStops := [] })) n

/-- Every loop initialises at its next update (R152). -/
def Node.freshLoops (n : Node) : Node := { n with loops := n.loops.mapE (fun _ l => { l with fresh := true }) }

/-- The island's logic returns to its reset values (R29, R215, R255). -/
def Node.islClear (n : Node) (i : Nat) (op : Option IslOp) : Node :=
  if i = Isl.line then n.lineReset
  else if i = Isl.seq then
    (let n := n.dropCache
     if op = some .reset then (n.dropInsts true).freshLoops else n)
  else if i = Isl.motion then
    { n with
      encs := n.encs.mapE (fun k e =>
        let e := e.disarmAll.rest
        if (n.stall (n.encStall k)).pf 8 1 = 2 then { e with haveFrame := false } else e)
      drives := n.drives.mapE (fun _ d => { d with staged := [] }) }
  else if i = Isl.io then n.updFio (fun x => { x with wdSt := .disabled })
  else if i = Isl.zb then n.updZb (fun z => { z with lane := [], tec := 0, recCnt := 0 })
  else if i = Isl.safeA ∨ i = Isl.safeB then n.updChan (safeOf i) (fun c => { st := .lost, cycleAt := c.cycleAt })
  else if i = Isl.glean then { n with glean := { n.glean with staged := n.glean.rules, sts := [], logs := [] } }
  else n

/-! ### The island runs again -/

/-- HELD and ARMED instances go on after a Sequencer reload (R122, R125): an action whose T_act passed is late, and stops that waited act
now. -/
def Node.resumeInsts (n : Node) : Node :=
  (List.range 64).foldl (fun n i =>
    let x := n.inst i
    let n := n.setInst i { x with heldStops := [] }
    let n := if x.st = .held then (n.updInst i (fun x => { x with st := .running })).rejudge i
      else if x.st = .armed ∧ x.epoch ≤ n.now then n.updInst i (fun x => { x with st := .running, entered := x.epoch, step := 0 })
      else n
    x.heldStops.foldl (fun n e => n.stopInst i e.1 e.2) n) n

/-- Compares with hits during a Sequencer operation set their flags (R215). -/
def Node.dueFlags (n : Node) : Node :=
  [0, 1].foldl (fun n i =>
    [0, 1].foldl (fun n c =>
      let x := (n.enc i).compares.getD c {}
      if x.flagDue then
        let n := n.updEnc i (fun e => { e with compares := e.compares.put c { x with flagDue := false } })
        if x.flag < 64 then n.setFlag x.flag true else n
      else n) n) n

/-- Inputs held for an I/O island operation filter anew (R96, R157). -/
def Node.settleInputs (n : Node) : Node :=
  (List.range 16).foldl (fun n i =>
    if (n.stall (n.inStall i)).holds.contains .ioIsland then n.setIn i ((n.inPin i).restart n.now false) else n) n

/-- The watchdog after a reset: ARMED with the stored timeout, or DISABLED; its hold cause has ended (R170). -/
def Node.wdStart (n : Node) : Node :=
  let was := n.fio.wdSt
  let n := n.updFio (fun x => if x.wdTimeout = 0 then { x with wdSt := .disabled } else x.rearm n.now)
  if was = .expired then n.endWatchdog else n

/-- The controller returns to the bus by its stored mode (R310); `keep` keeps TEC and REC. -/
def Node.zbReturns (n : Node) (keep : Bool) : Node :=
  let st : ZbSt := if n.zb.mode = 0 then .off else if n.zb.mode = 3 then .loopback else .integrating
  let n := n.updZb (fun z => { z with st := st, tec := if keep then z.tec else 0, recCnt := if keep then z.recCnt else 0 })
  n.zbHolds

/-- What happens as an island is back in RUN after `op`, none after a lost lock alone. -/
def Node.islUp (n : Node) (i : Nat) (op : Option IslOp) : Node :=
  if i = Isl.line then n.refreshHolds .lineIsland
  else if i = Isl.seq then (((n.skipUpdates.resumeInsts).dueFlags).drivesAgain)
  else if i = Isl.motion then n.refreshHolds .motionIsland
  else if i = Isl.io then
    (let n := (n.settleInputs.refreshHolds .ioIsland).driveAll
     if op = some .reset then n.wdStart else n)
  else if i = Isl.zb then n.zbReturns false
  else if i = Isl.safeA ∨ i = Isl.safeB then
    (if op.any IslOp.clears then n.updChan (safeOf i) (fun c => { c with st := .testing, tested := false }) else n)
  else n

/-! ### The states of R32 -/

/-- ISLAND_STATE is logged; the spec states no parameters (log 12). -/
def Node.islandLog (n : Node) : Node := n.logFree Ev.islandState

/-- The island enters RUN. What a wake brings back comes at its end (R451). -/
def Node.islandRuns (n : Node) (i : Nat) : Node :=
  let op := (n.island i).op
  let waking := n.glean.st == .waking && (n.island i).st == .held && op.isNone
  let n := n.updIsland i (fun x => { x with st := .run, op := none, resume := none })
  if waking then (if i = Isl.io then n.framesFrom else n) else ((n.islUp i op).releaseWaiter i)

/-- The field cores do not come back (R32): the restart is over, and what executed is answered; the ISLAND_CONTROL that asked for it is
answered OK (DESIGN CHOICE, log 43). -/
def Node.coreFails (n : Node) : Node :=
  let n := n.updHost (fun h => { h with restarting := false })
  let n := (n.releaseWaiter Isl.core).flushEvents
  n.host.mbx.keys.foldl (fun n m => n.afterRestart m) n

/-- The island enters FAILED. The ports of a failed Line island stand stopped with the bypass closed (R71); a failed Sequencer reload
ends its instances (R122, R152). -/
def Node.islandFails (n : Node) (i : Nat) : Node :=
  let op := (n.island i).op
  let n := n.updIsland i (fun x => { x with st := .failed, op := none, resume := none })
  let n := if i = Isl.line then n.closeBypass (some 3) else n
  let n := if i = Isl.seq ∧ op = some .reload then (n.dropInsts false).freshLoops else n
  if i = Isl.core then n.coreFails else n.releaseWaiter i

/-- HELD is entered: reset and reload return the logic to its reset values. -/
def Node.islandHeld (n : Node) (i : Nat) : Node :=
  let op := (n.island i).op
  (n.updIsland i (fun x => { x with st := .held })).islClear i op

/-- What follows QUIESCING, by the operation; a re-clock stops the clock (R29, R33). -/
def Node.islandQuiet (n : Node) (i : Nat) : Node :=
  match (n.island i).op with
  | some .recalibrate => n.updIsland i (fun x => { x with st := .calibrating })
  | some .reclock => n.updIsland i (fun x => { x with st := .relocking, locked := false })
  | _ => n.islandHeld i

/-- An accepted operation starts (R32, R44): from RUN through QUIESCING, from FAILED at once. -/
def Node.startOp (n : Node) (i : Nat) (op : IslOp) (bank : Nat) (waiter : Option Nat) : Node :=
  let failed := (n.island i).st == .failed
  let n := n.leaveLine i
  let n := n.updIsland i (fun x => { x with st := .quiescing, op := some op, bank := bank, resume := none, waiter := waiter,
                                            opCount := BitVec.ofNat 8 (satInc 8 x.opCount.toNat) })
  let n := n.islDown i (some op)
  if failed then n.islandQuiet i else n

/-- The Core island may not run yet: its restart is complete only with CORE_RESTART_DONE (R32). -/
def Node.coreWaits (n : Node) (i : Nat) : Bool := i == Isl.core && (n.island i).op.any IslOp.clears

/-! ### Refusals (R30, R32) -/

/-- An axis is away from standstill. -/
def Node.axisMoves (n : Node) : Bool := [0, 1].any (fun a => (n.axis a).st != .standstill && (n.axis a).st != .disabled)
/-- Why an operation of an island is refused: not listed in R12, the zone not in STOP, an axis that moves, an island neither in RUN
nor in FAILED, and a recalibration or re-clock of a FAILED island whose image is not good. -/
def Node.opRefusals (n : Node) (i : Nat) (op : IslOp) : List (Bool × Nat × Nat) :=
  let x := n.island i
  [(!(islandOps i).contains op, Rs.islandForbidden, 0),
   ((i == Isl.safeA || i == Isl.safeB) && n.safe.zone != .stop, Rs.safetyNotStopped, 0),
   (i == Isl.motion && n.axisMoves, Rs.axisMoving, 0),
   (x.st != .run && x.st != .failed, Rs.busy, 0),
   (x.st == .failed && !op.clears && (imageCode i).isSome && !x.imageOk, Rs.busy, 0)]

end Sys2Proof.Machine
end

