-- ==== Sys2Proof/Machine/GleanerOps.lean ====
section
/-! DEFINITION. Sleep and the Gleaner as operations (20): blockers (R447), the wake timer (R448), entry, abort and wake (R449 to
R452), rules (R454 to R457) and filters (R455). -/

namespace Sys2Proof.Machine

/-- Change the Power island. -/
def Node.updPower (n : Node) (f : Power → Power) : Node := { n with power := f n.power }

/-- Change the Gleaner's registers. -/
def Node.updGlean (n : Node) (f : Gleaner → Gleaner) : Node := { n with glean := f n.glean }

/-! ### When the node may sleep -/

/-- The instants at which the wake timer must find the node in RUN (R448). -/
def Node.wakeInstants (n : Node) : List T64 :=
  let steps := n.rcp.insts.filterMap (fun e =>
    let r := n.stepRec e.2.recipe e.2.step
    if (e.2.st = .running ∨ e.2.st = .held) ∧ e.2.act = none ∧ r.timeout ≠ 0 then some (e.2.entered + ms r.timeout) else none)
  let acts := n.rcp.insts.filterMap (fun e => if e.2.st = .running ∨ e.2.st = .held then e.2.act else none)
  let epochs := n.rcp.insts.filterMap (fun e => if e.2.st = .armed then some e.2.epoch else none)
  let writes := n.stalls.filterMap (fun e => e.2.timedWrite.map Prod.snd)
  let releases := n.rcp.tasks.filterMap (fun e => if e.2.st = .delayed then some e.2.release else none)
  let zeros := n.stalls.filterMap (fun e => if e.2.kd = K.timer ∧ e.2.active then e.2.zeroAt else none)
  let moves := n.axes.flatMap (fun e => e.2.timed.map (fun t => match t with | .move _ _ _ _ _ _ u => u | .stop _ u => u))
  let latches := n.encs.flatMap (fun e => e.2.latches.filterMap (fun l => if l.2.st = 1 ∧ l.2.source = 4 then some l.2.instant else none))
  let parks := n.lifts.filterMap (fun e =>
    if (e.2.st = .idle ∨ e.2.st = .unreferenced) ∧ e.2.calls = 0 ∧ e.2.idleTime ≠ 0 ∧ e.2.parkLevel < n.levels e.1 then some (e.2.idleFrom + ms (1000 * e.2.idleTime)) else none)
  steps ++ acts ++ epochs ++ writes ++ n.rcp.issued.map Issued.at_ ++ releases ++ zeros ++ moves ++ latches ++ parks

/-- The wake timer: the earliest instant less 450 µs (R448). -/
def Node.nextWake (n : Node) : Option T64 := (n.wakeInstants.min?).map (fun t => t - us 450)

/-- The blockers of R447. -/
def Node.blockers (n : Node) : Nat :=
  let g := n.glean
  let any {α : Type} (t : Tbl α) (p : α → Bool) : Bool := t.any (fun e => p e.2)
  let b (k : Nat) (v : Bool) : Nat := if v then 2 ^ k else 0
  let axis := any n.axes (fun x => x.st != .disabled && x.st != .standstill) || any n.drives (fun d => d.coil == .run || d.coil == .hold)
  let lift := any n.lifts (fun x => x.st != .idle && x.st != .unreferenced && x.st != .inactive)
  let custody := n.cust.recovering || any n.cust.own (fun r => r.st == .inbound || r.st == .held || r.st == .outbound)
  let pwm := any n.stalls (fun s => s.active && s.pwm && s.commanded != 0)
  let remote := any n.stalls (fun s => s.kd == K.remote && s.active && (if s.pf 12 1 = 1 then s.pf 18 2 != 0 else s.pf 16 2 != 0))
  let conn := any n.sfCfg.produced SfConn.used || any n.sfCfg.consumed SfConn.used
  let host := any n.host.mbx (fun x => x.st == .posted || x.st == .executing) || any n.host.sessions (fun x => x.halfOpen && !x.ended)
  let near := match n.nextWake with | some t => decide (t < n.now + ms 5) | none => false
  b 0 (!g.enable) + b 1 axis + b 2 lift + b 3 custody + b 4 (any n.stalls (fun s => s.kd == K.loop && s.active)) + b 5 pwm
    + b 6 (remote || n.time.cfg.refPeriod != 0 || !n.zb.fifo.isEmpty) + b 7 conn
    + b 8 (g.flags.getLsbD 0 && any n.harv.slots (fun x => x.st == .granted)) + b 9 host + b 10 (any n.rcp.tasks (fun t => t.st != .delayed))
    + b 11 (n.host.restarting || (List.range 12).any (fun i => (n.island i).st != .run)) + b 12 near

/-- The islands that gate in sleep (R445). -/
def gatedIslands : List Nat := [Isl.core, Isl.mem, Isl.seq, Isl.motion, Isl.io, Isl.zb]

/-! ### Abort and wake -/

/-- Filters restart at sleep entry and at wake; an analogue condition stays armed (R455). -/
def Node.freshFilters (n : Node) : Node := n.updGlean (fun g => { g with sts := g.sts.mapE (fun _ s => { s with hist := [], y := none }) })

/-- An input stall is INVALID until its filter time has passed (R174). -/
def Node.inputsAnew (n : Node) : Node :=
  (List.range 16).foldl (fun n i =>
    let k := n.inStall i
    if (n.stall k).active then (n.setIn i { (n.inPin i).restart n.now true with lowRun := 0, highRun := 0 }).updStall k (fun s => s.setStatus St.invalid true)
    else n) n

/-- Entry is given up (R449): what had been saved goes on. -/
def Node.abortSleep (n : Node) (reasons : Nat) : Node :=
  let bl := n.blockers
  let saved := n.glean.st == .entering1 || n.glean.st == .entering2
  let n := n.updGlean (fun g => { g with st := .awake, pend := 0 })
  let n := if n.host.restarting then n else n.updFio (fun x => x.resume n.now)
  let n := n.resumeInsts
  let n := if saved && n.zb.st == .offline then n.zbReturns true else n
  n.log Ev.sleepAborted reasons bl 0

/-- A wake cause (R450): in sleep the wake starts and the islands pass from GATED to HELD; during entry the entry is given up; a wake
that runs holds all causes, with those of the wake lines. -/
def Node.wakeBy (n : Node) (causes rule : Nat) : Node :=
  let reasons := (BitVec.ofNat 32 causes ||| n.glean.pend.setWidth 32).toNat
  let first (g : Gleaner) : Nat := if g.wakeRule = 0xFF then rule else g.wakeRule
  match n.glean.st with
  | .asleep =>
    let n := n.updGlean (fun g => { g with st := .waking, reasons := BitVec.ofNat 32 reasons, wakeRule := rule, timer := none, pend := 0 })
    gatedIslands.foldl (fun n i => n.updIsland i (fun x => if x.st = .gated then { x with st := .held, op := none } else x)) n
  | .waking => n.updGlean (fun g => { g with reasons := g.reasons ||| BitVec.ofNat 32 reasons, wakeRule := first g, pend := 0 })
  | .awake => n
  | _ => n.abortSleep reasons

/-- A GLEANER_LOG record that waited is written with its own t64 (R456). -/
def Node.logWaiting (n : Node) : Node :=
  n.glean.logs.foldl (fun n (e : T64 × Nat × Nat × Nat) => n.logAt e.1 Ev.gleanerLog e.2.1 e.2.2.1 e.2.2.2) (n.updGlean (fun g => { g with logs := [] }))

/-- LINEPOINT stalls take the latest entries that the Line island kept (R452). -/
def Node.takeKept (n : Node) : Node :=
  let n' := n.updLine (fun l => { l with kept := [] })
  n.line.kept.foldl (fun n (e : Nat × W64 × Bool × Nat × T64) =>
    let s := n.stall e.1
    if s.kd = K.linepoint ∧ s.st = .running then n.putStall e.1 (s.takePoint e.2.2.1 e.2.2.2.1 e.2.1 e.2.2.2.2) else n) n'

/-- Frames that waited are delivered in arrival order (R450). -/
def Node.takeFrames (n : Node) : Node :=
  let last := n.glean.frames.getLast?
  (n.updGlean (fun g => { g with frames := [] })).updLine (fun l => { l with delivered := last.orElse (fun _ => l.delivered) })

/-- At wake an interface without an edge for 100 ms is at standstill (R204), and catch-up compares move ahead as at a write (R215). -/
def Node.catchUpCompares (n : Node) : Node :=
  let n := [0, 1].foldl (fun n i => if (n.encSet i).pf 8 1 != 2 && decide ((n.enc i).lastEdge + ms 100 ≤ n.now) then n.updEnc i Enc.rest else n) n
  [0, 1].foldl (fun n i => [0, 1].foldl (fun n c =>
    let x := (n.enc i).compare c
    if x.armed && x.auto && x.catchUp then n.armCompare i c x else n) n) n

/-! ### Rules (R454 to R456) -/

/-- A rule in 16 bytes. -/
def GlRule.ofBytes (b : List Byte) : GlRule :=
  { src := u8 b 0, index := u8 b 1, filter := u8 b 2, p1 := u8 b 3, p2 := u8 b 4, cond := u8 b 5, action := u8 b 6,
    act := BitVec.ofNat 8 (u8 b 7), level := u16 b 8, hyst := u16 b 10, target := u8 b 12, value := u8 b 13, limit := u16 b 14 }
def GlRule.bytes (r : GlRule) : List Byte :=
  leBytes 1 r.src ++ leBytes 1 r.index ++ leBytes 1 r.filter ++ leBytes 1 r.p1 ++ leBytes 1 r.p2 ++ leBytes 1 r.cond ++ leBytes 1 r.action
    ++ [r.act] ++ leBytes 2 r.level ++ leBytes 2 r.hyst ++ leBytes 1 r.target ++ leBytes 1 r.value ++ leBytes 2 r.limit

/-- The output a rule may set: an OUTPUT in switch mode, or a PROTECTED output with safe_use 0 (R456). -/
def Node.glOutput (n : Node) (o : Nat) : Bool :=
  let s := n.stall (n.outStall o)
  decide (o < 16) && ((s.kd == K.output && !s.pwm) || (s.kd == K.prot && s.pf 13 1 == 0))

/-- Mode of an analogue input's stall. -/
def Node.ainMode (n : Node) (k : Nat) : Nat := (n.stall (n.stallOf (32 + k))).pf 8 1

/-- The first offset that fails. -/
def firstOff (l : List (Bool × Nat)) : Option Nat := (l.find? Prod.fst).map Prod.snd
/-- A value outside lo … hi at an offset. -/
def offIn (v lo hi o : Nat) : Bool × Nat := (decide (v < lo ∨ hi < v), o)

/-- What is wrong with a rule, by field offset (R454 to R456). -/
def Node.glFault (n : Node) (r : GlRule) : Option Nat :=
  if r.src = 0 then none
  else
    let dig := r.src == 1
    firstOff [offIn r.src 0 2 0, offIn r.index 0 (if dig then 15 else 3) 1, (!dig && r.index % 2 == 1 && n.ainMode r.index == 1, 1), offIn r.filter 0 4 2, (dig && r.filter == 4, 2),
      if r.filter = 1 then offIn r.p1 1 16 3 else if r.filter = 4 then offIn r.p1 1 8 3 else offIn r.p1 0 0 3,
      if r.filter = 1 then offIn r.p2 1 16 4 else offIn r.p2 0 0 4, (r.filter == 1 && decide (2 * r.p1 ≤ r.p2), 4),
      if dig then offIn r.cond 0 2 5 else offIn r.cond 3 4 5, offIn r.action 1 4 6, offIn r.act.toNat 0 3 7,
      ((r.action == 1 || r.action == 2) && r.act.getLsbD 1, 7), (dig && r.level != 0, 8), (dig && r.hyst != 0, 10),
      if r.action = 2 then (!n.glOutput r.target, 12) else (r.target != 0xFF, 12),
      if r.action = 2 then offIn r.value 0 1 13 else offIn r.value 0 0 13, (r.action != 3 && r.limit != 0, 14)]

/-- The first faulty rule of a table, with its detail. -/
def Node.glTableFault (n : Node) (t : Tbl GlRule) : Option Nat :=
  t.findSome? (fun e => (n.glFault e.2).map (fun o => e.1 * 16 + o))

/-- The table fits what is left of the Gleaner SRAM: all of it fits while no page is gone, else as many rules as a free number
tells (R494; log 44). -/
def Node.glFits (n : Node) (t : Tbl GlRule) : Bool :=
  let lost := n.mem.retiredPages.getD 9 0
  lost == 0 || decide (t.length ≤ (Config.freeOf 17 (BitVec.ofNat 64 lost)).toNat)

/-- Insertion into a sorted list. -/
def insertInt (x : Int) : List Int → List Int
  | [] => [x]
  | h :: t => if x ≤ h then x :: h :: t else h :: insertInt x t
/-- The median of an odd number of samples. -/
def median (l : List Int) : Int := (l.foldr insertInt []).getD (l.length / 2) 0

/-- The filter takes a sample (R455). -/
def GlRule.sample (r : GlRule) (s : GlSt) (x : Int) : GlSt :=
  let keep (k : Nat) : List Int := (x :: s.hist).take k
  match r.filter with
  | 1 => { s with hist := keep r.p2, y := if r.p1 ≤ ((keep r.p2).filter (· == x)).length then some x else s.y }
  | 2 => { s with hist := keep 3, y := if (keep 3).length = 3 then some (median (keep 3)) else s.y }
  | 3 => { s with hist := keep 5, y := if (keep 5).length = 5 then some (median (keep 5)) else s.y }
  | 4 => { s with y := some (match s.y with | some y => y + (x - y) / (2 ^ r.p1 : Nat) | none => x) }
  | _ => { s with y := some x }

/-- The condition after a sample: whether it fires, and whether it stays armed (R455). -/
def GlRule.fires (r : GlRule) (old new : GlSt) (level : Int) : Bool × Bool :=
  match new.y with
  | none => (false, old.armed)
  | some y =>
    if r.src = 1 then
      (match old.y with
       | some o => (o != y && (r.cond == 2 || (r.cond == 0 && y == 1) || (r.cond == 1 && y == 0)), false)
       | none => (false, false))
    else if r.cond = 3 then
      (if old.armed && decide (level ≤ y) then (true, false) else (false, old.armed || decide (y ≤ level - r.hyst)))
    else
      (if old.armed && decide (y ≤ level) then (true, false) else (false, old.armed || decide (level + r.hyst ≤ y)))

/-- The rule is active now: asleep by bit 0, awake by bit 1. -/
def Node.glActive (n : Node) (r : GlRule) : Bool := r.src != 0 && (if n.awake then r.act.getLsbD 1 else r.act.getLsbD 0)

/-- GLEANER_LOG: awake it is logged, asleep up to 64 wait (R456). -/
def Node.glLog (n : Node) (k : Nat) (y : Int) (count : Nat) : Node :=
  if n.awake then n.log Ev.gleanerLog k (par y) count
  else if n.glean.logs.length < 64 then n.updGlean (fun g => { g with logs := g.logs ++ [(n.now, k, par y, count)] })
  else n.updRcd (fun r => r.suppress Ev.gleanerLog)

/-- A pad takes a level in sleep (R175, R456), unless R173 holds it off. -/
def Node.glSet (n : Node) (o : Nat) (v : Bool) : Node :=
  let st := (n.stall (n.outStall o)).st
  if n.glOutput o && !n.latchedOff && n.fieldPowered && (st == .running || st == .hold) then
    n.setOut o { n.outPin o with padLatch := v, on := v, duty := if v then 65536 else 0 }
  else n

/-- The action of a rule that fired. -/
def Node.glAct (n : Node) (k : Nat) (r : GlRule) : Node :=
  let s := n.glean.sts.getD k {}
  let y := s.y.getD 0
  if r.action = 1 then (if n.awake then n else n.wakeBy 1 k)
  else if r.action = 2 then (if n.awake then n else n.glSet r.target (r.value == 1))
  else if r.action = 3 then
    let c := s.count + 1
    let n := n.updGlean (fun g => { g with sts := g.sts.put k { s with count := c } })
    if r.limit ≠ 0 ∧ c.toNat = r.limit ∧ !n.awake then n.wakeBy 1 k else n
  else if r.action = 4 then n.glLog k y s.count.toNat
  else n

/-- One rule sees its sample. -/
def Node.glRule (n : Node) (k : Nat) (r : GlRule) (x : Option Int) : Node :=
  match x with
  | none => n
  | some x =>
    let s := n.glean.sts.getD k {}
    let s' := r.sample s x
    let level : Int := if r.src = 2 ∧ n.ainMode r.index = 1 then toSigned 16 r.level else r.level
    let (fire, armed) := r.fires s s' level
    let n := n.updGlean (fun g => { g with sts := g.sts.put k { s' with armed := armed } })
    if fire then n.glAct k r else n

end Sys2Proof.Machine
end

