-- ==== Sys2Proof/Machine/Gleaner.lean ====
section
/-! DEFINITION. Sleep, the Gleaner and energy (20): the commands, sleep entry and wake, Gleaner samples, low-power idle and the
energy meters. -/

namespace Sys2Proof.Machine

/-! ### Commands (R446, R457, R459) -/

/-- GLEANER_RULES (R454 to R457): op 0 stage, op 1 commit, op 2 read. -/
def execGleanerRules (path idx : Nat) (s : State) : Host.Outcome State Fault Refusal :=
  s.run fun n => n.hostCmd Cmd.gleanerRules path idx fun n m pl =>
    let op := u8 pl 0
    let start := u8 pl 1
    let count := u8 pl 2
    let top := if op = 0 then 28 else if op = 2 then 20 else 0
    let low := if op = 1 then 0 else 1
    n.checked m [(decide (pl.length < 4), Rs.lengthBad, 0), badIn op 0 2 0, badIn count low top 2,
        badLen pl (if op = 0 then 4 + 16 * count else 4), badIn start 0 63 1, badRange (decide (64 < start + count)) 2, badRes pl 3 1]
      (if op = 0 then
         (n.updGlean (fun g => { g with staged := (List.range count).foldl (fun t i => t.put (start + i) (GlRule.ofBytes (slice pl (4 + 16 * i) 16))) g.staged })).ok m []
       else if op = 1 then
         (match n.glTableFault n.glean.staged with
          | some d => n.answer m Rs.ruleInvalid d []
          | none =>
            if !n.glFits n.glean.staged then n.answer m Rs.ruleInvalid 0 [] else
            n.needCfg m Cmd.gleanerRules
              (let bytes := (List.range 64).flatMap (fun k => (n.glean.staged.getD k {}).bytes)
               let n := n.updGlean (fun g => { g with rules := g.staged, sts := [] })
               (n.storeCfg Cmd.gleanerRules 0 bytes).ok m []))
       else
         n.ok m ((List.range count).flatMap (fun i => (n.glean.rules.getD (start + i) {}).bytes)
           ++ (List.range count).flatMap (fun i => leBytes 4 (n.glean.sts.getD (start + i) {}).count.toNat)))

/-- The results of SLEEP_POLICY. -/
def Node.sleepResults (n : Node) : List Byte :=
  leBytes 4 n.blockers ++ leBytes 4 n.glean.reasons.toNat ++ leBytes 4 n.glean.sleeps ++ leBytes 8 n.glean.asleep ++ leBytes 8 (n.nextWake.getD 0)

/-- SLEEP_POLICY (R446). -/
def execSleepPolicy (path idx : Nat) (s : State) : Host.Outcome State Fault Refusal :=
  s.run fun n => n.hostCmd Cmd.sleepPolicy path idx fun n m pl =>
    let op := u8 pl 0
    let watch (k : Nat) : Nat := u16 pl (8 + 2 * k)
    let bad (k : Nat) : Bool := watch k != noStall && !(decide (watch k < numStalls) && (n.stall (watch k)).kd == K.linepoint)
    n.checked m [(decide (pl.length < 1), Rs.lengthBad, 0), badIn op 0 1 0, badLen pl (if op = 0 then 24 else 4)]
      (if op = 0 then
         n.checked m ([badIn (u8 pl 1) 0 1 1, (decide (16 ≤ u8 pl 2), Rs.paramReserved, 2), badRange (!([1, 2, 4, 5, 8, 10].contains (u8 pl 3))) 3,
             badIn (u32 pl 4) 10 3600000 4] ++ (List.range 8).map (fun k => badRange (bad k) (8 + 2 * k)))
           (n.needCfg m Cmd.sleepPolicy
             (let n := n.updGlean (fun g => { g with enable := u8 pl 1 == 1, flags := BitVec.ofNat 8 (u8 pl 2), rate := u8 pl 3, delay := u32 pl 4,
                                                     watch := (List.range 8).map watch })
              let n := n.storeCfg Cmd.sleepPolicy 0 pl
              n.ok m n.sleepResults))
       else n.checked m [badRes pl 1 3] (n.ok m n.sleepResults))

/-- ENERGY_READ (R459). -/
def execEnergyRead (path idx : Nat) (s : State) : Host.Outcome State Fault Refusal :=
  s.run fun n => n.hostCmd Cmd.energyRead path idx fun n m pl =>
    let mask := u32 pl 0
    n.checked m [badLen pl 4, (decide (2 ^ 17 ≤ mask), Rs.paramReserved, 0)]
      (n.ok m (leBytes 8 n.now ++ leBytes 4 n.cust.releasedCount ++ [0, 0, 0, 0] ++ leBytes 8 n.cust.charged
        ++ (List.range 17).flatMap (fun k => if bit mask k then leBytes 8 (n.glean.meters.getD k 0) else [])))

/-! ### Energy and low-power idle (R458 to R460) -/

/-- The meters advance by increments in µJ; the Power island's is the tap less every other island (R459). -/
def Gleaner.advance (g : Gleaner) (inc : List Nat) : Gleaner :=
  let t := (List.range 17).foldl (fun (t : Tbl Nat) k => t.put k ((g.meters.getD k 0 + inc.getD k 0) % 2 ^ 64)) []
  let rest := ((List.range 11).map (fun k => t.getD k 0)).sum
  { g with meters := t.put 11 (t.getD 12 0 - rest) }

/-- ENERGY_INTERVAL (R40, R459, R460): the voltage at the tap in mV, and the increments of the 17 meters since the last interval, in µJ;
those of tap and VF24 are shared among the HELD records. -/
def execEnergyInterval (seen : Nat × List Nat) (s : State) : Host.Outcome State Fault Refusal :=
  s.run fun n =>
    if !n.powered Isl.power then n else
    let t := nextGrid (max n.gridNow (n.glean.energyAt + 1)) (ms 10)
    let n := ((n.upTo t).updPower (fun p => { p with tap := seen.1 })).updGlean (fun g => { g.advance seen.2 with energyAt := t })
    let e := seen.2.getD 12 0 + seen.2.getD 13 0
    let k := (n.cust.own.filter (fun r => r.2.st == .held)).length
    if k = 0 then n
    else
      let gain := (e + n.cust.energyRem) / k
      { n with cust := { n.cust with energyRem := (e + n.cust.energyRem) % k, charged := (n.cust.charged + gain * k) % 2 ^ 64,
                                     own := n.cust.own.mapE (fun _ r => if r.st == .held then { r with acc := r.acc + gain } else r) } }

/-- The queues of a port are empty. -/
def Node.queuesEmpty (n : Node) (p : Nat) : Bool :=
  (List.range 8).all (fun c => (n.line.queue p c).isEmpty) && (n.port p).sending.isNone && (n.port p).held.isNone

/-- LPI_ENTER (R458): the queues of port `p` have been empty for 20 µs. -/
def execLpiEnter (p : Nat) (s : State) : Host.Outcome State Fault Refusal :=
  s.run fun n =>
    let x := n.port p
    let near := decide (nextGrid (n.now + 1) (us n.line.cycle) ≤ n.now + us 40)
    if p < 3 ∧ n.runs Isl.line ∧ n.glean.flags.getLsbD (1 + p) ∧ x.lpiAgreed ∧ (x.st = .up ∨ x.st = .foreign) ∧ n.queuesEmpty p ∧ x.entry ≠ 0 ∧ !near then
      n.setPort p { x with lpi := true }
    else n

/-- LPI_EXIT (R458): a frame is queued on a port in LPI. -/
def execLpiExit (p : Nat) (s : State) : Host.Outcome State Fault Refusal :=
  s.run fun n => if (n.port p).lpi ∧ !n.queuesEmpty p then n.updPort p (fun x => { x with lpi := false, clock := 10 * n.now }) else n

/-! ### Sleep (R445, R447 to R452) -/

/-- SLEEP_ENTRY (R447, R449): no blocker has stood for the delay. Up to t1: the context, the instances and the stall cache are saved,
the watchdog is SUSPENDED and the output levels latched. -/
def execSleepEntry (s : State) : Host.Outcome State Fault Refusal :=
  s.run fun n =>
    if n.glean.st = .awake ∧ n.blockers = 0 then
      let n := n.log Ev.sleepEntered (n.nextWake.getD 0) n.glean.sleeps 0
      let n := n.updGlean (fun g => { g with st := .entering0, pend := 0 })
      let n := n.flushCache.holdInsts
      let n := n.updFio (fun x => x.suspend n.now)
      (List.range 16).foldl (fun n o => n.setOut o { n.outPin o with padLatch := n.outOn o && !(n.stall (n.outStall o)).pwm }) n
    else n

/-- SLEEP_CONTEXT_SAVED (R310, R449): up to t2, the zone bus goes OFFLINE; its FIFO is kept. -/
def execSleepContextSaved (s : State) : Host.Outcome State Fault Refusal :=
  s.run fun n =>
    if n.glean.st = .entering0 then
      if n.blockers ≠ 0 ∨ n.glean.pend ≠ 0 then n.abortSleep n.glean.pend.toNat
      else
        let n := n.updGlean (fun g => { g with st := .entering1 })
        if n.zb.st = .off then n else n.updZb (fun z => { z with st := .offline })
    else n

/-- PWM outputs are off in sleep (R175). -/
def Node.pwmOff (n : Node) : Node :=
  (List.range 16).foldl (fun n o => if (n.stall (n.outStall o)).pwm then n.setOut o { n.outPin o with on := false } else n) n

/-- What stops or is latched as the islands gate (R175, R215, R256, R394, R455). -/
def Node.gateAll (n : Node) : Node :=
  let n := gatedIslands.foldl (fun n i => n.updIsland i (fun x => { x with st := .gated })) n
  let n := (((n.holdSampling 5).freshFilters).pwmOff).updAdc (fun a => { a with frameDropped := true })
  let n := [0, 1].foldl (fun n i => n.updEnc i Enc.dropFrame) n
  let n := { n with harv := { n.harv with tbusLow := false, cbusLow := false } }
  n.updLine (fun l => { l with kept := [] })

/-- SLEEP_ZB_OFFLINE (R32, R445, R448, R449): at t3 the islands gate and the wake timer is armed. -/
def execSleepZbOffline (s : State) : Host.Outcome State Fault Refusal :=
  s.run fun n =>
    if n.glean.st = .entering1 then
      if n.blockers ≠ 0 ∨ n.glean.pend ≠ 0 then n.abortSleep n.glean.pend.toNat
      else
        (n.updGlean (fun g => { g with st := .asleep, timer := n.nextWake, since := n.now, sleeps := satInc 32 g.sleeps, wakeRule := 0xFF })).gateAll
    else n

/-- WAKE_TIMER (R448, R450). -/
def execWakeTimer (s : State) : Host.Outcome State Fault Refusal :=
  s.run fun n =>
    match n.glean.timer with
    | some t => if n.glean.st = .asleep then (n.upTo t).wakeBy 2 0xFF else n
    | none => n

/-- WAKE (R16, R450, R451): the Gleaner has taken in the wake lines `lines`, a bit mask; if one of them stands, the node wakes with the
reasons of all that stand. -/
def execWake (lines : Nat) (s : State) : Host.Outcome State Fault Refusal :=
  s.run fun n => if n.glean.pend.toNat &&& lines = 0 then n else n.wakeBy 0 0xFF

/-- WOKE (R174, R175, R215, R310, R450 to R452): t4 of the wake. `edgesLost` has the interfaces whose decoder met more than 1 MHz in
sleep. -/
def execWoke (edgesLost : Nat) (s : State) : Host.Outcome State Fault Refusal :=
  s.run fun n =>
    let g := n.glean
    if g.st ≠ .waking ∨ gatedIslands.any (fun i => !n.slept i && (n.island i).st != .run) then n
    else
      let n := gatedIslands.foldl (fun n i => n.updIsland i (fun x => { x with st := .run })) n
      let span := n.now - g.since
      let reasons := g.reasons ||| g.pend.setWidth 32
      let n := n.updGlean (fun g => { g with st := .awake, asleep := g.asleep + span, reasons := reasons, pend := 0 })
      let n := n.logWaiting.log Ev.woke reasons.toNat g.wakeRule (min (span / 1000000) (2 ^ 32 - 1))
      let n := n.driveAll.inputsAnew
      let n := n.updFio (fun x => if x.wdSt = .suspended then x.rearm n.now else x)
      let n := if n.zb.st = .offline then n.zbReturns true else n
      let n := [0, 1].foldl (fun n i =>
        if bit edgesLost i && (n.enc i).counting && (n.encSet i).pf 8 1 != 2 then n.positionLost i 3 else n) n
      ((((n.catchUpCompares.takeKept).takeFrames).resumeInsts).skipUpdates).freshFilters
    

/-! ### The Gleaner (R453 to R456) -/

/-- The input sampling lines are live (R16): the I/O island runs, or it is gated in sleep with their comparators on. -/
def Node.linesLive (n : Node) : Bool := n.runs Isl.io || n.slept Isl.io
/-- The level of input `i` on its sampling line: inactive without the I/O island (R16), 0 under a field-supply latch (R174). -/
def Node.lineLevel (n : Node) (levels i : Nat) : Bool := n.linesLive && !n.latchedOff && bit levels i

/-- What a rule's source shows at a sample: the input's comparator; or the converter's code in the stall's mode (R179, R453), where there
is one. -/
def Node.glSource (n : Node) (r : GlRule) (levels : Nat) (xs : List Int) (analog : Bool) : Option Int :=
  if r.src = 1 then some (b2n (n.lineLevel levels r.index))
  else if !analog || !n.linesLive then none
  else if n.awake && !n.adc.list.slots.any (fun x => x.source == r.index) then none
  else some (satCode (n.sourceSigned r.index) (n.inputK r.index (xs.getD r.index 0))).1

/-- GLEANER_SAMPLE (R453 to R456): the comparator levels of IN0 to IN15, and AIN0 to AIN3 in nV, which count only at the
instants of R453. -/
def execGleanerSample (levels : Nat) (xs : List Int) (s : State) : Host.Outcome State Fault Refusal :=
  s.run fun n =>
    if !n.runs Isl.glean then n else
    let t := nextGrid (max n.gridNow (n.glean.sampleAt + 1)) (1000000 / n.glean.rate)
    let n := (n.upTo t).updGlean (fun g => { g with sampleAt := t })
    let rules := n.glean.rules.filter (fun e => n.glActive e.2)
    let n := rules.foldl (fun n e => if e.2.src = 1 then n.setIn e.2.index { n.inPin e.2.index with comparator := n.lineLevel levels e.2.index } else n) n
    rules.foldl (fun n e => n.glRule e.1 e.2 (n.glSource e.2 levels xs (t % 10000000 == 0))) n

end Sys2Proof.Machine
end

