-- ==== Sys2Proof/Machine/Security.lean ====
section
/-! DEFINITION. Identity, attestation and updates (21): the certificate (R463), the touch record (R466), attestation (R467, R468),
staging and commit (R470, R471, R474), island updates (R475), the configuration image (R476, R477) and protocol levels (R478 to
R480). -/

namespace Sys2Proof.Machine

/-! ### Identity (R463, R466) -/

/-- CERT_READ (R463). -/
def execCertRead (path idx : Nat) (s : State) : Host.Outcome State Fault Refusal :=
  s.run fun n => n.hostCmd Cmd.certRead path idx fun n m pl =>
    let c := Config.certificate
    let part := (c.drop (u16 pl 0)).take 472
    n.checked m [badLen pl 4, badRes pl 2 2] (n.ok m (leBytes 2 c.length ++ leBytes 2 part.length ++ part))

/-- SERVICE_FLAG_CLEAR (R466, R496). -/
def execServiceFlagClear (path idx : Nat) (s : State) : Host.Outcome State Fault Refusal :=
  s.run fun n => n.hostCmd Cmd.serviceFlagClear path idx fun n m pl =>
    let id := (n.mbx m).session
    let key := match n.host.sessions.look id with | some x => x.keyId | none => 0
    n.checked m [badLen pl 0, (id == 0, Rs.noSession, 0)]
      (if n.partRo 7 then n.degraded m Cmd.serviceFlagClear 0
       else
         let n := n.updSec (fun x => { x with latch := false, touched := false, touchedNow := false, touchedAt := 0, clearedAt := n.now })
         (n.log Ev.serviceFlagCleared n.sec.touches id (key % 2 ^ 32)).ok m [])

/-! ### Attestation (R467, R468) -/

/-- The stall-table digest (R93). -/
def Node.stallDigest (n : Node) : List Byte := sm3Bytes ((List.range 1024).flatMap (fun k => slice (n.stall k).toBytes 0 44))
/-- The recipe digest (R107). -/
def Node.recipeDigest (n : Node) : List Byte :=
  sm3Bytes ((List.range 256).flatMap (fun r => leBytes 2 (n.recLen r) ++ (List.range (n.recLen r)).flatMap (n.stepBytes r)))
/-- The configuration digest (R468). -/
def Node.configDigest (n : Node) : List Byte := sm3Bytes n.configImage

/-- Bytes 0 to 239 of a report. -/
def Node.reportBody (n : Node) (nonce : List Byte) : List Byte :=
  let x := n.sec
  let config := n.configDigest
  let flags := b2n x.latch + 2 * b2n (n.host.owners != 0) + 4 * b2n n.timeValid + 8 * b2n (x.signedDigest == some config) + 16 * b2n n.mixed
  leBytes 4 0x54534154 ++ leBytes 2 1 ++ leBytes 2 304 ++ serialBytes ++ nonce ++ leBytes 8 n.now
    ++ leBytes 4 (n.island Isl.core).version.toNat ++ leBytes 2 0x0203 ++ leBytes 1 ownLevel ++ leBytes 1 n.line.level
    ++ leBytes 1 x.active ++ leBytes 1 flags ++ leBytes 2 0 ++ leBytes 4 n.bootSeq ++ leBytes 4 x.touches ++ leBytes 4 0
    ++ leBytes 8 x.touchedAt ++ leBytes 8 x.clearedAt
    ++ x.siloA.digest ++ x.siloB.digest ++ config ++ n.stallDigest ++ n.recipeDigest
/-- The report: its body and the SM2 signature under the device key with the serial number as identifier and the ephemeral value
`k`. -/
def Node.report304 (n : Node) (nonce : List Byte) (k : Nat) : List Byte :=
  let b := n.reportBody nonce
  b ++ sm2Sign Config.devicePriv (beNat (sm3 (sm2Z serialBytes (ptOf (leBytes 64 devicePub.toNat)) ++ b))) k

/-- ATTEST (R467, R494). -/
def execAttest (path idx : Nat) (s : State) : Host.Outcome State Fault Refusal :=
  s.run fun n => n.hostCmd Cmd.attest path idx fun n m pl =>
    n.checked m [badLen pl 16, (!n.runs Isl.sec, Rs.busy, 0)]
      (if n.secShort then n.degraded m Cmd.attest (n.mem.retiredPages.getD 8 0)
       else let (k, n) := n.freeScalar; n.ok m (n.report304 (slice pl 0 16) k))

/-! ### Staging (R470, R471) -/

/-- Silo `k` is the active one; while the boot ROM holds the node, none is (R473). -/
def Node.siloActive (n : Node) (k : Nat) : Bool := n.sec.active == k && n.power.stage != .bootFailed
/-- The Security island, or the boot ROM in its place, serves a command (R473). -/
def Node.secServes (n : Node) : Bool := n.runs Isl.sec || n.power.stage == .bootFailed

/-- A ticket that is not 0, free but for that. -/
def Node.freshTicket (n : Node) : Nat × Node :=
  let (v, n) := n.free 16
  (1 + v.toNat % (2 ^ 32 - 1), n)

/-- IMAGE_WRITE (R470, R471, R496): a ticket needs a session. -/
def execImageWrite (path idx : Nat) (s : State) : Host.Outcome State Fault Refusal :=
  s.run fun n => n.hostCmd Cmd.imageWrite path idx fun n m pl =>
    let op := u8 pl 0
    let k := u8 pl 1
    let c := u16 pl 2
    let off := u32 pl 4
    let x := n.silo k
    let ses := (n.mbx m).session
    n.checked m [(decide (pl.length < 8), Rs.lengthBad, 0), badIn op 0 2 0, badRange (if op = 0 then decide (c < 1 ∨ 472 < c) else c != 0) 2,
        badLen pl (8 + (if op = 0 then c else 0)), badIn k 0 1 1, (n.siloActive k, Rs.siloActive, 0),
        badRange (op == 0 && off != 0 && off != x.high) 4, badRange (op == 0 && decide (siloSize < off + c)) 2,
        (op == 1 && ses == 0, Rs.noSession, 0)]
      (if n.siloRo k then n.degraded m Cmd.imageWrite 0
       else if op = 0 then
         let x := x.stage off (slice pl 8 c)
         (n.setSilo k x).ok m (leBytes 4 x.high ++ leBytes 4 0)
       else if op = 1 then
         let src := match n.host.sessions.look ses with | some y => y.src | none => 0
         let (t, n) := n.freshTicket
         (n.setSilo k { x with ticket := some (t, ses, src) }).ok m (leBytes 4 x.high ++ leBytes 4 t)
       else n.ok m (leBytes 4 x.high ++ leBytes 4 0))

/-- The silo whose bulk ticket a frame from `src` carries. -/
def Node.bulkSilo (n : Node) (src ticket : Nat) : Option Nat :=
  [0, 1].find? (fun k => match (n.silo k).ticket with | some (t, _, a) => t == ticket && a == src | none => false)

/-- BULK (R471): ticket, offset, 1 to 1,472 bytes at the high-water mark; every other frame is dropped. -/
def execBulk (src : Nat) (payload : List Nat) (s : State) : Host.Outcome State Fault Refusal :=
  s.run fun n =>
    let b := toBytes payload
    let d := b.drop 8
    let n := if n.runs Isl.line then n.raise 2 else n
    match n.bulkSilo src (u32 b 0) with
    | some k =>
      let x := n.silo k
      if n.runs Isl.line ∧ 1 ≤ d.length ∧ d.length ≤ 1472 ∧ u32 b 4 = x.high ∧ x.high + d.length ≤ siloSize ∧ !n.siloActive k ∧ !n.siloRo k then
        n.setSilo k { x with bytes := x.bytes.take x.high ++ d, high := x.high + d.length }
      else n
    | none => n

/-! ### Commit (R474) -/

/-- The header of a staged silo fits the line level (R474). -/
def Node.levelFits (n : Node) (x : Silo) : Bool := x.level == n.line.level || x.level == n.line.level + 1
/-- The copy that a commit writes: the one with the lower sequence, or the one that is not valid. -/
def Node.bootLower (n : Node) : Nat := match n.bootBest with | some k => 1 - k | none => 0

/-- Stage 3: the lower copy takes the other's sequence plus 1, the silo and the header digest; the silo becomes active. -/
def Node.writePointer (n : Node) (k : Nat) : Node :=
  let c := n.bootLower
  let seq := ((n.bootCopy (1 - c)).seq + 1) % 2 ^ 32
  (n.setBoot c { valid := true, seq := seq, silo := k, header := (n.silo k).headerDigest }).updSec
    (fun x => { x with active := k, commitStage := 2 })

/-- SILO_COMMIT (R474, R487, R496). `same` tells whether the read-back equals what was staged; `cut` is 0 when the commit ends, 1 when
a reset falls before the erase of stage 3, 2 when it falls between the erase and the end of the write. A check of stages 1 and 2 that fails
is answered with stage 0 and the sequence in force (log 41). -/
def execSiloCommit (path idx : Nat) (same : Bool) (cut : Nat) (s : State) : Host.Outcome State Fault Refusal :=
  s.run fun n => n.hostCmd Cmd.siloCommit path idx fun n m pl =>
    let k := u8 pl 0
    let x := n.silo k
    n.checked m [badLen pl 4, badIn k 0 1 0, badRes pl 1 3, (!n.secServes, Rs.busy, 0), (n.siloActive k, Rs.siloActive, 0)]
      (if n.partRo 8 then n.degraded m Cmd.siloCommit 0
       else
         let n := n.setSilo k { x with ticket := none }
         let n := n.updSec (fun y => { y with commitStage := 0 })
         match firstBad [badRange (decide (x.high < max 512 x.length)) 0, (!x.valid, Rs.signatureInvalid, 0),
             (!x.imagesOk, Rs.imageDigestBad, 0), (!n.levelFits x, Rs.levelGap, 0), (!same, Rs.imageDigestBad, 0)] with
         | some (st, d) => n.answer m st d ([0] ++ leBytes 4 n.bootSeq)
         | none =>
           (let n := n.updSec (fun y => { y with commitStage := 1 })
            if cut = 1 then n
            else if cut = 2 then n.setBoot n.bootLower { n.bootCopy n.bootLower with valid := false }
            else
              let seq := ((n.bootCopy (1 - n.bootLower)).seq + 1) % 2 ^ 32
              ((n.writePointer k).log Ev.siloCommitted k seq x.version).ok m ([2] ++ leBytes 4 seq)))

/-! ### Island updates (R475) -/

/-- The silo's image of a code is the one that runs, on port `p` for the PHY DSP code. -/
def Node.runsImage (n : Node) (code p : Nat) : Bool :=
  match n.activeSilo.image code, n.sec.running.look (runKey code p) with
  | some e, some (_, d) => e.digest == d
  | _, _ => false
/-- An island that runs is older than what the active silo runs beside. -/
def Node.besideGap (n : Node) : Bool := n.sec.running.any (fun (e : Nat × Nat × List Byte) => decide (e.2.1 < n.activeSilo.beside))

/-- The PHY DSP of one port is reloaded: the port leaves the line while the bypass stays open (R475). -/
def Node.reloadPort (n : Node) (p m : Nat) : Node :=
  (n.portDown p 0 none).updPort p (fun x => { (if x.st = .training then x.unlinked .down else x) with reload := some m })

/-- ISLAND_UPDATE (R475, R482). -/
def execIslandUpdate (path idx : Nat) (s : State) : Host.Outcome State Fault Refusal :=
  s.run fun n => n.hostCmd Cmd.islandUpdate path idx fun n m pl =>
    let code := u8 pl 0
    let p := u8 pl 1
    let i := islandOf code
    let st := (n.port p).st
    n.checked m [badLen pl 4, badIn code 0 6 0, badIn p 0 (if code = 5 then 2 else 0) 1, badRes pl 2 2, badRange n.besideGap 0]
      (if n.runsImage code p then n.ok m [BitVec.ofNat 8 (n.island i).st.code, 0, 0, 0]
       else if code = 6 then n.answerIsland m (n.island i).st.code
       else if code = 5 then
         n.checked m [(st == .retired || st == .disabled || (n.port p).reload.isSome || !n.runs Isl.line, Rs.busy, 0)] (n.reloadPort p m)
       else n.checked m (n.opRefusals i .reload) (n.startOp i .reload 0 (some m)))

/-- PORT_PHY_RELOAD_DONE (R475): with a good digest the port runs the new code, else the old; it trains again, and the command is
answered. -/
def execPortPhyReloadDone (p : Nat) (ok : Bool) (s : State) : Host.Outcome State Fault Refusal :=
  s.run fun n =>
    match (n.port p).reload with
    | some m =>
      let n := n.updPort p (fun x => { x with reload := none })
      let n := if ok ∧ n.imageGood 5 then n.runImageOn 5 [p] else n
      n.answerIsland m (n.island Isl.line).st.code
    | none => n

/-! ### Configuration images (R476, R477) -/

/-- CONFIG_READ (R477). -/
def execConfigRead (path idx : Nat) (s : State) : Host.Outcome State Fault Refusal :=
  s.run fun n => n.hostCmd Cmd.configRead path idx fun n m pl =>
    let off := u32 pl 0
    let c := u16 pl 4
    let snap := if off = 0 then some n.configImage else n.sec.snapshot
    n.checked m [badLen pl 8, badIn c 1 468 4, badRes pl 6 2, (snap.isNone, Rs.busy, 0)]
      (let img := snap.getD []
       (n.updSec (fun x => { x with snapshot := some img })).ok m (leBytes 4 img.length ++ leBytes 4 0 ++ (img.drop off).take c))

/-- An owner's signature over the staged image. -/
def Node.ownerSigned (n : Node) (keyId : Nat) (sig : List Byte) : Bool :=
  match n.host.keys.find? (fun (e : Nat × Nat × Nat × BitVec 512) => e.2.1 == keyId && e.2.2.1 == 3) with
  | some (_, _, _, pub) => sm2Verify pub (sm3 n.sec.cfgStaged) sig
  | none => false

/-- CONFIG_WRITE (R477, R496). -/
def execConfigWrite (path idx : Nat) (s : State) : Host.Outcome State Fault Refusal :=
  s.run fun n => n.hostCmd Cmd.configWrite path idx fun n m pl =>
    let op := u8 pl 0
    let signed := bit (u8 pl 1) 0
    let off := u32 pl 4
    let high := n.sec.cfgStaged.length
    let bad := if op = 1 then pl.length != 80 else decide (pl.length < 9)
    n.checked m [(bad, Rs.lengthBad, 0), badIn op 0 1 0, (decide (2 ≤ u8 pl 1), Rs.paramReserved, 1), badRes pl 2 2]
      (n.needCfg m Cmd.configWrite
        (if op = 0 then
           let d := pl.drop 8
           n.checked m [badRange (off != 0 && off != high) 4]
             ((n.updSec (fun x => { x with cfgStaged := if off = 0 then d else x.cfgStaged ++ d })).ok m [])
         else
           n.checked m [badRange (!signed && !zeroAt pl 8 72) 8, (signed && !n.ownerSigned (u64 pl 8) (slice pl 16 64), Rs.signatureInvalid, 0),
               badRange (!cfgHeaderOk n.sec.cfgStaged) 0]
             (let img := n.sec.cfgStaged
              let n := n.updSec (fun x => { x with cfgPending := some img, signedDigest := if signed then some (sm3Bytes img) else x.signedDigest })
              (n.log Ev.configCommitted img.length (u32 img 12) (b2n signed)).ok m [])))

/-! ### Protocol levels (R478 to R480) -/

/-- LEVEL_RAISE (R479). -/
def execLevelRaise (path idx : Nat) (s : State) : Host.Outcome State Fault Refusal :=
  s.run fun n => n.hostCmd Cmd.levelRaise path idx fun n m pl =>
    let l := u8 pl 0
    let low := decide (ownLevel < l) || n.line.map.any (fun (e : Nat × MapNode) => decide (e.2.level < l))
    n.checked m [badLen pl 4, badRes pl 1 3, (!n.isHead, Rs.busy, 0), badRange (l != n.line.level + 1) 0, (low, Rs.levelNotUniform, 0)]
      (let t := n.tenMs (ms 500)
       let n := n.updLine (fun x => { x with raise := some (l, t), mapDue := true })
       (n.send 0x51 0 0xFFFF ([0, BitVec.ofNat 8 l, 0, 0] ++ leBytes 8 t)).ok m (leBytes 8 t))

/-- A source address is the head's (R264, R480). -/
def Node.fromHead (n : Node) (src : Nat) : Bool := src == 0xFF00 || (src != 0 && src == headOf n.line.map)

/-- LEVEL_FRAME (R480): `at_` is the line level of the frame, `op` 0 raise or 1 cancel, `l` the level announced. -/
def execLevelFrame (src at_ op l t : Nat) (s : State) : Host.Outcome State Fault Refusal :=
  s.run fun n =>
    if n.isHead ∨ !n.runs Isl.line ∨ !n.fromHead src ∨ !levelOk at_ then n
    else
    let n := n.raise 2
    if op = 1 then n.updLine (fun x => { x with raise := none })
    else if op = 0 then
      if ownLevel < l then
        let (v, n) := n.free 2
        n.log Ev.levelGap v.toNat l ownLevel
      else n.updLine (fun x => { x with raise := some (l, t) })
    else n

/-- LEVEL_RAISE_INSTANT (R479, R482). -/
def execLevelRaiseInstant (s : State) : Host.Outcome State Fault Refusal :=
  s.run fun n =>
    match n.line.raise with
    | some (l, t) => ((n.upTo t).updLine (fun x => { x with level := l, raise := none })).log Ev.levelRaised l 0 (t % 2 ^ 32)
    | none => n

end Sys2Proof.Machine
end

