-- ==== Sys2Proof/Machine/MemoryOps.lean ====
section
/-! DEFINITION. Memory health as operations: reads of a bank (R22 to R25, R28), permanent rows and pages (R490 to R494), what the owner of a
page does again (R491), and the stall table and recipe space as a power-up loads them (R93, R99, R107, R123). -/

namespace Sys2Proof.Machine

/-! ### Loading stalls and recipes -/

/-- A stall as a power-up loads it (R84, R93, R95, R484): its stored configuration part, IDLE, or FALLOW with its last fault. What a
swap has given it stays (R102). -/
def Node.bootStall (n : Node) (k : Nat) : Stall :=
  let s := n.stall k
  let c := match n.stored.look k with | some c => if c.res = s.res then c else s | none => if s.res = none then Stall.dflt k else s
  let x : Stall := { kind := c.kind, stop := c.stop, flags := c.flags, spare := c.spare, part := c.part, retries := c.retries,
                     permanence := c.permanence, interval := c.interval, window := c.window, res := c.res }
  let x := if s.st = .fallow then { x with st := .fallow, faults := s.faults, cause := s.cause } else x
  (x.reformat).setStatus St.remapped (s.status.getLsbD St.remapped)

/-- CHAN_AUTOSTART of one stall (R99). -/
def Node.autostartChan (n : Node) (k : Nat) : Node :=
  if (n.stall k).st = .fallow then n
  else match n.tryStart k with
    | (some d, n) => n.log Ev.chanAutostartFail k d 0
    | (none, n) => n

/-- A stall of a lost page (R491): its configuration part is restored; a channel that was active goes IDLE and is started again. -/
def Node.restoreStall (n : Node) (k : Nat) : Node :=
  let s := n.stall k
  if s.active then
    let n := n.answerStops k Rs.restartAborted
    let n := (n.uncache k).setStall k (n.bootStall k)
    let n := if s.kd = K.output ∨ s.kd = K.prot then n.driveStall k else n
    n.autostartChan k
  else n.setStall k { n.bootStall k with st := s.st, faults := s.faults, cause := s.cause, status := s.status, value := s.value, stamp := s.stamp }

/-! ### The owner of a page (R491) -/

/-- Copies of a mirror page are gone; the custodians are asked for them. -/
def Node.restoreMirror (n : Node) (p slot : Nat) : Node :=
  let lost := (n.cust.mirror p).filter (fun e => decide (slot ≤ e.1 ∧ e.1 < slot + 32))
  let ports := (List.range 3).filter (fun q => n.neighbour q && lost.any (fun e => e.2.port == q))
  let n := n.updCust (fun c => c.setMirror p ((c.mirror p).filter (fun e => !(decide (slot ≤ e.1 ∧ e.1 < slot + 32)))))
  if ports.isEmpty || n.cust.recovering then n else n.askPorts ports

/-- First and last sample index of a list of records or of the raw ring. -/
def spanOf (is : List Nat) : Nat × Nat := (is.foldl min (is.headD 0), is.foldl max 0)

/-- A page of the harvest buffers is lost (log 40): the ring that lies in it gives one GAP with cause 0. -/
def Node.restoreHarvest (n : Node) (page : Nat) : Node :=
  if page < 0x104D0000 then
    let (a, b) := spanOf (n.harv.raw.map HvRaw.index)
    if n.harv.raw.isEmpty then n else n.updHarv (fun h => { h with raw := [] }.rawGap a (b + 1 - a) 0)
  else
    let k := (page - 0x104D0000) / 0x20000
    let ring := (n.hslot k).ring
    let (a, b) := spanOf (ring.map HvRec.index)
    if ring.isEmpty then n else (n.updHslot k (fun x => { x with ring := [] })).slotGap k a (b + 1 - a) 0

/-- A mailbox of a lost page answers RESTART_ABORTED. -/
def Node.abortMbx (n : Node) (m : Nat) : Node :=
  let x := n.mbx m
  if x.st = .executing then n.answer m Rs.restartAborted 0 []
  else if x.st = .posted then
    let b := n.read (mbxAddr m) 16
    let n := n.sessionRefused m (u16 b 0) Rs.restartAborted (n.read (mbxAddr m + 16) 12)
    let (body, _) := respBytes (u16 b 0) (u16 b 2) m Rs.restartAborted 0 false none []
    let p := mbxPath m
    let n := n.updHost (fun h => { h with posted := h.posted.put p ((h.posted.getD p []).filter (· != m)) })
    (n.setMbx m { x with st := .done, again := false, req := none }).putResp m body []
  else n

/-- OVERFLOW is set in the descriptors of rings that a page holds. -/
def Node.overflowRings (n : Node) (page : Nat) : Node :=
  [0, 1].foldl (fun n c =>
    let d := n.adc.list.desc c
    let b := n.read d 64
    if d ≠ 0 ∧ (rangesMeet d 64 page 4096 ∨ rangesMeet (u32 b 0) (u32 b 4) page 4096) then n.write (d + 28) (leBytes 4 (u32 b 28 ||| 4)) else n) n

/-- A page of the host-shared window is lost. -/
def Node.restoreWindow (n : Node) (page : Nat) : Node :=
  let off := page - winBaseAddr
  let n := if off < 0x6000 then
      (List.range 8).foldl (fun n i => n.abortMbx (off / 0x2000 * 16 + off % 0x2000 / 0x200 + i)) n
    else n
  n.overflowRings page

/-- The owner of a page restarts by the table of R491. -/
def Node.restartOwner (n : Node) (page : Nat) : Node :=
  let n :=
    if page < 0x10280000 then
      (if (n.island Isl.core).st = .run ∨ (n.island Isl.core).st = .failed then n.startOp Isl.core .reload 0 none else n)
    else if page < 0x10290000 then (List.range 64).foldl (fun n i => n.restoreStall ((page - 0x10280000) / 64 + i)) n
    else if page < 0x10390000 then n.restoreRecipes page
    else if page < 0x10410000 then
      let s := (page - 0x10390000) / 128
      n.custRebuild ((n.cust.own.filter (fun e => decide (s ≤ e.1 ∧ e.1 < s + 32))).map (fun e => e.2.parcel))
    else if page < 0x10430000 then n.restoreMirror 0 ((page - 0x10410000) / 128)
    else if page < 0x10450000 then n.restoreMirror 1 ((page - 0x10430000) / 128)
    else if page < 0x10550000 then n.restoreHarvest page
    else if page < 0x10590000 then n.restoreWindow page
    else n
  n.unpoison page 4096

/-! ### Replacement pages (R492) -/

/-- The next page of recipe space that no recipe holds, from the highest down. -/
def Node.freeRecipePage (n : Node) : Option Nat :=
  let runs := n.otherRuns 256
  ((List.range 255).reverse).find? (fun p => !n.mem.recipeTaken.contains p && runs.all (fun q => decide (q.1 + q.2 ≤ 128 * p ∨ 128 * p + 128 ≤ q.1)))

/-- A replacement page from the first source that has one. -/
def Node.takePage (n : Node) : Option (Nat × Node) :=
  if 0 < n.mem.freePages then
    some (0x10590000 + 4096 * (112 - n.mem.freePages), n.updMem (fun x => { x with freePages := x.freePages - 1 }))
  else if n.mem.harvestTaken < 256 then
    some (0x1054F000 - 4096 * n.mem.harvestTaken, n.updMem (fun x => { x with harvestTaken := x.harvestTaken + 1 }))
  else match n.freeRecipePage with
    | some p => some (0x10291000 + 4096 * p, n.updMem (fun x => { x with recipeTaken := p :: x.recipeTaken }))
    | none => none

/-! ### Permanent rows (R490, R491, R494) -/

/-- A core that has lost eight pages leaves service; its tasks go to the others (R494). -/
def Node.coreOut (n : Node) (c : Nat) : Node :=
  let back (t : ThTask) : ThTask := if t.st = .prefetched c ∨ t.st = .inService c then { t with st := .ready } else t
  { n with rcp := { n.rcp with coresOut := if n.rcp.coresOut.contains c then n.rcp.coresOut else c :: n.rcp.coresOut,
                               tasks := n.rcp.tasks.mapE (fun _ t => back t) }.prefetch }

/-- A page of a memory without spare rows leaves use; it is remembered without a replacement. -/
def Node.retireOther (n : Node) (a code : Nat) : Node :=
  let page := pageOf a
  if (n.mem.pageMap.look page).isSome then n
  else
    let k := n.mem.retiredPages.getD code 0 + 1
    let n := n.updMem (fun x => { x with pageMap := x.pageMap.put page 0, retiredPages := x.retiredPages.put code k })
    let n := n.mapWrite.log Ev.memPageRetired page 0 (b2n (code == 9))
    if code = 1 then n.updLine (fun l => { l with sharedLost := l.sharedLost + 1 })
    else if code = 6 ∨ code = 7 then
      (let (v, n) := n.free 2
       n.chanFault (code - 6) 2 v.toNat)
    else if code = 9 then (if (n.island Isl.glean).st = .run then n.startOp Isl.glean .reload 0 none else n)
    else if 2 ≤ code ∧ code ≤ 5 ∧ 8 ≤ k then n.coreOut (code - 2)
    else n

/-- The page of a row without a spare is retired into a replacement page, or stays in service (R491 to R493). -/
def Node.retirePage (n : Node) (a : Nat) : Node :=
  let page := pageOf a
  if n.mem.copyingPages.contains page then n
  else match n.takePage with
    | some (repl, n) => n.updMem (fun x => { x with pageMap := x.pageMap.put page repl, copyingPages := x.copyingPages ++ [page] })
    | none =>
      let n := n.updMem (fun x => { x with unreplaced := if x.unreplaced.contains page then x.unreplaced else page :: x.unreplaced })
      if n.poisoned page 4096 then n.restartOwner page else n

/-- A row is permanent. -/
def Node.permanentRow (n : Node) (a : Nat) : Node :=
  match memOf a with
  | some 0 =>
    let row := rowOf a
    let b := bankOf (n.mem.pageMap.getD (pageOf a) a)
    let used := n.mem.spareUsed.getD b 0
    if n.mem.copyingRows.contains row then n
    else if used < 16 then
      (n.updMem (fun x => { x with rowMap := x.rowMap.put row (b, used), spareUsed := x.spareUsed.put b (used + 1),
                                   copyingRows := x.copyingRows ++ [row] })).log Ev.memRowSpared row b (15 - used)
    else n.retirePage a
  | some code => n.retireOther a code
  | none => n

/-- A transient finding: the fourth of a row within 24 h makes it permanent (R490). -/
def Node.transientAt (n : Node) (a : Nat) : Node :=
  let row := rowOf a
  let ts := n.now :: (n.mem.transients.getD row []).filter (fun t => decide (n.now ≤ t + ms 86400000))
  if 4 ≤ ts.length then (n.updMem (fun x => { x with transients := x.transients.del row })).permanentRow a
  else n.updMem (fun x => { x with transients := x.transients.put row ts })

/-! ### Reads of a bank (R22 to R25, R28) -/

/-- The decoder's data take the place of the stored ones. -/
def Node.fixData (n : Node) (a : Nat) (d : BitVec 64) : Node :=
  if d = 0 then n else n.pokes (wordOf a) (leBytes 8 (n.dataAt a ^^^ d).toNat)

/-- A read of the word at `a` for island `isl` (R22 to R24): `upset` is by what the array now differs from what was stored there. A
corrected word is written back, unless a demand write has `beaten` the write-back (R26), and is read again after 1 ms (R490); an
uncorrectable one is poisoned and its row is permanent (R490). -/
def Node.bankRead (n : Node) (a : Nat) (upset : BitVec 76) (isl : Nat) (beaten : Bool) : Finding × Node :=
  match memOf a with
  | none => (.clean, n)
  | some c =>
    let e := n.mem.err.getD (wordOf a) 0 ^^^ upset
    let syn := (syndromeOf (codeword (n.dataAt a) ^^^ e)).toNat
    match decodeErr e with
    | .clean => (.clean, (n.fixData a (decodeData e)).setErr a 0)
    | .corrected k =>
      let n := (((n.fixData a (decodeData e)).setErr a 0).corrected a k syn c isl)
      (.corrected k, if beaten then n else n.updMem (fun x => { x with reread := x.reread.put (wordOf a) (k, n.now) }))
    | .uncorrectable => (.uncorrectable, (n.uncorrectable a syn c isl).permanentRow a)
    | .poison => (.poison, n.eccLog Ev.eccPoisonConsumed a 31 poisonSyn c isl 3)

/-- The copy of a row or page ends (R28, R491): with a poisoned word the owner of the page restarts, then the writes that waited take
effect. -/
def Node.copyEnds (n : Node) (a k : Nat) : Node :=
  let n := if n.poisoned a k then n.restartOwner (pageOf a) else n
  let ws := n.mem.waiting.filter (fun (w : Nat × List Byte) => decide (w.1 < a + k ∧ a < w.1 + w.2.length))
  let n := n.updMem (fun x => { x with waiting := x.waiting.filter (fun (w : Nat × List Byte) => !decide (w.1 < a + k ∧ a < w.1 + w.2.length)) })
  ws.foldl (fun n w => n.pokes w.1 w.2) n
/-- The corrected copy of a row is done (R28). -/
def Node.rowCopied (n : Node) (row : Nat) : Node :=
  (n.updMem (fun x => { x with copyingRows := x.copyingRows.filter (· != row) })).mapWrite.copyEnds row 1024
/-- The copy of a page is done (R491, R501). -/
def Node.pageCopied (n : Node) (page : Nat) : Node :=
  let bad := n.poisoned page 4096
  let n := n.updMem (fun x => { x with copyingPages := x.copyingPages.filter (· != page), rowMap := x.rowMap.filter (fun e => pageOf e.1 != page) })
  (n.mapWrite.log Ev.memPageRetired page (n.mem.pageMap.getD page 0) (b2n bad)).copyEnds page 4096
/-- A demand access to a span waits until the copies of its rows and pages have ended (R28, R491). -/
def Node.afterCopies (n : Node) (a k : Nat) : Node :=
  let rows := n.mem.copyingRows.filter (fun r => decide (a < r + 1024 ∧ r < a + k))
  let pages := n.mem.copyingPages.filter (fun p => decide (a < p + 4096 ∧ p < a + k))
  pages.foldl Node.pageCopied (rows.foldl Node.rowCopied n)

/-- A consumer of main memory meets a poisoned word that no copy will replace: the page's owner restarts (R491, R493). -/
def Node.useSram (n : Node) (a k isl : Nat) : Bool × Node :=
  let n := n.afterCopies a k
  match n.poisonIn a k with
  | some w =>
    let (_, n) := n.consume a k isl
    (true, if memOf w = some 0 then n.restartOwner (pageOf w) else n)
  | none => (false, n)

end Sys2Proof.Machine
end

