-- ==== Sys2Proof/Machine/Health.lean ====
section
/-! DEFINITION. Memory health and the commands of 22: the scrubber (R26, R27), the judgement of findings (R490), the copies of rows
and pages (R28, R491), NODE_STATUS (R499), HEALTH_READ (R500) and NODE_RESET (R485). -/

namespace Sys2Proof.Machine

/-! ### Scrubbing -/

/-- Words of a scrub pass: a bank with its 16 spare rows, or an SRAM (R26, R27). Units 0 to 11 are banks, 16 + code the SRAMs that
are scrubbed. -/
def scrubWords (u : Nat) : Nat :=
  if u < 12 then 67584
  else match u with
    | 18 => 16384 | 19 => 16384 | 20 => 16384 | 21 => 16384 | 22 => 16384 | 23 => 16384 | 24 => 28672 | 25 => 4096 | _ => 0
/-- The memory of a unit. -/
def scrubMem (u : Nat) : Nat := if u < 12 then 0 else u - 16

/-- The address served at a place of main memory: a replacement page serves the page remapped to it (R491), a retired one nothing. -/
def Node.servedAt (n : Node) (a : Nat) : Option Nat :=
  match n.mem.pageMap.find? (fun (e : Nat × Nat) => e.2 == pageOf a) with
  | some e => some (e.1 + a % 4096)
  | none => if (n.mem.pageMap.look (pageOf a)).isSome then none else some a
/-- The address of word `p` of a unit; a spare row stands for the row mapped to it, and one that no row uses has none (log 47). -/
def Node.scrubAddr (n : Node) (u p : Nat) : Option Nat :=
  if u < 12 then
    if p < 65536 then n.servedAt (0x10000000 + u * 0x80000 + 8 * p)
    else
      let k := (p - 65536) / 128
      (n.mem.rowMap.find? (fun (e : Nat × Nat × Nat) => e.2 == (u, k))).map (fun e => e.1 + 8 * (p % 128))
  else (memories.find? (fun (e : Nat × Nat × Nat) => e.1 == u - 16)).map (fun e => e.2.1 + 8 * p)

/-- A unit's memory runs: a bank of main memory by itself (R12). -/
def Node.scrubRuns (n : Node) (u : Nat) : Bool := if u < 12 then n.bankRuns u else n.runs (memIsland (scrubMem u))

/-- The scrubber of a memory of R25; main memory has one for each bank (R26). -/
def scrubUnit (memory bank : Nat) : Nat := if memory = 0 then min bank 12 else memory + 16

/-- SCRUB_READ (R22 to R27, R490): the scrubber of a memory (R25), of bank `bank` of main memory. `err` and `errCheck` are by what the
array's word, its data and its check bits, differs from what was stored there; `beaten` tells that a demand write reached the word before
the write-back (R26). -/
def execScrubRead (memory bank err errCheck : Nat) (beaten : Bool) (s : State) : Host.Outcome State Fault Refusal :=
  s.run fun n =>
    let u := scrubUnit memory bank
    let p := n.mem.scrubPos.getD u 0
    if scrubWords u = 0 ∨ !n.scrubRuns u then n
    else
      let at_ := n.scrubAddr u p
      let n := n.updMem (fun x => { x with scrubPos := x.scrubPos.put u ((p + 1) % scrubWords u) })
      match at_ with
      | none => n
      | some a => (n.bankRead a (upset err errCheck) (memIsland (scrubMem u)) beaten).2

/-- ECC_REREAD (R490): the word is read again 1 ms after its write-back; `err` as in SCRUB_READ. An error in the same symbol makes the
row permanent, every other outcome leaves the first finding transient. -/
def execEccReread (a err : Nat) (s : State) : Host.Outcome State Fault Refusal :=
  s.run fun n =>
    match n.mem.reread.look a with
    | some (sym, t) =>
      let n := (n.upTo (t + ms 1)).updMem (fun x => { x with reread := x.reread.del a })
      let (f, n) := n.bankRead a (BitVec.ofNat 76 err) (memIsland ((memOf a).getD 0)) false
      (match f with
       | .corrected k => if k = sym then n.permanentRow a else n.transientAt a
       | .clean => n.transientAt a
       | .uncorrectable | .poison => n)
    | none => n

/-- ROW_COPY_DONE (R28, R491): demand accesses resume; with a poisoned word the owner of the page restarts. -/
def execRowCopyDone (row : Nat) (s : State) : Host.Outcome State Fault Refusal :=
  s.run fun n => if n.mem.copyingRows.contains row then n.rowCopied row else n

/-- PAGE_COPY_DONE (R491, R501): MEM_PAGE_RETIRED, and the owner restarts when a word was poisoned. -/
def execPageCopyDone (page : Nat) (s : State) : Host.Outcome State Fault Refusal :=
  s.run fun n => if n.mem.copyingPages.contains page then n.pageCopied page else n

/-! ### NODE_STATUS (R499) -/

/-- Spare rows left in all banks. -/
def MemHealth.sparesLeft (x : MemHealth) : Nat := ((List.range 12).map (fun b => 16 - x.spareUsed.getD b 0)).sum
/-- The alarms. -/
def Node.alarms (n : Node) : Nat :=
  b2n n.hlth.degradedRefused + 2 * b2n (n.hlth.readOnly != 0) + 4 * b2n (n.mem.spareUsed.any (fun e => decide (16 ≤ e.2)))
    + 8 * b2n (decide (n.hlth.seedBlocks < 16)) + 16 * b2n (n.stalls.any (fun e => e.2.st == .fallow))
    + 32 * b2n ((List.range 3).any (fun p => (n.port p).st == .retired)) + 64 * b2n (!n.mem.unreplaced.isEmpty)

/-- NODE_STATUS (R499). -/
def execNodeStatus (path idx : Nat) (s : State) : Host.Outcome State Fault Refusal :=
  s.run fun n => n.hostCmd Cmd.nodeStatus path idx fun n m pl =>
    let h := n.hlth
    let a := n.alarms
    n.checked m [badLen pl 0]
      (n.ok m (leBytes 1 (b2n (a != 0)) ++ leBytes 1 h.cause ++ leBytes 2 0 ++ leBytes 4 h.coreRestarts ++ leBytes 4 h.deviceResets
        ++ leBytes 4 a ++ leBytes 2 h.seedBlocks ++ leBytes 2 n.mem.sparesLeft ++ leBytes 2 n.mem.freePages ++ leBytes 2 h.readOnly.toNat
        ++ leBytes 8 h.upSince))

/-! ### HEALTH_READ (R500) -/

/-- Corrected findings of the last 24 h under a key. -/
def Node.recentOf (n : Node) (key : Nat) : Nat := (n.mem.recent.filter (fun e => e.1 == key && decide (n.now ≤ e.2 + ms 86400000))).length
/-- Blocks of a partition: those the spec states, else free (log 41). -/
def partBlocks (p : Nat) : Nat :=
  if p ≤ 1 then 2048 else if p = 4 then 128 else if p = 5 then 1026 else if p = 6 then 512 else if p = 8 ∨ p = 9 then 2
  else (Config.freeOf 9 (BitVec.ofNat 64 p)).toNat % 65536
/-- The highest erase count of a partition. -/
def Health.erased (h : Health) (p : Nat) : Nat := ((h.erases.filter (fun e => e.1 / 65536 == p)).map Prod.snd).foldl max 0
/-- The blocks retired in a partition. -/
def Health.retired (h : Health) (p : Nat) : Nat := ((h.retiredBlocks.filter (fun e => e.1 / 65536 == p)).map Prod.snd).sum
/-- Healthy designated spares. -/
def Node.healthySpares (n : Node) : Nat := (n.stalls.filter (fun e => e.2.isSpare && e.2.st != .fallow)).length

/-- HEALTH_READ (R500). -/
def execHealthRead (path idx : Nat) (s : State) : Host.Outcome State Fault Refusal :=
  s.run fun n => n.hostCmd Cmd.healthRead path idx fun n m pl =>
    let c := u8 pl 0
    n.checked m [badLen pl 4, badIn c 0 3 0, badRes pl 1 3]
      (n.ok m
        (if c = 0 then (List.range 12).flatMap (fun b =>
           leBytes 1 (n.mem.spareUsed.getD b 0) ++ leBytes 1 ((n.mem.pageMap.filter (fun e => memOf e.1 == some 0 && bankOf e.1 == b)).length)
             ++ leBytes 2 0 ++ leBytes 4 (n.recentOf (256 + b)))
         else if c = 1 then (List.range 9).flatMap (fun i =>
           leBytes 2 (n.mem.retiredPages.getD (i + 1) 0) ++ leBytes 2 0 ++ leBytes 4 (n.recentOf (i + 1)))
         else if c = 2 then (List.range 11).flatMap (fun p =>
           leBytes 2 (partBlocks p) ++ leBytes 2 (n.hlth.retired p) ++ leBytes 4 (n.hlth.erased p))
         else leBytes 2 n.hlth.seedBlocks ++ leBytes 2 n.mem.sparesLeft ++ leBytes 2 n.mem.freePages ++ leBytes 2 n.healthySpares))

/-! ### NODE_RESET (R485) -/

/-- NODE_RESET: class 0 is answered after the restart, class 1 at acceptance; axes that move are stopped with ramp 0. -/
def execNodeReset (path idx : Nat) (s : State) : Host.Outcome State Fault Refusal :=
  s.run fun n => n.hostCmd Cmd.nodeReset path idx fun n m pl =>
    let c := u8 pl 0
    n.checked m ([badLen pl 4, badIn c 0 1 0, badRes pl 1 3] ++ (if c = 0 then n.opRefusals Isl.core .reset else []))
      (if c = 0 then n.startOp Isl.core .reset 0 (some m)
       else
         let n := n.ok m []
         let n := n.updHost (fun h => { h with resetPending := true, resetFrom := n.now })
         [0, 1].foldl (fun n a => if (n.axis a).st = .standstill ∨ (n.axis a).st = .disabled then n else n.stopNow a 0) n)

end Sys2Proof.Machine
end

