-- ==== Sys2Proof/Machine/Host.lean ====
section
/-! DEFINITION. Host access (03): the frames of the host SPI, the service port and the line mailboxes, taking a mailbox, and
the session and host-key commands. -/

namespace Sys2Proof.Machine

/-! ### The host SPI (R67 to R71) -/

/-- A register access: 4-byte aligned in address and length, inside the set (R68, R69). -/
def regSpan (a k : Nat) : Bool := decide (a + k ≤ 0x1C) && a % 4 == 0 && k % 4 == 0
/-- An access inside the aperture (R69). -/
def apSpan (a k : Nat) : Bool := decide (0x10000 ≤ a ∧ a + k ≤ 0x20000)
/-- The address in main memory behind aperture address `a`. -/
def Node.apAddr (n : Node) (a : Nat) : Nat := winBaseAddr + n.host.spi.winBase.toNat * 0x10000 + (a - 0x10000)

/-- The bytes driven on HS_MISO. -/
def Node.drive (n : Node) (bs : List Byte) : Node := n.updHost (fun h => { h with miso := bs })
/-- A frame is refused: its status bit is set and the acknowledge is 0x3C. -/
def Node.refuseSpi (n : Node) (f : HsRegs → HsRegs) : Node := (n.updRegs 1 f).drive [0x3C#8]

/-- SPI_WRITE_FRAME (R67 to R71): every byte the host clocked from HS_CS falling to HS_CS rising, the acknowledge's byte among them. -/
def execSpiWriteFrame (frame : List Nat) (s : State) : Host.Outcome State Fault Refusal :=
  s.run fun n =>
    let b := toBytes frame
    let a := leNat (slice b 1 3)
    let k := u16 b 4
    let data := slice b 6 k
    if !n.ifaceOn then n
    else if n.lineHeld then n.drive [0xFF#8]
    else if u8 b 0 ≠ 0x02 ∨ k = 0 ∨ 512 < k ∨ b.length < 9 + k then n.refuseSpi (fun r => { r with frameErr := true })
    else if u16 b (6 + k) ≠ (crc16 (b.take (6 + k))).toNat then n.refuseSpi (fun r => { r with crcErr := true })
    else if regSpan a k then (n.hsWrites 1 (k / 4) a data).drive [0xA5#8]
    else if apSpan a k then ((n.afterCopies (n.apAddr a) k).write (n.apAddr a) data).drive [0xA5#8]
    else n.refuseSpi (fun r => { r with winErr := true })

/-- What a refused read returns: zeros and a CRC-16 that does not match, free but for that (R68). -/
def Node.refusedRead (n : Node) (k : Nat) (head : List Byte) : Node :=
  let (v, n) := n.free 13
  let good := (crc16 (head ++ List.replicate k 0)).toNat
  let bad := if v.toNat % 65536 = good then good + 1 else v.toNat % 65536
  n.drive (List.replicate k 0 ++ leBytes 2 bad)

/-- What a read drives: the whole of it, or up to HS_CS rising early, which is a frame error (R68). -/
def Node.readDrive (n : Node) (clocked : Nat) (bs : List Byte) : Node :=
  if clocked < 7 + bs.length then (n.updRegs 1 (fun r => { r with frameErr := true })).drive (bs.take (clocked - 7)) else n.drive bs

/-- SPI_READ_FRAME (R67 to R71): every byte the host clocked from HS_CS falling to HS_CS rising: the header, the turnaround byte and one for
each byte of data and CRC. A poisoned word of the aperture is no valid data: the read is refused (R24; log 47). -/
def execSpiReadFrame (frame : List Nat) (s : State) : Host.Outcome State Fault Refusal :=
  s.run fun n =>
    let b := toBytes frame
    let a := leNat (slice b 1 3)
    let k := u16 b 4
    let head := b.take 6
    if !n.ifaceOn then n
    else if n.lineHeld then n.drive (List.replicate (k + 2) 0xFF#8)
    else if u8 b 0 ≠ 0x0B ∨ k = 0 ∨ 512 < k ∨ b.length < 7 then
      (n.updRegs 1 (fun r => { r with frameErr := true })).refusedRead (min k 512) head
    else if regSpan a k then
      let d := n.hsReads 1 (k / 4) a
      n.readDrive b.length (d ++ leBytes 2 (crc16 (head ++ d)).toNat)
    else if apSpan a k then
      let (bad, n) := n.useSram (n.apAddr a) k Isl.line
      if bad then n.refusedRead k head
      else
        let d := n.read (n.apAddr a) k
        n.readDrive b.length (d ++ leBytes 2 (crc16 (head ++ d)).toNat)
    else (n.updRegs 1 (fun r => { r with winErr := true })).refusedRead k head

/-- The path of a register set: the service path, or the host SPI. -/
def setPath (svc : Bool) : Nat := if svc then 2 else 1
/-- A register write that reaches the set: the Line island's operations hold the host SPI alone (R71). -/
def Node.regWrite (n : Node) (svc : Bool) (off v : Nat) : Node :=
  if n.ifaceOn ∧ (svc ∨ !n.lineHeld) then n.hsWrite (setPath svc) off v else n

/-- HS_DOORBELL (R59, R60, R70). -/
def execHsDoorbell (svc : Bool) (v : Nat) (s : State) : Host.Outcome State Fault Refusal := s.run fun n => n.regWrite svc 0x08 v
/-- HS_DONE (R59, R70). -/
def execHsDone (svc : Bool) (v : Nat) (s : State) : Host.Outcome State Fault Refusal := s.run fun n => n.regWrite svc 0x10 v
/-- HS_REGISTER_WRITE (R8, R70): a register without a row of its own. -/
def execHsRegisterWrite (svc : Bool) (off v : Nat) (s : State) : Host.Outcome State Fault Refusal :=
  s.run fun n => if off = 0x08 ∨ off = 0x10 then n else n.regWrite svc off v

/-! ### The service port (R16, R18, R19, R72, R466) -/

/-- The arrays a service frame reaches (R18, R72): base, size, island, written too. -/
def svcArrays : List (Nat × Nat × Nat × Bool) :=
  [(0x10000000, 0x600000, Isl.mem, true), (0x20000000, 0x100000, Isl.line, true), (0x30000000, 0x80000, Isl.core, true),
   (0x40000000, 0x20000, Isl.safeA, true)] ++
  [(0x41000000, 0x20000, Isl.safeB, true), (0x50000000, 0x38000, Isl.sec, true), (0x58000000, 0x10000, Isl.sec, false),
   (0x60000000, 0x8000, Isl.glean, true), (0x70000000, 0x20, Isl.line, true)]

/-- The array that holds a whole span. -/
def svcArray (a k : Nat) : Option (Nat × Nat × Nat × Bool) :=
  svcArrays.find? (fun (x : Nat × Nat × Nat × Bool) => decide (x.1 ≤ a ∧ a + k ≤ x.1 + x.2.1))

/-- An array's island is gated, held in reset or unpowered (R16). -/
def Node.arrayOff (n : Node) (i : Nat) : Bool :=
  let st := (n.island i).st
  let dark := match n.power.stage with | .off | .t0 => true | .t1 | .thermalWait => i != Isl.glean | _ => false
  st == .gated || st == .held || dark || n.power.nrstLow

/-- The first good frame after a clear or a power-up sets the latch; the touch record and SERVICE_PORT_USED follow (R72, R80,
R466). -/
def Node.touchLatch (n : Node) (a opcode : Nat) : Node :=
  if n.sec.touchedNow then n
  else
    let x := n.sec
    ({ n with sec := { x with latch := true, touched := true, touchedNow := true, touches := satInc 32 x.touches,
                              touchedAt := if x.touched then x.touchedAt else n.now } }).log Ev.servicePortUsed a opcode 0

/-- The bytes driven on SVC_IO. -/
def Node.answerSvc (n : Node) (bs : List Byte) : Node := n.updHost (fun h => { h with svcOut := bs })

/-- A service frame of an opcode with its address, count and data length is good (R72): its CRC matches. -/
def svcGood (b : List Byte) (data : Nat) : Bool := b.length == 8 + data && u16 b (6 + data) == (crc16 (b.take (6 + data))).toNat

/-- SVC_READ (R16, R19, R72): every byte of the pod's frame. A poisoned word is no valid data: the read is refused (R24; log 47). -/
def execSvcRead (frame : List Nat) (s : State) : Host.Outcome State Fault Refusal :=
  s.run fun n =>
    let b := toBytes frame
    let a := u32 b 1
    let k := 8 * u8 b 5
    if n.power.stage = .off ∨ n.power.stage = .t0 then n
    else if !svcGood b 0 then n.answerSvc [0x3C#8]
    else
      let n := (n.touchLatch a (u8 b 0)).raise 5
      match svcArray a k with
      | some (_, _, i, _) =>
        if u8 b 0 ≠ 0x31 ∨ k = 0 ∨ 512 < k ∨ (0x70000000 ≤ a ∧ a % 4 ≠ 0) then n.answerSvc [0x3C#8]
        else if n.arrayOff i then n.answerSvc [0x96#8]
        else
          let (bad, n) := n.useSram a k i
          if bad then n.answerSvc [0x3C#8]
          else
            let d := if 0x70000000 ≤ a then n.hsReads 2 (k / 4) (a - 0x70000000) else (List.range k).map (fun j => n.memByte (a + j))
            n.answerSvc ([0xA5#8] ++ d ++ leBytes 2 (crc16 d).toNat)
      | none => n.answerSvc [0x3C#8]

/-- SVC_WRITE (R16, R19, R72): every byte of the pod's frame. A write to the boot ROM is refused. -/
def execSvcWrite (frame : List Nat) (s : State) : Host.Outcome State Fault Refusal :=
  s.run fun n =>
    let b := toBytes frame
    let a := u32 b 1
    let k := 8 * u8 b 5
    if n.power.stage = .off ∨ n.power.stage = .t0 then n
    else if !svcGood b k then n.answerSvc [0x3C#8]
    else
      let n := (n.touchLatch a (u8 b 0)).raise 5
      match svcArray a k with
      | some (_, _, i, wr) =>
        if u8 b 0 ≠ 0x32 ∨ k = 0 ∨ 512 < k ∨ !wr ∨ (0x70000000 ≤ a ∧ a % 4 ≠ 0) then n.answerSvc [0x3C#8]
        else if n.arrayOff i then n.answerSvc [0x96#8]
        else
          let n := if 0x70000000 ≤ a then n.hsWrites 2 (k / 4) (a - 0x70000000) (slice b 6 k) else (n.afterCopies a k).pokes a (slice b 6 k)
          n.answerSvc [0xA5#8]
      | none => n.answerSvc [0x3C#8]

/-! ### Line mailboxes (R59, R60, R65, R66) -/

/-- A request is refused in a frame, its mailbox untouched (R59, R66). -/
def Node.lineBusy (n : Node) (m src : Nat) (b : List Byte) : Node :=
  (n.sessionRefused m (u16 b 0) Rs.mboxBusy (b.drop 16)).send 0x10 32#16 src (respBytes (u16 b 0) (u16 b 2) m Rs.mboxBusy 0 false none []).1

/-- A line request belongs to the mailbox it names (R66): a session's own pair, or mailboxes 14 and 15 without a session. -/
def Node.lineFits (n : Node) (i : Nat) (b : List Byte) : Bool :=
  if 14 ≤ i then sessionless (u16 b 0)
  else if bit (u16 b 6) 1 then
    match n.host.sessions.look (u32 b 8) with
    | some x => x.path != 0 || x.slot == i / 2
    | none => true
  else !sessionless (u16 b 0)

/-- MAILBOX_FRAME (R59, R60, R63, R65, R66): the header, the payload and, with AUTH, the trailer, which goes to offset 496. It is
delivered when main memory runs (R450). -/
def execMailboxFrame (src : Nat) (frame : List Nat) (s : State) : Host.Outcome State Fault Refusal :=
  s.run fun n =>
    let b := toBytes frame
    let i := u16 b 6 / 16 % 16
    let x := n.mbx i
    let n := if n.runs Isl.line then n.raise 2 else n
    if !n.runs Isl.line ∨ !n.bankRuns (bankOf (mbxAddr i)) ∨ b.length < 16 then n
    else if x.st = .posted ∨ x.st = .executing ∨ !n.lineFits i b then n.lineBusy i src b
    else
      let len := min (u16 b 4) 480
      let n := n.write (mbxAddr i) (slice b 0 (16 + len))
      let n := if bit (u16 b 6) 1 then n.write (mbxAddr i + 496) (slice b (16 + len) 16) else n
      n.post i src

/-- What the boot ROM runs when no silo passes (R473). -/
def bootRomRuns (code : Nat) : Bool := code == Cmd.imageWrite || code == Cmd.siloCommit

/-- The field cores read the request of mailbox `m` (R24, R58): a poisoned one answers RESTART_ABORTED, as its lost page does (R491; log
47). -/
def Node.takeRequest (n : Node) (m : Nat) : Node :=
  let (bad, n) := n.useSram (mbxAddr m) 512 Isl.core
  if bad then n.abortMbx m else n.judgeRequest m

/-- The Core island serves commands: its cores run, or it is FAILED and brings itself back (R32; log 43). -/
def Node.coresServe (n : Node) : Bool := n.coresRun || (n.island Isl.core).st == .failed && n.powered Isl.core && !n.host.restarting

/-- MAILBOX_TAKE (R58, R59, R62, R63): the path whose turn it is gives its oldest request. -/
def execMailboxTake (s : State) : Host.Outcome State Fault Refusal :=
  s.run fun n =>
    if 8 ≤ n.executing then n
    else if n.power.stage = .bootFailed then
      match n.host.posted.getD 2 [] with
      | m :: t =>
        let n := (n.updHost (fun h => { h with posted := h.posted.put 2 t })).judgeRequest m
        (match (n.mbx m).req with
         | some (c, _) => if bootRomRuns c then n else n.answer m Rs.busy 0 []
         | none => n)
      | [] => n
    else if n.coresServe then
      match n.host.nextPosted with
      | some (p, m) =>
        let n := n.updHost (fun h => { h with posted := h.posted.put p ((h.posted.getD p []).drop 1), nextPath := (p + 1) % 3 })
        if !n.coresRun then n.takeRequest m
        else match n.postFirmware (u16 (n.read (mbxAddr m) 2) 0) with
          | (true, n) => n.takeRequest m
          | (false, n) => (n.takeRequest m).answer m Rs.busy 0 []
      | none => n
    else n

/-! ### Sessions (R75, R76, R82) -/

/-- SESSION_HELLO (R75, R494): the responder's side of the SM2 key agreement under a random ephemeral value. An E_A that is no point of
the curve answers PARAM_RANGE (log 8). -/
def execSessionHello (path idx : Nat) (s : State) : Host.Outcome State Fault Refusal :=
  s.run fun n => n.hostCmd Cmd.sessionHello path idx fun n m pl =>
    let keyId := u64 pl 0
    let role := u8 pl 8
    let key := n.host.keys.find? (fun (e : Nat × Nat × Nat × BitVec 512) => e.2.1 == keyId)
    let pub := match key with | some (_, _, _, k) => k | none => 0
    let slot := n.freeSlot (mbxPath m)
    n.checked m [badLen pl 76, badIn role 0 3 8, badRes pl 9 3, (key.isNone, Rs.keyUnknown, 0),
        (match key with | some (_, _, r, _) => decide (r < role) | none => false, Rs.roleDenied, 0), (slot.isNone, Rs.sessionLimit, 0),
        (!n.runs Isl.sec, Rs.busy, 0)]
      (if n.secShort then n.degraded m Cmd.sessionHello (n.mem.retiredPages.getD 8 0)
       else
         let (r, n) := n.freeScalar
         match sm2Respond (leBytes 8 keyId) serialBytes (ptOf (leBytes 64 pub.toNat)) (ptOf (slice pl 12 64)) Config.devicePriv r with
         | none => n.answer m Rs.paramRange 12 []
         | some g =>
           let (id, n) := n.freshSession
           let x : Session := { path := mbxPath m, role := role, keyId := keyId, key := BitVec.ofNat 256 (leNat g.key),
                                sA := BitVec.ofNat 256 (leNat g.sA), slot := slot.getD 0, src := (n.mbx m).src, lastResp := n.now }
           (n.updHost (fun h => { h with sessions := h.sessions.put id x })).ok m (leBytes 4 id ++ serialBytes ++ g.eB ++ g.sB))

/-- SESSION_CONFIRM (R75, R80): the answer belongs to the new session. -/
def execSessionConfirm (path idx : Nat) (s : State) : Host.Outcome State Fault Refusal :=
  s.run fun n => n.hostCmd Cmd.sessionConfirm path idx fun n m pl =>
    let id := u32 pl 0
    let open_ := match n.host.sessions.look id with | some x => if x.halfOpen && x.path == mbxPath m then some x else none | none => none
    n.checked m [badLen pl 36, (open_.isNone, Rs.sessionUnknown, 0)]
      (let x := open_.getD {}
       if leNat (slice pl 4 32) ≠ x.sA.toNat then
         (n.answer m Rs.authFail 0 []).updHost (fun h => { h with sessions := h.sessions.del id })
       else
         let n := n.updHost (fun h => { h with sessions := h.sessions.put id { x with halfOpen := false } })
         let n := n.log Ev.sessionOpened id (x.keyId % 2 ^ 32) (x.role + 4 * x.path)
         (n.setMbx m { n.mbx m with session := id, role := x.role }).ok m
           (leBytes 1 x.role ++ (if x.path = 0 then leBytes 1 (2 * x.slot) ++ leBytes 1 (2 * x.slot + 1) else [0, 0]) ++ [0]))

/-- SESSION_CLOSE (R76): its answer is the session's last message; outside a session it answers NO_SESSION (log 43). -/
def execSessionClose (path idx : Nat) (s : State) : Host.Outcome State Fault Refusal :=
  s.run fun n => n.hostCmd Cmd.sessionClose path idx fun n m pl =>
    let id := (n.mbx m).session
    n.checked m [badLen pl 0, (id == 0, Rs.noSession, 0)] ((n.endSession id).ok m [])

/-- SESSION_HALF_OPEN_TIMEOUT (R75): 5 s after the answer to SESSION_HELLO. -/
def execSessionHalfOpenTimeout (id : Nat) (s : State) : Host.Outcome State Fault Refusal :=
  s.run fun n =>
    match n.host.sessions.look id with
    | some x => if x.halfOpen then (n.upTo (x.lastResp + sec 5)).updHost (fun h => { h with sessions := h.sessions.del id }) else n
    | none => n

/-- SESSION_IDLE_TIMEOUT (R76): the timeout after the session's last response. -/
def execSessionIdleTimeout (id : Nat) (s : State) : Host.Outcome State Fault Refusal :=
  s.run fun n =>
    match n.host.sessions.look id with
    | some x => if x.halfOpen || x.ended then n else (n.upTo (x.lastResp + sec n.host.idleTimeout)).endSession id
    | none => n

/-- The entry of a key, or the first free entry. -/
def HostIf.keyEntry (h : HostIf) (id : Nat) : Option Nat :=
  match h.keys.find? (fun (e : Nat × Nat × Nat × BitVec 512) => e.2.1 == id) with
  | some e => some e.1
  | none => (List.range 32).find? (fun k => (h.keys.look k).isNone)

/-- HOSTKEY_ADD (R74, R82). -/
def execHostkeyAdd (path idx : Nat) (s : State) : Host.Outcome State Fault Refusal :=
  s.run fun n => n.hostCmd Cmd.hostkeyAdd path idx fun n m pl =>
    let id := u64 pl 0
    let entry := n.host.keyEntry id
    n.checked m [badLen pl 76, badIn (u8 pl 8) 0 3 8, badRes pl 9 3, badRange entry.isNone 0]
      (n.needCfg m Cmd.hostkeyAdd
        (let e := entry.getD 0
         let n := n.updHost (fun h => { h with keys := h.keys.put e (id, u8 pl 8, BitVec.ofNat 512 (leNat (slice pl 12 64))) })
         (n.storeCfg Cmd.hostkeyAdd e pl).ok m []))

/-- HOSTKEY_REMOVE (R76, R82, R464). -/
def execHostkeyRemove (path idx : Nat) (s : State) : Host.Outcome State Fault Refusal :=
  s.run fun n => n.hostCmd Cmd.hostkeyRemove path idx fun n m pl =>
    let id := u64 pl 0
    let entry := n.host.keys.find? (fun (e : Nat × Nat × Nat × BitVec 512) => e.2.1 == id)
    let lastOwner := (match entry with | some (_, _, r, _) => r == 3 | none => false) && n.host.owners == 1
    n.checked m [badLen pl 8, (entry.isNone, Rs.notFound, 0), (lastOwner, Rs.busy, 0)]
      (n.needCfg m Cmd.hostkeyRemove
        (let e := (entry.map (fun (x : Nat × Nat × Nat × BitVec 512) => x.1)).getD 0
         let n := n.updHost (fun h => { h with keys := h.keys.del e })
         let n := { n with sec := { n.sec with stored := n.sec.stored.filter (fun r => !(r.code == Cmd.hostkeyAdd && r.index == e)) } }
         let ids := (n.host.sessions.filter (fun x => x.2.keyId == id)).map Prod.fst
         let n := ids.foldl (fun n i => n.endSession i) n
         n.ok m []))

/-- NODE_IDENT (R81): serial, firmware of the Core island, command level 2.3, protocol level 5, the role it runs with. -/
def execNodeIdent (path idx : Nat) (s : State) : Host.Outcome State Fault Refusal :=
  s.run fun n => n.hostCmd Cmd.nodeIdent path idx fun n m pl =>
    n.checked m [badLen pl 0]
      (n.ok m (leBytes 8 Config.serial.toNat ++ leBytes 4 (n.island Isl.core).version.toNat ++ leBytes 2 0x0203 ++ leBytes 1 ownLevel
        ++ leBytes 1 (n.mbx m).role))

end Sys2Proof.Machine
end

