-- ==== Sys2Proof/Machine/Islands.lean ====
section
/-! DEFINITION. Islands and crossings (01): ISLAND_CONTROL and ISLAND_STATUS (R29, R30, R33), the states of R32, the end of a
firmware-core restart (R61) and the words that cross (R14 to R17, R23, R24). -/

namespace Sys2Proof.Machine

/-! ### Commands -/

/-- The operation of a payload byte: 0 reset, 1 reload, 2 recalibrate, 3 re-clock (log 34). -/
def opOf (k : Nat) : IslOp := if k = 0 then .reset else if k = 1 then .reload else if k = 2 then .recalibrate else .reclock

/-- ISLAND_CONTROL (R29 to R32, R61): a reset or reload of the Core island is answered after the restart, every other operation at
acceptance. -/
def execIslandControl (path idx : Nat) (s : State) : Host.Outcome State Fault Refusal :=
  s.run fun n => n.hostCmd Cmd.islandControl path idx fun n m pl =>
    let i := u8 pl 0
    let op := opOf (u8 pl 1)
    let bank := u8 pl 2
    n.checked m ([badLen pl 4, badIn i 0 11 0, badIn (u8 pl 1) 0 3 1, badIn bank 0 (if i = Isl.mem then 11 else 0) 2, badRes pl 3 1]
        ++ n.opRefusals i op)
      (if i = Isl.core ∧ op.clears then n.startOp i op bank (some m) else (n.ok m []).startOp i op bank none)

/-- The word of an island (R33); its counts are of the findings since the last read. -/
def Island.word (x : Island) (code : Option Nat) : Nat :=
  x.st.code + 16 * b2n x.locked + 32 * b2n (x.imageOk && code.isSome) + 2 ^ 8 * x.ceCount.toNat + 2 ^ 16 * x.ueCount.toNat + 2 ^ 24 * x.opCount.toNat

/-- ISLAND_STATUS (R33). -/
def execIslandStatus (path idx : Nat) (s : State) : Host.Outcome State Fault Refusal :=
  s.run fun n => n.hostCmd Cmd.islandStatus path idx fun n m pl =>
    n.checked m [badLen pl 0]
      (let res := (List.range 12).flatMap (fun i => leBytes 4 ((n.island i).word (imageCode i)))
       let n := (List.range 12).foldl (fun n i => n.updIsland i (fun x => { x with ceCount := 0, ueCount := 0 })) n
       n.ok m res)

/-! ### The states of R32 -/

/-- QUIESCE_DRAINED: the words in flight are through. -/
def execQuiesceDrained (i : Nat) (s : State) : Host.Outcome State Fault Refusal :=
  s.run fun n => if (n.island i).st = .quiescing then n.islandQuiet i else n

/-- QUIESCE_TIMEOUT: what is left after 10 µs is discarded, its senders get OFFLINE. -/
def execQuiesceTimeout (i : Nat) (s : State) : Host.Outcome State Fault Refusal :=
  s.run fun n => if (n.island i).st = .quiescing then { n with lastCrossing := .offline }.islandQuiet i else n

/-- HELD_ELAPSED: RUN after a reset or a wake, LOADING before a reload; the Core island stays HELD through its restart. -/
def execHeldElapsed (i : Nat) (s : State) : Host.Outcome State Fault Refusal :=
  s.run fun n =>
    if (n.island i).st = .held then
      match (n.island i).op with
      | some .reload => n.updIsland i (fun x => { x with st := .loading, imageOk := false })
      | some _ => if n.coreWaits i then n else (n.islandRuns i).islandLog
      | none => n.islandRuns i
    else n

/-- ISLAND_LOAD_DONE: `ok` tells that every word came; the digest is the active silo's (R469, R475). The Core island stays LOADING
until its restart is complete. -/
def execIslandLoadDone (i : Nat) (ok : Bool) (s : State) : Host.Outcome State Fault Refusal :=
  s.run fun n =>
    if (n.island i).st = .loading then
      let code := (imageCode i).getD 0
      if ok ∧ n.imageGood code then
        let n := n.runImage code
        if n.coreWaits i then n else (n.islandRuns i).islandLog
      else (n.islandFails i).islandLog
    else n

/-- CALIBRATION_DONE: new trims, or FAILED with the trims before; the ports whose PHY is out of range are retired (R281), and
converters that could not be calibrated are out of service (R193). -/
def execCalibrationDone (i : Nat) (ok : Bool) (ports : List Nat) (s : State) : Host.Outcome State Fault Refusal :=
  s.run fun n =>
    if (n.island i).st = .calibrating then
      if ok then (n.updIsland i (fun x => { x with trims := x.trims + 1 })).islandRuns i
      else
        let n := (n.islandFails i).islandLog
        if i = Isl.line then (ports.filter (fun p => decide (p < 3))).foldl (fun n p => n.retirePort p 6) n
        else if i = Isl.io then n.calibrationFailed
        else n
    else n

/-- LOCK_ACHIEVED: RUN, or the state that the lost lock had left, from its start. -/
def execLockAchieved (i : Nat) (s : State) : Host.Outcome State Fault Refusal :=
  s.run fun n =>
    if (n.island i).st = .relocking then
      let n := n.updIsland i (fun x => { x with locked := true })
      match (n.island i).resume with
      | some st => n.updIsland i (fun x => { x with st := st, resume := none })
      | none => n.islandRuns i
    else n

/-- RELOCK_TIMEOUT: FAILED after 200 µs. -/
def execRelockTimeout (i : Nat) (s : State) : Host.Outcome State Fault Refusal :=
  s.run fun n =>
    if (n.island i).st = .relocking then ((n.updIsland i (fun x => { x with locked := false })).islandFails i).logFree Ev.clockLockLost else n

/-- CLOCK_LOCK_LOST: from RUN, or from an operation that goes on after the relock. `at_` is the island and, for Main memory, the bank
whose PLL output lost its lock (R12). The Power island has no clock. -/
def execClockLockLost (at_ : Nat × Nat) (s : State) : Host.Outcome State Fault Refusal :=
  s.run fun n =>
    let x := n.island at_.1
    let relock (r : Option IslSt) : Node :=
      (n.updIsland at_.1 (fun x => { x with st := .relocking, locked := false, resume := r })).logFree Ev.clockLockLost
    if Isl.power ≤ at_.1 then n
    else match x.st with
      | .run => ((relock none).updIsland at_.1 (fun x => { x with bank := if at_.1 = Isl.mem then at_.2 else 0 })).islDown at_.1 none
      | .quiescing | .held | .loading | .calibrating => relock (some x.st)
      | _ => n

/-- The Core island's restart may end: it is HELD after a reset, or LOADING with its image checked. -/
def Node.coreReady (n : Node) : Bool :=
  let x := n.island Isl.core
  (x.st == .held && x.op == some .reset) || (x.st == .loading && x.op == some .reload && x.imageOk)

/-- CORE_RESTART_DONE (R32, R61, R126, R170, R347, R401): `bad` holds the parcels of own records whose crc fails. -/
def execCoreRestartDone (bad : List Nat) (s : State) : Host.Outcome State Fault Refusal :=
  s.run fun n =>
    if n.coreReady then
      ((n.updIsland Isl.core (fun x => { x with st := .run, op := none, resume := none })).coreStart bad).islandLog
    else n

/-! ### Crossings (R14 to R17) -/

/-- The crossings of R15. -/
def crossings : List (Nat × Nat) :=
  [(1, 2), (2, 1), (0, 2), (2, 0), (3, 2), (2, 3), (1, 3), (3, 1), (3, 4), (4, 3), (3, 5), (5, 3), (3, 6), (6, 3)] ++
  [(1, 7), (1, 8), (7, 1), (8, 1), (1, 9), (9, 1), (9, 2), (10, 1), (1, 10), (10, 5), (5, 10)]

/-- An end of a crossing works for address `a`: the island runs, the Main memory island by the bank of the address (R12), or it is the
I/O end of the Gleaner's crossings, which stays powered in sleep. -/
def Node.endWorks (n : Node) (i other a : Nat) : Bool :=
  (if i = Isl.mem then n.bankRuns (bankOf a) else n.runs i)
    || (i == Isl.io && other == Isl.glean && (n.island Isl.io).st == .gated && n.powered Isl.io)

/-- A Core access to a safety island outside its exchange mailboxes, or a write to the outbound one (R17). -/
def deniedAt (src dst a : Nat) (write : Bool) : Bool :=
  let base := if dst = Isl.safeA then 0x40000000 else 0x41000000
  src == Isl.core && (dst == Isl.safeA || dst == Isl.safeB)
    && !(decide (base + 0x1F800 ≤ a ∧ a < base + 0x20000) && !(write && decide (a < base + 0x1FC00)))

/-- The bank's part of a read: the word at `a` of a memory of island `src` is read for `dst` (R23, R28). Answers whether it is poisoned,
and the word that sets out; `word` itself where nothing is read. -/
def Node.bankWord (n : Node) (src dst a word : Nat) (write : Bool) (upset : BitVec 76) : Bool × Nat × Node :=
  if write || (memOf a).map memIsland != some src then (false, word, n)
  else
    let (f, n) := (n.afterCopies (wordOf a) 8).bankRead a upset dst false
    (f == .uncorrectable || f == .poison, (n.dataAt a).toNat, n)

/-- The crossing checks a word that differs by `err` from its codeword (R22, R23, R25): what it forwards, and whether it is poisoned. A
poisoned word that is stored is not consumed (R24; log 47). -/
def Node.crossCheck (n : Node) (dst word : Nat) (write : Bool) (err : BitVec 76) : Bool × Nat × Node :=
  let syn := (syndromeOf (codeword (BitVec.ofNat 64 word) ^^^ err)).toNat
  let out := (BitVec.ofNat 64 word ^^^ decodeData err).toNat
  match decodeErr err with
  | .clean => (false, out, n)
  | .corrected k =>
    (false, out, (n.updIsland dst (fun x => { x with ceCount := BitVec.ofNat 8 (satInc 8 x.ceCount.toNat) })).eccLog Ev.crossingEcc 0 k syn 10 dst 4)
  | .uncorrectable =>
    (true, word, (n.updIsland dst (fun x => { x with ueCount := BitVec.ofNat 8 (satInc 8 x.ueCount.toNat) })).eccLog Ev.crossingEcc 0 31 syn 10 dst 4)
  | .poison => (true, word, if write then n else n.eccLog Ev.eccPoisonConsumed 0 31 poisonSyn 10 dst 3)

/-- A word is delivered: a write goes into the destination's memory, a poisoned one with its POISON syndrome (R24). -/
def Node.deliverWord (n : Node) (dst a word : Nat) (write poison : Bool) : Node :=
  let n := { n with lastCrossing := if poison then .deliveredPoison else .delivered }
  if write && (memOf a).map memIsland == some dst then
    let n := (n.afterCopies (wordOf a) 8).pokes (wordOf a) (leBytes 8 word)
    if poison then n.poisonWord a else n
  else n

/-- CROSSING_WORD (R14 to R17, R21 to R25): a word from island `src` to island `dst`, a request for address `a`, the data read there, or
a write of `word`. `buffered` tells that the word was in the crossing's buffer before the destination stopped; `bank` and
`bankCheck` are by what the array's word, its data and its check bits, differs at the bank from what was stored there, `err` and `errCheck`
by what the word that arrives differs from its codeword. -/
def execCrossingWord (src dst a word : Nat) (write buffered : Bool) (bank bankCheck err errCheck : Nat) (s : State) : Host.Outcome State Fault Refusal :=
  if crossings.contains (src, dst) then
    s.run fun n =>
      if !n.endWorks dst src a ∧ !(buffered ∧ (n.island dst).st = .quiescing) then { n with lastCrossing := .offline }
      else if !n.endWorks src dst a then { n with lastCrossing := .aborted }
      else if deniedAt src dst a write then { n with lastCrossing := .denied }.logFree Ev.crossingDenied
      else
        let (p, w, n) := n.bankWord src dst a word write (upset bank bankCheck)
        let (q, w, n) := n.crossCheck dst w write (upset err errCheck)
        n.deliverWord dst a w write (p || q)
  else .fault .noCrossing

end Sys2Proof.Machine
end

