-- ==== Sys2Proof/Machine/Power.lean ====
section
/-! DEFINITION. Power (02) and resets (22): what a device reset or a loss of power keeps (R484), power-up (R47), the bypass (R44),
power-down (R48), NRST (R37, R483), the tap (R40), VAUX (R46), heat (R50) and class 1 of NODE_RESET (R485). -/

namespace Sys2Proof.Machine

/-! ### What a device reset keeps (R484, R489, R498) -/

/-- Field side: the watchdog's settings. Comparators show the lands. -/
def FieldIo.reboot (x : FieldIo) : FieldIo :=
  { wdSource := x.wdSource, wdTimeout := x.wdTimeout, ins := x.ins.mapE (fun _ p => { comparator := p.comparator }) }
/-- Converters: the stored slot list. -/
def Adc.reboot (x : Adc) : Adc := { list := match x.pending with | some (l, _) => l | none => x.list }
/-- Interfaces: nothing but the levels of their lands. -/
def Enc.reboot (e : Enc) : Enc := { a := e.a, b := e.b, z := e.z }
/-- Axes: settings, the table of the recipe store, and an offset set for an interface in mode 2. -/
def Axis.reboot (x : Axis) (mode2 : Bool) : Axis :=
  { cfg := x.cfg, configured := x.configured, seg := x.seg, segLen := x.segLen, encOffset := if mode2 then x.encOffset else 0,
    encOffsetSet := x.encOffsetSet && mode2 }
/-- Drive stages: settings and the stored table. -/
def Drive.reboot (d : Drive) : Drive :=
  { tOff := d.tOff, tBlank := d.tBlank, fast := d.fast, csRun := d.csRun, csHold := d.csHold, standstill := d.standstill, idle := d.idle,
    table := d.nextTable.getD d.table }
/-- The line: stored settings and gate lists; retired ports stay retired. -/
def Line.reboot (l : Line) : Line :=
  let x := l.started true
  { ports := x.ports.mapE (fun _ p => { st := p.st, gates := match p.newGates with | some (g, _) => some g | none => p.gates }),
    cfg := x.cfg, cycle := x.cycle, sharedLost := l.sharedLost, mapDue := x.mapDue }
/-- Line time: settings; the counter runs on until t5 sets it. -/
def Time.reboot (t : Time) : Time := { count := t.count, cfg := t.newCfg.getD t.cfg }
/-- Zone bus: settings and filter elements; OFF until t5. -/
def Zb.reboot (z : Zb) : Zb :=
  { mode := z.mode, flags := z.flags, timing := z.timing, laneFlag := z.laneFlag, recoveryDelay := z.recoveryDelay,
    filters := z.filters, ring := z.ring }
/-- Custody: settings and the checkpoint. -/
def Custody.reboot (c : Custody) : Custody :=
  { configured := c.configured, stallSource := c.stallSource, stall := c.stall, scale := c.scale, speed := c.speed, period := c.period,
    window := c.window, scanner := c.scanner, scanPos := c.scanPos, defaultExit := c.defaultExit, exits := c.exits, routes := c.routes,
    ckptSeq := c.durable, durable := c.durable, half := c.half, half0 := c.half0, half1 := c.half1 }
/-- Lifts: settings. -/
def Lift.reboot (x : Lift) : Lift :=
  { cfgOk := x.cfgOk, tableOk := x.tableOk, scale := x.scale, driveScale := x.driveScale, decel := x.decel, vRef := x.vRef, refTol := x.refTol,
    flagHalf := x.flagHalf, stopTol := x.stopTol, refTravel := x.refTravel, dwell := x.dwell, refUp := x.refUp, holdFlag := x.holdFlag,
    parkLevel := x.parkLevel, idleTime := x.idleTime, levelTable := x.levelTable }
/-- Gates: settings. -/
def Gate.reboot (g : Gate) : Gate :=
  { cfgOk := g.cfgOk, tUnlock := g.tUnlock, tOpen := g.tOpen, tClose := g.tClose, tLock := g.tLock, retryDwell := g.retryDwell, iObst := g.iObst,
    ferrObst := g.ferrObst, openPos := g.openPos, closedPos := g.closedPos }
/-- Harvest: the committed list and the collectors, which ask for their share again. -/
def Harvest.reboot (h : Harvest) : Harvest :=
  let (s, es) := match h.newList with | some (s, es, _) => (s, es) | none => (h.inForce, h.entries)
  { inForce := s, entries := es, generation := h.generation, stagedSet := s, stagedEnt := (List.range es.length).zip es,
    slots := h.slots.mapE (fun _ x => { st := if x.st = .none then .none else .requested, address := x.address, share := x.share }) }
/-- The Gleaner: policy and rules. -/
def Gleaner.reboot (g : Gleaner) : Gleaner :=
  { enable := g.enable, flags := g.flags, rate := g.rate, delay := g.delay, watch := g.watch, rules := g.rules, staged := g.rules }
/-- Recipes: the recipe store and the scheduling settings; cores without SRAM stay out. -/
def Recipes.reboot (r : Recipes) : Recipes :=
  { store := r.store, weighted := r.weighted, weights := r.weights, fwGroup := r.fwGroup, coresOut := r.coresOut,
    tick := match r.newTick with | some (k, _) => k | none => r.tick }
/-- The safety zone: STOP, with the bytes of the stored configuration. -/
def Safety.reboot (f : Safety) : Safety := { cfgBytes := f.cfgBytes }
/-- Host access: keys and the node configuration. -/
def HostIf.reboot (h : HostIf) : HostIf := { keys := h.keys, spiRole := h.spiRole, idleTimeout := h.idleTimeout }
/-- Silos keep their bytes; staging starts again (R470). -/
def Silo.reboot (x : Silo) : Silo := { bytes := x.bytes }
/-- Security: identity, silos, boot pointers and configuration. -/
def Security.reboot (x : Security) : Security :=
  { x with siloA := x.siloA.reboot, siloB := x.siloB.reboot, snapshot := none, cfgStaged := [], running := [], commitStage := 0 }
/-- Health: the health map; the resets are counted. -/
def Health.reboot (h : Health) (cause : Nat) : Health :=
  ({ cause := cause, deviceResets := satInc 32 h.deviceResets, seedBlocks := h.seedBlocks, readOnly := h.readOnly, upSince := h.upSince,
     retiredBlocks := h.retiredBlocks, lostBlocks := h.lostBlocks, corruptIn := h.corruptIn, erases := h.erases, map0 := h.map0, map1 := h.map1 } : Health).mapWrite
/-- The health map of memories: a retirement whose copy had not ended is undone (R487). -/
def MemHealth.reboot (x : MemHealth) : MemHealth :=
  let cut := x.pageMap.filter (fun e => x.copyingPages.contains e.1)
  let from_ (lo hi : Nat) : Nat := (cut.filter (fun e => decide (lo ≤ e.2 ∧ e.2 < hi))).length
  let rows := x.rowMap.filter (fun e => x.copyingRows.contains e.1)
  { rowMap := x.rowMap.filter (fun e => !x.copyingRows.contains e.1), pageMap := x.pageMap.filter (fun e => !x.copyingPages.contains e.1),
    spareUsed := x.spareUsed.mapE (fun b k => k - (rows.filter (fun e => e.2.1 == b)).length), retiredPages := x.retiredPages,
    freePages := x.freePages + from_ 0x10590000 0x10600000, harvestTaken := x.harvestTaken - from_ 0x10450000 0x10550000,
    recipeTaken := x.recipeTaken.filter (fun p => !(cut.any (fun e => e.2 == 0x10291000 + 4096 * p))) }

/-- Everything a device reset or a loss of power does to the node (R484): power-up continues from `stage`. -/
def Node.deviceReset (n : Node) (cause : Nat) (stage : PowerStage) : Node :=
  let mode2 (a : Nat) : Bool := match n.encOf a with | some i => (n.stall (n.encStall i)).pf 8 1 == 2 | none => false
  let p := n.power
  { stalls := n.stalls.mapE (fun k _ => n.bootStall k), stored := n.stored, rcp := n.rcp.reboot, fio := n.fio.reboot, adc := n.adc.reboot,
    encs := n.encs.mapE (fun _ e => e.reboot), axes := n.axes.mapE (fun a x => x.reboot (mode2 a)), drives := n.drives.mapE (fun _ d => d.reboot),
    line := n.line.reboot, time := n.time.reboot, zb := n.zb.reboot, cust := n.cust.reboot, lifts := n.lifts.mapE (fun _ x => x.reboot),
    gates := n.gates.mapE (fun _ x => x.reboot), harv := n.harv.reboot, rcd := n.rcd.atReset, safe := n.safe.reboot, glean := n.glean.reboot,
    sec := n.sec.reboot, hlth := n.hlth.reboot cause, mem := n.mem.reboot, host := n.host.reboot, freeCtr := n.freeCtr,
    power := { stage := stage, lvLow := p.lvLow, tap := p.tap, ovHold := p.ovHold, dieHigh := p.dieHigh, nrstLow := p.nrstLow, resetCause := cause,
               converterOn := stage != .off, bootChoice := p.bootChoice } }

/-! ### Power-up (R47) -/

/-- POWER_UP_START (R40, R47): `below` tells that the tap has also stayed below the overvoltage release for 10 ms. -/
def execPowerUpStart (below : Bool) (s : State) : Host.Outcome State Fault Refusal :=
  s.run fun n =>
    if n.power.stage = .off ∧ (!n.power.ovHold ∨ below) then n.updPower (fun p => { p with stage := .t0, converterOn := true, ovHold := false })
    else n

/-- VAON_REGULATED (R47, R466): the touch latch takes its value from the touch record. -/
def execVaonRegulated (s : State) : Host.Outcome State Fault Refusal :=
  s.run fun n =>
    if n.power.stage = .t0 then
      (n.updPower (fun p => { p with stage := .t1, bypassClosed := true })).updSec (fun x => { x with latch := x.touched, touchedNow := false })
    else n

/-- SUPPLIES_REGULATED (R46, R47): VAUX comes on when VF24 is valid, `rise.1`, and the store can be read: `rise.2` lists the recorder's slots
whose CRC is now wrong, each with the sequence read from it; Granary slot k is k, Rick slot k 16,384 + k. While NRST is low nothing goes
on. -/
def execSuppliesRegulated (rise : Bool × List (Nat × Nat)) (s : State) : Host.Outcome State Fault Refusal :=
  s.run fun n =>
    if n.power.stage = .t1 ∧ !n.power.nrstLow then
      (n.updPower (fun p => { p with stage := .t2, phyPowered := true, vauxOn := rise.1 })).updRcd (fun r => { r with wrongCrc := rise.2 })
    else n

/-- No silo passes: the bypass stays closed and LED_STAT blinks (R473). -/
def Node.bootFails (n : Node) : Node := n.updPower (fun p => { p with stage := .bootFailed, ledBlink := true })
/-- The silo booted, with the step of R473 that chose it. -/
def Node.bootFrom (n : Node) (k step : Nat) : Node :=
  (n.updPower (fun p => { p with bootChoice := (k, step) })).updSec (fun x => { x with active := k, booted := k })

/-- BOOT_SILO_SELECT (R47, R404, R473): t3, the clocks are locked and the recorder's slots are classified. -/
def execBootSiloSelect (s : State) : Host.Outcome State Fault Refusal :=
  s.run fun n =>
    if n.power.stage = .t2 then
      let n := (List.range 11).foldl (fun n i => n.updIsland i (fun x => { x with locked := true })) n
      let n := n.slotScan
      match n.bootChoose [] with
      | some (k, step) => (n.bootFrom k step).updPower (fun p => { p with stage := .t3 })
      | none => n.bootFails
    else n

/-- Every island runs the active silo's images (R47, R468). -/
def Node.runImages (n : Node) : Node := (List.range 7).foldl (fun n c => n.runImage c) n

/-- IMAGES_LOADED (R47, R473): the image digests are checked; a silo that fails gives way to the other. -/
def execImagesLoaded (s : State) : Host.Outcome State Fault Refusal :=
  s.run fun n =>
    if n.power.stage = .t3 then
      let ready (n : Node) : Node := n.runImages.updPower (fun p => { p with stage := .t4 })
      if n.activeSilo.imagesOk then ready n
      else match n.bootChoose [n.sec.active] with
        | some (k, step) => if (n.silo k).imagesOk then ready (n.bootFrom k step) else n.bootFails
        | none => n.bootFails
    else n

/-! ### t5 -/

/-- The command of a record runs in a mailbox of its own and leaves nothing there (R477). -/
def Node.replayCmd (n : Node) (code : Nat) (pl : List Byte) (f : Nat → Nat → State → Host.Outcome State Fault Refusal) : Node :=
  let n := n.setMbx 48 { st := .executing, role := 3, req := some (code, 0, 0, pl) }
  let n := match f 3 0 { node := n, pending := [] } with | .next s => s.node | _ => n
  (n.updHost (fun h => { h with mbx := h.mbx.del 48 })).write (mbxAddr 48) (List.replicate 512 0)

/-- The commands that store configuration, but for the host keys and the safety configuration, which the node keeps (R477). -/
def replayTable : List (Nat × (Nat → Nat → State → Host.Outcome State Fault Refusal)) :=
  [(Cmd.stallWrite, execStallWrite), (Cmd.chanSpare, execChanSpare), (Cmd.ioWatchdog, execIoWatchdog), (Cmd.adcSequence, execAdcSequence),
   (Cmd.schedConfig, execSchedConfig), (Cmd.axisConfig, execAxisConfig), (Cmd.driveConfig, execDriveConfig), (Cmd.lineConfig, execLineConfig)] ++
  [(Cmd.timeConfig, execTimeConfig), (Cmd.zbConfig, fun p i => execZbConfig (p, i) false), (Cmd.custodyConfig, execCustodyConfig), (Cmd.liftConfig, execLiftConfig),
   (Cmd.harvestList, execHarvestList), (Cmd.harvestCollector, execHarvestCollector), (Cmd.sleepPolicy, execSleepPolicy)]

/-- The Gleaner's rules of a record: 64 rules, as a commit stores them. -/
def Node.replayRules (n : Node) (data : List Byte) : Node :=
  let t : Tbl GlRule := (List.range 64).map (fun i => (i, GlRule.ofBytes (slice data (16 * i) 16)))
  (n.updGlean (fun g => { g with rules := t, staged := t, sts := [] })).storeCfg Cmd.gleanerRules 0 data

/-- One record of a configuration image; the node's own address stays. -/
def Node.replayRec (n : Node) (r : CfgRec) : Node :=
  let keepAddr := r.code == Cmd.lineConfig && u8 r.data 0 == 0 && r.data.length == 20
  let pl := if keepAddr then patch r.data 4 (leBytes 2 n.line.cfg.address) else r.data
  if r.code = Cmd.gleanerRules then n.replayRules r.data
  else match replayTable.find? (fun (e : Nat × (Nat → Nat → State → Host.Outcome State Fault Refusal)) => e.1 == r.code) with
    | some e => n.replayCmd r.code pl e.2
    | none => n

/-- CONFIG_REPLAY (R477, R487): a pending image is replayed; it is pending no more once the replay is complete. -/
def Node.configReplay (n : Node) : Node :=
  match n.sec.cfgPending with
  | some img =>
    let n := (cfgRecords (u32 img 12) (img.drop 32)).foldl (fun n r => n.replayRec r) n
    n.updSec (fun x => { x with cfgPending := none })
  | none => n

/-- CHAN_AUTOSTART (R99). -/
def Node.autostartChans (n : Node) : Node :=
  (n.stalls.filter (fun e => e.2.autostart)).foldl (fun n e => n.autostartChan e.1) n
/-- RECIPE_AUTOSTART of one recipe (R123). -/
def Node.autostartRecipe (n : Node) (r : Nat) : Node :=
  let i := n.recAuto r
  if 63 < i then n
  else if n.recLen r = 0 then n.log Ev.recipeAutostartFail r 0 Rs.notFound
  else if !n.instEnded i then n.log Ev.recipeAutostartFail r 0 Rs.busy
  else match n.recipeFault r with
    | some step => n.log Ev.recipeAutostartFail r step Rs.recipeInvalid
    | none => n.startInst i r 0 0 10000 0 n.now false
/-- RECIPE_AUTOSTART (R123). -/
def Node.autostartRecipes (n : Node) : Node := (List.range 256).foldl (fun n r => n.autostartRecipe r) n

/-- The highest t64 durable in the Rick (R292). -/
def Recorder.lastTime (r : Recorder) : T64 := ((validRecs r.rick).map (fun e => e.t)).foldl max 0

/-- Line time at t5 (R292): 1 s past the highest t64 of the Rick, I nominal, FREE. -/
def Node.startTime (n : Node) : Node :=
  let t := n.rcd.lastTime + ms 1000
  let n := { n with time := { n.time with count := t * 2 ^ 48, incr := nominalIncr, servo := .free } }
  n.updRcd (fun r => { r with globalBucket := { tokens := 4096 * oneToken, at_ := t } })

/-- A safety channel ends its start tests (R415): `cause` 0 to 6 names the test that failed, 7 none. -/
def Node.startTests (n : Node) (c cause : Nat) : Node :=
  if 7 ≤ cause then n.updChan c (fun x => { x with st := .run, tested := true })
  else
    let (v, n) := n.free 2
    n.chanFault c cause v.toNat

/-- The field side at t5 (R46, R172): on, or latched with FIELD_SUPPLY_OFF. A rise `waited` ns ago counts on; VAUX that its limit switched
off waits for its retry. -/
def Node.startField (n : Node) (mV : Nat) (on : Bool) (waited : Nat) : Node :=
  if on then (n.updFio (fun x => { x with supply := .on })).updPower (fun p => { p with vauxOn := !p.vauxRetry })
  else
    let n := n.updFio (fun x => { x with supply := if x.supply = .rising then .rising else .latched, risenAt := n.now - waited })
    (n.setVaux false).log Ev.fieldSupplyOff mV 0 0

/-- AXIS_UNREFERENCED of the axes whose interface counts from 0 again (R489). -/
def Node.lostReferences (n : Node) : Node :=
  [0, 1].foldl (fun n a =>
    match n.encOf a with
    | some i => if (n.axis a).configured ∧ (n.stall (n.encStall i)).pf 8 1 ≠ 2 then n.log Ev.axisUnreferenced a 1 0 else n
    | none => n) n

/-- The logs of t5: the cause of the reset, a silo other than step 1's, a low line voltage. LINE_VOLTAGE_LOW raised earlier in power-up has
its record already; it is logged again at t5 (DESIGN CHOICE, log 51). -/
def Node.bootLogs (n : Node) : Node :=
  let n := n.log Ev.resetCause n.hlth.cause n.hlth.deviceResets n.sec.booted
  let n := if n.power.bootChoice.2 = 1 then n else n.log Ev.bootFallback n.sec.booted n.power.bootChoice.2 n.bootSeq
  if n.power.lvLow then n.logFree Ev.lineVoltageLow else n

/-- POWER_UP_READY (R47, R99, R107, R123, R170, R172, R292, R310, R408, R477, R486): t5. `mV` is VF24, `field` tells that it stayed above
the restore threshold for 10 ms, `testA` and `testB` are the start tests of the safety channels. -/
def execPowerUpReady (mV : Nat) (field : Bool) (testA testB : Nat) (s : State) : Host.Outcome State Fault Refusal :=
  s.run fun n =>
    if n.power.stage = .t4 then
      let waited := n.now - n.fio.risenAt
      let n := n.updPower (fun p => { p with stage := .t5 })
      let n := (n.startTime.updHost (fun h => { h with alive := true })).updHlth (fun h => { h with upSince := n.startTime.now })
      let n := (n.configReplay.updLine Line.reboot).updTime (fun t => { t with cfg := t.newCfg.getD t.cfg, newCfg := none })
      let n := n.layRecipes
      let n := if n.safe.cfgBytes.isEmpty then n else n.sfLoad n.safe.cfgBytes
      let n := (n.startTests 0 testA).startTests 1 testB
      let n := (n.startField mV field waited).wdStart
      let n := n.zbReturns false
      let n := (n.bootLogs.lostReferences).clearResume
      (n.autostartChans.autostartRecipes).driveAll
    else n

/-! ### The bypass (R44) -/

/-- BYPASS_OPEN (R44, R47): the Line island runs, the PHYs are powered, the tap, `mV`, is within 36 to 60 V and LINE_VOLTAGE_LOW is clear;
PHYs A and B start training. -/
def execBypassOpen (s : State) : Host.Outcome State Fault Refusal :=
  s.run fun n =>
    if n.power.bypassClosed ∧ n.runs Isl.line ∧ n.power.phyPowered ∧ !n.power.lvLow ∧ n.power.tap ≤ 60000 ∧ n.power.stage.up then
      let n := n.updPower (fun p => { p with bypassClosed := false, stage := if p.stage = .t5 then .t6 else p.stage })
      let open_ (x : Port) : Port := if x.st = .bypassed then { x with st := .training, linkUp := false } else x
      (((n.updPort 0 open_).updPort 1 open_).log Ev.bypassOpened 0 0 0).raise 9
    else n

/-! ### Power-down (R48) -/

/-- t1 of R48: the safety switches open, every output goes off, the phase lands are low, VAUX goes off, the leave notice is sent. -/
def Node.downT1 (n : Node) (leave : Nat) : Node :=
  let n := n.updPower (fun p => { p with stage := .downT1, vauxOn := false, vauxRetry := false })
  let n := ((n.zoneStop 6).sfOpen 0).sfOpen 1
  let n := ([0, 1].foldl (fun n a => n.coilsOff a) n).driveAll
  if n.power.bypassClosed then n else n.sendLeave leave

/-- A power-down starts (R48): the sequence runs from every stage in which the converter's supplies are up, NRST low included; with
nothing but the converter or VAON running there is no store to write to, and the rest state is reached at once (DEDUCED, log 51).
`leave` is the cause of LEAVE, `cause` that of R486. -/
def Node.powerDown (n : Node) (ev leave cause : Nat) (rest : PowerStage) : Node :=
  match n.power.stage with
  | .off | .downT1 | .downT2 | .downT3 => n
  | .t0 | .thermalWait => n.deviceReset cause rest
  | _ => ((n.logFree ev).updPower (fun p => { p with resetCause := cause })).downT1 leave

/-- POWER_FAIL (R40, R47, R48). -/
def execPowerFail (s : State) : Host.Outcome State Fault Refusal := s.run fun n => n.powerDown Ev.powerFail 0 0 .off
/-- LINE_OVERVOLTAGE (R40, R48): power-up then also waits for the release threshold. -/
def execLineOvervoltage (s : State) : Host.Outcome State Fault Refusal :=
  s.run fun n => (n.powerDown Ev.lineOvervoltage 1 4 .off).updPower (fun p => { p with ovHold := true })

/-- The cause of BYPASS_CLOSED and LEAVE for a power-down. -/
def downCause (cause : Nat) : Nat := if cause = 4 then 1 else if cause = 3 then 2 else 0

/-- POWER_DOWN_BYPASS_CLOSE (R44, R48): t2. -/
def execPowerDownBypassClose (s : State) : Host.Outcome State Fault Refusal :=
  s.run fun n =>
    if n.power.stage = .downT1 then
      (n.closeBypass (some (downCause n.power.resetCause))).updPower (fun p => { p with stage := .downT2 })
    else n

/-- The record of the power-down is durable (t3 of R48). -/
def Recorder.downDurable (r : Recorder) : Bool :=
  !(r.queue.any (fun e => alwaysOn e.code)) && (match r.program with | some (e, _, _) => !alwaysOn e.code | none => true)

/-- CONVERTER_STOP (R48, R50): the supplies fall, after THERMAL_STOP all but VAON. -/
def execConverterStop (s : State) : Host.Outcome State Fault Refusal :=
  s.run fun n =>
    if n.power.stage = .downT2 ∧ n.rcd.downDurable then
      n.deviceReset n.power.resetCause (if n.power.resetCause = 3 then .thermalWait else .off)
    else n

/-- LINE_VOLTAGE_LOW (R40). -/
def execLineVoltageLow (s : State) : Host.Outcome State Fault Refusal :=
  s.run fun n =>
    if n.power.lvLow ∨ n.power.stage = .off then n else ((n.updPower (fun p => { p with lvLow := true })).logFree Ev.lineVoltageLow).raise 8
/-- LINE_VOLTAGE_LOW_CLEAR (R40, R47). -/
def execLineVoltageLowClear (s : State) : Host.Outcome State Fault Refusal := s.run fun n => n.updPower (fun p => { p with lvLow := false })

/-! ### NRST (R37, R44, R483) -/

/-- NRST_LOW: every island but Power is held in reset; the bypass closes without a leave notice. A power-down runs on (R48). -/
def execNrstLow (s : State) : Host.Outcome State Fault Refusal :=
  s.run fun n =>
    let n := n.updPower (fun p => { p with nrstLow := true })
    match n.power.stage with
    | .off | .t0 | .thermalWait => n
    | .downT1 | .downT2 | .downT3 => n.closeBypass none
    | _ => n.deviceReset 1 .t1

/-- NRST_RELEASE: power-up continues from t1. -/
def execNrstRelease (s : State) : Host.Outcome State Fault Refusal := s.run fun n => n.updPower (fun p => { p with nrstLow := false })

/-- VAON_LOW (R44): the bypass closes passively; without VAON nothing is left (log 48). -/
def execVaonLow (s : State) : Host.Outcome State Fault Refusal :=
  s.run fun n => if n.power.stage = .off then n.updPower (fun p => { p with bypassClosed := true }) else n.deviceReset 0 .off

/-! ### VAUX and heat (R46, R50) -/

/-- VAUX_FAULT. -/
def execVauxFault (s : State) : Host.Outcome State Fault Refusal :=
  s.run fun n =>
    if n.power.vauxOn then ((n.updPower (fun p => { p with vauxOn := false, vauxRetry := true, vauxAt := n.now })).logFree Ev.vauxFault).raise 7 else n
/-- VAUX_RETRY: 100 ms after the fault. A field supply that goes off ends the retries. -/
def execVauxRetry (s : State) : Host.Outcome State Fault Refusal :=
  s.run fun n => if n.power.vauxRetry then (n.upTo (n.power.vauxAt + ms 100)).setVaux true else n

/-- DIE_TEMP_HIGH: in every stage in which the Power island runs. -/
def execDieTempHigh (s : State) : Host.Outcome State Fault Refusal :=
  s.run fun n =>
    if n.power.dieHigh ∨ n.power.stage = .off ∨ n.power.stage = .t0 then n else ((n.updPower (fun p => { p with dieHigh := true })).logFree Ev.dieTempHigh).raise 8
/-- DIE_TEMP_CLEAR. -/
def execDieTempClear (s : State) : Host.Outcome State Fault Refusal := s.run fun n => n.updPower (fun p => { p with dieHigh := false })

/-- THERMAL_STOP: t1 to t3 of R48, then only VAON is kept; it needs the Power island. -/
def execThermalStop (s : State) : Host.Outcome State Fault Refusal :=
  s.run fun n => if n.power.stage = .t0 ∨ n.power.stage = .thermalWait then n else n.powerDown Ev.thermalStop 2 3 .thermalWait
/-- THERMAL_RECOVER (R50, R483): power-up continues from t1. -/
def execThermalRecover (s : State) : Host.Outcome State Fault Refusal :=
  s.run fun n => if n.power.stage = .thermalWait then n.updPower (fun p => { p with stage := .t1, dieHigh := false }) else n

/-! ### NODE_RESET (R485) -/

/-- NODE_RESET_STANDSTILL: every axis stands, or 30 s have passed (`late`); t1 to t3 of R48 and the device reset run. -/
def execNodeResetStandstill (late : Bool) (s : State) : Host.Outcome State Fault Refusal :=
  s.run fun n =>
    if n.host.resetPending ∧ (!n.axisMoves ∨ late) then
      let n := if n.axisMoves then n.upTo (n.host.resetFrom + sec 30) else n
      (n.downT1 0).deviceReset 2 .t1
    else n

end Sys2Proof.Machine
end

