-- ==== Sys2Proof/Machine/Thresher.lean ====
section
/-! DEFINITION. The Thresher hands tasks to the field cores (05_recipes_and_tasks.md R127 to R133): dispatch runs the task's
handler, completion writes the outcome. The handlers: the firmware-served actions (R113), CREATE (R339, by the command
CUSTODY_CREATE), CALL and GATE (chapter 16); the spec names no other handler (log 12). -/

namespace Sys2Proof.Machine

/-- The status a CHAN_START on a stall would answer, and the node after it (R98, R113). -/
def Node.startCmd (n : Node) (k : Nat) : Nat × Node :=
  if (n.stall k).active then (Rs.chanBusy, n)
  else if (n.stall k).st = .fallow then (Rs.chanFallow, n)
  else match n.tryStart k with
    | (some _, n) => (Rs.chanInvalid, n)
    | (none, n) => (Rs.ok, n)

/-- The status a CHAN_STOP on a stall would answer, and the node after it (R98, R113). -/
def Node.stopCmd (n : Node) (k : Nat) : Nat × Node :=
  if (n.stall k).st = .fallow then (Rs.chanFallow, n)
  else (Rs.ok, if (n.stall k).active then n.stopChan k none else n)

/-- Payload of a NODE_WRITE frame (R275). -/
def nodeWriteFrame (stall : Nat) (value : W64) (t : T64) : List Byte :=
  leBytes 2 stall ++ [0, 0] ++ leBytes 8 value.toNat ++ leBytes 8 t

/-- The handler CALL (R373): lift, level and op in the argument; the status LIFT_CALL would answer. -/
def Node.callTask (n : Node) (arg : W64) : Nat × Node :=
  let a := arg.toNat
  let l := a % 256
  let op := a / 65536 % 256
  if 3 < l ∨ 2 < op ∨ 2 ^ 24 ≤ a then (Rs.paramRange, n)
  else match n.liftCall l (a / 256 % 256) op with
    | (st, _, n) => (st, n)

/-- The handler GATE (R374): gate and op in the argument; the status GATE_COMMAND would answer. -/
def Node.gateTask (n : Node) (arg : W64) : Nat × Node :=
  let a := arg.toNat
  let g := a % 256
  let op := a / 256 % 256
  if 15 < g ∨ 2 < op ∨ 2 ^ 16 ≤ a then (Rs.paramRange, n) else n.gateCommand g op

/-- What a task's handler does, with the status it returns (R113, R132). A handler the spec does not describe returns a free
status (log 12). -/
def Node.runHandler (n : Node) (t : ThTask) : Nat × Node :=
  let arg := t.arg.toNat
  if t.handler = fwHandler 0x12 then n.startCmd (arg % numStalls)
  else if t.handler = fwHandler 0x13 then n.stopCmd (arg % numStalls)
  else if t.handler = fwHandler 0x17 then n.harvestMark (arg % 32) t.release
  else if fwHandler 0x16 < t.handler then
    let target := (t.handler - fwHandler 0x16) / 0x10000 - 1
    (Rs.ok, n.send 0x11 0 (target % 65536) (nodeWriteFrame (target / 65536) t.arg t.release))
  else if t.handler = 0x0801 then n.callTask t.arg
  else if t.handler = 0x0802 then n.gateTask t.arg
  else
    let (v, n) := n.free 18
    (v.toNat % 65536, n)

/-- TASK_DISPATCH (R131): a core takes the task in its slot, which is then empty, and runs it. CREATE runs by CUSTODY_CREATE. -/
def execTaskDispatch (core : Nat) (s : State) : Host.Outcome State Fault Refusal :=
  s.run fun n =>
    if !n.coresRun ∨ n.rcp.coresOut.contains core ∨ n.rcp.tasks.any (fun e => e.2.st == .inService core) then n
    else match n.rcp.tasks.find? (fun e => e.2.st == .prefetched core) with
      | none => n
      | some (slot, t) =>
        let n := { n with rcp := (n.rcp.updTask slot (fun x => { x with st := .inService core })).prefetch }
        if t.handler = 0x0701 ∨ t.ran then n
        else
          let (st, n) := n.runHandler t
          { n with rcp := n.rcp.updTask slot (fun x => { x with result := st, ran := true }) }

/-- TASK_COMPLETE (R132): the task of a core ends; its outcome goes into the handle register and its slot is free. -/
def execTaskComplete (core : Nat) (s : State) : Host.Outcome State Fault Refusal :=
  s.run fun n =>
    if !n.coresRun then n
    else match n.rcp.tasks.find? (fun e => e.2.st == .inService core) with
      | none => n
      | some (slot, t) =>
        if !t.ran then n
        else
          let n := n.outcome slot t t.result
          { n with rcp := ({ n.rcp with tasks := n.rcp.tasks.del slot }).prefetch }

end Sys2Proof.Machine
end

