-- ==== Sys2Proof/Machine/Idle.lean ====
section
/-! DEFINITION. What a step does when no command waits: line time alone goes on (13_line_time R287, R290; DESIGN CHOICE log 4). -/

namespace Sys2Proof.Machine

/-- Cycles of the 400 MHz line clock in 1 µs (R290). -/
def idleCycles : Nat := 400

/-- 1 µs passes: the counter takes the increment of every cycle (R290). No event happens by itself: what falls due is a command. -/
def Node.idle (n : Node) : Node := { n with time := { n.time with count := n.time.count + idleCycles * n.time.incr } }

/-- The block idles. -/
def State.idle (s : State) : State := { s with node := s.node.idle }

end Sys2Proof.Machine
end

