-- ==== Sys2Proof/Machine/Dispatch.lean ====
section
/-! DEFINITION. Every command calls its meaning. -/

namespace Sys2Proof.Machine

def exec (i : Instr) (s : State) : Host.Outcome State Fault Refusal :=
  match i with
  | .islandControl path idx => Sys2Proof.Machine.execIslandControl path idx s
  | .islandStatus path idx => Sys2Proof.Machine.execIslandStatus path idx s
  | .quiesceDrained ix => Sys2Proof.Machine.execQuiesceDrained ix s
  | .quiesceTimeout ix => Sys2Proof.Machine.execQuiesceTimeout ix s
  | .heldElapsed ix => Sys2Proof.Machine.execHeldElapsed ix s
  | .islandLoadDone ix ok => Sys2Proof.Machine.execIslandLoadDone ix ok s
  | .calibrationDone ix ok ports => Sys2Proof.Machine.execCalibrationDone ix ok ports s
  | .lockAchieved ix => Sys2Proof.Machine.execLockAchieved ix s
  | .relockTimeout ix => Sys2Proof.Machine.execRelockTimeout ix s
  | .clockLockLost at_ => Sys2Proof.Machine.execClockLockLost at_ s
  | .coreRestartDone bad => Sys2Proof.Machine.execCoreRestartDone bad s
  | .crossingWord src dst a word write buffered bank bankCheck err errCheck => Sys2Proof.Machine.execCrossingWord src dst a word write buffered bank bankCheck err errCheck s
  | .scrubRead memory bank err errCheck beaten => Sys2Proof.Machine.execScrubRead memory bank err errCheck beaten s
  | .eccReread a err => Sys2Proof.Machine.execEccReread a err s
  | .rowCopyDone row => Sys2Proof.Machine.execRowCopyDone row s
  | .pageCopyDone page => Sys2Proof.Machine.execPageCopyDone page s
  | .powerUpStart below => Sys2Proof.Machine.execPowerUpStart below s
  | .vaonRegulated => Sys2Proof.Machine.execVaonRegulated s
  | .suppliesRegulated rise => Sys2Proof.Machine.execSuppliesRegulated rise s
  | .bootSiloSelect => Sys2Proof.Machine.execBootSiloSelect s
  | .imagesLoaded => Sys2Proof.Machine.execImagesLoaded s
  | .powerUpReady mV field testA testB => Sys2Proof.Machine.execPowerUpReady mV field testA testB s
  | .bypassOpen => Sys2Proof.Machine.execBypassOpen s
  | .powerFail => Sys2Proof.Machine.execPowerFail s
  | .lineOvervoltage => Sys2Proof.Machine.execLineOvervoltage s
  | .powerDownBypassClose => Sys2Proof.Machine.execPowerDownBypassClose s
  | .converterStop => Sys2Proof.Machine.execConverterStop s
  | .lineVoltageLow => Sys2Proof.Machine.execLineVoltageLow s
  | .lineVoltageLowClear => Sys2Proof.Machine.execLineVoltageLowClear s
  | .nrstLow => Sys2Proof.Machine.execNrstLow s
  | .nrstRelease => Sys2Proof.Machine.execNrstRelease s
  | .vaonLow => Sys2Proof.Machine.execVaonLow s
  | .vauxFault => Sys2Proof.Machine.execVauxFault s
  | .vauxRetry => Sys2Proof.Machine.execVauxRetry s
  | .dieTempHigh => Sys2Proof.Machine.execDieTempHigh s
  | .dieTempClear => Sys2Proof.Machine.execDieTempClear s
  | .thermalStop => Sys2Proof.Machine.execThermalStop s
  | .thermalRecover => Sys2Proof.Machine.execThermalRecover s
  | .spiWriteFrame frame => Sys2Proof.Machine.execSpiWriteFrame frame s
  | .spiReadFrame frame => Sys2Proof.Machine.execSpiReadFrame frame s
  | .hsDoorbell svc v => Sys2Proof.Machine.execHsDoorbell svc v s
  | .hsDone svc v => Sys2Proof.Machine.execHsDone svc v s
  | .hsRegisterWrite svc off v => Sys2Proof.Machine.execHsRegisterWrite svc off v s
  | .svcRead frame => Sys2Proof.Machine.execSvcRead frame s
  | .svcWrite frame => Sys2Proof.Machine.execSvcWrite frame s
  | .mailboxFrame src frame => Sys2Proof.Machine.execMailboxFrame src frame s
  | .mailboxTake => Sys2Proof.Machine.execMailboxTake s
  | .sessionHalfOpenTimeout id => Sys2Proof.Machine.execSessionHalfOpenTimeout id s
  | .sessionIdleTimeout id => Sys2Proof.Machine.execSessionIdleTimeout id s
  | .nodeIdent path idx => Sys2Proof.Machine.execNodeIdent path idx s
  | .nodeStatus path idx => Sys2Proof.Machine.execNodeStatus path idx s
  | .configRead path idx => Sys2Proof.Machine.execConfigRead path idx s
  | .configWrite path idx => Sys2Proof.Machine.execConfigWrite path idx s
  | .nodeReset path idx => Sys2Proof.Machine.execNodeReset path idx s
  | .nodeResetStandstill late => Sys2Proof.Machine.execNodeResetStandstill late s
  | .chanRead path idx => Sys2Proof.Machine.execChanRead path idx s
  | .chanWrite path idx => Sys2Proof.Machine.execChanWrite path idx s
  | .stallRead path idx => Sys2Proof.Machine.execStallRead path idx s
  | .stallWrite path idx => Sys2Proof.Machine.execStallWrite path idx s
  | .chanStart path idx => Sys2Proof.Machine.execChanStart path idx s
  | .chanStop path idx => Sys2Proof.Machine.execChanStop path idx s
  | .chanSpare path idx => Sys2Proof.Machine.execChanSpare path idx s
  | .ioWatchdog path idx => Sys2Proof.Machine.execIoWatchdog path idx s
  | .adcSequence path idx => Sys2Proof.Machine.execAdcSequence path idx s
  | .recipeLoad path idx => Sys2Proof.Machine.execRecipeLoad path idx s
  | .recipeRead path idx => Sys2Proof.Machine.execRecipeRead path idx s
  | .recipeStart path idx => Sys2Proof.Machine.execRecipeStart path idx s
  | .recipeStop path idx => Sys2Proof.Machine.execRecipeStop path idx s
  | .recipeStopTimeout ix => Sys2Proof.Machine.execRecipeStopTimeout ix s
  | .taskCancel path idx => Sys2Proof.Machine.execTaskCancel path idx s
  | .schedConfig path idx => Sys2Proof.Machine.execSchedConfig path idx s
  | .axisMove path idx => Sys2Proof.Machine.execAxisMove path idx s
  | .axisStop path idx => Sys2Proof.Machine.execAxisStop path idx s
  | .axisConfig path idx => Sys2Proof.Machine.execAxisConfig path idx s
  | .axisStatus path idx => Sys2Proof.Machine.execAxisStatus path idx s
  | .segmentLoad path idx => Sys2Proof.Machine.execSegmentLoad path idx s
  | .gearSet path idx => Sys2Proof.Machine.execGearSet path idx s
  | .posCompare path idx => Sys2Proof.Machine.execPosCompare path idx s
  | .posLatch path idx => Sys2Proof.Machine.execPosLatch path idx s
  | .driveConfig path idx => Sys2Proof.Machine.execDriveConfig path idx s
  | .lineStatus path idx => Sys2Proof.Machine.execLineStatus path idx s
  | .lineConfig path idx => Sys2Proof.Machine.execLineConfig path idx s
  | .timeStatus path idx => Sys2Proof.Machine.execTimeStatus path idx s
  | .timeConfig path idx => Sys2Proof.Machine.execTimeConfig path idx s
  | .levelRaise path idx => Sys2Proof.Machine.execLevelRaise path idx s
  | .zbConfig at_ started => Sys2Proof.Machine.execZbConfig at_ started s
  | .zbStatus path idx => Sys2Proof.Machine.execZbStatus path idx s
  | .zbSend at_ started => Sys2Proof.Machine.execZbSend at_ started s
  | .zbSendTimeout path idx => Sys2Proof.Machine.execZbSendTimeout path idx s
  | .zbRecover path idx => Sys2Proof.Machine.execZbRecover path idx s
  | .custodyRead path idx => Sys2Proof.Machine.execCustodyRead path idx s
  | .custodyList path idx => Sys2Proof.Machine.execCustodyList path idx s
  | .custodyResolve path idx => Sys2Proof.Machine.execCustodyResolve path idx s
  | .custodyConfig path idx => Sys2Proof.Machine.execCustodyConfig path idx s
  | .liftCall path idx => Sys2Proof.Machine.execLiftCall path idx s
  | .liftStatus path idx => Sys2Proof.Machine.execLiftStatus path idx s
  | .liftConfig path idx => Sys2Proof.Machine.execLiftConfig path idx s
  | .gateCommand path idx => Sys2Proof.Machine.execGateCommand path idx s
  | .harvestList path idx => Sys2Proof.Machine.execHarvestList path idx s
  | .harvestTrigger path idx => Sys2Proof.Machine.execHarvestTrigger path idx s
  | .harvestCollector path idx => Sys2Proof.Machine.execHarvestCollector path idx s
  | .harvestStatus path idx => Sys2Proof.Machine.execHarvestStatus path idx s
  | .eventRead path idx => Sys2Proof.Machine.execEventRead path idx s
  | .eventClear path idx => Sys2Proof.Machine.execEventClear path idx s
  | .recorderStatus path idx => Sys2Proof.Machine.execRecorderStatus path idx s
  | .safetyStatus path idx => Sys2Proof.Machine.execSafetyStatus path idx s
  | .safetyConfigLoad path idx => Sys2Proof.Machine.execSafetyConfigLoad path idx s
  | .safetyRestart path idx => Sys2Proof.Machine.execSafetyRestart path idx s
  | .gleanerRules path idx => Sys2Proof.Machine.execGleanerRules path idx s
  | .sleepPolicy path idx => Sys2Proof.Machine.execSleepPolicy path idx s
  | .energyRead path idx => Sys2Proof.Machine.execEnergyRead path idx s
  | .sessionHello path idx => Sys2Proof.Machine.execSessionHello path idx s
  | .sessionConfirm path idx => Sys2Proof.Machine.execSessionConfirm path idx s
  | .sessionClose path idx => Sys2Proof.Machine.execSessionClose path idx s
  | .certRead path idx => Sys2Proof.Machine.execCertRead path idx s
  | .hostkeyAdd path idx => Sys2Proof.Machine.execHostkeyAdd path idx s
  | .hostkeyRemove path idx => Sys2Proof.Machine.execHostkeyRemove path idx s
  | .attest path idx => Sys2Proof.Machine.execAttest path idx s
  | .imageWrite path idx => Sys2Proof.Machine.execImageWrite path idx s
  | .siloCommit path idx same cut => Sys2Proof.Machine.execSiloCommit path idx same cut s
  | .islandUpdate path idx => Sys2Proof.Machine.execIslandUpdate path idx s
  | .serviceFlagClear path idx => Sys2Proof.Machine.execServiceFlagClear path idx s
  | .healthRead path idx => Sys2Proof.Machine.execHealthRead path idx s
  | .chanTransientFault k cause => Sys2Proof.Machine.execChanTransientFault k cause s
  | .chanPermanentFault k cause => Sys2Proof.Machine.execChanPermanentFault k cause s
  | .chanRetry k ok => Sys2Proof.Machine.execChanRetry k ok s
  | .faultWindowExpire k => Sys2Proof.Machine.execFaultWindowExpire k s
  | .holdCauseBegin k cause => Sys2Proof.Machine.execHoldCauseBegin k cause s
  | .holdCauseEnd k cause => Sys2Proof.Machine.execHoldCauseEnd k cause s
  | .stopBehaviourDone k => Sys2Proof.Machine.execStopBehaviourDone k s
  | .timedWriteDue k => Sys2Proof.Machine.execTimedWriteDue k s
  | .cacheMissFill k => Sys2Proof.Machine.execCacheMissFill k s
  | .timerZero k => Sys2Proof.Machine.execTimerZero k s
  | .linepointStale k => Sys2Proof.Machine.execLinepointStale k s
  | .conditionEval ix => Sys2Proof.Machine.execConditionEval ix s
  | .stepTimeout ix => Sys2Proof.Machine.execStepTimeout ix s
  | .actionIssue ix => Sys2Proof.Machine.execActionIssue ix s
  | .timedActionApply => Sys2Proof.Machine.execTimedActionApply s
  | .instanceEpoch ix => Sys2Proof.Machine.execInstanceEpoch ix s
  | .actEnd ix => Sys2Proof.Machine.execActEnd ix s
  | .actNop ix => Sys2Proof.Machine.execActNop ix s
  | .actSet ix => Sys2Proof.Machine.execActSet ix s
  | .actAdd ix => Sys2Proof.Machine.execActAdd ix s
  | .actToggle ix => Sys2Proof.Machine.execActToggle ix s
  | .actCopy ix => Sys2Proof.Machine.execActCopy ix s
  | .actPulse ix => Sys2Proof.Machine.execActPulse ix s
  | .actRegSet ix => Sys2Proof.Machine.execActRegSet ix s
  | .actRegAdd ix => Sys2Proof.Machine.execActRegAdd ix s
  | .actRegLoad ix => Sys2Proof.Machine.execActRegLoad ix s
  | .actRegStore ix => Sys2Proof.Machine.execActRegStore ix s
  | .actJump ix => Sys2Proof.Machine.execActJump ix s
  | .actDjnz ix => Sys2Proof.Machine.execActDjnz ix s
  | .actSignal ix => Sys2Proof.Machine.execActSignal ix s
  | .actUnsignal ix => Sys2Proof.Machine.execActUnsignal ix s
  | .actStartRecipe ix => Sys2Proof.Machine.execActStartRecipe ix s
  | .actStopRecipe ix => Sys2Proof.Machine.execActStopRecipe ix s
  | .actAxisMove ix => Sys2Proof.Machine.execActAxisMove ix s
  | .actChanStart ix => Sys2Proof.Machine.execActChanStart ix s
  | .actChanStop ix => Sys2Proof.Machine.execActChanStop ix s
  | .actPostTask ix => Sys2Proof.Machine.execActPostTask ix s
  | .actCancelTask ix => Sys2Proof.Machine.execActCancelTask ix s
  | .actNodeWrite ix => Sys2Proof.Machine.execActNodeWrite ix s
  | .actHarvestMark ix => Sys2Proof.Machine.execActHarvestMark ix s
  | .taskRelease => Sys2Proof.Machine.execTaskRelease s
  | .taskDispatch core => Sys2Proof.Machine.execTaskDispatch core s
  | .taskComplete core => Sys2Proof.Machine.execTaskComplete core s
  | .loopUpdate k drops => Sys2Proof.Machine.execLoopUpdate k drops s
  | .inputFilteredChange ix level first => Sys2Proof.Machine.execInputFilteredChange ix level first s
  | .wireBreakMeasure ix microAmp => Sys2Proof.Machine.execWireBreakMeasure ix microAmp s
  | .comparatorDisagree ix => Sys2Proof.Machine.execComparatorDisagree ix s
  | .outputCurrentLimit o => Sys2Proof.Machine.execOutputCurrentLimit o s
  | .groupThermalShutdown group hot highest => Sys2Proof.Machine.execGroupThermalShutdown group hot highest s
  | .thermalRestartTemp sensor => Sys2Proof.Machine.execThermalRestartTemp sensor s
  | .outputReadbackFault o => Sys2Proof.Machine.execOutputReadbackFault o s
  | .poThermalShutdown p => Sys2Proof.Machine.execPoThermalShutdown p s
  | .outputOpenLoad p isOpen milliAmp => Sys2Proof.Machine.execOutputOpenLoad p isOpen milliAmp s
  | .pwmBoundary o => Sys2Proof.Machine.execPwmBoundary o s
  | .firmwareWatchdogFeed => Sys2Proof.Machine.execFirmwareWatchdogFeed s
  | .ioWatchdogExpired => Sys2Proof.Machine.execIoWatchdogExpired s
  | .ioWatchdogResume => Sys2Proof.Machine.execIoWatchdogResume s
  | .fieldSupplyWarn mV => Sys2Proof.Machine.execFieldSupplyWarn mV s
  | .fieldSupplyWarnClear mV => Sys2Proof.Machine.execFieldSupplyWarnClear mV s
  | .fieldSupplyOff mV => Sys2Proof.Machine.execFieldSupplyOff mV s
  | .fieldSupplyRise => Sys2Proof.Machine.execFieldSupplyRise s
  | .fieldSupplyLatchClear mV => Sys2Proof.Machine.execFieldSupplyLatchClear mV s
  | .outputRestoreSlot o => Sys2Proof.Machine.execOutputRestoreSlot o s
  | .inputResume => Sys2Proof.Machine.execInputResume s
  | .adcFrame => Sys2Proof.Machine.execAdcFrame s
  | .adcSelfCheck conv agndV refV => Sys2Proof.Machine.execAdcSelfCheck conv agndV refV s
  | .adcSlotResult slot nV nK nA => Sys2Proof.Machine.execAdcSlotResult slot nV nK nA s
  | .adcListApply => Sys2Proof.Machine.execAdcListApply s
  | .encoderStep ix a b t => Sys2Proof.Machine.execEncoderStep ix a b t s
  | .encoderZEdge ix rising t => Sys2Proof.Machine.execEncoderZEdge ix rising t s
  | .latchInputEdge input rising => Sys2Proof.Machine.execLatchInputEdge input rising s
  | .latchInstant ix l t => Sys2Proof.Machine.execLatchInstant ix l t s
  | .comparePulseEnd o => Sys2Proof.Machine.execComparePulseEnd o s
  | .ssiFrameStart ix aHigh => Sys2Proof.Machine.execSsiFrameStart ix aHigh s
  | .ssiFrameEnd ix word aHigh => Sys2Proof.Machine.execSsiFrameEnd ix word aHigh s
  | .positionRebase => Sys2Proof.Machine.execPositionRebase s
  | .positionStallWrite ix => Sys2Proof.Machine.execPositionStallWrite ix s
  | .encoderStandstill ix => Sys2Proof.Machine.execEncoderStandstill ix s
  | .plannerTick => Sys2Proof.Machine.execPlannerTick s
  | .timedMotionDue a => Sys2Proof.Machine.execTimedMotionDue a s
  | .followingError a => Sys2Proof.Machine.execFollowingError a s
  | .limitSwitch a positive => Sys2Proof.Machine.execLimitSwitch a positive s
  | .gearSyncTimeout a => Sys2Proof.Machine.execGearSyncTimeout a s
  | .gearMasterLost a => Sys2Proof.Machine.execGearMasterLost a s
  | .chopperBlankEnd a p => Sys2Proof.Machine.execChopperBlankEnd a p s
  | .chopperTrip a p code => Sys2Proof.Machine.execChopperTrip a p code s
  | .chopperForcedOff a p peak => Sys2Proof.Machine.execChopperForcedOff a p peak s
  | .chopperSlowDecay a p => Sys2Proof.Machine.execChopperSlowDecay a p s
  | .chopperOffEnd a p => Sys2Proof.Machine.execChopperOffEnd a p s
  | .bridgeOvercurrent a => Sys2Proof.Machine.execBridgeOvercurrent a s
  | .openPhase a p => Sys2Proof.Machine.execOpenPhase a p s
  | .coilIdleTimeout a => Sys2Proof.Machine.execCoilIdleTimeout a s
  | .partnerSignal p adv bypasses => Sys2Proof.Machine.execPartnerSignal p adv bypasses s
  | .trainingRateTimeout p => Sys2Proof.Machine.execTrainingRateTimeout p s
  | .linkUp p length preempt lpi => Sys2Proof.Machine.execLinkUp p length preempt lpi s
  | .linkHelloTimeout p => Sys2Proof.Machine.execLinkHelloTimeout p s
  | .linkHello p address level serial => Sys2Proof.Machine.execLinkHello p address level serial s
  | .linkLost p => Sys2Proof.Machine.execLinkLost p s
  | .portSilent p => Sys2Proof.Machine.execPortSilent p s
  | .rateRetry p => Sys2Proof.Machine.execRateRetry p s
  | .trainingFailTimeout p => Sys2Proof.Machine.execTrainingFailTimeout p s
  | .fecBurst p blocks => Sys2Proof.Machine.execFecBurst p blocks s
  | .lineCycleBoundary t => Sys2Proof.Machine.execLineCycleBoundary t s
  | .gateEntryChange p t => Sys2Proof.Machine.execGateEntryChange p t s
  | .cyclicSend => Sys2Proof.Machine.execCyclicSend s
  | .kereyFrameForward p mac level type flags dst src ttl seq payload hcrc fcs fec => Sys2Proof.Machine.execKereyFrameForward p mac level type flags dst src ttl seq payload hcrc fcs fec s
  | .plantFrameIn mac level type flags dst src ttl seq payload => Sys2Proof.Machine.execPlantFrameIn mac level type flags dst src ttl seq payload s
  | .proxyExpire address => Sys2Proof.Machine.execProxyExpire address s
  | .leave p => Sys2Proof.Machine.execLeave p s
  | .ringBreak up down => Sys2Proof.Machine.execRingBreak up down s
  | .ringClosed up down => Sys2Proof.Machine.execRingClosed up down s
  | .ringRouteRestore => Sys2Proof.Machine.execRingRouteRestore s
  | .topoReport serial address level ports neigh rates head => Sys2Proof.Machine.execTopoReport serial address level ports neigh rates head s
  | .topoMapSend => Sys2Proof.Machine.execTopoMapSend s
  | .topoMap src cycle cycleAt level raiseLevel raiseAt nodes => Sys2Proof.Machine.execTopoMap src cycle cycleAt level raiseLevel raiseAt nodes s
  | .addrRequest serial => Sys2Proof.Machine.execAddrRequest serial s
  | .addrAssign serial address => Sys2Proof.Machine.execAddrAssign serial address s
  | .cyclic src t entries => Sys2Proof.Machine.execCyclic src t entries s
  | .nodeWrite src stall value t => Sys2Proof.Machine.execNodeWrite src stall value t s
  | .lineCycleApply => Sys2Proof.Machine.execLineCycleApply s
  | .lpiEnter p => Sys2Proof.Machine.execLpiEnter p s
  | .lpiExit p => Sys2Proof.Machine.execLpiExit p s
  | .sync p raw => Sys2Proof.Machine.execSync p raw s
  | .followUp p origin rateOffset raws => Sys2Proof.Machine.execFollowUp p origin rateOffset raws s
  | .syncLost => Sys2Proof.Machine.execSyncLost s
  | .holdoverExpired => Sys2Proof.Machine.execHoldoverExpired s
  | .syncSend at_ => Sys2Proof.Machine.execSyncSend at_ s
  | .pdelayReqSend p => Sys2Proof.Machine.execPdelayReqSend p s
  | .pdelayReq p req raw => Sys2Proof.Machine.execPdelayReq p req raw s
  | .pdelayResp p raw1 t2 t3 raw4 => Sys2Proof.Machine.execPdelayResp p raw1 t2 t3 raw4 s
  | .announce p gm steps utc => Sys2Proof.Machine.execAnnounce p gm steps utc s
  | .referenceMessageDue started => Sys2Proof.Machine.execReferenceMessageDue started s
  | .zbIntegrated => Sys2Proof.Machine.execZbIntegrated s
  | .zbFrameReceived ident fd brs esi rtr data sof => Sys2Proof.Machine.execZbFrameReceived ident fd brs esi rtr data sof s
  | .zbFrameSent sof delay => Sys2Proof.Machine.execZbFrameSent sof delay s
  | .zbTxError kind clash add => Sys2Proof.Machine.execZbTxError kind clash add s
  | .zbRxError kind add res => Sys2Proof.Machine.execZbRxError kind add res s
  | .zbArbLost => Sys2Proof.Machine.execZbArbLost s
  | .zbSuspendEnd => Sys2Proof.Machine.execZbSuspendEnd s
  | .zbRecoveryDelay => Sys2Proof.Machine.execZbRecoveryDelay s
  | .zbRecovered => Sys2Proof.Machine.execZbRecovered s
  | .zbExpressReload => Sys2Proof.Machine.execZbExpressReload s
  | .remoteTxPeriod ident started => Sys2Proof.Machine.execRemoteTxPeriod ident started s
  | .remoteRxTimeout k => Sys2Proof.Machine.execRemoteRxTimeout k s
  | .custodyEval => Sys2Proof.Machine.execCustodyEval s
  | .custodyEyeRise k t => Sys2Proof.Machine.execCustodyEyeRise k t s
  | .custodyEyeFall k t => Sys2Proof.Machine.execCustodyEyeFall k t s
  | .custodyTravelLimit k => Sys2Proof.Machine.execCustodyTravelLimit k s
  | .custodyCreate slot => Sys2Proof.Machine.execCustodyCreate slot s
  | .custodyScan => Sys2Proof.Machine.execCustodyScan s
  | .handoffOffer p record => Sys2Proof.Machine.execHandoffOffer p record s
  | .handoffAccept p parcel version => Sys2Proof.Machine.execHandoffAccept p parcel version s
  | .handoffRefuse p parcel version status => Sys2Proof.Machine.execHandoffRefuse p parcel version status s
  | .handoffCommit p parcel version => Sys2Proof.Machine.execHandoffCommit p parcel version s
  | .commitAck p parcel version => Sys2Proof.Machine.execCommitAck p parcel version s
  | .handoffQuery p parcel version => Sys2Proof.Machine.execHandoffQuery p parcel version s
  | .mirrorUpdate p records => Sys2Proof.Machine.execMirrorUpdate p records s
  | .mirrorFull p parcel version => Sys2Proof.Machine.execMirrorFull p parcel version s
  | .mirrorDrop p parcels => Sys2Proof.Machine.execMirrorDrop p parcels s
  | .ckptNote p durable => Sys2Proof.Machine.execCkptNote p durable s
  | .recoverReq p serial lastDurable => Sys2Proof.Machine.execRecoverReq p serial lastDurable s
  | .recoverData p status records => Sys2Proof.Machine.execRecoverData p status records s
  | .recoverEnd p recovering => Sys2Proof.Machine.execRecoverEnd p recovering s
  | .custodyRepeat => Sys2Proof.Machine.execCustodyRepeat s
  | .handoffTimeout parcel => Sys2Proof.Machine.execHandoffTimeout parcel s
  | .commitWaitTimeout parcel => Sys2Proof.Machine.execCommitWaitTimeout parcel s
  | .checkpointPeriod => Sys2Proof.Machine.execCheckpointPeriod s
  | .checkpointDurable => Sys2Proof.Machine.execCheckpointDurable s
  | .custodyRecoveryStart => Sys2Proof.Machine.execCustodyRecoveryStart s
  | .recoveryMerge => Sys2Proof.Machine.execRecoveryMerge s
  | .energyInterval seen => Sys2Proof.Machine.execEnergyInterval seen s
  | .liftPositionUpdate l => Sys2Proof.Machine.execLiftPositionUpdate l s
  | .levelFlagEdge l k t => Sys2Proof.Machine.execLevelFlagEdge l k t s
  | .liftDriveAtTarget l => Sys2Proof.Machine.execLiftDriveAtTarget l s
  | .liftArrivalSettled l => Sys2Proof.Machine.execLiftArrivalSettled l s
  | .liftArrivalTimeout l => Sys2Proof.Machine.execLiftArrivalTimeout l s
  | .gateDwellExpired g => Sys2Proof.Machine.execGateDwellExpired g s
  | .liftParkDue l => Sys2Proof.Machine.execLiftParkDue l s
  | .liftRefTravelExceeded l => Sys2Proof.Machine.execLiftRefTravelExceeded l s
  | .gateInputChange g => Sys2Proof.Machine.execGateInputChange g s
  | .gateTimeout g => Sys2Proof.Machine.execGateTimeout g s
  | .gateObstructionCheck g => Sys2Proof.Machine.execGateObstructionCheck g s
  | .gateRetryDwell g => Sys2Proof.Machine.execGateRetryDwell g s
  | .liftInterlockChange l => Sys2Proof.Machine.execLiftInterlockChange l s
  | .harvestSample full => Sys2Proof.Machine.execHarvestSample full s
  | .harvestFrameSend k => Sys2Proof.Machine.execHarvestFrameSend k s
  | .harvestListApply => Sys2Proof.Machine.execHarvestListApply s
  | .triggerHoldoffEnd k => Sys2Proof.Machine.execTriggerHoldoffEnd k s
  | .tbusEdge stamp => Sys2Proof.Machine.execTbusEdge stamp s
  | .cbusEdge stamp full => Sys2Proof.Machine.execCbusEdge stamp full s
  | .cbusPulse low => Sys2Proof.Machine.execCbusPulse low s
  | .tbusPulseEnd => Sys2Proof.Machine.execTbusPulseEnd s
  | .harvestReserveRequest node slot collector share => Sys2Proof.Machine.execHarvestReserveRequest node slot collector share s
  | .harvestGrant k share => Sys2Proof.Machine.execHarvestGrant k share s
  | .harvestRefuse k => Sys2Proof.Machine.execHarvestRefuse k s
  | .harvestRevoke k => Sys2Proof.Machine.execHarvestRevoke k s
  | .harvestReservationTimeout k => Sys2Proof.Machine.execHarvestReservationTimeout k s
  | .harvestReservationRetry k => Sys2Proof.Machine.execHarvestReservationRetry k s
  | .storeRecordRequest => Sys2Proof.Machine.execStoreRecordRequest s
  | .recordProgrammed => Sys2Proof.Machine.execRecordProgrammed s
  | .recordValidMarkDone => Sys2Proof.Machine.execRecordValidMarkDone s
  | .blockEraseDone b => Sys2Proof.Machine.execBlockEraseDone b s
  | .nvsRetry p idx t ok => Sys2Proof.Machine.execNvsRetry p idx t ok s
  | .nvsRewrite p idx u ok => Sys2Proof.Machine.execNvsRewrite p idx u ok s
  | .safetyCycle c => Sys2Proof.Machine.execSafetyCycle c s
  | .safetyInboundRead c above below => Sys2Proof.Machine.execSafetyInboundRead c above below s
  | .crossRecord c => Sys2Proof.Machine.execCrossRecord c s
  | .partnerLost c => Sys2Proof.Machine.execPartnerLost c s
  | .safetySelfTest c k ok detail => Sys2Proof.Machine.execSafetySelfTest c k ok detail s
  | .followerTimeout c => Sys2Proof.Machine.execFollowerTimeout c s
  | .fallbackExpired => Sys2Proof.Machine.execFallbackExpired s
  | .safetyDiscrepancy c k => Sys2Proof.Machine.execSafetyDiscrepancy c k s
  | .lockMonitorTimeout ix => Sys2Proof.Machine.execLockMonitorTimeout ix s
  | .unlockRequestTimeout ix => Sys2Proof.Machine.execUnlockRequestTimeout ix s
  | .degradedTimeout c k => Sys2Proof.Machine.execDegradedTimeout c k s
  | .safeFrameGather => Sys2Proof.Machine.execSafeFrameGather s
  | .safetyFrame src path2 copies => Sys2Proof.Machine.execSafetyFrame src path2 copies s
  | .safeStallUpdate => Sys2Proof.Machine.execSafeStallUpdate s
  | .torqueOn ix => Sys2Proof.Machine.execTorqueOn ix s
  | .torqueOff ix => Sys2Proof.Machine.execTorqueOff ix s
  | .unlock ix => Sys2Proof.Machine.execUnlock ix s
  | .lock ix => Sys2Proof.Machine.execLock ix s
  | .restart ix => Sys2Proof.Machine.execRestart ix s
  | .stopZone => Sys2Proof.Machine.execStopZone s
  | .restartNotice => Sys2Proof.Machine.execRestartNotice s
  | .sleepEntry => Sys2Proof.Machine.execSleepEntry s
  | .sleepContextSaved => Sys2Proof.Machine.execSleepContextSaved s
  | .sleepZbOffline => Sys2Proof.Machine.execSleepZbOffline s
  | .wakeTimer => Sys2Proof.Machine.execWakeTimer s
  | .wake lines => Sys2Proof.Machine.execWake lines s
  | .woke edgesLost => Sys2Proof.Machine.execWoke edgesLost s
  | .gleanerSample levels xs => Sys2Proof.Machine.execGleanerSample levels xs s
  | .bulk src payload => Sys2Proof.Machine.execBulk src payload s
  | .levelFrame src at_ op l t => Sys2Proof.Machine.execLevelFrame src at_ op l t s
  | .levelRaiseInstant => Sys2Proof.Machine.execLevelRaiseInstant s
  | .switchChargeDriveLapse c => Sys2Proof.Machine.execSwitchChargeDriveLapse c s
  | .safetyStartTestsDone c ok cause detail => Sys2Proof.Machine.execSafetyStartTestsDone c ok cause detail s
  | .portPhyReloadDone p ok => Sys2Proof.Machine.execPortPhyReloadDone p ok s

end Sys2Proof.Machine
end

