-- ==== Sys2Proof/WellFormed.lean ====
section
/-! DEFINITION. Which commands are well formed: every operand lies in the range of what it names (an island, a stall, a mailbox, a
byte, a t64). -/

namespace Sys2Proof

/-- A number below a bound. -/
def inRange (b x : Nat) : Bool := decide (x < b)
/-- Every element lies below a bound. -/
def allBelow (b : Nat) (l : List Nat) : Bool := l.all (inRange b)
/-- Every element is a byte. -/
def allBytes (l : List Nat) : Bool := allBelow 256 l

/-- The operands of a command are in range. -/
def Instr.wellFormed (i : Instr) : Bool :=
  match i with
  | .islandControl path idx => inRange 3 path && inRange 16 idx
  | .islandStatus path idx => inRange 3 path && inRange 16 idx
  | .quiesceDrained i => inRange 12 i
  | .quiesceTimeout i => inRange 12 i
  | .heldElapsed i => inRange 12 i
  | .islandLoadDone i _ => inRange 12 i
  | .calibrationDone i _ ports => inRange 12 i && allBelow 3 ports
  | .lockAchieved i => inRange 12 i
  | .relockTimeout i => inRange 12 i
  | .clockLockLost at_ => inRange 12 at_.1 && inRange 12 at_.2
  | .coreRestartDone bad => allBelow (2 ^ 64) bad
  | .crossingWord src dst a word _ _ bank bankCheck err errCheck => inRange 12 src && inRange 12 dst && inRange (2 ^ 32) a && inRange (2 ^ 64) word && inRange (2 ^ 64) bank && inRange 4096 bankCheck && inRange (2 ^ 64) err && inRange 4096 errCheck
  | .scrubRead memory bank err errCheck _ => inRange 16 memory && inRange 12 bank && inRange (2 ^ 64) err && inRange 4096 errCheck
  | .eccReread a err => inRange (2 ^ 32) a && inRange (2 ^ 76) err
  | .rowCopyDone row => inRange (2 ^ 32) row
  | .pageCopyDone page => inRange (2 ^ 32) page
  | .powerUpStart _ => true
  | .vaonRegulated => true
  | .suppliesRegulated rise => rise.2.all (fun e => inRange 147712 e.1 && inRange (2 ^ 32) e.2)
  | .bootSiloSelect => true
  | .imagesLoaded => true
  | .powerUpReady mV _ testA testB => inRange (2 ^ 32) mV && inRange 8 testA && inRange 8 testB
  | .bypassOpen => true
  | .powerFail => true
  | .lineOvervoltage => true
  | .powerDownBypassClose => true
  | .converterStop => true
  | .lineVoltageLow => true
  | .lineVoltageLowClear => true
  | .nrstLow => true
  | .nrstRelease => true
  | .vaonLow => true
  | .vauxFault => true
  | .vauxRetry => true
  | .dieTempHigh => true
  | .dieTempClear => true
  | .thermalStop => true
  | .thermalRecover => true
  | .spiWriteFrame frame => allBytes frame
  | .spiReadFrame frame => allBytes frame
  | .hsDoorbell _ v => inRange (2 ^ 32) v
  | .hsDone _ v => inRange (2 ^ 32) v
  | .hsRegisterWrite _ off v => inRange 65536 off && inRange (2 ^ 32) v
  | .svcRead frame => allBytes frame
  | .svcWrite frame => allBytes frame
  | .mailboxFrame src frame => inRange 65536 src && allBytes frame
  | .mailboxTake => true
  | .sessionHalfOpenTimeout id => inRange (2 ^ 32) id
  | .sessionIdleTimeout id => inRange (2 ^ 32) id
  | .nodeIdent path idx => inRange 3 path && inRange 16 idx
  | .nodeStatus path idx => inRange 3 path && inRange 16 idx
  | .configRead path idx => inRange 3 path && inRange 16 idx
  | .configWrite path idx => inRange 3 path && inRange 16 idx
  | .nodeReset path idx => inRange 3 path && inRange 16 idx
  | .nodeResetStandstill _ => true
  | .chanRead path idx => inRange 3 path && inRange 16 idx
  | .chanWrite path idx => inRange 3 path && inRange 16 idx
  | .stallRead path idx => inRange 3 path && inRange 16 idx
  | .stallWrite path idx => inRange 3 path && inRange 16 idx
  | .chanStart path idx => inRange 3 path && inRange 16 idx
  | .chanStop path idx => inRange 3 path && inRange 16 idx
  | .chanSpare path idx => inRange 3 path && inRange 16 idx
  | .ioWatchdog path idx => inRange 3 path && inRange 16 idx
  | .adcSequence path idx => inRange 3 path && inRange 16 idx
  | .recipeLoad path idx => inRange 3 path && inRange 16 idx
  | .recipeRead path idx => inRange 3 path && inRange 16 idx
  | .recipeStart path idx => inRange 3 path && inRange 16 idx
  | .recipeStop path idx => inRange 3 path && inRange 16 idx
  | .recipeStopTimeout i => inRange 64 i
  | .taskCancel path idx => inRange 3 path && inRange 16 idx
  | .schedConfig path idx => inRange 3 path && inRange 16 idx
  | .axisMove path idx => inRange 3 path && inRange 16 idx
  | .axisStop path idx => inRange 3 path && inRange 16 idx
  | .axisConfig path idx => inRange 3 path && inRange 16 idx
  | .axisStatus path idx => inRange 3 path && inRange 16 idx
  | .segmentLoad path idx => inRange 3 path && inRange 16 idx
  | .gearSet path idx => inRange 3 path && inRange 16 idx
  | .posCompare path idx => inRange 3 path && inRange 16 idx
  | .posLatch path idx => inRange 3 path && inRange 16 idx
  | .driveConfig path idx => inRange 3 path && inRange 16 idx
  | .lineStatus path idx => inRange 3 path && inRange 16 idx
  | .lineConfig path idx => inRange 3 path && inRange 16 idx
  | .timeStatus path idx => inRange 3 path && inRange 16 idx
  | .timeConfig path idx => inRange 3 path && inRange 16 idx
  | .levelRaise path idx => inRange 3 path && inRange 16 idx
  | .zbConfig at_ _ => inRange 3 at_.1 && inRange 16 at_.2
  | .zbStatus path idx => inRange 3 path && inRange 16 idx
  | .zbSend at_ _ => inRange 3 at_.1 && inRange 16 at_.2
  | .zbSendTimeout path idx => inRange 3 path && inRange 16 idx
  | .zbRecover path idx => inRange 3 path && inRange 16 idx
  | .custodyRead path idx => inRange 3 path && inRange 16 idx
  | .custodyList path idx => inRange 3 path && inRange 16 idx
  | .custodyResolve path idx => inRange 3 path && inRange 16 idx
  | .custodyConfig path idx => inRange 3 path && inRange 16 idx
  | .liftCall path idx => inRange 3 path && inRange 16 idx
  | .liftStatus path idx => inRange 3 path && inRange 16 idx
  | .liftConfig path idx => inRange 3 path && inRange 16 idx
  | .gateCommand path idx => inRange 3 path && inRange 16 idx
  | .harvestList path idx => inRange 3 path && inRange 16 idx
  | .harvestTrigger path idx => inRange 3 path && inRange 16 idx
  | .harvestCollector path idx => inRange 3 path && inRange 16 idx
  | .harvestStatus path idx => inRange 3 path && inRange 16 idx
  | .eventRead path idx => inRange 3 path && inRange 16 idx
  | .eventClear path idx => inRange 3 path && inRange 16 idx
  | .recorderStatus path idx => inRange 3 path && inRange 16 idx
  | .safetyStatus path idx => inRange 3 path && inRange 16 idx
  | .safetyConfigLoad path idx => inRange 3 path && inRange 16 idx
  | .safetyRestart path idx => inRange 3 path && inRange 16 idx
  | .gleanerRules path idx => inRange 3 path && inRange 16 idx
  | .sleepPolicy path idx => inRange 3 path && inRange 16 idx
  | .energyRead path idx => inRange 3 path && inRange 16 idx
  | .sessionHello path idx => inRange 3 path && inRange 16 idx
  | .sessionConfirm path idx => inRange 3 path && inRange 16 idx
  | .sessionClose path idx => inRange 3 path && inRange 16 idx
  | .certRead path idx => inRange 3 path && inRange 16 idx
  | .hostkeyAdd path idx => inRange 3 path && inRange 16 idx
  | .hostkeyRemove path idx => inRange 3 path && inRange 16 idx
  | .attest path idx => inRange 3 path && inRange 16 idx
  | .imageWrite path idx => inRange 3 path && inRange 16 idx
  | .siloCommit path idx _ cut => inRange 3 path && inRange 16 idx && inRange 3 cut
  | .islandUpdate path idx => inRange 3 path && inRange 16 idx
  | .serviceFlagClear path idx => inRange 3 path && inRange 16 idx
  | .healthRead path idx => inRange 3 path && inRange 16 idx
  | .chanTransientFault k cause => inRange 1024 k && inRange 256 cause
  | .chanPermanentFault k cause => inRange 1024 k && inRange 256 cause
  | .chanRetry k _ => inRange 1024 k
  | .faultWindowExpire k => inRange 1024 k
  | .holdCauseBegin k cause => inRange 1024 k && inRange 7 cause
  | .holdCauseEnd k cause => inRange 1024 k && inRange 7 cause
  | .stopBehaviourDone k => inRange 1024 k
  | .timedWriteDue k => inRange 1024 k
  | .cacheMissFill k => inRange 1024 k
  | .timerZero k => inRange 1024 k
  | .linepointStale k => inRange 1024 k
  | .conditionEval i => inRange 64 i
  | .stepTimeout i => inRange 64 i
  | .actionIssue i => inRange 64 i
  | .timedActionApply => true
  | .instanceEpoch i => inRange 64 i
  | .actEnd i => inRange 64 i
  | .actNop i => inRange 64 i
  | .actSet i => inRange 64 i
  | .actAdd i => inRange 64 i
  | .actToggle i => inRange 64 i
  | .actCopy i => inRange 64 i
  | .actPulse i => inRange 64 i
  | .actRegSet i => inRange 64 i
  | .actRegAdd i => inRange 64 i
  | .actRegLoad i => inRange 64 i
  | .actRegStore i => inRange 64 i
  | .actJump i => inRange 64 i
  | .actDjnz i => inRange 64 i
  | .actSignal i => inRange 64 i
  | .actUnsignal i => inRange 64 i
  | .actStartRecipe i => inRange 64 i
  | .actStopRecipe i => inRange 64 i
  | .actAxisMove i => inRange 64 i
  | .actChanStart i => inRange 64 i
  | .actChanStop i => inRange 64 i
  | .actPostTask i => inRange 64 i
  | .actCancelTask i => inRange 64 i
  | .actNodeWrite i => inRange 64 i
  | .actHarvestMark i => inRange 64 i
  | .taskRelease => true
  | .taskDispatch core => inRange 4 core
  | .taskComplete core => inRange 4 core
  | .loopUpdate k drops => inRange 1024 k && inRange (2 ^ 32) drops
  | .inputFilteredChange i _ first => inRange 16 i && inRange (2 ^ 64) first
  | .wireBreakMeasure i microAmp => inRange 16 i && inRange (2 ^ 32) microAmp
  | .comparatorDisagree i => inRange 16 i
  | .outputCurrentLimit o => inRange 12 o
  | .groupThermalShutdown group hot highest => inRange 3 group && inRange 4096 hot && inRange 12 highest
  | .thermalRestartTemp sensor => inRange 7 sensor
  | .outputReadbackFault o => inRange 16 o
  | .poThermalShutdown p => inRange 4 p
  | .outputOpenLoad p _ milliAmp => inRange 4 p && inRange (2 ^ 32) milliAmp
  | .pwmBoundary o => inRange 16 o
  | .firmwareWatchdogFeed => true
  | .ioWatchdogExpired => true
  | .ioWatchdogResume => true
  | .fieldSupplyWarn mV => inRange (2 ^ 32) mV
  | .fieldSupplyWarnClear mV => inRange (2 ^ 32) mV
  | .fieldSupplyOff mV => inRange (2 ^ 32) mV
  | .fieldSupplyRise => true
  | .fieldSupplyLatchClear mV => inRange (2 ^ 32) mV
  | .outputRestoreSlot o => inRange 16 o
  | .inputResume => true
  | .adcFrame => true
  | .adcSelfCheck conv _ _ => inRange 2 conv
  | .adcSlotResult slot _ _ _ => inRange 32 slot
  | .adcListApply => true
  | .encoderStep i _ _ t => inRange 2 i && inRange (2 ^ 64) t
  | .encoderZEdge i _ t => inRange 2 i && inRange (2 ^ 64) t
  | .latchInputEdge input _ => inRange 16 input
  | .latchInstant i l t => inRange 2 i && inRange 4 l && inRange (2 ^ 64) t
  | .comparePulseEnd o => inRange 16 o
  | .ssiFrameStart i _ => inRange 2 i
  | .ssiFrameEnd i word _ => inRange 2 i && inRange (2 ^ 32) word
  | .positionRebase => true
  | .positionStallWrite i => inRange 2 i
  | .encoderStandstill i => inRange 2 i
  | .plannerTick => true
  | .timedMotionDue a => inRange 2 a
  | .followingError a => inRange 2 a
  | .limitSwitch a _ => inRange 2 a
  | .gearSyncTimeout a => inRange 2 a
  | .gearMasterLost a => inRange 2 a
  | .chopperBlankEnd a p => inRange 2 a && inRange 2 p
  | .chopperTrip a p code => inRange 2 a && inRange 2 p && inRange 65536 code
  | .chopperForcedOff a p peak => inRange 2 a && inRange 2 p && inRange 65536 peak
  | .chopperSlowDecay a p => inRange 2 a && inRange 2 p
  | .chopperOffEnd a p => inRange 2 a && inRange 2 p
  | .bridgeOvercurrent a => inRange 2 a
  | .openPhase a p => inRange 2 a && inRange 2 p
  | .coilIdleTimeout a => inRange 2 a
  | .partnerSignal p adv bypasses => inRange 3 p && inRange 256 adv && inRange 256 bypasses
  | .trainingRateTimeout p => inRange 3 p
  | .linkUp p length _ _ => inRange 3 p && inRange 65536 length
  | .linkHelloTimeout p => inRange 3 p
  | .linkHello p address level serial => inRange 3 p && inRange 65536 address && inRange 256 level && inRange (2 ^ 64) serial
  | .linkLost p => inRange 3 p
  | .portSilent p => inRange 3 p
  | .rateRetry p => inRange 3 p
  | .trainingFailTimeout p => inRange 3 p
  | .fecBurst p blocks => inRange 3 p && inRange (2 ^ 32) blocks
  | .lineCycleBoundary t => inRange (2 ^ 64) t
  | .gateEntryChange p t => inRange 3 p && inRange (2 ^ 64) t
  | .cyclicSend => true
  | .kereyFrameForward p mac level type flags dst src ttl seq payload hcrc fcs fec => inRange 3 p && inRange (2 ^ 48) mac && inRange 256 level && inRange 256 type && inRange 65536 flags && inRange 65536 dst && inRange 65536 src && inRange 65536 ttl && inRange (2 ^ 32) seq && allBytes payload && inRange 65536 hcrc && inRange 3 fcs && inRange (2 ^ 32) fec.1 && inRange (2 ^ 32) fec.2
  | .plantFrameIn mac level type flags dst src ttl seq payload => inRange (2 ^ 48) mac && inRange 256 level && inRange 256 type && inRange 65536 flags && inRange 65536 dst && inRange 65536 src && inRange 65536 ttl && inRange (2 ^ 32) seq && allBytes payload
  | .proxyExpire address => inRange 65536 address
  | .leave p => inRange 3 p
  | .ringBreak up down => inRange 65536 up && inRange 65536 down
  | .ringClosed up down => inRange 65536 up && inRange 65536 down
  | .ringRouteRestore => true
  | .topoReport serial address level ports neigh rates _ => inRange (2 ^ 64) serial && inRange 65536 address && inRange 256 level && allBytes ports && allBelow 65536 neigh && allBytes rates
  | .topoMapSend => true
  | .topoMap src cycle cycleAt level raiseLevel raiseAt nodes => inRange 65536 src && inRange 65536 cycle && inRange (2 ^ 64) cycleAt && inRange 256 level && inRange 256 raiseLevel && inRange (2 ^ 64) raiseAt && nodes.all (allBelow (2 ^ 64))
  | .addrRequest serial => inRange (2 ^ 64) serial
  | .addrAssign serial address => inRange (2 ^ 64) serial && inRange 65536 address
  | .cyclic src t entries => inRange 65536 src && inRange (2 ^ 64) t && entries.all (allBelow (2 ^ 64))
  | .nodeWrite src stall value t => inRange 65536 src && inRange 65536 stall && inRange (2 ^ 64) value && inRange (2 ^ 64) t
  | .lineCycleApply => true
  | .lpiEnter p => inRange 3 p
  | .lpiExit p => inRange 3 p
  | .sync p raw => inRange 3 p && inRange (2 ^ 64) raw
  | .followUp p origin _ raws => inRange 3 p && inRange (2 ^ 80) origin.1 && allBelow (2 ^ 64) raws
  | .syncLost => true
  | .holdoverExpired => true
  | .syncSend at_ => inRange 3 at_.1 && inRange (2 ^ 64) at_.2
  | .pdelayReqSend p => inRange 3 p
  | .pdelayReq p req raw => inRange 3 p && inRange 65536 req.1 && inRange (2 ^ 80) req.2 && inRange (2 ^ 64) raw.1 && inRange (2 ^ 64) raw.2
  | .pdelayResp p raw1 t2 t3 raw4 => inRange 3 p && inRange (2 ^ 64) raw1 && inRange (2 ^ 64) t2 && inRange (2 ^ 64) t3 && inRange (2 ^ 64) raw4
  | .announce p gm steps _ => inRange 3 p && inRange (2 ^ 64) gm && inRange 65536 steps
  | .referenceMessageDue _ => true
  | .zbIntegrated => true
  | .zbFrameReceived ident _ _ _ _ data sof => inRange (2 ^ 32) ident && allBytes data && inRange (2 ^ 64) sof
  | .zbFrameSent sof delay => inRange (2 ^ 64) sof && inRange (2 ^ 32) delay
  | .zbTxError kind _ add => inRange 8 kind && inRange 256 add
  | .zbRxError kind add _ => inRange 8 kind && inRange 256 add
  | .zbArbLost => true
  | .zbSuspendEnd => true
  | .zbRecoveryDelay => true
  | .zbRecovered => true
  | .zbExpressReload => true
  | .remoteTxPeriod ident _ => inRange (2 ^ 32) ident
  | .remoteRxTimeout k => inRange 1024 k
  | .custodyEval => true
  | .custodyEyeRise k t => inRange 16 k && inRange (2 ^ 64) t
  | .custodyEyeFall k t => inRange 16 k && inRange (2 ^ 64) t
  | .custodyTravelLimit k => inRange 16 k
  | .custodyCreate slot => inRange 4096 slot
  | .custodyScan => true
  | .handoffOffer p record => inRange 3 p && allBytes record
  | .handoffAccept p parcel version => inRange 3 p && inRange (2 ^ 64) parcel && inRange (2 ^ 32) version
  | .handoffRefuse p parcel version status => inRange 3 p && inRange (2 ^ 64) parcel && inRange (2 ^ 32) version && inRange 65536 status
  | .handoffCommit p parcel version => inRange 3 p && inRange (2 ^ 64) parcel && inRange (2 ^ 32) version
  | .commitAck p parcel version => inRange 3 p && inRange (2 ^ 64) parcel && inRange (2 ^ 32) version
  | .handoffQuery p parcel version => inRange 3 p && inRange (2 ^ 64) parcel && inRange (2 ^ 32) version
  | .mirrorUpdate p records => inRange 3 p && records.all allBytes
  | .mirrorFull p parcel version => inRange 3 p && inRange (2 ^ 64) parcel && inRange (2 ^ 32) version
  | .mirrorDrop p parcels => inRange 3 p && allBelow (2 ^ 64) parcels
  | .ckptNote p durable => inRange 3 p && inRange (2 ^ 64) durable
  | .recoverReq p serial lastDurable => inRange 3 p && inRange (2 ^ 64) serial && inRange (2 ^ 64) lastDurable
  | .recoverData p status records => inRange 3 p && inRange 65536 status && records.all allBytes
  | .recoverEnd p _ => inRange 3 p
  | .custodyRepeat => true
  | .handoffTimeout parcel => inRange (2 ^ 64) parcel
  | .commitWaitTimeout parcel => inRange (2 ^ 64) parcel
  | .checkpointPeriod => true
  | .checkpointDurable => true
  | .custodyRecoveryStart => true
  | .recoveryMerge => true
  | .energyInterval seen => inRange (2 ^ 32) seen.1 && allBelow (2 ^ 64) seen.2
  | .liftPositionUpdate l => inRange 4 l
  | .levelFlagEdge l k t => inRange 4 l && inRange 16 k && inRange (2 ^ 64) t
  | .liftDriveAtTarget l => inRange 4 l
  | .liftArrivalSettled l => inRange 4 l
  | .liftArrivalTimeout l => inRange 4 l
  | .gateDwellExpired g => inRange 16 g
  | .liftParkDue l => inRange 4 l
  | .liftRefTravelExceeded l => inRange 4 l
  | .gateInputChange g => inRange 16 g
  | .gateTimeout g => inRange 16 g
  | .gateObstructionCheck g => inRange 16 g
  | .gateRetryDwell g => inRange 16 g
  | .liftInterlockChange l => inRange 4 l
  | .harvestSample _ => true
  | .harvestFrameSend k => inRange 4 k
  | .harvestListApply => true
  | .triggerHoldoffEnd k => inRange 32 k
  | .tbusEdge stamp => inRange (2 ^ 64) stamp
  | .cbusEdge stamp _ => inRange (2 ^ 64) stamp
  | .cbusPulse _ => true
  | .tbusPulseEnd => true
  | .harvestReserveRequest node slot collector share => inRange 65536 node && inRange 4 slot && inRange 65536 collector && inRange (2 ^ 32) share
  | .harvestGrant k share => inRange 4 k && inRange (2 ^ 32) share
  | .harvestRefuse k => inRange 4 k
  | .harvestRevoke k => inRange 4 k
  | .harvestReservationTimeout k => inRange 4 k
  | .harvestReservationRetry k => inRange 4 k
  | .storeRecordRequest => true
  | .recordProgrammed => true
  | .recordValidMarkDone => true
  | .blockEraseDone b => inRange 4096 b
  | .nvsRetry p idx t _ => inRange 11 p && inRange 65536 idx && inRange (2 ^ 64) t
  | .nvsRewrite p idx u _ => inRange 11 p && inRange 65536 idx && inRange 65536 u
  | .safetyCycle c => inRange 2 c
  | .safetyInboundRead c above below => inRange 2 c && inRange (2 ^ 22) above && inRange (2 ^ 22) below
  | .crossRecord c => inRange 2 c
  | .partnerLost c => inRange 2 c
  | .safetySelfTest c k _ detail => inRange 2 c && inRange 8 k && inRange (2 ^ 32) detail
  | .followerTimeout c => inRange 2 c
  | .fallbackExpired => true
  | .safetyDiscrepancy c k => inRange 2 c && inRange 16 k
  | .lockMonitorTimeout i => inRange 32 i
  | .unlockRequestTimeout i => inRange 32 i
  | .degradedTimeout c k => inRange 2 c && inRange 12 k
  | .safeFrameGather => true
  | .safetyFrame src _ copies => inRange 65536 src && copies.all allBytes
  | .safeStallUpdate => true
  | .torqueOn i => inRange 32 i
  | .torqueOff i => inRange 32 i
  | .unlock i => inRange 32 i
  | .lock i => inRange 32 i
  | .restart i => inRange 32 i
  | .stopZone => true
  | .restartNotice => true
  | .sleepEntry => true
  | .sleepContextSaved => true
  | .sleepZbOffline => true
  | .wakeTimer => true
  | .wake lines => inRange 1024 lines
  | .woke edgesLost => inRange 4 edgesLost
  | .gleanerSample levels _ => inRange 65536 levels
  | .bulk src payload => inRange 65536 src && allBytes payload
  | .levelFrame src at_ op l t => inRange 65536 src && inRange 256 at_ && inRange 256 op && inRange 256 l && inRange (2 ^ 64) t
  | .levelRaiseInstant => true
  | .switchChargeDriveLapse c => inRange 2 c
  | .safetyStartTestsDone c _ cause detail => inRange 2 c && inRange 8 cause && inRange (2 ^ 32) detail
  | .portPhyReloadDone p _ => inRange 3 p

end Sys2Proof
end

