-- ==== Sys2Proof/Safety.lean ====
section
/-! DEFINITION. What counts as a safe run, in the terms the claims use: the parts of the node a command may change, and the
invariant of memory. -/

namespace Sys2Proof.Machine

/-- A part of the node: one field of Node each. -/
inductive Part where
  | isl | lastCrossing | mem | ram | power | host | stalls | cache | stored | rcp | loops | fio | adc | encs | axes
  | drives | line | time | zb | cust | lifts | gates | harv | rcd | safe | glean | sec | hlth | freeCtr
deriving DecidableEq, Repr

/-- Two nodes agree on a part. -/
def Part.same (p : Part) (n m : Node) : Prop :=
  match p with
  | .isl => n.isl = m.isl
  | .lastCrossing => n.lastCrossing = m.lastCrossing
  | .mem => n.mem = m.mem
  | .ram => n.ram = m.ram
  | .power => n.power = m.power
  | .host => n.host = m.host
  | .stalls => n.stalls = m.stalls
  | .cache => n.cache = m.cache
  | .stored => n.stored = m.stored
  | .rcp => n.rcp = m.rcp
  | .loops => n.loops = m.loops
  | .fio => n.fio = m.fio
  | .adc => n.adc = m.adc
  | .encs => n.encs = m.encs
  | .axes => n.axes = m.axes
  | .drives => n.drives = m.drives
  | .line => n.line = m.line
  | .time => n.time = m.time
  | .zb => n.zb = m.zb
  | .cust => n.cust = m.cust
  | .lifts => n.lifts = m.lifts
  | .gates => n.gates = m.gates
  | .harv => n.harv = m.harv
  | .rcd => n.rcd = m.rcd
  | .safe => n.safe = m.safe
  | .glean => n.glean = m.glean
  | .sec => n.sec = m.sec
  | .hlth => n.hlth = m.hlth
  | .freeCtr => n.freeCtr = m.freeCtr

/-- The frame of a change: every part outside `ps` is the same before and after. -/
def Frame (ps : List Part) (n m : Node) : Prop := ∀ p, p ∉ ps → p.same n m

/-- Memory is in its canonical form: addresses rise strictly and no entry equals what an unlisted byte reads as (log 2). -/
def Node.memOk (n : Node) : Prop := Memory.wf n.ram = true

/-- The invariant of the block: memory is in canonical form, and every command that waits is well formed. -/
def State.Inv (s : State) : Prop := s.node.memOk ∧ ∀ c ∈ s.pending, c.wellFormed = true

/-- A command runs to completion: it answers a next state, whose node is `m`, and the queue of waiting commands is as it was. -/
def Done (c : Instr) (s : State) (m : Node) : Prop := exec c s = .next { s with node := m }

/-- No check of R58 step 9 fails: none of the conditions under which the command is refused holds. -/
abbrev Passes (cs : List (Bool × Nat × Nat)) : Prop := firstBad cs = none

/-- Mailbox `idx` of a path serves host command `code` with payload `pl`: it executes that command, and nothing that answers every
command stands in its way: it has not begun and no earlier command on the same object has still to begin (R62), no restart of the field
cores (R60), no reset that waits (R485), no FAILED Line or Core island (R32, R71). -/
abbrev Serves (n : Node) (code path idx : Nat) (pl : List Byte) : Prop :=
  (n.mbx (path * 16 + idx)).st = .executing ∧ (n.mbx (path * 16 + idx)).req.map (fun r => (r.1, r.2.2.2)) = some (code, pl)
    ∧ (n.mbx (path * 16 + idx)).begun = false ∧ n.blocked (path * 16 + idx) = false ∧ (n.mbx (path * 16 + idx)).deferred = none ∧ (n.host.restarting = true → code = Cmd.siloCommit) ∧ n.host.resetPending = false
    ∧ ((n.island Isl.line).st = .failed → path = 1 → runsOnFailedLine code = true)
    ∧ ((n.island Isl.core).st = .failed → runsOnFailedCore code = true)

/-- The node as the host command of a mailbox acts on it: the command has begun (R62). -/
abbrev Node.begun (n : Node) (path idx : Nat) : Node := n.begins (path * 16 + idx)

/-- A host command completes with status OK and the results `bs`; its effect before the answer has made the node `m`. -/
def DoneOk (c : Instr) (s : State) (m : Node) (path idx : Nat) (bs : List Byte) : Prop := Done c s (m.ok (path * 16 + idx) bs)

/-- The record an instance stands at. -/
abbrev Node.actRec (n : Node) (i : Nat) : Step := n.stepRec (n.inst i).recipe (n.inst i).step

/-- The engine can fetch the step an instance stands at: no copy of its row or page runs and no word of it is poisoned (R28, R24). -/
abbrev Fetches (n : Node) (i : Nat) : Prop :=
  n.mem.copies (n.stepSpan i).1 (n.stepSpan i).2 = false ∧ n.poisonIn (n.stepSpan i).1 (n.stepSpan i).2 = none

/-- Instance `i` has reached an action of code `code`, which the step engine itself carries out at `t`: the instance runs, the step can
be fetched, no island holds the action (one on a stall is due at once, and no lower instance has one of its instant), and the Sequencer
runs (R116 to R119). -/
abbrev Acts (n : Node) (i code : Nat) (t : T64) : Prop :=
  (n.inst i).act = some t ∧ (n.inst i).st = .running ∧ (n.actRec i).act = code ∧ (n.inst i).issued = false ∧ n.runs Isl.seq = true
    ∧ ((n.inst i).atOnce = true ∨ issuable code = false) ∧ n.yields i (n.actRec i) t = false ∧ Fetches n i

/-- The node an action acts on: line time has come up to its instant, unless it is carried out at once (R118). -/
def Node.acting (n : Node) (i : Nat) (t : T64) : Node := if (n.inst i).atOnce then n else n.upTo t

/-- Instance `i` has reached an action of code `code` that firmware serves at `t` (R113, R118, R126). -/
abbrev Posts (n : Node) (i code : Nat) (t : T64) : Prop :=
  (n.inst i).act = some t ∧ (n.inst i).st = .running ∧ (n.actRec i).act = code ∧ n.runs Isl.seq = true ∧ n.host.restarting = false ∧ Fetches n i

/-- The node a firmware-served action posts its task to: one that waited for a restart is judged anew first (R126). -/
def Node.posting (n : Node) (i : Nat) : Node := (if (n.inst i).waitFw then n.rejudge i else n).updInst i (fun x => { x with waitFw := false })

/-- The instance goes on to step `next`, entered at `t`, unless the action has ended or held it. -/
def Node.goOn (n : Node) (i next : Nat) (t : T64) : Node := if (n.inst i).st = .running then n.enterStep i next t else n

/-- What each command may change, at most: the parts its own effect and the effects it brings about reach. -/
def footprint (c : Instr) : List Part :=
  match c with
  | .islandControl _ _ => [.isl, .mem, .ram, .power, .host, .stalls, .cache, .rcp, .loops, .fio, .adc, .encs, .axes, .drives, .line, .time, .zb, .cust, .lifts, .gates, .harv, .rcd, .safe, .glean, .sec, .hlth, .freeCtr]
  | .islandStatus _ _ => [.isl, .mem, .ram, .host, .line, .rcd, .freeCtr]
  | .quiesceDrained _ => [.isl, .mem, .ram, .host, .stalls, .cache, .rcp, .loops, .fio, .encs, .drives, .line, .time, .zb, .rcd, .safe, .glean, .freeCtr]
  | .quiesceTimeout _ => [.isl, .lastCrossing, .mem, .ram, .host, .stalls, .cache, .rcp, .loops, .fio, .encs, .drives, .line, .time, .zb, .rcd, .safe, .glean, .freeCtr]
  | .heldElapsed _ => [.isl, .mem, .ram, .host, .stalls, .cache, .rcp, .loops, .fio, .adc, .encs, .axes, .drives, .line, .zb, .cust, .lifts, .gates, .rcd, .safe, .freeCtr]
  | .islandLoadDone _ _ => [.isl, .mem, .ram, .power, .host, .stalls, .cache, .rcp, .loops, .fio, .adc, .encs, .axes, .drives, .line, .time, .zb, .cust, .lifts, .gates, .harv, .rcd, .safe, .glean, .sec, .freeCtr]
  | .calibrationDone _ _ _ => [.isl, .mem, .ram, .power, .host, .stalls, .cache, .rcp, .loops, .fio, .adc, .encs, .axes, .drives, .line, .time, .zb, .cust, .lifts, .gates, .harv, .rcd, .safe, .glean, .hlth, .freeCtr]
  | .lockAchieved _ => [.isl, .mem, .ram, .host, .stalls, .cache, .rcp, .loops, .fio, .adc, .encs, .axes, .drives, .line, .zb, .cust, .lifts, .gates, .rcd, .safe, .freeCtr]
  | .relockTimeout _ => [.isl, .mem, .ram, .power, .host, .rcp, .loops, .axes, .line, .time, .zb, .harv, .rcd, .safe, .glean, .freeCtr]
  | .clockLockLost _ => [.isl, .mem, .ram, .host, .stalls, .cache, .rcp, .loops, .fio, .adc, .encs, .axes, .drives, .line, .zb, .cust, .lifts, .gates, .harv, .rcd, .safe, .sec, .hlth, .freeCtr]
  | .coreRestartDone _ => [.isl, .mem, .ram, .host, .rcp, .fio, .axes, .line, .time, .zb, .cust, .harv, .rcd, .safe, .freeCtr]
  | .crossingWord _ _ _ _ _ _ _ _ _ _ => [.isl, .lastCrossing, .mem, .ram, .power, .host, .stalls, .cache, .rcp, .loops, .fio, .adc, .encs, .axes, .drives, .line, .time, .zb, .cust, .lifts, .gates, .harv, .rcd, .safe, .glean, .sec, .hlth, .freeCtr]
  | .scrubRead _ _ _ _ _ => [.isl, .mem, .ram, .power, .host, .stalls, .cache, .rcp, .loops, .fio, .adc, .encs, .axes, .drives, .line, .time, .zb, .cust, .lifts, .gates, .harv, .rcd, .safe, .glean, .sec, .hlth, .freeCtr]
  | .eccReread _ _ => [.isl, .mem, .ram, .power, .host, .stalls, .cache, .rcp, .loops, .fio, .adc, .encs, .axes, .drives, .line, .time, .zb, .cust, .lifts, .gates, .harv, .rcd, .safe, .glean, .sec, .hlth, .freeCtr]
  | .rowCopyDone _ => [.isl, .mem, .ram, .power, .host, .stalls, .cache, .rcp, .loops, .fio, .adc, .encs, .axes, .drives, .line, .time, .zb, .cust, .lifts, .gates, .harv, .rcd, .safe, .glean, .sec, .hlth, .freeCtr]
  | .pageCopyDone _ => [.isl, .mem, .ram, .power, .host, .stalls, .cache, .rcp, .loops, .fio, .adc, .encs, .axes, .drives, .line, .time, .zb, .cust, .lifts, .gates, .harv, .rcd, .safe, .glean, .sec, .hlth, .freeCtr]
  | .powerUpStart _ => [.power]
  | .vaonRegulated => [.power, .sec]
  | .suppliesRegulated _ => [.power, .rcd]
  | .bootSiloSelect => [.isl, .power, .stored, .rcp, .cust, .rcd, .sec, .hlth, .freeCtr]
  | .imagesLoaded => [.isl, .mem, .ram, .power, .sec]
  | .powerUpReady _ _ _ _ => [.mem, .ram, .power, .host, .stalls, .cache, .stored, .rcp, .loops, .fio, .adc, .encs, .axes, .drives, .line, .time, .zb, .cust, .lifts, .gates, .harv, .rcd, .safe, .glean, .sec, .hlth, .freeCtr]
  | .bypassOpen => [.power, .line, .rcd, .glean]
  | .powerFail => [.isl, .lastCrossing, .mem, .ram, .power, .host, .stalls, .cache, .rcp, .loops, .fio, .adc, .encs, .axes, .drives, .line, .time, .zb, .cust, .lifts, .gates, .harv, .rcd, .safe, .glean, .sec, .hlth, .freeCtr]
  | .lineOvervoltage => [.isl, .lastCrossing, .mem, .ram, .power, .host, .stalls, .cache, .rcp, .loops, .fio, .adc, .encs, .axes, .drives, .line, .time, .zb, .cust, .lifts, .gates, .harv, .rcd, .safe, .glean, .sec, .hlth, .freeCtr]
  | .powerDownBypassClose => [.power, .line, .time, .rcd, .glean]
  | .converterStop => [.isl, .lastCrossing, .mem, .ram, .power, .host, .stalls, .cache, .rcp, .loops, .fio, .adc, .encs, .axes, .drives, .line, .time, .zb, .cust, .lifts, .gates, .harv, .rcd, .safe, .glean, .sec, .hlth]
  | .lineVoltageLow => [.power, .rcd, .glean, .freeCtr]
  | .lineVoltageLowClear => [.power]
  | .nrstLow => [.isl, .lastCrossing, .mem, .ram, .power, .host, .stalls, .cache, .rcp, .loops, .fio, .adc, .encs, .axes, .drives, .line, .time, .zb, .cust, .lifts, .gates, .harv, .rcd, .safe, .glean, .sec, .hlth]
  | .nrstRelease => [.power]
  | .vaonLow => [.isl, .lastCrossing, .mem, .ram, .power, .host, .stalls, .cache, .rcp, .loops, .fio, .adc, .encs, .axes, .drives, .line, .time, .zb, .cust, .lifts, .gates, .harv, .rcd, .safe, .glean, .sec, .hlth]
  | .vauxFault => [.power, .rcd, .glean, .freeCtr]
  | .vauxRetry => [.power, .time]
  | .dieTempHigh => [.power, .rcd, .glean, .freeCtr]
  | .dieTempClear => [.power]
  | .thermalStop => [.isl, .lastCrossing, .mem, .ram, .power, .host, .stalls, .cache, .rcp, .loops, .fio, .adc, .encs, .axes, .drives, .line, .time, .zb, .cust, .lifts, .gates, .harv, .rcd, .safe, .glean, .sec, .hlth, .freeCtr]
  | .thermalRecover => [.power]
  | .spiWriteFrame _ => [.isl, .mem, .ram, .power, .host, .stalls, .cache, .rcp, .loops, .fio, .adc, .encs, .axes, .drives, .line, .time, .zb, .cust, .lifts, .gates, .harv, .rcd, .safe, .glean, .sec, .hlth, .freeCtr]
  | .spiReadFrame _ => [.isl, .mem, .ram, .power, .host, .stalls, .cache, .rcp, .loops, .fio, .adc, .encs, .axes, .drives, .line, .time, .zb, .cust, .lifts, .gates, .harv, .rcd, .safe, .glean, .sec, .hlth, .freeCtr]
  | .hsDoorbell _ _ => [.mem, .ram, .host, .line, .rcd, .glean, .freeCtr]
  | .hsDone _ _ => [.mem, .ram, .host, .line, .rcd, .glean, .freeCtr]
  | .hsRegisterWrite _ _ _ => [.mem, .ram, .host, .line, .rcd, .glean, .freeCtr]
  | .svcRead _ => [.isl, .mem, .ram, .power, .host, .stalls, .cache, .rcp, .loops, .fio, .adc, .encs, .axes, .drives, .line, .time, .zb, .cust, .lifts, .gates, .harv, .rcd, .safe, .glean, .sec, .hlth, .freeCtr]
  | .svcWrite _ => [.isl, .mem, .ram, .power, .host, .stalls, .cache, .rcp, .loops, .fio, .adc, .encs, .axes, .drives, .line, .time, .zb, .cust, .lifts, .gates, .harv, .rcd, .safe, .glean, .sec, .hlth, .freeCtr]
  | .mailboxFrame _ _ => [.mem, .ram, .host, .line, .rcd, .glean, .freeCtr]
  | .mailboxTake => [.isl, .mem, .ram, .power, .host, .stalls, .cache, .rcp, .loops, .fio, .adc, .encs, .axes, .drives, .line, .time, .zb, .cust, .lifts, .gates, .harv, .rcd, .safe, .glean, .sec, .hlth, .freeCtr]
  | .sessionHalfOpenTimeout _ => [.host, .time]
  | .sessionIdleTimeout _ => [.host, .time, .sec]
  | .nodeIdent _ _ => [.mem, .ram, .host, .line, .rcd, .freeCtr]
  | .nodeStatus _ _ => [.mem, .ram, .host, .line, .rcd, .freeCtr]
  | .configRead _ _ => [.mem, .ram, .host, .line, .rcd, .sec, .freeCtr]
  | .configWrite _ _ => [.mem, .ram, .host, .line, .rcd, .sec, .hlth, .freeCtr]
  | .nodeReset _ _ => [.isl, .mem, .ram, .power, .host, .stalls, .cache, .rcp, .loops, .fio, .adc, .encs, .axes, .drives, .line, .time, .zb, .cust, .lifts, .gates, .harv, .rcd, .safe, .glean, .sec, .hlth, .freeCtr]
  | .nodeResetStandstill _ => [.isl, .lastCrossing, .mem, .ram, .power, .host, .stalls, .cache, .rcp, .loops, .fio, .adc, .encs, .axes, .drives, .line, .time, .zb, .cust, .lifts, .gates, .harv, .rcd, .safe, .glean, .sec, .hlth]
  | .chanRead _ _ => [.mem, .ram, .host, .cache, .line, .rcd, .freeCtr]
  | .chanWrite _ _ => [.mem, .ram, .host, .stalls, .cache, .fio, .line, .zb, .cust, .rcd, .freeCtr]
  | .stallRead _ _ => [.mem, .ram, .host, .cache, .line, .rcd, .freeCtr]
  | .stallWrite _ _ => [.mem, .ram, .host, .stalls, .cache, .stored, .line, .rcd, .sec, .hlth, .freeCtr]
  | .chanStart _ _ => [.mem, .ram, .host, .stalls, .cache, .loops, .fio, .adc, .encs, .axes, .drives, .line, .zb, .cust, .lifts, .gates, .rcd, .freeCtr]
  | .chanStop _ _ => [.mem, .ram, .host, .stalls, .cache, .fio, .encs, .axes, .drives, .line, .zb, .cust, .lifts, .gates, .rcd, .freeCtr]
  | .chanSpare _ _ => [.mem, .ram, .host, .stalls, .cache, .stored, .loops, .fio, .encs, .axes, .drives, .line, .zb, .cust, .lifts, .gates, .rcd, .sec, .hlth, .freeCtr]
  | .ioWatchdog _ _ => [.mem, .ram, .host, .stalls, .cache, .stored, .loops, .fio, .axes, .drives, .line, .zb, .cust, .lifts, .gates, .rcd, .safe, .sec, .hlth, .freeCtr]
  | .adcSequence _ _ => [.mem, .ram, .host, .adc, .line, .rcd, .sec, .hlth, .freeCtr]
  | .recipeLoad _ _ => [.mem, .ram, .host, .rcp, .line, .rcd, .hlth, .freeCtr]
  | .recipeRead _ _ => [.mem, .ram, .host, .line, .rcd, .freeCtr]
  | .recipeStart _ _ => [.mem, .ram, .host, .rcp, .line, .rcd, .freeCtr]
  | .recipeStop _ _ => [.mem, .ram, .host, .rcp, .line, .rcd, .freeCtr]
  | .recipeStopTimeout _ => [.mem, .ram, .host, .rcp, .line, .time, .rcd, .freeCtr]
  | .taskCancel _ _ => [.mem, .ram, .host, .rcp, .line, .rcd, .freeCtr]
  | .schedConfig _ _ => [.mem, .ram, .host, .rcp, .line, .rcd, .sec, .hlth, .freeCtr]
  | .axisMove _ _ => [.mem, .ram, .host, .axes, .drives, .line, .time, .rcd, .freeCtr]
  | .axisStop _ _ => [.mem, .ram, .host, .axes, .drives, .line, .time, .rcd, .freeCtr]
  | .axisConfig _ _ => [.mem, .ram, .host, .axes, .line, .rcd, .sec, .hlth, .freeCtr]
  | .axisStatus _ _ => [.mem, .ram, .host, .line, .rcd, .freeCtr]
  | .segmentLoad _ _ => [.mem, .ram, .host, .axes, .line, .rcd, .hlth, .freeCtr]
  | .gearSet _ _ => [.mem, .ram, .host, .axes, .drives, .line, .time, .rcd, .freeCtr]
  | .posCompare _ _ => [.mem, .ram, .host, .encs, .line, .rcd, .freeCtr]
  | .posLatch _ _ => [.mem, .ram, .host, .encs, .line, .rcd, .freeCtr]
  | .driveConfig _ _ => [.mem, .ram, .host, .drives, .line, .rcd, .sec, .hlth, .freeCtr]
  | .lineStatus _ _ => [.mem, .ram, .host, .line, .rcd, .freeCtr]
  | .lineConfig _ _ => [.mem, .ram, .host, .line, .time, .rcd, .glean, .sec, .hlth, .freeCtr]
  | .timeStatus _ _ => [.mem, .ram, .host, .line, .time, .rcd, .freeCtr]
  | .timeConfig _ _ => [.mem, .ram, .host, .rcp, .loops, .line, .time, .harv, .rcd, .sec, .hlth, .freeCtr]
  | .levelRaise _ _ => [.mem, .ram, .host, .line, .rcd, .freeCtr]
  | .zbConfig _ _ => [.mem, .ram, .host, .stalls, .cache, .loops, .fio, .encs, .axes, .drives, .line, .zb, .cust, .lifts, .gates, .rcd, .safe, .sec, .hlth, .freeCtr]
  | .zbStatus _ _ => [.mem, .ram, .host, .line, .zb, .rcd, .freeCtr]
  | .zbSend _ _ => [.mem, .ram, .host, .line, .zb, .rcd, .freeCtr]
  | .zbSendTimeout _ _ => [.mem, .ram, .host, .line, .time, .zb, .rcd, .freeCtr]
  | .zbRecover _ _ => [.mem, .ram, .host, .line, .zb, .rcd, .freeCtr]
  | .custodyRead _ _ => [.mem, .ram, .host, .line, .rcd, .freeCtr]
  | .custodyList _ _ => [.mem, .ram, .host, .line, .rcd, .freeCtr]
  | .custodyResolve _ _ => [.mem, .ram, .host, .line, .cust, .rcd, .freeCtr]
  | .custodyConfig _ _ => [.mem, .ram, .host, .line, .cust, .rcd, .sec, .hlth, .freeCtr]
  | .liftCall _ _ => [.mem, .ram, .host, .stalls, .cache, .fio, .axes, .drives, .line, .zb, .cust, .lifts, .gates, .rcd, .safe, .freeCtr]
  | .liftStatus _ _ => [.mem, .ram, .host, .line, .rcd, .freeCtr]
  | .liftConfig _ _ => [.mem, .ram, .host, .line, .lifts, .gates, .rcd, .sec, .hlth, .freeCtr]
  | .gateCommand _ _ => [.mem, .ram, .host, .stalls, .cache, .fio, .axes, .drives, .line, .zb, .cust, .gates, .rcd, .safe, .freeCtr]
  | .harvestList _ _ => [.mem, .ram, .host, .line, .harv, .rcd, .sec, .hlth, .freeCtr]
  | .harvestTrigger _ _ => [.mem, .ram, .host, .line, .harv, .rcd, .freeCtr]
  | .harvestCollector _ _ => [.mem, .ram, .host, .line, .harv, .rcd, .sec, .hlth, .freeCtr]
  | .harvestStatus _ _ => [.mem, .ram, .host, .line, .harv, .rcd, .freeCtr]
  | .eventRead _ _ => [.mem, .ram, .host, .line, .rcd, .freeCtr]
  | .eventClear _ _ => [.mem, .ram, .host, .line, .rcd, .freeCtr]
  | .recorderStatus _ _ => [.mem, .ram, .host, .line, .rcd, .freeCtr]
  | .safetyStatus _ _ => [.mem, .ram, .host, .line, .rcd, .freeCtr]
  | .safetyConfigLoad _ _ => [.mem, .ram, .host, .stalls, .fio, .line, .zb, .rcd, .safe, .hlth, .freeCtr]
  | .safetyRestart _ _ => [.mem, .ram, .host, .line, .rcd, .safe, .freeCtr]
  | .gleanerRules _ _ => [.mem, .ram, .host, .line, .rcd, .glean, .sec, .hlth, .freeCtr]
  | .sleepPolicy _ _ => [.mem, .ram, .host, .line, .rcd, .glean, .sec, .hlth, .freeCtr]
  | .energyRead _ _ => [.mem, .ram, .host, .line, .rcd, .freeCtr]
  | .sessionHello _ _ => [.mem, .ram, .host, .line, .rcd, .hlth, .freeCtr]
  | .sessionConfirm _ _ => [.mem, .ram, .host, .line, .rcd, .freeCtr]
  | .sessionClose _ _ => [.mem, .ram, .host, .line, .rcd, .sec, .freeCtr]
  | .certRead _ _ => [.mem, .ram, .host, .line, .rcd, .freeCtr]
  | .hostkeyAdd _ _ => [.mem, .ram, .host, .line, .rcd, .sec, .hlth, .freeCtr]
  | .hostkeyRemove _ _ => [.mem, .ram, .host, .line, .rcd, .sec, .hlth, .freeCtr]
  | .attest _ _ => [.mem, .ram, .host, .line, .rcd, .hlth, .freeCtr]
  | .imageWrite _ _ => [.mem, .ram, .host, .line, .rcd, .sec, .hlth, .freeCtr]
  | .siloCommit _ _ _ _ => [.mem, .ram, .host, .line, .rcd, .sec, .hlth, .freeCtr]
  | .islandUpdate _ _ => [.isl, .mem, .ram, .power, .host, .stalls, .cache, .rcp, .loops, .fio, .adc, .encs, .axes, .drives, .line, .time, .zb, .cust, .lifts, .gates, .harv, .rcd, .safe, .glean, .sec, .hlth, .freeCtr]
  | .serviceFlagClear _ _ => [.mem, .ram, .host, .line, .rcd, .sec, .hlth, .freeCtr]
  | .healthRead _ _ => [.mem, .ram, .host, .line, .rcd, .freeCtr]
  | .chanTransientFault _ _ => [.mem, .ram, .host, .stalls, .cache, .loops, .fio, .encs, .axes, .drives, .line, .zb, .cust, .lifts, .gates, .rcd, .hlth, .freeCtr]
  | .chanPermanentFault _ _ => [.mem, .ram, .host, .stalls, .cache, .loops, .fio, .encs, .axes, .drives, .line, .zb, .cust, .lifts, .gates, .rcd, .hlth, .freeCtr]
  | .chanRetry _ _ => [.mem, .ram, .host, .stalls, .cache, .loops, .fio, .encs, .axes, .drives, .line, .time, .zb, .cust, .lifts, .gates, .rcd, .safe, .hlth, .freeCtr]
  | .faultWindowExpire _ => [.stalls, .cache, .time, .cust]
  | .holdCauseBegin _ _ => [.stalls, .cache, .loops, .fio, .axes, .drives, .zb, .cust, .lifts, .gates, .rcd, .freeCtr]
  | .holdCauseEnd _ _ => [.stalls, .cache, .loops, .fio, .axes, .drives, .zb, .cust, .lifts, .gates, .rcd, .safe]
  | .stopBehaviourDone _ => [.mem, .ram, .host, .stalls, .cache, .fio, .encs, .axes, .drives, .line, .zb, .cust, .lifts, .gates, .rcd, .freeCtr]
  | .timedWriteDue _ => [.mem, .ram, .host, .stalls, .cache, .rcp, .loops, .fio, .encs, .axes, .drives, .line, .time, .zb, .cust, .lifts, .gates, .rcd, .hlth, .freeCtr]
  | .cacheMissFill _ => [.stalls, .cache]
  | .timerZero _ => [.stalls, .cache, .time, .cust]
  | .linepointStale _ => [.mem, .ram, .host, .stalls, .cache, .loops, .fio, .encs, .axes, .drives, .line, .zb, .cust, .lifts, .gates, .rcd, .hlth, .freeCtr]
  | .conditionEval _ => [.mem, .ram, .host, .rcp, .line, .rcd, .freeCtr]
  | .stepTimeout _ => [.mem, .ram, .host, .rcp, .line, .time, .rcd, .freeCtr]
  | .actionIssue _ => [.mem, .ram, .host, .stalls, .cache, .rcp, .line, .rcd, .freeCtr]
  | .timedActionApply => [.mem, .ram, .host, .stalls, .cache, .rcp, .fio, .axes, .drives, .line, .time, .zb, .cust, .rcd, .freeCtr]
  | .instanceEpoch _ => [.rcp, .time]
  | .actEnd _ => [.mem, .ram, .host, .rcp, .line, .time, .rcd, .freeCtr]
  | .actNop _ => [.mem, .ram, .host, .rcp, .line, .time, .rcd, .freeCtr]
  | .actSet _ => [.mem, .ram, .host, .stalls, .cache, .rcp, .fio, .line, .time, .zb, .cust, .rcd, .freeCtr]
  | .actAdd _ => [.mem, .ram, .host, .stalls, .cache, .rcp, .fio, .line, .time, .zb, .cust, .rcd, .freeCtr]
  | .actToggle _ => [.mem, .ram, .host, .stalls, .cache, .rcp, .fio, .line, .time, .zb, .cust, .rcd, .freeCtr]
  | .actCopy _ => [.mem, .ram, .host, .stalls, .cache, .rcp, .fio, .line, .time, .zb, .cust, .rcd, .freeCtr]
  | .actPulse _ => [.mem, .ram, .host, .stalls, .cache, .rcp, .fio, .line, .time, .zb, .cust, .rcd, .freeCtr]
  | .actRegSet _ => [.mem, .ram, .host, .rcp, .line, .time, .rcd, .freeCtr]
  | .actRegAdd _ => [.mem, .ram, .host, .rcp, .line, .time, .rcd, .freeCtr]
  | .actRegLoad _ => [.mem, .ram, .host, .rcp, .line, .time, .rcd, .freeCtr]
  | .actRegStore _ => [.mem, .ram, .host, .stalls, .cache, .rcp, .fio, .line, .time, .zb, .cust, .rcd, .freeCtr]
  | .actJump _ => [.mem, .ram, .host, .rcp, .line, .time, .rcd, .freeCtr]
  | .actDjnz _ => [.mem, .ram, .host, .rcp, .line, .time, .rcd, .freeCtr]
  | .actSignal _ => [.mem, .ram, .host, .rcp, .line, .time, .rcd, .freeCtr]
  | .actUnsignal _ => [.mem, .ram, .host, .rcp, .line, .time, .rcd, .freeCtr]
  | .actStartRecipe _ => [.mem, .ram, .host, .rcp, .line, .time, .rcd, .freeCtr]
  | .actStopRecipe _ => [.mem, .ram, .host, .rcp, .line, .time, .rcd, .freeCtr]
  | .actAxisMove _ => [.mem, .ram, .host, .rcp, .axes, .drives, .line, .time, .rcd, .freeCtr]
  | .actChanStart _ => [.mem, .ram, .host, .rcp, .line, .rcd, .freeCtr]
  | .actChanStop _ => [.mem, .ram, .host, .rcp, .line, .rcd, .freeCtr]
  | .actPostTask _ => [.mem, .ram, .host, .rcp, .line, .rcd, .freeCtr]
  | .actCancelTask _ => [.mem, .ram, .host, .rcp, .line, .time, .rcd, .freeCtr]
  | .actNodeWrite _ => [.mem, .ram, .host, .rcp, .line, .rcd, .freeCtr]
  | .actHarvestMark _ => [.mem, .ram, .host, .rcp, .line, .rcd, .freeCtr]
  | .taskRelease => [.rcp, .time]
  | .taskDispatch _ => [.mem, .ram, .host, .stalls, .cache, .rcp, .loops, .fio, .adc, .encs, .axes, .drives, .line, .zb, .cust, .lifts, .gates, .harv, .rcd, .safe, .freeCtr]
  | .taskComplete _ => [.rcp]
  | .loopUpdate _ _ => [.mem, .ram, .host, .stalls, .cache, .rcp, .loops, .fio, .encs, .axes, .drives, .line, .time, .zb, .cust, .lifts, .gates, .rcd, .hlth, .freeCtr]
  | .inputFilteredChange _ _ _ => [.stalls, .cache, .loops, .fio, .axes, .drives, .time, .zb, .cust, .lifts, .gates, .rcd, .safe]
  | .wireBreakMeasure _ _ => [.stalls, .cache, .fio, .cust, .rcd]
  | .comparatorDisagree _ => [.mem, .ram, .host, .stalls, .cache, .loops, .fio, .encs, .axes, .drives, .line, .zb, .cust, .lifts, .gates, .rcd, .hlth, .freeCtr]
  | .outputCurrentLimit _ => [.mem, .ram, .host, .stalls, .cache, .loops, .fio, .encs, .axes, .drives, .line, .zb, .cust, .lifts, .gates, .rcd, .safe, .hlth, .freeCtr]
  | .groupThermalShutdown _ _ _ => [.mem, .ram, .host, .stalls, .cache, .loops, .fio, .encs, .axes, .drives, .line, .zb, .cust, .lifts, .gates, .rcd, .safe, .hlth, .freeCtr]
  | .thermalRestartTemp _ => [.fio]
  | .outputReadbackFault _ => [.mem, .ram, .host, .stalls, .cache, .loops, .fio, .encs, .axes, .drives, .line, .zb, .cust, .lifts, .gates, .rcd, .hlth, .freeCtr]
  | .poThermalShutdown _ => [.mem, .ram, .host, .stalls, .cache, .loops, .fio, .encs, .axes, .drives, .line, .zb, .cust, .lifts, .gates, .rcd, .safe, .hlth, .freeCtr]
  | .outputOpenLoad _ _ _ => [.stalls, .cache, .cust, .rcd]
  | .pwmBoundary _ => [.fio, .time]
  | .firmwareWatchdogFeed => [.fio]
  | .ioWatchdogExpired => [.stalls, .cache, .loops, .fio, .axes, .drives, .time, .zb, .cust, .lifts, .gates, .rcd, .freeCtr]
  | .ioWatchdogResume => [.fio, .time]
  | .fieldSupplyWarn _ => [.fio, .rcd]
  | .fieldSupplyWarnClear _ => [.fio, .rcd]
  | .fieldSupplyOff _ => [.power, .stalls, .cache, .loops, .fio, .axes, .drives, .zb, .cust, .lifts, .gates, .rcd, .glean, .freeCtr]
  | .fieldSupplyRise => [.fio]
  | .fieldSupplyLatchClear _ => [.power, .fio, .time, .glean]
  | .outputRestoreSlot _ => [.mem, .ram, .host, .stalls, .cache, .loops, .fio, .encs, .axes, .drives, .line, .time, .zb, .cust, .lifts, .gates, .rcd, .safe, .freeCtr]
  | .inputResume => [.fio, .time]
  | .adcFrame => [.mem, .ram, .adc, .time, .rcd]
  | .adcSelfCheck _ _ _ => [.mem, .ram, .host, .stalls, .cache, .loops, .fio, .adc, .encs, .axes, .drives, .line, .time, .zb, .cust, .lifts, .gates, .rcd, .safe, .hlth, .freeCtr]
  | .adcSlotResult _ _ _ _ => [.mem, .ram, .stalls, .cache, .adc, .time, .cust, .rcd]
  | .adcListApply => [.mem, .ram, .adc, .time]
  | .encoderStep _ _ _ _ => [.mem, .ram, .host, .stalls, .cache, .rcp, .loops, .fio, .encs, .axes, .drives, .line, .zb, .cust, .lifts, .gates, .rcd, .hlth, .freeCtr]
  | .encoderZEdge _ _ _ => [.encs]
  | .latchInputEdge _ _ => [.encs]
  | .latchInstant _ _ _ => [.encs, .time]
  | .comparePulseEnd _ => [.stalls, .cache, .fio, .time, .zb, .cust, .rcd]
  | .ssiFrameStart _ _ => [.encs, .time]
  | .ssiFrameEnd _ _ _ => [.mem, .ram, .host, .stalls, .cache, .rcp, .loops, .fio, .encs, .axes, .drives, .line, .time, .zb, .cust, .lifts, .gates, .rcd, .hlth, .freeCtr]
  | .positionRebase => [.encs]
  | .positionStallWrite _ => [.stalls, .cache, .encs, .time, .cust]
  | .encoderStandstill _ => [.encs, .time]
  | .plannerTick => [.mem, .ram, .host, .stalls, .cache, .axes, .drives, .line, .time, .cust, .rcd, .freeCtr]
  | .timedMotionDue _ => [.mem, .ram, .host, .axes, .drives, .line, .time, .rcd, .freeCtr]
  | .followingError _ => [.mem, .ram, .host, .stalls, .cache, .loops, .fio, .encs, .axes, .drives, .line, .zb, .cust, .lifts, .gates, .rcd, .hlth, .freeCtr]
  | .limitSwitch _ _ => [.axes, .rcd, .freeCtr]
  | .gearSyncTimeout _ => [.axes, .time, .rcd, .freeCtr]
  | .gearMasterLost _ => [.axes, .rcd, .freeCtr]
  | .chopperBlankEnd _ _ => [.drives, .time]
  | .chopperTrip _ _ _ => [.drives]
  | .chopperForcedOff _ _ _ => [.drives, .time]
  | .chopperSlowDecay _ _ => [.drives, .time]
  | .chopperOffEnd _ _ => [.drives, .time]
  | .bridgeOvercurrent _ => [.mem, .ram, .host, .stalls, .cache, .loops, .fio, .encs, .axes, .drives, .line, .zb, .cust, .lifts, .gates, .rcd, .hlth, .freeCtr]
  | .openPhase _ _ => [.mem, .ram, .host, .stalls, .cache, .loops, .fio, .encs, .axes, .drives, .line, .zb, .cust, .lifts, .gates, .rcd, .hlth, .freeCtr]
  | .coilIdleTimeout _ => [.axes, .drives, .time, .rcd]
  | .partnerSignal _ _ _ => [.line, .glean, .freeCtr]
  | .trainingRateTimeout _ => [.line, .time, .freeCtr]
  | .linkUp _ _ _ _ => [.power, .line, .time, .rcd, .glean, .hlth, .freeCtr]
  | .linkHelloTimeout _ => [.line, .time, .glean, .freeCtr]
  | .linkHello _ _ _ _ => [.line, .time, .rcd, .glean, .freeCtr]
  | .linkLost _ => [.line, .time, .rcd, .glean, .freeCtr]
  | .portSilent _ => [.line, .time, .rcd, .glean, .freeCtr]
  | .rateRetry _ => [.line, .time, .rcd, .glean, .freeCtr]
  | .trainingFailTimeout _ => [.power, .line, .time, .rcd, .glean, .hlth, .freeCtr]
  | .fecBurst _ _ => [.power, .line, .time, .rcd, .glean, .hlth, .freeCtr]
  | .lineCycleBoundary _ => [.stalls, .line, .time, .rcd, .freeCtr]
  | .gateEntryChange _ _ => [.line, .time, .rcd]
  | .cyclicSend => [.line, .time]
  | .kereyFrameForward _ _ _ _ _ _ _ _ _ _ _ _ _ => [.line, .rcd, .glean]
  | .plantFrameIn _ _ _ _ _ _ _ _ _ => [.line, .rcd, .glean]
  | .proxyExpire _ => [.line, .time]
  | .leave _ => [.line, .time, .rcd, .glean, .freeCtr]
  | .ringBreak _ _ => [.line, .time, .rcd, .glean]
  | .ringClosed _ _ => [.line, .rcd, .glean]
  | .ringRouteRestore => [.line, .time, .rcd]
  | .topoReport _ _ _ _ _ _ _ => [.line, .harv, .rcd, .freeCtr]
  | .topoMapSend => [.line, .time, .rcd, .freeCtr]
  | .topoMap _ _ _ _ _ _ _ => [.line, .time, .rcd, .glean, .freeCtr]
  | .addrRequest _ => [.line, .freeCtr]
  | .addrAssign _ _ => [.line, .rcd, .glean, .sec, .freeCtr]
  | .cyclic _ _ _ => [.stalls, .cache, .line, .cust, .glean]
  | .nodeWrite _ _ _ _ => [.stalls, .cache, .fio, .zb, .cust, .rcd, .glean]
  | .lineCycleApply => [.line, .time]
  | .lpiEnter _ => [.line]
  | .lpiExit _ => [.line]
  | .sync _ _ => [.line, .time, .rcd]
  | .followUp _ _ _ _ => [.rcp, .loops, .line, .time, .harv, .rcd]
  | .syncLost => [.time, .rcd]
  | .holdoverExpired => [.time, .rcd]
  | .syncSend _ => [.line, .time, .rcd]
  | .pdelayReqSend _ => [.line, .time]
  | .pdelayReq _ _ _ => [.line]
  | .pdelayResp _ _ _ _ _ => [.line]
  | .announce _ _ _ _ => [.line, .time]
  | .referenceMessageDue _ => [.mem, .ram, .host, .stalls, .cache, .loops, .fio, .encs, .axes, .drives, .line, .time, .zb, .cust, .lifts, .gates, .rcd, .hlth, .freeCtr]
  | .zbIntegrated => [.zb, .rcd]
  | .zbFrameReceived _ _ _ _ _ _ _ => [.mem, .ram, .host, .stalls, .cache, .rcp, .loops, .fio, .encs, .axes, .drives, .line, .time, .zb, .cust, .lifts, .gates, .rcd, .safe, .hlth, .freeCtr]
  | .zbFrameSent _ _ => [.mem, .ram, .host, .stalls, .cache, .rcp, .loops, .fio, .encs, .axes, .drives, .line, .time, .zb, .cust, .lifts, .gates, .rcd, .safe, .hlth, .freeCtr]
  | .zbTxError _ _ _ => [.mem, .ram, .host, .stalls, .cache, .loops, .fio, .encs, .axes, .drives, .line, .zb, .cust, .lifts, .gates, .rcd, .safe, .hlth, .freeCtr]
  | .zbRxError _ _ _ => [.stalls, .cache, .loops, .fio, .axes, .drives, .zb, .cust, .lifts, .gates, .rcd, .safe, .freeCtr]
  | .zbArbLost => [.mem, .ram, .host, .stalls, .cache, .loops, .fio, .encs, .axes, .drives, .line, .zb, .cust, .lifts, .gates, .rcd, .safe, .hlth, .freeCtr]
  | .zbSuspendEnd => [.zb]
  | .zbRecoveryDelay => [.time, .zb]
  | .zbRecovered => [.mem, .ram, .host, .stalls, .cache, .loops, .fio, .encs, .axes, .drives, .line, .zb, .cust, .lifts, .gates, .rcd, .safe, .hlth, .freeCtr]
  | .zbExpressReload => [.zb]
  | .remoteTxPeriod _ _ => [.time, .zb, .rcd]
  | .remoteRxTimeout _ => [.mem, .ram, .host, .stalls, .cache, .loops, .fio, .encs, .axes, .drives, .line, .time, .zb, .cust, .lifts, .gates, .rcd, .hlth, .freeCtr]
  | .custodyEval => [.rcp, .line, .time, .cust, .freeCtr]
  | .custodyEyeRise _ _ => [.line, .time, .cust, .rcd, .freeCtr]
  | .custodyEyeFall _ _ => [.line, .time, .cust, .rcd, .freeCtr]
  | .custodyTravelLimit _ => [.line, .time, .cust, .rcd, .freeCtr]
  | .custodyCreate _ => [.rcp, .line, .cust, .freeCtr]
  | .custodyScan => [.line, .zb, .cust, .rcd, .freeCtr]
  | .handoffOffer _ _ => [.line, .cust, .glean, .freeCtr]
  | .handoffAccept _ _ _ => [.line, .cust, .rcd, .glean, .freeCtr]
  | .handoffRefuse _ _ _ _ => [.rcd, .glean]
  | .handoffCommit _ _ _ => [.line, .cust, .glean, .freeCtr]
  | .commitAck _ _ _ => [.cust, .glean]
  | .handoffQuery _ _ _ => [.line, .cust, .rcd, .glean, .freeCtr]
  | .mirrorUpdate _ _ => [.line, .cust, .glean, .freeCtr]
  | .mirrorFull _ _ _ => [.line, .cust, .rcd, .glean, .freeCtr]
  | .mirrorDrop _ _ => [.cust, .glean]
  | .ckptNote _ _ => [.line, .cust, .rcd, .glean, .freeCtr]
  | .recoverReq _ _ _ => [.line, .cust, .glean, .freeCtr]
  | .recoverData _ _ _ => [.cust, .glean]
  | .recoverEnd _ _ => [.cust, .glean]
  | .custodyRepeat => [.line, .time, .cust, .rcd, .freeCtr]
  | .handoffTimeout _ => [.time, .cust, .rcd]
  | .commitWaitTimeout _ => [.line, .time, .cust, .freeCtr]
  | .checkpointPeriod => [.time, .cust, .rcd]
  | .checkpointDurable => [.line, .cust, .freeCtr]
  | .custodyRecoveryStart => [.power, .line, .time, .cust, .rcd, .freeCtr]
  | .recoveryMerge => [.line, .time, .cust, .rcd, .freeCtr]
  | .energyInterval _ => [.power, .time, .cust, .glean]
  | .liftPositionUpdate _ => [.stalls, .cache, .fio, .axes, .drives, .time, .zb, .cust, .lifts, .gates, .rcd, .safe]
  | .levelFlagEdge _ _ _ => [.stalls, .cache, .fio, .axes, .drives, .time, .zb, .cust, .lifts, .rcd, .freeCtr]
  | .liftDriveAtTarget _ => [.lifts, .safe]
  | .liftArrivalSettled _ => [.time, .lifts, .safe]
  | .liftArrivalTimeout _ => [.stalls, .cache, .fio, .axes, .drives, .time, .zb, .cust, .lifts, .gates, .rcd, .safe]
  | .gateDwellExpired _ => [.stalls, .cache, .fio, .axes, .drives, .time, .zb, .cust, .gates, .rcd]
  | .liftParkDue _ => [.stalls, .cache, .fio, .axes, .drives, .time, .zb, .cust, .lifts, .gates, .rcd, .safe]
  | .liftRefTravelExceeded _ => [.stalls, .cache, .fio, .axes, .drives, .zb, .cust, .lifts, .rcd, .freeCtr]
  | .gateInputChange _ => [.stalls, .cache, .fio, .axes, .drives, .zb, .cust, .lifts, .gates, .rcd, .safe]
  | .gateTimeout _ => [.stalls, .cache, .fio, .axes, .drives, .time, .zb, .cust, .gates, .rcd, .freeCtr]
  | .gateObstructionCheck _ => [.stalls, .cache, .fio, .axes, .drives, .time, .zb, .cust, .gates, .rcd, .freeCtr]
  | .gateRetryDwell _ => [.stalls, .cache, .fio, .axes, .drives, .time, .zb, .cust, .gates, .rcd]
  | .liftInterlockChange _ => [.stalls, .cache, .fio, .axes, .drives, .zb, .cust, .lifts, .gates, .rcd, .safe, .freeCtr]
  | .harvestSample _ => [.stalls, .cache, .time, .harv, .rcd, .freeCtr]
  | .harvestFrameSend _ => [.line, .harv, .rcd, .freeCtr]
  | .harvestListApply => [.time, .harv, .rcd, .freeCtr]
  | .triggerHoldoffEnd _ => [.time, .harv]
  | .tbusEdge _ => [.time, .harv]
  | .cbusEdge _ _ => [.stalls, .cache, .time, .harv, .rcd, .freeCtr]
  | .cbusPulse _ => [.time, .harv]
  | .tbusPulseEnd => [.time, .harv]
  | .harvestReserveRequest _ _ _ _ => [.line, .harv, .freeCtr]
  | .harvestGrant _ _ => [.mem, .ram, .host, .line, .harv, .rcd, .freeCtr]
  | .harvestRefuse _ => [.mem, .ram, .host, .line, .harv, .rcd, .freeCtr]
  | .harvestRevoke _ => [.harv, .rcd]
  | .harvestReservationTimeout _ => [.mem, .ram, .host, .line, .time, .harv, .rcd, .freeCtr]
  | .harvestReservationRetry _ => [.mem, .ram, .host, .line, .time, .harv, .rcd, .freeCtr]
  | .storeRecordRequest => [.rcd]
  | .recordProgrammed => [.rcd]
  | .recordValidMarkDone => [.mem, .ram, .host, .line, .rcd, .freeCtr]
  | .blockEraseDone _ => [.rcd, .hlth]
  | .nvsRetry _ _ _ _ => [.stored, .rcp, .time, .cust, .rcd, .sec, .hlth, .freeCtr]
  | .nvsRewrite _ _ _ _ => [.stored, .rcp, .cust, .rcd, .sec, .hlth, .freeCtr]
  | .safetyCycle _ => [.fio, .time, .rcd, .safe, .glean, .freeCtr]
  | .safetyInboundRead _ _ _ => [.fio, .time, .safe]
  | .crossRecord _ => [.fio, .rcd, .safe]
  | .partnerLost _ => [.fio, .rcd, .safe]
  | .safetySelfTest _ _ _ _ => [.fio, .rcd, .safe]
  | .followerTimeout _ => [.fio, .safe]
  | .fallbackExpired => [.fio, .time, .rcd, .safe]
  | .safetyDiscrepancy _ _ => [.time, .rcd, .safe]
  | .lockMonitorTimeout _ => [.fio, .time, .rcd, .safe]
  | .unlockRequestTimeout _ => [.time, .safe]
  | .degradedTimeout _ _ => [.fio, .time, .rcd, .safe]
  | .safeFrameGather => [.line, .time, .zb, .rcd, .safe, .freeCtr]
  | .safetyFrame _ _ _ => [.safe]
  | .safeStallUpdate => [.mem, .ram, .host, .stalls, .cache, .line, .cust, .rcd, .safe, .freeCtr]
  | .torqueOn _ => [.safe]
  | .torqueOff _ => [.safe]
  | .unlock _ => [.safe]
  | .lock _ => [.safe]
  | .restart _ => [.safe]
  | .stopZone => [.safe]
  | .restartNotice => [.safe]
  | .sleepEntry => [.cache, .rcp, .fio, .rcd, .glean]
  | .sleepContextSaved => [.mem, .ram, .host, .stalls, .cache, .rcp, .loops, .fio, .axes, .drives, .line, .zb, .cust, .lifts, .gates, .rcd, .safe, .glean, .freeCtr]
  | .sleepZbOffline => [.isl, .mem, .ram, .host, .stalls, .cache, .rcp, .loops, .fio, .adc, .encs, .axes, .drives, .line, .zb, .cust, .lifts, .gates, .harv, .rcd, .safe, .glean, .freeCtr]
  | .wakeTimer => [.isl, .mem, .ram, .host, .stalls, .cache, .rcp, .loops, .fio, .axes, .drives, .line, .time, .zb, .cust, .lifts, .gates, .rcd, .safe, .glean, .freeCtr]
  | .wake _ => [.isl, .mem, .ram, .host, .stalls, .cache, .rcp, .loops, .fio, .axes, .drives, .line, .zb, .cust, .lifts, .gates, .rcd, .safe, .glean, .freeCtr]
  | .woke _ => [.isl, .mem, .ram, .host, .stalls, .cache, .rcp, .loops, .fio, .encs, .axes, .drives, .line, .zb, .cust, .lifts, .gates, .rcd, .safe, .glean, .freeCtr]
  | .gleanerSample _ _ => [.isl, .mem, .ram, .host, .stalls, .cache, .rcp, .loops, .fio, .axes, .drives, .line, .time, .zb, .cust, .lifts, .gates, .rcd, .safe, .glean, .freeCtr]
  | .bulk _ _ => [.glean, .sec]
  | .levelFrame _ _ _ _ _ => [.line, .rcd, .glean, .freeCtr]
  | .levelRaiseInstant => [.line, .time, .rcd]
  | .switchChargeDriveLapse _ => [.fio, .rcd, .safe]
  | .safetyStartTestsDone _ _ _ _ => [.fio, .rcd, .safe]
  | .portPhyReloadDone _ _ => [.isl, .mem, .ram, .host, .line, .rcd, .sec, .freeCtr]

/-- A safe run of `k` steps: no step stops. -/
def SafeRun (s : State) : Nat → Prop
  | 0 => True
  | k + 1 => ∃ t, step s = .next t ∧ SafeRun t k

end Sys2Proof.Machine
end

