-- ==== Sys2Proof/Certificates/Slice0/Obligations.lean ====
section
/-! DEFINITION. The statements for the provers. Each host command and each event completes with the effect its rules give, named as
the node of the next state; beside them what every step keeps, what every command leaves alone, how memory, mailboxes and records
read back, and single rules of the spec. `Serves`, `Passes`, `Acts`, `Done` and `DoneOk` are in Sys2Proof/Safety.lean. -/

open Sys2Proof Sys2Proof.Machine

/-- Island operations and their stages complete with the island state machine effects; that a command row names its mailbox is the model's choice, log 11; that what an event observes is an operand of its row is the model's choice, logs 5, 6 and 14. For each of these constructors of Instr exec answers a next state: islandControl, islandStatus, quiesceDrained, quiesceTimeout, heldElapsed, islandLoadDone, calibrationDone, lockAchieved, relockTimeout, clockLockLost, coreRestartDone. (R29, R30, R31, R32, R33, R61) -/
def Obligations.IslandOperationsComplete : Prop :=
  (∀ (s : State) (path idx : Nat) (pl : List Byte), Serves s.node Cmd.islandControl path idx pl →
    Passes ([badLen pl 4, badIn (u8 pl 0) 0 11 0, badIn (u8 pl 1) 0 3 1, badIn (u8 pl 2) 0 (if u8 pl 0 = Isl.mem then 11 else 0) 2, badRes pl 3 1] ++ (s.node.begun path idx).opRefusals (u8 pl 0) (opOf (u8 pl 1))) →
    ¬(u8 pl 0 = Isl.core ∧ (opOf (u8 pl 1)).clears = true) →
    Done (.islandControl path idx) s (((s.node.begun path idx).ok (path * 16 + idx) []).startOp (u8 pl 0) (opOf (u8 pl 1)) (u8 pl 2) none)) ∧
  (∀ (s : State) (path idx : Nat) (pl : List Byte), Serves s.node Cmd.islandControl path idx pl →
    Passes ([badLen pl 4, badIn (u8 pl 0) 0 11 0, badIn (u8 pl 1) 0 3 1, badIn (u8 pl 2) 0 (if u8 pl 0 = Isl.mem then 11 else 0) 2, badRes pl 3 1] ++ (s.node.begun path idx).opRefusals (u8 pl 0) (opOf (u8 pl 1))) →
    u8 pl 0 = Isl.core → (opOf (u8 pl 1)).clears = true →
    Done (.islandControl path idx) s ((s.node.begun path idx).startOp Isl.core (opOf (u8 pl 1)) (u8 pl 2) (some (path * 16 + idx)))) ∧
  (∀ (s : State) (path idx : Nat) (pl : List Byte), Serves s.node Cmd.islandStatus path idx pl → Passes [badLen pl 0] →
    DoneOk (.islandStatus path idx) s ((List.range 12).foldl (fun n i => n.updIsland i (fun x => { x with ceCount := 0, ueCount := 0 })) (s.node.begun path idx)) path idx ((List.range 12).flatMap (fun i => leBytes 4 (((s.node.begun path idx).island i).word (imageCode i))))) ∧
  (∀ (s : State) (i : Nat), (s.node.island i).st = .quiescing → Done (.quiesceDrained i) s (s.node.islandQuiet i)) ∧
  (∀ (s : State) (i : Nat), (s.node.island i).st = .quiescing → Done (.quiesceTimeout i) s ({ s.node with lastCrossing := .offline }.islandQuiet i)) ∧
  (∀ (s : State) (i : Nat), (s.node.island i).st = .held → (s.node.island i).op = none → Done (.heldElapsed i) s (s.node.islandRuns i)) ∧
  (∀ (s : State) (i : Nat), (s.node.island i).st = .held → (s.node.island i).op = some .reload →
    Done (.heldElapsed i) s (s.node.updIsland i (fun x => { x with st := .loading, imageOk := false }))) ∧
  (∀ (s : State) (i : Nat) (o : IslOp), (s.node.island i).st = .held → (s.node.island i).op = some o → o ≠ .reload → s.node.coreWaits i = false →
    Done (.heldElapsed i) s ((s.node.islandRuns i).islandLog)) ∧
  (∀ (s : State) (i : Nat), (s.node.island i).st = .loading →
    Done (.islandLoadDone i true) s (if s.node.imageGood ((imageCode i).getD 0) then (if (s.node.runImage ((imageCode i).getD 0)).coreWaits i then s.node.runImage ((imageCode i).getD 0) else ((s.node.runImage ((imageCode i).getD 0)).islandRuns i).islandLog) else (s.node.islandFails i).islandLog)) ∧
  (∀ (s : State) (i : Nat), (s.node.island i).st = .loading → Done (.islandLoadDone i false) s ((s.node.islandFails i).islandLog)) ∧
  (∀ (s : State) (i : Nat) (ports : List Nat), (s.node.island i).st = .calibrating →
    Done (.calibrationDone i true ports) s ((s.node.updIsland i (fun x => { x with trims := x.trims + 1 })).islandRuns i)) ∧
  (∀ (s : State) (i : Nat) (ports : List Nat), (s.node.island i).st = .calibrating → i ≠ Isl.line → i ≠ Isl.io →
    Done (.calibrationDone i false ports) s ((s.node.islandFails i).islandLog)) ∧
  (∀ (s : State) (i : Nat) (ports : List Nat), (s.node.island i).st = .calibrating → i = Isl.line →
    Done (.calibrationDone i false ports) s ((ports.filter (fun p => decide (p < 3))).foldl (fun n p => n.retirePort p 6) (s.node.islandFails i).islandLog)) ∧
  (∀ (s : State) (i : Nat) (ports : List Nat), (s.node.island i).st = .calibrating → i = Isl.io →
    Done (.calibrationDone i false ports) s ((s.node.islandFails i).islandLog).calibrationFailed) ∧
  (∀ (s : State) (i : Nat), (s.node.island i).st = .relocking → (s.node.island i).resume = none →
    Done (.lockAchieved i) s ((s.node.updIsland i (fun x => { x with locked := true })).islandRuns i)) ∧
  (∀ (s : State) (i : Nat) (r : IslSt), (s.node.island i).st = .relocking → (s.node.island i).resume = some r →
    Done (.lockAchieved i) s ((s.node.updIsland i (fun x => { x with locked := true })).updIsland i (fun x => { x with st := r, resume := none }))) ∧
  (∀ (s : State) (i : Nat), (s.node.island i).st = .relocking →
    Done (.relockTimeout i) s (((s.node.updIsland i (fun x => { x with locked := false })).islandFails i).logFree Ev.clockLockLost)) ∧
  (∀ (s : State) (i bank : Nat), i < Isl.power → (s.node.island i).st = .run →
    Done (.clockLockLost (i, bank)) s ((((s.node.updIsland i (fun x => { x with st := .relocking, locked := false, resume := none })).logFree Ev.clockLockLost).updIsland i (fun x => { x with bank := if i = Isl.mem then bank else 0 })).islDown i none)) ∧
  (∀ (s : State) (i bank : Nat), i < Isl.power →
    (s.node.island i).st = .quiescing ∨ (s.node.island i).st = .held ∨ (s.node.island i).st = .loading ∨ (s.node.island i).st = .calibrating →
    Done (.clockLockLost (i, bank)) s ((s.node.updIsland i (fun x => { x with st := .relocking, locked := false, resume := some (s.node.island i).st })).logFree Ev.clockLockLost)) ∧
  (∀ (s : State) (bad : List Nat), s.node.coreReady = true →
    Done (.coreRestartDone bad) s (((s.node.updIsland Isl.core (fun x => { x with st := .run, op := none, resume := none })).coreStart bad).islandLog))

/-- Crossing words, scrub reads and retirement steps complete with their stated effect; that what an event observes is an operand of its row is the model's choice, logs 5, 6 and 14. For each of these constructors of Instr exec answers a next state: crossingWord, scrubRead, eccReread, rowCopyDone, pageCopyDone. (R14, R15, R17, R22, R23, R24, R25, R26, R28, R490, R491) -/
def Obligations.CrossingsAndMemoryHealthComplete : Prop :=
  (∀ (s : State) (src dst a word : Nat) (write buffered : Bool) (bank bankCheck err errCheck : Nat), crossings.contains (src, dst) = true →
    s.node.endWorks dst src a = true ∨ buffered = true ∧ (s.node.island dst).st = .quiescing → s.node.endWorks src dst a = true →
    deniedAt src dst a write = false →
    let r := s.node.bankWord src dst a word write (upset bank bankCheck); let q := r.2.2.crossCheck dst r.2.1 write (upset err errCheck); Done (.crossingWord src dst a word write buffered bank bankCheck err errCheck) s (q.2.2.deliverWord dst a q.2.1 write (r.1 || q.1))) ∧
  (∀ (s : State) (src dst a word : Nat) (write buffered : Bool) (bank bankCheck err errCheck : Nat), crossings.contains (src, dst) = true →
    s.node.endWorks dst src a = false → buffered = false ∨ (s.node.island dst).st ≠ .quiescing →
    Done (.crossingWord src dst a word write buffered bank bankCheck err errCheck) s { s.node with lastCrossing := .offline }) ∧
  (∀ (s : State) (src dst a word : Nat) (write buffered : Bool) (bank bankCheck err errCheck : Nat), crossings.contains (src, dst) = true →
    s.node.endWorks dst src a = true ∨ buffered = true ∧ (s.node.island dst).st = .quiescing → s.node.endWorks src dst a = false →
    Done (.crossingWord src dst a word write buffered bank bankCheck err errCheck) s { s.node with lastCrossing := .aborted }) ∧
  (∀ (s : State) (src dst a word : Nat) (write buffered : Bool) (bank bankCheck err errCheck : Nat), crossings.contains (src, dst) = true →
    s.node.endWorks dst src a = true ∨ buffered = true ∧ (s.node.island dst).st = .quiescing → s.node.endWorks src dst a = true →
    deniedAt src dst a write = true →
    Done (.crossingWord src dst a word write buffered bank bankCheck err errCheck) s ({ s.node with lastCrossing := .denied }.logFree Ev.crossingDenied)) ∧
  (∀ (s : State) (memory bank err errCheck : Nat) (beaten : Bool), scrubWords (scrubUnit memory bank) ≠ 0 →
    s.node.scrubRuns (scrubUnit memory bank) = true →
    s.node.scrubAddr (scrubUnit memory bank) (s.node.mem.scrubPos.getD (scrubUnit memory bank) 0) = none →
    Done (.scrubRead memory bank err errCheck beaten) s (s.node.updMem (fun x => { x with scrubPos := x.scrubPos.put (scrubUnit memory bank) ((s.node.mem.scrubPos.getD (scrubUnit memory bank) 0 + 1) % scrubWords (scrubUnit memory bank)) }))) ∧
  (∀ (s : State) (memory bank err errCheck : Nat) (beaten : Bool) (a : Nat), scrubWords (scrubUnit memory bank) ≠ 0 →
    s.node.scrubRuns (scrubUnit memory bank) = true →
    s.node.scrubAddr (scrubUnit memory bank) (s.node.mem.scrubPos.getD (scrubUnit memory bank) 0) = some a →
    Done (.scrubRead memory bank err errCheck beaten) s ((s.node.updMem (fun x => { x with scrubPos := x.scrubPos.put (scrubUnit memory bank) ((s.node.mem.scrubPos.getD (scrubUnit memory bank) 0 + 1) % scrubWords (scrubUnit memory bank)) })).bankRead a (upset err errCheck) (memIsland (scrubMem (scrubUnit memory bank))) beaten).2) ∧
  (∀ (s : State) (a err sym t : Nat), s.node.mem.reread.look a = some (sym, t) →
    (let r := ((s.node.upTo (t + ms 1)).updMem (fun x => { x with reread := x.reread.del a })).bankRead a (BitVec.ofNat 76 err) (memIsland ((memOf a).getD 0)) false; r.1 = .corrected sym →
    Done (.eccReread a err) s (r.2.permanentRow a))) ∧
  (∀ (s : State) (a err sym t k : Nat), s.node.mem.reread.look a = some (sym, t) →
    (let r := ((s.node.upTo (t + ms 1)).updMem (fun x => { x with reread := x.reread.del a })).bankRead a (BitVec.ofNat 76 err) (memIsland ((memOf a).getD 0)) false; r.1 = .clean ∨ (r.1 = .corrected k ∧
    k ≠ sym) → Done (.eccReread a err) s (r.2.transientAt a))) ∧
  (∀ (s : State) (a err sym t : Nat), s.node.mem.reread.look a = some (sym, t) →
    (let r := ((s.node.upTo (t + ms 1)).updMem (fun x => { x with reread := x.reread.del a })).bankRead a (BitVec.ofNat 76 err) (memIsland ((memOf a).getD 0)) false; r.1 = .uncorrectable ∨ r.1 = .poison →
    Done (.eccReread a err) s r.2)) ∧
  (∀ (n : Node) (a : Nat) (upset : BitVec 76) (isl : Nat) (beaten : Bool) (c k : Nat), memOf a = some c →
    decodeErr (n.mem.err.getD (wordOf a) 0 ^^^ upset) = .clean →
    n.bankRead a upset isl beaten = (.clean, (n.fixData a (decodeData (n.mem.err.getD (wordOf a) 0 ^^^ upset))).setErr a 0)) ∧
  (∀ (n : Node) (a : Nat) (upset : BitVec 76) (isl : Nat) (beaten : Bool) (c k : Nat), memOf a = some c →
    decodeErr (n.mem.err.getD (wordOf a) 0 ^^^ upset) = .corrected k →
    n.bankRead a upset isl beaten = (.corrected k, if beaten then (((n.fixData a (decodeData (n.mem.err.getD (wordOf a) 0 ^^^ upset))).setErr a 0).corrected a k (syndromeOf (codeword (n.dataAt a) ^^^ (n.mem.err.getD (wordOf a) 0 ^^^ upset))).toNat c isl) else (((n.fixData a (decodeData (n.mem.err.getD (wordOf a) 0 ^^^ upset))).setErr a 0).corrected a k (syndromeOf (codeword (n.dataAt a) ^^^ (n.mem.err.getD (wordOf a) 0 ^^^ upset))).toNat c isl).updMem (fun x => { x with reread := x.reread.put (wordOf a) (k, (((n.fixData a (decodeData (n.mem.err.getD (wordOf a) 0 ^^^ upset))).setErr a 0).corrected a k (syndromeOf (codeword (n.dataAt a) ^^^ (n.mem.err.getD (wordOf a) 0 ^^^ upset))).toNat c isl).now) }))) ∧
  (∀ (n : Node) (a : Nat) (upset : BitVec 76) (isl : Nat) (beaten : Bool) (c k : Nat), memOf a = some c →
    decodeErr (n.mem.err.getD (wordOf a) 0 ^^^ upset) = .uncorrectable →
    n.bankRead a upset isl beaten = (.uncorrectable, (n.uncorrectable a (syndromeOf (codeword (n.dataAt a) ^^^ (n.mem.err.getD (wordOf a) 0 ^^^ upset))).toNat c isl).permanentRow a)) ∧
  (∀ (n : Node) (a : Nat) (upset : BitVec 76) (isl : Nat) (beaten : Bool) (c k : Nat), memOf a = some c →
    decodeErr (n.mem.err.getD (wordOf a) 0 ^^^ upset) = .poison →
    n.bankRead a upset isl beaten = (.poison, n.eccLog Ev.eccPoisonConsumed a 31 poisonSyn c isl 3)) ∧
  (∀ (s : State) (row : Nat), s.node.mem.copyingRows.contains row = true → Done (.rowCopyDone row) s (s.node.rowCopied row)) ∧
  (∀ (s : State) (page : Nat), s.node.mem.copyingPages.contains page = true → Done (.pageCopyDone page) s (s.node.pageCopied page))

/-- Each stage of power-up, at its own instant, brings the node to the next one; that what an event observes is an operand of its row is the model's choice, logs 5, 6 and 14. For each of these constructors of Instr exec answers a next state: powerUpStart, vaonRegulated, suppliesRegulated, bootSiloSelect, imagesLoaded, powerUpReady, bypassOpen. (R40, R43, R44, R47, R404, R466, R473, R483) -/
def Obligations.PowerUpStagesComplete : Prop :=
  (∀ (s : State) (below : Bool), s.node.power.stage = .off → s.node.power.ovHold = false ∨ below = true →
    Done (.powerUpStart below) s (s.node.updPower (fun p => { p with stage := .t0, converterOn := true, ovHold := false }))) ∧
  (∀ (s : State), s.node.power.stage = .t0 →
    Done (.vaonRegulated) s ((s.node.updPower (fun p => { p with stage := .t1, bypassClosed := true })).updSec (fun x => { x with latch := x.touched, touchedNow := false }))) ∧
  (∀ (s : State) (rise : Bool × List (Nat × Nat)), s.node.power.stage = .t1 → s.node.power.nrstLow = false →
    Done (.suppliesRegulated rise) s ((s.node.updPower (fun p => { p with stage := .t2, phyPowered := true, vauxOn := rise.1 })).updRcd (fun r => { r with wrongCrc := rise.2 }))) ∧
  (∀ (s : State), s.node.power.stage = .t2 →
    let n := ((List.range 11).foldl (fun n i => n.updIsland i (fun x => { x with locked := true })) s.node).slotScan; Done (.bootSiloSelect) s (match n.bootChoose [] with | some (k, step) => (n.bootFrom k step).updPower (fun p => { p with stage := .t3 }) | none => n.bootFails)) ∧
  (∀ (s : State), s.node.power.stage = .t3 →
    Done (.imagesLoaded) s (if s.node.activeSilo.imagesOk then s.node.runImages.updPower (fun p => { p with stage := .t4 }) else match s.node.bootChoose [s.node.sec.active] with | some (k, step) => (if (s.node.silo k).imagesOk then (s.node.bootFrom k step).runImages.updPower (fun p => { p with stage := .t4 }) else s.node.bootFails) | none => s.node.bootFails)) ∧
  (∀ (s : State) (mV : Nat) (field : Bool) (testA testB : Nat), s.node.power.stage = .t4 → Done (.powerUpReady mV field testA testB) s (
      let n : Node := s.node
      let waited := n.now - n.fio.risenAt
      let n := n.updPower (fun p => { p with stage := .t5 })
      let n := (n.startTime.updHost (fun h => { h with alive := true })).updHlth (fun h => { h with upSince := n.startTime.now })
      let n := (n.configReplay.updLine Line.reboot).updTime (fun t => { t with cfg := t.newCfg.getD t.cfg, newCfg := none })
      let n := n.layRecipes
      let n := if n.safe.cfgBytes.isEmpty then n else n.sfLoad n.safe.cfgBytes
      let n := (n.startTests 0 testA).startTests 1 testB
      let n := (n.startField mV field waited).wdStart
      let n := n.zbReturns false
      let n := (n.bootLogs.lostReferences).clearResume
      (n.autostartChans.autostartRecipes).driveAll)) ∧
  (∀ (s : State), s.node.power.bypassClosed = true → s.node.runs Isl.line = true → s.node.power.phyPowered = true → s.node.power.lvLow = false →
    s.node.power.tap ≤ 60000 → s.node.power.stage.up = true → Done (.bypassOpen) s (
      let n : Node := s.node
      let n := n.updPower (fun p => { p with bypassClosed := false, stage := if p.stage = .t5 then .t6 else p.stage })
      let open_ (x : Port) : Port := if x.st = .bypassed then { x with st := .training, linkUp := false } else x
      (((n.updPort 0 open_).updPort 1 open_).log Ev.bypassOpened 0 0 0).raise 9))

/-- Power-down, supply and temperature events complete with the effects of the Power island; that what an event observes is an operand of its row is the model's choice, logs 5, 6 and 14. For each of these constructors of Instr exec answers a next state: powerFail, lineOvervoltage, thermalStop, powerDownBypassClose, converterStop, lineVoltageLow, lineVoltageLowClear, nrstLow, nrstRelease, vaonLow, vauxFault, vauxRetry, dieTempHigh, dieTempClear, thermalRecover. (R40, R44, R46, R47, R48, R50, R483) -/
def Obligations.PowerDownEventsComplete : Prop :=
  (∀ (s : State), s.node.power.stage ≠ .off → s.node.power.stage ≠ .t0 → s.node.power.stage ≠ .thermalWait → s.node.power.stage ≠ .downT1 →
    s.node.power.stage ≠ .downT2 → s.node.power.stage ≠ .downT3 →
    Done (.powerFail) s (((s.node.logFree Ev.powerFail).updPower (fun p => { p with resetCause := 0 })).downT1 0)) ∧
  (∀ (s : State), s.node.power.stage = .t0 ∨ s.node.power.stage = .thermalWait → Done (.powerFail) s (s.node.deviceReset 0 .off)) ∧
  (∀ (s : State), s.node.power.stage ≠ .off → s.node.power.stage ≠ .t0 → s.node.power.stage ≠ .thermalWait → s.node.power.stage ≠ .downT1 →
    s.node.power.stage ≠ .downT2 → s.node.power.stage ≠ .downT3 →
    Done (.lineOvervoltage) s ((((s.node.logFree Ev.lineOvervoltage).updPower (fun p => { p with resetCause := 4 })).downT1 1).updPower (fun p => { p with ovHold := true }))) ∧
  (∀ (s : State), s.node.power.stage ≠ .off → s.node.power.stage ≠ .t0 → s.node.power.stage ≠ .thermalWait → s.node.power.stage ≠ .downT1 →
    s.node.power.stage ≠ .downT2 → s.node.power.stage ≠ .downT3 →
    Done (.thermalStop) s (((s.node.logFree Ev.thermalStop).updPower (fun p => { p with resetCause := 3 })).downT1 2)) ∧
  (∀ (s : State), s.node.power.stage = .downT1 →
    Done (.powerDownBypassClose) s ((s.node.closeBypass (some (downCause s.node.power.resetCause))).updPower (fun p => { p with stage := .downT2 }))) ∧
  (∀ (s : State), s.node.power.stage = .downT2 → s.node.rcd.downDurable = true →
    Done (.converterStop) s (s.node.deviceReset s.node.power.resetCause (if s.node.power.resetCause = 3 then .thermalWait else .off))) ∧
  (∀ (s : State), s.node.power.lvLow = false → s.node.power.stage ≠ .off →
    Done (.lineVoltageLow) s (((s.node.updPower (fun p => { p with lvLow := true })).logFree Ev.lineVoltageLow).raise 8)) ∧
  (∀ (s : State), Done (.lineVoltageLowClear) s (s.node.updPower (fun p => { p with lvLow := false }))) ∧
  (∀ (s : State), s.node.power.stage = .off ∨ s.node.power.stage = .t0 ∨ s.node.power.stage = .thermalWait →
    Done (.nrstLow) s (s.node.updPower (fun p => { p with nrstLow := true }))) ∧
  (∀ (s : State), s.node.power.stage = .downT1 ∨ s.node.power.stage = .downT2 →
    Done (.nrstLow) s ((s.node.updPower (fun p => { p with nrstLow := true })).closeBypass none)) ∧
  (∀ (s : State), s.node.power.stage ≠ .off → s.node.power.stage ≠ .t0 → s.node.power.stage ≠ .thermalWait → s.node.power.stage ≠ .downT1 →
    s.node.power.stage ≠ .downT2 → s.node.power.stage ≠ .downT3 →
    Done (.nrstLow) s ((s.node.updPower (fun p => { p with nrstLow := true })).deviceReset 1 .t1)) ∧
  (∀ (s : State), Done (.nrstRelease) s (s.node.updPower (fun p => { p with nrstLow := false }))) ∧
  (∀ (s : State), s.node.power.stage = .off → Done (.vaonLow) s (s.node.updPower (fun p => { p with bypassClosed := true }))) ∧
  (∀ (s : State), s.node.power.stage ≠ .off → Done (.vaonLow) s (s.node.deviceReset 0 .off)) ∧
  (∀ (s : State), s.node.power.vauxOn = true →
    Done (.vauxFault) s (((s.node.updPower (fun p => { p with vauxOn := false, vauxRetry := true, vauxAt := s.node.now })).logFree Ev.vauxFault).raise 7)) ∧
  (∀ (s : State), s.node.power.vauxRetry = true → Done (.vauxRetry) s ((s.node.upTo (s.node.power.vauxAt + ms 100)).setVaux true)) ∧
  (∀ (s : State), s.node.power.dieHigh = false → s.node.power.stage ≠ .off → s.node.power.stage ≠ .t0 →
    Done (.dieTempHigh) s (((s.node.updPower (fun p => { p with dieHigh := true })).logFree Ev.dieTempHigh).raise 8)) ∧
  (∀ (s : State), Done (.dieTempClear) s (s.node.updPower (fun p => { p with dieHigh := false }))) ∧
  (∀ (s : State), s.node.power.stage = .thermalWait → Done (.thermalRecover) s (s.node.updPower (fun p => { p with stage := .t1, dieHigh := false })))

/-- SPI frames, register writes, service frames, line mailbox frames, mailbox service and session ends complete; that what an event observes is an operand of its row is the model's choice, logs 5, 6 and 14. For each of these constructors of Instr exec answers a next state: spiWriteFrame, spiReadFrame, hsDoorbell, hsDone, hsRegisterWrite, svcRead, svcWrite, mailboxFrame, mailboxTake, sessionHalfOpenTimeout, sessionIdleTimeout. (R58, R59, R62, R65, R67, R68, R69, R70, R72, R75, R76) -/
def Obligations.HostTransportsComplete : Prop :=
  (∀ (s : State) (frame : List Nat), s.node.ifaceOn = true → s.node.lineHeld = false → u8 (toBytes frame) 0 = 0x02 → 1 ≤ (u16 (toBytes frame) 4) →
    (u16 (toBytes frame) 4) ≤ 512 → 9 + (u16 (toBytes frame) 4) ≤ (toBytes frame).length →
    u16 (toBytes frame) (6 + (u16 (toBytes frame) 4)) = (crc16 ((toBytes frame).take (6 + (u16 (toBytes frame) 4)))).toNat →
    regSpan (leNat (slice (toBytes frame) 1 3)) (u16 (toBytes frame) 4) = true →
    Done (.spiWriteFrame frame) s ((s.node.hsWrites 1 ((u16 (toBytes frame) 4) / 4) (leNat (slice (toBytes frame) 1 3)) (slice (toBytes frame) 6 (u16 (toBytes frame) 4))).drive [0xA5#8])) ∧
  (∀ (s : State) (frame : List Nat), s.node.ifaceOn = true → s.node.lineHeld = false → u8 (toBytes frame) 0 = 0x02 → 1 ≤ (u16 (toBytes frame) 4) →
    (u16 (toBytes frame) 4) ≤ 512 → 9 + (u16 (toBytes frame) 4) ≤ (toBytes frame).length →
    u16 (toBytes frame) (6 + (u16 (toBytes frame) 4)) = (crc16 ((toBytes frame).take (6 + (u16 (toBytes frame) 4)))).toNat →
    regSpan (leNat (slice (toBytes frame) 1 3)) (u16 (toBytes frame) 4) = false →
    apSpan (leNat (slice (toBytes frame) 1 3)) (u16 (toBytes frame) 4) = true →
    Done (.spiWriteFrame frame) s (((s.node.afterCopies (s.node.apAddr (leNat (slice (toBytes frame) 1 3))) (u16 (toBytes frame) 4)).write (s.node.apAddr (leNat (slice (toBytes frame) 1 3))) (slice (toBytes frame) 6 (u16 (toBytes frame) 4))).drive [0xA5#8])) ∧
  (∀ (s : State) (frame : List Nat), s.node.ifaceOn = true → s.node.lineHeld = false → u8 (toBytes frame) 0 = 0x0B → 1 ≤ (u16 (toBytes frame) 4) →
    (u16 (toBytes frame) 4) ≤ 512 → 7 ≤ (toBytes frame).length → regSpan (leNat (slice (toBytes frame) 1 3)) (u16 (toBytes frame) 4) = true →
    let d := s.node.hsReads 1 ((u16 (toBytes frame) 4) / 4) (leNat (slice (toBytes frame) 1 3)); Done (.spiReadFrame frame) s (s.node.readDrive (toBytes frame).length (d ++ leBytes 2 (crc16 ((toBytes frame).take 6 ++ d)).toNat))) ∧
  (∀ (s : State) (frame : List Nat), s.node.ifaceOn = true → s.node.lineHeld = false → u8 (toBytes frame) 0 = 0x0B → 1 ≤ (u16 (toBytes frame) 4) →
    (u16 (toBytes frame) 4) ≤ 512 → 7 ≤ (toBytes frame).length → regSpan (leNat (slice (toBytes frame) 1 3)) (u16 (toBytes frame) 4) = false →
    apSpan (leNat (slice (toBytes frame) 1 3)) (u16 (toBytes frame) 4) = true →
    (let r := s.node.useSram (s.node.apAddr (leNat (slice (toBytes frame) 1 3))) (u16 (toBytes frame) 4) Isl.line; r.1 = false →
    Done (.spiReadFrame frame) s (let d := r.2.read (r.2.apAddr (leNat (slice (toBytes frame) 1 3))) (u16 (toBytes frame) 4); r.2.readDrive (toBytes frame).length (d ++ leBytes 2 (crc16 ((toBytes frame).take 6 ++ d)).toNat)))) ∧
  (∀ (s : State) (svc : Bool) (v : Nat), s.node.ifaceOn = true → svc = true ∨ s.node.lineHeld = false →
    Done (.hsDoorbell svc v) s (s.node.ring (if svc then 2 else 1) v)) ∧
  (∀ (s : State) (svc : Bool) (v : Nat), s.node.ifaceOn = true → svc = true ∨ s.node.lineHeld = false →
    Done (.hsDone svc v) s (s.node.clearDoneBits (if svc then 2 else 1) v)) ∧
  (∀ (s : State) (svc : Bool) (off v : Nat), s.node.ifaceOn = true → svc = true ∨ s.node.lineHeld = false → off ≠ 0x08 → off ≠ 0x10 →
    Done (.hsRegisterWrite svc off v) s (s.node.hsWrite (if svc then 2 else 1) off v)) ∧
  (∀ (s : State) (frame : List Nat) (x : Nat × Nat × Nat × Bool), s.node.power.stage ≠ .off → s.node.power.stage ≠ .t0 →
    svcGood (toBytes frame) 0 = true → svcArray (u32 (toBytes frame) 1) (8 * u8 (toBytes frame) 5) = some x → u8 (toBytes frame) 0 = 0x31 →
    1 ≤ (8 * u8 (toBytes frame) 5) → (8 * u8 (toBytes frame) 5) ≤ 512 → (u32 (toBytes frame) 1) < 0x70000000 ∨ (u32 (toBytes frame) 1) % 4 = 0 →
    ((s.node.touchLatch (u32 (toBytes frame) 1) (u8 (toBytes frame) 0)).raise 5).arrayOff x.2.2.1 = false →
    (let r := ((s.node.touchLatch (u32 (toBytes frame) 1) 0x31).raise 5).useSram (u32 (toBytes frame) 1) (8 * u8 (toBytes frame) 5) x.2.2.1; r.1 = false →
    Done (.svcRead frame) s (let d := if 0x70000000 ≤ (u32 (toBytes frame) 1) then r.2.hsReads 2 ((8 * u8 (toBytes frame) 5) / 4) ((u32 (toBytes frame) 1) - 0x70000000) else (List.range (8 * u8 (toBytes frame) 5)).map (fun j => r.2.memByte ((u32 (toBytes frame) 1) + j)); r.2.answerSvc ([0xA5#8] ++ d ++ leBytes 2 (crc16 d).toNat)))) ∧
  (∀ (s : State) (frame : List Nat) (x : Nat × Nat × Nat × Bool), s.node.power.stage ≠ .off → s.node.power.stage ≠ .t0 →
    svcGood (toBytes frame) (8 * u8 (toBytes frame) 5) = true → svcArray (u32 (toBytes frame) 1) (8 * u8 (toBytes frame) 5) = some x →
    u8 (toBytes frame) 0 = 0x32 → 1 ≤ (8 * u8 (toBytes frame) 5) → (8 * u8 (toBytes frame) 5) ≤ 512 →
    (u32 (toBytes frame) 1) < 0x70000000 ∨ (u32 (toBytes frame) 1) % 4 = 0 →
    ((s.node.touchLatch (u32 (toBytes frame) 1) (u8 (toBytes frame) 0)).raise 5).arrayOff x.2.2.1 = false → x.2.2.2 = true →
    let n := (s.node.touchLatch (u32 (toBytes frame) 1) 0x32).raise 5; let n := if 0x70000000 ≤ (u32 (toBytes frame) 1) then n.hsWrites 2 ((8 * u8 (toBytes frame) 5) / 4) ((u32 (toBytes frame) 1) - 0x70000000) (slice (toBytes frame) 6 (8 * u8 (toBytes frame) 5)) else (n.afterCopies (u32 (toBytes frame) 1) (8 * u8 (toBytes frame) 5)).pokes (u32 (toBytes frame) 1) (slice (toBytes frame) 6 (8 * u8 (toBytes frame) 5)); Done (.svcWrite frame) s (n.answerSvc [0xA5#8])) ∧
  (∀ (s : State) (src : Nat) (frame : List Nat), s.node.runs Isl.line = true →
    (s.node.raise 2).bankRuns (bankOf (mbxAddr (u16 (toBytes frame) 6 / 16 % 16))) = true → 16 ≤ (toBytes frame).length →
    (s.node.mbx (u16 (toBytes frame) 6 / 16 % 16)).st ≠ .posted → (s.node.mbx (u16 (toBytes frame) 6 / 16 % 16)).st ≠ .executing →
    (s.node.raise 2).lineFits (u16 (toBytes frame) 6 / 16 % 16) (toBytes frame) = true →
    let len := min (u16 (toBytes frame) 4) 480; let n := (s.node.raise 2).write (mbxAddr (u16 (toBytes frame) 6 / 16 % 16)) (slice (toBytes frame) 0 (16 + len)); let n := if bit (u16 (toBytes frame) 6) 1 then n.write (mbxAddr (u16 (toBytes frame) 6 / 16 % 16) + 496) (slice (toBytes frame) (16 + len) 16) else n; Done (.mailboxFrame src frame) s (n.post (u16 (toBytes frame) 6 / 16 % 16) src)) ∧
  (∀ (s : State) (p m : Nat), s.node.executing < 8 → s.node.power.stage ≠ .bootFailed → s.node.coresRun = true → s.node.host.nextPosted = some (p, m) →
    let n := s.node.updHost (fun h => { h with posted := h.posted.put p ((h.posted.getD p []).drop 1), nextPath := (p + 1) % 3 }); let r := n.postFirmware (u16 (n.read (mbxAddr m) 2) 0); Done (.mailboxTake) s (if r.1 then r.2.takeRequest m else (r.2.takeRequest m).answer m Rs.busy 0 [])) ∧
  (∀ (s : State) (id : Nat) (x : Session), s.node.host.sessions.look id = some x → x.halfOpen = true →
    Done (.sessionHalfOpenTimeout id) s ((s.node.upTo (x.lastResp + sec 5)).updHost (fun h => { h with sessions := h.sessions.del id }))) ∧
  (∀ (s : State) (id : Nat) (x : Session), s.node.host.sessions.look id = some x → x.halfOpen = false → x.ended = false →
    Done (.sessionIdleTimeout id) s ((s.node.upTo (x.lastResp + sec s.node.host.idleTimeout)).endSession id))

/-- Identity, status, health and configuration commands complete and answer what the node holds; that a command row names its mailbox is the model's choice, log 11; that what an event observes is an operand of its row is the model's choice, logs 5, 6 and 14. For each of these constructors of Instr exec answers a next state: nodeIdent, nodeStatus, configRead, configWrite, nodeReset, nodeResetStandstill, healthRead. (R81, R477, R485, R499, R500) -/
def Obligations.NodeCommandsComplete : Prop :=
  (∀ (s : State) (path idx : Nat) (pl : List Byte), Serves s.node Cmd.nodeIdent path idx pl → Passes [badLen pl 0] →
    DoneOk (.nodeIdent path idx) s (s.node.begun path idx) path idx (leBytes 8 Config.serial.toNat ++ leBytes 4 ((s.node.begun path idx).island Isl.core).version.toNat ++ leBytes 2 0x0203 ++ leBytes 1 ownLevel ++ leBytes 1 ((s.node.begun path idx).mbx (path * 16 + idx)).role)) ∧
  (∀ (s : State) (path idx : Nat) (pl : List Byte), Serves s.node Cmd.nodeStatus path idx pl → Passes [badLen pl 0] →
    DoneOk (.nodeStatus path idx) s (s.node.begun path idx) path idx (leBytes 1 (b2n ((s.node.begun path idx).alarms != 0)) ++ leBytes 1 (s.node.begun path idx).hlth.cause ++ leBytes 2 0 ++ leBytes 4 (s.node.begun path idx).hlth.coreRestarts ++ leBytes 4 (s.node.begun path idx).hlth.deviceResets ++ leBytes 4 (s.node.begun path idx).alarms ++ leBytes 2 (s.node.begun path idx).hlth.seedBlocks ++ leBytes 2 (s.node.begun path idx).mem.sparesLeft ++ leBytes 2 (s.node.begun path idx).mem.freePages ++ leBytes 2 (s.node.begun path idx).hlth.readOnly.toNat ++ leBytes 8 (s.node.begun path idx).hlth.upSince)) ∧
  (∀ (s : State) (path idx : Nat) (pl img : List Byte), Serves s.node Cmd.configRead path idx pl →
    Passes [badLen pl 8, badIn (u16 pl 4) 1 468 4, badRes pl 6 2] →
    (if u32 pl 0 = 0 then some (s.node.begun path idx).configImage else (s.node.begun path idx).sec.snapshot) = some img →
    DoneOk (.configRead path idx) s ((s.node.begun path idx).updSec (fun x => { x with snapshot := some img })) path idx (leBytes 4 img.length ++ leBytes 4 0 ++ (img.drop (u32 pl 0)).take (u16 pl 4))) ∧
  (∀ (s : State) (path idx : Nat) (pl : List Byte), Serves s.node Cmd.configWrite path idx pl →
    Passes [((if u8 pl 0 = 1 then pl.length != 80 else decide (pl.length < 9)), Rs.lengthBad, 0), badIn (u8 pl 0) 0 1 0, (decide (2 ≤ u8 pl 1), Rs.paramReserved, 1), badRes pl 2 2] →
    u8 pl 0 = 0 → (s.node.begun path idx).cfgRo = false →
    Passes [badRange (u32 pl 4 != 0 && u32 pl 4 != (s.node.begun path idx).sec.cfgStaged.length) 4] →
    DoneOk (.configWrite path idx) s ((s.node.begun path idx).updSec (fun x => { x with cfgStaged := if u32 pl 4 = 0 then pl.drop 8 else x.cfgStaged ++ pl.drop 8 })) path idx []) ∧
  (∀ (s : State) (path idx : Nat) (pl : List Byte), Serves s.node Cmd.configWrite path idx pl →
    Passes [((if u8 pl 0 = 1 then pl.length != 80 else decide (pl.length < 9)), Rs.lengthBad, 0), badIn (u8 pl 0) 0 1 0, (decide (2 ≤ u8 pl 1), Rs.paramReserved, 1), badRes pl 2 2] →
    u8 pl 0 ≠ 0 → (s.node.begun path idx).cfgRo = false →
    Passes [badRange (!bit (u8 pl 1) 0 && !zeroAt pl 8 72) 8, (bit (u8 pl 1) 0 && !(s.node.begun path idx).ownerSigned (u64 pl 8) (slice pl 16 64), Rs.signatureInvalid, 0), badRange (!cfgHeaderOk (s.node.begun path idx).sec.cfgStaged) 0] →
    let img := (s.node.begun path idx).sec.cfgStaged; let n := (s.node.begun path idx).updSec (fun x => { x with cfgPending := some img, signedDigest := if bit (u8 pl 1) 0 then some (sm3Bytes img) else x.signedDigest }); DoneOk (.configWrite path idx) s (n.log Ev.configCommitted img.length (u32 img 12) (b2n (bit (u8 pl 1) 0))) path idx []) ∧
  (∀ (s : State) (path idx : Nat) (pl : List Byte), Serves s.node Cmd.nodeReset path idx pl →
    Passes ([badLen pl 4, badIn (u8 pl 0) 0 1 0, badRes pl 1 3] ++ (if u8 pl 0 = 0 then (s.node.begun path idx).opRefusals Isl.core .reset else [])) →
    u8 pl 0 = 0 → Done (.nodeReset path idx) s ((s.node.begun path idx).startOp Isl.core .reset 0 (some (path * 16 + idx)))) ∧
  (∀ (s : State) (path idx : Nat) (pl : List Byte), Serves s.node Cmd.nodeReset path idx pl →
    Passes ([badLen pl 4, badIn (u8 pl 0) 0 1 0, badRes pl 1 3] ++ (if u8 pl 0 = 0 then (s.node.begun path idx).opRefusals Isl.core .reset else [])) →
    u8 pl 0 = 1 →
    let n := (s.node.begun path idx).ok (path * 16 + idx) []; let n := n.updHost (fun h => { h with resetPending := true, resetFrom := n.now }); Done (.nodeReset path idx) s ([0, 1].foldl (fun n a => if (n.axis a).st = .standstill ∨ (n.axis a).st = .disabled then n else n.stopNow a 0) n)) ∧
  (∀ (s : State) (late : Bool), s.node.host.resetPending = true → s.node.axisMoves = false →
    Done (.nodeResetStandstill late) s ((s.node.downT1 0).deviceReset 2 .t1)) ∧
  (∀ (s : State) (late : Bool), s.node.host.resetPending = true → s.node.axisMoves = true → late = true →
    Done (.nodeResetStandstill late) s (((s.node.upTo (s.node.host.resetFrom + sec 30)).downT1 0).deviceReset 2 .t1)) ∧
  (∀ (s : State) (path idx : Nat) (pl : List Byte), Serves s.node Cmd.healthRead path idx pl →
    Passes [badLen pl 4, badIn (u8 pl 0) 0 3 0, badRes pl 1 3] →
    DoneOk (.healthRead path idx) s (s.node.begun path idx) path idx (if u8 pl 0 = 0 then (List.range 12).flatMap (fun b => leBytes 1 ((s.node.begun path idx).mem.spareUsed.getD b 0) ++ leBytes 1 (((s.node.begun path idx).mem.pageMap.filter (fun e => memOf e.1 == some 0 && bankOf e.1 == b)).length) ++ leBytes 2 0 ++ leBytes 4 ((s.node.begun path idx).recentOf (256 + b))) else if u8 pl 0 = 1 then (List.range 9).flatMap (fun i => leBytes 2 ((s.node.begun path idx).mem.retiredPages.getD (i + 1) 0) ++ leBytes 2 0 ++ leBytes 4 ((s.node.begun path idx).recentOf (i + 1))) else if u8 pl 0 = 2 then (List.range 11).flatMap (fun p => leBytes 2 (partBlocks p) ++ leBytes 2 ((s.node.begun path idx).hlth.retired p) ++ leBytes 4 ((s.node.begun path idx).hlth.erased p)) else leBytes 2 (s.node.begun path idx).hlth.seedBlocks ++ leBytes 2 (s.node.begun path idx).mem.sparesLeft ++ leBytes 2 (s.node.begun path idx).mem.freePages ++ leBytes 2 (s.node.begun path idx).healthySpares))

/-- Channel commands complete with their effect on the stall they name; that a command row names its mailbox is the model's choice, log 11. For each of these constructors of Instr exec answers a next state: chanRead, chanWrite, stallRead, stallWrite, chanStart, chanStop, chanSpare. (R83, R86, R88, R94, R98, R102) -/
def Obligations.ChannelCommandsComplete : Prop :=
  (∀ (s : State) (path idx : Nat) (pl : List Byte), Serves s.node Cmd.chanRead path idx pl →
    Passes ([(decide (pl.length < 4), Rs.lengthBad, 0), badIn (u16 pl 0) 1 23 0, badLen pl (4 + 2 * u16 pl 0), badRes pl 2 2] ++ (List.range (u16 pl 0)).map (fun i => badStall pl (4 + 2 * i))) →
    let ks := (List.range (u16 pl 0)).map (fun i => u16 pl (4 + 2 * i)); DoneOk (.chanRead path idx) s (ks.foldl Node.touch (s.node.begun path idx)) path idx (leBytes 2 (u16 pl 0) ++ [0, 0] ++ ks.flatMap (s.node.begun path idx).readEntry)) ∧
  (∀ (s : State) (path idx : Nat) (pl : List Byte), Serves s.node Cmd.chanWrite path idx pl →
    Passes [badLen pl 20, badStall pl 0, badRes pl 2 2, (((s.node.begun path idx).stall (u16 pl 0)).st == .fallow, Rs.chanFallow, 0), (((s.node.begun path idx).stall (u16 pl 0)).st != .running && ((s.node.begun path idx).stall (u16 pl 0)).st != .hold, Rs.busy, 0), (((s.node.begun path idx).stall (u16 pl 0)).readOnly, Rs.paramRange, 0), (!((s.node.begun path idx).stall (u16 pl 0)).takesWrite (BitVec.ofNat 64 (u64 pl 4)), Rs.paramRange, 4), (u64 pl 12 != 0 && decide (u64 pl 12 < (s.node.begun path idx).now ∨ (s.node.begun path idx).now + sec 60 < u64 pl 12), Rs.paramRange, 12)] →
    u64 pl 12 = 0 →
    DoneOk (.chanWrite path idx) s (((s.node.begun path idx).touch (u16 pl 0)).engineWrite (u16 pl 0) (BitVec.ofNat 64 (u64 pl 4)) (s.node.begun path idx).now) path idx []) ∧
  (∀ (s : State) (path idx : Nat) (pl : List Byte), Serves s.node Cmd.chanWrite path idx pl →
    Passes [badLen pl 20, badStall pl 0, badRes pl 2 2, (((s.node.begun path idx).stall (u16 pl 0)).st == .fallow, Rs.chanFallow, 0), (((s.node.begun path idx).stall (u16 pl 0)).st != .running && ((s.node.begun path idx).stall (u16 pl 0)).st != .hold, Rs.busy, 0), (((s.node.begun path idx).stall (u16 pl 0)).readOnly, Rs.paramRange, 0), (!((s.node.begun path idx).stall (u16 pl 0)).takesWrite (BitVec.ofNat 64 (u64 pl 4)), Rs.paramRange, 4), (u64 pl 12 != 0 && decide (u64 pl 12 < (s.node.begun path idx).now ∨ (s.node.begun path idx).now + sec 60 < u64 pl 12), Rs.paramRange, 12)] →
    u64 pl 12 ≠ 0 →
    DoneOk (.chanWrite path idx) s ((s.node.begun path idx).setStall (u16 pl 0) { (s.node.begun path idx).stall (u16 pl 0) with timedWrite := some (BitVec.ofNat 64 (u64 pl 4), u64 pl 12) }) path idx []) ∧
  (∀ (s : State) (path idx : Nat) (pl : List Byte), Serves s.node Cmd.stallRead path idx pl → Passes [badLen pl 4, badStall pl 0, badRes pl 2 2] →
    DoneOk (.stallRead path idx) s ((s.node.begun path idx).touch (u16 pl 0)) path idx ((s.node.begun path idx).view (u16 pl 0)).toBytes) ∧
  (∀ (s : State) (path idx : Nat) (pl : List Byte), Serves s.node Cmd.stallWrite path idx pl →
    Passes [badLen pl 68, badStall pl 0, badRes pl 2 2, (((s.node.begun path idx).stall (u16 pl 0)).active, Rs.chanBusy, 0), (((s.node.begun path idx).stall (u16 pl 0)).st == .fallow && decide (u16 pl 0 < 64), Rs.chanFallow, 0), (((s.node.begun path idx).stall (u16 pl 0)).isSpare, Rs.busy, 0), (!K.known (u8 (slice pl 4 64) 0) || (if u16 pl 0 < 64 then decide (u8 (slice pl 4 64) 0 ≠ fixedKind (u16 pl 0)) else decide (0 < u8 (slice pl 4 64) 0 ∧
    u8 (slice pl 4 64) 0 < 0x10)), Rs.paramRange, 4), ((reservedStall (slice pl 4 64)).isSome, Rs.paramReserved, 4 + (reservedStall (slice pl 4 64)).getD 0)] →
    (s.node.begun path idx).cfgRo = false →
    DoneOk (.stallWrite path idx) s (((s.node.begun path idx).storeStall (u16 pl 0) (slice pl 4 64)).storeCfg Cmd.stallWrite (u16 pl 0) pl) path idx []) ∧
  (∀ (s : State) (path idx : Nat) (pl : List Byte), Serves s.node Cmd.chanStart path idx pl →
    Passes [badLen pl 4, badStall pl 0, badRes pl 2 2, (((s.node.begun path idx).stall (u16 pl 0)).active, Rs.chanBusy, 0), (((s.node.begun path idx).stall (u16 pl 0)).st == .fallow, Rs.chanFallow, 0)] →
    ((s.node.begun path idx).tryStart (u16 pl 0)).1 = none →
    DoneOk (.chanStart path idx) s ((s.node.begun path idx).tryStart (u16 pl 0)).2 path idx []) ∧
  (∀ (s : State) (path idx : Nat) (pl : List Byte), Serves s.node Cmd.chanStop path idx pl →
    Passes [badLen pl 4, badStall pl 0, badRes pl 2 2, (((s.node.begun path idx).stall (u16 pl 0)).st == .fallow, Rs.chanFallow, 0)] →
    ((s.node.begun path idx).stall (u16 pl 0)).active = true →
    Done (.chanStop path idx) s ((s.node.begun path idx).stopChan (u16 pl 0) (some (path * 16 + idx)))) ∧
  (∀ (s : State) (path idx : Nat) (pl : List Byte), Serves s.node Cmd.chanStop path idx pl →
    Passes [badLen pl 4, badStall pl 0, badRes pl 2 2, (((s.node.begun path idx).stall (u16 pl 0)).st == .fallow, Rs.chanFallow, 0)] →
    ((s.node.begun path idx).stall (u16 pl 0)).active = false →
    DoneOk (.chanStop path idx) s (s.node.begun path idx) path idx [BitVec.ofNat 8 ((s.node.begun path idx).stall (u16 pl 0)).st.code, 0, 0, 0]) ∧
  (∀ (s : State) (path idx : Nat) (pl : List Byte), Serves s.node Cmd.chanSpare path idx pl →
    Passes [badLen pl 4, badStall pl 0, (decide (numStalls ≤ u16 pl 2 ∧ u16 pl 2 < 0xFFFE), Rs.paramRange, 2)] → u16 pl 2 < numStalls →
    Passes [(((s.node.begun path idx).stall (u16 pl 0)).kd != ((s.node.begun path idx).stall (u16 pl 2)).kd || u16 pl 0 == u16 pl 2, Rs.chanInvalid, 0), (((s.node.begun path idx).stall (u16 pl 2)).active, Rs.chanBusy, 0), (((s.node.begun path idx).stall (u16 pl 2)).st == .fallow, Rs.chanFallow, 0), (((s.node.begun path idx).stall (u16 pl 2)).isSpare, Rs.busy, 0), (decide (((s.node.begun path idx).stall (u16 pl 0)).spare.toNat < numStalls), Rs.busy, 0)] →
    (s.node.begun path idx).cfgRo = false →
    DoneOk (.chanSpare path idx) s (((((s.node.begun path idx).setStall (u16 pl 0) { ((s.node.begun path idx).stall (u16 pl 0)) with spare := BitVec.ofNat 16 (u16 pl 2) }).setStall (u16 pl 2) { ((s.node.begun path idx).stall (u16 pl 2)) with flags := ((s.node.begun path idx).stall (u16 pl 2)).flags ||| 2#16 }).keepPair (u16 pl 0) (u16 pl 2)).storeCfg Cmd.chanSpare (u16 pl 0) pl) path idx []) ∧
  (∀ (s : State) (path idx : Nat) (pl : List Byte), Serves s.node Cmd.chanSpare path idx pl →
    Passes [badLen pl 4, badStall pl 0, (decide (numStalls ≤ u16 pl 2 ∧ u16 pl 2 < 0xFFFE), Rs.paramRange, 2)] → u16 pl 2 = 0xFFFE →
    Passes [(decide (numStalls ≤ ((s.node.begun path idx).stall (u16 pl 0)).spare.toNat), Rs.notFound, 0)] → (s.node.begun path idx).cfgRo = false →
    DoneOk (.chanSpare path idx) s (((((s.node.begun path idx).setStall (u16 pl 0) { ((s.node.begun path idx).stall (u16 pl 0)) with spare := 0xFFFF }).setStall ((s.node.begun path idx).stall (u16 pl 0)).spare.toNat { (s.node.begun path idx).stall ((s.node.begun path idx).stall (u16 pl 0)).spare.toNat with flags := ((s.node.begun path idx).stall ((s.node.begun path idx).stall (u16 pl 0)).spare.toNat).flags &&& 0xFFFD#16 }).keepPair (u16 pl 0) ((s.node.begun path idx).stall (u16 pl 0)).spare.toNat).storeCfg Cmd.chanSpare (u16 pl 0) pl) path idx []) ∧
  (∀ (s : State) (path idx : Nat) (pl : List Byte), Serves s.node Cmd.chanSpare path idx pl →
    Passes [badLen pl 4, badStall pl 0, (decide (numStalls ≤ u16 pl 2 ∧ u16 pl 2 < 0xFFFE), Rs.paramRange, 2)] → u16 pl 2 = 0xFFFF →
    Passes [(((s.node.begun path idx).spareOf (u16 pl 0)).isNone, Rs.noSpare, 0)] → (s.node.begun path idx).cfgRo = false →
    DoneOk (.chanSpare path idx) s ((s.node.begun path idx).swapNow (u16 pl 0) ((s.node.begun path idx).stall (u16 pl 0)).spare.toNat) path idx [])

/-- IO_WATCHDOG and ADC_SEQUENCE complete in every op; that a command row names its mailbox is the model's choice, log 11. For each of these constructors of Instr exec answers a next state: ioWatchdog, adcSequence. (R169, R170, R187, R188, R476) -/
def Obligations.IoAndAnalogCommandsComplete : Prop :=
  (∀ (s : State) (path idx : Nat) (pl : List Byte), Serves s.node Cmd.ioWatchdog path idx pl →
    Passes ([badIn (u8 pl 0) 0 3 0, badLen pl (if decide (u8 pl 0 = 0) = true then 20 else 4)] ++ (if decide (u8 pl 0 = 0) = true then [badIn (u8 pl 1) 0 1 1, badIn (u16 pl 2) 0 1000 2] ++ (List.range 16).map (fun i => badRange (decide (2 < u8 pl (4 + i)) && u8 pl (4 + i) != 0xFF) (4 + i)) ++ (List.range 16).map (fun i => (u8 pl (4 + i) != 0xFF && ((s.node.begun path idx).stall ((s.node.begun path idx).outStall i)).active && ((s.node.begun path idx).stall ((s.node.begun path idx).outStall i)).safeState != u8 pl (4 + i), Rs.chanBusy, 4 + i)) else [badRes pl 1 3, badRange (u8 pl 0 == 1 && (s.node.begun path idx).fio.wdSource == 0) 0, (u8 pl 0 == 1 && (s.node.begun path idx).fio.wdSt == .expired, Rs.busy, 0)])) →
    u8 pl 0 = 0 → (s.node.begun path idx).cfgRo = false →
    let n := (List.range 16).foldl (fun n i => if u8 pl (4 + i) = 0xFF then n else n.setSafe i (u8 pl (4 + i))) (s.node.begun path idx); let n := n.updFio (fun x => { x with wdSource := u8 pl 1, wdTimeout := u16 pl 2 }); let n := if u16 pl 2 = 0 then (if n.fio.wdSt = .disabled then n.updFio (fun x => { x with wdSt := .disabled }) else (n.updFio (fun x => { x with wdSt := .disabled })).endWatchdog) else match n.fio.wdSt with | .suspended => n.updFio (fun x => { x with wdHeld := ms (u16 pl 2) }) | .expired => n | _ => n.updFio (fun x => x.rearm n.now); DoneOk (.ioWatchdog path idx) s (n.storeCfg Cmd.ioWatchdog 0 pl) path idx (n.storeCfg Cmd.ioWatchdog 0 pl).wdResults) ∧
  (∀ (s : State) (path idx : Nat) (pl : List Byte), Serves s.node Cmd.ioWatchdog path idx pl →
    Passes ([badIn (u8 pl 0) 0 3 0, badLen pl (if decide (u8 pl 0 = 0) = true then 20 else 4)] ++ (if decide (u8 pl 0 = 0) = true then [badIn (u8 pl 1) 0 1 1, badIn (u16 pl 2) 0 1000 2] ++ (List.range 16).map (fun i => badRange (decide (2 < u8 pl (4 + i)) && u8 pl (4 + i) != 0xFF) (4 + i)) ++ (List.range 16).map (fun i => (u8 pl (4 + i) != 0xFF && ((s.node.begun path idx).stall ((s.node.begun path idx).outStall i)).active && ((s.node.begun path idx).stall ((s.node.begun path idx).outStall i)).safeState != u8 pl (4 + i), Rs.chanBusy, 4 + i)) else [badRes pl 1 3, badRange (u8 pl 0 == 1 && (s.node.begun path idx).fio.wdSource == 0) 0, (u8 pl 0 == 1 && (s.node.begun path idx).fio.wdSt == .expired, Rs.busy, 0)])) →
    u8 pl 0 = 1 →
    let n := (s.node.begun path idx).updFio (fun x => x.feed (s.node.begun path idx).now); DoneOk (.ioWatchdog path idx) s n path idx n.wdResults) ∧
  (∀ (s : State) (path idx : Nat) (pl : List Byte), Serves s.node Cmd.ioWatchdog path idx pl →
    Passes ([badIn (u8 pl 0) 0 3 0, badLen pl (if decide (u8 pl 0 = 0) = true then 20 else 4)] ++ (if decide (u8 pl 0 = 0) = true then [badIn (u8 pl 1) 0 1 1, badIn (u16 pl 2) 0 1000 2] ++ (List.range 16).map (fun i => badRange (decide (2 < u8 pl (4 + i)) && u8 pl (4 + i) != 0xFF) (4 + i)) ++ (List.range 16).map (fun i => (u8 pl (4 + i) != 0xFF && ((s.node.begun path idx).stall ((s.node.begun path idx).outStall i)).active && ((s.node.begun path idx).stall ((s.node.begun path idx).outStall i)).safeState != u8 pl (4 + i), Rs.chanBusy, 4 + i)) else [badRes pl 1 3, badRange (u8 pl 0 == 1 && (s.node.begun path idx).fio.wdSource == 0) 0, (u8 pl 0 == 1 && (s.node.begun path idx).fio.wdSt == .expired, Rs.busy, 0)])) →
    u8 pl 0 = 2 →
    let n := if (s.node.begun path idx).fio.wdSt = .expired then ((s.node.begun path idx).updFio (fun x => x.rearm (s.node.begun path idx).now)).endWatchdog else (s.node.begun path idx); DoneOk (.ioWatchdog path idx) s n path idx n.wdResults) ∧
  (∀ (s : State) (path idx : Nat) (pl : List Byte), Serves s.node Cmd.ioWatchdog path idx pl →
    Passes ([badIn (u8 pl 0) 0 3 0, badLen pl (if decide (u8 pl 0 = 0) = true then 20 else 4)] ++ (if decide (u8 pl 0 = 0) = true then [badIn (u8 pl 1) 0 1 1, badIn (u16 pl 2) 0 1000 2] ++ (List.range 16).map (fun i => badRange (decide (2 < u8 pl (4 + i)) && u8 pl (4 + i) != 0xFF) (4 + i)) ++ (List.range 16).map (fun i => (u8 pl (4 + i) != 0xFF && ((s.node.begun path idx).stall ((s.node.begun path idx).outStall i)).active && ((s.node.begun path idx).stall ((s.node.begun path idx).outStall i)).safeState != u8 pl (4 + i), Rs.chanBusy, 4 + i)) else [badRes pl 1 3, badRange (u8 pl 0 == 1 && (s.node.begun path idx).fio.wdSource == 0) 0, (u8 pl 0 == 1 && (s.node.begun path idx).fio.wdSt == .expired, Rs.busy, 0)])) →
    u8 pl 0 = 3 → DoneOk (.ioWatchdog path idx) s (s.node.begun path idx) path idx (s.node.begun path idx).wdResults) ∧
  (∀ (s : State) (path idx : Nat) (pl : List Byte) (l : AdcList), Serves s.node Cmd.adcSequence path idx pl →
    l = ({ period := u32 pl 0, desc0 := u32 pl 4, desc1 := u32 pl 8, slots := (List.range (u8 pl 12)).map (slotAt pl) } : AdcList) →
    Passes ([(decide (pl.length < 16), Rs.lengthBad, 0), badIn (u32 pl 0) 1 65535 0, badIn (u8 pl 12) 0 32 12, badRes pl 13 3, badLen pl (16 + 4 * u8 pl 12)] ++ (List.range (u8 pl 12)).flatMap (fun i => [badIn (u8 pl (16 + 4 * i)) 0 23 (16 + 4 * i), badIn (u8 pl (17 + 4 * i)) 0 1 (17 + 4 * i), badIn (u8 pl (18 + 4 * i)) 0 4 (18 + 4 * i), badIn (u8 pl (19 + 4 * i)) 0 1 (19 + 4 * i)]) ++ [badRange (decide (u32 pl 0 * 1000 < 500 * slotTime l.slots 0 ∨ u32 pl 0 * 1000 < 500 * slotTime l.slots 1)) 0, badRange (l.desc 0 != 0 && !(s.node.begun path idx).descOk (l.desc 0) 0 l.slots) 4, badRange (l.desc 1 != 0 && !(s.node.begun path idx).descOk (l.desc 1) 1 l.slots) 8, badRange (!(s.node.begun path idx).descsApart l.desc0 l.desc1) 8] ++ (List.range (u8 pl 12)).map (fun i => badRange ((slotAt pl i).ring && l.desc (slotAt pl i).conv == 0) (16 + 4 * i)) ++ [(((s.node.begun path idx).slotless l.slots).isSome, Rs.chanBusy, ((s.node.begun path idx).slotless l.slots).getD 0)]) →
    (s.node.begun path idx).cfgRo = false →
    DoneOk (.adcSequence path idx) s (((s.node.begun path idx).updAdc (fun a => { a with pending := some (l, nextGrid ((s.node.begun path idx).now + us 10) (us (u32 pl 0))) })).storeCfg Cmd.adcSequence 0 pl) path idx [])

/-- Recipe and task commands complete with their effect on the store, the instances and the scheduler; that a command row names its mailbox is the model's choice, log 11; that what an event observes is an operand of its row is the model's choice, logs 5, 6 and 14. For each of these constructors of Instr exec answers a next state: recipeLoad, recipeRead, recipeStart, recipeStop, recipeStopTimeout, taskCancel, schedConfig. (R122, R124, R129, R132, R134, R135, R136) -/
def Obligations.RecipeCommandsComplete : Prop :=
  (∀ (s : State) (path idx : Nat) (pl : List Byte) (base : Option Nat), Serves s.node Cmd.recipeLoad path idx pl →
    base = (if decide (u16 pl 4 = 0) = true then (s.node.begun path idx).freeRun (u8 pl 0) (if decide (u16 pl 4 = 0) = true then u16 pl 2 else (s.node.begun path idx).recLen (u8 pl 0)) else some ((s.node.begun path idx).recBase (u8 pl 0))) →
    Passes [(decide (pl.length < 8), Rs.lengthBad, 0), badRange (decide (14 < u16 pl 6) || (u16 pl 6 == 0 && !(decide (u16 pl 4 = 0) && (if decide (u16 pl 4 = 0) = true then u16 pl 2 else (s.node.begun path idx).recLen (u8 pl 0)) == 0))) 6, (pl.length != 8 + 32 * u16 pl 6 && !(decide (u16 pl 4 = 0) && (if decide (u16 pl 4 = 0) = true then u16 pl 2 else (s.node.begun path idx).recLen (u8 pl 0)) == 0), Rs.lengthBad, 0), badRange (decide (u16 pl 4 = 0) && decide (63 < u8 pl 1) && u8 pl 1 != 0xFF) 1, badRange (decide (u16 pl 4 = 0) && decide (4096 < (if decide (u16 pl 4 = 0) = true then u16 pl 2 else (s.node.begun path idx).recLen (u8 pl 0)))) 2, ((s.node.begun path idx).rcp.insts.any (fun e => e.2.recipe == u8 pl 0 && (e.2.st == .armed || e.2.st == .running || e.2.st == .held)), Rs.busy, 0), badRange (!(decide (u16 pl 4 = 0) && (if decide (u16 pl 4 = 0) = true then u16 pl 2 else (s.node.begun path idx).recLen (u8 pl 0)) == 0) && decide ((if decide (u16 pl 4 = 0) = true then u16 pl 2 else (s.node.begun path idx).recLen (u8 pl 0)) < u16 pl 4 + u16 pl 6)) 4, badRange (decide (u16 pl 4 = 0) && u8 pl 1 != 0xFF && (List.range 256).any (fun q => q != u8 pl 0 && (s.node.begun path idx).recAuto q == u8 pl 1)) 1, badRange (!(decide (u16 pl 4 = 0) && (if decide (u16 pl 4 = 0) = true then u16 pl 2 else (s.node.begun path idx).recLen (u8 pl 0)) == 0) && base.isNone && !(s.node.begun path idx).runLost (u8 pl 0) ((if decide (u16 pl 4 = 0) = true then u16 pl 2 else (s.node.begun path idx).recLen (u8 pl 0)))) 2] →
    (s.node.begun path idx).partRo 3 = false → u16 pl 4 = 0 → u16 pl 2 = 0 →
    DoneOk (.recipeLoad path idx) s (((s.node.begun path idx).write (dirAddr (u8 pl 0)) (dirEntry 0 0 (u8 pl 1))).keepRecipe (u8 pl 0)) path idx []) ∧
  (∀ (s : State) (path idx : Nat) (pl : List Byte) (base : Option Nat) (b : Nat), Serves s.node Cmd.recipeLoad path idx pl →
    base = (if decide (u16 pl 4 = 0) = true then (s.node.begun path idx).freeRun (u8 pl 0) (if decide (u16 pl 4 = 0) = true then u16 pl 2 else (s.node.begun path idx).recLen (u8 pl 0)) else some ((s.node.begun path idx).recBase (u8 pl 0))) →
    Passes [(decide (pl.length < 8), Rs.lengthBad, 0), badRange (decide (14 < u16 pl 6) || (u16 pl 6 == 0 && !(decide (u16 pl 4 = 0) && (if decide (u16 pl 4 = 0) = true then u16 pl 2 else (s.node.begun path idx).recLen (u8 pl 0)) == 0))) 6, (pl.length != 8 + 32 * u16 pl 6 && !(decide (u16 pl 4 = 0) && (if decide (u16 pl 4 = 0) = true then u16 pl 2 else (s.node.begun path idx).recLen (u8 pl 0)) == 0), Rs.lengthBad, 0), badRange (decide (u16 pl 4 = 0) && decide (63 < u8 pl 1) && u8 pl 1 != 0xFF) 1, badRange (decide (u16 pl 4 = 0) && decide (4096 < (if decide (u16 pl 4 = 0) = true then u16 pl 2 else (s.node.begun path idx).recLen (u8 pl 0)))) 2, ((s.node.begun path idx).rcp.insts.any (fun e => e.2.recipe == u8 pl 0 && (e.2.st == .armed || e.2.st == .running || e.2.st == .held)), Rs.busy, 0), badRange (!(decide (u16 pl 4 = 0) && (if decide (u16 pl 4 = 0) = true then u16 pl 2 else (s.node.begun path idx).recLen (u8 pl 0)) == 0) && decide ((if decide (u16 pl 4 = 0) = true then u16 pl 2 else (s.node.begun path idx).recLen (u8 pl 0)) < u16 pl 4 + u16 pl 6)) 4, badRange (decide (u16 pl 4 = 0) && u8 pl 1 != 0xFF && (List.range 256).any (fun q => q != u8 pl 0 && (s.node.begun path idx).recAuto q == u8 pl 1)) 1, badRange (!(decide (u16 pl 4 = 0) && (if decide (u16 pl 4 = 0) = true then u16 pl 2 else (s.node.begun path idx).recLen (u8 pl 0)) == 0) && base.isNone && !(s.node.begun path idx).runLost (u8 pl 0) ((if decide (u16 pl 4 = 0) = true then u16 pl 2 else (s.node.begun path idx).recLen (u8 pl 0)))) 2] →
    (s.node.begun path idx).partRo 3 = false → u16 pl 4 = 0 → u16 pl 2 ≠ 0 → base = some b →
    let n := ((s.node.begun path idx).write (dirAddr (u8 pl 0)) (dirEntry b (u16 pl 2) (u8 pl 1))).writeSteps b 0 (List.replicate (32 * u16 pl 2) 0); DoneOk (.recipeLoad path idx) s ((n.writeSteps b (u16 pl 4) (slice pl 8 (32 * u16 pl 6))).keepRecipe (u8 pl 0)) path idx []) ∧
  (∀ (s : State) (path idx : Nat) (pl : List Byte) (base : Option Nat), Serves s.node Cmd.recipeLoad path idx pl →
    base = (if decide (u16 pl 4 = 0) = true then (s.node.begun path idx).freeRun (u8 pl 0) (if decide (u16 pl 4 = 0) = true then u16 pl 2 else (s.node.begun path idx).recLen (u8 pl 0)) else some ((s.node.begun path idx).recBase (u8 pl 0))) →
    Passes [(decide (pl.length < 8), Rs.lengthBad, 0), badRange (decide (14 < u16 pl 6) || (u16 pl 6 == 0 && !(decide (u16 pl 4 = 0) && (if decide (u16 pl 4 = 0) = true then u16 pl 2 else (s.node.begun path idx).recLen (u8 pl 0)) == 0))) 6, (pl.length != 8 + 32 * u16 pl 6 && !(decide (u16 pl 4 = 0) && (if decide (u16 pl 4 = 0) = true then u16 pl 2 else (s.node.begun path idx).recLen (u8 pl 0)) == 0), Rs.lengthBad, 0), badRange (decide (u16 pl 4 = 0) && decide (63 < u8 pl 1) && u8 pl 1 != 0xFF) 1, badRange (decide (u16 pl 4 = 0) && decide (4096 < (if decide (u16 pl 4 = 0) = true then u16 pl 2 else (s.node.begun path idx).recLen (u8 pl 0)))) 2, ((s.node.begun path idx).rcp.insts.any (fun e => e.2.recipe == u8 pl 0 && (e.2.st == .armed || e.2.st == .running || e.2.st == .held)), Rs.busy, 0), badRange (!(decide (u16 pl 4 = 0) && (if decide (u16 pl 4 = 0) = true then u16 pl 2 else (s.node.begun path idx).recLen (u8 pl 0)) == 0) && decide ((if decide (u16 pl 4 = 0) = true then u16 pl 2 else (s.node.begun path idx).recLen (u8 pl 0)) < u16 pl 4 + u16 pl 6)) 4, badRange (decide (u16 pl 4 = 0) && u8 pl 1 != 0xFF && (List.range 256).any (fun q => q != u8 pl 0 && (s.node.begun path idx).recAuto q == u8 pl 1)) 1, badRange (!(decide (u16 pl 4 = 0) && (if decide (u16 pl 4 = 0) = true then u16 pl 2 else (s.node.begun path idx).recLen (u8 pl 0)) == 0) && base.isNone && !(s.node.begun path idx).runLost (u8 pl 0) ((if decide (u16 pl 4 = 0) = true then u16 pl 2 else (s.node.begun path idx).recLen (u8 pl 0)))) 2] →
    (s.node.begun path idx).partRo 3 = false → u16 pl 4 ≠ 0 →
    DoneOk (.recipeLoad path idx) s (((s.node.begun path idx).writeSteps ((s.node.begun path idx).recBase (u8 pl 0)) (u16 pl 4) (slice pl 8 (32 * u16 pl 6))).keepRecipe (u8 pl 0)) path idx []) ∧
  (∀ (s : State) (path idx : Nat) (pl : List Byte), Serves s.node Cmd.recipeRead path idx pl →
    Passes [badLen pl 6, badRes pl 1 1, badRange (decide ((if decide (u8 pl 0 = 0xFF) = true then 64 else (s.node.begun path idx).recLen (u8 pl 0)) < u16 pl 2 + u16 pl 4)) 2, badIn (u16 pl 4) 1 (if decide (u8 pl 0 = 0xFF) = true then 4 else 14) 4] →
    u8 pl 0 = 0xFF →
    DoneOk (.recipeRead path idx) s (s.node.begun path idx) path idx (leBytes 2 64 ++ [0, 0] ++ (List.range (u16 pl 4)).flatMap (fun i => ((s.node.begun path idx).inst (u16 pl 2 + i)).record))) ∧
  (∀ (s : State) (path idx : Nat) (pl : List Byte), Serves s.node Cmd.recipeRead path idx pl →
    Passes [badLen pl 6, badRes pl 1 1, badRange (decide ((if decide (u8 pl 0 = 0xFF) = true then 64 else (s.node.begun path idx).recLen (u8 pl 0)) < u16 pl 2 + u16 pl 4)) 2, badIn (u16 pl 4) 1 (if decide (u8 pl 0 = 0xFF) = true then 4 else 14) 4] →
    u8 pl 0 ≠ 0xFF →
    DoneOk (.recipeRead path idx) s (s.node.begun path idx) path idx (leBytes 2 ((s.node.begun path idx).recLen (u8 pl 0)) ++ [0, 0] ++ (List.range (u16 pl 4)).flatMap (fun i => (s.node.begun path idx).stepBytes (u8 pl 0) (u16 pl 2 + i)))) ∧
  (∀ (s : State) (path idx : Nat) (pl : List Byte) (i : Nat), Serves s.node Cmd.recipeStart path idx pl →
    i = (if u8 pl 1 = 0xFF then (s.node.begun path idx).freeInst else some (u8 pl 1)).getD 0 →
    Passes [badLen pl 32, badRange (decide (63 < u8 pl 1) && u8 pl 1 != 0xFF) 1, badIn (u8 pl 2) 0 7 2, badRes pl 3 1, badIn (u16 pl 4) 0 1023 4, badRes pl 6 2, badIn (u32 pl 16) 1 1000000 16, badRes pl 20 4, ((s.node.begun path idx).recLen (u8 pl 0) == 0, Rs.notFound, 0), (u8 pl 1 != 0xFF && !(s.node.begun path idx).instEnded i, Rs.busy, 0), ((if u8 pl 1 = 0xFF then (s.node.begun path idx).freeInst else some (u8 pl 1)).isNone, Rs.instanceLimit, 0), badRange (u64 pl 8 != 0 && decide (u64 pl 8 < (s.node.begun path idx).now ∨ (s.node.begun path idx).now + sec 60 < u64 pl 8)) 8, (((s.node.begun path idx).recipeFault (u8 pl 0)).isSome, Rs.recipeInvalid, ((s.node.begun path idx).recipeFault (u8 pl 0)).getD 0)] →
    DoneOk (.recipeStart path idx) s ((s.node.begun path idx).startInst i (u8 pl 0) (u8 pl 2) (u16 pl 4) (u32 pl 16) (BitVec.ofNat 64 (u64 pl 24)) (if u64 pl 8 = 0 then (s.node.begun path idx).now else u64 pl 8) (decide ((s.node.begun path idx).now < u64 pl 8))) path idx [BitVec.ofNat 8 i, 0, 0, 0]) ∧
  (∀ (s : State) (path idx : Nat) (pl : List Byte), Serves s.node Cmd.recipeStop path idx pl →
    Passes [badLen pl 4, badIn (u8 pl 0) 0 63 0, badIn (u8 pl 1) 0 1 1, badRes pl 2 2, (((s.node.begun path idx).inst (u8 pl 0)).st == .free, Rs.notFound, 0)] →
    ((s.node.begun path idx).inst (u8 pl 0)).st = .running → u8 pl 1 = 0 →
    DoneOk (.recipeStop path idx) s ((s.node.begun path idx).endInst (u8 pl 0) true) path idx (stateResult .done)) ∧
  (∀ (s : State) (path idx : Nat) (pl : List Byte), Serves s.node Cmd.recipeStop path idx pl →
    Passes [badLen pl 4, badIn (u8 pl 0) 0 63 0, badIn (u8 pl 1) 0 1 1, badRes pl 2 2, (((s.node.begun path idx).inst (u8 pl 0)).st == .free, Rs.notFound, 0)] →
    ((s.node.begun path idx).inst (u8 pl 0)).st = .running → u8 pl 1 ≠ 0 →
    Done (.recipeStop path idx) s ((s.node.begun path idx).setInst (u8 pl 0) { ((s.node.begun path idx).inst (u8 pl 0)) with stopPending := true, stopWaiters := ((s.node.begun path idx).inst (u8 pl 0)).stopWaiters ++ [(path * 16 + idx)] })) ∧
  (∀ (s : State) (path idx : Nat) (pl : List Byte), Serves s.node Cmd.recipeStop path idx pl →
    Passes [badLen pl 4, badIn (u8 pl 0) 0 63 0, badIn (u8 pl 1) 0 1 1, badRes pl 2 2, (((s.node.begun path idx).inst (u8 pl 0)).st == .free, Rs.notFound, 0)] →
    ((s.node.begun path idx).inst (u8 pl 0)).st = .held →
    Done (.recipeStop path idx) s ((s.node.begun path idx).setInst (u8 pl 0) { ((s.node.begun path idx).inst (u8 pl 0)) with heldStops := ((s.node.begun path idx).inst (u8 pl 0)).heldStops ++ [((path * 16 + idx), u8 pl 1)] })) ∧
  (∀ (s : State) (path idx : Nat) (pl : List Byte), Serves s.node Cmd.recipeStop path idx pl →
    Passes [badLen pl 4, badIn (u8 pl 0) 0 63 0, badIn (u8 pl 1) 0 1 1, badRes pl 2 2, (((s.node.begun path idx).inst (u8 pl 0)).st == .free, Rs.notFound, 0)] →
    ((s.node.begun path idx).inst (u8 pl 0)).st = .armed →
    DoneOk (.recipeStop path idx) s ((s.node.begun path idx).endInst (u8 pl 0) true) path idx (stateResult .done)) ∧
  (∀ (s : State) (path idx : Nat) (pl : List Byte), Serves s.node Cmd.recipeStop path idx pl →
    Passes [badLen pl 4, badIn (u8 pl 0) 0 63 0, badIn (u8 pl 1) 0 1 1, badRes pl 2 2, (((s.node.begun path idx).inst (u8 pl 0)).st == .free, Rs.notFound, 0)] →
    ((s.node.begun path idx).inst (u8 pl 0)).st = .done → DoneOk (.recipeStop path idx) s (s.node.begun path idx) path idx (stateResult .done)) ∧
  (∀ (s : State) (i : Nat) (t : T64), ((s.node.inst i).stopWaiters.map (fun m => (s.node.mbx m).takenAt + sec 2)).min? = some t →
    Done (.recipeStopTimeout i) s (let n := s.node.upTo t; let due := (n.inst i).stopWaiters.filter (fun m => decide ((s.node.mbx m).takenAt + sec 2 ≤ n.now)); due.foldl (fun n m => n.ok m (stateResult .running)) (n.updInst i (fun x => { x with stopWaiters := x.stopWaiters.filter (fun m => !due.contains m) })))) ∧
  (∀ (s : State) (i : Nat), (s.node.inst i).stopWaiters = [] → Done (.recipeStopTimeout i) s s.node) ∧
  (∀ (s : State) (path idx : Nat) (pl : List Byte), Serves s.node Cmd.taskCancel path idx pl → Passes [badLen pl 4] →
    ((s.node.begun path idx).cancelTask (u32 pl 0)).1 = some true →
    DoneOk (.taskCancel path idx) s ((s.node.begun path idx).cancelTask (u32 pl 0)).2 path idx []) ∧
  (∀ (s : State) (path idx : Nat) (pl : List Byte), Serves s.node Cmd.schedConfig path idx pl →
    Passes ([badLen pl 12, badIn (u8 pl 0) 0 1 0, badIn (u8 pl 1) 0 7 1, badIn (u8 pl 2) 1 100 2, badRes pl 3 1] ++ (List.range 8).map (fun g => badIn (u8 pl (4 + g)) 1 255 (4 + g))) →
    (s.node.begun path idx).cfgRo = false →
    let r := match (s.node.begun path idx).rcp.newTick with | some (k, b) => if b ≤ (s.node.begun path idx).now then { (s.node.begun path idx).rcp with tick := k } else (s.node.begun path idx).rcp | none => (s.node.begun path idx).rcp; let r := { r with weighted := u8 pl 0 == 1, fwGroup := u8 pl 1, weights := (List.range 8).map (fun g => (g, u8 pl (4 + g))), newTick := if u8 pl 2 = r.tick then none else some (u8 pl 2, nextGrid ((s.node.begun path idx).now + 1) (us r.tick)) }; DoneOk (.schedConfig path idx) s ({ (s.node.begun path idx) with rcp := r }.storeCfg Cmd.schedConfig 0 pl) path idx [])

/-- Motion and drive commands complete with their effect on axes, encoders and stages; that a command row names its mailbox is the model's choice, log 11. For each of these constructors of Instr exec answers a next state: axisMove, axisStop, axisConfig, axisStatus, segmentLoad, gearSet. (R217, R222, R223, R225, R227, R230, R232, R235, R241) -/
def Obligations.MotionCommandsComplete : Prop :=
  (∀ (s : State) (path idx : Nat) (pl : List Byte), Serves s.node Cmd.axisMove path idx pl →
    Passes ([badLen pl 40, badIn (u8 pl 0) 0 1 0, (((s.node.begun path idx).moveBusy (u8 pl 0)).isSome, ((s.node.begun path idx).moveBusy (u8 pl 0)).getD 0, 0)] ++ (s.node.begun path idx).moveRanges (u8 pl 0) pl ++ [(((s.node.begun path idx).moveRefused (u8 pl 0) (u8 pl 1) (s64 pl 24) ((s.node.begun path idx).moveLims (u8 pl 0) pl)).isSome, ((s.node.begun path idx).moveRefused (u8 pl 0) (u8 pl 1) (s64 pl 24) ((s.node.begun path idx).moveLims (u8 pl 0) pl)).getD 0, 0), ((if u8 pl 1 = 4 then ((s.node.begun path idx).axis (u8 pl 0)).tableFault (segLims ((s.node.begun path idx).moveLims (u8 pl 0) pl)) ((s.node.begun path idx).axis (u8 pl 0)).pos else none).isSome, ((if u8 pl 1 = 4 then ((s.node.begun path idx).axis (u8 pl 0)).tableFault (segLims ((s.node.begun path idx).moveLims (u8 pl 0) pl)) ((s.node.begun path idx).axis (u8 pl 0)).pos else none).getD (0, 0)).1, ((if u8 pl 1 = 4 then ((s.node.begun path idx).axis (u8 pl 0)).tableFault (segLims ((s.node.begun path idx).moveLims (u8 pl 0) pl)) ((s.node.begun path idx).axis (u8 pl 0)).pos else none).getD (0, 0)).2)]) →
    u64 pl 32 = 0 →
    let r := (((s.node.begun path idx).upTo (s.node.begun path idx).nextTick).axisMotion (u8 pl 0) (s.node.begun path idx).nextTick).moveNow (u8 pl 0) (u8 pl 1) (s64 pl 24) ((s.node.begun path idx).moveLims (u8 pl 0) pl) (s.node.begun path idx).nextTick; DoneOk (.axisMove path idx) s r.2 path idx (moveResults (r.2.axis (u8 pl 0)).st (r.1 && u8 pl 1 != 3) (r.1 && u8 pl 1 == 3) (if u8 pl 1 = 2 ∨ u8 pl 1 = 4 then 0 else if u8 pl 1 = 3 then (match ((s.node.begun path idx).axis (u8 pl 0)).goal with | .position p => p | _ => 0) else ((s.node.begun path idx).axis (u8 pl 0)).endOf (u8 pl 1) (s64 pl 24)))) ∧
  (∀ (s : State) (path idx : Nat) (pl : List Byte), Serves s.node Cmd.axisMove path idx pl →
    Passes ([badLen pl 40, badIn (u8 pl 0) 0 1 0, (((s.node.begun path idx).moveBusy (u8 pl 0)).isSome, ((s.node.begun path idx).moveBusy (u8 pl 0)).getD 0, 0)] ++ (s.node.begun path idx).moveRanges (u8 pl 0) pl ++ [(((s.node.begun path idx).moveRefused (u8 pl 0) (u8 pl 1) (s64 pl 24) ((s.node.begun path idx).moveLims (u8 pl 0) pl)).isSome, ((s.node.begun path idx).moveRefused (u8 pl 0) (u8 pl 1) (s64 pl 24) ((s.node.begun path idx).moveLims (u8 pl 0) pl)).getD 0, 0), ((if u8 pl 1 = 4 then ((s.node.begun path idx).axis (u8 pl 0)).tableFault (segLims ((s.node.begun path idx).moveLims (u8 pl 0) pl)) ((s.node.begun path idx).axis (u8 pl 0)).pos else none).isSome, ((if u8 pl 1 = 4 then ((s.node.begun path idx).axis (u8 pl 0)).tableFault (segLims ((s.node.begun path idx).moveLims (u8 pl 0) pl)) ((s.node.begun path idx).axis (u8 pl 0)).pos else none).getD (0, 0)).1, ((if u8 pl 1 = 4 then ((s.node.begun path idx).axis (u8 pl 0)).tableFault (segLims ((s.node.begun path idx).moveLims (u8 pl 0) pl)) ((s.node.begun path idx).axis (u8 pl 0)).pos else none).getD (0, 0)).2)]) →
    u64 pl 32 ≠ 0 →
    let l := ((s.node.begun path idx).moveLims (u8 pl 0) pl); DoneOk (.axisMove path idx) s ((s.node.begun path idx).updAxis (u8 pl 0) (fun x => { x with timed := x.timed ++ [.move (u8 pl 1) l.1 l.2.1 l.2.2.1 l.2.2.2 (s64 pl 24) (u64 pl 32)] })) path idx (moveResults ((s.node.begun path idx).axis (u8 pl 0)).st false false (if u8 pl 1 = 2 ∨ u8 pl 1 = 4 then 0 else if u8 pl 1 = 3 then (match ((s.node.begun path idx).axis (u8 pl 0)).goal with | .position p => p | _ => 0) else ((s.node.begun path idx).axis (u8 pl 0)).endOf (u8 pl 1) (s64 pl 24)))) ∧
  (∀ (s : State) (path idx : Nat) (pl : List Byte), Serves s.node Cmd.axisStop path idx pl →
    Passes [badLen pl 12, badIn (u8 pl 0) 0 1 0, badIn (u8 pl 1) 0 2 1, badRes pl 2 2, badInstant (s.node.begun path idx) (u64 pl 4) 4] → u64 pl 4 = 0 →
    let n := (s.node.begun path idx).updAxis (u8 pl 0) (fun x => { x with stopWaiters := x.stopWaiters ++ [(path * 16 + idx)] }); Done (.axisStop path idx) s (((n.upTo n.nextTick).axisMotion (u8 pl 0) n.nextTick).stopNow (u8 pl 0) (u8 pl 1))) ∧
  (∀ (s : State) (path idx : Nat) (pl : List Byte), Serves s.node Cmd.axisStop path idx pl →
    Passes [badLen pl 12, badIn (u8 pl 0) 0 1 0, badIn (u8 pl 1) 0 2 1, badRes pl 2 2, badInstant (s.node.begun path idx) (u64 pl 4) 4] → u64 pl 4 ≠ 0 →
    let n := (s.node.begun path idx).updAxis (u8 pl 0) (fun x => { x with stopWaiters := x.stopWaiters ++ [(path * 16 + idx)] }); Done (.axisStop path idx) s (n.updAxis (u8 pl 0) (fun x => { x with timed := x.timed ++ [.stop (u8 pl 1) (u64 pl 4)] }))) ∧
  (∀ (s : State) (path idx : Nat) (pl : List Byte), Serves s.node Cmd.axisConfig path idx pl →
    Passes [badLen pl 96, badIn (u8 pl 0) 0 1 0, badIn (u8 pl 1) 0 2 1, badRes pl 2 2, badRes pl 84 4] → u8 pl 1 = 0 →
    Passes ([(((s.node.begun path idx).stall ((s.node.begun path idx).axisStall (u8 pl 0))).active, Rs.chanBusy, 0)] ++ axisCfgChecks pl ++ [badRange (u64 pl 88 != 0) 88]) →
    (s.node.begun path idx).cfgRo = false →
    DoneOk (.axisConfig path idx) s (((s.node.begun path idx).updAxis (u8 pl 0) (fun x => { x with cfg := AxisCfg.ofBytes pl, configured := true })).storeCfg Cmd.axisConfig (u8 pl 0) pl) path idx []) ∧
  (∀ (s : State) (path idx : Nat) (pl : List Byte), Serves s.node Cmd.axisConfig path idx pl →
    Passes [badLen pl 96, badIn (u8 pl 0) 0 1 0, badIn (u8 pl 1) 0 2 1, badRes pl 2 2, badRes pl 84 4] → u8 pl 1 = 1 →
    Passes [(((s.node.begun path idx).stall ((s.node.begun path idx).axisStall (u8 pl 0))).st == .fallow, Rs.chanFallow, 0), (((s.node.begun path idx).axis (u8 pl 0)).st != .standstill && ((s.node.begun path idx).axis (u8 pl 0)).st != .disabled, Rs.axisMoving, 0)] →
    let n := (s.node.begun path idx).setPosition (u8 pl 0) (s64 pl 88); let k := (match (s.node.begun path idx).encOf (u8 pl 0) with | some i => ((s.node.begun path idx).stall ((s.node.begun path idx).encStall i)).pf 8 1 == 2 | none => false); DoneOk (.axisConfig path idx) s (if k = true then n.storeCfg Cmd.axisConfig ((u8 pl 0) + 2) pl else n) path idx []) ∧
  (∀ (s : State) (path idx : Nat) (pl : List Byte), Serves s.node Cmd.axisConfig path idx pl →
    Passes [badLen pl 96, badIn (u8 pl 0) 0 1 0, badIn (u8 pl 1) 0 2 1, badRes pl 2 2, badRes pl 84 4] → u8 pl 1 = 2 → u64 pl 88 = 0 →
    DoneOk (.axisConfig path idx) s (s.node.begun path idx) path idx (((s.node.begun path idx).axis (u8 pl 0)).cfg.toBytes (u8 pl 0))) ∧
  (∀ (s : State) (path idx : Nat) (pl : List Byte), Serves s.node Cmd.axisStatus path idx pl →
    Passes [badLen pl 4, badIn (u8 pl 0) 0 1 0, badRes pl 1 3] →
    let x := ((s.node.begun path idx).axis (u8 pl 0)); let pos := roundDiv x.shown.1 (2 ^ 32); DoneOk (.axisStatus path idx) s (s.node.begun path idx) path idx ([BitVec.ofNat 8 x.st.code, BitVec.ofNat 8 (b2n x.referenced + 2 * b2n x.atTarget + 4 * b2n x.overlay.isSome + 8 * b2n x.limit + 16 * b2n (!x.timed.isEmpty || x.gear.change.isSome) + 32 * b2n (x.st == .geared))] ++ leBytes 2 x.segAt ++ leBytes 4 (ofSigned 32 (clampI minS32 maxS32 (ratRound (ratOf x.shown.2.1 * 256)))) ++ leBytes 4 (ofSigned 32 (clampI minS32 maxS32 (ratRound (ratOf x.shown.2.2)))) ++ leBytes 8 (ofSigned 64 pos) ++ leBytes 8 (ofSigned 64 (match x.goal with | .position p => p | _ => 0)) ++ leBytes 8 (ofSigned 64 (((s.node.begun path idx).encPos (u8 pl 0)).getD 0)) ++ leBytes 4 (ofSigned 32 (clampI minS32 maxS32 ((((s.node.begun path idx).encPos (u8 pl 0)).map (fun e => pos - e)).getD 0))) ++ leBytes 4 0 ++ leBytes 8 x.tick)) ∧
  (∀ (s : State) (path idx : Nat) (pl : List Byte), Serves s.node Cmd.segmentLoad path idx pl →
    Passes [(decide (pl.length < 8), Rs.lengthBad, 0), badIn (u8 pl 0) 0 1 0, badRes pl 1 1, badRange (u16 pl 4 == 0 && decide ((if u16 pl 4 = 0 then u16 pl 2 else ((s.node.begun path idx).axis (u8 pl 0)).segLen) < 2 ∨ 4096 < (if u16 pl 4 = 0 then u16 pl 2 else ((s.node.begun path idx).axis (u8 pl 0)).segLen))) 2, badIn (u16 pl 6) 1 29 6, badLen pl (8 + 16 * u16 pl 6), (((s.node.begun path idx).axis (u8 pl 0)).st == .segment || (((s.node.begun path idx).axis (u8 pl 0)).st == .geared || ((s.node.begun path idx).axis (u8 pl 0)).st == .syncing) && ((s.node.begun path idx).axis (u8 pl 0)).gear.cam, Rs.busy, 0), badRange (decide ((if u16 pl 4 = 0 then u16 pl 2 else ((s.node.begun path idx).axis (u8 pl 0)).segLen) < u16 pl 4 + u16 pl 6)) 4] →
    (s.node.begun path idx).partRo 3 = false →
    let seg := (List.range (u16 pl 6)).foldl (fun sg i => Tbl.put sg (u16 pl 4 + i) (u32 pl (8 + 16 * i), s32 pl (8 + 16 * i + 4), s64 pl (8 + 16 * i + 8))) (if u16 pl 4 = 0 then [] else ((s.node.begun path idx).axis (u8 pl 0)).seg); DoneOk (.segmentLoad path idx) s ((s.node.begun path idx).updAxis (u8 pl 0) (fun x => { x with seg := seg, segLen := (if u16 pl 4 = 0 then u16 pl 2 else ((s.node.begun path idx).axis (u8 pl 0)).segLen) })) path idx []) ∧
  (∀ (s : State) (path idx : Nat) (pl : List Byte), Serves s.node Cmd.gearSet path idx pl →
    Passes [badLen pl 40, badIn (u8 pl 0) 0 1 0, badIn (u8 pl 1) 0 2 1, (decide (16 ≤ u8 pl 3), Rs.paramReserved, 3), badRes pl 6 2, badRes pl 28 4] →
    u8 pl 1 = 0 →
    Passes ((((s.node.begun path idx).moveBusy (u8 pl 0)).isSome, ((s.node.begun path idx).moveBusy (u8 pl 0)).getD 0, 0) :: (s.node.begun path idx).gearChecks pl) →
    (((s.node.begun path idx).axis (u8 pl 0)).st == .geared || ((s.node.begun path idx).axis (u8 pl 0)).st == .syncing) = false →
    Passes [(((s.node.begun path idx).axis (u8 pl 0)).st == .segment || (((s.node.begun path idx).axis (u8 pl 0)).st != .standstill && !((((s.node.begun path idx).upTo (s.node.begun path idx).nextTick).axisMotion (u8 pl 0) (s.node.begun path idx).nextTick).newGear (u8 pl 0) pl (s.node.begun path idx).nextTick).sync), Rs.axisMoving, 0), ((if ((((s.node.begun path idx).upTo (s.node.begun path idx).nextTick).axisMotion (u8 pl 0) (s.node.begun path idx).nextTick).newGear (u8 pl 0) pl (s.node.begun path idx).nextTick).cam then ((s.node.begun path idx).axis (u8 pl 0)).camFault ((((s.node.begun path idx).upTo (s.node.begun path idx).nextTick).axisMotion (u8 pl 0) (s.node.begun path idx).nextTick).newGear (u8 pl 0) pl (s.node.begun path idx).nextTick).repeats else none).isSome, ((if ((((s.node.begun path idx).upTo (s.node.begun path idx).nextTick).axisMotion (u8 pl 0) (s.node.begun path idx).nextTick).newGear (u8 pl 0) pl (s.node.begun path idx).nextTick).cam then ((s.node.begun path idx).axis (u8 pl 0)).camFault ((((s.node.begun path idx).upTo (s.node.begun path idx).nextTick).axisMotion (u8 pl 0) (s.node.begun path idx).nextTick).newGear (u8 pl 0) pl (s.node.begun path idx).nextTick).repeats else none).getD (0, 0)).1, ((if ((((s.node.begun path idx).upTo (s.node.begun path idx).nextTick).axisMotion (u8 pl 0) (s.node.begun path idx).nextTick).newGear (u8 pl 0) pl (s.node.begun path idx).nextTick).cam then ((s.node.begun path idx).axis (u8 pl 0)).camFault ((((s.node.begun path idx).upTo (s.node.begun path idx).nextTick).axisMotion (u8 pl 0) (s.node.begun path idx).nextTick).newGear (u8 pl 0) pl (s.node.begun path idx).nextTick).repeats else none).getD (0, 0)).2)] →
    ((((s.node.begun path idx).upTo (s.node.begun path idx).nextTick).axisMotion (u8 pl 0) (s.node.begun path idx).nextTick).newGear (u8 pl 0) pl (s.node.begun path idx).nextTick).sync = true ∨ (if bit (u8 pl 3) 3 then ratioStep ((s.node.begun path idx).masterSpeed ((((s.node.begun path idx).upTo (s.node.begun path idx).nextTick).axisMotion (u8 pl 0) (s.node.begun path idx).nextTick).newGear (u8 pl 0) pl (s.node.begun path idx).nextTick)) 0 1 ((((s.node.begun path idx).upTo (s.node.begun path idx).nextTick).axisMotion (u8 pl 0) (s.node.begun path idx).nextTick).newGear (u8 pl 0) pl (s.node.begun path idx).nextTick).num ((((s.node.begun path idx).upTo (s.node.begun path idx).nextTick).axisMotion (u8 pl 0) (s.node.begun path idx).nextTick).newGear (u8 pl 0) pl (s.node.begun path idx).nextTick).den else 0) ≤ vel ((s.node.begun path idx).axis (u8 pl 0)).cfg.vstart →
    let n := (((s.node.begun path idx).upTo (s.node.begun path idx).nextTick).axisMotion (u8 pl 0) (s.node.begun path idx).nextTick).engage (u8 pl 0) { ((((s.node.begun path idx).upTo (s.node.begun path idx).nextTick).axisMotion (u8 pl 0) (s.node.begun path idx).nextTick).newGear (u8 pl 0) pl (s.node.begun path idx).nextTick) with step := ratRound ((if bit (u8 pl 3) 3 then ratioStep ((s.node.begun path idx).masterSpeed ((((s.node.begun path idx).upTo (s.node.begun path idx).nextTick).axisMotion (u8 pl 0) (s.node.begun path idx).nextTick).newGear (u8 pl 0) pl (s.node.begun path idx).nextTick)) 0 1 ((((s.node.begun path idx).upTo (s.node.begun path idx).nextTick).axisMotion (u8 pl 0) (s.node.begun path idx).nextTick).newGear (u8 pl 0) pl (s.node.begun path idx).nextTick).num ((((s.node.begun path idx).upTo (s.node.begun path idx).nextTick).axisMotion (u8 pl 0) (s.node.begun path idx).nextTick).newGear (u8 pl 0) pl (s.node.begun path idx).nextTick).den else 0) * 256) } (((s.node.begun path idx).axis (u8 pl 0)).st != .standstill || decide (vel ((s.node.begun path idx).axis (u8 pl 0)).cfg.vstart < (if bit (u8 pl 3) 3 then ratioStep ((s.node.begun path idx).masterSpeed ((((s.node.begun path idx).upTo (s.node.begun path idx).nextTick).axisMotion (u8 pl 0) (s.node.begun path idx).nextTick).newGear (u8 pl 0) pl (s.node.begun path idx).nextTick)) 0 1 ((((s.node.begun path idx).upTo (s.node.begun path idx).nextTick).axisMotion (u8 pl 0) (s.node.begun path idx).nextTick).newGear (u8 pl 0) pl (s.node.begun path idx).nextTick).num ((((s.node.begun path idx).upTo (s.node.begun path idx).nextTick).axisMotion (u8 pl 0) (s.node.begun path idx).nextTick).newGear (u8 pl 0) pl (s.node.begun path idx).nextTick).den else 0))); DoneOk (.gearSet path idx) s n path idx (n.axis (u8 pl 0)).gearResults) ∧
  (∀ (s : State) (path idx : Nat) (pl : List Byte), Serves s.node Cmd.gearSet path idx pl →
    Passes [badLen pl 40, badIn (u8 pl 0) 0 1 0, badIn (u8 pl 1) 0 2 1, (decide (16 ≤ u8 pl 3), Rs.paramReserved, 3), badRes pl 6 2, badRes pl 28 4] →
    u8 pl 1 = 0 →
    Passes ((((s.node.begun path idx).moveBusy (u8 pl 0)).isSome, ((s.node.begun path idx).moveBusy (u8 pl 0)).getD 0, 0) :: (s.node.begun path idx).gearChecks pl) →
    (((s.node.begun path idx).axis (u8 pl 0)).st == .geared || ((s.node.begun path idx).axis (u8 pl 0)).st == .syncing) = true →
    bit (u8 pl 3) 3 = false →
    let x := ((s.node.begun path idx).axis (u8 pl 0)); let sp := (s.node.begun path idx).masterSpeed x.gear; let mc := s64 pl 16; let m0 := x.gear.lastMaster; let n := (s.node.begun path idx).updAxis (u8 pl 0) (fun x => { x with timed := [], gear := { x.gear with change := some (mc, s32 pl 8, u32 pl 12), behind := decide ((0 < sp ∧ mc ≤ m0) ∨ (sp < 0 ∧ m0 ≤ mc)), flags := (x.gear.flags &&& 0xFE#8) ||| (if bit (u8 pl 3) 0 then 1#8 else 0#8) } }); DoneOk (.gearSet path idx) s n path idx (n.axis (u8 pl 0)).gearResults) ∧
  (∀ (s : State) (path idx : Nat) (pl : List Byte), Serves s.node Cmd.gearSet path idx pl →
    Passes [badLen pl 40, badIn (u8 pl 0) 0 1 0, badIn (u8 pl 1) 0 2 1, (decide (16 ≤ u8 pl 3), Rs.paramReserved, 3), badRes pl 6 2, badRes pl 28 4] →
    u8 pl 1 = 0 →
    Passes ((((s.node.begun path idx).moveBusy (u8 pl 0)).isSome, ((s.node.begun path idx).moveBusy (u8 pl 0)).getD 0, 0) :: (s.node.begun path idx).gearChecks pl) →
    (((s.node.begun path idx).axis (u8 pl 0)).st == .geared || ((s.node.begun path idx).axis (u8 pl 0)).st == .syncing) = true →
    bit (u8 pl 3) 3 = true →
    bit (u8 pl 3) 0 = true ∨ (ratioStep ((s.node.begun path idx).masterSpeed ((s.node.begun path idx).axis (u8 pl 0)).gear) ((s.node.begun path idx).axis (u8 pl 0)).gear.num ((s.node.begun path idx).axis (u8 pl 0)).gear.den (s32 pl 8) (u32 pl 12)) ≤ vel ((s.node.begun path idx).axis (u8 pl 0)).cfg.vstart →
    let n := ((((s.node.begun path idx).upTo (s.node.begun path idx).nextTick).axisMotion (u8 pl 0) (s.node.begun path idx).nextTick).updAxis (u8 pl 0) (fun x => { x with timed := [], gear := { x.gear.setRatio (s32 pl 8) (u32 pl 12) with flags := (((s.node.begun path idx).axis (u8 pl 0)).gear.flags &&& 0xFE#8) ||| (if bit (u8 pl 3) 0 then 1#8 else 0#8) } })).judgeStep (u8 pl 0) (ratioStep ((s.node.begun path idx).masterSpeed ((s.node.begun path idx).axis (u8 pl 0)).gear) ((s.node.begun path idx).axis (u8 pl 0)).gear.num ((s.node.begun path idx).axis (u8 pl 0)).gear.den (s32 pl 8) (u32 pl 12)) (s.node.begun path idx).nextTick; DoneOk (.gearSet path idx) s n path idx (n.axis (u8 pl 0)).gearResults) ∧
  (∀ (s : State) (path idx : Nat) (pl : List Byte), Serves s.node Cmd.gearSet path idx pl →
    Passes [badLen pl 40, badIn (u8 pl 0) 0 1 0, badIn (u8 pl 1) 0 2 1, (decide (16 ≤ u8 pl 3), Rs.paramReserved, 3), badRes pl 6 2, badRes pl 28 4] →
    u8 pl 1 = 1 →
    let n := if (((s.node.begun path idx).axis (u8 pl 0)).st == .geared || ((s.node.begun path idx).axis (u8 pl 0)).st == .syncing) = true then (((s.node.begun path idx).upTo (s.node.begun path idx).nextTick).axisMotion (u8 pl 0) (s.node.begun path idx).nextTick).moveAt (u8 pl 0) 0 ((s.node.begun path idx).axis (u8 pl 0)).cfg.defaults else (s.node.begun path idx); DoneOk (.gearSet path idx) s n path idx (n.axis (u8 pl 0)).gearResults) ∧
  (∀ (s : State) (path idx : Nat) (pl : List Byte), Serves s.node Cmd.gearSet path idx pl →
    Passes [badLen pl 40, badIn (u8 pl 0) 0 1 0, badIn (u8 pl 1) 0 2 1, (decide (16 ≤ u8 pl 3), Rs.paramReserved, 3), badRes pl 6 2, badRes pl 28 4] →
    u8 pl 1 = 2 → DoneOk (.gearSet path idx) s (s.node.begun path idx) path idx ((s.node.begun path idx).axis (u8 pl 0)).gearResults)

/-- POS_COMPARE, POS_LATCH and DRIVE_CONFIG complete in every op; that a command row names its mailbox is the model's choice, log 11. For each of these constructors of Instr exec answers a next state: posCompare, posLatch, driveConfig. (R206, R207, R210, R212, R246, R250, R255) -/
def Obligations.PositionAndDriveCommandsComplete : Prop :=
  (∀ (s : State) (path idx : Nat) (pl : List Byte), Serves s.node Cmd.posCompare path idx pl →
    Passes ([badIn (u8 pl 0) 0 1 0, badIn (u8 pl 1) 0 1 1, badIn (u8 pl 2) 0 2 2, badLen pl (if (decide (u8 pl 2 = 0)) = true then 24 else 4)] ++ [(decide (4 ≤ u8 pl 3), Rs.paramReserved, 3)] ++ (if (decide (u8 pl 2 = 0)) = true then [badRange (decide (63 < u8 pl 16) && u8 pl 16 != 0xFF) 16, badRes pl 17 1] else []) ++ (s.node.begun path idx).posRefused (u8 pl 0) ++ (if (decide (u8 pl 2 = 0)) = true then [badRange (bit (u8 pl 3) 1 && !bit (u8 pl 3) 0) 3, badRange (if bit (u8 pl 3) 0 = true then decide (u32 pl 4 < 1 ∨ 2147483647 < u32 pl 4) else u32 pl 4 != 0) 4, badRange (!(u16 pl 18 == noStall || (decide (u16 pl 18 < numStalls) && ((s.node.begun path idx).stall (u16 pl 18)).isOut && !((s.node.begun path idx).stall (u16 pl 18)).pwm))) 18, badRange (if u16 pl 18 = noStall then u32 pl 20 != 0 else decide (u32 pl 20 < 1 ∨ 1000000 < u32 pl 20)) 20] else [])) →
    u8 pl 2 = 0 →
    let y : Compare := { (((s.node.begun path idx).enc (u8 pl 0)).compare (u8 pl 1)) with armed := true, auto := bit (u8 pl 3) 0, catchUp := bit (u8 pl 3) 1, spacing := u32 pl 4, value := s64 pl 8, flag := u8 pl 16, pulse := u16 pl 18, width := u32 pl 20, hits := 0, skipped := 0 }; let n := (s.node.begun path idx).armCompare (u8 pl 0) (u8 pl 1) y; DoneOk (.posCompare path idx) s n path idx ((n.enc (u8 pl 0)).compare (u8 pl 1)).results) ∧
  (∀ (s : State) (path idx : Nat) (pl : List Byte), Serves s.node Cmd.posCompare path idx pl →
    Passes ([badIn (u8 pl 0) 0 1 0, badIn (u8 pl 1) 0 1 1, badIn (u8 pl 2) 0 2 2, badLen pl (if (decide (u8 pl 2 = 0)) = true then 24 else 4)] ++ [(decide (4 ≤ u8 pl 3), Rs.paramReserved, 3)] ++ (if (decide (u8 pl 2 = 0)) = true then [badRange (decide (63 < u8 pl 16) && u8 pl 16 != 0xFF) 16, badRes pl 17 1] else []) ++ (s.node.begun path idx).posRefused (u8 pl 0) ++ (if (decide (u8 pl 2 = 0)) = true then [badRange (bit (u8 pl 3) 1 && !bit (u8 pl 3) 0) 3, badRange (if bit (u8 pl 3) 0 = true then decide (u32 pl 4 < 1 ∨ 2147483647 < u32 pl 4) else u32 pl 4 != 0) 4, badRange (!(u16 pl 18 == noStall || (decide (u16 pl 18 < numStalls) && ((s.node.begun path idx).stall (u16 pl 18)).isOut && !((s.node.begun path idx).stall (u16 pl 18)).pwm))) 18, badRange (if u16 pl 18 = noStall then u32 pl 20 != 0 else decide (u32 pl 20 < 1 ∨ 1000000 < u32 pl 20)) 20] else [])) →
    u8 pl 2 = 1 →
    let y : Compare := { (((s.node.begun path idx).enc (u8 pl 0)).compare (u8 pl 1)) with armed := false }; DoneOk (.posCompare path idx) s ((s.node.begun path idx).setCompare (u8 pl 0) (u8 pl 1) y) path idx y.results) ∧
  (∀ (s : State) (path idx : Nat) (pl : List Byte), Serves s.node Cmd.posCompare path idx pl →
    Passes ([badIn (u8 pl 0) 0 1 0, badIn (u8 pl 1) 0 1 1, badIn (u8 pl 2) 0 2 2, badLen pl (if (decide (u8 pl 2 = 0)) = true then 24 else 4)] ++ [(decide (4 ≤ u8 pl 3), Rs.paramReserved, 3)] ++ (if (decide (u8 pl 2 = 0)) = true then [badRange (decide (63 < u8 pl 16) && u8 pl 16 != 0xFF) 16, badRes pl 17 1] else []) ++ (s.node.begun path idx).posRefused (u8 pl 0) ++ (if (decide (u8 pl 2 = 0)) = true then [badRange (bit (u8 pl 3) 1 && !bit (u8 pl 3) 0) 3, badRange (if bit (u8 pl 3) 0 = true then decide (u32 pl 4 < 1 ∨ 2147483647 < u32 pl 4) else u32 pl 4 != 0) 4, badRange (!(u16 pl 18 == noStall || (decide (u16 pl 18 < numStalls) && ((s.node.begun path idx).stall (u16 pl 18)).isOut && !((s.node.begun path idx).stall (u16 pl 18)).pwm))) 18, badRange (if u16 pl 18 = noStall then u32 pl 20 != 0 else decide (u32 pl 20 < 1 ∨ 1000000 < u32 pl 20)) 20] else [])) →
    u8 pl 2 = 2 →
    DoneOk (.posCompare path idx) s ((s.node.begun path idx).setCompare (u8 pl 0) (u8 pl 1) { (((s.node.begun path idx).enc (u8 pl 0)).compare (u8 pl 1)) with overrun := false }) path idx (((s.node.begun path idx).enc (u8 pl 0)).compare (u8 pl 1)).results) ∧
  (∀ (s : State) (path idx : Nat) (pl : List Byte), Serves s.node Cmd.posLatch path idx pl →
    Passes ([badIn (u8 pl 0) 0 1 0, badIn (u8 pl 1) 0 3 1, badIn (u8 pl 2) 0 2 2, badLen pl (if (decide (u8 pl 2 = 0)) = true then 16 else 4)] ++ (if (decide (u8 pl 2 = 0)) = true then [badRange (decide (4 < u8 pl 3 ∧
    u8 pl 3 < 16 ∨ 47 < u8 pl 3)) 3, badIn (u8 pl 4) 0 1 4, badRes pl 5 3] else []) ++ (s.node.begun path idx).posRefused (u8 pl 0) ++ (if (decide (u8 pl 2 = 0)) = true then [badRange (decide (u8 pl 3 ≤ 1) && ((s.node.begun path idx).encSet (u8 pl 0)).pf 8 1 == 2) 3, badRange (if u8 pl 3 = 4 then decide (u64 pl 8 ≤ (s.node.begun path idx).now ∨ (s.node.begun path idx).now + sec 60 < u64 pl 8) else u64 pl 8 != 0) 8] else [])) →
    u8 pl 2 = 0 →
    let l : Latch := { st := 1, source := u8 pl 3, continuous := u8 pl 4 == 1, instant := u64 pl 8 }; DoneOk (.posLatch path idx) s ((s.node.begun path idx).setEnc (u8 pl 0) { ((s.node.begun path idx).enc (u8 pl 0)) with latches := ((s.node.begun path idx).enc (u8 pl 0)).latches.put (u8 pl 1) l }) path idx (((s.node.begun path idx).enc (u8 pl 0)).latchResults l)) ∧
  (∀ (s : State) (path idx : Nat) (pl : List Byte), Serves s.node Cmd.posLatch path idx pl →
    Passes ([badIn (u8 pl 0) 0 1 0, badIn (u8 pl 1) 0 3 1, badIn (u8 pl 2) 0 2 2, badLen pl (if (decide (u8 pl 2 = 0)) = true then 16 else 4)] ++ (if (decide (u8 pl 2 = 0)) = true then [badRange (decide (4 < u8 pl 3 ∧
    u8 pl 3 < 16 ∨ 47 < u8 pl 3)) 3, badIn (u8 pl 4) 0 1 4, badRes pl 5 3] else []) ++ (s.node.begun path idx).posRefused (u8 pl 0) ++ (if (decide (u8 pl 2 = 0)) = true then [badRange (decide (u8 pl 3 ≤ 1) && ((s.node.begun path idx).encSet (u8 pl 0)).pf 8 1 == 2) 3, badRange (if u8 pl 3 = 4 then decide (u64 pl 8 ≤ (s.node.begun path idx).now ∨ (s.node.begun path idx).now + sec 60 < u64 pl 8) else u64 pl 8 != 0) 8] else [])) →
    u8 pl 2 = 1 →
    let l : Latch := { (((s.node.begun path idx).enc (u8 pl 0)).latches.getD (u8 pl 1) {}) with st := 0 }; DoneOk (.posLatch path idx) s ((s.node.begun path idx).setEnc (u8 pl 0) { ((s.node.begun path idx).enc (u8 pl 0)) with latches := ((s.node.begun path idx).enc (u8 pl 0)).latches.put (u8 pl 1) l }) path idx (((s.node.begun path idx).enc (u8 pl 0)).latchResults l)) ∧
  (∀ (s : State) (path idx : Nat) (pl : List Byte), Serves s.node Cmd.posLatch path idx pl →
    Passes ([badIn (u8 pl 0) 0 1 0, badIn (u8 pl 1) 0 3 1, badIn (u8 pl 2) 0 2 2, badLen pl (if (decide (u8 pl 2 = 0)) = true then 16 else 4)] ++ (if (decide (u8 pl 2 = 0)) = true then [badRange (decide (4 < u8 pl 3 ∧
    u8 pl 3 < 16 ∨ 47 < u8 pl 3)) 3, badIn (u8 pl 4) 0 1 4, badRes pl 5 3] else []) ++ (s.node.begun path idx).posRefused (u8 pl 0) ++ (if (decide (u8 pl 2 = 0)) = true then [badRange (decide (u8 pl 3 ≤ 1) && ((s.node.begun path idx).encSet (u8 pl 0)).pf 8 1 == 2) 3, badRange (if u8 pl 3 = 4 then decide (u64 pl 8 ≤ (s.node.begun path idx).now ∨ (s.node.begun path idx).now + sec 60 < u64 pl 8) else u64 pl 8 != 0) 8] else [])) →
    u8 pl 2 = 2 →
    DoneOk (.posLatch path idx) s ((s.node.begun path idx).setEnc (u8 pl 0) { ((s.node.begun path idx).enc (u8 pl 0)) with latches := ((s.node.begun path idx).enc (u8 pl 0)).latches.put (u8 pl 1) { (((s.node.begun path idx).enc (u8 pl 0)).latches.getD (u8 pl 1) {}) with overrun := false, wasRead := true }, illegal := false, illegalCount := 0 }) path idx (((s.node.begun path idx).enc (u8 pl 0)).latchResults (((s.node.begun path idx).enc (u8 pl 0)).latches.getD (u8 pl 1) {}))) ∧
  (∀ (s : State) (path idx : Nat) (pl : List Byte), Serves s.node Cmd.driveConfig path idx pl →
    Passes [(decide (pl.length < 4), Rs.lengthBad, 0), badIn (u8 pl 0) 0 1 0, badIn (u8 pl 1) 0 5 1, badRes pl 2 2, (pl.length != (if u8 pl 1 = 0 then 16 else if u8 pl 1 = 1 then 8 + 2 * u16 pl 6 else if u8 pl 1 = 4 then 8 else 4), Rs.lengthBad, 0)] →
    u8 pl 1 = 0 →
    Passes [badIn (u16 pl 4) 80 1600 4, badIn (u8 pl 6) 20 120 6, badIn (u8 pl 7) 0 100 7, badIn (u16 pl 8) 1 256 8, badIn (u16 pl 10) 0 (min 256 (u16 pl 8)) 10, badIn (u8 pl 12) 0 2 12, badRes pl 13 1, (((s.node.begun path idx).stall ((s.node.begun path idx).axisStall (u8 pl 0))).active, Rs.chanBusy, 0)] →
    (s.node.begun path idx).cfgRo = false →
    DoneOk (.driveConfig path idx) s (((s.node.begun path idx).setDrv (u8 pl 0) { ((s.node.begun path idx).drv (u8 pl 0)) with tOff := u16 pl 4, tBlank := u8 pl 6, fast := u8 pl 7, csRun := u16 pl 8, csHold := u16 pl 10, standstill := u8 pl 12, idle := u16 pl 14 }).storeCfg Cmd.driveConfig (u8 pl 0) pl) path idx []) ∧
  (∀ (s : State) (path idx : Nat) (pl : List Byte), Serves s.node Cmd.driveConfig path idx pl →
    Passes [(decide (pl.length < 4), Rs.lengthBad, 0), badIn (u8 pl 0) 0 1 0, badIn (u8 pl 1) 0 5 1, badRes pl 2 2, (pl.length != (if u8 pl 1 = 0 then 16 else if u8 pl 1 = 1 then 8 + 2 * u16 pl 6 else if u8 pl 1 = 4 then 8 else 4), Rs.lengthBad, 0)] →
    u8 pl 1 = 1 → Passes [badIn (u16 pl 6) 1 128 6, badRange (decide (256 < u16 pl 4 + u16 pl 6)) 6, badRange (decide (u16 pl 4 ≠ 0 ∧
    u16 pl 4 ≠ ((s.node.begun path idx).drv (u8 pl 0)).staged.length)) 4] →
    badEntry (if u16 pl 4 = 0 then [] else ((s.node.begun path idx).drv (u8 pl 0)).staged).getLast? ((List.range (u16 pl 6)).map (tableEntry pl)) 0 = none →
    DoneOk (.driveConfig path idx) s ((s.node.begun path idx).setDrv (u8 pl 0) { ((s.node.begun path idx).drv (u8 pl 0)) with staged := (if u16 pl 4 = 0 then [] else ((s.node.begun path idx).drv (u8 pl 0)).staged) ++ ((List.range (u16 pl 6)).map (tableEntry pl)) }) path idx []) ∧
  (∀ (s : State) (path idx : Nat) (pl : List Byte), Serves s.node Cmd.driveConfig path idx pl →
    Passes [(decide (pl.length < 4), Rs.lengthBad, 0), badIn (u8 pl 0) 0 1 0, badIn (u8 pl 1) 0 5 1, badRes pl 2 2, (pl.length != (if u8 pl 1 = 0 then 16 else if u8 pl 1 = 1 then 8 + 2 * u16 pl 6 else if u8 pl 1 = 4 then 8 else 4), Rs.lengthBad, 0)] →
    u8 pl 1 = 2 →
    Passes [(((s.node.begun path idx).drv (u8 pl 0)).staged.length != 256, Rs.busy, 0), (!(((s.node.begun path idx).axis (u8 pl 0)).st == .disabled || ((s.node.begun path idx).axis (u8 pl 0)).st == .standstill), Rs.axisMoving, 0)] →
    (s.node.begun path idx).cfgRo = false →
    let n := ((s.node.begun path idx).setDrv (u8 pl 0) { ((s.node.begun path idx).drv (u8 pl 0)) with nextTable := some (some ((s.node.begun path idx).drv (u8 pl 0)).staged) }).storeCfg Cmd.driveConfig ((u8 pl 0) + 2) (stagePayload (u8 pl 0) 0 ((s.node.begun path idx).drv (u8 pl 0)).staged); let n := n.storeCfg Cmd.driveConfig ((u8 pl 0) + 4) (stagePayload (u8 pl 0) 128 ((s.node.begun path idx).drv (u8 pl 0)).staged); DoneOk (.driveConfig path idx) s (n.storeCfg Cmd.driveConfig ((u8 pl 0) + 6) pl) path idx []) ∧
  (∀ (s : State) (path idx : Nat) (pl : List Byte), Serves s.node Cmd.driveConfig path idx pl →
    Passes [(decide (pl.length < 4), Rs.lengthBad, 0), badIn (u8 pl 0) 0 1 0, badIn (u8 pl 1) 0 5 1, badRes pl 2 2, (pl.length != (if u8 pl 1 = 0 then 16 else if u8 pl 1 = 1 then 8 + 2 * u16 pl 6 else if u8 pl 1 = 4 then 8 else 4), Rs.lengthBad, 0)] →
    u8 pl 1 = 3 →
    DoneOk (.driveConfig path idx) s (s.node.begun path idx) path idx ([BitVec.ofNat 8 (u8 pl 0), 3, 0, 0] ++ ((s.node.begun path idx).drv (u8 pl 0)).settings)) ∧
  (∀ (s : State) (path idx : Nat) (pl : List Byte), Serves s.node Cmd.driveConfig path idx pl →
    Passes [(decide (pl.length < 4), Rs.lengthBad, 0), badIn (u8 pl 0) 0 1 0, badIn (u8 pl 1) 0 5 1, badRes pl 2 2, (pl.length != (if u8 pl 1 = 0 then 16 else if u8 pl 1 = 1 then 8 + 2 * u16 pl 6 else if u8 pl 1 = 4 then 8 else 4), Rs.lengthBad, 0)] →
    u8 pl 1 = 4 → Passes [badIn (u16 pl 6) 1 128 6, badRange (decide (256 < u16 pl 4 + u16 pl 6)) 6] →
    DoneOk (.driveConfig path idx) s (s.node.begun path idx) path idx ((List.range (u16 pl 6)).flatMap (fun i => leBytes 2 (((s.node.begun path idx).drv (u8 pl 0)).entry (u16 pl 4 + i))))) ∧
  (∀ (s : State) (path idx : Nat) (pl : List Byte), Serves s.node Cmd.driveConfig path idx pl →
    Passes [(decide (pl.length < 4), Rs.lengthBad, 0), badIn (u8 pl 0) 0 1 0, badIn (u8 pl 1) 0 5 1, badRes pl 2 2, (pl.length != (if u8 pl 1 = 0 then 16 else if u8 pl 1 = 1 then 8 + 2 * u16 pl 6 else if u8 pl 1 = 4 then 8 else 4), Rs.lengthBad, 0)] →
    u8 pl 1 = 5 → ((s.node.begun path idx).axis (u8 pl 0)).st = .disabled ∨ ((s.node.begun path idx).axis (u8 pl 0)).st = .standstill →
    (s.node.begun path idx).cfgRo = false →
    DoneOk (.driveConfig path idx) s (((s.node.begun path idx).setDrv (u8 pl 0) { ((s.node.begun path idx).drv (u8 pl 0)) with nextTable := some none }).storeCfg Cmd.driveConfig ((u8 pl 0) + 6) pl) path idx [])

/-- Line and time commands complete with their effect on ports, settings and the clock; that a command row names its mailbox is the model's choice, log 11. For each of these constructors of Instr exec answers a next state: lineStatus, lineConfig, timeStatus, timeConfig, levelRaise. (R277, R284, R285, R303, R304, R479) -/
def Obligations.LineAndTimeCommandsComplete : Prop :=
  (∀ (s : State) (path idx : Nat) (pl : List Byte), Serves s.node Cmd.lineStatus path idx pl →
    Passes [badLen pl 4, badIn (u8 pl 0) 0 2 0, badRes pl 1 3] →
    let x := ((s.node.begun path idx).port (u8 pl 0)); let n := (s.node.begun path idx).setPort (u8 pl 0) { x with fcs := 0, fecCorr := 0, fecUnc := 0, qdrop := 0 }; DoneOk (.lineStatus path idx) s n path idx (leBytes 1 x.st.code ++ leBytes 1 x.rate ++ leBytes 1 x.partner ++ leBytes 1 x.plevel ++ leBytes 2 x.paddr ++ leBytes 1 (b2n x.preempt + 2 * b2n x.lpi + 4 * b2n x.wrap + 8 * b2n (x.degraded != 0)) ++ leBytes 1 (min 2 x.bypasses) ++ leBytes 8 x.pserial ++ leBytes 2 x.length ++ leBytes 2 ((x.drops.filter (fun t => decide ((s.node.begun path idx).now ≤ t + portWindow))).length) ++ leBytes 4 x.fcs ++ leBytes 4 x.fecCorr ++ leBytes 4 x.fecUnc ++ leBytes 4 x.qdrop ++ leBytes 2 (s.node.begun path idx).addr ++ leBytes 1 (s.node.begun path idx).line.cfg.topology ++ leBytes 1 (b2n (s.node.begun path idx).isHead) ++ leBytes 4 (s.node.begun path idx).line.cycle ++ leBytes 8 x.upSince)) ∧
  (∀ (s : State) (path idx : Nat) (pl : List Byte), Serves s.node Cmd.lineConfig path idx pl →
    Passes [(decide (pl.length < 3), Rs.lengthBad, 0), badIn (u8 pl 0) 0 2 0] → u8 pl 0 = 0 →
    Passes [badLen pl 20, badIn (u8 pl 1) 0 2 1, badIn (u8 pl 2) 0 1 2, badRange (decide (3 < u8 pl 3) || !portCFits (u8 pl 3) (u8 pl 1) (u8 pl 2 == 1)) 3, badIn (u16 pl 4) 0 0xFEFF 4, badIn (u8 pl 6) 1 255 6, (decide (8 ≤ u8 pl 7), Rs.paramReserved, 7), badRange (bit (u8 pl 7) 0 && !(u8 pl 2 == 1)) 7, badRange (if (u8 pl 2 == 1) = true then decide (u32 pl 8 < 250 ∨ 10000 % u32 pl 8 ≠ 0) else u32 pl 8 != 0) 8, badRange (decide ((if (u8 pl 2 == 1) = true then u32 pl 8 else (s.node.begun path idx).line.cycle) < u32 pl 12 + 10)) 12, (decide (64 ≤ u32 pl 16), Rs.paramReserved, 16)] →
    (s.node.begun path idx).cfgRo = false →
    let c : LineCfg := { topology := u8 pl 1, head := (u8 pl 2 == 1), portC := u8 pl 3, address := u16 pl 4, radius := u8 pl 6, flags := BitVec.ofNat 8 (u8 pl 7), offset := u32 pl 12, maxRate := BitVec.ofNat 32 (u32 pl 16), cycle := u32 pl 8 }; let acting := (s.node.begun path idx).line.cfg.head && (u8 pl 2 == 1); let n := (s.node.begun path idx).updLine (fun l => { l with stored := some c, headYielded := false, newCycle := if (!acting) = true then l.newCycle else if (u32 pl 8 != l.cycle) = true then some (u32 pl 8, (s.node.begun path idx).tenMs (ms 100)) else none, mapDue := l.mapDue || acting }); DoneOk (.lineConfig path idx) s (n.storeCfg Cmd.lineConfig 0 pl) path idx []) ∧
  (∀ (s : State) (path idx : Nat) (pl : List Byte), Serves s.node Cmd.lineConfig path idx pl →
    Passes [(decide (pl.length < 3), Rs.lengthBad, 0), badIn (u8 pl 0) 0 2 0] → u8 pl 0 = 1 →
    Passes ([(decide (pl.length < 4), Rs.lengthBad, 0), badIn (u8 pl 2) 1 16 2, badLen pl (4 + 8 * u8 pl 2), badIn (u8 pl 1) 0 2 1, badRes pl 3 1] ++ (List.range (u8 pl 2)).map (fun i => badRes pl (9 + 8 * i) 3) ++ [(((List.range (u8 pl 2)).find? (fun i => (((List.range (u8 pl 2)).map (fun i => (u32 pl (4 + 8 * i), u8 pl (8 + 8 * i)))).getD i (0, 0)).2 < 0xC0)).isSome, Rs.paramRange, 8 + 8 * ((List.range (u8 pl 2)).find? (fun i => (((List.range (u8 pl 2)).map (fun i => (u32 pl (4 + 8 * i), u8 pl (8 + 8 * i)))).getD i (0, 0)).2 < 0xC0)).getD 0), badRange ((((List.range (u8 pl 2)).map (fun i => (u32 pl (4 + 8 * i), u8 pl (8 + 8 * i)))).map Prod.fst).sum != us (s.node.begun path idx).line.cycle) 2]) →
    (s.node.begun path idx).cfgRo = false →
    DoneOk (.lineConfig path idx) s (((s.node.begun path idx).updPort (u8 pl 1) (fun x => { x with newGates := some (((List.range (u8 pl 2)).map (fun i => (u32 pl (4 + 8 * i), u8 pl (8 + 8 * i)))), (s.node.begun path idx).tenMs (ms 100)) })).storeCfg Cmd.lineConfig (1 + u8 pl 1) pl) path idx []) ∧
  (∀ (s : State) (path idx : Nat) (pl : List Byte), Serves s.node Cmd.lineConfig path idx pl →
    Passes [(decide (pl.length < 3), Rs.lengthBad, 0), badIn (u8 pl 0) 0 2 0] → u8 pl 0 = 2 →
    Passes [badLen pl 3, badIn (u8 pl 1) 0 2 1, badIn (u8 pl 2) 0 2 2, (u8 pl 1 == 2 && (s.node.begun path idx).isHead && (s.node.begun path idx).line.cfg.portC == 3 && (s.node.begun path idx).plantSession, Rs.busy, 0)] →
    u8 pl 2 = 0 →
    DoneOk (.lineConfig path idx) s ((((((s.node.begun path idx).portDown (u8 pl 1) 0 none).updPort (u8 pl 1) (fun x => x.unlinked .disabled)).withdraw (u8 pl 1)).dropQueues (u8 pl 1)).report) path idx []) ∧
  (∀ (s : State) (path idx : Nat) (pl : List Byte), Serves s.node Cmd.lineConfig path idx pl →
    Passes [(decide (pl.length < 3), Rs.lengthBad, 0), badIn (u8 pl 0) 0 2 0] → u8 pl 0 = 2 →
    Passes [badLen pl 3, badIn (u8 pl 1) 0 2 1, badIn (u8 pl 2) 0 2 2, (u8 pl 1 == 2 && (s.node.begun path idx).isHead && (s.node.begun path idx).line.cfg.portC == 3 && (s.node.begun path idx).plantSession, Rs.busy, 0)] →
    u8 pl 2 = 1 →
    DoneOk (.lineConfig path idx) s (if (((s.node.begun path idx).port (u8 pl 1)).st = .disabled ∨ ((s.node.begun path idx).port (u8 pl 1)).st = .retired) ∧
    (!(u8 pl 1 == 2 && (s.node.begun path idx).line.cfg.portC == 0)) = true then (((s.node.begun path idx).setPort (u8 pl 1) { ((s.node.begun path idx).port (u8 pl 1)) with st := if (decide (u8 pl 1 < 2) && (s.node.begun path idx).power.bypassClosed) = true then .bypassed else .down, drops := [], failFrom := none, degraded := 0 }).report).raise 9 else (s.node.begun path idx)) path idx []) ∧
  (∀ (s : State) (path idx : Nat) (pl : List Byte), Serves s.node Cmd.lineConfig path idx pl →
    Passes [(decide (pl.length < 3), Rs.lengthBad, 0), badIn (u8 pl 0) 0 2 0] → u8 pl 0 = 2 →
    Passes [badLen pl 3, badIn (u8 pl 1) 0 2 1, badIn (u8 pl 2) 0 2 2, (u8 pl 1 == 2 && (s.node.begun path idx).isHead && (s.node.begun path idx).line.cfg.portC == 3 && (s.node.begun path idx).plantSession, Rs.busy, 0)] →
    u8 pl 2 = 2 → DoneOk (.lineConfig path idx) s ((s.node.begun path idx).portDown (u8 pl 1) 0 none) path idx []) ∧
  (∀ (s : State) (path idx : Nat) (pl : List Byte), Serves s.node Cmd.timeStatus path idx pl → Passes [badLen pl 0] →
    let t := (s.node.begun path idx).time; let n := (s.node.begun path idx).updTime (fun x => { x with stepped := false }); DoneOk (.timeStatus path idx) s n path idx (leBytes 1 t.servo.code ++ leBytes 1 t.cfg.source ++ leBytes 1 t.slave ++ leBytes 1 (b2n (t.servo == .locked || t.servo == .holdover) + 2 * b2n (s.node.begun path idx).isHead + 4 * b2n t.sourceLost + 8 * b2n t.stepped) ++ t.bytes ++ leBytes 4 (ofSigned 32 (clampI minS32 maxS32 t.theta)) ++ leBytes 4 (ofSigned 32 (clampI minS32 maxS32 t.ratePpt)) ++ leBytes 2 n.announced.2.1 ++ leBytes 2 (ofSigned 16 n.announced.2.2) ++ leBytes 4 (if t.slave < 3 then ((s.node.begun path idx).port t.slave).linkDelay else 0) ++ leBytes 2 (if t.servo = .holdover then (t.holdFrom + sec t.cfg.holdover - (s.node.begun path idx).now) / 1000000000 else 0) ++ leBytes 2 0 ++ leBytes 8 t.lastSync ++ leBytes 8 n.announced.1)) ∧
  (∀ (s : State) (path idx : Nat) (pl : List Byte), Serves s.node Cmd.timeConfig path idx pl →
    Passes [badLen pl 32, badIn (u8 pl 0) 0 (if (s.node.begun path idx).isHead = true then 2 else 0) 0, badRange (u8 pl 0 == 1 && (s.node.begun path idx).line.cfg.portC != 3) 0, badRange (decide (toSigned 8 (u8 pl 1) < -7 ∨ 0 < toSigned 8 (u8 pl 1))) 1, badRes pl 2 2, badRange (!(b32.lt 0 (u32 pl 4) && b32.le (u32 pl 4) 0x3F800000)) 4, badRange (!(b32.le 0 (u32 pl 8) && b32.lt (u32 pl 8) (u32 pl 4))) 8, badIn (u16 pl 12) 1 3600 12, badIn (u16 pl 14) 1 1000 14, badRange (field (u32 pl 16) 30 29 != 0 || (!bit (u32 pl 16) 31 && decide (0x7FF < u32 pl 16))) 16, badIn (u16 pl 20) 0 1000 20, badRange (!(s.node.begun path idx).isHead && u16 pl 22 != 0) 22, badRange (!((s.node.begun path idx).isHead && u8 pl 0 == 2) && u64 pl 24 != 0) 24] →
    (s.node.begun path idx).cfgRo = false →
    let n := ((s.node.begun path idx).updTime (fun x => { x with newCfg := some (TimeCfg.ofBytes pl) })).storeCfg Cmd.timeConfig 0 pl; DoneOk (.timeConfig path idx) s (if u64 pl 24 = 0 then n else n.stepTime (((u64 pl 24 : Int) - (n.now : Int)) * 16)) path idx []) ∧
  (∀ (s : State) (path idx : Nat) (pl : List Byte), Serves s.node Cmd.levelRaise path idx pl →
    Passes [badLen pl 4, badRes pl 1 3, (!(s.node.begun path idx).isHead, Rs.busy, 0), badRange (u8 pl 0 != (s.node.begun path idx).line.level + 1) 0, (decide (ownLevel < u8 pl 0) || (s.node.begun path idx).line.map.any (fun (e : Nat × MapNode) => decide (e.2.level < u8 pl 0)), Rs.levelNotUniform, 0)] →
    let t := (s.node.begun path idx).tenMs (ms 500); let n := (s.node.begun path idx).updLine (fun x => { x with raise := some (u8 pl 0, t), mapDue := true }); DoneOk (.levelRaise path idx) s (n.send 0x51 0 0xFFFF ([0, BitVec.ofNat 8 (u8 pl 0), 0, 0] ++ leBytes 8 t)) path idx (leBytes 8 t))

/-- Zone bus commands complete with their effect on the controller; that a command row names its mailbox is the model's choice, log 11; that what an event observes is an operand of its row is the model's choice, logs 5, 6 and 14. For each of these constructors of Instr exec answers a next state: zbConfig, zbStatus, zbSend, zbSendTimeout, zbRecover. (R312, R316, R318, R326, R327, R328, R329) -/
def Obligations.ZoneBusCommandsComplete : Prop :=
  (∀ (s : State) (path idx : Nat) (pl : List Byte) (started : Bool), Serves s.node Cmd.zbConfig path idx pl →
    Passes [(decide (pl.length < 1), Rs.lengthBad, 0), badIn (u8 pl 0) 0 2 0] → u8 pl 0 = 0 →
    Passes (zbSettingChecks pl ++ [(!((s.node.begun path idx).zb.mode == 0 || u8 pl 1 == 0 || ((u8 pl 1 == 1 || u8 pl 1 == 2) && ((s.node.begun path idx).zb.mode == 1 || (s.node.begun path idx).zb.mode == 2) && (s.node.begun path idx).zb.sameSettings pl)), Rs.busy, 0)]) →
    (s.node.begun path idx).cfgRo = false →
    let n := (s.node.begun path idx).updZb (fun z => { z with flags := BitVec.ofNat 16 (u16 pl 2), timing := zbTiming pl, laneFlag := u8 pl 15, recoveryDelay := u16 pl 16 }); DoneOk (.zbConfig (path, idx) started) s (((n.zbSaw started).zbMode (u8 pl 1)).storeCfg Cmd.zbConfig 0 pl) path idx []) ∧
  (∀ (s : State) (path idx : Nat) (pl : List Byte) (started : Bool), Serves s.node Cmd.zbConfig path idx pl →
    Passes [(decide (pl.length < 1), Rs.lengthBad, 0), badIn (u8 pl 0) 0 2 0] → u8 pl 0 = 1 →
    Passes [badLen pl 16, badIn (u8 pl 1) 0 31 1, badIn (u8 pl 2) 0 3 2, badIn (u8 pl 3) 0 2 3, badIn (u8 pl 4) 0 1 4, badRes pl 5 3, badIn (u32 pl 8) 0 (if u8 pl 4 = 1 then 0x1FFFFFFF else 0x7FF) 8, badIn (u32 pl 12) 0 (if u8 pl 4 = 1 then 0x1FFFFFFF else 0x7FF) 12, badRange (u8 pl 2 == 2 && (s.node.begun path idx).zb.filters.any (fun e => e.1 != u8 pl 1 && e.2.action == 2)) 2] →
    (s.node.begun path idx).cfgRo = false →
    let f : ZbFilter := { action := u8 pl 2, type := u8 pl 3, ext := u8 pl 4 == 1, id1 := u32 pl 8, id2 := u32 pl 12 }; DoneOk (.zbConfig (path, idx) started) s (((s.node.begun path idx).updZb (fun z => { z with filters := z.filters.put (u8 pl 1) f })).storeCfg Cmd.zbConfig (1 + u8 pl 1) pl) path idx []) ∧
  (∀ (s : State) (path idx : Nat) (pl : List Byte) (started : Bool), Serves s.node Cmd.zbConfig path idx pl →
    Passes [(decide (pl.length < 1), Rs.lengthBad, 0), badIn (u8 pl 0) 0 2 0] → u8 pl 0 = 2 →
    Passes [badLen pl 8, badRes pl 1 3, badRange (!(s.node.begun path idx).zbRingOk (u32 pl 4)) 4] → (s.node.begun path idx).cfgRo = false →
    let n := (s.node.begun path idx).updZb (fun z => { z with ring := u32 pl 4 }); DoneOk (.zbConfig (path, idx) started) s ((if u32 pl 4 = 0 then n else n.write (u32 pl 4 + 12) (leBytes 12 0)).storeCfg Cmd.zbConfig 33 pl) path idx []) ∧
  (∀ (s : State) (path idx : Nat) (pl : List Byte), Serves s.node Cmd.zbStatus path idx pl → Passes [badLen pl 0] →
    let z := (s.node.begun path idx).zb; let n := (s.node.begun path idx).updZb (fun z => { z with txOk := 0, rxOk := 0, errors := 0, arbLost := 0, aborted := 0, clashes := 0, busOffs := 0, dropped := 0 }); DoneOk (.zbStatus path idx) s n path idx (leBytes 1 z.st.code ++ leBytes 1 z.mode ++ leBytes 2 (min z.tec 65535) ++ leBytes 1 (min z.recCnt 255) ++ leBytes 1 z.fifo.length ++ leBytes 1 z.lane.length ++ leBytes 1 (b2n (z.flags.getLsbD 4 && z.brsOn) + 2 * b2n z.protException + 4 * b2n (z.st == .busOff && !z.autoRecover)) ++ leBytes 1 z.lastError ++ leBytes 1 z.tdc ++ leBytes 1 z.objects.length ++ [0] ++ leBytes 4 z.txOk ++ leBytes 4 z.rxOk ++ leBytes 4 z.errors ++ leBytes 4 z.arbLost ++ leBytes 4 z.aborted ++ leBytes 4 z.clashes ++ leBytes 4 z.busOffs ++ leBytes 4 z.dropped)) ∧
  (∀ (s : State) (path idx : Nat) (pl : List Byte) (started : Bool), Serves s.node Cmd.zbSend path idx pl →
    Passes [(decide (pl.length < 8), Rs.lengthBad, 0), badLen pl (8 + u8 pl 6), ((s.node.begun path idx).zb.st == .busOff || (s.node.begun path idx).zb.st == .recovering, Rs.zbBusOff, 0), ((s.node.begun path idx).zb.st == .off || (s.node.begun path idx).zb.st == .offline || (s.node.begun path idx).zb.st == .restricted, Rs.busy, 0), (decide (32 ≤ (s.node.begun path idx).zb.fifo.length), Rs.zbFifoFull, 0), badRange (field (u32 pl 0) 30 29 != 0 || (!bit (u32 pl 0) 31 && decide (0x7FF < u32 pl 0))) 0, (decide (8 ≤ u8 pl 4), Rs.paramReserved, 4), badRange ((bit (u8 pl 4) 0 || bit (u8 pl 4) 1) && !(s.node.begun path idx).zb.fdOn) 4, badRange (bit (u8 pl 4) 1 && !bit (u8 pl 4) 0) 4, badRange (decide (15 < u8 pl 5) && u8 pl 5 != 0xFF) 5, badRange (if bit (u8 pl 4) 0 = true then !fdLengths.contains (u8 pl 6) else decide (8 < u8 pl 6)) 6, badRes pl 7 1, badRange ((s.node.begun path idx).zbTaken (u32 pl 0)) 0] →
    Done (.zbSend (path, idx) started) s (((s.node.begun path idx).zbSaw started).zbPush { ident := u32 pl 0, fd := bit (u8 pl 4) 0, brs := bit (u8 pl 4) 1, data := slice pl 8 (u8 pl 6), limit := u8 pl 5, src := .host (path * 16 + idx), express := bit (u8 pl 4) 2, at_ := (s.node.begun path idx).now })) ∧
  (∀ (s : State) (path idx : Nat) (x : ZbMsg), s.node.zb.fifo.find? (fun x => x.src == .host (path * 16 + idx)) = some x →
    let n := (s.node.upTo (x.at_ + ms 1500)).zbOutcome (.host (path * 16 + idx)) 3 0; Done (.zbSendTimeout path idx) s (n.updZb (fun z => { z with fifo := z.fifo.map (fun y => if y.src = .host (path * 16 + idx) then { y with src := .firmware } else y) }))) ∧
  (∀ (s : State) (path idx : Nat) (pl : List Byte), Serves s.node Cmd.zbRecover path idx pl → Passes [badLen pl 0] →
    let n := if (s.node.begun path idx).zb.st = .busOff then (s.node.begun path idx).zbSet .recovering else (s.node.begun path idx); DoneOk (.zbRecover path idx) s n path idx [BitVec.ofNat 8 n.zb.st.code, 0, 0, 0])

/-- Custody commands complete: records read, listed, resolved, and the zone configured; that a command row names its mailbox is the model's choice, log 11. For each of these constructors of Instr exec answers a next state: custodyRead, custodyList, custodyResolve, custodyConfig. (R331, R352, R353) -/
def Obligations.CustodyCommandsComplete : Prop :=
  (∀ (s : State) (path idx : Nat) (pl : List Byte) (e : Nat × CRec), Serves s.node Cmd.custodyRead path idx pl →
    Passes [badLen pl 12, badIn (u8 pl 8) 0 1 8, badRes pl 9 3, (if u8 pl 8 = 0 then ((s.node.begun path idx).parcel (u64 pl 0)).isNone else ((s.node.begun path idx).cust.up.find? (fun (e : Nat × Copy) => e.2.body.parcel == (u64 pl 0))).isNone && ((s.node.begun path idx).cust.down.find? (fun (e : Nat × Copy) => e.2.body.parcel == (u64 pl 0))).isNone, Rs.parcelUnknown, 0)] →
    u8 pl 8 = 0 → (s.node.begun path idx).parcel (u64 pl 0) = some e →
    DoneOk (.custodyRead path idx) s (s.node.begun path idx) path idx (readCopy 0 e.2)) ∧
  (∀ (s : State) (path idx : Nat) (pl : List Byte) (e : Nat × Copy), Serves s.node Cmd.custodyRead path idx pl →
    Passes [badLen pl 12, badIn (u8 pl 8) 0 1 8, badRes pl 9 3, (if u8 pl 8 = 0 then ((s.node.begun path idx).parcel (u64 pl 0)).isNone else ((s.node.begun path idx).cust.up.find? (fun (e : Nat × Copy) => e.2.body.parcel == (u64 pl 0))).isNone && ((s.node.begun path idx).cust.down.find? (fun (e : Nat × Copy) => e.2.body.parcel == (u64 pl 0))).isNone, Rs.parcelUnknown, 0)] →
    u8 pl 8 ≠ 0 → (s.node.begun path idx).cust.up.find? (fun (e : Nat × Copy) => e.2.body.parcel == (u64 pl 0)) = some e →
    DoneOk (.custodyRead path idx) s (s.node.begun path idx) path idx (readCopy 1 e.2.body)) ∧
  (∀ (s : State) (path idx : Nat) (pl : List Byte) (e : Nat × Copy), Serves s.node Cmd.custodyRead path idx pl →
    Passes [badLen pl 12, badIn (u8 pl 8) 0 1 8, badRes pl 9 3, (if u8 pl 8 = 0 then ((s.node.begun path idx).parcel (u64 pl 0)).isNone else ((s.node.begun path idx).cust.up.find? (fun (e : Nat × Copy) => e.2.body.parcel == (u64 pl 0))).isNone && ((s.node.begun path idx).cust.down.find? (fun (e : Nat × Copy) => e.2.body.parcel == (u64 pl 0))).isNone, Rs.parcelUnknown, 0)] →
    u8 pl 8 ≠ 0 → (s.node.begun path idx).cust.up.find? (fun (e : Nat × Copy) => e.2.body.parcel == (u64 pl 0)) = none →
    (s.node.begun path idx).cust.down.find? (fun (e : Nat × Copy) => e.2.body.parcel == (u64 pl 0)) = some e →
    DoneOk (.custodyRead path idx) s (s.node.begun path idx) path idx (readCopy 2 e.2.body)) ∧
  (∀ (s : State) (path idx : Nat) (pl : List Byte), Serves s.node Cmd.custodyList path idx pl →
    Passes [badLen pl 4, badIn (u8 pl 0) 0 31 0, badRes pl 1 1, badIn (u16 pl 2) 0 4095 2] →
    let all := (s.node.begun path idx).cust.own.filter (fun e => bit (u8 pl 0) e.2.st.code); let from_ := all.filter (fun e => decide (u16 pl 2 ≤ e.1)); let next := (match from_.drop 28 with | e :: _ => e.1 | [] => 0xFFFF); DoneOk (.custodyList path idx) s (s.node.begun path idx) path idx (leBytes 2 all.length ++ leBytes 2 next ++ (from_.take 28).flatMap (fun e => leBytes 8 e.2.parcel ++ leBytes 1 e.2.st.code ++ [e.2.cflags] ++ leBytes 1 e.2.exit ++ [0] ++ leBytes 4 e.2.version))) ∧
  (∀ (s : State) (path idx : Nat) (pl : List Byte) (e : Nat × CRec), Serves s.node Cmd.custodyResolve path idx pl →
    Passes [badLen pl 20, badIn (u8 pl 8) 0 3 8, badRes pl 9 1, (((s.node.begun path idx).parcel (u64 pl 0)).isNone, Rs.parcelUnknown, 0), (u8 pl 8 == 2 && ((s.node.begun path idx).parcel (u64 pl 12)).isNone, Rs.parcelUnknown, 12)] →
    u8 pl 8 = 0 → (s.node.begun path idx).parcel (u64 pl 0) = some e → e.2.st = .uncertain →
    DoneOk (.custodyResolve path idx) s ((s.node.begun path idx).recChange e.1 (CRec.setCf { e.2 with resolved := (s.node.begun path idx).now, st := .held } Cf.posLost true)) path idx (leBytes 4 ((e.2.version + 1) % 2 ^ 32))) ∧
  (∀ (s : State) (path idx : Nat) (pl : List Byte) (e : Nat × CRec), Serves s.node Cmd.custodyResolve path idx pl →
    Passes [badLen pl 20, badIn (u8 pl 8) 0 3 8, badRes pl 9 1, (((s.node.begun path idx).parcel (u64 pl 0)).isNone, Rs.parcelUnknown, 0), (u8 pl 8 == 2 && ((s.node.begun path idx).parcel (u64 pl 12)).isNone, Rs.parcelUnknown, 12)] →
    u8 pl 8 = 1 → (s.node.begun path idx).parcel (u64 pl 0) = some e → e.2.st = .uncertain ∨ e.2.st = .held →
    DoneOk (.custodyResolve path idx) s (((s.node.begun path idx).recFree e.1).resolvedLog (u64 pl 0) 1) path idx (leBytes 4 ((e.2.version + 1) % 2 ^ 32))) ∧
  (∀ (s : State) (path idx : Nat) (pl : List Byte) (e g : Nat × CRec), Serves s.node Cmd.custodyResolve path idx pl →
    Passes [badLen pl 20, badIn (u8 pl 8) 0 3 8, badRes pl 9 1, (((s.node.begun path idx).parcel (u64 pl 0)).isNone, Rs.parcelUnknown, 0), (u8 pl 8 == 2 && ((s.node.begun path idx).parcel (u64 pl 12)).isNone, Rs.parcelUnknown, 12)] →
    u8 pl 8 = 2 → (s.node.begun path idx).parcel (u64 pl 0) = some e → e.2.st = .uncertain → (s.node.begun path idx).parcel (u64 pl 12) = some g →
    g.2.st = .held →
    DoneOk (.custodyResolve path idx) s ((((s.node.begun path idx).recChange g.1 { g.2 with tag := e.2.tag, destination := e.2.destination, length := e.2.length, resolved := (s.node.begun path idx).now }).recFree e.1).resolvedLog (u64 pl 0) 2) path idx (leBytes 4 ((g.2.version + 1) % 2 ^ 32))) ∧
  (∀ (s : State) (path idx : Nat) (pl : List Byte) (e : Nat × CRec), Serves s.node Cmd.custodyResolve path idx pl →
    Passes [badLen pl 20, badIn (u8 pl 8) 0 3 8, badRes pl 9 1, (((s.node.begun path idx).parcel (u64 pl 0)).isNone, Rs.parcelUnknown, 0), (u8 pl 8 == 2 && ((s.node.begun path idx).parcel (u64 pl 12)).isNone, Rs.parcelUnknown, 12)] →
    u8 pl 8 = 3 → (s.node.begun path idx).parcel (u64 pl 0) = some e → e.2.st = .held →
    DoneOk (.custodyResolve path idx) s ((s.node.begun path idx).recChange e.1 { e.2 with resolved := (s.node.begun path idx).now, destination := u16 pl 10 }) path idx (leBytes 4 ((e.2.version + 1) % 2 ^ 32))) ∧
  (∀ (s : State) (path idx : Nat) (pl : List Byte), Serves s.node Cmd.custodyConfig path idx pl →
    Passes [(decide (pl.length < 1), Rs.lengthBad, 0), badIn (u8 pl 0) 0 2 0] → u8 pl 0 = 0 →
    Passes [badLen pl 32, badIn (u8 pl 1) 0 1 1, badRange (if (u8 pl 1 == 1) = true then !(decide ((u16 pl 2) < numStalls) && (((s.node.begun path idx).stall (u16 pl 2)).kd == K.position || ((s.node.begun path idx).stall (u16 pl 2)).kd == K.axis || ((s.node.begun path idx).stall (u16 pl 2)).kd == K.linepoint)) else (u16 pl 2) != 0xFFFF) 2, badRange (if (u8 pl 1 == 1) = true then !(u32 pl 4 / 2 ^ 23 % 256 != 255) || u32 pl 4 % 2 ^ 31 == 0 else u32 pl 4 != 0) 4, badRange (if (u8 pl 1 == 1) = true then u32 pl 8 != 0 else decide (u32 pl 8 < 1 ∨ 10000 < u32 pl 8)) 8, badIn (u16 pl 12) 100 1000 12, badIn (u16 pl 14) 10 5000 14, badRange (u32 pl 16 != 0xFFFFFFFF && (field (u32 pl 16) 30 29 != 0 || (!bit (u32 pl 16) 31 && decide (0x7FF < u32 pl 16)))) 16, badIn (u8 pl 24) 0 15 24, badRes pl 25 7, ((s.node.begun path idx).cust.busy, Rs.busy, 0)] →
    (s.node.begun path idx).cfgRo = false →
    let n := (s.node.begun path idx).updCust (fun c => { c with configured := true, stallSource := (u8 pl 1 == 1), stall := (u16 pl 2), scale := BitVec.ofNat 32 (u32 pl 4), speed := u32 pl 8, period := u16 pl 12, window := u16 pl 14, scanner := u32 pl 16, scanPos := s32 pl 20, defaultExit := u8 pl 24, samples := [] }); DoneOk (.custodyConfig path idx) s ((n.seeBelt (u16 pl 2)).storeCfg Cmd.custodyConfig 0 pl) path idx []) ∧
  (∀ (s : State) (path idx : Nat) (pl : List Byte), Serves s.node Cmd.custodyConfig path idx pl →
    Passes [(decide (pl.length < 1), Rs.lengthBad, 0), badIn (u8 pl 0) 0 2 0] → u8 pl 0 = 1 →
    Passes [badLen pl 16, badIn (u8 pl 1) 0 15 1, badIn (u8 pl 2) 0 2 2, badIn (u8 pl 3) 0 (if u8 pl 2 = 1 then 2 else 0) 3, badRange (u8 pl 2 != 0 && !(s.node.begun path idx).eyeOk (u16 pl 4)) 4, badRange (decide (63 < u8 pl 6) && u8 pl 6 != 0xFF) 6, badRes pl 7 1, badRange (decide (s32 pl 8 < s32 pl 12)) 12, ((s.node.begun path idx).cust.busy, Rs.busy, 0)] →
    (s.node.begun path idx).cfgRo = false →
    let x : Exit := { kind := u8 pl 2, port := u8 pl 3, eye := u16 pl 4, flag := u8 pl 6, boundary := s32 pl 8, decision := s32 pl 12 }; DoneOk (.custodyConfig path idx) s (((s.node.begun path idx).updCust (fun c => { c with exits := c.exits.put (u8 pl 1) x })).storeCfg Cmd.custodyConfig (1 + u8 pl 1) pl) path idx []) ∧
  (∀ (s : State) (path idx : Nat) (pl : List Byte), Serves s.node Cmd.custodyConfig path idx pl →
    Passes [(decide (pl.length < 1), Rs.lengthBad, 0), badIn (u8 pl 0) 0 2 0] → u8 pl 0 = 2 →
    Passes ([(decide (pl.length < 4), Rs.lengthBad, 0), badIn (u8 pl 1) 0 63 1, badIn (u8 pl 2) 1 32 2, badLen pl (4 + 8 * u8 pl 2), badRange (decide (64 < u8 pl 1 + u8 pl 2)) 1, badRes pl 3 1] ++ (List.range (u8 pl 2)).flatMap (fun i => [badRange (decide (15 < u8 pl (8 + 8 * i)) && u8 pl (8 + 8 * i) != 0xFF) (8 + 8 * i), badRes pl (9 + 8 * i) 3])) →
    (s.node.begun path idx).cfgRo = false →
    let rs := (List.range (u8 pl 2)).foldl (fun (t : Tbl (Nat × Nat × Nat)) i => t.put (u8 pl 1 + i) (u16 pl (4 + 8 * i), u16 pl (6 + 8 * i), u8 pl (8 + 8 * i))) (s.node.begun path idx).cust.routes; DoneOk (.custodyConfig path idx) s (((s.node.begun path idx).updCust (fun x => { x with routes := rs })).storeCfg Cmd.custodyConfig (32 + u8 pl 1) pl) path idx [])

/-- Lift and gate commands complete with their effect on calls, settings and gates; that a command row names its mailbox is the model's choice, log 11. For each of these constructors of Instr exec answers a next state: liftCall, liftStatus, liftConfig, gateCommand. (R372, R373, R374, R375) -/
def Obligations.LiftAndGateCommandsComplete : Prop :=
  (∀ (s : State) (path idx : Nat) (pl : List Byte) (r : Nat × Nat × Node), Serves s.node Cmd.liftCall path idx pl →
    Passes [badLen pl 4, badIn (u8 pl 0) 0 3 0, badIn (u8 pl 2) 0 2 2, badRes pl 3 1] →
    r = (s.node.begun path idx).liftCall (u8 pl 0) (u8 pl 1) (u8 pl 2) → r.1 = Rs.ok →
    DoneOk (.liftCall path idx) s r.2.2 path idx (leBytes 2 (r.2.2.lift (u8 pl 0)).calls.toNat ++ [0, 0])) ∧
  (∀ (s : State) (path idx : Nat) (pl : List Byte), Serves s.node Cmd.liftStatus path idx pl →
    Passes [badLen pl 4, badIn (u8 pl 0) 0 3 0, badRes pl 1 3] →
    let l := u8 pl 0; let x := (s.node.begun path idx).lift l; let gs : List Byte := (List.range 16).map (fun k => BitVec.ofNat 8 (match (s.node.begun path idx).gateAt l k with | some g => ((s.node.begun path idx).gate g).st.code | none => 0xFF)); DoneOk (.liftStatus path idx) s (s.node.begun path idx) path idx (leBytes 1 x.st.code ++ leBytes 1 (b2n x.referenced + 2 * b2n x.demand + 4 * b2n x.refPending) ++ leBytes 1 (((s.node.begun path idx).atLevel l).getD 0xFF) ++ leBytes 1 x.dir ++ leBytes 4 (ofSigned 32 x.carPos) ++ leBytes 1 x.target ++ [0] ++ leBytes 2 x.calls.toNat ++ leBytes 2 x.outOfService.toNat ++ [0, 0] ++ gs ++ leBytes 8 x.lastRef ++ leBytes 4 (ofSigned 32 x.correction))) ∧
  (∀ (s : State) (path idx : Nat) (pl : List Byte), Serves s.node Cmd.liftConfig path idx pl →
    Passes [(decide (pl.length < 2), Rs.lengthBad, 0), badIn (u8 pl 1) 0 3 1] → u8 pl 1 = 0 →
    Passes [badLen pl 36, badIn (u8 pl 0) 0 3 0, (((s.node.begun path idx).liftEntry (u8 pl 0)).active, Rs.chanBusy, 0), badRes pl 2 2, badRange (!finiteNonzero (u32 pl 4)) 4, badRange (!finiteNonzero (u32 pl 8)) 8, badRange (if ((s.node.begun path idx).liftStall (u8 pl 0)).isSome = true then (if ((s.node.begun path idx).stall (((s.node.begun path idx).liftEntry (u8 pl 0)).pf 10 2)).kd = K.axis then (u32 pl 12) != 0 else !(b32.le 0x3F800000 (u32 pl 12) && b32.le (u32 pl 12) 0x461C4000)) else !((b32.le 0x3F800000 (u32 pl 12) && b32.le (u32 pl 12) 0x461C4000) || (u32 pl 12) == 0)) 12, badIn (u16 pl 16) 1 500 16, badIn (u16 pl 18) 10 1000 18, badIn (u16 pl 20) 10 30 20, badIn (u16 pl 22) 1 30 22, badIn (u32 pl 24) 1 10000000 24, badIn (u16 pl 28) 0 60000 28, badIn (u8 pl 30) 0 1 30, badRange (decide (63 < u8 pl 31) && u8 pl 31 != 0xFF) 31, badRange (decide (15 < u8 pl 32) && u8 pl 32 != 0xFF) 32, badRes pl 33 1, badIn (u16 pl 34) 0 3600 34] →
    (s.node.begun path idx).cfgRo = false →
    DoneOk (.liftConfig path idx) s (((s.node.begun path idx).updLift (u8 pl 0) (fun x => { x with cfgOk := true, scale := BitVec.ofNat 32 (u32 pl 4), driveScale := BitVec.ofNat 32 (u32 pl 8), decel := BitVec.ofNat 32 (u32 pl 12), vRef := u16 pl 16, refTol := u16 pl 18, flagHalf := u16 pl 20, stopTol := u16 pl 22, refTravel := u32 pl 24, dwell := u16 pl 28, refUp := u8 pl 30 == 1, holdFlag := u8 pl 31, parkLevel := u8 pl 32, idleTime := u16 pl 34 })).storeCfg Cmd.liftConfig (u8 pl 0) pl) path idx []) ∧
  (∀ (s : State) (path idx : Nat) (pl : List Byte), Serves s.node Cmd.liftConfig path idx pl →
    Passes [(decide (pl.length < 2), Rs.lengthBad, 0), badIn (u8 pl 1) 0 3 1] → u8 pl 1 = 1 →
    Passes [(decide (pl.length < 4), Rs.lengthBad, 0), badIn (u8 pl 0) 0 3 0, (((s.node.begun path idx).liftEntry (u8 pl 0)).active, Rs.chanBusy, 0), badIn (u8 pl 3) 1 16 3, badRange (decide (16 < u8 pl 2 + u8 pl 3)) 3, badLen pl (4 + 4 * u8 pl 3)] →
    (s.node.begun path idx).cfgRo = false →
    let tb := (List.range (u8 pl 3)).foldl (fun (t : Tbl Int) i => t.put (u8 pl 2 + i) (s32 pl (4 + 4 * i))) ((s.node.begun path idx).lift (u8 pl 0)).levelTable; DoneOk (.liftConfig path idx) s (((s.node.begun path idx).updLift (u8 pl 0) (fun x => { x with tableOk := true, levelTable := tb })).storeCfg Cmd.liftConfig (4 + u8 pl 0 * 16 + u8 pl 2) pl) path idx []) ∧
  (∀ (s : State) (path idx : Nat) (pl : List Byte), Serves s.node Cmd.liftConfig path idx pl →
    Passes [(decide (pl.length < 2), Rs.lengthBad, 0), badIn (u8 pl 1) 0 3 1] → u8 pl 1 = 2 →
    Passes [badLen pl 36, badIn (u8 pl 0) 0 15 0, (((s.node.begun path idx).gateEntry (u8 pl 0)).active, Rs.chanBusy, 0), badRes pl 2 2, badIn (u16 pl 4) 10 5000 4, badIn (u16 pl 6) 100 30000 6, badIn (u16 pl 8) 100 30000 8, badIn (u16 pl 10) 10 5000 10, badIn (u16 pl 12) 0 30000 12, badRange (if (((s.node.begun path idx).gateStall (u8 pl 0)).isSome && ((s.node.begun path idx).stall (((s.node.begun path idx).gateEntry (u8 pl 0)).pf 10 2)).kd != K.prot) = true then u16 pl 14 != 0 else if ((s.node.begun path idx).gateStall (u8 pl 0)).isSome = true then decide (u16 pl 14 < 100 ∨ 3000 < u16 pl 14) else u16 pl 14 != 0 && decide (u16 pl 14 < 100 ∨ 3000 < u16 pl 14)) 14, badRange (decide (1000000 < u32 pl 16) || (((s.node.begun path idx).gateStall (u8 pl 0)).isSome && !(((s.node.begun path idx).stall (((s.node.begun path idx).gateEntry (u8 pl 0)).pf 10 2)).kd == K.axis) && u32 pl 16 != 0)) 16, badRange (((s.node.begun path idx).gateStall (u8 pl 0)).isSome && !(((s.node.begun path idx).stall (((s.node.begun path idx).gateEntry (u8 pl 0)).pf 10 2)).kd == K.axis) && u64 pl 20 != 0) 20, badRange (((s.node.begun path idx).gateStall (u8 pl 0)).isSome && !(((s.node.begun path idx).stall (((s.node.begun path idx).gateEntry (u8 pl 0)).pf 10 2)).kd == K.axis) && u64 pl 28 != 0) 28] →
    (s.node.begun path idx).cfgRo = false →
    DoneOk (.liftConfig path idx) s (((s.node.begun path idx).updGate (u8 pl 0) (fun y => { y with cfgOk := true, tUnlock := u16 pl 4, tOpen := u16 pl 6, tClose := u16 pl 8, tLock := u16 pl 10, retryDwell := u16 pl 12, iObst := u16 pl 14, ferrObst := u32 pl 16, openPos := s64 pl 20, closedPos := s64 pl 28 })).storeCfg Cmd.liftConfig (68 + u8 pl 0) pl) path idx []) ∧
  (∀ (s : State) (path idx : Nat) (pl : List Byte), Serves s.node Cmd.liftConfig path idx pl →
    Passes [(decide (pl.length < 2), Rs.lengthBad, 0), badIn (u8 pl 1) 0 3 1] → u8 pl 1 = 3 →
    Passes [badLen pl 3, badIn (u8 pl 2) 0 2 2, badIn (u8 pl 0) 0 (if u8 pl 2 = 2 then 15 else 3) 0] →
    DoneOk (.liftConfig path idx) s (s.node.begun path idx) path idx (if u8 pl 2 = 0 then ((s.node.begun path idx).lift (u8 pl 0)).settings (u8 pl 0) else if u8 pl 2 = 1 then ((s.node.begun path idx).lift (u8 pl 0)).tableBytes (u8 pl 0) else ((s.node.begun path idx).gate (u8 pl 0)).settings (u8 pl 0))) ∧
  (∀ (s : State) (path idx : Nat) (pl : List Byte) (r : Nat × Node), Serves s.node Cmd.gateCommand path idx pl →
    Passes [badLen pl 4, badIn (u8 pl 0) 0 15 0, badIn (u8 pl 1) 0 2 1, badRes pl 2 2] → r = (s.node.begun path idx).gateCommand (u8 pl 0) (u8 pl 1) →
    r.1 = Rs.ok → DoneOk (.gateCommand path idx) s r.2 path idx (leBytes 1 (r.2.gate (u8 pl 0)).st.code ++ [0, 0, 0]))

/-- Harvest and event recorder commands complete in every op; that a command row names its mailbox is the model's choice, log 11. For each of these constructors of Instr exec answers a next state: harvestList, harvestTrigger, harvestCollector, harvestStatus, eventRead, eventClear, recorderStatus. (R378, R380, R386, R390, R391, R396, R406, R407, R408) -/
def Obligations.HarvestAndRecorderCommandsComplete : Prop :=
  (∀ (s : State) (path idx : Nat) (pl : List Byte), Serves s.node Cmd.harvestList path idx pl →
    Passes [(pl.isEmpty, Rs.lengthBad, 0), badIn (u8 pl 0) 0 3 0] → u8 pl 0 = 0 →
    Passes [badLen pl 20, badIn (u8 pl 1) 0 2 1, badIn (u8 pl 2) 0 1 2, badIn (u8 pl 3) 0 1 3, badIn (u32 pl 4) (if u8 pl 1 = 0 then 10 else 20) 1000000 4, badIn (u16 pl 8) 1 65535 8, badRange (!(u8 pl 2 == 1) && u16 pl 10 != 0) 10, badRange (if (u8 pl 2 == 1) = true then u16 pl 12 == 0 else u16 pl 12 != 0) 12, badRes pl 14 2, badIn (u32 pl 16) 0 100000 16] →
    DoneOk (.harvestList path idx) s ((s.node.begun path idx).updHarv (fun h => { h with stagedSet := HvSet.ofBytes pl })) path idx []) ∧
  (∀ (s : State) (path idx : Nat) (pl : List Byte), Serves s.node Cmd.harvestList path idx pl →
    Passes [(pl.isEmpty, Rs.lengthBad, 0), badIn (u8 pl 0) 0 3 0] → u8 pl 0 = 1 →
    Passes ([(decide (pl.length < 4), Rs.lengthBad, 0), badIn (u8 pl 2) 1 38 2, badLen pl (4 + 12 * u8 pl 2), badIn (u8 pl 1) 0 127 1, badRange (decide (128 < u8 pl 1 + u8 pl 2)) 2, badRes pl 3 1] ++ (List.range (u8 pl 2)).flatMap (fun i => [badRange (decide (1024 ≤ (HvEntry.ofBytes pl (4 + 12 * i)).stall) && !(HvEntry.ofBytes pl (4 + 12 * i)).ends) (4 + 12 * i), badIn (HvEntry.ofBytes pl (4 + 12 * i)).mode 0 2 (4 + 12 * i + 2), badRes pl (4 + 12 * i + 3) 1, badRange ((HvEntry.ofBytes pl (4 + 12 * i)).divider == 0 && !(HvEntry.ofBytes pl (4 + 12 * i)).ends) (4 + 12 * i + 4), badRes pl (4 + 12 * i + 6) 2])) →
    DoneOk (.harvestList path idx) s ((s.node.begun path idx).updHarv (fun h => { h with stagedEnt := (List.range (u8 pl 2)).foldl (fun t i => t.put (u8 pl 1 + i) (HvEntry.ofBytes pl (4 + 12 * i))) h.stagedEnt })) path idx []) ∧
  (∀ (s : State) (path idx : Nat) (pl : List Byte), Serves s.node Cmd.harvestList path idx pl →
    Passes [(pl.isEmpty, Rs.lengthBad, 0), badIn (u8 pl 0) 0 3 0] → u8 pl 0 = 2 → pl.length = 1 →
    (((List.range 128).map (s.node.begun path idx).harv.stagedAt).takeWhile (fun e => !e.ends)).isEmpty = false →
    (((List.range 128).map (s.node.begun path idx).harv.stagedAt).drop (((List.range 128).map (s.node.begun path idx).harv.stagedAt).takeWhile (fun e => !e.ends)).length).any (fun e => !e.ends) = false →
    (((List.range 128).map (s.node.begun path idx).harv.stagedAt).takeWhile (fun e => !e.ends)).any (fun e => ((s.node.begun path idx).stall e.stall).kd == K.unassigned || (e.mode == 1 && ((s.node.begun path idx).stall e.stall).fm == F.bool) || !(s.node.begun path idx).bandOk e) = false →
    hvLoad (s.node.begun path idx).harv.stagedSet (((List.range 128).map (s.node.begun path idx).harv.stagedAt).takeWhile (fun e => !e.ends)) ≤ 2000000 →
    (s.node.begun path idx).cfgRo = false → (s.node.begun path idx).mem.harvestTaken ≤ rawPages →
    let h := (s.node.begun path idx).harv; let es := (((List.range 128).map (s.node.begun path idx).harv.stagedAt).takeWhile (fun e => !e.ends)); let n := (s.node.begun path idx).storeCfg Cmd.harvestList 0 (s.node.begun path idx).harv.stagedSet.bytes; let n := (List.range 4).foldl (fun n i => n.storeCfg Cmd.harvestList (1 + i) ([1, BitVec.ofNat 8 (38 * i), BitVec.ofNat 8 (min 38 (128 - 38 * i)), 0] ++ (List.range (min 38 (128 - 38 * i))).flatMap (fun j => (h.stagedAt (38 * i + j)).bytes))) n; let n := n.storeCfg Cmd.harvestList 5 pl; let t := n.now + us 100; DoneOk (.harvestList path idx) s (n.updHarv (fun x => { x with newList := some ((s.node.begun path idx).harv.stagedSet, es, if (s.node.begun path idx).harv.stagedSet.clock = 2 then t else nextGrid t (s.node.begun path idx).harv.stagedSet.ns), trigs := x.trigs.mapE (fun _ y => if y.source = 0 ∧ !es.any (fun e => e.stall == y.stall) then { y with st := .disarmed } else y) })) path idx []) ∧
  (∀ (s : State) (path idx : Nat) (pl : List Byte), Serves s.node Cmd.harvestList path idx pl →
    Passes [(pl.isEmpty, Rs.lengthBad, 0), badIn (u8 pl 0) 0 3 0] → u8 pl 0 = 3 → u8 pl 1 = 0 → pl.length = 2 →
    DoneOk (.harvestList path idx) s (s.node.begun path idx) path idx (s.node.begun path idx).harv.committed.1.bytes) ∧
  (∀ (s : State) (path idx : Nat) (pl : List Byte), Serves s.node Cmd.harvestList path idx pl →
    Passes [(pl.isEmpty, Rs.lengthBad, 0), badIn (u8 pl 0) 0 3 0] → u8 pl 0 = 3 → u8 pl 1 ≠ 0 →
    Passes [badIn (u8 pl 1) 0 1 1, badLen pl 4, badIn (u8 pl 2) 0 127 2, badIn (u8 pl 3) 1 38 3, badRange (decide (128 < u8 pl 2 + u8 pl 3)) 3] →
    DoneOk (.harvestList path idx) s (s.node.begun path idx) path idx ((List.range (u8 pl 3)).flatMap (fun i => ((s.node.begun path idx).harv.committed.2.getD (u8 pl 2 + i) {}).bytes))) ∧
  (∀ (s : State) (path idx : Nat) (pl : List Byte), Serves s.node Cmd.harvestTrigger path idx pl →
    Passes [(decide (pl.length < 4), Rs.lengthBad, 0), badIn (u8 pl 0) 0 31 0, badIn (u8 pl 1) 0 3 1] → u8 pl 1 = 0 →
    Passes [badLen pl 24, badIn (u8 pl 2) 0 3 2, badIn (u8 pl 3) 0 1 3, badRange (if u8 pl 2 = 0 then decide (u8 pl 4 < 1 ∨ 0x0B < u8 pl 4) else u8 pl 4 != 0) 4, badIn (u8 pl 5) 0 1 5, badRange (if u8 pl 2 = 0 then !(s.node.begun path idx).harv.committed.2.any (fun e => e.stall == u16 pl 6) || u16 pl 6 == 0xFFFF else u16 pl 6 != 0xFFFF) 6, badRange (if u8 pl 3 = 1 then decide (60000000 < u32 pl 16) else u32 pl 16 != 0) 16, badRes pl 20 4] →
    let y : Trig := { st := .armed, source := u8 pl 2, auto := u8 pl 3 == 1, cond := u8 pl 4, tbusOut := u8 pl 5 == 1, stall := u16 pl 6, value := BitVec.ofNat 64 (u64 pl 8), holdoff := u32 pl 16, fires := 0, last := ((s.node.begun path idx).trig (u8 pl 0)).last, lastIndex := ((s.node.begun path idx).trig (u8 pl 0)).lastIndex }; DoneOk (.harvestTrigger path idx) s ((s.node.begun path idx).setTrig (u8 pl 0) y) path idx y.results) ∧
  (∀ (s : State) (path idx : Nat) (pl : List Byte), Serves s.node Cmd.harvestTrigger path idx pl →
    Passes [(decide (pl.length < 4), Rs.lengthBad, 0), badIn (u8 pl 0) 0 31 0, badIn (u8 pl 1) 0 3 1] → u8 pl 1 = 1 → pl.length = 4 →
    let n := (s.node.begun path idx).setTrig (u8 pl 0) { (s.node.begun path idx).trig (u8 pl 0) with st := .disarmed }; DoneOk (.harvestTrigger path idx) s n path idx (n.trig (u8 pl 0)).results) ∧
  (∀ (s : State) (path idx : Nat) (pl : List Byte), Serves s.node Cmd.harvestTrigger path idx pl →
    Passes [(decide (pl.length < 4), Rs.lengthBad, 0), badIn (u8 pl 0) 0 31 0, badIn (u8 pl 1) 0 3 1] → u8 pl 1 = 2 → pl.length = 4 →
    ((s.node.begun path idx).trig (u8 pl 0)).source = 3 → ((s.node.begun path idx).trig (u8 pl 0)).st = .armed →
    let n := (s.node.begun path idx).fireTrigger (u8 pl 0) (s.node.begun path idx).now; DoneOk (.harvestTrigger path idx) s n path idx (n.trig (u8 pl 0)).results) ∧
  (∀ (s : State) (path idx : Nat) (pl : List Byte), Serves s.node Cmd.harvestTrigger path idx pl →
    Passes [(decide (pl.length < 4), Rs.lengthBad, 0), badIn (u8 pl 0) 0 31 0, badIn (u8 pl 1) 0 3 1] → u8 pl 1 = 3 → pl.length = 4 →
    DoneOk (.harvestTrigger path idx) s (s.node.begun path idx) path idx ((s.node.begun path idx).trig (u8 pl 0)).results) ∧
  (∀ (s : State) (path idx : Nat) (pl : List Byte), Serves s.node Cmd.harvestCollector path idx pl →
    Passes [badLen pl 12, badIn (u8 pl 0) 0 3 0, badIn (u8 pl 1) 0 1 1, badRes pl 2 2, badRange (u8 pl 1 == 0 && !collectorAddr (u16 pl 4)) 4, badRes pl 6 2, badRange (u8 pl 1 == 0 && decide (u32 pl 8 < 64 ∨ 100000 < u32 pl 8)) 8, (((s.node.begun path idx).hslot (u8 pl 0)).waiter.isSome, Rs.busy, 0)] →
    u8 pl 1 = 0 → (s.node.begun path idx).ringCap (u8 pl 0) ≠ 0 →
    (((List.range 4).filter (· != (u8 pl 0))).map (fun j => if ((s.node.begun path idx).hslot j).st = .none then 0 else ((s.node.begun path idx).hslot j).share)).sum + u32 pl 8 ≤ 100000 →
    (s.node.begun path idx).cfgRo = false →
    let n := (s.node.begun path idx).storeCfg Cmd.harvestCollector (u8 pl 0) pl; let x := n.hslot (u8 pl 0); Done (.harvestCollector path idx) s ((n.setHslot (u8 pl 0) { address := u16 pl 4, share := u32 pl 8, fseq := x.fseq, waiter := some (path * 16 + idx), bucket := x.bucket }).requestSlot (u8 pl 0))) ∧
  (∀ (s : State) (path idx : Nat) (pl : List Byte), Serves s.node Cmd.harvestCollector path idx pl →
    Passes [badLen pl 12, badIn (u8 pl 0) 0 3 0, badIn (u8 pl 1) 0 1 1, badRes pl 2 2, badRange (u8 pl 1 == 0 && !collectorAddr (u16 pl 4)) 4, badRes pl 6 2, badRange (u8 pl 1 == 0 && decide (u32 pl 8 < 64 ∨ 100000 < u32 pl 8)) 8, (((s.node.begun path idx).hslot (u8 pl 0)).waiter.isSome, Rs.busy, 0)] →
    u8 pl 1 = 1 → (s.node.begun path idx).cfgRo = false →
    let n := (s.node.begun path idx).storeCfg Cmd.harvestCollector (u8 pl 0) pl; let x := n.hslot (u8 pl 0); let n := n.updHarv (fun h => { h with grants := h.grants.filter (fun g => !(g.1 == n.addr && g.2.1 == (u8 pl 0))) }); DoneOk (.harvestCollector path idx) s (n.setHslot (u8 pl 0) { fseq := x.fseq, bucket := x.bucket }) path idx (leBytes 1 0 ++ leBytes 4 0)) ∧
  (∀ (s : State) (path idx : Nat) (pl : List Byte), Serves s.node Cmd.harvestStatus path idx pl → Passes [badLen pl 0] →
    let h := (s.node.begun path idx).harv; let v := ((s.node.begun path idx).free 8).1; let n := ((s.node.begun path idx).free 8).2.updHarv (fun h => { h with samples := 0, gaps := 0, marks := 0 }); DoneOk (.harvestStatus path idx) s n path idx (leBytes 2 h.generation ++ leBytes 1 h.inForce.clock ++ leBytes 1 (b2n h.inForce.windowed) ++ leBytes 4 ((List.range 4).map (fun k => ((s.node.begun path idx).hslot k).st.code * 256 ^ k)).sum ++ leBytes 4 h.samples ++ leBytes 4 h.gaps ++ leBytes 4 h.marks ++ leBytes 4 (⌊hvLoad h.inForce h.entries⌋).toNat ++ leBytes 4 (if h.raw.isEmpty ∧
    h.held.isEmpty then 0 else v.toNat % 524289) ++ leBytes 8 h.lastIndex)) ∧
  (∀ (s : State) (path idx : Nat) (pl : List Byte), Serves s.node Cmd.eventRead path idx pl →
    Passes [badLen pl 12, badIn (u8 pl 0) 0 1 0, badRes pl 1 3, badIn (u16 pl 8) 1 14 8, badRes pl 10 2, ((s.node.begun path idx).rcd.clearing, Rs.busy, 0)] →
    let l := (s.node.begun path idx).rcd.inOrder (u8 pl 0 == 1); let t := takeRecs (u16 pl 8) (fromStart (u32 pl 4) l); let v := ((s.node.begun path idx).free 9).1; DoneOk (.eventRead path idx) s ((s.node.begun path idx).free 9).2 path idx (leBytes 2 t.1.length ++ leBytes 2 t.2 ++ leBytes 4 ((t.1.getLast?.map (fun r => (r.seq + 1) % 2 ^ 32)).getD (u32 pl 4)) ++ leBytes 4 (((validRecs l).head?.map EvRec.seq).getD (v.toNat % 2 ^ 32)) ++ t.1.flatMap EvRec.bytes)) ∧
  (∀ (s : State) (path idx : Nat) (pl : List Byte), Serves s.node Cmd.eventClear path idx pl →
    Passes [badLen pl 88, badIn (u8 pl 12) 0 1 12, badRes pl 13 3, ((s.node.begun path idx).rcd.clearing, Rs.busy, 0)] →
    Done (.eventClear path idx) s (if u64 pl 0 = Config.serial.toNat ∧ u32 pl 8 = ((s.node.begun path idx).rcd.clears + 1) % 2 ^ 32 ∧
    (match (s.node.begun path idx).ownerKey (u64 pl 16) with | some k => sm2Verify k (sm3 (slice pl 0 24)) (slice pl 24 64) | none => false) = true then (s.node.begun path idx).updRcd (fun r => { r with clear := .rickRecord (u8 pl 12) r.queue.length, clearWaiter := some (path * 16 + idx), clearRec := some { code := Ev.eventCleared, flags := if ((s.node.begun path idx).time.servo == .free) = true then 8#8 else 0#8, suppressed := 0, seq := 0, t := (s.node.begun path idx).now, p0 := u32 pl 8, p1 := u8 pl 12, p2 := u32 pl 16 } }) else (s.node.begun path idx).answer (path * 16 + idx) Rs.clearTokenInvalid 0 [])) ∧
  (∀ (s : State) (path idx : Nat) (pl : List Byte), Serves s.node Cmd.recorderStatus path idx pl →
    Passes [badLen pl 0, ((s.node.begun path idx).rcd.clearing, Rs.busy, 0)] →
    let r := (s.node.begun path idx).rcd; let v := ((s.node.begun path idx).free 9).1; let n := ((s.node.begun path idx).free 9).2.updRcd (fun r => { r with queuePeak := r.queue.length }); DoneOk (.recorderStatus path idx) s n path idx (leBytes 2 r.gHead ++ leBytes 1 (b2n ((s.node.begun path idx).partRo 4) + 2 * b2n ((s.node.begun path idx).partRo 5)) ++ [0] ++ leBytes 4 (131072 - 128 * r.rickRetired.length) ++ leBytes 4 (if (validRecs r.rick).isEmpty then v.toNat % 2 ^ 32 else (r.nextSeq + 2 ^ 32 - 1) % 2 ^ 32) ++ leBytes 4 r.clears ++ leBytes 4 r.suppressed ++ leBytes 4 r.torn ++ leBytes 2 r.queuePeak ++ [0, 0]))

/-- Safety, sleep and energy commands complete in every op; that a command row names its mailbox is the model's choice, log 11. For each of these constructors of Instr exec answers a next state: safetyStatus, safetyConfigLoad, safetyRestart, gleanerRules, sleepPolicy, energyRead. (R440, R441, R442, R446, R457, R459) -/
def Obligations.SafetyAndGleanerCommandsComplete : Prop :=
  (∀ (s : State) (path idx : Nat) (pl : List Byte), Serves s.node Cmd.safetyStatus path idx pl → Passes [badLen pl 0] →
    let f := (s.node.begun path idx).safe; let x := (s.node.begun path idx).chan f.speaker; DoneOk (.safetyStatus path idx) s (s.node.begun path idx) path idx (leBytes 1 f.zone.code ++ leBytes 1 f.chA.st.code ++ leBytes 1 f.chB.st.code ++ leBytes 1 f.cause ++ leBytes 4 (if f.zone.isSingle = true then (f.fallbackEnd - (s.node.begun path idx).now) / 1000000000 else 0) ++ leBytes 4 (s.node.begun path idx).sfCfg.sequence ++ (if f.cfg.isSome = true then sm3 f.cfgBytes else List.replicate 32 0) ++ leBytes 4 ((List.range 12).map (fun k => (x.conn k).st.code * 4 ^ k)).sum ++ leBytes 4 f.cycles ++ (List.range 32).flatMap (fun i => leBytes 4 (x.values.getD i 0).toNat))) ∧
  (∀ (s : State) (path idx : Nat) (pl : List Byte), Serves s.node Cmd.safetyConfigLoad path idx pl →
    Passes [(decide (pl.length < 8), Rs.lengthBad, 0), badIn (u8 pl 0) 0 2 0] → u8 pl 0 = 0 →
    Passes [badRes pl 1 1, badIn (u16 pl 4) 1 464 4, badLen pl (8 + u16 pl 4), badRange (decide (sfSize < u16 pl 2 + u16 pl 4)) 2, badRes pl 6 2] →
    DoneOk (.safetyConfigLoad path idx) s ((s.node.begun path idx).updSafe (fun f => { f with staged := (List.range (u16 pl 4)).foldl (fun t i => t.put (u16 pl 2 + i) (BitVec.ofNat 8 (u8 pl (8 + i)))) f.staged })) path idx []) ∧
  (∀ (s : State) (path idx : Nat) (pl : List Byte), Serves s.node Cmd.safetyConfigLoad path idx pl →
    Passes [(decide (pl.length < 8), Rs.lengthBad, 0), badIn (u8 pl 0) 0 2 0] → u8 pl 0 = 1 →
    Done (.safetyConfigLoad path idx) s ((s.node.begun path idx).sfCommit (path * 16 + idx) pl)) ∧
  (∀ (s : State) (path idx : Nat) (pl : List Byte), Serves s.node Cmd.safetyConfigLoad path idx pl →
    Passes [(decide (pl.length < 8), Rs.lengthBad, 0), badIn (u8 pl 0) 0 2 0] → u8 pl 0 = 2 →
    Passes [badRes pl 1 1, badIn (u16 pl 4) 1 464 4, badLen pl 8, badRange (decide (sfSize < u16 pl 2 + u16 pl 4)) 2, badRes pl 6 2, ((s.node.begun path idx).safe.cfg.isNone, Rs.notFound, 0)] →
    DoneOk (.safetyConfigLoad path idx) s (s.node.begun path idx) path idx (slice (s.node.begun path idx).safe.cfgBytes (u16 pl 2) (u16 pl 4))) ∧
  (∀ (s : State) (path idx : Nat) (pl : List Byte), Serves s.node Cmd.safetyRestart path idx pl →
    Passes [badLen pl 4, badRange (decide (31 < (u8 pl 0)) && (u8 pl 0) != 0xFF) 0, badIn (u8 pl 1) 0 1 1, badRes pl 2 2, (u8 pl 1 == 0 && (u8 pl 0) != 0xFF && ((s.node.begun path idx).sfCfg.func (u8 pl 0)).code == 0, Rs.notFound, 0)] →
    let n := (s.node.begun path idx).sfRequest (if u8 pl 1 = 0 then 5 else 6) (u8 pl 0); Done (.safetyRestart path idx) s (n.updSafe (fun f => { f with waiters := f.waiters ++ [(f.reqSeq, (path * 16 + idx))] }))) ∧
  (∀ (s : State) (path idx : Nat) (pl : List Byte), Serves s.node Cmd.gleanerRules path idx pl →
    Passes [(decide (pl.length < 4), Rs.lengthBad, 0), badIn (u8 pl 0) 0 2 0, badIn (u8 pl 2) (if u8 pl 0 = 1 then 0 else 1) (if u8 pl 0 = 0 then 28 else if u8 pl 0 = 2 then 20 else 0) 2, badLen pl (if u8 pl 0 = 0 then 4 + 16 * u8 pl 2 else 4), badIn (u8 pl 1) 0 63 1, badRange (decide (64 < u8 pl 1 + u8 pl 2)) 2, badRes pl 3 1] →
    u8 pl 0 = 0 →
    DoneOk (.gleanerRules path idx) s ((s.node.begun path idx).updGlean (fun g => { g with staged := (List.range (u8 pl 2)).foldl (fun t i => t.put (u8 pl 1 + i) (GlRule.ofBytes (slice pl (4 + 16 * i) 16))) g.staged })) path idx []) ∧
  (∀ (s : State) (path idx : Nat) (pl : List Byte), Serves s.node Cmd.gleanerRules path idx pl →
    Passes [(decide (pl.length < 4), Rs.lengthBad, 0), badIn (u8 pl 0) 0 2 0, badIn (u8 pl 2) (if u8 pl 0 = 1 then 0 else 1) (if u8 pl 0 = 0 then 28 else if u8 pl 0 = 2 then 20 else 0) 2, badLen pl (if u8 pl 0 = 0 then 4 + 16 * u8 pl 2 else 4), badIn (u8 pl 1) 0 63 1, badRange (decide (64 < u8 pl 1 + u8 pl 2)) 2, badRes pl 3 1] →
    u8 pl 0 = 1 → (s.node.begun path idx).glTableFault (s.node.begun path idx).glean.staged = none →
    (s.node.begun path idx).glFits (s.node.begun path idx).glean.staged = true → (s.node.begun path idx).cfgRo = false →
    let bytes := (List.range 64).flatMap (fun k => ((s.node.begun path idx).glean.staged.getD k {}).bytes); DoneOk (.gleanerRules path idx) s (((s.node.begun path idx).updGlean (fun g => { g with rules := g.staged, sts := [] })).storeCfg Cmd.gleanerRules 0 bytes) path idx []) ∧
  (∀ (s : State) (path idx : Nat) (pl : List Byte), Serves s.node Cmd.gleanerRules path idx pl →
    Passes [(decide (pl.length < 4), Rs.lengthBad, 0), badIn (u8 pl 0) 0 2 0, badIn (u8 pl 2) (if u8 pl 0 = 1 then 0 else 1) (if u8 pl 0 = 0 then 28 else if u8 pl 0 = 2 then 20 else 0) 2, badLen pl (if u8 pl 0 = 0 then 4 + 16 * u8 pl 2 else 4), badIn (u8 pl 1) 0 63 1, badRange (decide (64 < u8 pl 1 + u8 pl 2)) 2, badRes pl 3 1] →
    u8 pl 0 = 2 →
    DoneOk (.gleanerRules path idx) s (s.node.begun path idx) path idx ((List.range (u8 pl 2)).flatMap (fun i => ((s.node.begun path idx).glean.rules.getD (u8 pl 1 + i) {}).bytes) ++ (List.range (u8 pl 2)).flatMap (fun i => leBytes 4 ((s.node.begun path idx).glean.sts.getD (u8 pl 1 + i) {}).count.toNat))) ∧
  (∀ (s : State) (path idx : Nat) (pl : List Byte), Serves s.node Cmd.sleepPolicy path idx pl →
    Passes [(decide (pl.length < 1), Rs.lengthBad, 0), badIn (u8 pl 0) 0 1 0, badLen pl (if u8 pl 0 = 0 then 24 else 4)] → u8 pl 0 = 0 →
    Passes ([badIn (u8 pl 1) 0 1 1, (decide (16 ≤ u8 pl 2), Rs.paramReserved, 2), badRange (!([1, 2, 4, 5, 8, 10].contains (u8 pl 3))) 3, badIn (u32 pl 4) 10 3600000 4] ++ (List.range 8).map (fun k => badRange (u16 pl (8 + 2 * k) != noStall && !(decide (u16 pl (8 + 2 * k) < numStalls) && ((s.node.begun path idx).stall (u16 pl (8 + 2 * k))).kd == K.linepoint)) (8 + 2 * k))) →
    (s.node.begun path idx).cfgRo = false →
    let n := ((s.node.begun path idx).updGlean (fun g => { g with enable := u8 pl 1 == 1, flags := BitVec.ofNat 8 (u8 pl 2), rate := u8 pl 3, delay := u32 pl 4, watch := (List.range 8).map (fun k => u16 pl (8 + 2 * k)) })).storeCfg Cmd.sleepPolicy 0 pl; DoneOk (.sleepPolicy path idx) s n path idx n.sleepResults) ∧
  (∀ (s : State) (path idx : Nat) (pl : List Byte), Serves s.node Cmd.sleepPolicy path idx pl →
    Passes [(decide (pl.length < 1), Rs.lengthBad, 0), badIn (u8 pl 0) 0 1 0, badLen pl (if u8 pl 0 = 0 then 24 else 4)] → u8 pl 0 = 1 →
    Passes [badRes pl 1 3] → DoneOk (.sleepPolicy path idx) s (s.node.begun path idx) path idx (s.node.begun path idx).sleepResults) ∧
  (∀ (s : State) (path idx : Nat) (pl : List Byte), Serves s.node Cmd.energyRead path idx pl →
    Passes [badLen pl 4, (decide (2 ^ 17 ≤ u32 pl 0), Rs.paramReserved, 0)] →
    DoneOk (.energyRead path idx) s (s.node.begun path idx) path idx (leBytes 8 (s.node.begun path idx).now ++ leBytes 4 (s.node.begun path idx).cust.releasedCount ++ [0, 0, 0, 0] ++ leBytes 8 (s.node.begun path idx).cust.charged ++ (List.range 17).flatMap (fun k => if bit (u32 pl 0) k = true then leBytes 8 ((s.node.begun path idx).glean.meters.getD k 0) else [])))

/-- Session and host key commands complete with their effect on sessions and keys; that a command row names its mailbox is the model's choice, log 11. For each of these constructors of Instr exec answers a next state: sessionHello, sessionConfirm, sessionClose, certRead, hostkeyAdd, hostkeyRemove. (R66, R75, R76, R82, R463) -/
def Obligations.SessionCommandsComplete : Prop :=
  (∀ (s : State) (path idx : Nat) (pl : List Byte) (e i r : Nat) (pub : BitVec 512), Serves s.node Cmd.sessionHello path idx pl →
    Passes [badLen pl 76, badIn (u8 pl 8) 0 3 8, badRes pl 9 3, (((s.node.begun path idx).host.keys.find? (fun (e : Nat × Nat × Nat × BitVec 512) => e.2.1 == (u64 pl 0))).isNone, Rs.keyUnknown, 0), ((match ((s.node.begun path idx).host.keys.find? (fun (e : Nat × Nat × Nat × BitVec 512) => e.2.1 == (u64 pl 0))) with | some (_, _, r, _) => decide (r < u8 pl 8) | none => false), Rs.roleDenied, 0), (((s.node.begun path idx).freeSlot (mbxPath (path * 16 + idx))).isNone, Rs.sessionLimit, 0), (!(s.node.begun path idx).runs Isl.sec, Rs.busy, 0)] →
    (s.node.begun path idx).secShort = false →
    ((s.node.begun path idx).host.keys.find? (fun (e : Nat × Nat × Nat × BitVec 512) => e.2.1 == (u64 pl 0))) = some (e, i, r, pub) →
    let n := (s.node.begun path idx).freeScalar.2; Done (.sessionHello path idx) s (match sm2Respond (leBytes 8 (u64 pl 0)) serialBytes (ptOf (leBytes 64 pub.toNat)) (ptOf (slice pl 12 64)) Config.devicePriv (s.node.begun path idx).freeScalar.1 with | none => n.answer (path * 16 + idx) Rs.paramRange 12 [] | some g => (n.freshSession.2.updHost (fun h => { h with sessions := h.sessions.put n.freshSession.1 { path := mbxPath (path * 16 + idx), role := u8 pl 8, keyId := u64 pl 0, key := BitVec.ofNat 256 (leNat g.key), sA := BitVec.ofNat 256 (leNat g.sA), slot := ((s.node.begun path idx).freeSlot (mbxPath (path * 16 + idx))).getD 0, src := (n.freshSession.2.mbx (path * 16 + idx)).src, lastResp := n.freshSession.2.now } })).ok (path * 16 + idx) (leBytes 4 n.freshSession.1 ++ serialBytes ++ g.eB ++ g.sB))) ∧
  (∀ (s : State) (path idx : Nat) (pl : List Byte) (x : Session), Serves s.node Cmd.sessionConfirm path idx pl → Passes [badLen pl 36] →
    (s.node.begun path idx).host.sessions.look (u32 pl 0) = some x → x.halfOpen = true → x.path = (mbxPath (path * 16 + idx)) →
    leNat (slice pl 4 32) = x.sA.toNat →
    let id := u32 pl 0; let n := (s.node.begun path idx).updHost (fun h => { h with sessions := h.sessions.put id { x with halfOpen := false } }); let n := n.log Ev.sessionOpened id (x.keyId % 2 ^ 32) (x.role + 4 * x.path); DoneOk (.sessionConfirm path idx) s (n.setMbx (path * 16 + idx) { n.mbx (path * 16 + idx) with session := id, role := x.role }) path idx (leBytes 1 x.role ++ (if x.path = 0 then leBytes 1 (2 * x.slot) ++ leBytes 1 (2 * x.slot + 1) else [0, 0]) ++ [0])) ∧
  (∀ (s : State) (path idx : Nat) (pl : List Byte), Serves s.node Cmd.sessionClose path idx pl → Passes [badLen pl 0] →
    ((s.node.begun path idx).mbx (path * 16 + idx)).session ≠ 0 →
    DoneOk (.sessionClose path idx) s ((s.node.begun path idx).endSession ((s.node.begun path idx).mbx (path * 16 + idx)).session) path idx []) ∧
  (∀ (s : State) (path idx : Nat) (pl : List Byte), Serves s.node Cmd.certRead path idx pl → Passes [badLen pl 4, badRes pl 2 2] →
    let part := (Config.certificate.drop (u16 pl 0)).take 472; DoneOk (.certRead path idx) s (s.node.begun path idx) path idx (leBytes 2 Config.certificate.length ++ leBytes 2 part.length ++ part)) ∧
  (∀ (s : State) (path idx : Nat) (pl : List Byte), Serves s.node Cmd.hostkeyAdd path idx pl →
    Passes [badLen pl 76, badIn (u8 pl 8) 0 3 8, badRes pl 9 3, badRange ((s.node.begun path idx).host.keyEntry (u64 pl 0)).isNone 0] →
    (s.node.begun path idx).cfgRo = false →
    let e := ((s.node.begun path idx).host.keyEntry (u64 pl 0)).getD 0; DoneOk (.hostkeyAdd path idx) s (((s.node.begun path idx).updHost (fun h => { h with keys := h.keys.put e ((u64 pl 0), u8 pl 8, BitVec.ofNat 512 (leNat (slice pl 12 64))) })).storeCfg Cmd.hostkeyAdd e pl) path idx []) ∧
  (∀ (s : State) (path idx : Nat) (pl : List Byte), Serves s.node Cmd.hostkeyRemove path idx pl →
    Passes [badLen pl 8, (((s.node.begun path idx).host.keys.find? (fun (e : Nat × Nat × Nat × BitVec 512) => e.2.1 == (u64 pl 0))).isNone, Rs.notFound, 0), ((match ((s.node.begun path idx).host.keys.find? (fun (e : Nat × Nat × Nat × BitVec 512) => e.2.1 == (u64 pl 0))) with | some (_, _, r, _) => r == 3 | none => false) && (s.node.begun path idx).host.owners == 1, Rs.busy, 0)] →
    (s.node.begun path idx).cfgRo = false →
    let e := (((s.node.begun path idx).host.keys.find? (fun (e : Nat × Nat × Nat × BitVec 512) => e.2.1 == (u64 pl 0))).map (fun (x : Nat × Nat × Nat × BitVec 512) => x.1)).getD 0; let n := (s.node.begun path idx).updHost (fun h => { h with keys := h.keys.del e }); let n := { n with sec := { n.sec with stored := n.sec.stored.filter (fun r => !(r.code == Cmd.hostkeyAdd && r.index == e)) } }; DoneOk (.hostkeyRemove path idx) s (((n.host.sessions.filter (fun x => x.2.keyId == (u64 pl 0))).map Prod.fst).foldl (fun n i => n.endSession i) n) path idx [])

/-- Attestation, update and service flag commands complete; a commit completes or names what is wrong with the silo; that a command row names its mailbox is the model's choice, log 11. For each of these constructors of Instr exec answers a next state: attest, imageWrite, siloCommit, islandUpdate, serviceFlagClear. (R466, R467, R470, R474, R475) -/
def Obligations.SecurityCommandsComplete : Prop :=
  (∀ (s : State) (path idx : Nat) (pl : List Byte), Serves s.node Cmd.attest path idx pl →
    Passes [badLen pl 16, (!(s.node.begun path idx).runs Isl.sec, Rs.busy, 0)] → (s.node.begun path idx).secShort = false →
    DoneOk (.attest path idx) s (s.node.begun path idx).freeScalar.2 path idx ((s.node.begun path idx).freeScalar.2.report304 (slice pl 0 16) (s.node.begun path idx).freeScalar.1)) ∧
  (∀ (s : State) (path idx : Nat) (pl : List Byte), Serves s.node Cmd.imageWrite path idx pl →
    Passes [(decide (pl.length < 8), Rs.lengthBad, 0), badIn (u8 pl 0) 0 2 0, badRange (if u8 pl 0 = 0 then decide ((u16 pl 2) < 1 ∨ 472 < (u16 pl 2)) else (u16 pl 2) != 0) 2, badLen pl (8 + (if u8 pl 0 = 0 then (u16 pl 2) else 0)), badIn (u8 pl 1) 0 1 1, ((s.node.begun path idx).siloActive (u8 pl 1), Rs.siloActive, 0), badRange (u8 pl 0 == 0 && (u32 pl 4) != 0 && (u32 pl 4) != ((s.node.begun path idx).silo (u8 pl 1)).high) 4, badRange (u8 pl 0 == 0 && decide (siloSize < (u32 pl 4) + (u16 pl 2))) 2, (u8 pl 0 == 1 && ((s.node.begun path idx).mbx (path * 16 + idx)).session == 0, Rs.noSession, 0)] →
    (s.node.begun path idx).siloRo (u8 pl 1) = false → u8 pl 0 = 0 →
    let x := ((s.node.begun path idx).silo (u8 pl 1)).stage (u32 pl 4) (slice pl 8 (u16 pl 2)); DoneOk (.imageWrite path idx) s ((s.node.begun path idx).setSilo (u8 pl 1) x) path idx (leBytes 4 x.high ++ leBytes 4 0)) ∧
  (∀ (s : State) (path idx : Nat) (pl : List Byte), Serves s.node Cmd.imageWrite path idx pl →
    Passes [(decide (pl.length < 8), Rs.lengthBad, 0), badIn (u8 pl 0) 0 2 0, badRange (if u8 pl 0 = 0 then decide ((u16 pl 2) < 1 ∨ 472 < (u16 pl 2)) else (u16 pl 2) != 0) 2, badLen pl (8 + (if u8 pl 0 = 0 then (u16 pl 2) else 0)), badIn (u8 pl 1) 0 1 1, ((s.node.begun path idx).siloActive (u8 pl 1), Rs.siloActive, 0), badRange (u8 pl 0 == 0 && (u32 pl 4) != 0 && (u32 pl 4) != ((s.node.begun path idx).silo (u8 pl 1)).high) 4, badRange (u8 pl 0 == 0 && decide (siloSize < (u32 pl 4) + (u16 pl 2))) 2, (u8 pl 0 == 1 && ((s.node.begun path idx).mbx (path * 16 + idx)).session == 0, Rs.noSession, 0)] →
    (s.node.begun path idx).siloRo (u8 pl 1) = false → u8 pl 0 = 1 →
    let src := (match (s.node.begun path idx).host.sessions.look ((s.node.begun path idx).mbx (path * 16 + idx)).session with | some y => y.src | none => 0); let n := (s.node.begun path idx).freshTicket.2; DoneOk (.imageWrite path idx) s (n.setSilo (u8 pl 1) { ((s.node.begun path idx).silo (u8 pl 1)) with ticket := some ((s.node.begun path idx).freshTicket.1, ((s.node.begun path idx).mbx (path * 16 + idx)).session, src) }) path idx (leBytes 4 ((s.node.begun path idx).silo (u8 pl 1)).high ++ leBytes 4 (s.node.begun path idx).freshTicket.1)) ∧
  (∀ (s : State) (path idx : Nat) (pl : List Byte), Serves s.node Cmd.imageWrite path idx pl →
    Passes [(decide (pl.length < 8), Rs.lengthBad, 0), badIn (u8 pl 0) 0 2 0, badRange (if u8 pl 0 = 0 then decide ((u16 pl 2) < 1 ∨ 472 < (u16 pl 2)) else (u16 pl 2) != 0) 2, badLen pl (8 + (if u8 pl 0 = 0 then (u16 pl 2) else 0)), badIn (u8 pl 1) 0 1 1, ((s.node.begun path idx).siloActive (u8 pl 1), Rs.siloActive, 0), badRange (u8 pl 0 == 0 && (u32 pl 4) != 0 && (u32 pl 4) != ((s.node.begun path idx).silo (u8 pl 1)).high) 4, badRange (u8 pl 0 == 0 && decide (siloSize < (u32 pl 4) + (u16 pl 2))) 2, (u8 pl 0 == 1 && ((s.node.begun path idx).mbx (path * 16 + idx)).session == 0, Rs.noSession, 0)] →
    (s.node.begun path idx).siloRo (u8 pl 1) = false → u8 pl 0 = 2 →
    DoneOk (.imageWrite path idx) s (s.node.begun path idx) path idx (leBytes 4 ((s.node.begun path idx).silo (u8 pl 1)).high ++ leBytes 4 0)) ∧
  (∀ (s : State) (path idx : Nat) (pl : List Byte) (same : Bool) (cut : Nat), Serves s.node Cmd.siloCommit path idx pl →
    Passes [badLen pl 4, badIn (u8 pl 0) 0 1 0, badRes pl 1 3, (!(s.node.begun path idx).secServes, Rs.busy, 0), ((s.node.begun path idx).siloActive (u8 pl 0), Rs.siloActive, 0)] →
    (s.node.begun path idx).partRo 8 = false →
    let n := ((s.node.begun path idx).setSilo (u8 pl 0) { ((s.node.begun path idx).silo (u8 pl 0)) with ticket := none }).updSec (fun y => { y with commitStage := 0 }); Done (.siloCommit path idx same cut) s (match firstBad [badRange (decide (((s.node.begun path idx).silo (u8 pl 0)).high < max 512 ((s.node.begun path idx).silo (u8 pl 0)).length)) 0, (!((s.node.begun path idx).silo (u8 pl 0)).valid, Rs.signatureInvalid, 0), (!((s.node.begun path idx).silo (u8 pl 0)).imagesOk, Rs.imageDigestBad, 0), (!n.levelFits ((s.node.begun path idx).silo (u8 pl 0)), Rs.levelGap, 0), (!same, Rs.imageDigestBad, 0)] with | some (st, d) => n.answer (path * 16 + idx) st d ([0] ++ leBytes 4 n.bootSeq) | none => (let n := n.updSec (fun y => { y with commitStage := 1 }); if cut = 1 then n else if cut = 2 then n.setBoot n.bootLower { n.bootCopy n.bootLower with valid := false } else ((n.writePointer (u8 pl 0)).log Ev.siloCommitted (u8 pl 0) (((n.bootCopy (1 - n.bootLower)).seq + 1) % 2 ^ 32) ((s.node.begun path idx).silo (u8 pl 0)).version).ok (path * 16 + idx) ([2] ++ leBytes 4 (((n.bootCopy (1 - n.bootLower)).seq + 1) % 2 ^ 32))))) ∧
  (∀ (s : State) (path idx : Nat) (pl : List Byte), Serves s.node Cmd.islandUpdate path idx pl →
    Passes [badLen pl 4, badIn (u8 pl 0) 0 6 0, badIn (u8 pl 1) 0 (if (u8 pl 0) = 5 then 2 else 0) 1, badRes pl 2 2, badRange (s.node.begun path idx).besideGap 0] →
    (s.node.begun path idx).runsImage (u8 pl 0) (u8 pl 1) = true →
    DoneOk (.islandUpdate path idx) s (s.node.begun path idx) path idx [BitVec.ofNat 8 ((s.node.begun path idx).island (islandOf (u8 pl 0))).st.code, 0, 0, 0]) ∧
  (∀ (s : State) (path idx : Nat) (pl : List Byte), Serves s.node Cmd.islandUpdate path idx pl →
    Passes [badLen pl 4, badIn (u8 pl 0) 0 6 0, badIn (u8 pl 1) 0 (if (u8 pl 0) = 5 then 2 else 0) 1, badRes pl 2 2, badRange (s.node.begun path idx).besideGap 0] →
    (s.node.begun path idx).runsImage (u8 pl 0) (u8 pl 1) = false → (u8 pl 0) = 6 →
    Done (.islandUpdate path idx) s ((s.node.begun path idx).answerIsland (path * 16 + idx) ((s.node.begun path idx).island (islandOf (u8 pl 0))).st.code)) ∧
  (∀ (s : State) (path idx : Nat) (pl : List Byte), Serves s.node Cmd.islandUpdate path idx pl →
    Passes [badLen pl 4, badIn (u8 pl 0) 0 6 0, badIn (u8 pl 1) 0 (if (u8 pl 0) = 5 then 2 else 0) 1, badRes pl 2 2, badRange (s.node.begun path idx).besideGap 0] →
    (s.node.begun path idx).runsImage (u8 pl 0) (u8 pl 1) = false → (u8 pl 0) = 5 →
    Passes [(((s.node.begun path idx).port (u8 pl 1)).st == .retired || ((s.node.begun path idx).port (u8 pl 1)).st == .disabled || ((s.node.begun path idx).port (u8 pl 1)).reload.isSome || !(s.node.begun path idx).runs Isl.line, Rs.busy, 0)] →
    Done (.islandUpdate path idx) s ((s.node.begun path idx).reloadPort (u8 pl 1) (path * 16 + idx))) ∧
  (∀ (s : State) (path idx : Nat) (pl : List Byte), Serves s.node Cmd.islandUpdate path idx pl →
    Passes [badLen pl 4, badIn (u8 pl 0) 0 6 0, badIn (u8 pl 1) 0 (if (u8 pl 0) = 5 then 2 else 0) 1, badRes pl 2 2, badRange (s.node.begun path idx).besideGap 0] →
    (s.node.begun path idx).runsImage (u8 pl 0) (u8 pl 1) = false → (u8 pl 0) < 5 →
    Passes ((s.node.begun path idx).opRefusals (islandOf (u8 pl 0)) .reload) →
    Done (.islandUpdate path idx) s ((s.node.begun path idx).startOp (islandOf (u8 pl 0)) .reload 0 (some (path * 16 + idx)))) ∧
  (∀ (s : State) (path idx : Nat) (pl : List Byte), Serves s.node Cmd.serviceFlagClear path idx pl →
    Passes [badLen pl 0, (((s.node.begun path idx).mbx (path * 16 + idx)).session == 0, Rs.noSession, 0)] → (s.node.begun path idx).partRo 7 = false →
    let id := ((s.node.begun path idx).mbx (path * 16 + idx)).session; let key := (match (s.node.begun path idx).host.sessions.look id with | some x => x.keyId | none => 0); let n := (s.node.begun path idx).updSec (fun x => { x with latch := false, touched := false, touchedNow := false, touchedAt := 0, clearedAt := (s.node.begun path idx).now }); DoneOk (.serviceFlagClear path idx) s (n.log Ev.serviceFlagCleared n.sec.touches id (key % 2 ^ 32)) path idx [])

/-- Channel faults, holds, retries, stops, timed writes and cache fills complete with the effect of the channel states; that what an event observes is an operand of its row is the model's choice, logs 5, 6 and 14. For each of these constructors of Instr exec answers a next state: chanTransientFault, chanPermanentFault, chanRetry, faultWindowExpire, holdCauseBegin, holdCauseEnd, stopBehaviourDone, timedWriteDue, cacheMissFill, timerZero, linepointStale. (R92, R95, R96, R98, R100, R101, R104, R274) -/
def Obligations.ChannelEventsComplete : Prop :=
  (∀ (s : State) (k cause : Nat), (s.node.stall k).faultable = true → (s.node.stall k).kd ≠ K.lift → (s.node.stall k).kd ≠ K.gate →
    Done (.chanTransientFault k cause) s (s.node.transientFault k cause)) ∧
  (∀ (s : State) (k cause : Nat), (s.node.stall k).faultable = true → Done (.chanPermanentFault k cause) s (s.node.permanentFault k cause)) ∧
  (∀ (s : State) (k : Nat) (ok : Bool), Done (.chanRetry k ok) s (s.node.retry k ok)) ∧
  (∀ (s : State) (k t : Nat), (s.node.stall k).episodes.getLast? = some t →
    let w := (s.node.policy (s.node.stall k)).window; let n := s.node.upTo (t + w + 1); Done (.faultWindowExpire k) s (n.putStall k ((n.stall k).dropEpisodes w n.now))) ∧
  (∀ (s : State) (k cause : Nat) (c : HoldCause), HoldCause.all[cause]? = some c → s.node.causeLasts k c = true →
    Done (.holdCauseBegin k cause) s (s.node.beginHold k c)) ∧
  (∀ (s : State) (k cause : Nat) (c : HoldCause), HoldCause.all[cause]? = some c → s.node.causeLasts k c = false →
    c ≠ .supply ∨ ((s.node.stall k).kd ≠ K.output ∧ (s.node.stall k).kd ≠ K.prot) → Done (.holdCauseEnd k cause) s (s.node.endHold k c)) ∧
  (∀ (s : State) (k : Nat), (s.node.stall k).stopping = true → s.node.stopReached k = true → Done (.stopBehaviourDone k) s (s.node.stopDone k)) ∧
  (∀ (s : State) (k : Nat) (v : W64) (t : Nat), (s.node.stall k).timedWrite = some (v, t) →
    let n := (s.node.applyDue t).loopsAt numStalls t; Done (.timedWriteDue k) s ((n.setStall k { n.stall k with timedWrite := none }).engineWrite k v t)) ∧
  (∀ (s : State) (k : Nat), Done (.cacheMissFill k) s (s.node.fill k)) ∧
  (∀ (s : State) (k z : Nat), (s.node.stall k).zeroAt = some z → (s.node.stall k).pf 12 1 = 1 →
    let st := (s.node.stall k); let n := s.node.upTo z; let per := us (st.pf 8 4); Done (.timerZero k) s (n.putStall k { st.takeAt (BitVec.ofNat 64 (st.pf 8 4)) z with zeroAt := some (if per = 0 then z else z + per * ((n.now - z) / per + 1)) })) ∧
  (∀ (s : State) (k z : Nat), (s.node.stall k).zeroAt = some z → (s.node.stall k).pf 12 1 ≠ 1 →
    Done (.timerZero k) s ((s.node.upTo z).putStall k { (s.node.stall k).takeAt 0 z with zeroAt := none })) ∧
  (∀ (s : State) (k : Nat), (s.node.stall k).kd = K.linepoint → (s.node.stall k).pf 12 2 ≤ (s.node.stall k).staleCount →
    Done (.linepointStale k) s (s.node.transientFault k 9))

/-- Conditions, time-outs, issued actions, epochs, releases and task service complete; that what an event observes is an operand of its row is the model's choice, logs 5, 6 and 14. For each of these constructors of Instr exec answers a next state: conditionEval, stepTimeout, actionIssue, timedActionApply, instanceEpoch, taskRelease, taskDispatch, taskComplete. (R112, R116, R117, R118, R122, R128, R130, R131, R132) -/
def Obligations.StepEngineEventsComplete : Prop :=
  (∀ (s : State) (i : Nat), (s.node.inst i).st = .running → (s.node.inst i).act = none → s.node.runs Isl.seq = true →
    ((s.node.stepRec (s.node.inst i).recipe (s.node.inst i).step).timeout != 0 && decide ((s.node.inst i).entered + ms (s.node.stepRec (s.node.inst i).recipe (s.node.inst i).step).timeout < s.node.now)) = false →
    s.node.groupTrue i = true → Fetches s.node i → Done (.conditionEval i) s (s.node.reachAction i (s.node.metAt i))) ∧
  (∀ (s : State) (i : Nat), (s.node.inst i).st = .running → (s.node.inst i).act = none → s.node.runs Isl.seq = true →
    ((s.node.stepRec (s.node.inst i).recipe (s.node.inst i).step).timeout != 0 && decide ((s.node.inst i).entered + ms (s.node.stepRec (s.node.inst i).recipe (s.node.inst i).step).timeout < s.node.now)) = false →
    s.node.groupTrue i = false → (s.node.stepRec (s.node.inst i).recipe (s.node.inst i).step).test = true → Fetches s.node i →
    Done (.conditionEval i) s (s.node.enterStep i (s.node.stepRec (s.node.inst i).recipe (s.node.inst i).step).branch (s.node.inst i).entered)) ∧
  (∀ (s : State) (i : Nat), (s.node.inst i).st = .running → (s.node.inst i).act = none → s.node.runs Isl.seq = true →
    (s.node.stepRec (s.node.inst i).recipe (s.node.inst i).step).timeout ≠ 0 →
    (s.node.upTo ((s.node.inst i).entered + ms (s.node.stepRec (s.node.inst i).recipe (s.node.inst i).step).timeout)).groupTrue i = false →
    Fetches s.node i →
    let t := (s.node.inst i).entered + ms (s.node.stepRec (s.node.inst i).recipe (s.node.inst i).step).timeout; Done (.stepTimeout i) s ((s.node.upTo t).enterStep i (s.node.stepRec (s.node.inst i).recipe (s.node.inst i).step).branch t)) ∧
  (∀ (s : State) (i : Nat), (s.node.inst i).st = .running → (s.node.inst i).act = none → s.node.runs Isl.seq = true →
    (s.node.stepRec (s.node.inst i).recipe (s.node.inst i).step).timeout ≠ 0 →
    (s.node.upTo ((s.node.inst i).entered + ms (s.node.stepRec (s.node.inst i).recipe (s.node.inst i).step).timeout)).groupTrue i = true →
    Fetches s.node i →
    let n := s.node.upTo ((s.node.inst i).entered + ms (s.node.stepRec (s.node.inst i).recipe (s.node.inst i).step).timeout); Done (.stepTimeout i) s (n.reachAction i (n.metAt i))) ∧
  (∀ (s : State) (i t : Nat), (s.node.inst i).act = some t → (s.node.inst i).st = .running → (s.node.inst i).issued = false →
    (s.node.inst i).atOnce = false → s.node.runs Isl.seq = true → issuable (s.node.stepRec (s.node.inst i).recipe (s.node.inst i).step).act = true →
    Fetches s.node i → s.node.lockFree (s.node.stepRec (s.node.inst i).recipe (s.node.inst i).step).aStall = true ∧ s.node.lockTurn i t = true →
    (s.node.stepRec (s.node.inst i).recipe (s.node.inst i).step).act ≠ 0x06 →
    Done (.actionIssue i) s ((s.node.setInst i { (s.node.inst i) with issued := true, lockWait := false }).issue { inst := i, step := (s.node.inst i).step, stall := (s.node.stepRec (s.node.inst i).recipe (s.node.inst i).step).aStall, value := s.node.actOperand i (s.node.stepRec (s.node.inst i).recipe (s.node.inst i).step), at_ := t, act := (s.node.stepRec (s.node.inst i).recipe (s.node.inst i).step).act })) ∧
  (∀ (s : State) (i t : Nat), (s.node.inst i).act = some t → (s.node.inst i).st = .running → (s.node.inst i).issued = false →
    (s.node.inst i).atOnce = false → s.node.runs Isl.seq = true → issuable (s.node.stepRec (s.node.inst i).recipe (s.node.inst i).step).act = true →
    Fetches s.node i → s.node.lockFree (s.node.stepRec (s.node.inst i).recipe (s.node.inst i).step).aStall = true ∧ s.node.lockTurn i t = true →
    (s.node.stepRec (s.node.inst i).recipe (s.node.inst i).step).act = 0x06 →
    Done (.actionIssue i) s (((s.node.setInst i { (s.node.inst i) with issued := true, lockWait := false }).issue { inst := i, step := (s.node.inst i).step, stall := (s.node.stepRec (s.node.inst i).recipe (s.node.inst i).step).aStall, value := s.node.actOperand i (s.node.stepRec (s.node.inst i).recipe (s.node.inst i).step), at_ := t, act := (s.node.stepRec (s.node.inst i).recipe (s.node.inst i).step).act }).issueEdge i (s.node.inst i).step (s.node.stepRec (s.node.inst i).recipe (s.node.inst i).step) t)) ∧
  (∀ (s : State) (i t : Nat), (s.node.inst i).act = some t → (s.node.inst i).st = .running → (s.node.inst i).issued = false →
    (s.node.inst i).atOnce = false → s.node.runs Isl.seq = true → issuable (s.node.stepRec (s.node.inst i).recipe (s.node.inst i).step).act = true →
    Fetches s.node i → ¬ (s.node.lockFree (s.node.stepRec (s.node.inst i).recipe (s.node.inst i).step).aStall = true ∧ s.node.lockTurn i t = true) →
    Done (.actionIssue i) s (s.node.setInst i { (s.node.inst i) with late := true, lockWait := true })) ∧
  (∀ (s : State) (e : Issued) (v : W64), s.node.rcp.firstIssued = some e → e.act ≠ 0x11 →
    ({ ((({ s.node.upTo (max e.at_ (e.lockAt.getD 0)) with rcp := { s.node.rcp with issued := s.node.rcp.issued.erase e } } : Node).unlock e.stall).lockQueued (({ s.node.upTo (max e.at_ (e.lockAt.getD 0)) with rcp := { s.node.rcp with issued := s.node.rcp.issued.erase e } } : Node).unlock e.stall).rcp.issued).1 with rcp := { ((({ s.node.upTo (max e.at_ (e.lockAt.getD 0)) with rcp := { s.node.rcp with issued := s.node.rcp.issued.erase e } } : Node).unlock e.stall).lockQueued (({ s.node.upTo (max e.at_ (e.lockAt.getD 0)) with rcp := { s.node.rcp with issued := s.node.rcp.issued.erase e } } : Node).unlock e.stall).rcp.issued).1.rcp with issued := ((({ s.node.upTo (max e.at_ (e.lockAt.getD 0)) with rcp := { s.node.rcp with issued := s.node.rcp.issued.erase e } } : Node).unlock e.stall).lockQueued (({ s.node.upTo (max e.at_ (e.lockAt.getD 0)) with rcp := { s.node.rcp with issued := s.node.rcp.issued.erase e } } : Node).unlock e.stall).rcp.issued).2 } } : Node).stallAction e.act e.stall e.value = (true, some v) →
    let u : Node := ({ s.node.upTo (max e.at_ (e.lockAt.getD 0)) with rcp := { s.node.rcp with issued := s.node.rcp.issued.erase e } } : Node).unlock e.stall; let q := u.lockQueued u.rcp.issued; let n : Node := { q.1 with rcp := { q.1.rcp with issued := q.2 } }; let n := n.engineWrite e.stall (if e.edge then 0 else v) (max e.at_ (e.lockAt.getD 0)); let x := n.inst e.inst; Done (.timedActionApply) s (if !e.edge ∧
    (x.st = .running ∨ x.st = .held) ∧ x.issued ∧ x.step = e.step ∧ x.act = some e.at_ then n.enterStep e.inst (n.afterStep e.inst) e.at_ else n)) ∧
  (∀ (s : State) (e : Issued), s.node.rcp.firstIssued = some e → e.act ≠ 0x11 →
    ({ ((({ s.node.upTo (max e.at_ (e.lockAt.getD 0)) with rcp := { s.node.rcp with issued := s.node.rcp.issued.erase e } } : Node).unlock e.stall).lockQueued (({ s.node.upTo (max e.at_ (e.lockAt.getD 0)) with rcp := { s.node.rcp with issued := s.node.rcp.issued.erase e } } : Node).unlock e.stall).rcp.issued).1 with rcp := { ((({ s.node.upTo (max e.at_ (e.lockAt.getD 0)) with rcp := { s.node.rcp with issued := s.node.rcp.issued.erase e } } : Node).unlock e.stall).lockQueued (({ s.node.upTo (max e.at_ (e.lockAt.getD 0)) with rcp := { s.node.rcp with issued := s.node.rcp.issued.erase e } } : Node).unlock e.stall).rcp.issued).1.rcp with issued := ((({ s.node.upTo (max e.at_ (e.lockAt.getD 0)) with rcp := { s.node.rcp with issued := s.node.rcp.issued.erase e } } : Node).unlock e.stall).lockQueued (({ s.node.upTo (max e.at_ (e.lockAt.getD 0)) with rcp := { s.node.rcp with issued := s.node.rcp.issued.erase e } } : Node).unlock e.stall).rcp.issued).2 } } : Node).stallAction e.act e.stall e.value = (true, none) →
    let u : Node := ({ s.node.upTo (max e.at_ (e.lockAt.getD 0)) with rcp := { s.node.rcp with issued := s.node.rcp.issued.erase e } } : Node).unlock e.stall; let q := u.lockQueued u.rcp.issued; let n : Node := { q.1 with rcp := { q.1.rcp with issued := q.2 } }; let x := n.inst e.inst; Done (.timedActionApply) s (if !e.edge ∧
    (x.st = .running ∨ x.st = .held) ∧ x.issued ∧ x.step = e.step ∧ x.act = some e.at_ then n.enterStep e.inst (n.afterStep e.inst) e.at_ else n)) ∧
  (∀ (s : State) (e : Issued), s.node.rcp.firstIssued = some e → e.act = 0x11 →
    (({ ((({ s.node.upTo (max e.at_ (e.lockAt.getD 0)) with rcp := { s.node.rcp with issued := s.node.rcp.issued.erase e } } : Node).unlock e.stall).lockQueued (({ s.node.upTo (max e.at_ (e.lockAt.getD 0)) with rcp := { s.node.rcp with issued := s.node.rcp.issued.erase e } } : Node).unlock e.stall).rcp.issued).1 with rcp := { ((({ s.node.upTo (max e.at_ (e.lockAt.getD 0)) with rcp := { s.node.rcp with issued := s.node.rcp.issued.erase e } } : Node).unlock e.stall).lockQueued (({ s.node.upTo (max e.at_ (e.lockAt.getD 0)) with rcp := { s.node.rcp with issued := s.node.rcp.issued.erase e } } : Node).unlock e.stall).rcp.issued).1.rcp with issued := ((({ s.node.upTo (max e.at_ (e.lockAt.getD 0)) with rcp := { s.node.rcp with issued := s.node.rcp.issued.erase e } } : Node).unlock e.stall).lockQueued (({ s.node.upTo (max e.at_ (e.lockAt.getD 0)) with rcp := { s.node.rcp with issued := s.node.rcp.issued.erase e } } : Node).unlock e.stall).rcp.issued).2 } } : Node).recipeMove e.stall (toSigned 64 e.value.toNat)).1 = none →
    let u : Node := ({ s.node.upTo (max e.at_ (e.lockAt.getD 0)) with rcp := { s.node.rcp with issued := s.node.rcp.issued.erase e } } : Node).unlock e.stall; let q := u.lockQueued u.rcp.issued; let n : Node := { q.1 with rcp := { q.1.rcp with issued := q.2 } }; let n := (n.recipeMove e.stall (toSigned 64 e.value.toNat)).2; let x := n.inst e.inst; Done (.timedActionApply) s (if !e.edge ∧
    (x.st = .running ∨ x.st = .held) ∧ x.issued ∧ x.step = e.step ∧ x.act = some e.at_ then n.enterStep e.inst (n.afterStep e.inst) e.at_ else n)) ∧
  (∀ (s : State) (i : Nat), (s.node.inst i).st = .armed → s.node.runs Isl.seq = true →
    Done (.instanceEpoch i) s ((s.node.upTo (s.node.inst i).epoch).setInst i { (s.node.inst i) with st := .running, entered := (s.node.inst i).epoch, step := 0 })) ∧
  (∀ (s : State), let b := s.node.rcp.nextTick s.node.now; let r := (match s.node.rcp.newTick with | some (k, at_) => if at_ ≤ b then { s.node.rcp with tick := k, newTick := none } else s.node.rcp | none => s.node.rcp); let r := (r.due b).foldl (fun r e => r.ready e.1) r; Done (.taskRelease) s { s.node.upTo b with rcp := r.prefetch }) ∧
  (∀ (s : State) (core slot : Nat) (t : ThTask), s.node.coresRun = true → s.node.rcp.coresOut.contains core = false →
    s.node.rcp.tasks.any (fun e => e.2.st == .inService core) = false → s.node.rcp.tasks.find? (fun e => e.2.st == .prefetched core) = some (slot, t) →
    t.handler = 0x0701 ∨ t.ran = true →
    let n := { s.node with rcp := (s.node.rcp.updTask slot (fun x => { x with st := .inService core })).prefetch }; Done (.taskDispatch core) s n) ∧
  (∀ (s : State) (core slot : Nat) (t : ThTask), s.node.coresRun = true → s.node.rcp.coresOut.contains core = false →
    s.node.rcp.tasks.any (fun e => e.2.st == .inService core) = false → s.node.rcp.tasks.find? (fun e => e.2.st == .prefetched core) = some (slot, t) →
    t.handler ≠ 0x0701 → t.ran = false →
    let n := { s.node with rcp := (s.node.rcp.updTask slot (fun x => { x with st := .inService core })).prefetch }; let r := n.runHandler t; Done (.taskDispatch core) s { r.2 with rcp := r.2.rcp.updTask slot (fun x => { x with result := r.1, ran := true }) }) ∧
  (∀ (s : State) (core slot : Nat) (t : ThTask), s.node.coresRun = true → s.node.rcp.tasks.find? (fun e => e.2.st == .inService core) = some (slot, t) →
    t.ran = true →
    let n := s.node.outcome slot t t.result; Done (.taskComplete core) s { n with rcp := ({ n.rcp with tasks := n.rcp.tasks.del slot }).prefetch })

/-- Every action an instance has reached is carried out at its instant, and the instance goes on; that what an event observes is an operand of its row is the model's choice, logs 5, 6 and 14. For each of these constructors of Instr exec answers a next state: actEnd, actNop, actSet, actAdd, actToggle, actCopy, actRegStore, actPulse, actRegSet, actRegAdd, actRegLoad, actJump, actDjnz, actSignal, actUnsignal, actStartRecipe, actStopRecipe, actAxisMove, actCancelTask, actChanStart, actChanStop, actPostTask, actNodeWrite, actHarvestMark. (R113, R114, R115, R116, R118, R119, R120, R127, R132) -/
def Obligations.RecipeActionsComplete : Prop :=
  (∀ (s : State) (i t : Nat), Acts s.node i 0x00 t →
    let r := s.node.actRec i; let n := s.node.acting i t; Done (.actEnd i) s ((n.endInst i (n.inst i).stopPending).goOn i 0 t)) ∧
  (∀ (s : State) (i t : Nat), Acts s.node i 0x01 t →
    let r := s.node.actRec i; let n := s.node.acting i t; Done (.actNop i) s (n.goOn i (n.afterStep i) t)) ∧
  (∀ (s : State) (i t : Nat), Acts s.node i 0x02 t →
    let r := s.node.actRec i; let n := s.node.acting i t; let v := n.actValue i r; let m := (match v.2 with | some v2 => n.actWrite i r.aStall v.1 v2 t | none => if v.1 then n else n.refuseAction i Rs.chanInvalid); Done (.actSet i) s (m.goOn i (m.afterStep i) t)) ∧
  (∀ (s : State) (i t : Nat), Acts s.node i 0x03 t →
    let r := s.node.actRec i; let n := s.node.acting i t; let v := n.actValue i r; let m := (match v.2 with | some v2 => n.actWrite i r.aStall v.1 v2 t | none => if v.1 then n else n.refuseAction i Rs.chanInvalid); Done (.actAdd i) s (m.goOn i (m.afterStep i) t)) ∧
  (∀ (s : State) (i t : Nat), Acts s.node i 0x04 t →
    let r := s.node.actRec i; let n := s.node.acting i t; let v := n.actValue i r; let m := (match v.2 with | some v2 => n.actWrite i r.aStall v.1 v2 t | none => if v.1 then n else n.refuseAction i Rs.chanInvalid); Done (.actToggle i) s (m.goOn i (m.afterStep i) t)) ∧
  (∀ (s : State) (i t : Nat), Acts s.node i 0x05 t →
    let r := s.node.actRec i; let n := s.node.acting i t; let v := n.actValue i r; let m := (match v.2 with | some v2 => n.actWrite i r.aStall v.1 v2 t | none => if v.1 then n else n.refuseAction i Rs.chanInvalid); Done (.actCopy i) s (m.goOn i (m.afterStep i) t)) ∧
  (∀ (s : State) (i t : Nat), Acts s.node i 0x0A t →
    let r := s.node.actRec i; let n := s.node.acting i t; let v := n.actValue i r; let m := (match v.2 with | some v2 => n.actWrite i r.aStall v.1 v2 t | none => if v.1 then n else n.refuseAction i Rs.chanInvalid); Done (.actRegStore i) s (m.goOn i (m.afterStep i) t)) ∧
  (∀ (s : State) (i t : Nat), Acts s.node i 0x06 t →
    let r := s.node.actRec i; let n := s.node.acting i t; let ok := (n.actValue i r).1; let m := n.actWrite i r.aStall ok 1 t; let m := if ok then m.issueEdge i (m.inst i).step r t else m; Done (.actPulse i) s (m.goOn i (m.afterStep i) t)) ∧
  (∀ (s : State) (i t : Nat), Acts s.node i 0x07 t →
    let r := s.node.actRec i; let n := s.node.acting i t; Done (.actRegSet i) s ((n.setReg i r.aStall r.aValue).goOn i (n.afterStep i) t)) ∧
  (∀ (s : State) (i t : Nat), Acts s.node i 0x08 t →
    let r := s.node.actRec i; let n := s.node.acting i t; Done (.actRegAdd i) s ((n.setReg i r.aStall (n.reg i r.aStall + r.aValue)).goOn i (n.afterStep i) t)) ∧
  (∀ (s : State) (i t : Nat), Acts s.node i 0x09 t →
    let r := s.node.actRec i; let n := s.node.acting i t; let src := n.view (r.aValue.toNat % 65536); Done (.actRegLoad i) s ((if src.valid then n.setReg i r.aStall (regOf src.fm src.value) else n).goOn i (n.afterStep i) t)) ∧
  (∀ (s : State) (i t : Nat), Acts s.node i 0x0B t →
    let r := s.node.actRec i; let n := s.node.acting i t; Done (.actJump i) s (n.goOn i (r.aValue.toNat % 65536) t)) ∧
  (∀ (s : State) (i t : Nat), Acts s.node i 0x0C t →
    let r := s.node.actRec i; let n := s.node.acting i t; let v := n.reg i r.aStall - 1; Done (.actDjnz i) s ((n.setReg i r.aStall v).goOn i (if v = 0 then n.afterStep i else r.aValue.toNat % 65536) t)) ∧
  (∀ (s : State) (i t : Nat), Acts s.node i 0x0D t →
    let r := s.node.actRec i; let n := s.node.acting i t; Done (.actSignal i) s ((n.setFlag r.aStall true).goOn i (n.afterStep i) t)) ∧
  (∀ (s : State) (i t : Nat), Acts s.node i 0x0E t →
    let r := s.node.actRec i; let n := s.node.acting i t; Done (.actUnsignal i) s ((n.setFlag r.aStall false).goOn i (n.afterStep i) t)) ∧
  (∀ (s : State) (i t j : Nat), Acts s.node i 0x0F t → (s.node.acting i t).recLen ((s.node.actRec i).aValue.toNat % 256) ≠ 0 →
    (s.node.actRec i).aValue.toNat / 256 % 256 = 0xFF ∨ (s.node.acting i t).instEnded ((s.node.actRec i).aValue.toNat / 256 % 256) = true →
    (if (s.node.actRec i).aValue.toNat / 256 % 256 = 0xFF then (s.node.acting i t).freeInst else some ((s.node.actRec i).aValue.toNat / 256 % 256)) = some j →
    ((s.node.acting i t).recipeFault ((s.node.actRec i).aValue.toNat % 256)).isSome = false →
    let r := s.node.actRec i; let n := s.node.acting i t; Done (.actStartRecipe i) s ((n.startInst j (r.aValue.toNat % 256) (n.inst i).group (n.inst i).sheaf (n.inst i).deadline (n.reg i r.aux) t false).goOn i (n.afterStep i) t)) ∧
  (∀ (s : State) (i t : Nat), Acts s.node i 0x10 t →
    let r := s.node.actRec i; let n := s.node.acting i t; Done (.actStopRecipe i) s ((if r.aStall = i then n.endInst i (n.inst i).stopPending else match (n.inst r.aStall).st with | .free => n.refuseAction i Rs.notFound | .done => n | .running => if r.aValue.getLsbD 0 then n.updInst r.aStall (fun y => { y with stopPending := true }) else n.endInst r.aStall true | _ => n.endInst r.aStall true).goOn i (n.afterStep i) t)) ∧
  (∀ (s : State) (i t : Nat), Acts s.node i 0x11 t →
    let r := s.node.actRec i; let n := s.node.acting i t; let p := n.recipeMove r.aStall (toSigned 64 r.aValue.toNat); Done (.actAxisMove i) s ((match p.1 with | some e => p.2.refuseAction i e | none => p.2).goOn i (n.afterStep i) t)) ∧
  (∀ (s : State) (i t : Nat), Acts s.node i 0x15 t →
    let r := s.node.actRec i; let n := s.node.acting i t; Done (.actCancelTask i) s ((if n.host.restarting then n else (n.cancelTask ((n.reg i r.aux).toNat % 2 ^ 32)).2).goOn i (n.afterStep i) t)) ∧
  (∀ (s : State) (i t h : Nat), Posts s.node i 0x12 t →
    ((s.node.posting i).postTask (fwHandler 0x12) (BitVec.ofNat 64 (s.node.actRec i).aStall) t (t + us (s.node.inst i).deadline) (s.node.inst i).group (s.node.inst i).sheaf (some (i, 8)) false).1 = some h →
    let p := (s.node.posting i).postTask (fwHandler 0x12) (BitVec.ofNat 64 (s.node.actRec i).aStall) t (t + us (s.node.inst i).deadline) (s.node.inst i).group (s.node.inst i).sheaf (some (i, 8)) false; Done (.actChanStart i) s (p.2.enterStep i (p.2.afterStep i) t)) ∧
  (∀ (s : State) (i t h : Nat), Posts s.node i 0x13 t →
    ((s.node.posting i).postTask (fwHandler 0x13) (BitVec.ofNat 64 (s.node.actRec i).aStall) t (t + us (s.node.inst i).deadline) (s.node.inst i).group (s.node.inst i).sheaf (some (i, 8)) false).1 = some h →
    let p := (s.node.posting i).postTask (fwHandler 0x13) (BitVec.ofNat 64 (s.node.actRec i).aStall) t (t + us (s.node.inst i).deadline) (s.node.inst i).group (s.node.inst i).sheaf (some (i, 8)) false; Done (.actChanStop i) s (p.2.enterStep i (p.2.afterStep i) t)) ∧
  (∀ (s : State) (i t h : Nat), Posts s.node i 0x14 t →
    ((s.node.posting i).postTask ((s.node.actRec i).aStall) ((s.node.actRec i).aValue) t (t + us (s.node.inst i).deadline) (s.node.inst i).group (s.node.inst i).sheaf (some (i, (s.node.actRec i).aux)) false).1 = some h →
    let p := (s.node.posting i).postTask ((s.node.actRec i).aStall) ((s.node.actRec i).aValue) t (t + us (s.node.inst i).deadline) (s.node.inst i).group (s.node.inst i).sheaf (some (i, (s.node.actRec i).aux)) false; let m := if (s.node.actRec i).aux < 8 then p.2.setReg i (s.node.actRec i).aux (BitVec.ofNat 64 (h + 0xFFFF * 2 ^ 48)) else p.2; Done (.actPostTask i) s (m.enterStep i (m.afterStep i) t)) ∧
  (∀ (s : State) (i t h : Nat), Posts s.node i 0x16 t →
    ((s.node.posting i).postTask (fwHandler 0x16 + 0x10000 * (1 + (s.node.actRec i).aValue.toNat % 2 ^ 32)) ((s.node.posting i).reg i (s.node.actRec i).aux) t (t + us (s.node.inst i).deadline) (s.node.inst i).group (s.node.inst i).sheaf (some (i, 8)) false).1 = some h →
    let p := (s.node.posting i).postTask (fwHandler 0x16 + 0x10000 * (1 + (s.node.actRec i).aValue.toNat % 2 ^ 32)) ((s.node.posting i).reg i (s.node.actRec i).aux) t (t + us (s.node.inst i).deadline) (s.node.inst i).group (s.node.inst i).sheaf (some (i, 8)) false; Done (.actNodeWrite i) s (p.2.enterStep i (p.2.afterStep i) t)) ∧
  (∀ (s : State) (i t h : Nat), Posts s.node i 0x17 t →
    ((s.node.posting i).postTask (fwHandler 0x17) (BitVec.ofNat 64 (s.node.actRec i).aStall) t (t + us (s.node.inst i).deadline) (s.node.inst i).group (s.node.inst i).sheaf (some (i, 8)) false).1 = some h →
    let p := (s.node.posting i).postTask (fwHandler 0x17) (BitVec.ofNat 64 (s.node.actRec i).aStall) t (t + us (s.node.inst i).deadline) (s.node.inst i).group (s.node.inst i).sheaf (some (i, 8)) false; Done (.actHarvestMark i) s (p.2.enterStep i (p.2.afterStep i) t))

/-- Loop updates and the events of inputs and outputs complete; that what an event observes is an operand of its row is the model's choice, logs 5, 6 and 14. For each of these constructors of Instr exec answers a next state: loopUpdate, inputFilteredChange, wireBreakMeasure, comparatorDisagree, outputCurrentLimit, groupThermalShutdown, thermalRestartTemp, outputReadbackFault, poThermalShutdown, outputOpenLoad, pwmBoundary. (R140, R156, R157, R158, R160, R161, R164, R165, R166) -/
def Obligations.LoopInputAndOutputEventsComplete : Prop :=
  (∀ (s : State) (k drops : Nat),
    (s.node.loopRuns k) →
    (
      let n : Node := s.node
      let g := n.loopPeriod k
      let t0 := n.loopNext k
      let t := max (t0 + drops * g) (n.now / g * g)
      let n := ((n.applyDue t).loopsAt k t).dropUpdates k ((List.range ((t - t0) / g)).map (fun i => t0 + i * g))
      n.loopRuns k) →
    Done (.loopUpdate k drops) s (
      let n : Node := s.node
      let g := n.loopPeriod k
      let t0 := n.loopNext k
      let t := max (t0 + drops * g) (n.now / g * g)
      let n := ((n.applyDue t).loopsAt k t).dropUpdates k ((List.range ((t - t0) / g)).map (fun i => t0 + i * g))
      n.loopAt k t )) ∧
  (∀ (s : State) (i : Nat) (level : Bool) (first : T64),
    ¬ (
      let n : Node := s.node
      let p := n.inPin i
      let k := n.inStall i
      n.latchedOff ∨ !(n.runs Isl.io) ∨ (n.fio.supply = .restoring ∧ (n.stall k).holds.contains .supply) ∨ (p.level = level ∧ !p.settling)) →
    (
      let n : Node := s.node
      let p := n.inPin i
      let k := n.inStall i
      let first := if p.settling then max first p.since else first
      let n := n.upTo (first + us (10 * (n.stall k).pf 10 2))
      let n := n.setIn i { p with level := level, comparator := level, settling := false, woke := false }
      let n := ((n.endHold k .supply).endHold k .ioIsland)
      let st := n.stall k
      st.st = .running) →
    (
      let n : Node := s.node
      let p := n.inPin i
      let k := n.inStall i
      let first := if p.settling then max first p.since else first
      let n := n.upTo (first + us (10 * (n.stall k).pf 10 2))
      let n := n.setIn i { p with level := level, comparator := level, settling := false, woke := false }
      let n := ((n.endHold k .supply).endHold k .ioIsland)
      let st := n.stall k
      let v := BitVec.ofNat 64 (b2n level)
      let fresh := st.value ≠ v ∨ !st.valid ∨ p.settling
      fresh) →
    Done (.inputFilteredChange i level first) s (
      let n : Node := s.node
      let p := n.inPin i
      let k := n.inStall i
      let first := if p.settling then max first p.since else first
      let n := n.upTo (first + us (10 * (n.stall k).pf 10 2))
      let n := n.setIn i { p with level := level, comparator := level, settling := false, woke := false }
      let n := ((n.endHold k .supply).endHold k .ioIsland)
      let st := n.stall k
      let edges := st.pf 12 1
      let stamped := if level then edges == 1 || edges == 3 else edges == 2 || edges == 3
      let t := if p.settling && p.woke then n.now else if stamped then first else nextGrid n.now 10000
      let v := BitVec.ofNat 64 (b2n level)
      n.putStall k ((st.takeAt v t).setStatus St.invalid false) )) ∧
  (∀ (s : State) (i : Nat) (level : Bool) (first : T64),
    ¬ (
      let n : Node := s.node
      let p := n.inPin i
      let k := n.inStall i
      n.latchedOff ∨ !(n.runs Isl.io) ∨ (n.fio.supply = .restoring ∧ (n.stall k).holds.contains .supply) ∨ (p.level = level ∧ !p.settling)) →
    (
      let n : Node := s.node
      let p := n.inPin i
      let k := n.inStall i
      let first := if p.settling then max first p.since else first
      let n := n.upTo (first + us (10 * (n.stall k).pf 10 2))
      let n := n.setIn i { p with level := level, comparator := level, settling := false, woke := false }
      let n := ((n.endHold k .supply).endHold k .ioIsland)
      let st := n.stall k
      st.st = .running) →
    ¬ (
      let n : Node := s.node
      let p := n.inPin i
      let k := n.inStall i
      let first := if p.settling then max first p.since else first
      let n := n.upTo (first + us (10 * (n.stall k).pf 10 2))
      let n := n.setIn i { p with level := level, comparator := level, settling := false, woke := false }
      let n := ((n.endHold k .supply).endHold k .ioIsland)
      let st := n.stall k
      let v := BitVec.ofNat 64 (b2n level)
      let fresh := st.value ≠ v ∨ !st.valid ∨ p.settling
      fresh) →
    Done (.inputFilteredChange i level first) s (
      let n : Node := s.node
      let p := n.inPin i
      let k := n.inStall i
      let first := if p.settling then max first p.since else first
      let n := n.upTo (first + us (10 * (n.stall k).pf 10 2))
      let n := n.setIn i { p with level := level, comparator := level, settling := false, woke := false }
      let n := ((n.endHold k .supply).endHold k .ioIsland)
      n)) ∧
  (∀ (s : State) (i microAmp : Nat), (s.node.stall (s.node.inStall i)).kd = K.input → (s.node.stall (s.node.inStall i)).pf 9 1 = 1 →
    (s.node.stall (s.node.inStall i)).active = true → s.node.runs Isl.io = true → s.node.latchedOff = false →
    (if microAmp < 150 then min 10 ((s.node.inPin i).lowRun + 1) else 0) = 10 → (s.node.stall (s.node.inStall i)).status.getLsbD St.field = false →
    let m := s.node.setIn i { (s.node.inPin i) with lowRun := (if microAmp < 150 then min 10 ((s.node.inPin i).lowRun + 1) else 0), highRun := (if 300 ≤ microAmp then min 10 ((s.node.inPin i).highRun + 1) else 0), microAmp := microAmp }; Done (.wireBreakMeasure i microAmp) s ((m.putStall (s.node.inStall i) ((s.node.stall (s.node.inStall i)).setStatus St.field true)).log Ev.inputOpenWire (s.node.inStall i) 1 microAmp)) ∧
  (∀ (s : State) (i microAmp : Nat), (s.node.stall (s.node.inStall i)).kd = K.input → (s.node.stall (s.node.inStall i)).pf 9 1 = 1 →
    (s.node.stall (s.node.inStall i)).active = true → s.node.runs Isl.io = true → s.node.latchedOff = false →
    (if microAmp < 150 then min 10 ((s.node.inPin i).lowRun + 1) else 0) ≠ 10 →
    (if 300 ≤ microAmp then min 10 ((s.node.inPin i).highRun + 1) else 0) = 10 → (s.node.stall (s.node.inStall i)).status.getLsbD St.field = true →
    let m := s.node.setIn i { (s.node.inPin i) with lowRun := (if microAmp < 150 then min 10 ((s.node.inPin i).lowRun + 1) else 0), highRun := (if 300 ≤ microAmp then min 10 ((s.node.inPin i).highRun + 1) else 0), microAmp := microAmp }; Done (.wireBreakMeasure i microAmp) s ((m.putStall (s.node.inStall i) ((s.node.stall (s.node.inStall i)).setStatus St.field false)).log Ev.inputOpenWire (s.node.inStall i) 0 microAmp)) ∧
  (∀ (s : State) (i microAmp : Nat), (s.node.stall (s.node.inStall i)).kd = K.input → (s.node.stall (s.node.inStall i)).pf 9 1 = 1 →
    (s.node.stall (s.node.inStall i)).active = true → s.node.runs Isl.io = true → s.node.latchedOff = false →
    (if microAmp < 150 then min 10 ((s.node.inPin i).lowRun + 1) else 0) ≠ 10 ∨ (s.node.stall (s.node.inStall i)).status.getLsbD St.field = true →
    (if 300 ≤ microAmp then min 10 ((s.node.inPin i).highRun + 1) else 0) ≠ 10 ∨ (s.node.stall (s.node.inStall i)).status.getLsbD St.field = false →
    let m := s.node.setIn i { (s.node.inPin i) with lowRun := (if microAmp < 150 then min 10 ((s.node.inPin i).lowRun + 1) else 0), highRun := (if 300 ≤ microAmp then min 10 ((s.node.inPin i).highRun + 1) else 0), microAmp := microAmp }; Done (.wireBreakMeasure i microAmp) s m) ∧
  (∀ (s : State) (i : Nat), (s.node.stall (s.node.inStall i)).kd = K.input →
    Done (.comparatorDisagree i) s (s.node.transientFault (s.node.inStall i) 4)) ∧
  (∀ (s : State) (o : Nat), Done (.outputCurrentLimit o) s (s.node.outFault o 1 true)) ∧
  (∀ (s : State) (group hot highest : Nat), Done (.groupThermalShutdown group hot highest) s (
      let n : Node := s.node
      let counted (j : Nat) : Bool := if hot % 16 = 0 then j == highest else bit hot j
      let n := (List.range 4).foldl (fun n j => n.outFault (group * 4 + j) 2 (counted j)) n
      n.setThermal ((List.range 4).map (fun j => group * 4 + j)) true)) ∧
  (∀ (s : State) (sensor : Nat), Done (.thermalRestartTemp sensor) s (s.node.setThermal (if sensor < 3 then (List.range 4).map (fun j => sensor * 4 + j) else [9 + sensor]) false)) ∧
  (∀ (s : State) (o : Nat), ¬ (s.node.outOn o ∨ s.node.latchedOff) →
    Done (.outputReadbackFault o) s (                                                         s.node.permanentFault (s.node.outStall o) 3)) ∧
  (∀ (s : State) (p : Nat), Done (.poThermalShutdown p) s ((s.node.outFault (12 + p) 2 true).setThermal [12 + p] true)) ∧
  (∀ (s : State) (p : Nat) (isOpen : Bool) (milliAmp : Nat),
    (
      let n : Node := s.node
      let k := n.outStall (12 + p)
      let st := n.stall k
      let tested := st.pf 12 1 == 1 && (!n.outOn (12 + p) || (n.seriesClosed p && !n.latchedOff))
      st.kd = K.prot ∧ (tested ∨ !isOpen) ∧ st.status.getLsbD St.field ≠ isOpen) →
    Done (.outputOpenLoad p isOpen milliAmp) s (
      let n : Node := s.node
      let k := n.outStall (12 + p)
      let st := n.stall k
      (n.putStall k (st.setStatus St.field isOpen)).log Ev.outputOpenLoad k (b2n isOpen) milliAmp)) ∧
  (∀ (s : State) (o : Nat), (s.node.stall (s.node.outStall o)).pwm = true → s.node.runs Isl.io = true →
    let m := s.node.upTo (nextGrid s.node.gridNow (pwmPeriod ((s.node.stall (s.node.outStall o)).pf 10 2))); Done (.pwmBoundary o) s (m.force o (m.ruling o).1 (m.ruling o).2))

/-- The I/O watchdog and the field supply move through their states; that what an event observes is an operand of its row is the model's choice, logs 5, 6 and 14. For each of these constructors of Instr exec answers a next state: firmwareWatchdogFeed, ioWatchdogExpired, ioWatchdogResume, fieldSupplyWarn, fieldSupplyWarnClear, fieldSupplyOff, fieldSupplyRise, fieldSupplyLatchClear, outputRestoreSlot, inputResume. (R169, R170, R171, R172) -/
def Obligations.WatchdogAndSupplyEventsComplete : Prop :=
  (∀ (s : State), s.node.fio.wdSource = 0 → s.node.runs Isl.core = true → s.node.host.restarting = false →
    Done (.firmwareWatchdogFeed) s (s.node.updFio (fun x => x.feed s.node.now))) ∧
  (∀ (s : State), s.node.fio.wdSt = .armed →
    let m := (s.node.upTo s.node.fio.wdDeadline).captureHeld; let m := (m.updFio (fun x => { x with wdSt := .expired })).log Ev.ioWatchdogExpired m.fio.wdTimeout m.fio.wdSource m.fio.wdLastFeed; Done (.ioWatchdogExpired) s (((m.stallsWhere Stall.isOut).foldl (fun n k => n.beginHold k .watchdog) m).driveAll)) ∧
  (∀ (s : State), (s.node.fio.wdSt = .suspended ∧ s.node.glean.st = .awake) → Done (.ioWatchdogResume) s (
      let n : Node := s.node
      let n := if n.host.restarting then n.upTo (n.host.restartFrom + ms 150) else n
      n.updFio (fun x => x.resume n.now))) ∧
  (∀ (s : State) (mV : Nat), s.node.fio.warn = false →
    Done (.fieldSupplyWarn mV) s ((s.node.updFio (fun x => { x with warn := true })).log Ev.fieldSupplyWarn mV 1 0)) ∧
  (∀ (s : State) (mV : Nat), s.node.fio.warn = true →
    Done (.fieldSupplyWarnClear mV) s ((s.node.updFio (fun x => { x with warn := false })).log Ev.fieldSupplyWarn mV 0 0)) ∧
  (∀ (s : State) (mV : Nat), (s.node.vauxOnly) →
    Done (.fieldSupplyOff mV) s (                       (s.node.updFio (fun x => { x with supply := .latched })).setVaux false)) ∧
  (∀ (s : State) (mV : Nat), ¬ (s.node.vauxOnly) → ¬ (!s.node.fieldPowered) → (s.node.fio.supply) = .rising →
    Done (.fieldSupplyOff mV) s (                 s.node.updFio (fun x => { x with supply := .latched }))) ∧
  (∀ (s : State) (mV : Nat), ¬ (s.node.vauxOnly) → ¬ (!s.node.fieldPowered) → (s.node.fio.supply) = .on → Done (.fieldSupplyOff mV) s (
      let n : Node := s.node
      let mask := n.outMask
      (n.latchSupply.log Ev.fieldSupplyOff mV mask 0).raise 7)) ∧
  (∀ (s : State), (s.node.fio.supply = .latched ∧ (s.node.fieldPowered ∨ s.node.vauxOnly)) →
    Done (.fieldSupplyRise) s (                                                                    s.node.updFio (fun x => { x with supply := .rising, risenAt := s.node.now }) )) ∧
  (∀ (s : State) (mV : Nat),
    (s.node.fio.supply = .rising ∧ (s.node.fieldPowered ∨ s.node.vauxOnly)) →
    ¬ (
      let n : Node := s.node
      let n := (n.upTo (n.fio.risenAt + ms 10)).setVaux true
      n.vauxOnly) →
    Done (.fieldSupplyLatchClear mV) s (
      let n : Node := s.node
      let n := (n.upTo (n.fio.risenAt + ms 10)).setVaux true
      (n.raise 7).updFio (fun x => { x with supply := .restoring, clearedAt := x.risenAt + ms 10, vf24AtClear := mV, restoredMask := 0, stoppedMask := 0 }))) ∧
  (∀ (s : State) (mV : Nat),
    (s.node.fio.supply = .rising ∧ (s.node.fieldPowered ∨ s.node.vauxOnly)) →
    (
      let n : Node := s.node
      let n := (n.upTo (n.fio.risenAt + ms 10)).setVaux true
      n.vauxOnly) →
    Done (.fieldSupplyLatchClear mV) s (
      let n : Node := s.node
      let n := (n.upTo (n.fio.risenAt + ms 10)).setVaux true
      n)) ∧
  (∀ (s : State) (o : Nat), (s.node.fio.supply = .restoring) → (o = 15) → Done (.outputRestoreSlot o) s (
      let n : Node := s.node
      let n := n.upTo (n.fio.clearedAt + us (100 * o))
      let k := n.outStall o
      let st := n.stall k
      let n :=
        if st.st = .hold ∧ st.holds.contains .supply ∧ st.restore = 1 then
          (n.stopped k).updFio (fun x => { x with stoppedMask := x.stoppedMask ||| (1#16 <<< o) })
        else n.endHold k .supply
      let n := n.driveOut o
      let (r, d) := n.ruling o
      let n := if 1 < r && st.lit d then n.updFio (fun x => { x with restoredMask := x.restoredMask ||| (1#16 <<< o) }) else n
      n.log Ev.fieldSupplyRestored n.fio.vf24AtClear n.fio.restoredMask.toNat n.fio.stoppedMask.toNat )) ∧
  (∀ (s : State) (o : Nat), (s.node.fio.supply = .restoring) → ¬ (o = 15) → Done (.outputRestoreSlot o) s (
      let n : Node := s.node
      let n := n.upTo (n.fio.clearedAt + us (100 * o))
      let k := n.outStall o
      let st := n.stall k
      let n :=
        if st.st = .hold ∧ st.holds.contains .supply ∧ st.restore = 1 then
          (n.stopped k).updFio (fun x => { x with stoppedMask := x.stoppedMask ||| (1#16 <<< o) })
        else n.endHold k .supply
      let n := n.driveOut o
      let (r, d) := n.ruling o
      let n := if 1 < r && st.lit d then n.updFio (fun x => { x with restoredMask := x.restoredMask ||| (1#16 <<< o) }) else n
      n)) ∧
  (∀ (s : State), (s.node.fio.supply = .restoring) → Done (.inputResume) s (
      let n : Node := s.node
      let n := (n.upTo (n.fio.clearedAt + ms 5)).updFio (fun x => { x with supply := .on })
      (List.range 16).foldl (fun n i =>
        if (n.stall (n.inStall i)).holds.contains .supply then n.setIn i ((n.inPin i).restart n.now false) else n) n))

/-- Analog frames, self-checks, slot results and the pending list complete; that what an event observes is an operand of its row is the model's choice, logs 5, 6 and 14. For each of these constructors of Instr exec answers a next state: adcFrame, adcSelfCheck, adcSlotResult, adcListApply. (R184, R185, R186, R187, R188, R191, R192) -/
def Obligations.ConverterEventsComplete : Prop :=
  (∀ (s : State),
    ¬ ((s.node.island Isl.io).st = .gated ∨ (s.node.glean.st = .waking ∧ !(s.node.runs Isl.io && s.node.runs Isl.seq))) →
    ¬ (
      let n : Node := s.node
      let p := us n.adc.list.period
      let t := nextGrid (max (max n.gridNow n.adc.notBefore) (n.adc.frameAt + 1)) p
      let n := n.upTo t
      !(n.runs Isl.io) ∨ !(n.runs Isl.seq)) →
    ¬ (
      let n : Node := s.node
      let p := us n.adc.list.period
      let t := nextGrid (max (max n.gridNow n.adc.notBefore) (n.adc.frameAt + 1)) p
      let n := n.upTo t
      let check := t % ms 100 == 0
      let long := check && decide (p < 1000 + 500 * slotTime n.adc.list.slots 0 ∨ p < 1000 + 500 * slotTime n.adc.list.slots 1)
      long) →
    Done (.adcFrame) s (
      let n : Node := s.node
      let p := us n.adc.list.period
      let t := nextGrid (max (max n.gridNow n.adc.notBefore) (n.adc.frameAt + 1)) p
      let n := n.upTo t
      let n := match n.adc.dropRun with
        | some (f, c, cause) => (n.updAdc (fun a => { a with dropRun := none })).log Ev.adcFrameDropped f cause c
        | none => n
      n.updAdc (fun a => { a with frameAt := t, frameDropped := false, slotsDone := [], samples := [] }))) ∧
  (∀ (s : State),
    ¬ ((s.node.island Isl.io).st = .gated ∨ (s.node.glean.st = .waking ∧ !(s.node.runs Isl.io && s.node.runs Isl.seq))) →
    (
      let n : Node := s.node
      let p := us n.adc.list.period
      let t := nextGrid (max (max n.gridNow n.adc.notBefore) (n.adc.frameAt + 1)) p
      let n := n.upTo t
      !(n.runs Isl.io) ∨ !(n.runs Isl.seq)) →
    Done (.adcFrame) s (
      let n : Node := s.node
      let p := us n.adc.list.period
      let t := nextGrid (max (max n.gridNow n.adc.notBefore) (n.adc.frameAt + 1)) p
      let n := n.upTo t
      n.dropFrame t 1)) ∧
  (∀ (s : State),
    ¬ ((s.node.island Isl.io).st = .gated ∨ (s.node.glean.st = .waking ∧ !(s.node.runs Isl.io && s.node.runs Isl.seq))) →
    ¬ (
      let n : Node := s.node
      let p := us n.adc.list.period
      let t := nextGrid (max (max n.gridNow n.adc.notBefore) (n.adc.frameAt + 1)) p
      let n := n.upTo t
      !(n.runs Isl.io) ∨ !(n.runs Isl.seq)) →
    (
      let n : Node := s.node
      let p := us n.adc.list.period
      let t := nextGrid (max (max n.gridNow n.adc.notBefore) (n.adc.frameAt + 1)) p
      let n := n.upTo t
      let check := t % ms 100 == 0
      let long := check && decide (p < 1000 + 500 * slotTime n.adc.list.slots 0 ∨ p < 1000 + 500 * slotTime n.adc.list.slots 1)
      long) →
    Done (.adcFrame) s (
      let n : Node := s.node
      let p := us n.adc.list.period
      let t := nextGrid (max (max n.gridNow n.adc.notBefore) (n.adc.frameAt + 1)) p
      let n := n.upTo t
      n.dropFrame t 0)) ∧
  (∀ (s : State) (conv : Nat) (agndV refV : Int), (s.node.runs Isl.io) → Done (.adcSelfCheck conv agndV refV) s (
      let n : Node := s.node
      let t := nextGrid (max (max n.gridNow n.adc.notBefore) (n.adc.checkedAt.getD conv 0 + 1)) (Nat.lcm (us n.adc.list.period) (ms 100))
      let n := (n.upTo t).updAdc (fun a => { a with checkedAt := a.checkedAt.put conv t })
      let agnd := clampI (-32768) 32767 (n.inputK 22 agndV)
      let ref := (satCode false (n.inputK 23 refV)).1
      let ok := decide (agnd.natAbs ≤ 16) && decide (16303 ≤ ref ∧ ref ≤ 16465)
      let bits := if ok then n.adc.checkOk ||| (1#2 <<< conv) else n.adc.checkOk &&& ~~~(1#2 <<< conv)
      let n := n.updAdc (fun a => { a with checkOk := bits })
      let n := if ok then n else n.log Ev.adcSelfCheck conv (par agnd) (par ref)
      (n.analogOn conv).foldl (fun n k => n.checkAnalog k ok) n)) ∧
  (∀ (s : State) (slot : Nat) (nV nK nA : List Int) (sl : AdcSlot),
    (s.node.adc.list.slots[slot]?) = (some sl) →
    ¬ (
      let n : Node := s.node
      let xs := n.inputsOf sl.source nV nK nA
      n.adc.frameDropped ∨ !n.adc.nextSlot slot sl.conv ∨ xs.length ≠ 2 ^ sl.avg ∨ !(n.runs Isl.io) ∨ !(n.runs Isl.seq)) →
    ¬ (
      let n : Node := s.node
      let xs := n.inputsOf sl.source nV nK nA
      let start := n.adc.slotStart slot sl.conv
      let t := start + 160 + 250 * (2 ^ sl.avg - 1)
      let (code, ovr) := n.slotCode sl.source xs
      let n := n.upTo (start + 500 * 2 ^ sl.avg)
      let n := (n.updAdc (fun a => { a with slotsDone := a.slotsDone ++ [slot] })).slotToStall sl code ovr t
      let d := n.adc.list.desc sl.conv
      sl.ring ∧ d ≠ 0) →
    Done (.adcSlotResult slot nV nK nA) s (
      let n : Node := s.node
      let xs := n.inputsOf sl.source nV nK nA
      let start := n.adc.slotStart slot sl.conv
      let t := start + 160 + 250 * (2 ^ sl.avg - 1)
      let (code, ovr) := n.slotCode sl.source xs
      let n := n.upTo (start + 500 * 2 ^ sl.avg)
      let n := (n.updAdc (fun a => { a with slotsDone := a.slotsDone ++ [slot] })).slotToStall sl code ovr t
      n)) ∧
  (∀ (s : State) (slot : Nat) (nV nK nA : List Int) (sl : AdcSlot),
    (s.node.adc.list.slots[slot]?) = (some sl) →
    ¬ (
      let n : Node := s.node
      let xs := n.inputsOf sl.source nV nK nA
      n.adc.frameDropped ∨ !n.adc.nextSlot slot sl.conv ∨ xs.length ≠ 2 ^ sl.avg ∨ !(n.runs Isl.io) ∨ !(n.runs Isl.seq)) →
    (
      let n : Node := s.node
      let xs := n.inputsOf sl.source nV nK nA
      let start := n.adc.slotStart slot sl.conv
      let t := start + 160 + 250 * (2 ^ sl.avg - 1)
      let (code, ovr) := n.slotCode sl.source xs
      let n := n.upTo (start + 500 * 2 ^ sl.avg)
      let n := (n.updAdc (fun a => { a with slotsDone := a.slotsDone ++ [slot] })).slotToStall sl code ovr t
      let d := n.adc.list.desc sl.conv
      sl.ring ∧ d ≠ 0) →
    Done (.adcSlotResult slot nV nK nA) s (
      let n : Node := s.node
      let xs := n.inputsOf sl.source nV nK nA
      let start := n.adc.slotStart slot sl.conv
      let t := start + 160 + 250 * (2 ^ sl.avg - 1)
      let (code, ovr) := n.slotCode sl.source xs
      let n := n.upTo (start + 500 * 2 ^ sl.avg)
      let n := (n.updAdc (fun a => { a with slotsDone := a.slotsDone ++ [slot] })).slotToStall sl code ovr t
      let d := n.adc.list.desc sl.conv
      let inv := match n.sourceStall sl.source with | some k => (n.stall k).st != .running | none => false
      let x := ringSample (u8 (n.read d 64) 8) slot code (n.sourceSigned sl.source) inv ovr
      let n := n.updAdc (fun a => { a with samples := a.samples ++ [(sl.conv, BitVec.ofNat 32 x)] })
      let mine := (n.adc.samples.filter (fun p => p.1 == sl.conv)).map Prod.snd
      if mine.length = ringSlots n.adc.list.slots sl.conv then n.ringWrite sl.conv mine else n)) ∧
  (∀ (s : State) (l : AdcList) (t : T64), (s.node.adc.pending) = (some (l, t)) → Done (.adcListApply) s (
      let n : Node := s.node
      let n := (n.upTo t).updAdc (fun a => { a with list := l, pending := none, frameDropped := true, slotsDone := [], samples := [] })
      (n.initRing l.desc0).initRing l.desc1))

/-- Encoder steps, latches, compares, SSI frames and the position stalls complete; that what an event observes is an operand of its row is the model's choice, logs 5, 6 and 14. For each of these constructors of Instr exec answers a next state: encoderStep, encoderZEdge, latchInputEdge, latchInstant, comparePulseEnd, ssiFrameStart, ssiFrameEnd, positionRebase, positionStallWrite, encoderStandstill. (R196, R197, R198, R199, R201, R203, R204, R206, R211) -/
def Obligations.PositionEventsComplete : Prop :=
  (∀ (s : State) (i : Nat) (a b : Bool) (t : T64) (d : Int), (s.node.setEnc i { (s.node.enc i) with a := a, b := b }).encRuns i = true →
    (s.node.encSet i).pf 8 1 ≠ 2 →
    decodeStep ((s.node.encSet i).pf 8 1) ((s.node.encSet i).pf 9 1 == 1) (s.node.enc i).a (s.node.enc i).b a b = some d → d ≠ 0 →
    Done (.encoderStep i a b t) s ((s.node.setEnc i { (s.node.enc i) with a := a, b := b }).countStep i d t)) ∧
  (∀ (s : State) (i : Nat) (a b : Bool) (t : T64), (s.node.setEnc i { (s.node.enc i) with a := a, b := b }).encRuns i = true →
    (s.node.encSet i).pf 8 1 ≠ 2 → decodeStep ((s.node.encSet i).pf 8 1) ((s.node.encSet i).pf 9 1 == 1) (s.node.enc i).a (s.node.enc i).b a b = none →
    Done (.encoderStep i a b t) s ((s.node.setEnc i { (s.node.enc i) with a := a, b := b }).illegalStep i)) ∧
  (∀ (s : State) (i : Nat) (a b : Bool) (t : T64), (s.node.setEnc i { (s.node.enc i) with a := a, b := b }).encRuns i = true →
    (s.node.encSet i).pf 8 1 ≠ 2 →
    decodeStep ((s.node.encSet i).pf 8 1) ((s.node.encSet i).pf 9 1 == 1) (s.node.enc i).a (s.node.enc i).b a b = some 0 →
    Done (.encoderStep i a b t) s (s.node.setEnc i { (s.node.enc i) with a := a, b := b })) ∧
  (∀ (s : State) (i : Nat) (rising : Bool) (t : T64), ((s.node.updEnc i (fun e => { e with z := rising })).encSet i).pf 8 1 ≠ 2 →
    (s.node.updEnc i (fun e => { e with z := rising })).runs Isl.motion = true →
    Done (.encoderZEdge i rising t) s ((s.node.updEnc i (fun e => { e with z := rising })).captureAll i (if rising then 0 else 1) ((s.node.updEnc i (fun e => { e with z := rising })).enc i).ext t)) ∧
  (∀ (s : State) (input : Nat) (rising : Bool), s.node.runs Isl.motion = true →
    let src := (if rising then 16 else 32) + input; Done (.latchInputEdge input rising) s ((s.node.captureAll 0 src (s.node.enc 0).ext s.node.now).captureAll 1 src (s.node.enc 1).ext s.node.now)) ∧
  (∀ (s : State) (i l : Nat) (t : T64), ((s.node.enc i).latches.getD l {}).source = 4 → ((s.node.enc i).latches.getD l {}).st = 1 →
    s.node.runs Isl.motion = true →
    let u := max ((s.node.enc i).latches.getD l {}).instant t; Done (.latchInstant i l t) s ((s.node.upTo u).setEnc i { (s.node.enc i) with latches := (s.node.enc i).latches.put l (((s.node.enc i).latches.getD l {}).capture (s.node.enc i).ext u (s.node.enc i).down (!(s.node.encSet i).valid)) })) ∧
  (∀ (s : State) (o t : Nat), (s.node.outPin o).pulseUntil = some t →
    Done (.comparePulseEnd o) s (((s.node.upTo t).setOut o { s.node.outPin o with pulseUntil := none }).engineWrite (s.node.outStall o) 0 t)) ∧
  (∀ (s : State) (i : Nat) (aHigh : Bool),
    (
      let n : Node := s.node
      let set := n.encSet i
      set.pf 8 1 = 2 ∧ (n.enc i).counting ∧ n.runs Isl.motion ∧ (n.enc i).frame = none) →
    Done (.ssiFrameStart i aHigh) s (
      let n : Node := s.node
      let set := n.encSet i
      let t := nextGrid (max n.gridNow ((n.enc i).frameAt + 1)) (us (set.pf 14 2))
      (n.upTo t).updEnc i (fun e => { e with frame := some (t, aHigh), a := aHigh, clock := false, frameAt := t }))) ∧
  (∀ (s : State) (i word : Nat) (aHigh : Bool) (t : Nat) (okAtStart : Bool),
    ((s.node.enc i).frame) = (some (t, okAtStart)) →
    ¬ (
      let n : Node := s.node
      let n := (n.upTo ((n.encSet i).frameEnd t)).updEnc i (fun e => { e.dropFrame with a := aHigh })
      !(n.enc i).counting || !(n.runs Isl.motion)) →
    ¬ (!okAtStart || aHigh) →
    Done (.ssiFrameEnd i word aHigh) s (
      let n : Node := s.node
      let n := (n.upTo ((n.encSet i).frameEnd t)).updEnc i (fun e => { e.dropFrame with a := aHigh })
      n.ssiWord i word t)) ∧
  (∀ (s : State) (i word : Nat) (aHigh : Bool) (t : Nat) (okAtStart : Bool),
    ((s.node.enc i).frame) = (some (t, okAtStart)) →
    ¬ (
      let n : Node := s.node
      let n := (n.upTo ((n.encSet i).frameEnd t)).updEnc i (fun e => { e.dropFrame with a := aHigh })
      !(n.enc i).counting || !(n.runs Isl.motion)) →
    (!okAtStart || aHigh) →
    Done (.ssiFrameEnd i word aHigh) s (
      let n : Node := s.node
      let n := (n.upTo ((n.encSet i).frameEnd t)).updEnc i (fun e => { e.dropFrame with a := aHigh })
      (n.updEnc i (fun e => { e with speed := 0, speedInvalid := true, goodFrames := 0 })).transientFault (n.encStall i) 7)) ∧
  (∀ (s : State), s.node.host.restarting = false → s.node.runs Isl.core = true →
    Done (.positionRebase) s ((s.node.updEnc 0 (fun e => { e with base := e.ext, rawBase := e.raw })).updEnc 1 (fun e => { e with base := e.ext, rawBase := e.raw }))) ∧
  (∀ (s : State) (i : Nat),
    (
      let n : Node := s.node
      let n := n.upTo (nextGrid n.gridNow 10000)
      let k := n.encStall i
      let st := n.stall k
      st.kd = K.position ∧ n.runs Isl.motion ∧ n.runs Isl.seq) →
    (
      let n : Node := s.node
      let n := n.upTo (nextGrid n.gridNow 10000)
      let k := n.encStall i
      let st := n.stall k
      let n := n.updEnc i (fun e => if st.pf 8 1 = 2 then e else e.fade n.now)
      let e := n.enc i
      (st.st = .running ∨ st.st = .retrying) ∧ (st.pf 8 1 ≠ 2 ∨ e.haveFrame)) →
    Done (.positionStallWrite i) s (
      let n : Node := s.node
      let n := n.upTo (nextGrid n.gridNow 10000)
      let k := n.encStall i
      let st := n.stall k
      let n := n.updEnc i (fun e => if st.pf 8 1 = 2 then e else e.fade n.now)
      let e := n.enc i
      let st := st.setStatus St.invalid (st.st != .running)
      let v := BitVec.ofNat 64 (ofSigned 64 e.ext)
      let n := n.putStall k (if e.ext = e.lastWritten then { st with value := v } else st.takeAt v e.lastEdge)
      n.updEnc i (fun e => { e with lastWritten := e.ext }))) ∧
  (∀ (s : State) (i : Nat), (s.node.enc i).standstill = false → (s.node.encSet i).pf 8 1 ≠ 2 →
    Done (.encoderStandstill i) s ((s.node.upTo ((s.node.enc i).lastEdge + ms 100)).updEnc i Enc.rest))

/-- Planner ticks, timed motion, limits, gearing, the chopper and the coils complete; that what an event observes is an operand of its row is the model's choice, logs 5, 6 and 14. For each of these constructors of Instr exec answers a next state: plannerTick, timedMotionDue, followingError, limitSwitch, gearSyncTimeout, gearMasterLost, chopperBlankEnd, chopperTrip, chopperForcedOff, chopperSlowDecay, chopperOffEnd, bridgeOvercurrent, openPhase, coilIdleTimeout. (R219, R223, R233, R234, R235, R236, R247, R251, R252, R253) -/
def Obligations.MotionAndDriveEventsComplete : Prop :=
  (∀ (s : State), s.node.runs Isl.motion = true →
    Done (.plannerTick) s (((s.node.upTo s.node.tickAt).axisTick 0 s.node.tickAt).axisTick 1 s.node.tickAt)) ∧
  (∀ (s : State) (a : Nat) (e : Timed) (rest : List Timed), (earliest (s.node.axis a).timed) = (some (e, rest)) → Done (.timedMotionDue a) s (
      let n : Node := s.node
      let n := (n.upTo e.instant).axisMotion a e.instant
      let n := match e with
        | .move mode v ac d j target t => (n.moveNow a mode target (v, ac, d, j) t).2
        | .stop ramp _ => n.stopNow a ramp
      n.updAxis a (fun x => { x with timed := rest }))) ∧
  (∀ (s : State) (a : Nat), (s.node.axis a).cfg.ferrWindow ≠ 0 → 0 < (s.node.axis a).ferrTicks →
    (s.node.axis a).cfg.ferrTime ≤ (s.node.axis a).ferrTicks → Done (.followingError a) s (s.node.transientFault (s.node.axisStall a) 13)) ∧
  (∀ (s : State) (a : Nat) (positive : Bool),
    (
      let n : Node := s.node
      let st := (n.axis a).st
      n.limitActive a positive ∧ st ≠ .disabled ∧ st ≠ .standstill) →
    Done (.limitSwitch a positive) s (                                                                         (s.node.settle a).limitStop a (if positive then 3 else 2) )) ∧
  (∀ (s : State) (a : Nat), (s.node.axis a).st = .syncing →
    Done (.gearSyncTimeout a) s (((s.node.upTo ((s.node.axis a).gear.syncFrom + sec 10)).log Ev.gearStep a 1 (par (s.node.axis a).gear.step)).rampStop a .gear)) ∧
  (∀ (s : State) (a : Nat), (s.node.axis a).st = .geared ∨ (s.node.axis a).st = .syncing → s.node.masterLost (s.node.axis a).gear = true →
    Done (.gearMasterLost a) s ((s.node.log Ev.gearMasterLost a (s.node.axis a).gear.master (par (s.node.axis a).gear.lastMaster)).rampStop a .gear)) ∧
  (∀ (s : State) (a p : Nat),
    (
      let n : Node := s.node
      let ph := (n.drv a).phase p
      ph.chop = .blank) →
    Done (.chopperBlankEnd a p) s (
      let n : Node := s.node
      let ph := (n.drv a).phase p
      (n.upTo (ph.since + base25 (n.drv a).tBlank)).chopStep a p (fun _ _ ph => if ph.chop = .blank then { ph with chop := .sampling } else ph))) ∧
  (∀ (s : State) (a p code : Nat), Done (.chopperTrip a p code) s (
      let n : Node := s.node

      n.chopStep a p (fun n d ph =>
        if ph.chop = .sampling ∧ n.now ≤ ph.since + maxOnTime ∧ reachesRef code (d.vref ph.amplitude) then
          { ph.offTime d.fast n.now with sense := ph.signed code, lowCycles := 0 }
        else ph))) ∧
  (∀ (s : State) (a p peak : Nat),
    (
      let n : Node := s.node
      let ph := (n.drv a).phase p
      ph.chop = .sampling) →
    Done (.chopperForcedOff a p peak) s (
      let n : Node := s.node
      let ph := (n.drv a).phase p
      (n.upTo (ph.since + maxOnTime)).chopStep a p (fun _ d ph =>
        if ph.chop = .sampling ∧ belowRef peak (d.vref ph.amplitude) then
          let low := d.chops && lowSense peak (d.vref ph.amplitude) && decide (8192 ≤ ph.amplitude.natAbs)
          { ph.offTime d.fast (ph.since + maxOnTime) with sense := ph.signed peak, lowCycles := if low then min 16 (ph.lowCycles + 1) else 0 }
        else ph))) ∧
  (∀ (s : State) (a p : Nat),
    (
      let n : Node := s.node
      let ph := (n.drv a).phase p
      ph.chop = .fast) →
    Done (.chopperSlowDecay a p) s (
      let n : Node := s.node
      let ph := (n.drv a).phase p
      (n.upTo (ph.since + base25 (n.drv a).fastTime)).chopStep a p (fun _ _ ph => if ph.chop = .fast then { ph with bridge := .brake, chop := .slow } else ph))) ∧
  (∀ (s : State) (a p : Nat),
    (
      let n : Node := s.node
      let ph := (n.drv a).phase p
      ph.chop = .slow ∨ ph.chop = .allFast) →
    Done (.chopperOffEnd a p) s (
      let n : Node := s.node
      let ph := (n.drv a).phase p
      let t := ph.since + base25 (n.drv a).tOff
      (n.upTo t).chopStep a p (fun _ d ph' => if ph'.since = ph.since then ph'.next d.fast t else ph'))) ∧
  (∀ (s : State) (a : Nat),
    (
      let n : Node := s.node
      let d := n.drv a
      let seen (ph : Phase) : Bool := ph.chop != .off && ph.chop != .blank
      d.chops && (seen d.phA || seen d.phB)) →
    Done (.bridgeOvercurrent a) s (                                                  (s.node.coilsOff a).transientFault (s.node.axisStall a) 1 )) ∧
  (∀ (s : State) (a p : Nat), (s.node.drv a).chops = true → 16 ≤ ((s.node.drv a).phase p).lowCycles →
    Done (.openPhase a p) s ((s.node.coilsOff a).permanentFault (s.node.axisStall a) 12)) ∧
  (∀ (s : State) (a : Nat), (s.node.axis a).st = .standstill → (s.node.drv a).coil = .run → (s.node.drv a).standstill = 2 →
    Done (.coilIdleTimeout a) s ((s.node.upTo ((s.node.axis a).stood + ms (s.node.drv a).idle)).setDrv a { (s.node.drv a) with coil := .hold })) ∧
  (∀ (s : State) (a : Nat), (s.node.axis a).st = .standstill → (s.node.drv a).coil = .run → (s.node.drv a).standstill = 0 →
    let m := (s.node.upTo ((s.node.axis a).stood + ms (s.node.drv a).idle)).setDrv a { (s.node.drv a) with coil := .coast, phA := (s.node.drv a).phA.openLands, phB := (s.node.drv a).phB.openLands }; Done (.coilIdleTimeout a) s (if (m.encOf a).isNone = true then (m.updAxis a (fun x => { x with referenced := false })).log Ev.axisUnreferenced a 0 0 else m)) ∧
  (∀ (s : State) (a : Nat), (s.node.axis a).st = .standstill → (s.node.drv a).coil = .run → (s.node.drv a).standstill ≠ 0 →
    (s.node.drv a).standstill ≠ 2 →
    let m := (s.node.upTo ((s.node.axis a).stood + ms (s.node.drv a).idle)).setDrv a { (s.node.drv a) with coil := .short, phA := (s.node.drv a).phA.brakeLands, phB := (s.node.drv a).phB.brakeLands }; Done (.coilIdleTimeout a) s (if (m.encOf a).isNone = true then (m.updAxis a (fun x => { x with referenced := false })).log Ev.axisUnreferenced a 0 0 else m))

/-- Line ports train, link, fall and are judged, and their events complete; that what an event observes is an operand of its row is the model's choice, logs 5, 6 and 14. For each of these constructors of Instr exec answers a next state: partnerSignal, trainingRateTimeout, linkUp, linkHelloTimeout, linkHello, linkLost, portSilent, rateRetry, trainingFailTimeout, fecBurst, leave, lpiEnter, lpiExit. (R259, R261, R262, R263, R271, R281, R458) -/
def Obligations.LinkEventsComplete : Prop :=
  (∀ (s : State) (p adv bypasses : Nat),
    (
      let n : Node := s.node
      let x := n.port p
      x.st = .down ∧ p < 3 ∧ x.reload.isNone ∧ n.runs Isl.line ∧ (p = 2 ∨ !n.power.bypassClosed)) →
    Done (.partnerSignal p adv bypasses) s (
      let n : Node := s.node
      let x := n.port p
      let n := n.setPort p { x with bypasses := bypasses, adv := adv }
      (n.updPort p (fun x => { x with st := .training, linkUp := false, trying := topRate adv (n.capOf p), trainFrom := n.now })).report.raise 9)) ∧
  (∀ (s : State) (p : Nat),
    (
      let n : Node := s.node
      let x := n.port p
      x.st = .training ∧ !x.linkUp) →
    (
      let n : Node := s.node
      let x := n.port p
      let r := topRate x.adv (x.trying - 1)
      1 ≤ r) →
    Done (.trainingRateTimeout p) s (
      let n : Node := s.node
      let x := n.port p
      let n := n.upTo (x.trainFrom + ms 150)
      let r := topRate x.adv (x.trying - 1)
      n.setPort p { x with trying := r, trainFrom := n.now })) ∧
  (∀ (s : State) (p : Nat),
    (
      let n : Node := s.node
      let x := n.port p
      x.st = .training ∧ !x.linkUp) →
    ¬ (
      let n : Node := s.node
      let x := n.port p
      let r := topRate x.adv (x.trying - 1)
      1 ≤ r) →
    (
      let n : Node := s.node
      let x := n.port p
      x.bypasses = 1) →
    Done (.trainingRateTimeout p) s (
      let n : Node := s.node
      let x := n.port p
      let n := n.upTo (x.trainFrom + ms 150)
      let n := n.setPort p { x with bypasses := 2 }
      n.updPort p (fun x => { x with trying := topRate x.adv (n.capOf p), trainFrom := n.now }))) ∧
  (∀ (s : State) (p : Nat),
    (
      let n : Node := s.node
      let x := n.port p
      x.st = .training ∧ !x.linkUp) →
    ¬ (
      let n : Node := s.node
      let x := n.port p
      let r := topRate x.adv (x.trying - 1)
      1 ≤ r) →
    ¬ (
      let n : Node := s.node
      let x := n.port p
      x.bypasses = 1) →
    Done (.trainingRateTimeout p) s (
      let n : Node := s.node
      let x := n.port p
      let n := n.upTo (x.trainFrom + ms 150)
      (n.setPort p { x.unlinked .down with failFrom := some (x.failFrom.getD n.now) }).report)) ∧
  (∀ (s : State) (p length : Nat) (preempt lpi : Bool),
    (
      let n : Node := s.node
      let x := n.port p
      x.st = .training ∧ !x.linkUp ∧ 1 ≤ x.trying) →
    Done (.linkUp p length preempt lpi) s (
      let n : Node := s.node
      let x := n.port p
      (n.setPort p { x with linkUp := true, rate := x.trying, length := length, preempt := preempt, lpiAgreed := lpi, failFrom := none, upAt := n.now,
                            retryFrom := n.now, clock := 10 * n.now, freeAt := 10 * n.now }).judgeLink p)) ∧
  (∀ (s : State) (p : Nat),
    (
      let n : Node := s.node
      let x := n.port p
      x.st = .training ∧ x.linkUp) →
    Done (.linkHelloTimeout p) s (
      let n : Node := s.node
      let x := n.port p
      ((n.upTo (x.upAt + sec 1)).setPort p { x with st := .foreign, partner := 2 }).report.raise 9 )) ∧
  (∀ (s : State) (p address level serial : Nat),
    ¬ (
      let n : Node := s.node
      let x := n.port p
      !n.runs Isl.line ∨ !(x.st == .up || x.st == .levelRefused || (x.st == .training && x.linkUp && decide (n.now ≤ x.upAt + sec 1)))) →
    (partnerLevelOk level) →
    (
      let n : Node := s.node
      let x := n.port p
      x.st = .up) →
    Done (.linkHello p address level serial) s (
      let n : Node := s.node
      let x := n.port p
      let known := { x with partner := 1, plevel := level, paddr := address, pserial := serial, lastGood := n.now }
      n.setPort p known)) ∧
  (∀ (s : State) (p address level serial : Nat),
    ¬ (
      let n : Node := s.node
      let x := n.port p
      !n.runs Isl.line ∨ !(x.st == .up || x.st == .levelRefused || (x.st == .training && x.linkUp && decide (n.now ≤ x.upAt + sec 1)))) →
    (partnerLevelOk level) →
    ¬ (
      let n : Node := s.node
      let x := n.port p
      x.st = .up) →
    Done (.linkHello p address level serial) s (
      let n : Node := s.node
      let x := n.port p
      let known := { x with partner := 1, plevel := level, paddr := address, pserial := serial, lastGood := n.now }
      let n := (n.setPort p { known with st := .up, upSince := n.now }).log Ev.portUp p x.rate address
      (n.ringHealedAt p).learnRoutes.report.raise 9)) ∧
  (∀ (s : State) (p address level serial : Nat),
    ¬ (
      let n : Node := s.node
      let x := n.port p
      !n.runs Isl.line ∨ !(x.st == .up || x.st == .levelRefused || (x.st == .training && x.linkUp && decide (n.now ≤ x.upAt + sec 1)))) →
    ¬ (partnerLevelOk level) →
    ¬ (
      let n : Node := s.node
      let x := n.port p
      x.st = .levelRefused) →
    Done (.linkHello p address level serial) s (
      let n : Node := s.node
      let x := n.port p
      let known := { x with partner := 1, plevel := level, paddr := address, pserial := serial, lastGood := n.now }
      let n := (n.setPort p { known with st := .levelRefused }).log Ev.levelGap p level ownLevel
      let n := if x.st = .up then ((n.slaveLeaves p .up).withdraw p).ringBreakAt p else n
      n.report.raise 9)) ∧
  (∀ (s : State) (p address level serial : Nat),
    ¬ (
      let n : Node := s.node
      let x := n.port p
      !n.runs Isl.line ∨ !(x.st == .up || x.st == .levelRefused || (x.st == .training && x.linkUp && decide (n.now ≤ x.upAt + sec 1)))) →
    ¬ (partnerLevelOk level) →
    (
      let n : Node := s.node
      let x := n.port p
      x.st = .levelRefused) →
    Done (.linkHello p address level serial) s (
      let n : Node := s.node
      let x := n.port p
      let known := { x with partner := 1, plevel := level, paddr := address, pserial := serial, lastGood := n.now }
      let n := (n.setPort p { known with st := .levelRefused }).log Ev.levelGap p level ownLevel
      let n := if x.st = .up then ((n.slaveLeaves p .up).withdraw p).ringBreakAt p else n
      n )) ∧
  (∀ (s : State) (p : Nat), (s.node.port p).st = .training → Done (.linkLost p) s ((s.node.setPort p ((s.node.port p).unlinked .down)).report)) ∧
  (∀ (s : State) (p : Nat), (s.node.port p).st ≠ .training → Done (.linkLost p) s (s.node.portDown p 0 (some ((s.node.port p).rate, some s.node.now)))) ∧
  (∀ (s : State) (p : Nat),
    (
      let n : Node := s.node
      let x := n.port p
      x.st = .up ∨ x.st = .levelRefused) →
    Done (.portSilent p) s (
      let n : Node := s.node
      let x := n.port p
      (n.upTo (x.lastGood + us n.line.cycle + us 50)).portDown p 2 (some (x.rate, some n.now)) )) ∧
  (∀ (s : State) (p : Nat),
    (
      let n : Node := s.node
      let x := n.port p
      let n := if x.st = .up then n.upTo (x.retryFrom + sec 600) else n
      x.st = .up ∧ x.partner = 1 ∧ x.rate < topRate x.adv (n.allowedRate p) ∧ x.lastExpress + ms 2 ≤ n.now) →
    Done (.rateRetry p) s (
      let n : Node := s.node
      let x := n.port p
      let n := if x.st = .up then n.upTo (x.retryFrom + sec 600) else n
      (n.updPort p (fun x => { x with degraded := 0 })).portDown p 0 (some (x.rate, none)))) ∧
  (∀ (s : State) (p t : Nat), (s.node.port p).failFrom = some t → Done (.trainingFailTimeout p) s ((s.node.upTo (t + sec 60)).retirePort p 5)) ∧
  (∀ (s : State) (p blocks : Nat),
    (
      let n : Node := s.node
      let x := n.port p
      x.rate ≠ 0 ∧ 10 < blocks) →
    Done (.fecBurst p blocks) s (
      let n : Node := s.node
      let x := n.port p
      ((n.setPort p { x with fecUnc := min (x.fecUnc + blocks) (2 ^ 32 - 1) }).portDown p 0 (some (x.rate, none))).countDrop p)) ∧
  (∀ (s : State) (p : Nat), (s.node.port p).st = .up → Done (.leave p) s (s.node.portDown p 1 none)) ∧
  (∀ (s : State) (p : Nat), p < 3 → s.node.runs Isl.line = true → s.node.glean.flags.getLsbD (1 + p) = true → (s.node.port p).lpiAgreed = true →
    (s.node.port p).st = .up ∨ (s.node.port p).st = .foreign → s.node.queuesEmpty p = true → (s.node.port p).entry ≠ 0 →
    s.node.now + us 40 < nextGrid (s.node.now + 1) (us s.node.line.cycle) →
    Done (.lpiEnter p) s (s.node.setPort p { (s.node.port p) with lpi := true })) ∧
  (∀ (s : State) (p : Nat), ((s.node.port p).lpi ∧ !s.node.queuesEmpty p) →
    Done (.lpiExit p) s (                                                           s.node.updPort p (fun x => { x with lpi := false, clock := 10 * s.node.now }) ))

/-- Cycle boundaries, frames, the ring, the map and addresses of the line complete; that what an event observes is an operand of its row is the model's choice, logs 5, 6 and 14. For each of these constructors of Instr exec answers a next state: lineCycleBoundary, gateEntryChange, cyclicSend, kereyFrameForward, plantFrameIn, proxyExpire, ringBreak, ringClosed, ringRouteRestore, topoReport, topoMapSend, topoMap, addrRequest, addrAssign, cyclic, nodeWrite, lineCycleApply. (R267, R268, R269, R273, R274, R275, R277, R280, R284) -/
def Obligations.LineEventsComplete : Prop :=
  (∀ (s : State) (t : Nat), (s.node.runs Isl.line ∧ t = nextGrid s.node.gridNow (us s.node.line.cycle)) → Done (.lineCycleBoundary t) s (
      let n : Node := s.node
      let n := n.upTo t
      let n := (List.range 3).foldl (fun n p => n.gateChange p 0 t) n
      let n := match n.line.stored with
        | some c => n.updLine (fun l => { l with cfg := { l.cfg with radius := c.radius, offset := c.offset, maxRate := c.maxRate, flags := c.flags } })
        | none => n
      let n := n.updLine (fun l => { l with cyclic := if n.awake then n.cyclicPayload t else leBytes 8 t ++ l.cyclic.drop 8, cyclicDue := true, boundary := t })
      let n := { n with stalls := n.stalls.mapE (fun _ x => if x.kd = K.linepoint ∧ x.active ∧ n.awake then x.cycleEnds else x) }
      let n := n.repeatRequests
      (List.range 3).foldl (fun n p =>
        let x := n.port p
        if x.st = .up ∨ (x.st = .training ∧ x.linkUp) then
          n.sendHop 0x01 p (leBytes 2 n.addr ++ leBytes 1 ownLevel ++ leBytes 1 p ++ leBytes 8 Config.serial.toNat
            ++ leBytes 6 Config.macAddr.toNat ++ [0, 0])
        else n) n)) ∧
  (∀ (s : State) (p t : Nat),
    (
      let n : Node := s.node
      let e := (n.port p).entry + 1
      p < 3 ∧ e < (n.gateList p).length ∧ n.runs Isl.line ∧ t = n.entryEnd p) →
    Done (.gateEntryChange p t) s (
      let n : Node := s.node
      let e := (n.port p).entry + 1
      (n.upTo t).gateChange p e t )) ∧
  (∀ (s : State), (s.node.lineSends ∧ s.node.line.cyclicDue) → Done (.cyclicSend) s (
      let n : Node := s.node
      let n := (n.upTo (n.line.boundary + us n.line.cfg.offset)).updLine (fun l => { l with cyclicDue := false })
      let (f, n) := n.newFrame 0x12 0 0xFFFF n.line.cfg.radius n.line.cyclic
      (List.range 3).foldl (fun n p => n.egress p f) n)) ∧
  (∀ (s : State) (p mac level type flags dst src ttl seq : Nat) (payload : List Nat) (hcrc fcs : Nat) (fec : Nat × Nat),
    ¬ (!s.node.runs Isl.line ∨ p ≥ 3) →
    (!knownType type) →
    (
      let n : Node := s.node
      let n := n.updPort p (fun x => { x with crcRun := satInc 32 x.crcRun, fecCorr := min (x.fecCorr + fec.1) (2 ^ 32 - 1),
                                              fecUnc := min (x.fecUnc + fec.2) (2 ^ 32 - 1) })
      let n := if fcs = 0 then n.updPort p (fun x => { x with lastGood := n.now,
                                                              lastExpress := if 5 ≤ classOf type ∧ type ≠ 0x01 then n.now else x.lastExpress }) else n
      n.line.cfg.flags.getLsbD 2 ∧ fcs = 0 ∧ (n.port p).st = .up) →
    Done (.kereyFrameForward p mac level type flags dst src ttl seq payload hcrc fcs fec) s (
      let n : Node := s.node
      let n := n.updPort p (fun x => { x with crcRun := satInc 32 x.crcRun, fecCorr := min (x.fecCorr + fec.1) (2 ^ 32 - 1),
                                              fecUnc := min (x.fecUnc + fec.2) (2 ^ 32 - 1) })
      let f : KFrame := { level := level, type := type, flags := BitVec.ofNat 16 flags, dst := dst, src := src, ttl := ttl, seq := seq,
                          payload := payload.map (BitVec.ofNat 8), smac := mac }
      let n := if fcs = 0 then n.updPort p (fun x => { x with lastGood := n.now,
                                                              lastExpress := if 5 ≤ classOf type ∧ type ≠ 0x01 then n.now else x.lastExpress }) else n
      n.egress (if p = 0 then 1 else 0) f )) ∧
  (∀ (s : State) (p mac level type flags dst src ttl seq : Nat) (payload : List Nat) (hcrc fcs : Nat) (fec : Nat × Nat),
    ¬ (!s.node.runs Isl.line ∨ p ≥ 3) →
    ¬ (!knownType type) →
    (
      let n : Node := s.node
      let f : KFrame := { level := level, type := type, flags := BitVec.ofNat 16 flags, dst := dst, src := src, ttl := ttl, seq := seq,
                          payload := payload.map (BitVec.ofNat 8), smac := mac }
      hcrc ≠ f.hcrc) →
    Done (.kereyFrameForward p mac level type flags dst src ttl seq payload hcrc fcs fec) s (
      let n : Node := s.node
      let n := n.updPort p (fun x => { x with crcRun := satInc 32 x.crcRun, fecCorr := min (x.fecCorr + fec.1) (2 ^ 32 - 1),
                                              fecUnc := min (x.fecUnc + fec.2) (2 ^ 32 - 1) })
      let n := if fcs = 0 then n.updPort p (fun x => { x with lastGood := n.now,
                                                              lastExpress := if 5 ≤ classOf type ∧ type ≠ 0x01 then n.now else x.lastExpress }) else n
      n.badFrame p 0xFFFF)) ∧
  (∀ (s : State) (p mac level type flags dst src ttl seq : Nat) (payload : List Nat) (hcrc fcs : Nat) (fec : Nat × Nat),
    ¬ (!s.node.runs Isl.line ∨ p ≥ 3) →
    ¬ (!knownType type) →
    ¬ (
      let n : Node := s.node
      let f : KFrame := { level := level, type := type, flags := BitVec.ofNat 16 flags, dst := dst, src := src, ttl := ttl, seq := seq,
                          payload := payload.map (BitVec.ofNat 8), smac := mac }
      hcrc ≠ f.hcrc) →
    (type = 0x01) →
    (fcs = 0) →
    Done (.kereyFrameForward p mac level type flags dst src ttl seq payload hcrc fcs fec) s (
      let n : Node := s.node
      let n := n.updPort p (fun x => { x with crcRun := satInc 32 x.crcRun, fecCorr := min (x.fecCorr + fec.1) (2 ^ 32 - 1),
                                              fecUnc := min (x.fecUnc + fec.2) (2 ^ 32 - 1) })
      let f : KFrame := { level := level, type := type, flags := BitVec.ofNat 16 flags, dst := dst, src := src, ttl := ttl, seq := seq,
                          payload := payload.map (BitVec.ofNat 8), smac := mac }
      let n := if fcs = 0 then n.updPort p (fun x => { x with lastGood := n.now,
                                                              lastExpress := if 5 ≤ classOf type ∧ type ≠ 0x01 then n.now else x.lastExpress }) else n
      n.deliver p f )) ∧
  (∀ (s : State) (p mac level type flags dst src ttl seq : Nat) (payload : List Nat) (hcrc fcs : Nat) (fec : Nat × Nat),
    ¬ (!s.node.runs Isl.line ∨ p ≥ 3) →
    ¬ (!knownType type) →
    ¬ (
      let n : Node := s.node
      let f : KFrame := { level := level, type := type, flags := BitVec.ofNat 16 flags, dst := dst, src := src, ttl := ttl, seq := seq,
                          payload := payload.map (BitVec.ofNat 8), smac := mac }
      hcrc ≠ f.hcrc) →
    ¬ (type = 0x01) →
    (!levelOk level) →
    Done (.kereyFrameForward p mac level type flags dst src ttl seq payload hcrc fcs fec) s (
      let n : Node := s.node
      let n := n.updPort p (fun x => { x with crcRun := satInc 32 x.crcRun, fecCorr := min (x.fecCorr + fec.1) (2 ^ 32 - 1),
                                              fecUnc := min (x.fecUnc + fec.2) (2 ^ 32 - 1) })
      let n := if fcs = 0 then n.updPort p (fun x => { x with lastGood := n.now,
                                                              lastExpress := if 5 ≤ classOf type ∧ type ≠ 0x01 then n.now else x.lastExpress }) else n
      n.log Ev.levelGap p level ownLevel)) ∧
  (∀ (s : State) (p mac level type flags dst src ttl seq : Nat) (payload : List Nat) (hcrc fcs : Nat) (fec : Nat × Nat),
    ¬ (!s.node.runs Isl.line ∨ p ≥ 3) →
    ¬ (!knownType type) →
    ¬ (
      let n : Node := s.node
      let f : KFrame := { level := level, type := type, flags := BitVec.ofNat 16 flags, dst := dst, src := src, ttl := ttl, seq := seq,
                          payload := payload.map (BitVec.ofNat 8), smac := mac }
      hcrc ≠ f.hcrc) →
    ¬ (type = 0x01) →
    ¬ (!levelOk level) →
    ¬ (
      let n : Node := s.node
      let n := n.updPort p (fun x => { x with crcRun := satInc 32 x.crcRun, fecCorr := min (x.fecCorr + fec.1) (2 ^ 32 - 1),
                                              fecUnc := min (x.fecUnc + fec.2) (2 ^ 32 - 1) })
      let f : KFrame := { level := level, type := type, flags := BitVec.ofNat 16 flags, dst := dst, src := src, ttl := ttl, seq := seq,
                          payload := payload.map (BitVec.ofNat 8), smac := mac }
      let n := if fcs = 0 then n.updPort p (fun x => { x with lastGood := n.now,
                                                              lastExpress := if 5 ≤ classOf type ∧ type ≠ 0x01 then n.now else x.lastExpress }) else n
      (n.port p).st ≠ .up ∨ n.spineBars p f ∨ (plantAddr src && neverPlant type)) →
    (fcs = 1) →
    Done (.kereyFrameForward p mac level type flags dst src ttl seq payload hcrc fcs fec) s (
      let n : Node := s.node
      let n := n.updPort p (fun x => { x with crcRun := satInc 32 x.crcRun, fecCorr := min (x.fecCorr + fec.1) (2 ^ 32 - 1),
                                              fecUnc := min (x.fecUnc + fec.2) (2 ^ 32 - 1) })
      let f : KFrame := { level := level, type := type, flags := BitVec.ofNat 16 flags, dst := dst, src := src, ttl := ttl, seq := seq,
                          payload := payload.map (BitVec.ofNat 8), smac := mac }
      let n := if fcs = 0 then n.updPort p (fun x => { x with lastGood := n.now,
                                                              lastExpress := if 5 ≤ classOf type ∧ type ≠ 0x01 then n.now else x.lastExpress }) else n
      (n.badFrame p src).switch p { f with inverted := true })) ∧
  (∀ (s : State) (p mac level type flags dst src ttl seq : Nat) (payload : List Nat) (hcrc fcs : Nat) (fec : Nat × Nat),
    ¬ (!s.node.runs Isl.line ∨ p ≥ 3) →
    ¬ (!knownType type) →
    ¬ (
      let n : Node := s.node
      let f : KFrame := { level := level, type := type, flags := BitVec.ofNat 16 flags, dst := dst, src := src, ttl := ttl, seq := seq,
                          payload := payload.map (BitVec.ofNat 8), smac := mac }
      hcrc ≠ f.hcrc) →
    ¬ (type = 0x01) →
    ¬ (!levelOk level) →
    ¬ (
      let n : Node := s.node
      let n := n.updPort p (fun x => { x with crcRun := satInc 32 x.crcRun, fecCorr := min (x.fecCorr + fec.1) (2 ^ 32 - 1),
                                              fecUnc := min (x.fecUnc + fec.2) (2 ^ 32 - 1) })
      let f : KFrame := { level := level, type := type, flags := BitVec.ofNat 16 flags, dst := dst, src := src, ttl := ttl, seq := seq,
                          payload := payload.map (BitVec.ofNat 8), smac := mac }
      let n := if fcs = 0 then n.updPort p (fun x => { x with lastGood := n.now,
                                                              lastExpress := if 5 ≤ classOf type ∧ type ≠ 0x01 then n.now else x.lastExpress }) else n
      (n.port p).st ≠ .up ∨ n.spineBars p f ∨ (plantAddr src && neverPlant type)) →
    ¬ (fcs = 1) →
    ¬ (fcs = 2) →
    Done (.kereyFrameForward p mac level type flags dst src ttl seq payload hcrc fcs fec) s (
      let n : Node := s.node
      let n := n.updPort p (fun x => { x with crcRun := satInc 32 x.crcRun, fecCorr := min (x.fecCorr + fec.1) (2 ^ 32 - 1),
                                              fecUnc := min (x.fecUnc + fec.2) (2 ^ 32 - 1) })
      let f : KFrame := { level := level, type := type, flags := BitVec.ofNat 16 flags, dst := dst, src := src, ttl := ttl, seq := seq,
                          payload := payload.map (BitVec.ofNat 8), smac := mac }
      let n := if fcs = 0 then n.updPort p (fun x => { x with lastGood := n.now,
                                                              lastExpress := if 5 ≤ classOf type ∧ type ≠ 0x01 then n.now else x.lastExpress }) else n
      n.switch p f)) ∧
  (∀ (s : State) (mac level type flags dst src ttl seq : Nat) (payload : List Nat), (s.node.isHead ∧ s.node.line.cfg.portC = 3 ∧
    (s.node.port 2).st = .foreign ∧ s.node.runs Isl.line) → Done (.plantFrameIn mac level type flags dst src ttl seq payload) s (
      let n : Node := s.node
      let drop := n.updPort 2 (fun x => { x with qdrop := satInc 32 x.qdrop })
      let f : KFrame := { level := level, type := type, flags := BitVec.ofNat 16 flags, dst := dst, src := src, ttl := ttl, seq := seq,
                          payload := payload.map (BitVec.ofNat 8), smac := mac }
      let (tok, at_) := n.line.refill n.now
      if !(type == 0x10 || type == 0x40 || type == 0x50) then drop
      else if src ≠ 0 then n
      else if !levelOk level then n.log Ev.levelGap 2 level ownLevel
      else if tok < f.size then drop
      else match n.line.proxy mac with
        | some a =>
          (n.updLine (fun l => { l with bucket := (tok - f.size, at_), proxies := l.proxies.put a (mac, n.now) })).switch 2 { f with src := a }
        | none => n)) ∧
  (∀ (s : State) (address mac t : Nat), s.node.line.proxies.look address = some (mac, t) →
    Done (.proxyExpire address) s ((s.node.upTo (t + sec 600)).updLine (fun l => { l with proxies := l.proxies.del address }))) ∧
  (∀ (s : State) (up down : Nat), s.node.line.ring = true → s.node.runs Isl.line = true → Done (.ringBreak up down) s (
      let n : Node := s.node
      let n := (n.raise 4).log Ev.ringBreak up down 0
      (n.updLine (fun l =>
        { l with ringBroken := true, ringClosed := 0, headBridges := l.headBridges || n.isHead,
                 savedRoutes := some (l.savedRoutes.getD l.routes), routes := n.routesFrom l.map (some (up, down)) })).reslave)) ∧
  (∀ (s : State) (up down : Nat), s.node.line.ring = true → s.node.line.ringBroken = true → s.node.runs Isl.line = true → Done (.ringClosed up down) s (
      let n : Node := s.node
      ((n.raise 4).log Ev.ringClosed up down 0).updLine (fun l => { l with ringClosed := l.ringClosed + 1 }))) ∧
  (∀ (s : State), s.node.line.ringBroken = true → (if s.node.isHead then 2 else 1) ≤ s.node.line.ringClosed → Done (.ringRouteRestore) s (
      let n : Node := s.node
      let n := n.upTo (nextGrid n.gridNow (us n.line.cycle))
      (n.updLine (fun l => { l with ringBroken := false, ringClosed := 0, headBridges := false,
                                    routes := l.savedRoutes.getD l.routes, savedRoutes := none })).reslave)) ∧
  (∀ (s : State) (serial address level : Nat) (ports neigh rates : List Nat) (head : Bool), s.node.isHead = true → s.node.runs Isl.line = true →
    head = false →
    let x : MapNode := { serial := serial, address := address, level := level, ports := ports, neigh := neigh, head := false, rates := rates }; let m := s.node.updLine (fun l => { l with map := l.map.put serial x, mapDue := true }); let m := (m.judgeLevel x).judgeAddress x; Done (.topoReport serial address level ports neigh rates head) s (Node.revokeUnfit m.harv.grants.length m)) ∧
  (∀ (s : State) (serial address level : Nat) (ports neigh rates : List Nat) (head : Bool), s.node.isHead = true → s.node.runs Isl.line = true →
    head = true → (s.node.yieldTo address).isHead = false → Done (.topoReport serial address level ports neigh rates head) s (s.node.yieldTo address)) ∧
  (∀ (s : State), s.node.isHead = true → s.node.line.mapDue = true → s.node.runs Isl.line = true → Done (.topoMapSend) s (
      let n : Node := s.node
      let n := (n.updLine (fun l => { l with mapDue := false, map := l.map.put Config.serial.toNat n.ownReport }))
      let n := n.takeMap n.line.map
      let (c, u) := n.line.newCycle.getD (n.line.cycle, 0)
      let (rl, rt) := n.line.raise.getD (0, 0)
      let n := n.log Ev.topologyChanged n.line.map.length n.line.level n.line.breakCount
      n.send 0x06 0 0xFFFF (mapBytes c u n.line.level rl rt (n.line.map.map Prod.snd)))) ∧
  (∀ (s : State) (src cycle cycleAt level raiseLevel raiseAt : Nat) (nodes : List (List Nat)), s.node.runs Isl.line = true →
    (s.node.yieldTo src).isHead = false → Done (.topoMap src cycle cycleAt level raiseLevel raiseAt nodes) s (
      let n : Node := s.node.yieldTo src
      let ms := nodes.map MapNode.ofList
      let map := ms.foldl (fun t x => Tbl.put t x.serial x) ([] : Tbl MapNode)
      let n := if mapBytes cycle cycleAt level raiseLevel raiseAt ms = n.line.lastMap then n else n.raise 4
      let n := n.takeMap map
      let n := n.updLine (fun l =>
        { l with level := level, lastMap := mapBytes cycle cycleAt level raiseLevel raiseAt ms,
                 raise := if raiseLevel = 0 then l.raise else some (raiseLevel, raiseAt),
                 cycle := if cycleAt = 0 then cycle else l.cycle,
                 newCycle := if cycleAt = 0 then none else some (cycle, cycleAt) })
      if n.addr = 0 then n.send 0x07 0 0xFF00 (leBytes 8 Config.serial.toNat) else n)) ∧
  (∀ (s : State) (serial a : Nat), s.node.isHead = true → s.node.line.cfg.flags.getLsbD 0 = true → s.node.runs Isl.line = true →
    (((List.range ((s.node.addr :: s.node.line.map.map (fun e => e.2.address)).length + 1)).map (· + 1)).find? (fun a => !(s.node.addr :: s.node.line.map.map (fun e => e.2.address)).contains a && decide (a ≤ 0xFEFF))) = some a →
    let x := s.node.line.map.getD serial { serial := serial, address := 0, level := ownLevel, ports := [], neigh := [], head := false }; Done (.addrRequest serial) s ((s.node.updLine (fun l => { l with map := l.map.put serial { x with address := a } })).send 0x08 0 0xFFFF (leBytes 8 serial ++ leBytes 2 a ++ [0, 0]))) ∧
  (∀ (s : State) (serial address : Nat),
    (serial = Config.serial.toNat ∧ s.node.runs Isl.line) →
    ¬ (address = 0xFFFF) →
    (
      let n : Node := s.node
      let n := n.raise 2
      n.addr = 0 ∧ 1 ≤ address ∧ address ≤ 0xFEFF ∧ !n.cfgRo) →
    Done (.addrAssign serial address) s (
      let n : Node := s.node
      let n := n.raise 2
      let kept := { n.line.stored.getD n.line.cfg with address := address }
      ((n.storeCfg Cmd.lineConfig 0 kept.bytes).updLine (fun l => { l with cfg := { l.cfg with address := address }, suspended := false,
                                                                                stored := l.stored.map (fun c => { c with address := address }) })).report)) ∧
  (∀ (s : State) (serial address : Nat), (serial = Config.serial.toNat ∧ s.node.runs Isl.line) → (address = 0xFFFF) → Done (.addrAssign serial address) s (
      let n : Node := s.node
      let n := n.raise 2
      let own := n.line.cfg.address
      let other := (n.line.map.find? (fun (e : Nat × MapNode) => e.2.address == own && e.1 != serial)).map Prod.fst
      if n.addr = 0 then n
      else (n.updLine (fun l => { l with suspended := true })).log Ev.addrConflict own (other.getD 0) 0)) ∧
  (∀ (s : State) (src : Nat) (t : T64) (entries : List (List Nat)), ¬ (!s.node.runs Isl.line ∨ plantAddr src) → Done (.cyclic src t entries) s (
      let n : Node := s.node

      entries.foldl (fun n e =>
        let ks := (n.stalls.filter (fun x => x.2.kd == K.linepoint && x.2.active && x.2.pf 8 2 == src && x.2.pf 10 2 == e.getD 0 0)).map Prod.fst
        ks.foldl (fun n k =>
          if n.awake then n.putStall k ((n.stall k).takePoint (bit (e.getD 1 0) 0) (e.getD 2 0) (BitVec.ofNat 64 (e.getD 3 0)) t)
          else
            let new : W64 × Bool × Nat × T64 := (BitVec.ofNat 64 (e.getD 3 0), bit (e.getD 1 0) 0, e.getD 2 0, t)
            let moved := match n.line.kept.look k with
              | some o => o.1 != new.1 || o.2.1 != new.2.1
              | none => (n.stall k).value != new.1 || (n.stall k).valid == new.2.1
            let n := if n.glean.watch.contains k && moved then n.raise 3 else n
            n.updLine (fun l => { l with kept := l.kept.put k new })) n) n)) ∧
  (∀ (s : State) (src stall value : Nat) (t : T64), ¬ (!s.node.runs Isl.line ∨ src = 0 ∨ 0xFEFF < src) → (!s.node.awake) →
    Done (.nodeWrite src stall value t) s (                                                                              s.node.raise 2 )) ∧
  (∀ (s : State) (src stall value : Nat) (t : T64) (code u31 : Nat),
    ¬ (!s.node.runs Isl.line ∨ src = 0 ∨ 0xFEFF < src) →
    ¬ (!s.node.awake) →
    (
      let n : Node := s.node
      let st := n.stall stall
      let v := BitVec.ofNat 64 value
      firstBad [(decide (numStalls ≤ stall), Rs.paramRange, 0), (st.st == .fallow, Rs.chanFallow, 0),
              (st.st != .running && st.st != .hold, Rs.busy, 0), (st.readOnly, Rs.paramRange, 0), (!st.takesWrite v, Rs.paramRange, 0),
              (decide (n.now + sec 60 < t), Rs.paramRange, 0)]) = (some (code, u31)) →
    Done (.nodeWrite src stall value t) s (                        s.node.log Ev.remoteWriteRefused src stall code)) ∧
  (∀ (s : State) (src stall value : Nat) (t : T64),
    ¬ (!s.node.runs Isl.line ∨ src = 0 ∨ 0xFEFF < src) →
    ¬ (!s.node.awake) →
    (
      let n : Node := s.node
      let st := n.stall stall
      let v := BitVec.ofNat 64 value
      firstBad [(decide (numStalls ≤ stall), Rs.paramRange, 0), (st.st == .fallow, Rs.chanFallow, 0),
              (st.st != .running && st.st != .hold, Rs.busy, 0), (st.readOnly, Rs.paramRange, 0), (!st.takesWrite v, Rs.paramRange, 0),
              (decide (n.now + sec 60 < t), Rs.paramRange, 0)]) = none →
    (t = 0) →
    Done (.nodeWrite src stall value t) s (
      let n : Node := s.node
      let v := BitVec.ofNat 64 value
      (n.touch stall).engineWrite stall v n.now)) ∧
  (∀ (s : State) (src stall value : Nat) (t : T64),
    ¬ (!s.node.runs Isl.line ∨ src = 0 ∨ 0xFEFF < src) →
    ¬ (!s.node.awake) →
    (
      let n : Node := s.node
      let st := n.stall stall
      let v := BitVec.ofNat 64 value
      firstBad [(decide (numStalls ≤ stall), Rs.paramRange, 0), (st.st == .fallow, Rs.chanFallow, 0),
              (st.st != .running && st.st != .hold, Rs.busy, 0), (st.readOnly, Rs.paramRange, 0), (!st.takesWrite v, Rs.paramRange, 0),
              (decide (n.now + sec 60 < t), Rs.paramRange, 0)]) = none →
    ¬ (t = 0) →
    (t < s.node.now) →
    Done (.nodeWrite src stall value t) s (
      let n : Node := s.node
      let v := BitVec.ofNat 64 value
      (n.log Ev.timedWriteLate src stall (min (n.now - t) (2 ^ 32 - 1))).engineWrite stall v n.now)) ∧
  (∀ (s : State) (src stall value : Nat) (t : T64),
    ¬ (!s.node.runs Isl.line ∨ src = 0 ∨ 0xFEFF < src) →
    ¬ (!s.node.awake) →
    (
      let n : Node := s.node
      let st := n.stall stall
      let v := BitVec.ofNat 64 value
      firstBad [(decide (numStalls ≤ stall), Rs.paramRange, 0), (st.st == .fallow, Rs.chanFallow, 0),
              (st.st != .running && st.st != .hold, Rs.busy, 0), (st.readOnly, Rs.paramRange, 0), (!st.takesWrite v, Rs.paramRange, 0),
              (decide (n.now + sec 60 < t), Rs.paramRange, 0)]) = none →
    ¬ (t = 0) →
    ¬ (t < s.node.now) →
    Done (.nodeWrite src stall value t) s (
      let n : Node := s.node
      let st := n.stall stall
      let v := BitVec.ofNat 64 value
      n.setStall stall { st with timedWrite := some (v, t) })) ∧
  (∀ (s : State) (t : Nat),
    (
      let n : Node := s.node
      let at_ := (n.line.newCycle.map Prod.snd).toList ++ (List.range 3).filterMap (fun p => (n.port p).newGates.map Prod.snd)
      at_.min?) = (some t) →
    Done (.lineCycleApply) s (
      let n : Node := s.node
      let n := n.upTo t
      let n := match n.line.newCycle with
        | some (c, u) => if u ≤ n.now then n.updLine (fun l => { l with cycle := c, newCycle := none }) else n
        | none => n
      (List.range 3).foldl (fun n p => match (n.port p).newGates with
        | some (g, u) => if u ≤ n.now then (n.transmit p).updPort p (fun x => { x with gates := some g, newGates := none, entry := 0, entryAt := n.now }) else n
        | none => n) n))

/-- SYNC, FOLLOW_UP, SYNC_LOST, HOLDOVER_EXPIRED, SYNC_SEND, the PDELAY rows, ANNOUNCE and REFERENCE_MESSAGE_DUE complete; that what an event observes is an operand of its row is the model's choice, logs 5, 6 and 14. For each of these constructors of Instr exec answers a next state: sync, followUp, syncLost, holdoverExpired, syncSend, pdelayReqSend, pdelayReq, pdelayResp, announce, referenceMessageDue. (R293, R294, R296, R297, R298, R302, R303, R323) -/
def Obligations.TimeEventsComplete : Prop :=
  (∀ (s : State) (p raw : Nat), (s.node.capable p ∧ p = s.node.time.slave) → Done (.sync p raw) s (
      let n : Node := s.node
      let n := n.applyTimeCfg
      let stamp := ((raw : Int) - Config.ingressCorr p (n.port p).rate).toNat
      (n.updTime (fun t => { t with sync := some (stamp, p) })).relay Node.sendSync)) ∧
  (∀ (s : State) (p : Nat) (origin : Nat × Int) (rateOffset : Int) (raws : List Nat) (stamp q : Nat), (s.node.time.sync) = (some (stamp, q)) → (q = p ∧
    p = s.node.time.slave ∧ s.node.capable p) → Done (.followUp p origin rateOffset raws) s (
      let n : Node := s.node
      let x := n.port p
      let theta := (stamp : Int) - ((origin.1 : Int) + origin.2 + (x.linkDelay : Int))
      let rate := rateOf rateOffset * rateOf x.rateOffset
      let n := (n.updTime (fun t => { t with sync := none })).relay (fun n q =>
        let stay := (raws.getD q 0 : Int) + Config.egressCorr q (n.port q).rate - (stamp : Int)
        n.sendFollowUp q (origin.1 / 16) (origin.2 + (x.linkDelay : Int) + ratRound ((stay : ℚ) * rate) + (origin.1 % 16 : Nat)) (offsetOf rate))
      n.servoSync theta rate)) ∧
  (∀ (s : State),
    ¬ (s.node.isHead ∧ s.node.time.cfg.source ≠ 1) →
    (
      let n : Node := s.node
      let n := n.upTo (n.time.lastSync + ⌈3 * n.time.cfg.interval⌉.toNat)
      let n := if n.isHead then n.updTime (fun t => { t with sourceLost := true }) else n
      n.time.servo) = .locked →
    Done (.syncLost) s (
      let n : Node := s.node
      let n := n.upTo (n.time.lastSync + ⌈3 * n.time.cfg.interval⌉.toNat)
      let n := if n.isHead then n.updTime (fun t => { t with sourceLost := true }) else n
      n.enterHoldover)) ∧
  (∀ (s : State),
    ¬ (s.node.isHead ∧ s.node.time.cfg.source ≠ 1) →
    (
      let n : Node := s.node
      let n := n.upTo (n.time.lastSync + ⌈3 * n.time.cfg.interval⌉.toNat)
      let n := if n.isHead then n.updTime (fun t => { t with sourceLost := true }) else n
      n.time.servo) = .acquiring →
    Done (.syncLost) s (
      let n : Node := s.node
      let n := n.upTo (n.time.lastSync + ⌈3 * n.time.cfg.interval⌉.toNat)
      let n := if n.isHead then n.updTime (fun t => { t with sourceLost := true }) else n
      n.servoTo .free)) ∧
  (∀ (s : State), (s.node.time.servo = .holdover) →
    Done (.holdoverExpired) s (                                     (s.node.upTo (s.node.time.holdFrom + sec s.node.time.cfg.holdover)).servoTo .free )) ∧
  (∀ (s : State) (at_ : Nat × Nat),
    (
      let n : Node := s.node
      let n := (n.upTo ((n.port at_.1).syncAt + ratRound n.time.cfg.interval |>.toNat)).applyTimeCfg
      n.masterPort at_.1 ∧ n.capable at_.1) →
    (
      let n : Node := s.node
      let n := (n.upTo ((n.port at_.1).syncAt + ratRound n.time.cfg.interval |>.toNat)).applyTimeCfg
      let (gm, steps, utc) := n.announced
      let n := if (n.port at_.1).announceAt + sec 1 ≤ n.now then n.sendAnnounce at_.1 gm steps utc else n
      n.isHead) →
    Done (.syncSend at_) s (
      let n : Node := s.node
      let n := (n.upTo ((n.port at_.1).syncAt + ratRound n.time.cfg.interval |>.toNat)).applyTimeCfg
      let (gm, steps, utc) := n.announced
      let n := if (n.port at_.1).announceAt + sec 1 ≤ n.now then n.sendAnnounce at_.1 gm steps utc else n
      let out := ((at_.2 : Int) + Config.egressCorr at_.1 (n.port at_.1).rate).toNat
      (n.sendSync at_.1).sendFollowUp at_.1 (out / 16) (out % 16 : Nat) 0)) ∧
  (∀ (s : State) (p : Nat), (s.node.carriesTime p) → Done (.pdelayReqSend p) s (
      let n : Node := s.node
      let n := n.upTo ((n.port p).pdelayAt + sec 1)
      let q := ((n.port p).pdelaySeq + 1) % 65536
      (n.updPort p (fun x => { x with pdelayOut := true, asCapable := x.asCapable && !x.pdelayOut, pdelaySeq := q, pdelayAt := n.now })).sendPtp p
        Ptp.pdelayReq false 0 q 0 (beBytes 20 0))) ∧
  (∀ (s : State) (p : Nat) (req raw : Nat × Nat), Done (.pdelayReq p req raw) s (
      let n : Node := s.node
      let r := (n.port p).rate
      let t2 := ((raw.1 : Int) - Config.ingressCorr p r).toNat
      let t3 := ((raw.2 : Int) + Config.egressCorr p r).toNat
      (n.sendPtp p Ptp.pdelayResp true (-((t2 % 16 : Nat) : Int)) req.1 0 (ptpStamp (t2 / 16) ++ beBytes 10 req.2)).sendPtp p
        Ptp.pdelayRespFollowUp false (t3 % 16 : Nat) req.1 0 (ptpStamp (t3 / 16) ++ beBytes 10 req.2))) ∧
  (∀ (s : State) (p raw1 t2 t3 raw4 : Nat),
    (
      let n : Node := s.node
      let x := n.port p
      x.pdelayOut ∧ n.carriesTime p) →
    Done (.pdelayResp p raw1 t2 t3 raw4) s (
      let n : Node := s.node
      let x := n.port p
      let t1 := (raw1 : Int) + Config.egressCorr p x.rate
      let t4 := (raw4 : Int) - Config.ingressCorr p x.rate
      let ro := x.neighborRate t3 t4
      let d := (ratRound ((rateOf ro * ((t4 - t1 : Int) : ℚ) - (((t3 : Int) - (t2 : Int) : Int) : ℚ)) / 2)).toNat
      n.setPort p { x with pdelayOut := false, linkDelay := min d (2 ^ 32 - 1), asCapable := decide (d < 12800), rateOffset := ro,
                           lastPdelay := some (t3, t4.toNat) })) ∧
  (∀ (s : State) (p gm steps : Nat) (utc : Int), (s.node.capable p ∧ p = s.node.time.slave) → Done (.announce p gm steps utc) s (
      let n : Node := s.node
      let n := n.updTime (fun t => { t with gm := gm, steps := steps + 1, utc := utc })
      let (gm, steps, utc) := n.announced
      n.relay (fun n q => n.sendAnnounce q gm steps utc))) ∧
  (∀ (s : State) (started : Bool), s.node.time.cfg.refPeriod ≠ 0 → s.node.runs Isl.zb = true → Done (.referenceMessageDue started) s (
      let c := s.node.time.cfg
      let n : Node := s.node
      let t := nextGrid (max n.gridNow (n.zb.refAt + 1)) (ms c.refPeriod)
      let n := ((n.upTo t).zbSaw started).updZb (fun z => { z with refAt := t })
      let held := if n.zb.started then n.zb.fifo.take 1 else []
      let rest := if n.zb.started then n.zb.fifo.drop 1 else n.zb.fifo
      let old := rest.filter (fun x => x.src == .reference)
      let n := n.updZb (fun z => { z with fifo := held ++ rest.filter (fun x => x.src != .reference) })
      let n := old.foldl (fun n x => n.zbAbort x 3) n
      let prev := n.time.refPrev
      let count := n.time.refCount
      let locked := n.time.servo == .locked || n.time.servo == .holdover
      let n : Node := { n with time := { n.time with refPrev := none, refCount := (count + 1) % 64 } }
      let st := n.zb.st
      if (((st == .errorActive || st == .errorPassive) && n.zb.mode == 1) || st == .loopback) && decide (n.zb.fifo.length < 32) then
        n.zbPush { ident := c.refId, fd := false, brs := false, data := refData count prev locked, limit := 0, src := .reference,
                   express := n.zb.refExpress && !n.host.restarting, at_ := t }
      else n))

/-- Frames, errors, recovery and due times of the zone bus complete; that what an event observes is an operand of its row is the model's choice, logs 5, 6 and 14. For each of these constructors of Instr exec answers a next state: zbIntegrated, zbFrameReceived, zbFrameSent, zbTxError, zbRxError, zbArbLost, zbSuspendEnd, zbRecoveryDelay, zbRecovered, zbExpressReload, remoteTxPeriod, remoteRxTimeout. (R310, R311, R312, R316, R317, R318, R320, R321) -/
def Obligations.ZoneBusEventsComplete : Prop :=
  (∀ (s : State), s.node.zb.st = .integrating →
    Done (.zbIntegrated) s ((s.node.updZb (fun z => { z with newMode := none })).zbEnter (if s.node.zb.mode = 2 then .restricted else .errorActive))) ∧
  (∀ (s : State) (ident : Nat) (fd brs esi rtr : Bool) (data : List Nat) (sof : Nat),
    (s.node.zb.st) = .errorActive →
    ¬ (
      let n : Node := s.node
      let st := n.zb.st
      !zbLegal ident fd brs rtr data.length || (fd && !n.zb.fdOn && st != .restricted)) →
    Done (.zbFrameReceived ident fd brs esi rtr data sof) s (
      let n : Node := s.node
      let st := n.zb.st
      let n := (n.upTo sof).updZb (fun z => { z with suspend := false })
      let n := if st = .errorActive ∨ st = .errorPassive then
          let (v, n) := if 127 < n.zb.recCnt then n.free 14 else (0, n)
          let r := n.zb.recCnt
          (n.updZb (fun z => { z with recCnt := if 127 < r then 119 + v.toNat % 9 else r - 1 })).zbLevel
        else n
      let n := n.updZb (fun z => { z with rxOk := satInc 32 z.rxOk })
      let f : ZbFrame := { ident := ident, fd := fd, brs := brs, esi := esi, data := data.map (BitVec.ofNat 8), stamp := sof }
      (if rtr then n else n.zbReceive f).zbIdle)) ∧
  (∀ (s : State) (ident : Nat) (fd brs esi rtr : Bool) (data : List Nat) (sof : Nat),
    (s.node.zb.st) = .errorPassive →
    ¬ (
      let n : Node := s.node
      let st := n.zb.st
      !zbLegal ident fd brs rtr data.length || (fd && !n.zb.fdOn && st != .restricted)) →
    Done (.zbFrameReceived ident fd brs esi rtr data sof) s (
      let n : Node := s.node
      let st := n.zb.st
      let n := (n.upTo sof).updZb (fun z => { z with suspend := false })
      let n := if st = .errorActive ∨ st = .errorPassive then
          let (v, n) := if 127 < n.zb.recCnt then n.free 14 else (0, n)
          let r := n.zb.recCnt
          (n.updZb (fun z => { z with recCnt := if 127 < r then 119 + v.toNat % 9 else r - 1 })).zbLevel
        else n
      let n := n.updZb (fun z => { z with rxOk := satInc 32 z.rxOk })
      let f : ZbFrame := { ident := ident, fd := fd, brs := brs, esi := esi, data := data.map (BitVec.ofNat 8), stamp := sof }
      (if rtr then n else n.zbReceive f).zbIdle)) ∧
  (∀ (s : State) (ident : Nat) (fd brs esi rtr : Bool) (data : List Nat) (sof : Nat),
    (s.node.zb.st) = .restricted →
    ¬ (
      let n : Node := s.node
      let st := n.zb.st
      !zbLegal ident fd brs rtr data.length || (fd && !n.zb.fdOn && st != .restricted)) →
    Done (.zbFrameReceived ident fd brs esi rtr data sof) s (
      let n : Node := s.node
      let st := n.zb.st
      let n := (n.upTo sof).updZb (fun z => { z with suspend := false })
      let n := if st = .errorActive ∨ st = .errorPassive then
          let (v, n) := if 127 < n.zb.recCnt then n.free 14 else (0, n)
          let r := n.zb.recCnt
          (n.updZb (fun z => { z with recCnt := if 127 < r then 119 + v.toNat % 9 else r - 1 })).zbLevel
        else n
      let n := n.updZb (fun z => { z with rxOk := satInc 32 z.rxOk })
      let f : ZbFrame := { ident := ident, fd := fd, brs := brs, esi := esi, data := data.map (BitVec.ofNat 8), stamp := sof }
      (if rtr then n else n.zbReceive f).zbIdle)) ∧
  (∀ (s : State) (sof delay : Nat) (x : ZbMsg) (rest : List ZbMsg), (s.node.zb.fifo) = (x :: rest) → ¬ (!s.node.zbSends) → Done (.zbFrameSent sof delay) s (
      let n : Node := s.node
      let st := n.zb.st
      let n := n.upTo sof
      let n := n.updZb (fun z =>
        { z with fifo := rest, started := false, txOk := satInc 32 z.txOk, suspend := st == .errorPassive,
                 tec := if st = .loopback then z.tec else z.tec - 1,
                 tdc := if x.fd && z.flags.getLsbD 4 && st != .loopback then min delay 127 else z.tdc })
      let n := if x.src = .reference then { n with time := { n.time with refPrev := some sof } } else n
      let n := (n.zbLevel).zbOutcome x.src 0 sof
      let n := if st = .loopback then
          (n.updZb (fun z => { z with rxOk := satInc 32 z.rxOk })).zbReceive
            { ident := x.ident, fd := x.fd, brs := x.brs, esi := false, data := x.data, stamp := sof }
        else n
      n.zbIdle)) ∧
  (∀ (s : State) (kind : Nat) (clash : Bool) (add : Nat) (x : ZbMsg) (rest : List ZbMsg), (s.node.zb.fifo) = (x :: rest) →
    ¬ (!s.node.zbSends || s.node.zb.st == .loopback) → Done (.zbTxError kind clash add) s (
      let n : Node := s.node
      let st := n.zb.st
      let x := { x with attempts := x.attempts + 1, clashes := if clash then x.clashes + 1 else 0 }
      let n := n.updZb (fun z =>
        { z with fifo := x :: rest, started := false, suspend := st == .errorPassive, lastError := kind, errors := satInc 32 z.errors,
                 clashes := if clash then satInc 32 z.clashes else z.clashes, tec := z.tec + (if clash then 8 else add) })
      let n := if x.clashes = 3 && !x.clashLogged then
          (n.updZb (fun z => { z with fifo := { x with clashLogged := true } :: rest })).log Ev.idClash x.ident x.clashes n.zb.tec
        else n
      if n.zb.newMode = some 0 then ((n.updZb (fun z => { z with fifo := rest })).zbAbort x 1).zbIdle
      else if (st = .errorActive ∨ st = .errorPassive) ∧ 255 < n.zb.tec then
        let n := n.updZb (fun z => { z with fifo := z.fifo.take 1 |>.map (fun y => { y with attempts := 0 }) |> (· ++ z.fifo.drop 1),
                                            busOffs := satInc 32 z.busOffs, busOffAt := n.now, suspend := false })
        (n.zbEnter .busOff).zbHolds
      else
        let n := n.zbLevel
        let n := if x.limit ≠ 0xFF ∧ x.limit < x.attempts then (n.updZb (fun z => { z with fifo := rest })).zbAbort x 0 else n
        n.zbIdle)) ∧
  (∀ (s : State) (kind add : Nat) (res : Bool), s.node.zb.st ≠ .off → s.node.zb.st ≠ .integrating → s.node.zb.st ≠ .loopback → s.node.zb.st ≠ .offline →
    res = true → s.node.zb.flags.getLsbD 2 = true → Done (.zbRxError kind add res) s (s.node.updZb (fun z => { z with protException := true }))) ∧
  (∀ (s : State) (kind add : Nat) (res : Bool), s.node.zb.st = .errorActive ∨ s.node.zb.st = .errorPassive →
    res = false ∨ s.node.zb.flags.getLsbD 2 = false →
    Done (.zbRxError kind add res) s (((s.node.updZb (fun z => { z with lastError := if res = true then 2 else kind, errors := satInc 32 z.errors })).updZb (fun z => { z with recCnt := z.recCnt + add })).zbLevel).zbIdle) ∧
  (∀ (s : State) (kind add : Nat) (res : Bool), s.node.zb.st ≠ .off → s.node.zb.st ≠ .integrating → s.node.zb.st ≠ .loopback → s.node.zb.st ≠ .offline →
    s.node.zb.st ≠ .errorActive → s.node.zb.st ≠ .errorPassive → res = false ∨ s.node.zb.flags.getLsbD 2 = false →
    Done (.zbRxError kind add res) s (s.node.updZb (fun z => { z with lastError := if res = true then 2 else kind, errors := satInc 32 z.errors })).zbIdle) ∧
  (∀ (s : State) (x : ZbMsg) (rest : List ZbMsg), (s.node.zb.fifo) = (x :: rest) → ¬ (!s.node.zbSends) → Done (.zbArbLost) s (
      let n : Node := s.node
      let n := n.updZb (fun z => { z with fifo := { x with clashes := 0 } :: rest, started := false, arbLost := satInc 32 z.arbLost })
      (if n.zb.newMode = some 0 then (n.updZb (fun z => { z with fifo := rest })).zbAbort x 1 else n).zbIdle)) ∧
  (∀ (s : State), Done (.zbSuspendEnd) s (s.node.updZb (fun z => { z with suspend := false }))) ∧
  (∀ (s : State), s.node.zb.st = .busOff → s.node.zb.autoRecover = true →
    Done (.zbRecoveryDelay) s ((s.node.upTo (s.node.zb.busOffAt + ms s.node.zb.recoveryDelay)).zbSet .recovering)) ∧
  (∀ (s : State), s.node.zb.st = .recovering → Done (.zbRecovered) s (
      let n : Node := s.node
      let n := ((n.updZb (fun z => { z with tec := 0, recCnt := 0 })).zbEnter .errorActive).zbHolds
      let n := n.zb.objects.foldl (fun n e => match e.2 with
        | some f => (n.remoteRxStalls e.1).foldl (fun n k =>
            let out := (n.stall k).pf 16 2
            if out = 0 ∨ n.now < f.stamp + ms out then n.remoteTake k f else n) n
        | none => n) n
      n.zbIdle)) ∧
  (∀ (s : State), s.node.zb.expressDue = true → s.node.zb.started = false → s.node.host.restarting = false →
    Done (.zbExpressReload) s (s.node.updZb (fun z => { z with fifo := z.fifo.filter (·.express) ++ z.fifo.filter (fun x => !x.express), expressDue := false }))) ∧
  (∀ (s : State) (ident : Nat) (started : Bool) (x : Stall), (s.node.remoteTx ident).head? = some x → x.pf 18 2 ≠ 0 → s.node.runs Isl.zb = true →
    let t := nextGrid (max s.node.gridNow (s.node.zb.txAt.getD ident 0 + 1)) (ms (x.pf 18 2)); Done (.remoteTxPeriod ident started) s ((((s.node.upTo t).zbSaw started).updZb (fun z => { z with txAt := z.txAt.put ident t })).zbPlace ident)) ∧
  (∀ (s : State) (k : Nat), (s.node.stall k).kd = K.remote → (s.node.stall k).st = .running → (s.node.stall k).pf 12 1 = 0 →
    (s.node.stall k).pf 16 2 ≠ 0 →
    Done (.remoteRxTimeout k) s ((s.node.upTo ((s.node.stall k).lastUsable + ms ((s.node.stall k).pf 16 2))).transientFault k 5))

/-- Evaluation, eyes, scans and creation of parcel records complete; that what an event observes is an operand of its row is the model's choice, logs 5, 6 and 14. For each of these constructors of Instr exec answers a next state: custodyEval, custodyEyeRise, custodyEyeFall, custodyTravelLimit, custodyCreate, custodyScan, custodyRepeat, handoffTimeout, commitWaitTimeout, checkpointPeriod, checkpointDurable, custodyRecoveryStart, recoveryMerge, energyInterval. (R335, R336, R337, R338, R339, R343, R344, R345, R349, R350, R460) -/
def Obligations.CustodyEventsComplete : Prop :=
  (∀ (s : State), s.node.cust.configured = true → s.node.coresRun = true → Done (.custodyEval) s (
      let n : Node := s.node
      let t := nextGrid (max n.gridNow (n.cust.evalAt + 1)) (us 100)
      let last := n.cust.evalAt
      let n := (n.upTo t).custHolders
      let n := if n.beltValid then n else n.cust.own.foldl (fun n e =>
        if e.2.st == .held && !e.2.has Cf.posLost then n.recChange e.1 (e.2.setCf Cf.posLost true) else n) n
      let before := n.cust.own
      let n := (n.decide_ t).updCust (fun c => { c with evalAt := t })
      n.cust.exits.foldl (fun n e =>
        let k := e.1
        let x := e.2
        if x.kind = 0 ∨ 64 ≤ x.flag then n
        else
          let reached := n.cust.own.any (fun o =>
            o.2.tracked && o.2.exit == k && decide (x.decision ≤ n.cust.posAt o.2 t) &&
              ((before.getD o.1 {}).exit == 0xFF || decide (n.cust.posAt o.2 last < x.decision)))
          if reached then n.setFlag x.flag true else if n.cust.between k t then n else n.setFlag x.flag false) n)) ∧
  (∀ (s : State) (k t e : Nat) (es : List Nat), s.node.coresRun = true → s.node.cust.configured = true → (s.node.cust.exit k).kind ≠ 0 →
    s.node.cust.lastEdge.getD k 0 < t → ((s.node.upTo t).updCust (fun c => { c with lastEdge := c.lastEdge.put k t })).cust.matches k t = e :: es →
    Done (.custodyEyeRise k t) s ((e :: es).foldl (fun n slot => n.recMatch k slot t) ((s.node.upTo t).updCust (fun c => { c with lastEdge := c.lastEdge.put k t })))) ∧
  (∀ (s : State) (k t slot : Nat), s.node.coresRun = true → s.node.cust.configured = true → (s.node.cust.exit k).kind ≠ 0 →
    s.node.cust.lastEdge.getD k 0 < t → ((s.node.upTo t).updCust (fun c => { c with lastEdge := c.lastEdge.put k t })).cust.matches k t = [] →
    (((s.node.upTo t).updCust (fun c => { c with lastEdge := c.lastEdge.put k t })).recCreate t 0 0 k true).1 = some slot →
    let m := (((s.node.upTo t).updCust (fun c => { c with lastEdge := c.lastEdge.put k t })).recCreate t 0 0 k true).2; let p := (m.cust.own.getD slot {}).parcel; Done (.custodyEyeRise k t) s ((m.log Ev.custodyUnmatched (p % 2 ^ 32) (p / 2 ^ 32) k).recMatch k slot t)) ∧
  (∀ (s : State) (k t : Nat), Done (.custodyEyeFall k t) s (                                                                                                    s.node.eyeFall k t)) ∧
  (∀ (s : State) (k p : Nat) (ps : List Nat) (t : T64) (slot : Nat) (r : CRec), s.node.cust.leaving.look k = some (p :: ps, t) →
    s.node.parcel p = some (slot, r) →
    (if s.node.cust.stallSource then s.node else s.node.upTo (t + ((((r.length + 500) * 10 : Nat) : Int).toNat * 100000 + s.node.cust.speed - 1) / max 1 s.node.cust.speed)).coresRun = true →
    ((if s.node.cust.stallSource then s.node else s.node.upTo (t + ((((r.length + 500) * 10 : Nat) : Int).toNat * 100000 + s.node.cust.speed - 1) / max 1 s.node.cust.speed)).cust.exit k).kind = 2 →
    (((r.length + 500) * 10 : Nat) : Int) ≤ (if s.node.cust.stallSource then s.node else s.node.upTo (t + ((((r.length + 500) * 10 : Nat) : Int).toNat * 100000 + s.node.cust.speed - 1) / max 1 s.node.cust.speed)).cust.posAt r (if s.node.cust.stallSource then s.node else s.node.upTo (t + ((((r.length + 500) * 10 : Nat) : Int).toNat * 100000 + s.node.cust.speed - 1) / max 1 s.node.cust.speed)).now - (if s.node.cust.stallSource then s.node else s.node.upTo (t + ((((r.length + 500) * 10 : Nat) : Int).toNat * 100000 + s.node.cust.speed - 1) / max 1 s.node.cust.speed)).cust.posAt r t →
    Done (.custodyTravelLimit k) s (((if s.node.cust.stallSource then s.node else s.node.upTo (t + ((((r.length + 500) * 10 : Nat) : Int).toNat * 100000 + s.node.cust.speed - 1) / max 1 s.node.cust.speed)).updCust (fun c => { c with leaving := if ps = [] then c.leaving.del k else c.leaving.put k (ps, t) })).recExit k p 1)) ∧
  (∀ (s : State) (slot : Nat) (t : ThTask) (core : Nat), s.node.rcp.tasks.look slot = some t → t.st = .inService core → t.handler = 0x0701 →
    t.ran = false →
    let r := s.node.custodyCreate t.arg t.release; Done (.custodyCreate slot) s { r.2 with rcp := { r.2.rcp with tasks := r.2.rcp.tasks.put slot { t with result := r.1, ran := true } } }) ∧
  (∀ (s : State) (f : ZbFrame) (rest : List ZbFrame) (slot : Nat) (r : CRec), s.node.zb.lane = f :: rest → s.node.coresRun = true →
    s.node.cust.scanner ≠ 0xFFFFFFFF → f.ident = s.node.cust.scanner →
    (((s.node.updZb (fun z => { z with lane := rest })).cust.own.filter (fun e => e.2.tracked && decide ((fun r : CRec => ((s.node.updZb (fun z => { z with lane := rest })).cust.posAt r f.stamp - (s.node.updZb (fun z => { z with lane := rest })).cust.scanPos).natAbs) e.2 ≤ (s.node.updZb (fun z => { z with lane := rest })).cust.window))).foldl (fun (b : Option (Nat × CRec)) e => match b with | none => some e | some x => if (fun r : CRec => ((s.node.updZb (fun z => { z with lane := rest })).cust.posAt r f.stamp - (s.node.updZb (fun z => { z with lane := rest })).cust.scanPos).natAbs) e.2 < (fun r : CRec => ((s.node.updZb (fun z => { z with lane := rest })).cust.posAt r f.stamp - (s.node.updZb (fun z => { z with lane := rest })).cust.scanPos).natAbs) x.2 then some e else b) none) = some (slot, r) →
    Done (.custodyScan) s ((s.node.updZb (fun z => { z with lane := rest })).recChange slot ({ r with tag := f.data.take 24 }.setCf Cf.idRead true))) ∧
  (∀ (s : State) (f : ZbFrame) (rest : List ZbFrame), s.node.zb.lane = f :: rest → s.node.coresRun = true → s.node.cust.scanner ≠ 0xFFFFFFFF →
    f.ident = s.node.cust.scanner →
    (((s.node.updZb (fun z => { z with lane := rest })).cust.own.filter (fun e => e.2.tracked && decide ((fun r : CRec => ((s.node.updZb (fun z => { z with lane := rest })).cust.posAt r f.stamp - (s.node.updZb (fun z => { z with lane := rest })).cust.scanPos).natAbs) e.2 ≤ (s.node.updZb (fun z => { z with lane := rest })).cust.window))).foldl (fun (b : Option (Nat × CRec)) e => match b with | none => some e | some x => if (fun r : CRec => ((s.node.updZb (fun z => { z with lane := rest })).cust.posAt r f.stamp - (s.node.updZb (fun z => { z with lane := rest })).cust.scanPos).natAbs) e.2 < (fun r : CRec => ((s.node.updZb (fun z => { z with lane := rest })).cust.posAt r f.stamp - (s.node.updZb (fun z => { z with lane := rest })).cust.scanPos).natAbs) x.2 then some e else b) none) = none →
    Done (.custodyScan) s ((s.node.updZb (fun z => { z with lane := rest })).log Ev.custodyScanOrphan (f.stamp % 2 ^ 32) (leNat (f.data.take 4)) 0)) ∧
  (∀ (s : State) (f : ZbFrame) (rest : List ZbFrame), s.node.zb.lane = f :: rest → s.node.coresRun = true →
    s.node.cust.scanner = 0xFFFFFFFF ∨ f.ident ≠ s.node.cust.scanner → Done (.custodyScan) s (s.node.updZb (fun z => { z with lane := rest }))) ∧
  (∀ (s : State), (s.node.coresRun) → Done (.custodyRepeat) s (
      let n : Node := s.node
      let t := nextGrid (max n.gridNow (n.cust.repeatAt + 1)) (us n.line.cycle)
      (((n.upTo t).updCust (fun c => { c with repeatAt := t })).custRepeat).offerAgain)) ∧
  (∀ (s : State) (parcel slot : Nat) (r : CRec), s.node.parcel parcel = some (slot, r) → s.node.coresRun = true → r.st = .outbound →
    let m := s.node.upTo (r.since + us (8 * s.node.line.cycle)); Done (.handoffTimeout parcel) s ((m.setOwn slot { r with since := m.now }).handoffFail r 0 0)) ∧
  (∀ (s : State) (parcel u11 : Nat) (r : CRec), (s.node.parcel parcel) = (some (u11, r)) → (s.node.coresRun ∧ r.st = .inbound) → Done (.commitWaitTimeout parcel) s (
      let n : Node := s.node
      let p := r.holder.getD 3
      ((n.upTo (r.since + us (4 * n.line.cycle))).custNote p 0x06 0 parcel r.version).await ⟨0x06, p, parcel, r.version⟩)) ∧
  (∀ (s : State), (s.node.cust.configured ∧ s.node.coresRun) → Done (.checkpointPeriod) s (
      let n : Node := s.node
      let n := n.upTo (n.cust.periodAt + ms n.cust.period)
      (n.updCust (fun c => { c with periodAt := n.now })).startCheckpoint)) ∧
  (∀ (s : State) (run : CkptRun), (s.node.cust.writing) = (some run) → Done (.checkpointDurable) s (
      let n : Node := s.node
      let inRun (r : CRec) : Bool := run.recs.any (fun b => u64 b 0 == r.parcel && u32 b 12 == r.version)
      let ports := (n.cust.own.filterMap (fun e => e.2.holder)).eraseDups
      let n := n.updCust (fun c => { c.keepRun run with writing := none, durable := run.seq,
                                                        own := c.own.filter (fun e => !(e.2.st == .released && inRun e.2)) })
      (ports.foldl (fun n p => n.custSend p 0x13 0 0 []) n).mirrorAgain)) ∧
  (∀ (s : State), (s.node.coresRun ∧ s.node.power.stage = .t6 ∧ s.node.portsTrained) → Done (.custodyRecoveryStart) s (
      let n : Node := s.node
      let n := n.reachT7
      let x := n.cust.load.getD ⟨0, n.cust.durable, [], n.cust.counter⟩
      let own := x.recs.foldl (fun (t : Tbl CRec) r => t.put t.length ((r.setCf Cf.recovered true).setCf Cf.posLost true)) []
      (n.updCust (fun c => { c with own := own, counter := x.counter, ckptSeq := x.seq, durable := x.seq, recovering := true })).askNeighbours)) ∧
  (∀ (s : State), s.node.coresRun = true → s.node.cust.recovering = true ∨ s.node.cust.rebuild ≠ [] →
    Done (.recoveryMerge) s (if s.node.cust.awaiting = [] then s.node else s.node.upTo (s.node.cust.recoverAt + us (10 * s.node.line.cycle))).mergeAll) ∧
  (∀ (s : State) (seen : Nat × List Nat), s.node.powered Isl.power = true →
    ((((s.node.upTo (nextGrid (max s.node.gridNow (s.node.glean.energyAt + 1)) (ms 10))).updPower (fun p => { p with tap := seen.1 })).updGlean (fun g => { g.advance seen.2 with energyAt := nextGrid (max s.node.gridNow (s.node.glean.energyAt + 1)) (ms 10) })).cust.own.filter (fun r => r.2.st == .held)).length = 0 →
    let t := nextGrid (max s.node.gridNow (s.node.glean.energyAt + 1)) (ms 10); let m := ((s.node.upTo t).updPower (fun p => { p with tap := seen.1 })).updGlean (fun g => { g.advance seen.2 with energyAt := t }); let e := seen.2.getD 12 0 + seen.2.getD 13 0; Done (.energyInterval seen) s m) ∧
  (∀ (s : State) (seen : Nat × List Nat) (k : Nat), s.node.powered Isl.power = true →
    ((((s.node.upTo (nextGrid (max s.node.gridNow (s.node.glean.energyAt + 1)) (ms 10))).updPower (fun p => { p with tap := seen.1 })).updGlean (fun g => { g.advance seen.2 with energyAt := nextGrid (max s.node.gridNow (s.node.glean.energyAt + 1)) (ms 10) })).cust.own.filter (fun r => r.2.st == .held)).length = k →
    k ≠ 0 →
    let t := nextGrid (max s.node.gridNow (s.node.glean.energyAt + 1)) (ms 10); let m := ((s.node.upTo t).updPower (fun p => { p with tap := seen.1 })).updGlean (fun g => { g.advance seen.2 with energyAt := t }); let e := seen.2.getD 12 0 + seen.2.getD 13 0; let gain := (e + m.cust.energyRem) / k; Done (.energyInterval seen) s { m with cust := { m.cust with energyRem := (e + m.cust.energyRem) % k, charged := (m.cust.charged + gain * k) % 2 ^ 64, own := m.cust.own.mapE (fun _ r => if r.st == .held then { r with acc := r.acc + gain } else r) } })

/-- The messages of custody neighbours complete; that what an event observes is an operand of its row is the model's choice, logs 5, 6 and 14. For each of these constructors of Instr exec answers a next state: handoffOffer, handoffAccept, handoffRefuse, handoffCommit, commitAck, handoffQuery, mirrorUpdate, mirrorFull, mirrorDrop, ckptNote, recoverReq, recoverData, recoverEnd. (R335, R340, R341, R342, R343, R349) -/
def Obligations.CustodyMessagesComplete : Prop :=
  (∀ (s : State) (p : Nat) (record : List Nat), s.node.neighbour p = true → s.node.coresRun = true →
    Done (.handoffOffer p record) s (                                     s.node.offered p (toBytes record))) ∧
  (∀ (s : State) (p parcel version slot : Nat) (r : CRec), s.node.neighbour p = true → s.node.coresRun = true →
    (s.node.parcel parcel) = (some (slot, r)) → (r.st = .outbound ∧ r.version = version ∧ (s.node.cust.exit r.exit).port = p) →
    Done (.handoffAccept p parcel version) s (                                                                                                       s.node.accepted p slot r )) ∧
  (∀ (s : State) (p parcel version status u21 : Nat) (r : CRec), s.node.neighbour p = true → s.node.coresRun = true →
    (s.node.parcel parcel) = (some (u21, r)) → (r.st = .outbound ∧ r.version = version) →
    Done (.handoffRefuse p parcel version status) s (                                                                    s.node.handoffFail r 1 status )) ∧
  (∀ (s : State) (p parcel version : Nat), s.node.neighbour p = true → s.node.coresRun = true →
    Done (.handoffCommit p parcel version) s (                                     s.node.committed p parcel version)) ∧
  (∀ (s : State) (p parcel version : Nat), s.node.neighbour p = true → s.node.coresRun = true →
    Done (.commitAck p parcel version) s (                                     s.node.updCust (fun c => { c with unanswered := c.unanswered.filter (· != ⟨0x04, p, parcel, version⟩) }))) ∧
  (∀ (s : State) (p parcel version slot : Nat) (r : CRec), s.node.neighbour p = true → s.node.coresRun = true →
    (s.node.parcel parcel) = (some (slot, r)) → Done (.handoffQuery p parcel version) s (      if r.st = .outbound ∧
    r.version = version then s.node.accepted p slot r else s.node.custNote p 0x04 0 parcel version)) ∧
  (∀ (s : State) (p parcel version : Nat), s.node.neighbour p = true → s.node.coresRun = true → (s.node.parcel parcel) = none →
    Done (.handoffQuery p parcel version) s (              s.node.custNote p 0x04 0 parcel version)) ∧
  (∀ (s : State) (p : Nat) (records : List (List Nat)), s.node.coresRun = true → s.node.neighbour p = true →
    Done (.mirrorUpdate p records) s (records.foldl (fun (n : Node) b => if crecOk (toBytes b) = true then (let r := CRec.ofBytes (toBytes b); let r := if n.line.level = 4 then r.setCf Cf.extAbsent true else r; match n.cust.placeCopy p r with | some c => { n with cust := c } | none => n.custNote p 0x11 0 r.parcel r.version) else n) s.node)) ∧
  (∀ (s : State) (p parcel version : Nat), s.node.neighbour p = true → s.node.coresRun = true → Done (.mirrorFull p parcel version) s (
      let n : Node := s.node
      let n := (n.mirrorFull p (n.cust.own.filter (fun e => e.2.holder == some p)).length).startCheckpoint
      match n.parcel parcel with
      | some (_, r) =>
        if r.version = version ∧ !n.partRo 6 then
          let n := n.updCust (fun c => { c with resend := c.resend.filter (· != (p, parcel)) ++ [(p, parcel)] })
          if n.cust.writing.isSome then n else n.mirrorAgain
        else n
      | none => n)) ∧
  (∀ (s : State) (p : Nat) (parcels : List Nat), s.node.neighbour p = true → s.node.coresRun = true →
    Done (.mirrorDrop p parcels) s (                                     s.node.updCust (fun c => c.dropCopies p parcels))) ∧
  (∀ (s : State) (p durable : Nat), s.node.neighbour p = true → s.node.coresRun = true → Done (.ckptNote p durable) s (
      let n : Node := s.node
      let n := n.updCust (fun c =>
        let m := (c.mirror p).mapE (fun _ x => if x.port = p ∧ x.body.ckpt ≤ durable then { x with clean := true } else x)
        c.setMirror p (m.filter (fun e => !(e.2.port == p && e.2.clean && e.2.body.st == .released))))
      n.retryCommits p)) ∧
  (∀ (s : State) (p serial lastDurable : Nat), s.node.neighbour p = true → s.node.coresRun = true → ¬ (serial ≠ (s.node.port p).pserial) →
    ¬ (s.node.cust.recovering) → Done (.recoverReq p serial lastDurable) s (
      let n : Node := s.node
      let n := n.updCust (fun c => c.setMirror p ((c.mirror p).mapE (fun _ x => if x.port = p ∧ x.body.ckpt ≤ lastDurable then { x with clean := true } else x)))
      let copies := ((n.cust.mirror p).filter (fun e => e.2.port == p)).map (fun e => e.2.body)
      let own := n.cust.own.map Prod.snd
      let held := own.filter (fun r => r.holder == some p)
      let both := own.filter (fun r => (r.st == .outbound && (n.cust.exit r.exit).port == p) || (r.st == .inbound && r.holder == some p))
      let n := ((n.custRecords p 0x21 0 copies).custRecords p 0x21 1 held).custRecords p 0x21 2 both
      n.custSend p 0x22 0 0 (leBytes 4 0 ++ leBytes 4 (copies.length + held.length + both.length)))) ∧
  (∀ (s : State) (p serial lastDurable : Nat), s.node.neighbour p = true → s.node.coresRun = true → ¬ (serial ≠ (s.node.port p).pserial) →
    (s.node.cust.recovering) →
    Done (.recoverReq p serial lastDurable) s (                                   s.node.custSend p 0x22 0 0 (leBytes 1 1 ++ leBytes 3 0 ++ leBytes 4 0))) ∧
  (∀ (s : State) (p status : Nat) (records : List (List Nat)), s.node.neighbour p = true → s.node.coresRun = true → (s.node.cust.awaiting.contains p) → Done (.recoverData p status records) s (
      let n : Node := s.node
      let rs := (records.map toBytes).filter crecOk
      n.updCust (fun c => { c with received := c.received ++ rs.map (fun b => (p, status, false, CRec.ofBytes b)) }))) ∧
  (∀ (s : State) (p : Nat) (recovering : Bool), s.node.neighbour p = true → s.node.coresRun = true → Done (.recoverEnd p recovering) s (
      let n : Node := s.node

      n.updCust (fun c => { c with awaiting := c.awaiting.filter (· != p), unanswered := c.unanswered.filter (fun m => !(m.msg == 0x20 && m.port == p)),
                                   neighRecovering := if recovering && c.awaiting.contains p then p :: c.neighRecovering else c.neighRecovering })))

/-- The events of lifts and gates complete; that what an event observes is an operand of its row is the model's choice, logs 5, 6 and 14. For each of these constructors of Instr exec answers a next state: liftPositionUpdate, levelFlagEdge, liftDriveAtTarget, liftArrivalSettled, liftArrivalTimeout, gateDwellExpired, liftParkDue, liftRefTravelExceeded, gateInputChange, gateTimeout, gateObstructionCheck, gateRetryDwell, liftInterlockChange. (R355, R356, R359, R361, R363, R364, R365, R366, R367, R369) -/
def Obligations.LiftAndGateEventsComplete : Prop :=
  (∀ (s : State) (l : Nat), s.node.liftRuns = true → (s.node.lift l).st ≠ .inactive → Done (.liftPositionUpdate l) s (
      let n : Node := s.node
      let t := nextGrid (max n.gridNow ((n.lift l).updAt + 1)) (ms 1)
      let n := (n.upTo t).sampleLift l
      let src := n.stall ((n.liftEntry l).pf 12 2)
      let p := (n.lift l).carPos
      let n := n.updLift l (fun x =>
        let near := decide ((x.posAt t - x.level x.target).natAbs ≤ x.stopTol)
        { x with updAt := t, carPos := x.posAt t, nearFrom := if x.st == .travelling && near then some (x.nearFrom.getD t) else none })
      let n := (n.showLift l src.stamp).checkFlags l p (n.lift l).carPos
      let n := ((n.retarget l).arriveNow l).dwellClose l
      let n := n.depart l
      let stands : Bool := match n.liftAxis l with | some a => (n.axis a).st == .standstill | none => true
      if (n.lift l).calls ≠ 0 ∧ stands then n.serveCalls l else n)) ∧
  (∀ (s : State) (l k t : Nat),
    ¬ (
      let n : Node := s.node
      let x := n.lift l
      !n.liftRuns ∨ x.dir = 0 ∨ n.levels l ≤ k ∨ x.outOfService.getLsbD k) →
    (
      let n : Node := s.node
      let x := n.lift l
      let n := ((n.upTo t).sampleLift l).updLift l (fun x => { x with flagSeen := x.flagSeen ||| (1#16 <<< k) })
      let x := n.lift l
      x.st = .referencing) →
    Done (.levelFlagEdge l k t) s (
      let n : Node := s.node
      let x := n.lift l
      let n := ((n.upTo t).sampleLift l).updLift l (fun x => { x with flagSeen := x.flagSeen ||| (1#16 <<< k) })
      let x := n.lift l
      let e : Int := if x.dir = 1 then x.level k - x.flagHalf else x.level k + x.flagHalf
      let d := x.posAt t - e
      (n.correct l k d).travelTo l x.target)) ∧
  (∀ (s : State) (l k t : Nat),
    ¬ (
      let n : Node := s.node
      let x := n.lift l
      !n.liftRuns ∨ x.dir = 0 ∨ n.levels l ≤ k ∨ x.outOfService.getLsbD k) →
    ¬ (
      let n : Node := s.node
      let x := n.lift l
      let n := ((n.upTo t).sampleLift l).updLift l (fun x => { x with flagSeen := x.flagSeen ||| (1#16 <<< k) })
      let x := n.lift l
      x.st = .referencing) →
    (
      let n : Node := s.node
      let x := n.lift l
      let n := ((n.upTo t).sampleLift l).updLift l (fun x => { x with flagSeen := x.flagSeen ||| (1#16 <<< k) })
      let x := n.lift l
      let e : Int := if x.dir = 1 then x.level k - x.flagHalf else x.level k + x.flagHalf
      let d := x.posAt t - e
      d.natAbs ≤ x.refTol) →
    Done (.levelFlagEdge l k t) s (
      let n : Node := s.node
      let x := n.lift l
      let n := ((n.upTo t).sampleLift l).updLift l (fun x => { x with flagSeen := x.flagSeen ||| (1#16 <<< k) })
      let x := n.lift l
      let e : Int := if x.dir = 1 then x.level k - x.flagHalf else x.level k + x.flagHalf
      let d := x.posAt t - e
      let n := n.correct l k d
      if x.st = .travelling then n.shiftDrive l d else n)) ∧
  (∀ (s : State) (l k t : Nat),
    ¬ (
      let n : Node := s.node
      let x := n.lift l
      !n.liftRuns ∨ x.dir = 0 ∨ n.levels l ≤ k ∨ x.outOfService.getLsbD k) →
    ¬ (
      let n : Node := s.node
      let x := n.lift l
      let n := ((n.upTo t).sampleLift l).updLift l (fun x => { x with flagSeen := x.flagSeen ||| (1#16 <<< k) })
      let x := n.lift l
      x.st = .referencing) →
    ¬ (
      let n : Node := s.node
      let x := n.lift l
      let n := ((n.upTo t).sampleLift l).updLift l (fun x => { x with flagSeen := x.flagSeen ||| (1#16 <<< k) })
      let x := n.lift l
      let e : Int := if x.dir = 1 then x.level k - x.flagHalf else x.level k + x.flagHalf
      let d := x.posAt t - e
      d.natAbs ≤ x.refTol) →
    (
      let n : Node := s.node
      let x := n.lift l
      let n := ((n.upTo t).sampleLift l).updLift l (fun x => { x with flagSeen := x.flagSeen ||| (1#16 <<< k) })
      let x := n.lift l
      x.st = .travelling ∨ x.st = .arriving) →
    Done (.levelFlagEdge l k t) s (
      let n : Node := s.node
      let x := n.lift l
      let n := ((n.upTo t).sampleLift l).updLift l (fun x => { x with flagSeen := x.flagSeen ||| (1#16 <<< k) })
      let x := n.lift l
      ((n.stopCar l).updLift l (fun x => { x with st := .unreferenced, referenced := false, dir := 0, target := 0xFF, idleFrom := n.now })).log
        Ev.liftPositionFault l 0 (par x.carPos))) ∧
  (∀ (s : State) (l a : Nat), s.node.liftAxis l = some a → s.node.liftRuns = true → (s.node.lift l).st = .travelling → (s.node.axis a).atTarget = true →
    Done (.liftDriveAtTarget l) s (s.node.arriving l)) ∧
  (∀ (s : State) (l t : Nat),
    (
      let n : Node := s.node
      let x := n.lift l
      x.nearFrom) = (some t) →
    (
      let n : Node := s.node
      let x := n.lift l
      n.liftRuns ∧ x.st = .travelling ∧ (n.liftAxis l).isNone) →
    Done (.liftArrivalSettled l) s (                                                                                (s.node.upTo (t + ms 100)).arriving l )) ∧
  (∀ (s : State) (l : Nat), s.node.liftRuns = true → (s.node.lift l).st = .arriving →
    (((s.node.upTo ((s.node.lift l).arriveAt + ms 2000)).arriveNow l).lift l).st ≠ .arriving →
    Done (.liftArrivalTimeout l) s ((s.node.upTo ((s.node.lift l).arriveAt + ms 2000)).arriveNow l)) ∧
  (∀ (s : State) (l : Nat), s.node.liftRuns = true → (s.node.lift l).st = .arriving →
    (((s.node.upTo ((s.node.lift l).arriveAt + ms 2000)).arriveNow l).lift l).st = .arriving →
    (((s.node.upTo ((s.node.lift l).arriveAt + ms 2000)).arriveNow l).lift l).arrivalTried = true →
    Done (.liftArrivalTimeout l) s (((s.node.upTo ((s.node.lift l).arriveAt + ms 2000)).arriveNow l).liftFault l 1)) ∧
  (∀ (s : State) (l : Nat), s.node.liftRuns = true → (s.node.lift l).st = .arriving →
    (((s.node.upTo ((s.node.lift l).arriveAt + ms 2000)).arriveNow l).lift l).st = .arriving →
    (((s.node.upTo ((s.node.lift l).arriveAt + ms 2000)).arriveNow l).lift l).arrivalTried = false →
    Done (.liftArrivalTimeout l) s (((((s.node.upTo ((s.node.lift l).arriveAt + ms 2000)).arriveNow l).updLift l (fun x => { x with arrivalTried := true, torqueOn := true })).sfRequest 1 (((s.node.upTo ((s.node.lift l).arriveAt + ms 2000)).arriveNow l).interlockInst l)).travelTo l (((s.node.upTo ((s.node.lift l).arriveAt + ms 2000)).arriveNow l).lift l).target)) ∧
  (∀ (s : State) (g : Nat), s.node.liftRuns = true → (s.node.gate g).st = .opened → (s.node.gate g).closeDue = false →
    Done (.gateDwellExpired g) s (((s.node.upTo ((s.node.gate g).stepAt + ms (s.node.lift (s.node.gateLift g)).dwell)).updGate g (fun y => { y with dwellDone := true })).dwellClose (s.node.gateLift g))) ∧
  (∀ (s : State) (l : Nat),
    (
      let n : Node := s.node
      let x := n.lift l
      n.liftRuns ∧ (x.st = .idle ∨ x.st = .unreferenced) ∧ x.calls = 0 ∧ x.idleTime ≠ 0 ∧ x.parkLevel < n.levels l) →
    ¬ (
      let n : Node := s.node
      let x := n.lift l
      let n := n.upTo (x.idleFrom + ms (1000 * x.idleTime))
      x.st = .idle ∧ n.atLevel l = some x.parkLevel) →
    Done (.liftParkDue l) s (
      let n : Node := s.node
      let x := n.lift l
      let n := n.upTo (x.idleFrom + ms (1000 * x.idleTime))
      n.departTo l x.parkLevel true)) ∧
  (∀ (s : State) (l : Nat),
    (
      let n : Node := s.node
      let n' := n.sampleLift l
      let x := n'.lift l
      n.liftRuns ∧ x.st = .referencing ∧ x.refTravel ≤ (x.posAt n.now - x.refStart).natAbs) →
    Done (.liftRefTravelExceeded l) s (
      let n : Node := s.node
      let n' := n.sampleLift l
      (n'.stopCar l).liftFault l 2 )) ∧
  (∀ (s : State) (g : Nat),
    ¬ (!s.node.liftRuns) →
    (
      let n : Node := s.node
      let n := n.reopenNow g
      let y := n.gate g
      y.st) = .unlocking →
    (
      let n : Node := s.node
      let n := n.reopenNow g
      let y := n.gate g
      n.gateFree g ∧ !y.held) →
    Done (.gateInputChange g) s (
      let n : Node := s.node
      let n := n.reopenNow g
      (n.gateEnter g .opening).driveGate g true )) ∧
  (∀ (s : State) (g : Nat),
    ¬ (!s.node.liftRuns) →
    (
      let n : Node := s.node
      let n := n.reopenNow g
      let y := n.gate g
      y.st) = .opening →
    (
      let n : Node := s.node
      let n := n.reopenNow g
      n.openReached g) →
    Done (.gateInputChange g) s (
      let n : Node := s.node
      let n := n.reopenNow g
      n.gateOpened g )) ∧
  (∀ (s : State) (g : Nat),
    ¬ (!s.node.liftRuns) →
    (
      let n : Node := s.node
      let n := n.reopenNow g
      let y := n.gate g
      y.st) = .locking →
    (
      let n : Node := s.node
      let n := n.reopenNow g
      n.gateLocked g) →
    Done (.gateInputChange g) s (
      let n : Node := s.node
      let n := n.reopenNow g
      n.gateShut g )) ∧
  (∀ (s : State) (g : Nat),
    ¬ (!s.node.liftRuns) →
    (
      let n : Node := s.node
      let n := n.reopenNow g
      let y := n.gate g
      y.st) = .closedLocked →
    (
      let n : Node := s.node
      let n := n.reopenNow g
      n.gateOff g || n.gateFree g) →
    Done (.gateInputChange g) s (
      let n : Node := s.node
      let n := n.reopenNow g
      n.gateFail g 3 )) ∧
  (∀ (s : State) (g : Nat),
    ¬ (!s.node.liftRuns) →
    (
      let n : Node := s.node
      let n := n.reopenNow g
      let y := n.gate g
      y.st) = .reopening →
    (
      let n : Node := s.node
      let n := n.reopenNow g
      n.openReached g) →
    (
      let n : Node := s.node
      let n := n.reopenNow g
      let y := n.gate g
      y.attempts < 3) →
    Done (.gateInputChange g) s (
      let n : Node := s.node
      let n := n.reopenNow g
      let y := n.gate g
      (n.updGate g (fun y => { y with closeDue := true, dwellDone := false })).gateEnter g .opened)) ∧
  (∀ (s : State) (g : Nat),
    ¬ (!s.node.liftRuns) →
    (
      let n : Node := s.node
      let n := n.reopenNow g
      let y := n.gate g
      y.st) = .reopening →
    (
      let n : Node := s.node
      let n := n.reopenNow g
      n.openReached g) →
    ¬ (
      let n : Node := s.node
      let n := n.reopenNow g
      let y := n.gate g
      y.attempts < 3) →
    Done (.gateInputChange g) s (
      let n : Node := s.node
      let n := n.reopenNow g
      let y := n.gate g
      (n.gateEnter g .obstructed).log Ev.gateObstructed g y.attempts y.cause)) ∧
  (∀ (s : State) (g : Nat),
    ¬ (!s.node.liftRuns) →
    (
      let n : Node := s.node
      let n := n.reopenNow g
      let y := n.gate g
      y.st) = .closing →
    Done (.gateInputChange g) s (
      let n : Node := s.node
      let n := n.reopenNow g
      let y := n.gate g
      let there := match n.gateAxis g with | some a => (n.axis a).atTarget && (n.axis a).pos == y.closedPos | none => true
      if n.gateClosed g && there && !y.held then (n.gateEnter g .locking).lockRequest g 4 else n)) ∧
  (∀ (s : State) (g : Nat), s.node.liftRuns = true → (s.node.gate g).st = .unlocking →
    Done (.gateTimeout g) s ((s.node.upTo ((s.node.gate g).stepAt + ms (s.node.gate g).tUnlock)).gateFail g 0)) ∧
  (∀ (s : State) (g : Nat), s.node.liftRuns = true → (s.node.gate g).st = .opening →
    Done (.gateTimeout g) s ((s.node.upTo ((s.node.gate g).stepAt + ms ((s.node.gate g).tOpen + 1000))).gateFail g 1)) ∧
  (∀ (s : State) (g : Nat), s.node.liftRuns = true → (s.node.gate g).st = .closing →
    Done (.gateTimeout g) s ((s.node.upTo ((s.node.gate g).stepAt + ms (s.node.gate g).tClose)).reverseGate g 3)) ∧
  (∀ (s : State) (g : Nat), s.node.liftRuns = true → (s.node.gate g).st = .locking →
    Done (.gateTimeout g) s ((s.node.upTo ((s.node.gate g).stepAt + ms (s.node.gate g).tLock)).gateFail g 2)) ∧
  (∀ (s : State) (g : Nat),
    ¬ (!s.node.liftRuns) →
    ¬ (
      let n : Node := s.node
      let n := n.reopenNow g
      (n.gate g).st ≠ .closing) →
    Done (.gateObstructionCheck g) s (
      let n : Node := s.node
      let n := n.reopenNow g
      let n := n.upTo (max (n.gate g).stepAt (n.gate g).checkAt + ms 1)
      let n := n.updGate g (fun y => { y with checkAt := n.now })
      let y := n.gate g
      let e := n.gateEntry g
      let far : Bool := match n.gateAxis g with
        | some a => (match n.ferr a with | some d => y.ferrObst != 0 && decide (y.ferrObst < d.natAbs) | none => false)
        | none => false
      let above : Bool := (n.stall (e.pf 10 2)).kd == K.prot && decide ((y.iObst : Int) < n.gateCurrent g)
      let n := n.updGate g (fun y => { y with ferrRun := if far then y.ferrRun + 1 else 0, currentRun := if above then y.currentRun + 1 else 0 })
      let cur := n.stall (e.pf 16 2)
      if 2 ≤ (n.gate g).ferrRun then n.reverseGate g 0
      else if 20 ≤ (n.gate g).currentRun then n.reverseGate g 1
      else if e.pf 16 2 ≠ 0xFFFF ∧ cur.valid ∧ cur.value.getLsbD 5 then n.reverseGate g 2
      else n)) ∧
  (∀ (s : State) (g : Nat),
    (
      let n : Node := s.node
      let y := n.gate g
      n.liftRuns ∧ y.st = .opened ∧ y.closeDue ∧ !y.heldOpen) →
    Done (.gateRetryDwell g) s (
      let n : Node := s.node
      let y := n.gate g
      (n.upTo (y.stepAt + ms y.retryDwell)).closeGate g )) ∧
  (∀ (s : State) (l : Nat), s.node.liftRuns = true →
    (if (s.node.stall ((s.node.liftEntry l).pf 18 2)).valid then bit (s.node.interlock l) 1 else (s.node.lift l).demand) = true →
    let d := if (s.node.stall ((s.node.liftEntry l).pf 18 2)).valid then bit (s.node.interlock l) 1 else (s.node.lift l).demand; let m := s.node.updLift l (fun x => { x with demand := d }); Done (.liftInterlockChange l) s (m.haltLift l 0)) ∧
  (∀ (s : State) (l : Nat), s.node.liftRuns = true →
    (if (s.node.stall ((s.node.liftEntry l).pf 18 2)).valid then bit (s.node.interlock l) 1 else (s.node.lift l).demand) = false →
    let d := if (s.node.stall ((s.node.liftEntry l).pf 18 2)).valid then bit (s.node.interlock l) 1 else (s.node.lift l).demand; let m := s.node.updLift l (fun x => { x with demand := d }); let m := ((m.unhaltLift l).depart l).arriveNow l; Done (.liftInterlockChange l) s ((m.gatesOf l).foldl (fun (n : Node) p => if (n.gate p.1).openDue = true then n.openGate p.1 else n) m))

/-- Samples, triggers, bus edges, reservations, records and storage blocks complete; that what an event observes is an operand of its row is the model's choice, logs 5, 6 and 14. For each of these constructors of Instr exec answers a next state: harvestSample, harvestFrameSend, harvestListApply, triggerHoldoffEnd, tbusEdge, cbusEdge, cbusPulse, tbusPulseEnd, harvestReserveRequest, harvestGrant, harvestRefuse, harvestRevoke, harvestReservationTimeout, harvestReservationRetry, storeRecordRequest, recordProgrammed, recordValidMarkDone, blockEraseDone, nvsRetry, nvsRewrite. (R377, R380, R381, R387, R391, R392, R394, R402, R403, R495) -/
def Obligations.HarvestAndRecorderEventsComplete : Prop :=
  (∀ (s : State) (full : Bool), Done (.harvestSample full) s (
      let n : Node := s.node
      let due (n : Node) : T64 := nextDue n.harv.entries (n.harv.nextIndex n.now) * n.harv.inForce.ns
      let n := match n.harv.newList with
        | some (_, _, t) => if n.harv.entries.isEmpty || n.harv.inForce.clock == 2 || decide (t ≤ due n) then (n.upTo t).applyList else n
        | none => n
      let h := n.harv
      if n.runs Isl.seq && n.awake && !h.entries.isEmpty && h.inForce.clock != 2 then
        let start := h.nextIndex n.now
        let i := nextDue h.entries start
        ((n.upTo (i * h.inForce.ns + us 2)).updHarv (fun h => h.resumeAt start)).takeSample i (i * h.inForce.ns) full
      else n)) ∧
  (∀ (s : State) (k : Nat), s.node.coresRun = true → k < 4 → Done (.harvestFrameSend k) s (s.node.encodeRaw.sendSlotFrame k)) ∧
  (∀ (s : State) (c : HvSet) (es : List HvEntry) (t : T64), s.node.harv.newList = some (c, es, t) →
    Done (.harvestListApply) s ((s.node.upTo t).applyList)) ∧
  (∀ (s : State) (k : Nat), (s.node.trig k).st = .holdoff →
    Done (.triggerHoldoffEnd k) s ((s.node.upTo ((s.node.trig k).last + us (s.node.trig k).holdoff)).setTrig k { s.node.trig k with st := .armed })) ∧
  (∀ (s : State) (stamp : Nat), s.node.harv.inForce.tbus = true → s.node.harv.tbusLow = false → s.node.awake = true →
    Done (.tbusEdge stamp) s ((List.range 32).foldl (fun (n : Node) k => if (n.trig k).st = .armed ∧
    (n.trig k).source = 2 then n.fireTrigger k (stamp - n.harv.inForce.comp) else n) (s.node.upTo stamp))) ∧
  (∀ (s : State) (stamp : Nat) (full : Bool),
    ¬ (
      let n : Node := s.node
      let n := n.upTo stamp
      !n.awake) →
    (
      let n : Node := s.node
      let n := n.upTo stamp
      let h := n.harv
      h.inForce.clock = 1) →
    ¬ (
      let n : Node := s.node
      let n := n.upTo stamp
      let h := n.harv
      h.cbusLow) →
    Done (.cbusEdge stamp full) s (
      let n : Node := s.node
      let n := n.upTo stamp
      let h := n.harv
      (n.updHarv (fun h => { h with inForce := { h.inForce with clock := 0 } })).log Ev.harvestCompat 0 stamp 0)) ∧
  (∀ (s : State) (stamp : Nat) (full : Bool),
    ¬ (
      let n : Node := s.node
      let n := n.upTo stamp
      !n.awake) →
    (
      let n : Node := s.node
      let n := n.upTo stamp
      let h := n.harv
      h.inForce.clock = 1) →
    (
      let n : Node := s.node
      let n := n.upTo stamp
      let h := n.harv
      h.cbusLow) →
    Done (.cbusEdge stamp full) s (
      let n : Node := s.node
      let n := n.upTo stamp
      n)) ∧
  (∀ (s : State) (stamp : Nat) (full : Bool),
    ¬ (
      let n : Node := s.node
      let n := n.upTo stamp
      !n.awake) →
    ¬ (
      let n : Node := s.node
      let n := n.upTo stamp
      let h := n.harv
      h.inForce.clock = 1) →
    (
      let n : Node := s.node
      let n := n.upTo stamp
      let h := n.harv
      h.inForce.clock = 2) →
    (
      let n : Node := s.node
      let n := n.upTo stamp
      let h := n.harv
      h.lastCbus ≠ 0 ∧ stamp < h.lastCbus + us 10) →
    Done (.cbusEdge stamp full) s (
      let n : Node := s.node
      let n := n.upTo stamp
      n.log Ev.harvestCompat 1 stamp 0)) ∧
  (∀ (s : State) (stamp : Nat) (full : Bool),
    ¬ (
      let n : Node := s.node
      let n := n.upTo stamp
      !n.awake) →
    ¬ (
      let n : Node := s.node
      let n := n.upTo stamp
      let h := n.harv
      h.inForce.clock = 1) →
    (
      let n : Node := s.node
      let n := n.upTo stamp
      let h := n.harv
      h.inForce.clock = 2) →
    ¬ (
      let n : Node := s.node
      let n := n.upTo stamp
      let h := n.harv
      h.lastCbus ≠ 0 ∧ stamp < h.lastCbus + us 10) →
    Done (.cbusEdge stamp full) s (
      let n : Node := s.node
      let n := n.upTo stamp
      let h := n.harv
      let t := stamp - h.inForce.comp
      let n := (n.updHarv (fun h => { h with lastCbus := stamp })).upTo (stamp + us 2)
      let n := match n.harv.newList with
        | some (c, _, t1) => if c.clock = 2 ∧ t1 ≤ t then n.applyList else n
        | none => n
      let i := n.harv.edgeIndex + 1
      if n.runs Isl.seq then
        (n.updHarv (fun h => { h.resumeAt i with edgeIndex := i })).takeSample i t full
      else n.updHarv (fun h => { h with edgeIndex := i }))) ∧
  (∀ (s : State) (low : Bool),
    (
      let n : Node := s.node
      let h := n.harv
      h.inForce.clock = 1 ∧ n.awake ∧ !h.entries.isEmpty) →
    (low) →
    Done (.cbusPulse low) s (
      let n : Node := s.node
      let h := n.harv
      let i := (n.gridNow + h.inForce.comp + h.inForce.ns - 1) / h.inForce.ns
      let t := i * h.inForce.ns - h.inForce.comp
      (n.upTo t).updHarv (fun h => { h with cbusLow := true, lastCbus := t }))) ∧
  (∀ (s : State) (low : Bool),
    (
      let n : Node := s.node
      let h := n.harv
      h.inForce.clock = 1 ∧ n.awake ∧ !h.entries.isEmpty) →
    ¬ (low) →
    (
      let n : Node := s.node
      let h := n.harv
      h.cbusLow) →
    Done (.cbusPulse low) s (
      let n : Node := s.node
      let h := n.harv
      (n.upTo (h.lastCbus + us 2)).updHarv (fun h => { h with cbusLow := false }))) ∧
  (∀ (s : State), (s.node.harv.tbusLow) →
    Done (.tbusPulseEnd) s (                                        (s.node.upTo (s.node.harv.tbusAt + us 10)).updHarv (fun h => { h with tbusLow := false }) )) ∧
  (∀ (s : State) (node slot collector share : Nat), s.node.isHead = true → s.node.coresRun = true →
    let r := s.node.hvDecide node slot collector share; Done (.harvestReserveRequest node slot collector share) s (r.2.send 0x40 0 node (harvestCtl (if r.1 then 2 else 3) slot r.2.harv.generation r.2.harv.inForce.period collector share))) ∧
  (∀ (s : State) (k share : Nat), (s.node.coresRun ∧ k < 4) →
    Done (.harvestGrant k share) s (                                            s.node.slotGranted k share )) ∧
  (∀ (s : State) (k : Nat), s.node.coresRun = true → k < 4 → (s.node.hslot k).st = .requested →
    Done (.harvestRefuse k) s (((s.node.setHslot k { s.node.hslot k with st := .refused, granted := 0, since := s.node.now }).reservationLog k 3).answerSlot k Rs.reservationRefused)) ∧
  (∀ (s : State) (k : Nat), s.node.coresRun = true → k < 4 → (s.node.hslot k).st = .granted →
    let x := s.node.hslot k; Done (.harvestRevoke k) s ((s.node.setHslot k { x with st := .revoked, since := s.node.now, gapDue := some (x.gapDue.map Prod.fst |>.getD (s.node.harv.lastIndex + 1), 0, 6) }).reservationLog k 4)) ∧
  (∀ (s : State) (k : Nat), (s.node.hslot k).st = .requested → s.node.coresRun = true →
    Done (.harvestReservationTimeout k) s ((s.node.upTo ((s.node.hslot k).since + sec 2)).slotRefused k Rs.nodeUnreachable)) ∧
  (∀ (s : State) (k : Nat), (s.node.hslot k).st = .refused ∨ (s.node.hslot k).st = .revoked → s.node.coresRun = true →
    Done (.harvestReservationRetry k) s ((s.node.upTo ((s.node.hslot k).since + sec 60)).requestSlot k)) ∧
  (∀ (s : State), (s.node.storeWorks && s.node.rcd.program.isNone && !s.node.rcd.eraseFirst) →
    Done (.storeRecordRequest) s (                                                                                   s.node.takeRecord )) ∧
  (∀ (s : State) (e : EvRec) (g : Bool), s.node.rcd.program = some (e, false, g) →
    Done (.recordProgrammed) s (s.node.updRcd (fun r => { r with program := some (e, true, g) }))) ∧
  (∀ (s : State) (e : EvRec) (g : Bool), s.node.rcd.program = some (e, true, g) → Done (.recordValidMarkDone) s (s.node.recordDurable e g)) ∧
  (∀ (s : State) (b : Nat), s.node.rcd.erasing.contains b = true → Done (.blockEraseDone b) s (s.node.eraseDone b)) ∧
  (∀ (s : State) (p idx t : Nat) (ok : Bool), (ok) → Done (.nvsRetry p idx t ok) s (
      let n : Node := s.node
      let n := n.upTo t
      let key := blockKey p idx
      n.updHlth (fun h => { h with failing := h.failing.del key }))) ∧
  (∀ (s : State) (p idx t : Nat) (ok : Bool),
    ¬ (ok) →
    ¬ (
      let n : Node := s.node
      let n := n.upTo t
      let key := blockKey p idx
      let old := (n.hlth.failing.look key).filter (fun e => decide (n.now ≤ e.2 + ms 100))
      let k := (old.map Prod.fst).getD 0 + 1
      3 ≤ k) →
    Done (.nvsRetry p idx t ok) s (
      let n : Node := s.node
      let n := n.upTo t
      let key := blockKey p idx
      let old := (n.hlth.failing.look key).filter (fun e => decide (n.now ≤ e.2 + ms 100))
      let k := (old.map Prod.fst).getD 0 + 1
      n.updHlth (fun h => { h with failing := h.failing.put key (k, (old.map Prod.snd).getD n.now) }))) ∧
  (∀ (s : State) (p idx t : Nat) (ok : Bool),
    ¬ (ok) →
    (
      let n : Node := s.node
      let n := n.upTo t
      let key := blockKey p idx
      let old := (n.hlth.failing.look key).filter (fun e => decide (n.now ≤ e.2 + ms 100))
      let k := (old.map Prod.fst).getD 0 + 1
      3 ≤ k) →
    Done (.nvsRetry p idx t ok) s (
      let n : Node := s.node
      let n := n.upTo t
      n.retireBlock p idx)) ∧
  (∀ (s : State) (p idx u : Nat) (ok : Bool), (ok) → Done (.nvsRewrite p idx u ok) s (
      let n : Node := s.node
      let key := blockKey p idx
      n.updHlth (fun h => { h with rewrite := h.rewrite.del key, erases := h.erases.put key (h.erases.getD key 0 + 1) }))) ∧
  (∀ (s : State) (p idx u : Nat) (ok : Bool), ¬ (ok) → Done (.nvsRewrite p idx u ok) s (         (s.node.loseUnit p idx u).retireBlock p idx))

/-- The events of the safety zone and its channels complete; that what an event observes is an operand of its row is the model's choice, logs 5, 6 and 14. For each of these constructors of Instr exec answers a next state: safetyCycle, safetyInboundRead, crossRecord, partnerLost, safetySelfTest, followerTimeout, fallbackExpired, safetyDiscrepancy, lockMonitorTimeout, unlockRequestTimeout, degradedTimeout, safeFrameGather, safetyFrame, safeStallUpdate, torqueOn, torqueOff, unlock, lock, restart, stopZone, restartNotice, switchChargeDriveLapse, safetyStartTestsDone. (R411, R413, R414, R415, R416, R417, R419, R422, R424, R428, R432, R435) -/
def Obligations.SafetyEventsComplete : Prop :=
  (∀ (s : State) (c : Nat),
    (s.node.chanAlive c) →
    (
      let n : Node := s.node
      let t := nextGrid (max n.gridNow ((n.chan c).cycleAt + 1)) (us n.sfCfg.cycle)
      let n := n.upTo t
      let n := if (n.chan (1 - c)).cycleAt < t then n.updSafe (fun f => { f with cycles := (f.cycles + 1) % 2 ^ 32 }) else n
      let n := n.updChan c (fun x => { x with cycleAt := t, silent := x.silent + 1 })
      (n.chan c).st) = .run →
    Done (.safetyCycle c) s (
      let n : Node := s.node
      let t := nextGrid (max n.gridNow ((n.chan c).cycleAt + 1)) (us n.sfCfg.cycle)
      let n := n.upTo t
      let n := if (n.chan (1 - c)).cycleAt < t then n.updSafe (fun f => { f with cycles := (f.cycles + 1) % 2 ^ 32 }) else n
      let n := n.updChan c (fun x => { x with cycleAt := t, silent := x.silent + 1 })
      (n.sfCycle c t).autoTests c)) ∧
  (∀ (s : State) (c : Nat),
    (s.node.chanAlive c) →
    (
      let n : Node := s.node
      let t := nextGrid (max n.gridNow ((n.chan c).cycleAt + 1)) (us n.sfCfg.cycle)
      let n := n.upTo t
      let n := if (n.chan (1 - c)).cycleAt < t then n.updSafe (fun f => { f with cycles := (f.cycles + 1) % 2 ^ 32 }) else n
      let n := n.updChan c (fun x => { x with cycleAt := t, silent := x.silent + 1 })
      (n.chan c).st) = .testing →
    Done (.safetyCycle c) s (
      let n : Node := s.node
      let t := nextGrid (max n.gridNow ((n.chan c).cycleAt + 1)) (us n.sfCfg.cycle)
      let n := n.upTo t
      let n := if (n.chan (1 - c)).cycleAt < t then n.updSafe (fun f => { f with cycles := (f.cycles + 1) % 2 ^ 32 }) else n
      let n := n.updChan c (fun x => { x with cycleAt := t, silent := x.silent + 1 })
      (n.sfStandard c).sfServeAll c t)) ∧
  (∀ (s : State) (c : Nat),
    (s.node.chanAlive c) →
    (
      let n : Node := s.node
      let t := nextGrid (max n.gridNow ((n.chan c).cycleAt + 1)) (us n.sfCfg.cycle)
      let n := n.upTo t
      let n := if (n.chan (1 - c)).cycleAt < t then n.updSafe (fun f => { f with cycles := (f.cycles + 1) % 2 ^ 32 }) else n
      let n := n.updChan c (fun x => { x with cycleAt := t, silent := x.silent + 1 })
      (n.chan c).st) = .follower →
    Done (.safetyCycle c) s (
      let n : Node := s.node
      let t := nextGrid (max n.gridNow ((n.chan c).cycleAt + 1)) (us n.sfCfg.cycle)
      let n := n.upTo t
      let n := if (n.chan (1 - c)).cycleAt < t then n.updSafe (fun f => { f with cycles := (f.cycles + 1) % 2 ^ 32 }) else n
      let n := n.updChan c (fun x => { x with cycleAt := t, silent := x.silent + 1 })
      n)) ∧
  (∀ (s : State) (c above below : Nat), (s.node.chanAlive c ∧ (s.node.chan c).st ≠ .follower) → Done (.safetyInboundRead c above below) s (
      let n : Node := s.node
      let n := n.upTo (nextGrid n.gridNow (us 50))
      let n := n.updChan c (fun x =>
        ({ x with lands := (x.lands ||| BitVec.ofNat 22 above) &&& ~~~(BitVec.ofNat 22 below) }).filterAll n.sfCfg n.now)
      let copies := (n.chan c).inCopies
      let n := n.updChan c (fun x => { x with inCopies := [] })
      copies.foldl (fun n e =>
        let k := e.1 / 2
        let path2 := e.1 % 2 == 1
        let before := (n.chan c).conn k
        let n := n.acceptCopy c k path2 e.2
        let y := (n.chan c).conn k
        if y.discarded = before.discarded ∧ y.st ≠ .safe ∧ n.copyFresh (n.sfCfg.consumed.getD k {}) false [e.2] n.now then
          (n.updChan c (fun x => x.updConn k (fun y => { y with data := y.data &&& e.2.gives }))).openAtOnce c k
        else n) n)) ∧
  (∀ (s : State) (c : Nat),
    ((s.node.chanAlive c ∧ s.node.chanAlive (1 - c) ∧ ((s.node.chan (1 - c)).st = .run → (s.node.chan c).recAt < (s.node.chan (1 - c)).cycleAt))) →
    (
      let n : Node := s.node
      let n := n.updChan c (fun x => { x with silent := 0 })
      (n.chan c).st) = .follower →
    Done (.crossRecord c) s (
      let n : Node := s.node
      let n := n.updChan c (fun x => { x with silent := 0 })
      if (n.chan (1 - c)).st = .run then n.sfSwitch c (n.chan (1 - c)).switches else n)) ∧
  (∀ (s : State) (c : Nat),
    ((s.node.chanAlive c ∧ s.node.chanAlive (1 - c) ∧ ((s.node.chan (1 - c)).st = .run → (s.node.chan c).recAt < (s.node.chan (1 - c)).cycleAt))) →
    (
      let n : Node := s.node
      let n := n.updChan c (fun x => { x with silent := 0 })
      (n.chan c).st) = .run →
    Done (.crossRecord c) s (
      let n : Node := s.node
      let n := n.updChan c (fun x => { x with silent := 0 })
      if (n.chan (1 - c)).st = .run then n.compareRecords c else n)) ∧
  (∀ (s : State) (c : Nat), s.node.chanAlive c = true → (s.node.chan c).st = .run →
    (if s.node.safe.zone.isSingle then 2 else 3) ≤ (s.node.chan c).silent → (s.node.chan (1 - c)).st ≠ .testing →
    Done (.partnerLost c) s (s.node.chanGone (1 - c) false)) ∧
  (∀ (s : State) (c k : Nat) (ok : Bool) (detail : Nat), s.node.chanAlive c = true → (s.node.chan c).st = .run → ok = false →
    Done (.safetySelfTest c k ok detail) s (s.node.chanFault c k detail)) ∧
  (∀ (s : State) (c k : Nat) (ok : Bool) (detail : Nat), ok = true → Done (.safetySelfTest c k ok detail) s s.node) ∧
  (∀ (s : State) (c : Nat), c < 2 → (s.node.chan c).st = .follower → 2 ≤ (s.node.chan c).silent → Done (.followerTimeout c) s (s.node.sfOpen c)) ∧
  (∀ (s : State), s.node.safe.zone.isSingle = true → Done (.fallbackExpired) s ((s.node.upTo s.node.safe.fallbackEnd).zoneStop 4)) ∧
  (∀ (s : State) (c k t : Nat),
    (
      let n : Node := s.node
      let y := (n.chan c).sig k
      y.disFrom) = (some t) →
    (
      let n : Node := s.node
      let y := (n.chan c).sig k
      n.chanAlive c ∧ !y.fault) →
    Done (.safetyDiscrepancy c k) s (
      let n : Node := s.node
      let y := (n.chan c).sig k
      ((n.upTo (t + ms (n.sfCfg.signals.getD k {}).discrepancy)).updChan c (fun x => x.updSig k (fun y => { y with fault := true, value := false }))).sfLog c
        Ev.safetyDiscrepancy k c (b2n y.a + 2 * b2n y.b))) ∧
  (∀ (s : State) (i : Nat), Done (.lockMonitorTimeout i) s (
      let n : Node := s.node
      let f := n.sfCfg.func i
      let due (x : Channel) : T64 := (if (x.fn i).unlocked then (x.fn i).lockAt else max (x.fn i).lockAt (x.fn i).closedAt) + ms f.time0
      (List.range 2).foldl (fun n c =>
        let x := n.chan c
        let t := max n.now (due x)
        if n.chanAlive c ∧ x.st = .run ∧ n.safe.zone ≠ .stop ∧ x.lockWrong f i t ∧ !(x.fn i).fault then
          let n := (n.upTo t).updChan c (fun x => x.updFn i (fun y => { y with fault := true, demand := true, permit := false, wait := false }))
          let n := n.sfSwitch c ((n.chan c).switches &&& n.sfCommand c)
          if ((n.chan (1 - c)).fn i).fault ∧ (n.chan (1 - c)).st = .run then n else n.sfLog c Ev.safetyDemand i (n.fnValue c i n.now) 1
        else n) n)) ∧
  (∀ (s : State) (i : Nat), Done (.unlockRequestTimeout i) s ((List.range 2).foldl (fun (n : Node) c =>
      match ((n.chan c).fn i).unlockReq with
      | some (q, t) =>
        if n.chanAlive c then (n.upTo (t + ms 60000)).updChan c (fun x => (x.updFn i (fun y => { y with unlockReq := none })).respond q Rs.busy) else n
      | none => n) s.node)) ∧
  (∀ (s : State) (c k : Nat), s.node.chanAlive c = true → ((s.node.chan c).conn k).st = .degraded →
    let m := s.node.upTo (((s.node.chan c).conn k).degFrom + (ms (100 * s.node.sfCfg.degrade) - ((s.node.chan c).conn k).degraded)); Done (.degradedTimeout c k) s ((m.connSafe c k 1 m.now).openAtOnce c k)) ∧
  (∀ (s : State), s.node.coresRun = true → (let m := (s.node.upTo (nextGrid s.node.gridNow (us s.node.line.cycle))).gather; let put : Channel →
    Channel := fun x => { x with inCopies := m.safe.arrived.foldl (fun t e => t.put e.1 e.2) x.inCopies }; Done (.safeFrameGather) s (m.updSafe (fun f => { f with chA := put f.chA, chB := put f.chB, arrived := [] })))) ∧
  (∀ (s : State) (src : Nat) (path2 : Bool) (copies : List (List Nat)), Done (.safetyFrame src path2 copies) s (copies.foldl (fun (n : Node) b =>
      let f := SafeFrame.ofBytes (b.map (BitVec.ofNat 8))
      match n.sfCfg.consumed.find? (fun (e : Nat × SfConn) => e.2.used && e.2.connId == f.connId && e.2.peer == src) with
      | some e => n.updSafe (fun z => { z with arrived := z.arrived.put (2 * e.1 + b2n path2) f })
      | none => n) s.node)) ∧
  (∀ (s : State), s.node.coresRun = true → Done (.safeStallUpdate) s (
      let n : Node := s.node
      let x := n.chan n.safe.speaker
      let old := decide (x.cycleAt + 3 * us n.sfCfg.cycle < n.now)
      let n := if n.runs Isl.seq then
          n.stalls.foldl (fun n e =>
            let k := n.stall e.1
            if k.kd = K.safe ∧ k.st = .running then
              let i := k.pf 9 1
              let bad := (n.sfCfg.func i).code == 0 || old
              let v := BitVec.ofNat 64 (x.values.getD i 0).toNat
              n.putStall e.1 (if bad then k.setStatus St.invalid true else (k.take v n.now).setStatus St.invalid false)
            else n) n
        else n
      n.safe.waiters.foldl (fun n w =>
        match n.sfAnswer w.1 with
        | some st =>
          let n := n.updSafe (fun f => { f with waiters := f.waiters.filter (fun v => v != w) })
          n.answer w.2 st 0 []
        | none => n) n)) ∧
  (∀ (s : State) (i : Nat), s.node.coresRun = true → Done (.torqueOn i) s (s.node.sfRequest 1 i)) ∧
  (∀ (s : State) (i : Nat), s.node.coresRun = true → Done (.torqueOff i) s (s.node.sfRequest 2 i)) ∧
  (∀ (s : State) (i : Nat), s.node.coresRun = true → Done (.unlock i) s (s.node.sfRequest 3 i)) ∧
  (∀ (s : State) (i : Nat), s.node.coresRun = true → Done (.lock i) s (s.node.sfRequest 4 i)) ∧
  (∀ (s : State) (i : Nat), s.node.coresRun = true → Done (.restart i) s (s.node.sfRequest 5 i)) ∧
  (∀ (s : State), s.node.coresRun = true → Done (.stopZone) s (s.node.sfRequest 6 0)) ∧
  (∀ (s : State), s.node.coresRun = true → Done (.restartNotice) s (s.node.sfRequest 7 0)) ∧
  (∀ (s : State) (c : Nat), (c < 2) →
    Done (.switchChargeDriveLapse c) s (                                (if (s.node.chan c).st = .lost then s.node else s.node.chanGone c false).sfOpen c)) ∧
  (∀ (s : State) (c : Nat) (ok : Bool) (cause detail : Nat), c < 2 → s.node.runs (safeIsl c) = true → (s.node.chan c).st = .testing → ok = true →
    Done (.safetyStartTestsDone c ok cause detail) s (s.node.updChan c (fun x => { x with st := .run, tested := true, stuck := [], outFault := 0, silent := 0 }))) ∧
  (∀ (s : State) (c : Nat) (ok : Bool) (cause detail : Nat), c < 2 → s.node.runs (safeIsl c) = true → (s.node.chan c).st = .testing → ok = false →
    Done (.safetyStartTestsDone c ok cause detail) s ((s.node.updSafe (fun f => { f with restartReq := false })).chanFault c cause detail))

/-- Sleep, waking, Gleaner samples, bulk frames, level raising and the PHY reload complete; that what an event observes is an operand of its row is the model's choice, logs 5, 6 and 14. For each of these constructors of Instr exec answers a next state: sleepEntry, sleepContextSaved, sleepZbOffline, wakeTimer, wake, woke, gleanerSample, bulk, levelFrame, levelRaiseInstant, portPhyReloadDone. (R448, R449, R450, R451, R456, R471, R475, R479, R480) -/
def Obligations.GleanerAndLevelEventsComplete : Prop :=
  (∀ (s : State), (s.node.glean.st = .awake ∧ s.node.blockers = 0) → Done (.sleepEntry) s (
      let n : Node := s.node
      let n := n.log Ev.sleepEntered (n.nextWake.getD 0) n.glean.sleeps 0
      let n := n.updGlean (fun g => { g with st := .entering0, pend := 0 })
      let n := n.flushCache.holdInsts
      let n := n.updFio (fun x => x.suspend n.now)
      (List.range 16).foldl (fun n o => n.setOut o { n.outPin o with padLatch := n.outOn o && !(n.stall (n.outStall o)).pwm }) n)) ∧
  (∀ (s : State), (s.node.glean.st = .entering0) → ¬ (s.node.blockers ≠ 0 ∨ s.node.glean.pend ≠ 0) → Done (.sleepContextSaved) s (
      let n : Node := s.node
      let n := n.updGlean (fun g => { g with st := .entering1 })
      if n.zb.st = .off then n else n.updZb (fun z => { z with st := .offline }))) ∧
  (∀ (s : State), (s.node.glean.st = .entering0) → (s.node.blockers ≠ 0 ∨ s.node.glean.pend ≠ 0) →
    Done (.sleepContextSaved) s (                                                s.node.abortSleep s.node.glean.pend.toNat)) ∧
  (∀ (s : State), (s.node.glean.st = .entering1) → ¬ (s.node.blockers ≠ 0 ∨ s.node.glean.pend ≠ 0) →
    Done (.sleepZbOffline) s (        (s.node.updGlean (fun g => { g with st := .asleep, timer := s.node.nextWake, since := s.node.now, sleeps := satInc 32 g.sleeps, wakeRule := 0xFF })).gateAll)) ∧
  (∀ (s : State), (s.node.glean.st = .entering1) → (s.node.blockers ≠ 0 ∨ s.node.glean.pend ≠ 0) →
    Done (.sleepZbOffline) s (                                                s.node.abortSleep s.node.glean.pend.toNat)) ∧
  (∀ (s : State) (t : Nat), s.node.glean.timer = some t → s.node.glean.st = .asleep → Done (.wakeTimer) s ((s.node.upTo t).wakeBy 2 0xFF)) ∧
  (∀ (s : State) (lines : Nat), ¬ (s.node.glean.pend.toNat &&& lines = 0) →
    Done (.wake lines) s (                                                                 s.node.wakeBy 0 0xFF)) ∧
  (∀ (s : State) (edgesLost : Nat), s.node.glean.st = .waking → gatedIslands.any (fun i => !s.node.slept i && (s.node.island i).st != .run) = false → Done (.woke edgesLost) s (
      let g := s.node.glean
      let n : Node := s.node
        let n := gatedIslands.foldl (fun n i => n.updIsland i (fun x => { x with st := .run })) n
        let span := n.now - g.since
        let reasons := g.reasons ||| g.pend.setWidth 32
        let n := n.updGlean (fun g => { g with st := .awake, asleep := g.asleep + span, reasons := reasons, pend := 0 })
        let n := n.logWaiting.log Ev.woke reasons.toNat g.wakeRule (min (span / 1000000) (2 ^ 32 - 1))
        let n := n.driveAll.inputsAnew
        let n := n.updFio (fun x => if x.wdSt = .suspended then x.rearm n.now else x)
        let n := if n.zb.st = .offline then n.zbReturns true else n
        let n := [0, 1].foldl (fun n i =>
          if bit edgesLost i && (n.enc i).counting && (n.encSet i).pf 8 1 != 2 then n.positionLost i 3 else n) n
        ((((n.catchUpCompares.takeKept).takeFrames).resumeInsts).skipUpdates).freshFilters
      )) ∧
  (∀ (s : State) (levels : Nat) (xs : List Int), ¬ (!s.node.runs Isl.glean) → Done (.gleanerSample levels xs) s (
      let n : Node := s.node
      let t := nextGrid (max n.gridNow (n.glean.sampleAt + 1)) (1000000 / n.glean.rate)
      let n := (n.upTo t).updGlean (fun g => { g with sampleAt := t })
      let rules := n.glean.rules.filter (fun e => n.glActive e.2)
      let n := rules.foldl (fun n e => if e.2.src = 1 then n.setIn e.2.index { n.inPin e.2.index with comparator := n.lineLevel levels e.2.index } else n) n
      rules.foldl (fun n e => n.glRule e.1 e.2 (n.glSource e.2 levels xs (t % 10000000 == 0))) n)) ∧
  (∀ (s : State) (src : Nat) (payload : List Nat) (k : Nat),
    (
      let n : Node := s.node
      let b := toBytes payload
      let n := if n.runs Isl.line then n.raise 2 else n
      n.bulkSilo src (u32 b 0)) = (some k) →
    (
      let n : Node := s.node
      let b := toBytes payload
      let d := b.drop 8
      let n := if n.runs Isl.line then n.raise 2 else n
      let x := n.silo k
      n.runs Isl.line ∧ 1 ≤ d.length ∧ d.length ≤ 1472 ∧ u32 b 4 = x.high ∧ x.high + d.length ≤ siloSize ∧ !n.siloActive k ∧ !n.siloRo k) →
    Done (.bulk src payload) s (
      let n : Node := s.node
      let b := toBytes payload
      let d := b.drop 8
      let n := if n.runs Isl.line then n.raise 2 else n
      let x := n.silo k
      n.setSilo k { x with bytes := x.bytes.take x.high ++ d, high := x.high + d.length })) ∧
  (∀ (s : State) (src at_ op l t : Nat), ¬ (s.node.isHead ∨ !s.node.runs Isl.line ∨ !s.node.fromHead src ∨ !levelOk at_) → (op = 1) → Done (.levelFrame src at_ op l t) s (
      let n : Node := s.node
      let n := n.raise 2
      n.updLine (fun x => { x with raise := none }))) ∧
  (∀ (s : State) (src at_ op l t : Nat), ¬ (s.node.isHead ∨ !s.node.runs Isl.line ∨ !s.node.fromHead src ∨ !levelOk at_) → ¬ (op = 1) → (op = 0) →
    ¬ (ownLevel < l) → Done (.levelFrame src at_ op l t) s (
      let n : Node := s.node
      let n := n.raise 2
      n.updLine (fun x => { x with raise := some (l, t) }))) ∧
  (∀ (s : State) (src at_ op l t : Nat), ¬ (s.node.isHead ∨ !s.node.runs Isl.line ∨ !s.node.fromHead src ∨ !levelOk at_) → ¬ (op = 1) → (op = 0) →
    (ownLevel < l) → Done (.levelFrame src at_ op l t) s (
      let n : Node := s.node
      let n := n.raise 2
      let (v, n) := n.free 2
      n.log Ev.levelGap v.toNat l ownLevel)) ∧
  (∀ (s : State) (l t : Nat), s.node.line.raise = some (l, t) →
    Done (.levelRaiseInstant) s (((s.node.upTo t).updLine (fun x => { x with level := l, raise := none })).log Ev.levelRaised l 0 (t % 2 ^ 32))) ∧
  (∀ (s : State) (p : Nat) (ok : Bool) (m : Nat), ((s.node.port p).reload) = (some m) → Done (.portPhyReloadDone p ok) s (
      let n : Node := s.node
      let n := n.updPort p (fun x => { x with reload := none })
      let n := if ok ∧ n.imageGood 5 then n.runImageOn 5 [p] else n
      n.answerIsland m (n.island Isl.line).st.code))

/-- A step runs the command at the front of the queue on the rest of the queue (95_what_each_step_holds.md) -/
def Obligations.StepRunsFront : Prop :=
  ∀ (s : State) (c : Instr) (rest : List Instr), s.pending = c :: rest → step s = exec c { s with pending := rest }

/-- With no command waiting, only line time goes on, by 400 increments (the model's choice, log 4) (R290) -/
def Obligations.EmptyQueueIdles : Prop :=
  ∀ s : State, s.pending = [] →
    step s = .next { s with node := { s.node with time := { s.node.time with count := s.node.time.count + 400 * s.node.time.incr } } }

/-- The state after reset: invariant, empty queue, t1 of power-up, no mailbox posted, flags 0 (R47, R59, R92, R120) -/
def Obligations.ResetMeetsTheInvariant : Prop :=
  State.reset.Inv ∧ State.reset.pending = [] ∧ State.reset.node.power.stage = .t1 ∧
  (∀ m, (State.reset.node.mbx m).st = .free) ∧ (∀ k, (State.reset.node.stall k).st = .idle) ∧ State.reset.node.rcp.flags = 0

/-- A command changes only the parts of the node in its footprint, and never the queue (95_what_each_step_holds.md) -/
def Obligations.CommandsStayWithinTheirFootprint : Prop :=
  ∀ (c : Instr) (s t : State), exec c s = .next t → t.pending = s.pending ∧ Frame (footprint c) s.node t.node

/-- Every command runs, but for a crossing word between islands that R15 joins by no crossing (R15) -/
def Obligations.OnlyUnlistedCrossingsStop : Prop :=
  ∀ (c : Instr) (s : State),
    (∃ t, exec c s = .next t) ∨
    (exec c s = .fault .noCrossing ∧ ∃ src dst a word write buffered bank bankCheck err errCheck,
      c = .crossingWord src dst a word write buffered bank bankCheck err errCheck ∧ (src, dst) ∉ crossings)

/-- A read after a write gives the bytes written, and every other byte is as it was (R18, R20) -/
def Obligations.MemoryReadsBackWhatWasWritten : Prop :=
  ∀ (n : Node) (a : Nat) (bs : List Byte), n.memOk →
    (n.write a bs).read a bs.length = bs ∧ (n.write a bs).memOk ∧
    ∀ x, x < a ∨ a + bs.length ≤ x → (n.write a bs).read x 1 = n.read x 1

/-- A response outside a session fills its mailbox as R53, R54 and R57 lay it out, and nothing beside it (R53, R54, R57, R59, R63) -/
def Obligations.AnswerFillsItsMailbox : Prop :=
  ∀ (n : Node) (m code seq flags : Nat) (pl : List Byte) (st d : Nat) (rs : List Byte),
    n.memOk → (n.mbx m).req = some (code, seq, flags, pl) → (n.mbx m).session = 0 → n.host.restarting = false → rs.length ≤ 476 →
    ((n.mbx m).begun && n.earlier m (fun _ => true)) = false → (∀ k, (n.mbx k).deferred = none) →
    ((n.answer m st d rs).mbx m).st = .done ∧ ((n.answer m st d rs).mbx m).lastReq = some (code, seq, pl) ∧
    (n.answer m st d rs).read (mbxAddr m) (20 + rs.length)
      = leBytes 2 code ++ leBytes 2 seq ++ leBytes 2 (4 + rs.length) ++ leBytes 2 (1 + 16 * (m % 16)) ++ List.replicate 8 0
        ++ leBytes 2 st ++ leBytes 2 d ++ rs ∧
    (∀ a, a < mbxAddr m ∨ mbxAddr m + 512 ≤ a → (n.answer m st d rs).read a 1 = n.read a 1) ∧
    (∀ k, k ≠ m → (n.answer m st d rs).mbx k = n.mbx k)

/-- A command of fixed length refuses a payload of another length with LENGTH_BAD and does nothing else (R58, R78) -/
def Obligations.WrongLengthIsRefused : Prop :=
  ∀ (s : State) (path idx : Nat) (pl : List Byte), ∀ e ∈ ([(.chanWrite, Cmd.chanWrite, 20), (.stallRead, Cmd.stallRead, 4), (.chanStart, Cmd.chanStart, 4),
     (.chanStop, Cmd.chanStop, 4), (.chanSpare, Cmd.chanSpare, 4), (.zbStatus, Cmd.zbStatus, 0),
     (.zbRecover, Cmd.zbRecover, 0), (.islandControl, Cmd.islandControl, 4), (.islandStatus, Cmd.islandStatus, 0),
     (.nodeStatus, Cmd.nodeStatus, 0), (.healthRead, Cmd.healthRead, 4), (.nodeReset, Cmd.nodeReset, 4),
     (.sessionHello, Cmd.sessionHello, 76), (.sessionClose, Cmd.sessionClose, 0), (.hostkeyAdd, Cmd.hostkeyAdd, 76),
     (.hostkeyRemove, Cmd.hostkeyRemove, 8), (.nodeIdent, Cmd.nodeIdent, 0), (.lineStatus, Cmd.lineStatus, 4),
     (.timeConfig, Cmd.timeConfig, 32), (.timeStatus, Cmd.timeStatus, 0), (.certRead, Cmd.certRead, 4),
     (.serviceFlagClear, Cmd.serviceFlagClear, 0), (.attest, Cmd.attest, 16), (.islandUpdate, Cmd.islandUpdate, 4)] ++
    [(.levelRaise, Cmd.levelRaise, 4), (.custodyRead, Cmd.custodyRead, 12), (.custodyList, Cmd.custodyList, 4),
     (.custodyResolve, Cmd.custodyResolve, 20), (.recipeStop, Cmd.recipeStop, 4), (.taskCancel, Cmd.taskCancel, 4),
     (.schedConfig, Cmd.schedConfig, 12), (.harvestStatus, Cmd.harvestStatus, 0), (.safetyStatus, Cmd.safetyStatus, 0),
     (.safetyRestart, Cmd.safetyRestart, 4), (.energyRead, Cmd.energyRead, 4), (.liftCall, Cmd.liftCall, 4),
     (.gateCommand, Cmd.gateCommand, 4), (.liftStatus, Cmd.liftStatus, 4), (.axisConfig, Cmd.axisConfig, 96),
     (.axisStop, Cmd.axisStop, 12), (.gearSet, Cmd.gearSet, 40), (.axisStatus, Cmd.axisStatus, 4),
     (.eventRead, Cmd.eventRead, 12), (.recorderStatus, Cmd.recorderStatus, 0)]
      : List ((Nat → Nat → Instr) × Nat × Nat)),
    Serves s.node e.2.1 path idx pl → pl.length ≠ e.2.2 → Done (e.1 path idx) s ((s.node.begun path idx).answer (path * 16 + idx) Rs.lengthBad 0 [])

/-- Quadrature decoding: the whole step table of R196, with invert (R196) -/
def Obligations.QuadratureSteps : Prop :=
  ∀ (s : State) (i : Nat) (a b : Bool) (t : T64), s.node.encRuns i = true → (s.node.encSet i).pf 8 1 = 0 →
    (∀ d : Option Int, ((s.node.enc i).a, (s.node.enc i).b, a, b, d) ∈
      ([(false, false, false, false, some 0), (false, false, true, false, some 1), (false, false, true, true, none), (false, false, false, true, some (-1))] ++
       [(true, false, false, false, some (-1)), (true, false, true, false, some 0), (true, false, true, true, some 1), (true, false, false, true, none)] ++
       [(true, true, false, false, none), (true, true, true, false, some (-1)), (true, true, true, true, some 0), (true, true, false, true, some 1)] ++
       [(false, true, false, false, some 1), (false, true, true, false, none), (false, true, true, true, some (-1)), (false, true, false, true, some 0)] : List (Bool × Bool × Bool × Bool × Option Int)) →
      Done (.encoderStep i a b t) s
        (match d with
         | none => (s.node.setEnc i { s.node.enc i with a := a, b := b }).illegalStep i
         | some z =>
           if z = 0 then s.node.setEnc i { s.node.enc i with a := a, b := b }
           else (s.node.setEnc i { s.node.enc i with a := a, b := b }).countStep i (if (s.node.encSet i).pf 9 1 = 1 then -z else z) t))

/-- Pulse and direction decoding: R197, with invert (R197) -/
def Obligations.PulseDirectionSteps : Prop :=
  ∀ (s : State) (i : Nat) (a b : Bool) (t : T64), s.node.encRuns i = true → (s.node.encSet i).pf 8 1 = 1 →
    (¬((s.node.enc i).a = false ∧ a = true) →
      Done (.encoderStep i a b t) s (s.node.setEnc i { s.node.enc i with a := a, b := b })) ∧
    ((s.node.enc i).a = false → a = true → b ≠ (s.node.enc i).b →
      Done (.encoderStep i a b t) s ((s.node.setEnc i { s.node.enc i with a := a, b := b }).illegalStep i)) ∧
    ((s.node.enc i).a = false → a = true → b = (s.node.enc i).b →
      Done (.encoderStep i a b t) s ((s.node.setEnc i { s.node.enc i with a := a, b := b }).countStep i
        (if (s.node.encSet i).pf 9 1 = 1 then (if b then -1 else 1) else if b then 1 else -1) t))

/-- ZB_RECOVER starts RECOVERING from BUS_OFF, has no effect elsewhere, and answers the state reached (R329) -/
def Obligations.ZbRecoverCompletes : Prop :=
  ∀ (s : State) (path idx : Nat) (pl : List Byte), Serves s.node Cmd.zbRecover path idx pl →
    (pl ≠ [] → Done (.zbRecover path idx) s ((s.node.begun path idx).answer (path * 16 + idx) Rs.lengthBad 0 [])) ∧
    (pl = [] → (s.node.begun path idx).zb.st = .busOff →
      DoneOk (.zbRecover path idx) s { (s.node.begun path idx) with zb := { (s.node.begun path idx).zb with st := .recovering } } path idx [BitVec.ofNat 8 ZbSt.recovering.code, 0, 0, 0]) ∧
    (pl = [] → (s.node.begun path idx).zb.st ≠ .busOff → DoneOk (.zbRecover path idx) s (s.node.begun path idx) path idx [BitVec.ofNat 8 (s.node.begun path idx).zb.st.code, 0, 0, 0])

/-- While the field cores restart, a posted request is answered BUSY_RESTARTING and its mailbox is FREE (R59, R60, R70) -/
def Obligations.RestartingAnswersBusy : Prop :=
  (∀ (n : Node) (m src : Nat), n.memOk → n.host.restarting = true → (n.mbx m).st = .free ∨ (n.mbx m).st = .done →
    ((n.post m src).mbx m).st = .free ∧ u16 ((n.post m src).read (mbxAddr m + 16) 2) 0 = Rs.busyRestarting) ∧
  (∀ (n : Node) (path : Nat), n.host.restarting = true → n.hsStatus path % 2 = 1)

/-- A request is answered with the first of the checks of R58 that fails (R54, R58, R73) -/
def Obligations.RequestsAreJudgedInOrder : Prop :=
  ∀ (n : Node) (m : Nat),
    let b := n.read (mbxAddr m) 512
    let n1 := n.updHost (fun h => { h with taken := h.taken + 1 })
    let k := n1.setMbx m { n1.mbx m with st := .executing, req := some (u16 b 0, u16 b 2, u16 b 6, slice b 16 (min (u16 b 4) 480)), session := 0, role := n1.pathRole (m / 16), takenNo := n1.host.taken, takenAt := n1.now, begun := false, deferred := none }
    let flagsOk := u16 b 4 ≤ 480 ∧ bit (u16 b 6) 0 = false ∧ bit (u16 b 6) 2 = false ∧ bit (u16 b 6) 3 = false ∧ u16 b 6 / 256 = 0
    let repeated := (n.mbx m).again = true ∧ (n.mbx m).lastReq = some (u16 b 0, u16 b 2, slice b 16 (min (u16 b 4) 480))
    (480 < u16 b 4 → n.judgeRequest m = k.answer m Rs.lengthBad 0 []) ∧
    (u16 b 4 ≤ 480 → ¬flagsOk → n.judgeRequest m = k.answer m Rs.paramReserved 0 []) ∧
    (flagsOk → m < 16 → bit (u16 b 6) 1 = false → sessionless (u16 b 0) = false → n.judgeRequest m = k.answer m Rs.noSession 0 []) ∧
    (flagsOk → 16 ≤ m → bit (u16 b 6) 1 = false → ¬repeated → (∀ e ∈ cmdRoles, e.1 ≠ u16 b 0) → n.judgeRequest m = k.answer m Rs.cmdUnknown 0 []) ∧
    (∀ need, flagsOk → 16 ≤ m → bit (u16 b 6) 1 = false → ¬repeated → cmdRoles.find? (fun e => e.1 == u16 b 0) = some (u16 b 0, need) →
      need < 4 → n.pathRole (m / 16) < need → n.judgeRequest m = k.answer m Rs.roleDenied 0 []) ∧
    (flagsOk → bit (u16 b 6) 1 = true → k.sessionOf m (u32 b 8) = none → n.judgeRequest m = k.answerWith m Rs.sessionUnknown 0 true [])

/-- A record is durable only by its valid mark, its Granary copy before its Rick copy (R398, R403, R407) -/
def Obligations.RecordsBecomeDurableByTheirValidMark : Prop :=
  (∀ (s : State) (e : EvRec) (q : List EvRec), s.node.runs Isl.sec = true → s.node.rcd.program = none → s.node.rcd.eraseFirst = false → s.node.rcd.clear = .none →
    s.node.rcd.queue = e :: q →
    ∃ t f, exec .storeRecordRequest s = .next t ∧ t.node.rcd.queue = q ∧ t.node.rcd.seq = (s.node.rcd.seq + 1) % 2 ^ 32 ∧
      t.node.rcd.program = some ({ e with seq := s.node.rcd.seq, flags := f }, false, s.node.granaryTakes) ∧
      t.node.rcd.granary = s.node.rcd.granary ∧ (s.node.rcd.rHead % 128 ≠ 0 → t.node.rcd.rick = s.node.rcd.rick)) ∧
  (∀ (s : State) (e : EvRec) (g : Bool), s.node.rcd.program = some (e, false, g) →
    Done .recordProgrammed s { s.node with rcd := { s.node.rcd with program := some (e, true, g) } } ∧ Done .recordValidMarkDone s s.node) ∧
  (∀ (s : State) (e : EvRec), s.node.rcd.program = some (e, true, true) → s.node.rcd.clear = .none →
    ∃ t, exec .recordValidMarkDone s = .next t ∧ t.node.rcd.granary.look s.node.rcd.gHead = some (.valid e) ∧
      t.node.rcd.gHead = s.node.rcd.gHead + 1 ∧ t.node.rcd.program = some (e, false, false)) ∧
  (∀ (s : State) (e : EvRec), s.node.rcd.program = some (e, true, false) → s.node.rcd.clear = .none →
    ∃ t, exec .recordValidMarkDone s = .next t ∧ t.node.rcd.rick.look s.node.rcd.rHead = some (.valid e) ∧
      t.node.rcd.granary = s.node.rcd.granary ∧ t.node.rcd.program = none)

/-- A created record takes the node address and the creation counter, which rises by 1 (R333) -/
def Obligations.ParcelIdentifiersHoldAddressAndCounter : Prop :=
  ∀ (n : Node) (entered length dest exit : Nat) (unmatched : Bool),
    (n.addr = 0 → n.recCreate entered length dest exit unmatched = (none, n)) ∧
    (∀ slot, n.addr ≠ 0 → n.cust.freeSlot = some slot →
      (n.recCreate entered length dest exit unmatched).1 = some slot ∧
      ∃ r, (n.recCreate entered length dest exit unmatched).2.cust.own.look slot = some r ∧
        r.parcel = n.addr * 2 ^ 48 + n.cust.counter % 2 ^ 48 ∧ r.st = .held ∧ r.destination = dest ∧ r.exit = exit ∧
        (n.recCreate entered length dest exit unmatched).2.cust.counter = (n.cust.counter + 1) % 2 ^ 48)

/-- The rest value of a loop is the value of its output range nearest to 0 (R141) -/
def Obligations.LoopRestsNearestToZero : Prop :=
  ∀ (n : Node) (k : Nat),
    ((n.stall k).restValue = if b32.lt 0 ((n.stall k).pf 24 4) then (n.stall k).pf 24 4
      else if b32.lt ((n.stall k).pf 28 4) 0 then (n.stall k).pf 28 4 else 0) ∧
    n.restSink k = n.engineWrite ((n.stall k).pf 10 2) ((n.stall ((n.stall k).pf 10 2)).fromF32 (n.stall k).restValue) n.now

/-- Every step keeps memory canonical and every waiting command well formed (R18, R20, 95_what_each_step_holds.md) -/
def Obligations.StepKeepsTheInvariant : Prop :=
  ∀ s t : State, s.Inv → step s = .next t → t.Inv

/-- A command without memory in its footprint leaves every byte of memory as it was (R18, R20) -/
def Obligations.QuietCommandsLeaveMemory : Prop :=
  ∀ (c : Instr) (s t : State), Part.ram ∉ footprint c → exec c s = .next t → ∀ a : Nat, t.node.read a 1 = s.node.read a 1

/-- The default sine table has 256 entries, rises strictly and holds the four values R245 names (R245) -/
def Obligations.DefaultSineTable : Prop :=
  sineTable.length = 256 ∧ sineTable[0]? = some 0 ∧ sineTable[1]? = some 201 ∧ sineTable[128]? = some 23170 ∧ sineTable[255]? = some 32767 ∧
  (sineTable.zip (sineTable.drop 1)).all (fun e => decide (e.1 < e.2)) = true

/-- A safe frame read from the 32 bytes it is sent as is that frame (R429, R430) -/
def Obligations.SafeFramesReadBack : Prop :=
  ∀ f : SafeFrame, f.connId < 2 ^ 16 → f.seq < 2 ^ 32 → f.t < 2 ^ 64 → f.watchdog < 2 ^ 16 →
    SafeFrame.ofBytes f.bytes = f ∧ f.bytes.length = 32

/-- A custody record read from its 128 bytes is that record, and its crc is right (R332, R351) -/
def Obligations.CustodyRecordsReadBack : Prop :=
  ∀ r : CRec, r.parcel < 2 ^ 64 → r.hops < 256 → r.level < 256 → r.version < 2 ^ 32 → r.created < 2 ^ 64 → r.entered < 2 ^ 64 →
    -(2 ^ 63) ≤ r.enteredRef → r.enteredRef < 2 ^ 63 → r.length < 2 ^ 16 → r.destination < 2 ^ 16 → r.from_ < 2 ^ 16 → r.to_ < 2 ^ 16 →
    r.fromPort < 256 → r.exit < 256 → r.tag.length ≤ 24 → r.energyZone < 2 ^ 32 → r.energyLine < 2 ^ 32 → r.boundary < 2 ^ 64 →
    r.resolved < 2 ^ 64 → r.ckpt < 2 ^ 32 →
    crecOk (r.bytes false) = true ∧
    CRec.ofBytes (r.bytes false) =
    { parcel := r.parcel, st := r.st, cflags := r.cflags, hops := r.hops, level := r.level, version := r.version,
      created := r.created, entered := r.entered, enteredRef := r.enteredRef, length := r.length, destination := r.destination, from_ := r.from_,
      to_ := r.to_, fromPort := r.fromPort, exit := r.exit, tag := r.tag, energyZone := r.energyZone, energyLine := r.energyLine,
      boundary := r.boundary, resolved := r.resolved, ckpt := r.ckpt }

/-- A Gleaner rule and a harvest entry read from the bytes they are stored as are themselves (R379, R454) -/
def Obligations.RulesAndEntriesReadBack : Prop :=
  (∀ r : GlRule, r.src < 256 → r.index < 256 → r.filter < 256 → r.p1 < 256 → r.p2 < 256 → r.cond < 256 → r.action < 256 →
    r.level < 2 ^ 16 → r.hyst < 2 ^ 16 → r.target < 256 → r.value < 256 → r.limit < 2 ^ 16 → GlRule.ofBytes r.bytes = r ∧ r.bytes.length = 16) ∧
  (∀ e : HvEntry, e.stall < 2 ^ 16 → e.mode < 256 → e.divider < 2 ^ 16 → HvEntry.ofBytes e.bytes 0 = e ∧ e.bytes.length = 12)

/-- A stall takes the configuration bytes of another whole, but for its own is_spare bit and format (R86, R89) -/
def Obligations.StallConfigurationReadsBack : Prop :=
  ∀ s o : Stall, s.cfgBytes.length = 44 ∧ (o.withCfg s.cfgBytes).kind = s.kind ∧ (o.withCfg s.cfgBytes).stop = s.stop ∧
    (o.withCfg s.cfgBytes).spare = s.spare ∧ (o.withCfg s.cfgBytes).part = s.part ∧ (o.withCfg s.cfgBytes).retries = s.retries ∧
    (o.withCfg s.cfgBytes).permanence = s.permanence ∧ (o.withCfg s.cfgBytes).interval = s.interval ∧ (o.withCfg s.cfgBytes).window = s.window ∧
    (o.withCfg s.cfgBytes).flags = (s.flags &&& 0xFFFD) ||| (o.flags &&& 2) ∧ (o.withCfg s.cfgBytes).st = o.st ∧
    (o.withCfg s.cfgBytes).value = o.value ∧ (o.withCfg s.cfgBytes).stamp = o.stamp
end

