-- ==== Sys2Proof/Laws/Bytes.lean ====
section
/-! SUPPORT. Fields of a byte layout: reading a little-endian field back where it was written, and skipping the bytes before it. -/

namespace Sys2Proof.Machine

@[simp] theorem leBytes_length (k v : Nat) : (leBytes k v).length = k := by
  induction k generalizing v with
  | zero => rfl
  | succ k ih => simp [leBytes, ih]

/-- The number that `k` little-endian bytes of a number spell. -/
theorem leNat_leBytes (k v : Nat) : leNat (leBytes k v) = v % 256 ^ k := by
  induction k generalizing v with
  | zero => simp [leBytes, leNat, Nat.mod_one]
  | succ k ih =>
    simp only [leBytes, leNat, ih, BitVec.toNat_ofNat]
    have e : 256 ^ (k + 1) = 2 ^ 8 * 256 ^ k := by rw [Nat.pow_succ, Nat.mul_comm]; norm_num
    rw [e, Nat.mod_mul]; norm_num

/-- The first bytes of a layout. -/
theorem slice_here (a b : List Byte) (k : Nat) (h : a.length = k) : slice (a ++ b) 0 k = a := by
  subst h
  simp [slice]

/-- The whole of a layout. -/
theorem slice_all (a : List Byte) (k : Nat) (h : a.length = k) : slice a 0 k = a := by
  subst h
  simp [slice]

/-- A field beyond the first bytes of a layout. -/
theorem slice_skip (a b : List Byte) (off k : Nat) (h : a.length ≤ off) : slice (a ++ b) off k = slice b (off - a.length) k := by
  unfold slice
  rw [List.drop_append, List.drop_eq_nil_of_le h, List.nil_append]

/-- A field within the first bytes of a layout. -/
theorem slice_within (a b : List Byte) (off k : Nat) (h : off + k ≤ a.length) : slice (a ++ b) off k = slice a off k := by
  unfold slice
  rw [List.drop_append_of_le_length (by omega), List.take_append_of_le_length (by rw [List.length_drop]; omega)]

/-- A number that fits its field reads back. -/
theorem field_here (k v : Nat) (b : List Byte) (h : v < 256 ^ k) : leNat (slice (leBytes k v ++ b) 0 k) = v := by
  rw [slice_here _ _ _ (leBytes_length k v), leNat_leBytes, Nat.mod_eq_of_lt h]

/-- A number that fits the last field reads back. -/
theorem field_last (k v : Nat) (h : v < 256 ^ k) : leNat (slice (leBytes k v) 0 k) = v := by
  rw [slice_all _ _ (leBytes_length k v), leNat_leBytes, Nat.mod_eq_of_lt h]

/-- A byte reads back. -/
theorem byte_here (x : Byte) (b : List Byte) : leNat (slice ([x] ++ b) 0 1) = x.toNat := by
  rw [slice_here [x] b 1 rfl]; simp [leNat]

end Sys2Proof.Machine
end

