-- ==== Sys2Proof/Laws/HostCmd.lean ====
section
/-! SUPPORT. What running a host command does once its mailbox serves it and no check refuses it, and what carrying out an
action does once its instance has reached it. -/

namespace Sys2Proof.Machine

/-- Checks that pass let the command go on. -/
@[simp] theorem Node.checked_pass (n : Node) (m : Nat) (cs : List (Bool × Nat × Nat)) (k : Node) (h : Passes cs) :
    n.checked m cs k = k := by
  simp only [Node.checked, h]

/-- A check that fails answers its status, with no results, and nothing else of the command happens. -/
theorem Node.checked_fail (n : Node) (m : Nat) (cs : List (Bool × Nat × Nat)) (k : Node) (s d : Nat) (h : firstBad cs = some (s, d)) :
    n.checked m cs k = n.answer m s d [] := by
  simp only [Node.checked, h]

/-- A mailbox that serves a command runs the command's own effect, on the node in which it has begun. -/
theorem Node.hostCmd_serves (n : Node) (code path idx : Nat) (pl : List Byte) (f : Node → Nat → List Byte → Node)
    (h : Serves n code path idx pl) : n.hostCmd code path idx f = f (n.begun path idx) (path * 16 + idx) pl := by
  obtain ⟨h1, h2, hb, hk, h3, h4, h5, h6, h7⟩ := h
  obtain ⟨⟨c, q, w, p⟩, hr, he⟩ := Option.map_eq_some_iff.mp h2
  obtain ⟨rfl, rfl⟩ := Prod.mk.inj he
  have e1 : (n.begins (path * 16 + idx)).host.resetPending = n.host.resetPending := rfl
  have e2 : (n.begins (path * 16 + idx)).island = n.island := rfl
  have a : (n.host.restarting && c != Cmd.siloCommit) = false := by
    cases hb : n.host.restarting
    · simp
    · simpa using h4 hb
  have b : ((n.island Isl.line).st == IslSt.failed && path == 1 && !runsOnFailedLine c) = false := by
    by_cases hf : (n.island Isl.line).st = .failed
    · by_cases hp : path = 1
      · have := h6 hf hp
        simp_all
      · simp [hp]
    · simp [hf]
  have d : ((n.island Isl.core).st == IslSt.failed && !runsOnFailedCore c) = false := by
    by_cases hf : (n.island Isl.core).st = .failed
    · have := h7 hf
      simp_all
    · simp [hf]
  unfold Node.hostCmd
  simp only [hr, h1, h3, hb, hk, a, b, d, e1, e2, h5]
  simp

/-- A step that can be fetched is the one the engine goes by. -/
theorem Node.withStep_fetches (n : Node) (i : Nat) (f : Node → Node) (h : Fetches n i) : n.withStep i f = f n := by
  unfold Node.withStep
  simp only [h.1, h.2]
  simp

/-- An action an instance has reached is carried out at its instant, and the instance goes on. -/
theorem Node.carryOut_acts (n : Node) (i code : Nat) (t : T64) (f : Node → Step → T64 → Node × Nat) (h : Acts n i code t) :
    n.carryOut i code f = (f (n.acting i t) (n.actRec i) t).1.goOn i (f (n.acting i t) (n.actRec i) t).2 t := by
  obtain ⟨h1, h2, h3, h4, h5, h6, h7, h8⟩ := h
  have h6' : (n.inst i).atOnce = true ∨ (!issuable code) = true := h6.imp_right (fun x => by simp [x])
  unfold Node.carryOut Node.goOn Node.acting
  simp only [h1]
  rw [if_pos ⟨h2, h3, by simp [h4], h5, h6', by simp [h7]⟩, Node.withStep_fetches n i _ h8]

/-- An action that firmware serves posts its task, which the pool takes, and the instance goes on. -/
theorem Node.postAction_posts (n : Node) (i code : Nat) (t : T64) (handler : Step → Nat) (arg : Node → Step → W64) (reg : Step → Nat)
    (k : Nat) (h : Posts n i code t)
    (hk : ((n.posting i).postTask (handler (n.actRec i)) (arg (n.posting i) (n.actRec i)) t (t + us (n.inst i).deadline)
      (n.inst i).group (n.inst i).sheaf (some (i, reg (n.actRec i))) false).1 = some k) :
    n.postAction i code handler arg reg
      = (let r := n.actRec i
         let p := (n.posting i).postTask (handler r) (arg (n.posting i) r) t (t + us (n.inst i).deadline) (n.inst i).group (n.inst i).sheaf
          (some (i, reg r)) false
         let m := if reg r < 8 then p.2.setReg i (reg r) (BitVec.ofNat 64 (k + 0xFFFF * 2 ^ 48)) else p.2
         m.enterStep i (m.afterStep i) t) := by
  obtain ⟨h1, h2, h3, h5, h6, h8⟩ := h
  unfold Node.postAction
  simp only [h1]
  rw [if_pos ⟨h2, h3, h5⟩, Node.withStep_fetches n i _ h8]
  unfold Node.posting at hk ⊢
  simp only [h6, hk]
  rfl

end Sys2Proof.Machine
end

