-- ==== Sys2Proof/Laws/Memory.lean ====
section
/-! SUPPORT. Memory: every write keeps the canonical form; a read after a write. -/

namespace Sys2Proof.Machine

/-- Every listed address is above `a`. -/
def ramAbove (a : Nat) (m : List Host.Cell) : Prop := ∀ c ∈ m, a < c.1

theorem ramRising_cons (c : Host.Cell) (m : List Host.Cell) : ramRising (c :: m) = true ↔ ramAbove c.1 m ∧ ramRising m = true := by
  obtain ⟨j, b⟩ := c
  induction m generalizing j b with
  | nil => simp [ramRising, ramAbove]
  | cons d t ih =>
    obtain ⟨k, e⟩ := d
    have h2 := ih k e
    constructor
    · intro h
      simp only [ramRising, Bool.and_eq_true, decide_eq_true_eq] at h
      refine ⟨fun x hx => ?_, h.2⟩
      rcases List.mem_cons.mp hx with rfl | hx
      · exact h.1
      · exact Nat.lt_trans h.1 ((h2.mp h.2).1 x hx)
    · intro h
      simp only [ramRising, Bool.and_eq_true, decide_eq_true_eq]
      exact ⟨h.1 (k, e) (by simp), h.2⟩

theorem wf_cons (c : Host.Cell) (m : List Host.Cell) :
    Memory.wf (c :: m) = true ↔ ramAbove c.1 m ∧ c.2 ≠ ramDefault ∧ Memory.wf m = true := by
  have h := ramRising_cons c m
  simp only [Memory.wf, List.all_cons, Bool.and_eq_true, bne_iff_ne, ne_eq]
  tauto

theorem ramPut_above {k a : Nat} {b : Byte} {m : List Host.Cell} (h : ramAbove k m) (ha : k < a) : ramAbove k (ramPut m a b) := by
  induction m with
  | nil =>
    simp only [ramPut]
    split
    · intro x hx; cases hx
    · intro x hx; simp at hx; rw [hx]; exact ha
  | cons c t ih =>
    obtain ⟨j, e⟩ := c
    have ht : ramAbove k t := fun x hx => h x (by simp [hx])
    have hj : k < j := h (j, e) (by simp)
    have hc {l : List Host.Cell} {x : Host.Cell} (hx : k < x.1) (hl : ramAbove k l) : ramAbove k (x :: l) := fun y hy => by
      rcases List.mem_cons.mp hy with rfl | hy
      · exact hx
      · exact hl y hy
    simp only [ramPut]
    split
    · split
      · exact h
      · exact hc ha h
    · split
      · split
        · exact ht
        · exact hc ha ht
      · exact hc hj (ih ht)

/-- Writing one byte keeps the canonical form (log 2). -/
theorem ramPut_wf {m : List Host.Cell} (h : Memory.wf m = true) (a : Nat) (b : Byte) : Memory.wf (ramPut m a b) = true := by
  induction m with
  | nil =>
    simp only [ramPut]
    split
    · rfl
    · rename_i hb; simp [Memory.wf, ramRising, hb]
  | cons c t ih =>
    obtain ⟨j, e⟩ := c
    obtain ⟨h1, h2, h3⟩ := (wf_cons _ _).mp h
    simp only [ramPut]
    split
    · rename_i hlt
      split
      · exact h
      · rename_i hb
        refine (wf_cons _ _).mpr ⟨fun x hx => ?_, hb, h⟩
        rcases List.mem_cons.mp hx with rfl | hx
        · exact hlt
        · exact Nat.lt_trans hlt (h1 x hx)
    · rename_i hge
      split
      · rename_i heq
        split
        · exact h3
        · rename_i hb
          exact (wf_cons _ _).mpr ⟨by rw [heq]; exact h1, hb, h3⟩
      · rename_i hne
        exact (wf_cons _ _).mpr ⟨ramPut_above h1 (by simp only at *; omega), h2, ih h3⟩

/-- Writing a sequence of bytes keeps the canonical form. -/
theorem ramPuts_wf {m : List Host.Cell} (h : Memory.wf m = true) (a : Nat) (bs : List Byte) : Memory.wf (ramPuts m a bs) = true := by
  induction bs generalizing m a with
  | nil => exact h
  | cons b t ih => exact ih (ramPut_wf h a b) (a + 1)

theorem ramGet_none {a : Nat} {m : List Host.Cell} (h : ramAbove a m) : ramGet m a = ramDefault := by
  induction m with
  | nil => rfl
  | cons c t ih =>
    obtain ⟨j, e⟩ := c
    have hj : a < j := h (j, e) (by simp)
    simp only [ramGet]
    rw [if_neg (by omega)]
    exact ih (fun x hx => h x (by simp [hx]))

/-- A read after a write of one byte. -/
theorem ramGet_put {m : List Host.Cell} (h : Memory.wf m = true) (a x : Nat) (b : Byte) :
    ramGet (ramPut m a b) x = if x = a then b else ramGet m x := by
  induction m with
  | nil =>
    simp only [ramPut]
    split
    · rename_i hb; simp [ramGet, hb]
    · by_cases hx : x = a
      · simp [ramGet, hx]
      · simp [ramGet, hx, Ne.symm hx]
  | cons c t ih =>
    obtain ⟨j, e⟩ := c
    obtain ⟨h1, h2, h3⟩ := (wf_cons _ _).mp h
    simp only at h1
    simp only [ramPut]
    split
    · rename_i hlt
      have hab : ramAbove a ((j, e) :: t) := fun y hy => by
        rcases List.mem_cons.mp hy with rfl | hy
        · exact hlt
        · exact Nat.lt_trans hlt (h1 y hy)
      split
      · rename_i hb
        by_cases hx : x = a
        · subst hx; rw [if_pos rfl, ramGet_none hab, hb]
        · rw [if_neg hx]
      · by_cases hx : x = a
        · simp [ramGet, hx]
        · simp [ramGet, hx, Ne.symm hx]
    · split
      · rename_i heq
        subst heq
        split
        · rename_i hb
          by_cases hx : x = a
          · subst hx; rw [if_pos rfl, ramGet_none h1, hb]
          · simp [ramGet, hx, Ne.symm hx]
        · by_cases hx : x = a
          · simp [ramGet, hx]
          · simp [ramGet, hx, Ne.symm hx]
      · rename_i hne
        have := ih h3
        by_cases hj : j = x
        · subst hj; simp [ramGet, Ne.symm hne]
        · simp [ramGet, hj, this]

/-- A write of bytes keeps memory canonical. -/
theorem Node.write_memOk {n : Node} (h : n.memOk) (a : Nat) (bs : List Byte) : (n.write a bs).memOk := ramPuts_wf h a bs

end Sys2Proof.Machine
end

