-- ==== Sys2Proof/Laws/Reach.lean ====
section
/-! SUPPORT. What a change of the node can reach: `Reach ps n m` says that `m` differs from `n` in the parts `ps` at most and that
memory stays in its canonical form. One lemma per operation, in the files beside this one, says it of that operation. -/

namespace Sys2Proof.Machine

/-- A change within the parts `ps` that keeps memory in its canonical form. -/
def Reach (ps : List Part) (n m : Node) : Prop := Frame ps n m ∧ (n.memOk → m.memOk)

/-- Every part of one list is in the other. -/
def within (qs ps : List Part) : Bool := qs.all (fun q => ps.contains q)

theorem within_mem {qs ps : List Part} {q : Part} (h : within qs ps = true) (hq : qs.contains q = true) : q ∈ ps := by
  simp only [within, List.all_eq_true] at h
  have := h q (List.contains_iff_mem.mp hq)
  exact List.contains_iff_mem.mp this

theorem within_trans {rs qs ps : List Part} (h : within rs qs = true) (h' : within qs ps = true) : within rs ps = true := by
  simp only [within, List.all_eq_true] at *
  intro r hr
  exact h' r (List.contains_iff_mem.mp (h r hr))

theorem within_refl (ps : List Part) : within ps ps = true := by
  simp [within, List.all_eq_true]

theorem Reach.refl (ps : List Part) (n : Node) : Reach ps n n := by
  refine ⟨fun p _ => ?_, id⟩
  cases p <;> rfl

theorem Part.same_trans {p : Part} {a b c : Node} (h : p.same a b) (h' : p.same b c) : p.same a c := by
  cases p <;> exact Eq.trans h h'

theorem Reach.trans {ps : List Part} {a b c : Node} (h : Reach ps a b) (h' : Reach ps b c) : Reach ps a c :=
  ⟨fun p hp => Part.same_trans (h.1 p hp) (h'.1 p hp), fun hm => h'.2 (h.2 hm)⟩

/-- An update of some fields of `m`. -/
theorem Reach.upd {ps : List Part} {n m x : Node} (hf : ∀ p, p ∉ ps → p.same m x) (hr : m.memOk → x.memOk) (h : Reach ps n m) :
    Reach ps n x := h.trans ⟨hf, hr⟩

theorem Reach.ite {ps : List Part} {n a b : Node} {c : Prop} [Decidable c] (ha : Reach ps n a) (hb : Reach ps n b) :
    Reach ps n (if c then a else b) := by
  split
  · exact ha
  · exact hb

theorem Reach.foldl {ps : List Part} {n : Node} {α : Type} {f : Node → α → Node} {l : List α} {b : Node} (hb : Reach ps n b)
    (hf : ∀ m x, Reach ps n m → Reach ps n (f m x)) : Reach ps n (l.foldl f b) := by
  induction l generalizing b with
  | nil => exact hb
  | cons x t ih => exact ih (hf b x hb)

theorem Reach.foldr {ps : List Part} {n : Node} {α : Type} {f : α → Node → Node} {l : List α} {b : Node} (hb : Reach ps n b)
    (hf : ∀ x m, Reach ps n m → Reach ps n (f x m)) : Reach ps n (l.foldr f b) := by
  induction l with
  | nil => exact hb
  | cons x t ih => exact hf x _ ih

theorem Reach.ofSnd {ps : List Part} {n m : Node} {α : Type} {a : α} {r : α × Node} (h : r = (a, m)) (hr : Reach ps n r.2) :
    Reach ps n m := by rw [h] at hr; exact hr

theorem Reach.ofSnd2 {ps : List Part} {n m : Node} {α β : Type} {a : α} {b : β} {r : α × β × Node} (h : r = (a, b, m))
    (hr : Reach ps n r.2.2) : Reach ps n m := by rw [h] at hr; exact hr

theorem Reach.ofSome {ps : List Part} {n m : Node} {r : Option Node} (h : r = some m) (hr : ∀ k, r = some k → Reach ps n k) :
    Reach ps n m := hr m h

/-- Folding over a pair that carries the node. -/
theorem Reach.foldlPair {ps : List Part} {n : Node} {α β : Type} {f : β × Node → α → β × Node} {l : List α} {b : β × Node}
    (hb : Reach ps n b.2) (hf : ∀ m x, Reach ps n m.2 → Reach ps n (f m x).2) : Reach ps n (l.foldl f b).2 := by
  induction l generalizing b with
  | nil => exact hb
  | cons x t ih => exact ih (hf b x hb)

theorem Reach.foldlPair' {ps : List Part} {n : Node} {α β : Type} {f : Node × β → α → Node × β} {l : List α} {b : Node × β}
    (hb : Reach ps n b.1) (hf : ∀ m x, Reach ps n m.1 → Reach ps n (f m x).1) : Reach ps n (l.foldl f b).1 := by
  induction l generalizing b with
  | nil => exact hb
  | cons x t ih => exact ih (hf b x hb)

/-- What a meaning answers: the node its function gives, the queue as it was. -/
theorem run_next {s t : State} {f : Node → Node} (h : s.run f = .next t) : t = { s with node := f s.node } := by
  simp only [State.run, Host.Outcome.next.injEq] at h
  exact h.symm

/-- A meaning reaches what its function reaches. -/
theorem Reach.ofRun {ps : List Part} {n : Node} {s t : State} {f : Node → Node} (h : s.run f = .next t) (hf : Reach ps n (f s.node)) :
    Reach ps n t.node := by rw [run_next h]; exact hf

/-! ### One field -/

theorem Reach.set_isl {ps : List Part} {n0 m : Node} {v : Tbl Island} (h : Reach ps n0 m) (hp : within [.isl] ps = true) :
    Reach ps n0 { m with isl := v } :=
  Reach.upd (m := m) (fun p hn => by cases p <;> first | exact absurd (within_mem hp rfl) hn | exact rfl) id h

theorem Reach.set_lastCrossing {ps : List Part} {n0 m : Node} {v : CrossAns} (h : Reach ps n0 m) (hp : within [.lastCrossing] ps = true) :
    Reach ps n0 { m with lastCrossing := v } :=
  Reach.upd (m := m) (fun p hn => by cases p <;> first | exact absurd (within_mem hp rfl) hn | exact rfl) id h

theorem Reach.set_mem {ps : List Part} {n0 m : Node} {v : MemHealth} (h : Reach ps n0 m) (hp : within [.mem] ps = true) :
    Reach ps n0 { m with mem := v } :=
  Reach.upd (m := m) (fun p hn => by cases p <;> first | exact absurd (within_mem hp rfl) hn | exact rfl) id h

theorem Reach.set_power {ps : List Part} {n0 m : Node} {v : Power} (h : Reach ps n0 m) (hp : within [.power] ps = true) :
    Reach ps n0 { m with power := v } :=
  Reach.upd (m := m) (fun p hn => by cases p <;> first | exact absurd (within_mem hp rfl) hn | exact rfl) id h

theorem Reach.set_host {ps : List Part} {n0 m : Node} {v : HostIf} (h : Reach ps n0 m) (hp : within [.host] ps = true) :
    Reach ps n0 { m with host := v } :=
  Reach.upd (m := m) (fun p hn => by cases p <;> first | exact absurd (within_mem hp rfl) hn | exact rfl) id h

theorem Reach.set_stalls {ps : List Part} {n0 m : Node} {v : Tbl Stall} (h : Reach ps n0 m) (hp : within [.stalls] ps = true) :
    Reach ps n0 { m with stalls := v } :=
  Reach.upd (m := m) (fun p hn => by cases p <;> first | exact absurd (within_mem hp rfl) hn | exact rfl) id h

theorem Reach.set_cache {ps : List Part} {n0 m : Node} {v : List CacheEntry} (h : Reach ps n0 m) (hp : within [.cache] ps = true) :
    Reach ps n0 { m with cache := v } :=
  Reach.upd (m := m) (fun p hn => by cases p <;> first | exact absurd (within_mem hp rfl) hn | exact rfl) id h

theorem Reach.set_stored {ps : List Part} {n0 m : Node} {v : Tbl Stall} (h : Reach ps n0 m) (hp : within [.stored] ps = true) :
    Reach ps n0 { m with stored := v } :=
  Reach.upd (m := m) (fun p hn => by cases p <;> first | exact absurd (within_mem hp rfl) hn | exact rfl) id h

theorem Reach.set_rcp {ps : List Part} {n0 m : Node} {v : Recipes} (h : Reach ps n0 m) (hp : within [.rcp] ps = true) :
    Reach ps n0 { m with rcp := v } :=
  Reach.upd (m := m) (fun p hn => by cases p <;> first | exact absurd (within_mem hp rfl) hn | exact rfl) id h

theorem Reach.set_loops {ps : List Part} {n0 m : Node} {v : Tbl Loop} (h : Reach ps n0 m) (hp : within [.loops] ps = true) :
    Reach ps n0 { m with loops := v } :=
  Reach.upd (m := m) (fun p hn => by cases p <;> first | exact absurd (within_mem hp rfl) hn | exact rfl) id h

theorem Reach.set_fio {ps : List Part} {n0 m : Node} {v : FieldIo} (h : Reach ps n0 m) (hp : within [.fio] ps = true) :
    Reach ps n0 { m with fio := v } :=
  Reach.upd (m := m) (fun p hn => by cases p <;> first | exact absurd (within_mem hp rfl) hn | exact rfl) id h

theorem Reach.set_adc {ps : List Part} {n0 m : Node} {v : Adc} (h : Reach ps n0 m) (hp : within [.adc] ps = true) :
    Reach ps n0 { m with adc := v } :=
  Reach.upd (m := m) (fun p hn => by cases p <;> first | exact absurd (within_mem hp rfl) hn | exact rfl) id h

theorem Reach.set_encs {ps : List Part} {n0 m : Node} {v : Tbl Enc} (h : Reach ps n0 m) (hp : within [.encs] ps = true) :
    Reach ps n0 { m with encs := v } :=
  Reach.upd (m := m) (fun p hn => by cases p <;> first | exact absurd (within_mem hp rfl) hn | exact rfl) id h

theorem Reach.set_axes {ps : List Part} {n0 m : Node} {v : Tbl Axis} (h : Reach ps n0 m) (hp : within [.axes] ps = true) :
    Reach ps n0 { m with axes := v } :=
  Reach.upd (m := m) (fun p hn => by cases p <;> first | exact absurd (within_mem hp rfl) hn | exact rfl) id h

theorem Reach.set_drives {ps : List Part} {n0 m : Node} {v : Tbl Drive} (h : Reach ps n0 m) (hp : within [.drives] ps = true) :
    Reach ps n0 { m with drives := v } :=
  Reach.upd (m := m) (fun p hn => by cases p <;> first | exact absurd (within_mem hp rfl) hn | exact rfl) id h

theorem Reach.set_line {ps : List Part} {n0 m : Node} {v : Line} (h : Reach ps n0 m) (hp : within [.line] ps = true) :
    Reach ps n0 { m with line := v } :=
  Reach.upd (m := m) (fun p hn => by cases p <;> first | exact absurd (within_mem hp rfl) hn | exact rfl) id h

theorem Reach.set_time {ps : List Part} {n0 m : Node} {v : Time} (h : Reach ps n0 m) (hp : within [.time] ps = true) :
    Reach ps n0 { m with time := v } :=
  Reach.upd (m := m) (fun p hn => by cases p <;> first | exact absurd (within_mem hp rfl) hn | exact rfl) id h

theorem Reach.set_zb {ps : List Part} {n0 m : Node} {v : Zb} (h : Reach ps n0 m) (hp : within [.zb] ps = true) :
    Reach ps n0 { m with zb := v } :=
  Reach.upd (m := m) (fun p hn => by cases p <;> first | exact absurd (within_mem hp rfl) hn | exact rfl) id h

theorem Reach.set_cust {ps : List Part} {n0 m : Node} {v : Custody} (h : Reach ps n0 m) (hp : within [.cust] ps = true) :
    Reach ps n0 { m with cust := v } :=
  Reach.upd (m := m) (fun p hn => by cases p <;> first | exact absurd (within_mem hp rfl) hn | exact rfl) id h

theorem Reach.set_lifts {ps : List Part} {n0 m : Node} {v : Tbl Lift} (h : Reach ps n0 m) (hp : within [.lifts] ps = true) :
    Reach ps n0 { m with lifts := v } :=
  Reach.upd (m := m) (fun p hn => by cases p <;> first | exact absurd (within_mem hp rfl) hn | exact rfl) id h

theorem Reach.set_gates {ps : List Part} {n0 m : Node} {v : Tbl Gate} (h : Reach ps n0 m) (hp : within [.gates] ps = true) :
    Reach ps n0 { m with gates := v } :=
  Reach.upd (m := m) (fun p hn => by cases p <;> first | exact absurd (within_mem hp rfl) hn | exact rfl) id h

theorem Reach.set_harv {ps : List Part} {n0 m : Node} {v : Harvest} (h : Reach ps n0 m) (hp : within [.harv] ps = true) :
    Reach ps n0 { m with harv := v } :=
  Reach.upd (m := m) (fun p hn => by cases p <;> first | exact absurd (within_mem hp rfl) hn | exact rfl) id h

theorem Reach.set_rcd {ps : List Part} {n0 m : Node} {v : Recorder} (h : Reach ps n0 m) (hp : within [.rcd] ps = true) :
    Reach ps n0 { m with rcd := v } :=
  Reach.upd (m := m) (fun p hn => by cases p <;> first | exact absurd (within_mem hp rfl) hn | exact rfl) id h

theorem Reach.set_safe {ps : List Part} {n0 m : Node} {v : Safety} (h : Reach ps n0 m) (hp : within [.safe] ps = true) :
    Reach ps n0 { m with safe := v } :=
  Reach.upd (m := m) (fun p hn => by cases p <;> first | exact absurd (within_mem hp rfl) hn | exact rfl) id h

theorem Reach.set_glean {ps : List Part} {n0 m : Node} {v : Gleaner} (h : Reach ps n0 m) (hp : within [.glean] ps = true) :
    Reach ps n0 { m with glean := v } :=
  Reach.upd (m := m) (fun p hn => by cases p <;> first | exact absurd (within_mem hp rfl) hn | exact rfl) id h

theorem Reach.set_sec {ps : List Part} {n0 m : Node} {v : Security} (h : Reach ps n0 m) (hp : within [.sec] ps = true) :
    Reach ps n0 { m with sec := v } :=
  Reach.upd (m := m) (fun p hn => by cases p <;> first | exact absurd (within_mem hp rfl) hn | exact rfl) id h

theorem Reach.set_hlth {ps : List Part} {n0 m : Node} {v : Health} (h : Reach ps n0 m) (hp : within [.hlth] ps = true) :
    Reach ps n0 { m with hlth := v } :=
  Reach.upd (m := m) (fun p hn => by cases p <;> first | exact absurd (within_mem hp rfl) hn | exact rfl) id h

theorem Reach.set_freeCtr {ps : List Part} {n0 m : Node} {v : Nat} (h : Reach ps n0 m) (hp : within [.freeCtr] ps = true) :
    Reach ps n0 { m with freeCtr := v } :=
  Reach.upd (m := m) (fun p hn => by cases p <;> first | exact absurd (within_mem hp rfl) hn | exact rfl) id h

end Sys2Proof.Machine
end

