-- ==== Sys2Proof/Laws/ReachA.lean ====
section
/-! SUPPORT. What each operation and each meaning can reach (Reach): one lemma each, part 1 of 4. An operation on the node
changes no part outside the list named and keeps memory canonical; a meaning the same of the state it answers. -/

set_option linter.unreachableTactic false
set_option linter.unusedTactic false
set_option linter.unusedVariables false

namespace Sys2Proof.Machine

theorem Node.setAxis_reach {ps : List Part} {n0 : Node} (x0 : Node) (x1 : Nat) (x2 : Axis) (hx0 : Reach ps n0 x0) (hT : within [.axes] ps = true) : Reach ps n0 (Node.setAxis x0 x1 x2) := by
  unfold Node.setAxis
  try dsimp only
  with_reducible repeat' first
    | assumption
    | intro _
    | exact within_trans (by decide) hT
    | apply Reach.ite
    | apply Reach.set_axes (m := x0)
    | apply Reach.foldl
    | split
    | apply Reach.set_axes

theorem Node.updAxis_reach {ps : List Part} {n0 : Node} (x0 : Node) (x1 : Nat) (x2 : Axis → Axis) (hx0 : Reach ps n0 x0) (hT : within [.axes] ps = true) : Reach ps n0 (Node.updAxis x0 x1 x2) := by
  unfold Node.updAxis
  try dsimp only
  with_reducible repeat' first
    | assumption
    | intro _
    | exact within_trans (by decide) hT
    | apply Node.setAxis_reach
    | apply Reach.ite
    | apply Reach.foldl
    | split

theorem Node.settle_reach {ps : List Part} {n0 : Node} (x0 : Node) (x1 : Nat) (hx0 : Reach ps n0 x0) (hT : within [.axes] ps = true) : Reach ps n0 (Node.settle x0 x1) := by
  unfold Node.settle
  try dsimp only
  with_reducible repeat' first
    | assumption
    | intro _
    | exact within_trans (by decide) hT
    | apply Node.updAxis_reach
    | apply Reach.ite
    | apply Reach.foldl
    | split

theorem Node.logWith_reach {ps : List Part} {n0 : Node} (x0 : Node) (x1 : Nat) (x2 : Recorder → Recorder) (x3 : Option Recorder) (hx0 : Reach ps n0 x0) (hT : within [.rcd] ps = true) : Reach ps n0 (Node.logWith x0 x1 x2 x3) := by
  have hr : ∀ r, Reach ps n0 { x0 with rcd := r } := fun r => Reach.set_rcd hx0 hT
  unfold Node.logWith
  split
  · exact hr _
  · split
    · exact hr _
    · exact hr _

theorem Node.logAt_reach {ps : List Part} {n0 : Node} (x0 : Node) (x1 : Nat) (x2 : Nat) (x3 : Nat) (x4 : Nat) (x5 : Nat) (hx0 : Reach ps n0 x0) (hT : within [.rcd] ps = true) : Reach ps n0 (Node.logAt x0 x1 x2 x3 x4 x5) := by
  exact Node.logWith_reach _ _ _ _ hx0 (within_trans (by decide) hT)

theorem Node.log_reach {ps : List Part} {n0 : Node} (x0 : Node) (x1 : Nat) (x2 : Nat) (x3 : Nat) (x4 : Nat) (hx0 : Reach ps n0 x0) (hT : within [.rcd] ps = true) : Reach ps n0 (Node.log x0 x1 x2 x3 x4) := by
  unfold Node.log
  try dsimp only
  with_reducible repeat' first
    | assumption
    | intro _
    | exact within_trans (by decide) hT
    | apply Node.logAt_reach
    | apply Reach.ite
    | apply Reach.foldl
    | split

theorem Node.abandonTable_reach {ps : List Part} {n0 : Node} (x0 : Node) (x1 : Nat) (hx0 : Reach ps n0 x0) (hT : within [.axes, .rcd] ps = true) : Reach ps n0 (Node.abandonTable x0 x1) := by
  unfold Node.abandonTable
  try dsimp only
  with_reducible repeat' first
    | assumption
    | intro _
    | exact within_trans (by decide) hT
    | apply Node.settle_reach
    | apply Node.updAxis_reach
    | apply Node.log_reach
    | apply Reach.ite
    | apply Reach.foldl
    | split

theorem Node.setMbx_reach {ps : List Part} {n0 : Node} (x0 : Node) (x1 : Nat) (x2 : Mbx) (hx0 : Reach ps n0 x0) (hT : within [.host] ps = true) : Reach ps n0 (Node.setMbx x0 x1 x2) := by
  unfold Node.setMbx
  try dsimp only
  with_reducible repeat' first
    | assumption
    | intro _
    | exact within_trans (by decide) hT
    | apply Reach.ite
    | apply Reach.set_host (m := x0)
    | apply Reach.foldl
    | split
    | apply Reach.set_host

theorem Node.free_reach {ps : List Part} {n0 : Node} (x0 : Node) (x1 : Nat) (hx0 : Reach ps n0 x0) (hT : within [.freeCtr] ps = true) : Reach ps n0 (Node.free x0 x1).2 := by
  unfold Node.free
  try dsimp only
  with_reducible repeat' first
    | assumption
    | intro _
    | exact within_trans (by decide) hT
    | apply Reach.ite
    | apply Reach.set_freeCtr (m := x0)
    | apply Reach.foldl
    | split
    | apply Reach.set_freeCtr

theorem Node.sessionRefused_reach {ps : List Part} {n0 : Node} (x0 : Node) (x1 : Nat) (x2 : Nat) (x3 : Nat) (x4 : List Byte) (hx0 : Reach ps n0 x0) (hT : within [.rcd, .freeCtr] ps = true) : Reach ps n0 (Node.sessionRefused x0 x1 x2 x3 x4) := by
  unfold Node.sessionRefused
  try dsimp only
  with_reducible repeat' first
    | assumption
    | intro _
    | exact within_trans (by decide) hT
    | apply Node.log_reach
    | apply Node.free_reach
    | refine Reach.ofSnd (by assumption) ?_
    | apply Reach.ite
    | apply Reach.foldl
    | split

theorem Node.write_reach {ps : List Part} {n0 : Node} (x0 : Node) (x1 : Nat) (x2 : List Byte) (hx0 : Reach ps n0 x0) (hT : within [.mem, .ram] ps = true) : Reach ps n0 (Node.write x0 x1 x2) := by
  refine hx0.trans ⟨fun p hp => ?_, fun h => Node.write_memOk h x1 x2⟩
  cases p <;> first | exact absurd (within_mem hT rfl) hp | exact rfl

theorem Node.freeTtl_reach {ps : List Part} {n0 : Node} (x0 : Node) (hx0 : Reach ps n0 x0) (hT : within [.freeCtr] ps = true) : Reach ps n0 (Node.freeTtl x0).2 := by
  unfold Node.freeTtl
  try dsimp only
  with_reducible repeat' first
    | assumption
    | intro _
    | exact within_trans (by decide) hT
    | apply Node.free_reach
    | refine Reach.ofSnd (by assumption) ?_
    | apply Reach.ite
    | apply Reach.foldl
    | split

theorem Node.newFrame_reach {ps : List Part} {n0 : Node} (x0 : Node) (x1 : Nat) (x2 : BitVec 16) (x3 : Nat) (x4 : Nat) (x5 : List Byte) (hx0 : Reach ps n0 x0) (hT : within [.line] ps = true) : Reach ps n0 (Node.newFrame x0 x1 x2 x3 x4 x5).2 := by
  unfold Node.newFrame
  try dsimp only
  with_reducible repeat' first
    | assumption
    | intro _
    | exact within_trans (by decide) hT
    | apply Reach.ite
    | apply Reach.set_line (m := x0)
    | apply Reach.foldl
    | split
    | apply Reach.set_line

theorem Node.setPort_reach {ps : List Part} {n0 : Node} (x0 : Node) (x1 : Nat) (x2 : Port) (hx0 : Reach ps n0 x0) (hT : within [.line] ps = true) : Reach ps n0 (Node.setPort x0 x1 x2) := by
  unfold Node.setPort
  try dsimp only
  with_reducible repeat' first
    | assumption
    | intro _
    | exact within_trans (by decide) hT
    | apply Reach.ite
    | apply Reach.set_line (m := x0)
    | apply Reach.foldl
    | split
    | apply Reach.set_line

theorem Node.updPort_reach {ps : List Part} {n0 : Node} (x0 : Node) (x1 : Nat) (x2 : Port → Port) (hx0 : Reach ps n0 x0) (hT : within [.line] ps = true) : Reach ps n0 (Node.updPort x0 x1 x2) := by
  unfold Node.updPort
  try dsimp only
  with_reducible repeat' first
    | assumption
    | intro _
    | exact within_trans (by decide) hT
    | apply Node.setPort_reach
    | apply Reach.ite
    | apply Reach.foldl
    | split

theorem Node.startFrame_reach {ps : List Part} {n0 : Node} (x0 : Node) (x1 : Nat) (x2 : Nat) (x3 : KFrame) (x4 : Nat) (hx0 : Reach ps n0 x0) (hT : within [.line] ps = true) : Reach ps n0 (Node.startFrame x0 x1 x2 x3 x4) := by
  unfold Node.startFrame
  try dsimp only
  with_reducible repeat' first
    | assumption
    | intro _
    | exact within_trans (by decide) hT
    | apply Node.updPort_reach
    | apply Reach.ite
    | apply Reach.set_line (m := x0)
    | apply Reach.foldl
    | split
    | apply Reach.set_line

theorem Node.txStep_reach {ps : List Part} {n0 : Node} (x0 : Node) (x1 : Nat) (x2 : Nat) (hx0 : Reach ps n0 x0) (hT : within [.line] ps = true) : ∀ m, Node.txStep x0 x1 x2 = some m → Reach ps n0 m := by
  intro m h
  unfold Node.txStep at h
  have hl : within [.line] ps = true := within_trans (by decide) hT
  repeat' first
    | (cases h; done)
    | (cases h; first | exact Node.setPort_reach _ _ _ hx0 hl | exact Node.startFrame_reach _ _ _ _ _ hx0 hl)
    | (obtain ⟨e, -, rfl⟩ := Option.map_eq_some_iff.mp h; exact Node.startFrame_reach _ _ _ _ _ hx0 hl)
    | split at h
    | dsimp only at h

theorem Node.txRun_reach {ps : List Part} {n0 : Node} (x0 : Nat) (x1 : Nat) (x2 : Nat) (x3 : Node) (hx3 : Reach ps n0 x3) (hT : within [.line] ps = true) : Reach ps n0 (Node.txRun x0 x1 x2 x3) := by
  induction x2 generalizing x3 with
  | zero => exact hx3
  | succ k ih =>
    unfold Node.txRun
    split
    · exact ih _ (Node.txStep_reach _ _ _ hx3 (within_trans (by decide) hT) _ (by assumption))
    · exact hx3

theorem Node.transmit_reach {ps : List Part} {n0 : Node} (x0 : Node) (x1 : Nat) (hx0 : Reach ps n0 x0) (hT : within [.line] ps = true) : Reach ps n0 (Node.transmit x0 x1) := by
  unfold Node.transmit
  try dsimp only
  with_reducible repeat' first
    | assumption
    | intro _
    | exact within_trans (by decide) hT
    | apply Node.updPort_reach
    | apply Node.txRun_reach
    | apply Reach.ite
    | apply Reach.foldl
    | split

theorem Node.enqueue_reach {ps : List Part} {n0 : Node} (x0 : Node) (x1 : Nat) (x2 : KFrame) (hx0 : Reach ps n0 x0) (hT : within [.line] ps = true) : Reach ps n0 (Node.enqueue x0 x1 x2) := by
  unfold Node.enqueue
  try dsimp only
  with_reducible repeat' first
    | assumption
    | intro _
    | exact within_trans (by decide) hT
    | apply Node.transmit_reach
    | apply Node.updPort_reach
    | apply Reach.ite
    | apply Reach.set_line (m := x0)
    | apply Reach.foldl
    | split
    | apply Reach.set_line

theorem Node.egress_reach {ps : List Part} {n0 : Node} (x0 : Node) (x1 : Nat) (x2 : KFrame) (hx0 : Reach ps n0 x0) (hT : within [.line] ps = true) : Reach ps n0 (Node.egress x0 x1 x2) := by
  unfold Node.egress
  try dsimp only
  with_reducible repeat' first
    | assumption
    | intro _
    | exact within_trans (by decide) hT
    | apply Node.enqueue_reach
    | apply Reach.ite
    | apply Reach.foldl
    | split

theorem Node.send_reach {ps : List Part} {n0 : Node} (x0 : Node) (x1 : Nat) (x2 : BitVec 16) (x3 : Nat) (x4 : List Byte) (hx0 : Reach ps n0 x0) (hT : within [.line, .freeCtr] ps = true) : Reach ps n0 (Node.send x0 x1 x2 x3 x4) := by
  unfold Node.send
  try dsimp only
  with_reducible repeat' first
    | assumption
    | intro _
    | exact within_trans (by decide) hT
    | apply Node.freeTtl_reach
    | apply Node.newFrame_reach
    | apply Node.egress_reach
    | refine Reach.ofSnd (by assumption) ?_
    | apply Reach.ite
    | apply Reach.foldl
    | split

theorem Node.putResp_reach {ps : List Part} {n0 : Node} (x0 : Node) (x1 : Nat) (x2 : List Byte) (x3 : List Byte) (hx0 : Reach ps n0 x0) (hT : within [.mem, .ram, .line, .freeCtr] ps = true) : Reach ps n0 (Node.putResp x0 x1 x2 x3) := by
  unfold Node.putResp
  try dsimp only
  with_reducible repeat' first
    | assumption
    | intro _
    | exact within_trans (by decide) hT
    | apply Node.write_reach
    | apply Node.send_reach
    | apply Reach.ite
    | apply Reach.foldl
    | split

theorem Node.complete_reach {ps : List Part} {n0 : Node} (x0 : Node) (x1 : Nat) (x2 : Nat) (x3 : Nat) (x4 : Bool) (x5 : List Byte) (hx0 : Reach ps n0 x0) (hT : within [.mem, .ram, .host, .line, .rcd, .freeCtr] ps = true) : Reach ps n0 (Node.complete x0 x1 x2 x3 x4 x5) := by
  unfold Node.complete
  try dsimp only
  with_reducible repeat' first
    | assumption
    | intro _
    | exact within_trans (by decide) hT
    | apply Node.sessionRefused_reach
    | apply Node.setMbx_reach
    | apply Node.putResp_reach
    | apply Reach.ite
    | apply Reach.set_host (m := x0)
    | apply Reach.foldl
    | split
    | apply Reach.set_host

theorem Node.releaseAnswers_reach {ps : List Part} {n0 : Node} (x0 : Node) (hx0 : Reach ps n0 x0) (hT : within [.mem, .ram, .host, .line, .rcd, .freeCtr] ps = true) : Reach ps n0 (Node.releaseAnswers x0) := by
  unfold Node.releaseAnswers
  try dsimp only
  with_reducible repeat' first
    | assumption
    | intro _
    | exact within_trans (by decide) hT
    | apply Node.complete_reach
    | apply Reach.ite
    | apply Reach.foldl
    | split

theorem Node.answerWith_reach {ps : List Part} {n0 : Node} (x0 : Node) (x1 : Nat) (x2 : Nat) (x3 : Nat) (x4 : Bool) (x5 : List Byte) (hx0 : Reach ps n0 x0) (hT : within [.mem, .ram, .host, .line, .rcd, .freeCtr] ps = true) : Reach ps n0 (Node.answerWith x0 x1 x2 x3 x4 x5) := by
  unfold Node.answerWith
  try dsimp only
  with_reducible repeat' first
    | assumption
    | intro _
    | exact within_trans (by decide) hT
    | apply Node.setMbx_reach
    | apply Node.releaseAnswers_reach
    | apply Node.complete_reach
    | apply Reach.ite
    | apply Reach.foldl
    | split

theorem Node.answer_reach {ps : List Part} {n0 : Node} (x0 : Node) (x1 : Nat) (x2 : Nat) (x3 : Nat) (x4 : List Byte) (hx0 : Reach ps n0 x0) (hT : within [.mem, .ram, .host, .line, .rcd, .freeCtr] ps = true) : Reach ps n0 (Node.answer x0 x1 x2 x3 x4) := by
  unfold Node.answer
  try dsimp only
  with_reducible repeat' first
    | assumption
    | intro _
    | exact within_trans (by decide) hT
    | apply Node.answerWith_reach
    | apply Reach.ite
    | apply Reach.foldl
    | split

theorem Node.updHost_reach {ps : List Part} {n0 : Node} (x0 : Node) (x1 : HostIf → HostIf) (hx0 : Reach ps n0 x0) (hT : within [.host] ps = true) : Reach ps n0 (Node.updHost x0 x1) := by
  unfold Node.updHost
  try dsimp only
  with_reducible repeat' first
    | assumption
    | intro _
    | exact within_trans (by decide) hT
    | apply Reach.ite
    | apply Reach.set_host (m := x0)
    | apply Reach.foldl
    | split
    | apply Reach.set_host

theorem Node.abortMbx_reach {ps : List Part} {n0 : Node} (x0 : Node) (x1 : Nat) (hx0 : Reach ps n0 x0) (hT : within [.mem, .ram, .host, .line, .rcd, .freeCtr] ps = true) : Reach ps n0 (Node.abortMbx x0 x1) := by
  unfold Node.abortMbx
  try dsimp only
  with_reducible repeat' first
    | assumption
    | intro _
    | exact within_trans (by decide) hT
    | apply Node.answer_reach
    | apply Node.sessionRefused_reach
    | apply Node.updHost_reach
    | apply Node.putResp_reach
    | apply Node.setMbx_reach
    | apply Reach.ite
    | apply Reach.foldl
    | split

theorem Node.updGlean_reach {ps : List Part} {n0 : Node} (x0 : Node) (x1 : Gleaner → Gleaner) (hx0 : Reach ps n0 x0) (hT : within [.glean] ps = true) : Reach ps n0 (Node.updGlean x0 x1) := by
  unfold Node.updGlean
  try dsimp only
  with_reducible repeat' first
    | assumption
    | intro _
    | exact within_trans (by decide) hT
    | apply Reach.ite
    | apply Reach.set_glean (m := x0)
    | apply Reach.foldl
    | split
    | apply Reach.set_glean

theorem Node.updFio_reach {ps : List Part} {n0 : Node} (x0 : Node) (x1 : FieldIo → FieldIo) (hx0 : Reach ps n0 x0) (hT : within [.fio] ps = true) : Reach ps n0 (Node.updFio x0 x1) := by
  unfold Node.updFio
  try dsimp only
  with_reducible repeat' first
    | assumption
    | intro _
    | exact within_trans (by decide) hT
    | apply Reach.ite
    | apply Reach.set_fio (m := x0)
    | apply Reach.foldl
    | split
    | apply Reach.set_fio

theorem Node.setInst_reach {ps : List Part} {n0 : Node} (x0 : Node) (x1 : Nat) (x2 : Inst) (hx0 : Reach ps n0 x0) (hT : within [.rcp] ps = true) : Reach ps n0 (Node.setInst x0 x1 x2) := by
  unfold Node.setInst
  try dsimp only
  with_reducible repeat' first
    | assumption
    | intro _
    | exact within_trans (by decide) hT
    | apply Reach.ite
    | apply Reach.set_rcp (m := x0)
    | apply Reach.foldl
    | split
    | apply Reach.set_rcp

theorem Node.judgeAct_reach {ps : List Part} {n0 : Node} (x0 : Node) (x1 : Nat) (x2 : T64) (hx0 : Reach ps n0 x0) (hT : within [.rcp, .rcd] ps = true) : Reach ps n0 (Node.judgeAct x0 x1 x2) := by
  unfold Node.judgeAct
  try dsimp only
  with_reducible repeat' first
    | assumption
    | intro _
    | exact within_trans (by decide) hT
    | apply Node.setInst_reach
    | apply Node.log_reach
    | apply Reach.ite
    | apply Reach.foldl
    | split

theorem Node.rejudge_reach {ps : List Part} {n0 : Node} (x0 : Node) (x1 : Nat) (hx0 : Reach ps n0 x0) (hT : within [.rcp, .rcd] ps = true) : Reach ps n0 (Node.rejudge x0 x1) := by
  unfold Node.rejudge
  try dsimp only
  with_reducible repeat' first
    | assumption
    | intro _
    | exact within_trans (by decide) hT
    | apply Node.judgeAct_reach
    | apply Reach.ite
    | apply Reach.foldl
    | split

theorem Node.updInst_reach {ps : List Part} {n0 : Node} (x0 : Node) (x1 : Nat) (x2 : Inst → Inst) (hx0 : Reach ps n0 x0) (hT : within [.rcp] ps = true) : Reach ps n0 (Node.updInst x0 x1 x2) := by
  unfold Node.updInst
  try dsimp only
  with_reducible repeat' first
    | assumption
    | intro _
    | exact within_trans (by decide) hT
    | apply Node.setInst_reach
    | apply Reach.ite
    | apply Reach.foldl
    | split

theorem Node.ok_reach {ps : List Part} {n0 : Node} (x0 : Node) (x1 : Nat) (x2 : List Byte) (hx0 : Reach ps n0 x0) (hT : within [.mem, .ram, .host, .line, .rcd, .freeCtr] ps = true) : Reach ps n0 (Node.ok x0 x1 x2) := by
  unfold Node.ok
  try dsimp only
  with_reducible repeat' first
    | assumption
    | intro _
    | exact within_trans (by decide) hT
    | apply Node.answer_reach
    | apply Reach.ite
    | apply Reach.foldl
    | split

theorem Node.endInst_reach {ps : List Part} {n0 : Node} (x0 : Node) (x1 : Nat) (x2 : Bool) (hx0 : Reach ps n0 x0) (hT : within [.mem, .ram, .host, .rcp, .line, .rcd, .freeCtr] ps = true) : Reach ps n0 (Node.endInst x0 x1 x2) := by
  unfold Node.endInst
  try dsimp only
  with_reducible repeat' first
    | assumption
    | intro _
    | exact within_trans (by decide) hT
    | apply Node.updInst_reach
    | apply Node.ok_reach
    | apply Reach.ite
    | apply Reach.foldl
    | split

theorem Node.stopInst_reach {ps : List Part} {n0 : Node} (x0 : Node) (x1 : Nat) (x2 : Nat) (x3 : Nat) (hx0 : Reach ps n0 x0) (hT : within [.mem, .ram, .host, .rcp, .line, .rcd, .freeCtr] ps = true) : Reach ps n0 (Node.stopInst x0 x1 x2 x3) := by
  unfold Node.stopInst
  try dsimp only
  with_reducible repeat' first
    | assumption
    | intro _
    | exact within_trans (by decide) hT
    | apply Node.ok_reach
    | apply Node.endInst_reach
    | apply Node.updInst_reach
    | apply Reach.ite
    | apply Reach.foldl
    | split

theorem Node.resumeInsts_reach {ps : List Part} {n0 : Node} (x0 : Node) (hx0 : Reach ps n0 x0) (hT : within [.mem, .ram, .host, .rcp, .line, .rcd, .freeCtr] ps = true) : Reach ps n0 (Node.resumeInsts x0) := by
  unfold Node.resumeInsts
  try dsimp only
  with_reducible repeat' first
    | assumption
    | intro _
    | exact within_trans (by decide) hT
    | apply Node.setInst_reach
    | apply Node.rejudge_reach
    | apply Node.updInst_reach
    | apply Node.stopInst_reach
    | apply Reach.ite
    | apply Reach.foldl
    | split

theorem Node.updZb_reach {ps : List Part} {n0 : Node} (x0 : Node) (x1 : Zb → Zb) (hx0 : Reach ps n0 x0) (hT : within [.zb] ps = true) : Reach ps n0 (Node.updZb x0 x1) := by
  unfold Node.updZb
  try dsimp only
  with_reducible repeat' first
    | assumption
    | intro _
    | exact within_trans (by decide) hT
    | apply Reach.ite
    | apply Reach.set_zb (m := x0)
    | apply Reach.foldl
    | split
    | apply Reach.set_zb

theorem Node.setOut_reach {ps : List Part} {n0 : Node} (x0 : Node) (x1 : Nat) (x2 : OutPin) (hx0 : Reach ps n0 x0) (hT : within [.fio] ps = true) : Reach ps n0 (Node.setOut x0 x1 x2) := by
  unfold Node.setOut
  try dsimp only
  with_reducible repeat' first
    | assumption
    | intro _
    | exact within_trans (by decide) hT
    | apply Reach.ite
    | apply Reach.set_fio (m := x0)
    | apply Reach.foldl
    | split
    | apply Reach.set_fio

theorem Node.force_reach {ps : List Part} {n0 : Node} (x0 : Node) (x1 : Nat) (x2 : Nat) (x3 : Nat) (hx0 : Reach ps n0 x0) (hT : within [.fio] ps = true) : Reach ps n0 (Node.force x0 x1 x2 x3) := by
  unfold Node.force
  try dsimp only
  with_reducible repeat' first
    | assumption
    | intro _
    | exact within_trans (by decide) hT
    | apply Node.setOut_reach
    | apply Reach.ite
    | apply Reach.foldl
    | split

theorem Node.driveOut_reach {ps : List Part} {n0 : Node} (x0 : Node) (x1 : Nat) (hx0 : Reach ps n0 x0) (hT : within [.fio] ps = true) : Reach ps n0 (Node.driveOut x0 x1) := by
  unfold Node.driveOut
  try dsimp only
  with_reducible repeat' first
    | assumption
    | intro _
    | exact within_trans (by decide) hT
    | apply Node.force_reach
    | apply Reach.ite
    | apply Reach.foldl
    | split

theorem Node.driveStall_reach {ps : List Part} {n0 : Node} (x0 : Node) (x1 : Nat) (hx0 : Reach ps n0 x0) (hT : within [.fio] ps = true) : Reach ps n0 (Node.driveStall x0 x1) := by
  unfold Node.driveStall
  try dsimp only
  with_reducible repeat' first
    | assumption
    | intro _
    | exact within_trans (by decide) hT
    | apply Node.driveOut_reach
    | apply Reach.ite
    | apply Reach.foldl
    | split

theorem Node.setLift_reach {ps : List Part} {n0 : Node} (x0 : Node) (x1 : Nat) (x2 : Lift) (hx0 : Reach ps n0 x0) (hT : within [.lifts] ps = true) : Reach ps n0 (Node.setLift x0 x1 x2) := by
  unfold Node.setLift
  try dsimp only
  with_reducible repeat' first
    | assumption
    | intro _
    | exact within_trans (by decide) hT
    | apply Reach.ite
    | apply Reach.set_lifts (m := x0)
    | apply Reach.foldl
    | split
    | apply Reach.set_lifts

theorem Node.updLift_reach {ps : List Part} {n0 : Node} (x0 : Node) (x1 : Nat) (x2 : Lift → Lift) (hx0 : Reach ps n0 x0) (hT : within [.lifts] ps = true) : Reach ps n0 (Node.updLift x0 x1 x2) := by
  unfold Node.updLift
  try dsimp only
  with_reducible repeat' first
    | assumption
    | intro _
    | exact within_trans (by decide) hT
    | apply Node.setLift_reach
    | apply Reach.ite
    | apply Reach.foldl
    | split

theorem Node.losePosition_reach {ps : List Part} {n0 : Node} (x0 : Node) (x1 : Nat) (x2 : Option Nat) (hx0 : Reach ps n0 x0) (hT : within [.axes, .rcd, .freeCtr] ps = true) : Reach ps n0 (Node.losePosition x0 x1 x2) := by
  unfold Node.losePosition
  try dsimp only
  with_reducible repeat' first
    | assumption
    | intro _
    | exact within_trans (by decide) hT
    | apply Node.updAxis_reach
    | apply Node.log_reach
    | apply Node.free_reach
    | refine Reach.ofSnd (by assumption) ?_
    | apply Reach.ite
    | apply Reach.foldl
    | split

theorem Node.brakeAxis_reach {ps : List Part} {n0 : Node} (x0 : Node) (x1 : Nat) (x2 : Nat) (x3 : Nat) (x4 : StopBy) (hx0 : Reach ps n0 x0) (hT : within [.axes, .rcd, .freeCtr] ps = true) : Reach ps n0 (Node.brakeAxis x0 x1 x2 x3 x4) := by
  unfold Node.brakeAxis
  try dsimp only
  with_reducible repeat' first
    | assumption
    | intro _
    | exact within_trans (by decide) hT
    | apply Node.losePosition_reach
    | apply Node.abandonTable_reach
    | apply Node.updAxis_reach
    | apply Reach.ite
    | apply Reach.foldl
    | split

theorem Node.rampFrom_reach {ps : List Part} {n0 : Node} (x0 : Node) (x1 : Nat) (x2 : StopBy) (hx0 : Reach ps n0 x0) (hT : within [.axes, .rcd, .freeCtr] ps = true) : Reach ps n0 (Node.rampFrom x0 x1 x2) := by
  unfold Node.rampFrom
  try dsimp only
  with_reducible repeat' first
    | assumption
    | intro _
    | exact within_trans (by decide) hT
    | apply Node.brakeAxis_reach
    | apply Reach.ite
    | apply Reach.foldl
    | split

theorem Node.rampStop_reach {ps : List Part} {n0 : Node} (x0 : Node) (x1 : Nat) (x2 : StopBy) (hx0 : Reach ps n0 x0) (hT : within [.axes, .rcd, .freeCtr] ps = true) : Reach ps n0 (Node.rampStop x0 x1 x2) := by
  unfold Node.rampStop
  try dsimp only
  with_reducible repeat' first
    | assumption
    | intro _
    | exact within_trans (by decide) hT
    | apply Node.rampFrom_reach
    | apply Node.settle_reach
    | apply Reach.ite
    | apply Reach.foldl
    | split

theorem Node.sampleLift_reach {ps : List Part} {n0 : Node} (x0 : Node) (x1 : Nat) (hx0 : Reach ps n0 x0) (hT : within [.lifts] ps = true) : Reach ps n0 (Node.sampleLift x0 x1) := by
  unfold Node.sampleLift
  try dsimp only
  with_reducible repeat' first
    | assumption
    | intro _
    | exact within_trans (by decide) hT
    | apply Node.updLift_reach
    | apply Reach.ite
    | apply Reach.foldl
    | split

theorem Node.setDrv_reach {ps : List Part} {n0 : Node} (x0 : Node) (x1 : Nat) (x2 : Drive) (hx0 : Reach ps n0 x0) (hT : within [.drives] ps = true) : Reach ps n0 (Node.setDrv x0 x1 x2) := by
  unfold Node.setDrv
  try dsimp only
  with_reducible repeat' first
    | assumption
    | intro _
    | exact within_trans (by decide) hT
    | apply Reach.ite
    | apply Reach.set_drives (m := x0)
    | apply Reach.foldl
    | split
    | apply Reach.set_drives

theorem Node.coilsOn_reach {ps : List Part} {n0 : Node} (x0 : Node) (x1 : Nat) (hx0 : Reach ps n0 x0) (hT : within [.drives] ps = true) : Reach ps n0 (Node.coilsOn x0 x1) := by
  unfold Node.coilsOn
  try dsimp only
  with_reducible repeat' first
    | assumption
    | intro _
    | exact within_trans (by decide) hT
    | apply Node.setDrv_reach
    | apply Reach.ite
    | apply Reach.foldl
    | split

theorem Node.leaveStandstill_reach {ps : List Part} {n0 : Node} (x0 : Node) (x1 : Nat) (hx0 : Reach ps n0 x0) (hT : within [.axes, .drives] ps = true) : Reach ps n0 (Node.leaveStandstill x0 x1) := by
  unfold Node.leaveStandstill
  try dsimp only
  with_reducible repeat' first
    | assumption
    | intro _
    | exact within_trans (by decide) hT
    | apply Node.setDrv_reach
    | apply Node.coilsOn_reach
    | apply Node.updAxis_reach
    | apply Reach.ite
    | apply Reach.foldl
    | split

theorem Node.moveTo_reach {ps : List Part} {n0 : Node} (x0 : Node) (x1 : Nat) (x2 : Int) (x3 : Int × Nat × Nat × Nat) (hx0 : Reach ps n0 x0) (hT : within [.axes, .rcd] ps = true) : Reach ps n0 (Node.moveTo x0 x1 x2 x3).2 := by
  unfold Node.moveTo
  try dsimp only
  with_reducible repeat' first
    | assumption
    | intro _
    | exact within_trans (by decide) hT
    | apply Node.settle_reach
    | apply Node.updAxis_reach
    | apply Node.log_reach
    | apply Reach.ite
    | apply Reach.foldl
    | split

theorem Node.defaultMove_reach {ps : List Part} {n0 : Node} (x0 : Node) (x1 : Nat) (x2 : Int) (hx0 : Reach ps n0 x0) (hT : within [.axes, .drives, .rcd] ps = true) : Reach ps n0 (Node.defaultMove x0 x1 x2) := by
  unfold Node.defaultMove
  try dsimp only
  with_reducible repeat' first
    | assumption
    | intro _
    | exact within_trans (by decide) hT
    | apply Node.leaveStandstill_reach
    | apply Node.abandonTable_reach
    | apply Node.moveTo_reach
    | refine Reach.ofSnd (by assumption) ?_
    | apply Reach.ite
    | apply Reach.foldl
    | split

theorem Node.seeBelt_reach {ps : List Part} {n0 : Node} (x0 : Node) (x1 : Nat) (hx0 : Reach ps n0 x0) (hT : within [.cust] ps = true) : Reach ps n0 (Node.seeBelt x0 x1) := by
  unfold Node.seeBelt
  try dsimp only
  with_reducible repeat' first
    | assumption
    | intro _
    | exact within_trans (by decide) hT
    | apply Reach.ite
    | apply Reach.set_cust (m := x0)
    | apply Reach.foldl
    | split
    | apply Reach.set_cust

theorem Node.seeCounters_reach {ps : List Part} {n0 : Node} (x0 : Node) (x1 : Nat) (hx0 : Reach ps n0 x0) (hT : within [.stalls] ps = true) : Reach ps n0 (Node.seeCounters x0 x1) := by
  unfold Node.seeCounters
  try dsimp only
  with_reducible repeat' first
    | assumption
    | intro _
    | exact within_trans (by decide) hT
    | apply Reach.ite
    | apply Reach.set_stalls (m := x0)
    | apply Reach.foldl
    | split
    | apply Reach.set_stalls

theorem Node.repin_reach {ps : List Part} {n0 : Node} (x0 : Node) (x1 : Nat) (hx0 : Reach ps n0 x0) (hT : within [.cache] ps = true) : Reach ps n0 (Node.repin x0 x1) := by
  unfold Node.repin
  try dsimp only
  with_reducible repeat' first
    | assumption
    | intro _
    | exact within_trans (by decide) hT
    | apply Reach.ite
    | apply Reach.set_cache (m := x0)
    | apply Reach.foldl
    | split
    | apply Reach.set_cache

theorem Node.markDirty_reach {ps : List Part} {n0 : Node} (x0 : Node) (x1 : Nat) (hx0 : Reach ps n0 x0) (hT : within [.cache] ps = true) : Reach ps n0 (Node.markDirty x0 x1) := by
  unfold Node.markDirty
  try dsimp only
  with_reducible repeat' first
    | assumption
    | intro _
    | exact within_trans (by decide) hT
    | apply Reach.ite
    | apply Reach.set_cache (m := x0)
    | apply Reach.foldl
    | split
    | apply Reach.set_cache

theorem Node.setStall_reach {ps : List Part} {n0 : Node} (x0 : Node) (x1 : Nat) (x2 : Stall) (hx0 : Reach ps n0 x0) (hT : within [.stalls] ps = true) : Reach ps n0 (Node.setStall x0 x1 x2) := by
  unfold Node.setStall
  try dsimp only
  with_reducible repeat' first
    | assumption
    | intro _
    | exact within_trans (by decide) hT
    | apply Reach.ite
    | apply Reach.set_stalls (m := x0)
    | apply Reach.foldl
    | split
    | apply Reach.set_stalls

theorem Node.putStall_reach {ps : List Part} {n0 : Node} (x0 : Node) (x1 : Nat) (x2 : Stall) (hx0 : Reach ps n0 x0) (hT : within [.stalls, .cache, .cust] ps = true) : Reach ps n0 (Node.putStall x0 x1 x2) := by
  unfold Node.putStall
  try dsimp only
  with_reducible repeat' first
    | assumption
    | intro _
    | exact within_trans (by decide) hT
    | apply Node.seeBelt_reach
    | apply Node.seeCounters_reach
    | apply Node.repin_reach
    | apply Node.markDirty_reach
    | apply Node.setStall_reach
    | apply Reach.ite
    | apply Reach.foldl
    | split

theorem Node.updStall_reach {ps : List Part} {n0 : Node} (x0 : Node) (x1 : Nat) (x2 : Stall → Stall) (hx0 : Reach ps n0 x0) (hT : within [.stalls, .cache, .cust] ps = true) : Reach ps n0 (Node.updStall x0 x1 x2) := by
  unfold Node.updStall
  try dsimp only
  with_reducible repeat' first
    | assumption
    | intro _
    | exact within_trans (by decide) hT
    | apply Node.putStall_reach
    | apply Reach.ite
    | apply Reach.foldl
    | split

theorem Node.zbTxDropped_reach {ps : List Part} {n0 : Node} (x0 : Node) (x1 : Nat) (hx0 : Reach ps n0 x0) (hT : within [.zb, .rcd] ps = true) : Reach ps n0 (Node.zbTxDropped x0 x1) := by
  unfold Node.zbTxDropped
  try dsimp only
  with_reducible repeat' first
    | assumption
    | intro _
    | exact within_trans (by decide) hT
    | apply Node.log_reach
    | apply Node.updZb_reach
    | apply Reach.ite
    | apply Reach.foldl
    | split

theorem Node.zbPlace_reach {ps : List Part} {n0 : Node} (x0 : Node) (x1 : Nat) (hx0 : Reach ps n0 x0) (hT : within [.zb, .rcd] ps = true) : Reach ps n0 (Node.zbPlace x0 x1) := by
  unfold Node.zbPlace
  try dsimp only
  with_reducible repeat' first
    | assumption
    | intro _
    | exact within_trans (by decide) hT
    | apply Node.updZb_reach
    | apply Node.zbTxDropped_reach
    | apply Reach.ite
    | apply Reach.foldl
    | split

theorem Node.effect_reach {ps : List Part} {n0 : Node} (x0 : Node) (x1 : Nat) (x2 : W64) (x3 : T64) (hx0 : Reach ps n0 x0) (hT : within [.stalls, .cache, .fio, .zb, .cust, .rcd] ps = true) : Reach ps n0 (Node.effect x0 x1 x2 x3) := by
  unfold Node.effect
  try dsimp only
  with_reducible repeat' first
    | assumption
    | intro _
    | exact within_trans (by decide) hT
    | apply Node.putStall_reach
    | apply Node.driveStall_reach
    | apply Node.zbPlace_reach
    | apply Reach.ite
    | apply Reach.foldl
    | split

theorem Node.engineWrite_reach {ps : List Part} {n0 : Node} (x0 : Node) (x1 : Nat) (x2 : W64) (x3 : T64) (hx0 : Reach ps n0 x0) (hT : within [.stalls, .cache, .fio, .zb, .cust, .rcd] ps = true) : Reach ps n0 (Node.engineWrite x0 x1 x2 x3) := by
  unfold Node.engineWrite
  try dsimp only
  with_reducible repeat' first
    | assumption
    | intro _
    | exact within_trans (by decide) hT
    | apply Node.updStall_reach
    | apply Node.effect_reach
    | apply Reach.ite
    | apply Reach.foldl
    | split

theorem Node.driveCar_reach {ps : List Part} {n0 : Node} (x0 : Node) (x1 : Nat) (x2 : Int) (hx0 : Reach ps n0 x0) (hT : within [.stalls, .cache, .fio, .axes, .drives, .zb, .cust, .lifts, .rcd] ps = true) : Reach ps n0 (Node.driveCar x0 x1 x2) := by
  unfold Node.driveCar
  try dsimp only
  with_reducible repeat' first
    | assumption
    | intro _
    | exact within_trans (by decide) hT
    | apply Node.sampleLift_reach
    | apply Node.settle_reach
    | apply Node.defaultMove_reach
    | apply Node.updLift_reach
    | apply Node.engineWrite_reach
    | apply Reach.ite
    | apply Reach.foldl
    | split

theorem Node.stopCar_reach {ps : List Part} {n0 : Node} (x0 : Node) (x1 : Nat) (hx0 : Reach ps n0 x0) (hT : within [.stalls, .cache, .fio, .axes, .drives, .zb, .cust, .lifts, .rcd, .freeCtr] ps = true) : Reach ps n0 (Node.stopCar x0 x1) := by
  unfold Node.stopCar
  try dsimp only
  with_reducible repeat' first
    | assumption
    | intro _
    | exact within_trans (by decide) hT
    | apply Node.rampStop_reach
    | apply Node.driveCar_reach
    | apply Reach.ite
    | apply Reach.foldl
    | split

theorem Node.haltLift_reach {ps : List Part} {n0 : Node} (x0 : Node) (x1 : Nat) (x2 : Nat) (hx0 : Reach ps n0 x0) (hT : within [.stalls, .cache, .fio, .axes, .drives, .zb, .cust, .lifts, .rcd, .freeCtr] ps = true) : Reach ps n0 (Node.haltLift x0 x1 x2) := by
  unfold Node.haltLift
  try dsimp only
  with_reducible repeat' first
    | assumption
    | intro _
    | exact within_trans (by decide) hT
    | apply Node.updLift_reach
    | apply Node.stopCar_reach
    | apply Node.log_reach
    | apply Reach.ite
    | apply Reach.foldl
    | split

theorem Node.setGate_reach {ps : List Part} {n0 : Node} (x0 : Node) (x1 : Nat) (x2 : Gate) (hx0 : Reach ps n0 x0) (hT : within [.gates] ps = true) : Reach ps n0 (Node.setGate x0 x1 x2) := by
  unfold Node.setGate
  try dsimp only
  with_reducible repeat' first
    | assumption
    | intro _
    | exact within_trans (by decide) hT
    | apply Reach.ite
    | apply Reach.set_gates (m := x0)
    | apply Reach.foldl
    | split
    | apply Reach.set_gates

theorem Node.updGate_reach {ps : List Part} {n0 : Node} (x0 : Node) (x1 : Nat) (x2 : Gate → Gate) (hx0 : Reach ps n0 x0) (hT : within [.gates] ps = true) : Reach ps n0 (Node.updGate x0 x1 x2) := by
  unfold Node.updGate
  try dsimp only
  with_reducible repeat' first
    | assumption
    | intro _
    | exact within_trans (by decide) hT
    | apply Node.setGate_reach
    | apply Reach.ite
    | apply Reach.foldl
    | split

theorem Node.setLoop_reach {ps : List Part} {n0 : Node} (x0 : Node) (x1 : Nat) (x2 : Loop) (hx0 : Reach ps n0 x0) (hT : within [.loops] ps = true) : Reach ps n0 (Node.setLoop x0 x1 x2) := by
  unfold Node.setLoop
  try dsimp only
  with_reducible repeat' first
    | assumption
    | intro _
    | exact within_trans (by decide) hT
    | apply Reach.ite
    | apply Reach.set_loops (m := x0)
    | apply Reach.foldl
    | split
    | apply Reach.set_loops

theorem Node.writeSink_reach {ps : List Part} {n0 : Node} (x0 : Node) (x1 : Nat) (x2 : Nat) (x3 : T64) (hx0 : Reach ps n0 x0) (hT : within [.stalls, .cache, .fio, .zb, .cust, .rcd] ps = true) : Reach ps n0 (Node.writeSink x0 x1 x2 x3) := by
  unfold Node.writeSink
  try dsimp only
  with_reducible repeat' first
    | assumption
    | intro _
    | exact within_trans (by decide) hT
    | apply Node.engineWrite_reach
    | apply Reach.ite
    | apply Reach.foldl
    | split

theorem Node.restSink_reach {ps : List Part} {n0 : Node} (x0 : Node) (x1 : Nat) (hx0 : Reach ps n0 x0) (hT : within [.stalls, .cache, .fio, .zb, .cust, .rcd] ps = true) : Reach ps n0 (Node.restSink x0 x1) := by
  unfold Node.restSink
  try dsimp only
  with_reducible repeat' first
    | assumption
    | intro _
    | exact within_trans (by decide) hT
    | apply Node.writeSink_reach
    | apply Reach.ite
    | apply Reach.foldl
    | split

theorem Node.restNow_reach {ps : List Part} {n0 : Node} (x0 : Node) (x1 : Nat) (hx0 : Reach ps n0 x0) (hT : within [.stalls, .cache, .loops, .fio, .zb, .cust, .rcd] ps = true) : Reach ps n0 (Node.restNow x0 x1) := by
  unfold Node.restNow
  try dsimp only
  with_reducible repeat' first
    | assumption
    | intro _
    | exact within_trans (by decide) hT
    | apply Node.setLoop_reach
    | apply Node.restSink_reach
    | apply Reach.ite
    | apply Reach.foldl
    | split

theorem Node.holdAction_reach {ps : List Part} {n0 : Node} (x0 : Node) (x1 : Nat) (hx0 : Reach ps n0 x0) (hT : within [.stalls, .cache, .loops, .fio, .axes, .drives, .zb, .cust, .lifts, .gates, .rcd, .freeCtr] ps = true) : Reach ps n0 (Node.holdAction x0 x1) := by
  unfold Node.holdAction
  try dsimp only
  with_reducible repeat' first
    | assumption
    | intro _
    | exact within_trans (by decide) hT
    | apply Node.driveStall_reach
    | apply Node.haltLift_reach
    | apply Node.updGate_reach
    | apply Node.restNow_reach
    | apply Node.setLoop_reach
    | apply Node.updStall_reach
    | apply Reach.ite
    | apply Reach.foldl
    | split

theorem Node.beginHold_reach {ps : List Part} {n0 : Node} (x0 : Node) (x1 : Nat) (x2 : HoldCause) (hx0 : Reach ps n0 x0) (hT : within [.stalls, .cache, .loops, .fio, .axes, .drives, .zb, .cust, .lifts, .gates, .rcd, .freeCtr] ps = true) : Reach ps n0 (Node.beginHold x0 x1 x2) := by
  unfold Node.beginHold
  try dsimp only
  with_reducible repeat' first
    | assumption
    | intro _
    | exact within_trans (by decide) hT
    | apply Node.holdAction_reach
    | apply Node.putStall_reach
    | apply Reach.ite
    | apply Reach.foldl
    | split

theorem Node.sinkRuns_reach {ps : List Part} {n0 : Node} (x0 : Node) (x1 : Nat) (hx0 : Reach ps n0 x0) (hT : within [.stalls, .cache, .loops, .fio, .zb, .cust, .rcd] ps = true) : Reach ps n0 (Node.sinkRuns x0 x1) := by
  unfold Node.sinkRuns
  try dsimp only
  with_reducible repeat' first
    | assumption
    | intro _
    | exact within_trans (by decide) hT
    | apply Node.restNow_reach
    | apply Reach.ite
    | apply Reach.foldl
    | split

theorem Node.driveGate_reach {ps : List Part} {n0 : Node} (x0 : Node) (x1 : Nat) (x2 : Bool) (hx0 : Reach ps n0 x0) (hT : within [.stalls, .cache, .fio, .axes, .drives, .zb, .cust, .gates, .rcd] ps = true) : Reach ps n0 (Node.driveGate x0 x1 x2) := by
  unfold Node.driveGate
  try dsimp only
  with_reducible repeat' first
    | assumption
    | intro _
    | exact within_trans (by decide) hT
    | apply Node.defaultMove_reach
    | apply Node.engineWrite_reach
    | apply Node.updGate_reach
    | apply Reach.ite
    | apply Reach.foldl
    | split

theorem Node.showGate_reach {ps : List Part} {n0 : Node} (x0 : Node) (x1 : Nat) (hx0 : Reach ps n0 x0) (hT : within [.stalls, .cache, .cust] ps = true) : Reach ps n0 (Node.showGate x0 x1) := by
  unfold Node.showGate
  try dsimp only
  with_reducible repeat' first
    | assumption
    | intro _
    | exact within_trans (by decide) hT
    | apply Node.updStall_reach
    | apply Reach.ite
    | apply Reach.foldl
    | split

theorem Node.gateEnter_reach {ps : List Part} {n0 : Node} (x0 : Node) (x1 : Nat) (x2 : GateSt) (hx0 : Reach ps n0 x0) (hT : within [.stalls, .cache, .cust, .gates] ps = true) : Reach ps n0 (Node.gateEnter x0 x1 x2) := by
  unfold Node.gateEnter
  try dsimp only
  with_reducible repeat' first
    | assumption
    | intro _
    | exact within_trans (by decide) hT
    | apply Node.showGate_reach
    | apply Node.updGate_reach
    | apply Reach.ite
    | apply Reach.foldl
    | split

theorem Node.closeGate_reach {ps : List Part} {n0 : Node} (x0 : Node) (x1 : Nat) (hx0 : Reach ps n0 x0) (hT : within [.stalls, .cache, .fio, .axes, .drives, .zb, .cust, .gates, .rcd] ps = true) : Reach ps n0 (Node.closeGate x0 x1) := by
  unfold Node.closeGate
  try dsimp only
  with_reducible repeat' first
    | assumption
    | intro _
    | exact within_trans (by decide) hT
    | apply Node.updGate_reach
    | apply Node.driveGate_reach
    | apply Node.gateEnter_reach
    | apply Reach.ite
    | apply Reach.foldl
    | split

theorem Node.sfRequest_reach {ps : List Part} {n0 : Node} (x0 : Node) (x1 : Nat) (x2 : Nat) (hx0 : Reach ps n0 x0) (hT : within [.safe] ps = true) : Reach ps n0 (Node.sfRequest x0 x1 x2) := by
  unfold Node.sfRequest
  try dsimp only
  with_reducible repeat' first
    | assumption
    | intro _
    | exact within_trans (by decide) hT
    | apply Reach.ite
    | apply Reach.set_safe (m := x0)
    | apply Reach.foldl
    | split
    | apply Reach.set_safe

theorem Node.moveAt_reach {ps : List Part} {n0 : Node} (x0 : Node) (x1 : Nat) (x2 : Int) (x3 : Int × Nat × Nat × Nat) (hx0 : Reach ps n0 x0) (hT : within [.axes] ps = true) : Reach ps n0 (Node.moveAt x0 x1 x2 x3) := by
  unfold Node.moveAt
  try dsimp only
  with_reducible repeat' first
    | assumption
    | intro _
    | exact within_trans (by decide) hT
    | apply Node.updAxis_reach
    | apply Node.settle_reach
    | apply Reach.ite
    | apply Reach.foldl
    | split

theorem Node.travelTo_reach {ps : List Part} {n0 : Node} (x0 : Node) (x1 : Nat) (x2 : Nat) (hx0 : Reach ps n0 x0) (hT : within [.stalls, .cache, .fio, .axes, .drives, .zb, .cust, .lifts, .rcd] ps = true) : Reach ps n0 (Node.travelTo x0 x1 x2) := by
  unfold Node.travelTo
  try dsimp only
  with_reducible repeat' first
    | assumption
    | intro _
    | exact within_trans (by decide) hT
    | apply Node.updLift_reach
    | apply Node.driveCar_reach
    | apply Reach.ite
    | apply Reach.foldl
    | split

theorem Node.depart_reach {ps : List Part} {n0 : Node} (x0 : Node) (x1 : Nat) (hx0 : Reach ps n0 x0) (hT : within [.stalls, .cache, .fio, .axes, .drives, .zb, .cust, .lifts, .rcd, .safe] ps = true) : Reach ps n0 (Node.depart x0 x1) := by
  unfold Node.depart
  try dsimp only
  with_reducible repeat' first
    | assumption
    | intro _
    | exact within_trans (by decide) hT
    | apply Node.sfRequest_reach
    | apply Node.updLift_reach
    | apply Node.leaveStandstill_reach
    | apply Node.moveAt_reach
    | apply Node.driveCar_reach
    | apply Node.travelTo_reach
    | apply Reach.ite
    | apply Reach.foldl
    | split

theorem Node.departTo_reach {ps : List Part} {n0 : Node} (x0 : Node) (x1 : Nat) (x2 : Nat) (x3 : Bool) (hx0 : Reach ps n0 x0) (hT : within [.stalls, .cache, .fio, .axes, .drives, .zb, .cust, .lifts, .gates, .rcd, .safe] ps = true) : Reach ps n0 (Node.departTo x0 x1 x2 x3) := by
  unfold Node.departTo
  try dsimp only
  with_reducible repeat' first
    | assumption
    | intro _
    | exact within_trans (by decide) hT
    | apply Node.updLift_reach
    | apply Node.closeGate_reach
    | apply Node.depart_reach
    | apply Reach.ite
    | apply Reach.foldl
    | split

theorem Node.unhaltLift_reach {ps : List Part} {n0 : Node} (x0 : Node) (x1 : Nat) (hx0 : Reach ps n0 x0) (hT : within [.stalls, .cache, .fio, .axes, .drives, .zb, .cust, .lifts, .gates, .rcd, .safe] ps = true) : Reach ps n0 (Node.unhaltLift x0 x1) := by
  unfold Node.unhaltLift
  try dsimp only
  with_reducible repeat' first
    | assumption
    | intro _
    | exact within_trans (by decide) hT
    | apply Node.departTo_reach
    | apply Node.updLift_reach
    | apply Reach.ite
    | apply Reach.foldl
    | split

theorem Node.lockRequest_reach {ps : List Part} {n0 : Node} (x0 : Node) (x1 : Nat) (x2 : Nat) (hx0 : Reach ps n0 x0) (hT : within [.safe] ps = true) : Reach ps n0 (Node.lockRequest x0 x1 x2) := by
  unfold Node.lockRequest
  try dsimp only
  with_reducible repeat' first
    | assumption
    | intro _
    | exact within_trans (by decide) hT
    | apply Node.sfRequest_reach
    | apply Reach.ite
    | apply Reach.foldl
    | split

theorem Node.openGate_reach {ps : List Part} {n0 : Node} (x0 : Node) (x1 : Nat) (hx0 : Reach ps n0 x0) (hT : within [.stalls, .cache, .cust, .gates, .safe] ps = true) : Reach ps n0 (Node.openGate x0 x1) := by
  unfold Node.openGate
  try dsimp only
  with_reducible repeat' first
    | assumption
    | intro _
    | exact within_trans (by decide) hT
    | apply Node.lockRequest_reach
    | apply Node.gateEnter_reach
    | apply Node.updGate_reach
    | apply Reach.ite
    | apply Reach.foldl
    | split

theorem Node.resumed_reach {ps : List Part} {n0 : Node} (x0 : Node) (x1 : Nat) (hx0 : Reach ps n0 x0) (hT : within [.stalls, .cache, .loops, .fio, .axes, .drives, .zb, .cust, .lifts, .gates, .rcd, .safe] ps = true) : Reach ps n0 (Node.resumed x0 x1) := by
  unfold Node.resumed
  try dsimp only
  with_reducible repeat' first
    | assumption
    | intro _
    | exact within_trans (by decide) hT
    | apply Node.driveStall_reach
    | apply Node.putStall_reach
    | apply Node.effect_reach
    | apply Node.setLoop_reach
    | apply Node.unhaltLift_reach
    | apply Node.updGate_reach
    | apply Node.openGate_reach
    | apply Node.closeGate_reach
    | apply Reach.ite
    | apply Reach.foldl
    | split

theorem Node.endHold_reach {ps : List Part} {n0 : Node} (x0 : Node) (x1 : Nat) (x2 : HoldCause) (hx0 : Reach ps n0 x0) (hT : within [.stalls, .cache, .loops, .fio, .axes, .drives, .zb, .cust, .lifts, .gates, .rcd, .safe] ps = true) : Reach ps n0 (Node.endHold x0 x1 x2) := by
  unfold Node.endHold
  try dsimp only
  with_reducible repeat' first
    | assumption
    | intro _
    | exact within_trans (by decide) hT
    | apply Node.putStall_reach
    | apply Node.restNow_reach
    | apply Node.sinkRuns_reach
    | apply Node.resumed_reach
    | apply Node.updStall_reach
    | apply Reach.ite
    | apply Reach.foldl
    | split

theorem Node.zbHolds_reach {ps : List Part} {n0 : Node} (x0 : Node) (hx0 : Reach ps n0 x0) (hT : within [.stalls, .cache, .loops, .fio, .axes, .drives, .zb, .cust, .lifts, .gates, .rcd, .safe, .freeCtr] ps = true) : Reach ps n0 (Node.zbHolds x0) := by
  unfold Node.zbHolds
  try dsimp only
  with_reducible repeat' first
    | assumption
    | intro _
    | exact within_trans (by decide) hT
    | apply Node.beginHold_reach
    | apply Node.endHold_reach
    | apply Reach.ite
    | apply Reach.foldl
    | split

theorem Node.zbReturns_reach {ps : List Part} {n0 : Node} (x0 : Node) (x1 : Bool) (hx0 : Reach ps n0 x0) (hT : within [.stalls, .cache, .loops, .fio, .axes, .drives, .zb, .cust, .lifts, .gates, .rcd, .safe, .freeCtr] ps = true) : Reach ps n0 (Node.zbReturns x0 x1) := by
  unfold Node.zbReturns
  try dsimp only
  with_reducible repeat' first
    | assumption
    | intro _
    | exact within_trans (by decide) hT
    | apply Node.updZb_reach
    | apply Node.zbHolds_reach
    | apply Reach.ite
    | apply Reach.foldl
    | split

theorem Node.abortSleep_reach {ps : List Part} {n0 : Node} (x0 : Node) (x1 : Nat) (hx0 : Reach ps n0 x0) (hT : within [.mem, .ram, .host, .stalls, .cache, .rcp, .loops, .fio, .axes, .drives, .line, .zb, .cust, .lifts, .gates, .rcd, .safe, .glean, .freeCtr] ps = true) : Reach ps n0 (Node.abortSleep x0 x1) := by
  unfold Node.abortSleep
  try dsimp only
  with_reducible repeat' first
    | assumption
    | intro _
    | exact within_trans (by decide) hT
    | apply Node.updGlean_reach
    | apply Node.updFio_reach
    | apply Node.resumeInsts_reach
    | apply Node.zbReturns_reach
    | apply Node.log_reach
    | apply Reach.ite
    | apply Reach.foldl
    | split

theorem Node.setChan_reach {ps : List Part} {n0 : Node} (x0 : Node) (x1 : Nat) (x2 : Channel) (hx0 : Reach ps n0 x0) (hT : within [.safe] ps = true) : Reach ps n0 (Node.setChan x0 x1 x2) := by
  unfold Node.setChan
  try dsimp only
  with_reducible repeat' first
    | assumption
    | intro _
    | exact within_trans (by decide) hT
    | apply Reach.ite
    | apply Reach.set_safe (m := x0)
    | apply Reach.foldl
    | split
    | apply Reach.set_safe

theorem Node.acceptCopy_reach {ps : List Part} {n0 : Node} (x0 : Node) (x1 : Nat) (x2 : Nat) (x3 : Bool) (x4 : SafeFrame) (hx0 : Reach ps n0 x0) (hT : within [.safe] ps = true) : Reach ps n0 (Node.acceptCopy x0 x1 x2 x3 x4) := by
  unfold Node.acceptCopy
  try dsimp only
  with_reducible repeat' first
    | assumption
    | intro _
    | exact within_trans (by decide) hT
    | apply Node.setChan_reach
    | apply Reach.ite
    | apply Reach.foldl
    | split

theorem Node.updCust_reach {ps : List Part} {n0 : Node} (x0 : Node) (x1 : Custody → Custody) (hx0 : Reach ps n0 x0) (hT : within [.cust] ps = true) : Reach ps n0 (Node.updCust x0 x1) := by
  unfold Node.updCust
  try dsimp only
  with_reducible repeat' first
    | assumption
    | intro _
    | exact within_trans (by decide) hT
    | apply Reach.ite
    | apply Reach.set_cust (m := x0)
    | apply Reach.foldl
    | split
    | apply Reach.set_cust

theorem Node.answered_reach {ps : List Part} {n0 : Node} (x0 : Node) (x1 : Nat) (x2 : Nat) (hx0 : Reach ps n0 x0) (hT : within [.cust] ps = true) : Reach ps n0 (Node.answered x0 x1 x2) := by
  unfold Node.answered
  try dsimp only
  with_reducible repeat' first
    | assumption
    | intro _
    | exact within_trans (by decide) hT
    | apply Node.updCust_reach
    | apply Reach.ite
    | apply Reach.foldl
    | split

theorem Node.setOwn_reach {ps : List Part} {n0 : Node} (x0 : Node) (x1 : Nat) (x2 : CRec) (hx0 : Reach ps n0 x0) (hT : within [.cust] ps = true) : Reach ps n0 (Node.setOwn x0 x1 x2) := by
  unfold Node.setOwn
  try dsimp only
  with_reducible repeat' first
    | assumption
    | intro _
    | exact within_trans (by decide) hT
    | apply Node.updCust_reach
    | apply Reach.ite
    | apply Reach.foldl
    | split

theorem Node.await_reach {ps : List Part} {n0 : Node} (x0 : Node) (x1 : CMsg) (hx0 : Reach ps n0 x0) (hT : within [.cust] ps = true) : Reach ps n0 (Node.await x0 x1) := by
  unfold Node.await
  try dsimp only
  with_reducible repeat' first
    | assumption
    | intro _
    | exact within_trans (by decide) hT
    | apply Node.updCust_reach
    | apply Reach.ite
    | apply Reach.foldl
    | split

theorem Node.custSend_reach {ps : List Part} {n0 : Node} (x0 : Node) (x1 : Nat) (x2 : Nat) (x3 : Nat) (x4 : Nat) (x5 : List Byte) (hx0 : Reach ps n0 x0) (hT : within [.line, .freeCtr] ps = true) : Reach ps n0 (Node.custSend x0 x1 x2 x3 x4 x5) := by
  unfold Node.custSend
  try dsimp only
  with_reducible repeat' first
    | assumption
    | intro _
    | exact within_trans (by decide) hT
    | apply Node.send_reach
    | apply Reach.ite
    | apply Reach.foldl
    | split

theorem Node.custNote_reach {ps : List Part} {n0 : Node} (x0 : Node) (x1 : Nat) (x2 : Nat) (x3 : Nat) (x4 : Nat) (x5 : Nat) (hx0 : Reach ps n0 x0) (hT : within [.line, .freeCtr] ps = true) : Reach ps n0 (Node.custNote x0 x1 x2 x3 x4 x5) := by
  unfold Node.custNote
  try dsimp only
  with_reducible repeat' first
    | assumption
    | intro _
    | exact within_trans (by decide) hT
    | apply Node.custSend_reach
    | apply Reach.ite
    | apply Reach.foldl
    | split

theorem Node.mirrorFull_reach {ps : List Part} {n0 : Node} (x0 : Node) (x1 : Nat) (x2 : Nat) (hx0 : Reach ps n0 x0) (hT : within [.rcd] ps = true) : Reach ps n0 (Node.mirrorFull x0 x1 x2) := by
  unfold Node.mirrorFull
  try dsimp only
  with_reducible repeat' first
    | assumption
    | intro _
    | exact within_trans (by decide) hT
    | apply Node.log_reach
    | apply Reach.ite
    | apply Reach.foldl
    | split

theorem Node.accepted_reach {ps : List Part} {n0 : Node} (x0 : Node) (x1 : Nat) (x2 : Nat) (x3 : CRec) (hx0 : Reach ps n0 x0) (hT : within [.line, .cust, .rcd, .freeCtr] ps = true) : Reach ps n0 (Node.accepted x0 x1 x2 x3) := by
  unfold Node.accepted
  try dsimp only
  with_reducible repeat' first
    | assumption
    | intro _
    | exact within_trans (by decide) hT
    | apply Node.answered_reach
    | apply Node.setOwn_reach
    | apply Node.await_reach
    | apply Node.custNote_reach
    | apply Node.custSend_reach
    | apply Node.mirrorFull_reach
    | apply Node.updCust_reach
    | apply Reach.ite
    | apply Reach.set_cust (m := x0)
    | apply Reach.foldl
    | split
    | apply Reach.set_cust

theorem Node.refuseAction_reach {ps : List Part} {n0 : Node} (x0 : Node) (x1 : Nat) (x2 : Nat) (hx0 : Reach ps n0 x0) (hT : within [.rcd] ps = true) : Reach ps n0 (Node.refuseAction x0 x1 x2) := by
  unfold Node.refuseAction
  try dsimp only
  with_reducible repeat' first
    | assumption
    | intro _
    | exact within_trans (by decide) hT
    | apply Node.log_reach
    | apply Reach.ite
    | apply Reach.foldl
    | split

theorem Node.actWrite_reach {ps : List Part} {n0 : Node} (x0 : Node) (x1 : Nat) (x2 : Nat) (x3 : Bool) (x4 : W64) (x5 : T64) (hx0 : Reach ps n0 x0) (hT : within [.stalls, .cache, .fio, .zb, .cust, .rcd] ps = true) : Reach ps n0 (Node.actWrite x0 x1 x2 x3 x4 x5) := by
  unfold Node.actWrite
  try dsimp only
  with_reducible repeat' first
    | assumption
    | intro _
    | exact within_trans (by decide) hT
    | apply Node.engineWrite_reach
    | apply Node.refuseAction_reach
    | apply Reach.ite
    | apply Reach.foldl
    | split

theorem Node.updMem_reach {ps : List Part} {n0 : Node} (x0 : Node) (x1 : MemHealth → MemHealth) (hx0 : Reach ps n0 x0) (hT : within [.mem] ps = true) : Reach ps n0 (Node.updMem x0 x1) := by
  unfold Node.updMem
  try dsimp only
  with_reducible repeat' first
    | assumption
    | intro _
    | exact within_trans (by decide) hT
    | apply Reach.ite
    | apply Reach.set_mem (m := x0)
    | apply Reach.foldl
    | split
    | apply Reach.set_mem

theorem Node.raise_reach {ps : List Part} {n0 : Node} (x0 : Node) (x1 : Nat) (hx0 : Reach ps n0 x0) (hT : within [.glean] ps = true) : Reach ps n0 (Node.raise x0 x1) := by
  unfold Node.raise
  try dsimp only
  with_reducible repeat' first
    | assumption
    | intro _
    | exact within_trans (by decide) hT
    | apply Reach.ite
    | apply Reach.set_glean (m := x0)
    | apply Reach.foldl
    | split
    | apply Reach.set_glean

theorem Node.dropQueues_reach {ps : List Part} {n0 : Node} (x0 : Node) (x1 : Nat) (hx0 : Reach ps n0 x0) (hT : within [.line] ps = true) : Reach ps n0 (Node.dropQueues x0 x1) := by
  unfold Node.dropQueues
  try dsimp only
  with_reducible repeat' first
    | assumption
    | intro _
    | exact within_trans (by decide) hT
    | apply Reach.ite
    | apply Reach.set_line (m := x0)
    | apply Reach.foldl
    | split
    | apply Reach.set_line

theorem Node.updLine_reach {ps : List Part} {n0 : Node} (x0 : Node) (x1 : Line → Line) (hx0 : Reach ps n0 x0) (hT : within [.line] ps = true) : Reach ps n0 (Node.updLine x0 x1) := by
  unfold Node.updLine
  try dsimp only
  with_reducible repeat' first
    | assumption
    | intro _
    | exact within_trans (by decide) hT
    | apply Reach.ite
    | apply Reach.set_line (m := x0)
    | apply Reach.foldl
    | split
    | apply Reach.set_line

theorem Node.withdraw_reach {ps : List Part} {n0 : Node} (x0 : Node) (x1 : Nat) (hx0 : Reach ps n0 x0) (hT : within [.line] ps = true) : Reach ps n0 (Node.withdraw x0 x1) := by
  unfold Node.withdraw
  try dsimp only
  with_reducible repeat' first
    | assumption
    | intro _
    | exact within_trans (by decide) hT
    | apply Node.updLine_reach
    | apply Reach.ite
    | apply Reach.foldl
    | split

theorem Node.servoTo_reach {ps : List Part} {n0 : Node} (x0 : Node) (x1 : ServoSt) (hx0 : Reach ps n0 x0) (hT : within [.time, .rcd] ps = true) : Reach ps n0 (Node.servoTo x0 x1) := by
  unfold Node.servoTo
  try dsimp only
  with_reducible repeat' first
    | assumption
    | intro _
    | exact within_trans (by decide) hT
    | apply Node.log_reach
    | apply Reach.ite
    | apply Reach.set_time (m := x0)
    | apply Reach.foldl
    | split
    | apply Reach.set_time

theorem Node.enterHoldover_reach {ps : List Part} {n0 : Node} (x0 : Node) (hx0 : Reach ps n0 x0) (hT : within [.time, .rcd] ps = true) : Reach ps n0 (Node.enterHoldover x0) := by
  unfold Node.enterHoldover
  try dsimp only
  with_reducible repeat' first
    | assumption
    | intro _
    | exact within_trans (by decide) hT
    | apply Node.servoTo_reach
    | apply Reach.ite
    | apply Reach.set_time (m := x0)
    | apply Reach.foldl
    | split
    | apply Reach.set_time

theorem Node.slaveLeaves_reach {ps : List Part} {n0 : Node} (x0 : Node) (x1 : Nat) (x2 : PortSt) (hx0 : Reach ps n0 x0) (hT : within [.time, .rcd] ps = true) : Reach ps n0 (Node.slaveLeaves x0 x1 x2) := by
  unfold Node.slaveLeaves
  try dsimp only
  with_reducible repeat' first
    | assumption
    | intro _
    | exact within_trans (by decide) hT
    | apply Node.enterHoldover_reach
    | apply Reach.ite
    | apply Reach.foldl
    | split

theorem Node.bypassPort_reach {ps : List Part} {n0 : Node} (x0 : Node) (x1 : Nat) (hx0 : Reach ps n0 x0) (hT : within [.line, .time, .rcd, .glean] ps = true) : Reach ps n0 (Node.bypassPort x0 x1) := by
  unfold Node.bypassPort
  try dsimp only
  with_reducible repeat' first
    | assumption
    | intro _
    | exact within_trans (by decide) hT
    | apply Node.raise_reach
    | apply Node.dropQueues_reach
    | apply Node.withdraw_reach
    | apply Node.slaveLeaves_reach
    | apply Node.setPort_reach
    | apply Reach.ite
    | apply Reach.foldl
    | split

theorem Node.closeBypass_reach {ps : List Part} {n0 : Node} (x0 : Node) (x1 : Option Nat) (hx0 : Reach ps n0 x0) (hT : within [.power, .line, .time, .rcd, .glean] ps = true) : Reach ps n0 (Node.closeBypass x0 x1) := by
  unfold Node.closeBypass
  try dsimp only
  with_reducible repeat' first
    | assumption
    | intro _
    | exact within_trans (by decide) hT
    | apply Node.bypassPort_reach
    | apply Node.log_reach
    | apply Reach.ite
    | apply Reach.set_power (m := x0)
    | apply Reach.foldl
    | split
    | apply Reach.set_power

theorem Node.sendHop_reach {ps : List Part} {n0 : Node} (x0 : Node) (x1 : Nat) (x2 : Nat) (x3 : List Byte) (hx0 : Reach ps n0 x0) (hT : within [.line] ps = true) : Reach ps n0 (Node.sendHop x0 x1 x2 x3) := by
  unfold Node.sendHop
  try dsimp only
  with_reducible repeat' first
    | assumption
    | intro _
    | exact within_trans (by decide) hT
    | apply Node.newFrame_reach
    | apply Node.egress_reach
    | refine Reach.ofSnd (by assumption) ?_
    | apply Reach.ite
    | apply Reach.foldl
    | split

theorem Node.sendLeave_reach {ps : List Part} {n0 : Node} (x0 : Node) (x1 : Nat) (hx0 : Reach ps n0 x0) (hT : within [.line] ps = true) : Reach ps n0 (Node.sendLeave x0 x1) := by
  unfold Node.sendLeave
  try dsimp only
  with_reducible repeat' first
    | assumption
    | intro _
    | exact within_trans (by decide) hT
    | apply Node.sendHop_reach
    | apply Reach.ite
    | apply Reach.foldl
    | split

theorem Node.leaveLine_reach {ps : List Part} {n0 : Node} (x0 : Node) (x1 : Nat) (hx0 : Reach ps n0 x0) (hT : within [.power, .line, .time, .rcd, .glean] ps = true) : Reach ps n0 (Node.leaveLine x0 x1) := by
  unfold Node.leaveLine
  try dsimp only
  with_reducible repeat' first
    | assumption
    | intro _
    | exact within_trans (by decide) hT
    | apply Node.closeBypass_reach
    | apply Node.sendLeave_reach
    | apply Reach.ite
    | apply Reach.foldl
    | split

theorem Node.setIsland_reach {ps : List Part} {n0 : Node} (x0 : Node) (x1 : Nat) (x2 : Island) (hx0 : Reach ps n0 x0) (hT : within [.isl] ps = true) : Reach ps n0 (Node.setIsland x0 x1 x2) := by
  unfold Node.setIsland
  try dsimp only
  with_reducible repeat' first
    | assumption
    | intro _
    | exact within_trans (by decide) hT
    | apply Reach.ite
    | apply Reach.set_isl (m := x0)
    | apply Reach.foldl
    | split
    | apply Reach.set_isl

theorem Node.updIsland_reach {ps : List Part} {n0 : Node} (x0 : Node) (x1 : Nat) (x2 : Island → Island) (hx0 : Reach ps n0 x0) (hT : within [.isl] ps = true) : Reach ps n0 (Node.updIsland x0 x1 x2) := by
  unfold Node.updIsland
  try dsimp only
  with_reducible repeat' first
    | assumption
    | intro _
    | exact within_trans (by decide) hT
    | apply Node.setIsland_reach
    | apply Reach.ite
    | apply Reach.foldl
    | split

theorem Node.refreshHolds_reach {ps : List Part} {n0 : Node} (x0 : Node) (x1 : HoldCause) (hx0 : Reach ps n0 x0) (hT : within [.stalls, .cache, .loops, .fio, .axes, .drives, .zb, .cust, .lifts, .gates, .rcd, .safe, .freeCtr] ps = true) : Reach ps n0 (Node.refreshHolds x0 x1) := by
  unfold Node.refreshHolds
  try dsimp only
  with_reducible repeat' first
    | assumption
    | intro _
    | exact within_trans (by decide) hT
    | apply Node.beginHold_reach
    | apply Node.endHold_reach
    | apply Reach.ite
    | apply Reach.foldl
    | split

theorem Node.updHlth_reach {ps : List Part} {n0 : Node} (x0 : Node) (x1 : Health → Health) (hx0 : Reach ps n0 x0) (hT : within [.hlth] ps = true) : Reach ps n0 (Node.updHlth x0 x1) := by
  unfold Node.updHlth
  try dsimp only
  with_reducible repeat' first
    | assumption
    | intro _
    | exact within_trans (by decide) hT
    | apply Reach.ite
    | apply Reach.set_hlth (m := x0)
    | apply Reach.foldl
    | split
    | apply Reach.set_hlth

theorem Node.frontBusy_reach {ps : List Part} {n0 : Node} (x0 : Node) (x1 : Nat) (hx0 : Reach ps n0 x0) (hT : within [.mem, .ram, .host, .line, .rcd, .freeCtr] ps = true) : Reach ps n0 (Node.frontBusy x0 x1) := by
  unfold Node.frontBusy
  try dsimp only
  with_reducible repeat' first
    | assumption
    | intro _
    | exact within_trans (by decide) hT
    | apply Node.sessionRefused_reach
    | apply Node.putResp_reach
    | apply Node.setMbx_reach
    | apply Reach.ite
    | apply Reach.foldl
    | split

theorem Node.refusePosted_reach {ps : List Part} {n0 : Node} (x0 : Node) (hx0 : Reach ps n0 x0) (hT : within [.mem, .ram, .host, .line, .rcd, .freeCtr] ps = true) : Reach ps n0 (Node.refusePosted x0) := by
  unfold Node.refusePosted
  try dsimp only
  with_reducible repeat' first
    | assumption
    | intro _
    | exact within_trans (by decide) hT
    | apply Node.frontBusy_reach
    | apply Node.updHost_reach
    | apply Reach.ite
    | apply Reach.foldl
    | split

theorem Node.coreStop_reach {ps : List Part} {n0 : Node} (x0 : Node) (hx0 : Reach ps n0 x0) (hT : within [.mem, .ram, .host, .fio, .line, .rcd, .safe, .hlth, .freeCtr] ps = true) : Reach ps n0 (Node.coreStop x0) := by
  unfold Node.coreStop
  try dsimp only
  with_reducible repeat' first
    | assumption
    | intro _
    | exact within_trans (by decide) hT
    | apply Node.sfRequest_reach
    | apply Node.updHost_reach
    | apply Node.updHlth_reach
    | apply Node.updFio_reach
    | apply Node.refusePosted_reach
    | apply Reach.ite
    | apply Reach.foldl
    | split

theorem Node.ringDropped_reach {ps : List Part} {n0 : Node} (x0 : Node) (x1 : Nat) (hx0 : Reach ps n0 x0) (hT : within [.mem, .ram] ps = true) : Reach ps n0 (Node.ringDropped x0 x1) := by
  unfold Node.ringDropped
  try dsimp only
  with_reducible repeat' first
    | assumption
    | intro _
    | exact within_trans (by decide) hT
    | apply Node.write_reach
    | apply Reach.ite
    | apply Reach.foldl
    | split

theorem Node.updAdc_reach {ps : List Part} {n0 : Node} (x0 : Node) (x1 : Adc → Adc) (hx0 : Reach ps n0 x0) (hT : within [.adc] ps = true) : Reach ps n0 (Node.updAdc x0 x1) := by
  unfold Node.updAdc
  try dsimp only
  with_reducible repeat' first
    | assumption
    | intro _
    | exact within_trans (by decide) hT
    | apply Reach.ite
    | apply Reach.set_adc (m := x0)
    | apply Reach.foldl
    | split
    | apply Reach.set_adc

theorem Node.dropFrame_reach {ps : List Part} {n0 : Node} (x0 : Node) (x1 : T64) (x2 : Nat) (hx0 : Reach ps n0 x0) (hT : within [.mem, .ram, .adc] ps = true) : Reach ps n0 (Node.dropFrame x0 x1 x2) := by
  unfold Node.dropFrame
  try dsimp only
  with_reducible repeat' first
    | assumption
    | intro _
    | exact within_trans (by decide) hT
    | apply Node.ringDropped_reach
    | apply Node.updAdc_reach
    | apply Reach.ite
    | apply Reach.foldl
    | split

theorem Node.cutFrame_reach {ps : List Part} {n0 : Node} (x0 : Node) (hx0 : Reach ps n0 x0) (hT : within [.mem, .ram, .adc] ps = true) : Reach ps n0 (Node.cutFrame x0) := by
  unfold Node.cutFrame
  try dsimp only
  with_reducible repeat' first
    | assumption
    | intro _
    | exact within_trans (by decide) hT
    | apply Node.dropFrame_reach
    | apply Reach.ite
    | apply Reach.foldl
    | split

theorem Node.updHarv_reach {ps : List Part} {n0 : Node} (x0 : Node) (x1 : Harvest → Harvest) (hx0 : Reach ps n0 x0) (hT : within [.harv] ps = true) : Reach ps n0 (Node.updHarv x0 x1) := by
  unfold Node.updHarv
  try dsimp only
  with_reducible repeat' first
    | assumption
    | intro _
    | exact within_trans (by decide) hT
    | apply Reach.ite
    | apply Reach.set_harv (m := x0)
    | apply Reach.foldl
    | split
    | apply Reach.set_harv

theorem Node.holdSampling_reach {ps : List Part} {n0 : Node} (x0 : Node) (x1 : Nat) (hx0 : Reach ps n0 x0) (hT : within [.harv] ps = true) : Reach ps n0 (Node.holdSampling x0 x1) := by
  unfold Node.holdSampling
  try dsimp only
  with_reducible repeat' first
    | assumption
    | intro _
    | exact within_trans (by decide) hT
    | apply Node.updHarv_reach
    | apply Reach.ite
    | apply Reach.foldl
    | split

theorem Node.flushCache_reach {ps : List Part} {n0 : Node} (x0 : Node) (hx0 : Reach ps n0 x0) (hT : within [.cache] ps = true) : Reach ps n0 (Node.flushCache x0) := by
  unfold Node.flushCache
  try dsimp only
  with_reducible repeat' first
    | assumption
    | intro _
    | exact within_trans (by decide) hT
    | apply Reach.ite
    | apply Reach.set_cache (m := x0)
    | apply Reach.foldl
    | split
    | apply Reach.set_cache

theorem Node.holdInsts_reach {ps : List Part} {n0 : Node} (x0 : Node) (hx0 : Reach ps n0 x0) (hT : within [.rcp] ps = true) : Reach ps n0 (Node.holdInsts x0) := by
  unfold Node.holdInsts
  try dsimp only
  with_reducible repeat' first
    | assumption
    | intro _
    | exact within_trans (by decide) hT
    | apply Reach.ite
    | apply Reach.set_rcp (m := x0)
    | apply Reach.foldl
    | split
    | apply Reach.set_rcp

theorem Node.setEnc_reach {ps : List Part} {n0 : Node} (x0 : Node) (x1 : Nat) (x2 : Enc) (hx0 : Reach ps n0 x0) (hT : within [.encs] ps = true) : Reach ps n0 (Node.setEnc x0 x1 x2) := by
  unfold Node.setEnc
  try dsimp only
  with_reducible repeat' first
    | assumption
    | intro _
    | exact within_trans (by decide) hT
    | apply Reach.ite
    | apply Reach.set_encs (m := x0)
    | apply Reach.foldl
    | split
    | apply Reach.set_encs

theorem Node.updEnc_reach {ps : List Part} {n0 : Node} (x0 : Node) (x1 : Nat) (x2 : Enc → Enc) (hx0 : Reach ps n0 x0) (hT : within [.encs] ps = true) : Reach ps n0 (Node.updEnc x0 x1 x2) := by
  unfold Node.updEnc
  try dsimp only
  with_reducible repeat' first
    | assumption
    | intro _
    | exact within_trans (by decide) hT
    | apply Node.setEnc_reach
    | apply Reach.ite
    | apply Reach.foldl
    | split

theorem Node.positionLost_reach {ps : List Part} {n0 : Node} (x0 : Node) (x1 : Nat) (x2 : Nat) (hx0 : Reach ps n0 x0) (hT : within [.encs, .rcd] ps = true) : Reach ps n0 (Node.positionLost x0 x1 x2) := by
  unfold Node.positionLost
  try dsimp only
  with_reducible repeat' first
    | assumption
    | intro _
    | exact within_trans (by decide) hT
    | apply Node.log_reach
    | apply Node.updEnc_reach
    | apply Reach.ite
    | apply Reach.foldl
    | split

theorem Node.losePositions_reach {ps : List Part} {n0 : Node} (x0 : Node) (x1 : Nat) (hx0 : Reach ps n0 x0) (hT : within [.encs, .rcd] ps = true) : Reach ps n0 (Node.losePositions x0 x1) := by
  unfold Node.losePositions
  try dsimp only
  with_reducible repeat' first
    | assumption
    | intro _
    | exact within_trans (by decide) hT
    | apply Node.positionLost_reach
    | apply Reach.ite
    | apply Reach.foldl
    | split

theorem Node.coilsOff_reach {ps : List Part} {n0 : Node} (x0 : Node) (x1 : Nat) (hx0 : Reach ps n0 x0) (hT : within [.drives] ps = true) : Reach ps n0 (Node.coilsOff x0 x1) := by
  unfold Node.coilsOff
  try dsimp only
  with_reducible repeat' first
    | assumption
    | intro _
    | exact within_trans (by decide) hT
    | apply Node.setDrv_reach
    | apply Reach.ite
    | apply Reach.foldl
    | split

theorem Node.answerAxisStops_reach {ps : List Part} {n0 : Node} (x0 : Node) (x1 : Nat) (hx0 : Reach ps n0 x0) (hT : within [.mem, .ram, .host, .axes, .line, .rcd, .freeCtr] ps = true) : Reach ps n0 (Node.answerAxisStops x0 x1) := by
  unfold Node.answerAxisStops
  try dsimp only
  with_reducible repeat' first
    | assumption
    | intro _
    | exact within_trans (by decide) hT
    | apply Node.ok_reach
    | apply Node.updAxis_reach
    | apply Reach.ite
    | apply Reach.foldl
    | split

theorem Node.disableAxis_reach {ps : List Part} {n0 : Node} (x0 : Node) (x1 : Nat) (hx0 : Reach ps n0 x0) (hT : within [.mem, .ram, .host, .axes, .drives, .line, .rcd, .freeCtr] ps = true) : Reach ps n0 (Node.disableAxis x0 x1) := by
  unfold Node.disableAxis
  try dsimp only
  with_reducible repeat' first
    | assumption
    | intro _
    | exact within_trans (by decide) hT
    | apply Node.updAxis_reach
    | apply Node.settle_reach
    | apply Node.answerAxisStops_reach
    | apply Node.coilsOff_reach
    | apply Reach.ite
    | apply Reach.foldl
    | split

theorem Node.loseAxis_reach {ps : List Part} {n0 : Node} (x0 : Node) (x1 : Nat) (x2 : Nat) (hx0 : Reach ps n0 x0) (hT : within [.mem, .ram, .host, .axes, .drives, .line, .rcd, .freeCtr] ps = true) : Reach ps n0 (Node.loseAxis x0 x1 x2) := by
  unfold Node.loseAxis
  try dsimp only
  with_reducible repeat' first
    | assumption
    | intro _
    | exact within_trans (by decide) hT
    | apply Node.coilsOff_reach
    | apply Node.disableAxis_reach
    | apply Node.losePosition_reach
    | apply Node.abandonTable_reach
    | apply Reach.ite
    | apply Reach.foldl
    | split

theorem Node.driveAll_reach {ps : List Part} {n0 : Node} (x0 : Node) (hx0 : Reach ps n0 x0) (hT : within [.fio] ps = true) : Reach ps n0 (Node.driveAll x0) := by
  unfold Node.driveAll
  try dsimp only
  with_reducible repeat' first
    | assumption
    | intro _
    | exact within_trans (by decide) hT
    | apply Node.driveOut_reach
    | apply Reach.ite
    | apply Reach.foldl
    | split

theorem Node.captureHeld_reach {ps : List Part} {n0 : Node} (x0 : Node) (hx0 : Reach ps n0 x0) (hT : within [.fio] ps = true) : Reach ps n0 (Node.captureHeld x0) := by
  unfold Node.captureHeld
  try dsimp only
  with_reducible repeat' first
    | assumption
    | intro _
    | exact within_trans (by decide) hT
    | apply Node.setOut_reach
    | apply Reach.ite
    | apply Reach.foldl
    | split

theorem Node.zbOutcome_reach {ps : List Part} {n0 : Node} (x0 : Node) (x1 : MsgSrc) (x2 : Nat) (x3 : Nat) (hx0 : Reach ps n0 x0) (hT : within [.mem, .ram, .host, .line, .rcd, .freeCtr] ps = true) : Reach ps n0 (Node.zbOutcome x0 x1 x2 x3) := by
  unfold Node.zbOutcome
  try dsimp only
  with_reducible repeat' first
    | assumption
    | intro _
    | exact within_trans (by decide) hT
    | apply Node.ok_reach
    | apply Reach.ite
    | apply Reach.foldl
    | split

theorem Node.uncache_reach {ps : List Part} {n0 : Node} (x0 : Node) (x1 : Nat) (hx0 : Reach ps n0 x0) (hT : within [.stalls, .cache] ps = true) : Reach ps n0 (Node.uncache x0 x1) := by
  unfold Node.uncache
  try dsimp only
  with_reducible repeat' first
    | assumption
    | intro _
    | exact within_trans (by decide) hT
    | apply Node.setStall_reach
    | apply Reach.ite
    | apply Reach.set_cache (m := x0)
    | apply Reach.foldl
    | split
    | apply Reach.set_cache

theorem Node.swapPins_reach {ps : List Part} {n0 : Node} (x0 : Node) (x1 : Nat) (x2 : Nat) (hx0 : Reach ps n0 x0) (hT : within [.fio] ps = true) : Reach ps n0 (Node.swapPins x0 x1 x2) := by
  unfold Node.swapPins
  try dsimp only
  with_reducible repeat' first
    | assumption
    | intro _
    | exact within_trans (by decide) hT
    | apply Node.setOut_reach
    | apply Reach.ite
    | apply Reach.foldl
    | split

theorem Node.swapParts_reach {ps : List Part} {n0 : Node} (x0 : Node) (x1 : Nat) (x2 : Nat) (hx0 : Reach ps n0 x0) (hT : within [.stalls, .cache, .fio] ps = true) : Reach ps n0 (Node.swapParts x0 x1 x2) := by
  unfold Node.swapParts
  try dsimp only
  with_reducible repeat' first
    | assumption
    | intro _
    | exact within_trans (by decide) hT
    | apply Node.uncache_reach
    | apply Node.setStall_reach
    | apply Node.swapPins_reach
    | apply Reach.ite
    | apply Reach.foldl
    | split

theorem Node.faultAxis_reach {ps : List Part} {n0 : Node} (x0 : Node) (x1 : Nat) (hx0 : Reach ps n0 x0) (hT : within [.mem, .ram, .host, .axes, .drives, .line, .rcd, .freeCtr] ps = true) : Reach ps n0 (Node.faultAxis x0 x1) := by
  unfold Node.faultAxis
  try dsimp only
  with_reducible repeat' first
    | assumption
    | intro _
    | exact within_trans (by decide) hT
    | apply Node.disableAxis_reach
    | apply Node.abandonTable_reach
    | apply Reach.ite
    | apply Reach.foldl
    | split

theorem Node.liftOff_reach {ps : List Part} {n0 : Node} (x0 : Node) (x1 : Nat) (hx0 : Reach ps n0 x0) (hT : within [.lifts] ps = true) : Reach ps n0 (Node.liftOff x0 x1) := by
  unfold Node.liftOff
  try dsimp only
  with_reducible repeat' first
    | assumption
    | intro _
    | exact within_trans (by decide) hT
    | apply Node.updLift_reach
    | apply Reach.ite
    | apply Reach.foldl
    | split

theorem Node.leaveResource_reach {ps : List Part} {n0 : Node} (x0 : Node) (x1 : Nat) (hx0 : Reach ps n0 x0) (hT : within [.mem, .ram, .host, .stalls, .cache, .encs, .axes, .drives, .line, .cust, .lifts, .gates, .rcd, .freeCtr] ps = true) : Reach ps n0 (Node.leaveResource x0 x1) := by
  unfold Node.leaveResource
  try dsimp only
  with_reducible repeat' first
    | assumption
    | intro _
    | exact within_trans (by decide) hT
    | apply Node.faultAxis_reach
    | apply Node.updEnc_reach
    | apply Node.liftOff_reach
    | apply Node.gateEnter_reach
    | apply Reach.ite
    | apply Reach.foldl
    | split

theorem Node.standAxis_reach {ps : List Part} {n0 : Node} (x0 : Node) (x1 : Nat) (x2 : Nat) (hx0 : Reach ps n0 x0) (hT : within [.axes, .drives] ps = true) : Reach ps n0 (Node.standAxis x0 x1 x2) := by
  unfold Node.standAxis
  try dsimp only
  with_reducible repeat' first
    | assumption
    | intro _
    | exact within_trans (by decide) hT
    | apply Node.updAxis_reach
    | apply Node.coilsOn_reach
    | apply Reach.ite
    | apply Reach.foldl
    | split

theorem Node.setIn_reach {ps : List Part} {n0 : Node} (x0 : Node) (x1 : Nat) (x2 : InPin) (hx0 : Reach ps n0 x0) (hT : within [.fio] ps = true) : Reach ps n0 (Node.setIn x0 x1 x2) := by
  unfold Node.setIn
  try dsimp only
  with_reducible repeat' first
    | assumption
    | intro _
    | exact within_trans (by decide) hT
    | apply Reach.ite
    | apply Reach.set_fio (m := x0)
    | apply Reach.foldl
    | split
    | apply Reach.set_fio

theorem Node.zbFreeObjects_reach {ps : List Part} {n0 : Node} (x0 : Node) (hx0 : Reach ps n0 x0) (hT : within [.zb] ps = true) : Reach ps n0 (Node.zbFreeObjects x0) := by
  unfold Node.zbFreeObjects
  try dsimp only
  with_reducible repeat' first
    | assumption
    | intro _
    | exact within_trans (by decide) hT
    | apply Node.updZb_reach
    | apply Reach.ite
    | apply Reach.foldl
    | split

theorem Node.needObject_reach {ps : List Part} {n0 : Node} (x0 : Node) (x1 : Nat) (hx0 : Reach ps n0 x0) (hT : within [.zb] ps = true) : Reach ps n0 (Node.needObject x0 x1) := by
  unfold Node.needObject
  try dsimp only
  with_reducible repeat' first
    | assumption
    | intro _
    | exact within_trans (by decide) hT
    | apply Node.updZb_reach
    | apply Reach.ite
    | apply Reach.foldl
    | split

theorem Node.liftStart_reach {ps : List Part} {n0 : Node} (x0 : Node) (x1 : Nat) (hx0 : Reach ps n0 x0) (hT : within [.lifts, .rcd] ps = true) : Reach ps n0 (Node.liftStart x0 x1) := by
  unfold Node.liftStart
  try dsimp only
  with_reducible repeat' first
    | assumption
    | intro _
    | exact within_trans (by decide) hT
    | apply Node.updLift_reach
    | apply Node.log_reach
    | apply Reach.ite
    | apply Reach.foldl
    | split

theorem Node.gateStart_reach {ps : List Part} {n0 : Node} (x0 : Node) (x1 : Nat) (hx0 : Reach ps n0 x0) (hT : within [.stalls, .cache, .cust, .gates] ps = true) : Reach ps n0 (Node.gateStart x0 x1) := by
  unfold Node.gateStart
  try dsimp only
  with_reducible repeat' first
    | assumption
    | intro _
    | exact within_trans (by decide) hT
    | apply Node.updGate_reach
    | apply Node.gateEnter_reach
    | apply Reach.ite
    | apply Reach.foldl
    | split

theorem Node.onNewResource_reach {ps : List Part} {n0 : Node} (x0 : Node) (x1 : Nat) (hx0 : Reach ps n0 x0) (hT : within [.stalls, .cache, .loops, .fio, .encs, .axes, .drives, .zb, .cust, .lifts, .gates, .rcd] ps = true) : Reach ps n0 (Node.onNewResource x0 x1) := by
  unfold Node.onNewResource
  try dsimp only
  with_reducible repeat' first
    | assumption
    | intro _
    | exact within_trans (by decide) hT
    | apply Node.standAxis_reach
    | apply Node.updEnc_reach
    | apply Node.setIn_reach
    | apply Node.setLoop_reach
    | apply Node.updStall_reach
    | apply Node.zbFreeObjects_reach
    | apply Node.needObject_reach
    | apply Node.liftStart_reach
    | apply Node.gateStart_reach
    | apply Node.driveStall_reach
    | apply Reach.ite
    | apply Reach.foldl
    | split

theorem Node.mapWrite_reach {ps : List Part} {n0 : Node} (x0 : Node) (hx0 : Reach ps n0 x0) (hT : within [.hlth] ps = true) : Reach ps n0 (Node.mapWrite x0) := by
  unfold Node.mapWrite
  try dsimp only
  with_reducible repeat' first
    | assumption
    | intro _
    | exact within_trans (by decide) hT
    | apply Reach.ite
    | apply Reach.set_hlth (m := x0)
    | apply Reach.foldl
    | split
    | apply Reach.set_hlth

theorem Node.quiet_reach {ps : List Part} {n0 : Node} (x0 : Node) (x1 : Nat) (hx0 : Reach ps n0 x0) (hT : within [.stalls, .cache, .encs, .zb, .cust, .lifts, .gates] ps = true) : Reach ps n0 (Node.quiet x0 x1) := by
  unfold Node.quiet
  try dsimp only
  with_reducible repeat' first
    | assumption
    | intro _
    | exact within_trans (by decide) hT
    | apply Node.updEnc_reach
    | apply Node.zbFreeObjects_reach
    | apply Node.putStall_reach
    | apply Node.liftOff_reach
    | apply Node.gateEnter_reach
    | apply Node.updGate_reach
    | apply Reach.ite
    | apply Reach.foldl
    | split

theorem Node.safeTake_reach {ps : List Part} {n0 : Node} (x0 : Node) (x1 : Nat) (hx0 : Reach ps n0 x0) (hT : within [.mem, .ram, .host, .stalls, .cache, .fio, .axes, .drives, .line, .zb, .cust, .lifts, .rcd, .freeCtr] ps = true) : Reach ps n0 (Node.safeTake x0 x1) := by
  unfold Node.safeTake
  try dsimp only
  with_reducible repeat' first
    | assumption
    | intro _
    | exact within_trans (by decide) hT
    | apply Node.driveStall_reach
    | apply Node.faultAxis_reach
    | apply Node.restSink_reach
    | apply Node.stopCar_reach
    | apply Reach.ite
    | apply Reach.foldl
    | split

theorem Node.answerStops_reach {ps : List Part} {n0 : Node} (x0 : Node) (x1 : Nat) (x2 : Nat) (hx0 : Reach ps n0 x0) (hT : within [.mem, .ram, .host, .stalls, .line, .rcd, .freeCtr] ps = true) : Reach ps n0 (Node.answerStops x0 x1 x2) := by
  unfold Node.answerStops
  try dsimp only
  with_reducible repeat' first
    | assumption
    | intro _
    | exact within_trans (by decide) hT
    | apply Node.setStall_reach
    | apply Node.answer_reach
    | apply Reach.ite
    | apply Reach.foldl
    | split

theorem Node.permanentFault_reach {ps : List Part} {n0 : Node} (x0 : Node) (x1 : Nat) (x2 : Nat) (hx0 : Reach ps n0 x0) (hT : within [.mem, .ram, .host, .stalls, .cache, .loops, .fio, .encs, .axes, .drives, .line, .zb, .cust, .lifts, .gates, .rcd, .hlth, .freeCtr] ps = true) : Reach ps n0 (Node.permanentFault x0 x1 x2) := by
  unfold Node.permanentFault
  try dsimp only
  with_reducible repeat' first
    | assumption
    | intro _
    | exact within_trans (by decide) hT
    | apply Node.swapParts_reach
    | apply Node.leaveResource_reach
    | apply Node.updStall_reach
    | apply Node.sinkRuns_reach
    | apply Node.onNewResource_reach
    | apply Node.driveStall_reach
    | apply Node.log_reach
    | apply Node.mapWrite_reach
    | apply Node.quiet_reach
    | apply Node.safeTake_reach
    | apply Node.answerStops_reach
    | apply Reach.ite
    | apply Reach.foldl
    | split

theorem Node.endTry_reach {ps : List Part} {n0 : Node} (x0 : Node) (x1 : Nat) (hx0 : Reach ps n0 x0) (hT : within [.fio] ps = true) : Reach ps n0 (Node.endTry x0 x1) := by
  unfold Node.endTry
  try dsimp only
  with_reducible repeat' first
    | assumption
    | intro _
    | exact within_trans (by decide) hT
    | apply Node.setOut_reach
    | apply Reach.ite
    | apply Reach.foldl
    | split

theorem Node.keepDuty_reach {ps : List Part} {n0 : Node} (x0 : Node) (x1 : Nat) (hx0 : Reach ps n0 x0) (hT : within [.fio] ps = true) : Reach ps n0 (Node.keepDuty x0 x1) := by
  unfold Node.keepDuty
  try dsimp only
  with_reducible repeat' first
    | assumption
    | intro _
    | exact within_trans (by decide) hT
    | apply Node.setOut_reach
    | apply Reach.ite
    | apply Reach.foldl
    | split

theorem Node.stopped_reach {ps : List Part} {n0 : Node} (x0 : Node) (x1 : Nat) (hx0 : Reach ps n0 x0) (hT : within [.mem, .ram, .host, .stalls, .cache, .fio, .encs, .line, .zb, .cust, .lifts, .gates, .rcd, .freeCtr] ps = true) : Reach ps n0 (Node.stopped x0 x1) := by
  unfold Node.stopped
  try dsimp only
  with_reducible repeat' first
    | assumption
    | intro _
    | exact within_trans (by decide) hT
    | apply Node.updStall_reach
    | apply Node.keepDuty_reach
    | apply Node.answerStops_reach
    | apply Node.quiet_reach
    | apply Node.driveStall_reach
    | apply Reach.ite
    | apply Reach.foldl
    | split

theorem Node.transientFault_reach {ps : List Part} {n0 : Node} (x0 : Node) (x1 : Nat) (x2 : Nat) (x3 : optParam Bool Bool.true) (hx0 : Reach ps n0 x0) (hT : within [.mem, .ram, .host, .stalls, .cache, .loops, .fio, .encs, .axes, .drives, .line, .zb, .cust, .lifts, .gates, .rcd, .hlth, .freeCtr] ps = true) : Reach ps n0 (Node.transientFault x0 x1 x2 x3) := by
  unfold Node.transientFault
  try dsimp only
  with_reducible repeat' first
    | assumption
    | intro _
    | exact within_trans (by decide) hT
    | apply Node.putStall_reach
    | apply Node.permanentFault_reach
    | apply Node.endTry_reach
    | apply Node.updStall_reach
    | apply Node.log_reach
    | apply Node.safeTake_reach
    | apply Node.stopped_reach
    | apply Reach.ite
    | apply Reach.foldl
    | split

theorem Node.zbAbort_reach {ps : List Part} {n0 : Node} (x0 : Node) (x1 : ZbMsg) (x2 : Nat) (hx0 : Reach ps n0 x0) (hT : within [.mem, .ram, .host, .stalls, .cache, .loops, .fio, .encs, .axes, .drives, .line, .zb, .cust, .lifts, .gates, .rcd, .hlth, .freeCtr] ps = true) : Reach ps n0 (Node.zbAbort x0 x1 x2) := by
  unfold Node.zbAbort
  try dsimp only
  with_reducible repeat' first
    | assumption
    | intro _
    | exact within_trans (by decide) hT
    | apply Node.log_reach
    | apply Node.updZb_reach
    | apply Node.zbOutcome_reach
    | apply Node.transientFault_reach
    | apply Reach.ite
    | apply Reach.foldl
    | split

theorem Node.zbEmpty_reach {ps : List Part} {n0 : Node} (x0 : Node) (x1 : Nat) (x2 : Bool) (hx0 : Reach ps n0 x0) (hT : within [.mem, .ram, .host, .stalls, .cache, .loops, .fio, .encs, .axes, .drives, .line, .zb, .cust, .lifts, .gates, .rcd, .hlth, .freeCtr] ps = true) : Reach ps n0 (Node.zbEmpty x0 x1 x2) := by
  unfold Node.zbEmpty
  try dsimp only
  with_reducible repeat' first
    | assumption
    | intro _
    | exact within_trans (by decide) hT
    | apply Node.zbAbort_reach
    | apply Node.updZb_reach
    | apply Reach.ite
    | apply Reach.foldl
    | split

theorem Node.zbLeaves_reach {ps : List Part} {n0 : Node} (x0 : Node) (hx0 : Reach ps n0 x0) (hT : within [.mem, .ram, .host, .stalls, .cache, .loops, .fio, .encs, .axes, .drives, .line, .zb, .cust, .lifts, .gates, .rcd, .safe, .hlth, .freeCtr] ps = true) : Reach ps n0 (Node.zbLeaves x0) := by
  unfold Node.zbLeaves
  try dsimp only
  with_reducible repeat' first
    | assumption
    | intro _
    | exact within_trans (by decide) hT
    | apply Node.zbEmpty_reach
    | apply Node.zbHolds_reach
    | apply Node.updZb_reach
    | apply Reach.ite
    | apply Reach.foldl
    | split

theorem Node.updChan_reach {ps : List Part} {n0 : Node} (x0 : Node) (x1 : Nat) (x2 : Channel → Channel) (hx0 : Reach ps n0 x0) (hT : within [.safe] ps = true) : Reach ps n0 (Node.updChan x0 x1 x2) := by
  unfold Node.updChan
  try dsimp only
  with_reducible repeat' first
    | assumption
    | intro _
    | exact within_trans (by decide) hT
    | apply Node.setChan_reach
    | apply Reach.ite
    | apply Reach.foldl
    | split

theorem Node.sfSwitch_reach {ps : List Part} {n0 : Node} (x0 : Node) (x1 : Nat) (x2 : BitVec 5) (hx0 : Reach ps n0 x0) (hT : within [.fio, .safe] ps = true) : Reach ps n0 (Node.sfSwitch x0 x1 x2) := by
  unfold Node.sfSwitch
  try dsimp only
  with_reducible repeat' first
    | assumption
    | intro _
    | exact within_trans (by decide) hT
    | apply Node.setChan_reach
    | apply Reach.ite
    | apply Reach.set_fio (m := x0)
    | apply Reach.foldl
    | split
    | apply Reach.set_fio

theorem Node.sfStandard_reach {ps : List Part} {n0 : Node} (x0 : Node) (x1 : Nat) (hx0 : Reach ps n0 x0) (hT : within [.fio, .safe] ps = true) : Reach ps n0 (Node.sfStandard x0 x1) := by
  unfold Node.sfStandard
  try dsimp only
  with_reducible repeat' first
    | assumption
    | intro _
    | exact within_trans (by decide) hT
    | apply Node.sfSwitch_reach
    | apply Reach.ite
    | apply Reach.foldl
    | split

theorem Node.updSafe_reach {ps : List Part} {n0 : Node} (x0 : Node) (x1 : Safety → Safety) (hx0 : Reach ps n0 x0) (hT : within [.safe] ps = true) : Reach ps n0 (Node.updSafe x0 x1) := by
  unfold Node.updSafe
  try dsimp only
  with_reducible repeat' first
    | assumption
    | intro _
    | exact within_trans (by decide) hT
    | apply Reach.ite
    | apply Reach.set_safe (m := x0)
    | apply Reach.foldl
    | split
    | apply Reach.set_safe

theorem Node.sfLog_reach {ps : List Part} {n0 : Node} (x0 : Node) (x1 : Nat) (x2 : Nat) (x3 : Nat) (x4 : Nat) (x5 : Nat) (hx0 : Reach ps n0 x0) (hT : within [.rcd, .safe] ps = true) : Reach ps n0 (Node.sfLog x0 x1 x2 x3 x4 x5) := by
  unfold Node.sfLog
  try dsimp only
  with_reducible repeat' first
    | assumption
    | intro _
    | exact within_trans (by decide) hT
    | apply Node.updChan_reach
    | apply Node.log_reach
    | apply Reach.ite
    | apply Reach.set_rcd (m := x0)
    | apply Reach.foldl
    | split
    | apply Reach.set_rcd

theorem Node.zoneEnter_reach {ps : List Part} {n0 : Node} (x0 : Node) (x1 : ZoneSt) (x2 : Nat) (hx0 : Reach ps n0 x0) (hT : within [.rcd, .safe] ps = true) : Reach ps n0 (Node.zoneEnter x0 x1 x2) := by
  unfold Node.zoneEnter
  try dsimp only
  with_reducible repeat' first
    | assumption
    | intro _
    | exact within_trans (by decide) hT
    | apply Node.updSafe_reach
    | apply Node.sfLog_reach
    | apply Reach.ite
    | apply Reach.foldl
    | split

theorem Node.zoneStop_reach {ps : List Part} {n0 : Node} (x0 : Node) (x1 : Nat) (hx0 : Reach ps n0 x0) (hT : within [.fio, .rcd, .safe] ps = true) : Reach ps n0 (Node.zoneStop x0 x1) := by
  unfold Node.zoneStop
  try dsimp only
  with_reducible repeat' first
    | assumption
    | intro _
    | exact within_trans (by decide) hT
    | apply Node.updSafe_reach
    | apply Node.zoneEnter_reach
    | apply Node.sfSwitch_reach
    | apply Reach.ite
    | apply Reach.foldl
    | split

theorem Node.chanGone_reach {ps : List Part} {n0 : Node} (x0 : Node) (x1 : Nat) (x2 : Bool) (hx0 : Reach ps n0 x0) (hT : within [.fio, .rcd, .safe] ps = true) : Reach ps n0 (Node.chanGone x0 x1 x2) := by
  unfold Node.chanGone
  try dsimp only
  with_reducible repeat' first
    | assumption
    | intro _
    | exact within_trans (by decide) hT
    | apply Node.updChan_reach
    | apply Node.sfStandard_reach
    | apply Node.zoneEnter_reach
    | apply Node.updSafe_reach
    | apply Node.zoneStop_reach
    | apply Reach.ite
    | apply Reach.foldl
    | split

theorem Node.sfOpen_reach {ps : List Part} {n0 : Node} (x0 : Node) (x1 : Nat) (hx0 : Reach ps n0 x0) (hT : within [.fio, .safe] ps = true) : Reach ps n0 (Node.sfOpen x0 x1) := by
  unfold Node.sfOpen
  try dsimp only
  with_reducible repeat' first
    | assumption
    | intro _
    | exact within_trans (by decide) hT
    | apply Node.sfSwitch_reach
    | apply Reach.ite
    | apply Reach.foldl
    | split

theorem Node.endSession_reach {ps : List Part} {n0 : Node} (x0 : Node) (x1 : Nat) (hx0 : Reach ps n0 x0) (hT : within [.host, .sec] ps = true) : Reach ps n0 (Node.endSession x0 x1) := by
  unfold Node.endSession
  try dsimp only
  with_reducible repeat' first
    | assumption
    | intro _
    | exact within_trans (by decide) hT
    | apply Node.updHost_reach
    | apply Reach.ite
    | apply Reach.set_sec (m := x0)
    | apply Reach.foldl
    | split
    | apply Reach.set_sec

theorem Node.endSessions_reach {ps : List Part} {n0 : Node} (x0 : Node) (hx0 : Reach ps n0 x0) (hT : within [.host, .sec] ps = true) : Reach ps n0 (Node.endSessions x0) := by
  unfold Node.endSessions
  try dsimp only
  with_reducible repeat' first
    | assumption
    | intro _
    | exact within_trans (by decide) hT
    | apply Node.endSession_reach
    | apply Reach.ite
    | apply Reach.foldl
    | split

theorem Node.islDown_reach {ps : List Part} {n0 : Node} (x0 : Node) (x1 : Nat) (x2 : Option IslOp) (hx0 : Reach ps n0 x0) (hT : within [.mem, .ram, .host, .stalls, .cache, .rcp, .loops, .fio, .adc, .encs, .axes, .drives, .line, .zb, .cust, .lifts, .gates, .harv, .rcd, .safe, .sec, .hlth, .freeCtr] ps = true) : Reach ps n0 (Node.islDown x0 x1 x2) := by
  unfold Node.islDown
  try dsimp only
  with_reducible repeat' first
    | assumption
    | intro _
    | exact within_trans (by decide) hT
    | apply Node.refreshHolds_reach
    | apply Node.coreStop_reach
    | apply Node.cutFrame_reach
    | apply Node.holdSampling_reach
    | apply Node.flushCache_reach
    | apply Node.holdInsts_reach
    | apply Node.updEnc_reach
    | apply Node.losePositions_reach
    | apply Node.loseAxis_reach
    | apply Node.driveAll_reach
    | apply Node.captureHeld_reach
    | apply Node.zbLeaves_reach
    | apply Node.chanGone_reach
    | apply Node.sfOpen_reach
    | apply Node.endSessions_reach
    | apply Reach.ite
    | apply Reach.foldl
    | split

theorem Node.report_reach {ps : List Part} {n0 : Node} (x0 : Node) (hx0 : Reach ps n0 x0) (hT : within [.line, .freeCtr] ps = true) : Reach ps n0 (Node.report x0) := by
  unfold Node.report
  try dsimp only
  with_reducible repeat' first
    | assumption
    | intro _
    | exact within_trans (by decide) hT
    | apply Node.updLine_reach
    | apply Node.send_reach
    | apply Reach.ite
    | apply Reach.foldl
    | split

theorem Node.ringBreakAt_reach {ps : List Part} {n0 : Node} (x0 : Node) (x1 : Nat) (hx0 : Reach ps n0 x0) (hT : within [.line, .rcd, .freeCtr] ps = true) : Reach ps n0 (Node.ringBreakAt x0 x1) := by
  unfold Node.ringBreakAt
  try dsimp only
  with_reducible repeat' first
    | assumption
    | intro _
    | exact within_trans (by decide) hT
    | apply Node.updLine_reach
    | apply Node.updPort_reach
    | apply Node.log_reach
    | apply Node.freeTtl_reach
    | apply Node.newFrame_reach
    | apply Node.egress_reach
    | refine Reach.ofSnd (by assumption) ?_
    | apply Reach.ite
    | apply Reach.foldl
    | split

theorem Node.portDown_reach {ps : List Part} {n0 : Node} (x0 : Node) (x1 : Nat) (x2 : Nat) (x3 : Option (Nat × Option T64)) (hx0 : Reach ps n0 x0) (hT : within [.line, .time, .rcd, .glean, .freeCtr] ps = true) : Reach ps n0 (Node.portDown x0 x1 x2 x3) := by
  unfold Node.portDown
  try dsimp only
  with_reducible repeat' first
    | assumption
    | intro _
    | exact within_trans (by decide) hT
    | apply Node.raise_reach
    | apply Node.dropQueues_reach
    | apply Node.setPort_reach
    | apply Node.slaveLeaves_reach
    | apply Node.withdraw_reach
    | apply Node.log_reach
    | apply Node.report_reach
    | apply Node.ringBreakAt_reach
    | apply Reach.ite
    | apply Reach.foldl
    | split

theorem Node.lineReset_reach {ps : List Part} {n0 : Node} (x0 : Node) (hx0 : Reach ps n0 x0) (hT : within [.host, .line, .time, .rcd, .glean, .freeCtr] ps = true) : Reach ps n0 (Node.lineReset x0) := by
  unfold Node.lineReset
  try dsimp only
  with_reducible repeat' first
    | assumption
    | intro _
    | exact within_trans (by decide) hT
    | apply Node.portDown_reach
    | apply Node.updHost_reach
    | apply Node.updLine_reach
    | apply Reach.ite
    | apply Reach.foldl
    | split

theorem Node.dropCache_reach {ps : List Part} {n0 : Node} (x0 : Node) (hx0 : Reach ps n0 x0) (hT : within [.stalls, .cache] ps = true) : Reach ps n0 (Node.dropCache x0) := by
  unfold Node.dropCache
  try dsimp only
  with_reducible repeat' first
    | assumption
    | intro _
    | exact within_trans (by decide) hT
    | apply Node.uncache_reach
    | apply Reach.ite
    | apply Reach.foldl
    | split

theorem Node.freshLoops_reach {ps : List Part} {n0 : Node} (x0 : Node) (hx0 : Reach ps n0 x0) (hT : within [.loops] ps = true) : Reach ps n0 (Node.freshLoops x0) := by
  unfold Node.freshLoops
  try dsimp only
  with_reducible repeat' first
    | assumption
    | intro _
    | exact within_trans (by decide) hT
    | apply Reach.ite
    | apply Reach.set_loops (m := x0)
    | apply Reach.foldl
    | split
    | apply Reach.set_loops

theorem Node.resetInst_reach {ps : List Part} {n0 : Node} (x0 : Node) (x1 : Nat) (hx0 : Reach ps n0 x0) (hT : within [.mem, .ram, .host, .rcp, .line, .rcd, .freeCtr] ps = true) : Reach ps n0 (Node.resetInst x0 x1) := by
  unfold Node.resetInst
  try dsimp only
  with_reducible repeat' first
    | assumption
    | intro _
    | exact within_trans (by decide) hT
    | apply Node.endInst_reach
    | apply Node.setInst_reach
    | apply Node.ok_reach
    | apply Reach.ite
    | apply Reach.foldl
    | split

theorem Node.dropInsts_reach {ps : List Part} {n0 : Node} (x0 : Node) (x1 : Bool) (hx0 : Reach ps n0 x0) (hT : within [.mem, .ram, .host, .rcp, .line, .rcd, .freeCtr] ps = true) : Reach ps n0 (Node.dropInsts x0 x1) := by
  unfold Node.dropInsts
  try dsimp only
  with_reducible repeat' first
    | assumption
    | intro _
    | exact within_trans (by decide) hT
    | apply Node.resetInst_reach
    | apply Node.ok_reach
    | apply Node.setInst_reach
    | apply Reach.ite
    | apply Reach.foldl
    | split

theorem Node.islClear_reach {ps : List Part} {n0 : Node} (x0 : Node) (x1 : Nat) (x2 : Option IslOp) (hx0 : Reach ps n0 x0) (hT : within [.mem, .ram, .host, .stalls, .cache, .rcp, .loops, .fio, .encs, .drives, .line, .time, .zb, .rcd, .safe, .glean, .freeCtr] ps = true) : Reach ps n0 (Node.islClear x0 x1 x2) := by
  unfold Node.islClear
  try dsimp only
  repeat' first
    | with_reducible assumption
    | intro _
    | with_reducible exact within_trans (by decide) hT
    | with_reducible apply Node.lineReset_reach
    | with_reducible apply Node.dropCache_reach
    | with_reducible apply Node.freshLoops_reach
    | with_reducible apply Node.dropInsts_reach
    | with_reducible apply Node.updFio_reach
    | with_reducible apply Node.updZb_reach
    | with_reducible apply Node.updChan_reach
    | with_reducible apply Reach.ite
    | with_reducible apply Reach.set_encs (m := x0)
    | with_reducible apply Reach.set_drives (m := x0)
    | with_reducible apply Reach.set_glean (m := x0)
    | with_reducible apply Reach.foldl
    | split
    | with_reducible apply Reach.set_encs
    | with_reducible apply Reach.set_drives
    | with_reducible apply Reach.set_glean
    | (refine Reach.upd (m := x0) ?_ ?_ ?_; (intro p hp; cases p <;> first | exact absurd (within_mem hT rfl) hp | exact rfl); exact id)

theorem Node.islandHeld_reach {ps : List Part} {n0 : Node} (x0 : Node) (x1 : Nat) (hx0 : Reach ps n0 x0) (hT : within [.isl, .mem, .ram, .host, .stalls, .cache, .rcp, .loops, .fio, .encs, .drives, .line, .time, .zb, .rcd, .safe, .glean, .freeCtr] ps = true) : Reach ps n0 (Node.islandHeld x0 x1) := by
  unfold Node.islandHeld
  try dsimp only
  with_reducible repeat' first
    | assumption
    | intro _
    | exact within_trans (by decide) hT
    | apply Node.islClear_reach
    | apply Node.updIsland_reach
    | apply Reach.ite
    | apply Reach.foldl
    | split

theorem Node.islandQuiet_reach {ps : List Part} {n0 : Node} (x0 : Node) (x1 : Nat) (hx0 : Reach ps n0 x0) (hT : within [.isl, .mem, .ram, .host, .stalls, .cache, .rcp, .loops, .fio, .encs, .drives, .line, .time, .zb, .rcd, .safe, .glean, .freeCtr] ps = true) : Reach ps n0 (Node.islandQuiet x0 x1) := by
  unfold Node.islandQuiet
  try dsimp only
  with_reducible repeat' first
    | assumption
    | intro _
    | exact within_trans (by decide) hT
    | apply Node.updIsland_reach
    | apply Node.islandHeld_reach
    | apply Reach.ite
    | apply Reach.foldl
    | split

theorem Node.startOp_reach {ps : List Part} {n0 : Node} (x0 : Node) (x1 : Nat) (x2 : IslOp) (x3 : Nat) (x4 : Option Nat) (hx0 : Reach ps n0 x0) (hT : within [.isl, .mem, .ram, .power, .host, .stalls, .cache, .rcp, .loops, .fio, .adc, .encs, .axes, .drives, .line, .time, .zb, .cust, .lifts, .gates, .harv, .rcd, .safe, .glean, .sec, .hlth, .freeCtr] ps = true) : Reach ps n0 (Node.startOp x0 x1 x2 x3 x4) := by
  unfold Node.startOp
  try dsimp only
  with_reducible repeat' first
    | assumption
    | intro _
    | exact within_trans (by decide) hT
    | apply Node.leaveLine_reach
    | apply Node.updIsland_reach
    | apply Node.islDown_reach
    | apply Node.islandQuiet_reach
    | apply Reach.ite
    | apply Reach.foldl
    | split

theorem Node.touch_reach {ps : List Part} {n0 : Node} (x0 : Node) (x1 : Nat) (hx0 : Reach ps n0 x0) (hT : within [.cache] ps = true) : Reach ps n0 (Node.touch x0 x1) := by
  unfold Node.touch
  try dsimp only
  with_reducible repeat' first
    | assumption
    | intro _
    | exact within_trans (by decide) hT
    | apply Reach.ite
    | apply Reach.set_cache (m := x0)
    | apply Reach.foldl
    | split
    | apply Reach.set_cache

theorem Node.fill_reach {ps : List Part} {n0 : Node} (x0 : Node) (x1 : Nat) (hx0 : Reach ps n0 x0) (hT : within [.stalls, .cache] ps = true) : Reach ps n0 (Node.fill x0 x1) := by
  unfold Node.fill
  try dsimp only
  with_reducible repeat' first
    | assumption
    | intro _
    | exact within_trans (by decide) hT
    | apply Node.touch_reach
    | apply Node.uncache_reach
    | apply Reach.ite
    | apply Reach.set_cache (m := x0)
    | apply Reach.foldl
    | split
    | apply Reach.set_cache

theorem Node.takeHolds_reach {ps : List Part} {n0 : Node} (x0 : Node) (x1 : Nat) (hx0 : Reach ps n0 x0) (hT : within [.stalls, .cache, .loops, .fio, .axes, .drives, .zb, .cust, .lifts, .gates, .rcd, .freeCtr] ps = true) : Reach ps n0 (Node.takeHolds x0 x1) := by
  unfold Node.takeHolds
  try dsimp only
  with_reducible repeat' first
    | assumption
    | intro _
    | exact within_trans (by decide) hT
    | apply Node.beginHold_reach
    | apply Reach.ite
    | apply Reach.foldl
    | split

theorem Node.initKind_reach {ps : List Part} {n0 : Node} (x0 : Node) (x1 : Nat) (hx0 : Reach ps n0 x0) (hT : within [.stalls, .cache, .loops, .fio, .adc, .encs, .axes, .drives, .zb, .cust, .lifts, .gates, .rcd] ps = true) : Reach ps n0 (Node.initKind x0 x1) := by
  unfold Node.initKind
  try dsimp only
  with_reducible repeat' first
    | assumption
    | intro _
    | exact within_trans (by decide) hT
    | apply Node.driveStall_reach
    | apply Node.putStall_reach
    | apply Node.setIn_reach
    | apply Node.setLoop_reach
    | apply Node.needObject_reach
    | apply Node.updAxis_reach
    | apply Node.updStall_reach
    | apply Node.updEnc_reach
    | apply Node.standAxis_reach
    | apply Node.liftStart_reach
    | apply Node.gateStart_reach
    | apply Reach.ite
    | apply Reach.set_adc (m := x0)
    | apply Reach.foldl
    | split
    | apply Reach.set_adc

theorem Node.startChan_reach {ps : List Part} {n0 : Node} (x0 : Node) (x1 : Nat) (hx0 : Reach ps n0 x0) (hT : within [.stalls, .cache, .loops, .fio, .adc, .encs, .axes, .drives, .zb, .cust, .lifts, .gates, .rcd, .freeCtr] ps = true) : Reach ps n0 (Node.startChan x0 x1) := by
  unfold Node.startChan
  try dsimp only
  with_reducible repeat' first
    | assumption
    | intro _
    | exact within_trans (by decide) hT
    | apply Node.updStall_reach
    | apply Node.fill_reach
    | apply Node.sinkRuns_reach
    | apply Node.takeHolds_reach
    | apply Node.repin_reach
    | apply Node.initKind_reach
    | apply Reach.ite
    | apply Reach.foldl
    | split

theorem Node.tryStart_reach {ps : List Part} {n0 : Node} (x0 : Node) (x1 : Nat) (hx0 : Reach ps n0 x0) (hT : within [.stalls, .cache, .loops, .fio, .adc, .encs, .axes, .drives, .zb, .cust, .lifts, .gates, .rcd, .freeCtr] ps = true) : Reach ps n0 (Node.tryStart x0 x1).2 := by
  unfold Node.tryStart
  try dsimp only
  with_reducible repeat' first
    | assumption
    | intro _
    | exact within_trans (by decide) hT
    | apply Node.startChan_reach
    | apply Reach.ite
    | apply Reach.foldl
    | split

theorem Node.autostartChan_reach {ps : List Part} {n0 : Node} (x0 : Node) (x1 : Nat) (hx0 : Reach ps n0 x0) (hT : within [.stalls, .cache, .loops, .fio, .adc, .encs, .axes, .drives, .zb, .cust, .lifts, .gates, .rcd, .freeCtr] ps = true) : Reach ps n0 (Node.autostartChan x0 x1) := by
  unfold Node.autostartChan
  try dsimp only
  with_reducible repeat' first
    | assumption
    | intro _
    | exact within_trans (by decide) hT
    | apply Node.tryStart_reach
    | apply Node.log_reach
    | refine Reach.ofSnd (by assumption) ?_
    | apply Reach.ite
    | apply Reach.foldl
    | split

theorem Node.restoreStall_reach {ps : List Part} {n0 : Node} (x0 : Node) (x1 : Nat) (hx0 : Reach ps n0 x0) (hT : within [.mem, .ram, .host, .stalls, .cache, .loops, .fio, .adc, .encs, .axes, .drives, .line, .zb, .cust, .lifts, .gates, .rcd, .freeCtr] ps = true) : Reach ps n0 (Node.restoreStall x0 x1) := by
  unfold Node.restoreStall
  try dsimp only
  with_reducible repeat' first
    | assumption
    | intro _
    | exact within_trans (by decide) hT
    | apply Node.answerStops_reach
    | apply Node.setStall_reach
    | apply Node.uncache_reach
    | apply Node.driveStall_reach
    | apply Node.autostartChan_reach
    | apply Reach.ite
    | apply Reach.foldl
    | split

theorem Node.layRecipes_reach {ps : List Part} {n0 : Node} (x0 : Node) (hx0 : Reach ps n0 x0) (hT : within [.mem, .ram] ps = true) : Reach ps n0 (Node.layRecipes x0) := by
  unfold Node.layRecipes
  try dsimp only
  with_reducible repeat' first
    | assumption
    | intro _
    | exact within_trans (by decide) hT
    | apply Node.write_reach
    | apply Reach.ite
    | apply Reach.foldl
    | split

theorem Node.reloadSteps_reach {ps : List Part} {n0 : Node} (x0 : Node) (x1 : Nat) (hx0 : Reach ps n0 x0) (hT : within [.mem, .ram] ps = true) : Reach ps n0 (Node.reloadSteps x0 x1) := by
  unfold Node.reloadSteps
  try dsimp only
  with_reducible repeat' first
    | assumption
    | intro _
    | exact within_trans (by decide) hT
    | apply Node.write_reach
    | apply Reach.ite
    | apply Reach.foldl
    | split

theorem Node.restoreRecipes_reach {ps : List Part} {n0 : Node} (x0 : Node) (x1 : Nat) (hx0 : Reach ps n0 x0) (hT : within [.mem, .ram, .host, .rcp, .line, .rcd, .freeCtr] ps = true) : Reach ps n0 (Node.restoreRecipes x0 x1) := by
  unfold Node.restoreRecipes
  try dsimp only
  with_reducible repeat' first
    | assumption
    | intro _
    | exact within_trans (by decide) hT
    | apply Node.layRecipes_reach
    | apply Node.reloadSteps_reach
    | apply Node.resetInst_reach
    | apply Reach.ite
    | apply Reach.foldl
    | split

theorem Node.askPorts_reach {ps : List Part} {n0 : Node} (x0 : Node) (x1 : List Nat) (hx0 : Reach ps n0 x0) (hT : within [.line, .cust, .freeCtr] ps = true) : Reach ps n0 (Node.askPorts x0 x1) := by
  unfold Node.askPorts
  try dsimp only
  with_reducible repeat' first
    | assumption
    | intro _
    | exact within_trans (by decide) hT
    | apply Node.updCust_reach
    | apply Node.await_reach
    | apply Node.custSend_reach
    | apply Reach.ite
    | apply Reach.foldl
    | split

theorem Node.askNeighbours_reach {ps : List Part} {n0 : Node} (x0 : Node) (hx0 : Reach ps n0 x0) (hT : within [.line, .cust, .freeCtr] ps = true) : Reach ps n0 (Node.askNeighbours x0) := by
  unfold Node.askNeighbours
  try dsimp only
  with_reducible repeat' first
    | assumption
    | intro _
    | exact within_trans (by decide) hT
    | apply Node.askPorts_reach
    | apply Reach.ite
    | apply Reach.foldl
    | split

theorem Node.custRebuild_reach {ps : List Part} {n0 : Node} (x0 : Node) (x1 : List Nat) (hx0 : Reach ps n0 x0) (hT : within [.line, .cust, .freeCtr] ps = true) : Reach ps n0 (Node.custRebuild x0 x1) := by
  unfold Node.custRebuild
  try dsimp only
  with_reducible repeat' first
    | assumption
    | intro _
    | exact within_trans (by decide) hT
    | apply Node.askNeighbours_reach
    | apply Node.updCust_reach
    | apply Reach.ite
    | apply Reach.foldl
    | split

theorem Node.restoreMirror_reach {ps : List Part} {n0 : Node} (x0 : Node) (x1 : Nat) (x2 : Nat) (hx0 : Reach ps n0 x0) (hT : within [.line, .cust, .freeCtr] ps = true) : Reach ps n0 (Node.restoreMirror x0 x1 x2) := by
  unfold Node.restoreMirror
  try dsimp only
  with_reducible repeat' first
    | assumption
    | intro _
    | exact within_trans (by decide) hT
    | apply Node.updCust_reach
    | apply Node.askPorts_reach
    | apply Reach.ite
    | apply Reach.foldl
    | split

theorem Node.setHslot_reach {ps : List Part} {n0 : Node} (x0 : Node) (x1 : Nat) (x2 : HvSlot) (hx0 : Reach ps n0 x0) (hT : within [.harv] ps = true) : Reach ps n0 (Node.setHslot x0 x1 x2) := by
  unfold Node.setHslot
  try dsimp only
  with_reducible repeat' first
    | assumption
    | intro _
    | exact within_trans (by decide) hT
    | apply Reach.ite
    | apply Reach.set_harv (m := x0)
    | apply Reach.foldl
    | split
    | apply Reach.set_harv

theorem Node.updHslot_reach {ps : List Part} {n0 : Node} (x0 : Node) (x1 : Nat) (x2 : HvSlot → HvSlot) (hx0 : Reach ps n0 x0) (hT : within [.harv] ps = true) : Reach ps n0 (Node.updHslot x0 x1 x2) := by
  unfold Node.updHslot
  try dsimp only
  with_reducible repeat' first
    | assumption
    | intro _
    | exact within_trans (by decide) hT
    | apply Node.setHslot_reach
    | apply Reach.ite
    | apply Reach.foldl
    | split

theorem Node.slotLost_reach {ps : List Part} {n0 : Node} (x0 : Node) (x1 : Nat) (x2 : Nat) (hx0 : Reach ps n0 x0) (hT : within [.harv] ps = true) : Reach ps n0 (Node.slotLost x0 x1 x2) := by
  unfold Node.slotLost
  try dsimp only
  with_reducible repeat' first
    | assumption
    | intro _
    | exact within_trans (by decide) hT
    | apply Node.updHarv_reach
    | apply Reach.ite
    | apply Reach.foldl
    | split

theorem Node.slotGap_reach {ps : List Part} {n0 : Node} (x0 : Node) (x1 : Nat) (x2 : Nat) (x3 : Nat) (x4 : Nat) (hx0 : Reach ps n0 x0) (hT : within [.harv, .rcd] ps = true) : Reach ps n0 (Node.slotGap x0 x1 x2 x3 x4) := by
  unfold Node.slotGap
  try dsimp only
  with_reducible repeat' first
    | assumption
    | intro _
    | exact within_trans (by decide) hT
    | apply Node.log_reach
    | apply Node.updHslot_reach
    | apply Node.slotLost_reach
    | apply Reach.ite
    | apply Reach.foldl
    | split

theorem Node.restoreHarvest_reach {ps : List Part} {n0 : Node} (x0 : Node) (x1 : Nat) (hx0 : Reach ps n0 x0) (hT : within [.harv, .rcd] ps = true) : Reach ps n0 (Node.restoreHarvest x0 x1) := by
  unfold Node.restoreHarvest
  try dsimp only
  with_reducible repeat' first
    | assumption
    | intro _
    | exact within_trans (by decide) hT
    | apply Node.updHarv_reach
    | apply Node.slotGap_reach
    | apply Node.updHslot_reach
    | apply Reach.ite
    | apply Reach.foldl
    | split

theorem Node.overflowRings_reach {ps : List Part} {n0 : Node} (x0 : Node) (x1 : Nat) (hx0 : Reach ps n0 x0) (hT : within [.mem, .ram] ps = true) : Reach ps n0 (Node.overflowRings x0 x1) := by
  unfold Node.overflowRings
  try dsimp only
  with_reducible repeat' first
    | assumption
    | intro _
    | exact within_trans (by decide) hT
    | apply Node.write_reach
    | apply Reach.ite
    | apply Reach.foldl
    | split

theorem Node.restoreWindow_reach {ps : List Part} {n0 : Node} (x0 : Node) (x1 : Nat) (hx0 : Reach ps n0 x0) (hT : within [.mem, .ram, .host, .line, .rcd, .freeCtr] ps = true) : Reach ps n0 (Node.restoreWindow x0 x1) := by
  unfold Node.restoreWindow
  try dsimp only
  with_reducible repeat' first
    | assumption
    | intro _
    | exact within_trans (by decide) hT
    | apply Node.abortMbx_reach
    | apply Node.overflowRings_reach
    | apply Reach.ite
    | apply Reach.foldl
    | split

theorem Node.unpoison_reach {ps : List Part} {n0 : Node} (x0 : Node) (x1 : Nat) (x2 : Nat) (hx0 : Reach ps n0 x0) (hT : within [.mem] ps = true) : Reach ps n0 (Node.unpoison x0 x1 x2) := by
  unfold Node.unpoison
  try dsimp only
  with_reducible repeat' first
    | assumption
    | intro _
    | exact within_trans (by decide) hT
    | apply Node.updMem_reach
    | apply Reach.ite
    | apply Reach.foldl
    | split

theorem Node.restartOwner_reach {ps : List Part} {n0 : Node} (x0 : Node) (x1 : Nat) (hx0 : Reach ps n0 x0) (hT : within [.isl, .mem, .ram, .power, .host, .stalls, .cache, .rcp, .loops, .fio, .adc, .encs, .axes, .drives, .line, .time, .zb, .cust, .lifts, .gates, .harv, .rcd, .safe, .glean, .sec, .hlth, .freeCtr] ps = true) : Reach ps n0 (Node.restartOwner x0 x1) := by
  unfold Node.restartOwner
  try dsimp only
  with_reducible repeat' first
    | assumption
    | intro _
    | exact within_trans (by decide) hT
    | apply Node.startOp_reach
    | apply Node.restoreStall_reach
    | apply Node.restoreRecipes_reach
    | apply Node.custRebuild_reach
    | apply Node.restoreMirror_reach
    | apply Node.restoreHarvest_reach
    | apply Node.restoreWindow_reach
    | apply Node.unpoison_reach
    | apply Reach.ite
    | apply Reach.foldl
    | split

theorem Node.poke_reach {ps : List Part} {n0 : Node} (x0 : Node) (x1 : Nat) (x2 : Byte) (hx0 : Reach ps n0 x0) (hT : within [.ram, .stalls, .cache, .cust, .safe] ps = true) : Reach ps n0 (Node.poke x0 x1 x2) := by
  have w1 : within [.stalls] ps = true := within_trans (by decide) hT
  have w2 : within [.cache] ps = true := within_trans (by decide) hT
  have w3 : within [.cust] ps = true := within_trans (by decide) hT
  have w4 : within [.safe] ps = true := within_trans (by decide) hT
  have w5 : within [.ram] ps = true := within_trans (by decide) hT
  have hr : Reach ps n0 { x0 with ram := ramPuts x0.ram x1 [x2] } :=
    hx0.trans ⟨fun p hp => by cases p <;> first | exact absurd (within_mem w5 rfl) hp | exact rfl, fun h => ramPuts_wf h _ _⟩
  unfold Node.poke
  dsimp only
  with_reducible refine Reach.ite ?_ (Reach.ite ?_ (Reach.ite ?_ (Reach.ite ?_ ?_)))
  · with_reducible refine Reach.ite ?_ ?_
    · exact Reach.set_cache (m := x0) hx0 w2
    · exact Node.setStall_reach _ _ _ hx0 w1
  · exact Reach.set_cust (m := x0) hx0 w3
  · exact Reach.set_cust (m := x0) hx0 w3
  · exact Reach.set_cust (m := x0) hx0 w3
  · generalize exchOff x1 = r
    cases r with
    | none => exact hr
    | some q => exact Reach.ite (Node.updChan_reach _ _ _ hx0 w4) (Node.updChan_reach _ _ _ hx0 w4)

theorem Node.pokes_reach {ps : List Part} {n0 : Node} (x0 : Node) (x1 : Nat) (x2 : List Byte) (hx0 : Reach ps n0 x0) (hT : within [.mem, .ram, .stalls, .cache, .cust, .safe] ps = true) : Reach ps n0 (Node.pokes x0 x1 x2) := by
  unfold Node.pokes
  try dsimp only
  with_reducible repeat' first
    | assumption
    | intro _
    | exact within_trans (by decide) hT
    | apply Node.poke_reach
    | apply Node.updMem_reach
    | apply Reach.ite
    | apply Reach.foldl
    | split

theorem Node.copyEnds_reach {ps : List Part} {n0 : Node} (x0 : Node) (x1 : Nat) (x2 : Nat) (hx0 : Reach ps n0 x0) (hT : within [.isl, .mem, .ram, .power, .host, .stalls, .cache, .rcp, .loops, .fio, .adc, .encs, .axes, .drives, .line, .time, .zb, .cust, .lifts, .gates, .harv, .rcd, .safe, .glean, .sec, .hlth, .freeCtr] ps = true) : Reach ps n0 (Node.copyEnds x0 x1 x2) := by
  unfold Node.copyEnds
  try dsimp only
  with_reducible repeat' first
    | assumption
    | intro _
    | exact within_trans (by decide) hT
    | apply Node.restartOwner_reach
    | apply Node.updMem_reach
    | apply Node.pokes_reach
    | apply Reach.ite
    | apply Reach.foldl
    | split

theorem Node.pageCopied_reach {ps : List Part} {n0 : Node} (x0 : Node) (x1 : Nat) (hx0 : Reach ps n0 x0) (hT : within [.isl, .mem, .ram, .power, .host, .stalls, .cache, .rcp, .loops, .fio, .adc, .encs, .axes, .drives, .line, .time, .zb, .cust, .lifts, .gates, .harv, .rcd, .safe, .glean, .sec, .hlth, .freeCtr] ps = true) : Reach ps n0 (Node.pageCopied x0 x1) := by
  unfold Node.pageCopied
  try dsimp only
  with_reducible repeat' first
    | assumption
    | intro _
    | exact within_trans (by decide) hT
    | apply Node.updMem_reach
    | apply Node.copyEnds_reach
    | apply Node.log_reach
    | apply Node.mapWrite_reach
    | apply Reach.ite
    | apply Reach.foldl
    | split

theorem Node.rowCopied_reach {ps : List Part} {n0 : Node} (x0 : Node) (x1 : Nat) (hx0 : Reach ps n0 x0) (hT : within [.isl, .mem, .ram, .power, .host, .stalls, .cache, .rcp, .loops, .fio, .adc, .encs, .axes, .drives, .line, .time, .zb, .cust, .lifts, .gates, .harv, .rcd, .safe, .glean, .sec, .hlth, .freeCtr] ps = true) : Reach ps n0 (Node.rowCopied x0 x1) := by
  unfold Node.rowCopied
  try dsimp only
  with_reducible repeat' first
    | assumption
    | intro _
    | exact within_trans (by decide) hT
    | apply Node.copyEnds_reach
    | apply Node.mapWrite_reach
    | apply Node.updMem_reach
    | apply Reach.ite
    | apply Reach.foldl
    | split

theorem Node.afterCopies_reach {ps : List Part} {n0 : Node} (x0 : Node) (x1 : Nat) (x2 : Nat) (hx0 : Reach ps n0 x0) (hT : within [.isl, .mem, .ram, .power, .host, .stalls, .cache, .rcp, .loops, .fio, .adc, .encs, .axes, .drives, .line, .time, .zb, .cust, .lifts, .gates, .harv, .rcd, .safe, .glean, .sec, .hlth, .freeCtr] ps = true) : Reach ps n0 (Node.afterCopies x0 x1 x2) := by
  unfold Node.afterCopies
  try dsimp only
  with_reducible repeat' first
    | assumption
    | intro _
    | exact within_trans (by decide) hT
    | apply Node.pageCopied_reach
    | apply Node.rowCopied_reach
    | apply Reach.ite
    | apply Reach.foldl
    | split

theorem Node.giveUp_reach {ps : List Part} {n0 : Node} (x0 : Node) (x1 : Nat) (hx0 : Reach ps n0 x0) (hT : within [.rcp, .axes, .zb, .harv] ps = true) : Reach ps n0 (Node.giveUp x0 x1) := by
  unfold Node.giveUp
  try dsimp only
  repeat' first
    | with_reducible assumption
    | intro _
    | with_reducible exact within_trans (by decide) hT
    | with_reducible apply Reach.ite
    | with_reducible apply Reach.set_rcp (m := x0)
    | with_reducible apply Reach.set_axes (m := x0)
    | with_reducible apply Reach.set_zb (m := x0)
    | with_reducible apply Reach.set_harv (m := x0)
    | with_reducible apply Reach.foldl
    | split
    | with_reducible apply Reach.set_rcp
    | with_reducible apply Reach.set_axes
    | with_reducible apply Reach.set_zb
    | with_reducible apply Reach.set_harv
    | (refine Reach.upd (m := x0) ?_ ?_ ?_; (intro p hp; cases p <;> first | exact absurd (within_mem hT rfl) hp | exact rfl); exact id)

theorem Node.afterRestart_reach {ps : List Part} {n0 : Node} (x0 : Node) (x1 : Nat) (hx0 : Reach ps n0 x0) (hT : within [.mem, .ram, .host, .rcp, .axes, .line, .zb, .harv, .rcd, .freeCtr] ps = true) : Reach ps n0 (Node.afterRestart x0 x1) := by
  unfold Node.afterRestart
  try dsimp only
  with_reducible repeat' first
    | assumption
    | intro _
    | exact within_trans (by decide) hT
    | apply Node.answerWith_reach
    | apply Node.answer_reach
    | apply Node.giveUp_reach
    | apply Reach.ite
    | apply Reach.foldl
    | split

theorem Node.answerIsland_reach {ps : List Part} {n0 : Node} (x0 : Node) (x1 : Nat) (x2 : Nat) (hx0 : Reach ps n0 x0) (hT : within [.mem, .ram, .host, .line, .rcd, .freeCtr] ps = true) : Reach ps n0 (Node.answerIsland x0 x1 x2) := by
  unfold Node.answerIsland
  try dsimp only
  with_reducible repeat' first
    | assumption
    | intro _
    | exact within_trans (by decide) hT
    | apply Node.ok_reach
    | apply Node.log_reach
    | apply Reach.ite
    | apply Reach.foldl
    | split

theorem Node.answerSlot_reach {ps : List Part} {n0 : Node} (x0 : Node) (x1 : Nat) (x2 : Nat) (hx0 : Reach ps n0 x0) (hT : within [.mem, .ram, .host, .line, .harv, .rcd, .freeCtr] ps = true) : Reach ps n0 (Node.answerSlot x0 x1 x2) := by
  unfold Node.answerSlot
  try dsimp only
  with_reducible repeat' first
    | assumption
    | intro _
    | exact within_trans (by decide) hT
    | apply Node.setHslot_reach
    | apply Node.answer_reach
    | apply Reach.ite
    | apply Reach.foldl
    | split

theorem Node.answerSvc_reach {ps : List Part} {n0 : Node} (x0 : Node) (x1 : List Byte) (hx0 : Reach ps n0 x0) (hT : within [.host] ps = true) : Reach ps n0 (Node.answerSvc x0 x1) := by
  unfold Node.answerSvc
  try dsimp only
  with_reducible repeat' first
    | assumption
    | intro _
    | exact within_trans (by decide) hT
    | apply Node.updHost_reach
    | apply Reach.ite
    | apply Reach.foldl
    | split

theorem Node.unlock_reach {ps : List Part} {n0 : Node} (x0 : Node) (x1 : Nat) (hx0 : Reach ps n0 x0) (hT : within [.cache] ps = true) : Reach ps n0 (Node.unlock x0 x1) := by
  unfold Node.unlock
  try dsimp only
  with_reducible repeat' first
    | assumption
    | intro _
    | exact within_trans (by decide) hT
    | apply Reach.ite
    | apply Reach.set_cache (m := x0)
    | apply Reach.foldl
    | split
    | apply Reach.set_cache

theorem Node.upTo_reach {ps : List Part} {n0 : Node} (x0 : Node) (x1 : T64) (hx0 : Reach ps n0 x0) (hT : within [.time] ps = true) : Reach ps n0 (Node.upTo x0 x1) := by
  unfold Node.upTo
  try dsimp only
  with_reducible repeat' first
    | assumption
    | intro _
    | exact within_trans (by decide) hT
    | apply Reach.ite
    | apply Reach.set_time (m := x0)
    | apply Reach.foldl
    | split
    | apply Reach.set_time

theorem Node.lock_reach {ps : List Part} {n0 : Node} (x0 : Node) (x1 : Nat) (hx0 : Reach ps n0 x0) (hT : within [.stalls, .cache] ps = true) : Reach ps n0 (Node.lock x0 x1) := by
  unfold Node.lock
  try dsimp only
  with_reducible repeat' first
    | assumption
    | intro _
    | exact within_trans (by decide) hT
    | apply Node.fill_reach
    | apply Reach.ite
    | apply Reach.set_cache (m := x0)
    | apply Reach.foldl
    | split
    | apply Reach.set_cache

theorem Node.lockQueued_reach {ps : List Part} {n0 : Node} (x0 : Node) (x1 : List Issued) (hx0 : Reach ps n0 x0) (hT : within [.stalls, .cache] ps = true) : Reach ps n0 (Node.lockQueued x0 x1).1 := by
  induction x1 generalizing x0 with
  | nil => exact hx0
  | cons e t ih =>
    unfold Node.lockQueued
    dsimp only
    split
    · exact ih _ (Node.lock_reach _ _ hx0 (within_trans (by decide) hT))
    · exact ih _ hx0

theorem Node.relimit_reach {ps : List Part} {n0 : Node} (x0 : Node) (x1 : Nat) (x2 : Int) (x3 : Int × Nat × Nat × Nat) (hx0 : Reach ps n0 x0) (hT : within [.axes, .rcd] ps = true) : Reach ps n0 (Node.relimit x0 x1 x2 x3).2 := by
  unfold Node.relimit
  try dsimp only
  with_reducible repeat' first
    | assumption
    | intro _
    | exact within_trans (by decide) hT
    | apply Node.settle_reach
    | apply Node.updAxis_reach
    | apply Node.log_reach
    | apply Reach.ite
    | apply Reach.foldl
    | split

theorem Node.applyMove_reach {ps : List Part} {n0 : Node} (x0 : Node) (x1 : Nat) (x2 : Nat) (x3 : Int) (x4 : Int × Nat × Nat × Nat) (hx0 : Reach ps n0 x0) (hT : within [.axes, .drives, .rcd] ps = true) : Reach ps n0 (Node.applyMove x0 x1 x2 x3 x4).2 := by
  unfold Node.applyMove
  try dsimp only
  with_reducible repeat' first
    | assumption
    | intro _
    | exact within_trans (by decide) hT
    | apply Node.settle_reach
    | apply Node.relimit_reach
    | apply Node.moveAt_reach
    | apply Node.updAxis_reach
    | apply Node.leaveStandstill_reach
    | apply Node.abandonTable_reach
    | apply Node.moveTo_reach
    | refine Reach.ofSnd (by assumption) ?_
    | apply Reach.ite
    | apply Reach.foldl
    | split

theorem Node.recipeMove_reach {ps : List Part} {n0 : Node} (x0 : Node) (x1 : Nat) (x2 : Int) (hx0 : Reach ps n0 x0) (hT : within [.axes, .drives, .rcd] ps = true) : Reach ps n0 (Node.recipeMove x0 x1 x2).2 := by
  unfold Node.recipeMove
  try dsimp only
  with_reducible repeat' first
    | assumption
    | intro _
    | exact within_trans (by decide) hT
    | apply Node.applyMove_reach
    | refine Reach.ofSnd (by assumption) ?_
    | apply Reach.ite
    | apply Reach.foldl
    | split

theorem Node.enterStep_reach {ps : List Part} {n0 : Node} (x0 : Node) (x1 : Nat) (x2 : Nat) (x3 : T64) (hx0 : Reach ps n0 x0) (hT : within [.mem, .ram, .host, .rcp, .line, .rcd, .freeCtr] ps = true) : Reach ps n0 (Node.enterStep x0 x1 x2 x3) := by
  unfold Node.enterStep
  try dsimp only
  with_reducible repeat' first
    | assumption
    | intro _
    | exact within_trans (by decide) hT
    | apply Node.endInst_reach
    | apply Node.setInst_reach
    | apply Reach.ite
    | apply Reach.foldl
    | split

theorem Node.applyIssued_reach {ps : List Part} {n0 : Node} (x0 : Node) (x1 : Issued) (hx0 : Reach ps n0 x0) (hT : within [.mem, .ram, .host, .stalls, .cache, .rcp, .fio, .axes, .drives, .line, .time, .zb, .cust, .rcd, .freeCtr] ps = true) : Reach ps n0 (Node.applyIssued x0 x1) := by
  unfold Node.applyIssued
  try dsimp only
  with_reducible repeat' first
    | assumption
    | intro _
    | exact within_trans (by decide) hT
    | apply Node.unlock_reach
    | apply Node.upTo_reach
    | apply Node.lockQueued_reach
    | apply Node.recipeMove_reach
    | apply Node.log_reach
    | apply Node.engineWrite_reach
    | apply Node.enterStep_reach
    | refine Reach.ofSnd (by assumption) ?_
    | apply Reach.ite
    | apply Reach.set_rcp (m := x0)
    | apply Reach.foldl
    | split
    | apply Reach.set_rcp

theorem Node.applyDue_reach {ps : List Part} {n0 : Node} (x0 : Node) (x1 : T64) (hx0 : Reach ps n0 x0) (hT : within [.mem, .ram, .host, .stalls, .cache, .rcp, .fio, .axes, .drives, .line, .time, .zb, .cust, .rcd, .freeCtr] ps = true) : Reach ps n0 (Node.applyDue x0 x1) := by
  unfold Node.applyDue
  try dsimp only
  with_reducible repeat' first
    | assumption
    | intro _
    | exact within_trans (by decide) hT
    | apply Node.applyIssued_reach
    | apply Node.upTo_reach
    | apply Reach.ite
    | apply Reach.foldl
    | split

theorem Node.encodeEntry_reach {ps : List Part} {n0 : Node} (x0 : Node) (x1 : HvEntry) (x2 : Bool) (x3 : Tbl (Option W64 × Bool)) (x4 : HvValue) (hx0 : Reach ps n0 x0) (hT : within [.freeCtr] ps = true) : Reach ps n0 (Node.encodeEntry x0 x1 x2 x3 x4).1 := by
  unfold Node.encodeEntry
  try dsimp only
  with_reducible repeat' first
    | assumption
    | intro _
    | exact within_trans (by decide) hT
    | apply Node.free_reach
    | refine Reach.ofSnd (by assumption) ?_
    | apply Reach.ite
    | apply Reach.foldl
    | split

theorem Node.encodeSample_reach {ps : List Part} {n0 : Node} (x0 : Node) (x1 : Nat) (x2 : T64) (x3 : Bool) (x4 : Bool) (x5 : List HvValue) (x6 : Tbl (Option W64 × Bool)) (hx0 : Reach ps n0 x0) (hT : within [.freeCtr] ps = true) : Reach ps n0 (Node.encodeSample x0 x1 x2 x3 x4 x5 x6).1 := by
  unfold Node.encodeSample
  try dsimp only
  with_reducible repeat' first
    | assumption
    | intro _
    | exact within_trans (by decide) hT
    | apply Node.encodeEntry_reach
    | apply Reach.ite
    | apply Reach.foldl
    | apply Reach.foldr
    | apply Reach.foldlPair
    | apply Reach.foldlPair'
    | split
    | exact Reach.refl _ _
    | dsimp only [id]

theorem Node.makeRoom_reach {ps : List Part} {n0 : Node} (x0 : Node) (x1 : Nat) (x2 : Nat) (x3 : Nat) (hx0 : Reach ps n0 x0) (hT : within [.harv, .rcd] ps = true) : Reach ps n0 (Node.makeRoom x0 x1 x2 x3) := by
  induction x3 generalizing x0 with
  | zero => exact hx0
  | succ k ih =>
    unfold Node.makeRoom
    dsimp only
    split
    · exact hx0
    · split
      · exact hx0
      · apply ih
        apply Node.log_reach
        · apply Node.slotLost_reach
          · apply Node.setHslot_reach
            · exact hx0
            · exact within_trans (by decide) hT
          · exact within_trans (by decide) hT
        · exact within_trans (by decide) hT

theorem Node.slotSample_reach {ps : List Part} {n0 : Node} (x0 : Node) (x1 : Nat) (x2 : Nat) (x3 : T64) (x4 : Bool) (x5 : Bool) (x6 : List HvValue) (hx0 : Reach ps n0 x0) (hT : within [.harv, .rcd, .freeCtr] ps = true) : Reach ps n0 (Node.slotSample x0 x1 x2 x3 x4 x5 x6) := by
  unfold Node.slotSample
  try dsimp only
  with_reducible repeat' first
    | assumption
    | intro _
    | exact within_trans (by decide) hT
    | apply Node.updHslot_reach
    | apply Node.slotGap_reach
    | apply Node.encodeSample_reach
    | apply Node.makeRoom_reach
    | apply Node.setHslot_reach
    | apply Reach.ite
    | apply Reach.foldl
    | split

theorem Node.slotMark_reach {ps : List Part} {n0 : Node} (x0 : Node) (x1 : Nat) (x2 : Nat) (x3 : List (Nat × T64)) (hx0 : Reach ps n0 x0) (hT : within [.harv, .rcd] ps = true) : Reach ps n0 (Node.slotMark x0 x1 x2 x3) := by
  unfold Node.slotMark
  try dsimp only
  with_reducible repeat' first
    | assumption
    | intro _
    | exact within_trans (by decide) hT
    | apply Node.makeRoom_reach
    | apply Node.updHslot_reach
    | apply Reach.ite
    | apply Reach.foldl
    | split

theorem Node.encodeItem_reach {ps : List Part} {n0 : Node} (x0 : Node) (x1 : HvRaw) (hx0 : Reach ps n0 x0) (hT : within [.harv, .rcd, .freeCtr] ps = true) : Reach ps n0 (Node.encodeItem x0 x1) := by
  unfold Node.encodeItem
  try dsimp only
  with_reducible repeat' first
    | assumption
    | intro _
    | exact within_trans (by decide) hT
    | apply Node.slotSample_reach
    | apply Node.slotMark_reach
    | apply Node.slotGap_reach
    | apply Reach.ite
    | apply Reach.foldl
    | split

theorem Node.encodeRaw_reach {ps : List Part} {n0 : Node} (x0 : Node) (hx0 : Reach ps n0 x0) (hT : within [.harv, .rcd, .freeCtr] ps = true) : Reach ps n0 (Node.encodeRaw x0) := by
  unfold Node.encodeRaw
  try dsimp only
  with_reducible repeat' first
    | assumption
    | intro _
    | exact within_trans (by decide) hT
    | apply Node.encodeItem_reach
    | apply Node.updHarv_reach
    | apply Reach.ite
    | apply Reach.foldl
    | split

theorem Node.applyList_reach {ps : List Part} {n0 : Node} (x0 : Node) (hx0 : Reach ps n0 x0) (hT : within [.harv, .rcd, .freeCtr] ps = true) : Reach ps n0 (Node.applyList x0) := by
  unfold Node.applyList
  try dsimp only
  with_reducible repeat' first
    | assumption
    | intro _
    | exact within_trans (by decide) hT
    | apply Node.encodeRaw_reach
    | apply Node.updHarv_reach
    | apply Node.log_reach
    | apply Reach.ite
    | apply Reach.foldl
    | split

theorem Node.reslave_reach {ps : List Part} {n0 : Node} (x0 : Node) (hx0 : Reach ps n0 x0) (hT : within [.time, .rcd] ps = true) : Reach ps n0 (Node.reslave x0) := by
  unfold Node.reslave
  try dsimp only
  with_reducible repeat' first
    | assumption
    | intro _
    | exact within_trans (by decide) hT
    | apply Node.log_reach
    | apply Reach.ite
    | apply Reach.set_time (m := x0)
    | apply Reach.foldl
    | split
    | apply Reach.set_time

theorem Node.updTime_reach {ps : List Part} {n0 : Node} (x0 : Node) (x1 : Time → Time) (hx0 : Reach ps n0 x0) (hT : within [.time] ps = true) : Reach ps n0 (Node.updTime x0 x1) := by
  unfold Node.updTime
  try dsimp only
  with_reducible repeat' first
    | assumption
    | intro _
    | exact within_trans (by decide) hT
    | apply Reach.ite
    | apply Reach.set_time (m := x0)
    | apply Reach.foldl
    | split
    | apply Reach.set_time

theorem Node.applyTimeCfg_reach {ps : List Part} {n0 : Node} (x0 : Node) (hx0 : Reach ps n0 x0) (hT : within [.time, .rcd] ps = true) : Reach ps n0 (Node.applyTimeCfg x0) := by
  unfold Node.applyTimeCfg
  try dsimp only
  with_reducible repeat' first
    | assumption
    | intro _
    | exact within_trans (by decide) hT
    | apply Node.reslave_reach
    | apply Node.updTime_reach
    | apply Node.servoTo_reach
    | apply Reach.ite
    | apply Reach.foldl
    | split

theorem Node.setCompare_reach {ps : List Part} {n0 : Node} (x0 : Node) (x1 : Nat) (x2 : Nat) (x3 : Compare) (hx0 : Reach ps n0 x0) (hT : within [.encs] ps = true) : Reach ps n0 (Node.setCompare x0 x1 x2 x3) := by
  unfold Node.setCompare
  try dsimp only
  with_reducible repeat' first
    | assumption
    | intro _
    | exact within_trans (by decide) hT
    | apply Node.updEnc_reach
    | apply Reach.ite
    | apply Reach.foldl
    | split

theorem Node.armCompare_reach {ps : List Part} {n0 : Node} (x0 : Node) (x1 : Nat) (x2 : Nat) (x3 : Compare) (hx0 : Reach ps n0 x0) (hT : within [.encs, .rcd] ps = true) : Reach ps n0 (Node.armCompare x0 x1 x2 x3) := by
  unfold Node.armCompare
  try dsimp only
  with_reducible repeat' first
    | assumption
    | intro _
    | exact within_trans (by decide) hT
    | apply Node.setCompare_reach
    | apply Node.log_reach
    | apply Reach.ite
    | apply Reach.foldl
    | split

theorem Node.nextStop_reach {ps : List Part} {n0 : Node} (x0 : Node) (x1 : Nat) (hx0 : Reach ps n0 x0) (hT : within [.stalls, .cache, .fio, .axes, .drives, .zb, .cust, .lifts, .gates, .rcd, .safe] ps = true) : Reach ps n0 (Node.nextStop x0 x1) := by
  unfold Node.nextStop
  try dsimp only
  with_reducible repeat' first
    | assumption
    | intro _
    | exact within_trans (by decide) hT
    | apply Node.departTo_reach
    | apply Node.updLift_reach
    | apply Reach.ite
    | apply Reach.foldl
    | split

theorem Node.leaveLevel_reach {ps : List Part} {n0 : Node} (x0 : Node) (x1 : Nat) (hx0 : Reach ps n0 x0) (hT : within [.stalls, .cache, .fio, .axes, .drives, .zb, .cust, .lifts, .gates, .rcd, .safe] ps = true) : Reach ps n0 (Node.leaveLevel x0 x1) := by
  unfold Node.leaveLevel
  try dsimp only
  with_reducible repeat' first
    | assumption
    | intro _
    | exact within_trans (by decide) hT
    | apply Node.nextStop_reach
    | apply Reach.ite
    | apply Reach.foldl
    | split

theorem Node.serveLevel_reach {ps : List Part} {n0 : Node} (x0 : Node) (x1 : Nat) (x2 : Nat) (hx0 : Reach ps n0 x0) (hT : within [.stalls, .cache, .fio, .axes, .drives, .zb, .cust, .lifts, .gates, .rcd, .safe] ps = true) : Reach ps n0 (Node.serveLevel x0 x1 x2) := by
  unfold Node.serveLevel
  try dsimp only
  with_reducible repeat' first
    | assumption
    | intro _
    | exact within_trans (by decide) hT
    | apply Node.updLift_reach
    | apply Node.leaveLevel_reach
    | apply Node.openGate_reach
    | apply Reach.ite
    | apply Reach.foldl
    | split

theorem Node.arriveNow_reach {ps : List Part} {n0 : Node} (x0 : Node) (x1 : Nat) (hx0 : Reach ps n0 x0) (hT : within [.stalls, .cache, .fio, .axes, .drives, .zb, .cust, .lifts, .gates, .rcd, .safe] ps = true) : Reach ps n0 (Node.arriveNow x0 x1) := by
  unfold Node.arriveNow
  try dsimp only
  with_reducible repeat' first
    | assumption
    | intro _
    | exact within_trans (by decide) hT
    | apply Node.serveLevel_reach
    | apply Reach.ite
    | apply Reach.foldl
    | split

theorem Node.arriving_reach {ps : List Part} {n0 : Node} (x0 : Node) (x1 : Nat) (hx0 : Reach ps n0 x0) (hT : within [.lifts, .safe] ps = true) : Reach ps n0 (Node.arriving x0 x1) := by
  unfold Node.arriving
  try dsimp only
  with_reducible repeat' first
    | assumption
    | intro _
    | exact within_trans (by decide) hT
    | apply Node.sfRequest_reach
    | apply Node.updLift_reach
    | apply Reach.ite
    | apply Reach.foldl
    | split

theorem Node.askHead_reach {ps : List Part} {n0 : Node} (x0 : Node) (x1 : Nat) (hx0 : Reach ps n0 x0) (hT : within [.line, .freeCtr] ps = true) : Reach ps n0 (Node.askHead x0 x1) := by
  unfold Node.askHead
  try dsimp only
  with_reducible repeat' first
    | assumption
    | intro _
    | exact within_trans (by decide) hT
    | apply Node.send_reach
    | apply Reach.ite
    | apply Reach.foldl
    | split

theorem Node.beginTests_reach {ps : List Part} {n0 : Node} (x0 : Node) (x1 : Nat) (hx0 : Reach ps n0 x0) (hT : within [.safe] ps = true) : Reach ps n0 (Node.beginTests x0 x1) := by
  unfold Node.beginTests
  try dsimp only
  with_reducible repeat' first
    | assumption
    | intro _
    | exact within_trans (by decide) hT
    | apply Node.updChan_reach
    | apply Node.updSafe_reach
    | apply Reach.ite
    | apply Reach.foldl
    | split

theorem Node.autoTests_reach {ps : List Part} {n0 : Node} (x0 : Node) (x1 : Nat) (hx0 : Reach ps n0 x0) (hT : within [.safe] ps = true) : Reach ps n0 (Node.autoTests x0 x1) := by
  unfold Node.autoTests
  try dsimp only
  with_reducible repeat' first
    | assumption
    | intro _
    | exact within_trans (by decide) hT
    | apply Node.beginTests_reach
    | apply Reach.ite
    | apply Reach.foldl
    | split

theorem Node.autostartChans_reach {ps : List Part} {n0 : Node} (x0 : Node) (hx0 : Reach ps n0 x0) (hT : within [.stalls, .cache, .loops, .fio, .adc, .encs, .axes, .drives, .zb, .cust, .lifts, .gates, .rcd, .freeCtr] ps = true) : Reach ps n0 (Node.autostartChans x0) := by
  unfold Node.autostartChans
  try dsimp only
  with_reducible repeat' first
    | assumption
    | intro _
    | exact within_trans (by decide) hT
    | apply Node.autostartChan_reach
    | apply Reach.ite
    | apply Reach.foldl
    | split

end Sys2Proof.Machine
end

