-- ==== Sys2Proof/Laws/ReachB.lean ====
section
/-! SUPPORT. What each operation and each meaning can reach (Reach): one lemma each, part 2 of 4. An operation on the node
changes no part outside the list named and keeps memory canonical; a meaning the same of the state it answers. -/

set_option linter.unreachableTactic false
set_option linter.unusedTactic false
set_option linter.unusedVariables false

namespace Sys2Proof.Machine

theorem Node.startInst_reach {ps : List Part} {n0 : Node} (x0 : Node) (x1 : Nat) (x2 : Nat) (x3 : Nat) (x4 : Nat) (x5 : Nat) (x6 : W64) (x7 : T64) (x8 : Bool) (hx0 : Reach ps n0 x0) (hT : within [.rcp] ps = true) : Reach ps n0 (Node.startInst x0 x1 x2 x3 x4 x5 x6 x7 x8) := by
  unfold Node.startInst
  try dsimp only
  with_reducible repeat' first
    | assumption
    | intro _
    | exact within_trans (by decide) hT
    | apply Node.setInst_reach
    | apply Reach.ite
    | apply Reach.foldl
    | split

theorem Node.autostartRecipe_reach {ps : List Part} {n0 : Node} (x0 : Node) (x1 : Nat) (hx0 : Reach ps n0 x0) (hT : within [.rcp, .rcd] ps = true) : Reach ps n0 (Node.autostartRecipe x0 x1) := by
  unfold Node.autostartRecipe
  try dsimp only
  with_reducible repeat' first
    | assumption
    | intro _
    | exact within_trans (by decide) hT
    | apply Node.log_reach
    | apply Node.startInst_reach
    | apply Reach.ite
    | apply Reach.foldl
    | split

theorem Node.autostartRecipes_reach {ps : List Part} {n0 : Node} (x0 : Node) (hx0 : Reach ps n0 x0) (hT : within [.rcp, .rcd] ps = true) : Reach ps n0 (Node.autostartRecipes x0) := by
  unfold Node.autostartRecipes
  try dsimp only
  with_reducible repeat' first
    | assumption
    | intro _
    | exact within_trans (by decide) hT
    | apply Node.autostartRecipe_reach
    | apply Reach.ite
    | apply Reach.foldl
    | split

theorem Node.standStill_reach {ps : List Part} {n0 : Node} (x0 : Node) (x1 : Nat) (x2 : T64) (hx0 : Reach ps n0 x0) (hT : within [.mem, .ram, .host, .axes, .line, .rcd, .freeCtr] ps = true) : Reach ps n0 (Node.standStill x0 x1 x2) := by
  unfold Node.standStill
  try dsimp only
  with_reducible repeat' first
    | assumption
    | intro _
    | exact within_trans (by decide) hT
    | apply Node.answerAxisStops_reach
    | apply Node.updAxis_reach
    | apply Reach.ite
    | apply Reach.foldl
    | split

theorem Node.stopTick_reach {ps : List Part} {n0 : Node} (x0 : Node) (x1 : Nat) (x2 : T64) (hx0 : Reach ps n0 x0) (hT : within [.mem, .ram, .host, .axes, .line, .rcd, .freeCtr] ps = true) : Reach ps n0 (Node.stopTick x0 x1 x2) := by
  unfold Node.stopTick
  try dsimp only
  with_reducible repeat' first
    | assumption
    | intro _
    | exact within_trans (by decide) hT
    | apply Node.updAxis_reach
    | apply Node.standStill_reach
    | apply Reach.ite
    | apply Reach.foldl
    | split

theorem Node.quickFrom_reach {ps : List Part} {n0 : Node} (x0 : Node) (x1 : Nat) (x2 : StopBy) (hx0 : Reach ps n0 x0) (hT : within [.axes, .rcd, .freeCtr] ps = true) : Reach ps n0 (Node.quickFrom x0 x1 x2) := by
  unfold Node.quickFrom
  try dsimp only
  with_reducible repeat' first
    | assumption
    | intro _
    | exact within_trans (by decide) hT
    | apply Node.brakeAxis_reach
    | apply Reach.ite
    | apply Reach.foldl
    | split

theorem Node.limitStop_reach {ps : List Part} {n0 : Node} (x0 : Node) (x1 : Nat) (x2 : Nat) (hx0 : Reach ps n0 x0) (hT : within [.axes, .rcd, .freeCtr] ps = true) : Reach ps n0 (Node.limitStop x0 x1 x2) := by
  unfold Node.limitStop
  try dsimp only
  with_reducible repeat' first
    | assumption
    | intro _
    | exact within_trans (by decide) hT
    | apply Node.log_reach
    | apply Node.quickFrom_reach
    | apply Node.rampFrom_reach
    | apply Node.updAxis_reach
    | apply Reach.ite
    | apply Reach.foldl
    | split

theorem Node.takeMot_reach {ps : List Part} {n0 : Node} (x0 : Node) (x1 : Nat) (x2 : Mot) (x3 : T64) (x4 : Node → Node) (hx0 : Reach ps n0 x0) (hx4 : ∀ (y0 : Node), Reach ps n0 y0 → Reach ps n0 (x4 y0)) (hT : within [.mem, .ram, .host, .axes, .line, .rcd, .freeCtr] ps = true) : Reach ps n0 (Node.takeMot x0 x1 x2 x3 x4) := by
  unfold Node.takeMot
  try dsimp only
  with_reducible repeat' first
    | assumption
    | intro _
    | apply hx4
    | exact within_trans (by decide) hT
    | apply Node.stopTick_reach
    | apply Node.limitStop_reach
    | apply Node.updAxis_reach
    | apply Reach.ite
    | apply Reach.foldl
    | split

theorem Node.moveTick_reach {ps : List Part} {n0 : Node} (x0 : Node) (x1 : Nat) (x2 : T64) (hx0 : Reach ps n0 x0) (hT : within [.mem, .ram, .host, .axes, .line, .rcd, .freeCtr] ps = true) : Reach ps n0 (Node.moveTick x0 x1 x2) := by
  unfold Node.moveTick
  try dsimp only
  with_reducible repeat' first
    | assumption
    | intro _
    | exact within_trans (by decide) hT
    | apply Node.takeMot_reach
    | apply Node.updAxis_reach
    | apply Node.standStill_reach
    | apply Reach.ite
    | apply Reach.foldl
    | split

theorem Node.segTick_reach {ps : List Part} {n0 : Node} (x0 : Node) (x1 : Nat) (x2 : T64) (hx0 : Reach ps n0 x0) (hT : within [.mem, .ram, .host, .axes, .line, .rcd, .freeCtr] ps = true) : Reach ps n0 (Node.segTick x0 x1 x2) := by
  unfold Node.segTick
  try dsimp only
  with_reducible repeat' first
    | assumption
    | intro _
    | exact within_trans (by decide) hT
    | apply Node.takeMot_reach
    | apply Node.updAxis_reach
    | apply Node.standStill_reach
    | apply Reach.ite
    | apply Reach.foldl
    | split

theorem Node.judgeStep_reach {ps : List Part} {n0 : Node} (x0 : Node) (x1 : Nat) (x2 : ℚ) (x3 : T64) (hx0 : Reach ps n0 x0) (hT : within [.axes, .rcd, .freeCtr] ps = true) : Reach ps n0 (Node.judgeStep x0 x1 x2 x3) := by
  unfold Node.judgeStep
  try dsimp only
  with_reducible repeat' first
    | assumption
    | intro _
    | exact within_trans (by decide) hT
    | apply Node.updAxis_reach
    | apply Node.rampFrom_reach
    | apply Node.log_reach
    | apply Reach.ite
    | apply Reach.foldl
    | split

theorem Node.gearTick_reach {ps : List Part} {n0 : Node} (x0 : Node) (x1 : Nat) (x2 : T64) (hx0 : Reach ps n0 x0) (hT : within [.mem, .ram, .host, .axes, .line, .rcd, .freeCtr] ps = true) : Reach ps n0 (Node.gearTick x0 x1 x2) := by
  unfold Node.gearTick
  try dsimp only
  with_reducible repeat' first
    | assumption
    | intro _
    | exact within_trans (by decide) hT
    | apply Node.setAxis_reach
    | apply Node.judgeStep_reach
    | apply Node.stopTick_reach
    | apply Node.limitStop_reach
    | apply Node.takeMot_reach
    | apply Node.updAxis_reach
    | apply Node.log_reach
    | apply Reach.ite
    | apply Reach.foldl
    | apply Reach.foldr
    | apply Reach.foldlPair
    | apply Reach.foldlPair'
    | split
    | exact Reach.refl _ _
    | dsimp only [id]

theorem Node.axisMotion_reach {ps : List Part} {n0 : Node} (x0 : Node) (x1 : Nat) (x2 : T64) (hx0 : Reach ps n0 x0) (hT : within [.mem, .ram, .host, .axes, .line, .rcd, .freeCtr] ps = true) : Reach ps n0 (Node.axisMotion x0 x1 x2) := by
  unfold Node.axisMotion
  try dsimp only
  with_reducible repeat' first
    | assumption
    | intro _
    | exact within_trans (by decide) hT
    | apply Node.moveTick_reach
    | apply Node.stopTick_reach
    | apply Node.segTick_reach
    | apply Node.gearTick_reach
    | apply Node.updAxis_reach
    | apply Reach.ite
    | apply Reach.foldl
    | split

theorem Node.senseStall_reach {ps : List Part} {n0 : Node} (x0 : Node) (x1 : Nat) (x2 : Int) (x3 : T64) (hx0 : Reach ps n0 x0) (hT : within [.stalls, .cache, .cust] ps = true) : Reach ps n0 (Node.senseStall x0 x1 x2 x3) := by
  unfold Node.senseStall
  try dsimp only
  with_reducible repeat' first
    | assumption
    | intro _
    | exact within_trans (by decide) hT
    | apply Node.putStall_reach
    | apply Reach.ite
    | apply Reach.foldl
    | split

theorem Node.placeAt_reach {ps : List Part} {n0 : Node} (x0 : Node) (x1 : Nat) (x2 : Int) (x3 : T64) (hx0 : Reach ps n0 x0) (hT : within [.drives] ps = true) : Reach ps n0 (Node.placeAt x0 x1 x2 x3) := by
  unfold Node.placeAt
  try dsimp only
  with_reducible repeat' first
    | assumption
    | intro _
    | exact within_trans (by decide) hT
    | apply Node.setDrv_reach
    | apply Reach.ite
    | apply Reach.foldl
    | split

theorem Node.driveTick_reach {ps : List Part} {n0 : Node} (x0 : Node) (x1 : Nat) (x2 : T64) (hx0 : Reach ps n0 x0) (hT : within [.stalls, .cache, .drives, .cust] ps = true) : Reach ps n0 (Node.driveTick x0 x1 x2) := by
  unfold Node.driveTick
  try dsimp only
  with_reducible repeat' first
    | assumption
    | intro _
    | exact within_trans (by decide) hT
    | apply Node.senseStall_reach
    | apply Node.setDrv_reach
    | apply Node.placeAt_reach
    | apply Reach.ite
    | apply Reach.foldl
    | split

theorem Node.writeAxis_reach {ps : List Part} {n0 : Node} (x0 : Node) (x1 : Nat) (x2 : T64) (hx0 : Reach ps n0 x0) (hT : within [.stalls, .cache, .cust] ps = true) : Reach ps n0 (Node.writeAxis x0 x1 x2) := by
  unfold Node.writeAxis
  try dsimp only
  with_reducible repeat' first
    | assumption
    | intro _
    | exact within_trans (by decide) hT
    | apply Node.putStall_reach
    | apply Reach.ite
    | apply Reach.foldl
    | split

theorem Node.ferrTick_reach {ps : List Part} {n0 : Node} (x0 : Node) (x1 : Nat) (hx0 : Reach ps n0 x0) (hT : within [.axes] ps = true) : Reach ps n0 (Node.ferrTick x0 x1) := by
  unfold Node.ferrTick
  try dsimp only
  with_reducible repeat' first
    | assumption
    | intro _
    | exact within_trans (by decide) hT
    | apply Node.updAxis_reach
    | apply Reach.ite
    | apply Reach.foldl
    | split

theorem Node.axisTick_reach {ps : List Part} {n0 : Node} (x0 : Node) (x1 : Nat) (x2 : T64) (hx0 : Reach ps n0 x0) (hT : within [.mem, .ram, .host, .stalls, .cache, .axes, .drives, .line, .cust, .rcd, .freeCtr] ps = true) : Reach ps n0 (Node.axisTick x0 x1 x2) := by
  unfold Node.axisTick
  try dsimp only
  with_reducible repeat' first
    | assumption
    | intro _
    | exact within_trans (by decide) hT
    | apply Node.updAxis_reach
    | apply Node.axisMotion_reach
    | apply Node.driveTick_reach
    | apply Node.writeAxis_reach
    | apply Node.ferrTick_reach
    | apply Reach.ite
    | apply Reach.foldl
    | split

theorem Node.badFrame_reach {ps : List Part} {n0 : Node} (x0 : Node) (x1 : Nat) (x2 : Nat) (hx0 : Reach ps n0 x0) (hT : within [.line, .rcd] ps = true) : Reach ps n0 (Node.badFrame x0 x1 x2) := by
  unfold Node.badFrame
  try dsimp only
  with_reducible repeat' first
    | assumption
    | intro _
    | exact within_trans (by decide) hT
    | apply Node.log_reach
    | apply Node.setPort_reach
    | apply Reach.ite
    | apply Reach.foldl
    | split

theorem Node.setErr_reach {ps : List Part} {n0 : Node} (x0 : Node) (x1 : Nat) (x2 : BitVec 76) (hx0 : Reach ps n0 x0) (hT : within [.mem] ps = true) : Reach ps n0 (Node.setErr x0 x1 x2) := by
  unfold Node.setErr
  try dsimp only
  with_reducible repeat' first
    | assumption
    | intro _
    | exact within_trans (by decide) hT
    | apply Node.updMem_reach
    | apply Reach.ite
    | apply Reach.foldl
    | split

theorem Node.fixData_reach {ps : List Part} {n0 : Node} (x0 : Node) (x1 : Nat) (x2 : BitVec 64) (hx0 : Reach ps n0 x0) (hT : within [.mem, .ram, .stalls, .cache, .cust, .safe] ps = true) : Reach ps n0 (Node.fixData x0 x1 x2) := by
  unfold Node.fixData
  try dsimp only
  with_reducible repeat' first
    | assumption
    | intro _
    | exact within_trans (by decide) hT
    | apply Node.pokes_reach
    | apply Reach.ite
    | apply Reach.foldl
    | split

theorem Node.eccLog_reach {ps : List Part} {n0 : Node} (x0 : Node) (x1 : Nat) (x2 : Nat) (x3 : Nat) (x4 : Nat) (x5 : Nat) (x6 : Nat) (x7 : Nat) (hx0 : Reach ps n0 x0) (hT : within [.rcd] ps = true) : Reach ps n0 (Node.eccLog x0 x1 x2 x3 x4 x5 x6 x7) := by
  unfold Node.eccLog
  try dsimp only
  with_reducible repeat' first
    | assumption
    | intro _
    | exact within_trans (by decide) hT
    | apply Node.log_reach
    | apply Reach.ite
    | apply Reach.foldl
    | split

theorem Node.corrected_reach {ps : List Part} {n0 : Node} (x0 : Node) (x1 : Nat) (x2 : Nat) (x3 : Nat) (x4 : Nat) (x5 : Nat) (hx0 : Reach ps n0 x0) (hT : within [.isl, .mem, .rcd] ps = true) : Reach ps n0 (Node.corrected x0 x1 x2 x3 x4 x5) := by
  unfold Node.corrected
  try dsimp only
  with_reducible repeat' first
    | assumption
    | intro _
    | exact within_trans (by decide) hT
    | apply Node.updMem_reach
    | apply Node.updIsland_reach
    | apply Node.eccLog_reach
    | apply Reach.ite
    | apply Reach.foldl
    | split

theorem Node.takePage_reach {ps : List Part} {n0 : Node} (x0 : Node) (hx0 : Reach ps n0 x0) (hT : within [.mem] ps = true) : ∀ m, Node.takePage x0 = some m → Reach ps n0 m.2 := by
  intro m h
  unfold Node.takePage at h
  have hu (f : MemHealth → MemHealth) : Reach ps n0 (x0.updMem f) := Node.updMem_reach _ _ hx0 (within_trans (by decide) hT)
  split at h
  · cases h; exact hu _
  · split at h
    · cases h; exact hu _
    · split at h
      · cases h; exact hu _
      · cases h

theorem Node.retirePage_reach {ps : List Part} {n0 : Node} (x0 : Node) (x1 : Nat) (hx0 : Reach ps n0 x0) (hT : within [.isl, .mem, .ram, .power, .host, .stalls, .cache, .rcp, .loops, .fio, .adc, .encs, .axes, .drives, .line, .time, .zb, .cust, .lifts, .gates, .harv, .rcd, .safe, .glean, .sec, .hlth, .freeCtr] ps = true) : Reach ps n0 (Node.retirePage x0 x1) := by
  have hr (k : Nat × Node) (h : x0.takePage = some k) : Reach ps n0 k.2 :=
    Node.takePage_reach x0 hx0 (within_trans (by decide) hT) k h
  unfold Node.retirePage
  dsimp only
  repeat' first
    | with_reducible assumption
    | with_reducible exact within_trans (by decide) hT
    | with_reducible apply Node.updMem_reach
    | with_reducible apply Node.restartOwner_reach
    | with_reducible apply Reach.ite
    | exact hr (_, _) (by assumption)
    | split

theorem Node.chanFault_reach {ps : List Part} {n0 : Node} (x0 : Node) (x1 : Nat) (x2 : Nat) (x3 : Nat) (hx0 : Reach ps n0 x0) (hT : within [.fio, .rcd, .safe] ps = true) : Reach ps n0 (Node.chanFault x0 x1 x2 x3) := by
  unfold Node.chanFault
  try dsimp only
  with_reducible repeat' first
    | assumption
    | intro _
    | exact within_trans (by decide) hT
    | apply Node.chanGone_reach
    | apply Node.sfLog_reach
    | apply Node.sfOpen_reach
    | apply Reach.ite
    | apply Reach.foldl
    | split

theorem Node.coreOut_reach {ps : List Part} {n0 : Node} (x0 : Node) (x1 : Nat) (hx0 : Reach ps n0 x0) (hT : within [.rcp] ps = true) : Reach ps n0 (Node.coreOut x0 x1) := by
  unfold Node.coreOut
  try dsimp only
  with_reducible repeat' first
    | assumption
    | intro _
    | exact within_trans (by decide) hT
    | apply Reach.ite
    | apply Reach.set_rcp (m := x0)
    | apply Reach.foldl
    | split
    | apply Reach.set_rcp

theorem Node.retireOther_reach {ps : List Part} {n0 : Node} (x0 : Node) (x1 : Nat) (x2 : Nat) (hx0 : Reach ps n0 x0) (hT : within [.isl, .mem, .ram, .power, .host, .stalls, .cache, .rcp, .loops, .fio, .adc, .encs, .axes, .drives, .line, .time, .zb, .cust, .lifts, .gates, .harv, .rcd, .safe, .glean, .sec, .hlth, .freeCtr] ps = true) : Reach ps n0 (Node.retireOther x0 x1 x2) := by
  unfold Node.retireOther
  try dsimp only
  with_reducible repeat' first
    | assumption
    | intro _
    | exact within_trans (by decide) hT
    | apply Node.updMem_reach
    | apply Node.log_reach
    | apply Node.mapWrite_reach
    | apply Node.updLine_reach
    | apply Node.free_reach
    | apply Node.chanFault_reach
    | apply Node.startOp_reach
    | apply Node.coreOut_reach
    | refine Reach.ofSnd (by assumption) ?_
    | apply Reach.ite
    | apply Reach.foldl
    | split

theorem Node.permanentRow_reach {ps : List Part} {n0 : Node} (x0 : Node) (x1 : Nat) (hx0 : Reach ps n0 x0) (hT : within [.isl, .mem, .ram, .power, .host, .stalls, .cache, .rcp, .loops, .fio, .adc, .encs, .axes, .drives, .line, .time, .zb, .cust, .lifts, .gates, .harv, .rcd, .safe, .glean, .sec, .hlth, .freeCtr] ps = true) : Reach ps n0 (Node.permanentRow x0 x1) := by
  unfold Node.permanentRow
  try dsimp only
  with_reducible repeat' first
    | assumption
    | intro _
    | exact within_trans (by decide) hT
    | apply Node.log_reach
    | apply Node.updMem_reach
    | apply Node.retirePage_reach
    | apply Node.retireOther_reach
    | apply Reach.ite
    | apply Reach.foldl
    | split

theorem Node.poisonWord_reach {ps : List Part} {n0 : Node} (x0 : Node) (x1 : Nat) (hx0 : Reach ps n0 x0) (hT : within [.mem] ps = true) : Reach ps n0 (Node.poisonWord x0 x1) := by
  unfold Node.poisonWord
  try dsimp only
  with_reducible repeat' first
    | assumption
    | intro _
    | exact within_trans (by decide) hT
    | apply Node.setErr_reach
    | apply Reach.ite
    | apply Reach.foldl
    | split

theorem Node.uncorrectable_reach {ps : List Part} {n0 : Node} (x0 : Node) (x1 : Nat) (x2 : Nat) (x3 : Nat) (x4 : Nat) (hx0 : Reach ps n0 x0) (hT : within [.isl, .mem, .rcd] ps = true) : Reach ps n0 (Node.uncorrectable x0 x1 x2 x3 x4) := by
  unfold Node.uncorrectable
  try dsimp only
  with_reducible repeat' first
    | assumption
    | intro _
    | exact within_trans (by decide) hT
    | apply Node.updIsland_reach
    | apply Node.poisonWord_reach
    | apply Node.eccLog_reach
    | apply Reach.ite
    | apply Reach.foldl
    | split

theorem Node.bankRead_reach {ps : List Part} {n0 : Node} (x0 : Node) (x1 : Nat) (x2 : BitVec 76) (x3 : Nat) (x4 : Bool) (hx0 : Reach ps n0 x0) (hT : within [.isl, .mem, .ram, .power, .host, .stalls, .cache, .rcp, .loops, .fio, .adc, .encs, .axes, .drives, .line, .time, .zb, .cust, .lifts, .gates, .harv, .rcd, .safe, .glean, .sec, .hlth, .freeCtr] ps = true) : Reach ps n0 (Node.bankRead x0 x1 x2 x3 x4).2 := by
  unfold Node.bankRead
  try dsimp only
  with_reducible repeat' first
    | assumption
    | intro _
    | exact within_trans (by decide) hT
    | apply Node.setErr_reach
    | apply Node.fixData_reach
    | apply Node.corrected_reach
    | apply Node.updMem_reach
    | apply Node.permanentRow_reach
    | apply Node.uncorrectable_reach
    | apply Node.eccLog_reach
    | apply Reach.ite
    | apply Reach.foldl
    | split

theorem Node.bankWord_reach {ps : List Part} {n0 : Node} (x0 : Node) (x1 : Nat) (x2 : Nat) (x3 : Nat) (x4 : Nat) (x5 : Bool) (x6 : BitVec 76) (hx0 : Reach ps n0 x0) (hT : within [.isl, .mem, .ram, .power, .host, .stalls, .cache, .rcp, .loops, .fio, .adc, .encs, .axes, .drives, .line, .time, .zb, .cust, .lifts, .gates, .harv, .rcd, .safe, .glean, .sec, .hlth, .freeCtr] ps = true) : Reach ps n0 (Node.bankWord x0 x1 x2 x3 x4 x5 x6).2.2 := by
  unfold Node.bankWord
  try dsimp only
  with_reducible repeat' first
    | assumption
    | intro _
    | exact within_trans (by decide) hT
    | apply Node.bankRead_reach
    | apply Node.afterCopies_reach
    | refine Reach.ofSnd (by assumption) ?_
    | apply Reach.ite
    | apply Reach.foldl
    | split

theorem Node.begins_reach {ps : List Part} {n0 : Node} (x0 : Node) (x1 : Nat) (hx0 : Reach ps n0 x0) (hT : within [.host] ps = true) : Reach ps n0 (Node.begins x0 x1) := by
  unfold Node.begins
  try dsimp only
  with_reducible repeat' first
    | assumption
    | intro _
    | exact within_trans (by decide) hT
    | apply Node.setMbx_reach
    | apply Reach.ite
    | apply Reach.foldl
    | split

theorem Node.updPower_reach {ps : List Part} {n0 : Node} (x0 : Node) (x1 : Power → Power) (hx0 : Reach ps n0 x0) (hT : within [.power] ps = true) : Reach ps n0 (Node.updPower x0 x1) := by
  unfold Node.updPower
  try dsimp only
  with_reducible repeat' first
    | assumption
    | intro _
    | exact within_trans (by decide) hT
    | apply Reach.ite
    | apply Reach.set_power (m := x0)
    | apply Reach.foldl
    | split
    | apply Reach.set_power

theorem Node.bootFails_reach {ps : List Part} {n0 : Node} (x0 : Node) (hx0 : Reach ps n0 x0) (hT : within [.power] ps = true) : Reach ps n0 (Node.bootFails x0) := by
  unfold Node.bootFails
  try dsimp only
  with_reducible repeat' first
    | assumption
    | intro _
    | exact within_trans (by decide) hT
    | apply Node.updPower_reach
    | apply Reach.ite
    | apply Reach.foldl
    | split

theorem Node.updSec_reach {ps : List Part} {n0 : Node} (x0 : Node) (x1 : Security → Security) (hx0 : Reach ps n0 x0) (hT : within [.sec] ps = true) : Reach ps n0 (Node.updSec x0 x1) := by
  unfold Node.updSec
  try dsimp only
  with_reducible repeat' first
    | assumption
    | intro _
    | exact within_trans (by decide) hT
    | apply Reach.ite
    | apply Reach.set_sec (m := x0)
    | apply Reach.foldl
    | split
    | apply Reach.set_sec

theorem Node.bootFrom_reach {ps : List Part} {n0 : Node} (x0 : Node) (x1 : Nat) (x2 : Nat) (hx0 : Reach ps n0 x0) (hT : within [.power, .sec] ps = true) : Reach ps n0 (Node.bootFrom x0 x1 x2) := by
  unfold Node.bootFrom
  try dsimp only
  with_reducible repeat' first
    | assumption
    | intro _
    | exact within_trans (by decide) hT
    | apply Node.updSec_reach
    | apply Node.updPower_reach
    | apply Reach.ite
    | apply Reach.foldl
    | split

theorem Node.logFree_reach {ps : List Part} {n0 : Node} (x0 : Node) (x1 : Nat) (hx0 : Reach ps n0 x0) (hT : within [.rcd, .freeCtr] ps = true) : Reach ps n0 (Node.logFree x0 x1) := by
  unfold Node.logFree
  try dsimp only
  with_reducible repeat' first
    | assumption
    | intro _
    | exact within_trans (by decide) hT
    | apply Node.free_reach
    | apply Node.log_reach
    | refine Reach.ofSnd (by assumption) ?_
    | apply Reach.ite
    | apply Reach.foldl
    | split

theorem Node.bootLogs_reach {ps : List Part} {n0 : Node} (x0 : Node) (hx0 : Reach ps n0 x0) (hT : within [.rcd, .freeCtr] ps = true) : Reach ps n0 (Node.bootLogs x0) := by
  unfold Node.bootLogs
  try dsimp only
  with_reducible repeat' first
    | assumption
    | intro _
    | exact within_trans (by decide) hT
    | apply Node.log_reach
    | apply Node.logFree_reach
    | apply Reach.ite
    | apply Reach.foldl
    | split

theorem Node.calibrationFailed_reach {ps : List Part} {n0 : Node} (x0 : Node) (hx0 : Reach ps n0 x0) (hT : within [.mem, .ram, .host, .stalls, .cache, .loops, .fio, .encs, .axes, .drives, .line, .zb, .cust, .lifts, .gates, .rcd, .hlth, .freeCtr] ps = true) : Reach ps n0 (Node.calibrationFailed x0) := by
  unfold Node.calibrationFailed
  try dsimp only
  with_reducible repeat' first
    | assumption
    | intro _
    | exact within_trans (by decide) hT
    | apply Node.permanentFault_reach
    | apply Reach.ite
    | apply Reach.foldl
    | split

theorem Node.recall_reach {ps : List Part} {n0 : Node} (x0 : Node) (x1 : Nat) (x2 : Nat) (hx0 : Reach ps n0 x0) (hT : within [.stalls, .cache, .fio, .axes, .drives, .zb, .cust, .lifts, .gates, .rcd] ps = true) : ∀ m, Node.recall x0 x1 x2 = some m → Reach ps n0 m := by
  intro m h
  unfold Node.recall at h
  dsimp only at h
  split at h
  · split at h
    · cases h
      repeat' first
        | with_reducible assumption
        | with_reducible exact within_trans (by decide) hT
        | with_reducible apply Node.updLift_reach
        | with_reducible apply Node.driveGate_reach
        | with_reducible apply Node.gateEnter_reach
        | with_reducible apply Node.updGate_reach
    · cases h
  · cases h

theorem Node.retarget_reach {ps : List Part} {n0 : Node} (x0 : Node) (x1 : Nat) (hx0 : Reach ps n0 x0) (hT : within [.stalls, .cache, .fio, .axes, .drives, .zb, .cust, .lifts, .rcd] ps = true) : Reach ps n0 (Node.retarget x0 x1) := by
  unfold Node.retarget
  try dsimp only
  with_reducible repeat' first
    | assumption
    | intro _
    | exact within_trans (by decide) hT
    | apply Node.updLift_reach
    | apply Node.travelTo_reach
    | apply Reach.ite
    | apply Reach.foldl
    | split

theorem Node.serveCalls_reach {ps : List Part} {n0 : Node} (x0 : Node) (x1 : Nat) (hx0 : Reach ps n0 x0) (hT : within [.stalls, .cache, .fio, .axes, .drives, .zb, .cust, .lifts, .gates, .rcd, .safe] ps = true) : Reach ps n0 (Node.serveCalls x0 x1) := by
  unfold Node.serveCalls
  try dsimp only
  with_reducible repeat' first
    | assumption
    | intro _
    | exact within_trans (by decide) hT
    | apply Node.departTo_reach
    | apply Node.serveLevel_reach
    | apply Reach.ite
    | apply Reach.foldl
    | split

theorem Node.dropTarget_reach {ps : List Part} {n0 : Node} (x0 : Node) (x1 : Nat) (hx0 : Reach ps n0 x0) (hT : within [.stalls, .cache, .fio, .axes, .drives, .zb, .cust, .lifts, .rcd] ps = true) : Reach ps n0 (Node.dropTarget x0 x1) := by
  unfold Node.dropTarget
  try dsimp only
  with_reducible repeat' first
    | assumption
    | intro _
    | exact within_trans (by decide) hT
    | apply Node.travelTo_reach
    | apply Node.updLift_reach
    | apply Reach.ite
    | apply Reach.foldl
    | split

theorem Node.liftCall_reach {ps : List Part} {n0 : Node} (x0 : Node) (x1 : Nat) (x2 : Nat) (x3 : Nat) (hx0 : Reach ps n0 x0) (hT : within [.stalls, .cache, .fio, .axes, .drives, .zb, .cust, .lifts, .gates, .rcd, .safe] ps = true) : Reach ps n0 (Node.liftCall x0 x1 x2 x3).2.2 := by
  have hr (m : Node) (h : x0.recall x1 x2 = some m) : Reach ps n0 m :=
    Node.recall_reach x0 x1 x2 hx0 (within_trans (by decide) hT) m h
  unfold Node.liftCall
  dsimp only
  repeat' first
    | with_reducible assumption
    | with_reducible exact within_trans (by decide) hT
    | with_reducible apply Node.serveCalls_reach
    | with_reducible apply Node.retarget_reach
    | with_reducible apply Node.dropTarget_reach
    | with_reducible apply Node.updLift_reach
    | with_reducible apply Reach.ite
    | exact hr _ (by assumption)
    | split

theorem Node.callTask_reach {ps : List Part} {n0 : Node} (x0 : Node) (x1 : W64) (hx0 : Reach ps n0 x0) (hT : within [.stalls, .cache, .fio, .axes, .drives, .zb, .cust, .lifts, .gates, .rcd, .safe] ps = true) : Reach ps n0 (Node.callTask x0 x1).2 := by
  unfold Node.callTask
  try dsimp only
  with_reducible repeat' first
    | assumption
    | intro _
    | exact within_trans (by decide) hT
    | apply Node.liftCall_reach
    | refine Reach.ofSnd2 (by assumption) ?_
    | apply Reach.ite
    | apply Reach.foldl
    | split

theorem Node.setReg_reach {ps : List Part} {n0 : Node} (x0 : Node) (x1 : Nat) (x2 : Nat) (x3 : W64) (hx0 : Reach ps n0 x0) (hT : within [.rcp] ps = true) : Reach ps n0 (Node.setReg x0 x1 x2 x3) := by
  unfold Node.setReg
  try dsimp only
  with_reducible repeat' first
    | assumption
    | intro _
    | exact within_trans (by decide) hT
    | apply Node.updInst_reach
    | apply Reach.ite
    | apply Reach.foldl
    | split

theorem Node.outcome_reach {ps : List Part} {n0 : Node} (x0 : Node) (x1 : Nat) (x2 : ThTask) (x3 : Nat) (hx0 : Reach ps n0 x0) (hT : within [.rcp] ps = true) : Reach ps n0 (Node.outcome x0 x1 x2 x3) := by
  unfold Node.outcome
  try dsimp only
  with_reducible repeat' first
    | assumption
    | intro _
    | exact within_trans (by decide) hT
    | apply Node.setReg_reach
    | apply Reach.ite
    | apply Reach.foldl
    | split

theorem Node.cancelTask_reach {ps : List Part} {n0 : Node} (x0 : Node) (x1 : Nat) (hx0 : Reach ps n0 x0) (hT : within [.rcp] ps = true) : Reach ps n0 (Node.cancelTask x0 x1).2 := by
  unfold Node.cancelTask
  try dsimp only
  with_reducible repeat' first
    | assumption
    | intro _
    | exact within_trans (by decide) hT
    | apply Node.outcome_reach
    | apply Reach.ite
    | apply Reach.set_rcp (m := x0)
    | apply Reach.foldl
    | split
    | apply Reach.set_rcp

theorem Node.captureAll_reach {ps : List Part} {n0 : Node} (x0 : Node) (x1 : Nat) (x2 : Nat) (x3 : Int) (x4 : T64) (hx0 : Reach ps n0 x0) (hT : within [.encs] ps = true) : Reach ps n0 (Node.captureAll x0 x1 x2 x3 x4) := by
  unfold Node.captureAll
  try dsimp only
  with_reducible repeat' first
    | assumption
    | intro _
    | exact within_trans (by decide) hT
    | apply Node.updEnc_reach
    | apply Reach.ite
    | apply Reach.foldl
    | split

theorem Node.consume_reach {ps : List Part} {n0 : Node} (x0 : Node) (x1 : Nat) (x2 : Nat) (x3 : Nat) (hx0 : Reach ps n0 x0) (hT : within [.rcd] ps = true) : Reach ps n0 (Node.consume x0 x1 x2 x3).2 := by
  unfold Node.consume
  try dsimp only
  with_reducible repeat' first
    | assumption
    | intro _
    | exact within_trans (by decide) hT
    | apply Node.eccLog_reach
    | apply Reach.ite
    | apply Reach.foldl
    | split

theorem Node.withStep_reach {ps : List Part} {n0 : Node} (x0 : Node) (x1 : Nat) (x2 : Node → Node) (hx0 : Reach ps n0 x0) (hx2 : ∀ (y0 : Node), Reach ps n0 y0 → Reach ps n0 (x2 y0)) (hT : within [.mem, .ram, .host, .rcp, .line, .rcd, .freeCtr] ps = true) : Reach ps n0 (Node.withStep x0 x1 x2) := by
  unfold Node.withStep
  try dsimp only
  with_reducible repeat' first
    | assumption
    | intro _
    | apply hx2
    | exact within_trans (by decide) hT
    | apply Node.unpoison_reach
    | apply Node.restoreRecipes_reach
    | apply Node.consume_reach
    | refine Reach.ofSnd (by assumption) ?_
    | apply Reach.ite
    | apply Reach.foldl
    | split

theorem Node.carryOut_reach {ps : List Part} {n0 : Node} (x0 : Node) (x1 : Nat) (x2 : Nat) (x3 : Node → Step → T64 → Node × Nat) (hx0 : Reach ps n0 x0) (hx3 : ∀ (y0 : Node) (y1 : Step) (y2 : T64), Reach ps n0 y0 → Reach ps n0 (x3 y0 y1 y2).1) (hT : within [.mem, .ram, .host, .rcp, .line, .time, .rcd, .freeCtr] ps = true) : Reach ps n0 (Node.carryOut x0 x1 x2 x3) := by
  unfold Node.carryOut
  try dsimp only
  with_reducible repeat' first
    | assumption
    | intro _
    | apply hx3
    | exact within_trans (by decide) hT
    | apply Node.withStep_reach
    | apply Node.upTo_reach
    | apply Node.enterStep_reach
    | apply Reach.ite
    | apply Reach.foldl
    | split

theorem Node.catchUpCompares_reach {ps : List Part} {n0 : Node} (x0 : Node) (hx0 : Reach ps n0 x0) (hT : within [.encs, .rcd] ps = true) : Reach ps n0 (Node.catchUpCompares x0) := by
  unfold Node.catchUpCompares
  try dsimp only
  with_reducible repeat' first
    | assumption
    | intro _
    | exact within_trans (by decide) hT
    | apply Node.updEnc_reach
    | apply Node.armCompare_reach
    | apply Reach.ite
    | apply Reach.foldl
    | split

theorem Node.judgeRetry_reach {ps : List Part} {n0 : Node} (x0 : Node) (x1 : Nat) (x2 : Bool) (hx0 : Reach ps n0 x0) (hT : within [.mem, .ram, .host, .stalls, .cache, .loops, .fio, .encs, .axes, .drives, .line, .zb, .cust, .lifts, .gates, .rcd, .safe, .hlth, .freeCtr] ps = true) : Reach ps n0 (Node.judgeRetry x0 x1 x2) := by
  unfold Node.judgeRetry
  try dsimp only
  with_reducible repeat' first
    | assumption
    | intro _
    | exact within_trans (by decide) hT
    | apply Node.updStall_reach
    | apply Node.endTry_reach
    | apply Node.losePosition_reach
    | apply Node.standAxis_reach
    | apply Node.sinkRuns_reach
    | apply Node.resumed_reach
    | apply Node.holdAction_reach
    | apply Node.driveStall_reach
    | apply Node.permanentFault_reach
    | apply Reach.ite
    | apply Reach.foldl
    | split

theorem Node.checkAnalog_reach {ps : List Part} {n0 : Node} (x0 : Node) (x1 : Nat) (x2 : Bool) (hx0 : Reach ps n0 x0) (hT : within [.mem, .ram, .host, .stalls, .cache, .loops, .fio, .encs, .axes, .drives, .line, .zb, .cust, .lifts, .gates, .rcd, .safe, .hlth, .freeCtr] ps = true) : Reach ps n0 (Node.checkAnalog x0 x1 x2) := by
  unfold Node.checkAnalog
  try dsimp only
  with_reducible repeat' first
    | assumption
    | intro _
    | exact within_trans (by decide) hT
    | apply Node.judgeRetry_reach
    | apply Node.transientFault_reach
    | apply Reach.ite
    | apply Reach.foldl
    | split

theorem Node.flagFault_reach {ps : List Part} {n0 : Node} (x0 : Node) (x1 : Nat) (x2 : Nat) (x3 : Nat) (hx0 : Reach ps n0 x0) (hT : within [.stalls, .cache, .fio, .axes, .drives, .zb, .cust, .lifts, .rcd] ps = true) : Reach ps n0 (Node.flagFault x0 x1 x2 x3) := by
  unfold Node.flagFault
  try dsimp only
  with_reducible repeat' first
    | assumption
    | intro _
    | exact within_trans (by decide) hT
    | apply Node.log_reach
    | apply Node.updLift_reach
    | apply Node.dropTarget_reach
    | apply Reach.ite
    | apply Reach.foldl
    | split

theorem Node.checkFlags_reach {ps : List Part} {n0 : Node} (x0 : Node) (x1 : Nat) (x2 : Int) (x3 : Int) (hx0 : Reach ps n0 x0) (hT : within [.stalls, .cache, .fio, .axes, .drives, .zb, .cust, .lifts, .rcd] ps = true) : Reach ps n0 (Node.checkFlags x0 x1 x2 x3) := by
  unfold Node.checkFlags
  try dsimp only
  with_reducible repeat' first
    | assumption
    | intro _
    | exact within_trans (by decide) hT
    | apply Node.updLift_reach
    | apply Node.flagFault_reach
    | apply Reach.ite
    | apply Reach.foldl
    | split

theorem Node.checked_reach {ps : List Part} {n0 : Node} (x0 : Node) (x1 : Nat) (x2 : List (Bool × Nat × Nat)) (x3 : Node) (hx0 : Reach ps n0 x0) (hx3 : Reach ps n0 x3) (hT : within [.mem, .ram, .host, .line, .rcd, .freeCtr] ps = true) : Reach ps n0 (Node.checked x0 x1 x2 x3) := by
  unfold Node.checked
  try dsimp only
  with_reducible repeat' first
    | assumption
    | intro _
    | exact within_trans (by decide) hT
    | apply Node.answer_reach
    | apply Reach.ite
    | apply Reach.foldl
    | split

theorem Node.placeSteps_reach {ps : List Part} {n0 : Node} (x0 : Node) (x1 : Nat) (hx0 : Reach ps n0 x0) (hT : within [.drives] ps = true) : Reach ps n0 (Node.placeSteps x0 x1) := by
  unfold Node.placeSteps
  try dsimp only
  with_reducible repeat' first
    | assumption
    | intro _
    | exact within_trans (by decide) hT
    | apply Node.placeAt_reach
    | apply Reach.ite
    | apply Reach.foldl
    | split

theorem Node.updPhase_reach {ps : List Part} {n0 : Node} (x0 : Node) (x1 : Nat) (x2 : Nat) (x3 : Phase → Phase) (hx0 : Reach ps n0 x0) (hT : within [.drives] ps = true) : Reach ps n0 (Node.updPhase x0 x1 x2 x3) := by
  unfold Node.updPhase
  try dsimp only
  with_reducible repeat' first
    | assumption
    | intro _
    | exact within_trans (by decide) hT
    | apply Node.setDrv_reach
    | apply Reach.ite
    | apply Reach.foldl
    | split

theorem Node.chopStep_reach {ps : List Part} {n0 : Node} (x0 : Node) (x1 : Nat) (x2 : Nat) (x3 : Node → Drive → Phase → Phase) (hx0 : Reach ps n0 x0) (hT : within [.drives] ps = true) : Reach ps n0 (Node.chopStep x0 x1 x2 x3) := by
  unfold Node.chopStep
  try dsimp only
  with_reducible repeat' first
    | assumption
    | intro _
    | exact within_trans (by decide) hT
    | apply Node.placeSteps_reach
    | apply Node.updPhase_reach
    | apply Reach.ite
    | apply Reach.foldl
    | split

theorem Node.updRcd_reach {ps : List Part} {n0 : Node} (x0 : Node) (x1 : Recorder → Recorder) (hx0 : Reach ps n0 x0) (hT : within [.rcd] ps = true) : Reach ps n0 (Node.updRcd x0 x1) := by
  unfold Node.updRcd
  try dsimp only
  with_reducible repeat' first
    | assumption
    | intro _
    | exact within_trans (by decide) hT
    | apply Reach.ite
    | apply Reach.set_rcd (m := x0)
    | apply Reach.foldl
    | split
    | apply Reach.set_rcd

theorem Node.clearDone_reach {ps : List Part} {n0 : Node} (x0 : Node) (hx0 : Reach ps n0 x0) (hT : within [.mem, .ram, .host, .line, .rcd, .freeCtr] ps = true) : Reach ps n0 (Node.clearDone x0) := by
  unfold Node.clearDone
  try dsimp only
  with_reducible repeat' first
    | assumption
    | intro _
    | exact within_trans (by decide) hT
    | apply Node.updRcd_reach
    | apply Node.ok_reach
    | apply Reach.ite
    | apply Reach.foldl
    | split

theorem Node.clearDoneBits_reach {ps : List Part} {n0 : Node} (x0 : Node) (x1 : Nat) (x2 : Nat) (hx0 : Reach ps n0 x0) (hT : within [.host] ps = true) : Reach ps n0 (Node.clearDoneBits x0 x1 x2) := by
  unfold Node.clearDoneBits
  try dsimp only
  with_reducible repeat' first
    | assumption
    | intro _
    | exact within_trans (by decide) hT
    | apply Node.setMbx_reach
    | apply Reach.ite
    | apply Reach.foldl
    | split

theorem Node.clearResume_reach {ps : List Part} {n0 : Node} (x0 : Node) (hx0 : Reach ps n0 x0) (hT : within [.rcd] ps = true) : Reach ps n0 (Node.clearResume x0) := by
  unfold Node.clearResume
  try dsimp only
  with_reducible repeat' first
    | assumption
    | intro _
    | exact within_trans (by decide) hT
    | apply Node.updRcd_reach
    | apply Reach.ite
    | apply Reach.foldl
    | split

theorem Node.coilsOffStop_reach {ps : List Part} {n0 : Node} (x0 : Node) (x1 : Nat) (hx0 : Reach ps n0 x0) (hT : within [.mem, .ram, .host, .axes, .drives, .line, .rcd, .freeCtr] ps = true) : Reach ps n0 (Node.coilsOffStop x0 x1) := by
  unfold Node.coilsOffStop
  try dsimp only
  with_reducible repeat' first
    | assumption
    | intro _
    | exact within_trans (by decide) hT
    | apply Node.coilsOff_reach
    | apply Node.losePosition_reach
    | apply Node.abandonTable_reach
    | apply Node.updAxis_reach
    | apply Node.answerAxisStops_reach
    | apply Reach.ite
    | apply Reach.foldl
    | split

theorem Node.custRecords_reach {ps : List Part} {n0 : Node} (x0 : Node) (x1 : Nat) (x2 : Nat) (x3 : Nat) (x4 : List CRec) (hx0 : Reach ps n0 x0) (hT : within [.line, .freeCtr] ps = true) : Reach ps n0 (Node.custRecords x0 x1 x2 x3 x4) := by
  unfold Node.custRecords
  try dsimp only
  with_reducible repeat' first
    | assumption
    | intro _
    | exact within_trans (by decide) hT
    | apply Node.custSend_reach
    | apply Reach.ite
    | apply Reach.foldl
    | split

theorem Node.recPut_reach {ps : List Part} {n0 : Node} (x0 : Node) (x1 : Nat) (x2 : CRec) (x3 : Nat) (hx0 : Reach ps n0 x0) (hT : within [.line, .cust, .freeCtr] ps = true) : Reach ps n0 (Node.recPut x0 x1 x2 x3) := by
  unfold Node.recPut
  try dsimp only
  with_reducible repeat' first
    | assumption
    | intro _
    | exact within_trans (by decide) hT
    | apply Node.setOwn_reach
    | apply Node.custRecords_reach
    | apply Reach.ite
    | apply Reach.foldl
    | split

theorem Node.recChange_reach {ps : List Part} {n0 : Node} (x0 : Node) (x1 : Nat) (x2 : CRec) (hx0 : Reach ps n0 x0) (hT : within [.line, .cust, .freeCtr] ps = true) : Reach ps n0 (Node.recChange x0 x1 x2) := by
  unfold Node.recChange
  try dsimp only
  with_reducible repeat' first
    | assumption
    | intro _
    | exact within_trans (by decide) hT
    | apply Node.recPut_reach
    | apply Reach.ite
    | apply Reach.foldl
    | split

theorem Node.committed_reach {ps : List Part} {n0 : Node} (x0 : Node) (x1 : Nat) (x2 : Nat) (x3 : Nat) (hx0 : Reach ps n0 x0) (hT : within [.line, .cust, .freeCtr] ps = true) : Reach ps n0 (Node.committed x0 x1 x2 x3) := by
  unfold Node.committed
  try dsimp only
  with_reducible repeat' first
    | assumption
    | intro _
    | exact within_trans (by decide) hT
    | apply Node.recChange_reach
    | apply Node.answered_reach
    | apply Node.custNote_reach
    | apply Reach.ite
    | apply Reach.foldl
    | split

theorem Node.compareActs_reach {ps : List Part} {n0 : Node} (x0 : Node) (x1 : Nat) (x2 : Nat) (x3 : T64) (hx0 : Reach ps n0 x0) (hT : within [.stalls, .cache, .rcp, .fio, .encs, .zb, .cust, .rcd] ps = true) : Reach ps n0 (Node.compareActs x0 x1 x2 x3) := by
  unfold Node.compareActs
  try dsimp only
  with_reducible repeat' first
    | assumption
    | intro _
    | exact within_trans (by decide) hT
    | apply Node.setCompare_reach
    | apply Node.engineWrite_reach
    | apply Node.setOut_reach
    | apply Reach.ite
    | apply Reach.set_rcp (m := x0)
    | apply Reach.foldl
    | split
    | apply Reach.set_rcp

theorem Node.compareRecords_reach {ps : List Part} {n0 : Node} (x0 : Node) (x1 : Nat) (hx0 : Reach ps n0 x0) (hT : within [.fio, .rcd, .safe] ps = true) : Reach ps n0 (Node.compareRecords x0 x1) := by
  unfold Node.compareRecords
  try dsimp only
  with_reducible repeat' first
    | assumption
    | intro _
    | exact within_trans (by decide) hT
    | apply Node.updChan_reach
    | apply Node.updSafe_reach
    | apply Node.zoneStop_reach
    | apply Node.sfLog_reach
    | apply Reach.ite
    | apply Reach.foldl
    | split

theorem Node.compareStep_reach {ps : List Part} {n0 : Node} (x0 : Node) (x1 : Nat) (x2 : Nat) (x3 : Int) (x4 : Int) (x5 : Bool) (x6 : T64) (hx0 : Reach ps n0 x0) (hT : within [.stalls, .cache, .rcp, .fio, .encs, .zb, .cust, .rcd] ps = true) : Reach ps n0 (Node.compareStep x0 x1 x2 x3 x4 x5 x6) := by
  unfold Node.compareStep
  try dsimp only
  with_reducible repeat' first
    | assumption
    | intro _
    | exact within_trans (by decide) hT
    | apply Node.setCompare_reach
    | apply Node.captureAll_reach
    | apply Node.compareActs_reach
    | apply Reach.ite
    | apply Reach.foldl
    | split

theorem Node.comparesStep_reach {ps : List Part} {n0 : Node} (x0 : Node) (x1 : Nat) (x2 : Int) (x3 : Int) (x4 : Bool) (x5 : T64) (hx0 : Reach ps n0 x0) (hT : within [.stalls, .cache, .rcp, .fio, .encs, .zb, .cust, .rcd] ps = true) : Reach ps n0 (Node.comparesStep x0 x1 x2 x3 x4 x5) := by
  unfold Node.comparesStep
  try dsimp only
  with_reducible repeat' first
    | assumption
    | intro _
    | exact within_trans (by decide) hT
    | apply Node.compareStep_reach
    | apply Reach.ite
    | apply Reach.foldl
    | split

theorem Node.storeCfg_reach {ps : List Part} {n0 : Node} (x0 : Node) (x1 : Nat) (x2 : Nat) (x3 : List Byte) (hx0 : Reach ps n0 x0) (hT : within [.sec] ps = true) : Reach ps n0 (Node.storeCfg x0 x1 x2 x3) := by
  unfold Node.storeCfg
  try dsimp only
  with_reducible repeat' first
    | assumption
    | intro _
    | exact within_trans (by decide) hT
    | apply Reach.ite
    | apply Reach.set_sec (m := x0)
    | apply Reach.foldl
    | split
    | apply Reach.set_sec

theorem Node.replayRules_reach {ps : List Part} {n0 : Node} (x0 : Node) (x1 : List Byte) (hx0 : Reach ps n0 x0) (hT : within [.glean, .sec] ps = true) : Reach ps n0 (Node.replayRules x0 x1) := by
  unfold Node.replayRules
  try dsimp only
  with_reducible repeat' first
    | assumption
    | intro _
    | exact within_trans (by decide) hT
    | apply Node.storeCfg_reach
    | apply Node.updGlean_reach
    | apply Reach.ite
    | apply Reach.foldl
    | split

theorem Node.replayCmd_reach {ps : List Part} {n0 : Node} (x0 : Node) (x1 : Nat) (x2 : List Byte) (x3 : Nat → Nat → State → Host.Outcome State Fault Refusal) (hx0 : Reach ps n0 x0) (hx3 : ∀ p i s t, Reach ps n0 s.node → x3 p i s = .next t → Reach ps n0 t.node) (hT : within [.mem, .ram, .host] ps = true) : Reach ps n0 (Node.replayCmd x0 x1 x2 x3) := by
  unfold Node.replayCmd
  dsimp only
  have h1 : Reach ps n0 (x0.setMbx 48 { st := .executing, role := 3, req := some (x1, 0, 0, x2) }) :=
    Node.setMbx_reach _ _ _ hx0 (within_trans (by decide) hT)
  apply Node.write_reach
  · apply Node.updHost_reach
    · split
      · exact hx3 _ _ _ _ h1 (by assumption)
      · exact h1
    · exact within_trans (by decide) hT
  · exact within_trans (by decide) hT

theorem Node.hostCmd_reach {ps : List Part} {n0 : Node} (x0 : Node) (x1 : Nat) (x2 : Nat) (x3 : Nat) (x4 : Node → Nat → List Byte → Node) (hx0 : Reach ps n0 x0) (hx4 : ∀ (y0 : Node) (y1 : Nat) (y2 : List Byte), Reach ps n0 y0 → Reach ps n0 (x4 y0 y1 y2)) (hT : within [.mem, .ram, .host, .line, .rcd, .freeCtr] ps = true) : Reach ps n0 (Node.hostCmd x0 x1 x2 x3 x4) := by
  unfold Node.hostCmd
  try dsimp only
  with_reducible repeat' first
    | assumption
    | intro _
    | apply hx4
    | exact within_trans (by decide) hT
    | apply Node.begins_reach
    | apply Node.answer_reach
    | apply Reach.ite
    | apply Reach.foldl
    | split

theorem Node.degraded_reach {ps : List Part} {n0 : Node} (x0 : Node) (x1 : Nat) (x2 : Nat) (x3 : Nat) (hx0 : Reach ps n0 x0) (hT : within [.mem, .ram, .host, .line, .rcd, .hlth, .freeCtr] ps = true) : Reach ps n0 (Node.degraded x0 x1 x2 x3) := by
  unfold Node.degraded
  try dsimp only
  with_reducible repeat' first
    | assumption
    | intro _
    | exact within_trans (by decide) hT
    | apply Node.log_reach
    | apply Node.answer_reach
    | apply Reach.ite
    | apply Reach.set_hlth (m := x0)
    | apply Reach.foldl
    | split
    | apply Reach.set_hlth

theorem Node.needCfg_reach {ps : List Part} {n0 : Node} (x0 : Node) (x1 : Nat) (x2 : Nat) (x3 : Node) (hx0 : Reach ps n0 x0) (hx3 : Reach ps n0 x3) (hT : within [.mem, .ram, .host, .line, .rcd, .hlth, .freeCtr] ps = true) : Reach ps n0 (Node.needCfg x0 x1 x2 x3) := by
  unfold Node.needCfg
  try dsimp only
  with_reducible repeat' first
    | assumption
    | intro _
    | exact within_trans (by decide) hT
    | apply Node.degraded_reach
    | apply Reach.ite
    | apply Reach.foldl
    | split

theorem Node.storeStall_reach {ps : List Part} {n0 : Node} (x0 : Node) (x1 : Nat) (x2 : List Byte) (hx0 : Reach ps n0 x0) (hT : within [.stalls, .cache, .stored] ps = true) : Reach ps n0 (Node.storeStall x0 x1 x2) := by
  unfold Node.storeStall
  try dsimp only
  with_reducible repeat' first
    | assumption
    | intro _
    | exact within_trans (by decide) hT
    | apply Node.setStall_reach
    | apply Node.uncache_reach
    | apply Reach.ite
    | apply Reach.set_stored (m := x0)
    | apply Reach.foldl
    | split
    | apply Reach.set_stored

theorem execStallWrite_reach {ps : List Part} {n0 : Node} (path : Nat) (idx : Nat) (st nx : State) (hs : Reach ps n0 st.node) (hT : within [.mem, .ram, .host, .stalls, .cache, .stored, .line, .rcd, .sec, .hlth, .freeCtr] ps = true) (h : execStallWrite path idx st = .next nx) : Reach ps n0 nx.node := by
  unfold execStallWrite at h
  refine Reach.ofRun h ?_
  try dsimp only
  with_reducible repeat' first
    | assumption
    | intro _
    | exact within_trans (by decide) hT
    | apply Node.hostCmd_reach
    | apply Node.checked_reach
    | apply Node.needCfg_reach
    | apply Node.ok_reach
    | apply Node.storeCfg_reach
    | apply Node.storeStall_reach
    | apply Reach.ite
    | apply Reach.foldl
    | split

theorem Node.keepPair_reach {ps : List Part} {n0 : Node} (x0 : Node) (x1 : Nat) (x2 : Nat) (hx0 : Reach ps n0 x0) (hT : within [.stalls, .cache, .stored] ps = true) : Reach ps n0 (Node.keepPair x0 x1 x2) := by
  unfold Node.keepPair
  try dsimp only
  with_reducible repeat' first
    | assumption
    | intro _
    | exact within_trans (by decide) hT
    | apply Node.uncache_reach
    | apply Reach.ite
    | apply Reach.set_stored (m := x0)
    | apply Reach.foldl
    | split
    | apply Reach.set_stored

theorem Node.swapNow_reach {ps : List Part} {n0 : Node} (x0 : Node) (x1 : Nat) (x2 : Nat) (hx0 : Reach ps n0 x0) (hT : within [.mem, .ram, .host, .stalls, .cache, .stored, .loops, .fio, .encs, .axes, .drives, .line, .zb, .cust, .lifts, .gates, .rcd, .hlth, .freeCtr] ps = true) : Reach ps n0 (Node.swapNow x0 x1 x2) := by
  unfold Node.swapNow
  try dsimp only
  with_reducible repeat' first
    | assumption
    | intro _
    | exact within_trans (by decide) hT
    | apply Node.swapParts_reach
    | apply Node.updStall_reach
    | apply Node.keepPair_reach
    | apply Node.mapWrite_reach
    | apply Node.losePosition_reach
    | apply Node.leaveResource_reach
    | apply Node.driveStall_reach
    | apply Node.onNewResource_reach
    | apply Reach.ite
    | apply Reach.foldl
    | split

theorem execChanSpare_reach {ps : List Part} {n0 : Node} (path : Nat) (idx : Nat) (st nx : State) (hs : Reach ps n0 st.node) (hT : within [.mem, .ram, .host, .stalls, .cache, .stored, .loops, .fio, .encs, .axes, .drives, .line, .zb, .cust, .lifts, .gates, .rcd, .sec, .hlth, .freeCtr] ps = true) (h : execChanSpare path idx st = .next nx) : Reach ps n0 nx.node := by
  unfold execChanSpare at h
  refine Reach.ofRun h ?_
  try dsimp only
  with_reducible repeat' first
    | assumption
    | intro _
    | exact within_trans (by decide) hT
    | apply Node.hostCmd_reach
    | apply Node.checked_reach
    | apply Node.needCfg_reach
    | apply Node.ok_reach
    | apply Node.storeCfg_reach
    | apply Node.keepPair_reach
    | apply Node.setStall_reach
    | apply Node.swapNow_reach
    | apply Reach.ite
    | apply Reach.foldl
    | split

theorem Node.setSafe_reach {ps : List Part} {n0 : Node} (x0 : Node) (x1 : Nat) (x2 : Nat) (hx0 : Reach ps n0 x0) (hT : within [.stalls, .cache, .stored] ps = true) : Reach ps n0 (Node.setSafe x0 x1 x2) := by
  unfold Node.setSafe
  try dsimp only
  with_reducible repeat' first
    | assumption
    | intro _
    | exact within_trans (by decide) hT
    | apply Node.setStall_reach
    | apply Node.uncache_reach
    | apply Reach.ite
    | apply Reach.set_stored (m := x0)
    | apply Reach.foldl
    | split
    | apply Reach.set_stored

theorem Node.endWatchdog_reach {ps : List Part} {n0 : Node} (x0 : Node) (hx0 : Reach ps n0 x0) (hT : within [.stalls, .cache, .loops, .fio, .axes, .drives, .zb, .cust, .lifts, .gates, .rcd, .safe] ps = true) : Reach ps n0 (Node.endWatchdog x0) := by
  unfold Node.endWatchdog
  try dsimp only
  with_reducible repeat' first
    | assumption
    | intro _
    | exact within_trans (by decide) hT
    | apply Node.driveAll_reach
    | apply Node.endHold_reach
    | apply Reach.ite
    | apply Reach.foldl
    | split

theorem execIoWatchdog_reach {ps : List Part} {n0 : Node} (path : Nat) (idx : Nat) (st nx : State) (hs : Reach ps n0 st.node) (hT : within [.mem, .ram, .host, .stalls, .cache, .stored, .loops, .fio, .axes, .drives, .line, .zb, .cust, .lifts, .gates, .rcd, .safe, .sec, .hlth, .freeCtr] ps = true) (h : execIoWatchdog path idx st = .next nx) : Reach ps n0 nx.node := by
  unfold execIoWatchdog at h
  refine Reach.ofRun h ?_
  try dsimp only
  with_reducible repeat' first
    | assumption
    | intro _
    | exact within_trans (by decide) hT
    | apply Node.hostCmd_reach
    | apply Node.checked_reach
    | apply Node.needCfg_reach
    | apply Node.setSafe_reach
    | apply Node.updFio_reach
    | apply Node.endWatchdog_reach
    | apply Node.storeCfg_reach
    | apply Node.ok_reach
    | apply Reach.ite
    | apply Reach.foldl
    | split

theorem execAdcSequence_reach {ps : List Part} {n0 : Node} (path : Nat) (idx : Nat) (st nx : State) (hs : Reach ps n0 st.node) (hT : within [.mem, .ram, .host, .adc, .line, .rcd, .sec, .hlth, .freeCtr] ps = true) (h : execAdcSequence path idx st = .next nx) : Reach ps n0 nx.node := by
  unfold execAdcSequence at h
  refine Reach.ofRun h ?_
  try dsimp only
  with_reducible repeat' first
    | assumption
    | intro _
    | exact within_trans (by decide) hT
    | apply Node.hostCmd_reach
    | apply Node.checked_reach
    | apply Node.needCfg_reach
    | apply Node.ok_reach
    | apply Node.storeCfg_reach
    | apply Node.updAdc_reach
    | apply Reach.ite
    | apply Reach.foldl
    | split

theorem execSchedConfig_reach {ps : List Part} {n0 : Node} (path : Nat) (idx : Nat) (st nx : State) (hs : Reach ps n0 st.node) (hT : within [.mem, .ram, .host, .rcp, .line, .rcd, .sec, .hlth, .freeCtr] ps = true) (h : execSchedConfig path idx st = .next nx) : Reach ps n0 nx.node := by
  unfold execSchedConfig at h
  refine Reach.ofRun h ?_
  try dsimp only
  with_reducible repeat' first
    | assumption
    | intro _
    | exact within_trans (by decide) hT
    | apply Node.hostCmd_reach
    | apply Node.checked_reach
    | apply Node.needCfg_reach
    | apply Node.ok_reach
    | apply Node.storeCfg_reach
    | apply Reach.ite
    | apply Reach.set_rcp (m := st.node)
    | apply Reach.foldl
    | split
    | apply Reach.set_rcp

theorem Node.setPosition_reach {ps : List Part} {n0 : Node} (x0 : Node) (x1 : Nat) (x2 : Int) (hx0 : Reach ps n0 x0) (hT : within [.axes] ps = true) : Reach ps n0 (Node.setPosition x0 x1 x2) := by
  unfold Node.setPosition
  try dsimp only
  with_reducible repeat' first
    | assumption
    | intro _
    | exact within_trans (by decide) hT
    | apply Node.updAxis_reach
    | apply Reach.ite
    | apply Reach.foldl
    | split

theorem execAxisConfig_reach {ps : List Part} {n0 : Node} (path : Nat) (idx : Nat) (st nx : State) (hs : Reach ps n0 st.node) (hT : within [.mem, .ram, .host, .axes, .line, .rcd, .sec, .hlth, .freeCtr] ps = true) (h : execAxisConfig path idx st = .next nx) : Reach ps n0 nx.node := by
  unfold execAxisConfig at h
  refine Reach.ofRun h ?_
  try dsimp only
  with_reducible repeat' first
    | assumption
    | intro _
    | exact within_trans (by decide) hT
    | apply Node.hostCmd_reach
    | apply Node.checked_reach
    | apply Node.needCfg_reach
    | apply Node.ok_reach
    | apply Node.storeCfg_reach
    | apply Node.updAxis_reach
    | apply Node.setPosition_reach
    | apply Reach.ite
    | apply Reach.foldl
    | split

theorem execDriveConfig_reach {ps : List Part} {n0 : Node} (path : Nat) (idx : Nat) (st nx : State) (hs : Reach ps n0 st.node) (hT : within [.mem, .ram, .host, .drives, .line, .rcd, .sec, .hlth, .freeCtr] ps = true) (h : execDriveConfig path idx st = .next nx) : Reach ps n0 nx.node := by
  unfold execDriveConfig at h
  refine Reach.ofRun h ?_
  try dsimp only
  with_reducible repeat' first
    | assumption
    | intro _
    | exact within_trans (by decide) hT
    | apply Node.hostCmd_reach
    | apply Node.checked_reach
    | apply Node.needCfg_reach
    | apply Node.ok_reach
    | apply Node.storeCfg_reach
    | apply Node.setDrv_reach
    | apply Node.answer_reach
    | apply Reach.ite
    | apply Reach.foldl
    | split

theorem Node.lineSettings_reach {ps : List Part} {n0 : Node} (x0 : Node) (x1 : Nat) (x2 : List Byte) (hx0 : Reach ps n0 x0) (hT : within [.mem, .ram, .host, .line, .rcd, .sec, .hlth, .freeCtr] ps = true) : Reach ps n0 (Node.lineSettings x0 x1 x2) := by
  unfold Node.lineSettings
  try dsimp only
  with_reducible repeat' first
    | assumption
    | intro _
    | exact within_trans (by decide) hT
    | apply Node.checked_reach
    | apply Node.needCfg_reach
    | apply Node.updLine_reach
    | apply Node.ok_reach
    | apply Node.storeCfg_reach
    | apply Reach.ite
    | apply Reach.foldl
    | split

theorem Node.lineSchedule_reach {ps : List Part} {n0 : Node} (x0 : Node) (x1 : Nat) (x2 : List Byte) (hx0 : Reach ps n0 x0) (hT : within [.mem, .ram, .host, .line, .rcd, .sec, .hlth, .freeCtr] ps = true) : Reach ps n0 (Node.lineSchedule x0 x1 x2) := by
  unfold Node.lineSchedule
  try dsimp only
  with_reducible repeat' first
    | assumption
    | intro _
    | exact within_trans (by decide) hT
    | apply Node.checked_reach
    | apply Node.needCfg_reach
    | apply Node.updPort_reach
    | apply Node.ok_reach
    | apply Node.storeCfg_reach
    | apply Reach.ite
    | apply Reach.foldl
    | split

theorem Node.lineControl_reach {ps : List Part} {n0 : Node} (x0 : Node) (x1 : Nat) (x2 : List Byte) (hx0 : Reach ps n0 x0) (hT : within [.mem, .ram, .host, .line, .time, .rcd, .glean, .freeCtr] ps = true) : Reach ps n0 (Node.lineControl x0 x1 x2) := by
  unfold Node.lineControl
  try dsimp only
  with_reducible repeat' first
    | assumption
    | intro _
    | exact within_trans (by decide) hT
    | apply Node.checked_reach
    | apply Node.report_reach
    | apply Node.dropQueues_reach
    | apply Node.withdraw_reach
    | apply Node.updPort_reach
    | apply Node.portDown_reach
    | apply Node.raise_reach
    | apply Node.setPort_reach
    | apply Node.ok_reach
    | apply Reach.ite
    | apply Reach.foldl
    | split

theorem execLineConfig_reach {ps : List Part} {n0 : Node} (path : Nat) (idx : Nat) (st nx : State) (hs : Reach ps n0 st.node) (hT : within [.mem, .ram, .host, .line, .time, .rcd, .glean, .sec, .hlth, .freeCtr] ps = true) (h : execLineConfig path idx st = .next nx) : Reach ps n0 nx.node := by
  unfold execLineConfig at h
  refine Reach.ofRun h ?_
  try dsimp only
  with_reducible repeat' first
    | assumption
    | intro _
    | exact within_trans (by decide) hT
    | apply Node.hostCmd_reach
    | apply Node.checked_reach
    | apply Node.lineSettings_reach
    | apply Node.lineSchedule_reach
    | apply Node.lineControl_reach
    | apply Reach.ite
    | apply Reach.foldl
    | split

theorem Node.skipUpdates_reach {ps : List Part} {n0 : Node} (x0 : Node) (hx0 : Reach ps n0 x0) (hT : within [.loops] ps = true) : Reach ps n0 (Node.skipUpdates x0) := by
  unfold Node.skipUpdates
  try dsimp only
  with_reducible repeat' first
    | assumption
    | intro _
    | exact within_trans (by decide) hT
    | apply Reach.ite
    | apply Reach.set_loops (m := x0)
    | apply Reach.foldl
    | split
    | apply Reach.set_loops

theorem Node.skippedActs_reach {ps : List Part} {n0 : Node} (x0 : Node) (x1 : T64) (hx0 : Reach ps n0 x0) (hT : within [.rcp, .rcd] ps = true) : Reach ps n0 (Node.skippedActs x0 x1) := by
  unfold Node.skippedActs
  try dsimp only
  with_reducible repeat' first
    | assumption
    | intro _
    | exact within_trans (by decide) hT
    | apply Node.updInst_reach
    | apply Node.judgeAct_reach
    | apply Reach.ite
    | apply Reach.foldl
    | split

theorem Node.stepTime_reach {ps : List Part} {n0 : Node} (x0 : Node) (x1 : Int) (hx0 : Reach ps n0 x0) (hT : within [.rcp, .loops, .line, .time, .harv, .rcd] ps = true) : Reach ps n0 (Node.stepTime x0 x1) := by
  unfold Node.stepTime
  try dsimp only
  with_reducible repeat' first
    | assumption
    | intro _
    | exact within_trans (by decide) hT
    | apply Node.updTime_reach
    | apply Node.skipUpdates_reach
    | apply Node.skippedActs_reach
    | apply Node.updPort_reach
    | apply Node.log_reach
    | apply Reach.ite
    | apply Reach.set_harv (m := x0)
    | apply Reach.foldl
    | split
    | apply Reach.set_harv

theorem execTimeConfig_reach {ps : List Part} {n0 : Node} (path : Nat) (idx : Nat) (st nx : State) (hs : Reach ps n0 st.node) (hT : within [.mem, .ram, .host, .rcp, .loops, .line, .time, .harv, .rcd, .sec, .hlth, .freeCtr] ps = true) (h : execTimeConfig path idx st = .next nx) : Reach ps n0 nx.node := by
  unfold execTimeConfig at h
  refine Reach.ofRun h ?_
  try dsimp only
  with_reducible repeat' first
    | assumption
    | intro _
    | exact within_trans (by decide) hT
    | apply Node.hostCmd_reach
    | apply Node.checked_reach
    | apply Node.needCfg_reach
    | apply Node.storeCfg_reach
    | apply Node.updTime_reach
    | apply Node.stepTime_reach
    | apply Node.ok_reach
    | apply Reach.ite
    | apply Reach.foldl
    | split

theorem Node.zbOff_reach {ps : List Part} {n0 : Node} (x0 : Node) (hx0 : Reach ps n0 x0) (hT : within [.stalls, .cache, .loops, .fio, .axes, .drives, .zb, .cust, .lifts, .gates, .rcd, .safe, .freeCtr] ps = true) : Reach ps n0 (Node.zbOff x0) := by
  unfold Node.zbOff
  try dsimp only
  with_reducible repeat' first
    | assumption
    | intro _
    | exact within_trans (by decide) hT
    | apply Node.zbHolds_reach
    | apply Node.updZb_reach
    | apply Reach.ite
    | apply Reach.foldl
    | split

theorem Node.zbIdle_reach {ps : List Part} {n0 : Node} (x0 : Node) (hx0 : Reach ps n0 x0) (hT : within [.stalls, .cache, .loops, .fio, .axes, .drives, .zb, .cust, .lifts, .gates, .rcd, .safe, .freeCtr] ps = true) : Reach ps n0 (Node.zbIdle x0) := by
  unfold Node.zbIdle
  try dsimp only
  with_reducible repeat' first
    | assumption
    | intro _
    | exact within_trans (by decide) hT
    | apply Node.zbOff_reach
    | apply Node.updZb_reach
    | apply Reach.ite
    | apply Reach.foldl
    | split

theorem Node.zbMode_reach {ps : List Part} {n0 : Node} (x0 : Node) (x1 : Nat) (hx0 : Reach ps n0 x0) (hT : within [.mem, .ram, .host, .stalls, .cache, .loops, .fio, .encs, .axes, .drives, .line, .zb, .cust, .lifts, .gates, .rcd, .safe, .hlth, .freeCtr] ps = true) : Reach ps n0 (Node.zbMode x0 x1) := by
  unfold Node.zbMode
  try dsimp only
  with_reducible repeat' first
    | assumption
    | intro _
    | exact within_trans (by decide) hT
    | apply Node.updZb_reach
    | apply Node.zbIdle_reach
    | apply Node.zbEmpty_reach
    | apply Reach.ite
    | apply Reach.foldl
    | split

theorem Node.zbSaw_reach {ps : List Part} {n0 : Node} (x0 : Node) (x1 : Bool) (hx0 : Reach ps n0 x0) (hT : within [.zb] ps = true) : Reach ps n0 (Node.zbSaw x0 x1) := by
  unfold Node.zbSaw
  try dsimp only
  with_reducible repeat' first
    | assumption
    | intro _
    | exact within_trans (by decide) hT
    | apply Node.updZb_reach
    | apply Reach.ite
    | apply Reach.foldl
    | split

theorem execZbConfig_reach {ps : List Part} {n0 : Node} (at_ : Nat × Nat) (started : Bool) (st nx : State) (hs : Reach ps n0 st.node) (hT : within [.mem, .ram, .host, .stalls, .cache, .loops, .fio, .encs, .axes, .drives, .line, .zb, .cust, .lifts, .gates, .rcd, .safe, .sec, .hlth, .freeCtr] ps = true) (h : execZbConfig at_ started st = .next nx) : Reach ps n0 nx.node := by
  unfold execZbConfig at h
  refine Reach.ofRun h ?_
  try dsimp only
  with_reducible repeat' first
    | assumption
    | intro _
    | exact within_trans (by decide) hT
    | apply Node.hostCmd_reach
    | apply Node.checked_reach
    | apply Node.needCfg_reach
    | apply Node.updZb_reach
    | apply Node.ok_reach
    | apply Node.storeCfg_reach
    | apply Node.zbMode_reach
    | apply Node.zbSaw_reach
    | apply Node.write_reach
    | apply Reach.ite
    | apply Reach.foldl
    | split

theorem execCustodyConfig_reach {ps : List Part} {n0 : Node} (path : Nat) (idx : Nat) (st nx : State) (hs : Reach ps n0 st.node) (hT : within [.mem, .ram, .host, .line, .cust, .rcd, .sec, .hlth, .freeCtr] ps = true) (h : execCustodyConfig path idx st = .next nx) : Reach ps n0 nx.node := by
  unfold execCustodyConfig at h
  refine Reach.ofRun h ?_
  try dsimp only
  with_reducible repeat' first
    | assumption
    | intro _
    | exact within_trans (by decide) hT
    | apply Node.hostCmd_reach
    | apply Node.checked_reach
    | apply Node.needCfg_reach
    | apply Node.ok_reach
    | apply Node.storeCfg_reach
    | apply Node.seeBelt_reach
    | apply Node.updCust_reach
    | apply Reach.ite
    | apply Reach.foldl
    | split

theorem Node.liftSettings_reach {ps : List Part} {n0 : Node} (x0 : Node) (x1 : Nat) (x2 : List Byte) (hx0 : Reach ps n0 x0) (hT : within [.mem, .ram, .host, .line, .lifts, .rcd, .sec, .hlth, .freeCtr] ps = true) : Reach ps n0 (Node.liftSettings x0 x1 x2) := by
  unfold Node.liftSettings
  try dsimp only
  with_reducible repeat' first
    | assumption
    | intro _
    | exact within_trans (by decide) hT
    | apply Node.checked_reach
    | apply Node.needCfg_reach
    | apply Node.ok_reach
    | apply Node.storeCfg_reach
    | apply Node.updLift_reach
    | apply Reach.ite
    | apply Reach.foldl
    | split

theorem Node.liftTable_reach {ps : List Part} {n0 : Node} (x0 : Node) (x1 : Nat) (x2 : List Byte) (hx0 : Reach ps n0 x0) (hT : within [.mem, .ram, .host, .line, .lifts, .rcd, .sec, .hlth, .freeCtr] ps = true) : Reach ps n0 (Node.liftTable x0 x1 x2) := by
  unfold Node.liftTable
  try dsimp only
  with_reducible repeat' first
    | assumption
    | intro _
    | exact within_trans (by decide) hT
    | apply Node.checked_reach
    | apply Node.needCfg_reach
    | apply Node.ok_reach
    | apply Node.storeCfg_reach
    | apply Node.updLift_reach
    | apply Reach.ite
    | apply Reach.foldl
    | split

theorem Node.gateSettings_reach {ps : List Part} {n0 : Node} (x0 : Node) (x1 : Nat) (x2 : List Byte) (hx0 : Reach ps n0 x0) (hT : within [.mem, .ram, .host, .line, .gates, .rcd, .sec, .hlth, .freeCtr] ps = true) : Reach ps n0 (Node.gateSettings x0 x1 x2) := by
  unfold Node.gateSettings
  try dsimp only
  with_reducible repeat' first
    | assumption
    | intro _
    | exact within_trans (by decide) hT
    | apply Node.checked_reach
    | apply Node.needCfg_reach
    | apply Node.ok_reach
    | apply Node.storeCfg_reach
    | apply Node.updGate_reach
    | apply Reach.ite
    | apply Reach.foldl
    | split

theorem execLiftConfig_reach {ps : List Part} {n0 : Node} (path : Nat) (idx : Nat) (st nx : State) (hs : Reach ps n0 st.node) (hT : within [.mem, .ram, .host, .line, .lifts, .gates, .rcd, .sec, .hlth, .freeCtr] ps = true) (h : execLiftConfig path idx st = .next nx) : Reach ps n0 nx.node := by
  unfold execLiftConfig at h
  refine Reach.ofRun h ?_
  try dsimp only
  with_reducible repeat' first
    | assumption
    | intro _
    | exact within_trans (by decide) hT
    | apply Node.hostCmd_reach
    | apply Node.checked_reach
    | apply Node.liftSettings_reach
    | apply Node.liftTable_reach
    | apply Node.gateSettings_reach
    | apply Node.ok_reach
    | apply Reach.ite
    | apply Reach.foldl
    | split

theorem Node.hvStageSet_reach {ps : List Part} {n0 : Node} (x0 : Node) (x1 : Nat) (x2 : List Byte) (hx0 : Reach ps n0 x0) (hT : within [.mem, .ram, .host, .line, .harv, .rcd, .freeCtr] ps = true) : Reach ps n0 (Node.hvStageSet x0 x1 x2) := by
  unfold Node.hvStageSet
  try dsimp only
  with_reducible repeat' first
    | assumption
    | intro _
    | exact within_trans (by decide) hT
    | apply Node.checked_reach
    | apply Node.ok_reach
    | apply Node.updHarv_reach
    | apply Reach.ite
    | apply Reach.foldl
    | split

theorem Node.hvStageEntries_reach {ps : List Part} {n0 : Node} (x0 : Node) (x1 : Nat) (x2 : List Byte) (hx0 : Reach ps n0 x0) (hT : within [.mem, .ram, .host, .line, .harv, .rcd, .freeCtr] ps = true) : Reach ps n0 (Node.hvStageEntries x0 x1 x2) := by
  unfold Node.hvStageEntries
  try dsimp only
  with_reducible repeat' first
    | assumption
    | intro _
    | exact within_trans (by decide) hT
    | apply Node.checked_reach
    | apply Node.ok_reach
    | apply Node.updHarv_reach
    | apply Reach.ite
    | apply Reach.foldl
    | split

theorem Node.hvCommit_reach {ps : List Part} {n0 : Node} (x0 : Node) (x1 : Nat) (x2 : List Byte) (hx0 : Reach ps n0 x0) (hT : within [.mem, .ram, .host, .line, .harv, .rcd, .sec, .hlth, .freeCtr] ps = true) : Reach ps n0 (Node.hvCommit x0 x1 x2) := by
  unfold Node.hvCommit
  try dsimp only
  with_reducible repeat' first
    | assumption
    | intro _
    | exact within_trans (by decide) hT
    | apply Node.checked_reach
    | apply Node.needCfg_reach
    | apply Node.degraded_reach
    | apply Node.storeCfg_reach
    | apply Node.updHarv_reach
    | apply Node.ok_reach
    | apply Reach.ite
    | apply Reach.foldl
    | split

theorem Node.hvReadList_reach {ps : List Part} {n0 : Node} (x0 : Node) (x1 : Nat) (x2 : List Byte) (hx0 : Reach ps n0 x0) (hT : within [.mem, .ram, .host, .line, .rcd, .freeCtr] ps = true) : Reach ps n0 (Node.hvReadList x0 x1 x2) := by
  unfold Node.hvReadList
  try dsimp only
  with_reducible repeat' first
    | assumption
    | intro _
    | exact within_trans (by decide) hT
    | apply Node.checked_reach
    | apply Node.ok_reach
    | apply Reach.ite
    | apply Reach.foldl
    | split

theorem execHarvestList_reach {ps : List Part} {n0 : Node} (path : Nat) (idx : Nat) (st nx : State) (hs : Reach ps n0 st.node) (hT : within [.mem, .ram, .host, .line, .harv, .rcd, .sec, .hlth, .freeCtr] ps = true) (h : execHarvestList path idx st = .next nx) : Reach ps n0 nx.node := by
  unfold execHarvestList at h
  refine Reach.ofRun h ?_
  try dsimp only
  with_reducible repeat' first
    | assumption
    | intro _
    | exact within_trans (by decide) hT
    | apply Node.hostCmd_reach
    | apply Node.checked_reach
    | apply Node.hvStageSet_reach
    | apply Node.hvStageEntries_reach
    | apply Node.hvCommit_reach
    | apply Node.hvReadList_reach
    | apply Reach.ite
    | apply Reach.foldl
    | split

theorem Node.hvDecide_reach {ps : List Part} {n0 : Node} (x0 : Node) (x1 : Nat) (x2 : Nat) (x3 : Nat) (x4 : Nat) (hx0 : Reach ps n0 x0) (hT : within [.harv] ps = true) : Reach ps n0 (Node.hvDecide x0 x1 x2 x3 x4).2 := by
  unfold Node.hvDecide
  try dsimp only
  with_reducible repeat' first
    | assumption
    | intro _
    | exact within_trans (by decide) hT
    | apply Node.updHarv_reach
    | apply Reach.ite
    | apply Reach.foldl
    | split

theorem Node.slotGranted_reach {ps : List Part} {n0 : Node} (x0 : Node) (x1 : Nat) (x2 : Nat) (hx0 : Reach ps n0 x0) (hT : within [.mem, .ram, .host, .line, .harv, .rcd, .freeCtr] ps = true) : Reach ps n0 (Node.slotGranted x0 x1 x2) := by
  unfold Node.slotGranted
  try dsimp only
  with_reducible repeat' first
    | assumption
    | intro _
    | exact within_trans (by decide) hT
    | apply Node.answerSlot_reach
    | apply Node.setHslot_reach
    | apply Reach.ite
    | apply Reach.foldl
    | split

theorem Node.reservationLog_reach {ps : List Part} {n0 : Node} (x0 : Node) (x1 : Nat) (x2 : Nat) (hx0 : Reach ps n0 x0) (hT : within [.rcd] ps = true) : Reach ps n0 (Node.reservationLog x0 x1 x2) := by
  unfold Node.reservationLog
  try dsimp only
  with_reducible repeat' first
    | assumption
    | intro _
    | exact within_trans (by decide) hT
    | apply Node.log_reach
    | apply Reach.ite
    | apply Reach.foldl
    | split

theorem Node.slotRefused_reach {ps : List Part} {n0 : Node} (x0 : Node) (x1 : Nat) (x2 : Nat) (hx0 : Reach ps n0 x0) (hT : within [.mem, .ram, .host, .line, .harv, .rcd, .freeCtr] ps = true) : Reach ps n0 (Node.slotRefused x0 x1 x2) := by
  unfold Node.slotRefused
  try dsimp only
  with_reducible repeat' first
    | assumption
    | intro _
    | exact within_trans (by decide) hT
    | apply Node.answerSlot_reach
    | apply Node.reservationLog_reach
    | apply Node.setHslot_reach
    | apply Reach.ite
    | apply Reach.foldl
    | split

theorem Node.requestSlot_reach {ps : List Part} {n0 : Node} (x0 : Node) (x1 : Nat) (hx0 : Reach ps n0 x0) (hT : within [.mem, .ram, .host, .line, .harv, .rcd, .freeCtr] ps = true) : Reach ps n0 (Node.requestSlot x0 x1) := by
  unfold Node.requestSlot
  try dsimp only
  with_reducible repeat' first
    | assumption
    | intro _
    | exact within_trans (by decide) hT
    | apply Node.updHslot_reach
    | apply Node.hvDecide_reach
    | apply Node.slotGranted_reach
    | apply Node.slotRefused_reach
    | apply Node.askHead_reach
    | refine Reach.ofSnd (by assumption) ?_
    | apply Reach.ite
    | apply Reach.foldl
    | split

theorem execHarvestCollector_reach {ps : List Part} {n0 : Node} (path : Nat) (idx : Nat) (st nx : State) (hs : Reach ps n0 st.node) (hT : within [.mem, .ram, .host, .line, .harv, .rcd, .sec, .hlth, .freeCtr] ps = true) (h : execHarvestCollector path idx st = .next nx) : Reach ps n0 nx.node := by
  unfold execHarvestCollector at h
  refine Reach.ofRun h ?_
  try dsimp only
  with_reducible repeat' first
    | assumption
    | intro _
    | exact within_trans (by decide) hT
    | apply Node.hostCmd_reach
    | apply Node.checked_reach
    | apply Node.degraded_reach
    | apply Node.needCfg_reach
    | apply Node.storeCfg_reach
    | apply Node.requestSlot_reach
    | apply Node.setHslot_reach
    | apply Node.updHarv_reach
    | apply Node.ok_reach
    | apply Reach.ite
    | apply Reach.foldl
    | split

theorem execSleepPolicy_reach {ps : List Part} {n0 : Node} (path : Nat) (idx : Nat) (st nx : State) (hs : Reach ps n0 st.node) (hT : within [.mem, .ram, .host, .line, .rcd, .glean, .sec, .hlth, .freeCtr] ps = true) (h : execSleepPolicy path idx st = .next nx) : Reach ps n0 nx.node := by
  unfold execSleepPolicy at h
  refine Reach.ofRun h ?_
  try dsimp only
  with_reducible repeat' first
    | assumption
    | intro _
    | exact within_trans (by decide) hT
    | apply Node.hostCmd_reach
    | apply Node.checked_reach
    | apply Node.needCfg_reach
    | apply Node.updGlean_reach
    | apply Node.storeCfg_reach
    | apply Node.ok_reach
    | apply Reach.ite
    | apply Reach.foldl
    | split

theorem Node.replayRec_reach {ps : List Part} {n0 : Node} (x0 : Node) (x1 : CfgRec) (hx0 : Reach ps n0 x0) (hT : within [.mem, .ram, .host, .stalls, .cache, .stored, .rcp, .loops, .fio, .adc, .encs, .axes, .drives, .line, .time, .zb, .cust, .lifts, .gates, .harv, .rcd, .safe, .glean, .sec, .hlth, .freeCtr] ps = true) : Reach ps n0 (Node.replayRec x0 x1) := by
  unfold Node.replayRec
  dsimp only
  repeat' first
    | with_reducible assumption
    | with_reducible exact within_trans (by decide) hT
    | with_reducible apply Node.replayRules_reach
    | with_reducible apply Reach.ite
    | split
    | with_reducible apply Node.replayCmd_reach
  all_goals
    rename_i e he _
    intro p i s t hs h
    have hm := List.mem_of_find?_eq_some he
    simp only [replayTable, List.cons_append, List.nil_append, List.mem_cons, List.not_mem_nil, or_false] at hm
    rcases hm with rfl | rfl | rfl | rfl | rfl | rfl | rfl | rfl | rfl | rfl | rfl | rfl | rfl | rfl | rfl
    · exact execStallWrite_reach _ _ _ _ hs (within_trans (by decide) hT) h
    · exact execChanSpare_reach _ _ _ _ hs (within_trans (by decide) hT) h
    · exact execIoWatchdog_reach _ _ _ _ hs (within_trans (by decide) hT) h
    · exact execAdcSequence_reach _ _ _ _ hs (within_trans (by decide) hT) h
    · exact execSchedConfig_reach _ _ _ _ hs (within_trans (by decide) hT) h
    · exact execAxisConfig_reach _ _ _ _ hs (within_trans (by decide) hT) h
    · exact execDriveConfig_reach _ _ _ _ hs (within_trans (by decide) hT) h
    · exact execLineConfig_reach _ _ _ _ hs (within_trans (by decide) hT) h
    · exact execTimeConfig_reach _ _ _ _ hs (within_trans (by decide) hT) h
    · exact execZbConfig_reach _ _ _ _ hs (within_trans (by decide) hT) h
    · exact execCustodyConfig_reach _ _ _ _ hs (within_trans (by decide) hT) h
    · exact execLiftConfig_reach _ _ _ _ hs (within_trans (by decide) hT) h
    · exact execHarvestList_reach _ _ _ _ hs (within_trans (by decide) hT) h
    · exact execHarvestCollector_reach _ _ _ _ hs (within_trans (by decide) hT) h
    · exact execSleepPolicy_reach _ _ _ _ hs (within_trans (by decide) hT) h

theorem Node.configReplay_reach {ps : List Part} {n0 : Node} (x0 : Node) (hx0 : Reach ps n0 x0) (hT : within [.mem, .ram, .host, .stalls, .cache, .stored, .rcp, .loops, .fio, .adc, .encs, .axes, .drives, .line, .time, .zb, .cust, .lifts, .gates, .harv, .rcd, .safe, .glean, .sec, .hlth, .freeCtr] ps = true) : Reach ps n0 (Node.configReplay x0) := by
  unfold Node.configReplay
  try dsimp only
  with_reducible repeat' first
    | assumption
    | intro _
    | exact within_trans (by decide) hT
    | apply Node.replayRec_reach
    | apply Node.updSec_reach
    | apply Reach.ite
    | apply Reach.foldl
    | split

theorem Node.connLog_reach {ps : List Part} {n0 : Node} (x0 : Node) (x1 : Nat) (x2 : Nat) (x3 : ConnSt) (x4 : Nat) (hx0 : Reach ps n0 x0) (hT : within [.rcd, .safe] ps = true) : Reach ps n0 (Node.connLog x0 x1 x2 x3 x4) := by
  unfold Node.connLog
  try dsimp only
  with_reducible repeat' first
    | assumption
    | intro _
    | exact within_trans (by decide) hT
    | apply Node.sfLog_reach
    | apply Reach.ite
    | apply Reach.foldl
    | split

theorem Node.connAgree_reach {ps : List Part} {n0 : Node} (x0 : Node) (x1 : Nat) (x2 : Nat) (x3 : Nat) (x4 : BitVec 32) (x5 : T64) (hx0 : Reach ps n0 x0) (hT : within [.rcd, .safe] ps = true) : Reach ps n0 (Node.connAgree x0 x1 x2 x3 x4 x5) := by
  unfold Node.connAgree
  try dsimp only
  with_reducible repeat' first
    | assumption
    | intro _
    | exact within_trans (by decide) hT
    | apply Node.updChan_reach
    | apply Node.connLog_reach
    | apply Reach.ite
    | apply Reach.foldl
    | split

theorem Node.connDegrade_reach {ps : List Part} {n0 : Node} (x0 : Node) (x1 : Nat) (x2 : Nat) (x3 : BitVec 32) (x4 : T64) (hx0 : Reach ps n0 x0) (hT : within [.rcd, .safe, .freeCtr] ps = true) : Reach ps n0 (Node.connDegrade x0 x1 x2 x3 x4) := by
  unfold Node.connDegrade
  try dsimp only
  with_reducible repeat' first
    | assumption
    | intro _
    | exact within_trans (by decide) hT
    | apply Node.updChan_reach
    | apply Node.free_reach
    | apply Node.connLog_reach
    | refine Reach.ofSnd (by assumption) ?_
    | apply Reach.ite
    | apply Reach.foldl
    | split

theorem Node.connSafe_reach {ps : List Part} {n0 : Node} (x0 : Node) (x1 : Nat) (x2 : Nat) (x3 : Nat) (x4 : T64) (hx0 : Reach ps n0 x0) (hT : within [.rcd, .safe] ps = true) : Reach ps n0 (Node.connSafe x0 x1 x2 x3 x4) := by
  unfold Node.connSafe
  try dsimp only
  with_reducible repeat' first
    | assumption
    | intro _
    | exact within_trans (by decide) hT
    | apply Node.updChan_reach
    | apply Node.connLog_reach
    | apply Reach.ite
    | apply Reach.foldl
    | split

theorem Node.copySafeUse_reach {ps : List Part} {n0 : Node} (x0 : Node) (hx0 : Reach ps n0 x0) (hT : within [.stalls] ps = true) : Reach ps n0 (Node.copySafeUse x0) := by
  unfold Node.copySafeUse
  try dsimp only
  with_reducible repeat' first
    | assumption
    | intro _
    | exact within_trans (by decide) hT
    | apply Node.setStall_reach
    | apply Reach.ite
    | apply Reach.foldl
    | split

theorem Node.flushEvents_reach {ps : List Part} {n0 : Node} (x0 : Node) (hx0 : Reach ps n0 x0) (hT : within [.rcd, .safe] ps = true) : Reach ps n0 (Node.flushEvents x0) := by
  unfold Node.flushEvents
  try dsimp only
  with_reducible repeat' first
    | assumption
    | intro _
    | exact within_trans (by decide) hT
    | apply Node.updSafe_reach
    | apply Node.updRcd_reach
    | apply Reach.ite
    | apply Reach.foldl
    | split

theorem Node.releaseWaiter_reach {ps : List Part} {n0 : Node} (x0 : Node) (x1 : Nat) (hx0 : Reach ps n0 x0) (hT : within [.isl, .mem, .ram, .host, .line, .rcd, .freeCtr] ps = true) : Reach ps n0 (Node.releaseWaiter x0 x1) := by
  unfold Node.releaseWaiter
  try dsimp only
  with_reducible repeat' first
    | assumption
    | intro _
    | exact within_trans (by decide) hT
    | apply Node.answerIsland_reach
    | apply Node.updIsland_reach
    | apply Reach.ite
    | apply Reach.foldl
    | split

theorem Node.coreFails_reach {ps : List Part} {n0 : Node} (x0 : Node) (hx0 : Reach ps n0 x0) (hT : within [.isl, .mem, .ram, .host, .rcp, .axes, .line, .zb, .harv, .rcd, .safe, .freeCtr] ps = true) : Reach ps n0 (Node.coreFails x0) := by
  unfold Node.coreFails
  try dsimp only
  with_reducible repeat' first
    | assumption
    | intro _
    | exact within_trans (by decide) hT
    | apply Node.updHost_reach
    | apply Node.flushEvents_reach
    | apply Node.releaseWaiter_reach
    | apply Node.afterRestart_reach
    | apply Reach.ite
    | apply Reach.foldl
    | split

theorem Node.dropTasks_reach {ps : List Part} {n0 : Node} (x0 : Node) (hx0 : Reach ps n0 x0) (hT : within [.rcp] ps = true) : Reach ps n0 (Node.dropTasks x0) := by
  unfold Node.dropTasks
  try dsimp only
  with_reducible repeat' first
    | assumption
    | intro _
    | exact within_trans (by decide) hT
    | apply Node.outcome_reach
    | apply Reach.ite
    | apply Reach.set_rcp (m := x0)
    | apply Reach.foldl
    | split
    | apply Reach.set_rcp

theorem Node.recCreate_reach {ps : List Part} {n0 : Node} (x0 : Node) (x1 : Nat) (x2 : Nat) (x3 : Nat) (x4 : Nat) (x5 : Bool) (hx0 : Reach ps n0 x0) (hT : within [.line, .cust, .freeCtr] ps = true) : Reach ps n0 (Node.recCreate x0 x1 x2 x3 x4 x5).2 := by
  unfold Node.recCreate
  try dsimp only
  with_reducible repeat' first
    | assumption
    | intro _
    | exact within_trans (by decide) hT
    | apply Node.updCust_reach
    | apply Node.recPut_reach
    | apply Reach.ite
    | apply Reach.foldl
    | split

theorem Node.handoffFail_reach {ps : List Part} {n0 : Node} (x0 : Node) (x1 : CRec) (x2 : Nat) (x3 : Nat) (hx0 : Reach ps n0 x0) (hT : within [.rcd] ps = true) : Reach ps n0 (Node.handoffFail x0 x1 x2 x3) := by
  unfold Node.handoffFail
  try dsimp only
  with_reducible repeat' first
    | assumption
    | intro _
    | exact within_trans (by decide) hT
    | apply Node.log_reach
    | apply Reach.ite
    | apply Reach.foldl
    | split

theorem Node.offer_reach {ps : List Part} {n0 : Node} (x0 : Node) (x1 : Nat) (hx0 : Reach ps n0 x0) (hT : within [.line, .cust, .rcd, .freeCtr] ps = true) : Reach ps n0 (Node.offer x0 x1) := by
  unfold Node.offer
  try dsimp only
  with_reducible repeat' first
    | assumption
    | intro _
    | exact within_trans (by decide) hT
    | apply Node.await_reach
    | apply Node.custRecords_reach
    | apply Node.setOwn_reach
    | apply Node.answered_reach
    | apply Node.handoffFail_reach
    | apply Reach.ite
    | apply Reach.foldl
    | split

theorem Node.recMatch_reach {ps : List Part} {n0 : Node} (x0 : Node) (x1 : Nat) (x2 : Nat) (x3 : Nat) (hx0 : Reach ps n0 x0) (hT : within [.line, .cust, .rcd, .freeCtr] ps = true) : Reach ps n0 (Node.recMatch x0 x1 x2 x3) := by
  unfold Node.recMatch
  try dsimp only
  with_reducible repeat' first
    | assumption
    | intro _
    | exact within_trans (by decide) hT
    | apply Node.updCust_reach
    | apply Node.offer_reach
    | apply Node.recChange_reach
    | apply Reach.ite
    | apply Reach.foldl
    | split

theorem Node.eyeRise_reach {ps : List Part} {n0 : Node} (x0 : Node) (x1 : Nat) (x2 : Nat) (hx0 : Reach ps n0 x0) (hT : within [.line, .time, .cust, .rcd, .freeCtr] ps = true) : Reach ps n0 (Node.eyeRise x0 x1 x2) := by
  unfold Node.eyeRise
  try dsimp only
  with_reducible repeat' first
    | assumption
    | intro _
    | exact within_trans (by decide) hT
    | apply Node.updCust_reach
    | apply Node.upTo_reach
    | apply Node.recCreate_reach
    | apply Node.recMatch_reach
    | apply Node.log_reach
    | refine Reach.ofSnd (by assumption) ?_
    | apply Reach.ite
    | apply Reach.foldl
    | split

theorem Node.recExit_reach {ps : List Part} {n0 : Node} (x0 : Node) (x1 : Nat) (x2 : Nat) (x3 : Nat) (hx0 : Reach ps n0 x0) (hT : within [.line, .cust, .rcd, .freeCtr] ps = true) : Reach ps n0 (Node.recExit x0 x1 x2 x3) := by
  unfold Node.recExit
  try dsimp only
  with_reducible repeat' first
    | assumption
    | intro _
    | exact within_trans (by decide) hT
    | apply Node.recChange_reach
    | apply Node.updCust_reach
    | apply Node.log_reach
    | apply Reach.ite
    | apply Reach.foldl
    | split

theorem Node.eyeFall_reach {ps : List Part} {n0 : Node} (x0 : Node) (x1 : Nat) (x2 : Nat) (hx0 : Reach ps n0 x0) (hT : within [.line, .time, .cust, .rcd, .freeCtr] ps = true) : Reach ps n0 (Node.eyeFall x0 x1 x2) := by
  unfold Node.eyeFall
  try dsimp only
  with_reducible repeat' first
    | assumption
    | intro _
    | exact within_trans (by decide) hT
    | apply Node.updCust_reach
    | apply Node.upTo_reach
    | apply Node.recExit_reach
    | apply Reach.ite
    | apply Reach.foldl
    | split

theorem Node.eyesAfterRestart_reach {ps : List Part} {n0 : Node} (x0 : Node) (hx0 : Reach ps n0 x0) (hT : within [.line, .time, .cust, .rcd, .freeCtr] ps = true) : Reach ps n0 (Node.eyesAfterRestart x0) := by
  unfold Node.eyesAfterRestart
  try dsimp only
  with_reducible repeat' first
    | assumption
    | intro _
    | exact within_trans (by decide) hT
    | apply Node.eyeRise_reach
    | apply Node.eyeFall_reach
    | apply Reach.ite
    | apply Reach.foldl
    | split

theorem Node.custAgain_reach {ps : List Part} {n0 : Node} (x0 : Node) (x1 : CMsg) (hx0 : Reach ps n0 x0) (hT : within [.line, .cust, .rcd, .freeCtr] ps = true) : Reach ps n0 (Node.custAgain x0 x1) := by
  unfold Node.custAgain
  try dsimp only
  with_reducible repeat' first
    | assumption
    | intro _
    | exact within_trans (by decide) hT
    | apply Node.custRecords_reach
    | apply Node.answered_reach
    | apply Node.handoffFail_reach
    | apply Node.custSend_reach
    | apply Node.custNote_reach
    | apply Reach.ite
    | apply Reach.foldl
    | split

theorem Node.custRepeat_reach {ps : List Part} {n0 : Node} (x0 : Node) (hx0 : Reach ps n0 x0) (hT : within [.line, .cust, .rcd, .freeCtr] ps = true) : Reach ps n0 (Node.custRepeat x0) := by
  unfold Node.custRepeat
  try dsimp only
  with_reducible repeat' first
    | assumption
    | intro _
    | exact within_trans (by decide) hT
    | apply Node.custAgain_reach
    | apply Reach.ite
    | apply Reach.foldl
    | split

theorem Node.postTask_reach {ps : List Part} {n0 : Node} (x0 : Node) (x1 : Nat) (x2 : W64) (x3 : Nat) (x4 : Nat) (x5 : Nat) (x6 : Nat) (x7 : Option (Nat × Nat)) (x8 : Bool) (hx0 : Reach ps n0 x0) (hT : within [.rcp] ps = true) : Reach ps n0 (Node.postTask x0 x1 x2 x3 x4 x5 x6 x7 x8).2 := by
  unfold Node.postTask
  try dsimp only
  with_reducible repeat' first
    | assumption
    | intro _
    | exact within_trans (by decide) hT
    | apply Reach.ite
    | apply Reach.set_rcp (m := x0)
    | apply Reach.foldl
    | split
    | apply Reach.set_rcp

theorem Node.postAction_reach {ps : List Part} {n0 : Node} (x0 : Node) (x1 : Nat) (x2 : Nat) (x3 : Step → Nat) (x4 : Node → Step → W64) (x5 : Step → Nat) (hx0 : Reach ps n0 x0) (hT : within [.mem, .ram, .host, .rcp, .line, .rcd, .freeCtr] ps = true) : Reach ps n0 (Node.postAction x0 x1 x2 x3 x4 x5) := by
  unfold Node.postAction
  try dsimp only
  with_reducible repeat' first
    | assumption
    | intro _
    | exact within_trans (by decide) hT
    | apply Node.withStep_reach
    | apply Node.setInst_reach
    | apply Node.rejudge_reach
    | apply Node.updInst_reach
    | apply Node.postTask_reach
    | apply Node.setReg_reach
    | apply Node.log_reach
    | apply Node.enterStep_reach
    | refine Reach.ofSnd (by assumption) ?_
    | apply Reach.ite
    | apply Reach.foldl
    | split

theorem Node.postFw_reach {ps : List Part} {n0 : Node} (x0 : Node) (x1 : Nat) (x2 : Nat) (hx0 : Reach ps n0 x0) (hT : within [.mem, .ram, .host, .rcp, .line, .rcd, .freeCtr] ps = true) : Reach ps n0 (Node.postFw x0 x1 x2) := by
  unfold Node.postFw
  try dsimp only
  with_reducible repeat' first
    | assumption
    | intro _
    | exact within_trans (by decide) hT
    | apply Node.postAction_reach
    | apply Reach.ite
    | apply Reach.foldl
    | split

theorem Node.postWaiting_reach {ps : List Part} {n0 : Node} (x0 : Node) (hx0 : Reach ps n0 x0) (hT : within [.mem, .ram, .host, .rcp, .line, .rcd, .freeCtr] ps = true) : Reach ps n0 (Node.postWaiting x0) := by
  unfold Node.postWaiting
  try dsimp only
  with_reducible repeat' first
    | assumption
    | intro _
    | exact within_trans (by decide) hT
    | apply Node.postFw_reach
    | apply Reach.ite
    | apply Reach.foldl
    | split

theorem Node.coreStart_reach {ps : List Part} {n0 : Node} (x0 : Node) (x1 : List Nat) (hx0 : Reach ps n0 x0) (hT : within [.isl, .mem, .ram, .host, .rcp, .fio, .axes, .line, .time, .zb, .cust, .harv, .rcd, .safe, .freeCtr] ps = true) : Reach ps n0 (Node.coreStart x0 x1) := by
  unfold Node.coreStart
  try dsimp only
  with_reducible repeat' first
    | assumption
    | intro _
    | exact within_trans (by decide) hT
    | apply Node.updHost_reach
    | apply Node.updFio_reach
    | apply Node.dropTasks_reach
    | apply Node.flushEvents_reach
    | apply Node.releaseWaiter_reach
    | apply Node.afterRestart_reach
    | apply Node.eyesAfterRestart_reach
    | apply Node.custRepeat_reach
    | apply Node.custRebuild_reach
    | apply Node.postWaiting_reach
    | apply Reach.ite
    | apply Reach.foldl
    | split

theorem Node.correct_reach {ps : List Part} {n0 : Node} (x0 : Node) (x1 : Nat) (x2 : Nat) (x3 : Int) (hx0 : Reach ps n0 x0) (hT : within [.lifts, .rcd] ps = true) : Reach ps n0 (Node.correct x0 x1 x2 x3) := by
  unfold Node.correct
  try dsimp only
  with_reducible repeat' first
    | assumption
    | intro _
    | exact within_trans (by decide) hT
    | apply Node.log_reach
    | apply Node.updLift_reach
    | apply Reach.ite
    | apply Reach.foldl
    | split

theorem Node.retirePort_reach {ps : List Part} {n0 : Node} (x0 : Node) (x1 : Nat) (x2 : Nat) (hx0 : Reach ps n0 x0) (hT : within [.power, .line, .time, .rcd, .glean, .hlth, .freeCtr] ps = true) : Reach ps n0 (Node.retirePort x0 x1 x2) := by
  unfold Node.retirePort
  try dsimp only
  with_reducible repeat' first
    | assumption
    | intro _
    | exact within_trans (by decide) hT
    | apply Node.mapWrite_reach
    | apply Node.raise_reach
    | apply Node.dropQueues_reach
    | apply Node.slaveLeaves_reach
    | apply Node.setPort_reach
    | apply Node.withdraw_reach
    | apply Node.log_reach
    | apply Node.ringBreakAt_reach
    | apply Node.closeBypass_reach
    | apply Node.report_reach
    | apply Reach.ite
    | apply Reach.foldl
    | split

theorem Node.countDrop_reach {ps : List Part} {n0 : Node} (x0 : Node) (x1 : Nat) (hx0 : Reach ps n0 x0) (hT : within [.power, .line, .time, .rcd, .glean, .hlth, .freeCtr] ps = true) : Reach ps n0 (Node.countDrop x0 x1) := by
  unfold Node.countDrop
  try dsimp only
  with_reducible repeat' first
    | assumption
    | intro _
    | exact within_trans (by decide) hT
    | apply Node.updPort_reach
    | apply Node.retirePort_reach
    | apply Reach.ite
    | apply Reach.foldl
    | split

theorem Node.countStep_reach {ps : List Part} {n0 : Node} (x0 : Node) (x1 : Nat) (x2 : Int) (x3 : T64) (hx0 : Reach ps n0 x0) (hT : within [.stalls, .cache, .rcp, .fio, .encs, .zb, .cust, .rcd] ps = true) : Reach ps n0 (Node.countStep x0 x1 x2 x3) := by
  unfold Node.countStep
  try dsimp only
  with_reducible repeat' first
    | assumption
    | intro _
    | exact within_trans (by decide) hT
    | apply Node.setEnc_reach
    | apply Node.positionLost_reach
    | apply Node.comparesStep_reach
    | apply Reach.ite
    | apply Reach.foldl
    | split

theorem Node.crossCheck_reach {ps : List Part} {n0 : Node} (x0 : Node) (x1 : Nat) (x2 : Nat) (x3 : Bool) (x4 : BitVec 76) (hx0 : Reach ps n0 x0) (hT : within [.isl, .rcd] ps = true) : Reach ps n0 (Node.crossCheck x0 x1 x2 x3 x4).2.2 := by
  unfold Node.crossCheck
  try dsimp only
  with_reducible repeat' first
    | assumption
    | intro _
    | exact within_trans (by decide) hT
    | apply Node.eccLog_reach
    | apply Node.updIsland_reach
    | apply Reach.ite
    | apply Reach.foldl
    | split

theorem Node.custHolders_reach {ps : List Part} {n0 : Node} (x0 : Node) (hx0 : Reach ps n0 x0) (hT : within [.line, .cust, .freeCtr] ps = true) : Reach ps n0 (Node.custHolders x0) := by
  unfold Node.custHolders
  try dsimp only
  with_reducible repeat' first
    | assumption
    | intro _
    | exact within_trans (by decide) hT
    | apply Node.recChange_reach
    | apply Node.custRecords_reach
    | apply Node.setOwn_reach
    | apply Reach.ite
    | apply Reach.foldl
    | split

theorem Node.custIn_reach {ps : List Part} {n0 : Node} (x0 : Node) (x1 : Nat) (x2 : Node → Node) (hx0 : Reach ps n0 x0) (hx2 : ∀ (y0 : Node), Reach ps n0 y0 → Reach ps n0 (x2 y0)) (hT : within [.glean] ps = true) : Reach ps n0 (Node.custIn x0 x1 x2) := by
  unfold Node.custIn
  try dsimp only
  with_reducible repeat' first
    | assumption
    | intro _
    | apply hx2
    | exact within_trans (by decide) hT
    | apply Node.raise_reach
    | apply Reach.ite
    | apply Reach.foldl
    | split

theorem Node.custodyCreate_reach {ps : List Part} {n0 : Node} (x0 : Node) (x1 : W64) (x2 : T64) (hx0 : Reach ps n0 x0) (hT : within [.line, .cust, .freeCtr] ps = true) : Reach ps n0 (Node.custodyCreate x0 x1 x2).2 := by
  unfold Node.custodyCreate
  try dsimp only
  with_reducible repeat' first
    | assumption
    | intro _
    | exact within_trans (by decide) hT
    | apply Node.recCreate_reach
    | refine Reach.ofSnd (by assumption) ?_
    | apply Reach.ite
    | apply Reach.foldl
    | split

theorem Node.decide__reach {ps : List Part} {n0 : Node} (x0 : Node) (x1 : T64) (hx0 : Reach ps n0 x0) (hT : within [.line, .cust, .freeCtr] ps = true) : Reach ps n0 (Node.decide_ x0 x1) := by
  unfold Node.decide_
  try dsimp only
  with_reducible repeat' first
    | assumption
    | intro _
    | exact within_trans (by decide) hT
    | apply Node.recChange_reach
    | apply Reach.ite
    | apply Reach.foldl
    | split

theorem Node.deliver_reach {ps : List Part} {n0 : Node} (x0 : Node) (x1 : Nat) (x2 : KFrame) (hx0 : Reach ps n0 x0) (hT : within [.line, .glean] ps = true) : Reach ps n0 (Node.deliver x0 x1 x2) := by
  unfold Node.deliver
  try dsimp only
  with_reducible repeat' first
    | assumption
    | intro _
    | exact within_trans (by decide) hT
    | apply Node.updLine_reach
    | apply Node.raise_reach
    | apply Reach.ite
    | apply Reach.set_glean (m := x0)
    | apply Reach.foldl
    | split
    | apply Reach.set_glean

theorem Node.deliverWord_reach {ps : List Part} {n0 : Node} (x0 : Node) (x1 : Nat) (x2 : Nat) (x3 : Nat) (x4 : Bool) (x5 : Bool) (hx0 : Reach ps n0 x0) (hT : within [.isl, .lastCrossing, .mem, .ram, .power, .host, .stalls, .cache, .rcp, .loops, .fio, .adc, .encs, .axes, .drives, .line, .time, .zb, .cust, .lifts, .gates, .harv, .rcd, .safe, .glean, .sec, .hlth, .freeCtr] ps = true) : Reach ps n0 (Node.deliverWord x0 x1 x2 x3 x4 x5) := by
  unfold Node.deliverWord
  try dsimp only
  with_reducible repeat' first
    | assumption
    | intro _
    | exact within_trans (by decide) hT
    | apply Node.pokes_reach
    | apply Node.afterCopies_reach
    | apply Node.poisonWord_reach
    | apply Reach.ite
    | apply Reach.set_lastCrossing (m := x0)
    | apply Reach.foldl
    | split
    | apply Reach.set_lastCrossing

theorem Node.demandLog_reach {ps : List Part} {n0 : Node} (x0 : Node) (x1 : Nat) (x2 : Nat) (x3 : Nat) (x4 : Bool) (hx0 : Reach ps n0 x0) (hT : within [.rcd, .safe] ps = true) : Reach ps n0 (Node.demandLog x0 x1 x2 x3 x4) := by
  unfold Node.demandLog
  try dsimp only
  with_reducible repeat' first
    | assumption
    | intro _
    | exact within_trans (by decide) hT
    | apply Node.sfLog_reach
    | apply Reach.ite
    | apply Reach.foldl
    | split

theorem Node.deviceReset_reach {ps : List Part} {n0 : Node} (x0 : Node) (x1 : Nat) (x2 : PowerStage) (hx0 : Reach ps n0 x0) (hT : within [.isl, .lastCrossing, .mem, .ram, .power, .host, .stalls, .cache, .rcp, .loops, .fio, .adc, .encs, .axes, .drives, .line, .time, .zb, .cust, .lifts, .gates, .harv, .rcd, .safe, .glean, .sec, .hlth] ps = true) : Reach ps n0 (Node.deviceReset x0 x1 x2) := by
  refine hx0.trans ⟨fun p hp => ?_, fun _ => rfl⟩
  cases p <;> first | exact absurd (within_mem hT rfl) hp | exact rfl

theorem Node.downT1_reach {ps : List Part} {n0 : Node} (x0 : Node) (x1 : Nat) (hx0 : Reach ps n0 x0) (hT : within [.power, .fio, .drives, .line, .rcd, .safe] ps = true) : Reach ps n0 (Node.downT1 x0 x1) := by
  unfold Node.downT1
  try dsimp only
  with_reducible repeat' first
    | assumption
    | intro _
    | exact within_trans (by decide) hT
    | apply Node.updPower_reach
    | apply Node.sfOpen_reach
    | apply Node.zoneStop_reach
    | apply Node.driveAll_reach
    | apply Node.coilsOff_reach
    | apply Node.sendLeave_reach
    | apply Reach.ite
    | apply Reach.foldl
    | split

theorem Node.drive_reach {ps : List Part} {n0 : Node} (x0 : Node) (x1 : List Byte) (hx0 : Reach ps n0 x0) (hT : within [.host] ps = true) : Reach ps n0 (Node.drive x0 x1) := by
  unfold Node.drive
  try dsimp only
  with_reducible repeat' first
    | assumption
    | intro _
    | exact within_trans (by decide) hT
    | apply Node.updHost_reach
    | apply Reach.ite
    | apply Reach.foldl
    | split

theorem Node.drivesAgain_reach {ps : List Part} {n0 : Node} (x0 : Node) (hx0 : Reach ps n0 x0) (hT : within [.stalls, .cache, .fio, .axes, .drives, .zb, .cust, .lifts, .gates, .rcd] ps = true) : Reach ps n0 (Node.drivesAgain x0) := by
  unfold Node.drivesAgain
  try dsimp only
  with_reducible repeat' first
    | assumption
    | intro _
    | exact within_trans (by decide) hT
    | apply Node.driveCar_reach
    | apply Node.updLift_reach
    | apply Node.driveGate_reach
    | apply Node.updGate_reach
    | apply Node.showGate_reach
    | apply Reach.ite
    | apply Reach.foldl
    | split

theorem Node.dropUnlock_reach {ps : List Part} {n0 : Node} (x0 : Node) (x1 : Nat) (x2 : Nat) (hx0 : Reach ps n0 x0) (hT : within [.safe] ps = true) : Reach ps n0 (Node.dropUnlock x0 x1 x2) := by
  unfold Node.dropUnlock
  try dsimp only
  with_reducible repeat' first
    | assumption
    | intro _
    | exact within_trans (by decide) hT
    | apply Node.updChan_reach
    | apply Reach.ite
    | apply Reach.foldl
    | split

theorem Node.dropUpdates_reach {ps : List Part} {n0 : Node} (x0 : Node) (x1 : Nat) (x2 : List T64) (hx0 : Reach ps n0 x0) (hT : within [.loops, .rcd] ps = true) : Reach ps n0 (Node.dropUpdates x0 x1 x2) := by
  unfold Node.dropUpdates
  try dsimp only
  with_reducible repeat' first
    | assumption
    | intro _
    | exact within_trans (by decide) hT
    | apply Node.log_reach
    | apply Node.setLoop_reach
    | apply Reach.ite
    | apply Reach.foldl
    | split

theorem Node.setFlag_reach {ps : List Part} {n0 : Node} (x0 : Node) (x1 : Nat) (x2 : Bool) (hx0 : Reach ps n0 x0) (hT : within [.rcp] ps = true) : Reach ps n0 (Node.setFlag x0 x1 x2) := by
  unfold Node.setFlag
  try dsimp only
  with_reducible repeat' first
    | assumption
    | intro _
    | exact within_trans (by decide) hT
    | apply Reach.ite
    | apply Reach.set_rcp (m := x0)
    | apply Reach.foldl
    | split
    | apply Reach.set_rcp

theorem Node.dueFlags_reach {ps : List Part} {n0 : Node} (x0 : Node) (hx0 : Reach ps n0 x0) (hT : within [.rcp, .encs] ps = true) : Reach ps n0 (Node.dueFlags x0) := by
  unfold Node.dueFlags
  try dsimp only
  with_reducible repeat' first
    | assumption
    | intro _
    | exact within_trans (by decide) hT
    | apply Node.updEnc_reach
    | apply Node.setFlag_reach
    | apply Reach.ite
    | apply Reach.foldl
    | split

theorem Node.dwellClose_reach {ps : List Part} {n0 : Node} (x0 : Node) (x1 : Nat) (hx0 : Reach ps n0 x0) (hT : within [.stalls, .cache, .fio, .axes, .drives, .zb, .cust, .gates, .rcd] ps = true) : Reach ps n0 (Node.dwellClose x0 x1) := by
  unfold Node.dwellClose
  try dsimp only
  with_reducible repeat' first
    | assumption
    | intro _
    | exact within_trans (by decide) hT
    | apply Node.closeGate_reach
    | apply Reach.ite
    | apply Reach.foldl
    | split

theorem Node.engage_reach {ps : List Part} {n0 : Node} (x0 : Node) (x1 : Nat) (x2 : Gear) (x3 : Bool) (hx0 : Reach ps n0 x0) (hT : within [.axes, .drives] ps = true) : Reach ps n0 (Node.engage x0 x1 x2 x3) := by
  unfold Node.engage
  try dsimp only
  with_reducible repeat' first
    | assumption
    | intro _
    | exact within_trans (by decide) hT
    | apply Node.settle_reach
    | apply Node.leaveStandstill_reach
    | apply Node.updAxis_reach
    | apply Reach.ite
    | apply Reach.foldl
    | split

theorem Node.eraseDone_reach {ps : List Part} {n0 : Node} (x0 : Node) (x1 : Nat) (hx0 : Reach ps n0 x0) (hT : within [.rcd, .hlth] ps = true) : Reach ps n0 (Node.eraseDone x0 x1) := by
  unfold Node.eraseDone
  try dsimp only
  with_reducible repeat' first
    | assumption
    | intro _
    | exact within_trans (by decide) hT
    | apply Node.updHlth_reach
    | apply Node.updRcd_reach
    | apply Reach.ite
    | apply Reach.foldl
    | split

theorem Node.evalFuncs_reach {ps : List Part} {n0 : Node} (x0 : Node) (x1 : Nat) (x2 : T64) (hx0 : Reach ps n0 x0) (hT : within [.rcd, .safe] ps = true) : Reach ps n0 (Node.evalFuncs x0 x1 x2) := by
  unfold Node.evalFuncs
  try dsimp only
  with_reducible repeat' first
    | assumption
    | intro _
    | exact within_trans (by decide) hT
    | apply Node.setChan_reach
    | apply Node.demandLog_reach
    | apply Reach.ite
    | apply Reach.foldl
    | split

theorem Node.setTrig_reach {ps : List Part} {n0 : Node} (x0 : Node) (x1 : Nat) (x2 : Trig) (hx0 : Reach ps n0 x0) (hT : within [.harv] ps = true) : Reach ps n0 (Node.setTrig x0 x1 x2) := by
  unfold Node.setTrig
  try dsimp only
  with_reducible repeat' first
    | assumption
    | intro _
    | exact within_trans (by decide) hT
    | apply Node.updHarv_reach
    | apply Reach.ite
    | apply Reach.foldl
    | split

theorem Node.fireAt_reach {ps : List Part} {n0 : Node} (x0 : Node) (x1 : Nat) (x2 : Nat) (x3 : T64) (hx0 : Reach ps n0 x0) (hT : within [.harv] ps = true) : Reach ps n0 (Node.fireAt x0 x1 x2 x3) := by
  unfold Node.fireAt
  try dsimp only
  with_reducible repeat' first
    | assumption
    | intro _
    | exact within_trans (by decide) hT
    | apply Node.setTrig_reach
    | apply Node.updHarv_reach
    | apply Reach.ite
    | apply Reach.foldl
    | split

theorem Node.fireTrigger_reach {ps : List Part} {n0 : Node} (x0 : Node) (x1 : Nat) (x2 : T64) (hx0 : Reach ps n0 x0) (hT : within [.harv] ps = true) : Reach ps n0 (Node.fireTrigger x0 x1 x2) := by
  unfold Node.fireTrigger
  try dsimp only
  with_reducible repeat' first
    | assumption
    | intro _
    | exact within_trans (by decide) hT
    | apply Node.fireAt_reach
    | apply Reach.ite
    | apply Reach.foldl
    | split

theorem Node.forward_reach {ps : List Part} {n0 : Node} (x0 : Node) (x1 : Nat) (x2 : KFrame) (hx0 : Reach ps n0 x0) (hT : within [.line] ps = true) : Reach ps n0 (Node.forward x0 x1 x2) := by
  unfold Node.forward
  try dsimp only
  with_reducible repeat' first
    | assumption
    | intro _
    | exact within_trans (by decide) hT
    | apply Node.egress_reach
    | apply Reach.ite
    | apply Reach.foldl
    | split

theorem Node.framesFrom_reach {ps : List Part} {n0 : Node} (x0 : Node) (hx0 : Reach ps n0 x0) (hT : within [.adc] ps = true) : Reach ps n0 (Node.framesFrom x0) := by
  unfold Node.framesFrom
  try dsimp only
  with_reducible repeat' first
    | assumption
    | intro _
    | exact within_trans (by decide) hT
    | apply Node.updAdc_reach
    | apply Reach.ite
    | apply Reach.foldl
    | split

theorem Node.freeScalar_reach {ps : List Part} {n0 : Node} (x0 : Node) (hx0 : Reach ps n0 x0) (hT : within [.freeCtr] ps = true) : Reach ps n0 (Node.freeScalar x0).2 := by
  unfold Node.freeScalar
  try dsimp only
  with_reducible repeat' first
    | assumption
    | intro _
    | exact within_trans (by decide) hT
    | apply Node.free_reach
    | refine Reach.ofSnd (by assumption) ?_
    | apply Reach.ite
    | apply Reach.foldl
    | split

theorem Node.freshFilters_reach {ps : List Part} {n0 : Node} (x0 : Node) (hx0 : Reach ps n0 x0) (hT : within [.glean] ps = true) : Reach ps n0 (Node.freshFilters x0) := by
  unfold Node.freshFilters
  try dsimp only
  with_reducible repeat' first
    | assumption
    | intro _
    | exact within_trans (by decide) hT
    | apply Node.updGlean_reach
    | apply Reach.ite
    | apply Reach.foldl
    | split

theorem Node.freshSession_reach {ps : List Part} {n0 : Node} (x0 : Node) (hx0 : Reach ps n0 x0) (hT : within [.freeCtr] ps = true) : Reach ps n0 (Node.freshSession x0).2 := by
  unfold Node.freshSession
  try dsimp only
  with_reducible repeat' first
    | assumption
    | intro _
    | exact within_trans (by decide) hT
    | apply Node.free_reach
    | refine Reach.ofSnd (by assumption) ?_
    | apply Reach.ite
    | apply Reach.foldl
    | split

theorem Node.freshTicket_reach {ps : List Part} {n0 : Node} (x0 : Node) (hx0 : Reach ps n0 x0) (hT : within [.freeCtr] ps = true) : Reach ps n0 (Node.freshTicket x0).2 := by
  unfold Node.freshTicket
  try dsimp only
  with_reducible repeat' first
    | assumption
    | intro _
    | exact within_trans (by decide) hT
    | apply Node.free_reach
    | refine Reach.ofSnd (by assumption) ?_
    | apply Reach.ite
    | apply Reach.foldl
    | split

theorem Node.pwmOff_reach {ps : List Part} {n0 : Node} (x0 : Node) (hx0 : Reach ps n0 x0) (hT : within [.fio] ps = true) : Reach ps n0 (Node.pwmOff x0) := by
  unfold Node.pwmOff
  try dsimp only
  with_reducible repeat' first
    | assumption
    | intro _
    | exact within_trans (by decide) hT
    | apply Node.setOut_reach
    | apply Reach.ite
    | apply Reach.foldl
    | split

theorem Node.gateAll_reach {ps : List Part} {n0 : Node} (x0 : Node) (hx0 : Reach ps n0 x0) (hT : within [.isl, .fio, .adc, .encs, .line, .harv, .glean] ps = true) : Reach ps n0 (Node.gateAll x0) := by
  unfold Node.gateAll
  try dsimp only
  with_reducible repeat' first
    | assumption
    | intro _
    | exact within_trans (by decide) hT
    | apply Node.updIsland_reach
    | apply Node.updAdc_reach
    | apply Node.pwmOff_reach
    | apply Node.freshFilters_reach
    | apply Node.holdSampling_reach
    | apply Node.updEnc_reach
    | apply Node.updLine_reach
    | apply Reach.ite
    | apply Reach.set_harv (m := x0)
    | apply Reach.foldl
    | split
    | apply Reach.set_harv

theorem Node.gateChange_reach {ps : List Part} {n0 : Node} (x0 : Node) (x1 : Nat) (x2 : Nat) (x3 : T64) (hx0 : Reach ps n0 x0) (hT : within [.line, .rcd] ps = true) : Reach ps n0 (Node.gateChange x0 x1 x2 x3) := by
  unfold Node.gateChange
  try dsimp only
  with_reducible repeat' first
    | assumption
    | intro _
    | exact within_trans (by decide) hT
    | apply Node.transmit_reach
    | apply Node.log_reach
    | apply Node.updPort_reach
    | apply Reach.ite
    | apply Reach.foldl
    | split

theorem Node.gateCommand_reach {ps : List Part} {n0 : Node} (x0 : Node) (x1 : Nat) (x2 : Nat) (hx0 : Reach ps n0 x0) (hT : within [.stalls, .cache, .fio, .axes, .drives, .zb, .cust, .gates, .rcd, .safe] ps = true) : Reach ps n0 (Node.gateCommand x0 x1 x2).2 := by
  unfold Node.gateCommand
  try dsimp only
  with_reducible repeat' first
    | assumption
    | intro _
    | exact within_trans (by decide) hT
    | apply Node.updGate_reach
    | apply Node.openGate_reach
    | apply Node.driveGate_reach
    | apply Node.gateEnter_reach
    | apply Node.closeGate_reach
    | apply Reach.ite
    | apply Reach.foldl
    | split

theorem Node.gateFail_reach {ps : List Part} {n0 : Node} (x0 : Node) (x1 : Nat) (x2 : Nat) (hx0 : Reach ps n0 x0) (hT : within [.stalls, .cache, .cust, .gates, .rcd] ps = true) : Reach ps n0 (Node.gateFail x0 x1 x2) := by
  unfold Node.gateFail
  try dsimp only
  with_reducible repeat' first
    | assumption
    | intro _
    | exact within_trans (by decide) hT
    | apply Node.log_reach
    | apply Node.gateEnter_reach
    | apply Reach.ite
    | apply Reach.foldl
    | split

theorem Node.gateOpened_reach {ps : List Part} {n0 : Node} (x0 : Node) (x1 : Nat) (hx0 : Reach ps n0 x0) (hT : within [.stalls, .cache, .fio, .axes, .drives, .zb, .cust, .gates, .rcd] ps = true) : Reach ps n0 (Node.gateOpened x0 x1) := by
  unfold Node.gateOpened
  try dsimp only
  with_reducible repeat' first
    | assumption
    | intro _
    | exact within_trans (by decide) hT
    | apply Node.gateEnter_reach
    | apply Node.updGate_reach
    | apply Node.closeGate_reach
    | apply Reach.ite
    | apply Reach.foldl
    | split

theorem Node.gateShut_reach {ps : List Part} {n0 : Node} (x0 : Node) (x1 : Nat) (hx0 : Reach ps n0 x0) (hT : within [.stalls, .cache, .fio, .axes, .drives, .zb, .cust, .lifts, .gates, .rcd, .safe] ps = true) : Reach ps n0 (Node.gateShut x0 x1) := by
  unfold Node.gateShut
  try dsimp only
  with_reducible repeat' first
    | assumption
    | intro _
    | exact within_trans (by decide) hT
    | apply Node.gateEnter_reach
    | apply Node.updGate_reach
    | apply Node.openGate_reach
    | apply Node.depart_reach
    | apply Node.leaveLevel_reach
    | apply Reach.ite
    | apply Reach.foldl
    | split

theorem Node.gateTask_reach {ps : List Part} {n0 : Node} (x0 : Node) (x1 : W64) (hx0 : Reach ps n0 x0) (hT : within [.stalls, .cache, .fio, .axes, .drives, .zb, .cust, .gates, .rcd, .safe] ps = true) : Reach ps n0 (Node.gateTask x0 x1).2 := by
  unfold Node.gateTask
  try dsimp only
  with_reducible repeat' first
    | assumption
    | intro _
    | exact within_trans (by decide) hT
    | apply Node.gateCommand_reach
    | refine Reach.ofSnd (by assumption) ?_
    | apply Reach.ite
    | apply Reach.foldl
    | split

theorem Node.sendPath2_reach {ps : List Part} {n0 : Node} (x0 : Node) (x1 : Nat) (x2 : Nat) (x3 : List SafeFrame) (hx0 : Reach ps n0 x0) (hT : within [.line, .freeCtr] ps = true) : Reach ps n0 (Node.sendPath2 x0 x1 x2 x3) := by
  unfold Node.sendPath2
  try dsimp only
  with_reducible repeat' first
    | assumption
    | intro _
    | exact within_trans (by decide) hT
    | apply Node.freeTtl_reach
    | apply Node.newFrame_reach
    | apply Node.egress_reach
    | refine Reach.ofSnd (by assumption) ?_
    | apply Reach.ite
    | apply Reach.foldl
    | split

theorem Node.zbPush_reach {ps : List Part} {n0 : Node} (x0 : Node) (x1 : ZbMsg) (hx0 : Reach ps n0 x0) (hT : within [.zb] ps = true) : Reach ps n0 (Node.zbPush x0 x1) := by
  unfold Node.zbPush
  try dsimp only
  with_reducible repeat' first
    | assumption
    | intro _
    | exact within_trans (by decide) hT
    | apply Node.updZb_reach
    | apply Reach.ite
    | apply Reach.foldl
    | split

theorem Node.sendZoneCopy_reach {ps : List Part} {n0 : Node} (x0 : Node) (x1 : Nat) (x2 : SafeFrame) (hx0 : Reach ps n0 x0) (hT : within [.zb, .rcd] ps = true) : Reach ps n0 (Node.sendZoneCopy x0 x1 x2) := by
  unfold Node.sendZoneCopy
  try dsimp only
  with_reducible repeat' first
    | assumption
    | intro _
    | exact within_trans (by decide) hT
    | apply Node.zbTxDropped_reach
    | apply Node.zbPush_reach
    | apply Reach.ite
    | apply Reach.foldl
    | split

theorem Node.gather_reach {ps : List Part} {n0 : Node} (x0 : Node) (hx0 : Reach ps n0 x0) (hT : within [.line, .zb, .rcd, .freeCtr] ps = true) : Reach ps n0 (Node.gather x0) := by
  unfold Node.gather
  try dsimp only
  with_reducible repeat' first
    | assumption
    | intro _
    | exact within_trans (by decide) hT
    | apply Node.send_reach
    | apply Node.sendPath2_reach
    | apply Node.sendZoneCopy_reach
    | apply Reach.ite
    | apply Reach.foldl
    | split

theorem Node.gearChange_reach {ps : List Part} {n0 : Node} (x0 : Node) (x1 : Nat) (x2 : Nat) (x3 : List Byte) (hx0 : Reach ps n0 x0) (hT : within [.mem, .ram, .host, .axes, .line, .time, .rcd, .freeCtr] ps = true) : Reach ps n0 (Node.gearChange x0 x1 x2 x3) := by
  unfold Node.gearChange
  try dsimp only
  with_reducible repeat' first
    | assumption
    | intro _
    | exact within_trans (by decide) hT
    | apply Node.checked_reach
    | apply Node.updAxis_reach
    | apply Node.axisMotion_reach
    | apply Node.upTo_reach
    | apply Node.judgeStep_reach
    | apply Node.ok_reach
    | apply Reach.ite
    | apply Reach.foldl
    | split

theorem Node.gearEngage_reach {ps : List Part} {n0 : Node} (x0 : Node) (x1 : Nat) (x2 : Nat) (x3 : List Byte) (hx0 : Reach ps n0 x0) (hT : within [.mem, .ram, .host, .axes, .drives, .line, .time, .rcd, .freeCtr] ps = true) : Reach ps n0 (Node.gearEngage x0 x1 x2 x3) := by
  unfold Node.gearEngage
  try dsimp only
  with_reducible repeat' first
    | assumption
    | intro _
    | exact within_trans (by decide) hT
    | apply Node.axisMotion_reach
    | apply Node.upTo_reach
    | apply Node.checked_reach
    | apply Node.engage_reach
    | apply Node.ok_reach
    | apply Reach.ite
    | apply Reach.foldl
    | split

theorem Node.wakeBy_reach {ps : List Part} {n0 : Node} (x0 : Node) (x1 : Nat) (x2 : Nat) (hx0 : Reach ps n0 x0) (hT : within [.isl, .mem, .ram, .host, .stalls, .cache, .rcp, .loops, .fio, .axes, .drives, .line, .zb, .cust, .lifts, .gates, .rcd, .safe, .glean, .freeCtr] ps = true) : Reach ps n0 (Node.wakeBy x0 x1 x2) := by
  unfold Node.wakeBy
  try dsimp only
  with_reducible repeat' first
    | assumption
    | intro _
    | exact within_trans (by decide) hT
    | apply Node.updGlean_reach
    | apply Node.updIsland_reach
    | apply Node.abortSleep_reach
    | apply Reach.ite
    | apply Reach.foldl
    | split

theorem Node.glSet_reach {ps : List Part} {n0 : Node} (x0 : Node) (x1 : Nat) (x2 : Bool) (hx0 : Reach ps n0 x0) (hT : within [.fio] ps = true) : Reach ps n0 (Node.glSet x0 x1 x2) := by
  unfold Node.glSet
  try dsimp only
  with_reducible repeat' first
    | assumption
    | intro _
    | exact within_trans (by decide) hT
    | apply Node.setOut_reach
    | apply Reach.ite
    | apply Reach.foldl
    | split

theorem Node.glLog_reach {ps : List Part} {n0 : Node} (x0 : Node) (x1 : Nat) (x2 : Int) (x3 : Nat) (hx0 : Reach ps n0 x0) (hT : within [.rcd, .glean] ps = true) : Reach ps n0 (Node.glLog x0 x1 x2 x3) := by
  unfold Node.glLog
  try dsimp only
  with_reducible repeat' first
    | assumption
    | intro _
    | exact within_trans (by decide) hT
    | apply Node.log_reach
    | apply Node.updGlean_reach
    | apply Node.updRcd_reach
    | apply Reach.ite
    | apply Reach.foldl
    | split

theorem Node.glAct_reach {ps : List Part} {n0 : Node} (x0 : Node) (x1 : Nat) (x2 : GlRule) (hx0 : Reach ps n0 x0) (hT : within [.isl, .mem, .ram, .host, .stalls, .cache, .rcp, .loops, .fio, .axes, .drives, .line, .zb, .cust, .lifts, .gates, .rcd, .safe, .glean, .freeCtr] ps = true) : Reach ps n0 (Node.glAct x0 x1 x2) := by
  unfold Node.glAct
  try dsimp only
  with_reducible repeat' first
    | assumption
    | intro _
    | exact within_trans (by decide) hT
    | apply Node.wakeBy_reach
    | apply Node.glSet_reach
    | apply Node.updGlean_reach
    | apply Node.glLog_reach
    | apply Reach.ite
    | apply Reach.foldl
    | split

theorem Node.glRule_reach {ps : List Part} {n0 : Node} (x0 : Node) (x1 : Nat) (x2 : GlRule) (x3 : Option Int) (hx0 : Reach ps n0 x0) (hT : within [.isl, .mem, .ram, .host, .stalls, .cache, .rcp, .loops, .fio, .axes, .drives, .line, .zb, .cust, .lifts, .gates, .rcd, .safe, .glean, .freeCtr] ps = true) : Reach ps n0 (Node.glRule x0 x1 x2 x3) := by
  unfold Node.glRule
  try dsimp only
  with_reducible repeat' first
    | assumption
    | intro _
    | exact within_trans (by decide) hT
    | apply Node.updGlean_reach
    | apply Node.glAct_reach
    | apply Reach.ite
    | apply Reach.foldl
    | split

theorem Node.grantUnlocks_reach {ps : List Part} {n0 : Node} (x0 : Node) (x1 : Nat) (x2 : T64) (hx0 : Reach ps n0 x0) (hT : within [.safe] ps = true) : Reach ps n0 (Node.grantUnlocks x0 x1 x2) := by
  unfold Node.grantUnlocks
  try dsimp only
  with_reducible repeat' first
    | assumption
    | intro _
    | exact within_trans (by decide) hT
    | apply Node.updChan_reach
    | apply Reach.ite
    | apply Reach.foldl
    | split

theorem Node.quickStop_reach {ps : List Part} {n0 : Node} (x0 : Node) (x1 : Nat) (x2 : StopBy) (hx0 : Reach ps n0 x0) (hT : within [.axes, .rcd, .freeCtr] ps = true) : Reach ps n0 (Node.quickStop x0 x1 x2) := by
  unfold Node.quickStop
  try dsimp only
  with_reducible repeat' first
    | assumption
    | intro _
    | exact within_trans (by decide) hT
    | apply Node.quickFrom_reach
    | apply Node.settle_reach
    | apply Reach.ite
    | apply Reach.foldl
    | split

theorem Node.haltGate_reach {ps : List Part} {n0 : Node} (x0 : Node) (x1 : Nat) (hx0 : Reach ps n0 x0) (hT : within [.axes, .rcd, .freeCtr] ps = true) : Reach ps n0 (Node.haltGate x0 x1) := by
  unfold Node.haltGate
  try dsimp only
  with_reducible repeat' first
    | assumption
    | intro _
    | exact within_trans (by decide) hT
    | apply Node.quickStop_reach
    | apply Reach.ite
    | apply Reach.foldl
    | split

theorem Node.harvestMark_reach {ps : List Part} {n0 : Node} (x0 : Node) (x1 : Nat) (x2 : T64) (hx0 : Reach ps n0 x0) (hT : within [.harv] ps = true) : Reach ps n0 (Node.harvestMark x0 x1 x2).2 := by
  unfold Node.harvestMark
  try dsimp only
  with_reducible repeat' first
    | assumption
    | intro _
    | exact within_trans (by decide) hT
    | apply Node.fireTrigger_reach
    | apply Reach.ite
    | apply Reach.foldl
    | split

theorem Node.updRegs_reach {ps : List Part} {n0 : Node} (x0 : Node) (x1 : Nat) (x2 : HsRegs → HsRegs) (hx0 : Reach ps n0 x0) (hT : within [.host] ps = true) : Reach ps n0 (Node.updRegs x0 x1 x2) := by
  unfold Node.updRegs
  try dsimp only
  with_reducible repeat' first
    | assumption
    | intro _
    | exact within_trans (by decide) hT
    | apply Node.updHost_reach
    | apply Reach.ite
    | apply Reach.foldl
    | split

theorem Node.post_reach {ps : List Part} {n0 : Node} (x0 : Node) (x1 : Nat) (x2 : Nat) (hx0 : Reach ps n0 x0) (hT : within [.mem, .ram, .host, .line, .rcd, .freeCtr] ps = true) : Reach ps n0 (Node.post x0 x1 x2) := by
  unfold Node.post
  try dsimp only
  with_reducible repeat' first
    | assumption
    | intro _
    | exact within_trans (by decide) hT
    | apply Node.updRegs_reach
    | apply Node.setMbx_reach
    | apply Node.frontBusy_reach
    | apply Node.updHost_reach
    | apply Reach.ite
    | apply Reach.foldl
    | split

theorem Node.ring_reach {ps : List Part} {n0 : Node} (x0 : Node) (x1 : Nat) (x2 : Nat) (hx0 : Reach ps n0 x0) (hT : within [.mem, .ram, .host, .line, .rcd, .glean, .freeCtr] ps = true) : Reach ps n0 (Node.ring x0 x1 x2) := by
  unfold Node.ring
  try dsimp only
  with_reducible repeat' first
    | assumption
    | intro _
    | exact within_trans (by decide) hT
    | apply Node.post_reach
    | apply Node.raise_reach
    | apply Reach.ite
    | apply Reach.foldl
    | split

theorem Node.hsWrite_reach {ps : List Part} {n0 : Node} (x0 : Node) (x1 : Nat) (x2 : Nat) (x3 : Nat) (hx0 : Reach ps n0 x0) (hT : within [.mem, .ram, .host, .line, .rcd, .glean, .freeCtr] ps = true) : Reach ps n0 (Node.hsWrite x0 x1 x2 x3) := by
  unfold Node.hsWrite
  try dsimp only
  with_reducible repeat' first
    | assumption
    | intro _
    | exact within_trans (by decide) hT
    | apply Node.updRegs_reach
    | apply Node.ring_reach
    | apply Node.clearDoneBits_reach
    | apply Reach.ite
    | apply Reach.foldl
    | split

theorem Node.hsWrites_reach {ps : List Part} {n0 : Node} (x0 : Node) (x1 : Nat) (x2 : Nat) (x3 : Nat) (x4 : List Byte) (hx0 : Reach ps n0 x0) (hT : within [.mem, .ram, .host, .line, .rcd, .glean, .freeCtr] ps = true) : Reach ps n0 (Node.hsWrites x0 x1 x2 x3 x4) := by
  induction x2 generalizing x0 x3 x4 with
  | zero => exact hx0
  | succ k ih => exact ih _ _ _ (Node.hsWrite_reach _ _ _ _ hx0 (within_trans (by decide) hT))

theorem Node.idle_reach {ps : List Part} {n0 : Node} (x0 : Node) (hx0 : Reach ps n0 x0) (hT : within [.time] ps = true) : Reach ps n0 (Node.idle x0) := by
  unfold Node.idle
  try dsimp only
  with_reducible repeat' first
    | assumption
    | intro _
    | exact within_trans (by decide) hT
    | apply Reach.ite
    | apply Reach.set_time (m := x0)
    | apply Reach.foldl
    | split
    | apply Reach.set_time

theorem Node.illegalStep_reach {ps : List Part} {n0 : Node} (x0 : Node) (x1 : Nat) (hx0 : Reach ps n0 x0) (hT : within [.mem, .ram, .host, .stalls, .cache, .loops, .fio, .encs, .axes, .drives, .line, .zb, .cust, .lifts, .gates, .rcd, .hlth, .freeCtr] ps = true) : Reach ps n0 (Node.illegalStep x0 x1) := by
  unfold Node.illegalStep
  try dsimp only
  with_reducible repeat' first
    | assumption
    | intro _
    | exact within_trans (by decide) hT
    | apply Node.transientFault_reach
    | apply Node.updEnc_reach
    | apply Reach.ite
    | apply Reach.foldl
    | split

theorem Node.initRing_reach {ps : List Part} {n0 : Node} (x0 : Node) (x1 : Nat) (hx0 : Reach ps n0 x0) (hT : within [.mem, .ram] ps = true) : Reach ps n0 (Node.initRing x0 x1) := by
  unfold Node.initRing
  try dsimp only
  with_reducible repeat' first
    | assumption
    | intro _
    | exact within_trans (by decide) hT
    | apply Node.write_reach
    | apply Reach.ite
    | apply Reach.foldl
    | split

theorem Node.inputsAnew_reach {ps : List Part} {n0 : Node} (x0 : Node) (hx0 : Reach ps n0 x0) (hT : within [.stalls, .cache, .fio, .cust] ps = true) : Reach ps n0 (Node.inputsAnew x0) := by
  unfold Node.inputsAnew
  try dsimp only
  with_reducible repeat' first
    | assumption
    | intro _
    | exact within_trans (by decide) hT
    | apply Node.updStall_reach
    | apply Node.setIn_reach
    | apply Reach.ite
    | apply Reach.foldl
    | split

theorem Node.settleInputs_reach {ps : List Part} {n0 : Node} (x0 : Node) (hx0 : Reach ps n0 x0) (hT : within [.fio] ps = true) : Reach ps n0 (Node.settleInputs x0) := by
  unfold Node.settleInputs
  try dsimp only
  with_reducible repeat' first
    | assumption
    | intro _
    | exact within_trans (by decide) hT
    | apply Node.setIn_reach
    | apply Reach.ite
    | apply Reach.foldl
    | split

theorem Node.wdStart_reach {ps : List Part} {n0 : Node} (x0 : Node) (hx0 : Reach ps n0 x0) (hT : within [.stalls, .cache, .loops, .fio, .axes, .drives, .zb, .cust, .lifts, .gates, .rcd, .safe] ps = true) : Reach ps n0 (Node.wdStart x0) := by
  unfold Node.wdStart
  try dsimp only
  with_reducible repeat' first
    | assumption
    | intro _
    | exact within_trans (by decide) hT
    | apply Node.updFio_reach
    | apply Node.endWatchdog_reach
    | apply Reach.ite
    | apply Reach.foldl
    | split

theorem Node.islUp_reach {ps : List Part} {n0 : Node} (x0 : Node) (x1 : Nat) (x2 : Option IslOp) (hx0 : Reach ps n0 x0) (hT : within [.mem, .ram, .host, .stalls, .cache, .rcp, .loops, .fio, .encs, .axes, .drives, .line, .zb, .cust, .lifts, .gates, .rcd, .safe, .freeCtr] ps = true) : Reach ps n0 (Node.islUp x0 x1 x2) := by
  unfold Node.islUp
  try dsimp only
  with_reducible repeat' first
    | assumption
    | intro _
    | exact within_trans (by decide) hT
    | apply Node.refreshHolds_reach
    | apply Node.drivesAgain_reach
    | apply Node.dueFlags_reach
    | apply Node.resumeInsts_reach
    | apply Node.skipUpdates_reach
    | apply Node.driveAll_reach
    | apply Node.settleInputs_reach
    | apply Node.wdStart_reach
    | apply Node.zbReturns_reach
    | apply Node.updChan_reach
    | apply Reach.ite
    | apply Reach.foldl
    | split

theorem Node.islandFails_reach {ps : List Part} {n0 : Node} (x0 : Node) (x1 : Nat) (hx0 : Reach ps n0 x0) (hT : within [.isl, .mem, .ram, .power, .host, .rcp, .loops, .axes, .line, .time, .zb, .harv, .rcd, .safe, .glean, .freeCtr] ps = true) : Reach ps n0 (Node.islandFails x0 x1) := by
  unfold Node.islandFails
  try dsimp only
  with_reducible repeat' first
    | assumption
    | intro _
    | exact within_trans (by decide) hT
    | apply Node.updIsland_reach
    | apply Node.closeBypass_reach
    | apply Node.freshLoops_reach
    | apply Node.dropInsts_reach
    | apply Node.coreFails_reach
    | apply Node.releaseWaiter_reach
    | apply Reach.ite
    | apply Reach.foldl
    | split

theorem Node.islandLog_reach {ps : List Part} {n0 : Node} (x0 : Node) (hx0 : Reach ps n0 x0) (hT : within [.rcd, .freeCtr] ps = true) : Reach ps n0 (Node.islandLog x0) := by
  unfold Node.islandLog
  try dsimp only
  with_reducible repeat' first
    | assumption
    | intro _
    | exact within_trans (by decide) hT
    | apply Node.logFree_reach
    | apply Reach.ite
    | apply Reach.foldl
    | split

theorem Node.islandRuns_reach {ps : List Part} {n0 : Node} (x0 : Node) (x1 : Nat) (hx0 : Reach ps n0 x0) (hT : within [.isl, .mem, .ram, .host, .stalls, .cache, .rcp, .loops, .fio, .adc, .encs, .axes, .drives, .line, .zb, .cust, .lifts, .gates, .rcd, .safe, .freeCtr] ps = true) : Reach ps n0 (Node.islandRuns x0 x1) := by
  unfold Node.islandRuns
  try dsimp only
  with_reducible repeat' first
    | assumption
    | intro _
    | exact within_trans (by decide) hT
    | apply Node.updIsland_reach
    | apply Node.framesFrom_reach
    | apply Node.releaseWaiter_reach
    | apply Node.islUp_reach
    | apply Reach.ite
    | apply Reach.foldl
    | split

theorem Node.issue_reach {ps : List Part} {n0 : Node} (x0 : Node) (x1 : Issued) (hx0 : Reach ps n0 x0) (hT : within [.stalls, .cache, .rcp] ps = true) : Reach ps n0 (Node.issue x0 x1) := by
  unfold Node.issue
  try dsimp only
  with_reducible repeat' first
    | assumption
    | intro _
    | exact within_trans (by decide) hT
    | apply Node.lock_reach
    | apply Node.updInst_reach
    | apply Reach.ite
    | apply Reach.set_rcp (m := x0)
    | apply Reach.foldl
    | split
    | apply Reach.set_rcp

theorem Node.issueEdge_reach {ps : List Part} {n0 : Node} (x0 : Node) (x1 : Nat) (x2 : Nat) (x3 : Step) (x4 : T64) (hx0 : Reach ps n0 x0) (hT : within [.stalls, .cache, .rcp] ps = true) : Reach ps n0 (Node.issueEdge x0 x1 x2 x3 x4) := by
  unfold Node.issueEdge
  try dsimp only
  with_reducible repeat' first
    | assumption
    | intro _
    | exact within_trans (by decide) hT
    | apply Node.issue_reach
    | apply Reach.ite
    | apply Reach.foldl
    | split

theorem Node.judgeAddress_reach {ps : List Part} {n0 : Node} (x0 : Node) (x1 : MapNode) (hx0 : Reach ps n0 x0) (hT : within [.line, .freeCtr] ps = true) : Reach ps n0 (Node.judgeAddress x0 x1) := by
  unfold Node.judgeAddress
  try dsimp only
  with_reducible repeat' first
    | assumption
    | intro _
    | exact within_trans (by decide) hT
    | apply Node.send_reach
    | apply Reach.ite
    | apply Reach.foldl
    | split

theorem Node.judgeConn_reach {ps : List Part} {n0 : Node} (x0 : Node) (x1 : Nat) (x2 : Nat) (x3 : T64) (hx0 : Reach ps n0 x0) (hT : within [.rcd, .safe, .freeCtr] ps = true) : Reach ps n0 (Node.judgeConn x0 x1 x2 x3) := by
  unfold Node.judgeConn
  try dsimp only
  with_reducible repeat' first
    | assumption
    | intro _
    | exact within_trans (by decide) hT
    | apply Node.connAgree_reach
    | apply Node.connSafe_reach
    | apply Node.connDegrade_reach
    | apply Reach.ite
    | apply Reach.foldl
    | split

theorem Node.judgeConns_reach {ps : List Part} {n0 : Node} (x0 : Node) (x1 : Nat) (x2 : T64) (hx0 : Reach ps n0 x0) (hT : within [.rcd, .safe, .freeCtr] ps = true) : Reach ps n0 (Node.judgeConns x0 x1 x2) := by
  unfold Node.judgeConns
  try dsimp only
  with_reducible repeat' first
    | assumption
    | intro _
    | exact within_trans (by decide) hT
    | apply Node.judgeConn_reach
    | apply Reach.ite
    | apply Reach.foldl
    | split

theorem Node.judgeLevel_reach {ps : List Part} {n0 : Node} (x0 : Node) (x1 : MapNode) (hx0 : Reach ps n0 x0) (hT : within [.line, .rcd, .freeCtr] ps = true) : Reach ps n0 (Node.judgeLevel x0 x1) := by
  unfold Node.judgeLevel
  try dsimp only
  with_reducible repeat' first
    | assumption
    | intro _
    | exact within_trans (by decide) hT
    | apply Node.log_reach
    | apply Node.send_reach
    | apply Node.updLine_reach
    | apply Reach.ite
    | apply Reach.foldl
    | split

theorem Node.judgeLink_reach {ps : List Part} {n0 : Node} (x0 : Node) (x1 : Nat) (hx0 : Reach ps n0 x0) (hT : within [.power, .line, .time, .rcd, .glean, .hlth, .freeCtr] ps = true) : Reach ps n0 (Node.judgeLink x0 x1) := by
  unfold Node.judgeLink
  try dsimp only
  with_reducible repeat' first
    | assumption
    | intro _
    | exact within_trans (by decide) hT
    | apply Node.setPort_reach
    | apply Node.log_reach
    | apply Node.updPort_reach
    | apply Node.countDrop_reach
    | apply Reach.ite
    | apply Reach.foldl
    | split

theorem Node.resend_reach {ps : List Part} {n0 : Node} (x0 : Node) (x1 : Nat) (hx0 : Reach ps n0 x0) (hT : within [.mem, .ram, .host, .line, .freeCtr] ps = true) : Reach ps n0 (Node.resend x0 x1) := by
  unfold Node.resend
  try dsimp only
  with_reducible repeat' first
    | assumption
    | intro _
    | exact within_trans (by decide) hT
    | apply Node.setMbx_reach
    | apply Node.putResp_reach
    | apply Node.updHost_reach
    | apply Reach.ite
    | apply Reach.foldl
    | split

theorem Node.judgeRequest_reach {ps : List Part} {n0 : Node} (x0 : Node) (x1 : Nat) (hx0 : Reach ps n0 x0) (hT : within [.mem, .ram, .host, .line, .rcd, .freeCtr] ps = true) : Reach ps n0 (Node.judgeRequest x0 x1) := by
  unfold Node.judgeRequest
  try dsimp only
  with_reducible repeat' first
    | assumption
    | intro _
    | exact within_trans (by decide) hT
    | apply Node.updHost_reach
    | apply Node.setMbx_reach
    | apply Node.answer_reach
    | apply Node.resend_reach
    | apply Node.answerWith_reach
    | apply Reach.ite
    | apply Reach.foldl
    | split

theorem Node.judgeTriggers_reach {ps : List Part} {n0 : Node} (x0 : Node) (x1 : Nat) (x2 : T64) (x3 : List HvValue) (x4 : Tbl T64) (hx0 : Reach ps n0 x0) (hT : within [.harv] ps = true) : Reach ps n0 (Node.judgeTriggers x0 x1 x2 x3 x4) := by
  unfold Node.judgeTriggers
  try dsimp only
  with_reducible repeat' first
    | assumption
    | intro _
    | exact within_trans (by decide) hT
    | apply Node.fireAt_reach
    | apply Reach.ite
    | apply Reach.foldl
    | split

theorem Node.keepRecipe_reach {ps : List Part} {n0 : Node} (x0 : Node) (x1 : Nat) (hx0 : Reach ps n0 x0) (hT : within [.rcp] ps = true) : Reach ps n0 (Node.keepRecipe x0 x1) := by
  unfold Node.keepRecipe
  try dsimp only
  with_reducible repeat' first
    | assumption
    | intro _
    | exact within_trans (by decide) hT
    | apply Reach.ite
    | apply Reach.set_rcp (m := x0)
    | apply Reach.foldl
    | split
    | apply Reach.set_rcp

theorem Node.setVaux_reach {ps : List Part} {n0 : Node} (x0 : Node) (x1 : Bool) (hx0 : Reach ps n0 x0) (hT : within [.power] ps = true) : Reach ps n0 (Node.setVaux x0 x1) := by
  unfold Node.setVaux
  try dsimp only
  with_reducible repeat' first
    | assumption
    | intro _
    | exact within_trans (by decide) hT
    | apply Reach.ite
    | apply Reach.set_power (m := x0)
    | apply Reach.foldl
    | split
    | apply Reach.set_power

theorem Node.latchSupply_reach {ps : List Part} {n0 : Node} (x0 : Node) (hx0 : Reach ps n0 x0) (hT : within [.power, .stalls, .cache, .loops, .fio, .axes, .drives, .zb, .cust, .lifts, .gates, .rcd, .freeCtr] ps = true) : Reach ps n0 (Node.latchSupply x0) := by
  unfold Node.latchSupply
  try dsimp only
  with_reducible repeat' first
    | assumption
    | intro _
    | exact within_trans (by decide) hT
    | apply Node.updFio_reach
    | apply Node.setVaux_reach
    | apply Node.driveAll_reach
    | apply Node.beginHold_reach
    | apply Reach.ite
    | apply Reach.foldl
    | split

theorem Node.learnRoutes_reach {ps : List Part} {n0 : Node} (x0 : Node) (hx0 : Reach ps n0 x0) (hT : within [.line] ps = true) : Reach ps n0 (Node.learnRoutes x0) := by
  unfold Node.learnRoutes
  try dsimp only
  with_reducible repeat' first
    | assumption
    | intro _
    | exact within_trans (by decide) hT
    | apply Node.updLine_reach
    | apply Reach.ite
    | apply Reach.foldl
    | split

theorem Node.liftFault_reach {ps : List Part} {n0 : Node} (x0 : Node) (x1 : Nat) (x2 : Nat) (hx0 : Reach ps n0 x0) (hT : within [.lifts, .rcd] ps = true) : Reach ps n0 (Node.liftFault x0 x1 x2) := by
  unfold Node.liftFault
  try dsimp only
  with_reducible repeat' first
    | assumption
    | intro _
    | exact within_trans (by decide) hT
    | apply Node.log_reach
    | apply Node.updLift_reach
    | apply Reach.ite
    | apply Reach.foldl
    | split

theorem Node.lineBusy_reach {ps : List Part} {n0 : Node} (x0 : Node) (x1 : Nat) (x2 : Nat) (x3 : List Byte) (hx0 : Reach ps n0 x0) (hT : within [.line, .rcd, .freeCtr] ps = true) : Reach ps n0 (Node.lineBusy x0 x1 x2 x3) := by
  unfold Node.lineBusy
  try dsimp only
  with_reducible repeat' first
    | assumption
    | intro _
    | exact within_trans (by decide) hT
    | apply Node.send_reach
    | apply Node.sessionRefused_reach
    | apply Reach.ite
    | apply Reach.foldl
    | split

theorem Node.loadRegions_reach {ps : List Part} {n0 : Node} (x0 : Node) (x1 : Nat) (x2 : Nat) (hx0 : Reach ps n0 x0) (hT : within [.mem, .ram] ps = true) : Reach ps n0 (Node.loadRegions x0 x1 x2) := by
  unfold Node.loadRegions
  try dsimp only
  with_reducible repeat' first
    | assumption
    | intro _
    | exact within_trans (by decide) hT
    | apply Node.write_reach
    | apply Reach.ite
    | apply Reach.foldl
    | split

theorem Node.logWaiting_reach {ps : List Part} {n0 : Node} (x0 : Node) (hx0 : Reach ps n0 x0) (hT : within [.rcd, .glean] ps = true) : Reach ps n0 (Node.logWaiting x0) := by
  unfold Node.logWaiting
  try dsimp only
  with_reducible repeat' first
    | assumption
    | intro _
    | exact within_trans (by decide) hT
    | apply Node.logAt_reach
    | apply Node.updGlean_reach
    | apply Reach.ite
    | apply Reach.foldl
    | split

theorem Node.loopTake_reach {ps : List Part} {n0 : Node} (x0 : Node) (x1 : Nat) (x2 : T64) (x3 : Nat) (x4 : Nat) (x5 : Nat) (hx0 : Reach ps n0 x0) (hT : within [.stalls, .cache, .loops, .fio, .zb, .cust, .rcd] ps = true) : Reach ps n0 (Node.loopTake x0 x1 x2 x3 x4 x5) := by
  unfold Node.loopTake
  try dsimp only
  with_reducible repeat' first
    | assumption
    | intro _
    | exact within_trans (by decide) hT
    | apply Node.updStall_reach
    | apply Node.setLoop_reach
    | apply Node.writeSink_reach
    | apply Reach.ite
    | apply Reach.foldl
    | split

theorem Node.loopAt_reach {ps : List Part} {n0 : Node} (x0 : Node) (x1 : Nat) (x2 : T64) (hx0 : Reach ps n0 x0) (hT : within [.mem, .ram, .host, .stalls, .cache, .loops, .fio, .encs, .axes, .drives, .line, .zb, .cust, .lifts, .gates, .rcd, .hlth, .freeCtr] ps = true) : Reach ps n0 (Node.loopAt x0 x1 x2) := by
  unfold Node.loopAt
  try dsimp only
  with_reducible repeat' first
    | assumption
    | intro _
    | exact within_trans (by decide) hT
    | apply Node.loopTake_reach
    | apply Node.transientFault_reach
    | apply Node.setLoop_reach
    | apply Reach.ite
    | apply Reach.foldl
    | split

theorem Node.loopsAt_reach {ps : List Part} {n0 : Node} (x0 : Node) (x1 : Nat) (x2 : T64) (hx0 : Reach ps n0 x0) (hT : within [.mem, .ram, .host, .stalls, .cache, .loops, .fio, .encs, .axes, .drives, .line, .zb, .cust, .lifts, .gates, .rcd, .hlth, .freeCtr] ps = true) : Reach ps n0 (Node.loopsAt x0 x1 x2) := by
  unfold Node.loopsAt
  try dsimp only
  with_reducible repeat' first
    | assumption
    | intro _
    | exact within_trans (by decide) hT
    | apply Node.loopAt_reach
    | apply Reach.ite
    | apply Reach.foldl
    | split

theorem Node.loseUnit_reach {ps : List Part} {n0 : Node} (x0 : Node) (x1 : Nat) (x2 : Nat) (x3 : Nat) (hx0 : Reach ps n0 x0) (hT : within [.stored, .rcp, .cust, .rcd, .sec, .hlth, .freeCtr] ps = true) : Reach ps n0 (Node.loseUnit x0 x1 x2 x3) := by
  unfold Node.loseUnit
  try dsimp only
  repeat' first
    | with_reducible assumption
    | intro _
    | with_reducible exact within_trans (by decide) hT
    | with_reducible apply Node.updRcd_reach
    | with_reducible apply Node.updHlth_reach
    | with_reducible apply Reach.ite
    | with_reducible apply Reach.set_sec (m := x0)
    | with_reducible apply Reach.set_freeCtr (m := x0)
    | with_reducible apply Reach.set_stored (m := x0)
    | with_reducible apply Reach.set_rcp (m := x0)
    | with_reducible apply Reach.set_cust (m := x0)
    | with_reducible apply Reach.foldl
    | split
    | with_reducible apply Reach.set_sec
    | with_reducible apply Reach.set_freeCtr
    | with_reducible apply Reach.set_stored
    | with_reducible apply Reach.set_rcp
    | with_reducible apply Reach.set_cust
    | (refine Reach.upd (m := x0) ?_ ?_ ?_; (intro p hp; cases p <;> first | exact absurd (within_mem hT rfl) hp | exact rfl); exact id)

end Sys2Proof.Machine
end

