-- ==== Sys2Proof/Laws/ReachC.lean ====
section
/-! SUPPORT. What each operation and each meaning can reach (Reach): one lemma each, part 3 of 4. An operation on the node
changes no part outside the list named and keeps memory canonical; a meaning the same of the state it answers. -/

set_option linter.unreachableTactic false
set_option linter.unusedTactic false
set_option linter.unusedVariables false

namespace Sys2Proof.Machine

theorem Node.lostReferences_reach {ps : List Part} {n0 : Node} (x0 : Node) (hx0 : Reach ps n0 x0) (hT : within [.rcd] ps = true) : Reach ps n0 (Node.lostReferences x0) := by
  unfold Node.lostReferences
  try dsimp only
  with_reducible repeat' first
    | assumption
    | intro _
    | exact within_trans (by decide) hT
    | apply Node.log_reach
    | apply Reach.ite
    | apply Reach.foldl
    | split

theorem Node.recRecover_reach {ps : List Part} {n0 : Node} (x0 : Node) (x1 : CRec) (x2 : RecSt) (hx0 : Reach ps n0 x0) (hT : within [.line, .cust, .freeCtr] ps = true) : Reach ps n0 (Node.recRecover x0 x1 x2) := by
  unfold Node.recRecover
  try dsimp only
  with_reducible repeat' first
    | assumption
    | intro _
    | exact within_trans (by decide) hT
    | apply Node.recChange_reach
    | apply Reach.ite
    | apply Reach.foldl
    | split

theorem Node.mergeParcel_reach {ps : List Part} {n0 : Node} (x0 : Node) (x1 : List CRec) (x2 : Nat) (hx0 : Reach ps n0 x0) (hT : within [.line, .cust, .rcd, .freeCtr] ps = true) : Reach ps n0 (Node.mergeParcel x0 x1 x2) := by
  unfold Node.mergeParcel
  try dsimp only
  with_reducible repeat' first
    | assumption
    | intro _
    | exact within_trans (by decide) hT
    | apply Node.log_reach
    | apply Node.recRecover_reach
    | apply Reach.ite
    | apply Reach.foldl
    | split

theorem Node.offered_reach {ps : List Part} {n0 : Node} (x0 : Node) (x1 : Nat) (x2 : List Byte) (hx0 : Reach ps n0 x0) (hT : within [.line, .cust, .freeCtr] ps = true) : Reach ps n0 (Node.offered x0 x1 x2) := by
  unfold Node.offered
  try dsimp only
  with_reducible repeat' first
    | assumption
    | intro _
    | exact within_trans (by decide) hT
    | apply Node.custNote_reach
    | apply Node.setOwn_reach
    | apply Reach.ite
    | apply Reach.foldl
    | split

theorem Node.mergeAll_reach {ps : List Part} {n0 : Node} (x0 : Node) (hx0 : Reach ps n0 x0) (hT : within [.line, .cust, .rcd, .freeCtr] ps = true) : Reach ps n0 (Node.mergeAll x0) := by
  unfold Node.mergeAll
  try dsimp only
  with_reducible repeat' first
    | assumption
    | intro _
    | exact within_trans (by decide) hT
    | apply Node.updCust_reach
    | apply Node.mergeParcel_reach
    | apply Node.offered_reach
    | apply Node.log_reach
    | apply Reach.ite
    | apply Reach.set_cust (m := x0)
    | apply Reach.foldl
    | split
    | apply Reach.set_cust

theorem Node.mirrorAgain_reach {ps : List Part} {n0 : Node} (x0 : Node) (hx0 : Reach ps n0 x0) (hT : within [.line, .cust, .freeCtr] ps = true) : Reach ps n0 (Node.mirrorAgain x0) := by
  unfold Node.mirrorAgain
  try dsimp only
  with_reducible repeat' first
    | assumption
    | intro _
    | exact within_trans (by decide) hT
    | apply Node.custRecords_reach
    | apply Node.updCust_reach
    | apply Reach.ite
    | apply Reach.foldl
    | split

theorem Node.startTable_reach {ps : List Part} {n0 : Node} (x0 : Node) (x1 : Nat) (x2 : Int × Nat × Nat × Nat) (x3 : T64) (hx0 : Reach ps n0 x0) (hT : within [.axes, .drives] ps = true) : Reach ps n0 (Node.startTable x0 x1 x2 x3) := by
  unfold Node.startTable
  try dsimp only
  with_reducible repeat' first
    | assumption
    | intro _
    | exact within_trans (by decide) hT
    | apply Node.updAxis_reach
    | apply Node.leaveStandstill_reach
    | apply Node.settle_reach
    | apply Reach.ite
    | apply Reach.foldl
    | split

theorem Node.moveNow_reach {ps : List Part} {n0 : Node} (x0 : Node) (x1 : Nat) (x2 : Nat) (x3 : Int) (x4 : Int × Nat × Nat × Nat) (x5 : T64) (hx0 : Reach ps n0 x0) (hT : within [.axes, .drives, .rcd] ps = true) : Reach ps n0 (Node.moveNow x0 x1 x2 x3 x4 x5).2 := by
  unfold Node.moveNow
  try dsimp only
  with_reducible repeat' first
    | assumption
    | intro _
    | exact within_trans (by decide) hT
    | apply Node.startTable_reach
    | apply Node.applyMove_reach
    | refine Reach.ofSnd (by assumption) ?_
    | apply Reach.ite
    | apply Reach.foldl
    | split

theorem Node.offerAgain_reach {ps : List Part} {n0 : Node} (x0 : Node) (hx0 : Reach ps n0 x0) (hT : within [.line, .cust, .rcd, .freeCtr] ps = true) : Reach ps n0 (Node.offerAgain x0) := by
  unfold Node.offerAgain
  try dsimp only
  with_reducible repeat' first
    | assumption
    | intro _
    | exact within_trans (by decide) hT
    | apply Node.offer_reach
    | apply Reach.ite
    | apply Reach.foldl
    | split

theorem Node.openAtOnce_reach {ps : List Part} {n0 : Node} (x0 : Node) (x1 : Nat) (x2 : Nat) (hx0 : Reach ps n0 x0) (hT : within [.fio, .safe] ps = true) : Reach ps n0 (Node.openAtOnce x0 x1 x2) := by
  unfold Node.openAtOnce
  try dsimp only
  with_reducible repeat' first
    | assumption
    | intro _
    | exact within_trans (by decide) hT
    | apply Node.sfSwitch_reach
    | apply Reach.ite
    | apply Reach.foldl
    | split

theorem Node.outFault_reach {ps : List Part} {n0 : Node} (x0 : Node) (x1 : Nat) (x2 : Nat) (x3 : Bool) (hx0 : Reach ps n0 x0) (hT : within [.mem, .ram, .host, .stalls, .cache, .loops, .fio, .encs, .axes, .drives, .line, .zb, .cust, .lifts, .gates, .rcd, .safe, .hlth, .freeCtr] ps = true) : Reach ps n0 (Node.outFault x0 x1 x2 x3) := by
  unfold Node.outFault
  try dsimp only
  with_reducible repeat' first
    | assumption
    | intro _
    | exact within_trans (by decide) hT
    | apply Node.driveOut_reach
    | apply Node.judgeRetry_reach
    | apply Node.transientFault_reach
    | apply Reach.ite
    | apply Reach.foldl
    | split

theorem Node.postFirmware_reach {ps : List Part} {n0 : Node} (x0 : Node) (x1 : Nat) (hx0 : Reach ps n0 x0) (hT : within [.rcp, .rcd, .freeCtr] ps = true) : Reach ps n0 (Node.postFirmware x0 x1).2 := by
  unfold Node.postFirmware
  try dsimp only
  with_reducible repeat' first
    | assumption
    | intro _
    | exact within_trans (by decide) hT
    | apply Node.free_reach
    | apply Node.postTask_reach
    | apply Node.log_reach
    | refine Reach.ofSnd (by assumption) ?_
    | apply Reach.ite
    | apply Reach.foldl
    | split

theorem Node.powerDown_reach {ps : List Part} {n0 : Node} (x0 : Node) (x1 : Nat) (x2 : Nat) (x3 : Nat) (x4 : PowerStage) (hx0 : Reach ps n0 x0) (hT : within [.isl, .lastCrossing, .mem, .ram, .power, .host, .stalls, .cache, .rcp, .loops, .fio, .adc, .encs, .axes, .drives, .line, .time, .zb, .cust, .lifts, .gates, .harv, .rcd, .safe, .glean, .sec, .hlth, .freeCtr] ps = true) : Reach ps n0 (Node.powerDown x0 x1 x2 x3 x4) := by
  unfold Node.powerDown
  try dsimp only
  with_reducible repeat' first
    | assumption
    | intro _
    | exact within_trans (by decide) hT
    | apply Node.deviceReset_reach
    | apply Node.downT1_reach
    | apply Node.updPower_reach
    | apply Node.logFree_reach
    | apply Reach.ite
    | apply Reach.foldl
    | split

theorem Node.produceCopies_reach {ps : List Part} {n0 : Node} (x0 : Node) (x1 : Nat) (x2 : T64) (hx0 : Reach ps n0 x0) (hT : within [.safe] ps = true) : Reach ps n0 (Node.produceCopies x0 x1 x2) := by
  unfold Node.produceCopies
  try dsimp only
  with_reducible repeat' first
    | assumption
    | intro _
    | exact within_trans (by decide) hT
    | apply Node.updChan_reach
    | apply Reach.ite
    | apply Reach.foldl
    | split

theorem Node.reachAction_reach {ps : List Part} {n0 : Node} (x0 : Node) (x1 : Nat) (x2 : T64) (hx0 : Reach ps n0 x0) (hT : within [.rcp, .rcd] ps = true) : Reach ps n0 (Node.reachAction x0 x1 x2) := by
  unfold Node.reachAction
  try dsimp only
  with_reducible repeat' first
    | assumption
    | intro _
    | exact within_trans (by decide) hT
    | apply Node.judgeAct_reach
    | apply Reach.ite
    | apply Reach.foldl
    | split

theorem Node.reachT7_reach {ps : List Part} {n0 : Node} (x0 : Node) (hx0 : Reach ps n0 x0) (hT : within [.power, .time, .rcd] ps = true) : Reach ps n0 (Node.reachT7 x0) := by
  unfold Node.reachT7
  try dsimp only
  with_reducible repeat' first
    | assumption
    | intro _
    | exact within_trans (by decide) hT
    | apply Node.servoTo_reach
    | apply Reach.ite
    | apply Reach.set_power (m := x0)
    | apply Reach.foldl
    | split
    | apply Reach.set_power

theorem Node.readDrive_reach {ps : List Part} {n0 : Node} (x0 : Node) (x1 : Nat) (x2 : List Byte) (hx0 : Reach ps n0 x0) (hT : within [.host] ps = true) : Reach ps n0 (Node.readDrive x0 x1 x2) := by
  unfold Node.readDrive
  try dsimp only
  with_reducible repeat' first
    | assumption
    | intro _
    | exact within_trans (by decide) hT
    | apply Node.drive_reach
    | apply Node.updRegs_reach
    | apply Reach.ite
    | apply Reach.foldl
    | split

theorem Node.recFree_reach {ps : List Part} {n0 : Node} (x0 : Node) (x1 : Nat) (hx0 : Reach ps n0 x0) (hT : within [.cust] ps = true) : Reach ps n0 (Node.recFree x0 x1) := by
  unfold Node.recFree
  try dsimp only
  with_reducible repeat' first
    | assumption
    | intro _
    | exact within_trans (by decide) hT
    | apply Node.updCust_reach
    | apply Reach.ite
    | apply Reach.foldl
    | split

theorem Node.recordDurable_reach {ps : List Part} {n0 : Node} (x0 : Node) (x1 : EvRec) (x2 : Bool) (hx0 : Reach ps n0 x0) (hT : within [.mem, .ram, .host, .line, .rcd, .freeCtr] ps = true) : Reach ps n0 (Node.recordDurable x0 x1 x2) := by
  unfold Node.recordDurable
  try dsimp only
  with_reducible repeat' first
    | assumption
    | intro _
    | exact within_trans (by decide) hT
    | apply Node.updRcd_reach
    | apply Node.clearDone_reach
    | apply Reach.ite
    | apply Reach.foldl
    | split

theorem Node.refuseSpi_reach {ps : List Part} {n0 : Node} (x0 : Node) (x1 : HsRegs → HsRegs) (hx0 : Reach ps n0 x0) (hT : within [.host] ps = true) : Reach ps n0 (Node.refuseSpi x0 x1) := by
  unfold Node.refuseSpi
  try dsimp only
  with_reducible repeat' first
    | assumption
    | intro _
    | exact within_trans (by decide) hT
    | apply Node.drive_reach
    | apply Node.updRegs_reach
    | apply Reach.ite
    | apply Reach.foldl
    | split

theorem Node.refusedRead_reach {ps : List Part} {n0 : Node} (x0 : Node) (x1 : Nat) (x2 : List Byte) (hx0 : Reach ps n0 x0) (hT : within [.host, .freeCtr] ps = true) : Reach ps n0 (Node.refusedRead x0 x1 x2) := by
  unfold Node.refusedRead
  try dsimp only
  with_reducible repeat' first
    | assumption
    | intro _
    | exact within_trans (by decide) hT
    | apply Node.free_reach
    | apply Node.drive_reach
    | refine Reach.ofSnd (by assumption) ?_
    | apply Reach.ite
    | apply Reach.foldl
    | split

theorem Node.regWrite_reach {ps : List Part} {n0 : Node} (x0 : Node) (x1 : Bool) (x2 : Nat) (x3 : Nat) (hx0 : Reach ps n0 x0) (hT : within [.mem, .ram, .host, .line, .rcd, .glean, .freeCtr] ps = true) : Reach ps n0 (Node.regWrite x0 x1 x2 x3) := by
  unfold Node.regWrite
  try dsimp only
  with_reducible repeat' first
    | assumption
    | intro _
    | exact within_trans (by decide) hT
    | apply Node.hsWrite_reach
    | apply Reach.ite
    | apply Reach.foldl
    | split

theorem Node.relay_reach {ps : List Part} {n0 : Node} (x0 : Node) (x1 : Node → Nat → Node) (hx0 : Reach ps n0 x0) (hx1 : ∀ (y0 : Node) (y1 : Nat), Reach ps n0 y0 → Reach ps n0 (x1 y0 y1)) (hT : within [] ps = true) : Reach ps n0 (Node.relay x0 x1) := by
  unfold Node.relay
  try dsimp only
  with_reducible repeat' first
    | assumption
    | intro _
    | apply hx1
    | exact within_trans (by decide) hT
    | apply Reach.ite
    | apply Reach.foldl
    | split

theorem Node.reloadPort_reach {ps : List Part} {n0 : Node} (x0 : Node) (x1 : Nat) (x2 : Nat) (hx0 : Reach ps n0 x0) (hT : within [.line, .time, .rcd, .glean, .freeCtr] ps = true) : Reach ps n0 (Node.reloadPort x0 x1 x2) := by
  unfold Node.reloadPort
  try dsimp only
  with_reducible repeat' first
    | assumption
    | intro _
    | exact within_trans (by decide) hT
    | apply Node.updPort_reach
    | apply Node.portDown_reach
    | apply Reach.ite
    | apply Reach.foldl
    | split

theorem Node.remoteTake_reach {ps : List Part} {n0 : Node} (x0 : Node) (x1 : Nat) (x2 : ZbFrame) (hx0 : Reach ps n0 x0) (hT : within [.mem, .ram, .host, .stalls, .cache, .loops, .fio, .encs, .axes, .drives, .line, .zb, .cust, .lifts, .gates, .rcd, .safe, .hlth, .freeCtr] ps = true) : Reach ps n0 (Node.remoteTake x0 x1 x2) := by
  unfold Node.remoteTake
  try dsimp only
  with_reducible repeat' first
    | assumption
    | intro _
    | exact within_trans (by decide) hT
    | apply Node.setStall_reach
    | apply Node.judgeRetry_reach
    | apply Node.putStall_reach
    | apply Reach.ite
    | apply Reach.foldl
    | split

theorem Node.reopenNow_reach {ps : List Part} {n0 : Node} (x0 : Node) (x1 : Nat) (hx0 : Reach ps n0 x0) (hT : within [.stalls, .cache, .fio, .axes, .drives, .zb, .cust, .gates, .rcd] ps = true) : Reach ps n0 (Node.reopenNow x0 x1) := by
  unfold Node.reopenNow
  try dsimp only
  with_reducible repeat' first
    | assumption
    | intro _
    | exact within_trans (by decide) hT
    | apply Node.driveGate_reach
    | apply Node.updGate_reach
    | apply Reach.ite
    | apply Reach.foldl
    | split

theorem Node.repeatRequests_reach {ps : List Part} {n0 : Node} (x0 : Node) (hx0 : Reach ps n0 x0) (hT : within [.line, .freeCtr] ps = true) : Reach ps n0 (Node.repeatRequests x0) := by
  unfold Node.repeatRequests
  try dsimp only
  with_reducible repeat' first
    | assumption
    | intro _
    | exact within_trans (by decide) hT
    | apply Node.askHead_reach
    | apply Reach.ite
    | apply Reach.foldl
    | split

theorem Node.resolvedLog_reach {ps : List Part} {n0 : Node} (x0 : Node) (x1 : Nat) (x2 : Nat) (hx0 : Reach ps n0 x0) (hT : within [.rcd] ps = true) : Reach ps n0 (Node.resolvedLog x0 x1 x2) := by
  unfold Node.resolvedLog
  try dsimp only
  with_reducible repeat' first
    | assumption
    | intro _
    | exact within_trans (by decide) hT
    | apply Node.log_reach
    | apply Reach.ite
    | apply Reach.foldl
    | split

theorem Node.retireBlock_reach {ps : List Part} {n0 : Node} (x0 : Node) (x1 : Nat) (x2 : Nat) (hx0 : Reach ps n0 x0) (hT : within [.stored, .rcp, .cust, .rcd, .sec, .hlth, .freeCtr] ps = true) : Reach ps n0 (Node.retireBlock x0 x1 x2) := by
  unfold Node.retireBlock
  try dsimp only
  with_reducible repeat' first
    | assumption
    | intro _
    | exact within_trans (by decide) hT
    | apply Node.updHlth_reach
    | apply Node.log_reach
    | apply Node.updRcd_reach
    | apply Node.loseUnit_reach
    | apply Node.mapWrite_reach
    | apply Reach.ite
    | apply Reach.foldl
    | split

theorem Node.retryLoop_reach {ps : List Part} {n0 : Node} (x0 : Node) (x1 : Nat) (hx0 : Reach ps n0 x0) (hT : within [.mem, .ram, .host, .stalls, .cache, .loops, .fio, .encs, .axes, .drives, .line, .time, .zb, .cust, .lifts, .gates, .rcd, .safe, .hlth, .freeCtr] ps = true) : Reach ps n0 (Node.retryLoop x0 x1) := by
  unfold Node.retryLoop
  try dsimp only
  with_reducible repeat' first
    | assumption
    | intro _
    | exact within_trans (by decide) hT
    | apply Node.upTo_reach
    | apply Node.judgeRetry_reach
    | apply Node.loopTake_reach
    | apply Node.setLoop_reach
    | apply Node.updStall_reach
    | apply Reach.ite
    | apply Reach.foldl
    | split

theorem Node.tryOut_reach {ps : List Part} {n0 : Node} (x0 : Node) (x1 : Nat) (hx0 : Reach ps n0 x0) (hT : within [.mem, .ram, .host, .stalls, .cache, .loops, .fio, .encs, .axes, .drives, .line, .zb, .cust, .lifts, .gates, .rcd, .safe, .hlth, .freeCtr] ps = true) : Reach ps n0 (Node.tryOut x0 x1) := by
  unfold Node.tryOut
  try dsimp only
  with_reducible repeat' first
    | assumption
    | intro _
    | exact within_trans (by decide) hT
    | apply Node.judgeRetry_reach
    | apply Node.driveOut_reach
    | apply Node.setOut_reach
    | apply Reach.ite
    | apply Reach.foldl
    | split

theorem Node.retryOut_reach {ps : List Part} {n0 : Node} (x0 : Node) (x1 : Nat) (x2 : Bool) (hx0 : Reach ps n0 x0) (hT : within [.mem, .ram, .host, .stalls, .cache, .loops, .fio, .encs, .axes, .drives, .line, .time, .zb, .cust, .lifts, .gates, .rcd, .safe, .hlth, .freeCtr] ps = true) : Reach ps n0 (Node.retryOut x0 x1 x2) := by
  unfold Node.retryOut
  try dsimp only
  with_reducible repeat' first
    | assumption
    | intro _
    | exact within_trans (by decide) hT
    | apply Node.updStall_reach
    | apply Node.endTry_reach
    | apply Node.judgeRetry_reach
    | apply Node.upTo_reach
    | apply Node.driveStall_reach
    | apply Node.tryOut_reach
    | apply Reach.ite
    | apply Reach.foldl
    | split

theorem Node.retry_reach {ps : List Part} {n0 : Node} (x0 : Node) (x1 : Nat) (x2 : Bool) (hx0 : Reach ps n0 x0) (hT : within [.mem, .ram, .host, .stalls, .cache, .loops, .fio, .encs, .axes, .drives, .line, .time, .zb, .cust, .lifts, .gates, .rcd, .safe, .hlth, .freeCtr] ps = true) : Reach ps n0 (Node.retry x0 x1 x2) := by
  unfold Node.retry
  try dsimp only
  with_reducible repeat' first
    | assumption
    | intro _
    | exact within_trans (by decide) hT
    | apply Node.retryLoop_reach
    | apply Node.retryOut_reach
    | apply Node.upTo_reach
    | apply Node.judgeRetry_reach
    | apply Node.updEnc_reach
    | apply Reach.ite
    | apply Reach.foldl
    | split

theorem Node.retryCommits_reach {ps : List Part} {n0 : Node} (x0 : Node) (x1 : Nat) (hx0 : Reach ps n0 x0) (hT : within [.line, .cust, .rcd, .freeCtr] ps = true) : Reach ps n0 (Node.retryCommits x0 x1) := by
  unfold Node.retryCommits
  try dsimp only
  with_reducible repeat' first
    | assumption
    | intro _
    | exact within_trans (by decide) hT
    | apply Node.accepted_reach
    | apply Reach.ite
    | apply Reach.foldl
    | split

theorem Node.reverseGate_reach {ps : List Part} {n0 : Node} (x0 : Node) (x1 : Nat) (x2 : Nat) (hx0 : Reach ps n0 x0) (hT : within [.stalls, .cache, .fio, .axes, .drives, .zb, .cust, .gates, .rcd, .freeCtr] ps = true) : Reach ps n0 (Node.reverseGate x0 x1 x2) := by
  unfold Node.reverseGate
  try dsimp only
  with_reducible repeat' first
    | assumption
    | intro _
    | exact within_trans (by decide) hT
    | apply Node.gateEnter_reach
    | apply Node.updGate_reach
    | apply Node.haltGate_reach
    | apply Node.driveGate_reach
    | apply Reach.ite
    | apply Reach.foldl
    | split

theorem Node.tellSlot_reach {ps : List Part} {n0 : Node} (x0 : Node) (x1 : Nat) (x2 : Nat) (x3 : Nat) (x4 : Nat) (x5 : Nat) (x6 : Node → Node) (hx0 : Reach ps n0 x0) (hx6 : ∀ (y0 : Node), Reach ps n0 y0 → Reach ps n0 (x6 y0)) (hT : within [.line, .freeCtr] ps = true) : Reach ps n0 (Node.tellSlot x0 x1 x2 x3 x4 x5 x6) := by
  unfold Node.tellSlot
  try dsimp only
  with_reducible repeat' first
    | assumption
    | intro _
    | apply hx6
    | exact within_trans (by decide) hT
    | apply Node.send_reach
    | apply Reach.ite
    | apply Reach.foldl
    | split

theorem Node.slotRevoked_reach {ps : List Part} {n0 : Node} (x0 : Node) (x1 : Nat) (hx0 : Reach ps n0 x0) (hT : within [.harv, .rcd] ps = true) : Reach ps n0 (Node.slotRevoked x0 x1) := by
  unfold Node.slotRevoked
  try dsimp only
  with_reducible repeat' first
    | assumption
    | intro _
    | exact within_trans (by decide) hT
    | apply Node.reservationLog_reach
    | apply Node.setHslot_reach
    | apply Reach.ite
    | apply Reach.foldl
    | split

theorem Node.revokeUnfit_reach {ps : List Part} {n0 : Node} (x0 : Nat) (x1 : Node) (hx1 : Reach ps n0 x1) (hT : within [.line, .harv, .rcd, .freeCtr] ps = true) : Reach ps n0 (Node.revokeUnfit x0 x1) := by
  induction x0 generalizing x1 with
  | zero => exact hx1
  | succ k ih =>
    unfold Node.revokeUnfit
    dsimp only
    split
    · exact hx1
    · split
      · apply ih
        apply Node.tellSlot_reach
        · exact Reach.set_harv hx1 (within_trans (by decide) hT)
        · intro y hy
          exact Node.slotRevoked_reach _ _ hy (within_trans (by decide) hT)
        · exact within_trans (by decide) hT
      · exact hx1

theorem Node.ringHealedAt_reach {ps : List Part} {n0 : Node} (x0 : Node) (x1 : Nat) (hx0 : Reach ps n0 x0) (hT : within [.line, .rcd, .freeCtr] ps = true) : Reach ps n0 (Node.ringHealedAt x0 x1) := by
  unfold Node.ringHealedAt
  try dsimp only
  with_reducible repeat' first
    | assumption
    | intro _
    | exact within_trans (by decide) hT
    | apply Node.updLine_reach
    | apply Node.updPort_reach
    | apply Node.log_reach
    | apply Node.freeTtl_reach
    | apply Node.newFrame_reach
    | apply Node.egress_reach
    | refine Reach.ofSnd (by assumption) ?_
    | apply Reach.ite
    | apply Reach.foldl
    | split

theorem Node.ringWrite_reach {ps : List Part} {n0 : Node} (x0 : Node) (x1 : Nat) (x2 : List (BitVec 32)) (hx0 : Reach ps n0 x0) (hT : within [.mem, .ram, .rcd] ps = true) : Reach ps n0 (Node.ringWrite x0 x1 x2) := by
  unfold Node.ringWrite
  try dsimp only
  with_reducible repeat' first
    | assumption
    | intro _
    | exact within_trans (by decide) hT
    | apply Node.write_reach
    | apply Node.ringDropped_reach
    | apply Node.log_reach
    | apply Reach.ite
    | apply Reach.foldl
    | split

theorem Node.startCmd_reach {ps : List Part} {n0 : Node} (x0 : Node) (x1 : Nat) (hx0 : Reach ps n0 x0) (hT : within [.stalls, .cache, .loops, .fio, .adc, .encs, .axes, .drives, .zb, .cust, .lifts, .gates, .rcd, .freeCtr] ps = true) : Reach ps n0 (Node.startCmd x0 x1).2 := by
  unfold Node.startCmd
  try dsimp only
  with_reducible repeat' first
    | assumption
    | intro _
    | exact within_trans (by decide) hT
    | apply Node.tryStart_reach
    | refine Reach.ofSnd (by assumption) ?_
    | apply Reach.ite
    | apply Reach.foldl
    | split

theorem Node.zbWithdraw_reach {ps : List Part} {n0 : Node} (x0 : Node) (x1 : Nat) (hx0 : Reach ps n0 x0) (hT : within [.zb] ps = true) : Reach ps n0 (Node.zbWithdraw x0 x1) := by
  unfold Node.zbWithdraw
  try dsimp only
  with_reducible repeat' first
    | assumption
    | intro _
    | exact within_trans (by decide) hT
    | apply Node.updZb_reach
    | apply Reach.ite
    | apply Reach.foldl
    | split

theorem Node.safeRemote_reach {ps : List Part} {n0 : Node} (x0 : Node) (x1 : Nat) (hx0 : Reach ps n0 x0) (hT : within [.stalls, .cache, .zb, .cust] ps = true) : Reach ps n0 (Node.safeRemote x0 x1) := by
  unfold Node.safeRemote
  try dsimp only
  with_reducible repeat' first
    | assumption
    | intro _
    | exact within_trans (by decide) hT
    | apply Node.zbWithdraw_reach
    | apply Node.putStall_reach
    | apply Reach.ite
    | apply Reach.foldl
    | split

theorem Node.stopAction_reach {ps : List Part} {n0 : Node} (x0 : Node) (x1 : Nat) (hx0 : Reach ps n0 x0) (hT : within [.mem, .ram, .host, .stalls, .cache, .fio, .axes, .drives, .line, .zb, .cust, .lifts, .rcd, .freeCtr] ps = true) : Reach ps n0 (Node.stopAction x0 x1) := by
  unfold Node.stopAction
  try dsimp only
  with_reducible repeat' first
    | assumption
    | intro _
    | exact within_trans (by decide) hT
    | apply Node.driveStall_reach
    | apply Node.putStall_reach
    | apply Node.restSink_reach
    | apply Node.rampStop_reach
    | apply Node.coilsOffStop_reach
    | apply Node.abandonTable_reach
    | apply Node.stopCar_reach
    | apply Node.safeRemote_reach
    | apply Node.engineWrite_reach
    | apply Reach.ite
    | apply Reach.foldl
    | split

theorem Node.stopChan_reach {ps : List Part} {n0 : Node} (x0 : Node) (x1 : Nat) (x2 : Option Nat) (hx0 : Reach ps n0 x0) (hT : within [.mem, .ram, .host, .stalls, .cache, .fio, .encs, .axes, .drives, .line, .zb, .cust, .lifts, .gates, .rcd, .freeCtr] ps = true) : Reach ps n0 (Node.stopChan x0 x1 x2) := by
  unfold Node.stopChan
  try dsimp only
  with_reducible repeat' first
    | assumption
    | intro _
    | exact within_trans (by decide) hT
    | apply Node.stopped_reach
    | apply Node.putStall_reach
    | apply Node.stopAction_reach
    | apply Reach.ite
    | apply Reach.foldl
    | split

theorem Node.stopCmd_reach {ps : List Part} {n0 : Node} (x0 : Node) (x1 : Nat) (hx0 : Reach ps n0 x0) (hT : within [.mem, .ram, .host, .stalls, .cache, .fio, .encs, .axes, .drives, .line, .zb, .cust, .lifts, .gates, .rcd, .freeCtr] ps = true) : Reach ps n0 (Node.stopCmd x0 x1).2 := by
  unfold Node.stopCmd
  try dsimp only
  with_reducible repeat' first
    | assumption
    | intro _
    | exact within_trans (by decide) hT
    | apply Node.stopChan_reach
    | apply Reach.ite
    | apply Reach.foldl
    | split

theorem Node.runHandler_reach {ps : List Part} {n0 : Node} (x0 : Node) (x1 : ThTask) (hx0 : Reach ps n0 x0) (hT : within [.mem, .ram, .host, .stalls, .cache, .loops, .fio, .adc, .encs, .axes, .drives, .line, .zb, .cust, .lifts, .gates, .harv, .rcd, .safe, .freeCtr] ps = true) : Reach ps n0 (Node.runHandler x0 x1).2 := by
  unfold Node.runHandler
  try dsimp only
  with_reducible repeat' first
    | assumption
    | intro _
    | exact within_trans (by decide) hT
    | apply Node.startCmd_reach
    | apply Node.stopCmd_reach
    | apply Node.harvestMark_reach
    | apply Node.send_reach
    | apply Node.callTask_reach
    | apply Node.gateTask_reach
    | apply Node.free_reach
    | refine Reach.ofSnd (by assumption) ?_
    | apply Reach.ite
    | apply Reach.foldl
    | split

theorem Node.runImageOn_reach {ps : List Part} {n0 : Node} (x0 : Node) (x1 : Nat) (x2 : List Nat) (hx0 : Reach ps n0 x0) (hT : within [.isl, .mem, .ram, .sec] ps = true) : Reach ps n0 (Node.runImageOn x0 x1 x2) := by
  unfold Node.runImageOn
  try dsimp only
  with_reducible repeat' first
    | assumption
    | intro _
    | exact within_trans (by decide) hT
    | apply Node.loadRegions_reach
    | apply Node.updSec_reach
    | apply Node.updIsland_reach
    | apply Reach.ite
    | apply Reach.foldl
    | split

theorem Node.runImage_reach {ps : List Part} {n0 : Node} (x0 : Node) (x1 : Nat) (hx0 : Reach ps n0 x0) (hT : within [.isl, .mem, .ram, .sec] ps = true) : Reach ps n0 (Node.runImage x0 x1) := by
  unfold Node.runImage
  try dsimp only
  with_reducible repeat' first
    | assumption
    | intro _
    | exact within_trans (by decide) hT
    | apply Node.runImageOn_reach
    | apply Reach.ite
    | apply Reach.foldl
    | split

theorem Node.runImages_reach {ps : List Part} {n0 : Node} (x0 : Node) (hx0 : Reach ps n0 x0) (hT : within [.isl, .mem, .ram, .sec] ps = true) : Reach ps n0 (Node.runImages x0) := by
  unfold Node.runImages
  try dsimp only
  with_reducible repeat' first
    | assumption
    | intro _
    | exact within_trans (by decide) hT
    | apply Node.runImage_reach
    | apply Reach.ite
    | apply Reach.foldl
    | split

theorem Node.sendPtp_reach {ps : List Part} {n0 : Node} (x0 : Node) (x1 : Nat) (x2 : Nat) (x3 : Bool) (x4 : Int) (x5 : Nat) (x6 : Int) (x7 : List Byte) (hx0 : Reach ps n0 x0) (hT : within [.line] ps = true) : Reach ps n0 (Node.sendPtp x0 x1 x2 x3 x4 x5 x6 x7) := by
  unfold Node.sendPtp
  try dsimp only
  with_reducible repeat' first
    | assumption
    | intro _
    | exact within_trans (by decide) hT
    | apply Node.enqueue_reach
    | apply Reach.ite
    | apply Reach.foldl
    | split

theorem Node.sendAnnounce_reach {ps : List Part} {n0 : Node} (x0 : Node) (x1 : Nat) (x2 : Nat) (x3 : Nat) (x4 : Int) (hx0 : Reach ps n0 x0) (hT : within [.line] ps = true) : Reach ps n0 (Node.sendAnnounce x0 x1 x2 x3 x4) := by
  unfold Node.sendAnnounce
  try dsimp only
  with_reducible repeat' first
    | assumption
    | intro _
    | exact within_trans (by decide) hT
    | apply Node.sendPtp_reach
    | apply Node.updPort_reach
    | apply Reach.ite
    | apply Reach.foldl
    | split

theorem Node.sendFollowUp_reach {ps : List Part} {n0 : Node} (x0 : Node) (x1 : Nat) (x2 : Nat) (x3 : Int) (x4 : Int) (hx0 : Reach ps n0 x0) (hT : within [.line] ps = true) : Reach ps n0 (Node.sendFollowUp x0 x1 x2 x3 x4) := by
  unfold Node.sendFollowUp
  try dsimp only
  with_reducible repeat' first
    | assumption
    | intro _
    | exact within_trans (by decide) hT
    | apply Node.sendPtp_reach
    | apply Reach.ite
    | apply Reach.foldl
    | split

theorem Node.sendSlotFrame_reach {ps : List Part} {n0 : Node} (x0 : Node) (x1 : Nat) (hx0 : Reach ps n0 x0) (hT : within [.line, .harv, .freeCtr] ps = true) : Reach ps n0 (Node.sendSlotFrame x0 x1) := by
  unfold Node.sendSlotFrame
  try dsimp only
  with_reducible repeat' first
    | assumption
    | intro _
    | exact within_trans (by decide) hT
    | apply Node.send_reach
    | apply Node.setHslot_reach
    | apply Reach.ite
    | apply Reach.foldl
    | split

theorem Node.sendSync_reach {ps : List Part} {n0 : Node} (x0 : Node) (x1 : Nat) (hx0 : Reach ps n0 x0) (hT : within [.line] ps = true) : Reach ps n0 (Node.sendSync x0 x1) := by
  unfold Node.sendSync
  try dsimp only
  with_reducible repeat' first
    | assumption
    | intro _
    | exact within_trans (by decide) hT
    | apply Node.sendPtp_reach
    | apply Node.updPort_reach
    | apply Reach.ite
    | apply Reach.foldl
    | split

theorem Node.servoSet_reach {ps : List Part} {n0 : Node} (x0 : Node) (x1 : Int) (x2 : ℚ) (hx0 : Reach ps n0 x0) (hT : within [.time] ps = true) : Reach ps n0 (Node.servoSet x0 x1 x2) := by
  unfold Node.servoSet
  try dsimp only
  with_reducible repeat' first
    | assumption
    | intro _
    | exact within_trans (by decide) hT
    | apply Node.updTime_reach
    | apply Reach.ite
    | apply Reach.foldl
    | split

theorem Node.servoSync_reach {ps : List Part} {n0 : Node} (x0 : Node) (x1 : Int) (x2 : ℚ) (hx0 : Reach ps n0 x0) (hT : within [.rcp, .loops, .line, .time, .harv, .rcd] ps = true) : Reach ps n0 (Node.servoSync x0 x1 x2) := by
  unfold Node.servoSync
  try dsimp only
  with_reducible repeat' first
    | assumption
    | intro _
    | exact within_trans (by decide) hT
    | apply Node.updTime_reach
    | apply Node.servoSet_reach
    | apply Node.stepTime_reach
    | apply Node.servoTo_reach
    | apply Reach.ite
    | apply Reach.set_time (m := x0)
    | apply Reach.foldl
    | split
    | apply Reach.set_time

theorem Node.setBoot_reach {ps : List Part} {n0 : Node} (x0 : Node) (x1 : Nat) (x2 : BootPtr) (hx0 : Reach ps n0 x0) (hT : within [.sec] ps = true) : Reach ps n0 (Node.setBoot x0 x1 x2) := by
  unfold Node.setBoot
  try dsimp only
  with_reducible repeat' first
    | assumption
    | intro _
    | exact within_trans (by decide) hT
    | apply Node.updSec_reach
    | apply Reach.ite
    | apply Reach.foldl
    | split

theorem Node.setSilo_reach {ps : List Part} {n0 : Node} (x0 : Node) (x1 : Nat) (x2 : Silo) (hx0 : Reach ps n0 x0) (hT : within [.sec] ps = true) : Reach ps n0 (Node.setSilo x0 x1 x2) := by
  unfold Node.setSilo
  try dsimp only
  with_reducible repeat' first
    | assumption
    | intro _
    | exact within_trans (by decide) hT
    | apply Node.updSec_reach
    | apply Reach.ite
    | apply Reach.foldl
    | split

theorem Node.setThermal_reach {ps : List Part} {n0 : Node} (x0 : Node) (x1 : List Nat) (x2 : Bool) (hx0 : Reach ps n0 x0) (hT : within [.fio] ps = true) : Reach ps n0 (Node.setThermal x0 x1 x2) := by
  unfold Node.setThermal
  try dsimp only
  with_reducible repeat' first
    | assumption
    | intro _
    | exact within_trans (by decide) hT
    | apply Node.setOut_reach
    | apply Reach.ite
    | apply Reach.foldl
    | split

theorem Node.sfLoad_reach {ps : List Part} {n0 : Node} (x0 : Node) (x1 : List Byte) (hx0 : Reach ps n0 x0) (hT : within [.stalls, .zb, .safe] ps = true) : Reach ps n0 (Node.sfLoad x0 x1) := by
  unfold Node.sfLoad
  try dsimp only
  with_reducible repeat' first
    | assumption
    | intro _
    | exact within_trans (by decide) hT
    | apply Node.updSafe_reach
    | apply Node.zbFreeObjects_reach
    | apply Node.updZb_reach
    | apply Node.copySafeUse_reach
    | apply Reach.ite
    | apply Reach.foldl
    | split

theorem Node.sfCommit_reach {ps : List Part} {n0 : Node} (x0 : Node) (x1 : Nat) (x2 : List Byte) (hx0 : Reach ps n0 x0) (hT : within [.mem, .ram, .host, .stalls, .fio, .line, .zb, .rcd, .safe, .hlth, .freeCtr] ps = true) : Reach ps n0 (Node.sfCommit x0 x1 x2) := by
  unfold Node.sfCommit
  try dsimp only
  with_reducible repeat' first
    | assumption
    | intro _
    | exact within_trans (by decide) hT
    | apply Node.checked_reach
    | apply Node.needCfg_reach
    | apply Node.log_reach
    | apply Node.zoneStop_reach
    | apply Node.sfLoad_reach
    | apply Node.ok_reach
    | apply Reach.ite
    | apply Reach.foldl
    | split

theorem Node.tryZoneStart_reach {ps : List Part} {n0 : Node} (x0 : Node) (hx0 : Reach ps n0 x0) (hT : within [.rcd, .safe] ps = true) : Reach ps n0 (Node.tryZoneStart x0) := by
  unfold Node.tryZoneStart
  try dsimp only
  with_reducible repeat' first
    | assumption
    | intro _
    | exact within_trans (by decide) hT
    | apply Node.zoneEnter_reach
    | apply Node.updSafe_reach
    | apply Reach.ite
    | apply Reach.foldl
    | split

theorem Node.sfServe_reach {ps : List Part} {n0 : Node} (x0 : Node) (x1 : Nat) (x2 : SfReq) (x3 : Bool) (x4 : T64) (hx0 : Reach ps n0 x0) (hT : within [.fio, .rcd, .safe] ps = true) : Reach ps n0 (Node.sfServe x0 x1 x2 x3 x4) := by
  unfold Node.sfServe
  try dsimp only
  with_reducible repeat' first
    | assumption
    | intro _
    | exact within_trans (by decide) hT
    | apply Node.updChan_reach
    | apply Node.setChan_reach
    | apply Node.dropUnlock_reach
    | apply Node.beginTests_reach
    | apply Node.zoneStop_reach
    | apply Reach.ite
    | apply Reach.foldl
    | split

theorem Node.sfServeAll_reach {ps : List Part} {n0 : Node} (x0 : Node) (x1 : Nat) (x2 : T64) (hx0 : Reach ps n0 x0) (hT : within [.fio, .rcd, .safe] ps = true) : Reach ps n0 (Node.sfServeAll x0 x1 x2) := by
  unfold Node.sfServeAll
  try dsimp only
  with_reducible repeat' first
    | assumption
    | intro _
    | exact within_trans (by decide) hT
    | apply Node.updChan_reach
    | apply Node.sfServe_reach
    | apply Reach.ite
    | apply Reach.foldl
    | split

theorem Node.watchOutputs_reach {ps : List Part} {n0 : Node} (x0 : Node) (x1 : Nat) (hx0 : Reach ps n0 x0) (hT : within [.fio, .rcd, .safe] ps = true) : Reach ps n0 (Node.watchOutputs x0 x1) := by
  unfold Node.watchOutputs
  try dsimp only
  with_reducible repeat' first
    | assumption
    | intro _
    | exact within_trans (by decide) hT
    | apply Node.setChan_reach
    | apply Node.zoneStop_reach
    | apply Node.sfLog_reach
    | apply Node.updChan_reach
    | apply Reach.ite
    | apply Reach.foldl
    | split

theorem Node.sfCycle_reach {ps : List Part} {n0 : Node} (x0 : Node) (x1 : Nat) (x2 : T64) (hx0 : Reach ps n0 x0) (hT : within [.fio, .rcd, .safe, .glean, .freeCtr] ps = true) : Reach ps n0 (Node.sfCycle x0 x1 x2) := by
  unfold Node.sfCycle
  try dsimp only
  with_reducible repeat' first
    | assumption
    | intro _
    | exact within_trans (by decide) hT
    | apply Node.judgeConns_reach
    | apply Node.updChan_reach
    | apply Node.tryZoneStart_reach
    | apply Node.evalFuncs_reach
    | apply Node.grantUnlocks_reach
    | apply Node.sfServeAll_reach
    | apply Node.watchOutputs_reach
    | apply Node.sfSwitch_reach
    | apply Node.raise_reach
    | apply Node.produceCopies_reach
    | apply Reach.ite
    | apply Reach.foldl
    | split

theorem Node.sfPlace_reach {ps : List Part} {n0 : Node} (x0 : Node) (x1 : Nat) (x2 : Nat) (hx0 : Reach ps n0 x0) (hT : within [.safe] ps = true) : Reach ps n0 (Node.sfPlace x0 x1 x2) := by
  unfold Node.sfPlace
  try dsimp only
  with_reducible repeat' first
    | assumption
    | intro _
    | exact within_trans (by decide) hT
    | apply Node.sfRequest_reach
    | apply Reach.ite
    | apply Reach.foldl
    | split

theorem Node.shiftDrive_reach {ps : List Part} {n0 : Node} (x0 : Node) (x1 : Nat) (x2 : Int) (hx0 : Reach ps n0 x0) (hT : within [.stalls, .cache, .fio, .axes, .drives, .zb, .cust, .lifts, .rcd] ps = true) : Reach ps n0 (Node.shiftDrive x0 x1 x2) := by
  unfold Node.shiftDrive
  try dsimp only
  with_reducible repeat' first
    | assumption
    | intro _
    | exact within_trans (by decide) hT
    | apply Node.defaultMove_reach
    | apply Node.driveCar_reach
    | apply Reach.ite
    | apply Reach.foldl
    | split

theorem Node.showLift_reach {ps : List Part} {n0 : Node} (x0 : Node) (x1 : Nat) (x2 : T64) (hx0 : Reach ps n0 x0) (hT : within [.stalls, .cache, .cust] ps = true) : Reach ps n0 (Node.showLift x0 x1 x2) := by
  unfold Node.showLift
  try dsimp only
  with_reducible repeat' first
    | assumption
    | intro _
    | exact within_trans (by decide) hT
    | apply Node.updStall_reach
    | apply Reach.ite
    | apply Reach.foldl
    | split

theorem Node.slotScan_reach {ps : List Part} {n0 : Node} (x0 : Node) (hx0 : Reach ps n0 x0) (hT : within [.stored, .rcp, .cust, .rcd, .sec, .hlth, .freeCtr] ps = true) : Reach ps n0 (Node.slotScan x0) := by
  unfold Node.slotScan
  try dsimp only
  with_reducible repeat' first
    | assumption
    | intro _
    | exact within_trans (by decide) hT
    | apply Node.updRcd_reach
    | apply Node.log_reach
    | apply Node.updHlth_reach
    | apply Node.retireBlock_reach
    | apply Reach.ite
    | apply Reach.foldl
    | split

theorem Node.slotToStall_reach {ps : List Part} {n0 : Node} (x0 : Node) (x1 : AdcSlot) (x2 : Int) (x3 : Bool) (x4 : T64) (hx0 : Reach ps n0 x0) (hT : within [.stalls, .cache, .cust] ps = true) : Reach ps n0 (Node.slotToStall x0 x1 x2 x3 x4) := by
  unfold Node.slotToStall
  try dsimp only
  with_reducible repeat' first
    | assumption
    | intro _
    | exact within_trans (by decide) hT
    | apply Node.putStall_reach
    | apply Reach.ite
    | apply Reach.foldl
    | split

theorem Node.snapshot_reach {ps : List Part} {n0 : Node} (x0 : Node) (x1 : Nat) (hx0 : Reach ps n0 x0) (hT : within [.stalls, .cache] ps = true) : Reach ps n0 (Node.snapshot x0 x1).2 := by
  unfold Node.snapshot
  try dsimp only
  with_reducible repeat' first
    | assumption
    | intro _
    | exact within_trans (by decide) hT
    | apply Node.fill_reach
    | apply Reach.ite
    | apply Reach.foldl
    | apply Reach.foldr
    | apply Reach.foldlPair
    | apply Reach.foldlPair'
    | split
    | exact Reach.refl _ _
    | dsimp only [id]

theorem Node.ssiWord_reach {ps : List Part} {n0 : Node} (x0 : Node) (x1 : Nat) (x2 : Nat) (x3 : T64) (hx0 : Reach ps n0 x0) (hT : within [.stalls, .cache, .rcp, .fio, .encs, .zb, .cust, .rcd] ps = true) : Reach ps n0 (Node.ssiWord x0 x1 x2 x3) := by
  unfold Node.ssiWord
  try dsimp only
  with_reducible repeat' first
    | assumption
    | intro _
    | exact within_trans (by decide) hT
    | apply Node.setEnc_reach
    | apply Node.comparesStep_reach
    | apply Reach.ite
    | apply Reach.foldl
    | split

theorem Node.startCheckpoint_reach {ps : List Part} {n0 : Node} (x0 : Node) (hx0 : Reach ps n0 x0) (hT : within [.cust, .rcd] ps = true) : Reach ps n0 (Node.startCheckpoint x0) := by
  unfold Node.startCheckpoint
  try dsimp only
  with_reducible repeat' first
    | assumption
    | intro _
    | exact within_trans (by decide) hT
    | apply Node.log_reach
    | apply Node.updCust_reach
    | apply Reach.ite
    | apply Reach.foldl
    | split

theorem Node.startField_reach {ps : List Part} {n0 : Node} (x0 : Node) (x1 : Nat) (x2 : Bool) (x3 : Nat) (hx0 : Reach ps n0 x0) (hT : within [.power, .fio, .rcd] ps = true) : Reach ps n0 (Node.startField x0 x1 x2 x3) := by
  unfold Node.startField
  try dsimp only
  with_reducible repeat' first
    | assumption
    | intro _
    | exact within_trans (by decide) hT
    | apply Node.updPower_reach
    | apply Node.updFio_reach
    | apply Node.log_reach
    | apply Node.setVaux_reach
    | apply Reach.ite
    | apply Reach.foldl
    | split

theorem Node.startTests_reach {ps : List Part} {n0 : Node} (x0 : Node) (x1 : Nat) (x2 : Nat) (hx0 : Reach ps n0 x0) (hT : within [.fio, .rcd, .safe, .freeCtr] ps = true) : Reach ps n0 (Node.startTests x0 x1 x2) := by
  unfold Node.startTests
  try dsimp only
  with_reducible repeat' first
    | assumption
    | intro _
    | exact within_trans (by decide) hT
    | apply Node.updChan_reach
    | apply Node.free_reach
    | apply Node.chanFault_reach
    | refine Reach.ofSnd (by assumption) ?_
    | apply Reach.ite
    | apply Reach.foldl
    | split

theorem Node.startTime_reach {ps : List Part} {n0 : Node} (x0 : Node) (hx0 : Reach ps n0 x0) (hT : within [.time, .rcd] ps = true) : Reach ps n0 (Node.startTime x0) := by
  unfold Node.startTime
  try dsimp only
  with_reducible repeat' first
    | assumption
    | intro _
    | exact within_trans (by decide) hT
    | apply Node.updRcd_reach
    | apply Reach.ite
    | apply Reach.set_time (m := x0)
    | apply Reach.foldl
    | split
    | apply Reach.set_time

theorem Node.stopDone_reach {ps : List Part} {n0 : Node} (x0 : Node) (x1 : Nat) (hx0 : Reach ps n0 x0) (hT : within [.mem, .ram, .host, .stalls, .cache, .fio, .encs, .axes, .drives, .line, .zb, .cust, .lifts, .gates, .rcd, .freeCtr] ps = true) : Reach ps n0 (Node.stopDone x0 x1) := by
  unfold Node.stopDone
  try dsimp only
  with_reducible repeat' first
    | assumption
    | intro _
    | exact within_trans (by decide) hT
    | apply Node.disableAxis_reach
    | apply Node.stopped_reach
    | apply Reach.ite
    | apply Reach.foldl
    | split

theorem Node.stopNow_reach {ps : List Part} {n0 : Node} (x0 : Node) (x1 : Nat) (x2 : Nat) (hx0 : Reach ps n0 x0) (hT : within [.mem, .ram, .host, .axes, .drives, .line, .rcd, .freeCtr] ps = true) : Reach ps n0 (Node.stopNow x0 x1 x2) := by
  unfold Node.stopNow
  try dsimp only
  with_reducible repeat' first
    | assumption
    | intro _
    | exact within_trans (by decide) hT
    | apply Node.updAxis_reach
    | apply Node.coilsOffStop_reach
    | apply Node.quickStop_reach
    | apply Node.rampStop_reach
    | apply Node.answerAxisStops_reach
    | apply Reach.ite
    | apply Reach.foldl
    | split

theorem Node.switch_reach {ps : List Part} {n0 : Node} (x0 : Node) (x1 : Nat) (x2 : KFrame) (hx0 : Reach ps n0 x0) (hT : within [.line, .glean] ps = true) : Reach ps n0 (Node.switch x0 x1 x2) := by
  unfold Node.switch
  try dsimp only
  with_reducible repeat' first
    | assumption
    | intro _
    | exact within_trans (by decide) hT
    | apply Node.updLine_reach
    | apply Node.deliver_reach
    | apply Node.forward_reach
    | apply Reach.ite
    | apply Reach.foldl
    | split

theorem Node.takeFrames_reach {ps : List Part} {n0 : Node} (x0 : Node) (hx0 : Reach ps n0 x0) (hT : within [.line, .glean] ps = true) : Reach ps n0 (Node.takeFrames x0) := by
  unfold Node.takeFrames
  try dsimp only
  with_reducible repeat' first
    | assumption
    | intro _
    | exact within_trans (by decide) hT
    | apply Node.updLine_reach
    | apply Node.updGlean_reach
    | apply Reach.ite
    | apply Reach.foldl
    | split

theorem Node.takeKept_reach {ps : List Part} {n0 : Node} (x0 : Node) (hx0 : Reach ps n0 x0) (hT : within [.stalls, .cache, .line, .cust] ps = true) : Reach ps n0 (Node.takeKept x0) := by
  unfold Node.takeKept
  try dsimp only
  with_reducible repeat' first
    | assumption
    | intro _
    | exact within_trans (by decide) hT
    | apply Node.updLine_reach
    | apply Node.putStall_reach
    | apply Reach.ite
    | apply Reach.foldl
    | split

theorem Node.takeMap_reach {ps : List Part} {n0 : Node} (x0 : Node) (x1 : Tbl MapNode) (hx0 : Reach ps n0 x0) (hT : within [.line, .time, .rcd] ps = true) : Reach ps n0 (Node.takeMap x0 x1) := by
  unfold Node.takeMap
  try dsimp only
  with_reducible repeat' first
    | assumption
    | intro _
    | exact within_trans (by decide) hT
    | apply Node.reslave_reach
    | apply Node.updLine_reach
    | apply Reach.ite
    | apply Reach.foldl
    | split

theorem Node.takeRecord_reach {ps : List Part} {n0 : Node} (x0 : Node) (hx0 : Reach ps n0 x0) (hT : within [.rcd] ps = true) : Reach ps n0 (Node.takeRecord x0) := by
  unfold Node.takeRecord
  try dsimp only
  with_reducible repeat' first
    | assumption
    | intro _
    | exact within_trans (by decide) hT
    | apply Node.updRcd_reach
    | apply Reach.ite
    | apply Reach.foldl
    | split

theorem Node.useSram_reach {ps : List Part} {n0 : Node} (x0 : Node) (x1 : Nat) (x2 : Nat) (x3 : Nat) (hx0 : Reach ps n0 x0) (hT : within [.isl, .mem, .ram, .power, .host, .stalls, .cache, .rcp, .loops, .fio, .adc, .encs, .axes, .drives, .line, .time, .zb, .cust, .lifts, .gates, .harv, .rcd, .safe, .glean, .sec, .hlth, .freeCtr] ps = true) : Reach ps n0 (Node.useSram x0 x1 x2 x3).2 := by
  unfold Node.useSram
  try dsimp only
  with_reducible repeat' first
    | assumption
    | intro _
    | exact within_trans (by decide) hT
    | apply Node.afterCopies_reach
    | apply Node.consume_reach
    | apply Node.restartOwner_reach
    | refine Reach.ofSnd (by assumption) ?_
    | apply Reach.ite
    | apply Reach.foldl
    | split

theorem Node.takeRequest_reach {ps : List Part} {n0 : Node} (x0 : Node) (x1 : Nat) (hx0 : Reach ps n0 x0) (hT : within [.isl, .mem, .ram, .power, .host, .stalls, .cache, .rcp, .loops, .fio, .adc, .encs, .axes, .drives, .line, .time, .zb, .cust, .lifts, .gates, .harv, .rcd, .safe, .glean, .sec, .hlth, .freeCtr] ps = true) : Reach ps n0 (Node.takeRequest x0 x1) := by
  unfold Node.takeRequest
  try dsimp only
  with_reducible repeat' first
    | assumption
    | intro _
    | exact within_trans (by decide) hT
    | apply Node.useSram_reach
    | apply Node.abortMbx_reach
    | apply Node.judgeRequest_reach
    | refine Reach.ofSnd (by assumption) ?_
    | apply Reach.ite
    | apply Reach.foldl
    | split

theorem Node.takeSample_reach {ps : List Part} {n0 : Node} (x0 : Node) (x1 : Nat) (x2 : T64) (x3 : Bool) (hx0 : Reach ps n0 x0) (hT : within [.stalls, .cache, .harv] ps = true) : Reach ps n0 (Node.takeSample x0 x1 x2 x3) := by
  unfold Node.takeSample
  try dsimp only
  with_reducible repeat' first
    | assumption
    | intro _
    | exact within_trans (by decide) hT
    | apply Node.snapshot_reach
    | apply Node.judgeTriggers_reach
    | apply Node.updHarv_reach
    | refine Reach.ofSnd (by assumption) ?_
    | apply Reach.ite
    | apply Reach.foldl
    | split

theorem Node.touchLatch_reach {ps : List Part} {n0 : Node} (x0 : Node) (x1 : Nat) (x2 : Nat) (hx0 : Reach ps n0 x0) (hT : within [.rcd, .sec] ps = true) : Reach ps n0 (Node.touchLatch x0 x1 x2) := by
  unfold Node.touchLatch
  try dsimp only
  with_reducible repeat' first
    | assumption
    | intro _
    | exact within_trans (by decide) hT
    | apply Node.log_reach
    | apply Reach.ite
    | apply Reach.set_sec (m := x0)
    | apply Reach.foldl
    | split
    | apply Reach.set_sec

theorem Node.transientAt_reach {ps : List Part} {n0 : Node} (x0 : Node) (x1 : Nat) (hx0 : Reach ps n0 x0) (hT : within [.isl, .mem, .ram, .power, .host, .stalls, .cache, .rcp, .loops, .fio, .adc, .encs, .axes, .drives, .line, .time, .zb, .cust, .lifts, .gates, .harv, .rcd, .safe, .glean, .sec, .hlth, .freeCtr] ps = true) : Reach ps n0 (Node.transientAt x0 x1) := by
  unfold Node.transientAt
  try dsimp only
  with_reducible repeat' first
    | assumption
    | intro _
    | exact within_trans (by decide) hT
    | apply Node.permanentRow_reach
    | apply Node.updMem_reach
    | apply Reach.ite
    | apply Reach.foldl
    | split

theorem Node.trigArm_reach {ps : List Part} {n0 : Node} (x0 : Node) (x1 : Nat) (x2 : List Byte) (hx0 : Reach ps n0 x0) (hT : within [.mem, .ram, .host, .line, .harv, .rcd, .freeCtr] ps = true) : Reach ps n0 (Node.trigArm x0 x1 x2) := by
  unfold Node.trigArm
  try dsimp only
  with_reducible repeat' first
    | assumption
    | intro _
    | exact within_trans (by decide) hT
    | apply Node.checked_reach
    | apply Node.ok_reach
    | apply Node.setTrig_reach
    | apply Reach.ite
    | apply Reach.foldl
    | split

theorem Node.valueAction_reach {ps : List Part} {n0 : Node} (x0 : Node) (x1 : Nat) (x2 : Nat) (hx0 : Reach ps n0 x0) (hT : within [.mem, .ram, .host, .stalls, .cache, .rcp, .fio, .line, .time, .zb, .cust, .rcd, .freeCtr] ps = true) : Reach ps n0 (Node.valueAction x0 x1 x2) := by
  unfold Node.valueAction
  try dsimp only
  with_reducible repeat' first
    | assumption
    | intro _
    | exact within_trans (by decide) hT
    | apply Node.carryOut_reach
    | apply Node.actWrite_reach
    | apply Node.refuseAction_reach
    | apply Reach.ite
    | apply Reach.foldl
    | split

theorem Node.writePointer_reach {ps : List Part} {n0 : Node} (x0 : Node) (x1 : Nat) (hx0 : Reach ps n0 x0) (hT : within [.sec] ps = true) : Reach ps n0 (Node.writePointer x0 x1) := by
  unfold Node.writePointer
  try dsimp only
  with_reducible repeat' first
    | assumption
    | intro _
    | exact within_trans (by decide) hT
    | apply Node.updSec_reach
    | apply Node.setBoot_reach
    | apply Reach.ite
    | apply Reach.foldl
    | split

theorem Node.writeSteps_reach {ps : List Part} {n0 : Node} (x0 : Node) (x1 : Nat) (x2 : Nat) (x3 : List Byte) (hx0 : Reach ps n0 x0) (hT : within [.mem, .ram] ps = true) : Reach ps n0 (Node.writeSteps x0 x1 x2 x3) := by
  unfold Node.writeSteps
  try dsimp only
  with_reducible repeat' first
    | assumption
    | intro _
    | exact within_trans (by decide) hT
    | apply Node.write_reach
    | apply Reach.ite
    | apply Reach.foldl
    | split

theorem Node.yieldTo_reach {ps : List Part} {n0 : Node} (x0 : Node) (x1 : Nat) (hx0 : Reach ps n0 x0) (hT : within [.line, .rcd] ps = true) : Reach ps n0 (Node.yieldTo x0 x1) := by
  unfold Node.yieldTo
  try dsimp only
  with_reducible repeat' first
    | assumption
    | intro _
    | exact within_trans (by decide) hT
    | apply Node.log_reach
    | apply Node.updLine_reach
    | apply Reach.ite
    | apply Reach.foldl
    | split

theorem Node.zbEnter_reach {ps : List Part} {n0 : Node} (x0 : Node) (x1 : ZbSt) (hx0 : Reach ps n0 x0) (hT : within [.zb, .rcd] ps = true) : Reach ps n0 (Node.zbEnter x0 x1) := by
  unfold Node.zbEnter
  try dsimp only
  with_reducible repeat' first
    | assumption
    | intro _
    | exact within_trans (by decide) hT
    | apply Node.log_reach
    | apply Node.updZb_reach
    | apply Reach.ite
    | apply Reach.foldl
    | split

theorem Node.zbLane_reach {ps : List Part} {n0 : Node} (x0 : Node) (x1 : ZbFrame) (hx0 : Reach ps n0 x0) (hT : within [.rcp, .zb, .rcd] ps = true) : Reach ps n0 (Node.zbLane x0 x1) := by
  unfold Node.zbLane
  try dsimp only
  with_reducible repeat' first
    | assumption
    | intro _
    | exact within_trans (by decide) hT
    | apply Node.log_reach
    | apply Node.updZb_reach
    | apply Node.setFlag_reach
    | apply Reach.ite
    | apply Reach.foldl
    | split

theorem Node.zbLevel_reach {ps : List Part} {n0 : Node} (x0 : Node) (hx0 : Reach ps n0 x0) (hT : within [.zb, .rcd] ps = true) : Reach ps n0 (Node.zbLevel x0) := by
  unfold Node.zbLevel
  try dsimp only
  with_reducible repeat' first
    | assumption
    | intro _
    | exact within_trans (by decide) hT
    | apply Node.zbEnter_reach
    | apply Reach.ite
    | apply Reach.foldl
    | split

theorem Node.zbRing_reach {ps : List Part} {n0 : Node} (x0 : Node) (x1 : ZbFrame) (x2 : Nat) (hx0 : Reach ps n0 x0) (hT : within [.mem, .ram, .zb, .rcd] ps = true) : Reach ps n0 (Node.zbRing x0 x1 x2) := by
  unfold Node.zbRing
  try dsimp only
  with_reducible repeat' first
    | assumption
    | intro _
    | exact within_trans (by decide) hT
    | apply Node.updZb_reach
    | apply Node.log_reach
    | apply Node.write_reach
    | apply Reach.ite
    | apply Reach.foldl
    | split

theorem Node.zbReceive_reach {ps : List Part} {n0 : Node} (x0 : Node) (x1 : ZbFrame) (hx0 : Reach ps n0 x0) (hT : within [.mem, .ram, .host, .stalls, .cache, .rcp, .loops, .fio, .encs, .axes, .drives, .line, .zb, .cust, .lifts, .gates, .rcd, .safe, .hlth, .freeCtr] ps = true) : Reach ps n0 (Node.zbReceive x0 x1) := by
  unfold Node.zbReceive
  try dsimp only
  with_reducible repeat' first
    | assumption
    | intro _
    | exact within_trans (by decide) hT
    | apply Node.zbRing_reach
    | apply Node.zbLane_reach
    | apply Node.updZb_reach
    | apply Node.remoteTake_reach
    | apply Reach.ite
    | apply Reach.foldl
    | split

theorem Node.zbSet_reach {ps : List Part} {n0 : Node} (x0 : Node) (x1 : ZbSt) (hx0 : Reach ps n0 x0) (hT : within [.zb] ps = true) : Reach ps n0 (Node.zbSet x0 x1) := by
  unfold Node.zbSet
  try dsimp only
  with_reducible repeat' first
    | assumption
    | intro _
    | exact within_trans (by decide) hT
    | apply Node.updZb_reach
    | apply Reach.ite
    | apply Reach.foldl
    | split

theorem execActAdd_reach {ps : List Part} {n0 : Node} (i : Nat) (st nx : State) (hs : Reach ps n0 st.node) (hT : within [.mem, .ram, .host, .stalls, .cache, .rcp, .fio, .line, .time, .zb, .cust, .rcd, .freeCtr] ps = true) (h : execActAdd i st = .next nx) : Reach ps n0 nx.node := by
  unfold execActAdd at h
  refine Reach.ofRun h ?_
  try dsimp only
  with_reducible repeat' first
    | assumption
    | intro _
    | exact within_trans (by decide) hT
    | apply Node.valueAction_reach
    | apply Reach.ite
    | apply Reach.foldl
    | split

theorem execActAxisMove_reach {ps : List Part} {n0 : Node} (i : Nat) (st nx : State) (hs : Reach ps n0 st.node) (hT : within [.mem, .ram, .host, .rcp, .axes, .drives, .line, .time, .rcd, .freeCtr] ps = true) (h : execActAxisMove i st = .next nx) : Reach ps n0 nx.node := by
  unfold execActAxisMove at h
  refine Reach.ofRun h ?_
  try dsimp only
  with_reducible repeat' first
    | assumption
    | intro _
    | exact within_trans (by decide) hT
    | apply Node.carryOut_reach
    | apply Node.recipeMove_reach
    | apply Node.refuseAction_reach
    | refine Reach.ofSnd (by assumption) ?_
    | apply Reach.ite
    | apply Reach.foldl
    | split

theorem execActCancelTask_reach {ps : List Part} {n0 : Node} (i : Nat) (st nx : State) (hs : Reach ps n0 st.node) (hT : within [.mem, .ram, .host, .rcp, .line, .time, .rcd, .freeCtr] ps = true) (h : execActCancelTask i st = .next nx) : Reach ps n0 nx.node := by
  unfold execActCancelTask at h
  refine Reach.ofRun h ?_
  try dsimp only
  with_reducible repeat' first
    | assumption
    | intro _
    | exact within_trans (by decide) hT
    | apply Node.carryOut_reach
    | apply Node.cancelTask_reach
    | refine Reach.ofSnd (by assumption) ?_
    | apply Reach.ite
    | apply Reach.foldl
    | split

theorem execActChanStart_reach {ps : List Part} {n0 : Node} (i : Nat) (st nx : State) (hs : Reach ps n0 st.node) (hT : within [.mem, .ram, .host, .rcp, .line, .rcd, .freeCtr] ps = true) (h : execActChanStart i st = .next nx) : Reach ps n0 nx.node := by
  unfold execActChanStart at h
  refine Reach.ofRun h ?_
  try dsimp only
  with_reducible repeat' first
    | assumption
    | intro _
    | exact within_trans (by decide) hT
    | apply Node.postFw_reach
    | apply Reach.ite
    | apply Reach.foldl
    | split

theorem execActChanStop_reach {ps : List Part} {n0 : Node} (i : Nat) (st nx : State) (hs : Reach ps n0 st.node) (hT : within [.mem, .ram, .host, .rcp, .line, .rcd, .freeCtr] ps = true) (h : execActChanStop i st = .next nx) : Reach ps n0 nx.node := by
  unfold execActChanStop at h
  refine Reach.ofRun h ?_
  try dsimp only
  with_reducible repeat' first
    | assumption
    | intro _
    | exact within_trans (by decide) hT
    | apply Node.postFw_reach
    | apply Reach.ite
    | apply Reach.foldl
    | split

theorem execActCopy_reach {ps : List Part} {n0 : Node} (i : Nat) (st nx : State) (hs : Reach ps n0 st.node) (hT : within [.mem, .ram, .host, .stalls, .cache, .rcp, .fio, .line, .time, .zb, .cust, .rcd, .freeCtr] ps = true) (h : execActCopy i st = .next nx) : Reach ps n0 nx.node := by
  unfold execActCopy at h
  refine Reach.ofRun h ?_
  try dsimp only
  with_reducible repeat' first
    | assumption
    | intro _
    | exact within_trans (by decide) hT
    | apply Node.valueAction_reach
    | apply Reach.ite
    | apply Reach.foldl
    | split

theorem execActDjnz_reach {ps : List Part} {n0 : Node} (i : Nat) (st nx : State) (hs : Reach ps n0 st.node) (hT : within [.mem, .ram, .host, .rcp, .line, .time, .rcd, .freeCtr] ps = true) (h : execActDjnz i st = .next nx) : Reach ps n0 nx.node := by
  unfold execActDjnz at h
  refine Reach.ofRun h ?_
  try dsimp only
  with_reducible repeat' first
    | assumption
    | intro _
    | exact within_trans (by decide) hT
    | apply Node.carryOut_reach
    | apply Node.setReg_reach
    | apply Reach.ite
    | apply Reach.foldl
    | split

theorem execActEnd_reach {ps : List Part} {n0 : Node} (i : Nat) (st nx : State) (hs : Reach ps n0 st.node) (hT : within [.mem, .ram, .host, .rcp, .line, .time, .rcd, .freeCtr] ps = true) (h : execActEnd i st = .next nx) : Reach ps n0 nx.node := by
  unfold execActEnd at h
  refine Reach.ofRun h ?_
  try dsimp only
  with_reducible repeat' first
    | assumption
    | intro _
    | exact within_trans (by decide) hT
    | apply Node.carryOut_reach
    | apply Node.endInst_reach
    | apply Reach.ite
    | apply Reach.foldl
    | split

theorem execActHarvestMark_reach {ps : List Part} {n0 : Node} (i : Nat) (st nx : State) (hs : Reach ps n0 st.node) (hT : within [.mem, .ram, .host, .rcp, .line, .rcd, .freeCtr] ps = true) (h : execActHarvestMark i st = .next nx) : Reach ps n0 nx.node := by
  unfold execActHarvestMark at h
  refine Reach.ofRun h ?_
  try dsimp only
  with_reducible repeat' first
    | assumption
    | intro _
    | exact within_trans (by decide) hT
    | apply Node.postFw_reach
    | apply Reach.ite
    | apply Reach.foldl
    | split

theorem execActJump_reach {ps : List Part} {n0 : Node} (i : Nat) (st nx : State) (hs : Reach ps n0 st.node) (hT : within [.mem, .ram, .host, .rcp, .line, .time, .rcd, .freeCtr] ps = true) (h : execActJump i st = .next nx) : Reach ps n0 nx.node := by
  unfold execActJump at h
  refine Reach.ofRun h ?_
  try dsimp only
  with_reducible repeat' first
    | assumption
    | intro _
    | exact within_trans (by decide) hT
    | apply Node.carryOut_reach
    | apply Reach.ite
    | apply Reach.foldl
    | split

theorem execActNodeWrite_reach {ps : List Part} {n0 : Node} (i : Nat) (st nx : State) (hs : Reach ps n0 st.node) (hT : within [.mem, .ram, .host, .rcp, .line, .rcd, .freeCtr] ps = true) (h : execActNodeWrite i st = .next nx) : Reach ps n0 nx.node := by
  unfold execActNodeWrite at h
  refine Reach.ofRun h ?_
  try dsimp only
  with_reducible repeat' first
    | assumption
    | intro _
    | exact within_trans (by decide) hT
    | apply Node.postFw_reach
    | apply Reach.ite
    | apply Reach.foldl
    | split

theorem execActNop_reach {ps : List Part} {n0 : Node} (i : Nat) (st nx : State) (hs : Reach ps n0 st.node) (hT : within [.mem, .ram, .host, .rcp, .line, .time, .rcd, .freeCtr] ps = true) (h : execActNop i st = .next nx) : Reach ps n0 nx.node := by
  unfold execActNop at h
  refine Reach.ofRun h ?_
  try dsimp only
  with_reducible repeat' first
    | assumption
    | intro _
    | exact within_trans (by decide) hT
    | apply Node.carryOut_reach
    | apply Reach.ite
    | apply Reach.foldl
    | split

theorem execActPostTask_reach {ps : List Part} {n0 : Node} (i : Nat) (st nx : State) (hs : Reach ps n0 st.node) (hT : within [.mem, .ram, .host, .rcp, .line, .rcd, .freeCtr] ps = true) (h : execActPostTask i st = .next nx) : Reach ps n0 nx.node := by
  unfold execActPostTask at h
  refine Reach.ofRun h ?_
  try dsimp only
  with_reducible repeat' first
    | assumption
    | intro _
    | exact within_trans (by decide) hT
    | apply Node.postFw_reach
    | apply Reach.ite
    | apply Reach.foldl
    | split

theorem execActPulse_reach {ps : List Part} {n0 : Node} (i : Nat) (st nx : State) (hs : Reach ps n0 st.node) (hT : within [.mem, .ram, .host, .stalls, .cache, .rcp, .fio, .line, .time, .zb, .cust, .rcd, .freeCtr] ps = true) (h : execActPulse i st = .next nx) : Reach ps n0 nx.node := by
  unfold execActPulse at h
  refine Reach.ofRun h ?_
  try dsimp only
  with_reducible repeat' first
    | assumption
    | intro _
    | exact within_trans (by decide) hT
    | apply Node.carryOut_reach
    | apply Node.actWrite_reach
    | apply Node.issueEdge_reach
    | apply Reach.ite
    | apply Reach.foldl
    | split

theorem execActRegAdd_reach {ps : List Part} {n0 : Node} (i : Nat) (st nx : State) (hs : Reach ps n0 st.node) (hT : within [.mem, .ram, .host, .rcp, .line, .time, .rcd, .freeCtr] ps = true) (h : execActRegAdd i st = .next nx) : Reach ps n0 nx.node := by
  unfold execActRegAdd at h
  refine Reach.ofRun h ?_
  try dsimp only
  with_reducible repeat' first
    | assumption
    | intro _
    | exact within_trans (by decide) hT
    | apply Node.carryOut_reach
    | apply Node.setReg_reach
    | apply Reach.ite
    | apply Reach.foldl
    | split

theorem execActRegLoad_reach {ps : List Part} {n0 : Node} (i : Nat) (st nx : State) (hs : Reach ps n0 st.node) (hT : within [.mem, .ram, .host, .rcp, .line, .time, .rcd, .freeCtr] ps = true) (h : execActRegLoad i st = .next nx) : Reach ps n0 nx.node := by
  unfold execActRegLoad at h
  refine Reach.ofRun h ?_
  try dsimp only
  with_reducible repeat' first
    | assumption
    | intro _
    | exact within_trans (by decide) hT
    | apply Node.carryOut_reach
    | apply Node.setReg_reach
    | apply Reach.ite
    | apply Reach.foldl
    | split

theorem execActRegSet_reach {ps : List Part} {n0 : Node} (i : Nat) (st nx : State) (hs : Reach ps n0 st.node) (hT : within [.mem, .ram, .host, .rcp, .line, .time, .rcd, .freeCtr] ps = true) (h : execActRegSet i st = .next nx) : Reach ps n0 nx.node := by
  unfold execActRegSet at h
  refine Reach.ofRun h ?_
  try dsimp only
  with_reducible repeat' first
    | assumption
    | intro _
    | exact within_trans (by decide) hT
    | apply Node.carryOut_reach
    | apply Node.setReg_reach
    | apply Reach.ite
    | apply Reach.foldl
    | split

theorem execActRegStore_reach {ps : List Part} {n0 : Node} (i : Nat) (st nx : State) (hs : Reach ps n0 st.node) (hT : within [.mem, .ram, .host, .stalls, .cache, .rcp, .fio, .line, .time, .zb, .cust, .rcd, .freeCtr] ps = true) (h : execActRegStore i st = .next nx) : Reach ps n0 nx.node := by
  unfold execActRegStore at h
  refine Reach.ofRun h ?_
  try dsimp only
  with_reducible repeat' first
    | assumption
    | intro _
    | exact within_trans (by decide) hT
    | apply Node.valueAction_reach
    | apply Reach.ite
    | apply Reach.foldl
    | split

theorem execActSet_reach {ps : List Part} {n0 : Node} (i : Nat) (st nx : State) (hs : Reach ps n0 st.node) (hT : within [.mem, .ram, .host, .stalls, .cache, .rcp, .fio, .line, .time, .zb, .cust, .rcd, .freeCtr] ps = true) (h : execActSet i st = .next nx) : Reach ps n0 nx.node := by
  unfold execActSet at h
  refine Reach.ofRun h ?_
  try dsimp only
  with_reducible repeat' first
    | assumption
    | intro _
    | exact within_trans (by decide) hT
    | apply Node.valueAction_reach
    | apply Reach.ite
    | apply Reach.foldl
    | split

theorem execActSignal_reach {ps : List Part} {n0 : Node} (i : Nat) (st nx : State) (hs : Reach ps n0 st.node) (hT : within [.mem, .ram, .host, .rcp, .line, .time, .rcd, .freeCtr] ps = true) (h : execActSignal i st = .next nx) : Reach ps n0 nx.node := by
  unfold execActSignal at h
  refine Reach.ofRun h ?_
  try dsimp only
  with_reducible repeat' first
    | assumption
    | intro _
    | exact within_trans (by decide) hT
    | apply Node.carryOut_reach
    | apply Node.setFlag_reach
    | apply Reach.ite
    | apply Reach.foldl
    | split

theorem execActStartRecipe_reach {ps : List Part} {n0 : Node} (i : Nat) (st nx : State) (hs : Reach ps n0 st.node) (hT : within [.mem, .ram, .host, .rcp, .line, .time, .rcd, .freeCtr] ps = true) (h : execActStartRecipe i st = .next nx) : Reach ps n0 nx.node := by
  unfold execActStartRecipe at h
  refine Reach.ofRun h ?_
  try dsimp only
  with_reducible repeat' first
    | assumption
    | intro _
    | exact within_trans (by decide) hT
    | apply Node.carryOut_reach
    | apply Node.refuseAction_reach
    | apply Node.startInst_reach
    | apply Reach.ite
    | apply Reach.foldl
    | split

theorem execActStopRecipe_reach {ps : List Part} {n0 : Node} (i : Nat) (st nx : State) (hs : Reach ps n0 st.node) (hT : within [.mem, .ram, .host, .rcp, .line, .time, .rcd, .freeCtr] ps = true) (h : execActStopRecipe i st = .next nx) : Reach ps n0 nx.node := by
  unfold execActStopRecipe at h
  refine Reach.ofRun h ?_
  try dsimp only
  with_reducible repeat' first
    | assumption
    | intro _
    | exact within_trans (by decide) hT
    | apply Node.carryOut_reach
    | apply Node.endInst_reach
    | apply Node.refuseAction_reach
    | apply Node.updInst_reach
    | apply Reach.ite
    | apply Reach.foldl
    | split

theorem execActToggle_reach {ps : List Part} {n0 : Node} (i : Nat) (st nx : State) (hs : Reach ps n0 st.node) (hT : within [.mem, .ram, .host, .stalls, .cache, .rcp, .fio, .line, .time, .zb, .cust, .rcd, .freeCtr] ps = true) (h : execActToggle i st = .next nx) : Reach ps n0 nx.node := by
  unfold execActToggle at h
  refine Reach.ofRun h ?_
  try dsimp only
  with_reducible repeat' first
    | assumption
    | intro _
    | exact within_trans (by decide) hT
    | apply Node.valueAction_reach
    | apply Reach.ite
    | apply Reach.foldl
    | split

theorem execActUnsignal_reach {ps : List Part} {n0 : Node} (i : Nat) (st nx : State) (hs : Reach ps n0 st.node) (hT : within [.mem, .ram, .host, .rcp, .line, .time, .rcd, .freeCtr] ps = true) (h : execActUnsignal i st = .next nx) : Reach ps n0 nx.node := by
  unfold execActUnsignal at h
  refine Reach.ofRun h ?_
  try dsimp only
  with_reducible repeat' first
    | assumption
    | intro _
    | exact within_trans (by decide) hT
    | apply Node.carryOut_reach
    | apply Node.setFlag_reach
    | apply Reach.ite
    | apply Reach.foldl
    | split

theorem execActionIssue_reach {ps : List Part} {n0 : Node} (i : Nat) (st nx : State) (hs : Reach ps n0 st.node) (hT : within [.mem, .ram, .host, .stalls, .cache, .rcp, .line, .rcd, .freeCtr] ps = true) (h : execActionIssue i st = .next nx) : Reach ps n0 nx.node := by
  unfold execActionIssue at h
  refine Reach.ofRun h ?_
  try dsimp only
  with_reducible repeat' first
    | assumption
    | intro _
    | exact within_trans (by decide) hT
    | apply Node.withStep_reach
    | apply Node.issue_reach
    | apply Node.setInst_reach
    | apply Node.issueEdge_reach
    | apply Reach.ite
    | apply Reach.foldl
    | split

theorem execAdcFrame_reach {ps : List Part} {n0 : Node} (st nx : State) (hs : Reach ps n0 st.node) (hT : within [.mem, .ram, .adc, .time, .rcd] ps = true) (h : execAdcFrame st = .next nx) : Reach ps n0 nx.node := by
  unfold execAdcFrame at h
  refine Reach.ofRun h ?_
  try dsimp only
  with_reducible repeat' first
    | assumption
    | intro _
    | exact within_trans (by decide) hT
    | apply Node.upTo_reach
    | apply Node.dropFrame_reach
    | apply Node.log_reach
    | apply Node.updAdc_reach
    | apply Reach.ite
    | apply Reach.foldl
    | split

theorem execAdcListApply_reach {ps : List Part} {n0 : Node} (st nx : State) (hs : Reach ps n0 st.node) (hT : within [.mem, .ram, .adc, .time] ps = true) (h : execAdcListApply st = .next nx) : Reach ps n0 nx.node := by
  unfold execAdcListApply at h
  refine Reach.ofRun h ?_
  try dsimp only
  with_reducible repeat' first
    | assumption
    | intro _
    | exact within_trans (by decide) hT
    | apply Node.updAdc_reach
    | apply Node.upTo_reach
    | apply Node.initRing_reach
    | apply Reach.ite
    | apply Reach.foldl
    | split

theorem execAdcSelfCheck_reach {ps : List Part} {n0 : Node} (conv : Nat) (agndV : Int) (refV : Int) (st nx : State) (hs : Reach ps n0 st.node) (hT : within [.mem, .ram, .host, .stalls, .cache, .loops, .fio, .adc, .encs, .axes, .drives, .line, .time, .zb, .cust, .lifts, .gates, .rcd, .safe, .hlth, .freeCtr] ps = true) (h : execAdcSelfCheck conv agndV refV st = .next nx) : Reach ps n0 nx.node := by
  unfold execAdcSelfCheck at h
  refine Reach.ofRun h ?_
  try dsimp only
  with_reducible repeat' first
    | assumption
    | intro _
    | exact within_trans (by decide) hT
    | apply Node.updAdc_reach
    | apply Node.upTo_reach
    | apply Node.log_reach
    | apply Node.checkAnalog_reach
    | apply Reach.ite
    | apply Reach.foldl
    | split

theorem execAdcSlotResult_reach {ps : List Part} {n0 : Node} (slot : Nat) (nV : List Int) (nK : List Int) (nA : List Int) (st nx : State) (hs : Reach ps n0 st.node) (hT : within [.mem, .ram, .stalls, .cache, .adc, .time, .cust, .rcd] ps = true) (h : execAdcSlotResult slot nV nK nA st = .next nx) : Reach ps n0 nx.node := by
  unfold execAdcSlotResult at h
  refine Reach.ofRun h ?_
  try dsimp only
  with_reducible repeat' first
    | assumption
    | intro _
    | exact within_trans (by decide) hT
    | apply Node.upTo_reach
    | apply Node.slotToStall_reach
    | apply Node.updAdc_reach
    | apply Node.ringWrite_reach
    | apply Reach.ite
    | apply Reach.foldl
    | split

theorem execAddrAssign_reach {ps : List Part} {n0 : Node} (serial : Nat) (address : Nat) (st nx : State) (hs : Reach ps n0 st.node) (hT : within [.line, .rcd, .glean, .sec, .freeCtr] ps = true) (h : execAddrAssign serial address st = .next nx) : Reach ps n0 nx.node := by
  unfold execAddrAssign at h
  refine Reach.ofRun h ?_
  try dsimp only
  with_reducible repeat' first
    | assumption
    | intro _
    | exact within_trans (by decide) hT
    | apply Node.raise_reach
    | apply Node.log_reach
    | apply Node.updLine_reach
    | apply Node.report_reach
    | apply Node.storeCfg_reach
    | apply Reach.ite
    | apply Reach.foldl
    | split

theorem execAddrRequest_reach {ps : List Part} {n0 : Node} (serial : Nat) (st nx : State) (hs : Reach ps n0 st.node) (hT : within [.line, .freeCtr] ps = true) (h : execAddrRequest serial st = .next nx) : Reach ps n0 nx.node := by
  unfold execAddrRequest at h
  refine Reach.ofRun h ?_
  try dsimp only
  with_reducible repeat' first
    | assumption
    | intro _
    | exact within_trans (by decide) hT
    | apply Node.send_reach
    | apply Node.updLine_reach
    | apply Reach.ite
    | apply Reach.foldl
    | split

theorem execAnnounce_reach {ps : List Part} {n0 : Node} (p : Nat) (gm : Nat) (steps : Nat) (utc : Int) (st nx : State) (hs : Reach ps n0 st.node) (hT : within [.line, .time] ps = true) (h : execAnnounce p gm steps utc st = .next nx) : Reach ps n0 nx.node := by
  unfold execAnnounce at h
  refine Reach.ofRun h ?_
  try dsimp only
  with_reducible repeat' first
    | assumption
    | intro _
    | exact within_trans (by decide) hT
    | apply Node.updTime_reach
    | apply Node.relay_reach
    | apply Node.sendAnnounce_reach
    | apply Reach.ite
    | apply Reach.foldl
    | split

theorem execAttest_reach {ps : List Part} {n0 : Node} (path : Nat) (idx : Nat) (st nx : State) (hs : Reach ps n0 st.node) (hT : within [.mem, .ram, .host, .line, .rcd, .hlth, .freeCtr] ps = true) (h : execAttest path idx st = .next nx) : Reach ps n0 nx.node := by
  unfold execAttest at h
  refine Reach.ofRun h ?_
  try dsimp only
  with_reducible repeat' first
    | assumption
    | intro _
    | exact within_trans (by decide) hT
    | apply Node.hostCmd_reach
    | apply Node.checked_reach
    | apply Node.degraded_reach
    | apply Node.freeScalar_reach
    | apply Node.ok_reach
    | refine Reach.ofSnd (by assumption) ?_
    | apply Reach.ite
    | apply Reach.foldl
    | split

theorem execAxisMove_reach {ps : List Part} {n0 : Node} (path : Nat) (idx : Nat) (st nx : State) (hs : Reach ps n0 st.node) (hT : within [.mem, .ram, .host, .axes, .drives, .line, .time, .rcd, .freeCtr] ps = true) (h : execAxisMove path idx st = .next nx) : Reach ps n0 nx.node := by
  unfold execAxisMove at h
  refine Reach.ofRun h ?_
  try dsimp only
  with_reducible repeat' first
    | assumption
    | intro _
    | exact within_trans (by decide) hT
    | apply Node.hostCmd_reach
    | apply Node.checked_reach
    | apply Node.moveNow_reach
    | apply Node.axisMotion_reach
    | apply Node.upTo_reach
    | apply Node.ok_reach
    | apply Node.updAxis_reach
    | refine Reach.ofSnd (by assumption) ?_
    | apply Reach.ite
    | apply Reach.foldl
    | split

theorem execAxisStatus_reach {ps : List Part} {n0 : Node} (path : Nat) (idx : Nat) (st nx : State) (hs : Reach ps n0 st.node) (hT : within [.mem, .ram, .host, .line, .rcd, .freeCtr] ps = true) (h : execAxisStatus path idx st = .next nx) : Reach ps n0 nx.node := by
  unfold execAxisStatus at h
  refine Reach.ofRun h ?_
  try dsimp only
  with_reducible repeat' first
    | assumption
    | intro _
    | exact within_trans (by decide) hT
    | apply Node.hostCmd_reach
    | apply Node.checked_reach
    | apply Node.ok_reach
    | apply Reach.ite
    | apply Reach.foldl
    | split

theorem execAxisStop_reach {ps : List Part} {n0 : Node} (path : Nat) (idx : Nat) (st nx : State) (hs : Reach ps n0 st.node) (hT : within [.mem, .ram, .host, .axes, .drives, .line, .time, .rcd, .freeCtr] ps = true) (h : execAxisStop path idx st = .next nx) : Reach ps n0 nx.node := by
  unfold execAxisStop at h
  refine Reach.ofRun h ?_
  try dsimp only
  with_reducible repeat' first
    | assumption
    | intro _
    | exact within_trans (by decide) hT
    | apply Node.hostCmd_reach
    | apply Node.checked_reach
    | apply Node.updAxis_reach
    | apply Node.stopNow_reach
    | apply Node.axisMotion_reach
    | apply Node.upTo_reach
    | apply Reach.ite
    | apply Reach.foldl
    | split

theorem execBlockEraseDone_reach {ps : List Part} {n0 : Node} (b : Nat) (st nx : State) (hs : Reach ps n0 st.node) (hT : within [.rcd, .hlth] ps = true) (h : execBlockEraseDone b st = .next nx) : Reach ps n0 nx.node := by
  unfold execBlockEraseDone at h
  refine Reach.ofRun h ?_
  try dsimp only
  with_reducible repeat' first
    | assumption
    | intro _
    | exact within_trans (by decide) hT
    | apply Node.eraseDone_reach
    | apply Reach.ite
    | apply Reach.foldl
    | split

theorem execBootSiloSelect_reach {ps : List Part} {n0 : Node} (st nx : State) (hs : Reach ps n0 st.node) (hT : within [.isl, .power, .stored, .rcp, .cust, .rcd, .sec, .hlth, .freeCtr] ps = true) (h : execBootSiloSelect st = .next nx) : Reach ps n0 nx.node := by
  unfold execBootSiloSelect at h
  refine Reach.ofRun h ?_
  try dsimp only
  with_reducible repeat' first
    | assumption
    | intro _
    | exact within_trans (by decide) hT
    | apply Node.updIsland_reach
    | apply Node.slotScan_reach
    | apply Node.updPower_reach
    | apply Node.bootFrom_reach
    | apply Node.bootFails_reach
    | apply Reach.ite
    | apply Reach.foldl
    | split

theorem execBridgeOvercurrent_reach {ps : List Part} {n0 : Node} (a : Nat) (st nx : State) (hs : Reach ps n0 st.node) (hT : within [.mem, .ram, .host, .stalls, .cache, .loops, .fio, .encs, .axes, .drives, .line, .zb, .cust, .lifts, .gates, .rcd, .hlth, .freeCtr] ps = true) (h : execBridgeOvercurrent a st = .next nx) : Reach ps n0 nx.node := by
  unfold execBridgeOvercurrent at h
  refine Reach.ofRun h ?_
  try dsimp only
  with_reducible repeat' first
    | assumption
    | intro _
    | exact within_trans (by decide) hT
    | apply Node.transientFault_reach
    | apply Node.coilsOff_reach
    | apply Reach.ite
    | apply Reach.foldl
    | split

theorem execBulk_reach {ps : List Part} {n0 : Node} (src : Nat) (payload : List Nat) (st nx : State) (hs : Reach ps n0 st.node) (hT : within [.glean, .sec] ps = true) (h : execBulk src payload st = .next nx) : Reach ps n0 nx.node := by
  unfold execBulk at h
  refine Reach.ofRun h ?_
  try dsimp only
  with_reducible repeat' first
    | assumption
    | intro _
    | exact within_trans (by decide) hT
    | apply Node.raise_reach
    | apply Node.setSilo_reach
    | apply Reach.ite
    | apply Reach.foldl
    | split

theorem execBypassOpen_reach {ps : List Part} {n0 : Node} (st nx : State) (hs : Reach ps n0 st.node) (hT : within [.power, .line, .rcd, .glean] ps = true) (h : execBypassOpen st = .next nx) : Reach ps n0 nx.node := by
  unfold execBypassOpen at h
  refine Reach.ofRun h ?_
  try dsimp only
  with_reducible repeat' first
    | assumption
    | intro _
    | exact within_trans (by decide) hT
    | apply Node.updPower_reach
    | apply Node.raise_reach
    | apply Node.log_reach
    | apply Node.updPort_reach
    | apply Reach.ite
    | apply Reach.foldl
    | split

theorem execCacheMissFill_reach {ps : List Part} {n0 : Node} (k : Nat) (st nx : State) (hs : Reach ps n0 st.node) (hT : within [.stalls, .cache] ps = true) (h : execCacheMissFill k st = .next nx) : Reach ps n0 nx.node := by
  unfold execCacheMissFill at h
  refine Reach.ofRun h ?_
  try dsimp only
  with_reducible repeat' first
    | assumption
    | intro _
    | exact within_trans (by decide) hT
    | apply Node.fill_reach
    | apply Reach.ite
    | apply Reach.foldl
    | split

theorem execCalibrationDone_reach {ps : List Part} {n0 : Node} (i : Nat) (ok : Bool) (ports : List Nat) (st nx : State) (hs : Reach ps n0 st.node) (hT : within [.isl, .mem, .ram, .power, .host, .stalls, .cache, .rcp, .loops, .fio, .adc, .encs, .axes, .drives, .line, .time, .zb, .cust, .lifts, .gates, .harv, .rcd, .safe, .glean, .hlth, .freeCtr] ps = true) (h : execCalibrationDone i ok ports st = .next nx) : Reach ps n0 nx.node := by
  unfold execCalibrationDone at h
  refine Reach.ofRun h ?_
  try dsimp only
  with_reducible repeat' first
    | assumption
    | intro _
    | exact within_trans (by decide) hT
    | apply Node.islandRuns_reach
    | apply Node.updIsland_reach
    | apply Node.islandLog_reach
    | apply Node.islandFails_reach
    | apply Node.retirePort_reach
    | apply Node.calibrationFailed_reach
    | apply Reach.ite
    | apply Reach.foldl
    | split

theorem execCbusEdge_reach {ps : List Part} {n0 : Node} (stamp : Nat) (full : Bool) (st nx : State) (hs : Reach ps n0 st.node) (hT : within [.stalls, .cache, .time, .harv, .rcd, .freeCtr] ps = true) (h : execCbusEdge stamp full st = .next nx) : Reach ps n0 nx.node := by
  unfold execCbusEdge at h
  refine Reach.ofRun h ?_
  try dsimp only
  with_reducible repeat' first
    | assumption
    | intro _
    | exact within_trans (by decide) hT
    | apply Node.upTo_reach
    | apply Node.log_reach
    | apply Node.updHarv_reach
    | apply Node.applyList_reach
    | apply Node.takeSample_reach
    | apply Reach.ite
    | apply Reach.foldl
    | split

theorem execCbusPulse_reach {ps : List Part} {n0 : Node} (low : Bool) (st nx : State) (hs : Reach ps n0 st.node) (hT : within [.time, .harv] ps = true) (h : execCbusPulse low st = .next nx) : Reach ps n0 nx.node := by
  unfold execCbusPulse at h
  refine Reach.ofRun h ?_
  try dsimp only
  with_reducible repeat' first
    | assumption
    | intro _
    | exact within_trans (by decide) hT
    | apply Node.updHarv_reach
    | apply Node.upTo_reach
    | apply Reach.ite
    | apply Reach.foldl
    | split

theorem execCertRead_reach {ps : List Part} {n0 : Node} (path : Nat) (idx : Nat) (st nx : State) (hs : Reach ps n0 st.node) (hT : within [.mem, .ram, .host, .line, .rcd, .freeCtr] ps = true) (h : execCertRead path idx st = .next nx) : Reach ps n0 nx.node := by
  unfold execCertRead at h
  refine Reach.ofRun h ?_
  try dsimp only
  with_reducible repeat' first
    | assumption
    | intro _
    | exact within_trans (by decide) hT
    | apply Node.hostCmd_reach
    | apply Node.checked_reach
    | apply Node.ok_reach
    | apply Reach.ite
    | apply Reach.foldl
    | split

theorem execChanPermanentFault_reach {ps : List Part} {n0 : Node} (k : Nat) (cause : Nat) (st nx : State) (hs : Reach ps n0 st.node) (hT : within [.mem, .ram, .host, .stalls, .cache, .loops, .fio, .encs, .axes, .drives, .line, .zb, .cust, .lifts, .gates, .rcd, .hlth, .freeCtr] ps = true) (h : execChanPermanentFault k cause st = .next nx) : Reach ps n0 nx.node := by
  unfold execChanPermanentFault at h
  refine Reach.ofRun h ?_
  try dsimp only
  with_reducible repeat' first
    | assumption
    | intro _
    | exact within_trans (by decide) hT
    | apply Node.permanentFault_reach
    | apply Reach.ite
    | apply Reach.foldl
    | split

theorem execChanRead_reach {ps : List Part} {n0 : Node} (path : Nat) (idx : Nat) (st nx : State) (hs : Reach ps n0 st.node) (hT : within [.mem, .ram, .host, .cache, .line, .rcd, .freeCtr] ps = true) (h : execChanRead path idx st = .next nx) : Reach ps n0 nx.node := by
  unfold execChanRead at h
  refine Reach.ofRun h ?_
  try dsimp only
  with_reducible repeat' first
    | assumption
    | intro _
    | exact within_trans (by decide) hT
    | apply Node.hostCmd_reach
    | apply Node.checked_reach
    | apply Node.ok_reach
    | apply Node.touch_reach
    | apply Reach.ite
    | apply Reach.foldl
    | split

theorem execChanRetry_reach {ps : List Part} {n0 : Node} (k : Nat) (ok : Bool) (st nx : State) (hs : Reach ps n0 st.node) (hT : within [.mem, .ram, .host, .stalls, .cache, .loops, .fio, .encs, .axes, .drives, .line, .time, .zb, .cust, .lifts, .gates, .rcd, .safe, .hlth, .freeCtr] ps = true) (h : execChanRetry k ok st = .next nx) : Reach ps n0 nx.node := by
  unfold execChanRetry at h
  refine Reach.ofRun h ?_
  try dsimp only
  with_reducible repeat' first
    | assumption
    | intro _
    | exact within_trans (by decide) hT
    | apply Node.retry_reach
    | apply Reach.ite
    | apply Reach.foldl
    | split

theorem execChanStart_reach {ps : List Part} {n0 : Node} (path : Nat) (idx : Nat) (st nx : State) (hs : Reach ps n0 st.node) (hT : within [.mem, .ram, .host, .stalls, .cache, .loops, .fio, .adc, .encs, .axes, .drives, .line, .zb, .cust, .lifts, .gates, .rcd, .freeCtr] ps = true) (h : execChanStart path idx st = .next nx) : Reach ps n0 nx.node := by
  unfold execChanStart at h
  refine Reach.ofRun h ?_
  try dsimp only
  with_reducible repeat' first
    | assumption
    | intro _
    | exact within_trans (by decide) hT
    | apply Node.hostCmd_reach
    | apply Node.checked_reach
    | apply Node.tryStart_reach
    | apply Node.answer_reach
    | apply Node.ok_reach
    | refine Reach.ofSnd (by assumption) ?_
    | apply Reach.ite
    | apply Reach.foldl
    | split

theorem execChanStop_reach {ps : List Part} {n0 : Node} (path : Nat) (idx : Nat) (st nx : State) (hs : Reach ps n0 st.node) (hT : within [.mem, .ram, .host, .stalls, .cache, .fio, .encs, .axes, .drives, .line, .zb, .cust, .lifts, .gates, .rcd, .freeCtr] ps = true) (h : execChanStop path idx st = .next nx) : Reach ps n0 nx.node := by
  unfold execChanStop at h
  refine Reach.ofRun h ?_
  try dsimp only
  with_reducible repeat' first
    | assumption
    | intro _
    | exact within_trans (by decide) hT
    | apply Node.hostCmd_reach
    | apply Node.checked_reach
    | apply Node.stopChan_reach
    | apply Node.ok_reach
    | apply Reach.ite
    | apply Reach.foldl
    | split

theorem execChanTransientFault_reach {ps : List Part} {n0 : Node} (k : Nat) (cause : Nat) (st nx : State) (hs : Reach ps n0 st.node) (hT : within [.mem, .ram, .host, .stalls, .cache, .loops, .fio, .encs, .axes, .drives, .line, .zb, .cust, .lifts, .gates, .rcd, .hlth, .freeCtr] ps = true) (h : execChanTransientFault k cause st = .next nx) : Reach ps n0 nx.node := by
  unfold execChanTransientFault at h
  refine Reach.ofRun h ?_
  try dsimp only
  with_reducible repeat' first
    | assumption
    | intro _
    | exact within_trans (by decide) hT
    | apply Node.transientFault_reach
    | apply Reach.ite
    | apply Reach.foldl
    | split

theorem execChanWrite_reach {ps : List Part} {n0 : Node} (path : Nat) (idx : Nat) (st nx : State) (hs : Reach ps n0 st.node) (hT : within [.mem, .ram, .host, .stalls, .cache, .fio, .line, .zb, .cust, .rcd, .freeCtr] ps = true) (h : execChanWrite path idx st = .next nx) : Reach ps n0 nx.node := by
  unfold execChanWrite at h
  refine Reach.ofRun h ?_
  try dsimp only
  with_reducible repeat' first
    | assumption
    | intro _
    | exact within_trans (by decide) hT
    | apply Node.hostCmd_reach
    | apply Node.checked_reach
    | apply Node.ok_reach
    | apply Node.engineWrite_reach
    | apply Node.touch_reach
    | apply Node.setStall_reach
    | apply Reach.ite
    | apply Reach.foldl
    | split

theorem execCheckpointDurable_reach {ps : List Part} {n0 : Node} (st nx : State) (hs : Reach ps n0 st.node) (hT : within [.line, .cust, .freeCtr] ps = true) (h : execCheckpointDurable st = .next nx) : Reach ps n0 nx.node := by
  unfold execCheckpointDurable at h
  refine Reach.ofRun h ?_
  try dsimp only
  with_reducible repeat' first
    | assumption
    | intro _
    | exact within_trans (by decide) hT
    | apply Node.updCust_reach
    | apply Node.mirrorAgain_reach
    | apply Node.custSend_reach
    | apply Reach.ite
    | apply Reach.foldl
    | split

theorem execCheckpointPeriod_reach {ps : List Part} {n0 : Node} (st nx : State) (hs : Reach ps n0 st.node) (hT : within [.time, .cust, .rcd] ps = true) (h : execCheckpointPeriod st = .next nx) : Reach ps n0 nx.node := by
  unfold execCheckpointPeriod at h
  refine Reach.ofRun h ?_
  try dsimp only
  with_reducible repeat' first
    | assumption
    | intro _
    | exact within_trans (by decide) hT
    | apply Node.upTo_reach
    | apply Node.startCheckpoint_reach
    | apply Node.updCust_reach
    | apply Reach.ite
    | apply Reach.foldl
    | split

theorem execChopperBlankEnd_reach {ps : List Part} {n0 : Node} (a : Nat) (p : Nat) (st nx : State) (hs : Reach ps n0 st.node) (hT : within [.drives, .time] ps = true) (h : execChopperBlankEnd a p st = .next nx) : Reach ps n0 nx.node := by
  unfold execChopperBlankEnd at h
  refine Reach.ofRun h ?_
  try dsimp only
  with_reducible repeat' first
    | assumption
    | intro _
    | exact within_trans (by decide) hT
    | apply Node.chopStep_reach
    | apply Node.upTo_reach
    | apply Reach.ite
    | apply Reach.foldl
    | split

theorem execChopperForcedOff_reach {ps : List Part} {n0 : Node} (a : Nat) (p : Nat) (peak : Nat) (st nx : State) (hs : Reach ps n0 st.node) (hT : within [.drives, .time] ps = true) (h : execChopperForcedOff a p peak st = .next nx) : Reach ps n0 nx.node := by
  unfold execChopperForcedOff at h
  refine Reach.ofRun h ?_
  try dsimp only
  with_reducible repeat' first
    | assumption
    | intro _
    | exact within_trans (by decide) hT
    | apply Node.chopStep_reach
    | apply Node.upTo_reach
    | apply Reach.ite
    | apply Reach.foldl
    | split

theorem execChopperOffEnd_reach {ps : List Part} {n0 : Node} (a : Nat) (p : Nat) (st nx : State) (hs : Reach ps n0 st.node) (hT : within [.drives, .time] ps = true) (h : execChopperOffEnd a p st = .next nx) : Reach ps n0 nx.node := by
  unfold execChopperOffEnd at h
  refine Reach.ofRun h ?_
  try dsimp only
  with_reducible repeat' first
    | assumption
    | intro _
    | exact within_trans (by decide) hT
    | apply Node.chopStep_reach
    | apply Node.upTo_reach
    | apply Reach.ite
    | apply Reach.foldl
    | split

theorem execChopperSlowDecay_reach {ps : List Part} {n0 : Node} (a : Nat) (p : Nat) (st nx : State) (hs : Reach ps n0 st.node) (hT : within [.drives, .time] ps = true) (h : execChopperSlowDecay a p st = .next nx) : Reach ps n0 nx.node := by
  unfold execChopperSlowDecay at h
  refine Reach.ofRun h ?_
  try dsimp only
  with_reducible repeat' first
    | assumption
    | intro _
    | exact within_trans (by decide) hT
    | apply Node.chopStep_reach
    | apply Node.upTo_reach
    | apply Reach.ite
    | apply Reach.foldl
    | split

theorem execChopperTrip_reach {ps : List Part} {n0 : Node} (a : Nat) (p : Nat) (code : Nat) (st nx : State) (hs : Reach ps n0 st.node) (hT : within [.drives] ps = true) (h : execChopperTrip a p code st = .next nx) : Reach ps n0 nx.node := by
  unfold execChopperTrip at h
  refine Reach.ofRun h ?_
  try dsimp only
  with_reducible repeat' first
    | assumption
    | intro _
    | exact within_trans (by decide) hT
    | apply Node.chopStep_reach
    | apply Reach.ite
    | apply Reach.foldl
    | split

theorem execCkptNote_reach {ps : List Part} {n0 : Node} (p : Nat) (durable : Nat) (st nx : State) (hs : Reach ps n0 st.node) (hT : within [.line, .cust, .rcd, .glean, .freeCtr] ps = true) (h : execCkptNote p durable st = .next nx) : Reach ps n0 nx.node := by
  unfold execCkptNote at h
  refine Reach.ofRun h ?_
  try dsimp only
  with_reducible repeat' first
    | assumption
    | intro _
    | exact within_trans (by decide) hT
    | apply Node.custIn_reach
    | apply Node.updCust_reach
    | apply Node.retryCommits_reach
    | apply Reach.ite
    | apply Reach.foldl
    | split

theorem execClockLockLost_reach {ps : List Part} {n0 : Node} (at_ : Nat × Nat) (st nx : State) (hs : Reach ps n0 st.node) (hT : within [.isl, .mem, .ram, .host, .stalls, .cache, .rcp, .loops, .fio, .adc, .encs, .axes, .drives, .line, .zb, .cust, .lifts, .gates, .harv, .rcd, .safe, .sec, .hlth, .freeCtr] ps = true) (h : execClockLockLost at_ st = .next nx) : Reach ps n0 nx.node := by
  unfold execClockLockLost at h
  refine Reach.ofRun h ?_
  try dsimp only
  with_reducible repeat' first
    | assumption
    | intro _
    | exact within_trans (by decide) hT
    | apply Node.logFree_reach
    | apply Node.updIsland_reach
    | apply Node.islDown_reach
    | apply Reach.ite
    | apply Reach.foldl
    | split

theorem execCoilIdleTimeout_reach {ps : List Part} {n0 : Node} (a : Nat) (st nx : State) (hs : Reach ps n0 st.node) (hT : within [.axes, .drives, .time, .rcd] ps = true) (h : execCoilIdleTimeout a st = .next nx) : Reach ps n0 nx.node := by
  unfold execCoilIdleTimeout at h
  refine Reach.ofRun h ?_
  try dsimp only
  with_reducible repeat' first
    | assumption
    | intro _
    | exact within_trans (by decide) hT
    | apply Node.upTo_reach
    | apply Node.setDrv_reach
    | apply Node.log_reach
    | apply Node.updAxis_reach
    | apply Reach.ite
    | apply Reach.foldl
    | split

theorem execCommitAck_reach {ps : List Part} {n0 : Node} (p : Nat) (parcel : Nat) (version : Nat) (st nx : State) (hs : Reach ps n0 st.node) (hT : within [.cust, .glean] ps = true) (h : execCommitAck p parcel version st = .next nx) : Reach ps n0 nx.node := by
  unfold execCommitAck at h
  refine Reach.ofRun h ?_
  try dsimp only
  with_reducible repeat' first
    | assumption
    | intro _
    | exact within_trans (by decide) hT
    | apply Node.custIn_reach
    | apply Node.updCust_reach
    | apply Reach.ite
    | apply Reach.foldl
    | split

theorem execCommitWaitTimeout_reach {ps : List Part} {n0 : Node} (parcel : Nat) (st nx : State) (hs : Reach ps n0 st.node) (hT : within [.line, .time, .cust, .freeCtr] ps = true) (h : execCommitWaitTimeout parcel st = .next nx) : Reach ps n0 nx.node := by
  unfold execCommitWaitTimeout at h
  refine Reach.ofRun h ?_
  try dsimp only
  with_reducible repeat' first
    | assumption
    | intro _
    | exact within_trans (by decide) hT
    | apply Node.await_reach
    | apply Node.custNote_reach
    | apply Node.upTo_reach
    | apply Reach.ite
    | apply Reach.foldl
    | split

theorem execComparatorDisagree_reach {ps : List Part} {n0 : Node} (i : Nat) (st nx : State) (hs : Reach ps n0 st.node) (hT : within [.mem, .ram, .host, .stalls, .cache, .loops, .fio, .encs, .axes, .drives, .line, .zb, .cust, .lifts, .gates, .rcd, .hlth, .freeCtr] ps = true) (h : execComparatorDisagree i st = .next nx) : Reach ps n0 nx.node := by
  unfold execComparatorDisagree at h
  refine Reach.ofRun h ?_
  try dsimp only
  with_reducible repeat' first
    | assumption
    | intro _
    | exact within_trans (by decide) hT
    | apply Node.transientFault_reach
    | apply Reach.ite
    | apply Reach.foldl
    | split

theorem execComparePulseEnd_reach {ps : List Part} {n0 : Node} (o : Nat) (st nx : State) (hs : Reach ps n0 st.node) (hT : within [.stalls, .cache, .fio, .time, .zb, .cust, .rcd] ps = true) (h : execComparePulseEnd o st = .next nx) : Reach ps n0 nx.node := by
  unfold execComparePulseEnd at h
  refine Reach.ofRun h ?_
  try dsimp only
  with_reducible repeat' first
    | assumption
    | intro _
    | exact within_trans (by decide) hT
    | apply Node.engineWrite_reach
    | apply Node.setOut_reach
    | apply Node.upTo_reach
    | apply Reach.ite
    | apply Reach.foldl
    | split

theorem execConditionEval_reach {ps : List Part} {n0 : Node} (i : Nat) (st nx : State) (hs : Reach ps n0 st.node) (hT : within [.mem, .ram, .host, .rcp, .line, .rcd, .freeCtr] ps = true) (h : execConditionEval i st = .next nx) : Reach ps n0 nx.node := by
  unfold execConditionEval at h
  refine Reach.ofRun h ?_
  try dsimp only
  with_reducible repeat' first
    | assumption
    | intro _
    | exact within_trans (by decide) hT
    | apply Node.withStep_reach
    | apply Node.reachAction_reach
    | apply Node.enterStep_reach
    | apply Reach.ite
    | apply Reach.foldl
    | split

theorem execConfigRead_reach {ps : List Part} {n0 : Node} (path : Nat) (idx : Nat) (st nx : State) (hs : Reach ps n0 st.node) (hT : within [.mem, .ram, .host, .line, .rcd, .sec, .freeCtr] ps = true) (h : execConfigRead path idx st = .next nx) : Reach ps n0 nx.node := by
  unfold execConfigRead at h
  refine Reach.ofRun h ?_
  try dsimp only
  with_reducible repeat' first
    | assumption
    | intro _
    | exact within_trans (by decide) hT
    | apply Node.hostCmd_reach
    | apply Node.checked_reach
    | apply Node.ok_reach
    | apply Node.updSec_reach
    | apply Reach.ite
    | apply Reach.foldl
    | split

theorem execConfigWrite_reach {ps : List Part} {n0 : Node} (path : Nat) (idx : Nat) (st nx : State) (hs : Reach ps n0 st.node) (hT : within [.mem, .ram, .host, .line, .rcd, .sec, .hlth, .freeCtr] ps = true) (h : execConfigWrite path idx st = .next nx) : Reach ps n0 nx.node := by
  unfold execConfigWrite at h
  refine Reach.ofRun h ?_
  try dsimp only
  with_reducible repeat' first
    | assumption
    | intro _
    | exact within_trans (by decide) hT
    | apply Node.hostCmd_reach
    | apply Node.checked_reach
    | apply Node.needCfg_reach
    | apply Node.ok_reach
    | apply Node.updSec_reach
    | apply Node.log_reach
    | apply Reach.ite
    | apply Reach.foldl
    | split

theorem execConverterStop_reach {ps : List Part} {n0 : Node} (st nx : State) (hs : Reach ps n0 st.node) (hT : within [.isl, .lastCrossing, .mem, .ram, .power, .host, .stalls, .cache, .rcp, .loops, .fio, .adc, .encs, .axes, .drives, .line, .time, .zb, .cust, .lifts, .gates, .harv, .rcd, .safe, .glean, .sec, .hlth] ps = true) (h : execConverterStop st = .next nx) : Reach ps n0 nx.node := by
  unfold execConverterStop at h
  refine Reach.ofRun h ?_
  try dsimp only
  with_reducible repeat' first
    | assumption
    | intro _
    | exact within_trans (by decide) hT
    | apply Node.deviceReset_reach
    | apply Reach.ite
    | apply Reach.foldl
    | split

theorem execCoreRestartDone_reach {ps : List Part} {n0 : Node} (bad : List Nat) (st nx : State) (hs : Reach ps n0 st.node) (hT : within [.isl, .mem, .ram, .host, .rcp, .fio, .axes, .line, .time, .zb, .cust, .harv, .rcd, .safe, .freeCtr] ps = true) (h : execCoreRestartDone bad st = .next nx) : Reach ps n0 nx.node := by
  unfold execCoreRestartDone at h
  refine Reach.ofRun h ?_
  try dsimp only
  with_reducible repeat' first
    | assumption
    | intro _
    | exact within_trans (by decide) hT
    | apply Node.islandLog_reach
    | apply Node.coreStart_reach
    | apply Node.updIsland_reach
    | apply Reach.ite
    | apply Reach.foldl
    | split

theorem execCrossRecord_reach {ps : List Part} {n0 : Node} (c : Nat) (st nx : State) (hs : Reach ps n0 st.node) (hT : within [.fio, .rcd, .safe] ps = true) (h : execCrossRecord c st = .next nx) : Reach ps n0 nx.node := by
  unfold execCrossRecord at h
  refine Reach.ofRun h ?_
  try dsimp only
  with_reducible repeat' first
    | assumption
    | intro _
    | exact within_trans (by decide) hT
    | apply Node.updChan_reach
    | apply Node.sfSwitch_reach
    | apply Node.compareRecords_reach
    | apply Reach.ite
    | apply Reach.foldl
    | split

theorem execCrossingWord_reach {ps : List Part} {n0 : Node} (src : Nat) (dst : Nat) (a : Nat) (word : Nat) (write : Bool) (buffered : Bool) (bank : Nat) (bankCheck : Nat) (err : Nat) (errCheck : Nat) (st nx : State) (hs : Reach ps n0 st.node) (hT : within [.isl, .lastCrossing, .mem, .ram, .power, .host, .stalls, .cache, .rcp, .loops, .fio, .adc, .encs, .axes, .drives, .line, .time, .zb, .cust, .lifts, .gates, .harv, .rcd, .safe, .glean, .sec, .hlth, .freeCtr] ps = true) (h : execCrossingWord src dst a word write buffered bank bankCheck err errCheck st = .next nx) : Reach ps n0 nx.node := by
  unfold execCrossingWord at h
  split at h
  · refine Reach.ofRun h ?_
    dsimp only
    split
    · with_reducible exact Reach.set_lastCrossing hs (within_trans (by decide) hT)
    · split
      · with_reducible exact Reach.set_lastCrossing hs (within_trans (by decide) hT)
      · split
        · with_reducible exact Node.logFree_reach _ _ (Reach.set_lastCrossing hs (within_trans (by decide) hT)) (within_trans (by decide) hT)
        · have h1 := Node.bankWord_reach st.node src dst a word write (upset bank bankCheck) hs (within_trans (by decide) hT)
          generalize Node.bankWord st.node src dst a word write (upset bank bankCheck) = r1 at h1 ⊢
          obtain ⟨p1, w1, n1⟩ := r1
          have h2 := Node.crossCheck_reach n1 dst w1 write (upset err errCheck) h1 (within_trans (by decide) hT)
          dsimp only
          generalize Node.crossCheck n1 dst w1 write (upset err errCheck) = r2 at h2 ⊢
          obtain ⟨p2, w2, n2⟩ := r2
          exact Node.deliverWord_reach n2 dst a w2 write (p1 || p2) h2 (within_trans (by decide) hT)
  · cases h

theorem execCustodyCreate_reach {ps : List Part} {n0 : Node} (slot : Nat) (st nx : State) (hs : Reach ps n0 st.node) (hT : within [.rcp, .line, .cust, .freeCtr] ps = true) (h : execCustodyCreate slot st = .next nx) : Reach ps n0 nx.node := by
  unfold execCustodyCreate at h
  refine Reach.ofRun h ?_
  try dsimp only
  with_reducible repeat' first
    | assumption
    | intro _
    | exact within_trans (by decide) hT
    | apply Node.custodyCreate_reach
    | refine Reach.ofSnd (by assumption) ?_
    | apply Reach.ite
    | apply Reach.set_rcp (m := st.node)
    | apply Reach.foldl
    | split
    | apply Reach.set_rcp

theorem execCustodyEval_reach {ps : List Part} {n0 : Node} (st nx : State) (hs : Reach ps n0 st.node) (hT : within [.rcp, .line, .time, .cust, .freeCtr] ps = true) (h : execCustodyEval st = .next nx) : Reach ps n0 nx.node := by
  unfold execCustodyEval at h
  refine Reach.ofRun h ?_
  try dsimp only
  with_reducible repeat' first
    | assumption
    | intro _
    | exact within_trans (by decide) hT
    | apply Node.custHolders_reach
    | apply Node.upTo_reach
    | apply Node.recChange_reach
    | apply Node.updCust_reach
    | apply Node.decide__reach
    | apply Node.setFlag_reach
    | apply Reach.ite
    | apply Reach.foldl
    | split

theorem execCustodyEyeFall_reach {ps : List Part} {n0 : Node} (k : Nat) (t : Nat) (st nx : State) (hs : Reach ps n0 st.node) (hT : within [.line, .time, .cust, .rcd, .freeCtr] ps = true) (h : execCustodyEyeFall k t st = .next nx) : Reach ps n0 nx.node := by
  unfold execCustodyEyeFall at h
  refine Reach.ofRun h ?_
  try dsimp only
  with_reducible repeat' first
    | assumption
    | intro _
    | exact within_trans (by decide) hT
    | apply Node.eyeFall_reach
    | apply Reach.ite
    | apply Reach.foldl
    | split

theorem execCustodyEyeRise_reach {ps : List Part} {n0 : Node} (k : Nat) (t : Nat) (st nx : State) (hs : Reach ps n0 st.node) (hT : within [.line, .time, .cust, .rcd, .freeCtr] ps = true) (h : execCustodyEyeRise k t st = .next nx) : Reach ps n0 nx.node := by
  unfold execCustodyEyeRise at h
  refine Reach.ofRun h ?_
  try dsimp only
  with_reducible repeat' first
    | assumption
    | intro _
    | exact within_trans (by decide) hT
    | apply Node.eyeRise_reach
    | apply Reach.ite
    | apply Reach.foldl
    | split

theorem execCustodyList_reach {ps : List Part} {n0 : Node} (path : Nat) (idx : Nat) (st nx : State) (hs : Reach ps n0 st.node) (hT : within [.mem, .ram, .host, .line, .rcd, .freeCtr] ps = true) (h : execCustodyList path idx st = .next nx) : Reach ps n0 nx.node := by
  unfold execCustodyList at h
  refine Reach.ofRun h ?_
  try dsimp only
  with_reducible repeat' first
    | assumption
    | intro _
    | exact within_trans (by decide) hT
    | apply Node.hostCmd_reach
    | apply Node.checked_reach
    | apply Node.ok_reach
    | apply Reach.ite
    | apply Reach.foldl
    | split

theorem execCustodyRead_reach {ps : List Part} {n0 : Node} (path : Nat) (idx : Nat) (st nx : State) (hs : Reach ps n0 st.node) (hT : within [.mem, .ram, .host, .line, .rcd, .freeCtr] ps = true) (h : execCustodyRead path idx st = .next nx) : Reach ps n0 nx.node := by
  unfold execCustodyRead at h
  refine Reach.ofRun h ?_
  try dsimp only
  with_reducible repeat' first
    | assumption
    | intro _
    | exact within_trans (by decide) hT
    | apply Node.hostCmd_reach
    | apply Node.checked_reach
    | apply Node.ok_reach
    | apply Reach.ite
    | apply Reach.foldl
    | split

theorem execCustodyRecoveryStart_reach {ps : List Part} {n0 : Node} (st nx : State) (hs : Reach ps n0 st.node) (hT : within [.power, .line, .time, .cust, .rcd, .freeCtr] ps = true) (h : execCustodyRecoveryStart st = .next nx) : Reach ps n0 nx.node := by
  unfold execCustodyRecoveryStart at h
  refine Reach.ofRun h ?_
  try dsimp only
  with_reducible repeat' first
    | assumption
    | intro _
    | exact within_trans (by decide) hT
    | apply Node.reachT7_reach
    | apply Node.askNeighbours_reach
    | apply Node.updCust_reach
    | apply Reach.ite
    | apply Reach.foldl
    | split

theorem execCustodyRepeat_reach {ps : List Part} {n0 : Node} (st nx : State) (hs : Reach ps n0 st.node) (hT : within [.line, .time, .cust, .rcd, .freeCtr] ps = true) (h : execCustodyRepeat st = .next nx) : Reach ps n0 nx.node := by
  unfold execCustodyRepeat at h
  refine Reach.ofRun h ?_
  try dsimp only
  with_reducible repeat' first
    | assumption
    | intro _
    | exact within_trans (by decide) hT
    | apply Node.offerAgain_reach
    | apply Node.custRepeat_reach
    | apply Node.updCust_reach
    | apply Node.upTo_reach
    | apply Reach.ite
    | apply Reach.foldl
    | split

theorem execCustodyResolve_reach {ps : List Part} {n0 : Node} (path : Nat) (idx : Nat) (st nx : State) (hs : Reach ps n0 st.node) (hT : within [.mem, .ram, .host, .line, .cust, .rcd, .freeCtr] ps = true) (h : execCustodyResolve path idx st = .next nx) : Reach ps n0 nx.node := by
  unfold execCustodyResolve at h
  refine Reach.ofRun h ?_
  try dsimp only
  with_reducible repeat' first
    | assumption
    | intro _
    | exact within_trans (by decide) hT
    | apply Node.hostCmd_reach
    | apply Node.checked_reach
    | apply Node.answer_reach
    | apply Node.ok_reach
    | apply Node.recChange_reach
    | apply Node.resolvedLog_reach
    | apply Node.recFree_reach
    | apply Reach.ite
    | apply Reach.foldl
    | split

theorem execCustodyScan_reach {ps : List Part} {n0 : Node} (st nx : State) (hs : Reach ps n0 st.node) (hT : within [.line, .zb, .cust, .rcd, .freeCtr] ps = true) (h : execCustodyScan st = .next nx) : Reach ps n0 nx.node := by
  unfold execCustodyScan at h
  refine Reach.ofRun h ?_
  try dsimp only
  with_reducible repeat' first
    | assumption
    | intro _
    | exact within_trans (by decide) hT
    | apply Node.updZb_reach
    | apply Node.recChange_reach
    | apply Node.log_reach
    | apply Reach.ite
    | apply Reach.foldl
    | split

theorem execCustodyTravelLimit_reach {ps : List Part} {n0 : Node} (k : Nat) (st nx : State) (hs : Reach ps n0 st.node) (hT : within [.line, .time, .cust, .rcd, .freeCtr] ps = true) (h : execCustodyTravelLimit k st = .next nx) : Reach ps n0 nx.node := by
  unfold execCustodyTravelLimit at h
  refine Reach.ofRun h ?_
  try dsimp only
  with_reducible repeat' first
    | assumption
    | intro _
    | exact within_trans (by decide) hT
    | apply Node.upTo_reach
    | apply Node.recExit_reach
    | apply Node.updCust_reach
    | apply Reach.ite
    | apply Reach.foldl
    | split

theorem execCyclic_reach {ps : List Part} {n0 : Node} (src : Nat) (t : T64) (entries : List (List Nat)) (st nx : State) (hs : Reach ps n0 st.node) (hT : within [.stalls, .cache, .line, .cust, .glean] ps = true) (h : execCyclic src t entries st = .next nx) : Reach ps n0 nx.node := by
  unfold execCyclic at h
  refine Reach.ofRun h ?_
  try dsimp only
  with_reducible repeat' first
    | assumption
    | intro _
    | exact within_trans (by decide) hT
    | apply Node.putStall_reach
    | apply Node.raise_reach
    | apply Node.updLine_reach
    | apply Reach.ite
    | apply Reach.foldl
    | split

theorem execCyclicSend_reach {ps : List Part} {n0 : Node} (st nx : State) (hs : Reach ps n0 st.node) (hT : within [.line, .time] ps = true) (h : execCyclicSend st = .next nx) : Reach ps n0 nx.node := by
  unfold execCyclicSend at h
  refine Reach.ofRun h ?_
  try dsimp only
  with_reducible repeat' first
    | assumption
    | intro _
    | exact within_trans (by decide) hT
    | apply Node.updLine_reach
    | apply Node.upTo_reach
    | apply Node.newFrame_reach
    | apply Node.egress_reach
    | refine Reach.ofSnd (by assumption) ?_
    | apply Reach.ite
    | apply Reach.foldl
    | split

theorem execDegradedTimeout_reach {ps : List Part} {n0 : Node} (c : Nat) (k : Nat) (st nx : State) (hs : Reach ps n0 st.node) (hT : within [.fio, .time, .rcd, .safe] ps = true) (h : execDegradedTimeout c k st = .next nx) : Reach ps n0 nx.node := by
  unfold execDegradedTimeout at h
  refine Reach.ofRun h ?_
  try dsimp only
  with_reducible repeat' first
    | assumption
    | intro _
    | exact within_trans (by decide) hT
    | apply Node.upTo_reach
    | apply Node.openAtOnce_reach
    | apply Node.connSafe_reach
    | apply Reach.ite
    | apply Reach.foldl
    | split

theorem execDieTempClear_reach {ps : List Part} {n0 : Node} (st nx : State) (hs : Reach ps n0 st.node) (hT : within [.power] ps = true) (h : execDieTempClear st = .next nx) : Reach ps n0 nx.node := by
  unfold execDieTempClear at h
  refine Reach.ofRun h ?_
  try dsimp only
  with_reducible repeat' first
    | assumption
    | intro _
    | exact within_trans (by decide) hT
    | apply Node.updPower_reach
    | apply Reach.ite
    | apply Reach.foldl
    | split

theorem execDieTempHigh_reach {ps : List Part} {n0 : Node} (st nx : State) (hs : Reach ps n0 st.node) (hT : within [.power, .rcd, .glean, .freeCtr] ps = true) (h : execDieTempHigh st = .next nx) : Reach ps n0 nx.node := by
  unfold execDieTempHigh at h
  refine Reach.ofRun h ?_
  try dsimp only
  with_reducible repeat' first
    | assumption
    | intro _
    | exact within_trans (by decide) hT
    | apply Node.raise_reach
    | apply Node.logFree_reach
    | apply Node.updPower_reach
    | apply Reach.ite
    | apply Reach.foldl
    | split

theorem execEccReread_reach {ps : List Part} {n0 : Node} (a : Nat) (err : Nat) (st nx : State) (hs : Reach ps n0 st.node) (hT : within [.isl, .mem, .ram, .power, .host, .stalls, .cache, .rcp, .loops, .fio, .adc, .encs, .axes, .drives, .line, .time, .zb, .cust, .lifts, .gates, .harv, .rcd, .safe, .glean, .sec, .hlth, .freeCtr] ps = true) (h : execEccReread a err st = .next nx) : Reach ps n0 nx.node := by
  unfold execEccReread at h
  refine Reach.ofRun h ?_
  try dsimp only
  with_reducible repeat' first
    | assumption
    | intro _
    | exact within_trans (by decide) hT
    | apply Node.updMem_reach
    | apply Node.upTo_reach
    | apply Node.bankRead_reach
    | apply Node.permanentRow_reach
    | apply Node.transientAt_reach
    | refine Reach.ofSnd (by assumption) ?_
    | apply Reach.ite
    | apply Reach.foldl
    | split

theorem execEncoderStandstill_reach {ps : List Part} {n0 : Node} (i : Nat) (st nx : State) (hs : Reach ps n0 st.node) (hT : within [.encs, .time] ps = true) (h : execEncoderStandstill i st = .next nx) : Reach ps n0 nx.node := by
  unfold execEncoderStandstill at h
  refine Reach.ofRun h ?_
  try dsimp only
  with_reducible repeat' first
    | assumption
    | intro _
    | exact within_trans (by decide) hT
    | apply Node.updEnc_reach
    | apply Node.upTo_reach
    | apply Reach.ite
    | apply Reach.foldl
    | split

theorem execEncoderStep_reach {ps : List Part} {n0 : Node} (i : Nat) (a : Bool) (b : Bool) (t : T64) (st nx : State) (hs : Reach ps n0 st.node) (hT : within [.mem, .ram, .host, .stalls, .cache, .rcp, .loops, .fio, .encs, .axes, .drives, .line, .zb, .cust, .lifts, .gates, .rcd, .hlth, .freeCtr] ps = true) (h : execEncoderStep i a b t st = .next nx) : Reach ps n0 nx.node := by
  unfold execEncoderStep at h
  refine Reach.ofRun h ?_
  try dsimp only
  with_reducible repeat' first
    | assumption
    | intro _
    | exact within_trans (by decide) hT
    | apply Node.setEnc_reach
    | apply Node.illegalStep_reach
    | apply Node.countStep_reach
    | apply Reach.ite
    | apply Reach.foldl
    | split

theorem execEncoderZEdge_reach {ps : List Part} {n0 : Node} (i : Nat) (rising : Bool) (t : T64) (st nx : State) (hs : Reach ps n0 st.node) (hT : within [.encs] ps = true) (h : execEncoderZEdge i rising t st = .next nx) : Reach ps n0 nx.node := by
  unfold execEncoderZEdge at h
  refine Reach.ofRun h ?_
  try dsimp only
  with_reducible repeat' first
    | assumption
    | intro _
    | exact within_trans (by decide) hT
    | apply Node.updEnc_reach
    | apply Node.captureAll_reach
    | apply Reach.ite
    | apply Reach.foldl
    | split

theorem execEnergyInterval_reach {ps : List Part} {n0 : Node} (seen : Nat × List Nat) (st nx : State) (hs : Reach ps n0 st.node) (hT : within [.power, .time, .cust, .glean] ps = true) (h : execEnergyInterval seen st = .next nx) : Reach ps n0 nx.node := by
  unfold execEnergyInterval at h
  refine Reach.ofRun h ?_
  try dsimp only
  with_reducible repeat' first
    | assumption
    | intro _
    | exact within_trans (by decide) hT
    | apply Node.updGlean_reach
    | apply Node.updPower_reach
    | apply Node.upTo_reach
    | apply Reach.ite
    | apply Reach.set_cust (m := st.node)
    | apply Reach.foldl
    | split
    | apply Reach.set_cust

theorem execEnergyRead_reach {ps : List Part} {n0 : Node} (path : Nat) (idx : Nat) (st nx : State) (hs : Reach ps n0 st.node) (hT : within [.mem, .ram, .host, .line, .rcd, .freeCtr] ps = true) (h : execEnergyRead path idx st = .next nx) : Reach ps n0 nx.node := by
  unfold execEnergyRead at h
  refine Reach.ofRun h ?_
  try dsimp only
  with_reducible repeat' first
    | assumption
    | intro _
    | exact within_trans (by decide) hT
    | apply Node.hostCmd_reach
    | apply Node.checked_reach
    | apply Node.ok_reach
    | apply Reach.ite
    | apply Reach.foldl
    | split

theorem execEventClear_reach {ps : List Part} {n0 : Node} (path : Nat) (idx : Nat) (st nx : State) (hs : Reach ps n0 st.node) (hT : within [.mem, .ram, .host, .line, .rcd, .freeCtr] ps = true) (h : execEventClear path idx st = .next nx) : Reach ps n0 nx.node := by
  unfold execEventClear at h
  refine Reach.ofRun h ?_
  try dsimp only
  with_reducible repeat' first
    | assumption
    | intro _
    | exact within_trans (by decide) hT
    | apply Node.hostCmd_reach
    | apply Node.checked_reach
    | apply Node.updRcd_reach
    | apply Reach.ite
    | apply Reach.foldl
    | split

theorem execEventRead_reach {ps : List Part} {n0 : Node} (path : Nat) (idx : Nat) (st nx : State) (hs : Reach ps n0 st.node) (hT : within [.mem, .ram, .host, .line, .rcd, .freeCtr] ps = true) (h : execEventRead path idx st = .next nx) : Reach ps n0 nx.node := by
  unfold execEventRead at h
  refine Reach.ofRun h ?_
  try dsimp only
  with_reducible repeat' first
    | assumption
    | intro _
    | exact within_trans (by decide) hT
    | apply Node.hostCmd_reach
    | apply Node.checked_reach
    | apply Node.free_reach
    | apply Node.ok_reach
    | refine Reach.ofSnd (by assumption) ?_
    | apply Reach.ite
    | apply Reach.foldl
    | split

theorem execFallbackExpired_reach {ps : List Part} {n0 : Node} (st nx : State) (hs : Reach ps n0 st.node) (hT : within [.fio, .time, .rcd, .safe] ps = true) (h : execFallbackExpired st = .next nx) : Reach ps n0 nx.node := by
  unfold execFallbackExpired at h
  refine Reach.ofRun h ?_
  try dsimp only
  with_reducible repeat' first
    | assumption
    | intro _
    | exact within_trans (by decide) hT
    | apply Node.zoneStop_reach
    | apply Node.upTo_reach
    | apply Reach.ite
    | apply Reach.foldl
    | split

theorem execFaultWindowExpire_reach {ps : List Part} {n0 : Node} (k : Nat) (st nx : State) (hs : Reach ps n0 st.node) (hT : within [.stalls, .cache, .time, .cust] ps = true) (h : execFaultWindowExpire k st = .next nx) : Reach ps n0 nx.node := by
  unfold execFaultWindowExpire at h
  refine Reach.ofRun h ?_
  try dsimp only
  with_reducible repeat' first
    | assumption
    | intro _
    | exact within_trans (by decide) hT
    | apply Node.upTo_reach
    | apply Node.putStall_reach
    | apply Reach.ite
    | apply Reach.foldl
    | split

theorem execFecBurst_reach {ps : List Part} {n0 : Node} (p : Nat) (blocks : Nat) (st nx : State) (hs : Reach ps n0 st.node) (hT : within [.power, .line, .time, .rcd, .glean, .hlth, .freeCtr] ps = true) (h : execFecBurst p blocks st = .next nx) : Reach ps n0 nx.node := by
  unfold execFecBurst at h
  refine Reach.ofRun h ?_
  try dsimp only
  with_reducible repeat' first
    | assumption
    | intro _
    | exact within_trans (by decide) hT
    | apply Node.countDrop_reach
    | apply Node.portDown_reach
    | apply Node.setPort_reach
    | apply Reach.ite
    | apply Reach.foldl
    | split

theorem execFieldSupplyLatchClear_reach {ps : List Part} {n0 : Node} (mV : Nat) (st nx : State) (hs : Reach ps n0 st.node) (hT : within [.power, .fio, .time, .glean] ps = true) (h : execFieldSupplyLatchClear mV st = .next nx) : Reach ps n0 nx.node := by
  unfold execFieldSupplyLatchClear at h
  refine Reach.ofRun h ?_
  try dsimp only
  with_reducible repeat' first
    | assumption
    | intro _
    | exact within_trans (by decide) hT
    | apply Node.setVaux_reach
    | apply Node.upTo_reach
    | apply Node.updFio_reach
    | apply Node.raise_reach
    | apply Reach.ite
    | apply Reach.foldl
    | split

theorem execFieldSupplyOff_reach {ps : List Part} {n0 : Node} (mV : Nat) (st nx : State) (hs : Reach ps n0 st.node) (hT : within [.power, .stalls, .cache, .loops, .fio, .axes, .drives, .zb, .cust, .lifts, .gates, .rcd, .glean, .freeCtr] ps = true) (h : execFieldSupplyOff mV st = .next nx) : Reach ps n0 nx.node := by
  unfold execFieldSupplyOff at h
  refine Reach.ofRun h ?_
  try dsimp only
  with_reducible repeat' first
    | assumption
    | intro _
    | exact within_trans (by decide) hT
    | apply Node.setVaux_reach
    | apply Node.updFio_reach
    | apply Node.raise_reach
    | apply Node.log_reach
    | apply Node.latchSupply_reach
    | apply Reach.ite
    | apply Reach.foldl
    | split

theorem execFieldSupplyRise_reach {ps : List Part} {n0 : Node} (st nx : State) (hs : Reach ps n0 st.node) (hT : within [.fio] ps = true) (h : execFieldSupplyRise st = .next nx) : Reach ps n0 nx.node := by
  unfold execFieldSupplyRise at h
  refine Reach.ofRun h ?_
  try dsimp only
  with_reducible repeat' first
    | assumption
    | intro _
    | exact within_trans (by decide) hT
    | apply Node.updFio_reach
    | apply Reach.ite
    | apply Reach.foldl
    | split

theorem execFieldSupplyWarn_reach {ps : List Part} {n0 : Node} (mV : Nat) (st nx : State) (hs : Reach ps n0 st.node) (hT : within [.fio, .rcd] ps = true) (h : execFieldSupplyWarn mV st = .next nx) : Reach ps n0 nx.node := by
  unfold execFieldSupplyWarn at h
  refine Reach.ofRun h ?_
  try dsimp only
  with_reducible repeat' first
    | assumption
    | intro _
    | exact within_trans (by decide) hT
    | apply Node.log_reach
    | apply Node.updFio_reach
    | apply Reach.ite
    | apply Reach.foldl
    | split

theorem execFieldSupplyWarnClear_reach {ps : List Part} {n0 : Node} (mV : Nat) (st nx : State) (hs : Reach ps n0 st.node) (hT : within [.fio, .rcd] ps = true) (h : execFieldSupplyWarnClear mV st = .next nx) : Reach ps n0 nx.node := by
  unfold execFieldSupplyWarnClear at h
  refine Reach.ofRun h ?_
  try dsimp only
  with_reducible repeat' first
    | assumption
    | intro _
    | exact within_trans (by decide) hT
    | apply Node.log_reach
    | apply Node.updFio_reach
    | apply Reach.ite
    | apply Reach.foldl
    | split

theorem execFirmwareWatchdogFeed_reach {ps : List Part} {n0 : Node} (st nx : State) (hs : Reach ps n0 st.node) (hT : within [.fio] ps = true) (h : execFirmwareWatchdogFeed st = .next nx) : Reach ps n0 nx.node := by
  unfold execFirmwareWatchdogFeed at h
  refine Reach.ofRun h ?_
  try dsimp only
  with_reducible repeat' first
    | assumption
    | intro _
    | exact within_trans (by decide) hT
    | apply Node.updFio_reach
    | apply Reach.ite
    | apply Reach.foldl
    | split

theorem execFollowUp_reach {ps : List Part} {n0 : Node} (p : Nat) (origin : Nat × Int) (rateOffset : Int) (raws : List Nat) (st nx : State) (hs : Reach ps n0 st.node) (hT : within [.rcp, .loops, .line, .time, .harv, .rcd] ps = true) (h : execFollowUp p origin rateOffset raws st = .next nx) : Reach ps n0 nx.node := by
  unfold execFollowUp at h
  refine Reach.ofRun h ?_
  try dsimp only
  with_reducible repeat' first
    | assumption
    | intro _
    | exact within_trans (by decide) hT
    | apply Node.relay_reach
    | apply Node.updTime_reach
    | apply Node.sendFollowUp_reach
    | apply Node.servoSync_reach
    | apply Reach.ite
    | apply Reach.foldl
    | split

theorem execFollowerTimeout_reach {ps : List Part} {n0 : Node} (c : Nat) (st nx : State) (hs : Reach ps n0 st.node) (hT : within [.fio, .safe] ps = true) (h : execFollowerTimeout c st = .next nx) : Reach ps n0 nx.node := by
  unfold execFollowerTimeout at h
  refine Reach.ofRun h ?_
  try dsimp only
  with_reducible repeat' first
    | assumption
    | intro _
    | exact within_trans (by decide) hT
    | apply Node.sfOpen_reach
    | apply Reach.ite
    | apply Reach.foldl
    | split

theorem execFollowingError_reach {ps : List Part} {n0 : Node} (a : Nat) (st nx : State) (hs : Reach ps n0 st.node) (hT : within [.mem, .ram, .host, .stalls, .cache, .loops, .fio, .encs, .axes, .drives, .line, .zb, .cust, .lifts, .gates, .rcd, .hlth, .freeCtr] ps = true) (h : execFollowingError a st = .next nx) : Reach ps n0 nx.node := by
  unfold execFollowingError at h
  refine Reach.ofRun h ?_
  try dsimp only
  with_reducible repeat' first
    | assumption
    | intro _
    | exact within_trans (by decide) hT
    | apply Node.transientFault_reach
    | apply Reach.ite
    | apply Reach.foldl
    | split

theorem execGateCommand_reach {ps : List Part} {n0 : Node} (path : Nat) (idx : Nat) (st nx : State) (hs : Reach ps n0 st.node) (hT : within [.mem, .ram, .host, .stalls, .cache, .fio, .axes, .drives, .line, .zb, .cust, .gates, .rcd, .safe, .freeCtr] ps = true) (h : execGateCommand path idx st = .next nx) : Reach ps n0 nx.node := by
  unfold execGateCommand at h
  refine Reach.ofRun h ?_
  try dsimp only
  with_reducible repeat' first
    | assumption
    | intro _
    | exact within_trans (by decide) hT
    | apply Node.hostCmd_reach
    | apply Node.checked_reach
    | apply Node.gateCommand_reach
    | apply Node.ok_reach
    | apply Node.answer_reach
    | refine Reach.ofSnd (by assumption) ?_
    | apply Reach.ite
    | apply Reach.foldl
    | split

theorem execGateDwellExpired_reach {ps : List Part} {n0 : Node} (g : Nat) (st nx : State) (hs : Reach ps n0 st.node) (hT : within [.stalls, .cache, .fio, .axes, .drives, .time, .zb, .cust, .gates, .rcd] ps = true) (h : execGateDwellExpired g st = .next nx) : Reach ps n0 nx.node := by
  unfold execGateDwellExpired at h
  refine Reach.ofRun h ?_
  try dsimp only
  with_reducible repeat' first
    | assumption
    | intro _
    | exact within_trans (by decide) hT
    | apply Node.dwellClose_reach
    | apply Node.updGate_reach
    | apply Node.upTo_reach
    | apply Reach.ite
    | apply Reach.foldl
    | split

theorem execGateEntryChange_reach {ps : List Part} {n0 : Node} (p : Nat) (t : T64) (st nx : State) (hs : Reach ps n0 st.node) (hT : within [.line, .time, .rcd] ps = true) (h : execGateEntryChange p t st = .next nx) : Reach ps n0 nx.node := by
  unfold execGateEntryChange at h
  refine Reach.ofRun h ?_
  try dsimp only
  with_reducible repeat' first
    | assumption
    | intro _
    | exact within_trans (by decide) hT
    | apply Node.gateChange_reach
    | apply Node.upTo_reach
    | apply Reach.ite
    | apply Reach.foldl
    | split

theorem execGateInputChange_reach {ps : List Part} {n0 : Node} (g : Nat) (st nx : State) (hs : Reach ps n0 st.node) (hT : within [.stalls, .cache, .fio, .axes, .drives, .zb, .cust, .lifts, .gates, .rcd, .safe] ps = true) (h : execGateInputChange g st = .next nx) : Reach ps n0 nx.node := by
  unfold execGateInputChange at h
  refine Reach.ofRun h ?_
  try dsimp only
  with_reducible repeat' first
    | assumption
    | intro _
    | exact within_trans (by decide) hT
    | apply Node.reopenNow_reach
    | apply Node.driveGate_reach
    | apply Node.gateEnter_reach
    | apply Node.gateOpened_reach
    | apply Node.lockRequest_reach
    | apply Node.updGate_reach
    | apply Node.log_reach
    | apply Node.gateShut_reach
    | apply Node.gateFail_reach
    | apply Reach.ite
    | apply Reach.foldl
    | split

theorem execGateObstructionCheck_reach {ps : List Part} {n0 : Node} (g : Nat) (st nx : State) (hs : Reach ps n0 st.node) (hT : within [.stalls, .cache, .fio, .axes, .drives, .time, .zb, .cust, .gates, .rcd, .freeCtr] ps = true) (h : execGateObstructionCheck g st = .next nx) : Reach ps n0 nx.node := by
  unfold execGateObstructionCheck at h
  refine Reach.ofRun h ?_
  try dsimp only
  with_reducible repeat' first
    | assumption
    | intro _
    | exact within_trans (by decide) hT
    | apply Node.reopenNow_reach
    | apply Node.upTo_reach
    | apply Node.updGate_reach
    | apply Node.reverseGate_reach
    | apply Reach.ite
    | apply Reach.foldl
    | split

theorem execGateRetryDwell_reach {ps : List Part} {n0 : Node} (g : Nat) (st nx : State) (hs : Reach ps n0 st.node) (hT : within [.stalls, .cache, .fio, .axes, .drives, .time, .zb, .cust, .gates, .rcd] ps = true) (h : execGateRetryDwell g st = .next nx) : Reach ps n0 nx.node := by
  unfold execGateRetryDwell at h
  refine Reach.ofRun h ?_
  try dsimp only
  with_reducible repeat' first
    | assumption
    | intro _
    | exact within_trans (by decide) hT
    | apply Node.closeGate_reach
    | apply Node.upTo_reach
    | apply Reach.ite
    | apply Reach.foldl
    | split

theorem execGateTimeout_reach {ps : List Part} {n0 : Node} (g : Nat) (st nx : State) (hs : Reach ps n0 st.node) (hT : within [.stalls, .cache, .fio, .axes, .drives, .time, .zb, .cust, .gates, .rcd, .freeCtr] ps = true) (h : execGateTimeout g st = .next nx) : Reach ps n0 nx.node := by
  unfold execGateTimeout at h
  refine Reach.ofRun h ?_
  try dsimp only
  with_reducible repeat' first
    | assumption
    | intro _
    | exact within_trans (by decide) hT
    | apply Node.gateFail_reach
    | apply Node.upTo_reach
    | apply Node.reverseGate_reach
    | apply Reach.ite
    | apply Reach.foldl
    | split

theorem execGearMasterLost_reach {ps : List Part} {n0 : Node} (a : Nat) (st nx : State) (hs : Reach ps n0 st.node) (hT : within [.axes, .rcd, .freeCtr] ps = true) (h : execGearMasterLost a st = .next nx) : Reach ps n0 nx.node := by
  unfold execGearMasterLost at h
  refine Reach.ofRun h ?_
  try dsimp only
  with_reducible repeat' first
    | assumption
    | intro _
    | exact within_trans (by decide) hT
    | apply Node.rampStop_reach
    | apply Node.log_reach
    | apply Reach.ite
    | apply Reach.foldl
    | split

theorem execGearSet_reach {ps : List Part} {n0 : Node} (path : Nat) (idx : Nat) (st nx : State) (hs : Reach ps n0 st.node) (hT : within [.mem, .ram, .host, .axes, .drives, .line, .time, .rcd, .freeCtr] ps = true) (h : execGearSet path idx st = .next nx) : Reach ps n0 nx.node := by
  unfold execGearSet at h
  refine Reach.ofRun h ?_
  try dsimp only
  with_reducible repeat' first
    | assumption
    | intro _
    | exact within_trans (by decide) hT
    | apply Node.hostCmd_reach
    | apply Node.checked_reach
    | apply Node.gearChange_reach
    | apply Node.gearEngage_reach
    | apply Node.moveAt_reach
    | apply Node.axisMotion_reach
    | apply Node.upTo_reach
    | apply Node.ok_reach
    | apply Reach.ite
    | apply Reach.foldl
    | split

theorem execGearSyncTimeout_reach {ps : List Part} {n0 : Node} (a : Nat) (st nx : State) (hs : Reach ps n0 st.node) (hT : within [.axes, .time, .rcd, .freeCtr] ps = true) (h : execGearSyncTimeout a st = .next nx) : Reach ps n0 nx.node := by
  unfold execGearSyncTimeout at h
  refine Reach.ofRun h ?_
  try dsimp only
  with_reducible repeat' first
    | assumption
    | intro _
    | exact within_trans (by decide) hT
    | apply Node.rampStop_reach
    | apply Node.log_reach
    | apply Node.upTo_reach
    | apply Reach.ite
    | apply Reach.foldl
    | split

theorem execGleanerRules_reach {ps : List Part} {n0 : Node} (path : Nat) (idx : Nat) (st nx : State) (hs : Reach ps n0 st.node) (hT : within [.mem, .ram, .host, .line, .rcd, .glean, .sec, .hlth, .freeCtr] ps = true) (h : execGleanerRules path idx st = .next nx) : Reach ps n0 nx.node := by
  unfold execGleanerRules at h
  refine Reach.ofRun h ?_
  try dsimp only
  with_reducible repeat' first
    | assumption
    | intro _
    | exact within_trans (by decide) hT
    | apply Node.hostCmd_reach
    | apply Node.checked_reach
    | apply Node.ok_reach
    | apply Node.updGlean_reach
    | apply Node.answer_reach
    | apply Node.needCfg_reach
    | apply Node.storeCfg_reach
    | apply Reach.ite
    | apply Reach.foldl
    | split

theorem execGleanerSample_reach {ps : List Part} {n0 : Node} (levels : Nat) (xs : List Int) (st nx : State) (hs : Reach ps n0 st.node) (hT : within [.isl, .mem, .ram, .host, .stalls, .cache, .rcp, .loops, .fio, .axes, .drives, .line, .time, .zb, .cust, .lifts, .gates, .rcd, .safe, .glean, .freeCtr] ps = true) (h : execGleanerSample levels xs st = .next nx) : Reach ps n0 nx.node := by
  unfold execGleanerSample at h
  refine Reach.ofRun h ?_
  try dsimp only
  with_reducible repeat' first
    | assumption
    | intro _
    | exact within_trans (by decide) hT
    | apply Node.updGlean_reach
    | apply Node.upTo_reach
    | apply Node.setIn_reach
    | apply Node.glRule_reach
    | apply Reach.ite
    | apply Reach.foldl
    | split

theorem execGroupThermalShutdown_reach {ps : List Part} {n0 : Node} (group : Nat) (hot : Nat) (highest : Nat) (st nx : State) (hs : Reach ps n0 st.node) (hT : within [.mem, .ram, .host, .stalls, .cache, .loops, .fio, .encs, .axes, .drives, .line, .zb, .cust, .lifts, .gates, .rcd, .safe, .hlth, .freeCtr] ps = true) (h : execGroupThermalShutdown group hot highest st = .next nx) : Reach ps n0 nx.node := by
  unfold execGroupThermalShutdown at h
  refine Reach.ofRun h ?_
  try dsimp only
  with_reducible repeat' first
    | assumption
    | intro _
    | exact within_trans (by decide) hT
    | apply Node.outFault_reach
    | apply Node.setThermal_reach
    | apply Reach.ite
    | apply Reach.foldl
    | split

theorem execHandoffAccept_reach {ps : List Part} {n0 : Node} (p : Nat) (parcel : Nat) (version : Nat) (st nx : State) (hs : Reach ps n0 st.node) (hT : within [.line, .cust, .rcd, .glean, .freeCtr] ps = true) (h : execHandoffAccept p parcel version st = .next nx) : Reach ps n0 nx.node := by
  unfold execHandoffAccept at h
  refine Reach.ofRun h ?_
  try dsimp only
  with_reducible repeat' first
    | assumption
    | intro _
    | exact within_trans (by decide) hT
    | apply Node.custIn_reach
    | apply Node.accepted_reach
    | apply Reach.ite
    | apply Reach.foldl
    | split

theorem execHandoffCommit_reach {ps : List Part} {n0 : Node} (p : Nat) (parcel : Nat) (version : Nat) (st nx : State) (hs : Reach ps n0 st.node) (hT : within [.line, .cust, .glean, .freeCtr] ps = true) (h : execHandoffCommit p parcel version st = .next nx) : Reach ps n0 nx.node := by
  unfold execHandoffCommit at h
  refine Reach.ofRun h ?_
  try dsimp only
  with_reducible repeat' first
    | assumption
    | intro _
    | exact within_trans (by decide) hT
    | apply Node.custIn_reach
    | apply Node.committed_reach
    | apply Reach.ite
    | apply Reach.foldl
    | split

theorem execHandoffOffer_reach {ps : List Part} {n0 : Node} (p : Nat) (record : List Nat) (st nx : State) (hs : Reach ps n0 st.node) (hT : within [.line, .cust, .glean, .freeCtr] ps = true) (h : execHandoffOffer p record st = .next nx) : Reach ps n0 nx.node := by
  unfold execHandoffOffer at h
  refine Reach.ofRun h ?_
  try dsimp only
  with_reducible repeat' first
    | assumption
    | intro _
    | exact within_trans (by decide) hT
    | apply Node.custIn_reach
    | apply Node.offered_reach
    | apply Reach.ite
    | apply Reach.foldl
    | split

theorem execHandoffQuery_reach {ps : List Part} {n0 : Node} (p : Nat) (parcel : Nat) (version : Nat) (st nx : State) (hs : Reach ps n0 st.node) (hT : within [.line, .cust, .rcd, .glean, .freeCtr] ps = true) (h : execHandoffQuery p parcel version st = .next nx) : Reach ps n0 nx.node := by
  unfold execHandoffQuery at h
  refine Reach.ofRun h ?_
  try dsimp only
  with_reducible repeat' first
    | assumption
    | intro _
    | exact within_trans (by decide) hT
    | apply Node.custIn_reach
    | apply Node.accepted_reach
    | apply Node.custNote_reach
    | apply Reach.ite
    | apply Reach.foldl
    | split

theorem execHandoffRefuse_reach {ps : List Part} {n0 : Node} (p : Nat) (parcel : Nat) (version : Nat) (status : Nat) (st nx : State) (hs : Reach ps n0 st.node) (hT : within [.rcd, .glean] ps = true) (h : execHandoffRefuse p parcel version status st = .next nx) : Reach ps n0 nx.node := by
  unfold execHandoffRefuse at h
  refine Reach.ofRun h ?_
  try dsimp only
  with_reducible repeat' first
    | assumption
    | intro _
    | exact within_trans (by decide) hT
    | apply Node.custIn_reach
    | apply Node.handoffFail_reach
    | apply Reach.ite
    | apply Reach.foldl
    | split

theorem execHandoffTimeout_reach {ps : List Part} {n0 : Node} (parcel : Nat) (st nx : State) (hs : Reach ps n0 st.node) (hT : within [.time, .cust, .rcd] ps = true) (h : execHandoffTimeout parcel st = .next nx) : Reach ps n0 nx.node := by
  unfold execHandoffTimeout at h
  refine Reach.ofRun h ?_
  try dsimp only
  with_reducible repeat' first
    | assumption
    | intro _
    | exact within_trans (by decide) hT
    | apply Node.upTo_reach
    | apply Node.handoffFail_reach
    | apply Node.setOwn_reach
    | apply Reach.ite
    | apply Reach.foldl
    | split

theorem execHarvestFrameSend_reach {ps : List Part} {n0 : Node} (k : Nat) (st nx : State) (hs : Reach ps n0 st.node) (hT : within [.line, .harv, .rcd, .freeCtr] ps = true) (h : execHarvestFrameSend k st = .next nx) : Reach ps n0 nx.node := by
  unfold execHarvestFrameSend at h
  refine Reach.ofRun h ?_
  try dsimp only
  with_reducible repeat' first
    | assumption
    | intro _
    | exact within_trans (by decide) hT
    | apply Node.sendSlotFrame_reach
    | apply Node.encodeRaw_reach
    | apply Reach.ite
    | apply Reach.foldl
    | split

theorem execHarvestGrant_reach {ps : List Part} {n0 : Node} (k : Nat) (share : Nat) (st nx : State) (hs : Reach ps n0 st.node) (hT : within [.mem, .ram, .host, .line, .harv, .rcd, .freeCtr] ps = true) (h : execHarvestGrant k share st = .next nx) : Reach ps n0 nx.node := by
  unfold execHarvestGrant at h
  refine Reach.ofRun h ?_
  try dsimp only
  with_reducible repeat' first
    | assumption
    | intro _
    | exact within_trans (by decide) hT
    | apply Node.slotGranted_reach
    | apply Reach.ite
    | apply Reach.foldl
    | split

theorem execHarvestListApply_reach {ps : List Part} {n0 : Node} (st nx : State) (hs : Reach ps n0 st.node) (hT : within [.time, .harv, .rcd, .freeCtr] ps = true) (h : execHarvestListApply st = .next nx) : Reach ps n0 nx.node := by
  unfold execHarvestListApply at h
  refine Reach.ofRun h ?_
  try dsimp only
  with_reducible repeat' first
    | assumption
    | intro _
    | exact within_trans (by decide) hT
    | apply Node.applyList_reach
    | apply Node.upTo_reach
    | apply Reach.ite
    | apply Reach.foldl
    | split

theorem execHarvestRefuse_reach {ps : List Part} {n0 : Node} (k : Nat) (st nx : State) (hs : Reach ps n0 st.node) (hT : within [.mem, .ram, .host, .line, .harv, .rcd, .freeCtr] ps = true) (h : execHarvestRefuse k st = .next nx) : Reach ps n0 nx.node := by
  unfold execHarvestRefuse at h
  refine Reach.ofRun h ?_
  try dsimp only
  with_reducible repeat' first
    | assumption
    | intro _
    | exact within_trans (by decide) hT
    | apply Node.slotRefused_reach
    | apply Reach.ite
    | apply Reach.foldl
    | split

end Sys2Proof.Machine
end

