-- ==== Sys2Proof/Laws/ReachD.lean ====
section
/-! SUPPORT. What each operation and each meaning can reach (Reach): one lemma each, part 4 of 4. An operation on the node
changes no part outside the list named and keeps memory canonical; a meaning the same of the state it answers. -/

set_option linter.unreachableTactic false
set_option linter.unusedTactic false
set_option linter.unusedVariables false

namespace Sys2Proof.Machine

theorem execHarvestReservationRetry_reach {ps : List Part} {n0 : Node} (k : Nat) (st nx : State) (hs : Reach ps n0 st.node) (hT : within [.mem, .ram, .host, .line, .time, .harv, .rcd, .freeCtr] ps = true) (h : execHarvestReservationRetry k st = .next nx) : Reach ps n0 nx.node := by
  unfold execHarvestReservationRetry at h
  refine Reach.ofRun h ?_
  try dsimp only
  with_reducible repeat' first
    | assumption
    | intro _
    | exact within_trans (by decide) hT
    | apply Node.requestSlot_reach
    | apply Node.upTo_reach
    | apply Reach.ite
    | apply Reach.foldl
    | split

theorem execHarvestReservationTimeout_reach {ps : List Part} {n0 : Node} (k : Nat) (st nx : State) (hs : Reach ps n0 st.node) (hT : within [.mem, .ram, .host, .line, .time, .harv, .rcd, .freeCtr] ps = true) (h : execHarvestReservationTimeout k st = .next nx) : Reach ps n0 nx.node := by
  unfold execHarvestReservationTimeout at h
  refine Reach.ofRun h ?_
  try dsimp only
  with_reducible repeat' first
    | assumption
    | intro _
    | exact within_trans (by decide) hT
    | apply Node.slotRefused_reach
    | apply Node.upTo_reach
    | apply Reach.ite
    | apply Reach.foldl
    | split

theorem execHarvestReserveRequest_reach {ps : List Part} {n0 : Node} (node : Nat) (slot : Nat) (collector : Nat) (share : Nat) (st nx : State) (hs : Reach ps n0 st.node) (hT : within [.line, .harv, .freeCtr] ps = true) (h : execHarvestReserveRequest node slot collector share st = .next nx) : Reach ps n0 nx.node := by
  unfold execHarvestReserveRequest at h
  refine Reach.ofRun h ?_
  try dsimp only
  with_reducible repeat' first
    | assumption
    | intro _
    | exact within_trans (by decide) hT
    | apply Node.hvDecide_reach
    | apply Node.send_reach
    | refine Reach.ofSnd (by assumption) ?_
    | apply Reach.ite
    | apply Reach.foldl
    | split

theorem execHarvestRevoke_reach {ps : List Part} {n0 : Node} (k : Nat) (st nx : State) (hs : Reach ps n0 st.node) (hT : within [.harv, .rcd] ps = true) (h : execHarvestRevoke k st = .next nx) : Reach ps n0 nx.node := by
  unfold execHarvestRevoke at h
  refine Reach.ofRun h ?_
  try dsimp only
  with_reducible repeat' first
    | assumption
    | intro _
    | exact within_trans (by decide) hT
    | apply Node.slotRevoked_reach
    | apply Reach.ite
    | apply Reach.foldl
    | split

theorem execHarvestSample_reach {ps : List Part} {n0 : Node} (full : Bool) (st nx : State) (hs : Reach ps n0 st.node) (hT : within [.stalls, .cache, .time, .harv, .rcd, .freeCtr] ps = true) (h : execHarvestSample full st = .next nx) : Reach ps n0 nx.node := by
  unfold execHarvestSample at h
  refine Reach.ofRun h ?_
  try dsimp only
  with_reducible repeat' first
    | assumption
    | intro _
    | exact within_trans (by decide) hT
    | apply Node.applyList_reach
    | apply Node.upTo_reach
    | apply Node.takeSample_reach
    | apply Node.updHarv_reach
    | apply Reach.ite
    | apply Reach.foldl
    | split

theorem execHarvestStatus_reach {ps : List Part} {n0 : Node} (path : Nat) (idx : Nat) (st nx : State) (hs : Reach ps n0 st.node) (hT : within [.mem, .ram, .host, .line, .harv, .rcd, .freeCtr] ps = true) (h : execHarvestStatus path idx st = .next nx) : Reach ps n0 nx.node := by
  unfold execHarvestStatus at h
  refine Reach.ofRun h ?_
  try dsimp only
  with_reducible repeat' first
    | assumption
    | intro _
    | exact within_trans (by decide) hT
    | apply Node.hostCmd_reach
    | apply Node.checked_reach
    | apply Node.free_reach
    | apply Node.updHarv_reach
    | apply Node.ok_reach
    | refine Reach.ofSnd (by assumption) ?_
    | apply Reach.ite
    | apply Reach.foldl
    | split

theorem execHarvestTrigger_reach {ps : List Part} {n0 : Node} (path : Nat) (idx : Nat) (st nx : State) (hs : Reach ps n0 st.node) (hT : within [.mem, .ram, .host, .line, .harv, .rcd, .freeCtr] ps = true) (h : execHarvestTrigger path idx st = .next nx) : Reach ps n0 nx.node := by
  unfold execHarvestTrigger at h
  refine Reach.ofRun h ?_
  try dsimp only
  with_reducible repeat' first
    | assumption
    | intro _
    | exact within_trans (by decide) hT
    | apply Node.hostCmd_reach
    | apply Node.checked_reach
    | apply Node.trigArm_reach
    | apply Node.setTrig_reach
    | apply Node.ok_reach
    | apply Node.fireTrigger_reach
    | apply Reach.ite
    | apply Reach.foldl
    | split

theorem execHealthRead_reach {ps : List Part} {n0 : Node} (path : Nat) (idx : Nat) (st nx : State) (hs : Reach ps n0 st.node) (hT : within [.mem, .ram, .host, .line, .rcd, .freeCtr] ps = true) (h : execHealthRead path idx st = .next nx) : Reach ps n0 nx.node := by
  unfold execHealthRead at h
  refine Reach.ofRun h ?_
  try dsimp only
  with_reducible repeat' first
    | assumption
    | intro _
    | exact within_trans (by decide) hT
    | apply Node.hostCmd_reach
    | apply Node.checked_reach
    | apply Node.ok_reach
    | apply Reach.ite
    | apply Reach.foldl
    | split

theorem execHeldElapsed_reach {ps : List Part} {n0 : Node} (i : Nat) (st nx : State) (hs : Reach ps n0 st.node) (hT : within [.isl, .mem, .ram, .host, .stalls, .cache, .rcp, .loops, .fio, .adc, .encs, .axes, .drives, .line, .zb, .cust, .lifts, .gates, .rcd, .safe, .freeCtr] ps = true) (h : execHeldElapsed i st = .next nx) : Reach ps n0 nx.node := by
  unfold execHeldElapsed at h
  refine Reach.ofRun h ?_
  try dsimp only
  with_reducible repeat' first
    | assumption
    | intro _
    | exact within_trans (by decide) hT
    | apply Node.updIsland_reach
    | apply Node.islandLog_reach
    | apply Node.islandRuns_reach
    | apply Reach.ite
    | apply Reach.foldl
    | split

theorem execHoldCauseBegin_reach {ps : List Part} {n0 : Node} (k : Nat) (cause : Nat) (st nx : State) (hs : Reach ps n0 st.node) (hT : within [.stalls, .cache, .loops, .fio, .axes, .drives, .zb, .cust, .lifts, .gates, .rcd, .freeCtr] ps = true) (h : execHoldCauseBegin k cause st = .next nx) : Reach ps n0 nx.node := by
  unfold execHoldCauseBegin at h
  refine Reach.ofRun h ?_
  try dsimp only
  with_reducible repeat' first
    | assumption
    | intro _
    | exact within_trans (by decide) hT
    | apply Node.beginHold_reach
    | apply Reach.ite
    | apply Reach.foldl
    | split

theorem execHoldCauseEnd_reach {ps : List Part} {n0 : Node} (k : Nat) (cause : Nat) (st nx : State) (hs : Reach ps n0 st.node) (hT : within [.stalls, .cache, .loops, .fio, .axes, .drives, .zb, .cust, .lifts, .gates, .rcd, .safe] ps = true) (h : execHoldCauseEnd k cause st = .next nx) : Reach ps n0 nx.node := by
  unfold execHoldCauseEnd at h
  refine Reach.ofRun h ?_
  try dsimp only
  with_reducible repeat' first
    | assumption
    | intro _
    | exact within_trans (by decide) hT
    | apply Node.endHold_reach
    | apply Reach.ite
    | apply Reach.foldl
    | split

theorem execHoldoverExpired_reach {ps : List Part} {n0 : Node} (st nx : State) (hs : Reach ps n0 st.node) (hT : within [.time, .rcd] ps = true) (h : execHoldoverExpired st = .next nx) : Reach ps n0 nx.node := by
  unfold execHoldoverExpired at h
  refine Reach.ofRun h ?_
  try dsimp only
  with_reducible repeat' first
    | assumption
    | intro _
    | exact within_trans (by decide) hT
    | apply Node.servoTo_reach
    | apply Node.upTo_reach
    | apply Reach.ite
    | apply Reach.foldl
    | split

theorem execHostkeyAdd_reach {ps : List Part} {n0 : Node} (path : Nat) (idx : Nat) (st nx : State) (hs : Reach ps n0 st.node) (hT : within [.mem, .ram, .host, .line, .rcd, .sec, .hlth, .freeCtr] ps = true) (h : execHostkeyAdd path idx st = .next nx) : Reach ps n0 nx.node := by
  unfold execHostkeyAdd at h
  refine Reach.ofRun h ?_
  try dsimp only
  with_reducible repeat' first
    | assumption
    | intro _
    | exact within_trans (by decide) hT
    | apply Node.hostCmd_reach
    | apply Node.checked_reach
    | apply Node.needCfg_reach
    | apply Node.updHost_reach
    | apply Node.ok_reach
    | apply Node.storeCfg_reach
    | apply Reach.ite
    | apply Reach.foldl
    | split

theorem execHostkeyRemove_reach {ps : List Part} {n0 : Node} (path : Nat) (idx : Nat) (st nx : State) (hs : Reach ps n0 st.node) (hT : within [.mem, .ram, .host, .line, .rcd, .sec, .hlth, .freeCtr] ps = true) (h : execHostkeyRemove path idx st = .next nx) : Reach ps n0 nx.node := by
  unfold execHostkeyRemove at h
  refine Reach.ofRun h ?_
  try dsimp only
  with_reducible repeat' first
    | assumption
    | intro _
    | exact within_trans (by decide) hT
    | apply Node.hostCmd_reach
    | apply Node.checked_reach
    | apply Node.needCfg_reach
    | apply Node.updHost_reach
    | apply Node.endSession_reach
    | apply Node.ok_reach
    | apply Reach.ite
    | apply Reach.set_sec (m := st.node)
    | apply Reach.foldl
    | split
    | apply Reach.set_sec

theorem execHsDone_reach {ps : List Part} {n0 : Node} (svc : Bool) (v : Nat) (st nx : State) (hs : Reach ps n0 st.node) (hT : within [.mem, .ram, .host, .line, .rcd, .glean, .freeCtr] ps = true) (h : execHsDone svc v st = .next nx) : Reach ps n0 nx.node := by
  unfold execHsDone at h
  refine Reach.ofRun h ?_
  try dsimp only
  with_reducible repeat' first
    | assumption
    | intro _
    | exact within_trans (by decide) hT
    | apply Node.regWrite_reach
    | apply Reach.ite
    | apply Reach.foldl
    | split

theorem execHsDoorbell_reach {ps : List Part} {n0 : Node} (svc : Bool) (v : Nat) (st nx : State) (hs : Reach ps n0 st.node) (hT : within [.mem, .ram, .host, .line, .rcd, .glean, .freeCtr] ps = true) (h : execHsDoorbell svc v st = .next nx) : Reach ps n0 nx.node := by
  unfold execHsDoorbell at h
  refine Reach.ofRun h ?_
  try dsimp only
  with_reducible repeat' first
    | assumption
    | intro _
    | exact within_trans (by decide) hT
    | apply Node.regWrite_reach
    | apply Reach.ite
    | apply Reach.foldl
    | split

theorem execHsRegisterWrite_reach {ps : List Part} {n0 : Node} (svc : Bool) (off : Nat) (v : Nat) (st nx : State) (hs : Reach ps n0 st.node) (hT : within [.mem, .ram, .host, .line, .rcd, .glean, .freeCtr] ps = true) (h : execHsRegisterWrite svc off v st = .next nx) : Reach ps n0 nx.node := by
  unfold execHsRegisterWrite at h
  refine Reach.ofRun h ?_
  try dsimp only
  with_reducible repeat' first
    | assumption
    | intro _
    | exact within_trans (by decide) hT
    | apply Node.regWrite_reach
    | apply Reach.ite
    | apply Reach.foldl
    | split

theorem execImageWrite_reach {ps : List Part} {n0 : Node} (path : Nat) (idx : Nat) (st nx : State) (hs : Reach ps n0 st.node) (hT : within [.mem, .ram, .host, .line, .rcd, .sec, .hlth, .freeCtr] ps = true) (h : execImageWrite path idx st = .next nx) : Reach ps n0 nx.node := by
  unfold execImageWrite at h
  refine Reach.ofRun h ?_
  try dsimp only
  with_reducible repeat' first
    | assumption
    | intro _
    | exact within_trans (by decide) hT
    | apply Node.hostCmd_reach
    | apply Node.checked_reach
    | apply Node.degraded_reach
    | apply Node.ok_reach
    | apply Node.setSilo_reach
    | apply Node.freshTicket_reach
    | refine Reach.ofSnd (by assumption) ?_
    | apply Reach.ite
    | apply Reach.foldl
    | split

theorem execImagesLoaded_reach {ps : List Part} {n0 : Node} (st nx : State) (hs : Reach ps n0 st.node) (hT : within [.isl, .mem, .ram, .power, .sec] ps = true) (h : execImagesLoaded st = .next nx) : Reach ps n0 nx.node := by
  unfold execImagesLoaded at h
  refine Reach.ofRun h ?_
  try dsimp only
  with_reducible repeat' first
    | assumption
    | intro _
    | exact within_trans (by decide) hT
    | apply Node.updPower_reach
    | apply Node.runImages_reach
    | apply Node.bootFrom_reach
    | apply Node.bootFails_reach
    | apply Reach.ite
    | apply Reach.foldl
    | split

theorem execInputFilteredChange_reach {ps : List Part} {n0 : Node} (i : Nat) (level : Bool) (first : T64) (st nx : State) (hs : Reach ps n0 st.node) (hT : within [.stalls, .cache, .loops, .fio, .axes, .drives, .time, .zb, .cust, .lifts, .gates, .rcd, .safe] ps = true) (h : execInputFilteredChange i level first st = .next nx) : Reach ps n0 nx.node := by
  unfold execInputFilteredChange at h
  refine Reach.ofRun h ?_
  try dsimp only
  with_reducible repeat' first
    | assumption
    | intro _
    | exact within_trans (by decide) hT
    | apply Node.upTo_reach
    | apply Node.setIn_reach
    | apply Node.endHold_reach
    | apply Node.putStall_reach
    | apply Reach.ite
    | apply Reach.foldl
    | split

theorem execInputResume_reach {ps : List Part} {n0 : Node} (st nx : State) (hs : Reach ps n0 st.node) (hT : within [.fio, .time] ps = true) (h : execInputResume st = .next nx) : Reach ps n0 nx.node := by
  unfold execInputResume at h
  refine Reach.ofRun h ?_
  try dsimp only
  with_reducible repeat' first
    | assumption
    | intro _
    | exact within_trans (by decide) hT
    | apply Node.updFio_reach
    | apply Node.upTo_reach
    | apply Node.setIn_reach
    | apply Reach.ite
    | apply Reach.foldl
    | split

theorem execInstanceEpoch_reach {ps : List Part} {n0 : Node} (i : Nat) (st nx : State) (hs : Reach ps n0 st.node) (hT : within [.rcp, .time] ps = true) (h : execInstanceEpoch i st = .next nx) : Reach ps n0 nx.node := by
  unfold execInstanceEpoch at h
  refine Reach.ofRun h ?_
  try dsimp only
  with_reducible repeat' first
    | assumption
    | intro _
    | exact within_trans (by decide) hT
    | apply Node.setInst_reach
    | apply Node.upTo_reach
    | apply Reach.ite
    | apply Reach.foldl
    | split

theorem execIoWatchdogExpired_reach {ps : List Part} {n0 : Node} (st nx : State) (hs : Reach ps n0 st.node) (hT : within [.stalls, .cache, .loops, .fio, .axes, .drives, .time, .zb, .cust, .lifts, .gates, .rcd, .freeCtr] ps = true) (h : execIoWatchdogExpired st = .next nx) : Reach ps n0 nx.node := by
  unfold execIoWatchdogExpired at h
  refine Reach.ofRun h ?_
  try dsimp only
  with_reducible repeat' first
    | assumption
    | intro _
    | exact within_trans (by decide) hT
    | apply Node.captureHeld_reach
    | apply Node.upTo_reach
    | apply Node.log_reach
    | apply Node.updFio_reach
    | apply Node.driveAll_reach
    | apply Node.beginHold_reach
    | apply Reach.ite
    | apply Reach.foldl
    | split

theorem execIoWatchdogResume_reach {ps : List Part} {n0 : Node} (st nx : State) (hs : Reach ps n0 st.node) (hT : within [.fio, .time] ps = true) (h : execIoWatchdogResume st = .next nx) : Reach ps n0 nx.node := by
  unfold execIoWatchdogResume at h
  refine Reach.ofRun h ?_
  try dsimp only
  with_reducible repeat' first
    | assumption
    | intro _
    | exact within_trans (by decide) hT
    | apply Node.upTo_reach
    | apply Node.updFio_reach
    | apply Reach.ite
    | apply Reach.foldl
    | split

theorem execIslandControl_reach {ps : List Part} {n0 : Node} (path : Nat) (idx : Nat) (st nx : State) (hs : Reach ps n0 st.node) (hT : within [.isl, .mem, .ram, .power, .host, .stalls, .cache, .rcp, .loops, .fio, .adc, .encs, .axes, .drives, .line, .time, .zb, .cust, .lifts, .gates, .harv, .rcd, .safe, .glean, .sec, .hlth, .freeCtr] ps = true) (h : execIslandControl path idx st = .next nx) : Reach ps n0 nx.node := by
  unfold execIslandControl at h
  refine Reach.ofRun h ?_
  try dsimp only
  with_reducible repeat' first
    | assumption
    | intro _
    | exact within_trans (by decide) hT
    | apply Node.hostCmd_reach
    | apply Node.checked_reach
    | apply Node.startOp_reach
    | apply Node.ok_reach
    | apply Reach.ite
    | apply Reach.foldl
    | split

theorem execIslandLoadDone_reach {ps : List Part} {n0 : Node} (i : Nat) (ok : Bool) (st nx : State) (hs : Reach ps n0 st.node) (hT : within [.isl, .mem, .ram, .power, .host, .stalls, .cache, .rcp, .loops, .fio, .adc, .encs, .axes, .drives, .line, .time, .zb, .cust, .lifts, .gates, .harv, .rcd, .safe, .glean, .sec, .freeCtr] ps = true) (h : execIslandLoadDone i ok st = .next nx) : Reach ps n0 nx.node := by
  unfold execIslandLoadDone at h
  refine Reach.ofRun h ?_
  try dsimp only
  with_reducible repeat' first
    | assumption
    | intro _
    | exact within_trans (by decide) hT
    | apply Node.runImage_reach
    | apply Node.islandLog_reach
    | apply Node.islandRuns_reach
    | apply Node.islandFails_reach
    | apply Reach.ite
    | apply Reach.foldl
    | split

theorem execIslandStatus_reach {ps : List Part} {n0 : Node} (path : Nat) (idx : Nat) (st nx : State) (hs : Reach ps n0 st.node) (hT : within [.isl, .mem, .ram, .host, .line, .rcd, .freeCtr] ps = true) (h : execIslandStatus path idx st = .next nx) : Reach ps n0 nx.node := by
  unfold execIslandStatus at h
  refine Reach.ofRun h ?_
  try dsimp only
  with_reducible repeat' first
    | assumption
    | intro _
    | exact within_trans (by decide) hT
    | apply Node.hostCmd_reach
    | apply Node.checked_reach
    | apply Node.updIsland_reach
    | apply Node.ok_reach
    | apply Reach.ite
    | apply Reach.foldl
    | split

theorem execIslandUpdate_reach {ps : List Part} {n0 : Node} (path : Nat) (idx : Nat) (st nx : State) (hs : Reach ps n0 st.node) (hT : within [.isl, .mem, .ram, .power, .host, .stalls, .cache, .rcp, .loops, .fio, .adc, .encs, .axes, .drives, .line, .time, .zb, .cust, .lifts, .gates, .harv, .rcd, .safe, .glean, .sec, .hlth, .freeCtr] ps = true) (h : execIslandUpdate path idx st = .next nx) : Reach ps n0 nx.node := by
  unfold execIslandUpdate at h
  refine Reach.ofRun h ?_
  try dsimp only
  with_reducible repeat' first
    | assumption
    | intro _
    | exact within_trans (by decide) hT
    | apply Node.hostCmd_reach
    | apply Node.checked_reach
    | apply Node.ok_reach
    | apply Node.answerIsland_reach
    | apply Node.reloadPort_reach
    | apply Node.startOp_reach
    | apply Reach.ite
    | apply Reach.foldl
    | split

theorem execKereyFrameForward_reach {ps : List Part} {n0 : Node} (p : Nat) (mac : Nat) (level : Nat) (type : Nat) (flags : Nat) (dst : Nat) (src : Nat) (ttl : Nat) (seq : Nat) (payload : List Nat) (hcrc : Nat) (fcs : Nat) (fec : Nat × Nat) (st nx : State) (hs : Reach ps n0 st.node) (hT : within [.line, .rcd, .glean] ps = true) (h : execKereyFrameForward p mac level type flags dst src ttl seq payload hcrc fcs fec st = .next nx) : Reach ps n0 nx.node := by
  unfold execKereyFrameForward at h
  refine Reach.ofRun h ?_
  try dsimp only
  with_reducible repeat' first
    | assumption
    | intro _
    | exact within_trans (by decide) hT
    | apply Node.updPort_reach
    | apply Node.egress_reach
    | apply Node.badFrame_reach
    | apply Node.deliver_reach
    | apply Node.log_reach
    | apply Node.switch_reach
    | apply Reach.ite
    | apply Reach.foldl
    | split

theorem execLatchInputEdge_reach {ps : List Part} {n0 : Node} (input : Nat) (rising : Bool) (st nx : State) (hs : Reach ps n0 st.node) (hT : within [.encs] ps = true) (h : execLatchInputEdge input rising st = .next nx) : Reach ps n0 nx.node := by
  unfold execLatchInputEdge at h
  refine Reach.ofRun h ?_
  try dsimp only
  with_reducible repeat' first
    | assumption
    | intro _
    | exact within_trans (by decide) hT
    | apply Node.captureAll_reach
    | apply Reach.ite
    | apply Reach.foldl
    | split

theorem execLatchInstant_reach {ps : List Part} {n0 : Node} (i : Nat) (l : Nat) (t : T64) (st nx : State) (hs : Reach ps n0 st.node) (hT : within [.encs, .time] ps = true) (h : execLatchInstant i l t st = .next nx) : Reach ps n0 nx.node := by
  unfold execLatchInstant at h
  refine Reach.ofRun h ?_
  try dsimp only
  with_reducible repeat' first
    | assumption
    | intro _
    | exact within_trans (by decide) hT
    | apply Node.setEnc_reach
    | apply Node.upTo_reach
    | apply Reach.ite
    | apply Reach.foldl
    | split

theorem execLeave_reach {ps : List Part} {n0 : Node} (p : Nat) (st nx : State) (hs : Reach ps n0 st.node) (hT : within [.line, .time, .rcd, .glean, .freeCtr] ps = true) (h : execLeave p st = .next nx) : Reach ps n0 nx.node := by
  unfold execLeave at h
  refine Reach.ofRun h ?_
  try dsimp only
  with_reducible repeat' first
    | assumption
    | intro _
    | exact within_trans (by decide) hT
    | apply Node.portDown_reach
    | apply Reach.ite
    | apply Reach.foldl
    | split

theorem execLevelFlagEdge_reach {ps : List Part} {n0 : Node} (l : Nat) (k : Nat) (t : Nat) (st nx : State) (hs : Reach ps n0 st.node) (hT : within [.stalls, .cache, .fio, .axes, .drives, .time, .zb, .cust, .lifts, .rcd, .freeCtr] ps = true) (h : execLevelFlagEdge l k t st = .next nx) : Reach ps n0 nx.node := by
  unfold execLevelFlagEdge at h
  refine Reach.ofRun h ?_
  try dsimp only
  with_reducible repeat' first
    | assumption
    | intro _
    | exact within_trans (by decide) hT
    | apply Node.updLift_reach
    | apply Node.sampleLift_reach
    | apply Node.upTo_reach
    | apply Node.travelTo_reach
    | apply Node.correct_reach
    | apply Node.shiftDrive_reach
    | apply Node.log_reach
    | apply Node.stopCar_reach
    | apply Reach.ite
    | apply Reach.foldl
    | split

theorem execLevelFrame_reach {ps : List Part} {n0 : Node} (src : Nat) (at_ : Nat) (op : Nat) (l : Nat) (t : Nat) (st nx : State) (hs : Reach ps n0 st.node) (hT : within [.line, .rcd, .glean, .freeCtr] ps = true) (h : execLevelFrame src at_ op l t st = .next nx) : Reach ps n0 nx.node := by
  unfold execLevelFrame at h
  refine Reach.ofRun h ?_
  try dsimp only
  with_reducible repeat' first
    | assumption
    | intro _
    | exact within_trans (by decide) hT
    | apply Node.raise_reach
    | apply Node.updLine_reach
    | apply Node.free_reach
    | apply Node.log_reach
    | refine Reach.ofSnd (by assumption) ?_
    | apply Reach.ite
    | apply Reach.foldl
    | split

theorem execLevelRaise_reach {ps : List Part} {n0 : Node} (path : Nat) (idx : Nat) (st nx : State) (hs : Reach ps n0 st.node) (hT : within [.mem, .ram, .host, .line, .rcd, .freeCtr] ps = true) (h : execLevelRaise path idx st = .next nx) : Reach ps n0 nx.node := by
  unfold execLevelRaise at h
  refine Reach.ofRun h ?_
  try dsimp only
  with_reducible repeat' first
    | assumption
    | intro _
    | exact within_trans (by decide) hT
    | apply Node.hostCmd_reach
    | apply Node.checked_reach
    | apply Node.updLine_reach
    | apply Node.ok_reach
    | apply Node.send_reach
    | apply Reach.ite
    | apply Reach.foldl
    | split

theorem execLevelRaiseInstant_reach {ps : List Part} {n0 : Node} (st nx : State) (hs : Reach ps n0 st.node) (hT : within [.line, .time, .rcd] ps = true) (h : execLevelRaiseInstant st = .next nx) : Reach ps n0 nx.node := by
  unfold execLevelRaiseInstant at h
  refine Reach.ofRun h ?_
  try dsimp only
  with_reducible repeat' first
    | assumption
    | intro _
    | exact within_trans (by decide) hT
    | apply Node.log_reach
    | apply Node.updLine_reach
    | apply Node.upTo_reach
    | apply Reach.ite
    | apply Reach.foldl
    | split

theorem execLiftArrivalSettled_reach {ps : List Part} {n0 : Node} (l : Nat) (st nx : State) (hs : Reach ps n0 st.node) (hT : within [.time, .lifts, .safe] ps = true) (h : execLiftArrivalSettled l st = .next nx) : Reach ps n0 nx.node := by
  unfold execLiftArrivalSettled at h
  refine Reach.ofRun h ?_
  try dsimp only
  with_reducible repeat' first
    | assumption
    | intro _
    | exact within_trans (by decide) hT
    | apply Node.arriving_reach
    | apply Node.upTo_reach
    | apply Reach.ite
    | apply Reach.foldl
    | split

theorem execLiftArrivalTimeout_reach {ps : List Part} {n0 : Node} (l : Nat) (st nx : State) (hs : Reach ps n0 st.node) (hT : within [.stalls, .cache, .fio, .axes, .drives, .time, .zb, .cust, .lifts, .gates, .rcd, .safe] ps = true) (h : execLiftArrivalTimeout l st = .next nx) : Reach ps n0 nx.node := by
  unfold execLiftArrivalTimeout at h
  refine Reach.ofRun h ?_
  try dsimp only
  with_reducible repeat' first
    | assumption
    | intro _
    | exact within_trans (by decide) hT
    | apply Node.arriveNow_reach
    | apply Node.upTo_reach
    | apply Node.liftFault_reach
    | apply Node.travelTo_reach
    | apply Node.sfRequest_reach
    | apply Node.updLift_reach
    | apply Reach.ite
    | apply Reach.foldl
    | split

theorem execLiftCall_reach {ps : List Part} {n0 : Node} (path : Nat) (idx : Nat) (st nx : State) (hs : Reach ps n0 st.node) (hT : within [.mem, .ram, .host, .stalls, .cache, .fio, .axes, .drives, .line, .zb, .cust, .lifts, .gates, .rcd, .safe, .freeCtr] ps = true) (h : execLiftCall path idx st = .next nx) : Reach ps n0 nx.node := by
  unfold execLiftCall at h
  refine Reach.ofRun h ?_
  try dsimp only
  with_reducible repeat' first
    | assumption
    | intro _
    | exact within_trans (by decide) hT
    | apply Node.hostCmd_reach
    | apply Node.checked_reach
    | apply Node.liftCall_reach
    | apply Node.ok_reach
    | apply Node.answer_reach
    | refine Reach.ofSnd2 (by assumption) ?_
    | apply Reach.ite
    | apply Reach.foldl
    | split

theorem execLiftDriveAtTarget_reach {ps : List Part} {n0 : Node} (l : Nat) (st nx : State) (hs : Reach ps n0 st.node) (hT : within [.lifts, .safe] ps = true) (h : execLiftDriveAtTarget l st = .next nx) : Reach ps n0 nx.node := by
  unfold execLiftDriveAtTarget at h
  refine Reach.ofRun h ?_
  try dsimp only
  with_reducible repeat' first
    | assumption
    | intro _
    | exact within_trans (by decide) hT
    | apply Node.arriving_reach
    | apply Reach.ite
    | apply Reach.foldl
    | split

theorem execLiftInterlockChange_reach {ps : List Part} {n0 : Node} (l : Nat) (st nx : State) (hs : Reach ps n0 st.node) (hT : within [.stalls, .cache, .fio, .axes, .drives, .zb, .cust, .lifts, .gates, .rcd, .safe, .freeCtr] ps = true) (h : execLiftInterlockChange l st = .next nx) : Reach ps n0 nx.node := by
  unfold execLiftInterlockChange at h
  refine Reach.ofRun h ?_
  try dsimp only
  with_reducible repeat' first
    | assumption
    | intro _
    | exact within_trans (by decide) hT
    | apply Node.updLift_reach
    | apply Node.haltLift_reach
    | apply Node.arriveNow_reach
    | apply Node.depart_reach
    | apply Node.unhaltLift_reach
    | apply Node.openGate_reach
    | apply Reach.ite
    | apply Reach.foldl
    | split

theorem execLiftParkDue_reach {ps : List Part} {n0 : Node} (l : Nat) (st nx : State) (hs : Reach ps n0 st.node) (hT : within [.stalls, .cache, .fio, .axes, .drives, .time, .zb, .cust, .lifts, .gates, .rcd, .safe] ps = true) (h : execLiftParkDue l st = .next nx) : Reach ps n0 nx.node := by
  unfold execLiftParkDue at h
  refine Reach.ofRun h ?_
  try dsimp only
  with_reducible repeat' first
    | assumption
    | intro _
    | exact within_trans (by decide) hT
    | apply Node.upTo_reach
    | apply Node.departTo_reach
    | apply Reach.ite
    | apply Reach.foldl
    | split

theorem execLiftPositionUpdate_reach {ps : List Part} {n0 : Node} (l : Nat) (st nx : State) (hs : Reach ps n0 st.node) (hT : within [.stalls, .cache, .fio, .axes, .drives, .time, .zb, .cust, .lifts, .gates, .rcd, .safe] ps = true) (h : execLiftPositionUpdate l st = .next nx) : Reach ps n0 nx.node := by
  unfold execLiftPositionUpdate at h
  refine Reach.ofRun h ?_
  try dsimp only
  with_reducible repeat' first
    | assumption
    | intro _
    | exact within_trans (by decide) hT
    | apply Node.sampleLift_reach
    | apply Node.upTo_reach
    | apply Node.updLift_reach
    | apply Node.checkFlags_reach
    | apply Node.showLift_reach
    | apply Node.dwellClose_reach
    | apply Node.arriveNow_reach
    | apply Node.retarget_reach
    | apply Node.depart_reach
    | apply Node.serveCalls_reach
    | apply Reach.ite
    | apply Reach.foldl
    | split

theorem execLiftRefTravelExceeded_reach {ps : List Part} {n0 : Node} (l : Nat) (st nx : State) (hs : Reach ps n0 st.node) (hT : within [.stalls, .cache, .fio, .axes, .drives, .zb, .cust, .lifts, .rcd, .freeCtr] ps = true) (h : execLiftRefTravelExceeded l st = .next nx) : Reach ps n0 nx.node := by
  unfold execLiftRefTravelExceeded at h
  refine Reach.ofRun h ?_
  try dsimp only
  with_reducible repeat' first
    | assumption
    | intro _
    | exact within_trans (by decide) hT
    | apply Node.sampleLift_reach
    | apply Node.liftFault_reach
    | apply Node.stopCar_reach
    | apply Reach.ite
    | apply Reach.foldl
    | split

theorem execLiftStatus_reach {ps : List Part} {n0 : Node} (path : Nat) (idx : Nat) (st nx : State) (hs : Reach ps n0 st.node) (hT : within [.mem, .ram, .host, .line, .rcd, .freeCtr] ps = true) (h : execLiftStatus path idx st = .next nx) : Reach ps n0 nx.node := by
  unfold execLiftStatus at h
  refine Reach.ofRun h ?_
  try dsimp only
  with_reducible repeat' first
    | assumption
    | intro _
    | exact within_trans (by decide) hT
    | apply Node.hostCmd_reach
    | apply Node.checked_reach
    | apply Node.ok_reach
    | apply Reach.ite
    | apply Reach.foldl
    | split

theorem execLimitSwitch_reach {ps : List Part} {n0 : Node} (a : Nat) (positive : Bool) (st nx : State) (hs : Reach ps n0 st.node) (hT : within [.axes, .rcd, .freeCtr] ps = true) (h : execLimitSwitch a positive st = .next nx) : Reach ps n0 nx.node := by
  unfold execLimitSwitch at h
  refine Reach.ofRun h ?_
  try dsimp only
  with_reducible repeat' first
    | assumption
    | intro _
    | exact within_trans (by decide) hT
    | apply Node.limitStop_reach
    | apply Node.settle_reach
    | apply Reach.ite
    | apply Reach.foldl
    | split

theorem execLineCycleApply_reach {ps : List Part} {n0 : Node} (st nx : State) (hs : Reach ps n0 st.node) (hT : within [.line, .time] ps = true) (h : execLineCycleApply st = .next nx) : Reach ps n0 nx.node := by
  unfold execLineCycleApply at h
  refine Reach.ofRun h ?_
  try dsimp only
  with_reducible repeat' first
    | assumption
    | intro _
    | exact within_trans (by decide) hT
    | apply Node.upTo_reach
    | apply Node.updLine_reach
    | apply Node.updPort_reach
    | apply Node.transmit_reach
    | apply Reach.ite
    | apply Reach.foldl
    | split

theorem execLineCycleBoundary_reach {ps : List Part} {n0 : Node} (t : T64) (st nx : State) (hs : Reach ps n0 st.node) (hT : within [.stalls, .line, .time, .rcd, .freeCtr] ps = true) (h : execLineCycleBoundary t st = .next nx) : Reach ps n0 nx.node := by
  unfold execLineCycleBoundary at h
  refine Reach.ofRun h ?_
  try dsimp only
  with_reducible repeat' first
    | assumption
    | intro _
    | exact within_trans (by decide) hT
    | apply Node.upTo_reach
    | apply Node.gateChange_reach
    | apply Node.updLine_reach
    | apply Node.repeatRequests_reach
    | apply Node.sendHop_reach
    | apply Reach.ite
    | apply Reach.set_stalls (m := st.node)
    | apply Reach.foldl
    | split
    | apply Reach.set_stalls

theorem execLineOvervoltage_reach {ps : List Part} {n0 : Node} (st nx : State) (hs : Reach ps n0 st.node) (hT : within [.isl, .lastCrossing, .mem, .ram, .power, .host, .stalls, .cache, .rcp, .loops, .fio, .adc, .encs, .axes, .drives, .line, .time, .zb, .cust, .lifts, .gates, .harv, .rcd, .safe, .glean, .sec, .hlth, .freeCtr] ps = true) (h : execLineOvervoltage st = .next nx) : Reach ps n0 nx.node := by
  unfold execLineOvervoltage at h
  refine Reach.ofRun h ?_
  try dsimp only
  with_reducible repeat' first
    | assumption
    | intro _
    | exact within_trans (by decide) hT
    | apply Node.updPower_reach
    | apply Node.powerDown_reach
    | apply Reach.ite
    | apply Reach.foldl
    | split

theorem execLineStatus_reach {ps : List Part} {n0 : Node} (path : Nat) (idx : Nat) (st nx : State) (hs : Reach ps n0 st.node) (hT : within [.mem, .ram, .host, .line, .rcd, .freeCtr] ps = true) (h : execLineStatus path idx st = .next nx) : Reach ps n0 nx.node := by
  unfold execLineStatus at h
  refine Reach.ofRun h ?_
  try dsimp only
  with_reducible repeat' first
    | assumption
    | intro _
    | exact within_trans (by decide) hT
    | apply Node.hostCmd_reach
    | apply Node.checked_reach
    | apply Node.setPort_reach
    | apply Node.ok_reach
    | apply Reach.ite
    | apply Reach.foldl
    | split

theorem execLineVoltageLow_reach {ps : List Part} {n0 : Node} (st nx : State) (hs : Reach ps n0 st.node) (hT : within [.power, .rcd, .glean, .freeCtr] ps = true) (h : execLineVoltageLow st = .next nx) : Reach ps n0 nx.node := by
  unfold execLineVoltageLow at h
  refine Reach.ofRun h ?_
  try dsimp only
  with_reducible repeat' first
    | assumption
    | intro _
    | exact within_trans (by decide) hT
    | apply Node.raise_reach
    | apply Node.logFree_reach
    | apply Node.updPower_reach
    | apply Reach.ite
    | apply Reach.foldl
    | split

theorem execLineVoltageLowClear_reach {ps : List Part} {n0 : Node} (st nx : State) (hs : Reach ps n0 st.node) (hT : within [.power] ps = true) (h : execLineVoltageLowClear st = .next nx) : Reach ps n0 nx.node := by
  unfold execLineVoltageLowClear at h
  refine Reach.ofRun h ?_
  try dsimp only
  with_reducible repeat' first
    | assumption
    | intro _
    | exact within_trans (by decide) hT
    | apply Node.updPower_reach
    | apply Reach.ite
    | apply Reach.foldl
    | split

theorem execLinepointStale_reach {ps : List Part} {n0 : Node} (k : Nat) (st nx : State) (hs : Reach ps n0 st.node) (hT : within [.mem, .ram, .host, .stalls, .cache, .loops, .fio, .encs, .axes, .drives, .line, .zb, .cust, .lifts, .gates, .rcd, .hlth, .freeCtr] ps = true) (h : execLinepointStale k st = .next nx) : Reach ps n0 nx.node := by
  unfold execLinepointStale at h
  refine Reach.ofRun h ?_
  try dsimp only
  with_reducible repeat' first
    | assumption
    | intro _
    | exact within_trans (by decide) hT
    | apply Node.transientFault_reach
    | apply Reach.ite
    | apply Reach.foldl
    | split

theorem execLinkHello_reach {ps : List Part} {n0 : Node} (p : Nat) (address : Nat) (level : Nat) (serial : Nat) (st nx : State) (hs : Reach ps n0 st.node) (hT : within [.line, .time, .rcd, .glean, .freeCtr] ps = true) (h : execLinkHello p address level serial st = .next nx) : Reach ps n0 nx.node := by
  unfold execLinkHello at h
  refine Reach.ofRun h ?_
  try dsimp only
  with_reducible repeat' first
    | assumption
    | intro _
    | exact within_trans (by decide) hT
    | apply Node.setPort_reach
    | apply Node.log_reach
    | apply Node.raise_reach
    | apply Node.report_reach
    | apply Node.learnRoutes_reach
    | apply Node.ringHealedAt_reach
    | apply Node.ringBreakAt_reach
    | apply Node.withdraw_reach
    | apply Node.slaveLeaves_reach
    | apply Reach.ite
    | apply Reach.foldl
    | split

theorem execLinkHelloTimeout_reach {ps : List Part} {n0 : Node} (p : Nat) (st nx : State) (hs : Reach ps n0 st.node) (hT : within [.line, .time, .glean, .freeCtr] ps = true) (h : execLinkHelloTimeout p st = .next nx) : Reach ps n0 nx.node := by
  unfold execLinkHelloTimeout at h
  refine Reach.ofRun h ?_
  try dsimp only
  with_reducible repeat' first
    | assumption
    | intro _
    | exact within_trans (by decide) hT
    | apply Node.raise_reach
    | apply Node.report_reach
    | apply Node.setPort_reach
    | apply Node.upTo_reach
    | apply Reach.ite
    | apply Reach.foldl
    | split

theorem execLinkLost_reach {ps : List Part} {n0 : Node} (p : Nat) (st nx : State) (hs : Reach ps n0 st.node) (hT : within [.line, .time, .rcd, .glean, .freeCtr] ps = true) (h : execLinkLost p st = .next nx) : Reach ps n0 nx.node := by
  unfold execLinkLost at h
  refine Reach.ofRun h ?_
  try dsimp only
  with_reducible repeat' first
    | assumption
    | intro _
    | exact within_trans (by decide) hT
    | apply Node.report_reach
    | apply Node.setPort_reach
    | apply Node.portDown_reach
    | apply Reach.ite
    | apply Reach.foldl
    | split

theorem execLinkUp_reach {ps : List Part} {n0 : Node} (p : Nat) (length : Nat) (preempt : Bool) (lpi : Bool) (st nx : State) (hs : Reach ps n0 st.node) (hT : within [.power, .line, .time, .rcd, .glean, .hlth, .freeCtr] ps = true) (h : execLinkUp p length preempt lpi st = .next nx) : Reach ps n0 nx.node := by
  unfold execLinkUp at h
  refine Reach.ofRun h ?_
  try dsimp only
  with_reducible repeat' first
    | assumption
    | intro _
    | exact within_trans (by decide) hT
    | apply Node.judgeLink_reach
    | apply Node.setPort_reach
    | apply Reach.ite
    | apply Reach.foldl
    | split

theorem execLock_reach {ps : List Part} {n0 : Node} (i : Nat) (st nx : State) (hs : Reach ps n0 st.node) (hT : within [.safe] ps = true) (h : execLock i st = .next nx) : Reach ps n0 nx.node := by
  unfold execLock at h
  refine Reach.ofRun h ?_
  try dsimp only
  with_reducible repeat' first
    | assumption
    | intro _
    | exact within_trans (by decide) hT
    | apply Node.sfPlace_reach
    | apply Reach.ite
    | apply Reach.foldl
    | split

theorem execLockAchieved_reach {ps : List Part} {n0 : Node} (i : Nat) (st nx : State) (hs : Reach ps n0 st.node) (hT : within [.isl, .mem, .ram, .host, .stalls, .cache, .rcp, .loops, .fio, .adc, .encs, .axes, .drives, .line, .zb, .cust, .lifts, .gates, .rcd, .safe, .freeCtr] ps = true) (h : execLockAchieved i st = .next nx) : Reach ps n0 nx.node := by
  unfold execLockAchieved at h
  refine Reach.ofRun h ?_
  try dsimp only
  with_reducible repeat' first
    | assumption
    | intro _
    | exact within_trans (by decide) hT
    | apply Node.updIsland_reach
    | apply Node.islandRuns_reach
    | apply Reach.ite
    | apply Reach.foldl
    | split

theorem execLockMonitorTimeout_reach {ps : List Part} {n0 : Node} (i : Nat) (st nx : State) (hs : Reach ps n0 st.node) (hT : within [.fio, .time, .rcd, .safe] ps = true) (h : execLockMonitorTimeout i st = .next nx) : Reach ps n0 nx.node := by
  unfold execLockMonitorTimeout at h
  refine Reach.ofRun h ?_
  try dsimp only
  with_reducible repeat' first
    | assumption
    | intro _
    | exact within_trans (by decide) hT
    | apply Node.updChan_reach
    | apply Node.upTo_reach
    | apply Node.sfSwitch_reach
    | apply Node.sfLog_reach
    | apply Reach.ite
    | apply Reach.foldl
    | split

theorem execLoopUpdate_reach {ps : List Part} {n0 : Node} (k : Nat) (drops : Nat) (st nx : State) (hs : Reach ps n0 st.node) (hT : within [.mem, .ram, .host, .stalls, .cache, .rcp, .loops, .fio, .encs, .axes, .drives, .line, .time, .zb, .cust, .lifts, .gates, .rcd, .hlth, .freeCtr] ps = true) (h : execLoopUpdate k drops st = .next nx) : Reach ps n0 nx.node := by
  unfold execLoopUpdate at h
  refine Reach.ofRun h ?_
  try dsimp only
  with_reducible repeat' first
    | assumption
    | intro _
    | exact within_trans (by decide) hT
    | apply Node.dropUpdates_reach
    | apply Node.loopsAt_reach
    | apply Node.applyDue_reach
    | apply Node.loopAt_reach
    | apply Reach.ite
    | apply Reach.foldl
    | split

theorem execLpiEnter_reach {ps : List Part} {n0 : Node} (p : Nat) (st nx : State) (hs : Reach ps n0 st.node) (hT : within [.line] ps = true) (h : execLpiEnter p st = .next nx) : Reach ps n0 nx.node := by
  unfold execLpiEnter at h
  refine Reach.ofRun h ?_
  try dsimp only
  with_reducible repeat' first
    | assumption
    | intro _
    | exact within_trans (by decide) hT
    | apply Node.setPort_reach
    | apply Reach.ite
    | apply Reach.foldl
    | split

theorem execLpiExit_reach {ps : List Part} {n0 : Node} (p : Nat) (st nx : State) (hs : Reach ps n0 st.node) (hT : within [.line] ps = true) (h : execLpiExit p st = .next nx) : Reach ps n0 nx.node := by
  unfold execLpiExit at h
  refine Reach.ofRun h ?_
  try dsimp only
  with_reducible repeat' first
    | assumption
    | intro _
    | exact within_trans (by decide) hT
    | apply Node.updPort_reach
    | apply Reach.ite
    | apply Reach.foldl
    | split

theorem execMailboxFrame_reach {ps : List Part} {n0 : Node} (src : Nat) (frame : List Nat) (st nx : State) (hs : Reach ps n0 st.node) (hT : within [.mem, .ram, .host, .line, .rcd, .glean, .freeCtr] ps = true) (h : execMailboxFrame src frame st = .next nx) : Reach ps n0 nx.node := by
  unfold execMailboxFrame at h
  refine Reach.ofRun h ?_
  try dsimp only
  with_reducible repeat' first
    | assumption
    | intro _
    | exact within_trans (by decide) hT
    | apply Node.raise_reach
    | apply Node.lineBusy_reach
    | apply Node.write_reach
    | apply Node.post_reach
    | apply Reach.ite
    | apply Reach.foldl
    | split

theorem execMailboxTake_reach {ps : List Part} {n0 : Node} (st nx : State) (hs : Reach ps n0 st.node) (hT : within [.isl, .mem, .ram, .power, .host, .stalls, .cache, .rcp, .loops, .fio, .adc, .encs, .axes, .drives, .line, .time, .zb, .cust, .lifts, .gates, .harv, .rcd, .safe, .glean, .sec, .hlth, .freeCtr] ps = true) (h : execMailboxTake st = .next nx) : Reach ps n0 nx.node := by
  unfold execMailboxTake at h
  refine Reach.ofRun h ?_
  try dsimp only
  with_reducible repeat' first
    | assumption
    | intro _
    | exact within_trans (by decide) hT
    | apply Node.judgeRequest_reach
    | apply Node.updHost_reach
    | apply Node.answer_reach
    | apply Node.takeRequest_reach
    | apply Node.postFirmware_reach
    | refine Reach.ofSnd (by assumption) ?_
    | apply Reach.ite
    | apply Reach.foldl
    | split

theorem execMirrorDrop_reach {ps : List Part} {n0 : Node} (p : Nat) (parcels : List Nat) (st nx : State) (hs : Reach ps n0 st.node) (hT : within [.cust, .glean] ps = true) (h : execMirrorDrop p parcels st = .next nx) : Reach ps n0 nx.node := by
  unfold execMirrorDrop at h
  refine Reach.ofRun h ?_
  try dsimp only
  with_reducible repeat' first
    | assumption
    | intro _
    | exact within_trans (by decide) hT
    | apply Node.custIn_reach
    | apply Node.updCust_reach
    | apply Reach.ite
    | apply Reach.foldl
    | split

theorem execMirrorFull_reach {ps : List Part} {n0 : Node} (p : Nat) (parcel : Nat) (version : Nat) (st nx : State) (hs : Reach ps n0 st.node) (hT : within [.line, .cust, .rcd, .glean, .freeCtr] ps = true) (h : execMirrorFull p parcel version st = .next nx) : Reach ps n0 nx.node := by
  unfold execMirrorFull at h
  refine Reach.ofRun h ?_
  try dsimp only
  with_reducible repeat' first
    | assumption
    | intro _
    | exact within_trans (by decide) hT
    | apply Node.custIn_reach
    | apply Node.startCheckpoint_reach
    | apply Node.mirrorFull_reach
    | apply Node.updCust_reach
    | apply Node.mirrorAgain_reach
    | apply Reach.ite
    | apply Reach.foldl
    | split

theorem execMirrorUpdate_reach {ps : List Part} {n0 : Node} (p : Nat) (records : List (List Nat)) (st nx : State) (hs : Reach ps n0 st.node) (hT : within [.line, .cust, .glean, .freeCtr] ps = true) (h : execMirrorUpdate p records st = .next nx) : Reach ps n0 nx.node := by
  unfold execMirrorUpdate at h
  refine Reach.ofRun h ?_
  try dsimp only
  with_reducible repeat' first
    | assumption
    | intro _
    | exact within_trans (by decide) hT
    | apply Node.custIn_reach
    | apply Node.custNote_reach
    | apply Reach.ite
    | apply Reach.set_cust (m := st.node)
    | apply Reach.foldl
    | split
    | apply Reach.set_cust

theorem execNodeIdent_reach {ps : List Part} {n0 : Node} (path : Nat) (idx : Nat) (st nx : State) (hs : Reach ps n0 st.node) (hT : within [.mem, .ram, .host, .line, .rcd, .freeCtr] ps = true) (h : execNodeIdent path idx st = .next nx) : Reach ps n0 nx.node := by
  unfold execNodeIdent at h
  refine Reach.ofRun h ?_
  try dsimp only
  with_reducible repeat' first
    | assumption
    | intro _
    | exact within_trans (by decide) hT
    | apply Node.hostCmd_reach
    | apply Node.checked_reach
    | apply Node.ok_reach
    | apply Reach.ite
    | apply Reach.foldl
    | split

theorem execNodeReset_reach {ps : List Part} {n0 : Node} (path : Nat) (idx : Nat) (st nx : State) (hs : Reach ps n0 st.node) (hT : within [.isl, .mem, .ram, .power, .host, .stalls, .cache, .rcp, .loops, .fio, .adc, .encs, .axes, .drives, .line, .time, .zb, .cust, .lifts, .gates, .harv, .rcd, .safe, .glean, .sec, .hlth, .freeCtr] ps = true) (h : execNodeReset path idx st = .next nx) : Reach ps n0 nx.node := by
  unfold execNodeReset at h
  refine Reach.ofRun h ?_
  try dsimp only
  with_reducible repeat' first
    | assumption
    | intro _
    | exact within_trans (by decide) hT
    | apply Node.hostCmd_reach
    | apply Node.checked_reach
    | apply Node.startOp_reach
    | apply Node.ok_reach
    | apply Node.updHost_reach
    | apply Node.stopNow_reach
    | apply Reach.ite
    | apply Reach.foldl
    | split

theorem execNodeResetStandstill_reach {ps : List Part} {n0 : Node} (late : Bool) (st nx : State) (hs : Reach ps n0 st.node) (hT : within [.isl, .lastCrossing, .mem, .ram, .power, .host, .stalls, .cache, .rcp, .loops, .fio, .adc, .encs, .axes, .drives, .line, .time, .zb, .cust, .lifts, .gates, .harv, .rcd, .safe, .glean, .sec, .hlth] ps = true) (h : execNodeResetStandstill late st = .next nx) : Reach ps n0 nx.node := by
  unfold execNodeResetStandstill at h
  refine Reach.ofRun h ?_
  try dsimp only
  with_reducible repeat' first
    | assumption
    | intro _
    | exact within_trans (by decide) hT
    | apply Node.upTo_reach
    | apply Node.deviceReset_reach
    | apply Node.downT1_reach
    | apply Reach.ite
    | apply Reach.foldl
    | split

theorem execNodeStatus_reach {ps : List Part} {n0 : Node} (path : Nat) (idx : Nat) (st nx : State) (hs : Reach ps n0 st.node) (hT : within [.mem, .ram, .host, .line, .rcd, .freeCtr] ps = true) (h : execNodeStatus path idx st = .next nx) : Reach ps n0 nx.node := by
  unfold execNodeStatus at h
  refine Reach.ofRun h ?_
  try dsimp only
  with_reducible repeat' first
    | assumption
    | intro _
    | exact within_trans (by decide) hT
    | apply Node.hostCmd_reach
    | apply Node.checked_reach
    | apply Node.ok_reach
    | apply Reach.ite
    | apply Reach.foldl
    | split

theorem execNodeWrite_reach {ps : List Part} {n0 : Node} (src : Nat) (stall : Nat) (value : Nat) (t : T64) (st nx : State) (hs : Reach ps n0 st.node) (hT : within [.stalls, .cache, .fio, .zb, .cust, .rcd, .glean] ps = true) (h : execNodeWrite src stall value t st = .next nx) : Reach ps n0 nx.node := by
  unfold execNodeWrite at h
  refine Reach.ofRun h ?_
  try dsimp only
  with_reducible repeat' first
    | assumption
    | intro _
    | exact within_trans (by decide) hT
    | apply Node.raise_reach
    | apply Node.log_reach
    | apply Node.engineWrite_reach
    | apply Node.touch_reach
    | apply Node.setStall_reach
    | apply Reach.ite
    | apply Reach.foldl
    | split

theorem execNrstLow_reach {ps : List Part} {n0 : Node} (st nx : State) (hs : Reach ps n0 st.node) (hT : within [.isl, .lastCrossing, .mem, .ram, .power, .host, .stalls, .cache, .rcp, .loops, .fio, .adc, .encs, .axes, .drives, .line, .time, .zb, .cust, .lifts, .gates, .harv, .rcd, .safe, .glean, .sec, .hlth] ps = true) (h : execNrstLow st = .next nx) : Reach ps n0 nx.node := by
  unfold execNrstLow at h
  refine Reach.ofRun h ?_
  try dsimp only
  with_reducible repeat' first
    | assumption
    | intro _
    | exact within_trans (by decide) hT
    | apply Node.updPower_reach
    | apply Node.closeBypass_reach
    | apply Node.deviceReset_reach
    | apply Reach.ite
    | apply Reach.foldl
    | split

theorem execNrstRelease_reach {ps : List Part} {n0 : Node} (st nx : State) (hs : Reach ps n0 st.node) (hT : within [.power] ps = true) (h : execNrstRelease st = .next nx) : Reach ps n0 nx.node := by
  unfold execNrstRelease at h
  refine Reach.ofRun h ?_
  try dsimp only
  with_reducible repeat' first
    | assumption
    | intro _
    | exact within_trans (by decide) hT
    | apply Node.updPower_reach
    | apply Reach.ite
    | apply Reach.foldl
    | split

theorem execNvsRetry_reach {ps : List Part} {n0 : Node} (p : Nat) (idx : Nat) (t : T64) (ok : Bool) (st nx : State) (hs : Reach ps n0 st.node) (hT : within [.stored, .rcp, .time, .cust, .rcd, .sec, .hlth, .freeCtr] ps = true) (h : execNvsRetry p idx t ok st = .next nx) : Reach ps n0 nx.node := by
  unfold execNvsRetry at h
  refine Reach.ofRun h ?_
  try dsimp only
  with_reducible repeat' first
    | assumption
    | intro _
    | exact within_trans (by decide) hT
    | apply Node.upTo_reach
    | apply Node.updHlth_reach
    | apply Node.retireBlock_reach
    | apply Reach.ite
    | apply Reach.foldl
    | split

theorem execNvsRewrite_reach {ps : List Part} {n0 : Node} (p : Nat) (idx : Nat) (u : Nat) (ok : Bool) (st nx : State) (hs : Reach ps n0 st.node) (hT : within [.stored, .rcp, .cust, .rcd, .sec, .hlth, .freeCtr] ps = true) (h : execNvsRewrite p idx u ok st = .next nx) : Reach ps n0 nx.node := by
  unfold execNvsRewrite at h
  refine Reach.ofRun h ?_
  try dsimp only
  with_reducible repeat' first
    | assumption
    | intro _
    | exact within_trans (by decide) hT
    | apply Node.updHlth_reach
    | apply Node.retireBlock_reach
    | apply Node.loseUnit_reach
    | apply Reach.ite
    | apply Reach.foldl
    | split

theorem execOpenPhase_reach {ps : List Part} {n0 : Node} (a : Nat) (p : Nat) (st nx : State) (hs : Reach ps n0 st.node) (hT : within [.mem, .ram, .host, .stalls, .cache, .loops, .fio, .encs, .axes, .drives, .line, .zb, .cust, .lifts, .gates, .rcd, .hlth, .freeCtr] ps = true) (h : execOpenPhase a p st = .next nx) : Reach ps n0 nx.node := by
  unfold execOpenPhase at h
  refine Reach.ofRun h ?_
  try dsimp only
  with_reducible repeat' first
    | assumption
    | intro _
    | exact within_trans (by decide) hT
    | apply Node.permanentFault_reach
    | apply Node.coilsOff_reach
    | apply Reach.ite
    | apply Reach.foldl
    | split

theorem execOutputCurrentLimit_reach {ps : List Part} {n0 : Node} (o : Nat) (st nx : State) (hs : Reach ps n0 st.node) (hT : within [.mem, .ram, .host, .stalls, .cache, .loops, .fio, .encs, .axes, .drives, .line, .zb, .cust, .lifts, .gates, .rcd, .safe, .hlth, .freeCtr] ps = true) (h : execOutputCurrentLimit o st = .next nx) : Reach ps n0 nx.node := by
  unfold execOutputCurrentLimit at h
  refine Reach.ofRun h ?_
  try dsimp only
  with_reducible repeat' first
    | assumption
    | intro _
    | exact within_trans (by decide) hT
    | apply Node.outFault_reach
    | apply Reach.ite
    | apply Reach.foldl
    | split

theorem execOutputOpenLoad_reach {ps : List Part} {n0 : Node} (p : Nat) (isOpen : Bool) (milliAmp : Nat) (st nx : State) (hs : Reach ps n0 st.node) (hT : within [.stalls, .cache, .cust, .rcd] ps = true) (h : execOutputOpenLoad p isOpen milliAmp st = .next nx) : Reach ps n0 nx.node := by
  unfold execOutputOpenLoad at h
  refine Reach.ofRun h ?_
  try dsimp only
  with_reducible repeat' first
    | assumption
    | intro _
    | exact within_trans (by decide) hT
    | apply Node.log_reach
    | apply Node.putStall_reach
    | apply Reach.ite
    | apply Reach.foldl
    | split

theorem execOutputReadbackFault_reach {ps : List Part} {n0 : Node} (o : Nat) (st nx : State) (hs : Reach ps n0 st.node) (hT : within [.mem, .ram, .host, .stalls, .cache, .loops, .fio, .encs, .axes, .drives, .line, .zb, .cust, .lifts, .gates, .rcd, .hlth, .freeCtr] ps = true) (h : execOutputReadbackFault o st = .next nx) : Reach ps n0 nx.node := by
  unfold execOutputReadbackFault at h
  refine Reach.ofRun h ?_
  try dsimp only
  with_reducible repeat' first
    | assumption
    | intro _
    | exact within_trans (by decide) hT
    | apply Node.permanentFault_reach
    | apply Reach.ite
    | apply Reach.foldl
    | split

theorem execOutputRestoreSlot_reach {ps : List Part} {n0 : Node} (o : Nat) (st nx : State) (hs : Reach ps n0 st.node) (hT : within [.mem, .ram, .host, .stalls, .cache, .loops, .fio, .encs, .axes, .drives, .line, .time, .zb, .cust, .lifts, .gates, .rcd, .safe, .freeCtr] ps = true) (h : execOutputRestoreSlot o st = .next nx) : Reach ps n0 nx.node := by
  unfold execOutputRestoreSlot at h
  refine Reach.ofRun h ?_
  try dsimp only
  with_reducible repeat' first
    | assumption
    | intro _
    | exact within_trans (by decide) hT
    | apply Node.upTo_reach
    | apply Node.updFio_reach
    | apply Node.stopped_reach
    | apply Node.endHold_reach
    | apply Node.driveOut_reach
    | apply Node.log_reach
    | apply Reach.ite
    | apply Reach.foldl
    | split

theorem execPageCopyDone_reach {ps : List Part} {n0 : Node} (page : Nat) (st nx : State) (hs : Reach ps n0 st.node) (hT : within [.isl, .mem, .ram, .power, .host, .stalls, .cache, .rcp, .loops, .fio, .adc, .encs, .axes, .drives, .line, .time, .zb, .cust, .lifts, .gates, .harv, .rcd, .safe, .glean, .sec, .hlth, .freeCtr] ps = true) (h : execPageCopyDone page st = .next nx) : Reach ps n0 nx.node := by
  unfold execPageCopyDone at h
  refine Reach.ofRun h ?_
  try dsimp only
  with_reducible repeat' first
    | assumption
    | intro _
    | exact within_trans (by decide) hT
    | apply Node.pageCopied_reach
    | apply Reach.ite
    | apply Reach.foldl
    | split

theorem execPartnerLost_reach {ps : List Part} {n0 : Node} (c : Nat) (st nx : State) (hs : Reach ps n0 st.node) (hT : within [.fio, .rcd, .safe] ps = true) (h : execPartnerLost c st = .next nx) : Reach ps n0 nx.node := by
  unfold execPartnerLost at h
  refine Reach.ofRun h ?_
  try dsimp only
  with_reducible repeat' first
    | assumption
    | intro _
    | exact within_trans (by decide) hT
    | apply Node.chanGone_reach
    | apply Reach.ite
    | apply Reach.foldl
    | split

theorem execPartnerSignal_reach {ps : List Part} {n0 : Node} (p : Nat) (adv : Nat) (bypasses : Nat) (st nx : State) (hs : Reach ps n0 st.node) (hT : within [.line, .glean, .freeCtr] ps = true) (h : execPartnerSignal p adv bypasses st = .next nx) : Reach ps n0 nx.node := by
  unfold execPartnerSignal at h
  refine Reach.ofRun h ?_
  try dsimp only
  with_reducible repeat' first
    | assumption
    | intro _
    | exact within_trans (by decide) hT
    | apply Node.setPort_reach
    | apply Node.raise_reach
    | apply Node.report_reach
    | apply Node.updPort_reach
    | apply Reach.ite
    | apply Reach.foldl
    | split

theorem execPdelayReq_reach {ps : List Part} {n0 : Node} (p : Nat) (req : Nat × Nat) (raw : Nat × Nat) (st nx : State) (hs : Reach ps n0 st.node) (hT : within [.line] ps = true) (h : execPdelayReq p req raw st = .next nx) : Reach ps n0 nx.node := by
  unfold execPdelayReq at h
  refine Reach.ofRun h ?_
  try dsimp only
  with_reducible repeat' first
    | assumption
    | intro _
    | exact within_trans (by decide) hT
    | apply Node.sendPtp_reach
    | apply Reach.ite
    | apply Reach.foldl
    | split

theorem execPdelayReqSend_reach {ps : List Part} {n0 : Node} (p : Nat) (st nx : State) (hs : Reach ps n0 st.node) (hT : within [.line, .time] ps = true) (h : execPdelayReqSend p st = .next nx) : Reach ps n0 nx.node := by
  unfold execPdelayReqSend at h
  refine Reach.ofRun h ?_
  try dsimp only
  with_reducible repeat' first
    | assumption
    | intro _
    | exact within_trans (by decide) hT
    | apply Node.upTo_reach
    | apply Node.sendPtp_reach
    | apply Node.updPort_reach
    | apply Reach.ite
    | apply Reach.foldl
    | split

theorem execPdelayResp_reach {ps : List Part} {n0 : Node} (p : Nat) (raw1 : Nat) (t2 : Nat) (t3 : Nat) (raw4 : Nat) (st nx : State) (hs : Reach ps n0 st.node) (hT : within [.line] ps = true) (h : execPdelayResp p raw1 t2 t3 raw4 st = .next nx) : Reach ps n0 nx.node := by
  unfold execPdelayResp at h
  refine Reach.ofRun h ?_
  try dsimp only
  with_reducible repeat' first
    | assumption
    | intro _
    | exact within_trans (by decide) hT
    | apply Node.setPort_reach
    | apply Reach.ite
    | apply Reach.foldl
    | split

theorem execPlannerTick_reach {ps : List Part} {n0 : Node} (st nx : State) (hs : Reach ps n0 st.node) (hT : within [.mem, .ram, .host, .stalls, .cache, .axes, .drives, .line, .time, .cust, .rcd, .freeCtr] ps = true) (h : execPlannerTick st = .next nx) : Reach ps n0 nx.node := by
  unfold execPlannerTick at h
  refine Reach.ofRun h ?_
  try dsimp only
  with_reducible repeat' first
    | assumption
    | intro _
    | exact within_trans (by decide) hT
    | apply Node.axisTick_reach
    | apply Node.upTo_reach
    | apply Reach.ite
    | apply Reach.foldl
    | split

theorem execPlantFrameIn_reach {ps : List Part} {n0 : Node} (mac : Nat) (level : Nat) (type : Nat) (flags : Nat) (dst : Nat) (src : Nat) (ttl : Nat) (seq : Nat) (payload : List Nat) (st nx : State) (hs : Reach ps n0 st.node) (hT : within [.line, .rcd, .glean] ps = true) (h : execPlantFrameIn mac level type flags dst src ttl seq payload st = .next nx) : Reach ps n0 nx.node := by
  unfold execPlantFrameIn at h
  refine Reach.ofRun h ?_
  try dsimp only
  with_reducible repeat' first
    | assumption
    | intro _
    | exact within_trans (by decide) hT
    | apply Node.updPort_reach
    | apply Node.log_reach
    | apply Node.switch_reach
    | apply Node.updLine_reach
    | apply Reach.ite
    | apply Reach.foldl
    | split

theorem execPoThermalShutdown_reach {ps : List Part} {n0 : Node} (p : Nat) (st nx : State) (hs : Reach ps n0 st.node) (hT : within [.mem, .ram, .host, .stalls, .cache, .loops, .fio, .encs, .axes, .drives, .line, .zb, .cust, .lifts, .gates, .rcd, .safe, .hlth, .freeCtr] ps = true) (h : execPoThermalShutdown p st = .next nx) : Reach ps n0 nx.node := by
  unfold execPoThermalShutdown at h
  refine Reach.ofRun h ?_
  try dsimp only
  with_reducible repeat' first
    | assumption
    | intro _
    | exact within_trans (by decide) hT
    | apply Node.setThermal_reach
    | apply Node.outFault_reach
    | apply Reach.ite
    | apply Reach.foldl
    | split

theorem execPortPhyReloadDone_reach {ps : List Part} {n0 : Node} (p : Nat) (ok : Bool) (st nx : State) (hs : Reach ps n0 st.node) (hT : within [.isl, .mem, .ram, .host, .line, .rcd, .sec, .freeCtr] ps = true) (h : execPortPhyReloadDone p ok st = .next nx) : Reach ps n0 nx.node := by
  unfold execPortPhyReloadDone at h
  refine Reach.ofRun h ?_
  try dsimp only
  with_reducible repeat' first
    | assumption
    | intro _
    | exact within_trans (by decide) hT
    | apply Node.updPort_reach
    | apply Node.runImageOn_reach
    | apply Node.answerIsland_reach
    | apply Reach.ite
    | apply Reach.foldl
    | split

theorem execPortSilent_reach {ps : List Part} {n0 : Node} (p : Nat) (st nx : State) (hs : Reach ps n0 st.node) (hT : within [.line, .time, .rcd, .glean, .freeCtr] ps = true) (h : execPortSilent p st = .next nx) : Reach ps n0 nx.node := by
  unfold execPortSilent at h
  refine Reach.ofRun h ?_
  try dsimp only
  with_reducible repeat' first
    | assumption
    | intro _
    | exact within_trans (by decide) hT
    | apply Node.portDown_reach
    | apply Node.upTo_reach
    | apply Reach.ite
    | apply Reach.foldl
    | split

theorem execPosCompare_reach {ps : List Part} {n0 : Node} (path : Nat) (idx : Nat) (st nx : State) (hs : Reach ps n0 st.node) (hT : within [.mem, .ram, .host, .encs, .line, .rcd, .freeCtr] ps = true) (h : execPosCompare path idx st = .next nx) : Reach ps n0 nx.node := by
  unfold execPosCompare at h
  refine Reach.ofRun h ?_
  try dsimp only
  with_reducible repeat' first
    | assumption
    | intro _
    | exact within_trans (by decide) hT
    | apply Node.hostCmd_reach
    | apply Node.checked_reach
    | apply Node.armCompare_reach
    | apply Node.ok_reach
    | apply Node.setCompare_reach
    | apply Reach.ite
    | apply Reach.foldl
    | split

theorem execPosLatch_reach {ps : List Part} {n0 : Node} (path : Nat) (idx : Nat) (st nx : State) (hs : Reach ps n0 st.node) (hT : within [.mem, .ram, .host, .encs, .line, .rcd, .freeCtr] ps = true) (h : execPosLatch path idx st = .next nx) : Reach ps n0 nx.node := by
  unfold execPosLatch at h
  refine Reach.ofRun h ?_
  try dsimp only
  with_reducible repeat' first
    | assumption
    | intro _
    | exact within_trans (by decide) hT
    | apply Node.hostCmd_reach
    | apply Node.checked_reach
    | apply Node.ok_reach
    | apply Node.setEnc_reach
    | apply Reach.ite
    | apply Reach.foldl
    | split

theorem execPositionRebase_reach {ps : List Part} {n0 : Node} (st nx : State) (hs : Reach ps n0 st.node) (hT : within [.encs] ps = true) (h : execPositionRebase st = .next nx) : Reach ps n0 nx.node := by
  unfold execPositionRebase at h
  refine Reach.ofRun h ?_
  try dsimp only
  with_reducible repeat' first
    | assumption
    | intro _
    | exact within_trans (by decide) hT
    | apply Node.updEnc_reach
    | apply Reach.ite
    | apply Reach.foldl
    | split

theorem execPositionStallWrite_reach {ps : List Part} {n0 : Node} (i : Nat) (st nx : State) (hs : Reach ps n0 st.node) (hT : within [.stalls, .cache, .encs, .time, .cust] ps = true) (h : execPositionStallWrite i st = .next nx) : Reach ps n0 nx.node := by
  unfold execPositionStallWrite at h
  refine Reach.ofRun h ?_
  try dsimp only
  with_reducible repeat' first
    | assumption
    | intro _
    | exact within_trans (by decide) hT
    | apply Node.upTo_reach
    | apply Node.updEnc_reach
    | apply Node.putStall_reach
    | apply Reach.ite
    | apply Reach.foldl
    | split

theorem execPowerDownBypassClose_reach {ps : List Part} {n0 : Node} (st nx : State) (hs : Reach ps n0 st.node) (hT : within [.power, .line, .time, .rcd, .glean] ps = true) (h : execPowerDownBypassClose st = .next nx) : Reach ps n0 nx.node := by
  unfold execPowerDownBypassClose at h
  refine Reach.ofRun h ?_
  try dsimp only
  with_reducible repeat' first
    | assumption
    | intro _
    | exact within_trans (by decide) hT
    | apply Node.updPower_reach
    | apply Node.closeBypass_reach
    | apply Reach.ite
    | apply Reach.foldl
    | split

theorem execPowerFail_reach {ps : List Part} {n0 : Node} (st nx : State) (hs : Reach ps n0 st.node) (hT : within [.isl, .lastCrossing, .mem, .ram, .power, .host, .stalls, .cache, .rcp, .loops, .fio, .adc, .encs, .axes, .drives, .line, .time, .zb, .cust, .lifts, .gates, .harv, .rcd, .safe, .glean, .sec, .hlth, .freeCtr] ps = true) (h : execPowerFail st = .next nx) : Reach ps n0 nx.node := by
  unfold execPowerFail at h
  refine Reach.ofRun h ?_
  try dsimp only
  with_reducible repeat' first
    | assumption
    | intro _
    | exact within_trans (by decide) hT
    | apply Node.powerDown_reach
    | apply Reach.ite
    | apply Reach.foldl
    | split

theorem execPowerUpReady_reach {ps : List Part} {n0 : Node} (mV : Nat) (field : Bool) (testA : Nat) (testB : Nat) (st nx : State) (hs : Reach ps n0 st.node) (hT : within [.mem, .ram, .power, .host, .stalls, .cache, .stored, .rcp, .loops, .fio, .adc, .encs, .axes, .drives, .line, .time, .zb, .cust, .lifts, .gates, .harv, .rcd, .safe, .glean, .sec, .hlth, .freeCtr] ps = true) (h : execPowerUpReady mV field testA testB st = .next nx) : Reach ps n0 nx.node := by
  unfold execPowerUpReady at h
  refine Reach.ofRun h ?_
  try dsimp only
  with_reducible repeat' first
    | assumption
    | intro _
    | exact within_trans (by decide) hT
    | apply Node.updPower_reach
    | apply Node.updHlth_reach
    | apply Node.updHost_reach
    | apply Node.startTime_reach
    | apply Node.updTime_reach
    | apply Node.updLine_reach
    | apply Node.configReplay_reach
    | apply Node.layRecipes_reach
    | apply Node.sfLoad_reach
    | apply Node.startTests_reach
    | apply Node.wdStart_reach
    | apply Node.startField_reach
    | apply Node.zbReturns_reach
    | apply Node.clearResume_reach
    | apply Node.lostReferences_reach
    | apply Node.bootLogs_reach
    | apply Node.driveAll_reach
    | apply Node.autostartRecipes_reach
    | apply Node.autostartChans_reach
    | apply Reach.ite
    | apply Reach.foldl
    | split

theorem execPowerUpStart_reach {ps : List Part} {n0 : Node} (below : Bool) (st nx : State) (hs : Reach ps n0 st.node) (hT : within [.power] ps = true) (h : execPowerUpStart below st = .next nx) : Reach ps n0 nx.node := by
  unfold execPowerUpStart at h
  refine Reach.ofRun h ?_
  try dsimp only
  with_reducible repeat' first
    | assumption
    | intro _
    | exact within_trans (by decide) hT
    | apply Node.updPower_reach
    | apply Reach.ite
    | apply Reach.foldl
    | split

theorem execProxyExpire_reach {ps : List Part} {n0 : Node} (address : Nat) (st nx : State) (hs : Reach ps n0 st.node) (hT : within [.line, .time] ps = true) (h : execProxyExpire address st = .next nx) : Reach ps n0 nx.node := by
  unfold execProxyExpire at h
  refine Reach.ofRun h ?_
  try dsimp only
  with_reducible repeat' first
    | assumption
    | intro _
    | exact within_trans (by decide) hT
    | apply Node.updLine_reach
    | apply Node.upTo_reach
    | apply Reach.ite
    | apply Reach.foldl
    | split

theorem execPwmBoundary_reach {ps : List Part} {n0 : Node} (o : Nat) (st nx : State) (hs : Reach ps n0 st.node) (hT : within [.fio, .time] ps = true) (h : execPwmBoundary o st = .next nx) : Reach ps n0 nx.node := by
  unfold execPwmBoundary at h
  refine Reach.ofRun h ?_
  try dsimp only
  with_reducible repeat' first
    | assumption
    | intro _
    | exact within_trans (by decide) hT
    | apply Node.upTo_reach
    | apply Node.force_reach
    | apply Reach.ite
    | apply Reach.foldl
    | split

theorem execQuiesceDrained_reach {ps : List Part} {n0 : Node} (i : Nat) (st nx : State) (hs : Reach ps n0 st.node) (hT : within [.isl, .mem, .ram, .host, .stalls, .cache, .rcp, .loops, .fio, .encs, .drives, .line, .time, .zb, .rcd, .safe, .glean, .freeCtr] ps = true) (h : execQuiesceDrained i st = .next nx) : Reach ps n0 nx.node := by
  unfold execQuiesceDrained at h
  refine Reach.ofRun h ?_
  try dsimp only
  with_reducible repeat' first
    | assumption
    | intro _
    | exact within_trans (by decide) hT
    | apply Node.islandQuiet_reach
    | apply Reach.ite
    | apply Reach.foldl
    | split

theorem execQuiesceTimeout_reach {ps : List Part} {n0 : Node} (i : Nat) (st nx : State) (hs : Reach ps n0 st.node) (hT : within [.isl, .lastCrossing, .mem, .ram, .host, .stalls, .cache, .rcp, .loops, .fio, .encs, .drives, .line, .time, .zb, .rcd, .safe, .glean, .freeCtr] ps = true) (h : execQuiesceTimeout i st = .next nx) : Reach ps n0 nx.node := by
  unfold execQuiesceTimeout at h
  refine Reach.ofRun h ?_
  try dsimp only
  with_reducible repeat' first
    | assumption
    | intro _
    | exact within_trans (by decide) hT
    | apply Node.islandQuiet_reach
    | apply Reach.ite
    | apply Reach.set_lastCrossing (m := st.node)
    | apply Reach.foldl
    | split
    | apply Reach.set_lastCrossing

theorem execRateRetry_reach {ps : List Part} {n0 : Node} (p : Nat) (st nx : State) (hs : Reach ps n0 st.node) (hT : within [.line, .time, .rcd, .glean, .freeCtr] ps = true) (h : execRateRetry p st = .next nx) : Reach ps n0 nx.node := by
  unfold execRateRetry at h
  refine Reach.ofRun h ?_
  try dsimp only
  with_reducible repeat' first
    | assumption
    | intro _
    | exact within_trans (by decide) hT
    | apply Node.upTo_reach
    | apply Node.portDown_reach
    | apply Node.updPort_reach
    | apply Reach.ite
    | apply Reach.foldl
    | split

theorem execRecipeLoad_reach {ps : List Part} {n0 : Node} (path : Nat) (idx : Nat) (st nx : State) (hs : Reach ps n0 st.node) (hT : within [.mem, .ram, .host, .rcp, .line, .rcd, .hlth, .freeCtr] ps = true) (h : execRecipeLoad path idx st = .next nx) : Reach ps n0 nx.node := by
  unfold execRecipeLoad at h
  refine Reach.ofRun h ?_
  try dsimp only
  with_reducible repeat' first
    | assumption
    | intro _
    | exact within_trans (by decide) hT
    | apply Node.hostCmd_reach
    | apply Node.checked_reach
    | apply Node.degraded_reach
    | apply Node.write_reach
    | apply Node.writeSteps_reach
    | apply Node.ok_reach
    | apply Node.keepRecipe_reach
    | apply Reach.ite
    | apply Reach.foldl
    | split

theorem execRecipeRead_reach {ps : List Part} {n0 : Node} (path : Nat) (idx : Nat) (st nx : State) (hs : Reach ps n0 st.node) (hT : within [.mem, .ram, .host, .line, .rcd, .freeCtr] ps = true) (h : execRecipeRead path idx st = .next nx) : Reach ps n0 nx.node := by
  unfold execRecipeRead at h
  refine Reach.ofRun h ?_
  try dsimp only
  with_reducible repeat' first
    | assumption
    | intro _
    | exact within_trans (by decide) hT
    | apply Node.hostCmd_reach
    | apply Node.checked_reach
    | apply Node.ok_reach
    | apply Reach.ite
    | apply Reach.foldl
    | split

theorem execRecipeStart_reach {ps : List Part} {n0 : Node} (path : Nat) (idx : Nat) (st nx : State) (hs : Reach ps n0 st.node) (hT : within [.mem, .ram, .host, .rcp, .line, .rcd, .freeCtr] ps = true) (h : execRecipeStart path idx st = .next nx) : Reach ps n0 nx.node := by
  unfold execRecipeStart at h
  refine Reach.ofRun h ?_
  try dsimp only
  with_reducible repeat' first
    | assumption
    | intro _
    | exact within_trans (by decide) hT
    | apply Node.hostCmd_reach
    | apply Node.checked_reach
    | apply Node.ok_reach
    | apply Node.startInst_reach
    | apply Reach.ite
    | apply Reach.foldl
    | split

theorem execRecipeStop_reach {ps : List Part} {n0 : Node} (path : Nat) (idx : Nat) (st nx : State) (hs : Reach ps n0 st.node) (hT : within [.mem, .ram, .host, .rcp, .line, .rcd, .freeCtr] ps = true) (h : execRecipeStop path idx st = .next nx) : Reach ps n0 nx.node := by
  unfold execRecipeStop at h
  refine Reach.ofRun h ?_
  try dsimp only
  with_reducible repeat' first
    | assumption
    | intro _
    | exact within_trans (by decide) hT
    | apply Node.hostCmd_reach
    | apply Node.checked_reach
    | apply Node.setInst_reach
    | apply Node.stopInst_reach
    | apply Reach.ite
    | apply Reach.foldl
    | split

theorem execRecipeStopTimeout_reach {ps : List Part} {n0 : Node} (i : Nat) (st nx : State) (hs : Reach ps n0 st.node) (hT : within [.mem, .ram, .host, .rcp, .line, .time, .rcd, .freeCtr] ps = true) (h : execRecipeStopTimeout i st = .next nx) : Reach ps n0 nx.node := by
  unfold execRecipeStopTimeout at h
  refine Reach.ofRun h ?_
  try dsimp only
  with_reducible repeat' first
    | assumption
    | intro _
    | exact within_trans (by decide) hT
    | apply Node.upTo_reach
    | apply Node.updInst_reach
    | apply Node.ok_reach
    | apply Reach.ite
    | apply Reach.foldl
    | split

theorem execRecordProgrammed_reach {ps : List Part} {n0 : Node} (st nx : State) (hs : Reach ps n0 st.node) (hT : within [.rcd] ps = true) (h : execRecordProgrammed st = .next nx) : Reach ps n0 nx.node := by
  unfold execRecordProgrammed at h
  refine Reach.ofRun h ?_
  try dsimp only
  with_reducible repeat' first
    | assumption
    | intro _
    | exact within_trans (by decide) hT
    | apply Node.updRcd_reach
    | apply Reach.ite
    | apply Reach.foldl
    | split

theorem execRecordValidMarkDone_reach {ps : List Part} {n0 : Node} (st nx : State) (hs : Reach ps n0 st.node) (hT : within [.mem, .ram, .host, .line, .rcd, .freeCtr] ps = true) (h : execRecordValidMarkDone st = .next nx) : Reach ps n0 nx.node := by
  unfold execRecordValidMarkDone at h
  refine Reach.ofRun h ?_
  try dsimp only
  with_reducible repeat' first
    | assumption
    | intro _
    | exact within_trans (by decide) hT
    | apply Node.recordDurable_reach
    | apply Reach.ite
    | apply Reach.foldl
    | split

theorem execRecorderStatus_reach {ps : List Part} {n0 : Node} (path : Nat) (idx : Nat) (st nx : State) (hs : Reach ps n0 st.node) (hT : within [.mem, .ram, .host, .line, .rcd, .freeCtr] ps = true) (h : execRecorderStatus path idx st = .next nx) : Reach ps n0 nx.node := by
  unfold execRecorderStatus at h
  refine Reach.ofRun h ?_
  try dsimp only
  with_reducible repeat' first
    | assumption
    | intro _
    | exact within_trans (by decide) hT
    | apply Node.hostCmd_reach
    | apply Node.checked_reach
    | apply Node.free_reach
    | apply Node.updRcd_reach
    | apply Node.ok_reach
    | refine Reach.ofSnd (by assumption) ?_
    | apply Reach.ite
    | apply Reach.foldl
    | split

theorem execRecoverData_reach {ps : List Part} {n0 : Node} (p : Nat) (status : Nat) (records : List (List Nat)) (st nx : State) (hs : Reach ps n0 st.node) (hT : within [.cust, .glean] ps = true) (h : execRecoverData p status records st = .next nx) : Reach ps n0 nx.node := by
  unfold execRecoverData at h
  refine Reach.ofRun h ?_
  try dsimp only
  with_reducible repeat' first
    | assumption
    | intro _
    | exact within_trans (by decide) hT
    | apply Node.custIn_reach
    | apply Node.updCust_reach
    | apply Reach.ite
    | apply Reach.foldl
    | split

theorem execRecoverEnd_reach {ps : List Part} {n0 : Node} (p : Nat) (recovering : Bool) (st nx : State) (hs : Reach ps n0 st.node) (hT : within [.cust, .glean] ps = true) (h : execRecoverEnd p recovering st = .next nx) : Reach ps n0 nx.node := by
  unfold execRecoverEnd at h
  refine Reach.ofRun h ?_
  try dsimp only
  with_reducible repeat' first
    | assumption
    | intro _
    | exact within_trans (by decide) hT
    | apply Node.custIn_reach
    | apply Node.updCust_reach
    | apply Reach.ite
    | apply Reach.foldl
    | split

theorem execRecoverReq_reach {ps : List Part} {n0 : Node} (p : Nat) (serial : Nat) (lastDurable : Nat) (st nx : State) (hs : Reach ps n0 st.node) (hT : within [.line, .cust, .glean, .freeCtr] ps = true) (h : execRecoverReq p serial lastDurable st = .next nx) : Reach ps n0 nx.node := by
  unfold execRecoverReq at h
  refine Reach.ofRun h ?_
  try dsimp only
  with_reducible repeat' first
    | assumption
    | intro _
    | exact within_trans (by decide) hT
    | apply Node.custIn_reach
    | apply Node.custSend_reach
    | apply Node.updCust_reach
    | apply Node.custRecords_reach
    | apply Reach.ite
    | apply Reach.foldl
    | split

theorem execRecoveryMerge_reach {ps : List Part} {n0 : Node} (st nx : State) (hs : Reach ps n0 st.node) (hT : within [.line, .time, .cust, .rcd, .freeCtr] ps = true) (h : execRecoveryMerge st = .next nx) : Reach ps n0 nx.node := by
  unfold execRecoveryMerge at h
  refine Reach.ofRun h ?_
  try dsimp only
  with_reducible repeat' first
    | assumption
    | intro _
    | exact within_trans (by decide) hT
    | apply Node.mergeAll_reach
    | apply Node.upTo_reach
    | apply Reach.ite
    | apply Reach.foldl
    | split

theorem execReferenceMessageDue_reach {ps : List Part} {n0 : Node} (started : Bool) (st nx : State) (hs : Reach ps n0 st.node) (hT : within [.mem, .ram, .host, .stalls, .cache, .loops, .fio, .encs, .axes, .drives, .line, .time, .zb, .cust, .lifts, .gates, .rcd, .hlth, .freeCtr] ps = true) (h : execReferenceMessageDue started st = .next nx) : Reach ps n0 nx.node := by
  unfold execReferenceMessageDue at h
  refine Reach.ofRun h ?_
  try dsimp only
  with_reducible repeat' first
    | assumption
    | intro _
    | exact within_trans (by decide) hT
    | apply Node.updZb_reach
    | apply Node.zbSaw_reach
    | apply Node.upTo_reach
    | apply Node.zbAbort_reach
    | apply Node.zbPush_reach
    | apply Reach.ite
    | apply Reach.set_time (m := st.node)
    | apply Reach.foldl
    | split
    | apply Reach.set_time

theorem execRelockTimeout_reach {ps : List Part} {n0 : Node} (i : Nat) (st nx : State) (hs : Reach ps n0 st.node) (hT : within [.isl, .mem, .ram, .power, .host, .rcp, .loops, .axes, .line, .time, .zb, .harv, .rcd, .safe, .glean, .freeCtr] ps = true) (h : execRelockTimeout i st = .next nx) : Reach ps n0 nx.node := by
  unfold execRelockTimeout at h
  refine Reach.ofRun h ?_
  try dsimp only
  with_reducible repeat' first
    | assumption
    | intro _
    | exact within_trans (by decide) hT
    | apply Node.logFree_reach
    | apply Node.islandFails_reach
    | apply Node.updIsland_reach
    | apply Reach.ite
    | apply Reach.foldl
    | split

theorem execRemoteRxTimeout_reach {ps : List Part} {n0 : Node} (k : Nat) (st nx : State) (hs : Reach ps n0 st.node) (hT : within [.mem, .ram, .host, .stalls, .cache, .loops, .fio, .encs, .axes, .drives, .line, .time, .zb, .cust, .lifts, .gates, .rcd, .hlth, .freeCtr] ps = true) (h : execRemoteRxTimeout k st = .next nx) : Reach ps n0 nx.node := by
  unfold execRemoteRxTimeout at h
  refine Reach.ofRun h ?_
  try dsimp only
  with_reducible repeat' first
    | assumption
    | intro _
    | exact within_trans (by decide) hT
    | apply Node.transientFault_reach
    | apply Node.upTo_reach
    | apply Reach.ite
    | apply Reach.foldl
    | split

theorem execRemoteTxPeriod_reach {ps : List Part} {n0 : Node} (ident : Nat) (started : Bool) (st nx : State) (hs : Reach ps n0 st.node) (hT : within [.time, .zb, .rcd] ps = true) (h : execRemoteTxPeriod ident started st = .next nx) : Reach ps n0 nx.node := by
  unfold execRemoteTxPeriod at h
  refine Reach.ofRun h ?_
  try dsimp only
  with_reducible repeat' first
    | assumption
    | intro _
    | exact within_trans (by decide) hT
    | apply Node.zbPlace_reach
    | apply Node.updZb_reach
    | apply Node.zbSaw_reach
    | apply Node.upTo_reach
    | apply Reach.ite
    | apply Reach.foldl
    | split

theorem execRestart_reach {ps : List Part} {n0 : Node} (i : Nat) (st nx : State) (hs : Reach ps n0 st.node) (hT : within [.safe] ps = true) (h : execRestart i st = .next nx) : Reach ps n0 nx.node := by
  unfold execRestart at h
  refine Reach.ofRun h ?_
  try dsimp only
  with_reducible repeat' first
    | assumption
    | intro _
    | exact within_trans (by decide) hT
    | apply Node.sfPlace_reach
    | apply Reach.ite
    | apply Reach.foldl
    | split

theorem execRestartNotice_reach {ps : List Part} {n0 : Node} (st nx : State) (hs : Reach ps n0 st.node) (hT : within [.safe] ps = true) (h : execRestartNotice st = .next nx) : Reach ps n0 nx.node := by
  unfold execRestartNotice at h
  refine Reach.ofRun h ?_
  try dsimp only
  with_reducible repeat' first
    | assumption
    | intro _
    | exact within_trans (by decide) hT
    | apply Node.sfPlace_reach
    | apply Reach.ite
    | apply Reach.foldl
    | split

theorem execRingBreak_reach {ps : List Part} {n0 : Node} (up : Nat) (down : Nat) (st nx : State) (hs : Reach ps n0 st.node) (hT : within [.line, .time, .rcd, .glean] ps = true) (h : execRingBreak up down st = .next nx) : Reach ps n0 nx.node := by
  unfold execRingBreak at h
  refine Reach.ofRun h ?_
  try dsimp only
  with_reducible repeat' first
    | assumption
    | intro _
    | exact within_trans (by decide) hT
    | apply Node.log_reach
    | apply Node.raise_reach
    | apply Node.reslave_reach
    | apply Node.updLine_reach
    | apply Reach.ite
    | apply Reach.foldl
    | split

theorem execRingClosed_reach {ps : List Part} {n0 : Node} (up : Nat) (down : Nat) (st nx : State) (hs : Reach ps n0 st.node) (hT : within [.line, .rcd, .glean] ps = true) (h : execRingClosed up down st = .next nx) : Reach ps n0 nx.node := by
  unfold execRingClosed at h
  refine Reach.ofRun h ?_
  try dsimp only
  with_reducible repeat' first
    | assumption
    | intro _
    | exact within_trans (by decide) hT
    | apply Node.updLine_reach
    | apply Node.log_reach
    | apply Node.raise_reach
    | apply Reach.ite
    | apply Reach.foldl
    | split

theorem execRingRouteRestore_reach {ps : List Part} {n0 : Node} (st nx : State) (hs : Reach ps n0 st.node) (hT : within [.line, .time, .rcd] ps = true) (h : execRingRouteRestore st = .next nx) : Reach ps n0 nx.node := by
  unfold execRingRouteRestore at h
  refine Reach.ofRun h ?_
  try dsimp only
  with_reducible repeat' first
    | assumption
    | intro _
    | exact within_trans (by decide) hT
    | apply Node.upTo_reach
    | apply Node.reslave_reach
    | apply Node.updLine_reach
    | apply Reach.ite
    | apply Reach.foldl
    | split

theorem execRowCopyDone_reach {ps : List Part} {n0 : Node} (row : Nat) (st nx : State) (hs : Reach ps n0 st.node) (hT : within [.isl, .mem, .ram, .power, .host, .stalls, .cache, .rcp, .loops, .fio, .adc, .encs, .axes, .drives, .line, .time, .zb, .cust, .lifts, .gates, .harv, .rcd, .safe, .glean, .sec, .hlth, .freeCtr] ps = true) (h : execRowCopyDone row st = .next nx) : Reach ps n0 nx.node := by
  unfold execRowCopyDone at h
  refine Reach.ofRun h ?_
  try dsimp only
  with_reducible repeat' first
    | assumption
    | intro _
    | exact within_trans (by decide) hT
    | apply Node.rowCopied_reach
    | apply Reach.ite
    | apply Reach.foldl
    | split

theorem execSafeFrameGather_reach {ps : List Part} {n0 : Node} (st nx : State) (hs : Reach ps n0 st.node) (hT : within [.line, .time, .zb, .rcd, .safe, .freeCtr] ps = true) (h : execSafeFrameGather st = .next nx) : Reach ps n0 nx.node := by
  unfold execSafeFrameGather at h
  refine Reach.ofRun h ?_
  try dsimp only
  with_reducible repeat' first
    | assumption
    | intro _
    | exact within_trans (by decide) hT
    | apply Node.gather_reach
    | apply Node.upTo_reach
    | apply Node.updSafe_reach
    | apply Reach.ite
    | apply Reach.foldl
    | split

theorem execSafeStallUpdate_reach {ps : List Part} {n0 : Node} (st nx : State) (hs : Reach ps n0 st.node) (hT : within [.mem, .ram, .host, .stalls, .cache, .line, .cust, .rcd, .safe, .freeCtr] ps = true) (h : execSafeStallUpdate st = .next nx) : Reach ps n0 nx.node := by
  unfold execSafeStallUpdate at h
  refine Reach.ofRun h ?_
  try dsimp only
  with_reducible repeat' first
    | assumption
    | intro _
    | exact within_trans (by decide) hT
    | apply Node.putStall_reach
    | apply Node.updSafe_reach
    | apply Node.answer_reach
    | apply Reach.ite
    | apply Reach.foldl
    | split

theorem execSafetyConfigLoad_reach {ps : List Part} {n0 : Node} (path : Nat) (idx : Nat) (st nx : State) (hs : Reach ps n0 st.node) (hT : within [.mem, .ram, .host, .stalls, .fio, .line, .zb, .rcd, .safe, .hlth, .freeCtr] ps = true) (h : execSafetyConfigLoad path idx st = .next nx) : Reach ps n0 nx.node := by
  unfold execSafetyConfigLoad at h
  refine Reach.ofRun h ?_
  try dsimp only
  with_reducible repeat' first
    | assumption
    | intro _
    | exact within_trans (by decide) hT
    | apply Node.hostCmd_reach
    | apply Node.checked_reach
    | apply Node.ok_reach
    | apply Node.updSafe_reach
    | apply Node.sfCommit_reach
    | apply Reach.ite
    | apply Reach.foldl
    | split

theorem execSafetyCycle_reach {ps : List Part} {n0 : Node} (c : Nat) (st nx : State) (hs : Reach ps n0 st.node) (hT : within [.fio, .time, .rcd, .safe, .glean, .freeCtr] ps = true) (h : execSafetyCycle c st = .next nx) : Reach ps n0 nx.node := by
  unfold execSafetyCycle at h
  refine Reach.ofRun h ?_
  try dsimp only
  with_reducible repeat' first
    | assumption
    | intro _
    | exact within_trans (by decide) hT
    | apply Node.upTo_reach
    | apply Node.updSafe_reach
    | apply Node.updChan_reach
    | apply Node.autoTests_reach
    | apply Node.sfCycle_reach
    | apply Node.sfServeAll_reach
    | apply Node.sfStandard_reach
    | apply Reach.ite
    | apply Reach.foldl
    | split

theorem execSafetyDiscrepancy_reach {ps : List Part} {n0 : Node} (c : Nat) (k : Nat) (st nx : State) (hs : Reach ps n0 st.node) (hT : within [.time, .rcd, .safe] ps = true) (h : execSafetyDiscrepancy c k st = .next nx) : Reach ps n0 nx.node := by
  unfold execSafetyDiscrepancy at h
  refine Reach.ofRun h ?_
  try dsimp only
  with_reducible repeat' first
    | assumption
    | intro _
    | exact within_trans (by decide) hT
    | apply Node.sfLog_reach
    | apply Node.updChan_reach
    | apply Node.upTo_reach
    | apply Reach.ite
    | apply Reach.foldl
    | split

theorem execSafetyFrame_reach {ps : List Part} {n0 : Node} (src : Nat) (path2 : Bool) (copies : List (List Nat)) (st nx : State) (hs : Reach ps n0 st.node) (hT : within [.safe] ps = true) (h : execSafetyFrame src path2 copies st = .next nx) : Reach ps n0 nx.node := by
  unfold execSafetyFrame at h
  refine Reach.ofRun h ?_
  try dsimp only
  with_reducible repeat' first
    | assumption
    | intro _
    | exact within_trans (by decide) hT
    | apply Node.updSafe_reach
    | apply Reach.ite
    | apply Reach.foldl
    | split

theorem execSafetyInboundRead_reach {ps : List Part} {n0 : Node} (c : Nat) (above : Nat) (below : Nat) (st nx : State) (hs : Reach ps n0 st.node) (hT : within [.fio, .time, .safe] ps = true) (h : execSafetyInboundRead c above below st = .next nx) : Reach ps n0 nx.node := by
  unfold execSafetyInboundRead at h
  refine Reach.ofRun h ?_
  try dsimp only
  with_reducible repeat' first
    | assumption
    | intro _
    | exact within_trans (by decide) hT
    | apply Node.upTo_reach
    | apply Node.updChan_reach
    | apply Node.acceptCopy_reach
    | apply Node.openAtOnce_reach
    | apply Reach.ite
    | apply Reach.foldl
    | split

theorem execSafetyRestart_reach {ps : List Part} {n0 : Node} (path : Nat) (idx : Nat) (st nx : State) (hs : Reach ps n0 st.node) (hT : within [.mem, .ram, .host, .line, .rcd, .safe, .freeCtr] ps = true) (h : execSafetyRestart path idx st = .next nx) : Reach ps n0 nx.node := by
  unfold execSafetyRestart at h
  refine Reach.ofRun h ?_
  try dsimp only
  with_reducible repeat' first
    | assumption
    | intro _
    | exact within_trans (by decide) hT
    | apply Node.hostCmd_reach
    | apply Node.checked_reach
    | apply Node.sfRequest_reach
    | apply Node.updSafe_reach
    | apply Reach.ite
    | apply Reach.foldl
    | split

theorem execSafetySelfTest_reach {ps : List Part} {n0 : Node} (c : Nat) (k : Nat) (ok : Bool) (detail : Nat) (st nx : State) (hs : Reach ps n0 st.node) (hT : within [.fio, .rcd, .safe] ps = true) (h : execSafetySelfTest c k ok detail st = .next nx) : Reach ps n0 nx.node := by
  unfold execSafetySelfTest at h
  refine Reach.ofRun h ?_
  try dsimp only
  with_reducible repeat' first
    | assumption
    | intro _
    | exact within_trans (by decide) hT
    | apply Node.chanFault_reach
    | apply Reach.ite
    | apply Reach.foldl
    | split

theorem execSafetyStartTestsDone_reach {ps : List Part} {n0 : Node} (c : Nat) (ok : Bool) (cause : Nat) (detail : Nat) (st nx : State) (hs : Reach ps n0 st.node) (hT : within [.fio, .rcd, .safe] ps = true) (h : execSafetyStartTestsDone c ok cause detail st = .next nx) : Reach ps n0 nx.node := by
  unfold execSafetyStartTestsDone at h
  refine Reach.ofRun h ?_
  try dsimp only
  with_reducible repeat' first
    | assumption
    | intro _
    | exact within_trans (by decide) hT
    | apply Node.updChan_reach
    | apply Node.chanFault_reach
    | apply Node.updSafe_reach
    | apply Reach.ite
    | apply Reach.foldl
    | split

theorem execSafetyStatus_reach {ps : List Part} {n0 : Node} (path : Nat) (idx : Nat) (st nx : State) (hs : Reach ps n0 st.node) (hT : within [.mem, .ram, .host, .line, .rcd, .freeCtr] ps = true) (h : execSafetyStatus path idx st = .next nx) : Reach ps n0 nx.node := by
  unfold execSafetyStatus at h
  refine Reach.ofRun h ?_
  try dsimp only
  with_reducible repeat' first
    | assumption
    | intro _
    | exact within_trans (by decide) hT
    | apply Node.hostCmd_reach
    | apply Node.checked_reach
    | apply Node.ok_reach
    | apply Reach.ite
    | apply Reach.foldl
    | split

theorem execScrubRead_reach {ps : List Part} {n0 : Node} (memory : Nat) (bank : Nat) (err : Nat) (errCheck : Nat) (beaten : Bool) (st nx : State) (hs : Reach ps n0 st.node) (hT : within [.isl, .mem, .ram, .power, .host, .stalls, .cache, .rcp, .loops, .fio, .adc, .encs, .axes, .drives, .line, .time, .zb, .cust, .lifts, .gates, .harv, .rcd, .safe, .glean, .sec, .hlth, .freeCtr] ps = true) (h : execScrubRead memory bank err errCheck beaten st = .next nx) : Reach ps n0 nx.node := by
  unfold execScrubRead at h
  refine Reach.ofRun h ?_
  try dsimp only
  with_reducible repeat' first
    | assumption
    | intro _
    | exact within_trans (by decide) hT
    | apply Node.updMem_reach
    | apply Node.bankRead_reach
    | refine Reach.ofSnd (by assumption) ?_
    | apply Reach.ite
    | apply Reach.foldl
    | split

theorem execSegmentLoad_reach {ps : List Part} {n0 : Node} (path : Nat) (idx : Nat) (st nx : State) (hs : Reach ps n0 st.node) (hT : within [.mem, .ram, .host, .axes, .line, .rcd, .hlth, .freeCtr] ps = true) (h : execSegmentLoad path idx st = .next nx) : Reach ps n0 nx.node := by
  unfold execSegmentLoad at h
  refine Reach.ofRun h ?_
  try dsimp only
  with_reducible repeat' first
    | assumption
    | intro _
    | exact within_trans (by decide) hT
    | apply Node.hostCmd_reach
    | apply Node.checked_reach
    | apply Node.degraded_reach
    | apply Node.ok_reach
    | apply Node.updAxis_reach
    | apply Reach.ite
    | apply Reach.foldl
    | split

theorem execServiceFlagClear_reach {ps : List Part} {n0 : Node} (path : Nat) (idx : Nat) (st nx : State) (hs : Reach ps n0 st.node) (hT : within [.mem, .ram, .host, .line, .rcd, .sec, .hlth, .freeCtr] ps = true) (h : execServiceFlagClear path idx st = .next nx) : Reach ps n0 nx.node := by
  unfold execServiceFlagClear at h
  refine Reach.ofRun h ?_
  try dsimp only
  with_reducible repeat' first
    | assumption
    | intro _
    | exact within_trans (by decide) hT
    | apply Node.hostCmd_reach
    | apply Node.checked_reach
    | apply Node.degraded_reach
    | apply Node.updSec_reach
    | apply Node.ok_reach
    | apply Node.log_reach
    | apply Reach.ite
    | apply Reach.foldl
    | split

theorem execSessionClose_reach {ps : List Part} {n0 : Node} (path : Nat) (idx : Nat) (st nx : State) (hs : Reach ps n0 st.node) (hT : within [.mem, .ram, .host, .line, .rcd, .sec, .freeCtr] ps = true) (h : execSessionClose path idx st = .next nx) : Reach ps n0 nx.node := by
  unfold execSessionClose at h
  refine Reach.ofRun h ?_
  try dsimp only
  with_reducible repeat' first
    | assumption
    | intro _
    | exact within_trans (by decide) hT
    | apply Node.hostCmd_reach
    | apply Node.checked_reach
    | apply Node.ok_reach
    | apply Node.endSession_reach
    | apply Reach.ite
    | apply Reach.foldl
    | split

theorem execSessionConfirm_reach {ps : List Part} {n0 : Node} (path : Nat) (idx : Nat) (st nx : State) (hs : Reach ps n0 st.node) (hT : within [.mem, .ram, .host, .line, .rcd, .freeCtr] ps = true) (h : execSessionConfirm path idx st = .next nx) : Reach ps n0 nx.node := by
  unfold execSessionConfirm at h
  refine Reach.ofRun h ?_
  try dsimp only
  with_reducible repeat' first
    | assumption
    | intro _
    | exact within_trans (by decide) hT
    | apply Node.hostCmd_reach
    | apply Node.checked_reach
    | apply Node.updHost_reach
    | apply Node.answer_reach
    | apply Node.log_reach
    | apply Node.ok_reach
    | apply Node.setMbx_reach
    | apply Reach.ite
    | apply Reach.foldl
    | split

theorem execSessionHalfOpenTimeout_reach {ps : List Part} {n0 : Node} (id : Nat) (st nx : State) (hs : Reach ps n0 st.node) (hT : within [.host, .time] ps = true) (h : execSessionHalfOpenTimeout id st = .next nx) : Reach ps n0 nx.node := by
  unfold execSessionHalfOpenTimeout at h
  refine Reach.ofRun h ?_
  try dsimp only
  with_reducible repeat' first
    | assumption
    | intro _
    | exact within_trans (by decide) hT
    | apply Node.updHost_reach
    | apply Node.upTo_reach
    | apply Reach.ite
    | apply Reach.foldl
    | split

theorem execSessionHello_reach {ps : List Part} {n0 : Node} (path : Nat) (idx : Nat) (st nx : State) (hs : Reach ps n0 st.node) (hT : within [.mem, .ram, .host, .line, .rcd, .hlth, .freeCtr] ps = true) (h : execSessionHello path idx st = .next nx) : Reach ps n0 nx.node := by
  unfold execSessionHello at h
  refine Reach.ofRun h ?_
  try dsimp only
  with_reducible repeat' first
    | assumption
    | intro _
    | exact within_trans (by decide) hT
    | apply Node.hostCmd_reach
    | apply Node.checked_reach
    | apply Node.degraded_reach
    | apply Node.freeScalar_reach
    | apply Node.answer_reach
    | apply Node.freshSession_reach
    | apply Node.ok_reach
    | apply Node.updHost_reach
    | refine Reach.ofSnd (by assumption) ?_
    | apply Reach.ite
    | apply Reach.foldl
    | split

theorem execSessionIdleTimeout_reach {ps : List Part} {n0 : Node} (id : Nat) (st nx : State) (hs : Reach ps n0 st.node) (hT : within [.host, .time, .sec] ps = true) (h : execSessionIdleTimeout id st = .next nx) : Reach ps n0 nx.node := by
  unfold execSessionIdleTimeout at h
  refine Reach.ofRun h ?_
  try dsimp only
  with_reducible repeat' first
    | assumption
    | intro _
    | exact within_trans (by decide) hT
    | apply Node.endSession_reach
    | apply Node.upTo_reach
    | apply Reach.ite
    | apply Reach.foldl
    | split

theorem execSiloCommit_reach {ps : List Part} {n0 : Node} (path : Nat) (idx : Nat) (same : Bool) (cut : Nat) (st nx : State) (hs : Reach ps n0 st.node) (hT : within [.mem, .ram, .host, .line, .rcd, .sec, .hlth, .freeCtr] ps = true) (h : execSiloCommit path idx same cut st = .next nx) : Reach ps n0 nx.node := by
  unfold execSiloCommit at h
  refine Reach.ofRun h ?_
  try dsimp only
  with_reducible repeat' first
    | assumption
    | intro _
    | exact within_trans (by decide) hT
    | apply Node.hostCmd_reach
    | apply Node.checked_reach
    | apply Node.degraded_reach
    | apply Node.setSilo_reach
    | apply Node.updSec_reach
    | apply Node.answer_reach
    | apply Node.setBoot_reach
    | apply Node.ok_reach
    | apply Node.log_reach
    | apply Node.writePointer_reach
    | apply Reach.ite
    | apply Reach.foldl
    | split

theorem execSleepContextSaved_reach {ps : List Part} {n0 : Node} (st nx : State) (hs : Reach ps n0 st.node) (hT : within [.mem, .ram, .host, .stalls, .cache, .rcp, .loops, .fio, .axes, .drives, .line, .zb, .cust, .lifts, .gates, .rcd, .safe, .glean, .freeCtr] ps = true) (h : execSleepContextSaved st = .next nx) : Reach ps n0 nx.node := by
  unfold execSleepContextSaved at h
  refine Reach.ofRun h ?_
  try dsimp only
  with_reducible repeat' first
    | assumption
    | intro _
    | exact within_trans (by decide) hT
    | apply Node.abortSleep_reach
    | apply Node.updGlean_reach
    | apply Node.updZb_reach
    | apply Reach.ite
    | apply Reach.foldl
    | split

theorem execSleepEntry_reach {ps : List Part} {n0 : Node} (st nx : State) (hs : Reach ps n0 st.node) (hT : within [.cache, .rcp, .fio, .rcd, .glean] ps = true) (h : execSleepEntry st = .next nx) : Reach ps n0 nx.node := by
  unfold execSleepEntry at h
  refine Reach.ofRun h ?_
  try dsimp only
  with_reducible repeat' first
    | assumption
    | intro _
    | exact within_trans (by decide) hT
    | apply Node.log_reach
    | apply Node.updGlean_reach
    | apply Node.holdInsts_reach
    | apply Node.flushCache_reach
    | apply Node.updFio_reach
    | apply Node.setOut_reach
    | apply Reach.ite
    | apply Reach.foldl
    | split

theorem execSleepZbOffline_reach {ps : List Part} {n0 : Node} (st nx : State) (hs : Reach ps n0 st.node) (hT : within [.isl, .mem, .ram, .host, .stalls, .cache, .rcp, .loops, .fio, .adc, .encs, .axes, .drives, .line, .zb, .cust, .lifts, .gates, .harv, .rcd, .safe, .glean, .freeCtr] ps = true) (h : execSleepZbOffline st = .next nx) : Reach ps n0 nx.node := by
  unfold execSleepZbOffline at h
  refine Reach.ofRun h ?_
  try dsimp only
  with_reducible repeat' first
    | assumption
    | intro _
    | exact within_trans (by decide) hT
    | apply Node.abortSleep_reach
    | apply Node.gateAll_reach
    | apply Node.updGlean_reach
    | apply Reach.ite
    | apply Reach.foldl
    | split

theorem execSpiReadFrame_reach {ps : List Part} {n0 : Node} (frame : List Nat) (st nx : State) (hs : Reach ps n0 st.node) (hT : within [.isl, .mem, .ram, .power, .host, .stalls, .cache, .rcp, .loops, .fio, .adc, .encs, .axes, .drives, .line, .time, .zb, .cust, .lifts, .gates, .harv, .rcd, .safe, .glean, .sec, .hlth, .freeCtr] ps = true) (h : execSpiReadFrame frame st = .next nx) : Reach ps n0 nx.node := by
  unfold execSpiReadFrame at h
  refine Reach.ofRun h ?_
  try dsimp only
  with_reducible repeat' first
    | assumption
    | intro _
    | exact within_trans (by decide) hT
    | apply Node.drive_reach
    | apply Node.refusedRead_reach
    | apply Node.updRegs_reach
    | apply Node.readDrive_reach
    | apply Node.useSram_reach
    | refine Reach.ofSnd (by assumption) ?_
    | apply Reach.ite
    | apply Reach.foldl
    | split

theorem execSpiWriteFrame_reach {ps : List Part} {n0 : Node} (frame : List Nat) (st nx : State) (hs : Reach ps n0 st.node) (hT : within [.isl, .mem, .ram, .power, .host, .stalls, .cache, .rcp, .loops, .fio, .adc, .encs, .axes, .drives, .line, .time, .zb, .cust, .lifts, .gates, .harv, .rcd, .safe, .glean, .sec, .hlth, .freeCtr] ps = true) (h : execSpiWriteFrame frame st = .next nx) : Reach ps n0 nx.node := by
  unfold execSpiWriteFrame at h
  refine Reach.ofRun h ?_
  try dsimp only
  with_reducible repeat' first
    | assumption
    | intro _
    | exact within_trans (by decide) hT
    | apply Node.drive_reach
    | apply Node.refuseSpi_reach
    | apply Node.hsWrites_reach
    | apply Node.write_reach
    | apply Node.afterCopies_reach
    | apply Reach.ite
    | apply Reach.foldl
    | split

theorem execSsiFrameEnd_reach {ps : List Part} {n0 : Node} (i : Nat) (word : Nat) (aHigh : Bool) (st nx : State) (hs : Reach ps n0 st.node) (hT : within [.mem, .ram, .host, .stalls, .cache, .rcp, .loops, .fio, .encs, .axes, .drives, .line, .time, .zb, .cust, .lifts, .gates, .rcd, .hlth, .freeCtr] ps = true) (h : execSsiFrameEnd i word aHigh st = .next nx) : Reach ps n0 nx.node := by
  unfold execSsiFrameEnd at h
  refine Reach.ofRun h ?_
  try dsimp only
  with_reducible repeat' first
    | assumption
    | intro _
    | exact within_trans (by decide) hT
    | apply Node.updEnc_reach
    | apply Node.upTo_reach
    | apply Node.transientFault_reach
    | apply Node.ssiWord_reach
    | apply Reach.ite
    | apply Reach.foldl
    | split

theorem execSsiFrameStart_reach {ps : List Part} {n0 : Node} (i : Nat) (aHigh : Bool) (st nx : State) (hs : Reach ps n0 st.node) (hT : within [.encs, .time] ps = true) (h : execSsiFrameStart i aHigh st = .next nx) : Reach ps n0 nx.node := by
  unfold execSsiFrameStart at h
  refine Reach.ofRun h ?_
  try dsimp only
  with_reducible repeat' first
    | assumption
    | intro _
    | exact within_trans (by decide) hT
    | apply Node.updEnc_reach
    | apply Node.upTo_reach
    | apply Reach.ite
    | apply Reach.foldl
    | split

theorem execStallRead_reach {ps : List Part} {n0 : Node} (path : Nat) (idx : Nat) (st nx : State) (hs : Reach ps n0 st.node) (hT : within [.mem, .ram, .host, .cache, .line, .rcd, .freeCtr] ps = true) (h : execStallRead path idx st = .next nx) : Reach ps n0 nx.node := by
  unfold execStallRead at h
  refine Reach.ofRun h ?_
  try dsimp only
  with_reducible repeat' first
    | assumption
    | intro _
    | exact within_trans (by decide) hT
    | apply Node.hostCmd_reach
    | apply Node.checked_reach
    | apply Node.ok_reach
    | apply Node.touch_reach
    | apply Reach.ite
    | apply Reach.foldl
    | split

theorem execStepTimeout_reach {ps : List Part} {n0 : Node} (i : Nat) (st nx : State) (hs : Reach ps n0 st.node) (hT : within [.mem, .ram, .host, .rcp, .line, .time, .rcd, .freeCtr] ps = true) (h : execStepTimeout i st = .next nx) : Reach ps n0 nx.node := by
  unfold execStepTimeout at h
  refine Reach.ofRun h ?_
  try dsimp only
  with_reducible repeat' first
    | assumption
    | intro _
    | exact within_trans (by decide) hT
    | apply Node.withStep_reach
    | apply Node.upTo_reach
    | apply Node.reachAction_reach
    | apply Node.enterStep_reach
    | apply Reach.ite
    | apply Reach.foldl
    | split

theorem execStopBehaviourDone_reach {ps : List Part} {n0 : Node} (k : Nat) (st nx : State) (hs : Reach ps n0 st.node) (hT : within [.mem, .ram, .host, .stalls, .cache, .fio, .encs, .axes, .drives, .line, .zb, .cust, .lifts, .gates, .rcd, .freeCtr] ps = true) (h : execStopBehaviourDone k st = .next nx) : Reach ps n0 nx.node := by
  unfold execStopBehaviourDone at h
  refine Reach.ofRun h ?_
  try dsimp only
  with_reducible repeat' first
    | assumption
    | intro _
    | exact within_trans (by decide) hT
    | apply Node.stopDone_reach
    | apply Reach.ite
    | apply Reach.foldl
    | split

theorem execStopZone_reach {ps : List Part} {n0 : Node} (st nx : State) (hs : Reach ps n0 st.node) (hT : within [.safe] ps = true) (h : execStopZone st = .next nx) : Reach ps n0 nx.node := by
  unfold execStopZone at h
  refine Reach.ofRun h ?_
  try dsimp only
  with_reducible repeat' first
    | assumption
    | intro _
    | exact within_trans (by decide) hT
    | apply Node.sfPlace_reach
    | apply Reach.ite
    | apply Reach.foldl
    | split

theorem execStoreRecordRequest_reach {ps : List Part} {n0 : Node} (st nx : State) (hs : Reach ps n0 st.node) (hT : within [.rcd] ps = true) (h : execStoreRecordRequest st = .next nx) : Reach ps n0 nx.node := by
  unfold execStoreRecordRequest at h
  refine Reach.ofRun h ?_
  try dsimp only
  with_reducible repeat' first
    | assumption
    | intro _
    | exact within_trans (by decide) hT
    | apply Node.takeRecord_reach
    | apply Reach.ite
    | apply Reach.foldl
    | split

theorem execSuppliesRegulated_reach {ps : List Part} {n0 : Node} (rise : Bool × List (Nat × Nat)) (st nx : State) (hs : Reach ps n0 st.node) (hT : within [.power, .rcd] ps = true) (h : execSuppliesRegulated rise st = .next nx) : Reach ps n0 nx.node := by
  unfold execSuppliesRegulated at h
  refine Reach.ofRun h ?_
  try dsimp only
  with_reducible repeat' first
    | assumption
    | intro _
    | exact within_trans (by decide) hT
    | apply Node.updRcd_reach
    | apply Node.updPower_reach
    | apply Reach.ite
    | apply Reach.foldl
    | split

theorem execSvcRead_reach {ps : List Part} {n0 : Node} (frame : List Nat) (st nx : State) (hs : Reach ps n0 st.node) (hT : within [.isl, .mem, .ram, .power, .host, .stalls, .cache, .rcp, .loops, .fio, .adc, .encs, .axes, .drives, .line, .time, .zb, .cust, .lifts, .gates, .harv, .rcd, .safe, .glean, .sec, .hlth, .freeCtr] ps = true) (h : execSvcRead frame st = .next nx) : Reach ps n0 nx.node := by
  unfold execSvcRead at h
  refine Reach.ofRun h ?_
  try dsimp only
  with_reducible repeat' first
    | assumption
    | intro _
    | exact within_trans (by decide) hT
    | apply Node.answerSvc_reach
    | apply Node.raise_reach
    | apply Node.touchLatch_reach
    | apply Node.useSram_reach
    | refine Reach.ofSnd (by assumption) ?_
    | apply Reach.ite
    | apply Reach.foldl
    | split

theorem execSvcWrite_reach {ps : List Part} {n0 : Node} (frame : List Nat) (st nx : State) (hs : Reach ps n0 st.node) (hT : within [.isl, .mem, .ram, .power, .host, .stalls, .cache, .rcp, .loops, .fio, .adc, .encs, .axes, .drives, .line, .time, .zb, .cust, .lifts, .gates, .harv, .rcd, .safe, .glean, .sec, .hlth, .freeCtr] ps = true) (h : execSvcWrite frame st = .next nx) : Reach ps n0 nx.node := by
  unfold execSvcWrite at h
  refine Reach.ofRun h ?_
  try dsimp only
  with_reducible repeat' first
    | assumption
    | intro _
    | exact within_trans (by decide) hT
    | apply Node.answerSvc_reach
    | apply Node.raise_reach
    | apply Node.touchLatch_reach
    | apply Node.hsWrites_reach
    | apply Node.pokes_reach
    | apply Node.afterCopies_reach
    | apply Reach.ite
    | apply Reach.foldl
    | split

theorem execSwitchChargeDriveLapse_reach {ps : List Part} {n0 : Node} (c : Nat) (st nx : State) (hs : Reach ps n0 st.node) (hT : within [.fio, .rcd, .safe] ps = true) (h : execSwitchChargeDriveLapse c st = .next nx) : Reach ps n0 nx.node := by
  unfold execSwitchChargeDriveLapse at h
  refine Reach.ofRun h ?_
  try dsimp only
  with_reducible repeat' first
    | assumption
    | intro _
    | exact within_trans (by decide) hT
    | apply Node.sfOpen_reach
    | apply Node.chanGone_reach
    | apply Reach.ite
    | apply Reach.foldl
    | split

theorem execSync_reach {ps : List Part} {n0 : Node} (p : Nat) (raw : Nat) (st nx : State) (hs : Reach ps n0 st.node) (hT : within [.line, .time, .rcd] ps = true) (h : execSync p raw st = .next nx) : Reach ps n0 nx.node := by
  unfold execSync at h
  refine Reach.ofRun h ?_
  try dsimp only
  with_reducible repeat' first
    | assumption
    | intro _
    | exact within_trans (by decide) hT
    | apply Node.applyTimeCfg_reach
    | apply Node.relay_reach
    | apply Node.updTime_reach
    | apply Node.sendSync_reach
    | apply Reach.ite
    | apply Reach.foldl
    | split

theorem execSyncLost_reach {ps : List Part} {n0 : Node} (st nx : State) (hs : Reach ps n0 st.node) (hT : within [.time, .rcd] ps = true) (h : execSyncLost st = .next nx) : Reach ps n0 nx.node := by
  unfold execSyncLost at h
  refine Reach.ofRun h ?_
  try dsimp only
  with_reducible repeat' first
    | assumption
    | intro _
    | exact within_trans (by decide) hT
    | apply Node.upTo_reach
    | apply Node.updTime_reach
    | apply Node.servoTo_reach
    | apply Node.enterHoldover_reach
    | apply Reach.ite
    | apply Reach.foldl
    | split

theorem execSyncSend_reach {ps : List Part} {n0 : Node} (at_ : Nat × Nat) (st nx : State) (hs : Reach ps n0 st.node) (hT : within [.line, .time, .rcd] ps = true) (h : execSyncSend at_ st = .next nx) : Reach ps n0 nx.node := by
  unfold execSyncSend at h
  refine Reach.ofRun h ?_
  try dsimp only
  with_reducible repeat' first
    | assumption
    | intro _
    | exact within_trans (by decide) hT
    | apply Node.applyTimeCfg_reach
    | apply Node.upTo_reach
    | apply Node.sendAnnounce_reach
    | apply Node.sendFollowUp_reach
    | apply Node.sendSync_reach
    | apply Reach.ite
    | apply Reach.foldl
    | split

theorem execTaskCancel_reach {ps : List Part} {n0 : Node} (path : Nat) (idx : Nat) (st nx : State) (hs : Reach ps n0 st.node) (hT : within [.mem, .ram, .host, .rcp, .line, .rcd, .freeCtr] ps = true) (h : execTaskCancel path idx st = .next nx) : Reach ps n0 nx.node := by
  unfold execTaskCancel at h
  refine Reach.ofRun h ?_
  try dsimp only
  with_reducible repeat' first
    | assumption
    | intro _
    | exact within_trans (by decide) hT
    | apply Node.hostCmd_reach
    | apply Node.checked_reach
    | apply Node.cancelTask_reach
    | apply Node.answer_reach
    | apply Node.ok_reach
    | refine Reach.ofSnd (by assumption) ?_
    | apply Reach.ite
    | apply Reach.foldl
    | split

theorem execTaskComplete_reach {ps : List Part} {n0 : Node} (core : Nat) (st nx : State) (hs : Reach ps n0 st.node) (hT : within [.rcp] ps = true) (h : execTaskComplete core st = .next nx) : Reach ps n0 nx.node := by
  unfold execTaskComplete at h
  refine Reach.ofRun h ?_
  try dsimp only
  with_reducible repeat' first
    | assumption
    | intro _
    | exact within_trans (by decide) hT
    | apply Node.outcome_reach
    | apply Reach.ite
    | apply Reach.set_rcp (m := st.node)
    | apply Reach.foldl
    | split
    | apply Reach.set_rcp

theorem execTaskDispatch_reach {ps : List Part} {n0 : Node} (core : Nat) (st nx : State) (hs : Reach ps n0 st.node) (hT : within [.mem, .ram, .host, .stalls, .cache, .rcp, .loops, .fio, .adc, .encs, .axes, .drives, .line, .zb, .cust, .lifts, .gates, .harv, .rcd, .safe, .freeCtr] ps = true) (h : execTaskDispatch core st = .next nx) : Reach ps n0 nx.node := by
  unfold execTaskDispatch at h
  refine Reach.ofRun h ?_
  try dsimp only
  with_reducible repeat' first
    | assumption
    | intro _
    | exact within_trans (by decide) hT
    | apply Node.runHandler_reach
    | refine Reach.ofSnd (by assumption) ?_
    | apply Reach.ite
    | apply Reach.set_rcp (m := st.node)
    | apply Reach.foldl
    | split
    | apply Reach.set_rcp

theorem execTaskRelease_reach {ps : List Part} {n0 : Node} (st nx : State) (hs : Reach ps n0 st.node) (hT : within [.rcp, .time] ps = true) (h : execTaskRelease st = .next nx) : Reach ps n0 nx.node := by
  unfold execTaskRelease at h
  refine Reach.ofRun h ?_
  try dsimp only
  with_reducible repeat' first
    | assumption
    | intro _
    | exact within_trans (by decide) hT
    | apply Node.upTo_reach
    | apply Reach.ite
    | apply Reach.set_rcp (m := st.node)
    | apply Reach.foldl
    | split
    | apply Reach.set_rcp

theorem execTbusEdge_reach {ps : List Part} {n0 : Node} (stamp : Nat) (st nx : State) (hs : Reach ps n0 st.node) (hT : within [.time, .harv] ps = true) (h : execTbusEdge stamp st = .next nx) : Reach ps n0 nx.node := by
  unfold execTbusEdge at h
  refine Reach.ofRun h ?_
  try dsimp only
  with_reducible repeat' first
    | assumption
    | intro _
    | exact within_trans (by decide) hT
    | apply Node.upTo_reach
    | apply Node.fireTrigger_reach
    | apply Reach.ite
    | apply Reach.foldl
    | split

theorem execTbusPulseEnd_reach {ps : List Part} {n0 : Node} (st nx : State) (hs : Reach ps n0 st.node) (hT : within [.time, .harv] ps = true) (h : execTbusPulseEnd st = .next nx) : Reach ps n0 nx.node := by
  unfold execTbusPulseEnd at h
  refine Reach.ofRun h ?_
  try dsimp only
  with_reducible repeat' first
    | assumption
    | intro _
    | exact within_trans (by decide) hT
    | apply Node.updHarv_reach
    | apply Node.upTo_reach
    | apply Reach.ite
    | apply Reach.foldl
    | split

theorem execThermalRecover_reach {ps : List Part} {n0 : Node} (st nx : State) (hs : Reach ps n0 st.node) (hT : within [.power] ps = true) (h : execThermalRecover st = .next nx) : Reach ps n0 nx.node := by
  unfold execThermalRecover at h
  refine Reach.ofRun h ?_
  try dsimp only
  with_reducible repeat' first
    | assumption
    | intro _
    | exact within_trans (by decide) hT
    | apply Node.updPower_reach
    | apply Reach.ite
    | apply Reach.foldl
    | split

theorem execThermalRestartTemp_reach {ps : List Part} {n0 : Node} (sensor : Nat) (st nx : State) (hs : Reach ps n0 st.node) (hT : within [.fio] ps = true) (h : execThermalRestartTemp sensor st = .next nx) : Reach ps n0 nx.node := by
  unfold execThermalRestartTemp at h
  refine Reach.ofRun h ?_
  try dsimp only
  with_reducible repeat' first
    | assumption
    | intro _
    | exact within_trans (by decide) hT
    | apply Node.setThermal_reach
    | apply Reach.ite
    | apply Reach.foldl
    | split

theorem execThermalStop_reach {ps : List Part} {n0 : Node} (st nx : State) (hs : Reach ps n0 st.node) (hT : within [.isl, .lastCrossing, .mem, .ram, .power, .host, .stalls, .cache, .rcp, .loops, .fio, .adc, .encs, .axes, .drives, .line, .time, .zb, .cust, .lifts, .gates, .harv, .rcd, .safe, .glean, .sec, .hlth, .freeCtr] ps = true) (h : execThermalStop st = .next nx) : Reach ps n0 nx.node := by
  unfold execThermalStop at h
  refine Reach.ofRun h ?_
  try dsimp only
  with_reducible repeat' first
    | assumption
    | intro _
    | exact within_trans (by decide) hT
    | apply Node.powerDown_reach
    | apply Reach.ite
    | apply Reach.foldl
    | split

theorem execTimeStatus_reach {ps : List Part} {n0 : Node} (path : Nat) (idx : Nat) (st nx : State) (hs : Reach ps n0 st.node) (hT : within [.mem, .ram, .host, .line, .time, .rcd, .freeCtr] ps = true) (h : execTimeStatus path idx st = .next nx) : Reach ps n0 nx.node := by
  unfold execTimeStatus at h
  refine Reach.ofRun h ?_
  try dsimp only
  with_reducible repeat' first
    | assumption
    | intro _
    | exact within_trans (by decide) hT
    | apply Node.hostCmd_reach
    | apply Node.checked_reach
    | apply Node.updTime_reach
    | apply Node.ok_reach
    | apply Reach.ite
    | apply Reach.foldl
    | split

theorem execTimedActionApply_reach {ps : List Part} {n0 : Node} (st nx : State) (hs : Reach ps n0 st.node) (hT : within [.mem, .ram, .host, .stalls, .cache, .rcp, .fio, .axes, .drives, .line, .time, .zb, .cust, .rcd, .freeCtr] ps = true) (h : execTimedActionApply st = .next nx) : Reach ps n0 nx.node := by
  unfold execTimedActionApply at h
  refine Reach.ofRun h ?_
  try dsimp only
  with_reducible repeat' first
    | assumption
    | intro _
    | exact within_trans (by decide) hT
    | apply Node.applyIssued_reach
    | apply Reach.ite
    | apply Reach.foldl
    | split

theorem execTimedMotionDue_reach {ps : List Part} {n0 : Node} (a : Nat) (st nx : State) (hs : Reach ps n0 st.node) (hT : within [.mem, .ram, .host, .axes, .drives, .line, .time, .rcd, .freeCtr] ps = true) (h : execTimedMotionDue a st = .next nx) : Reach ps n0 nx.node := by
  unfold execTimedMotionDue at h
  refine Reach.ofRun h ?_
  try dsimp only
  with_reducible repeat' first
    | assumption
    | intro _
    | exact within_trans (by decide) hT
    | apply Node.axisMotion_reach
    | apply Node.upTo_reach
    | apply Node.moveNow_reach
    | apply Node.stopNow_reach
    | apply Node.updAxis_reach
    | refine Reach.ofSnd (by assumption) ?_
    | apply Reach.ite
    | apply Reach.foldl
    | split

theorem execTimedWriteDue_reach {ps : List Part} {n0 : Node} (k : Nat) (st nx : State) (hs : Reach ps n0 st.node) (hT : within [.mem, .ram, .host, .stalls, .cache, .rcp, .loops, .fio, .encs, .axes, .drives, .line, .time, .zb, .cust, .lifts, .gates, .rcd, .hlth, .freeCtr] ps = true) (h : execTimedWriteDue k st = .next nx) : Reach ps n0 nx.node := by
  unfold execTimedWriteDue at h
  refine Reach.ofRun h ?_
  try dsimp only
  with_reducible repeat' first
    | assumption
    | intro _
    | exact within_trans (by decide) hT
    | apply Node.loopsAt_reach
    | apply Node.applyDue_reach
    | apply Node.engineWrite_reach
    | apply Node.setStall_reach
    | apply Reach.ite
    | apply Reach.foldl
    | split

theorem execTimerZero_reach {ps : List Part} {n0 : Node} (k : Nat) (st nx : State) (hs : Reach ps n0 st.node) (hT : within [.stalls, .cache, .time, .cust] ps = true) (h : execTimerZero k st = .next nx) : Reach ps n0 nx.node := by
  unfold execTimerZero at h
  refine Reach.ofRun h ?_
  try dsimp only
  with_reducible repeat' first
    | assumption
    | intro _
    | exact within_trans (by decide) hT
    | apply Node.upTo_reach
    | apply Node.putStall_reach
    | apply Reach.ite
    | apply Reach.foldl
    | split

theorem execTopoMap_reach {ps : List Part} {n0 : Node} (src : Nat) (cycle : Nat) (cycleAt : Nat) (level : Nat) (raiseLevel : Nat) (raiseAt : Nat) (nodes : List (List Nat)) (st nx : State) (hs : Reach ps n0 st.node) (hT : within [.line, .time, .rcd, .glean, .freeCtr] ps = true) (h : execTopoMap src cycle cycleAt level raiseLevel raiseAt nodes st = .next nx) : Reach ps n0 nx.node := by
  unfold execTopoMap at h
  refine Reach.ofRun h ?_
  try dsimp only
  with_reducible repeat' first
    | assumption
    | intro _
    | exact within_trans (by decide) hT
    | apply Node.yieldTo_reach
    | apply Node.raise_reach
    | apply Node.takeMap_reach
    | apply Node.updLine_reach
    | apply Node.send_reach
    | apply Reach.ite
    | apply Reach.foldl
    | split

theorem execTopoMapSend_reach {ps : List Part} {n0 : Node} (st nx : State) (hs : Reach ps n0 st.node) (hT : within [.line, .time, .rcd, .freeCtr] ps = true) (h : execTopoMapSend st = .next nx) : Reach ps n0 nx.node := by
  unfold execTopoMapSend at h
  refine Reach.ofRun h ?_
  try dsimp only
  with_reducible repeat' first
    | assumption
    | intro _
    | exact within_trans (by decide) hT
    | apply Node.updLine_reach
    | apply Node.takeMap_reach
    | apply Node.log_reach
    | apply Node.send_reach
    | apply Reach.ite
    | apply Reach.foldl
    | split

theorem execTopoReport_reach {ps : List Part} {n0 : Node} (serial : Nat) (address : Nat) (level : Nat) (ports : List Nat) (neigh : List Nat) (rates : List Nat) (head : Bool) (st nx : State) (hs : Reach ps n0 st.node) (hT : within [.line, .harv, .rcd, .freeCtr] ps = true) (h : execTopoReport serial address level ports neigh rates head st = .next nx) : Reach ps n0 nx.node := by
  unfold execTopoReport at h
  refine Reach.ofRun h ?_
  try dsimp only
  with_reducible repeat' first
    | assumption
    | intro _
    | exact within_trans (by decide) hT
    | apply Node.yieldTo_reach
    | apply Node.updLine_reach
    | apply Node.judgeAddress_reach
    | apply Node.judgeLevel_reach
    | apply Node.revokeUnfit_reach
    | apply Reach.ite
    | apply Reach.foldl
    | split

theorem execTorqueOff_reach {ps : List Part} {n0 : Node} (i : Nat) (st nx : State) (hs : Reach ps n0 st.node) (hT : within [.safe] ps = true) (h : execTorqueOff i st = .next nx) : Reach ps n0 nx.node := by
  unfold execTorqueOff at h
  refine Reach.ofRun h ?_
  try dsimp only
  with_reducible repeat' first
    | assumption
    | intro _
    | exact within_trans (by decide) hT
    | apply Node.sfPlace_reach
    | apply Reach.ite
    | apply Reach.foldl
    | split

theorem execTorqueOn_reach {ps : List Part} {n0 : Node} (i : Nat) (st nx : State) (hs : Reach ps n0 st.node) (hT : within [.safe] ps = true) (h : execTorqueOn i st = .next nx) : Reach ps n0 nx.node := by
  unfold execTorqueOn at h
  refine Reach.ofRun h ?_
  try dsimp only
  with_reducible repeat' first
    | assumption
    | intro _
    | exact within_trans (by decide) hT
    | apply Node.sfPlace_reach
    | apply Reach.ite
    | apply Reach.foldl
    | split

theorem execTrainingFailTimeout_reach {ps : List Part} {n0 : Node} (p : Nat) (st nx : State) (hs : Reach ps n0 st.node) (hT : within [.power, .line, .time, .rcd, .glean, .hlth, .freeCtr] ps = true) (h : execTrainingFailTimeout p st = .next nx) : Reach ps n0 nx.node := by
  unfold execTrainingFailTimeout at h
  refine Reach.ofRun h ?_
  try dsimp only
  with_reducible repeat' first
    | assumption
    | intro _
    | exact within_trans (by decide) hT
    | apply Node.retirePort_reach
    | apply Node.upTo_reach
    | apply Reach.ite
    | apply Reach.foldl
    | split

theorem execTrainingRateTimeout_reach {ps : List Part} {n0 : Node} (p : Nat) (st nx : State) (hs : Reach ps n0 st.node) (hT : within [.line, .time, .freeCtr] ps = true) (h : execTrainingRateTimeout p st = .next nx) : Reach ps n0 nx.node := by
  unfold execTrainingRateTimeout at h
  refine Reach.ofRun h ?_
  try dsimp only
  with_reducible repeat' first
    | assumption
    | intro _
    | exact within_trans (by decide) hT
    | apply Node.upTo_reach
    | apply Node.setPort_reach
    | apply Node.updPort_reach
    | apply Node.report_reach
    | apply Reach.ite
    | apply Reach.foldl
    | split

theorem execTriggerHoldoffEnd_reach {ps : List Part} {n0 : Node} (k : Nat) (st nx : State) (hs : Reach ps n0 st.node) (hT : within [.time, .harv] ps = true) (h : execTriggerHoldoffEnd k st = .next nx) : Reach ps n0 nx.node := by
  unfold execTriggerHoldoffEnd at h
  refine Reach.ofRun h ?_
  try dsimp only
  with_reducible repeat' first
    | assumption
    | intro _
    | exact within_trans (by decide) hT
    | apply Node.setTrig_reach
    | apply Node.upTo_reach
    | apply Reach.ite
    | apply Reach.foldl
    | split

theorem execUnlock_reach {ps : List Part} {n0 : Node} (i : Nat) (st nx : State) (hs : Reach ps n0 st.node) (hT : within [.safe] ps = true) (h : execUnlock i st = .next nx) : Reach ps n0 nx.node := by
  unfold execUnlock at h
  refine Reach.ofRun h ?_
  try dsimp only
  with_reducible repeat' first
    | assumption
    | intro _
    | exact within_trans (by decide) hT
    | apply Node.sfPlace_reach
    | apply Reach.ite
    | apply Reach.foldl
    | split

theorem execUnlockRequestTimeout_reach {ps : List Part} {n0 : Node} (i : Nat) (st nx : State) (hs : Reach ps n0 st.node) (hT : within [.time, .safe] ps = true) (h : execUnlockRequestTimeout i st = .next nx) : Reach ps n0 nx.node := by
  unfold execUnlockRequestTimeout at h
  refine Reach.ofRun h ?_
  try dsimp only
  with_reducible repeat' first
    | assumption
    | intro _
    | exact within_trans (by decide) hT
    | apply Node.updChan_reach
    | apply Node.upTo_reach
    | apply Reach.ite
    | apply Reach.foldl
    | split

theorem execVaonLow_reach {ps : List Part} {n0 : Node} (st nx : State) (hs : Reach ps n0 st.node) (hT : within [.isl, .lastCrossing, .mem, .ram, .power, .host, .stalls, .cache, .rcp, .loops, .fio, .adc, .encs, .axes, .drives, .line, .time, .zb, .cust, .lifts, .gates, .harv, .rcd, .safe, .glean, .sec, .hlth] ps = true) (h : execVaonLow st = .next nx) : Reach ps n0 nx.node := by
  unfold execVaonLow at h
  refine Reach.ofRun h ?_
  try dsimp only
  with_reducible repeat' first
    | assumption
    | intro _
    | exact within_trans (by decide) hT
    | apply Node.updPower_reach
    | apply Node.deviceReset_reach
    | apply Reach.ite
    | apply Reach.foldl
    | split

theorem execVaonRegulated_reach {ps : List Part} {n0 : Node} (st nx : State) (hs : Reach ps n0 st.node) (hT : within [.power, .sec] ps = true) (h : execVaonRegulated st = .next nx) : Reach ps n0 nx.node := by
  unfold execVaonRegulated at h
  refine Reach.ofRun h ?_
  try dsimp only
  with_reducible repeat' first
    | assumption
    | intro _
    | exact within_trans (by decide) hT
    | apply Node.updSec_reach
    | apply Node.updPower_reach
    | apply Reach.ite
    | apply Reach.foldl
    | split

theorem execVauxFault_reach {ps : List Part} {n0 : Node} (st nx : State) (hs : Reach ps n0 st.node) (hT : within [.power, .rcd, .glean, .freeCtr] ps = true) (h : execVauxFault st = .next nx) : Reach ps n0 nx.node := by
  unfold execVauxFault at h
  refine Reach.ofRun h ?_
  try dsimp only
  with_reducible repeat' first
    | assumption
    | intro _
    | exact within_trans (by decide) hT
    | apply Node.raise_reach
    | apply Node.logFree_reach
    | apply Node.updPower_reach
    | apply Reach.ite
    | apply Reach.foldl
    | split

theorem execVauxRetry_reach {ps : List Part} {n0 : Node} (st nx : State) (hs : Reach ps n0 st.node) (hT : within [.power, .time] ps = true) (h : execVauxRetry st = .next nx) : Reach ps n0 nx.node := by
  unfold execVauxRetry at h
  refine Reach.ofRun h ?_
  try dsimp only
  with_reducible repeat' first
    | assumption
    | intro _
    | exact within_trans (by decide) hT
    | apply Node.setVaux_reach
    | apply Node.upTo_reach
    | apply Reach.ite
    | apply Reach.foldl
    | split

theorem execWake_reach {ps : List Part} {n0 : Node} (lines : Nat) (st nx : State) (hs : Reach ps n0 st.node) (hT : within [.isl, .mem, .ram, .host, .stalls, .cache, .rcp, .loops, .fio, .axes, .drives, .line, .zb, .cust, .lifts, .gates, .rcd, .safe, .glean, .freeCtr] ps = true) (h : execWake lines st = .next nx) : Reach ps n0 nx.node := by
  unfold execWake at h
  refine Reach.ofRun h ?_
  try dsimp only
  with_reducible repeat' first
    | assumption
    | intro _
    | exact within_trans (by decide) hT
    | apply Node.wakeBy_reach
    | apply Reach.ite
    | apply Reach.foldl
    | split

theorem execWakeTimer_reach {ps : List Part} {n0 : Node} (st nx : State) (hs : Reach ps n0 st.node) (hT : within [.isl, .mem, .ram, .host, .stalls, .cache, .rcp, .loops, .fio, .axes, .drives, .line, .time, .zb, .cust, .lifts, .gates, .rcd, .safe, .glean, .freeCtr] ps = true) (h : execWakeTimer st = .next nx) : Reach ps n0 nx.node := by
  unfold execWakeTimer at h
  refine Reach.ofRun h ?_
  try dsimp only
  with_reducible repeat' first
    | assumption
    | intro _
    | exact within_trans (by decide) hT
    | apply Node.wakeBy_reach
    | apply Node.upTo_reach
    | apply Reach.ite
    | apply Reach.foldl
    | split

theorem execWireBreakMeasure_reach {ps : List Part} {n0 : Node} (i : Nat) (microAmp : Nat) (st nx : State) (hs : Reach ps n0 st.node) (hT : within [.stalls, .cache, .fio, .cust, .rcd] ps = true) (h : execWireBreakMeasure i microAmp st = .next nx) : Reach ps n0 nx.node := by
  unfold execWireBreakMeasure at h
  refine Reach.ofRun h ?_
  try dsimp only
  with_reducible repeat' first
    | assumption
    | intro _
    | exact within_trans (by decide) hT
    | apply Node.setIn_reach
    | apply Node.log_reach
    | apply Node.putStall_reach
    | apply Reach.ite
    | apply Reach.foldl
    | split

theorem execWoke_reach {ps : List Part} {n0 : Node} (edgesLost : Nat) (st nx : State) (hs : Reach ps n0 st.node) (hT : within [.isl, .mem, .ram, .host, .stalls, .cache, .rcp, .loops, .fio, .encs, .axes, .drives, .line, .zb, .cust, .lifts, .gates, .rcd, .safe, .glean, .freeCtr] ps = true) (h : execWoke edgesLost st = .next nx) : Reach ps n0 nx.node := by
  unfold execWoke at h
  refine Reach.ofRun h ?_
  try dsimp only
  with_reducible repeat' first
    | assumption
    | intro _
    | exact within_trans (by decide) hT
    | apply Node.updIsland_reach
    | apply Node.updGlean_reach
    | apply Node.log_reach
    | apply Node.logWaiting_reach
    | apply Node.inputsAnew_reach
    | apply Node.driveAll_reach
    | apply Node.updFio_reach
    | apply Node.zbReturns_reach
    | apply Node.positionLost_reach
    | apply Node.freshFilters_reach
    | apply Node.skipUpdates_reach
    | apply Node.resumeInsts_reach
    | apply Node.takeFrames_reach
    | apply Node.takeKept_reach
    | apply Node.catchUpCompares_reach
    | apply Reach.ite
    | apply Reach.foldl
    | split

theorem execZbArbLost_reach {ps : List Part} {n0 : Node} (st nx : State) (hs : Reach ps n0 st.node) (hT : within [.mem, .ram, .host, .stalls, .cache, .loops, .fio, .encs, .axes, .drives, .line, .zb, .cust, .lifts, .gates, .rcd, .safe, .hlth, .freeCtr] ps = true) (h : execZbArbLost st = .next nx) : Reach ps n0 nx.node := by
  unfold execZbArbLost at h
  refine Reach.ofRun h ?_
  try dsimp only
  with_reducible repeat' first
    | assumption
    | intro _
    | exact within_trans (by decide) hT
    | apply Node.updZb_reach
    | apply Node.zbIdle_reach
    | apply Node.zbAbort_reach
    | apply Reach.ite
    | apply Reach.foldl
    | split

theorem execZbExpressReload_reach {ps : List Part} {n0 : Node} (st nx : State) (hs : Reach ps n0 st.node) (hT : within [.zb] ps = true) (h : execZbExpressReload st = .next nx) : Reach ps n0 nx.node := by
  unfold execZbExpressReload at h
  refine Reach.ofRun h ?_
  try dsimp only
  with_reducible repeat' first
    | assumption
    | intro _
    | exact within_trans (by decide) hT
    | apply Node.updZb_reach
    | apply Reach.ite
    | apply Reach.foldl
    | split

theorem execZbFrameReceived_reach {ps : List Part} {n0 : Node} (ident : Nat) (fd : Bool) (brs : Bool) (esi : Bool) (rtr : Bool) (data : List Nat) (sof : Nat) (st nx : State) (hs : Reach ps n0 st.node) (hT : within [.mem, .ram, .host, .stalls, .cache, .rcp, .loops, .fio, .encs, .axes, .drives, .line, .time, .zb, .cust, .lifts, .gates, .rcd, .safe, .hlth, .freeCtr] ps = true) (h : execZbFrameReceived ident fd brs esi rtr data sof st = .next nx) : Reach ps n0 nx.node := by
  unfold execZbFrameReceived at h
  refine Reach.ofRun h ?_
  try dsimp only
  with_reducible repeat' first
    | assumption
    | intro _
    | exact within_trans (by decide) hT
    | apply Node.updZb_reach
    | apply Node.upTo_reach
    | apply Node.free_reach
    | apply Node.zbLevel_reach
    | apply Node.zbIdle_reach
    | apply Node.zbReceive_reach
    | refine Reach.ofSnd (by assumption) ?_
    | apply Reach.ite
    | apply Reach.foldl
    | split

theorem execZbFrameSent_reach {ps : List Part} {n0 : Node} (sof : Nat) (delay : Nat) (st nx : State) (hs : Reach ps n0 st.node) (hT : within [.mem, .ram, .host, .stalls, .cache, .rcp, .loops, .fio, .encs, .axes, .drives, .line, .time, .zb, .cust, .lifts, .gates, .rcd, .safe, .hlth, .freeCtr] ps = true) (h : execZbFrameSent sof delay st = .next nx) : Reach ps n0 nx.node := by
  unfold execZbFrameSent at h
  refine Reach.ofRun h ?_
  try dsimp only
  with_reducible repeat' first
    | assumption
    | intro _
    | exact within_trans (by decide) hT
    | apply Node.upTo_reach
    | apply Node.updZb_reach
    | apply Node.zbOutcome_reach
    | apply Node.zbLevel_reach
    | apply Node.zbReceive_reach
    | apply Node.zbIdle_reach
    | apply Reach.ite
    | apply Reach.set_time (m := st.node)
    | apply Reach.foldl
    | split
    | apply Reach.set_time

theorem execZbIntegrated_reach {ps : List Part} {n0 : Node} (st nx : State) (hs : Reach ps n0 st.node) (hT : within [.zb, .rcd] ps = true) (h : execZbIntegrated st = .next nx) : Reach ps n0 nx.node := by
  unfold execZbIntegrated at h
  refine Reach.ofRun h ?_
  try dsimp only
  with_reducible repeat' first
    | assumption
    | intro _
    | exact within_trans (by decide) hT
    | apply Node.zbEnter_reach
    | apply Node.updZb_reach
    | apply Reach.ite
    | apply Reach.foldl
    | split

theorem execZbRecover_reach {ps : List Part} {n0 : Node} (path : Nat) (idx : Nat) (st nx : State) (hs : Reach ps n0 st.node) (hT : within [.mem, .ram, .host, .line, .zb, .rcd, .freeCtr] ps = true) (h : execZbRecover path idx st = .next nx) : Reach ps n0 nx.node := by
  unfold execZbRecover at h
  refine Reach.ofRun h ?_
  try dsimp only
  with_reducible repeat' first
    | assumption
    | intro _
    | exact within_trans (by decide) hT
    | apply Node.hostCmd_reach
    | apply Node.checked_reach
    | apply Node.zbSet_reach
    | apply Node.ok_reach
    | apply Reach.ite
    | apply Reach.foldl
    | split

theorem execZbRecovered_reach {ps : List Part} {n0 : Node} (st nx : State) (hs : Reach ps n0 st.node) (hT : within [.mem, .ram, .host, .stalls, .cache, .loops, .fio, .encs, .axes, .drives, .line, .zb, .cust, .lifts, .gates, .rcd, .safe, .hlth, .freeCtr] ps = true) (h : execZbRecovered st = .next nx) : Reach ps n0 nx.node := by
  unfold execZbRecovered at h
  refine Reach.ofRun h ?_
  try dsimp only
  with_reducible repeat' first
    | assumption
    | intro _
    | exact within_trans (by decide) hT
    | apply Node.zbHolds_reach
    | apply Node.zbEnter_reach
    | apply Node.updZb_reach
    | apply Node.remoteTake_reach
    | apply Node.zbIdle_reach
    | apply Reach.ite
    | apply Reach.foldl
    | split

theorem execZbRecoveryDelay_reach {ps : List Part} {n0 : Node} (st nx : State) (hs : Reach ps n0 st.node) (hT : within [.time, .zb] ps = true) (h : execZbRecoveryDelay st = .next nx) : Reach ps n0 nx.node := by
  unfold execZbRecoveryDelay at h
  refine Reach.ofRun h ?_
  try dsimp only
  with_reducible repeat' first
    | assumption
    | intro _
    | exact within_trans (by decide) hT
    | apply Node.zbSet_reach
    | apply Node.upTo_reach
    | apply Reach.ite
    | apply Reach.foldl
    | split

theorem execZbRxError_reach {ps : List Part} {n0 : Node} (kind : Nat) (add : Nat) (res : Bool) (st nx : State) (hs : Reach ps n0 st.node) (hT : within [.stalls, .cache, .loops, .fio, .axes, .drives, .zb, .cust, .lifts, .gates, .rcd, .safe, .freeCtr] ps = true) (h : execZbRxError kind add res st = .next nx) : Reach ps n0 nx.node := by
  unfold execZbRxError at h
  refine Reach.ofRun h ?_
  try dsimp only
  with_reducible repeat' first
    | assumption
    | intro _
    | exact within_trans (by decide) hT
    | apply Node.updZb_reach
    | apply Node.zbLevel_reach
    | apply Node.zbIdle_reach
    | apply Reach.ite
    | apply Reach.foldl
    | split

theorem execZbSend_reach {ps : List Part} {n0 : Node} (at_ : Nat × Nat) (started : Bool) (st nx : State) (hs : Reach ps n0 st.node) (hT : within [.mem, .ram, .host, .line, .zb, .rcd, .freeCtr] ps = true) (h : execZbSend at_ started st = .next nx) : Reach ps n0 nx.node := by
  unfold execZbSend at h
  refine Reach.ofRun h ?_
  try dsimp only
  with_reducible repeat' first
    | assumption
    | intro _
    | exact within_trans (by decide) hT
    | apply Node.hostCmd_reach
    | apply Node.checked_reach
    | apply Node.zbPush_reach
    | apply Node.zbSaw_reach
    | apply Reach.ite
    | apply Reach.foldl
    | split

theorem execZbSendTimeout_reach {ps : List Part} {n0 : Node} (path : Nat) (idx : Nat) (st nx : State) (hs : Reach ps n0 st.node) (hT : within [.mem, .ram, .host, .line, .time, .zb, .rcd, .freeCtr] ps = true) (h : execZbSendTimeout path idx st = .next nx) : Reach ps n0 nx.node := by
  unfold execZbSendTimeout at h
  refine Reach.ofRun h ?_
  try dsimp only
  with_reducible repeat' first
    | assumption
    | intro _
    | exact within_trans (by decide) hT
    | apply Node.zbOutcome_reach
    | apply Node.upTo_reach
    | apply Node.updZb_reach
    | apply Reach.ite
    | apply Reach.foldl
    | split

theorem execZbStatus_reach {ps : List Part} {n0 : Node} (path : Nat) (idx : Nat) (st nx : State) (hs : Reach ps n0 st.node) (hT : within [.mem, .ram, .host, .line, .zb, .rcd, .freeCtr] ps = true) (h : execZbStatus path idx st = .next nx) : Reach ps n0 nx.node := by
  unfold execZbStatus at h
  refine Reach.ofRun h ?_
  try dsimp only
  with_reducible repeat' first
    | assumption
    | intro _
    | exact within_trans (by decide) hT
    | apply Node.hostCmd_reach
    | apply Node.checked_reach
    | apply Node.updZb_reach
    | apply Node.ok_reach
    | apply Reach.ite
    | apply Reach.foldl
    | split

theorem execZbSuspendEnd_reach {ps : List Part} {n0 : Node} (st nx : State) (hs : Reach ps n0 st.node) (hT : within [.zb] ps = true) (h : execZbSuspendEnd st = .next nx) : Reach ps n0 nx.node := by
  unfold execZbSuspendEnd at h
  refine Reach.ofRun h ?_
  try dsimp only
  with_reducible repeat' first
    | assumption
    | intro _
    | exact within_trans (by decide) hT
    | apply Node.updZb_reach
    | apply Reach.ite
    | apply Reach.foldl
    | split

theorem execZbTxError_reach {ps : List Part} {n0 : Node} (kind : Nat) (clash : Bool) (add : Nat) (st nx : State) (hs : Reach ps n0 st.node) (hT : within [.mem, .ram, .host, .stalls, .cache, .loops, .fio, .encs, .axes, .drives, .line, .zb, .cust, .lifts, .gates, .rcd, .safe, .hlth, .freeCtr] ps = true) (h : execZbTxError kind clash add st = .next nx) : Reach ps n0 nx.node := by
  unfold execZbTxError at h
  refine Reach.ofRun h ?_
  try dsimp only
  with_reducible repeat' first
    | assumption
    | intro _
    | exact within_trans (by decide) hT
    | apply Node.updZb_reach
    | apply Node.log_reach
    | apply Node.zbIdle_reach
    | apply Node.zbAbort_reach
    | apply Node.zbHolds_reach
    | apply Node.zbEnter_reach
    | apply Node.zbLevel_reach
    | apply Reach.ite
    | apply Reach.foldl
    | split

end Sys2Proof.Machine
end

