-- ==== Sys2Proof/Laws/State.lean ====
section
/-! SUPPORT. The fields of the state after the basic updates: one lemma per field and update, so that no proof unfolds a record
update. -/

namespace Sys2Proof.Machine

@[simp] theorem State.run_next (s : State) (f : Node → Node) : s.run f = .next { s with node := f s.node } := rfl
@[simp] theorem State.idle_pending (s : State) : s.idle.pending = s.pending := rfl
@[simp] theorem State.idle_node (s : State) : s.idle.node = s.node.idle := rfl

@[simp] theorem Node.updPower_power (x0 : Node) (x1 : Power → Power) : (x0.updPower x1).power = x1 x0.power := rfl
@[simp] theorem Node.updPower_isl (x0 : Node) (x1 : Power → Power) : (x0.updPower x1).isl = x0.isl := rfl
@[simp] theorem Node.updPower_lastCrossing (x0 : Node) (x1 : Power → Power) : (x0.updPower x1).lastCrossing = x0.lastCrossing := rfl
@[simp] theorem Node.updPower_mem (x0 : Node) (x1 : Power → Power) : (x0.updPower x1).mem = x0.mem := rfl
@[simp] theorem Node.updPower_ram (x0 : Node) (x1 : Power → Power) : (x0.updPower x1).ram = x0.ram := rfl
@[simp] theorem Node.updPower_host (x0 : Node) (x1 : Power → Power) : (x0.updPower x1).host = x0.host := rfl
@[simp] theorem Node.updPower_stalls (x0 : Node) (x1 : Power → Power) : (x0.updPower x1).stalls = x0.stalls := rfl
@[simp] theorem Node.updPower_cache (x0 : Node) (x1 : Power → Power) : (x0.updPower x1).cache = x0.cache := rfl
@[simp] theorem Node.updPower_stored (x0 : Node) (x1 : Power → Power) : (x0.updPower x1).stored = x0.stored := rfl
@[simp] theorem Node.updPower_rcp (x0 : Node) (x1 : Power → Power) : (x0.updPower x1).rcp = x0.rcp := rfl
@[simp] theorem Node.updPower_loops (x0 : Node) (x1 : Power → Power) : (x0.updPower x1).loops = x0.loops := rfl
@[simp] theorem Node.updPower_fio (x0 : Node) (x1 : Power → Power) : (x0.updPower x1).fio = x0.fio := rfl
@[simp] theorem Node.updPower_adc (x0 : Node) (x1 : Power → Power) : (x0.updPower x1).adc = x0.adc := rfl
@[simp] theorem Node.updPower_encs (x0 : Node) (x1 : Power → Power) : (x0.updPower x1).encs = x0.encs := rfl
@[simp] theorem Node.updPower_axes (x0 : Node) (x1 : Power → Power) : (x0.updPower x1).axes = x0.axes := rfl
@[simp] theorem Node.updPower_drives (x0 : Node) (x1 : Power → Power) : (x0.updPower x1).drives = x0.drives := rfl
@[simp] theorem Node.updPower_line (x0 : Node) (x1 : Power → Power) : (x0.updPower x1).line = x0.line := rfl
@[simp] theorem Node.updPower_time (x0 : Node) (x1 : Power → Power) : (x0.updPower x1).time = x0.time := rfl
@[simp] theorem Node.updPower_zb (x0 : Node) (x1 : Power → Power) : (x0.updPower x1).zb = x0.zb := rfl
@[simp] theorem Node.updPower_cust (x0 : Node) (x1 : Power → Power) : (x0.updPower x1).cust = x0.cust := rfl
@[simp] theorem Node.updPower_lifts (x0 : Node) (x1 : Power → Power) : (x0.updPower x1).lifts = x0.lifts := rfl
@[simp] theorem Node.updPower_gates (x0 : Node) (x1 : Power → Power) : (x0.updPower x1).gates = x0.gates := rfl
@[simp] theorem Node.updPower_harv (x0 : Node) (x1 : Power → Power) : (x0.updPower x1).harv = x0.harv := rfl
@[simp] theorem Node.updPower_rcd (x0 : Node) (x1 : Power → Power) : (x0.updPower x1).rcd = x0.rcd := rfl
@[simp] theorem Node.updPower_safe (x0 : Node) (x1 : Power → Power) : (x0.updPower x1).safe = x0.safe := rfl
@[simp] theorem Node.updPower_glean (x0 : Node) (x1 : Power → Power) : (x0.updPower x1).glean = x0.glean := rfl
@[simp] theorem Node.updPower_sec (x0 : Node) (x1 : Power → Power) : (x0.updPower x1).sec = x0.sec := rfl
@[simp] theorem Node.updPower_hlth (x0 : Node) (x1 : Power → Power) : (x0.updPower x1).hlth = x0.hlth := rfl
@[simp] theorem Node.updPower_freeCtr (x0 : Node) (x1 : Power → Power) : (x0.updPower x1).freeCtr = x0.freeCtr := rfl

@[simp] theorem Node.updRcd_rcd (x0 : Node) (x1 : Recorder → Recorder) : (x0.updRcd x1).rcd = x1 x0.rcd := rfl
@[simp] theorem Node.updRcd_isl (x0 : Node) (x1 : Recorder → Recorder) : (x0.updRcd x1).isl = x0.isl := rfl
@[simp] theorem Node.updRcd_lastCrossing (x0 : Node) (x1 : Recorder → Recorder) : (x0.updRcd x1).lastCrossing = x0.lastCrossing := rfl
@[simp] theorem Node.updRcd_mem (x0 : Node) (x1 : Recorder → Recorder) : (x0.updRcd x1).mem = x0.mem := rfl
@[simp] theorem Node.updRcd_ram (x0 : Node) (x1 : Recorder → Recorder) : (x0.updRcd x1).ram = x0.ram := rfl
@[simp] theorem Node.updRcd_power (x0 : Node) (x1 : Recorder → Recorder) : (x0.updRcd x1).power = x0.power := rfl
@[simp] theorem Node.updRcd_host (x0 : Node) (x1 : Recorder → Recorder) : (x0.updRcd x1).host = x0.host := rfl
@[simp] theorem Node.updRcd_stalls (x0 : Node) (x1 : Recorder → Recorder) : (x0.updRcd x1).stalls = x0.stalls := rfl
@[simp] theorem Node.updRcd_cache (x0 : Node) (x1 : Recorder → Recorder) : (x0.updRcd x1).cache = x0.cache := rfl
@[simp] theorem Node.updRcd_stored (x0 : Node) (x1 : Recorder → Recorder) : (x0.updRcd x1).stored = x0.stored := rfl
@[simp] theorem Node.updRcd_rcp (x0 : Node) (x1 : Recorder → Recorder) : (x0.updRcd x1).rcp = x0.rcp := rfl
@[simp] theorem Node.updRcd_loops (x0 : Node) (x1 : Recorder → Recorder) : (x0.updRcd x1).loops = x0.loops := rfl
@[simp] theorem Node.updRcd_fio (x0 : Node) (x1 : Recorder → Recorder) : (x0.updRcd x1).fio = x0.fio := rfl
@[simp] theorem Node.updRcd_adc (x0 : Node) (x1 : Recorder → Recorder) : (x0.updRcd x1).adc = x0.adc := rfl
@[simp] theorem Node.updRcd_encs (x0 : Node) (x1 : Recorder → Recorder) : (x0.updRcd x1).encs = x0.encs := rfl
@[simp] theorem Node.updRcd_axes (x0 : Node) (x1 : Recorder → Recorder) : (x0.updRcd x1).axes = x0.axes := rfl
@[simp] theorem Node.updRcd_drives (x0 : Node) (x1 : Recorder → Recorder) : (x0.updRcd x1).drives = x0.drives := rfl
@[simp] theorem Node.updRcd_line (x0 : Node) (x1 : Recorder → Recorder) : (x0.updRcd x1).line = x0.line := rfl
@[simp] theorem Node.updRcd_time (x0 : Node) (x1 : Recorder → Recorder) : (x0.updRcd x1).time = x0.time := rfl
@[simp] theorem Node.updRcd_zb (x0 : Node) (x1 : Recorder → Recorder) : (x0.updRcd x1).zb = x0.zb := rfl
@[simp] theorem Node.updRcd_cust (x0 : Node) (x1 : Recorder → Recorder) : (x0.updRcd x1).cust = x0.cust := rfl
@[simp] theorem Node.updRcd_lifts (x0 : Node) (x1 : Recorder → Recorder) : (x0.updRcd x1).lifts = x0.lifts := rfl
@[simp] theorem Node.updRcd_gates (x0 : Node) (x1 : Recorder → Recorder) : (x0.updRcd x1).gates = x0.gates := rfl
@[simp] theorem Node.updRcd_harv (x0 : Node) (x1 : Recorder → Recorder) : (x0.updRcd x1).harv = x0.harv := rfl
@[simp] theorem Node.updRcd_safe (x0 : Node) (x1 : Recorder → Recorder) : (x0.updRcd x1).safe = x0.safe := rfl
@[simp] theorem Node.updRcd_glean (x0 : Node) (x1 : Recorder → Recorder) : (x0.updRcd x1).glean = x0.glean := rfl
@[simp] theorem Node.updRcd_sec (x0 : Node) (x1 : Recorder → Recorder) : (x0.updRcd x1).sec = x0.sec := rfl
@[simp] theorem Node.updRcd_hlth (x0 : Node) (x1 : Recorder → Recorder) : (x0.updRcd x1).hlth = x0.hlth := rfl
@[simp] theorem Node.updRcd_freeCtr (x0 : Node) (x1 : Recorder → Recorder) : (x0.updRcd x1).freeCtr = x0.freeCtr := rfl

@[simp] theorem Node.updSafe_safe (x0 : Node) (x1 : Safety → Safety) : (x0.updSafe x1).safe = x1 x0.safe := rfl
@[simp] theorem Node.updSafe_isl (x0 : Node) (x1 : Safety → Safety) : (x0.updSafe x1).isl = x0.isl := rfl
@[simp] theorem Node.updSafe_lastCrossing (x0 : Node) (x1 : Safety → Safety) : (x0.updSafe x1).lastCrossing = x0.lastCrossing := rfl
@[simp] theorem Node.updSafe_mem (x0 : Node) (x1 : Safety → Safety) : (x0.updSafe x1).mem = x0.mem := rfl
@[simp] theorem Node.updSafe_ram (x0 : Node) (x1 : Safety → Safety) : (x0.updSafe x1).ram = x0.ram := rfl
@[simp] theorem Node.updSafe_power (x0 : Node) (x1 : Safety → Safety) : (x0.updSafe x1).power = x0.power := rfl
@[simp] theorem Node.updSafe_host (x0 : Node) (x1 : Safety → Safety) : (x0.updSafe x1).host = x0.host := rfl
@[simp] theorem Node.updSafe_stalls (x0 : Node) (x1 : Safety → Safety) : (x0.updSafe x1).stalls = x0.stalls := rfl
@[simp] theorem Node.updSafe_cache (x0 : Node) (x1 : Safety → Safety) : (x0.updSafe x1).cache = x0.cache := rfl
@[simp] theorem Node.updSafe_stored (x0 : Node) (x1 : Safety → Safety) : (x0.updSafe x1).stored = x0.stored := rfl
@[simp] theorem Node.updSafe_rcp (x0 : Node) (x1 : Safety → Safety) : (x0.updSafe x1).rcp = x0.rcp := rfl
@[simp] theorem Node.updSafe_loops (x0 : Node) (x1 : Safety → Safety) : (x0.updSafe x1).loops = x0.loops := rfl
@[simp] theorem Node.updSafe_fio (x0 : Node) (x1 : Safety → Safety) : (x0.updSafe x1).fio = x0.fio := rfl
@[simp] theorem Node.updSafe_adc (x0 : Node) (x1 : Safety → Safety) : (x0.updSafe x1).adc = x0.adc := rfl
@[simp] theorem Node.updSafe_encs (x0 : Node) (x1 : Safety → Safety) : (x0.updSafe x1).encs = x0.encs := rfl
@[simp] theorem Node.updSafe_axes (x0 : Node) (x1 : Safety → Safety) : (x0.updSafe x1).axes = x0.axes := rfl
@[simp] theorem Node.updSafe_drives (x0 : Node) (x1 : Safety → Safety) : (x0.updSafe x1).drives = x0.drives := rfl
@[simp] theorem Node.updSafe_line (x0 : Node) (x1 : Safety → Safety) : (x0.updSafe x1).line = x0.line := rfl
@[simp] theorem Node.updSafe_time (x0 : Node) (x1 : Safety → Safety) : (x0.updSafe x1).time = x0.time := rfl
@[simp] theorem Node.updSafe_zb (x0 : Node) (x1 : Safety → Safety) : (x0.updSafe x1).zb = x0.zb := rfl
@[simp] theorem Node.updSafe_cust (x0 : Node) (x1 : Safety → Safety) : (x0.updSafe x1).cust = x0.cust := rfl
@[simp] theorem Node.updSafe_lifts (x0 : Node) (x1 : Safety → Safety) : (x0.updSafe x1).lifts = x0.lifts := rfl
@[simp] theorem Node.updSafe_gates (x0 : Node) (x1 : Safety → Safety) : (x0.updSafe x1).gates = x0.gates := rfl
@[simp] theorem Node.updSafe_harv (x0 : Node) (x1 : Safety → Safety) : (x0.updSafe x1).harv = x0.harv := rfl
@[simp] theorem Node.updSafe_rcd (x0 : Node) (x1 : Safety → Safety) : (x0.updSafe x1).rcd = x0.rcd := rfl
@[simp] theorem Node.updSafe_glean (x0 : Node) (x1 : Safety → Safety) : (x0.updSafe x1).glean = x0.glean := rfl
@[simp] theorem Node.updSafe_sec (x0 : Node) (x1 : Safety → Safety) : (x0.updSafe x1).sec = x0.sec := rfl
@[simp] theorem Node.updSafe_hlth (x0 : Node) (x1 : Safety → Safety) : (x0.updSafe x1).hlth = x0.hlth := rfl
@[simp] theorem Node.updSafe_freeCtr (x0 : Node) (x1 : Safety → Safety) : (x0.updSafe x1).freeCtr = x0.freeCtr := rfl

@[simp] theorem Node.updHlth_hlth (x0 : Node) (x1 : Health → Health) : (x0.updHlth x1).hlth = x1 x0.hlth := rfl
@[simp] theorem Node.updHlth_isl (x0 : Node) (x1 : Health → Health) : (x0.updHlth x1).isl = x0.isl := rfl
@[simp] theorem Node.updHlth_lastCrossing (x0 : Node) (x1 : Health → Health) : (x0.updHlth x1).lastCrossing = x0.lastCrossing := rfl
@[simp] theorem Node.updHlth_mem (x0 : Node) (x1 : Health → Health) : (x0.updHlth x1).mem = x0.mem := rfl
@[simp] theorem Node.updHlth_ram (x0 : Node) (x1 : Health → Health) : (x0.updHlth x1).ram = x0.ram := rfl
@[simp] theorem Node.updHlth_power (x0 : Node) (x1 : Health → Health) : (x0.updHlth x1).power = x0.power := rfl
@[simp] theorem Node.updHlth_host (x0 : Node) (x1 : Health → Health) : (x0.updHlth x1).host = x0.host := rfl
@[simp] theorem Node.updHlth_stalls (x0 : Node) (x1 : Health → Health) : (x0.updHlth x1).stalls = x0.stalls := rfl
@[simp] theorem Node.updHlth_cache (x0 : Node) (x1 : Health → Health) : (x0.updHlth x1).cache = x0.cache := rfl
@[simp] theorem Node.updHlth_stored (x0 : Node) (x1 : Health → Health) : (x0.updHlth x1).stored = x0.stored := rfl
@[simp] theorem Node.updHlth_rcp (x0 : Node) (x1 : Health → Health) : (x0.updHlth x1).rcp = x0.rcp := rfl
@[simp] theorem Node.updHlth_loops (x0 : Node) (x1 : Health → Health) : (x0.updHlth x1).loops = x0.loops := rfl
@[simp] theorem Node.updHlth_fio (x0 : Node) (x1 : Health → Health) : (x0.updHlth x1).fio = x0.fio := rfl
@[simp] theorem Node.updHlth_adc (x0 : Node) (x1 : Health → Health) : (x0.updHlth x1).adc = x0.adc := rfl
@[simp] theorem Node.updHlth_encs (x0 : Node) (x1 : Health → Health) : (x0.updHlth x1).encs = x0.encs := rfl
@[simp] theorem Node.updHlth_axes (x0 : Node) (x1 : Health → Health) : (x0.updHlth x1).axes = x0.axes := rfl
@[simp] theorem Node.updHlth_drives (x0 : Node) (x1 : Health → Health) : (x0.updHlth x1).drives = x0.drives := rfl
@[simp] theorem Node.updHlth_line (x0 : Node) (x1 : Health → Health) : (x0.updHlth x1).line = x0.line := rfl
@[simp] theorem Node.updHlth_time (x0 : Node) (x1 : Health → Health) : (x0.updHlth x1).time = x0.time := rfl
@[simp] theorem Node.updHlth_zb (x0 : Node) (x1 : Health → Health) : (x0.updHlth x1).zb = x0.zb := rfl
@[simp] theorem Node.updHlth_cust (x0 : Node) (x1 : Health → Health) : (x0.updHlth x1).cust = x0.cust := rfl
@[simp] theorem Node.updHlth_lifts (x0 : Node) (x1 : Health → Health) : (x0.updHlth x1).lifts = x0.lifts := rfl
@[simp] theorem Node.updHlth_gates (x0 : Node) (x1 : Health → Health) : (x0.updHlth x1).gates = x0.gates := rfl
@[simp] theorem Node.updHlth_harv (x0 : Node) (x1 : Health → Health) : (x0.updHlth x1).harv = x0.harv := rfl
@[simp] theorem Node.updHlth_rcd (x0 : Node) (x1 : Health → Health) : (x0.updHlth x1).rcd = x0.rcd := rfl
@[simp] theorem Node.updHlth_safe (x0 : Node) (x1 : Health → Health) : (x0.updHlth x1).safe = x0.safe := rfl
@[simp] theorem Node.updHlth_glean (x0 : Node) (x1 : Health → Health) : (x0.updHlth x1).glean = x0.glean := rfl
@[simp] theorem Node.updHlth_sec (x0 : Node) (x1 : Health → Health) : (x0.updHlth x1).sec = x0.sec := rfl
@[simp] theorem Node.updHlth_freeCtr (x0 : Node) (x1 : Health → Health) : (x0.updHlth x1).freeCtr = x0.freeCtr := rfl

@[simp] theorem Node.updTime_time (x0 : Node) (x1 : Time → Time) : (x0.updTime x1).time = x1 x0.time := rfl
@[simp] theorem Node.updTime_isl (x0 : Node) (x1 : Time → Time) : (x0.updTime x1).isl = x0.isl := rfl
@[simp] theorem Node.updTime_lastCrossing (x0 : Node) (x1 : Time → Time) : (x0.updTime x1).lastCrossing = x0.lastCrossing := rfl
@[simp] theorem Node.updTime_mem (x0 : Node) (x1 : Time → Time) : (x0.updTime x1).mem = x0.mem := rfl
@[simp] theorem Node.updTime_ram (x0 : Node) (x1 : Time → Time) : (x0.updTime x1).ram = x0.ram := rfl
@[simp] theorem Node.updTime_power (x0 : Node) (x1 : Time → Time) : (x0.updTime x1).power = x0.power := rfl
@[simp] theorem Node.updTime_host (x0 : Node) (x1 : Time → Time) : (x0.updTime x1).host = x0.host := rfl
@[simp] theorem Node.updTime_stalls (x0 : Node) (x1 : Time → Time) : (x0.updTime x1).stalls = x0.stalls := rfl
@[simp] theorem Node.updTime_cache (x0 : Node) (x1 : Time → Time) : (x0.updTime x1).cache = x0.cache := rfl
@[simp] theorem Node.updTime_stored (x0 : Node) (x1 : Time → Time) : (x0.updTime x1).stored = x0.stored := rfl
@[simp] theorem Node.updTime_rcp (x0 : Node) (x1 : Time → Time) : (x0.updTime x1).rcp = x0.rcp := rfl
@[simp] theorem Node.updTime_loops (x0 : Node) (x1 : Time → Time) : (x0.updTime x1).loops = x0.loops := rfl
@[simp] theorem Node.updTime_fio (x0 : Node) (x1 : Time → Time) : (x0.updTime x1).fio = x0.fio := rfl
@[simp] theorem Node.updTime_adc (x0 : Node) (x1 : Time → Time) : (x0.updTime x1).adc = x0.adc := rfl
@[simp] theorem Node.updTime_encs (x0 : Node) (x1 : Time → Time) : (x0.updTime x1).encs = x0.encs := rfl
@[simp] theorem Node.updTime_axes (x0 : Node) (x1 : Time → Time) : (x0.updTime x1).axes = x0.axes := rfl
@[simp] theorem Node.updTime_drives (x0 : Node) (x1 : Time → Time) : (x0.updTime x1).drives = x0.drives := rfl
@[simp] theorem Node.updTime_line (x0 : Node) (x1 : Time → Time) : (x0.updTime x1).line = x0.line := rfl
@[simp] theorem Node.updTime_zb (x0 : Node) (x1 : Time → Time) : (x0.updTime x1).zb = x0.zb := rfl
@[simp] theorem Node.updTime_cust (x0 : Node) (x1 : Time → Time) : (x0.updTime x1).cust = x0.cust := rfl
@[simp] theorem Node.updTime_lifts (x0 : Node) (x1 : Time → Time) : (x0.updTime x1).lifts = x0.lifts := rfl
@[simp] theorem Node.updTime_gates (x0 : Node) (x1 : Time → Time) : (x0.updTime x1).gates = x0.gates := rfl
@[simp] theorem Node.updTime_harv (x0 : Node) (x1 : Time → Time) : (x0.updTime x1).harv = x0.harv := rfl
@[simp] theorem Node.updTime_rcd (x0 : Node) (x1 : Time → Time) : (x0.updTime x1).rcd = x0.rcd := rfl
@[simp] theorem Node.updTime_safe (x0 : Node) (x1 : Time → Time) : (x0.updTime x1).safe = x0.safe := rfl
@[simp] theorem Node.updTime_glean (x0 : Node) (x1 : Time → Time) : (x0.updTime x1).glean = x0.glean := rfl
@[simp] theorem Node.updTime_sec (x0 : Node) (x1 : Time → Time) : (x0.updTime x1).sec = x0.sec := rfl
@[simp] theorem Node.updTime_hlth (x0 : Node) (x1 : Time → Time) : (x0.updTime x1).hlth = x0.hlth := rfl
@[simp] theorem Node.updTime_freeCtr (x0 : Node) (x1 : Time → Time) : (x0.updTime x1).freeCtr = x0.freeCtr := rfl

@[simp] theorem Node.updCust_cust (x0 : Node) (x1 : Custody → Custody) : (x0.updCust x1).cust = x1 x0.cust := rfl
@[simp] theorem Node.updCust_isl (x0 : Node) (x1 : Custody → Custody) : (x0.updCust x1).isl = x0.isl := rfl
@[simp] theorem Node.updCust_lastCrossing (x0 : Node) (x1 : Custody → Custody) : (x0.updCust x1).lastCrossing = x0.lastCrossing := rfl
@[simp] theorem Node.updCust_mem (x0 : Node) (x1 : Custody → Custody) : (x0.updCust x1).mem = x0.mem := rfl
@[simp] theorem Node.updCust_ram (x0 : Node) (x1 : Custody → Custody) : (x0.updCust x1).ram = x0.ram := rfl
@[simp] theorem Node.updCust_power (x0 : Node) (x1 : Custody → Custody) : (x0.updCust x1).power = x0.power := rfl
@[simp] theorem Node.updCust_host (x0 : Node) (x1 : Custody → Custody) : (x0.updCust x1).host = x0.host := rfl
@[simp] theorem Node.updCust_stalls (x0 : Node) (x1 : Custody → Custody) : (x0.updCust x1).stalls = x0.stalls := rfl
@[simp] theorem Node.updCust_cache (x0 : Node) (x1 : Custody → Custody) : (x0.updCust x1).cache = x0.cache := rfl
@[simp] theorem Node.updCust_stored (x0 : Node) (x1 : Custody → Custody) : (x0.updCust x1).stored = x0.stored := rfl
@[simp] theorem Node.updCust_rcp (x0 : Node) (x1 : Custody → Custody) : (x0.updCust x1).rcp = x0.rcp := rfl
@[simp] theorem Node.updCust_loops (x0 : Node) (x1 : Custody → Custody) : (x0.updCust x1).loops = x0.loops := rfl
@[simp] theorem Node.updCust_fio (x0 : Node) (x1 : Custody → Custody) : (x0.updCust x1).fio = x0.fio := rfl
@[simp] theorem Node.updCust_adc (x0 : Node) (x1 : Custody → Custody) : (x0.updCust x1).adc = x0.adc := rfl
@[simp] theorem Node.updCust_encs (x0 : Node) (x1 : Custody → Custody) : (x0.updCust x1).encs = x0.encs := rfl
@[simp] theorem Node.updCust_axes (x0 : Node) (x1 : Custody → Custody) : (x0.updCust x1).axes = x0.axes := rfl
@[simp] theorem Node.updCust_drives (x0 : Node) (x1 : Custody → Custody) : (x0.updCust x1).drives = x0.drives := rfl
@[simp] theorem Node.updCust_line (x0 : Node) (x1 : Custody → Custody) : (x0.updCust x1).line = x0.line := rfl
@[simp] theorem Node.updCust_time (x0 : Node) (x1 : Custody → Custody) : (x0.updCust x1).time = x0.time := rfl
@[simp] theorem Node.updCust_zb (x0 : Node) (x1 : Custody → Custody) : (x0.updCust x1).zb = x0.zb := rfl
@[simp] theorem Node.updCust_lifts (x0 : Node) (x1 : Custody → Custody) : (x0.updCust x1).lifts = x0.lifts := rfl
@[simp] theorem Node.updCust_gates (x0 : Node) (x1 : Custody → Custody) : (x0.updCust x1).gates = x0.gates := rfl
@[simp] theorem Node.updCust_harv (x0 : Node) (x1 : Custody → Custody) : (x0.updCust x1).harv = x0.harv := rfl
@[simp] theorem Node.updCust_rcd (x0 : Node) (x1 : Custody → Custody) : (x0.updCust x1).rcd = x0.rcd := rfl
@[simp] theorem Node.updCust_safe (x0 : Node) (x1 : Custody → Custody) : (x0.updCust x1).safe = x0.safe := rfl
@[simp] theorem Node.updCust_glean (x0 : Node) (x1 : Custody → Custody) : (x0.updCust x1).glean = x0.glean := rfl
@[simp] theorem Node.updCust_sec (x0 : Node) (x1 : Custody → Custody) : (x0.updCust x1).sec = x0.sec := rfl
@[simp] theorem Node.updCust_hlth (x0 : Node) (x1 : Custody → Custody) : (x0.updCust x1).hlth = x0.hlth := rfl
@[simp] theorem Node.updCust_freeCtr (x0 : Node) (x1 : Custody → Custody) : (x0.updCust x1).freeCtr = x0.freeCtr := rfl

@[simp] theorem Node.updZb_zb (x0 : Node) (x1 : Zb → Zb) : (x0.updZb x1).zb = x1 x0.zb := rfl
@[simp] theorem Node.updZb_isl (x0 : Node) (x1 : Zb → Zb) : (x0.updZb x1).isl = x0.isl := rfl
@[simp] theorem Node.updZb_lastCrossing (x0 : Node) (x1 : Zb → Zb) : (x0.updZb x1).lastCrossing = x0.lastCrossing := rfl
@[simp] theorem Node.updZb_mem (x0 : Node) (x1 : Zb → Zb) : (x0.updZb x1).mem = x0.mem := rfl
@[simp] theorem Node.updZb_ram (x0 : Node) (x1 : Zb → Zb) : (x0.updZb x1).ram = x0.ram := rfl
@[simp] theorem Node.updZb_power (x0 : Node) (x1 : Zb → Zb) : (x0.updZb x1).power = x0.power := rfl
@[simp] theorem Node.updZb_host (x0 : Node) (x1 : Zb → Zb) : (x0.updZb x1).host = x0.host := rfl
@[simp] theorem Node.updZb_stalls (x0 : Node) (x1 : Zb → Zb) : (x0.updZb x1).stalls = x0.stalls := rfl
@[simp] theorem Node.updZb_cache (x0 : Node) (x1 : Zb → Zb) : (x0.updZb x1).cache = x0.cache := rfl
@[simp] theorem Node.updZb_stored (x0 : Node) (x1 : Zb → Zb) : (x0.updZb x1).stored = x0.stored := rfl
@[simp] theorem Node.updZb_rcp (x0 : Node) (x1 : Zb → Zb) : (x0.updZb x1).rcp = x0.rcp := rfl
@[simp] theorem Node.updZb_loops (x0 : Node) (x1 : Zb → Zb) : (x0.updZb x1).loops = x0.loops := rfl
@[simp] theorem Node.updZb_fio (x0 : Node) (x1 : Zb → Zb) : (x0.updZb x1).fio = x0.fio := rfl
@[simp] theorem Node.updZb_adc (x0 : Node) (x1 : Zb → Zb) : (x0.updZb x1).adc = x0.adc := rfl
@[simp] theorem Node.updZb_encs (x0 : Node) (x1 : Zb → Zb) : (x0.updZb x1).encs = x0.encs := rfl
@[simp] theorem Node.updZb_axes (x0 : Node) (x1 : Zb → Zb) : (x0.updZb x1).axes = x0.axes := rfl
@[simp] theorem Node.updZb_drives (x0 : Node) (x1 : Zb → Zb) : (x0.updZb x1).drives = x0.drives := rfl
@[simp] theorem Node.updZb_line (x0 : Node) (x1 : Zb → Zb) : (x0.updZb x1).line = x0.line := rfl
@[simp] theorem Node.updZb_time (x0 : Node) (x1 : Zb → Zb) : (x0.updZb x1).time = x0.time := rfl
@[simp] theorem Node.updZb_cust (x0 : Node) (x1 : Zb → Zb) : (x0.updZb x1).cust = x0.cust := rfl
@[simp] theorem Node.updZb_lifts (x0 : Node) (x1 : Zb → Zb) : (x0.updZb x1).lifts = x0.lifts := rfl
@[simp] theorem Node.updZb_gates (x0 : Node) (x1 : Zb → Zb) : (x0.updZb x1).gates = x0.gates := rfl
@[simp] theorem Node.updZb_harv (x0 : Node) (x1 : Zb → Zb) : (x0.updZb x1).harv = x0.harv := rfl
@[simp] theorem Node.updZb_rcd (x0 : Node) (x1 : Zb → Zb) : (x0.updZb x1).rcd = x0.rcd := rfl
@[simp] theorem Node.updZb_safe (x0 : Node) (x1 : Zb → Zb) : (x0.updZb x1).safe = x0.safe := rfl
@[simp] theorem Node.updZb_glean (x0 : Node) (x1 : Zb → Zb) : (x0.updZb x1).glean = x0.glean := rfl
@[simp] theorem Node.updZb_sec (x0 : Node) (x1 : Zb → Zb) : (x0.updZb x1).sec = x0.sec := rfl
@[simp] theorem Node.updZb_hlth (x0 : Node) (x1 : Zb → Zb) : (x0.updZb x1).hlth = x0.hlth := rfl
@[simp] theorem Node.updZb_freeCtr (x0 : Node) (x1 : Zb → Zb) : (x0.updZb x1).freeCtr = x0.freeCtr := rfl

@[simp] theorem Node.updGlean_glean (x0 : Node) (x1 : Gleaner → Gleaner) : (x0.updGlean x1).glean = x1 x0.glean := rfl
@[simp] theorem Node.updGlean_isl (x0 : Node) (x1 : Gleaner → Gleaner) : (x0.updGlean x1).isl = x0.isl := rfl
@[simp] theorem Node.updGlean_lastCrossing (x0 : Node) (x1 : Gleaner → Gleaner) : (x0.updGlean x1).lastCrossing = x0.lastCrossing := rfl
@[simp] theorem Node.updGlean_mem (x0 : Node) (x1 : Gleaner → Gleaner) : (x0.updGlean x1).mem = x0.mem := rfl
@[simp] theorem Node.updGlean_ram (x0 : Node) (x1 : Gleaner → Gleaner) : (x0.updGlean x1).ram = x0.ram := rfl
@[simp] theorem Node.updGlean_power (x0 : Node) (x1 : Gleaner → Gleaner) : (x0.updGlean x1).power = x0.power := rfl
@[simp] theorem Node.updGlean_host (x0 : Node) (x1 : Gleaner → Gleaner) : (x0.updGlean x1).host = x0.host := rfl
@[simp] theorem Node.updGlean_stalls (x0 : Node) (x1 : Gleaner → Gleaner) : (x0.updGlean x1).stalls = x0.stalls := rfl
@[simp] theorem Node.updGlean_cache (x0 : Node) (x1 : Gleaner → Gleaner) : (x0.updGlean x1).cache = x0.cache := rfl
@[simp] theorem Node.updGlean_stored (x0 : Node) (x1 : Gleaner → Gleaner) : (x0.updGlean x1).stored = x0.stored := rfl
@[simp] theorem Node.updGlean_rcp (x0 : Node) (x1 : Gleaner → Gleaner) : (x0.updGlean x1).rcp = x0.rcp := rfl
@[simp] theorem Node.updGlean_loops (x0 : Node) (x1 : Gleaner → Gleaner) : (x0.updGlean x1).loops = x0.loops := rfl
@[simp] theorem Node.updGlean_fio (x0 : Node) (x1 : Gleaner → Gleaner) : (x0.updGlean x1).fio = x0.fio := rfl
@[simp] theorem Node.updGlean_adc (x0 : Node) (x1 : Gleaner → Gleaner) : (x0.updGlean x1).adc = x0.adc := rfl
@[simp] theorem Node.updGlean_encs (x0 : Node) (x1 : Gleaner → Gleaner) : (x0.updGlean x1).encs = x0.encs := rfl
@[simp] theorem Node.updGlean_axes (x0 : Node) (x1 : Gleaner → Gleaner) : (x0.updGlean x1).axes = x0.axes := rfl
@[simp] theorem Node.updGlean_drives (x0 : Node) (x1 : Gleaner → Gleaner) : (x0.updGlean x1).drives = x0.drives := rfl
@[simp] theorem Node.updGlean_line (x0 : Node) (x1 : Gleaner → Gleaner) : (x0.updGlean x1).line = x0.line := rfl
@[simp] theorem Node.updGlean_time (x0 : Node) (x1 : Gleaner → Gleaner) : (x0.updGlean x1).time = x0.time := rfl
@[simp] theorem Node.updGlean_zb (x0 : Node) (x1 : Gleaner → Gleaner) : (x0.updGlean x1).zb = x0.zb := rfl
@[simp] theorem Node.updGlean_cust (x0 : Node) (x1 : Gleaner → Gleaner) : (x0.updGlean x1).cust = x0.cust := rfl
@[simp] theorem Node.updGlean_lifts (x0 : Node) (x1 : Gleaner → Gleaner) : (x0.updGlean x1).lifts = x0.lifts := rfl
@[simp] theorem Node.updGlean_gates (x0 : Node) (x1 : Gleaner → Gleaner) : (x0.updGlean x1).gates = x0.gates := rfl
@[simp] theorem Node.updGlean_harv (x0 : Node) (x1 : Gleaner → Gleaner) : (x0.updGlean x1).harv = x0.harv := rfl
@[simp] theorem Node.updGlean_rcd (x0 : Node) (x1 : Gleaner → Gleaner) : (x0.updGlean x1).rcd = x0.rcd := rfl
@[simp] theorem Node.updGlean_safe (x0 : Node) (x1 : Gleaner → Gleaner) : (x0.updGlean x1).safe = x0.safe := rfl
@[simp] theorem Node.updGlean_sec (x0 : Node) (x1 : Gleaner → Gleaner) : (x0.updGlean x1).sec = x0.sec := rfl
@[simp] theorem Node.updGlean_hlth (x0 : Node) (x1 : Gleaner → Gleaner) : (x0.updGlean x1).hlth = x0.hlth := rfl
@[simp] theorem Node.updGlean_freeCtr (x0 : Node) (x1 : Gleaner → Gleaner) : (x0.updGlean x1).freeCtr = x0.freeCtr := rfl

@[simp] theorem Node.updHarv_harv (x0 : Node) (x1 : Harvest → Harvest) : (x0.updHarv x1).harv = x1 x0.harv := rfl
@[simp] theorem Node.updHarv_isl (x0 : Node) (x1 : Harvest → Harvest) : (x0.updHarv x1).isl = x0.isl := rfl
@[simp] theorem Node.updHarv_lastCrossing (x0 : Node) (x1 : Harvest → Harvest) : (x0.updHarv x1).lastCrossing = x0.lastCrossing := rfl
@[simp] theorem Node.updHarv_mem (x0 : Node) (x1 : Harvest → Harvest) : (x0.updHarv x1).mem = x0.mem := rfl
@[simp] theorem Node.updHarv_ram (x0 : Node) (x1 : Harvest → Harvest) : (x0.updHarv x1).ram = x0.ram := rfl
@[simp] theorem Node.updHarv_power (x0 : Node) (x1 : Harvest → Harvest) : (x0.updHarv x1).power = x0.power := rfl
@[simp] theorem Node.updHarv_host (x0 : Node) (x1 : Harvest → Harvest) : (x0.updHarv x1).host = x0.host := rfl
@[simp] theorem Node.updHarv_stalls (x0 : Node) (x1 : Harvest → Harvest) : (x0.updHarv x1).stalls = x0.stalls := rfl
@[simp] theorem Node.updHarv_cache (x0 : Node) (x1 : Harvest → Harvest) : (x0.updHarv x1).cache = x0.cache := rfl
@[simp] theorem Node.updHarv_stored (x0 : Node) (x1 : Harvest → Harvest) : (x0.updHarv x1).stored = x0.stored := rfl
@[simp] theorem Node.updHarv_rcp (x0 : Node) (x1 : Harvest → Harvest) : (x0.updHarv x1).rcp = x0.rcp := rfl
@[simp] theorem Node.updHarv_loops (x0 : Node) (x1 : Harvest → Harvest) : (x0.updHarv x1).loops = x0.loops := rfl
@[simp] theorem Node.updHarv_fio (x0 : Node) (x1 : Harvest → Harvest) : (x0.updHarv x1).fio = x0.fio := rfl
@[simp] theorem Node.updHarv_adc (x0 : Node) (x1 : Harvest → Harvest) : (x0.updHarv x1).adc = x0.adc := rfl
@[simp] theorem Node.updHarv_encs (x0 : Node) (x1 : Harvest → Harvest) : (x0.updHarv x1).encs = x0.encs := rfl
@[simp] theorem Node.updHarv_axes (x0 : Node) (x1 : Harvest → Harvest) : (x0.updHarv x1).axes = x0.axes := rfl
@[simp] theorem Node.updHarv_drives (x0 : Node) (x1 : Harvest → Harvest) : (x0.updHarv x1).drives = x0.drives := rfl
@[simp] theorem Node.updHarv_line (x0 : Node) (x1 : Harvest → Harvest) : (x0.updHarv x1).line = x0.line := rfl
@[simp] theorem Node.updHarv_time (x0 : Node) (x1 : Harvest → Harvest) : (x0.updHarv x1).time = x0.time := rfl
@[simp] theorem Node.updHarv_zb (x0 : Node) (x1 : Harvest → Harvest) : (x0.updHarv x1).zb = x0.zb := rfl
@[simp] theorem Node.updHarv_cust (x0 : Node) (x1 : Harvest → Harvest) : (x0.updHarv x1).cust = x0.cust := rfl
@[simp] theorem Node.updHarv_lifts (x0 : Node) (x1 : Harvest → Harvest) : (x0.updHarv x1).lifts = x0.lifts := rfl
@[simp] theorem Node.updHarv_gates (x0 : Node) (x1 : Harvest → Harvest) : (x0.updHarv x1).gates = x0.gates := rfl
@[simp] theorem Node.updHarv_rcd (x0 : Node) (x1 : Harvest → Harvest) : (x0.updHarv x1).rcd = x0.rcd := rfl
@[simp] theorem Node.updHarv_safe (x0 : Node) (x1 : Harvest → Harvest) : (x0.updHarv x1).safe = x0.safe := rfl
@[simp] theorem Node.updHarv_glean (x0 : Node) (x1 : Harvest → Harvest) : (x0.updHarv x1).glean = x0.glean := rfl
@[simp] theorem Node.updHarv_sec (x0 : Node) (x1 : Harvest → Harvest) : (x0.updHarv x1).sec = x0.sec := rfl
@[simp] theorem Node.updHarv_hlth (x0 : Node) (x1 : Harvest → Harvest) : (x0.updHarv x1).hlth = x0.hlth := rfl
@[simp] theorem Node.updHarv_freeCtr (x0 : Node) (x1 : Harvest → Harvest) : (x0.updHarv x1).freeCtr = x0.freeCtr := rfl

@[simp] theorem Node.updAdc_adc (x0 : Node) (x1 : Adc → Adc) : (x0.updAdc x1).adc = x1 x0.adc := rfl
@[simp] theorem Node.updAdc_isl (x0 : Node) (x1 : Adc → Adc) : (x0.updAdc x1).isl = x0.isl := rfl
@[simp] theorem Node.updAdc_lastCrossing (x0 : Node) (x1 : Adc → Adc) : (x0.updAdc x1).lastCrossing = x0.lastCrossing := rfl
@[simp] theorem Node.updAdc_mem (x0 : Node) (x1 : Adc → Adc) : (x0.updAdc x1).mem = x0.mem := rfl
@[simp] theorem Node.updAdc_ram (x0 : Node) (x1 : Adc → Adc) : (x0.updAdc x1).ram = x0.ram := rfl
@[simp] theorem Node.updAdc_power (x0 : Node) (x1 : Adc → Adc) : (x0.updAdc x1).power = x0.power := rfl
@[simp] theorem Node.updAdc_host (x0 : Node) (x1 : Adc → Adc) : (x0.updAdc x1).host = x0.host := rfl
@[simp] theorem Node.updAdc_stalls (x0 : Node) (x1 : Adc → Adc) : (x0.updAdc x1).stalls = x0.stalls := rfl
@[simp] theorem Node.updAdc_cache (x0 : Node) (x1 : Adc → Adc) : (x0.updAdc x1).cache = x0.cache := rfl
@[simp] theorem Node.updAdc_stored (x0 : Node) (x1 : Adc → Adc) : (x0.updAdc x1).stored = x0.stored := rfl
@[simp] theorem Node.updAdc_rcp (x0 : Node) (x1 : Adc → Adc) : (x0.updAdc x1).rcp = x0.rcp := rfl
@[simp] theorem Node.updAdc_loops (x0 : Node) (x1 : Adc → Adc) : (x0.updAdc x1).loops = x0.loops := rfl
@[simp] theorem Node.updAdc_fio (x0 : Node) (x1 : Adc → Adc) : (x0.updAdc x1).fio = x0.fio := rfl
@[simp] theorem Node.updAdc_encs (x0 : Node) (x1 : Adc → Adc) : (x0.updAdc x1).encs = x0.encs := rfl
@[simp] theorem Node.updAdc_axes (x0 : Node) (x1 : Adc → Adc) : (x0.updAdc x1).axes = x0.axes := rfl
@[simp] theorem Node.updAdc_drives (x0 : Node) (x1 : Adc → Adc) : (x0.updAdc x1).drives = x0.drives := rfl
@[simp] theorem Node.updAdc_line (x0 : Node) (x1 : Adc → Adc) : (x0.updAdc x1).line = x0.line := rfl
@[simp] theorem Node.updAdc_time (x0 : Node) (x1 : Adc → Adc) : (x0.updAdc x1).time = x0.time := rfl
@[simp] theorem Node.updAdc_zb (x0 : Node) (x1 : Adc → Adc) : (x0.updAdc x1).zb = x0.zb := rfl
@[simp] theorem Node.updAdc_cust (x0 : Node) (x1 : Adc → Adc) : (x0.updAdc x1).cust = x0.cust := rfl
@[simp] theorem Node.updAdc_lifts (x0 : Node) (x1 : Adc → Adc) : (x0.updAdc x1).lifts = x0.lifts := rfl
@[simp] theorem Node.updAdc_gates (x0 : Node) (x1 : Adc → Adc) : (x0.updAdc x1).gates = x0.gates := rfl
@[simp] theorem Node.updAdc_harv (x0 : Node) (x1 : Adc → Adc) : (x0.updAdc x1).harv = x0.harv := rfl
@[simp] theorem Node.updAdc_rcd (x0 : Node) (x1 : Adc → Adc) : (x0.updAdc x1).rcd = x0.rcd := rfl
@[simp] theorem Node.updAdc_safe (x0 : Node) (x1 : Adc → Adc) : (x0.updAdc x1).safe = x0.safe := rfl
@[simp] theorem Node.updAdc_glean (x0 : Node) (x1 : Adc → Adc) : (x0.updAdc x1).glean = x0.glean := rfl
@[simp] theorem Node.updAdc_sec (x0 : Node) (x1 : Adc → Adc) : (x0.updAdc x1).sec = x0.sec := rfl
@[simp] theorem Node.updAdc_hlth (x0 : Node) (x1 : Adc → Adc) : (x0.updAdc x1).hlth = x0.hlth := rfl
@[simp] theorem Node.updAdc_freeCtr (x0 : Node) (x1 : Adc → Adc) : (x0.updAdc x1).freeCtr = x0.freeCtr := rfl

@[simp] theorem Node.updLine_line (x0 : Node) (x1 : Line → Line) : (x0.updLine x1).line = x1 x0.line := rfl
@[simp] theorem Node.updLine_isl (x0 : Node) (x1 : Line → Line) : (x0.updLine x1).isl = x0.isl := rfl
@[simp] theorem Node.updLine_lastCrossing (x0 : Node) (x1 : Line → Line) : (x0.updLine x1).lastCrossing = x0.lastCrossing := rfl
@[simp] theorem Node.updLine_mem (x0 : Node) (x1 : Line → Line) : (x0.updLine x1).mem = x0.mem := rfl
@[simp] theorem Node.updLine_ram (x0 : Node) (x1 : Line → Line) : (x0.updLine x1).ram = x0.ram := rfl
@[simp] theorem Node.updLine_power (x0 : Node) (x1 : Line → Line) : (x0.updLine x1).power = x0.power := rfl
@[simp] theorem Node.updLine_host (x0 : Node) (x1 : Line → Line) : (x0.updLine x1).host = x0.host := rfl
@[simp] theorem Node.updLine_stalls (x0 : Node) (x1 : Line → Line) : (x0.updLine x1).stalls = x0.stalls := rfl
@[simp] theorem Node.updLine_cache (x0 : Node) (x1 : Line → Line) : (x0.updLine x1).cache = x0.cache := rfl
@[simp] theorem Node.updLine_stored (x0 : Node) (x1 : Line → Line) : (x0.updLine x1).stored = x0.stored := rfl
@[simp] theorem Node.updLine_rcp (x0 : Node) (x1 : Line → Line) : (x0.updLine x1).rcp = x0.rcp := rfl
@[simp] theorem Node.updLine_loops (x0 : Node) (x1 : Line → Line) : (x0.updLine x1).loops = x0.loops := rfl
@[simp] theorem Node.updLine_fio (x0 : Node) (x1 : Line → Line) : (x0.updLine x1).fio = x0.fio := rfl
@[simp] theorem Node.updLine_adc (x0 : Node) (x1 : Line → Line) : (x0.updLine x1).adc = x0.adc := rfl
@[simp] theorem Node.updLine_encs (x0 : Node) (x1 : Line → Line) : (x0.updLine x1).encs = x0.encs := rfl
@[simp] theorem Node.updLine_axes (x0 : Node) (x1 : Line → Line) : (x0.updLine x1).axes = x0.axes := rfl
@[simp] theorem Node.updLine_drives (x0 : Node) (x1 : Line → Line) : (x0.updLine x1).drives = x0.drives := rfl
@[simp] theorem Node.updLine_time (x0 : Node) (x1 : Line → Line) : (x0.updLine x1).time = x0.time := rfl
@[simp] theorem Node.updLine_zb (x0 : Node) (x1 : Line → Line) : (x0.updLine x1).zb = x0.zb := rfl
@[simp] theorem Node.updLine_cust (x0 : Node) (x1 : Line → Line) : (x0.updLine x1).cust = x0.cust := rfl
@[simp] theorem Node.updLine_lifts (x0 : Node) (x1 : Line → Line) : (x0.updLine x1).lifts = x0.lifts := rfl
@[simp] theorem Node.updLine_gates (x0 : Node) (x1 : Line → Line) : (x0.updLine x1).gates = x0.gates := rfl
@[simp] theorem Node.updLine_harv (x0 : Node) (x1 : Line → Line) : (x0.updLine x1).harv = x0.harv := rfl
@[simp] theorem Node.updLine_rcd (x0 : Node) (x1 : Line → Line) : (x0.updLine x1).rcd = x0.rcd := rfl
@[simp] theorem Node.updLine_safe (x0 : Node) (x1 : Line → Line) : (x0.updLine x1).safe = x0.safe := rfl
@[simp] theorem Node.updLine_glean (x0 : Node) (x1 : Line → Line) : (x0.updLine x1).glean = x0.glean := rfl
@[simp] theorem Node.updLine_sec (x0 : Node) (x1 : Line → Line) : (x0.updLine x1).sec = x0.sec := rfl
@[simp] theorem Node.updLine_hlth (x0 : Node) (x1 : Line → Line) : (x0.updLine x1).hlth = x0.hlth := rfl
@[simp] theorem Node.updLine_freeCtr (x0 : Node) (x1 : Line → Line) : (x0.updLine x1).freeCtr = x0.freeCtr := rfl

@[simp] theorem Node.updHost_host (x0 : Node) (x1 : HostIf → HostIf) : (x0.updHost x1).host = x1 x0.host := rfl
@[simp] theorem Node.updHost_isl (x0 : Node) (x1 : HostIf → HostIf) : (x0.updHost x1).isl = x0.isl := rfl
@[simp] theorem Node.updHost_lastCrossing (x0 : Node) (x1 : HostIf → HostIf) : (x0.updHost x1).lastCrossing = x0.lastCrossing := rfl
@[simp] theorem Node.updHost_mem (x0 : Node) (x1 : HostIf → HostIf) : (x0.updHost x1).mem = x0.mem := rfl
@[simp] theorem Node.updHost_ram (x0 : Node) (x1 : HostIf → HostIf) : (x0.updHost x1).ram = x0.ram := rfl
@[simp] theorem Node.updHost_power (x0 : Node) (x1 : HostIf → HostIf) : (x0.updHost x1).power = x0.power := rfl
@[simp] theorem Node.updHost_stalls (x0 : Node) (x1 : HostIf → HostIf) : (x0.updHost x1).stalls = x0.stalls := rfl
@[simp] theorem Node.updHost_cache (x0 : Node) (x1 : HostIf → HostIf) : (x0.updHost x1).cache = x0.cache := rfl
@[simp] theorem Node.updHost_stored (x0 : Node) (x1 : HostIf → HostIf) : (x0.updHost x1).stored = x0.stored := rfl
@[simp] theorem Node.updHost_rcp (x0 : Node) (x1 : HostIf → HostIf) : (x0.updHost x1).rcp = x0.rcp := rfl
@[simp] theorem Node.updHost_loops (x0 : Node) (x1 : HostIf → HostIf) : (x0.updHost x1).loops = x0.loops := rfl
@[simp] theorem Node.updHost_fio (x0 : Node) (x1 : HostIf → HostIf) : (x0.updHost x1).fio = x0.fio := rfl
@[simp] theorem Node.updHost_adc (x0 : Node) (x1 : HostIf → HostIf) : (x0.updHost x1).adc = x0.adc := rfl
@[simp] theorem Node.updHost_encs (x0 : Node) (x1 : HostIf → HostIf) : (x0.updHost x1).encs = x0.encs := rfl
@[simp] theorem Node.updHost_axes (x0 : Node) (x1 : HostIf → HostIf) : (x0.updHost x1).axes = x0.axes := rfl
@[simp] theorem Node.updHost_drives (x0 : Node) (x1 : HostIf → HostIf) : (x0.updHost x1).drives = x0.drives := rfl
@[simp] theorem Node.updHost_line (x0 : Node) (x1 : HostIf → HostIf) : (x0.updHost x1).line = x0.line := rfl
@[simp] theorem Node.updHost_time (x0 : Node) (x1 : HostIf → HostIf) : (x0.updHost x1).time = x0.time := rfl
@[simp] theorem Node.updHost_zb (x0 : Node) (x1 : HostIf → HostIf) : (x0.updHost x1).zb = x0.zb := rfl
@[simp] theorem Node.updHost_cust (x0 : Node) (x1 : HostIf → HostIf) : (x0.updHost x1).cust = x0.cust := rfl
@[simp] theorem Node.updHost_lifts (x0 : Node) (x1 : HostIf → HostIf) : (x0.updHost x1).lifts = x0.lifts := rfl
@[simp] theorem Node.updHost_gates (x0 : Node) (x1 : HostIf → HostIf) : (x0.updHost x1).gates = x0.gates := rfl
@[simp] theorem Node.updHost_harv (x0 : Node) (x1 : HostIf → HostIf) : (x0.updHost x1).harv = x0.harv := rfl
@[simp] theorem Node.updHost_rcd (x0 : Node) (x1 : HostIf → HostIf) : (x0.updHost x1).rcd = x0.rcd := rfl
@[simp] theorem Node.updHost_safe (x0 : Node) (x1 : HostIf → HostIf) : (x0.updHost x1).safe = x0.safe := rfl
@[simp] theorem Node.updHost_glean (x0 : Node) (x1 : HostIf → HostIf) : (x0.updHost x1).glean = x0.glean := rfl
@[simp] theorem Node.updHost_sec (x0 : Node) (x1 : HostIf → HostIf) : (x0.updHost x1).sec = x0.sec := rfl
@[simp] theorem Node.updHost_hlth (x0 : Node) (x1 : HostIf → HostIf) : (x0.updHost x1).hlth = x0.hlth := rfl
@[simp] theorem Node.updHost_freeCtr (x0 : Node) (x1 : HostIf → HostIf) : (x0.updHost x1).freeCtr = x0.freeCtr := rfl

@[simp] theorem Node.updSec_sec (x0 : Node) (x1 : Security → Security) : (x0.updSec x1).sec = x1 x0.sec := rfl
@[simp] theorem Node.updSec_isl (x0 : Node) (x1 : Security → Security) : (x0.updSec x1).isl = x0.isl := rfl
@[simp] theorem Node.updSec_lastCrossing (x0 : Node) (x1 : Security → Security) : (x0.updSec x1).lastCrossing = x0.lastCrossing := rfl
@[simp] theorem Node.updSec_mem (x0 : Node) (x1 : Security → Security) : (x0.updSec x1).mem = x0.mem := rfl
@[simp] theorem Node.updSec_ram (x0 : Node) (x1 : Security → Security) : (x0.updSec x1).ram = x0.ram := rfl
@[simp] theorem Node.updSec_power (x0 : Node) (x1 : Security → Security) : (x0.updSec x1).power = x0.power := rfl
@[simp] theorem Node.updSec_host (x0 : Node) (x1 : Security → Security) : (x0.updSec x1).host = x0.host := rfl
@[simp] theorem Node.updSec_stalls (x0 : Node) (x1 : Security → Security) : (x0.updSec x1).stalls = x0.stalls := rfl
@[simp] theorem Node.updSec_cache (x0 : Node) (x1 : Security → Security) : (x0.updSec x1).cache = x0.cache := rfl
@[simp] theorem Node.updSec_stored (x0 : Node) (x1 : Security → Security) : (x0.updSec x1).stored = x0.stored := rfl
@[simp] theorem Node.updSec_rcp (x0 : Node) (x1 : Security → Security) : (x0.updSec x1).rcp = x0.rcp := rfl
@[simp] theorem Node.updSec_loops (x0 : Node) (x1 : Security → Security) : (x0.updSec x1).loops = x0.loops := rfl
@[simp] theorem Node.updSec_fio (x0 : Node) (x1 : Security → Security) : (x0.updSec x1).fio = x0.fio := rfl
@[simp] theorem Node.updSec_adc (x0 : Node) (x1 : Security → Security) : (x0.updSec x1).adc = x0.adc := rfl
@[simp] theorem Node.updSec_encs (x0 : Node) (x1 : Security → Security) : (x0.updSec x1).encs = x0.encs := rfl
@[simp] theorem Node.updSec_axes (x0 : Node) (x1 : Security → Security) : (x0.updSec x1).axes = x0.axes := rfl
@[simp] theorem Node.updSec_drives (x0 : Node) (x1 : Security → Security) : (x0.updSec x1).drives = x0.drives := rfl
@[simp] theorem Node.updSec_line (x0 : Node) (x1 : Security → Security) : (x0.updSec x1).line = x0.line := rfl
@[simp] theorem Node.updSec_time (x0 : Node) (x1 : Security → Security) : (x0.updSec x1).time = x0.time := rfl
@[simp] theorem Node.updSec_zb (x0 : Node) (x1 : Security → Security) : (x0.updSec x1).zb = x0.zb := rfl
@[simp] theorem Node.updSec_cust (x0 : Node) (x1 : Security → Security) : (x0.updSec x1).cust = x0.cust := rfl
@[simp] theorem Node.updSec_lifts (x0 : Node) (x1 : Security → Security) : (x0.updSec x1).lifts = x0.lifts := rfl
@[simp] theorem Node.updSec_gates (x0 : Node) (x1 : Security → Security) : (x0.updSec x1).gates = x0.gates := rfl
@[simp] theorem Node.updSec_harv (x0 : Node) (x1 : Security → Security) : (x0.updSec x1).harv = x0.harv := rfl
@[simp] theorem Node.updSec_rcd (x0 : Node) (x1 : Security → Security) : (x0.updSec x1).rcd = x0.rcd := rfl
@[simp] theorem Node.updSec_safe (x0 : Node) (x1 : Security → Security) : (x0.updSec x1).safe = x0.safe := rfl
@[simp] theorem Node.updSec_glean (x0 : Node) (x1 : Security → Security) : (x0.updSec x1).glean = x0.glean := rfl
@[simp] theorem Node.updSec_hlth (x0 : Node) (x1 : Security → Security) : (x0.updSec x1).hlth = x0.hlth := rfl
@[simp] theorem Node.updSec_freeCtr (x0 : Node) (x1 : Security → Security) : (x0.updSec x1).freeCtr = x0.freeCtr := rfl

@[simp] theorem Node.updFio_fio (x0 : Node) (x1 : FieldIo → FieldIo) : (x0.updFio x1).fio = x1 x0.fio := rfl
@[simp] theorem Node.updFio_isl (x0 : Node) (x1 : FieldIo → FieldIo) : (x0.updFio x1).isl = x0.isl := rfl
@[simp] theorem Node.updFio_lastCrossing (x0 : Node) (x1 : FieldIo → FieldIo) : (x0.updFio x1).lastCrossing = x0.lastCrossing := rfl
@[simp] theorem Node.updFio_mem (x0 : Node) (x1 : FieldIo → FieldIo) : (x0.updFio x1).mem = x0.mem := rfl
@[simp] theorem Node.updFio_ram (x0 : Node) (x1 : FieldIo → FieldIo) : (x0.updFio x1).ram = x0.ram := rfl
@[simp] theorem Node.updFio_power (x0 : Node) (x1 : FieldIo → FieldIo) : (x0.updFio x1).power = x0.power := rfl
@[simp] theorem Node.updFio_host (x0 : Node) (x1 : FieldIo → FieldIo) : (x0.updFio x1).host = x0.host := rfl
@[simp] theorem Node.updFio_stalls (x0 : Node) (x1 : FieldIo → FieldIo) : (x0.updFio x1).stalls = x0.stalls := rfl
@[simp] theorem Node.updFio_cache (x0 : Node) (x1 : FieldIo → FieldIo) : (x0.updFio x1).cache = x0.cache := rfl
@[simp] theorem Node.updFio_stored (x0 : Node) (x1 : FieldIo → FieldIo) : (x0.updFio x1).stored = x0.stored := rfl
@[simp] theorem Node.updFio_rcp (x0 : Node) (x1 : FieldIo → FieldIo) : (x0.updFio x1).rcp = x0.rcp := rfl
@[simp] theorem Node.updFio_loops (x0 : Node) (x1 : FieldIo → FieldIo) : (x0.updFio x1).loops = x0.loops := rfl
@[simp] theorem Node.updFio_adc (x0 : Node) (x1 : FieldIo → FieldIo) : (x0.updFio x1).adc = x0.adc := rfl
@[simp] theorem Node.updFio_encs (x0 : Node) (x1 : FieldIo → FieldIo) : (x0.updFio x1).encs = x0.encs := rfl
@[simp] theorem Node.updFio_axes (x0 : Node) (x1 : FieldIo → FieldIo) : (x0.updFio x1).axes = x0.axes := rfl
@[simp] theorem Node.updFio_drives (x0 : Node) (x1 : FieldIo → FieldIo) : (x0.updFio x1).drives = x0.drives := rfl
@[simp] theorem Node.updFio_line (x0 : Node) (x1 : FieldIo → FieldIo) : (x0.updFio x1).line = x0.line := rfl
@[simp] theorem Node.updFio_time (x0 : Node) (x1 : FieldIo → FieldIo) : (x0.updFio x1).time = x0.time := rfl
@[simp] theorem Node.updFio_zb (x0 : Node) (x1 : FieldIo → FieldIo) : (x0.updFio x1).zb = x0.zb := rfl
@[simp] theorem Node.updFio_cust (x0 : Node) (x1 : FieldIo → FieldIo) : (x0.updFio x1).cust = x0.cust := rfl
@[simp] theorem Node.updFio_lifts (x0 : Node) (x1 : FieldIo → FieldIo) : (x0.updFio x1).lifts = x0.lifts := rfl
@[simp] theorem Node.updFio_gates (x0 : Node) (x1 : FieldIo → FieldIo) : (x0.updFio x1).gates = x0.gates := rfl
@[simp] theorem Node.updFio_harv (x0 : Node) (x1 : FieldIo → FieldIo) : (x0.updFio x1).harv = x0.harv := rfl
@[simp] theorem Node.updFio_rcd (x0 : Node) (x1 : FieldIo → FieldIo) : (x0.updFio x1).rcd = x0.rcd := rfl
@[simp] theorem Node.updFio_safe (x0 : Node) (x1 : FieldIo → FieldIo) : (x0.updFio x1).safe = x0.safe := rfl
@[simp] theorem Node.updFio_glean (x0 : Node) (x1 : FieldIo → FieldIo) : (x0.updFio x1).glean = x0.glean := rfl
@[simp] theorem Node.updFio_sec (x0 : Node) (x1 : FieldIo → FieldIo) : (x0.updFio x1).sec = x0.sec := rfl
@[simp] theorem Node.updFio_hlth (x0 : Node) (x1 : FieldIo → FieldIo) : (x0.updFio x1).hlth = x0.hlth := rfl
@[simp] theorem Node.updFio_freeCtr (x0 : Node) (x1 : FieldIo → FieldIo) : (x0.updFio x1).freeCtr = x0.freeCtr := rfl

@[simp] theorem Node.updMem_mem (x0 : Node) (x1 : MemHealth → MemHealth) : (x0.updMem x1).mem = x1 x0.mem := rfl
@[simp] theorem Node.updMem_isl (x0 : Node) (x1 : MemHealth → MemHealth) : (x0.updMem x1).isl = x0.isl := rfl
@[simp] theorem Node.updMem_lastCrossing (x0 : Node) (x1 : MemHealth → MemHealth) : (x0.updMem x1).lastCrossing = x0.lastCrossing := rfl
@[simp] theorem Node.updMem_ram (x0 : Node) (x1 : MemHealth → MemHealth) : (x0.updMem x1).ram = x0.ram := rfl
@[simp] theorem Node.updMem_power (x0 : Node) (x1 : MemHealth → MemHealth) : (x0.updMem x1).power = x0.power := rfl
@[simp] theorem Node.updMem_host (x0 : Node) (x1 : MemHealth → MemHealth) : (x0.updMem x1).host = x0.host := rfl
@[simp] theorem Node.updMem_stalls (x0 : Node) (x1 : MemHealth → MemHealth) : (x0.updMem x1).stalls = x0.stalls := rfl
@[simp] theorem Node.updMem_cache (x0 : Node) (x1 : MemHealth → MemHealth) : (x0.updMem x1).cache = x0.cache := rfl
@[simp] theorem Node.updMem_stored (x0 : Node) (x1 : MemHealth → MemHealth) : (x0.updMem x1).stored = x0.stored := rfl
@[simp] theorem Node.updMem_rcp (x0 : Node) (x1 : MemHealth → MemHealth) : (x0.updMem x1).rcp = x0.rcp := rfl
@[simp] theorem Node.updMem_loops (x0 : Node) (x1 : MemHealth → MemHealth) : (x0.updMem x1).loops = x0.loops := rfl
@[simp] theorem Node.updMem_fio (x0 : Node) (x1 : MemHealth → MemHealth) : (x0.updMem x1).fio = x0.fio := rfl
@[simp] theorem Node.updMem_adc (x0 : Node) (x1 : MemHealth → MemHealth) : (x0.updMem x1).adc = x0.adc := rfl
@[simp] theorem Node.updMem_encs (x0 : Node) (x1 : MemHealth → MemHealth) : (x0.updMem x1).encs = x0.encs := rfl
@[simp] theorem Node.updMem_axes (x0 : Node) (x1 : MemHealth → MemHealth) : (x0.updMem x1).axes = x0.axes := rfl
@[simp] theorem Node.updMem_drives (x0 : Node) (x1 : MemHealth → MemHealth) : (x0.updMem x1).drives = x0.drives := rfl
@[simp] theorem Node.updMem_line (x0 : Node) (x1 : MemHealth → MemHealth) : (x0.updMem x1).line = x0.line := rfl
@[simp] theorem Node.updMem_time (x0 : Node) (x1 : MemHealth → MemHealth) : (x0.updMem x1).time = x0.time := rfl
@[simp] theorem Node.updMem_zb (x0 : Node) (x1 : MemHealth → MemHealth) : (x0.updMem x1).zb = x0.zb := rfl
@[simp] theorem Node.updMem_cust (x0 : Node) (x1 : MemHealth → MemHealth) : (x0.updMem x1).cust = x0.cust := rfl
@[simp] theorem Node.updMem_lifts (x0 : Node) (x1 : MemHealth → MemHealth) : (x0.updMem x1).lifts = x0.lifts := rfl
@[simp] theorem Node.updMem_gates (x0 : Node) (x1 : MemHealth → MemHealth) : (x0.updMem x1).gates = x0.gates := rfl
@[simp] theorem Node.updMem_harv (x0 : Node) (x1 : MemHealth → MemHealth) : (x0.updMem x1).harv = x0.harv := rfl
@[simp] theorem Node.updMem_rcd (x0 : Node) (x1 : MemHealth → MemHealth) : (x0.updMem x1).rcd = x0.rcd := rfl
@[simp] theorem Node.updMem_safe (x0 : Node) (x1 : MemHealth → MemHealth) : (x0.updMem x1).safe = x0.safe := rfl
@[simp] theorem Node.updMem_glean (x0 : Node) (x1 : MemHealth → MemHealth) : (x0.updMem x1).glean = x0.glean := rfl
@[simp] theorem Node.updMem_sec (x0 : Node) (x1 : MemHealth → MemHealth) : (x0.updMem x1).sec = x0.sec := rfl
@[simp] theorem Node.updMem_hlth (x0 : Node) (x1 : MemHealth → MemHealth) : (x0.updMem x1).hlth = x0.hlth := rfl
@[simp] theorem Node.updMem_freeCtr (x0 : Node) (x1 : MemHealth → MemHealth) : (x0.updMem x1).freeCtr = x0.freeCtr := rfl

@[simp] theorem Node.setInst_isl (x0 : Node) (x1 : Nat) (x2 : Inst) : (x0.setInst x1 x2).isl = x0.isl := rfl
@[simp] theorem Node.setInst_lastCrossing (x0 : Node) (x1 : Nat) (x2 : Inst) : (x0.setInst x1 x2).lastCrossing = x0.lastCrossing := rfl
@[simp] theorem Node.setInst_mem (x0 : Node) (x1 : Nat) (x2 : Inst) : (x0.setInst x1 x2).mem = x0.mem := rfl
@[simp] theorem Node.setInst_ram (x0 : Node) (x1 : Nat) (x2 : Inst) : (x0.setInst x1 x2).ram = x0.ram := rfl
@[simp] theorem Node.setInst_power (x0 : Node) (x1 : Nat) (x2 : Inst) : (x0.setInst x1 x2).power = x0.power := rfl
@[simp] theorem Node.setInst_host (x0 : Node) (x1 : Nat) (x2 : Inst) : (x0.setInst x1 x2).host = x0.host := rfl
@[simp] theorem Node.setInst_stalls (x0 : Node) (x1 : Nat) (x2 : Inst) : (x0.setInst x1 x2).stalls = x0.stalls := rfl
@[simp] theorem Node.setInst_cache (x0 : Node) (x1 : Nat) (x2 : Inst) : (x0.setInst x1 x2).cache = x0.cache := rfl
@[simp] theorem Node.setInst_stored (x0 : Node) (x1 : Nat) (x2 : Inst) : (x0.setInst x1 x2).stored = x0.stored := rfl
@[simp] theorem Node.setInst_loops (x0 : Node) (x1 : Nat) (x2 : Inst) : (x0.setInst x1 x2).loops = x0.loops := rfl
@[simp] theorem Node.setInst_fio (x0 : Node) (x1 : Nat) (x2 : Inst) : (x0.setInst x1 x2).fio = x0.fio := rfl
@[simp] theorem Node.setInst_adc (x0 : Node) (x1 : Nat) (x2 : Inst) : (x0.setInst x1 x2).adc = x0.adc := rfl
@[simp] theorem Node.setInst_encs (x0 : Node) (x1 : Nat) (x2 : Inst) : (x0.setInst x1 x2).encs = x0.encs := rfl
@[simp] theorem Node.setInst_axes (x0 : Node) (x1 : Nat) (x2 : Inst) : (x0.setInst x1 x2).axes = x0.axes := rfl
@[simp] theorem Node.setInst_drives (x0 : Node) (x1 : Nat) (x2 : Inst) : (x0.setInst x1 x2).drives = x0.drives := rfl
@[simp] theorem Node.setInst_line (x0 : Node) (x1 : Nat) (x2 : Inst) : (x0.setInst x1 x2).line = x0.line := rfl
@[simp] theorem Node.setInst_time (x0 : Node) (x1 : Nat) (x2 : Inst) : (x0.setInst x1 x2).time = x0.time := rfl
@[simp] theorem Node.setInst_zb (x0 : Node) (x1 : Nat) (x2 : Inst) : (x0.setInst x1 x2).zb = x0.zb := rfl
@[simp] theorem Node.setInst_cust (x0 : Node) (x1 : Nat) (x2 : Inst) : (x0.setInst x1 x2).cust = x0.cust := rfl
@[simp] theorem Node.setInst_lifts (x0 : Node) (x1 : Nat) (x2 : Inst) : (x0.setInst x1 x2).lifts = x0.lifts := rfl
@[simp] theorem Node.setInst_gates (x0 : Node) (x1 : Nat) (x2 : Inst) : (x0.setInst x1 x2).gates = x0.gates := rfl
@[simp] theorem Node.setInst_harv (x0 : Node) (x1 : Nat) (x2 : Inst) : (x0.setInst x1 x2).harv = x0.harv := rfl
@[simp] theorem Node.setInst_rcd (x0 : Node) (x1 : Nat) (x2 : Inst) : (x0.setInst x1 x2).rcd = x0.rcd := rfl
@[simp] theorem Node.setInst_safe (x0 : Node) (x1 : Nat) (x2 : Inst) : (x0.setInst x1 x2).safe = x0.safe := rfl
@[simp] theorem Node.setInst_glean (x0 : Node) (x1 : Nat) (x2 : Inst) : (x0.setInst x1 x2).glean = x0.glean := rfl
@[simp] theorem Node.setInst_sec (x0 : Node) (x1 : Nat) (x2 : Inst) : (x0.setInst x1 x2).sec = x0.sec := rfl
@[simp] theorem Node.setInst_hlth (x0 : Node) (x1 : Nat) (x2 : Inst) : (x0.setInst x1 x2).hlth = x0.hlth := rfl
@[simp] theorem Node.setInst_freeCtr (x0 : Node) (x1 : Nat) (x2 : Inst) : (x0.setInst x1 x2).freeCtr = x0.freeCtr := rfl

@[simp] theorem Node.setDrv_isl (x0 : Node) (x1 : Nat) (x2 : Drive) : (x0.setDrv x1 x2).isl = x0.isl := rfl
@[simp] theorem Node.setDrv_lastCrossing (x0 : Node) (x1 : Nat) (x2 : Drive) : (x0.setDrv x1 x2).lastCrossing = x0.lastCrossing := rfl
@[simp] theorem Node.setDrv_mem (x0 : Node) (x1 : Nat) (x2 : Drive) : (x0.setDrv x1 x2).mem = x0.mem := rfl
@[simp] theorem Node.setDrv_ram (x0 : Node) (x1 : Nat) (x2 : Drive) : (x0.setDrv x1 x2).ram = x0.ram := rfl
@[simp] theorem Node.setDrv_power (x0 : Node) (x1 : Nat) (x2 : Drive) : (x0.setDrv x1 x2).power = x0.power := rfl
@[simp] theorem Node.setDrv_host (x0 : Node) (x1 : Nat) (x2 : Drive) : (x0.setDrv x1 x2).host = x0.host := rfl
@[simp] theorem Node.setDrv_stalls (x0 : Node) (x1 : Nat) (x2 : Drive) : (x0.setDrv x1 x2).stalls = x0.stalls := rfl
@[simp] theorem Node.setDrv_cache (x0 : Node) (x1 : Nat) (x2 : Drive) : (x0.setDrv x1 x2).cache = x0.cache := rfl
@[simp] theorem Node.setDrv_stored (x0 : Node) (x1 : Nat) (x2 : Drive) : (x0.setDrv x1 x2).stored = x0.stored := rfl
@[simp] theorem Node.setDrv_rcp (x0 : Node) (x1 : Nat) (x2 : Drive) : (x0.setDrv x1 x2).rcp = x0.rcp := rfl
@[simp] theorem Node.setDrv_loops (x0 : Node) (x1 : Nat) (x2 : Drive) : (x0.setDrv x1 x2).loops = x0.loops := rfl
@[simp] theorem Node.setDrv_fio (x0 : Node) (x1 : Nat) (x2 : Drive) : (x0.setDrv x1 x2).fio = x0.fio := rfl
@[simp] theorem Node.setDrv_adc (x0 : Node) (x1 : Nat) (x2 : Drive) : (x0.setDrv x1 x2).adc = x0.adc := rfl
@[simp] theorem Node.setDrv_encs (x0 : Node) (x1 : Nat) (x2 : Drive) : (x0.setDrv x1 x2).encs = x0.encs := rfl
@[simp] theorem Node.setDrv_axes (x0 : Node) (x1 : Nat) (x2 : Drive) : (x0.setDrv x1 x2).axes = x0.axes := rfl
@[simp] theorem Node.setDrv_line (x0 : Node) (x1 : Nat) (x2 : Drive) : (x0.setDrv x1 x2).line = x0.line := rfl
@[simp] theorem Node.setDrv_time (x0 : Node) (x1 : Nat) (x2 : Drive) : (x0.setDrv x1 x2).time = x0.time := rfl
@[simp] theorem Node.setDrv_zb (x0 : Node) (x1 : Nat) (x2 : Drive) : (x0.setDrv x1 x2).zb = x0.zb := rfl
@[simp] theorem Node.setDrv_cust (x0 : Node) (x1 : Nat) (x2 : Drive) : (x0.setDrv x1 x2).cust = x0.cust := rfl
@[simp] theorem Node.setDrv_lifts (x0 : Node) (x1 : Nat) (x2 : Drive) : (x0.setDrv x1 x2).lifts = x0.lifts := rfl
@[simp] theorem Node.setDrv_gates (x0 : Node) (x1 : Nat) (x2 : Drive) : (x0.setDrv x1 x2).gates = x0.gates := rfl
@[simp] theorem Node.setDrv_harv (x0 : Node) (x1 : Nat) (x2 : Drive) : (x0.setDrv x1 x2).harv = x0.harv := rfl
@[simp] theorem Node.setDrv_rcd (x0 : Node) (x1 : Nat) (x2 : Drive) : (x0.setDrv x1 x2).rcd = x0.rcd := rfl
@[simp] theorem Node.setDrv_safe (x0 : Node) (x1 : Nat) (x2 : Drive) : (x0.setDrv x1 x2).safe = x0.safe := rfl
@[simp] theorem Node.setDrv_glean (x0 : Node) (x1 : Nat) (x2 : Drive) : (x0.setDrv x1 x2).glean = x0.glean := rfl
@[simp] theorem Node.setDrv_sec (x0 : Node) (x1 : Nat) (x2 : Drive) : (x0.setDrv x1 x2).sec = x0.sec := rfl
@[simp] theorem Node.setDrv_hlth (x0 : Node) (x1 : Nat) (x2 : Drive) : (x0.setDrv x1 x2).hlth = x0.hlth := rfl
@[simp] theorem Node.setDrv_freeCtr (x0 : Node) (x1 : Nat) (x2 : Drive) : (x0.setDrv x1 x2).freeCtr = x0.freeCtr := rfl

@[simp] theorem Node.setIsland_lastCrossing (x0 : Node) (x1 : Nat) (x2 : Island) : (x0.setIsland x1 x2).lastCrossing = x0.lastCrossing := rfl
@[simp] theorem Node.setIsland_mem (x0 : Node) (x1 : Nat) (x2 : Island) : (x0.setIsland x1 x2).mem = x0.mem := rfl
@[simp] theorem Node.setIsland_ram (x0 : Node) (x1 : Nat) (x2 : Island) : (x0.setIsland x1 x2).ram = x0.ram := rfl
@[simp] theorem Node.setIsland_power (x0 : Node) (x1 : Nat) (x2 : Island) : (x0.setIsland x1 x2).power = x0.power := rfl
@[simp] theorem Node.setIsland_host (x0 : Node) (x1 : Nat) (x2 : Island) : (x0.setIsland x1 x2).host = x0.host := rfl
@[simp] theorem Node.setIsland_stalls (x0 : Node) (x1 : Nat) (x2 : Island) : (x0.setIsland x1 x2).stalls = x0.stalls := rfl
@[simp] theorem Node.setIsland_cache (x0 : Node) (x1 : Nat) (x2 : Island) : (x0.setIsland x1 x2).cache = x0.cache := rfl
@[simp] theorem Node.setIsland_stored (x0 : Node) (x1 : Nat) (x2 : Island) : (x0.setIsland x1 x2).stored = x0.stored := rfl
@[simp] theorem Node.setIsland_rcp (x0 : Node) (x1 : Nat) (x2 : Island) : (x0.setIsland x1 x2).rcp = x0.rcp := rfl
@[simp] theorem Node.setIsland_loops (x0 : Node) (x1 : Nat) (x2 : Island) : (x0.setIsland x1 x2).loops = x0.loops := rfl
@[simp] theorem Node.setIsland_fio (x0 : Node) (x1 : Nat) (x2 : Island) : (x0.setIsland x1 x2).fio = x0.fio := rfl
@[simp] theorem Node.setIsland_adc (x0 : Node) (x1 : Nat) (x2 : Island) : (x0.setIsland x1 x2).adc = x0.adc := rfl
@[simp] theorem Node.setIsland_encs (x0 : Node) (x1 : Nat) (x2 : Island) : (x0.setIsland x1 x2).encs = x0.encs := rfl
@[simp] theorem Node.setIsland_axes (x0 : Node) (x1 : Nat) (x2 : Island) : (x0.setIsland x1 x2).axes = x0.axes := rfl
@[simp] theorem Node.setIsland_drives (x0 : Node) (x1 : Nat) (x2 : Island) : (x0.setIsland x1 x2).drives = x0.drives := rfl
@[simp] theorem Node.setIsland_line (x0 : Node) (x1 : Nat) (x2 : Island) : (x0.setIsland x1 x2).line = x0.line := rfl
@[simp] theorem Node.setIsland_time (x0 : Node) (x1 : Nat) (x2 : Island) : (x0.setIsland x1 x2).time = x0.time := rfl
@[simp] theorem Node.setIsland_zb (x0 : Node) (x1 : Nat) (x2 : Island) : (x0.setIsland x1 x2).zb = x0.zb := rfl
@[simp] theorem Node.setIsland_cust (x0 : Node) (x1 : Nat) (x2 : Island) : (x0.setIsland x1 x2).cust = x0.cust := rfl
@[simp] theorem Node.setIsland_lifts (x0 : Node) (x1 : Nat) (x2 : Island) : (x0.setIsland x1 x2).lifts = x0.lifts := rfl
@[simp] theorem Node.setIsland_gates (x0 : Node) (x1 : Nat) (x2 : Island) : (x0.setIsland x1 x2).gates = x0.gates := rfl
@[simp] theorem Node.setIsland_harv (x0 : Node) (x1 : Nat) (x2 : Island) : (x0.setIsland x1 x2).harv = x0.harv := rfl
@[simp] theorem Node.setIsland_rcd (x0 : Node) (x1 : Nat) (x2 : Island) : (x0.setIsland x1 x2).rcd = x0.rcd := rfl
@[simp] theorem Node.setIsland_safe (x0 : Node) (x1 : Nat) (x2 : Island) : (x0.setIsland x1 x2).safe = x0.safe := rfl
@[simp] theorem Node.setIsland_glean (x0 : Node) (x1 : Nat) (x2 : Island) : (x0.setIsland x1 x2).glean = x0.glean := rfl
@[simp] theorem Node.setIsland_sec (x0 : Node) (x1 : Nat) (x2 : Island) : (x0.setIsland x1 x2).sec = x0.sec := rfl
@[simp] theorem Node.setIsland_hlth (x0 : Node) (x1 : Nat) (x2 : Island) : (x0.setIsland x1 x2).hlth = x0.hlth := rfl
@[simp] theorem Node.setIsland_freeCtr (x0 : Node) (x1 : Nat) (x2 : Island) : (x0.setIsland x1 x2).freeCtr = x0.freeCtr := rfl

@[simp] theorem Node.setGate_isl (x0 : Node) (x1 : Nat) (x2 : Gate) : (x0.setGate x1 x2).isl = x0.isl := rfl
@[simp] theorem Node.setGate_lastCrossing (x0 : Node) (x1 : Nat) (x2 : Gate) : (x0.setGate x1 x2).lastCrossing = x0.lastCrossing := rfl
@[simp] theorem Node.setGate_mem (x0 : Node) (x1 : Nat) (x2 : Gate) : (x0.setGate x1 x2).mem = x0.mem := rfl
@[simp] theorem Node.setGate_ram (x0 : Node) (x1 : Nat) (x2 : Gate) : (x0.setGate x1 x2).ram = x0.ram := rfl
@[simp] theorem Node.setGate_power (x0 : Node) (x1 : Nat) (x2 : Gate) : (x0.setGate x1 x2).power = x0.power := rfl
@[simp] theorem Node.setGate_host (x0 : Node) (x1 : Nat) (x2 : Gate) : (x0.setGate x1 x2).host = x0.host := rfl
@[simp] theorem Node.setGate_stalls (x0 : Node) (x1 : Nat) (x2 : Gate) : (x0.setGate x1 x2).stalls = x0.stalls := rfl
@[simp] theorem Node.setGate_cache (x0 : Node) (x1 : Nat) (x2 : Gate) : (x0.setGate x1 x2).cache = x0.cache := rfl
@[simp] theorem Node.setGate_stored (x0 : Node) (x1 : Nat) (x2 : Gate) : (x0.setGate x1 x2).stored = x0.stored := rfl
@[simp] theorem Node.setGate_rcp (x0 : Node) (x1 : Nat) (x2 : Gate) : (x0.setGate x1 x2).rcp = x0.rcp := rfl
@[simp] theorem Node.setGate_loops (x0 : Node) (x1 : Nat) (x2 : Gate) : (x0.setGate x1 x2).loops = x0.loops := rfl
@[simp] theorem Node.setGate_fio (x0 : Node) (x1 : Nat) (x2 : Gate) : (x0.setGate x1 x2).fio = x0.fio := rfl
@[simp] theorem Node.setGate_adc (x0 : Node) (x1 : Nat) (x2 : Gate) : (x0.setGate x1 x2).adc = x0.adc := rfl
@[simp] theorem Node.setGate_encs (x0 : Node) (x1 : Nat) (x2 : Gate) : (x0.setGate x1 x2).encs = x0.encs := rfl
@[simp] theorem Node.setGate_axes (x0 : Node) (x1 : Nat) (x2 : Gate) : (x0.setGate x1 x2).axes = x0.axes := rfl
@[simp] theorem Node.setGate_drives (x0 : Node) (x1 : Nat) (x2 : Gate) : (x0.setGate x1 x2).drives = x0.drives := rfl
@[simp] theorem Node.setGate_line (x0 : Node) (x1 : Nat) (x2 : Gate) : (x0.setGate x1 x2).line = x0.line := rfl
@[simp] theorem Node.setGate_time (x0 : Node) (x1 : Nat) (x2 : Gate) : (x0.setGate x1 x2).time = x0.time := rfl
@[simp] theorem Node.setGate_zb (x0 : Node) (x1 : Nat) (x2 : Gate) : (x0.setGate x1 x2).zb = x0.zb := rfl
@[simp] theorem Node.setGate_cust (x0 : Node) (x1 : Nat) (x2 : Gate) : (x0.setGate x1 x2).cust = x0.cust := rfl
@[simp] theorem Node.setGate_lifts (x0 : Node) (x1 : Nat) (x2 : Gate) : (x0.setGate x1 x2).lifts = x0.lifts := rfl
@[simp] theorem Node.setGate_harv (x0 : Node) (x1 : Nat) (x2 : Gate) : (x0.setGate x1 x2).harv = x0.harv := rfl
@[simp] theorem Node.setGate_rcd (x0 : Node) (x1 : Nat) (x2 : Gate) : (x0.setGate x1 x2).rcd = x0.rcd := rfl
@[simp] theorem Node.setGate_safe (x0 : Node) (x1 : Nat) (x2 : Gate) : (x0.setGate x1 x2).safe = x0.safe := rfl
@[simp] theorem Node.setGate_glean (x0 : Node) (x1 : Nat) (x2 : Gate) : (x0.setGate x1 x2).glean = x0.glean := rfl
@[simp] theorem Node.setGate_sec (x0 : Node) (x1 : Nat) (x2 : Gate) : (x0.setGate x1 x2).sec = x0.sec := rfl
@[simp] theorem Node.setGate_hlth (x0 : Node) (x1 : Nat) (x2 : Gate) : (x0.setGate x1 x2).hlth = x0.hlth := rfl
@[simp] theorem Node.setGate_freeCtr (x0 : Node) (x1 : Nat) (x2 : Gate) : (x0.setGate x1 x2).freeCtr = x0.freeCtr := rfl

@[simp] theorem Node.setStall_isl (x0 : Node) (x1 : Nat) (x2 : Stall) : (x0.setStall x1 x2).isl = x0.isl := rfl
@[simp] theorem Node.setStall_lastCrossing (x0 : Node) (x1 : Nat) (x2 : Stall) : (x0.setStall x1 x2).lastCrossing = x0.lastCrossing := rfl
@[simp] theorem Node.setStall_mem (x0 : Node) (x1 : Nat) (x2 : Stall) : (x0.setStall x1 x2).mem = x0.mem := rfl
@[simp] theorem Node.setStall_ram (x0 : Node) (x1 : Nat) (x2 : Stall) : (x0.setStall x1 x2).ram = x0.ram := rfl
@[simp] theorem Node.setStall_power (x0 : Node) (x1 : Nat) (x2 : Stall) : (x0.setStall x1 x2).power = x0.power := rfl
@[simp] theorem Node.setStall_host (x0 : Node) (x1 : Nat) (x2 : Stall) : (x0.setStall x1 x2).host = x0.host := rfl
@[simp] theorem Node.setStall_cache (x0 : Node) (x1 : Nat) (x2 : Stall) : (x0.setStall x1 x2).cache = x0.cache := rfl
@[simp] theorem Node.setStall_stored (x0 : Node) (x1 : Nat) (x2 : Stall) : (x0.setStall x1 x2).stored = x0.stored := rfl
@[simp] theorem Node.setStall_rcp (x0 : Node) (x1 : Nat) (x2 : Stall) : (x0.setStall x1 x2).rcp = x0.rcp := rfl
@[simp] theorem Node.setStall_loops (x0 : Node) (x1 : Nat) (x2 : Stall) : (x0.setStall x1 x2).loops = x0.loops := rfl
@[simp] theorem Node.setStall_fio (x0 : Node) (x1 : Nat) (x2 : Stall) : (x0.setStall x1 x2).fio = x0.fio := rfl
@[simp] theorem Node.setStall_adc (x0 : Node) (x1 : Nat) (x2 : Stall) : (x0.setStall x1 x2).adc = x0.adc := rfl
@[simp] theorem Node.setStall_encs (x0 : Node) (x1 : Nat) (x2 : Stall) : (x0.setStall x1 x2).encs = x0.encs := rfl
@[simp] theorem Node.setStall_axes (x0 : Node) (x1 : Nat) (x2 : Stall) : (x0.setStall x1 x2).axes = x0.axes := rfl
@[simp] theorem Node.setStall_drives (x0 : Node) (x1 : Nat) (x2 : Stall) : (x0.setStall x1 x2).drives = x0.drives := rfl
@[simp] theorem Node.setStall_line (x0 : Node) (x1 : Nat) (x2 : Stall) : (x0.setStall x1 x2).line = x0.line := rfl
@[simp] theorem Node.setStall_time (x0 : Node) (x1 : Nat) (x2 : Stall) : (x0.setStall x1 x2).time = x0.time := rfl
@[simp] theorem Node.setStall_zb (x0 : Node) (x1 : Nat) (x2 : Stall) : (x0.setStall x1 x2).zb = x0.zb := rfl
@[simp] theorem Node.setStall_cust (x0 : Node) (x1 : Nat) (x2 : Stall) : (x0.setStall x1 x2).cust = x0.cust := rfl
@[simp] theorem Node.setStall_lifts (x0 : Node) (x1 : Nat) (x2 : Stall) : (x0.setStall x1 x2).lifts = x0.lifts := rfl
@[simp] theorem Node.setStall_gates (x0 : Node) (x1 : Nat) (x2 : Stall) : (x0.setStall x1 x2).gates = x0.gates := rfl
@[simp] theorem Node.setStall_harv (x0 : Node) (x1 : Nat) (x2 : Stall) : (x0.setStall x1 x2).harv = x0.harv := rfl
@[simp] theorem Node.setStall_rcd (x0 : Node) (x1 : Nat) (x2 : Stall) : (x0.setStall x1 x2).rcd = x0.rcd := rfl
@[simp] theorem Node.setStall_safe (x0 : Node) (x1 : Nat) (x2 : Stall) : (x0.setStall x1 x2).safe = x0.safe := rfl
@[simp] theorem Node.setStall_glean (x0 : Node) (x1 : Nat) (x2 : Stall) : (x0.setStall x1 x2).glean = x0.glean := rfl
@[simp] theorem Node.setStall_sec (x0 : Node) (x1 : Nat) (x2 : Stall) : (x0.setStall x1 x2).sec = x0.sec := rfl
@[simp] theorem Node.setStall_hlth (x0 : Node) (x1 : Nat) (x2 : Stall) : (x0.setStall x1 x2).hlth = x0.hlth := rfl
@[simp] theorem Node.setStall_freeCtr (x0 : Node) (x1 : Nat) (x2 : Stall) : (x0.setStall x1 x2).freeCtr = x0.freeCtr := rfl

@[simp] theorem Node.setHslot_isl (x0 : Node) (x1 : Nat) (x2 : HvSlot) : (x0.setHslot x1 x2).isl = x0.isl := rfl
@[simp] theorem Node.setHslot_lastCrossing (x0 : Node) (x1 : Nat) (x2 : HvSlot) : (x0.setHslot x1 x2).lastCrossing = x0.lastCrossing := rfl
@[simp] theorem Node.setHslot_mem (x0 : Node) (x1 : Nat) (x2 : HvSlot) : (x0.setHslot x1 x2).mem = x0.mem := rfl
@[simp] theorem Node.setHslot_ram (x0 : Node) (x1 : Nat) (x2 : HvSlot) : (x0.setHslot x1 x2).ram = x0.ram := rfl
@[simp] theorem Node.setHslot_power (x0 : Node) (x1 : Nat) (x2 : HvSlot) : (x0.setHslot x1 x2).power = x0.power := rfl
@[simp] theorem Node.setHslot_host (x0 : Node) (x1 : Nat) (x2 : HvSlot) : (x0.setHslot x1 x2).host = x0.host := rfl
@[simp] theorem Node.setHslot_stalls (x0 : Node) (x1 : Nat) (x2 : HvSlot) : (x0.setHslot x1 x2).stalls = x0.stalls := rfl
@[simp] theorem Node.setHslot_cache (x0 : Node) (x1 : Nat) (x2 : HvSlot) : (x0.setHslot x1 x2).cache = x0.cache := rfl
@[simp] theorem Node.setHslot_stored (x0 : Node) (x1 : Nat) (x2 : HvSlot) : (x0.setHslot x1 x2).stored = x0.stored := rfl
@[simp] theorem Node.setHslot_rcp (x0 : Node) (x1 : Nat) (x2 : HvSlot) : (x0.setHslot x1 x2).rcp = x0.rcp := rfl
@[simp] theorem Node.setHslot_loops (x0 : Node) (x1 : Nat) (x2 : HvSlot) : (x0.setHslot x1 x2).loops = x0.loops := rfl
@[simp] theorem Node.setHslot_fio (x0 : Node) (x1 : Nat) (x2 : HvSlot) : (x0.setHslot x1 x2).fio = x0.fio := rfl
@[simp] theorem Node.setHslot_adc (x0 : Node) (x1 : Nat) (x2 : HvSlot) : (x0.setHslot x1 x2).adc = x0.adc := rfl
@[simp] theorem Node.setHslot_encs (x0 : Node) (x1 : Nat) (x2 : HvSlot) : (x0.setHslot x1 x2).encs = x0.encs := rfl
@[simp] theorem Node.setHslot_axes (x0 : Node) (x1 : Nat) (x2 : HvSlot) : (x0.setHslot x1 x2).axes = x0.axes := rfl
@[simp] theorem Node.setHslot_drives (x0 : Node) (x1 : Nat) (x2 : HvSlot) : (x0.setHslot x1 x2).drives = x0.drives := rfl
@[simp] theorem Node.setHslot_line (x0 : Node) (x1 : Nat) (x2 : HvSlot) : (x0.setHslot x1 x2).line = x0.line := rfl
@[simp] theorem Node.setHslot_time (x0 : Node) (x1 : Nat) (x2 : HvSlot) : (x0.setHslot x1 x2).time = x0.time := rfl
@[simp] theorem Node.setHslot_zb (x0 : Node) (x1 : Nat) (x2 : HvSlot) : (x0.setHslot x1 x2).zb = x0.zb := rfl
@[simp] theorem Node.setHslot_cust (x0 : Node) (x1 : Nat) (x2 : HvSlot) : (x0.setHslot x1 x2).cust = x0.cust := rfl
@[simp] theorem Node.setHslot_lifts (x0 : Node) (x1 : Nat) (x2 : HvSlot) : (x0.setHslot x1 x2).lifts = x0.lifts := rfl
@[simp] theorem Node.setHslot_gates (x0 : Node) (x1 : Nat) (x2 : HvSlot) : (x0.setHslot x1 x2).gates = x0.gates := rfl
@[simp] theorem Node.setHslot_rcd (x0 : Node) (x1 : Nat) (x2 : HvSlot) : (x0.setHslot x1 x2).rcd = x0.rcd := rfl
@[simp] theorem Node.setHslot_safe (x0 : Node) (x1 : Nat) (x2 : HvSlot) : (x0.setHslot x1 x2).safe = x0.safe := rfl
@[simp] theorem Node.setHslot_glean (x0 : Node) (x1 : Nat) (x2 : HvSlot) : (x0.setHslot x1 x2).glean = x0.glean := rfl
@[simp] theorem Node.setHslot_sec (x0 : Node) (x1 : Nat) (x2 : HvSlot) : (x0.setHslot x1 x2).sec = x0.sec := rfl
@[simp] theorem Node.setHslot_hlth (x0 : Node) (x1 : Nat) (x2 : HvSlot) : (x0.setHslot x1 x2).hlth = x0.hlth := rfl
@[simp] theorem Node.setHslot_freeCtr (x0 : Node) (x1 : Nat) (x2 : HvSlot) : (x0.setHslot x1 x2).freeCtr = x0.freeCtr := rfl

@[simp] theorem Node.setMbx_isl (x0 : Node) (x1 : Nat) (x2 : Mbx) : (x0.setMbx x1 x2).isl = x0.isl := rfl
@[simp] theorem Node.setMbx_lastCrossing (x0 : Node) (x1 : Nat) (x2 : Mbx) : (x0.setMbx x1 x2).lastCrossing = x0.lastCrossing := rfl
@[simp] theorem Node.setMbx_mem (x0 : Node) (x1 : Nat) (x2 : Mbx) : (x0.setMbx x1 x2).mem = x0.mem := rfl
@[simp] theorem Node.setMbx_ram (x0 : Node) (x1 : Nat) (x2 : Mbx) : (x0.setMbx x1 x2).ram = x0.ram := rfl
@[simp] theorem Node.setMbx_power (x0 : Node) (x1 : Nat) (x2 : Mbx) : (x0.setMbx x1 x2).power = x0.power := rfl
@[simp] theorem Node.setMbx_stalls (x0 : Node) (x1 : Nat) (x2 : Mbx) : (x0.setMbx x1 x2).stalls = x0.stalls := rfl
@[simp] theorem Node.setMbx_cache (x0 : Node) (x1 : Nat) (x2 : Mbx) : (x0.setMbx x1 x2).cache = x0.cache := rfl
@[simp] theorem Node.setMbx_stored (x0 : Node) (x1 : Nat) (x2 : Mbx) : (x0.setMbx x1 x2).stored = x0.stored := rfl
@[simp] theorem Node.setMbx_rcp (x0 : Node) (x1 : Nat) (x2 : Mbx) : (x0.setMbx x1 x2).rcp = x0.rcp := rfl
@[simp] theorem Node.setMbx_loops (x0 : Node) (x1 : Nat) (x2 : Mbx) : (x0.setMbx x1 x2).loops = x0.loops := rfl
@[simp] theorem Node.setMbx_fio (x0 : Node) (x1 : Nat) (x2 : Mbx) : (x0.setMbx x1 x2).fio = x0.fio := rfl
@[simp] theorem Node.setMbx_adc (x0 : Node) (x1 : Nat) (x2 : Mbx) : (x0.setMbx x1 x2).adc = x0.adc := rfl
@[simp] theorem Node.setMbx_encs (x0 : Node) (x1 : Nat) (x2 : Mbx) : (x0.setMbx x1 x2).encs = x0.encs := rfl
@[simp] theorem Node.setMbx_axes (x0 : Node) (x1 : Nat) (x2 : Mbx) : (x0.setMbx x1 x2).axes = x0.axes := rfl
@[simp] theorem Node.setMbx_drives (x0 : Node) (x1 : Nat) (x2 : Mbx) : (x0.setMbx x1 x2).drives = x0.drives := rfl
@[simp] theorem Node.setMbx_line (x0 : Node) (x1 : Nat) (x2 : Mbx) : (x0.setMbx x1 x2).line = x0.line := rfl
@[simp] theorem Node.setMbx_time (x0 : Node) (x1 : Nat) (x2 : Mbx) : (x0.setMbx x1 x2).time = x0.time := rfl
@[simp] theorem Node.setMbx_zb (x0 : Node) (x1 : Nat) (x2 : Mbx) : (x0.setMbx x1 x2).zb = x0.zb := rfl
@[simp] theorem Node.setMbx_cust (x0 : Node) (x1 : Nat) (x2 : Mbx) : (x0.setMbx x1 x2).cust = x0.cust := rfl
@[simp] theorem Node.setMbx_lifts (x0 : Node) (x1 : Nat) (x2 : Mbx) : (x0.setMbx x1 x2).lifts = x0.lifts := rfl
@[simp] theorem Node.setMbx_gates (x0 : Node) (x1 : Nat) (x2 : Mbx) : (x0.setMbx x1 x2).gates = x0.gates := rfl
@[simp] theorem Node.setMbx_harv (x0 : Node) (x1 : Nat) (x2 : Mbx) : (x0.setMbx x1 x2).harv = x0.harv := rfl
@[simp] theorem Node.setMbx_rcd (x0 : Node) (x1 : Nat) (x2 : Mbx) : (x0.setMbx x1 x2).rcd = x0.rcd := rfl
@[simp] theorem Node.setMbx_safe (x0 : Node) (x1 : Nat) (x2 : Mbx) : (x0.setMbx x1 x2).safe = x0.safe := rfl
@[simp] theorem Node.setMbx_glean (x0 : Node) (x1 : Nat) (x2 : Mbx) : (x0.setMbx x1 x2).glean = x0.glean := rfl
@[simp] theorem Node.setMbx_sec (x0 : Node) (x1 : Nat) (x2 : Mbx) : (x0.setMbx x1 x2).sec = x0.sec := rfl
@[simp] theorem Node.setMbx_hlth (x0 : Node) (x1 : Nat) (x2 : Mbx) : (x0.setMbx x1 x2).hlth = x0.hlth := rfl
@[simp] theorem Node.setMbx_freeCtr (x0 : Node) (x1 : Nat) (x2 : Mbx) : (x0.setMbx x1 x2).freeCtr = x0.freeCtr := rfl

@[simp] theorem Node.setOut_isl (x0 : Node) (x1 : Nat) (x2 : OutPin) : (x0.setOut x1 x2).isl = x0.isl := rfl
@[simp] theorem Node.setOut_lastCrossing (x0 : Node) (x1 : Nat) (x2 : OutPin) : (x0.setOut x1 x2).lastCrossing = x0.lastCrossing := rfl
@[simp] theorem Node.setOut_mem (x0 : Node) (x1 : Nat) (x2 : OutPin) : (x0.setOut x1 x2).mem = x0.mem := rfl
@[simp] theorem Node.setOut_ram (x0 : Node) (x1 : Nat) (x2 : OutPin) : (x0.setOut x1 x2).ram = x0.ram := rfl
@[simp] theorem Node.setOut_power (x0 : Node) (x1 : Nat) (x2 : OutPin) : (x0.setOut x1 x2).power = x0.power := rfl
@[simp] theorem Node.setOut_host (x0 : Node) (x1 : Nat) (x2 : OutPin) : (x0.setOut x1 x2).host = x0.host := rfl
@[simp] theorem Node.setOut_stalls (x0 : Node) (x1 : Nat) (x2 : OutPin) : (x0.setOut x1 x2).stalls = x0.stalls := rfl
@[simp] theorem Node.setOut_cache (x0 : Node) (x1 : Nat) (x2 : OutPin) : (x0.setOut x1 x2).cache = x0.cache := rfl
@[simp] theorem Node.setOut_stored (x0 : Node) (x1 : Nat) (x2 : OutPin) : (x0.setOut x1 x2).stored = x0.stored := rfl
@[simp] theorem Node.setOut_rcp (x0 : Node) (x1 : Nat) (x2 : OutPin) : (x0.setOut x1 x2).rcp = x0.rcp := rfl
@[simp] theorem Node.setOut_loops (x0 : Node) (x1 : Nat) (x2 : OutPin) : (x0.setOut x1 x2).loops = x0.loops := rfl
@[simp] theorem Node.setOut_adc (x0 : Node) (x1 : Nat) (x2 : OutPin) : (x0.setOut x1 x2).adc = x0.adc := rfl
@[simp] theorem Node.setOut_encs (x0 : Node) (x1 : Nat) (x2 : OutPin) : (x0.setOut x1 x2).encs = x0.encs := rfl
@[simp] theorem Node.setOut_axes (x0 : Node) (x1 : Nat) (x2 : OutPin) : (x0.setOut x1 x2).axes = x0.axes := rfl
@[simp] theorem Node.setOut_drives (x0 : Node) (x1 : Nat) (x2 : OutPin) : (x0.setOut x1 x2).drives = x0.drives := rfl
@[simp] theorem Node.setOut_line (x0 : Node) (x1 : Nat) (x2 : OutPin) : (x0.setOut x1 x2).line = x0.line := rfl
@[simp] theorem Node.setOut_time (x0 : Node) (x1 : Nat) (x2 : OutPin) : (x0.setOut x1 x2).time = x0.time := rfl
@[simp] theorem Node.setOut_zb (x0 : Node) (x1 : Nat) (x2 : OutPin) : (x0.setOut x1 x2).zb = x0.zb := rfl
@[simp] theorem Node.setOut_cust (x0 : Node) (x1 : Nat) (x2 : OutPin) : (x0.setOut x1 x2).cust = x0.cust := rfl
@[simp] theorem Node.setOut_lifts (x0 : Node) (x1 : Nat) (x2 : OutPin) : (x0.setOut x1 x2).lifts = x0.lifts := rfl
@[simp] theorem Node.setOut_gates (x0 : Node) (x1 : Nat) (x2 : OutPin) : (x0.setOut x1 x2).gates = x0.gates := rfl
@[simp] theorem Node.setOut_harv (x0 : Node) (x1 : Nat) (x2 : OutPin) : (x0.setOut x1 x2).harv = x0.harv := rfl
@[simp] theorem Node.setOut_rcd (x0 : Node) (x1 : Nat) (x2 : OutPin) : (x0.setOut x1 x2).rcd = x0.rcd := rfl
@[simp] theorem Node.setOut_safe (x0 : Node) (x1 : Nat) (x2 : OutPin) : (x0.setOut x1 x2).safe = x0.safe := rfl
@[simp] theorem Node.setOut_glean (x0 : Node) (x1 : Nat) (x2 : OutPin) : (x0.setOut x1 x2).glean = x0.glean := rfl
@[simp] theorem Node.setOut_sec (x0 : Node) (x1 : Nat) (x2 : OutPin) : (x0.setOut x1 x2).sec = x0.sec := rfl
@[simp] theorem Node.setOut_hlth (x0 : Node) (x1 : Nat) (x2 : OutPin) : (x0.setOut x1 x2).hlth = x0.hlth := rfl
@[simp] theorem Node.setOut_freeCtr (x0 : Node) (x1 : Nat) (x2 : OutPin) : (x0.setOut x1 x2).freeCtr = x0.freeCtr := rfl

@[simp] theorem Node.setLoop_isl (x0 : Node) (x1 : Nat) (x2 : Loop) : (x0.setLoop x1 x2).isl = x0.isl := rfl
@[simp] theorem Node.setLoop_lastCrossing (x0 : Node) (x1 : Nat) (x2 : Loop) : (x0.setLoop x1 x2).lastCrossing = x0.lastCrossing := rfl
@[simp] theorem Node.setLoop_mem (x0 : Node) (x1 : Nat) (x2 : Loop) : (x0.setLoop x1 x2).mem = x0.mem := rfl
@[simp] theorem Node.setLoop_ram (x0 : Node) (x1 : Nat) (x2 : Loop) : (x0.setLoop x1 x2).ram = x0.ram := rfl
@[simp] theorem Node.setLoop_power (x0 : Node) (x1 : Nat) (x2 : Loop) : (x0.setLoop x1 x2).power = x0.power := rfl
@[simp] theorem Node.setLoop_host (x0 : Node) (x1 : Nat) (x2 : Loop) : (x0.setLoop x1 x2).host = x0.host := rfl
@[simp] theorem Node.setLoop_stalls (x0 : Node) (x1 : Nat) (x2 : Loop) : (x0.setLoop x1 x2).stalls = x0.stalls := rfl
@[simp] theorem Node.setLoop_cache (x0 : Node) (x1 : Nat) (x2 : Loop) : (x0.setLoop x1 x2).cache = x0.cache := rfl
@[simp] theorem Node.setLoop_stored (x0 : Node) (x1 : Nat) (x2 : Loop) : (x0.setLoop x1 x2).stored = x0.stored := rfl
@[simp] theorem Node.setLoop_rcp (x0 : Node) (x1 : Nat) (x2 : Loop) : (x0.setLoop x1 x2).rcp = x0.rcp := rfl
@[simp] theorem Node.setLoop_fio (x0 : Node) (x1 : Nat) (x2 : Loop) : (x0.setLoop x1 x2).fio = x0.fio := rfl
@[simp] theorem Node.setLoop_adc (x0 : Node) (x1 : Nat) (x2 : Loop) : (x0.setLoop x1 x2).adc = x0.adc := rfl
@[simp] theorem Node.setLoop_encs (x0 : Node) (x1 : Nat) (x2 : Loop) : (x0.setLoop x1 x2).encs = x0.encs := rfl
@[simp] theorem Node.setLoop_axes (x0 : Node) (x1 : Nat) (x2 : Loop) : (x0.setLoop x1 x2).axes = x0.axes := rfl
@[simp] theorem Node.setLoop_drives (x0 : Node) (x1 : Nat) (x2 : Loop) : (x0.setLoop x1 x2).drives = x0.drives := rfl
@[simp] theorem Node.setLoop_line (x0 : Node) (x1 : Nat) (x2 : Loop) : (x0.setLoop x1 x2).line = x0.line := rfl
@[simp] theorem Node.setLoop_time (x0 : Node) (x1 : Nat) (x2 : Loop) : (x0.setLoop x1 x2).time = x0.time := rfl
@[simp] theorem Node.setLoop_zb (x0 : Node) (x1 : Nat) (x2 : Loop) : (x0.setLoop x1 x2).zb = x0.zb := rfl
@[simp] theorem Node.setLoop_cust (x0 : Node) (x1 : Nat) (x2 : Loop) : (x0.setLoop x1 x2).cust = x0.cust := rfl
@[simp] theorem Node.setLoop_lifts (x0 : Node) (x1 : Nat) (x2 : Loop) : (x0.setLoop x1 x2).lifts = x0.lifts := rfl
@[simp] theorem Node.setLoop_gates (x0 : Node) (x1 : Nat) (x2 : Loop) : (x0.setLoop x1 x2).gates = x0.gates := rfl
@[simp] theorem Node.setLoop_harv (x0 : Node) (x1 : Nat) (x2 : Loop) : (x0.setLoop x1 x2).harv = x0.harv := rfl
@[simp] theorem Node.setLoop_rcd (x0 : Node) (x1 : Nat) (x2 : Loop) : (x0.setLoop x1 x2).rcd = x0.rcd := rfl
@[simp] theorem Node.setLoop_safe (x0 : Node) (x1 : Nat) (x2 : Loop) : (x0.setLoop x1 x2).safe = x0.safe := rfl
@[simp] theorem Node.setLoop_glean (x0 : Node) (x1 : Nat) (x2 : Loop) : (x0.setLoop x1 x2).glean = x0.glean := rfl
@[simp] theorem Node.setLoop_sec (x0 : Node) (x1 : Nat) (x2 : Loop) : (x0.setLoop x1 x2).sec = x0.sec := rfl
@[simp] theorem Node.setLoop_hlth (x0 : Node) (x1 : Nat) (x2 : Loop) : (x0.setLoop x1 x2).hlth = x0.hlth := rfl
@[simp] theorem Node.setLoop_freeCtr (x0 : Node) (x1 : Nat) (x2 : Loop) : (x0.setLoop x1 x2).freeCtr = x0.freeCtr := rfl

@[simp] theorem Node.setIn_isl (x0 : Node) (x1 : Nat) (x2 : InPin) : (x0.setIn x1 x2).isl = x0.isl := rfl
@[simp] theorem Node.setIn_lastCrossing (x0 : Node) (x1 : Nat) (x2 : InPin) : (x0.setIn x1 x2).lastCrossing = x0.lastCrossing := rfl
@[simp] theorem Node.setIn_mem (x0 : Node) (x1 : Nat) (x2 : InPin) : (x0.setIn x1 x2).mem = x0.mem := rfl
@[simp] theorem Node.setIn_ram (x0 : Node) (x1 : Nat) (x2 : InPin) : (x0.setIn x1 x2).ram = x0.ram := rfl
@[simp] theorem Node.setIn_power (x0 : Node) (x1 : Nat) (x2 : InPin) : (x0.setIn x1 x2).power = x0.power := rfl
@[simp] theorem Node.setIn_host (x0 : Node) (x1 : Nat) (x2 : InPin) : (x0.setIn x1 x2).host = x0.host := rfl
@[simp] theorem Node.setIn_stalls (x0 : Node) (x1 : Nat) (x2 : InPin) : (x0.setIn x1 x2).stalls = x0.stalls := rfl
@[simp] theorem Node.setIn_cache (x0 : Node) (x1 : Nat) (x2 : InPin) : (x0.setIn x1 x2).cache = x0.cache := rfl
@[simp] theorem Node.setIn_stored (x0 : Node) (x1 : Nat) (x2 : InPin) : (x0.setIn x1 x2).stored = x0.stored := rfl
@[simp] theorem Node.setIn_rcp (x0 : Node) (x1 : Nat) (x2 : InPin) : (x0.setIn x1 x2).rcp = x0.rcp := rfl
@[simp] theorem Node.setIn_loops (x0 : Node) (x1 : Nat) (x2 : InPin) : (x0.setIn x1 x2).loops = x0.loops := rfl
@[simp] theorem Node.setIn_adc (x0 : Node) (x1 : Nat) (x2 : InPin) : (x0.setIn x1 x2).adc = x0.adc := rfl
@[simp] theorem Node.setIn_encs (x0 : Node) (x1 : Nat) (x2 : InPin) : (x0.setIn x1 x2).encs = x0.encs := rfl
@[simp] theorem Node.setIn_axes (x0 : Node) (x1 : Nat) (x2 : InPin) : (x0.setIn x1 x2).axes = x0.axes := rfl
@[simp] theorem Node.setIn_drives (x0 : Node) (x1 : Nat) (x2 : InPin) : (x0.setIn x1 x2).drives = x0.drives := rfl
@[simp] theorem Node.setIn_line (x0 : Node) (x1 : Nat) (x2 : InPin) : (x0.setIn x1 x2).line = x0.line := rfl
@[simp] theorem Node.setIn_time (x0 : Node) (x1 : Nat) (x2 : InPin) : (x0.setIn x1 x2).time = x0.time := rfl
@[simp] theorem Node.setIn_zb (x0 : Node) (x1 : Nat) (x2 : InPin) : (x0.setIn x1 x2).zb = x0.zb := rfl
@[simp] theorem Node.setIn_cust (x0 : Node) (x1 : Nat) (x2 : InPin) : (x0.setIn x1 x2).cust = x0.cust := rfl
@[simp] theorem Node.setIn_lifts (x0 : Node) (x1 : Nat) (x2 : InPin) : (x0.setIn x1 x2).lifts = x0.lifts := rfl
@[simp] theorem Node.setIn_gates (x0 : Node) (x1 : Nat) (x2 : InPin) : (x0.setIn x1 x2).gates = x0.gates := rfl
@[simp] theorem Node.setIn_harv (x0 : Node) (x1 : Nat) (x2 : InPin) : (x0.setIn x1 x2).harv = x0.harv := rfl
@[simp] theorem Node.setIn_rcd (x0 : Node) (x1 : Nat) (x2 : InPin) : (x0.setIn x1 x2).rcd = x0.rcd := rfl
@[simp] theorem Node.setIn_safe (x0 : Node) (x1 : Nat) (x2 : InPin) : (x0.setIn x1 x2).safe = x0.safe := rfl
@[simp] theorem Node.setIn_glean (x0 : Node) (x1 : Nat) (x2 : InPin) : (x0.setIn x1 x2).glean = x0.glean := rfl
@[simp] theorem Node.setIn_sec (x0 : Node) (x1 : Nat) (x2 : InPin) : (x0.setIn x1 x2).sec = x0.sec := rfl
@[simp] theorem Node.setIn_hlth (x0 : Node) (x1 : Nat) (x2 : InPin) : (x0.setIn x1 x2).hlth = x0.hlth := rfl
@[simp] theorem Node.setIn_freeCtr (x0 : Node) (x1 : Nat) (x2 : InPin) : (x0.setIn x1 x2).freeCtr = x0.freeCtr := rfl

@[simp] theorem Node.setAxis_isl (x0 : Node) (x1 : Nat) (x2 : Axis) : (x0.setAxis x1 x2).isl = x0.isl := rfl
@[simp] theorem Node.setAxis_lastCrossing (x0 : Node) (x1 : Nat) (x2 : Axis) : (x0.setAxis x1 x2).lastCrossing = x0.lastCrossing := rfl
@[simp] theorem Node.setAxis_mem (x0 : Node) (x1 : Nat) (x2 : Axis) : (x0.setAxis x1 x2).mem = x0.mem := rfl
@[simp] theorem Node.setAxis_ram (x0 : Node) (x1 : Nat) (x2 : Axis) : (x0.setAxis x1 x2).ram = x0.ram := rfl
@[simp] theorem Node.setAxis_power (x0 : Node) (x1 : Nat) (x2 : Axis) : (x0.setAxis x1 x2).power = x0.power := rfl
@[simp] theorem Node.setAxis_host (x0 : Node) (x1 : Nat) (x2 : Axis) : (x0.setAxis x1 x2).host = x0.host := rfl
@[simp] theorem Node.setAxis_stalls (x0 : Node) (x1 : Nat) (x2 : Axis) : (x0.setAxis x1 x2).stalls = x0.stalls := rfl
@[simp] theorem Node.setAxis_cache (x0 : Node) (x1 : Nat) (x2 : Axis) : (x0.setAxis x1 x2).cache = x0.cache := rfl
@[simp] theorem Node.setAxis_stored (x0 : Node) (x1 : Nat) (x2 : Axis) : (x0.setAxis x1 x2).stored = x0.stored := rfl
@[simp] theorem Node.setAxis_rcp (x0 : Node) (x1 : Nat) (x2 : Axis) : (x0.setAxis x1 x2).rcp = x0.rcp := rfl
@[simp] theorem Node.setAxis_loops (x0 : Node) (x1 : Nat) (x2 : Axis) : (x0.setAxis x1 x2).loops = x0.loops := rfl
@[simp] theorem Node.setAxis_fio (x0 : Node) (x1 : Nat) (x2 : Axis) : (x0.setAxis x1 x2).fio = x0.fio := rfl
@[simp] theorem Node.setAxis_adc (x0 : Node) (x1 : Nat) (x2 : Axis) : (x0.setAxis x1 x2).adc = x0.adc := rfl
@[simp] theorem Node.setAxis_encs (x0 : Node) (x1 : Nat) (x2 : Axis) : (x0.setAxis x1 x2).encs = x0.encs := rfl
@[simp] theorem Node.setAxis_drives (x0 : Node) (x1 : Nat) (x2 : Axis) : (x0.setAxis x1 x2).drives = x0.drives := rfl
@[simp] theorem Node.setAxis_line (x0 : Node) (x1 : Nat) (x2 : Axis) : (x0.setAxis x1 x2).line = x0.line := rfl
@[simp] theorem Node.setAxis_time (x0 : Node) (x1 : Nat) (x2 : Axis) : (x0.setAxis x1 x2).time = x0.time := rfl
@[simp] theorem Node.setAxis_zb (x0 : Node) (x1 : Nat) (x2 : Axis) : (x0.setAxis x1 x2).zb = x0.zb := rfl
@[simp] theorem Node.setAxis_cust (x0 : Node) (x1 : Nat) (x2 : Axis) : (x0.setAxis x1 x2).cust = x0.cust := rfl
@[simp] theorem Node.setAxis_lifts (x0 : Node) (x1 : Nat) (x2 : Axis) : (x0.setAxis x1 x2).lifts = x0.lifts := rfl
@[simp] theorem Node.setAxis_gates (x0 : Node) (x1 : Nat) (x2 : Axis) : (x0.setAxis x1 x2).gates = x0.gates := rfl
@[simp] theorem Node.setAxis_harv (x0 : Node) (x1 : Nat) (x2 : Axis) : (x0.setAxis x1 x2).harv = x0.harv := rfl
@[simp] theorem Node.setAxis_rcd (x0 : Node) (x1 : Nat) (x2 : Axis) : (x0.setAxis x1 x2).rcd = x0.rcd := rfl
@[simp] theorem Node.setAxis_safe (x0 : Node) (x1 : Nat) (x2 : Axis) : (x0.setAxis x1 x2).safe = x0.safe := rfl
@[simp] theorem Node.setAxis_glean (x0 : Node) (x1 : Nat) (x2 : Axis) : (x0.setAxis x1 x2).glean = x0.glean := rfl
@[simp] theorem Node.setAxis_sec (x0 : Node) (x1 : Nat) (x2 : Axis) : (x0.setAxis x1 x2).sec = x0.sec := rfl
@[simp] theorem Node.setAxis_hlth (x0 : Node) (x1 : Nat) (x2 : Axis) : (x0.setAxis x1 x2).hlth = x0.hlth := rfl
@[simp] theorem Node.setAxis_freeCtr (x0 : Node) (x1 : Nat) (x2 : Axis) : (x0.setAxis x1 x2).freeCtr = x0.freeCtr := rfl

@[simp] theorem Node.setEnc_isl (x0 : Node) (x1 : Nat) (x2 : Enc) : (x0.setEnc x1 x2).isl = x0.isl := rfl
@[simp] theorem Node.setEnc_lastCrossing (x0 : Node) (x1 : Nat) (x2 : Enc) : (x0.setEnc x1 x2).lastCrossing = x0.lastCrossing := rfl
@[simp] theorem Node.setEnc_mem (x0 : Node) (x1 : Nat) (x2 : Enc) : (x0.setEnc x1 x2).mem = x0.mem := rfl
@[simp] theorem Node.setEnc_ram (x0 : Node) (x1 : Nat) (x2 : Enc) : (x0.setEnc x1 x2).ram = x0.ram := rfl
@[simp] theorem Node.setEnc_power (x0 : Node) (x1 : Nat) (x2 : Enc) : (x0.setEnc x1 x2).power = x0.power := rfl
@[simp] theorem Node.setEnc_host (x0 : Node) (x1 : Nat) (x2 : Enc) : (x0.setEnc x1 x2).host = x0.host := rfl
@[simp] theorem Node.setEnc_stalls (x0 : Node) (x1 : Nat) (x2 : Enc) : (x0.setEnc x1 x2).stalls = x0.stalls := rfl
@[simp] theorem Node.setEnc_cache (x0 : Node) (x1 : Nat) (x2 : Enc) : (x0.setEnc x1 x2).cache = x0.cache := rfl
@[simp] theorem Node.setEnc_stored (x0 : Node) (x1 : Nat) (x2 : Enc) : (x0.setEnc x1 x2).stored = x0.stored := rfl
@[simp] theorem Node.setEnc_rcp (x0 : Node) (x1 : Nat) (x2 : Enc) : (x0.setEnc x1 x2).rcp = x0.rcp := rfl
@[simp] theorem Node.setEnc_loops (x0 : Node) (x1 : Nat) (x2 : Enc) : (x0.setEnc x1 x2).loops = x0.loops := rfl
@[simp] theorem Node.setEnc_fio (x0 : Node) (x1 : Nat) (x2 : Enc) : (x0.setEnc x1 x2).fio = x0.fio := rfl
@[simp] theorem Node.setEnc_adc (x0 : Node) (x1 : Nat) (x2 : Enc) : (x0.setEnc x1 x2).adc = x0.adc := rfl
@[simp] theorem Node.setEnc_axes (x0 : Node) (x1 : Nat) (x2 : Enc) : (x0.setEnc x1 x2).axes = x0.axes := rfl
@[simp] theorem Node.setEnc_drives (x0 : Node) (x1 : Nat) (x2 : Enc) : (x0.setEnc x1 x2).drives = x0.drives := rfl
@[simp] theorem Node.setEnc_line (x0 : Node) (x1 : Nat) (x2 : Enc) : (x0.setEnc x1 x2).line = x0.line := rfl
@[simp] theorem Node.setEnc_time (x0 : Node) (x1 : Nat) (x2 : Enc) : (x0.setEnc x1 x2).time = x0.time := rfl
@[simp] theorem Node.setEnc_zb (x0 : Node) (x1 : Nat) (x2 : Enc) : (x0.setEnc x1 x2).zb = x0.zb := rfl
@[simp] theorem Node.setEnc_cust (x0 : Node) (x1 : Nat) (x2 : Enc) : (x0.setEnc x1 x2).cust = x0.cust := rfl
@[simp] theorem Node.setEnc_lifts (x0 : Node) (x1 : Nat) (x2 : Enc) : (x0.setEnc x1 x2).lifts = x0.lifts := rfl
@[simp] theorem Node.setEnc_gates (x0 : Node) (x1 : Nat) (x2 : Enc) : (x0.setEnc x1 x2).gates = x0.gates := rfl
@[simp] theorem Node.setEnc_harv (x0 : Node) (x1 : Nat) (x2 : Enc) : (x0.setEnc x1 x2).harv = x0.harv := rfl
@[simp] theorem Node.setEnc_rcd (x0 : Node) (x1 : Nat) (x2 : Enc) : (x0.setEnc x1 x2).rcd = x0.rcd := rfl
@[simp] theorem Node.setEnc_safe (x0 : Node) (x1 : Nat) (x2 : Enc) : (x0.setEnc x1 x2).safe = x0.safe := rfl
@[simp] theorem Node.setEnc_glean (x0 : Node) (x1 : Nat) (x2 : Enc) : (x0.setEnc x1 x2).glean = x0.glean := rfl
@[simp] theorem Node.setEnc_sec (x0 : Node) (x1 : Nat) (x2 : Enc) : (x0.setEnc x1 x2).sec = x0.sec := rfl
@[simp] theorem Node.setEnc_hlth (x0 : Node) (x1 : Nat) (x2 : Enc) : (x0.setEnc x1 x2).hlth = x0.hlth := rfl
@[simp] theorem Node.setEnc_freeCtr (x0 : Node) (x1 : Nat) (x2 : Enc) : (x0.setEnc x1 x2).freeCtr = x0.freeCtr := rfl

@[simp] theorem Node.setPort_isl (x0 : Node) (x1 : Nat) (x2 : Port) : (x0.setPort x1 x2).isl = x0.isl := rfl
@[simp] theorem Node.setPort_lastCrossing (x0 : Node) (x1 : Nat) (x2 : Port) : (x0.setPort x1 x2).lastCrossing = x0.lastCrossing := rfl
@[simp] theorem Node.setPort_mem (x0 : Node) (x1 : Nat) (x2 : Port) : (x0.setPort x1 x2).mem = x0.mem := rfl
@[simp] theorem Node.setPort_ram (x0 : Node) (x1 : Nat) (x2 : Port) : (x0.setPort x1 x2).ram = x0.ram := rfl
@[simp] theorem Node.setPort_power (x0 : Node) (x1 : Nat) (x2 : Port) : (x0.setPort x1 x2).power = x0.power := rfl
@[simp] theorem Node.setPort_host (x0 : Node) (x1 : Nat) (x2 : Port) : (x0.setPort x1 x2).host = x0.host := rfl
@[simp] theorem Node.setPort_stalls (x0 : Node) (x1 : Nat) (x2 : Port) : (x0.setPort x1 x2).stalls = x0.stalls := rfl
@[simp] theorem Node.setPort_cache (x0 : Node) (x1 : Nat) (x2 : Port) : (x0.setPort x1 x2).cache = x0.cache := rfl
@[simp] theorem Node.setPort_stored (x0 : Node) (x1 : Nat) (x2 : Port) : (x0.setPort x1 x2).stored = x0.stored := rfl
@[simp] theorem Node.setPort_rcp (x0 : Node) (x1 : Nat) (x2 : Port) : (x0.setPort x1 x2).rcp = x0.rcp := rfl
@[simp] theorem Node.setPort_loops (x0 : Node) (x1 : Nat) (x2 : Port) : (x0.setPort x1 x2).loops = x0.loops := rfl
@[simp] theorem Node.setPort_fio (x0 : Node) (x1 : Nat) (x2 : Port) : (x0.setPort x1 x2).fio = x0.fio := rfl
@[simp] theorem Node.setPort_adc (x0 : Node) (x1 : Nat) (x2 : Port) : (x0.setPort x1 x2).adc = x0.adc := rfl
@[simp] theorem Node.setPort_encs (x0 : Node) (x1 : Nat) (x2 : Port) : (x0.setPort x1 x2).encs = x0.encs := rfl
@[simp] theorem Node.setPort_axes (x0 : Node) (x1 : Nat) (x2 : Port) : (x0.setPort x1 x2).axes = x0.axes := rfl
@[simp] theorem Node.setPort_drives (x0 : Node) (x1 : Nat) (x2 : Port) : (x0.setPort x1 x2).drives = x0.drives := rfl
@[simp] theorem Node.setPort_time (x0 : Node) (x1 : Nat) (x2 : Port) : (x0.setPort x1 x2).time = x0.time := rfl
@[simp] theorem Node.setPort_zb (x0 : Node) (x1 : Nat) (x2 : Port) : (x0.setPort x1 x2).zb = x0.zb := rfl
@[simp] theorem Node.setPort_cust (x0 : Node) (x1 : Nat) (x2 : Port) : (x0.setPort x1 x2).cust = x0.cust := rfl
@[simp] theorem Node.setPort_lifts (x0 : Node) (x1 : Nat) (x2 : Port) : (x0.setPort x1 x2).lifts = x0.lifts := rfl
@[simp] theorem Node.setPort_gates (x0 : Node) (x1 : Nat) (x2 : Port) : (x0.setPort x1 x2).gates = x0.gates := rfl
@[simp] theorem Node.setPort_harv (x0 : Node) (x1 : Nat) (x2 : Port) : (x0.setPort x1 x2).harv = x0.harv := rfl
@[simp] theorem Node.setPort_rcd (x0 : Node) (x1 : Nat) (x2 : Port) : (x0.setPort x1 x2).rcd = x0.rcd := rfl
@[simp] theorem Node.setPort_safe (x0 : Node) (x1 : Nat) (x2 : Port) : (x0.setPort x1 x2).safe = x0.safe := rfl
@[simp] theorem Node.setPort_glean (x0 : Node) (x1 : Nat) (x2 : Port) : (x0.setPort x1 x2).glean = x0.glean := rfl
@[simp] theorem Node.setPort_sec (x0 : Node) (x1 : Nat) (x2 : Port) : (x0.setPort x1 x2).sec = x0.sec := rfl
@[simp] theorem Node.setPort_hlth (x0 : Node) (x1 : Nat) (x2 : Port) : (x0.setPort x1 x2).hlth = x0.hlth := rfl
@[simp] theorem Node.setPort_freeCtr (x0 : Node) (x1 : Nat) (x2 : Port) : (x0.setPort x1 x2).freeCtr = x0.freeCtr := rfl

@[simp] theorem Node.setLift_isl (x0 : Node) (x1 : Nat) (x2 : Lift) : (x0.setLift x1 x2).isl = x0.isl := rfl
@[simp] theorem Node.setLift_lastCrossing (x0 : Node) (x1 : Nat) (x2 : Lift) : (x0.setLift x1 x2).lastCrossing = x0.lastCrossing := rfl
@[simp] theorem Node.setLift_mem (x0 : Node) (x1 : Nat) (x2 : Lift) : (x0.setLift x1 x2).mem = x0.mem := rfl
@[simp] theorem Node.setLift_ram (x0 : Node) (x1 : Nat) (x2 : Lift) : (x0.setLift x1 x2).ram = x0.ram := rfl
@[simp] theorem Node.setLift_power (x0 : Node) (x1 : Nat) (x2 : Lift) : (x0.setLift x1 x2).power = x0.power := rfl
@[simp] theorem Node.setLift_host (x0 : Node) (x1 : Nat) (x2 : Lift) : (x0.setLift x1 x2).host = x0.host := rfl
@[simp] theorem Node.setLift_stalls (x0 : Node) (x1 : Nat) (x2 : Lift) : (x0.setLift x1 x2).stalls = x0.stalls := rfl
@[simp] theorem Node.setLift_cache (x0 : Node) (x1 : Nat) (x2 : Lift) : (x0.setLift x1 x2).cache = x0.cache := rfl
@[simp] theorem Node.setLift_stored (x0 : Node) (x1 : Nat) (x2 : Lift) : (x0.setLift x1 x2).stored = x0.stored := rfl
@[simp] theorem Node.setLift_rcp (x0 : Node) (x1 : Nat) (x2 : Lift) : (x0.setLift x1 x2).rcp = x0.rcp := rfl
@[simp] theorem Node.setLift_loops (x0 : Node) (x1 : Nat) (x2 : Lift) : (x0.setLift x1 x2).loops = x0.loops := rfl
@[simp] theorem Node.setLift_fio (x0 : Node) (x1 : Nat) (x2 : Lift) : (x0.setLift x1 x2).fio = x0.fio := rfl
@[simp] theorem Node.setLift_adc (x0 : Node) (x1 : Nat) (x2 : Lift) : (x0.setLift x1 x2).adc = x0.adc := rfl
@[simp] theorem Node.setLift_encs (x0 : Node) (x1 : Nat) (x2 : Lift) : (x0.setLift x1 x2).encs = x0.encs := rfl
@[simp] theorem Node.setLift_axes (x0 : Node) (x1 : Nat) (x2 : Lift) : (x0.setLift x1 x2).axes = x0.axes := rfl
@[simp] theorem Node.setLift_drives (x0 : Node) (x1 : Nat) (x2 : Lift) : (x0.setLift x1 x2).drives = x0.drives := rfl
@[simp] theorem Node.setLift_line (x0 : Node) (x1 : Nat) (x2 : Lift) : (x0.setLift x1 x2).line = x0.line := rfl
@[simp] theorem Node.setLift_time (x0 : Node) (x1 : Nat) (x2 : Lift) : (x0.setLift x1 x2).time = x0.time := rfl
@[simp] theorem Node.setLift_zb (x0 : Node) (x1 : Nat) (x2 : Lift) : (x0.setLift x1 x2).zb = x0.zb := rfl
@[simp] theorem Node.setLift_cust (x0 : Node) (x1 : Nat) (x2 : Lift) : (x0.setLift x1 x2).cust = x0.cust := rfl
@[simp] theorem Node.setLift_gates (x0 : Node) (x1 : Nat) (x2 : Lift) : (x0.setLift x1 x2).gates = x0.gates := rfl
@[simp] theorem Node.setLift_harv (x0 : Node) (x1 : Nat) (x2 : Lift) : (x0.setLift x1 x2).harv = x0.harv := rfl
@[simp] theorem Node.setLift_rcd (x0 : Node) (x1 : Nat) (x2 : Lift) : (x0.setLift x1 x2).rcd = x0.rcd := rfl
@[simp] theorem Node.setLift_safe (x0 : Node) (x1 : Nat) (x2 : Lift) : (x0.setLift x1 x2).safe = x0.safe := rfl
@[simp] theorem Node.setLift_glean (x0 : Node) (x1 : Nat) (x2 : Lift) : (x0.setLift x1 x2).glean = x0.glean := rfl
@[simp] theorem Node.setLift_sec (x0 : Node) (x1 : Nat) (x2 : Lift) : (x0.setLift x1 x2).sec = x0.sec := rfl
@[simp] theorem Node.setLift_hlth (x0 : Node) (x1 : Nat) (x2 : Lift) : (x0.setLift x1 x2).hlth = x0.hlth := rfl
@[simp] theorem Node.setLift_freeCtr (x0 : Node) (x1 : Nat) (x2 : Lift) : (x0.setLift x1 x2).freeCtr = x0.freeCtr := rfl

@[simp] theorem Node.setChan_isl (x0 : Node) (x1 : Nat) (x2 : Channel) : (x0.setChan x1 x2).isl = x0.isl := rfl
@[simp] theorem Node.setChan_lastCrossing (x0 : Node) (x1 : Nat) (x2 : Channel) : (x0.setChan x1 x2).lastCrossing = x0.lastCrossing := rfl
@[simp] theorem Node.setChan_mem (x0 : Node) (x1 : Nat) (x2 : Channel) : (x0.setChan x1 x2).mem = x0.mem := rfl
@[simp] theorem Node.setChan_ram (x0 : Node) (x1 : Nat) (x2 : Channel) : (x0.setChan x1 x2).ram = x0.ram := rfl
@[simp] theorem Node.setChan_power (x0 : Node) (x1 : Nat) (x2 : Channel) : (x0.setChan x1 x2).power = x0.power := rfl
@[simp] theorem Node.setChan_host (x0 : Node) (x1 : Nat) (x2 : Channel) : (x0.setChan x1 x2).host = x0.host := rfl
@[simp] theorem Node.setChan_stalls (x0 : Node) (x1 : Nat) (x2 : Channel) : (x0.setChan x1 x2).stalls = x0.stalls := rfl
@[simp] theorem Node.setChan_cache (x0 : Node) (x1 : Nat) (x2 : Channel) : (x0.setChan x1 x2).cache = x0.cache := rfl
@[simp] theorem Node.setChan_stored (x0 : Node) (x1 : Nat) (x2 : Channel) : (x0.setChan x1 x2).stored = x0.stored := rfl
@[simp] theorem Node.setChan_rcp (x0 : Node) (x1 : Nat) (x2 : Channel) : (x0.setChan x1 x2).rcp = x0.rcp := rfl
@[simp] theorem Node.setChan_loops (x0 : Node) (x1 : Nat) (x2 : Channel) : (x0.setChan x1 x2).loops = x0.loops := rfl
@[simp] theorem Node.setChan_fio (x0 : Node) (x1 : Nat) (x2 : Channel) : (x0.setChan x1 x2).fio = x0.fio := rfl
@[simp] theorem Node.setChan_adc (x0 : Node) (x1 : Nat) (x2 : Channel) : (x0.setChan x1 x2).adc = x0.adc := rfl
@[simp] theorem Node.setChan_encs (x0 : Node) (x1 : Nat) (x2 : Channel) : (x0.setChan x1 x2).encs = x0.encs := rfl
@[simp] theorem Node.setChan_axes (x0 : Node) (x1 : Nat) (x2 : Channel) : (x0.setChan x1 x2).axes = x0.axes := rfl
@[simp] theorem Node.setChan_drives (x0 : Node) (x1 : Nat) (x2 : Channel) : (x0.setChan x1 x2).drives = x0.drives := rfl
@[simp] theorem Node.setChan_line (x0 : Node) (x1 : Nat) (x2 : Channel) : (x0.setChan x1 x2).line = x0.line := rfl
@[simp] theorem Node.setChan_time (x0 : Node) (x1 : Nat) (x2 : Channel) : (x0.setChan x1 x2).time = x0.time := rfl
@[simp] theorem Node.setChan_zb (x0 : Node) (x1 : Nat) (x2 : Channel) : (x0.setChan x1 x2).zb = x0.zb := rfl
@[simp] theorem Node.setChan_cust (x0 : Node) (x1 : Nat) (x2 : Channel) : (x0.setChan x1 x2).cust = x0.cust := rfl
@[simp] theorem Node.setChan_lifts (x0 : Node) (x1 : Nat) (x2 : Channel) : (x0.setChan x1 x2).lifts = x0.lifts := rfl
@[simp] theorem Node.setChan_gates (x0 : Node) (x1 : Nat) (x2 : Channel) : (x0.setChan x1 x2).gates = x0.gates := rfl
@[simp] theorem Node.setChan_harv (x0 : Node) (x1 : Nat) (x2 : Channel) : (x0.setChan x1 x2).harv = x0.harv := rfl
@[simp] theorem Node.setChan_rcd (x0 : Node) (x1 : Nat) (x2 : Channel) : (x0.setChan x1 x2).rcd = x0.rcd := rfl
@[simp] theorem Node.setChan_glean (x0 : Node) (x1 : Nat) (x2 : Channel) : (x0.setChan x1 x2).glean = x0.glean := rfl
@[simp] theorem Node.setChan_sec (x0 : Node) (x1 : Nat) (x2 : Channel) : (x0.setChan x1 x2).sec = x0.sec := rfl
@[simp] theorem Node.setChan_hlth (x0 : Node) (x1 : Nat) (x2 : Channel) : (x0.setChan x1 x2).hlth = x0.hlth := rfl
@[simp] theorem Node.setChan_freeCtr (x0 : Node) (x1 : Nat) (x2 : Channel) : (x0.setChan x1 x2).freeCtr = x0.freeCtr := rfl

@[simp] theorem Node.upTo_isl (x0 : Node) (x1 : T64) : (x0.upTo x1).isl = x0.isl := rfl
@[simp] theorem Node.upTo_lastCrossing (x0 : Node) (x1 : T64) : (x0.upTo x1).lastCrossing = x0.lastCrossing := rfl
@[simp] theorem Node.upTo_mem (x0 : Node) (x1 : T64) : (x0.upTo x1).mem = x0.mem := rfl
@[simp] theorem Node.upTo_ram (x0 : Node) (x1 : T64) : (x0.upTo x1).ram = x0.ram := rfl
@[simp] theorem Node.upTo_power (x0 : Node) (x1 : T64) : (x0.upTo x1).power = x0.power := rfl
@[simp] theorem Node.upTo_host (x0 : Node) (x1 : T64) : (x0.upTo x1).host = x0.host := rfl
@[simp] theorem Node.upTo_stalls (x0 : Node) (x1 : T64) : (x0.upTo x1).stalls = x0.stalls := rfl
@[simp] theorem Node.upTo_cache (x0 : Node) (x1 : T64) : (x0.upTo x1).cache = x0.cache := rfl
@[simp] theorem Node.upTo_stored (x0 : Node) (x1 : T64) : (x0.upTo x1).stored = x0.stored := rfl
@[simp] theorem Node.upTo_rcp (x0 : Node) (x1 : T64) : (x0.upTo x1).rcp = x0.rcp := rfl
@[simp] theorem Node.upTo_loops (x0 : Node) (x1 : T64) : (x0.upTo x1).loops = x0.loops := rfl
@[simp] theorem Node.upTo_fio (x0 : Node) (x1 : T64) : (x0.upTo x1).fio = x0.fio := rfl
@[simp] theorem Node.upTo_adc (x0 : Node) (x1 : T64) : (x0.upTo x1).adc = x0.adc := rfl
@[simp] theorem Node.upTo_encs (x0 : Node) (x1 : T64) : (x0.upTo x1).encs = x0.encs := rfl
@[simp] theorem Node.upTo_axes (x0 : Node) (x1 : T64) : (x0.upTo x1).axes = x0.axes := rfl
@[simp] theorem Node.upTo_drives (x0 : Node) (x1 : T64) : (x0.upTo x1).drives = x0.drives := rfl
@[simp] theorem Node.upTo_line (x0 : Node) (x1 : T64) : (x0.upTo x1).line = x0.line := rfl
@[simp] theorem Node.upTo_zb (x0 : Node) (x1 : T64) : (x0.upTo x1).zb = x0.zb := rfl
@[simp] theorem Node.upTo_cust (x0 : Node) (x1 : T64) : (x0.upTo x1).cust = x0.cust := rfl
@[simp] theorem Node.upTo_lifts (x0 : Node) (x1 : T64) : (x0.upTo x1).lifts = x0.lifts := rfl
@[simp] theorem Node.upTo_gates (x0 : Node) (x1 : T64) : (x0.upTo x1).gates = x0.gates := rfl
@[simp] theorem Node.upTo_harv (x0 : Node) (x1 : T64) : (x0.upTo x1).harv = x0.harv := rfl
@[simp] theorem Node.upTo_rcd (x0 : Node) (x1 : T64) : (x0.upTo x1).rcd = x0.rcd := rfl
@[simp] theorem Node.upTo_safe (x0 : Node) (x1 : T64) : (x0.upTo x1).safe = x0.safe := rfl
@[simp] theorem Node.upTo_glean (x0 : Node) (x1 : T64) : (x0.upTo x1).glean = x0.glean := rfl
@[simp] theorem Node.upTo_sec (x0 : Node) (x1 : T64) : (x0.upTo x1).sec = x0.sec := rfl
@[simp] theorem Node.upTo_hlth (x0 : Node) (x1 : T64) : (x0.upTo x1).hlth = x0.hlth := rfl
@[simp] theorem Node.upTo_freeCtr (x0 : Node) (x1 : T64) : (x0.upTo x1).freeCtr = x0.freeCtr := rfl

@[simp] theorem Node.idle_isl (x0 : Node) : (x0.idle).isl = x0.isl := rfl
@[simp] theorem Node.idle_lastCrossing (x0 : Node) : (x0.idle).lastCrossing = x0.lastCrossing := rfl
@[simp] theorem Node.idle_mem (x0 : Node) : (x0.idle).mem = x0.mem := rfl
@[simp] theorem Node.idle_ram (x0 : Node) : (x0.idle).ram = x0.ram := rfl
@[simp] theorem Node.idle_power (x0 : Node) : (x0.idle).power = x0.power := rfl
@[simp] theorem Node.idle_host (x0 : Node) : (x0.idle).host = x0.host := rfl
@[simp] theorem Node.idle_stalls (x0 : Node) : (x0.idle).stalls = x0.stalls := rfl
@[simp] theorem Node.idle_cache (x0 : Node) : (x0.idle).cache = x0.cache := rfl
@[simp] theorem Node.idle_stored (x0 : Node) : (x0.idle).stored = x0.stored := rfl
@[simp] theorem Node.idle_rcp (x0 : Node) : (x0.idle).rcp = x0.rcp := rfl
@[simp] theorem Node.idle_loops (x0 : Node) : (x0.idle).loops = x0.loops := rfl
@[simp] theorem Node.idle_fio (x0 : Node) : (x0.idle).fio = x0.fio := rfl
@[simp] theorem Node.idle_adc (x0 : Node) : (x0.idle).adc = x0.adc := rfl
@[simp] theorem Node.idle_encs (x0 : Node) : (x0.idle).encs = x0.encs := rfl
@[simp] theorem Node.idle_axes (x0 : Node) : (x0.idle).axes = x0.axes := rfl
@[simp] theorem Node.idle_drives (x0 : Node) : (x0.idle).drives = x0.drives := rfl
@[simp] theorem Node.idle_line (x0 : Node) : (x0.idle).line = x0.line := rfl
@[simp] theorem Node.idle_zb (x0 : Node) : (x0.idle).zb = x0.zb := rfl
@[simp] theorem Node.idle_cust (x0 : Node) : (x0.idle).cust = x0.cust := rfl
@[simp] theorem Node.idle_lifts (x0 : Node) : (x0.idle).lifts = x0.lifts := rfl
@[simp] theorem Node.idle_gates (x0 : Node) : (x0.idle).gates = x0.gates := rfl
@[simp] theorem Node.idle_harv (x0 : Node) : (x0.idle).harv = x0.harv := rfl
@[simp] theorem Node.idle_rcd (x0 : Node) : (x0.idle).rcd = x0.rcd := rfl
@[simp] theorem Node.idle_safe (x0 : Node) : (x0.idle).safe = x0.safe := rfl
@[simp] theorem Node.idle_glean (x0 : Node) : (x0.idle).glean = x0.glean := rfl
@[simp] theorem Node.idle_sec (x0 : Node) : (x0.idle).sec = x0.sec := rfl
@[simp] theorem Node.idle_hlth (x0 : Node) : (x0.idle).hlth = x0.hlth := rfl
@[simp] theorem Node.idle_freeCtr (x0 : Node) : (x0.idle).freeCtr = x0.freeCtr := rfl

end Sys2Proof.Machine
end

