-- ==== Sys2Proof/Laws/Table.lean ====
section
/-! SUPPORT. Reading an entry of a table, or a numbered unit of the node, after an entry of it has been written. -/

namespace Sys2Proof.Machine

/-- The entry just written is what the table lists under its key. -/
@[simp] theorem Tbl.look_put_same {α : Type} (t : Tbl α) (k : Nat) (a : α) : Tbl.look (Tbl.put t k a) k = some a := by
  induction t with
  | nil => simp [Tbl.put, Tbl.look]
  | cons e t ih =>
    obtain ⟨j, b⟩ := e
    unfold Tbl.put
    split
    · simp [Tbl.look]
    · split
      · simp [Tbl.look]
      · rename_i h
        simp [Tbl.look, Ne.symm h, ih]

/-- Writing one key leaves what the table lists under another. -/
theorem Tbl.look_put_ne {α : Type} (t : Tbl α) (k j : Nat) (a : α) (h : j ≠ k) : Tbl.look (Tbl.put t k a) j = Tbl.look t j := by
  induction t with
  | nil => simp [Tbl.put, Tbl.look, Ne.symm h]
  | cons e t ih =>
    obtain ⟨i, b⟩ := e
    unfold Tbl.put
    split
    · simp [Tbl.look, Ne.symm h]
    · split
      · rename_i h2
        subst h2
        simp [Tbl.look, Ne.symm h]
      · simp [Tbl.look, ih]

/-- The entry just written reads back. -/
@[simp] theorem Tbl.getD_put_same {α : Type} (t : Tbl α) (k : Nat) (a d : α) : Tbl.getD (Tbl.put t k a) k d = a := by simp [Tbl.getD]
/-- Another entry reads as before. -/
theorem Tbl.getD_put_ne {α : Type} (t : Tbl α) (k j : Nat) (a d : α) (h : j ≠ k) : Tbl.getD (Tbl.put t k a) j d = Tbl.getD t j d := by
  simp [Tbl.getD, Tbl.look_put_ne t k j a h]

@[simp] theorem Node.island_setIsland (n : Node) (k : Nat) (x : Island) : (n.setIsland k x).island k = x := Tbl.getD_put_same _ _ _ _
theorem Node.island_setIsland_ne (n : Node) (k j : Nat) (x : Island) (h : j ≠ k) : (n.setIsland k x).island j = n.island j :=
  Tbl.getD_put_ne _ _ _ _ _ h
@[simp] theorem Node.port_setPort (n : Node) (k : Nat) (x : Port) : (n.setPort k x).port k = x := Tbl.getD_put_same _ _ _ _
theorem Node.port_setPort_ne (n : Node) (k j : Nat) (x : Port) (h : j ≠ k) : (n.setPort k x).port j = n.port j :=
  Tbl.getD_put_ne _ _ _ _ _ h
@[simp] theorem Node.mbx_setMbx (n : Node) (k : Nat) (x : Mbx) : (n.setMbx k x).mbx k = x := Tbl.getD_put_same _ _ _ _
theorem Node.mbx_setMbx_ne (n : Node) (k j : Nat) (x : Mbx) (h : j ≠ k) : (n.setMbx k x).mbx j = n.mbx j :=
  Tbl.getD_put_ne _ _ _ _ _ h
@[simp] theorem Node.outPin_setOut (n : Node) (k : Nat) (x : OutPin) : (n.setOut k x).outPin k = x := Tbl.getD_put_same _ _ _ _
theorem Node.outPin_setOut_ne (n : Node) (k j : Nat) (x : OutPin) (h : j ≠ k) : (n.setOut k x).outPin j = n.outPin j :=
  Tbl.getD_put_ne _ _ _ _ _ h
@[simp] theorem Node.inPin_setIn (n : Node) (k : Nat) (x : InPin) : (n.setIn k x).inPin k = x := Tbl.getD_put_same _ _ _ _
theorem Node.inPin_setIn_ne (n : Node) (k j : Nat) (x : InPin) (h : j ≠ k) : (n.setIn k x).inPin j = n.inPin j :=
  Tbl.getD_put_ne _ _ _ _ _ h
@[simp] theorem Node.axis_setAxis (n : Node) (k : Nat) (x : Axis) : (n.setAxis k x).axis k = x := Tbl.getD_put_same _ _ _ _
theorem Node.axis_setAxis_ne (n : Node) (k j : Nat) (x : Axis) (h : j ≠ k) : (n.setAxis k x).axis j = n.axis j :=
  Tbl.getD_put_ne _ _ _ _ _ h
@[simp] theorem Node.drv_setDrv (n : Node) (k : Nat) (x : Drive) : (n.setDrv k x).drv k = x := Tbl.getD_put_same _ _ _ _
theorem Node.drv_setDrv_ne (n : Node) (k j : Nat) (x : Drive) (h : j ≠ k) : (n.setDrv k x).drv j = n.drv j :=
  Tbl.getD_put_ne _ _ _ _ _ h
@[simp] theorem Node.enc_setEnc (n : Node) (k : Nat) (x : Enc) : (n.setEnc k x).enc k = x := Tbl.getD_put_same _ _ _ _
theorem Node.enc_setEnc_ne (n : Node) (k j : Nat) (x : Enc) (h : j ≠ k) : (n.setEnc k x).enc j = n.enc j :=
  Tbl.getD_put_ne _ _ _ _ _ h
@[simp] theorem Node.lift_setLift (n : Node) (k : Nat) (x : Lift) : (n.setLift k x).lift k = x := Tbl.getD_put_same _ _ _ _
theorem Node.lift_setLift_ne (n : Node) (k j : Nat) (x : Lift) (h : j ≠ k) : (n.setLift k x).lift j = n.lift j :=
  Tbl.getD_put_ne _ _ _ _ _ h
@[simp] theorem Node.gate_setGate (n : Node) (k : Nat) (x : Gate) : (n.setGate k x).gate k = x := Tbl.getD_put_same _ _ _ _
theorem Node.gate_setGate_ne (n : Node) (k j : Nat) (x : Gate) (h : j ≠ k) : (n.setGate k x).gate j = n.gate j :=
  Tbl.getD_put_ne _ _ _ _ _ h
@[simp] theorem Node.inst_setInst (n : Node) (k : Nat) (x : Inst) : (n.setInst k x).inst k = x := Tbl.getD_put_same _ _ _ _
theorem Node.inst_setInst_ne (n : Node) (k j : Nat) (x : Inst) (h : j ≠ k) : (n.setInst k x).inst j = n.inst j :=
  Tbl.getD_put_ne _ _ _ _ _ h
@[simp] theorem Node.hslot_setHslot (n : Node) (k : Nat) (x : HvSlot) : (n.setHslot k x).hslot k = x := Tbl.getD_put_same _ _ _ _
theorem Node.hslot_setHslot_ne (n : Node) (k j : Nat) (x : HvSlot) (h : j ≠ k) : (n.setHslot k x).hslot j = n.hslot j :=
  Tbl.getD_put_ne _ _ _ _ _ h
@[simp] theorem Node.trig_setTrig (n : Node) (k : Nat) (x : Trig) : (n.setTrig k x).trig k = x := Tbl.getD_put_same _ _ _ _
theorem Node.trig_setTrig_ne (n : Node) (k j : Nat) (x : Trig) (h : j ≠ k) : (n.setTrig k x).trig j = n.trig j :=
  Tbl.getD_put_ne _ _ _ _ _ h
@[simp] theorem Node.loop_setLoop (n : Node) (k : Nat) (x : Loop) : (n.setLoop k x).loop k = x := Tbl.getD_put_same _ _ _ _
theorem Node.loop_setLoop_ne (n : Node) (k j : Nat) (x : Loop) (h : j ≠ k) : (n.setLoop k x).loop j = n.loop j :=
  Tbl.getD_put_ne _ _ _ _ _ h
@[simp] theorem Node.stall_setStall (n : Node) (k : Nat) (x : Stall) : (n.setStall k x).stall k = x := Tbl.getD_put_same _ _ _ _
theorem Node.stall_setStall_ne (n : Node) (k j : Nat) (x : Stall) (h : j ≠ k) : (n.setStall k x).stall j = n.stall j :=
  Tbl.getD_put_ne _ _ _ _ _ h
@[simp] theorem Node.island_updIsland (n : Node) (k : Nat) (f : Island → Island) : (n.updIsland k f).island k = f (n.island k) := Tbl.getD_put_same _ _ _ _
theorem Node.island_updIsland_ne (n : Node) (k j : Nat) (f : Island → Island) (h : j ≠ k) : (n.updIsland k f).island j = n.island j :=
  Tbl.getD_put_ne _ _ _ _ _ h
@[simp] theorem Node.port_updPort (n : Node) (k : Nat) (f : Port → Port) : (n.updPort k f).port k = f (n.port k) := Tbl.getD_put_same _ _ _ _
theorem Node.port_updPort_ne (n : Node) (k j : Nat) (f : Port → Port) (h : j ≠ k) : (n.updPort k f).port j = n.port j :=
  Tbl.getD_put_ne _ _ _ _ _ h
@[simp] theorem Node.axis_updAxis (n : Node) (k : Nat) (f : Axis → Axis) : (n.updAxis k f).axis k = f (n.axis k) := Tbl.getD_put_same _ _ _ _
theorem Node.axis_updAxis_ne (n : Node) (k j : Nat) (f : Axis → Axis) (h : j ≠ k) : (n.updAxis k f).axis j = n.axis j :=
  Tbl.getD_put_ne _ _ _ _ _ h
@[simp] theorem Node.enc_updEnc (n : Node) (k : Nat) (f : Enc → Enc) : (n.updEnc k f).enc k = f (n.enc k) := Tbl.getD_put_same _ _ _ _
theorem Node.enc_updEnc_ne (n : Node) (k j : Nat) (f : Enc → Enc) (h : j ≠ k) : (n.updEnc k f).enc j = n.enc j :=
  Tbl.getD_put_ne _ _ _ _ _ h
@[simp] theorem Node.lift_updLift (n : Node) (k : Nat) (f : Lift → Lift) : (n.updLift k f).lift k = f (n.lift k) := Tbl.getD_put_same _ _ _ _
theorem Node.lift_updLift_ne (n : Node) (k j : Nat) (f : Lift → Lift) (h : j ≠ k) : (n.updLift k f).lift j = n.lift j :=
  Tbl.getD_put_ne _ _ _ _ _ h
@[simp] theorem Node.gate_updGate (n : Node) (k : Nat) (f : Gate → Gate) : (n.updGate k f).gate k = f (n.gate k) := Tbl.getD_put_same _ _ _ _
theorem Node.gate_updGate_ne (n : Node) (k j : Nat) (f : Gate → Gate) (h : j ≠ k) : (n.updGate k f).gate j = n.gate j :=
  Tbl.getD_put_ne _ _ _ _ _ h
@[simp] theorem Node.inst_updInst (n : Node) (k : Nat) (f : Inst → Inst) : (n.updInst k f).inst k = f (n.inst k) := Tbl.getD_put_same _ _ _ _
theorem Node.inst_updInst_ne (n : Node) (k j : Nat) (f : Inst → Inst) (h : j ≠ k) : (n.updInst k f).inst j = n.inst j :=
  Tbl.getD_put_ne _ _ _ _ _ h
@[simp] theorem Node.hslot_updHslot (n : Node) (k : Nat) (f : HvSlot → HvSlot) : (n.updHslot k f).hslot k = f (n.hslot k) := Tbl.getD_put_same _ _ _ _
theorem Node.hslot_updHslot_ne (n : Node) (k j : Nat) (f : HvSlot → HvSlot) (h : j ≠ k) : (n.updHslot k f).hslot j = n.hslot j :=
  Tbl.getD_put_ne _ _ _ _ _ h

end Sys2Proof.Machine
end

