-- ==== Sys2Proof/Tests/Slice0.lean ====
section
/-! SUPPORT. Tests: ill-formed commands are refused by the check, single steps against figures of the spec, and for every statement
a state and operands that meet its hypotheses. -/

open Sys2Proof Sys2Proof.Machine

/-! ### Well-formedness -/

/-- A path beyond the three host paths. -/
theorem test_ill_path : (Instr.nodeIdent 3 0).wellFormed = false := by decide
/-- A mailbox beyond the sixteen of a path. -/
theorem test_ill_mailbox : (Instr.nodeIdent 1 16).wellFormed = false := by decide
/-- An island beyond the twelve. -/
theorem test_ill_island : (Instr.quiesceDrained 12).wellFormed = false := by decide
/-- A stall beyond the table. -/
theorem test_ill_stall : (Instr.timerZero 1024).wellFormed = false := by decide
/-- A frame with an element that is no byte. -/
theorem test_ill_frame : (Instr.spiWriteFrame [2, 256]).wellFormed = false := by decide
/-- A list with one element out of range. -/
theorem test_ill_ports : (Instr.calibrationDone 4 true [0, 3]).wellFormed = false := by decide
/-- A list of lists with one element out of range. -/
theorem test_ill_records : (Instr.mirrorUpdate 0 [[1], [256]]).wellFormed = false := by decide
/-- An instant beyond 64 bits. -/
theorem test_ill_instant : (Instr.encoderZEdge 0 true (2 ^ 64)).wellFormed = false := by decide
/-- In range, the check lets them pass. -/
theorem test_well_formed : (Instr.nodeIdent 2 15).wellFormed = true ∧ (Instr.mirrorUpdate 0 [[1], [255]]).wellFormed = true := by decide
/-- No row of the table has bits: no word spells a command, and the queue stays as it is. -/
theorem test_no_words : decodeTableWord 16 0 = none ∧ State.withFetchWord {} 16 0 = {} := ⟨rfl, rfl⟩

/-! ### Figures of the spec -/

/-- The example below R11: eight bytes of an event record spell 1,000,000,000. -/
theorem test_little_endian : leNat [0x00, 0xCA, 0x9A, 0x3B, 0, 0, 0, 0] = 1000000000 := by decide
/-- The example of R288: 1,700,000,000 s and 250,000,000 ns. -/
theorem test_t64 : ({ time := { count := (1700000000 * 1000000000 + 250000000) * 2 ^ 48 + 77 } } : Node).now = 0x17979CFE4510B280 := by decide
/-- The example of R302: message 5 after message 4 at 0x17A2_B3C4_D5E6_F708, LOCKED. -/
theorem test_reference_message :
    refData 5 (some 0x17A2B3C4D5E6F708) true = [0xC5, 0x08, 0xF7, 0xE6, 0xD5, 0xC4, 0xB3, 0xA2] := by decide
/-- R196: 00 to 10 is one step up, and down with invert. -/
theorem test_quadrature : decodeStep 0 false false false true false = some 1 ∧ decodeStep 0 true false false true false = some (-1) := by decide
/-- R197: a rising edge of A with B changing in the same sample is illegal. -/
theorem test_pulse_direction : decodeStep 1 false false false true true = none := by decide
/-- R430: the two check sequences of "123456789", as their published definitions give them. -/
theorem test_crc : crc32c [0x31, 0x32, 0x33, 0x34, 0x35, 0x36, 0x37, 0x38, 0x39] = 0xE3069283#32
    ∧ crc32 [0x31, 0x32, 0x33, 0x34, 0x35, 0x36, 0x37, 0x38, 0x39] = 0xCBF43926#32 := by decide +kernel
/-- R70: HS_ID, offset 0 of the register set, reads as the spec's constant. -/
theorem test_hs_id : ({} : Node).hsRead 1 0 = 0x02035404 := by decide
/-- R290: a step with nothing queued takes line time on by 1,000 ns at the nominal increment. -/
theorem test_idle : (State.idle {}).node.now = ({} : Node).now + 1000 := by decide +kernel
/-- R15: a word between islands without a crossing stops; one between the Core and the Sequencer does not. -/
theorem test_crossing :
    exec (.crossingWord 0 7 0 0 false false 0 0 0 0) {} = .fault .noCrossing ∧
    (match exec (.crossingWord 1 2 0 0 false false 0 0 0 0) {} with | .next _ => True | _ => False) := ⟨rfl, trivial⟩


/-! ### States the witnesses start from -/

/-- A node in service, changed by `f`. -/
def up (f : Node → Node) : State := { node := f { power := { stage := .t7 } } }
/-- A node in service whose host SPI mailbox 0 executes command `code` with payload `pl`, changed by `f`. -/
def served (code : Nat) (pl : List Byte) (f : Node → Node) : State :=
  up (fun n => f (n.setMbx 16 { st := .executing, req := some (code, 1, 0, pl) }))
/-- A staged configuration of 32 bytes: a header and nothing else. -/
def goodImage : List Byte := leBytes 4 0x47464343 ++ leBytes 2 1 ++ leBytes 2 0 ++ leBytes 4 32 ++ leBytes 4 7 ++ leBytes 8 0 ++ leBytes 8 0
/-- A recipe step that ends the recipe at once. -/
def endStep : List Byte := List.replicate 32 0
/-- A silo whose header lists one image, of code 0. -/
def oneImage : Silo := { bytes := leBytes 4 0x4F4C4953 ++ leBytes 2 1 ++ leBytes 2 1 ++ List.replicate 504 0, high := 512 }
/-- Instance 0 has reached an action of code `code` on stall `a` with value `v`, to be carried out at 5 ns. -/
def acting (code a : Nat) (v : List Byte) (f : Node → Node) : State :=
  up (fun n => f (((n.write (dirAddr 0) (dirEntry 0 1 255)).writeSteps 0 0
    ([0, BitVec.ofNat 8 code, 0, 0, 0, 0] ++ leBytes 2 a ++ leBytes 8 0 ++ slice v 0 8 ++ leBytes 8 0)).setInst 0
      { st := .running, act := some 5, atOnce := true }))
/-- A record of the event recorder. -/
def oneRec : EvRec := { code := Ev.resetCause, flags := 0, suppressed := 0, seq := 0, t := 0, p0 := 0, p1 := 0, p2 := 0 }

/-! ### The hypotheses of the statements are met -/

set_option maxRecDepth 20000 in
/-- The hypotheses of every clause of IslandOperationsComplete are met. -/
theorem witness_IslandOperationsComplete :
    (∃ (s : State) (path idx : Nat) (pl : List Byte), Serves s.node Cmd.islandControl path idx pl ∧
      (Passes ([badLen pl 4, badIn (u8 pl 0) 0 11 0, badIn (u8 pl 1) 0 3 1, badIn (u8 pl 2) 0 (if u8 pl 0 = Isl.mem then 11 else 0) 2, badRes pl 3 1] ++ (s.node.begun path idx).opRefusals (u8 pl 0) (opOf (u8 pl 1)))) ∧
      (¬(u8 pl 0 = Isl.core ∧ (opOf (u8 pl 1)).clears = true))) ∧
    (∃ (s : State) (path idx : Nat) (pl : List Byte), Serves s.node Cmd.islandControl path idx pl ∧
      (Passes ([badLen pl 4, badIn (u8 pl 0) 0 11 0, badIn (u8 pl 1) 0 3 1, badIn (u8 pl 2) 0 (if u8 pl 0 = Isl.mem then 11 else 0) 2, badRes pl 3 1] ++ (s.node.begun path idx).opRefusals (u8 pl 0) (opOf (u8 pl 1)))) ∧
      u8 pl 0 = Isl.core ∧ (opOf (u8 pl 1)).clears = true) ∧
    (∃ (s : State) (path idx : Nat) (pl : List Byte), Serves s.node Cmd.islandStatus path idx pl ∧ Passes [badLen pl 0]) ∧
    (∃ (s : State) (i : Nat), (s.node.island i).st = .quiescing) ∧
    (∃ (s : State) (i : Nat), (s.node.island i).st = .quiescing) ∧
    (∃ (s : State) (i : Nat), (s.node.island i).st = .held ∧ (s.node.island i).op = none) ∧
    (∃ (s : State) (i : Nat), (s.node.island i).st = .held ∧ (s.node.island i).op = some .reload) ∧
    (∃ (s : State) (i : Nat) (o : IslOp), (s.node.island i).st = .held ∧ (s.node.island i).op = some o ∧ o ≠ .reload ∧ s.node.coreWaits i = false) ∧
    (∃ (s : State) (i : Nat), (s.node.island i).st = .loading) ∧
    (∃ (s : State) (i : Nat), (s.node.island i).st = .loading) ∧
    (∃ (s : State) (i : Nat) (ports : List Nat), (s.node.island i).st = .calibrating) ∧
    (∃ (s : State) (i : Nat) (ports : List Nat), (s.node.island i).st = .calibrating ∧ i ≠ Isl.line ∧ i ≠ Isl.io) ∧
    (∃ (s : State) (i : Nat) (ports : List Nat), (s.node.island i).st = .calibrating ∧ i = Isl.line) ∧
    (∃ (s : State) (i : Nat) (ports : List Nat), (s.node.island i).st = .calibrating ∧ i = Isl.io) ∧
    (∃ (s : State) (i : Nat), (s.node.island i).st = .relocking ∧ (s.node.island i).resume = none) ∧
    (∃ (s : State) (i : Nat) (r : IslSt), (s.node.island i).st = .relocking ∧ (s.node.island i).resume = some r) ∧
    (∃ (s : State) (i : Nat), (s.node.island i).st = .relocking) ∧
    (∃ (s : State) (i bank : Nat), i < Isl.power ∧ (s.node.island i).st = .run) ∧
    (∃ (s : State) (i bank : Nat), i < Isl.power ∧
      ((s.node.island i).st = .quiescing ∨ (s.node.island i).st = .held ∨ (s.node.island i).st = .loading ∨ (s.node.island i).st = .calibrating)) ∧
    (∃ (s : State) (bad : List Nat), s.node.coreReady = true) :=
  ⟨⟨served Cmd.islandControl ([3, 0, 0, 0]) id, 1, 0, ([3, 0, 0, 0] : List Byte), by decide⟩,
   ⟨served Cmd.islandControl ([1, 0, 0, 0]) id, 1, 0, ([1, 0, 0, 0] : List Byte), by decide⟩,
   ⟨served Cmd.islandStatus ([]) id, 1, 0, ([] : List Byte), by decide⟩,
   ⟨up (fun n => n.updIsland 3 (fun x => { x with st := .quiescing })), 3, by decide⟩,
   ⟨up (fun n => n.updIsland 3 (fun x => { x with st := .quiescing })), 3, by decide⟩,
   ⟨up (fun n => n.updIsland 3 (fun x => { x with st := .held })), 3, by decide⟩,
   ⟨up (fun n => n.updIsland 3 (fun x => { x with st := .held, op := some .reload })), 3, by decide⟩,
   ⟨up (fun n => n.updIsland 3 (fun x => { x with st := .held, op := some .reset })), 3, IslOp.reset, by decide⟩,
   ⟨up (fun n => n.updIsland 3 (fun x => { x with st := .loading })), 3, by decide⟩,
   ⟨up (fun n => n.updIsland 3 (fun x => { x with st := .loading })), 3, by decide⟩,
   ⟨up (fun n => n.updIsland 3 (fun x => { x with st := .calibrating })), 3, [], by decide⟩,
   ⟨up (fun n => n.updIsland 3 (fun x => { x with st := .calibrating })), 3, [], by decide⟩,
   ⟨up (fun n => n.updIsland 0 (fun x => { x with st := .calibrating })), 0, [1], by decide⟩,
   ⟨up (fun n => n.updIsland 5 (fun x => { x with st := .calibrating })), 5, [], by decide⟩,
   ⟨up (fun n => n.updIsland 3 (fun x => { x with st := .relocking })), 3, by decide⟩,
   ⟨up (fun n => n.updIsland 3 (fun x => { x with st := .relocking, resume := some .held })), 3, IslSt.held, by decide⟩,
   ⟨up (fun n => n.updIsland 3 (fun x => { x with st := .relocking })), 3, by decide⟩,
   ⟨up id, 3, 0, by decide⟩,
   ⟨up (fun n => n.updIsland 3 (fun x => { x with st := .held })), 3, 0, by decide⟩,
   ⟨up (fun n => n.updIsland 1 (fun x => { x with st := .held, op := some .reset })), [], by decide⟩⟩

set_option maxRecDepth 20000 in
/-- The hypotheses of every clause of CrossingsAndMemoryHealthComplete are met. -/
theorem witness_CrossingsAndMemoryHealthComplete :
    (∃ (s : State) (src dst a word : Nat) (write buffered : Bool) (bank bankCheck err errCheck : Nat), crossings.contains (src, dst) = true ∧
      (s.node.endWorks dst src a = true ∨ buffered = true ∧ (s.node.island dst).st = .quiescing) ∧ s.node.endWorks src dst a = true ∧
      deniedAt src dst a write = false) ∧
    (∃ (s : State) (src dst a word : Nat) (write buffered : Bool) (bank bankCheck err errCheck : Nat), crossings.contains (src, dst) = true ∧
      s.node.endWorks dst src a = false ∧ (buffered = false ∨ (s.node.island dst).st ≠ .quiescing)) ∧
    (∃ (s : State) (src dst a word : Nat) (write buffered : Bool) (bank bankCheck err errCheck : Nat), crossings.contains (src, dst) = true ∧
      (s.node.endWorks dst src a = true ∨ buffered = true ∧ (s.node.island dst).st = .quiescing) ∧ s.node.endWorks src dst a = false) ∧
    (∃ (s : State) (src dst a word : Nat) (write buffered : Bool) (bank bankCheck err errCheck : Nat), crossings.contains (src, dst) = true ∧
      (s.node.endWorks dst src a = true ∨ buffered = true ∧ (s.node.island dst).st = .quiescing) ∧ s.node.endWorks src dst a = true ∧
      deniedAt src dst a write = true) ∧
    (∃ (s : State) (memory bank err errCheck : Nat) (beaten : Bool), scrubWords (scrubUnit memory bank) ≠ 0 ∧
      s.node.scrubRuns (scrubUnit memory bank) = true ∧
      s.node.scrubAddr (scrubUnit memory bank) (s.node.mem.scrubPos.getD (scrubUnit memory bank) 0) = none) ∧
    (∃ (s : State) (memory bank err errCheck : Nat) (beaten : Bool) (a : Nat), scrubWords (scrubUnit memory bank) ≠ 0 ∧
      s.node.scrubRuns (scrubUnit memory bank) = true ∧
      s.node.scrubAddr (scrubUnit memory bank) (s.node.mem.scrubPos.getD (scrubUnit memory bank) 0) = some a) ∧
    (∃ (s : State) (a err sym t : Nat), s.node.mem.reread.look a = some (sym, t)) ∧
    (∃ (s : State) (a err sym t k : Nat), s.node.mem.reread.look a = some (sym, t)) ∧
    (∃ (s : State) (a err sym t : Nat), s.node.mem.reread.look a = some (sym, t)) ∧
    (∃ (n : Node) (a : Nat) (upset : BitVec 76) (isl : Nat) (beaten : Bool) (c k : Nat), memOf a = some c ∧
      decodeErr (n.mem.err.getD (wordOf a) 0 ^^^ upset) = .clean) ∧
    (∃ (n : Node) (a : Nat) (upset : BitVec 76) (isl : Nat) (beaten : Bool) (c k : Nat), memOf a = some c ∧
      decodeErr (n.mem.err.getD (wordOf a) 0 ^^^ upset) = .corrected k) ∧
    (∃ (n : Node) (a : Nat) (upset : BitVec 76) (isl : Nat) (beaten : Bool) (c k : Nat), memOf a = some c ∧
      decodeErr (n.mem.err.getD (wordOf a) 0 ^^^ upset) = .uncorrectable) ∧
    (∃ (n : Node) (a : Nat) (upset : BitVec 76) (isl : Nat) (beaten : Bool) (c k : Nat), memOf a = some c ∧
      decodeErr (n.mem.err.getD (wordOf a) 0 ^^^ upset) = .poison) ∧
    (∃ (s : State) (row : Nat), s.node.mem.copyingRows.contains row = true) ∧
    (∃ (s : State) (page : Nat), s.node.mem.copyingPages.contains page = true) :=
  ⟨⟨up id, 1, 2, 0x10000000, 7, true, false, 0, 0, 0, 0, by decide⟩,
   ⟨up (fun n => n.updIsland 2 (fun x => { x with st := .held })), 1, 2, 0x10000000, 7, true, false, 0, 0, 0, 0, by decide⟩,
   ⟨up (fun n => n.updIsland 1 (fun x => { x with st := .held })), 1, 2, 0x10000000, 7, true, false, 0, 0, 0, 0, by decide⟩,
   ⟨up id, 1, 7, 0x40000000, 7, true, false, 0, 0, 0, 0, by decide⟩,
   ⟨up (fun n => { n with mem := { n.mem with scrubPos := [(3, 65536)] } }), 0, 3, 1, 0, false, by decide⟩,
   ⟨up id, 0, 3, 1, 0, false, 0x10180000, by decide⟩,
   ⟨up (fun n => { n with mem := { n.mem with reread := [(0x10000000, 4, 1)] } }), 0x10000000, 1, 4, 1, by decide⟩,
   ⟨up (fun n => { n with mem := { n.mem with reread := [(0x10000000, 4, 1)] } }), 0x10000000, 1, 4, 1, 0, by decide⟩,
   ⟨up (fun n => { n with mem := { n.mem with reread := [(0x10000000, 4, 1)] } }), 0x10000000, 1, 4, 1, by decide⟩,
   ⟨({} : Node), 0x10000000, 0, 2, false, 0, 0, by decide⟩,
   ⟨({} : Node), 0x10000000, 1, 2, false, 0, 0, by decide⟩,
   ⟨({ mem := { err := [(0x10000000, 0x11)] } } : Node), 0x10000000, 0, 2, false, 0, 0, by decide⟩,
   ⟨({ mem := { err := [(0x10000000, poisonErr)] } } : Node), 0x10000000, 0, 2, false, 0, 0, by decide⟩,
   ⟨up (fun n => { n with mem := { n.mem with copyingRows := [0x10000000] } }), 0x10000000, by decide⟩,
   ⟨up (fun n => { n with mem := { n.mem with copyingPages := [0x10000000] } }), 0x10000000, by decide⟩⟩

set_option maxRecDepth 20000 in
/-- The hypotheses of every clause of PowerUpStagesComplete are met. -/
theorem witness_PowerUpStagesComplete :
    (∃ (s : State) (below : Bool), s.node.power.stage = .off ∧ (s.node.power.ovHold = false ∨ below = true)) ∧
    (∃ (s : State), s.node.power.stage = .t0) ∧
    (∃ (s : State) (rise : Bool × List (Nat × Nat)), s.node.power.stage = .t1 ∧ s.node.power.nrstLow = false) ∧
    (∃ (s : State), s.node.power.stage = .t2) ∧
    (∃ (s : State), s.node.power.stage = .t3) ∧
    (∃ (s : State) (mV : Nat) (field : Bool) (testA testB : Nat), s.node.power.stage = .t4) ∧
    (∃ (s : State), s.node.power.bypassClosed = true ∧ s.node.runs Isl.line = true ∧ s.node.power.phyPowered = true ∧ s.node.power.lvLow = false ∧
      s.node.power.tap ≤ 60000 ∧ s.node.power.stage.up = true) :=
  ⟨⟨up (fun n => { n with power := { n.power with stage := .off } }), true, by decide⟩,
   ⟨up (fun n => { n with power := { n.power with stage := .t0 } }), by decide⟩,
   ⟨up (fun n => { n with power := { n.power with stage := .t1 } }), (true, [(0, 7)]), by decide⟩,
   ⟨up (fun n => { n with power := { n.power with stage := .t2 } }), by decide⟩,
   ⟨up (fun n => { n with power := { n.power with stage := .t3 } }), by decide⟩,
   ⟨up (fun n => { n with power := { n.power with stage := .t4 } }), 24000, true, 0, 0, by decide⟩,
   ⟨up (fun n => { n with power := { n.power with stage := .t5, phyPowered := true } }), by decide⟩⟩

set_option maxRecDepth 20000 in
/-- The hypotheses of every clause of PowerDownEventsComplete are met. -/
theorem witness_PowerDownEventsComplete :
    (∃ (s : State), s.node.power.stage ≠ .off ∧ s.node.power.stage ≠ .t0 ∧ s.node.power.stage ≠ .thermalWait ∧ s.node.power.stage ≠ .downT1 ∧
      s.node.power.stage ≠ .downT2 ∧ s.node.power.stage ≠ .downT3) ∧
    (∃ (s : State), (s.node.power.stage = .t0 ∨ s.node.power.stage = .thermalWait)) ∧
    (∃ (s : State), s.node.power.stage ≠ .off ∧ s.node.power.stage ≠ .t0 ∧ s.node.power.stage ≠ .thermalWait ∧ s.node.power.stage ≠ .downT1 ∧
      s.node.power.stage ≠ .downT2 ∧ s.node.power.stage ≠ .downT3) ∧
    (∃ (s : State), s.node.power.stage ≠ .off ∧ s.node.power.stage ≠ .t0 ∧ s.node.power.stage ≠ .thermalWait ∧ s.node.power.stage ≠ .downT1 ∧
      s.node.power.stage ≠ .downT2 ∧ s.node.power.stage ≠ .downT3) ∧
    (∃ (s : State), s.node.power.stage = .downT1) ∧
    (∃ (s : State), s.node.power.stage = .downT2 ∧ s.node.rcd.downDurable = true) ∧
    (∃ (s : State), s.node.power.lvLow = false ∧ s.node.power.stage ≠ .off) ∧
    (∃ (s : State), (s.node.power.stage = .off ∨ s.node.power.stage = .t0 ∨ s.node.power.stage = .thermalWait)) ∧
    (∃ (s : State), (s.node.power.stage = .downT1 ∨ s.node.power.stage = .downT2)) ∧
    (∃ (s : State), s.node.power.stage ≠ .off ∧ s.node.power.stage ≠ .t0 ∧ s.node.power.stage ≠ .thermalWait ∧ s.node.power.stage ≠ .downT1 ∧
      s.node.power.stage ≠ .downT2 ∧ s.node.power.stage ≠ .downT3) ∧
    (∃ (s : State), s.node.power.stage = .off) ∧
    (∃ (s : State), s.node.power.stage ≠ .off) ∧
    (∃ (s : State), s.node.power.vauxOn = true) ∧
    (∃ (s : State), s.node.power.vauxRetry = true) ∧
    (∃ (s : State), s.node.power.dieHigh = false ∧ s.node.power.stage ≠ .off ∧ s.node.power.stage ≠ .t0) ∧
    (∃ (s : State), s.node.power.stage = .thermalWait) :=
  ⟨⟨up id, by decide⟩,
   ⟨up (fun n => { n with power := { n.power with stage := .t0 } }), by decide⟩,
   ⟨up id, by decide⟩,
   ⟨up id, by decide⟩,
   ⟨up (fun n => { n with power := { n.power with stage := .downT1 } }), by decide⟩,
   ⟨up (fun n => { n with power := { n.power with stage := .downT2 } }), by decide⟩,
   ⟨up id, by decide⟩,
   ⟨up (fun n => { n with power := { n.power with stage := .t0 } }), by decide⟩,
   ⟨up (fun n => { n with power := { n.power with stage := .downT1 } }), by decide⟩,
   ⟨up id, by decide⟩,
   ⟨up (fun n => { n with power := { n.power with stage := .off } }), by decide⟩,
   ⟨up id, by decide⟩,
   ⟨up (fun n => { n with power := { n.power with vauxOn := true } }), by decide⟩,
   ⟨up (fun n => { n with power := { n.power with vauxRetry := true } }), by decide⟩,
   ⟨up id, by decide⟩,
   ⟨up (fun n => { n with power := { n.power with stage := .thermalWait } }), by decide⟩⟩

set_option maxRecDepth 20000 in
/-- The hypotheses of every clause of HostTransportsComplete are met. -/
theorem witness_HostTransportsComplete :
    (∃ (s : State) (frame : List Nat), s.node.ifaceOn = true ∧ s.node.lineHeld = false ∧ u8 (toBytes frame) 0 = 0x02 ∧ 1 ≤ (u16 (toBytes frame) 4) ∧
      (u16 (toBytes frame) 4) ≤ 512 ∧ 9 + (u16 (toBytes frame) 4) ≤ (toBytes frame).length ∧
      u16 (toBytes frame) (6 + (u16 (toBytes frame) 4)) = (crc16 ((toBytes frame).take (6 + (u16 (toBytes frame) 4)))).toNat ∧
      regSpan (leNat (slice (toBytes frame) 1 3)) (u16 (toBytes frame) 4) = true) ∧
    (∃ (s : State) (frame : List Nat), s.node.ifaceOn = true ∧ s.node.lineHeld = false ∧ u8 (toBytes frame) 0 = 0x02 ∧ 1 ≤ (u16 (toBytes frame) 4) ∧
      (u16 (toBytes frame) 4) ≤ 512 ∧ 9 + (u16 (toBytes frame) 4) ≤ (toBytes frame).length ∧
      u16 (toBytes frame) (6 + (u16 (toBytes frame) 4)) = (crc16 ((toBytes frame).take (6 + (u16 (toBytes frame) 4)))).toNat ∧
      regSpan (leNat (slice (toBytes frame) 1 3)) (u16 (toBytes frame) 4) = false ∧
      apSpan (leNat (slice (toBytes frame) 1 3)) (u16 (toBytes frame) 4) = true) ∧
    (∃ (s : State) (frame : List Nat), s.node.ifaceOn = true ∧ s.node.lineHeld = false ∧ u8 (toBytes frame) 0 = 0x0B ∧ 1 ≤ (u16 (toBytes frame) 4) ∧
      (u16 (toBytes frame) 4) ≤ 512 ∧ 7 ≤ (toBytes frame).length ∧ regSpan (leNat (slice (toBytes frame) 1 3)) (u16 (toBytes frame) 4) = true) ∧
    (∃ (s : State) (frame : List Nat), s.node.ifaceOn = true ∧ s.node.lineHeld = false ∧ u8 (toBytes frame) 0 = 0x0B ∧ 1 ≤ (u16 (toBytes frame) 4) ∧
      (u16 (toBytes frame) 4) ≤ 512 ∧ 7 ≤ (toBytes frame).length ∧ regSpan (leNat (slice (toBytes frame) 1 3)) (u16 (toBytes frame) 4) = false ∧
      apSpan (leNat (slice (toBytes frame) 1 3)) (u16 (toBytes frame) 4) = true) ∧
    (∃ (s : State) (svc : Bool) (v : Nat), s.node.ifaceOn = true ∧ (svc = true ∨ s.node.lineHeld = false)) ∧
    (∃ (s : State) (svc : Bool) (v : Nat), s.node.ifaceOn = true ∧ (svc = true ∨ s.node.lineHeld = false)) ∧
    (∃ (s : State) (svc : Bool) (off v : Nat), s.node.ifaceOn = true ∧ (svc = true ∨ s.node.lineHeld = false) ∧ off ≠ 0x08 ∧ off ≠ 0x10) ∧
    (∃ (s : State) (frame : List Nat) (x : Nat × Nat × Nat × Bool), s.node.power.stage ≠ .off ∧ s.node.power.stage ≠ .t0 ∧
      svcGood (toBytes frame) 0 = true ∧ svcArray (u32 (toBytes frame) 1) (8 * u8 (toBytes frame) 5) = some x ∧ u8 (toBytes frame) 0 = 0x31 ∧
      1 ≤ (8 * u8 (toBytes frame) 5) ∧ (8 * u8 (toBytes frame) 5) ≤ 512 ∧ ((u32 (toBytes frame) 1) < 0x70000000 ∨ (u32 (toBytes frame) 1) % 4 = 0) ∧
      ((s.node.touchLatch (u32 (toBytes frame) 1) (u8 (toBytes frame) 0)).raise 5).arrayOff x.2.2.1 = false) ∧
    (∃ (s : State) (frame : List Nat) (x : Nat × Nat × Nat × Bool), s.node.power.stage ≠ .off ∧ s.node.power.stage ≠ .t0 ∧
      svcGood (toBytes frame) (8 * u8 (toBytes frame) 5) = true ∧ svcArray (u32 (toBytes frame) 1) (8 * u8 (toBytes frame) 5) = some x ∧
      u8 (toBytes frame) 0 = 0x32 ∧ 1 ≤ (8 * u8 (toBytes frame) 5) ∧ (8 * u8 (toBytes frame) 5) ≤ 512 ∧
      ((u32 (toBytes frame) 1) < 0x70000000 ∨ (u32 (toBytes frame) 1) % 4 = 0) ∧
      ((s.node.touchLatch (u32 (toBytes frame) 1) (u8 (toBytes frame) 0)).raise 5).arrayOff x.2.2.1 = false ∧ x.2.2.2 = true) ∧
    (∃ (s : State) (src : Nat) (frame : List Nat), s.node.runs Isl.line = true ∧
      (s.node.raise 2).bankRuns (bankOf (mbxAddr (u16 (toBytes frame) 6 / 16 % 16))) = true ∧ 16 ≤ (toBytes frame).length ∧
      (s.node.mbx (u16 (toBytes frame) 6 / 16 % 16)).st ≠ .posted ∧ (s.node.mbx (u16 (toBytes frame) 6 / 16 % 16)).st ≠ .executing ∧
      (s.node.raise 2).lineFits (u16 (toBytes frame) 6 / 16 % 16) (toBytes frame) = true) ∧
    (∃ (s : State) (p m : Nat), s.node.executing < 8 ∧ s.node.power.stage ≠ .bootFailed ∧ s.node.coresRun = true ∧ s.node.host.nextPosted = some (p, m)) ∧
    (∃ (s : State) (id : Nat) (x : Session), s.node.host.sessions.look id = some x ∧ x.halfOpen = true) ∧
    (∃ (s : State) (id : Nat) (x : Session), s.node.host.sessions.look id = some x ∧ x.halfOpen = false ∧ x.ended = false) :=
  ⟨⟨up id, [2, 20, 0, 0, 4, 0, 1, 0, 0, 0, 183, 128, 0], by decide⟩,
   ⟨up id, [2, 255, 255, 1, 1, 0, 1, 152, 206, 0], by decide⟩,
   ⟨up id, [11, 4, 0, 0, 4, 0, 0], by decide⟩,
   ⟨up id, [11, 0, 0, 1, 2, 0, 0], by decide⟩,
   ⟨up id, false, 65535, by decide⟩,
   ⟨up id, false, 65535, by decide⟩,
   ⟨up id, true, 0x14, 65535, by decide⟩,
   ⟨up id, [49, 0, 0, 0, 16, 1, 110, 119], (0x10000000, 0x600000, 2, true), by decide⟩,
   ⟨up id, [50, 16, 0, 0, 112, 1, 1, 0, 0, 0, 0, 0, 0, 0, 85, 97], (0x70000000, 0x20, 0, true), by decide⟩,
   ⟨up id, 0x20, [0, 1, 5, 0, 0, 0, 0x12, 0, 9, 0, 0, 0, 1, 0, 0, 0, 1, 2, 3, 4, 5, 6, 7, 8, 9, 10, 11, 12, 13, 14, 15, 16], by decide⟩,
   ⟨up (fun n => { n with host := { n.host with posted := [(1, [16])] } }), 1, 16, by decide⟩,
   ⟨up (fun n => { n with host := { n.host with sessions := [(9, { path := 1, halfOpen := true })] } }), 9, ({ path := 1, halfOpen := true } : Session), by decide⟩,
   ⟨up (fun n => { n with host := { n.host with sessions := [(9, { path := 1, halfOpen := false })] } }), 9, ({ path := 1, halfOpen := false } : Session), by decide⟩⟩

set_option maxRecDepth 20000 in
/-- The hypotheses of every clause of NodeCommandsComplete are met. -/
theorem witness_NodeCommandsComplete :
    (∃ (s : State) (path idx : Nat) (pl : List Byte), Serves s.node Cmd.nodeIdent path idx pl ∧ Passes [badLen pl 0]) ∧
    (∃ (s : State) (path idx : Nat) (pl : List Byte), Serves s.node Cmd.nodeStatus path idx pl ∧ Passes [badLen pl 0]) ∧
    (∃ (s : State) (path idx : Nat) (pl img : List Byte), Serves s.node Cmd.configRead path idx pl ∧
      Passes [badLen pl 8, badIn (u16 pl 4) 1 468 4, badRes pl 6 2] ∧
      ((if u32 pl 0 = 0 then some (s.node.begun path idx).configImage else (s.node.begun path idx).sec.snapshot) = some img)) ∧
    (∃ (s : State) (path idx : Nat) (pl : List Byte), Serves s.node Cmd.configWrite path idx pl ∧
      (Passes [((if u8 pl 0 = 1 then pl.length != 80 else decide (pl.length < 9)), Rs.lengthBad, 0), badIn (u8 pl 0) 0 1 0, (decide (2 ≤ u8 pl 1), Rs.paramReserved, 1), badRes pl 2 2]) ∧
      u8 pl 0 = 0 ∧ (s.node.begun path idx).cfgRo = false ∧
      Passes [badRange (u32 pl 4 != 0 && u32 pl 4 != (s.node.begun path idx).sec.cfgStaged.length) 4]) ∧
    (∃ (s : State) (path idx : Nat) (pl : List Byte), Serves s.node Cmd.configWrite path idx pl ∧
      (Passes [((if u8 pl 0 = 1 then pl.length != 80 else decide (pl.length < 9)), Rs.lengthBad, 0), badIn (u8 pl 0) 0 1 0, (decide (2 ≤ u8 pl 1), Rs.paramReserved, 1), badRes pl 2 2]) ∧
      u8 pl 0 ≠ 0 ∧ (s.node.begun path idx).cfgRo = false ∧
      Passes [badRange (!bit (u8 pl 1) 0 && !zeroAt pl 8 72) 8, (bit (u8 pl 1) 0 && !(s.node.begun path idx).ownerSigned (u64 pl 8) (slice pl 16 64), Rs.signatureInvalid, 0), badRange (!cfgHeaderOk (s.node.begun path idx).sec.cfgStaged) 0]) ∧
    (∃ (s : State) (path idx : Nat) (pl : List Byte), Serves s.node Cmd.nodeReset path idx pl ∧
      (Passes ([badLen pl 4, badIn (u8 pl 0) 0 1 0, badRes pl 1 3] ++ (if u8 pl 0 = 0 then (s.node.begun path idx).opRefusals Isl.core .reset else []))) ∧
      u8 pl 0 = 0) ∧
    (∃ (s : State) (path idx : Nat) (pl : List Byte), Serves s.node Cmd.nodeReset path idx pl ∧
      (Passes ([badLen pl 4, badIn (u8 pl 0) 0 1 0, badRes pl 1 3] ++ (if u8 pl 0 = 0 then (s.node.begun path idx).opRefusals Isl.core .reset else []))) ∧
      u8 pl 0 = 1) ∧
    (∃ (s : State) (late : Bool), s.node.host.resetPending = true ∧ s.node.axisMoves = false) ∧
    (∃ (s : State) (late : Bool), s.node.host.resetPending = true ∧ s.node.axisMoves = true ∧ late = true) ∧
    (∃ (s : State) (path idx : Nat) (pl : List Byte), Serves s.node Cmd.healthRead path idx pl ∧
      Passes [badLen pl 4, badIn (u8 pl 0) 0 3 0, badRes pl 1 3]) :=
  ⟨⟨served Cmd.nodeIdent ([]) id, 1, 0, ([] : List Byte), by decide⟩,
   ⟨served Cmd.nodeStatus ([]) id, 1, 0, ([] : List Byte), by decide⟩,
   ⟨served Cmd.configRead ([2, 0, 0, 0, 1, 0, 0, 0]) (fun n => { n with sec := { n.sec with snapshot := some [1, 2, 3] } }), 1, 0, ([2, 0, 0, 0, 1, 0, 0, 0] : List Byte), ([1, 2, 3] : List Byte), by decide⟩,
   ⟨served Cmd.configWrite ([0, 0, 0, 0, 0, 0, 0, 0, 7]) id, 1, 0, ([0, 0, 0, 0, 0, 0, 0, 0, 7] : List Byte), by decide⟩,
   ⟨served Cmd.configWrite ([1] ++ List.replicate 79 0) (fun n => { n with sec := { n.sec with cfgStaged := goodImage } }), 1, 0, ([1] ++ List.replicate 79 0 : List Byte), by decide⟩,
   ⟨served Cmd.nodeReset ([0, 0, 0, 0]) id, 1, 0, ([0, 0, 0, 0] : List Byte), by decide⟩,
   ⟨served Cmd.nodeReset ([1, 0, 0, 0]) id, 1, 0, ([1, 0, 0, 0] : List Byte), by decide⟩,
   ⟨up (fun n => { n with host := { n.host with resetPending := true } }), false, by decide⟩,
   ⟨up (fun n => { n with host := { n.host with resetPending := true }, axes := [(0, { st := .moving })] }), true, by decide⟩,
   ⟨served Cmd.healthRead ([3, 0, 0, 0]) id, 1, 0, ([3, 0, 0, 0] : List Byte), by decide⟩⟩

set_option maxRecDepth 20000 in
/-- The hypotheses of every clause of ChannelCommandsComplete are met. -/
theorem witness_ChannelCommandsComplete :
    (∃ (s : State) (path idx : Nat) (pl : List Byte), Serves s.node Cmd.chanRead path idx pl ∧
      Passes ([(decide (pl.length < 4), Rs.lengthBad, 0), badIn (u16 pl 0) 1 23 0, badLen pl (4 + 2 * u16 pl 0), badRes pl 2 2] ++ (List.range (u16 pl 0)).map (fun i => badStall pl (4 + 2 * i)))) ∧
    (∃ (s : State) (path idx : Nat) (pl : List Byte), Serves s.node Cmd.chanWrite path idx pl ∧
      (Passes [badLen pl 20, badStall pl 0, badRes pl 2 2, (((s.node.begun path idx).stall (u16 pl 0)).st == .fallow, Rs.chanFallow, 0), (((s.node.begun path idx).stall (u16 pl 0)).st != .running && ((s.node.begun path idx).stall (u16 pl 0)).st != .hold, Rs.busy, 0), (((s.node.begun path idx).stall (u16 pl 0)).readOnly, Rs.paramRange, 0), (!((s.node.begun path idx).stall (u16 pl 0)).takesWrite (BitVec.ofNat 64 (u64 pl 4)), Rs.paramRange, 4), (u64 pl 12 != 0 && decide (u64 pl 12 < (s.node.begun path idx).now ∨ (s.node.begun path idx).now + sec 60 < u64 pl 12), Rs.paramRange, 12)]) ∧
      u64 pl 12 = 0) ∧
    (∃ (s : State) (path idx : Nat) (pl : List Byte), Serves s.node Cmd.chanWrite path idx pl ∧
      (Passes [badLen pl 20, badStall pl 0, badRes pl 2 2, (((s.node.begun path idx).stall (u16 pl 0)).st == .fallow, Rs.chanFallow, 0), (((s.node.begun path idx).stall (u16 pl 0)).st != .running && ((s.node.begun path idx).stall (u16 pl 0)).st != .hold, Rs.busy, 0), (((s.node.begun path idx).stall (u16 pl 0)).readOnly, Rs.paramRange, 0), (!((s.node.begun path idx).stall (u16 pl 0)).takesWrite (BitVec.ofNat 64 (u64 pl 4)), Rs.paramRange, 4), (u64 pl 12 != 0 && decide (u64 pl 12 < (s.node.begun path idx).now ∨ (s.node.begun path idx).now + sec 60 < u64 pl 12), Rs.paramRange, 12)]) ∧
      u64 pl 12 ≠ 0) ∧
    (∃ (s : State) (path idx : Nat) (pl : List Byte), Serves s.node Cmd.stallRead path idx pl ∧ Passes [badLen pl 4, badStall pl 0, badRes pl 2 2]) ∧
    (∃ (s : State) (path idx : Nat) (pl : List Byte), Serves s.node Cmd.stallWrite path idx pl ∧
      (Passes [badLen pl 68, badStall pl 0, badRes pl 2 2, (((s.node.begun path idx).stall (u16 pl 0)).active, Rs.chanBusy, 0), (((s.node.begun path idx).stall (u16 pl 0)).st == .fallow && decide (u16 pl 0 < 64), Rs.chanFallow, 0), (((s.node.begun path idx).stall (u16 pl 0)).isSpare, Rs.busy, 0), (!K.known (u8 (slice pl 4 64) 0) || (if u16 pl 0 < 64 then decide (u8 (slice pl 4 64) 0 ≠ fixedKind (u16 pl 0)) else decide (0 < u8 (slice pl 4 64) 0 ∧
      u8 (slice pl 4 64) 0 < 0x10)), Rs.paramRange, 4), ((reservedStall (slice pl 4 64)).isSome, Rs.paramReserved, 4 + (reservedStall (slice pl 4 64)).getD 0)]) ∧
      (s.node.begun path idx).cfgRo = false) ∧
    (∃ (s : State) (path idx : Nat) (pl : List Byte), Serves s.node Cmd.chanStart path idx pl ∧
      Passes [badLen pl 4, badStall pl 0, badRes pl 2 2, (((s.node.begun path idx).stall (u16 pl 0)).active, Rs.chanBusy, 0), (((s.node.begun path idx).stall (u16 pl 0)).st == .fallow, Rs.chanFallow, 0)] ∧
      ((s.node.begun path idx).tryStart (u16 pl 0)).1 = none) ∧
    (∃ (s : State) (path idx : Nat) (pl : List Byte), Serves s.node Cmd.chanStop path idx pl ∧
      Passes [badLen pl 4, badStall pl 0, badRes pl 2 2, (((s.node.begun path idx).stall (u16 pl 0)).st == .fallow, Rs.chanFallow, 0)] ∧
      ((s.node.begun path idx).stall (u16 pl 0)).active = true) ∧
    (∃ (s : State) (path idx : Nat) (pl : List Byte), Serves s.node Cmd.chanStop path idx pl ∧
      Passes [badLen pl 4, badStall pl 0, badRes pl 2 2, (((s.node.begun path idx).stall (u16 pl 0)).st == .fallow, Rs.chanFallow, 0)] ∧
      ((s.node.begun path idx).stall (u16 pl 0)).active = false) ∧
    (∃ (s : State) (path idx : Nat) (pl : List Byte), Serves s.node Cmd.chanSpare path idx pl ∧
      (Passes [badLen pl 4, badStall pl 0, (decide (numStalls ≤ u16 pl 2 ∧ u16 pl 2 < 0xFFFE), Rs.paramRange, 2)]) ∧ u16 pl 2 < numStalls ∧
      Passes [(((s.node.begun path idx).stall (u16 pl 0)).kd != ((s.node.begun path idx).stall (u16 pl 2)).kd || u16 pl 0 == u16 pl 2, Rs.chanInvalid, 0), (((s.node.begun path idx).stall (u16 pl 2)).active, Rs.chanBusy, 0), (((s.node.begun path idx).stall (u16 pl 2)).st == .fallow, Rs.chanFallow, 0), (((s.node.begun path idx).stall (u16 pl 2)).isSpare, Rs.busy, 0), (decide (((s.node.begun path idx).stall (u16 pl 0)).spare.toNat < numStalls), Rs.busy, 0)] ∧
      (s.node.begun path idx).cfgRo = false) ∧
    (∃ (s : State) (path idx : Nat) (pl : List Byte), Serves s.node Cmd.chanSpare path idx pl ∧
      (Passes [badLen pl 4, badStall pl 0, (decide (numStalls ≤ u16 pl 2 ∧ u16 pl 2 < 0xFFFE), Rs.paramRange, 2)]) ∧ u16 pl 2 = 0xFFFE ∧
      Passes [(decide (numStalls ≤ ((s.node.begun path idx).stall (u16 pl 0)).spare.toNat), Rs.notFound, 0)] ∧ (s.node.begun path idx).cfgRo = false) ∧
    (∃ (s : State) (path idx : Nat) (pl : List Byte), Serves s.node Cmd.chanSpare path idx pl ∧
      (Passes [badLen pl 4, badStall pl 0, (decide (numStalls ≤ u16 pl 2 ∧ u16 pl 2 < 0xFFFE), Rs.paramRange, 2)]) ∧ u16 pl 2 = 0xFFFF ∧
      Passes [(((s.node.begun path idx).spareOf (u16 pl 0)).isNone, Rs.noSpare, 0)] ∧ (s.node.begun path idx).cfgRo = false) :=
  ⟨⟨served Cmd.chanRead ([1, 0, 0, 0, 2, 0]) id, 1, 0, ([1, 0, 0, 0, 2, 0] : List Byte), by decide⟩,
   ⟨served Cmd.chanWrite ([16, 0, 0, 0, 1, 0, 0, 0, 0, 0, 0, 0, 0, 0, 0, 0, 0, 0, 0, 0]) (fun n => n.setStall 16 { n.stall 16 with st := .running }), 1, 0, ([16, 0, 0, 0, 1, 0, 0, 0, 0, 0, 0, 0, 0, 0, 0, 0, 0, 0, 0, 0] : List Byte), by decide⟩,
   ⟨served Cmd.chanWrite ([16, 0, 0, 0, 1, 0, 0, 0, 0, 0, 0, 0] ++ leBytes 8 1000000000) (fun n => n.setStall 16 { n.stall 16 with st := .running }), 1, 0, ([16, 0, 0, 0, 1, 0, 0, 0, 0, 0, 0, 0] ++ leBytes 8 1000000000 : List Byte), by decide⟩,
   ⟨served Cmd.stallRead ([0xFF, 3, 0, 0]) id, 1, 0, ([0xFF, 3, 0, 0] : List Byte), by decide⟩,
   ⟨served Cmd.stallWrite ([0x40, 0, 0, 0] ++ List.replicate 64 0) id, 1, 0, ([0x40, 0, 0, 0] ++ List.replicate 64 0 : List Byte), by decide⟩,
   ⟨served Cmd.chanStart ([16, 0, 0, 0]) (fun n => n), 1, 0, ([16, 0, 0, 0] : List Byte), by decide⟩,
   ⟨served Cmd.chanStop ([16, 0, 0, 0]) (fun n => n.setStall 16 { n.stall 16 with st := .running }), 1, 0, ([16, 0, 0, 0] : List Byte), by decide⟩,
   ⟨served Cmd.chanStop ([16, 0, 0, 0]) id, 1, 0, ([16, 0, 0, 0] : List Byte), by decide⟩,
   ⟨served Cmd.chanSpare ([16, 0, 17, 0]) id, 1, 0, ([16, 0, 17, 0] : List Byte), by decide⟩,
   ⟨served Cmd.chanSpare ([16, 0, 0xFE, 0xFF]) (fun n => (n.setStall 16 { n.stall 16 with spare := 17 }).setStall 17 { n.stall 17 with flags := 2 }), 1, 0, ([16, 0, 0xFE, 0xFF] : List Byte), by decide⟩,
   ⟨served Cmd.chanSpare ([16, 0, 0xFF, 0xFF]) (fun n => (n.setStall 16 { n.stall 16 with spare := 17 }).setStall 17 { n.stall 17 with flags := 2 }), 1, 0, ([16, 0, 0xFF, 0xFF] : List Byte), by decide⟩⟩

set_option maxRecDepth 20000 in
/-- The hypotheses of every clause of IoAndAnalogCommandsComplete are met. -/
theorem witness_IoAndAnalogCommandsComplete :
    (∃ (s : State) (path idx : Nat) (pl : List Byte), Serves s.node Cmd.ioWatchdog path idx pl ∧
      (Passes ([badIn (u8 pl 0) 0 3 0, badLen pl (if decide (u8 pl 0 = 0) = true then 20 else 4)] ++ (if decide (u8 pl 0 = 0) = true then [badIn (u8 pl 1) 0 1 1, badIn (u16 pl 2) 0 1000 2] ++ (List.range 16).map (fun i => badRange (decide (2 < u8 pl (4 + i)) && u8 pl (4 + i) != 0xFF) (4 + i)) ++ (List.range 16).map (fun i => (u8 pl (4 + i) != 0xFF && ((s.node.begun path idx).stall ((s.node.begun path idx).outStall i)).active && ((s.node.begun path idx).stall ((s.node.begun path idx).outStall i)).safeState != u8 pl (4 + i), Rs.chanBusy, 4 + i)) else [badRes pl 1 3, badRange (u8 pl 0 == 1 && (s.node.begun path idx).fio.wdSource == 0) 0, (u8 pl 0 == 1 && (s.node.begun path idx).fio.wdSt == .expired, Rs.busy, 0)]))) ∧
      u8 pl 0 = 0 ∧ (s.node.begun path idx).cfgRo = false) ∧
    (∃ (s : State) (path idx : Nat) (pl : List Byte), Serves s.node Cmd.ioWatchdog path idx pl ∧
      (Passes ([badIn (u8 pl 0) 0 3 0, badLen pl (if decide (u8 pl 0 = 0) = true then 20 else 4)] ++ (if decide (u8 pl 0 = 0) = true then [badIn (u8 pl 1) 0 1 1, badIn (u16 pl 2) 0 1000 2] ++ (List.range 16).map (fun i => badRange (decide (2 < u8 pl (4 + i)) && u8 pl (4 + i) != 0xFF) (4 + i)) ++ (List.range 16).map (fun i => (u8 pl (4 + i) != 0xFF && ((s.node.begun path idx).stall ((s.node.begun path idx).outStall i)).active && ((s.node.begun path idx).stall ((s.node.begun path idx).outStall i)).safeState != u8 pl (4 + i), Rs.chanBusy, 4 + i)) else [badRes pl 1 3, badRange (u8 pl 0 == 1 && (s.node.begun path idx).fio.wdSource == 0) 0, (u8 pl 0 == 1 && (s.node.begun path idx).fio.wdSt == .expired, Rs.busy, 0)]))) ∧
      u8 pl 0 = 1) ∧
    (∃ (s : State) (path idx : Nat) (pl : List Byte), Serves s.node Cmd.ioWatchdog path idx pl ∧
      (Passes ([badIn (u8 pl 0) 0 3 0, badLen pl (if decide (u8 pl 0 = 0) = true then 20 else 4)] ++ (if decide (u8 pl 0 = 0) = true then [badIn (u8 pl 1) 0 1 1, badIn (u16 pl 2) 0 1000 2] ++ (List.range 16).map (fun i => badRange (decide (2 < u8 pl (4 + i)) && u8 pl (4 + i) != 0xFF) (4 + i)) ++ (List.range 16).map (fun i => (u8 pl (4 + i) != 0xFF && ((s.node.begun path idx).stall ((s.node.begun path idx).outStall i)).active && ((s.node.begun path idx).stall ((s.node.begun path idx).outStall i)).safeState != u8 pl (4 + i), Rs.chanBusy, 4 + i)) else [badRes pl 1 3, badRange (u8 pl 0 == 1 && (s.node.begun path idx).fio.wdSource == 0) 0, (u8 pl 0 == 1 && (s.node.begun path idx).fio.wdSt == .expired, Rs.busy, 0)]))) ∧
      u8 pl 0 = 2) ∧
    (∃ (s : State) (path idx : Nat) (pl : List Byte), Serves s.node Cmd.ioWatchdog path idx pl ∧
      (Passes ([badIn (u8 pl 0) 0 3 0, badLen pl (if decide (u8 pl 0 = 0) = true then 20 else 4)] ++ (if decide (u8 pl 0 = 0) = true then [badIn (u8 pl 1) 0 1 1, badIn (u16 pl 2) 0 1000 2] ++ (List.range 16).map (fun i => badRange (decide (2 < u8 pl (4 + i)) && u8 pl (4 + i) != 0xFF) (4 + i)) ++ (List.range 16).map (fun i => (u8 pl (4 + i) != 0xFF && ((s.node.begun path idx).stall ((s.node.begun path idx).outStall i)).active && ((s.node.begun path idx).stall ((s.node.begun path idx).outStall i)).safeState != u8 pl (4 + i), Rs.chanBusy, 4 + i)) else [badRes pl 1 3, badRange (u8 pl 0 == 1 && (s.node.begun path idx).fio.wdSource == 0) 0, (u8 pl 0 == 1 && (s.node.begun path idx).fio.wdSt == .expired, Rs.busy, 0)]))) ∧
      u8 pl 0 = 3) ∧
    (∃ (s : State) (path idx : Nat) (pl : List Byte) (l : AdcList), Serves s.node Cmd.adcSequence path idx pl ∧
      l = ({ period := u32 pl 0, desc0 := u32 pl 4, desc1 := u32 pl 8, slots := (List.range (u8 pl 12)).map (slotAt pl) } : AdcList) ∧
      (Passes ([(decide (pl.length < 16), Rs.lengthBad, 0), badIn (u32 pl 0) 1 65535 0, badIn (u8 pl 12) 0 32 12, badRes pl 13 3, badLen pl (16 + 4 * u8 pl 12)] ++ (List.range (u8 pl 12)).flatMap (fun i => [badIn (u8 pl (16 + 4 * i)) 0 23 (16 + 4 * i), badIn (u8 pl (17 + 4 * i)) 0 1 (17 + 4 * i), badIn (u8 pl (18 + 4 * i)) 0 4 (18 + 4 * i), badIn (u8 pl (19 + 4 * i)) 0 1 (19 + 4 * i)]) ++ [badRange (decide (u32 pl 0 * 1000 < 500 * slotTime l.slots 0 ∨ u32 pl 0 * 1000 < 500 * slotTime l.slots 1)) 0, badRange (l.desc 0 != 0 && !(s.node.begun path idx).descOk (l.desc 0) 0 l.slots) 4, badRange (l.desc 1 != 0 && !(s.node.begun path idx).descOk (l.desc 1) 1 l.slots) 8, badRange (!(s.node.begun path idx).descsApart l.desc0 l.desc1) 8] ++ (List.range (u8 pl 12)).map (fun i => badRange ((slotAt pl i).ring && l.desc (slotAt pl i).conv == 0) (16 + 4 * i)) ++ [(((s.node.begun path idx).slotless l.slots).isSome, Rs.chanBusy, ((s.node.begun path idx).slotless l.slots).getD 0)])) ∧
      (s.node.begun path idx).cfgRo = false) :=
  ⟨⟨served Cmd.ioWatchdog ([0, 1, 244, 1, 255, 255, 255, 255, 255, 255, 255, 255, 255, 255, 255, 255, 255, 255, 255, 255]) id, 1, 0, ([0, 1, 244, 1, 255, 255, 255, 255, 255, 255, 255, 255, 255, 255, 255, 255, 255, 255, 255, 255] : List Byte), by decide⟩,
   ⟨served Cmd.ioWatchdog ([1, 0, 0, 0]) (fun n => { n with fio := { n.fio with wdSource := 1, wdSt := .armed } }), 1, 0, ([1, 0, 0, 0] : List Byte), by decide⟩,
   ⟨served Cmd.ioWatchdog ([2, 0, 0, 0]) id, 1, 0, ([2, 0, 0, 0] : List Byte), by decide⟩,
   ⟨served Cmd.ioWatchdog ([3, 0, 0, 0]) id, 1, 0, ([3, 0, 0, 0] : List Byte), by decide⟩,
   ⟨served Cmd.adcSequence ([100, 0, 0, 0, 0, 0, 0, 0, 0, 0, 0, 0, 1, 0, 0, 0, 3, 1, 2, 0]) id, 1, 0, ([100, 0, 0, 0, 0, 0, 0, 0, 0, 0, 0, 0, 1, 0, 0, 0, 3, 1, 2, 0] : List Byte), { period := 100, desc0 := 0, desc1 := 0, slots := [{ source := 3, conv := 1, avg := 2, ring := false }] }, by decide⟩⟩

set_option maxRecDepth 20000 in
/-- The hypotheses of every clause of RecipeCommandsComplete are met. -/
theorem witness_RecipeCommandsComplete :
    (∃ (s : State) (path idx : Nat) (pl : List Byte) (base : Option Nat), Serves s.node Cmd.recipeLoad path idx pl ∧
      (base = (if decide (u16 pl 4 = 0) = true then (s.node.begun path idx).freeRun (u8 pl 0) (if decide (u16 pl 4 = 0) = true then u16 pl 2 else (s.node.begun path idx).recLen (u8 pl 0)) else some ((s.node.begun path idx).recBase (u8 pl 0)))) ∧
      (Passes [(decide (pl.length < 8), Rs.lengthBad, 0), badRange (decide (14 < u16 pl 6) || (u16 pl 6 == 0 && !(decide (u16 pl 4 = 0) && (if decide (u16 pl 4 = 0) = true then u16 pl 2 else (s.node.begun path idx).recLen (u8 pl 0)) == 0))) 6, (pl.length != 8 + 32 * u16 pl 6 && !(decide (u16 pl 4 = 0) && (if decide (u16 pl 4 = 0) = true then u16 pl 2 else (s.node.begun path idx).recLen (u8 pl 0)) == 0), Rs.lengthBad, 0), badRange (decide (u16 pl 4 = 0) && decide (63 < u8 pl 1) && u8 pl 1 != 0xFF) 1, badRange (decide (u16 pl 4 = 0) && decide (4096 < (if decide (u16 pl 4 = 0) = true then u16 pl 2 else (s.node.begun path idx).recLen (u8 pl 0)))) 2, ((s.node.begun path idx).rcp.insts.any (fun e => e.2.recipe == u8 pl 0 && (e.2.st == .armed || e.2.st == .running || e.2.st == .held)), Rs.busy, 0), badRange (!(decide (u16 pl 4 = 0) && (if decide (u16 pl 4 = 0) = true then u16 pl 2 else (s.node.begun path idx).recLen (u8 pl 0)) == 0) && decide ((if decide (u16 pl 4 = 0) = true then u16 pl 2 else (s.node.begun path idx).recLen (u8 pl 0)) < u16 pl 4 + u16 pl 6)) 4, badRange (decide (u16 pl 4 = 0) && u8 pl 1 != 0xFF && (List.range 256).any (fun q => q != u8 pl 0 && (s.node.begun path idx).recAuto q == u8 pl 1)) 1, badRange (!(decide (u16 pl 4 = 0) && (if decide (u16 pl 4 = 0) = true then u16 pl 2 else (s.node.begun path idx).recLen (u8 pl 0)) == 0) && base.isNone && !(s.node.begun path idx).runLost (u8 pl 0) ((if decide (u16 pl 4 = 0) = true then u16 pl 2 else (s.node.begun path idx).recLen (u8 pl 0)))) 2]) ∧
      (s.node.begun path idx).partRo 3 = false ∧ u16 pl 4 = 0 ∧ u16 pl 2 = 0) ∧
    (∃ (s : State) (path idx : Nat) (pl : List Byte) (base : Option Nat) (b : Nat), Serves s.node Cmd.recipeLoad path idx pl ∧
      (base = (if decide (u16 pl 4 = 0) = true then (s.node.begun path idx).freeRun (u8 pl 0) (if decide (u16 pl 4 = 0) = true then u16 pl 2 else (s.node.begun path idx).recLen (u8 pl 0)) else some ((s.node.begun path idx).recBase (u8 pl 0)))) ∧
      (Passes [(decide (pl.length < 8), Rs.lengthBad, 0), badRange (decide (14 < u16 pl 6) || (u16 pl 6 == 0 && !(decide (u16 pl 4 = 0) && (if decide (u16 pl 4 = 0) = true then u16 pl 2 else (s.node.begun path idx).recLen (u8 pl 0)) == 0))) 6, (pl.length != 8 + 32 * u16 pl 6 && !(decide (u16 pl 4 = 0) && (if decide (u16 pl 4 = 0) = true then u16 pl 2 else (s.node.begun path idx).recLen (u8 pl 0)) == 0), Rs.lengthBad, 0), badRange (decide (u16 pl 4 = 0) && decide (63 < u8 pl 1) && u8 pl 1 != 0xFF) 1, badRange (decide (u16 pl 4 = 0) && decide (4096 < (if decide (u16 pl 4 = 0) = true then u16 pl 2 else (s.node.begun path idx).recLen (u8 pl 0)))) 2, ((s.node.begun path idx).rcp.insts.any (fun e => e.2.recipe == u8 pl 0 && (e.2.st == .armed || e.2.st == .running || e.2.st == .held)), Rs.busy, 0), badRange (!(decide (u16 pl 4 = 0) && (if decide (u16 pl 4 = 0) = true then u16 pl 2 else (s.node.begun path idx).recLen (u8 pl 0)) == 0) && decide ((if decide (u16 pl 4 = 0) = true then u16 pl 2 else (s.node.begun path idx).recLen (u8 pl 0)) < u16 pl 4 + u16 pl 6)) 4, badRange (decide (u16 pl 4 = 0) && u8 pl 1 != 0xFF && (List.range 256).any (fun q => q != u8 pl 0 && (s.node.begun path idx).recAuto q == u8 pl 1)) 1, badRange (!(decide (u16 pl 4 = 0) && (if decide (u16 pl 4 = 0) = true then u16 pl 2 else (s.node.begun path idx).recLen (u8 pl 0)) == 0) && base.isNone && !(s.node.begun path idx).runLost (u8 pl 0) ((if decide (u16 pl 4 = 0) = true then u16 pl 2 else (s.node.begun path idx).recLen (u8 pl 0)))) 2]) ∧
      (s.node.begun path idx).partRo 3 = false ∧ u16 pl 4 = 0 ∧ u16 pl 2 ≠ 0 ∧ base = some b) ∧
    (∃ (s : State) (path idx : Nat) (pl : List Byte) (base : Option Nat), Serves s.node Cmd.recipeLoad path idx pl ∧
      (base = (if decide (u16 pl 4 = 0) = true then (s.node.begun path idx).freeRun (u8 pl 0) (if decide (u16 pl 4 = 0) = true then u16 pl 2 else (s.node.begun path idx).recLen (u8 pl 0)) else some ((s.node.begun path idx).recBase (u8 pl 0)))) ∧
      (Passes [(decide (pl.length < 8), Rs.lengthBad, 0), badRange (decide (14 < u16 pl 6) || (u16 pl 6 == 0 && !(decide (u16 pl 4 = 0) && (if decide (u16 pl 4 = 0) = true then u16 pl 2 else (s.node.begun path idx).recLen (u8 pl 0)) == 0))) 6, (pl.length != 8 + 32 * u16 pl 6 && !(decide (u16 pl 4 = 0) && (if decide (u16 pl 4 = 0) = true then u16 pl 2 else (s.node.begun path idx).recLen (u8 pl 0)) == 0), Rs.lengthBad, 0), badRange (decide (u16 pl 4 = 0) && decide (63 < u8 pl 1) && u8 pl 1 != 0xFF) 1, badRange (decide (u16 pl 4 = 0) && decide (4096 < (if decide (u16 pl 4 = 0) = true then u16 pl 2 else (s.node.begun path idx).recLen (u8 pl 0)))) 2, ((s.node.begun path idx).rcp.insts.any (fun e => e.2.recipe == u8 pl 0 && (e.2.st == .armed || e.2.st == .running || e.2.st == .held)), Rs.busy, 0), badRange (!(decide (u16 pl 4 = 0) && (if decide (u16 pl 4 = 0) = true then u16 pl 2 else (s.node.begun path idx).recLen (u8 pl 0)) == 0) && decide ((if decide (u16 pl 4 = 0) = true then u16 pl 2 else (s.node.begun path idx).recLen (u8 pl 0)) < u16 pl 4 + u16 pl 6)) 4, badRange (decide (u16 pl 4 = 0) && u8 pl 1 != 0xFF && (List.range 256).any (fun q => q != u8 pl 0 && (s.node.begun path idx).recAuto q == u8 pl 1)) 1, badRange (!(decide (u16 pl 4 = 0) && (if decide (u16 pl 4 = 0) = true then u16 pl 2 else (s.node.begun path idx).recLen (u8 pl 0)) == 0) && base.isNone && !(s.node.begun path idx).runLost (u8 pl 0) ((if decide (u16 pl 4 = 0) = true then u16 pl 2 else (s.node.begun path idx).recLen (u8 pl 0)))) 2]) ∧
      (s.node.begun path idx).partRo 3 = false ∧ u16 pl 4 ≠ 0) ∧
    (∃ (s : State) (path idx : Nat) (pl : List Byte), Serves s.node Cmd.recipeRead path idx pl ∧
      (Passes [badLen pl 6, badRes pl 1 1, badRange (decide ((if decide (u8 pl 0 = 0xFF) = true then 64 else (s.node.begun path idx).recLen (u8 pl 0)) < u16 pl 2 + u16 pl 4)) 2, badIn (u16 pl 4) 1 (if decide (u8 pl 0 = 0xFF) = true then 4 else 14) 4]) ∧
      u8 pl 0 = 0xFF) ∧
    (∃ (s : State) (path idx : Nat) (pl : List Byte), Serves s.node Cmd.recipeRead path idx pl ∧
      (Passes [badLen pl 6, badRes pl 1 1, badRange (decide ((if decide (u8 pl 0 = 0xFF) = true then 64 else (s.node.begun path idx).recLen (u8 pl 0)) < u16 pl 2 + u16 pl 4)) 2, badIn (u16 pl 4) 1 (if decide (u8 pl 0 = 0xFF) = true then 4 else 14) 4]) ∧
      u8 pl 0 ≠ 0xFF) ∧
    (∃ (s : State) (path idx : Nat) (pl : List Byte) (i : Nat), Serves s.node Cmd.recipeStart path idx pl ∧
      (i = (if u8 pl 1 = 0xFF then (s.node.begun path idx).freeInst else some (u8 pl 1)).getD 0) ∧
      (Passes [badLen pl 32, badRange (decide (63 < u8 pl 1) && u8 pl 1 != 0xFF) 1, badIn (u8 pl 2) 0 7 2, badRes pl 3 1, badIn (u16 pl 4) 0 1023 4, badRes pl 6 2, badIn (u32 pl 16) 1 1000000 16, badRes pl 20 4, ((s.node.begun path idx).recLen (u8 pl 0) == 0, Rs.notFound, 0), (u8 pl 1 != 0xFF && !(s.node.begun path idx).instEnded i, Rs.busy, 0), ((if u8 pl 1 = 0xFF then (s.node.begun path idx).freeInst else some (u8 pl 1)).isNone, Rs.instanceLimit, 0), badRange (u64 pl 8 != 0 && decide (u64 pl 8 < (s.node.begun path idx).now ∨ (s.node.begun path idx).now + sec 60 < u64 pl 8)) 8, (((s.node.begun path idx).recipeFault (u8 pl 0)).isSome, Rs.recipeInvalid, ((s.node.begun path idx).recipeFault (u8 pl 0)).getD 0)])) ∧
    (∃ (s : State) (path idx : Nat) (pl : List Byte), Serves s.node Cmd.recipeStop path idx pl ∧
      Passes [badLen pl 4, badIn (u8 pl 0) 0 63 0, badIn (u8 pl 1) 0 1 1, badRes pl 2 2, (((s.node.begun path idx).inst (u8 pl 0)).st == .free, Rs.notFound, 0)] ∧
      ((s.node.begun path idx).inst (u8 pl 0)).st = .running ∧ u8 pl 1 = 0) ∧
    (∃ (s : State) (path idx : Nat) (pl : List Byte), Serves s.node Cmd.recipeStop path idx pl ∧
      Passes [badLen pl 4, badIn (u8 pl 0) 0 63 0, badIn (u8 pl 1) 0 1 1, badRes pl 2 2, (((s.node.begun path idx).inst (u8 pl 0)).st == .free, Rs.notFound, 0)] ∧
      ((s.node.begun path idx).inst (u8 pl 0)).st = .running ∧ u8 pl 1 ≠ 0) ∧
    (∃ (s : State) (path idx : Nat) (pl : List Byte), Serves s.node Cmd.recipeStop path idx pl ∧
      Passes [badLen pl 4, badIn (u8 pl 0) 0 63 0, badIn (u8 pl 1) 0 1 1, badRes pl 2 2, (((s.node.begun path idx).inst (u8 pl 0)).st == .free, Rs.notFound, 0)] ∧
      ((s.node.begun path idx).inst (u8 pl 0)).st = .held) ∧
    (∃ (s : State) (path idx : Nat) (pl : List Byte), Serves s.node Cmd.recipeStop path idx pl ∧
      Passes [badLen pl 4, badIn (u8 pl 0) 0 63 0, badIn (u8 pl 1) 0 1 1, badRes pl 2 2, (((s.node.begun path idx).inst (u8 pl 0)).st == .free, Rs.notFound, 0)] ∧
      ((s.node.begun path idx).inst (u8 pl 0)).st = .armed) ∧
    (∃ (s : State) (path idx : Nat) (pl : List Byte), Serves s.node Cmd.recipeStop path idx pl ∧
      Passes [badLen pl 4, badIn (u8 pl 0) 0 63 0, badIn (u8 pl 1) 0 1 1, badRes pl 2 2, (((s.node.begun path idx).inst (u8 pl 0)).st == .free, Rs.notFound, 0)] ∧
      ((s.node.begun path idx).inst (u8 pl 0)).st = .done) ∧
    (∃ (s : State) (i : Nat) (t : T64), ((s.node.inst i).stopWaiters.map (fun m => (s.node.mbx m).takenAt + sec 2)).min? = some t) ∧
    (∃ (s : State) (i : Nat), (s.node.inst i).stopWaiters = []) ∧
    (∃ (s : State) (path idx : Nat) (pl : List Byte), Serves s.node Cmd.taskCancel path idx pl ∧ Passes [badLen pl 4] ∧
      ((s.node.begun path idx).cancelTask (u32 pl 0)).1 = some true) ∧
    (∃ (s : State) (path idx : Nat) (pl : List Byte), Serves s.node Cmd.schedConfig path idx pl ∧
      Passes ([badLen pl 12, badIn (u8 pl 0) 0 1 0, badIn (u8 pl 1) 0 7 1, badIn (u8 pl 2) 1 100 2, badRes pl 3 1] ++ (List.range 8).map (fun g => badIn (u8 pl (4 + g)) 1 255 (4 + g))) ∧
      (s.node.begun path idx).cfgRo = false) :=
  ⟨⟨served Cmd.recipeLoad ([7, 255, 0, 0, 0, 0, 0, 0]) id, 1, 0, ([7, 255, 0, 0, 0, 0, 0, 0] : List Byte), some 0, by decide⟩,
   ⟨served Cmd.recipeLoad ([7, 255, 1, 0, 0, 0, 1, 0] ++ List.replicate 32 9) id, 1, 0, ([7, 255, 1, 0, 0, 0, 1, 0] ++ List.replicate 32 9 : List Byte), some 0, 0, by decide⟩,
   ⟨served Cmd.recipeLoad ([7, 255, 0, 0, 1, 0, 1, 0] ++ List.replicate 32 9) (fun n => n.write (dirAddr 7) (dirEntry 0 2 255)), 1, 0, ([7, 255, 0, 0, 1, 0, 1, 0] ++ List.replicate 32 9 : List Byte), some 0, by decide⟩,
   ⟨served Cmd.recipeRead ([255, 0, 63, 0, 1, 0]) id, 1, 0, ([255, 0, 63, 0, 1, 0] : List Byte), by decide⟩,
   ⟨served Cmd.recipeRead ([7, 0, 1, 0, 1, 0]) (fun n => n.write (dirAddr 7) (dirEntry 0 2 255)), 1, 0, ([7, 0, 1, 0, 1, 0] : List Byte), by decide⟩,
   ⟨served Cmd.recipeStart ([7, 255, 7, 0, 255, 3, 0, 0, 0, 0, 0, 0, 0, 0, 0, 0, 64, 66, 15, 0, 0, 0, 0, 0, 0, 0, 0, 0, 0, 0, 0, 0]) (fun n => (n.write (dirAddr 7) (dirEntry 0 1 255)).writeSteps 0 0 endStep), 1, 0, ([7, 255, 7, 0, 255, 3, 0, 0, 0, 0, 0, 0, 0, 0, 0, 0, 64, 66, 15, 0, 0, 0, 0, 0, 0, 0, 0, 0, 0, 0, 0, 0] : List Byte), 0, by decide⟩,
   ⟨served Cmd.recipeStop ([63, 0, 0, 0]) (fun n => n.setInst 63 { st := .running }), 1, 0, ([63, 0, 0, 0] : List Byte), by decide⟩,
   ⟨served Cmd.recipeStop ([63, 1, 0, 0]) (fun n => n.setInst 63 { st := .running }), 1, 0, ([63, 1, 0, 0] : List Byte), by decide⟩,
   ⟨served Cmd.recipeStop ([63, 1, 0, 0]) (fun n => n.setInst 63 { st := .held }), 1, 0, ([63, 1, 0, 0] : List Byte), by decide⟩,
   ⟨served Cmd.recipeStop ([63, 0, 0, 0]) (fun n => n.setInst 63 { st := .armed }), 1, 0, ([63, 0, 0, 0] : List Byte), by decide⟩,
   ⟨served Cmd.recipeStop ([63, 0, 0, 0]) (fun n => n.setInst 63 { st := .done }), 1, 0, ([63, 0, 0, 0] : List Byte), by decide⟩,
   ⟨up (fun n => n.setInst 3 { st := .running, stopPending := true, stopWaiters := [16] }), 3, sec 2, by decide⟩,
   ⟨up id, 3, by decide⟩,
   ⟨served Cmd.taskCancel ([0, 0, 1, 0]) (fun n => { n with rcp := { n.rcp with gens := [(0, 1)], tasks := [(0, { handler := 0x0200, arg := 0, release := 0, deadline := 0, group := 0, sheaf := 0, st := .delayed, readyNo := 0, gen := 1, owner := none })] } }), 1, 0, ([0, 0, 1, 0] : List Byte), by decide⟩,
   ⟨served Cmd.schedConfig ([1, 7, 100, 0, 1, 2, 3, 4, 5, 6, 7, 255]) id, 1, 0, ([1, 7, 100, 0, 1, 2, 3, 4, 5, 6, 7, 255] : List Byte), by decide⟩⟩

set_option maxRecDepth 20000 in
/-- The hypotheses of every clause of MotionCommandsComplete are met. -/
theorem witness_MotionCommandsComplete :
    (∃ (s : State) (path idx : Nat) (pl : List Byte), Serves s.node Cmd.axisMove path idx pl ∧
      (Passes ([badLen pl 40, badIn (u8 pl 0) 0 1 0, (((s.node.begun path idx).moveBusy (u8 pl 0)).isSome, ((s.node.begun path idx).moveBusy (u8 pl 0)).getD 0, 0)] ++ (s.node.begun path idx).moveRanges (u8 pl 0) pl ++ [(((s.node.begun path idx).moveRefused (u8 pl 0) (u8 pl 1) (s64 pl 24) ((s.node.begun path idx).moveLims (u8 pl 0) pl)).isSome, ((s.node.begun path idx).moveRefused (u8 pl 0) (u8 pl 1) (s64 pl 24) ((s.node.begun path idx).moveLims (u8 pl 0) pl)).getD 0, 0), ((if u8 pl 1 = 4 then ((s.node.begun path idx).axis (u8 pl 0)).tableFault (segLims ((s.node.begun path idx).moveLims (u8 pl 0) pl)) ((s.node.begun path idx).axis (u8 pl 0)).pos else none).isSome, ((if u8 pl 1 = 4 then ((s.node.begun path idx).axis (u8 pl 0)).tableFault (segLims ((s.node.begun path idx).moveLims (u8 pl 0) pl)) ((s.node.begun path idx).axis (u8 pl 0)).pos else none).getD (0, 0)).1, ((if u8 pl 1 = 4 then ((s.node.begun path idx).axis (u8 pl 0)).tableFault (segLims ((s.node.begun path idx).moveLims (u8 pl 0) pl)) ((s.node.begun path idx).axis (u8 pl 0)).pos else none).getD (0, 0)).2)])) ∧
      u64 pl 32 = 0) ∧
    (∃ (s : State) (path idx : Nat) (pl : List Byte), Serves s.node Cmd.axisMove path idx pl ∧
      (Passes ([badLen pl 40, badIn (u8 pl 0) 0 1 0, (((s.node.begun path idx).moveBusy (u8 pl 0)).isSome, ((s.node.begun path idx).moveBusy (u8 pl 0)).getD 0, 0)] ++ (s.node.begun path idx).moveRanges (u8 pl 0) pl ++ [(((s.node.begun path idx).moveRefused (u8 pl 0) (u8 pl 1) (s64 pl 24) ((s.node.begun path idx).moveLims (u8 pl 0) pl)).isSome, ((s.node.begun path idx).moveRefused (u8 pl 0) (u8 pl 1) (s64 pl 24) ((s.node.begun path idx).moveLims (u8 pl 0) pl)).getD 0, 0), ((if u8 pl 1 = 4 then ((s.node.begun path idx).axis (u8 pl 0)).tableFault (segLims ((s.node.begun path idx).moveLims (u8 pl 0) pl)) ((s.node.begun path idx).axis (u8 pl 0)).pos else none).isSome, ((if u8 pl 1 = 4 then ((s.node.begun path idx).axis (u8 pl 0)).tableFault (segLims ((s.node.begun path idx).moveLims (u8 pl 0) pl)) ((s.node.begun path idx).axis (u8 pl 0)).pos else none).getD (0, 0)).1, ((if u8 pl 1 = 4 then ((s.node.begun path idx).axis (u8 pl 0)).tableFault (segLims ((s.node.begun path idx).moveLims (u8 pl 0) pl)) ((s.node.begun path idx).axis (u8 pl 0)).pos else none).getD (0, 0)).2)])) ∧
      u64 pl 32 ≠ 0) ∧
    (∃ (s : State) (path idx : Nat) (pl : List Byte), Serves s.node Cmd.axisStop path idx pl ∧
      Passes [badLen pl 12, badIn (u8 pl 0) 0 1 0, badIn (u8 pl 1) 0 2 1, badRes pl 2 2, badInstant (s.node.begun path idx) (u64 pl 4) 4] ∧
      u64 pl 4 = 0) ∧
    (∃ (s : State) (path idx : Nat) (pl : List Byte), Serves s.node Cmd.axisStop path idx pl ∧
      Passes [badLen pl 12, badIn (u8 pl 0) 0 1 0, badIn (u8 pl 1) 0 2 1, badRes pl 2 2, badInstant (s.node.begun path idx) (u64 pl 4) 4] ∧
      u64 pl 4 ≠ 0) ∧
    (∃ (s : State) (path idx : Nat) (pl : List Byte), Serves s.node Cmd.axisConfig path idx pl ∧
      Passes [badLen pl 96, badIn (u8 pl 0) 0 1 0, badIn (u8 pl 1) 0 2 1, badRes pl 2 2, badRes pl 84 4] ∧ u8 pl 1 = 0 ∧
      Passes ([(((s.node.begun path idx).stall ((s.node.begun path idx).axisStall (u8 pl 0))).active, Rs.chanBusy, 0)] ++ axisCfgChecks pl ++ [badRange (u64 pl 88 != 0) 88]) ∧
      (s.node.begun path idx).cfgRo = false) ∧
    (∃ (s : State) (path idx : Nat) (pl : List Byte), Serves s.node Cmd.axisConfig path idx pl ∧
      Passes [badLen pl 96, badIn (u8 pl 0) 0 1 0, badIn (u8 pl 1) 0 2 1, badRes pl 2 2, badRes pl 84 4] ∧ u8 pl 1 = 1 ∧
      Passes [(((s.node.begun path idx).stall ((s.node.begun path idx).axisStall (u8 pl 0))).st == .fallow, Rs.chanFallow, 0), (((s.node.begun path idx).axis (u8 pl 0)).st != .standstill && ((s.node.begun path idx).axis (u8 pl 0)).st != .disabled, Rs.axisMoving, 0)]) ∧
    (∃ (s : State) (path idx : Nat) (pl : List Byte), Serves s.node Cmd.axisConfig path idx pl ∧
      Passes [badLen pl 96, badIn (u8 pl 0) 0 1 0, badIn (u8 pl 1) 0 2 1, badRes pl 2 2, badRes pl 84 4] ∧ u8 pl 1 = 2 ∧ u64 pl 88 = 0) ∧
    (∃ (s : State) (path idx : Nat) (pl : List Byte), Serves s.node Cmd.axisStatus path idx pl ∧
      Passes [badLen pl 4, badIn (u8 pl 0) 0 1 0, badRes pl 1 3]) ∧
    (∃ (s : State) (path idx : Nat) (pl : List Byte), Serves s.node Cmd.segmentLoad path idx pl ∧
      (Passes [(decide (pl.length < 8), Rs.lengthBad, 0), badIn (u8 pl 0) 0 1 0, badRes pl 1 1, badRange (u16 pl 4 == 0 && decide ((if u16 pl 4 = 0 then u16 pl 2 else ((s.node.begun path idx).axis (u8 pl 0)).segLen) < 2 ∨ 4096 < (if u16 pl 4 = 0 then u16 pl 2 else ((s.node.begun path idx).axis (u8 pl 0)).segLen))) 2, badIn (u16 pl 6) 1 29 6, badLen pl (8 + 16 * u16 pl 6), (((s.node.begun path idx).axis (u8 pl 0)).st == .segment || (((s.node.begun path idx).axis (u8 pl 0)).st == .geared || ((s.node.begun path idx).axis (u8 pl 0)).st == .syncing) && ((s.node.begun path idx).axis (u8 pl 0)).gear.cam, Rs.busy, 0), badRange (decide ((if u16 pl 4 = 0 then u16 pl 2 else ((s.node.begun path idx).axis (u8 pl 0)).segLen) < u16 pl 4 + u16 pl 6)) 4]) ∧
      (s.node.begun path idx).partRo 3 = false) ∧
    (∃ (s : State) (path idx : Nat) (pl : List Byte), Serves s.node Cmd.gearSet path idx pl ∧
      Passes [badLen pl 40, badIn (u8 pl 0) 0 1 0, badIn (u8 pl 1) 0 2 1, (decide (16 ≤ u8 pl 3), Rs.paramReserved, 3), badRes pl 6 2, badRes pl 28 4] ∧
      u8 pl 1 = 0 ∧
      Passes ((((s.node.begun path idx).moveBusy (u8 pl 0)).isSome, ((s.node.begun path idx).moveBusy (u8 pl 0)).getD 0, 0) :: (s.node.begun path idx).gearChecks pl) ∧
      (((s.node.begun path idx).axis (u8 pl 0)).st == .geared || ((s.node.begun path idx).axis (u8 pl 0)).st == .syncing) = false ∧
      (Passes [(((s.node.begun path idx).axis (u8 pl 0)).st == .segment || (((s.node.begun path idx).axis (u8 pl 0)).st != .standstill && !((((s.node.begun path idx).upTo (s.node.begun path idx).nextTick).axisMotion (u8 pl 0) (s.node.begun path idx).nextTick).newGear (u8 pl 0) pl (s.node.begun path idx).nextTick).sync), Rs.axisMoving, 0), ((if ((((s.node.begun path idx).upTo (s.node.begun path idx).nextTick).axisMotion (u8 pl 0) (s.node.begun path idx).nextTick).newGear (u8 pl 0) pl (s.node.begun path idx).nextTick).cam then ((s.node.begun path idx).axis (u8 pl 0)).camFault ((((s.node.begun path idx).upTo (s.node.begun path idx).nextTick).axisMotion (u8 pl 0) (s.node.begun path idx).nextTick).newGear (u8 pl 0) pl (s.node.begun path idx).nextTick).repeats else none).isSome, ((if ((((s.node.begun path idx).upTo (s.node.begun path idx).nextTick).axisMotion (u8 pl 0) (s.node.begun path idx).nextTick).newGear (u8 pl 0) pl (s.node.begun path idx).nextTick).cam then ((s.node.begun path idx).axis (u8 pl 0)).camFault ((((s.node.begun path idx).upTo (s.node.begun path idx).nextTick).axisMotion (u8 pl 0) (s.node.begun path idx).nextTick).newGear (u8 pl 0) pl (s.node.begun path idx).nextTick).repeats else none).getD (0, 0)).1, ((if ((((s.node.begun path idx).upTo (s.node.begun path idx).nextTick).axisMotion (u8 pl 0) (s.node.begun path idx).nextTick).newGear (u8 pl 0) pl (s.node.begun path idx).nextTick).cam then ((s.node.begun path idx).axis (u8 pl 0)).camFault ((((s.node.begun path idx).upTo (s.node.begun path idx).nextTick).axisMotion (u8 pl 0) (s.node.begun path idx).nextTick).newGear (u8 pl 0) pl (s.node.begun path idx).nextTick).repeats else none).getD (0, 0)).2)]) ∧
      (((((s.node.begun path idx).upTo (s.node.begun path idx).nextTick).axisMotion (u8 pl 0) (s.node.begun path idx).nextTick).newGear (u8 pl 0) pl (s.node.begun path idx).nextTick).sync = true ∨ (if bit (u8 pl 3) 3 then ratioStep ((s.node.begun path idx).masterSpeed ((((s.node.begun path idx).upTo (s.node.begun path idx).nextTick).axisMotion (u8 pl 0) (s.node.begun path idx).nextTick).newGear (u8 pl 0) pl (s.node.begun path idx).nextTick)) 0 1 ((((s.node.begun path idx).upTo (s.node.begun path idx).nextTick).axisMotion (u8 pl 0) (s.node.begun path idx).nextTick).newGear (u8 pl 0) pl (s.node.begun path idx).nextTick).num ((((s.node.begun path idx).upTo (s.node.begun path idx).nextTick).axisMotion (u8 pl 0) (s.node.begun path idx).nextTick).newGear (u8 pl 0) pl (s.node.begun path idx).nextTick).den else 0) ≤ vel ((s.node.begun path idx).axis (u8 pl 0)).cfg.vstart)) ∧
    (∃ (s : State) (path idx : Nat) (pl : List Byte), Serves s.node Cmd.gearSet path idx pl ∧
      Passes [badLen pl 40, badIn (u8 pl 0) 0 1 0, badIn (u8 pl 1) 0 2 1, (decide (16 ≤ u8 pl 3), Rs.paramReserved, 3), badRes pl 6 2, badRes pl 28 4] ∧
      u8 pl 1 = 0 ∧
      Passes ((((s.node.begun path idx).moveBusy (u8 pl 0)).isSome, ((s.node.begun path idx).moveBusy (u8 pl 0)).getD 0, 0) :: (s.node.begun path idx).gearChecks pl) ∧
      (((s.node.begun path idx).axis (u8 pl 0)).st == .geared || ((s.node.begun path idx).axis (u8 pl 0)).st == .syncing) = true ∧
      bit (u8 pl 3) 3 = false) ∧
    (∃ (s : State) (path idx : Nat) (pl : List Byte), Serves s.node Cmd.gearSet path idx pl ∧
      Passes [badLen pl 40, badIn (u8 pl 0) 0 1 0, badIn (u8 pl 1) 0 2 1, (decide (16 ≤ u8 pl 3), Rs.paramReserved, 3), badRes pl 6 2, badRes pl 28 4] ∧
      u8 pl 1 = 0 ∧
      Passes ((((s.node.begun path idx).moveBusy (u8 pl 0)).isSome, ((s.node.begun path idx).moveBusy (u8 pl 0)).getD 0, 0) :: (s.node.begun path idx).gearChecks pl) ∧
      (((s.node.begun path idx).axis (u8 pl 0)).st == .geared || ((s.node.begun path idx).axis (u8 pl 0)).st == .syncing) = true ∧
      bit (u8 pl 3) 3 = true ∧
      (bit (u8 pl 3) 0 = true ∨ (ratioStep ((s.node.begun path idx).masterSpeed ((s.node.begun path idx).axis (u8 pl 0)).gear) ((s.node.begun path idx).axis (u8 pl 0)).gear.num ((s.node.begun path idx).axis (u8 pl 0)).gear.den (s32 pl 8) (u32 pl 12)) ≤ vel ((s.node.begun path idx).axis (u8 pl 0)).cfg.vstart)) ∧
    (∃ (s : State) (path idx : Nat) (pl : List Byte), Serves s.node Cmd.gearSet path idx pl ∧
      Passes [badLen pl 40, badIn (u8 pl 0) 0 1 0, badIn (u8 pl 1) 0 2 1, (decide (16 ≤ u8 pl 3), Rs.paramReserved, 3), badRes pl 6 2, badRes pl 28 4] ∧
      u8 pl 1 = 1) ∧
    (∃ (s : State) (path idx : Nat) (pl : List Byte), Serves s.node Cmd.gearSet path idx pl ∧
      Passes [badLen pl 40, badIn (u8 pl 0) 0 1 0, badIn (u8 pl 1) 0 2 1, (decide (16 ≤ u8 pl 3), Rs.paramReserved, 3), badRes pl 6 2, badRes pl 28 4] ∧
      u8 pl 1 = 2) :=
  ⟨⟨served Cmd.axisMove ([0, 1, 1, 0, 0, 0, 0, 0, 0, 0, 0, 0, 0, 0, 0, 0, 0, 0, 0, 0, 0, 0, 0, 0, 100, 0, 0, 0, 0, 0, 0, 0, 0, 0, 0, 0, 0, 0, 0, 0]) (fun n => ({ n with axes := [(0, { st := .standstill, configured := true, referenced := true, cfg := { vmax := 1000, amax := 1000, dmax := 1000, vDef := 500, aDef := 500, dDef := 500, dStop := 900 } })] }).setStall 42 { n.stall 42 with st := .running }), 1, 0, ([0, 1, 1, 0, 0, 0, 0, 0, 0, 0, 0, 0, 0, 0, 0, 0, 0, 0, 0, 0, 0, 0, 0, 0, 100, 0, 0, 0, 0, 0, 0, 0, 0, 0, 0, 0, 0, 0, 0, 0] : List Byte), by decide⟩,
   ⟨served Cmd.axisMove ([0, 1, 1, 0, 0, 0, 0, 0, 0, 0, 0, 0, 0, 0, 0, 0, 0, 0, 0, 0, 0, 0, 0, 0, 100, 0, 0, 0, 0, 0, 0, 0, 0, 34, 226, 51, 14, 0, 0, 0]) (fun n => ({ n with axes := [(0, { st := .standstill, configured := true, referenced := true, cfg := { vmax := 1000, amax := 1000, dmax := 1000, vDef := 500, aDef := 500, dDef := 500, dStop := 900 } })] }).setStall 42 { n.stall 42 with st := .running }), 1, 0, ([0, 1, 1, 0, 0, 0, 0, 0, 0, 0, 0, 0, 0, 0, 0, 0, 0, 0, 0, 0, 0, 0, 0, 0, 100, 0, 0, 0, 0, 0, 0, 0, 0, 34, 226, 51, 14, 0, 0, 0] : List Byte), by decide⟩,
   ⟨served Cmd.axisStop ([1, 2, 0, 0, 0, 0, 0, 0, 0, 0, 0, 0]) id, 1, 0, ([1, 2, 0, 0, 0, 0, 0, 0, 0, 0, 0, 0] : List Byte), by decide⟩,
   ⟨served Cmd.axisStop ([1, 2, 0, 0, 0, 202, 154, 59, 0, 0, 0, 0]) id, 1, 0, ([1, 2, 0, 0, 0, 202, 154, 59, 0, 0, 0, 0] : List Byte), by decide⟩,
   ⟨served Cmd.axisConfig ([1, 0, 0, 0, 0, 0, 184, 11, 0, 202, 154, 59, 1, 0, 0, 0, 0, 0, 0, 0, 1, 0, 0, 0, 1, 0, 0, 0, 1, 0, 0, 0, 0, 0, 0, 0, 1, 0, 0, 0, 0, 0, 0, 0, 0, 0, 0, 0, 0, 0, 0, 0, 0, 0, 0, 0, 1, 0, 0, 0, 0, 0, 0, 0, 1, 0, 0, 0, 1, 0, 0, 0, 0, 0, 0, 0, 1, 0, 3, 0, 255, 255, 255, 3, 0, 0, 0, 0, 0, 0, 0, 0, 0, 0, 0, 0]) id, 1, 0, ([1, 0, 0, 0, 0, 0, 184, 11, 0, 202, 154, 59, 1, 0, 0, 0, 0, 0, 0, 0, 1, 0, 0, 0, 1, 0, 0, 0, 1, 0, 0, 0, 0, 0, 0, 0, 1, 0, 0, 0, 0, 0, 0, 0, 0, 0, 0, 0, 0, 0, 0, 0, 0, 0, 0, 0, 1, 0, 0, 0, 0, 0, 0, 0, 1, 0, 0, 0, 1, 0, 0, 0, 0, 0, 0, 0, 1, 0, 3, 0, 255, 255, 255, 3, 0, 0, 0, 0, 0, 0, 0, 0, 0, 0, 0, 0] : List Byte), by decide⟩,
   ⟨served Cmd.axisConfig ([1, 1] ++ List.replicate 86 0 ++ [1, 2, 3, 4, 5, 6, 7, 0x80]) id, 1, 0, ([1, 1] ++ List.replicate 86 0 ++ [1, 2, 3, 4, 5, 6, 7, 0x80] : List Byte), by decide⟩,
   ⟨served Cmd.axisConfig ([1, 2] ++ List.replicate 94 0) id, 1, 0, ([1, 2] ++ List.replicate 94 0 : List Byte), by decide⟩,
   ⟨served Cmd.axisStatus ([1, 0, 0, 0]) id, 1, 0, ([1, 0, 0, 0] : List Byte), by decide⟩,
   ⟨served Cmd.segmentLoad ([0, 0, 2, 0, 0, 0, 2, 0, 0, 0, 0, 0, 0, 0, 0, 0, 0, 0, 0, 0, 0, 0, 0, 0, 232, 3, 0, 0, 0, 0, 0, 0, 244, 1, 0, 0, 0, 0, 0, 0]) id, 1, 0, ([0, 0, 2, 0, 0, 0, 2, 0, 0, 0, 0, 0, 0, 0, 0, 0, 0, 0, 0, 0, 0, 0, 0, 0, 232, 3, 0, 0, 0, 0, 0, 0, 244, 1, 0, 0, 0, 0, 0, 0] : List Byte), by decide⟩,
   ⟨served Cmd.gearSet ([0, 0, 1, 1, 255, 255, 0, 0, 1, 0, 0, 0, 1, 0, 0, 0, 100, 0, 0, 0, 0, 0, 0, 0, 0, 0, 0, 0, 0, 0, 0, 0, 0, 0, 0, 0, 0, 0, 0, 0]) (fun n => ({ n with axes := [(0, { st := .standstill, configured := true, referenced := true, cfg := { vmax := 1000, amax := 1000, dmax := 1000, vDef := 500, aDef := 500, dDef := 500, dStop := 900 } })] }).setStall 42 { n.stall 42 with st := .running }), 1, 0, ([0, 0, 1, 1, 255, 255, 0, 0, 1, 0, 0, 0, 1, 0, 0, 0, 100, 0, 0, 0, 0, 0, 0, 0, 0, 0, 0, 0, 0, 0, 0, 0, 0, 0, 0, 0, 0, 0, 0, 0] : List Byte), by decide⟩,
   ⟨served Cmd.gearSet ([0, 0, 1, 0, 255, 255, 0, 0, 1, 0, 0, 0, 1, 0, 0, 0, 100, 0, 0, 0, 0, 0, 0, 0, 0, 0, 0, 0, 0, 0, 0, 0, 0, 0, 0, 0, 0, 0, 0, 0]) (fun n => ({ n with axes := [(0, { st := .geared, configured := true })] }).setStall 42 { n.stall 42 with st := .running }), 1, 0, ([0, 0, 1, 0, 255, 255, 0, 0, 1, 0, 0, 0, 1, 0, 0, 0, 100, 0, 0, 0, 0, 0, 0, 0, 0, 0, 0, 0, 0, 0, 0, 0, 0, 0, 0, 0, 0, 0, 0, 0] : List Byte), by decide⟩,
   ⟨served Cmd.gearSet ([0, 0, 1, 9, 255, 255, 0, 0, 1, 0, 0, 0, 1, 0, 0, 0, 0, 0, 0, 0, 0, 0, 0, 0, 0, 0, 0, 0, 0, 0, 0, 0, 0, 0, 0, 0, 0, 0, 0, 0]) (fun n => ({ n with axes := [(0, { st := .geared, configured := true })] }).setStall 42 { n.stall 42 with st := .running }), 1, 0, ([0, 0, 1, 9, 255, 255, 0, 0, 1, 0, 0, 0, 1, 0, 0, 0, 0, 0, 0, 0, 0, 0, 0, 0, 0, 0, 0, 0, 0, 0, 0, 0, 0, 0, 0, 0, 0, 0, 0, 0] : List Byte), by decide⟩,
   ⟨served Cmd.gearSet ([0, 1] ++ List.replicate 38 0) id, 1, 0, ([0, 1] ++ List.replicate 38 0 : List Byte), by decide⟩,
   ⟨served Cmd.gearSet ([0, 2] ++ List.replicate 38 0) id, 1, 0, ([0, 2] ++ List.replicate 38 0 : List Byte), by decide⟩⟩

set_option maxRecDepth 20000 in
/-- The hypotheses of every clause of PositionAndDriveCommandsComplete are met. -/
theorem witness_PositionAndDriveCommandsComplete :
    (∃ (s : State) (path idx : Nat) (pl : List Byte), Serves s.node Cmd.posCompare path idx pl ∧
      (Passes ([badIn (u8 pl 0) 0 1 0, badIn (u8 pl 1) 0 1 1, badIn (u8 pl 2) 0 2 2, badLen pl (if (decide (u8 pl 2 = 0)) = true then 24 else 4)] ++ [(decide (4 ≤ u8 pl 3), Rs.paramReserved, 3)] ++ (if (decide (u8 pl 2 = 0)) = true then [badRange (decide (63 < u8 pl 16) && u8 pl 16 != 0xFF) 16, badRes pl 17 1] else []) ++ (s.node.begun path idx).posRefused (u8 pl 0) ++ (if (decide (u8 pl 2 = 0)) = true then [badRange (bit (u8 pl 3) 1 && !bit (u8 pl 3) 0) 3, badRange (if bit (u8 pl 3) 0 = true then decide (u32 pl 4 < 1 ∨ 2147483647 < u32 pl 4) else u32 pl 4 != 0) 4, badRange (!(u16 pl 18 == noStall || (decide (u16 pl 18 < numStalls) && ((s.node.begun path idx).stall (u16 pl 18)).isOut && !((s.node.begun path idx).stall (u16 pl 18)).pwm))) 18, badRange (if u16 pl 18 = noStall then u32 pl 20 != 0 else decide (u32 pl 20 < 1 ∨ 1000000 < u32 pl 20)) 20] else []))) ∧
      u8 pl 2 = 0) ∧
    (∃ (s : State) (path idx : Nat) (pl : List Byte), Serves s.node Cmd.posCompare path idx pl ∧
      (Passes ([badIn (u8 pl 0) 0 1 0, badIn (u8 pl 1) 0 1 1, badIn (u8 pl 2) 0 2 2, badLen pl (if (decide (u8 pl 2 = 0)) = true then 24 else 4)] ++ [(decide (4 ≤ u8 pl 3), Rs.paramReserved, 3)] ++ (if (decide (u8 pl 2 = 0)) = true then [badRange (decide (63 < u8 pl 16) && u8 pl 16 != 0xFF) 16, badRes pl 17 1] else []) ++ (s.node.begun path idx).posRefused (u8 pl 0) ++ (if (decide (u8 pl 2 = 0)) = true then [badRange (bit (u8 pl 3) 1 && !bit (u8 pl 3) 0) 3, badRange (if bit (u8 pl 3) 0 = true then decide (u32 pl 4 < 1 ∨ 2147483647 < u32 pl 4) else u32 pl 4 != 0) 4, badRange (!(u16 pl 18 == noStall || (decide (u16 pl 18 < numStalls) && ((s.node.begun path idx).stall (u16 pl 18)).isOut && !((s.node.begun path idx).stall (u16 pl 18)).pwm))) 18, badRange (if u16 pl 18 = noStall then u32 pl 20 != 0 else decide (u32 pl 20 < 1 ∨ 1000000 < u32 pl 20)) 20] else []))) ∧
      u8 pl 2 = 1) ∧
    (∃ (s : State) (path idx : Nat) (pl : List Byte), Serves s.node Cmd.posCompare path idx pl ∧
      (Passes ([badIn (u8 pl 0) 0 1 0, badIn (u8 pl 1) 0 1 1, badIn (u8 pl 2) 0 2 2, badLen pl (if (decide (u8 pl 2 = 0)) = true then 24 else 4)] ++ [(decide (4 ≤ u8 pl 3), Rs.paramReserved, 3)] ++ (if (decide (u8 pl 2 = 0)) = true then [badRange (decide (63 < u8 pl 16) && u8 pl 16 != 0xFF) 16, badRes pl 17 1] else []) ++ (s.node.begun path idx).posRefused (u8 pl 0) ++ (if (decide (u8 pl 2 = 0)) = true then [badRange (bit (u8 pl 3) 1 && !bit (u8 pl 3) 0) 3, badRange (if bit (u8 pl 3) 0 = true then decide (u32 pl 4 < 1 ∨ 2147483647 < u32 pl 4) else u32 pl 4 != 0) 4, badRange (!(u16 pl 18 == noStall || (decide (u16 pl 18 < numStalls) && ((s.node.begun path idx).stall (u16 pl 18)).isOut && !((s.node.begun path idx).stall (u16 pl 18)).pwm))) 18, badRange (if u16 pl 18 = noStall then u32 pl 20 != 0 else decide (u32 pl 20 < 1 ∨ 1000000 < u32 pl 20)) 20] else []))) ∧
      u8 pl 2 = 2) ∧
    (∃ (s : State) (path idx : Nat) (pl : List Byte), Serves s.node Cmd.posLatch path idx pl ∧
      (Passes ([badIn (u8 pl 0) 0 1 0, badIn (u8 pl 1) 0 3 1, badIn (u8 pl 2) 0 2 2, badLen pl (if (decide (u8 pl 2 = 0)) = true then 16 else 4)] ++ (if (decide (u8 pl 2 = 0)) = true then [badRange (decide (4 < u8 pl 3 ∧
      u8 pl 3 < 16 ∨ 47 < u8 pl 3)) 3, badIn (u8 pl 4) 0 1 4, badRes pl 5 3] else []) ++ (s.node.begun path idx).posRefused (u8 pl 0) ++ (if (decide (u8 pl 2 = 0)) = true then [badRange (decide (u8 pl 3 ≤ 1) && ((s.node.begun path idx).encSet (u8 pl 0)).pf 8 1 == 2) 3, badRange (if u8 pl 3 = 4 then decide (u64 pl 8 ≤ (s.node.begun path idx).now ∨ (s.node.begun path idx).now + sec 60 < u64 pl 8) else u64 pl 8 != 0) 8] else []))) ∧
      u8 pl 2 = 0) ∧
    (∃ (s : State) (path idx : Nat) (pl : List Byte), Serves s.node Cmd.posLatch path idx pl ∧
      (Passes ([badIn (u8 pl 0) 0 1 0, badIn (u8 pl 1) 0 3 1, badIn (u8 pl 2) 0 2 2, badLen pl (if (decide (u8 pl 2 = 0)) = true then 16 else 4)] ++ (if (decide (u8 pl 2 = 0)) = true then [badRange (decide (4 < u8 pl 3 ∧
      u8 pl 3 < 16 ∨ 47 < u8 pl 3)) 3, badIn (u8 pl 4) 0 1 4, badRes pl 5 3] else []) ++ (s.node.begun path idx).posRefused (u8 pl 0) ++ (if (decide (u8 pl 2 = 0)) = true then [badRange (decide (u8 pl 3 ≤ 1) && ((s.node.begun path idx).encSet (u8 pl 0)).pf 8 1 == 2) 3, badRange (if u8 pl 3 = 4 then decide (u64 pl 8 ≤ (s.node.begun path idx).now ∨ (s.node.begun path idx).now + sec 60 < u64 pl 8) else u64 pl 8 != 0) 8] else []))) ∧
      u8 pl 2 = 1) ∧
    (∃ (s : State) (path idx : Nat) (pl : List Byte), Serves s.node Cmd.posLatch path idx pl ∧
      (Passes ([badIn (u8 pl 0) 0 1 0, badIn (u8 pl 1) 0 3 1, badIn (u8 pl 2) 0 2 2, badLen pl (if (decide (u8 pl 2 = 0)) = true then 16 else 4)] ++ (if (decide (u8 pl 2 = 0)) = true then [badRange (decide (4 < u8 pl 3 ∧
      u8 pl 3 < 16 ∨ 47 < u8 pl 3)) 3, badIn (u8 pl 4) 0 1 4, badRes pl 5 3] else []) ++ (s.node.begun path idx).posRefused (u8 pl 0) ++ (if (decide (u8 pl 2 = 0)) = true then [badRange (decide (u8 pl 3 ≤ 1) && ((s.node.begun path idx).encSet (u8 pl 0)).pf 8 1 == 2) 3, badRange (if u8 pl 3 = 4 then decide (u64 pl 8 ≤ (s.node.begun path idx).now ∨ (s.node.begun path idx).now + sec 60 < u64 pl 8) else u64 pl 8 != 0) 8] else []))) ∧
      u8 pl 2 = 2) ∧
    (∃ (s : State) (path idx : Nat) (pl : List Byte), Serves s.node Cmd.driveConfig path idx pl ∧
      (Passes [(decide (pl.length < 4), Rs.lengthBad, 0), badIn (u8 pl 0) 0 1 0, badIn (u8 pl 1) 0 5 1, badRes pl 2 2, (pl.length != (if u8 pl 1 = 0 then 16 else if u8 pl 1 = 1 then 8 + 2 * u16 pl 6 else if u8 pl 1 = 4 then 8 else 4), Rs.lengthBad, 0)]) ∧
      u8 pl 1 = 0 ∧
      Passes [badIn (u16 pl 4) 80 1600 4, badIn (u8 pl 6) 20 120 6, badIn (u8 pl 7) 0 100 7, badIn (u16 pl 8) 1 256 8, badIn (u16 pl 10) 0 (min 256 (u16 pl 8)) 10, badIn (u8 pl 12) 0 2 12, badRes pl 13 1, (((s.node.begun path idx).stall ((s.node.begun path idx).axisStall (u8 pl 0))).active, Rs.chanBusy, 0)] ∧
      (s.node.begun path idx).cfgRo = false) ∧
    (∃ (s : State) (path idx : Nat) (pl : List Byte), Serves s.node Cmd.driveConfig path idx pl ∧
      (Passes [(decide (pl.length < 4), Rs.lengthBad, 0), badIn (u8 pl 0) 0 1 0, badIn (u8 pl 1) 0 5 1, badRes pl 2 2, (pl.length != (if u8 pl 1 = 0 then 16 else if u8 pl 1 = 1 then 8 + 2 * u16 pl 6 else if u8 pl 1 = 4 then 8 else 4), Rs.lengthBad, 0)]) ∧
      u8 pl 1 = 1 ∧ (Passes [badIn (u16 pl 6) 1 128 6, badRange (decide (256 < u16 pl 4 + u16 pl 6)) 6, badRange (decide (u16 pl 4 ≠ 0 ∧
      u16 pl 4 ≠ ((s.node.begun path idx).drv (u8 pl 0)).staged.length)) 4]) ∧
      (badEntry (if u16 pl 4 = 0 then [] else ((s.node.begun path idx).drv (u8 pl 0)).staged).getLast? ((List.range (u16 pl 6)).map (tableEntry pl)) 0 = none)) ∧
    (∃ (s : State) (path idx : Nat) (pl : List Byte), Serves s.node Cmd.driveConfig path idx pl ∧
      (Passes [(decide (pl.length < 4), Rs.lengthBad, 0), badIn (u8 pl 0) 0 1 0, badIn (u8 pl 1) 0 5 1, badRes pl 2 2, (pl.length != (if u8 pl 1 = 0 then 16 else if u8 pl 1 = 1 then 8 + 2 * u16 pl 6 else if u8 pl 1 = 4 then 8 else 4), Rs.lengthBad, 0)]) ∧
      u8 pl 1 = 2 ∧
      Passes [(((s.node.begun path idx).drv (u8 pl 0)).staged.length != 256, Rs.busy, 0), (!(((s.node.begun path idx).axis (u8 pl 0)).st == .disabled || ((s.node.begun path idx).axis (u8 pl 0)).st == .standstill), Rs.axisMoving, 0)] ∧
      (s.node.begun path idx).cfgRo = false) ∧
    (∃ (s : State) (path idx : Nat) (pl : List Byte), Serves s.node Cmd.driveConfig path idx pl ∧
      (Passes [(decide (pl.length < 4), Rs.lengthBad, 0), badIn (u8 pl 0) 0 1 0, badIn (u8 pl 1) 0 5 1, badRes pl 2 2, (pl.length != (if u8 pl 1 = 0 then 16 else if u8 pl 1 = 1 then 8 + 2 * u16 pl 6 else if u8 pl 1 = 4 then 8 else 4), Rs.lengthBad, 0)]) ∧
      u8 pl 1 = 3) ∧
    (∃ (s : State) (path idx : Nat) (pl : List Byte), Serves s.node Cmd.driveConfig path idx pl ∧
      (Passes [(decide (pl.length < 4), Rs.lengthBad, 0), badIn (u8 pl 0) 0 1 0, badIn (u8 pl 1) 0 5 1, badRes pl 2 2, (pl.length != (if u8 pl 1 = 0 then 16 else if u8 pl 1 = 1 then 8 + 2 * u16 pl 6 else if u8 pl 1 = 4 then 8 else 4), Rs.lengthBad, 0)]) ∧
      u8 pl 1 = 4 ∧ Passes [badIn (u16 pl 6) 1 128 6, badRange (decide (256 < u16 pl 4 + u16 pl 6)) 6]) ∧
    (∃ (s : State) (path idx : Nat) (pl : List Byte), Serves s.node Cmd.driveConfig path idx pl ∧
      (Passes [(decide (pl.length < 4), Rs.lengthBad, 0), badIn (u8 pl 0) 0 1 0, badIn (u8 pl 1) 0 5 1, badRes pl 2 2, (pl.length != (if u8 pl 1 = 0 then 16 else if u8 pl 1 = 1 then 8 + 2 * u16 pl 6 else if u8 pl 1 = 4 then 8 else 4), Rs.lengthBad, 0)]) ∧
      u8 pl 1 = 5 ∧ (((s.node.begun path idx).axis (u8 pl 0)).st = .disabled ∨ ((s.node.begun path idx).axis (u8 pl 0)).st = .standstill) ∧
      (s.node.begun path idx).cfgRo = false) :=
  ⟨⟨served Cmd.posCompare ([0, 1, 0, 3, 255, 255, 255, 127, 5, 0, 0, 0, 0, 0, 0, 0, 63, 0, 255, 255, 0, 0, 0, 0]) (fun n => n.setStall 40 { n.stall 40 with st := .running }), 1, 0, ([0, 1, 0, 3, 255, 255, 255, 127, 5, 0, 0, 0, 0, 0, 0, 0, 63, 0, 255, 255, 0, 0, 0, 0] : List Byte), by decide⟩,
   ⟨served Cmd.posCompare ([0, 1, 1, 0]) (fun n => n.setStall 40 { n.stall 40 with st := .running }), 1, 0, ([0, 1, 1, 0] : List Byte), by decide⟩,
   ⟨served Cmd.posCompare ([0, 1, 2, 0]) (fun n => n.setStall 40 { n.stall 40 with st := .running }), 1, 0, ([0, 1, 2, 0] : List Byte), by decide⟩,
   ⟨served Cmd.posLatch ([0, 3, 0, 47, 1, 0, 0, 0, 0, 0, 0, 0, 0, 0, 0, 0]) (fun n => n.setStall 40 { n.stall 40 with st := .running }), 1, 0, ([0, 3, 0, 47, 1, 0, 0, 0, 0, 0, 0, 0, 0, 0, 0, 0] : List Byte), by decide⟩,
   ⟨served Cmd.posLatch ([0, 3, 1, 0]) (fun n => n.setStall 40 { n.stall 40 with st := .running }), 1, 0, ([0, 3, 1, 0] : List Byte), by decide⟩,
   ⟨served Cmd.posLatch ([0, 3, 2, 0]) (fun n => n.setStall 40 { n.stall 40 with st := .running }), 1, 0, ([0, 3, 2, 0] : List Byte), by decide⟩,
   ⟨served Cmd.driveConfig ([1, 0, 0, 0, 64, 6, 120, 100, 0, 1, 0, 1, 2, 0, 255, 255]) id, 1, 0, ([1, 0, 0, 0, 64, 6, 120, 100, 0, 1, 0, 1, 2, 0, 255, 255] : List Byte), by decide⟩,
   ⟨served Cmd.driveConfig ([0, 1, 0, 0, 0, 0, 1, 0, 0, 0]) id, 1, 0, ([0, 1, 0, 0, 0, 0, 1, 0, 0, 0] : List Byte), by decide⟩,
   ⟨served Cmd.driveConfig ([0, 2, 0, 0]) (fun n => n.setDrv 0 { staged := List.replicate 256 0 }), 1, 0, ([0, 2, 0, 0] : List Byte), by decide⟩,
   ⟨served Cmd.driveConfig ([1, 3, 0, 0]) id, 1, 0, ([1, 3, 0, 0] : List Byte), by decide⟩,
   ⟨served Cmd.driveConfig ([1, 4, 0, 0, 128, 0, 128, 0]) id, 1, 0, ([1, 4, 0, 0, 128, 0, 128, 0] : List Byte), by decide⟩,
   ⟨served Cmd.driveConfig ([1, 5, 0, 0]) id, 1, 0, ([1, 5, 0, 0] : List Byte), by decide⟩⟩

set_option maxRecDepth 20000 in
/-- The hypotheses of every clause of LineAndTimeCommandsComplete are met. -/
theorem witness_LineAndTimeCommandsComplete :
    (∃ (s : State) (path idx : Nat) (pl : List Byte), Serves s.node Cmd.lineStatus path idx pl ∧
      Passes [badLen pl 4, badIn (u8 pl 0) 0 2 0, badRes pl 1 3]) ∧
    (∃ (s : State) (path idx : Nat) (pl : List Byte), Serves s.node Cmd.lineConfig path idx pl ∧
      Passes [(decide (pl.length < 3), Rs.lengthBad, 0), badIn (u8 pl 0) 0 2 0] ∧ u8 pl 0 = 0 ∧
      (Passes [badLen pl 20, badIn (u8 pl 1) 0 2 1, badIn (u8 pl 2) 0 1 2, badRange (decide (3 < u8 pl 3) || !portCFits (u8 pl 3) (u8 pl 1) (u8 pl 2 == 1)) 3, badIn (u16 pl 4) 0 0xFEFF 4, badIn (u8 pl 6) 1 255 6, (decide (8 ≤ u8 pl 7), Rs.paramReserved, 7), badRange (bit (u8 pl 7) 0 && !(u8 pl 2 == 1)) 7, badRange (if (u8 pl 2 == 1) = true then decide (u32 pl 8 < 250 ∨ 10000 % u32 pl 8 ≠ 0) else u32 pl 8 != 0) 8, badRange (decide ((if (u8 pl 2 == 1) = true then u32 pl 8 else (s.node.begun path idx).line.cycle) < u32 pl 12 + 10)) 12, (decide (64 ≤ u32 pl 16), Rs.paramReserved, 16)]) ∧
      (s.node.begun path idx).cfgRo = false) ∧
    (∃ (s : State) (path idx : Nat) (pl : List Byte), Serves s.node Cmd.lineConfig path idx pl ∧
      Passes [(decide (pl.length < 3), Rs.lengthBad, 0), badIn (u8 pl 0) 0 2 0] ∧ u8 pl 0 = 1 ∧
      Passes ([(decide (pl.length < 4), Rs.lengthBad, 0), badIn (u8 pl 2) 1 16 2, badLen pl (4 + 8 * u8 pl 2), badIn (u8 pl 1) 0 2 1, badRes pl 3 1] ++ (List.range (u8 pl 2)).map (fun i => badRes pl (9 + 8 * i) 3) ++ [(((List.range (u8 pl 2)).find? (fun i => (((List.range (u8 pl 2)).map (fun i => (u32 pl (4 + 8 * i), u8 pl (8 + 8 * i)))).getD i (0, 0)).2 < 0xC0)).isSome, Rs.paramRange, 8 + 8 * ((List.range (u8 pl 2)).find? (fun i => (((List.range (u8 pl 2)).map (fun i => (u32 pl (4 + 8 * i), u8 pl (8 + 8 * i)))).getD i (0, 0)).2 < 0xC0)).getD 0), badRange ((((List.range (u8 pl 2)).map (fun i => (u32 pl (4 + 8 * i), u8 pl (8 + 8 * i)))).map Prod.fst).sum != us (s.node.begun path idx).line.cycle) 2]) ∧
      (s.node.begun path idx).cfgRo = false) ∧
    (∃ (s : State) (path idx : Nat) (pl : List Byte), Serves s.node Cmd.lineConfig path idx pl ∧
      Passes [(decide (pl.length < 3), Rs.lengthBad, 0), badIn (u8 pl 0) 0 2 0] ∧ u8 pl 0 = 2 ∧
      Passes [badLen pl 3, badIn (u8 pl 1) 0 2 1, badIn (u8 pl 2) 0 2 2, (u8 pl 1 == 2 && (s.node.begun path idx).isHead && (s.node.begun path idx).line.cfg.portC == 3 && (s.node.begun path idx).plantSession, Rs.busy, 0)] ∧
      u8 pl 2 = 0) ∧
    (∃ (s : State) (path idx : Nat) (pl : List Byte), Serves s.node Cmd.lineConfig path idx pl ∧
      Passes [(decide (pl.length < 3), Rs.lengthBad, 0), badIn (u8 pl 0) 0 2 0] ∧ u8 pl 0 = 2 ∧
      Passes [badLen pl 3, badIn (u8 pl 1) 0 2 1, badIn (u8 pl 2) 0 2 2, (u8 pl 1 == 2 && (s.node.begun path idx).isHead && (s.node.begun path idx).line.cfg.portC == 3 && (s.node.begun path idx).plantSession, Rs.busy, 0)] ∧
      u8 pl 2 = 1) ∧
    (∃ (s : State) (path idx : Nat) (pl : List Byte), Serves s.node Cmd.lineConfig path idx pl ∧
      Passes [(decide (pl.length < 3), Rs.lengthBad, 0), badIn (u8 pl 0) 0 2 0] ∧ u8 pl 0 = 2 ∧
      Passes [badLen pl 3, badIn (u8 pl 1) 0 2 1, badIn (u8 pl 2) 0 2 2, (u8 pl 1 == 2 && (s.node.begun path idx).isHead && (s.node.begun path idx).line.cfg.portC == 3 && (s.node.begun path idx).plantSession, Rs.busy, 0)] ∧
      u8 pl 2 = 2) ∧
    (∃ (s : State) (path idx : Nat) (pl : List Byte), Serves s.node Cmd.timeStatus path idx pl ∧ Passes [badLen pl 0]) ∧
    (∃ (s : State) (path idx : Nat) (pl : List Byte), Serves s.node Cmd.timeConfig path idx pl ∧
      (Passes [badLen pl 32, badIn (u8 pl 0) 0 (if (s.node.begun path idx).isHead = true then 2 else 0) 0, badRange (u8 pl 0 == 1 && (s.node.begun path idx).line.cfg.portC != 3) 0, badRange (decide (toSigned 8 (u8 pl 1) < -7 ∨ 0 < toSigned 8 (u8 pl 1))) 1, badRes pl 2 2, badRange (!(b32.lt 0 (u32 pl 4) && b32.le (u32 pl 4) 0x3F800000)) 4, badRange (!(b32.le 0 (u32 pl 8) && b32.lt (u32 pl 8) (u32 pl 4))) 8, badIn (u16 pl 12) 1 3600 12, badIn (u16 pl 14) 1 1000 14, badRange (field (u32 pl 16) 30 29 != 0 || (!bit (u32 pl 16) 31 && decide (0x7FF < u32 pl 16))) 16, badIn (u16 pl 20) 0 1000 20, badRange (!(s.node.begun path idx).isHead && u16 pl 22 != 0) 22, badRange (!((s.node.begun path idx).isHead && u8 pl 0 == 2) && u64 pl 24 != 0) 24]) ∧
      (s.node.begun path idx).cfgRo = false) ∧
    (∃ (s : State) (path idx : Nat) (pl : List Byte), Serves s.node Cmd.levelRaise path idx pl ∧
      Passes [badLen pl 4, badRes pl 1 3, (!(s.node.begun path idx).isHead, Rs.busy, 0), badRange (u8 pl 0 != (s.node.begun path idx).line.level + 1) 0, (decide (ownLevel < u8 pl 0) || (s.node.begun path idx).line.map.any (fun (e : Nat × MapNode) => decide (e.2.level < u8 pl 0)), Rs.levelNotUniform, 0)]) :=
  ⟨⟨served Cmd.lineStatus ([2, 0, 0, 0]) id, 1, 0, ([2, 0, 0, 0] : List Byte), by decide⟩,
   ⟨served Cmd.lineConfig ([0, 2, 1, 3, 255, 254, 255, 7, 16, 39, 0, 0, 6, 39, 0, 0, 63, 0, 0, 0]) id, 1, 0, ([0, 2, 1, 3, 255, 254, 255, 7, 16, 39, 0, 0, 6, 39, 0, 0, 63, 0, 0, 0] : List Byte), by decide⟩,
   ⟨served Cmd.lineConfig ([1, 2, 1, 0, 64, 66, 15, 0, 255, 0, 0, 0]) id, 1, 0, ([1, 2, 1, 0, 64, 66, 15, 0, 255, 0, 0, 0] : List Byte), by decide⟩,
   ⟨served Cmd.lineConfig ([2, 2, 0]) id, 1, 0, ([2, 2, 0] : List Byte), by decide⟩,
   ⟨served Cmd.lineConfig ([2, 2, 1]) id, 1, 0, ([2, 2, 1] : List Byte), by decide⟩,
   ⟨served Cmd.lineConfig ([2, 2, 2]) id, 1, 0, ([2, 2, 2] : List Byte), by decide⟩,
   ⟨served Cmd.timeStatus ([]) id, 1, 0, ([] : List Byte), by decide⟩,
   ⟨served Cmd.timeConfig ([0, 0, 0, 0, 0, 0, 128, 63, 0, 0, 0, 0, 16, 14, 232, 3, 255, 7, 0, 0, 232, 3, 0, 0, 0, 0, 0, 0, 0, 0, 0, 0]) id, 1, 0, ([0, 0, 0, 0, 0, 0, 128, 63, 0, 0, 0, 0, 16, 14, 232, 3, 255, 7, 0, 0, 232, 3, 0, 0, 0, 0, 0, 0, 0, 0, 0, 0] : List Byte), by decide⟩,
   ⟨served Cmd.levelRaise ([5, 0, 0, 0]) (fun n => { n with line := { n.line with level := 4, cfg := { head := true } } }), 1, 0, ([5, 0, 0, 0] : List Byte), by decide⟩⟩

set_option maxRecDepth 20000 in
/-- The hypotheses of every clause of ZoneBusCommandsComplete are met. -/
theorem witness_ZoneBusCommandsComplete :
    (∃ (s : State) (path idx : Nat) (pl : List Byte) (started : Bool), Serves s.node Cmd.zbConfig path idx pl ∧
      Passes [(decide (pl.length < 1), Rs.lengthBad, 0), badIn (u8 pl 0) 0 2 0] ∧ u8 pl 0 = 0 ∧
      Passes (zbSettingChecks pl ++ [(!((s.node.begun path idx).zb.mode == 0 || u8 pl 1 == 0 || ((u8 pl 1 == 1 || u8 pl 1 == 2) && ((s.node.begun path idx).zb.mode == 1 || (s.node.begun path idx).zb.mode == 2) && (s.node.begun path idx).zb.sameSettings pl)), Rs.busy, 0)]) ∧
      (s.node.begun path idx).cfgRo = false) ∧
    (∃ (s : State) (path idx : Nat) (pl : List Byte) (started : Bool), Serves s.node Cmd.zbConfig path idx pl ∧
      Passes [(decide (pl.length < 1), Rs.lengthBad, 0), badIn (u8 pl 0) 0 2 0] ∧ u8 pl 0 = 1 ∧
      (Passes [badLen pl 16, badIn (u8 pl 1) 0 31 1, badIn (u8 pl 2) 0 3 2, badIn (u8 pl 3) 0 2 3, badIn (u8 pl 4) 0 1 4, badRes pl 5 3, badIn (u32 pl 8) 0 (if u8 pl 4 = 1 then 0x1FFFFFFF else 0x7FF) 8, badIn (u32 pl 12) 0 (if u8 pl 4 = 1 then 0x1FFFFFFF else 0x7FF) 12, badRange (u8 pl 2 == 2 && (s.node.begun path idx).zb.filters.any (fun e => e.1 != u8 pl 1 && e.2.action == 2)) 2]) ∧
      (s.node.begun path idx).cfgRo = false) ∧
    (∃ (s : State) (path idx : Nat) (pl : List Byte) (started : Bool), Serves s.node Cmd.zbConfig path idx pl ∧
      Passes [(decide (pl.length < 1), Rs.lengthBad, 0), badIn (u8 pl 0) 0 2 0] ∧ u8 pl 0 = 2 ∧
      Passes [badLen pl 8, badRes pl 1 3, badRange (!(s.node.begun path idx).zbRingOk (u32 pl 4)) 4] ∧ (s.node.begun path idx).cfgRo = false) ∧
    (∃ (s : State) (path idx : Nat) (pl : List Byte), Serves s.node Cmd.zbStatus path idx pl ∧ Passes [badLen pl 0]) ∧
    (∃ (s : State) (path idx : Nat) (pl : List Byte) (started : Bool), Serves s.node Cmd.zbSend path idx pl ∧
      (Passes [(decide (pl.length < 8), Rs.lengthBad, 0), badLen pl (8 + u8 pl 6), ((s.node.begun path idx).zb.st == .busOff || (s.node.begun path idx).zb.st == .recovering, Rs.zbBusOff, 0), ((s.node.begun path idx).zb.st == .off || (s.node.begun path idx).zb.st == .offline || (s.node.begun path idx).zb.st == .restricted, Rs.busy, 0), (decide (32 ≤ (s.node.begun path idx).zb.fifo.length), Rs.zbFifoFull, 0), badRange (field (u32 pl 0) 30 29 != 0 || (!bit (u32 pl 0) 31 && decide (0x7FF < u32 pl 0))) 0, (decide (8 ≤ u8 pl 4), Rs.paramReserved, 4), badRange ((bit (u8 pl 4) 0 || bit (u8 pl 4) 1) && !(s.node.begun path idx).zb.fdOn) 4, badRange (bit (u8 pl 4) 1 && !bit (u8 pl 4) 0) 4, badRange (decide (15 < u8 pl 5) && u8 pl 5 != 0xFF) 5, badRange (if bit (u8 pl 4) 0 = true then !fdLengths.contains (u8 pl 6) else decide (8 < u8 pl 6)) 6, badRes pl 7 1, badRange ((s.node.begun path idx).zbTaken (u32 pl 0)) 0])) ∧
    (∃ (s : State) (path idx : Nat) (x : ZbMsg), s.node.zb.fifo.find? (fun x => x.src == .host (path * 16 + idx)) = some x) ∧
    (∃ (s : State) (path idx : Nat) (pl : List Byte), Serves s.node Cmd.zbRecover path idx pl ∧ Passes [badLen pl 0]) :=
  ⟨⟨served Cmd.zbConfig ([0, 3, 127, 0, 1, 0, 119, 0, 40, 40, 1, 14, 5, 5, 127, 63, 96, 234, 0, 0]) id, 1, 0, ([0, 3, 127, 0, 1, 0, 119, 0, 40, 40, 1, 14, 5, 5, 127, 63, 96, 234, 0, 0] : List Byte), true, by decide⟩,
   ⟨served Cmd.zbConfig ([1, 31, 3, 2, 1, 0, 0, 0, 255, 255, 255, 31, 0, 0, 0, 0]) id, 1, 0, ([1, 31, 3, 2, 1, 0, 0, 0, 255, 255, 255, 31, 0, 0, 0, 0] : List Byte), true, by decide⟩,
   ⟨served Cmd.zbConfig ([2, 0, 0, 0, 0, 0, 0, 0]) id, 1, 0, ([2, 0, 0, 0, 0, 0, 0, 0] : List Byte), true, by decide⟩,
   ⟨served Cmd.zbStatus ([]) id, 1, 0, ([] : List Byte), by decide⟩,
   ⟨served Cmd.zbSend ([255, 255, 255, 159, 7, 15, 12, 0, 9, 9, 9, 9, 9, 9, 9, 9, 9, 9, 9, 9]) (fun n => { n with zb := { n.zb with st := .errorActive, flags := 3 } }), 1, 0, ([255, 255, 255, 159, 7, 15, 12, 0, 9, 9, 9, 9, 9, 9, 9, 9, 9, 9, 9, 9] : List Byte), true, by decide⟩,
   ⟨up (fun n => { n with zb := { n.zb with fifo := [{ ident := 5, fd := false, brs := false, data := [], limit := 15, src := .host 16 }] } }), 1, 0, { ident := 5, fd := false, brs := false, data := [], limit := 15, src := .host 16 }, by decide⟩,
   ⟨served Cmd.zbRecover ([]) (fun n => { n with zb := { n.zb with st := .busOff } }), 1, 0, ([] : List Byte), by decide⟩⟩

set_option maxRecDepth 20000 in
/-- The hypotheses of every clause of CustodyCommandsComplete are met. -/
theorem witness_CustodyCommandsComplete :
    (∃ (s : State) (path idx : Nat) (pl : List Byte) (e : Nat × CRec), Serves s.node Cmd.custodyRead path idx pl ∧
      (Passes [badLen pl 12, badIn (u8 pl 8) 0 1 8, badRes pl 9 3, (if u8 pl 8 = 0 then ((s.node.begun path idx).parcel (u64 pl 0)).isNone else ((s.node.begun path idx).cust.up.find? (fun (e : Nat × Copy) => e.2.body.parcel == (u64 pl 0))).isNone && ((s.node.begun path idx).cust.down.find? (fun (e : Nat × Copy) => e.2.body.parcel == (u64 pl 0))).isNone, Rs.parcelUnknown, 0)]) ∧
      u8 pl 8 = 0 ∧ (s.node.begun path idx).parcel (u64 pl 0) = some e) ∧
    (∃ (s : State) (path idx : Nat) (pl : List Byte) (e : Nat × Copy), Serves s.node Cmd.custodyRead path idx pl ∧
      (Passes [badLen pl 12, badIn (u8 pl 8) 0 1 8, badRes pl 9 3, (if u8 pl 8 = 0 then ((s.node.begun path idx).parcel (u64 pl 0)).isNone else ((s.node.begun path idx).cust.up.find? (fun (e : Nat × Copy) => e.2.body.parcel == (u64 pl 0))).isNone && ((s.node.begun path idx).cust.down.find? (fun (e : Nat × Copy) => e.2.body.parcel == (u64 pl 0))).isNone, Rs.parcelUnknown, 0)]) ∧
      u8 pl 8 ≠ 0 ∧ (s.node.begun path idx).cust.up.find? (fun (e : Nat × Copy) => e.2.body.parcel == (u64 pl 0)) = some e) ∧
    (∃ (s : State) (path idx : Nat) (pl : List Byte) (e : Nat × Copy), Serves s.node Cmd.custodyRead path idx pl ∧
      (Passes [badLen pl 12, badIn (u8 pl 8) 0 1 8, badRes pl 9 3, (if u8 pl 8 = 0 then ((s.node.begun path idx).parcel (u64 pl 0)).isNone else ((s.node.begun path idx).cust.up.find? (fun (e : Nat × Copy) => e.2.body.parcel == (u64 pl 0))).isNone && ((s.node.begun path idx).cust.down.find? (fun (e : Nat × Copy) => e.2.body.parcel == (u64 pl 0))).isNone, Rs.parcelUnknown, 0)]) ∧
      u8 pl 8 ≠ 0 ∧ (s.node.begun path idx).cust.up.find? (fun (e : Nat × Copy) => e.2.body.parcel == (u64 pl 0)) = none ∧
      (s.node.begun path idx).cust.down.find? (fun (e : Nat × Copy) => e.2.body.parcel == (u64 pl 0)) = some e) ∧
    (∃ (s : State) (path idx : Nat) (pl : List Byte), Serves s.node Cmd.custodyList path idx pl ∧
      Passes [badLen pl 4, badIn (u8 pl 0) 0 31 0, badRes pl 1 1, badIn (u16 pl 2) 0 4095 2]) ∧
    (∃ (s : State) (path idx : Nat) (pl : List Byte) (e : Nat × CRec), Serves s.node Cmd.custodyResolve path idx pl ∧
      Passes [badLen pl 20, badIn (u8 pl 8) 0 3 8, badRes pl 9 1, (((s.node.begun path idx).parcel (u64 pl 0)).isNone, Rs.parcelUnknown, 0), (u8 pl 8 == 2 && ((s.node.begun path idx).parcel (u64 pl 12)).isNone, Rs.parcelUnknown, 12)] ∧
      u8 pl 8 = 0 ∧ (s.node.begun path idx).parcel (u64 pl 0) = some e ∧ e.2.st = .uncertain) ∧
    (∃ (s : State) (path idx : Nat) (pl : List Byte) (e : Nat × CRec), Serves s.node Cmd.custodyResolve path idx pl ∧
      Passes [badLen pl 20, badIn (u8 pl 8) 0 3 8, badRes pl 9 1, (((s.node.begun path idx).parcel (u64 pl 0)).isNone, Rs.parcelUnknown, 0), (u8 pl 8 == 2 && ((s.node.begun path idx).parcel (u64 pl 12)).isNone, Rs.parcelUnknown, 12)] ∧
      u8 pl 8 = 1 ∧ (s.node.begun path idx).parcel (u64 pl 0) = some e ∧ (e.2.st = .uncertain ∨ e.2.st = .held)) ∧
    (∃ (s : State) (path idx : Nat) (pl : List Byte) (e g : Nat × CRec), Serves s.node Cmd.custodyResolve path idx pl ∧
      Passes [badLen pl 20, badIn (u8 pl 8) 0 3 8, badRes pl 9 1, (((s.node.begun path idx).parcel (u64 pl 0)).isNone, Rs.parcelUnknown, 0), (u8 pl 8 == 2 && ((s.node.begun path idx).parcel (u64 pl 12)).isNone, Rs.parcelUnknown, 12)] ∧
      u8 pl 8 = 2 ∧ (s.node.begun path idx).parcel (u64 pl 0) = some e ∧ e.2.st = .uncertain ∧ (s.node.begun path idx).parcel (u64 pl 12) = some g ∧
      g.2.st = .held) ∧
    (∃ (s : State) (path idx : Nat) (pl : List Byte) (e : Nat × CRec), Serves s.node Cmd.custodyResolve path idx pl ∧
      Passes [badLen pl 20, badIn (u8 pl 8) 0 3 8, badRes pl 9 1, (((s.node.begun path idx).parcel (u64 pl 0)).isNone, Rs.parcelUnknown, 0), (u8 pl 8 == 2 && ((s.node.begun path idx).parcel (u64 pl 12)).isNone, Rs.parcelUnknown, 12)] ∧
      u8 pl 8 = 3 ∧ (s.node.begun path idx).parcel (u64 pl 0) = some e ∧ e.2.st = .held) ∧
    (∃ (s : State) (path idx : Nat) (pl : List Byte), Serves s.node Cmd.custodyConfig path idx pl ∧
      Passes [(decide (pl.length < 1), Rs.lengthBad, 0), badIn (u8 pl 0) 0 2 0] ∧ u8 pl 0 = 0 ∧
      (Passes [badLen pl 32, badIn (u8 pl 1) 0 1 1, badRange (if (u8 pl 1 == 1) = true then !(decide ((u16 pl 2) < numStalls) && (((s.node.begun path idx).stall (u16 pl 2)).kd == K.position || ((s.node.begun path idx).stall (u16 pl 2)).kd == K.axis || ((s.node.begun path idx).stall (u16 pl 2)).kd == K.linepoint)) else (u16 pl 2) != 0xFFFF) 2, badRange (if (u8 pl 1 == 1) = true then !(u32 pl 4 / 2 ^ 23 % 256 != 255) || u32 pl 4 % 2 ^ 31 == 0 else u32 pl 4 != 0) 4, badRange (if (u8 pl 1 == 1) = true then u32 pl 8 != 0 else decide (u32 pl 8 < 1 ∨ 10000 < u32 pl 8)) 8, badIn (u16 pl 12) 100 1000 12, badIn (u16 pl 14) 10 5000 14, badRange (u32 pl 16 != 0xFFFFFFFF && (field (u32 pl 16) 30 29 != 0 || (!bit (u32 pl 16) 31 && decide (0x7FF < u32 pl 16)))) 16, badIn (u8 pl 24) 0 15 24, badRes pl 25 7, ((s.node.begun path idx).cust.busy, Rs.busy, 0)]) ∧
      (s.node.begun path idx).cfgRo = false) ∧
    (∃ (s : State) (path idx : Nat) (pl : List Byte), Serves s.node Cmd.custodyConfig path idx pl ∧
      Passes [(decide (pl.length < 1), Rs.lengthBad, 0), badIn (u8 pl 0) 0 2 0] ∧ u8 pl 0 = 1 ∧
      (Passes [badLen pl 16, badIn (u8 pl 1) 0 15 1, badIn (u8 pl 2) 0 2 2, badIn (u8 pl 3) 0 (if u8 pl 2 = 1 then 2 else 0) 3, badRange (u8 pl 2 != 0 && !(s.node.begun path idx).eyeOk (u16 pl 4)) 4, badRange (decide (63 < u8 pl 6) && u8 pl 6 != 0xFF) 6, badRes pl 7 1, badRange (decide (s32 pl 8 < s32 pl 12)) 12, ((s.node.begun path idx).cust.busy, Rs.busy, 0)]) ∧
      (s.node.begun path idx).cfgRo = false) ∧
    (∃ (s : State) (path idx : Nat) (pl : List Byte), Serves s.node Cmd.custodyConfig path idx pl ∧
      Passes [(decide (pl.length < 1), Rs.lengthBad, 0), badIn (u8 pl 0) 0 2 0] ∧ u8 pl 0 = 2 ∧
      Passes ([(decide (pl.length < 4), Rs.lengthBad, 0), badIn (u8 pl 1) 0 63 1, badIn (u8 pl 2) 1 32 2, badLen pl (4 + 8 * u8 pl 2), badRange (decide (64 < u8 pl 1 + u8 pl 2)) 1, badRes pl 3 1] ++ (List.range (u8 pl 2)).flatMap (fun i => [badRange (decide (15 < u8 pl (8 + 8 * i)) && u8 pl (8 + 8 * i) != 0xFF) (8 + 8 * i), badRes pl (9 + 8 * i) 3])) ∧
      (s.node.begun path idx).cfgRo = false) :=
  ⟨⟨served Cmd.custodyRead ([9, 0, 0, 0, 0, 0, 0, 0, 0, 0, 0, 0]) (fun n => { n with cust := { n.cust with own := [(3, { parcel := 9, st := .held })] } }), 1, 0, ([9, 0, 0, 0, 0, 0, 0, 0, 0, 0, 0, 0] : List Byte), (3, { parcel := 9, st := .held }), by decide⟩,
   ⟨served Cmd.custodyRead ([9, 0, 0, 0, 0, 0, 0, 0, 1, 0, 0, 0]) (fun n => { n with cust := { n.cust with up := [(3, { body := { parcel := 9 }, clean := true, port := 0 })] } }), 1, 0, ([9, 0, 0, 0, 0, 0, 0, 0, 1, 0, 0, 0] : List Byte), (3, { body := { parcel := 9 }, clean := true, port := 0 }), by decide⟩,
   ⟨served Cmd.custodyRead ([9, 0, 0, 0, 0, 0, 0, 0, 1, 0, 0, 0]) (fun n => { n with cust := { n.cust with down := [(3, { body := { parcel := 9 }, clean := true, port := 1 })] } }), 1, 0, ([9, 0, 0, 0, 0, 0, 0, 0, 1, 0, 0, 0] : List Byte), (3, { body := { parcel := 9 }, clean := true, port := 1 }), by decide⟩,
   ⟨served Cmd.custodyList ([31, 0, 255, 15]) (fun n => { n with cust := { n.cust with own := [(3, { parcel := 9, st := .held })] } }), 1, 0, ([31, 0, 255, 15] : List Byte), by decide⟩,
   ⟨served Cmd.custodyResolve ([9, 0, 0, 0, 0, 0, 0, 0, 0, 0, 0, 0, 0, 0, 0, 0, 0, 0, 0, 0]) (fun n => { n with cust := { n.cust with own := [(3, { parcel := 9, st := .uncertain })] } }), 1, 0, ([9, 0, 0, 0, 0, 0, 0, 0, 0, 0, 0, 0, 0, 0, 0, 0, 0, 0, 0, 0] : List Byte), (3, { parcel := 9, st := .uncertain }), by decide⟩,
   ⟨served Cmd.custodyResolve ([9, 0, 0, 0, 0, 0, 0, 0, 1, 0, 0, 0, 0, 0, 0, 0, 0, 0, 0, 0]) (fun n => { n with cust := { n.cust with own := [(3, { parcel := 9, st := .held })] } }), 1, 0, ([9, 0, 0, 0, 0, 0, 0, 0, 1, 0, 0, 0, 0, 0, 0, 0, 0, 0, 0, 0] : List Byte), (3, { parcel := 9, st := .held }), by decide⟩,
   ⟨served Cmd.custodyResolve ([9, 0, 0, 0, 0, 0, 0, 0, 2, 0, 0, 0, 10, 0, 0, 0, 0, 0, 0, 0]) (fun n => { n with cust := { n.cust with own := [(3, { parcel := 9, st := .uncertain }), (4, { parcel := 10, st := .held })] } }), 1, 0, ([9, 0, 0, 0, 0, 0, 0, 0, 2, 0, 0, 0, 10, 0, 0, 0, 0, 0, 0, 0] : List Byte), (3, { parcel := 9, st := .uncertain }), (4, { parcel := 10, st := .held }), by decide⟩,
   ⟨served Cmd.custodyResolve ([9, 0, 0, 0, 0, 0, 0, 0, 3, 0, 255, 255, 0, 0, 0, 0, 0, 0, 0, 0]) (fun n => { n with cust := { n.cust with own := [(3, { parcel := 9, st := .held })] } }), 1, 0, ([9, 0, 0, 0, 0, 0, 0, 0, 3, 0, 255, 255, 0, 0, 0, 0, 0, 0, 0, 0] : List Byte), (3, { parcel := 9, st := .held }), by decide⟩,
   ⟨served Cmd.custodyConfig ([0, 0, 255, 255, 0, 0, 0, 0, 16, 39, 0, 0, 232, 3, 136, 19, 255, 255, 255, 255, 0, 0, 0, 0, 15, 0, 0, 0, 0, 0, 0, 0]) id, 1, 0, ([0, 0, 255, 255, 0, 0, 0, 0, 16, 39, 0, 0, 232, 3, 136, 19, 255, 255, 255, 255, 0, 0, 0, 0, 15, 0, 0, 0, 0, 0, 0, 0] : List Byte), by decide⟩,
   ⟨served Cmd.custodyConfig ([1, 15, 0, 0, 0, 0, 255, 0, 5, 0, 0, 0, 5, 0, 0, 0]) id, 1, 0, ([1, 15, 0, 0, 0, 0, 255, 0, 5, 0, 0, 0, 5, 0, 0, 0] : List Byte), by decide⟩,
   ⟨served Cmd.custodyConfig ([2, 63, 1, 0, 1, 0, 9, 0, 15, 0, 0, 0]) id, 1, 0, ([2, 63, 1, 0, 1, 0, 9, 0, 15, 0, 0, 0] : List Byte), by decide⟩⟩

set_option maxRecDepth 20000 in
/-- The hypotheses of every clause of LiftAndGateCommandsComplete are met. -/
theorem witness_LiftAndGateCommandsComplete :
    (∃ (s : State) (path idx : Nat) (pl : List Byte) (r : Nat × Nat × Node), Serves s.node Cmd.liftCall path idx pl ∧
      Passes [badLen pl 4, badIn (u8 pl 0) 0 3 0, badIn (u8 pl 2) 0 2 2, badRes pl 3 1] ∧
      r = (s.node.begun path idx).liftCall (u8 pl 0) (u8 pl 1) (u8 pl 2) ∧ r.1 = Rs.ok) ∧
    (∃ (s : State) (path idx : Nat) (pl : List Byte), Serves s.node Cmd.liftStatus path idx pl ∧
      Passes [badLen pl 4, badIn (u8 pl 0) 0 3 0, badRes pl 1 3]) ∧
    (∃ (s : State) (path idx : Nat) (pl : List Byte), Serves s.node Cmd.liftConfig path idx pl ∧
      Passes [(decide (pl.length < 2), Rs.lengthBad, 0), badIn (u8 pl 1) 0 3 1] ∧ u8 pl 1 = 0 ∧
      (Passes [badLen pl 36, badIn (u8 pl 0) 0 3 0, (((s.node.begun path idx).liftEntry (u8 pl 0)).active, Rs.chanBusy, 0), badRes pl 2 2, badRange (!finiteNonzero (u32 pl 4)) 4, badRange (!finiteNonzero (u32 pl 8)) 8, badRange (if ((s.node.begun path idx).liftStall (u8 pl 0)).isSome = true then (if ((s.node.begun path idx).stall (((s.node.begun path idx).liftEntry (u8 pl 0)).pf 10 2)).kd = K.axis then (u32 pl 12) != 0 else !(b32.le 0x3F800000 (u32 pl 12) && b32.le (u32 pl 12) 0x461C4000)) else !((b32.le 0x3F800000 (u32 pl 12) && b32.le (u32 pl 12) 0x461C4000) || (u32 pl 12) == 0)) 12, badIn (u16 pl 16) 1 500 16, badIn (u16 pl 18) 10 1000 18, badIn (u16 pl 20) 10 30 20, badIn (u16 pl 22) 1 30 22, badIn (u32 pl 24) 1 10000000 24, badIn (u16 pl 28) 0 60000 28, badIn (u8 pl 30) 0 1 30, badRange (decide (63 < u8 pl 31) && u8 pl 31 != 0xFF) 31, badRange (decide (15 < u8 pl 32) && u8 pl 32 != 0xFF) 32, badRes pl 33 1, badIn (u16 pl 34) 0 3600 34]) ∧
      (s.node.begun path idx).cfgRo = false) ∧
    (∃ (s : State) (path idx : Nat) (pl : List Byte), Serves s.node Cmd.liftConfig path idx pl ∧
      Passes [(decide (pl.length < 2), Rs.lengthBad, 0), badIn (u8 pl 1) 0 3 1] ∧ u8 pl 1 = 1 ∧
      Passes [(decide (pl.length < 4), Rs.lengthBad, 0), badIn (u8 pl 0) 0 3 0, (((s.node.begun path idx).liftEntry (u8 pl 0)).active, Rs.chanBusy, 0), badIn (u8 pl 3) 1 16 3, badRange (decide (16 < u8 pl 2 + u8 pl 3)) 3, badLen pl (4 + 4 * u8 pl 3)] ∧
      (s.node.begun path idx).cfgRo = false) ∧
    (∃ (s : State) (path idx : Nat) (pl : List Byte), Serves s.node Cmd.liftConfig path idx pl ∧
      Passes [(decide (pl.length < 2), Rs.lengthBad, 0), badIn (u8 pl 1) 0 3 1] ∧ u8 pl 1 = 2 ∧
      (Passes [badLen pl 36, badIn (u8 pl 0) 0 15 0, (((s.node.begun path idx).gateEntry (u8 pl 0)).active, Rs.chanBusy, 0), badRes pl 2 2, badIn (u16 pl 4) 10 5000 4, badIn (u16 pl 6) 100 30000 6, badIn (u16 pl 8) 100 30000 8, badIn (u16 pl 10) 10 5000 10, badIn (u16 pl 12) 0 30000 12, badRange (if (((s.node.begun path idx).gateStall (u8 pl 0)).isSome && ((s.node.begun path idx).stall (((s.node.begun path idx).gateEntry (u8 pl 0)).pf 10 2)).kd != K.prot) = true then u16 pl 14 != 0 else if ((s.node.begun path idx).gateStall (u8 pl 0)).isSome = true then decide (u16 pl 14 < 100 ∨ 3000 < u16 pl 14) else u16 pl 14 != 0 && decide (u16 pl 14 < 100 ∨ 3000 < u16 pl 14)) 14, badRange (decide (1000000 < u32 pl 16) || (((s.node.begun path idx).gateStall (u8 pl 0)).isSome && !(((s.node.begun path idx).stall (((s.node.begun path idx).gateEntry (u8 pl 0)).pf 10 2)).kd == K.axis) && u32 pl 16 != 0)) 16, badRange (((s.node.begun path idx).gateStall (u8 pl 0)).isSome && !(((s.node.begun path idx).stall (((s.node.begun path idx).gateEntry (u8 pl 0)).pf 10 2)).kd == K.axis) && u64 pl 20 != 0) 20, badRange (((s.node.begun path idx).gateStall (u8 pl 0)).isSome && !(((s.node.begun path idx).stall (((s.node.begun path idx).gateEntry (u8 pl 0)).pf 10 2)).kd == K.axis) && u64 pl 28 != 0) 28]) ∧
      (s.node.begun path idx).cfgRo = false) ∧
    (∃ (s : State) (path idx : Nat) (pl : List Byte), Serves s.node Cmd.liftConfig path idx pl ∧
      Passes [(decide (pl.length < 2), Rs.lengthBad, 0), badIn (u8 pl 1) 0 3 1] ∧ u8 pl 1 = 3 ∧
      (Passes [badLen pl 3, badIn (u8 pl 2) 0 2 2, badIn (u8 pl 0) 0 (if u8 pl 2 = 2 then 15 else 3) 0])) ∧
    (∃ (s : State) (path idx : Nat) (pl : List Byte) (r : Nat × Node), Serves s.node Cmd.gateCommand path idx pl ∧
      Passes [badLen pl 4, badIn (u8 pl 0) 0 15 0, badIn (u8 pl 1) 0 2 1, badRes pl 2 2] ∧ r = (s.node.begun path idx).gateCommand (u8 pl 0) (u8 pl 1) ∧
      r.1 = Rs.ok) :=
  ⟨⟨served Cmd.liftCall ([3, 255, 2, 0]) (fun n => n.setStall 64 { n.stall 64 with kind := 0x15, part := 3, st := .running }), 1, 0, ([3, 255, 2, 0] : List Byte), _, by exact ⟨by decide, by decide, rfl, by decide⟩⟩,
   ⟨served Cmd.liftStatus ([3, 0, 0, 0]) id, 1, 0, ([3, 0, 0, 0] : List Byte), by decide⟩,
   ⟨served Cmd.liftConfig ([3, 0, 0, 0, 0, 0, 128, 63, 0, 0, 128, 191, 0, 64, 28, 70, 244, 1, 232, 3, 30, 0, 30, 0, 128, 150, 152, 0, 96, 234, 1, 63, 15, 0, 16, 14]) id, 1, 0, ([3, 0, 0, 0, 0, 0, 128, 63, 0, 0, 128, 191, 0, 64, 28, 70, 244, 1, 232, 3, 30, 0, 30, 0, 128, 150, 152, 0, 96, 234, 1, 63, 15, 0, 16, 14] : List Byte), by decide⟩,
   ⟨served Cmd.liftConfig ([3, 1, 15, 1, 7, 0, 0, 0]) id, 1, 0, ([3, 1, 15, 1, 7, 0, 0, 0] : List Byte), by decide⟩,
   ⟨served Cmd.liftConfig ([15, 2, 0, 0, 136, 19, 48, 117, 48, 117, 136, 19, 48, 117, 184, 11, 64, 66, 15, 0, 255, 255, 255, 255, 255, 255, 255, 255, 5, 0, 0, 0, 0, 0, 0, 0]) id, 1, 0, ([15, 2, 0, 0, 136, 19, 48, 117, 48, 117, 136, 19, 48, 117, 184, 11, 64, 66, 15, 0, 255, 255, 255, 255, 255, 255, 255, 255, 5, 0, 0, 0, 0, 0, 0, 0] : List Byte), by decide⟩,
   ⟨served Cmd.liftConfig ([15, 3, 2]) id, 1, 0, ([15, 3, 2] : List Byte), by decide⟩,
   ⟨served Cmd.gateCommand ([15, 2, 0, 0]) (fun n => n.setStall 64 { n.stall 64 with kind := 0x16, part := 15, st := .running }), 1, 0, ([15, 2, 0, 0] : List Byte), _, by exact ⟨by decide, by decide, rfl, by decide⟩⟩⟩

set_option maxRecDepth 20000 in
/-- The hypotheses of every clause of HarvestAndRecorderCommandsComplete are met. -/
theorem witness_HarvestAndRecorderCommandsComplete :
    (∃ (s : State) (path idx : Nat) (pl : List Byte), Serves s.node Cmd.harvestList path idx pl ∧
      Passes [(pl.isEmpty, Rs.lengthBad, 0), badIn (u8 pl 0) 0 3 0] ∧ u8 pl 0 = 0 ∧
      (Passes [badLen pl 20, badIn (u8 pl 1) 0 2 1, badIn (u8 pl 2) 0 1 2, badIn (u8 pl 3) 0 1 3, badIn (u32 pl 4) (if u8 pl 1 = 0 then 10 else 20) 1000000 4, badIn (u16 pl 8) 1 65535 8, badRange (!(u8 pl 2 == 1) && u16 pl 10 != 0) 10, badRange (if (u8 pl 2 == 1) = true then u16 pl 12 == 0 else u16 pl 12 != 0) 12, badRes pl 14 2, badIn (u32 pl 16) 0 100000 16])) ∧
    (∃ (s : State) (path idx : Nat) (pl : List Byte), Serves s.node Cmd.harvestList path idx pl ∧
      Passes [(pl.isEmpty, Rs.lengthBad, 0), badIn (u8 pl 0) 0 3 0] ∧ u8 pl 0 = 1 ∧
      Passes ([(decide (pl.length < 4), Rs.lengthBad, 0), badIn (u8 pl 2) 1 38 2, badLen pl (4 + 12 * u8 pl 2), badIn (u8 pl 1) 0 127 1, badRange (decide (128 < u8 pl 1 + u8 pl 2)) 2, badRes pl 3 1] ++ (List.range (u8 pl 2)).flatMap (fun i => [badRange (decide (1024 ≤ (HvEntry.ofBytes pl (4 + 12 * i)).stall) && !(HvEntry.ofBytes pl (4 + 12 * i)).ends) (4 + 12 * i), badIn (HvEntry.ofBytes pl (4 + 12 * i)).mode 0 2 (4 + 12 * i + 2), badRes pl (4 + 12 * i + 3) 1, badRange ((HvEntry.ofBytes pl (4 + 12 * i)).divider == 0 && !(HvEntry.ofBytes pl (4 + 12 * i)).ends) (4 + 12 * i + 4), badRes pl (4 + 12 * i + 6) 2]))) ∧
    (∃ (s : State) (path idx : Nat) (pl : List Byte), Serves s.node Cmd.harvestList path idx pl ∧
      Passes [(pl.isEmpty, Rs.lengthBad, 0), badIn (u8 pl 0) 0 3 0] ∧ u8 pl 0 = 2 ∧ pl.length = 1 ∧
      (((List.range 128).map (s.node.begun path idx).harv.stagedAt).takeWhile (fun e => !e.ends)).isEmpty = false ∧
      (((List.range 128).map (s.node.begun path idx).harv.stagedAt).drop (((List.range 128).map (s.node.begun path idx).harv.stagedAt).takeWhile (fun e => !e.ends)).length).any (fun e => !e.ends) = false ∧
      (((List.range 128).map (s.node.begun path idx).harv.stagedAt).takeWhile (fun e => !e.ends)).any (fun e => ((s.node.begun path idx).stall e.stall).kd == K.unassigned || (e.mode == 1 && ((s.node.begun path idx).stall e.stall).fm == F.bool) || !(s.node.begun path idx).bandOk e) = false ∧
      hvLoad (s.node.begun path idx).harv.stagedSet (((List.range 128).map (s.node.begun path idx).harv.stagedAt).takeWhile (fun e => !e.ends)) ≤ 2000000 ∧
      (s.node.begun path idx).cfgRo = false ∧ (s.node.begun path idx).mem.harvestTaken ≤ rawPages) ∧
    (∃ (s : State) (path idx : Nat) (pl : List Byte), Serves s.node Cmd.harvestList path idx pl ∧
      Passes [(pl.isEmpty, Rs.lengthBad, 0), badIn (u8 pl 0) 0 3 0] ∧ u8 pl 0 = 3 ∧ u8 pl 1 = 0 ∧ pl.length = 2) ∧
    (∃ (s : State) (path idx : Nat) (pl : List Byte), Serves s.node Cmd.harvestList path idx pl ∧
      Passes [(pl.isEmpty, Rs.lengthBad, 0), badIn (u8 pl 0) 0 3 0] ∧ u8 pl 0 = 3 ∧ u8 pl 1 ≠ 0 ∧
      Passes [badIn (u8 pl 1) 0 1 1, badLen pl 4, badIn (u8 pl 2) 0 127 2, badIn (u8 pl 3) 1 38 3, badRange (decide (128 < u8 pl 2 + u8 pl 3)) 3]) ∧
    (∃ (s : State) (path idx : Nat) (pl : List Byte), Serves s.node Cmd.harvestTrigger path idx pl ∧
      Passes [(decide (pl.length < 4), Rs.lengthBad, 0), badIn (u8 pl 0) 0 31 0, badIn (u8 pl 1) 0 3 1] ∧ u8 pl 1 = 0 ∧
      (Passes [badLen pl 24, badIn (u8 pl 2) 0 3 2, badIn (u8 pl 3) 0 1 3, badRange (if u8 pl 2 = 0 then decide (u8 pl 4 < 1 ∨ 0x0B < u8 pl 4) else u8 pl 4 != 0) 4, badIn (u8 pl 5) 0 1 5, badRange (if u8 pl 2 = 0 then !(s.node.begun path idx).harv.committed.2.any (fun e => e.stall == u16 pl 6) || u16 pl 6 == 0xFFFF else u16 pl 6 != 0xFFFF) 6, badRange (if u8 pl 3 = 1 then decide (60000000 < u32 pl 16) else u32 pl 16 != 0) 16, badRes pl 20 4])) ∧
    (∃ (s : State) (path idx : Nat) (pl : List Byte), Serves s.node Cmd.harvestTrigger path idx pl ∧
      Passes [(decide (pl.length < 4), Rs.lengthBad, 0), badIn (u8 pl 0) 0 31 0, badIn (u8 pl 1) 0 3 1] ∧ u8 pl 1 = 1 ∧ pl.length = 4) ∧
    (∃ (s : State) (path idx : Nat) (pl : List Byte), Serves s.node Cmd.harvestTrigger path idx pl ∧
      Passes [(decide (pl.length < 4), Rs.lengthBad, 0), badIn (u8 pl 0) 0 31 0, badIn (u8 pl 1) 0 3 1] ∧ u8 pl 1 = 2 ∧ pl.length = 4 ∧
      ((s.node.begun path idx).trig (u8 pl 0)).source = 3 ∧ ((s.node.begun path idx).trig (u8 pl 0)).st = .armed) ∧
    (∃ (s : State) (path idx : Nat) (pl : List Byte), Serves s.node Cmd.harvestTrigger path idx pl ∧
      Passes [(decide (pl.length < 4), Rs.lengthBad, 0), badIn (u8 pl 0) 0 31 0, badIn (u8 pl 1) 0 3 1] ∧ u8 pl 1 = 3 ∧ pl.length = 4) ∧
    (∃ (s : State) (path idx : Nat) (pl : List Byte), Serves s.node Cmd.harvestCollector path idx pl ∧
      (Passes [badLen pl 12, badIn (u8 pl 0) 0 3 0, badIn (u8 pl 1) 0 1 1, badRes pl 2 2, badRange (u8 pl 1 == 0 && !collectorAddr (u16 pl 4)) 4, badRes pl 6 2, badRange (u8 pl 1 == 0 && decide (u32 pl 8 < 64 ∨ 100000 < u32 pl 8)) 8, (((s.node.begun path idx).hslot (u8 pl 0)).waiter.isSome, Rs.busy, 0)]) ∧
      u8 pl 1 = 0 ∧ (s.node.begun path idx).ringCap (u8 pl 0) ≠ 0 ∧
      ((((List.range 4).filter (· != (u8 pl 0))).map (fun j => if ((s.node.begun path idx).hslot j).st = .none then 0 else ((s.node.begun path idx).hslot j).share)).sum + u32 pl 8 ≤ 100000) ∧
      (s.node.begun path idx).cfgRo = false) ∧
    (∃ (s : State) (path idx : Nat) (pl : List Byte), Serves s.node Cmd.harvestCollector path idx pl ∧
      (Passes [badLen pl 12, badIn (u8 pl 0) 0 3 0, badIn (u8 pl 1) 0 1 1, badRes pl 2 2, badRange (u8 pl 1 == 0 && !collectorAddr (u16 pl 4)) 4, badRes pl 6 2, badRange (u8 pl 1 == 0 && decide (u32 pl 8 < 64 ∨ 100000 < u32 pl 8)) 8, (((s.node.begun path idx).hslot (u8 pl 0)).waiter.isSome, Rs.busy, 0)]) ∧
      u8 pl 1 = 1 ∧ (s.node.begun path idx).cfgRo = false) ∧
    (∃ (s : State) (path idx : Nat) (pl : List Byte), Serves s.node Cmd.harvestStatus path idx pl ∧ Passes [badLen pl 0]) ∧
    (∃ (s : State) (path idx : Nat) (pl : List Byte), Serves s.node Cmd.eventRead path idx pl ∧
      Passes [badLen pl 12, badIn (u8 pl 0) 0 1 0, badRes pl 1 3, badIn (u16 pl 8) 1 14 8, badRes pl 10 2, ((s.node.begun path idx).rcd.clearing, Rs.busy, 0)]) ∧
    (∃ (s : State) (path idx : Nat) (pl : List Byte), Serves s.node Cmd.eventClear path idx pl ∧
      Passes [badLen pl 88, badIn (u8 pl 12) 0 1 12, badRes pl 13 3, ((s.node.begun path idx).rcd.clearing, Rs.busy, 0)]) ∧
    (∃ (s : State) (path idx : Nat) (pl : List Byte), Serves s.node Cmd.recorderStatus path idx pl ∧
      Passes [badLen pl 0, ((s.node.begun path idx).rcd.clearing, Rs.busy, 0)]) :=
  ⟨⟨served Cmd.harvestList ([0, 2, 1, 1, 20, 0, 0, 0, 255, 255, 0, 0, 1, 0, 0, 0, 160, 134, 1, 0]) id, 1, 0, ([0, 2, 1, 1, 20, 0, 0, 0, 255, 255, 0, 0, 1, 0, 0, 0, 160, 134, 1, 0] : List Byte), by decide⟩,
   ⟨served Cmd.harvestList ([1, 127, 1, 0, 255, 3, 2, 0, 1, 0, 0, 0, 0, 0, 0, 0]) id, 1, 0, ([1, 127, 1, 0, 255, 3, 2, 0, 1, 0, 0, 0, 0, 0, 0, 0] : List Byte), by decide⟩,
   ⟨served Cmd.harvestList ([2]) (fun n => { n.setStall 64 { n.stall 64 with kind := 0x11 } with harv := { n.harv with stagedEnt := [(0, { stall := 64 })] } }), 1, 0, ([2] : List Byte), by refine ⟨by decide, by decide, by decide, by decide, by decide, by decide, by decide, ?_, by decide, by decide⟩; (show hvLoad { } [{ stall := 64 }] ≤ 2000000); norm_num [hvLoad]⟩,
   ⟨served Cmd.harvestList ([3, 0]) id, 1, 0, ([3, 0] : List Byte), by decide⟩,
   ⟨served Cmd.harvestList ([3, 1, 127, 1]) id, 1, 0, ([3, 1, 127, 1] : List Byte), by decide⟩,
   ⟨served Cmd.harvestTrigger ([31, 0, 3, 1, 0, 1, 255, 255, 0, 0, 0, 0, 0, 0, 0, 0, 0, 135, 147, 3, 0, 0, 0, 0]) id, 1, 0, ([31, 0, 3, 1, 0, 1, 255, 255, 0, 0, 0, 0, 0, 0, 0, 0, 0, 135, 147, 3, 0, 0, 0, 0] : List Byte), by decide⟩,
   ⟨served Cmd.harvestTrigger ([31, 1, 0, 0]) id, 1, 0, ([31, 1, 0, 0] : List Byte), by decide⟩,
   ⟨served Cmd.harvestTrigger ([31, 2, 0, 0]) (fun n => n.setTrig 31 { st := .armed, source := 3 }), 1, 0, ([31, 2, 0, 0] : List Byte), by decide⟩,
   ⟨served Cmd.harvestTrigger ([31, 3, 0, 0]) id, 1, 0, ([31, 3, 0, 0] : List Byte), by decide⟩,
   ⟨served Cmd.harvestCollector ([3, 0, 0, 0, 255, 254, 0, 0, 160, 134, 1, 0]) id, 1, 0, ([3, 0, 0, 0, 255, 254, 0, 0, 160, 134, 1, 0] : List Byte), by decide⟩,
   ⟨served Cmd.harvestCollector ([3, 1, 0, 0, 0, 0, 0, 0, 0, 0, 0, 0]) id, 1, 0, ([3, 1, 0, 0, 0, 0, 0, 0, 0, 0, 0, 0] : List Byte), by decide⟩,
   ⟨served Cmd.harvestStatus ([]) id, 1, 0, ([] : List Byte), by decide⟩,
   ⟨served Cmd.eventRead ([1, 0, 0, 0, 255, 255, 255, 255, 14, 0, 0, 0]) id, 1, 0, ([1, 0, 0, 0, 255, 255, 255, 255, 14, 0, 0, 0] : List Byte), by decide⟩,
   ⟨served Cmd.eventClear ([0, 0, 0, 0, 0, 0, 0, 0, 0, 0, 0, 0, 1, 0, 0, 0, 0, 0, 0, 0, 0, 0, 0, 0, 0, 0, 0, 0, 0, 0, 0, 0, 0, 0, 0, 0, 0, 0, 0, 0, 0, 0, 0, 0, 0, 0, 0, 0, 0, 0, 0, 0, 0, 0, 0, 0, 0, 0, 0, 0, 0, 0, 0, 0, 0, 0, 0, 0, 0, 0, 0, 0, 0, 0, 0, 0, 0, 0, 0, 0, 0, 0, 0, 0, 0, 0, 0, 0]) id, 1, 0, ([0, 0, 0, 0, 0, 0, 0, 0, 0, 0, 0, 0, 1, 0, 0, 0, 0, 0, 0, 0, 0, 0, 0, 0, 0, 0, 0, 0, 0, 0, 0, 0, 0, 0, 0, 0, 0, 0, 0, 0, 0, 0, 0, 0, 0, 0, 0, 0, 0, 0, 0, 0, 0, 0, 0, 0, 0, 0, 0, 0, 0, 0, 0, 0, 0, 0, 0, 0, 0, 0, 0, 0, 0, 0, 0, 0, 0, 0, 0, 0, 0, 0, 0, 0, 0, 0, 0, 0] : List Byte), by decide⟩,
   ⟨served Cmd.recorderStatus ([]) id, 1, 0, ([] : List Byte), by decide⟩⟩

set_option maxRecDepth 20000 in
/-- The hypotheses of every clause of SafetyAndGleanerCommandsComplete are met. -/
theorem witness_SafetyAndGleanerCommandsComplete :
    (∃ (s : State) (path idx : Nat) (pl : List Byte), Serves s.node Cmd.safetyStatus path idx pl ∧ Passes [badLen pl 0]) ∧
    (∃ (s : State) (path idx : Nat) (pl : List Byte), Serves s.node Cmd.safetyConfigLoad path idx pl ∧
      Passes [(decide (pl.length < 8), Rs.lengthBad, 0), badIn (u8 pl 0) 0 2 0] ∧ u8 pl 0 = 0 ∧
      Passes [badRes pl 1 1, badIn (u16 pl 4) 1 464 4, badLen pl (8 + u16 pl 4), badRange (decide (sfSize < u16 pl 2 + u16 pl 4)) 2, badRes pl 6 2]) ∧
    (∃ (s : State) (path idx : Nat) (pl : List Byte), Serves s.node Cmd.safetyConfigLoad path idx pl ∧
      Passes [(decide (pl.length < 8), Rs.lengthBad, 0), badIn (u8 pl 0) 0 2 0] ∧ u8 pl 0 = 1) ∧
    (∃ (s : State) (path idx : Nat) (pl : List Byte), Serves s.node Cmd.safetyConfigLoad path idx pl ∧
      Passes [(decide (pl.length < 8), Rs.lengthBad, 0), badIn (u8 pl 0) 0 2 0] ∧ u8 pl 0 = 2 ∧
      Passes [badRes pl 1 1, badIn (u16 pl 4) 1 464 4, badLen pl 8, badRange (decide (sfSize < u16 pl 2 + u16 pl 4)) 2, badRes pl 6 2, ((s.node.begun path idx).safe.cfg.isNone, Rs.notFound, 0)]) ∧
    (∃ (s : State) (path idx : Nat) (pl : List Byte), Serves s.node Cmd.safetyRestart path idx pl ∧
      Passes [badLen pl 4, badRange (decide (31 < (u8 pl 0)) && (u8 pl 0) != 0xFF) 0, badIn (u8 pl 1) 0 1 1, badRes pl 2 2, (u8 pl 1 == 0 && (u8 pl 0) != 0xFF && ((s.node.begun path idx).sfCfg.func (u8 pl 0)).code == 0, Rs.notFound, 0)]) ∧
    (∃ (s : State) (path idx : Nat) (pl : List Byte), Serves s.node Cmd.gleanerRules path idx pl ∧
      (Passes [(decide (pl.length < 4), Rs.lengthBad, 0), badIn (u8 pl 0) 0 2 0, badIn (u8 pl 2) (if u8 pl 0 = 1 then 0 else 1) (if u8 pl 0 = 0 then 28 else if u8 pl 0 = 2 then 20 else 0) 2, badLen pl (if u8 pl 0 = 0 then 4 + 16 * u8 pl 2 else 4), badIn (u8 pl 1) 0 63 1, badRange (decide (64 < u8 pl 1 + u8 pl 2)) 2, badRes pl 3 1]) ∧
      u8 pl 0 = 0) ∧
    (∃ (s : State) (path idx : Nat) (pl : List Byte), Serves s.node Cmd.gleanerRules path idx pl ∧
      (Passes [(decide (pl.length < 4), Rs.lengthBad, 0), badIn (u8 pl 0) 0 2 0, badIn (u8 pl 2) (if u8 pl 0 = 1 then 0 else 1) (if u8 pl 0 = 0 then 28 else if u8 pl 0 = 2 then 20 else 0) 2, badLen pl (if u8 pl 0 = 0 then 4 + 16 * u8 pl 2 else 4), badIn (u8 pl 1) 0 63 1, badRange (decide (64 < u8 pl 1 + u8 pl 2)) 2, badRes pl 3 1]) ∧
      u8 pl 0 = 1 ∧ (s.node.begun path idx).glTableFault (s.node.begun path idx).glean.staged = none ∧
      (s.node.begun path idx).glFits (s.node.begun path idx).glean.staged = true ∧ (s.node.begun path idx).cfgRo = false) ∧
    (∃ (s : State) (path idx : Nat) (pl : List Byte), Serves s.node Cmd.gleanerRules path idx pl ∧
      (Passes [(decide (pl.length < 4), Rs.lengthBad, 0), badIn (u8 pl 0) 0 2 0, badIn (u8 pl 2) (if u8 pl 0 = 1 then 0 else 1) (if u8 pl 0 = 0 then 28 else if u8 pl 0 = 2 then 20 else 0) 2, badLen pl (if u8 pl 0 = 0 then 4 + 16 * u8 pl 2 else 4), badIn (u8 pl 1) 0 63 1, badRange (decide (64 < u8 pl 1 + u8 pl 2)) 2, badRes pl 3 1]) ∧
      u8 pl 0 = 2) ∧
    (∃ (s : State) (path idx : Nat) (pl : List Byte), Serves s.node Cmd.sleepPolicy path idx pl ∧
      (Passes [(decide (pl.length < 1), Rs.lengthBad, 0), badIn (u8 pl 0) 0 1 0, badLen pl (if u8 pl 0 = 0 then 24 else 4)]) ∧ u8 pl 0 = 0 ∧
      Passes ([badIn (u8 pl 1) 0 1 1, (decide (16 ≤ u8 pl 2), Rs.paramReserved, 2), badRange (!([1, 2, 4, 5, 8, 10].contains (u8 pl 3))) 3, badIn (u32 pl 4) 10 3600000 4] ++ (List.range 8).map (fun k => badRange (u16 pl (8 + 2 * k) != noStall && !(decide (u16 pl (8 + 2 * k) < numStalls) && ((s.node.begun path idx).stall (u16 pl (8 + 2 * k))).kd == K.linepoint)) (8 + 2 * k))) ∧
      (s.node.begun path idx).cfgRo = false) ∧
    (∃ (s : State) (path idx : Nat) (pl : List Byte), Serves s.node Cmd.sleepPolicy path idx pl ∧
      (Passes [(decide (pl.length < 1), Rs.lengthBad, 0), badIn (u8 pl 0) 0 1 0, badLen pl (if u8 pl 0 = 0 then 24 else 4)]) ∧ u8 pl 0 = 1 ∧
      Passes [badRes pl 1 3]) ∧
    (∃ (s : State) (path idx : Nat) (pl : List Byte), Serves s.node Cmd.energyRead path idx pl ∧
      Passes [badLen pl 4, (decide (2 ^ 17 ≤ u32 pl 0), Rs.paramReserved, 0)]) :=
  ⟨⟨served Cmd.safetyStatus ([]) id, 1, 0, ([] : List Byte), by decide⟩,
   ⟨served Cmd.safetyConfigLoad ([0, 0, 207, 4, 1, 0, 0, 0, 7]) id, 1, 0, ([0, 0, 207, 4, 1, 0, 0, 0, 7] : List Byte), by decide⟩,
   ⟨served Cmd.safetyConfigLoad ([1, 0, 0, 0, 0, 0, 0, 0]) id, 1, 0, ([1, 0, 0, 0, 0, 0, 0, 0] : List Byte), by decide⟩,
   ⟨served Cmd.safetyConfigLoad ([2, 0, 0, 0, 208, 1, 0, 0]) (fun n => { n with safe := { n.safe with cfg := some {}, cfgBytes := [1] } }), 1, 0, ([2, 0, 0, 0, 208, 1, 0, 0] : List Byte), by decide⟩,
   ⟨served Cmd.safetyRestart ([255, 0, 0, 0]) id, 1, 0, ([255, 0, 0, 0] : List Byte), by decide⟩,
   ⟨served Cmd.gleanerRules ([0, 63, 1, 0, 0, 0, 0, 0, 0, 0, 0, 0, 0, 0, 0, 0, 0, 0, 0, 0]) id, 1, 0, ([0, 63, 1, 0, 0, 0, 0, 0, 0, 0, 0, 0, 0, 0, 0, 0, 0, 0, 0, 0] : List Byte), by decide⟩,
   ⟨served Cmd.gleanerRules ([1, 0, 0, 0]) id, 1, 0, ([1, 0, 0, 0] : List Byte), by decide⟩,
   ⟨served Cmd.gleanerRules ([2, 44, 20, 0]) id, 1, 0, ([2, 44, 20, 0] : List Byte), by decide⟩,
   ⟨served Cmd.sleepPolicy ([0, 1, 15, 10, 128, 238, 54, 0, 255, 255, 255, 255, 255, 255, 255, 255, 255, 255, 255, 255, 255, 255, 255, 255]) id, 1, 0, ([0, 1, 15, 10, 128, 238, 54, 0, 255, 255, 255, 255, 255, 255, 255, 255, 255, 255, 255, 255, 255, 255, 255, 255] : List Byte), by decide⟩,
   ⟨served Cmd.sleepPolicy ([1, 0, 0, 0]) id, 1, 0, ([1, 0, 0, 0] : List Byte), by decide⟩,
   ⟨served Cmd.energyRead ([255, 255, 1, 0]) id, 1, 0, ([255, 255, 1, 0] : List Byte), by decide⟩⟩

set_option maxRecDepth 20000 in
/-- The hypotheses of every clause of SessionCommandsComplete are met. -/
theorem witness_SessionCommandsComplete :
    (∃ (s : State) (path idx : Nat) (pl : List Byte) (e i r : Nat) (pub : BitVec 512), Serves s.node Cmd.sessionHello path idx pl ∧
      Passes [badLen pl 76, badIn (u8 pl 8) 0 3 8, badRes pl 9 3, (((s.node.begun path idx).host.keys.find? (fun (e : Nat × Nat × Nat × BitVec 512) => e.2.1 == (u64 pl 0))).isNone, Rs.keyUnknown, 0), ((match ((s.node.begun path idx).host.keys.find? (fun (e : Nat × Nat × Nat × BitVec 512) => e.2.1 == (u64 pl 0))) with | some (_, _, r, _) => decide (r < u8 pl 8) | none => false), Rs.roleDenied, 0), (((s.node.begun path idx).freeSlot (mbxPath (path * 16 + idx))).isNone, Rs.sessionLimit, 0), (!(s.node.begun path idx).runs Isl.sec, Rs.busy, 0)] ∧
      (s.node.begun path idx).secShort = false ∧
      ((s.node.begun path idx).host.keys.find? (fun (e : Nat × Nat × Nat × BitVec 512) => e.2.1 == (u64 pl 0))) = some (e, i, r, pub)) ∧
    (∃ (s : State) (path idx : Nat) (pl : List Byte) (x : Session), Serves s.node Cmd.sessionConfirm path idx pl ∧ Passes [badLen pl 36] ∧
      (s.node.begun path idx).host.sessions.look (u32 pl 0) = some x ∧ x.halfOpen = true ∧ x.path = (mbxPath (path * 16 + idx)) ∧
      leNat (slice pl 4 32) = x.sA.toNat) ∧
    (∃ (s : State) (path idx : Nat) (pl : List Byte), Serves s.node Cmd.sessionClose path idx pl ∧ Passes [badLen pl 0] ∧
      ((s.node.begun path idx).mbx (path * 16 + idx)).session ≠ 0) ∧
    (∃ (s : State) (path idx : Nat) (pl : List Byte), Serves s.node Cmd.certRead path idx pl ∧ Passes [badLen pl 4, badRes pl 2 2]) ∧
    (∃ (s : State) (path idx : Nat) (pl : List Byte), Serves s.node Cmd.hostkeyAdd path idx pl ∧
      Passes [badLen pl 76, badIn (u8 pl 8) 0 3 8, badRes pl 9 3, badRange ((s.node.begun path idx).host.keyEntry (u64 pl 0)).isNone 0] ∧
      (s.node.begun path idx).cfgRo = false) ∧
    (∃ (s : State) (path idx : Nat) (pl : List Byte), Serves s.node Cmd.hostkeyRemove path idx pl ∧
      Passes [badLen pl 8, (((s.node.begun path idx).host.keys.find? (fun (e : Nat × Nat × Nat × BitVec 512) => e.2.1 == (u64 pl 0))).isNone, Rs.notFound, 0), ((match ((s.node.begun path idx).host.keys.find? (fun (e : Nat × Nat × Nat × BitVec 512) => e.2.1 == (u64 pl 0))) with | some (_, _, r, _) => r == 3 | none => false) && (s.node.begun path idx).host.owners == 1, Rs.busy, 0)] ∧
      (s.node.begun path idx).cfgRo = false) :=
  ⟨⟨served Cmd.sessionHello ([9, 0, 0, 0, 0, 0, 0, 0, 3, 0, 0, 0, 0, 0, 0, 0, 0, 0, 0, 0, 0, 0, 0, 0, 0, 0, 0, 0, 0, 0, 0, 0, 0, 0, 0, 0, 0, 0, 0, 0, 0, 0, 0, 0, 0, 0, 0, 0, 0, 0, 0, 0, 0, 0, 0, 0, 0, 0, 0, 0, 0, 0, 0, 0, 0, 0, 0, 0, 0, 0, 0, 0, 0, 0, 0, 0]) (fun n => { n with host := { n.host with keys := [(0, 9, 3, 5)] } }), 1, 0, ([9, 0, 0, 0, 0, 0, 0, 0, 3, 0, 0, 0, 0, 0, 0, 0, 0, 0, 0, 0, 0, 0, 0, 0, 0, 0, 0, 0, 0, 0, 0, 0, 0, 0, 0, 0, 0, 0, 0, 0, 0, 0, 0, 0, 0, 0, 0, 0, 0, 0, 0, 0, 0, 0, 0, 0, 0, 0, 0, 0, 0, 0, 0, 0, 0, 0, 0, 0, 0, 0, 0, 0, 0, 0, 0, 0] : List Byte), 0, 9, 3, 5, by decide⟩,
   ⟨served Cmd.sessionConfirm ([7, 0, 0, 0, 0, 0, 0, 0, 0, 0, 0, 0, 0, 0, 0, 0, 0, 0, 0, 0, 0, 0, 0, 0, 0, 0, 0, 0, 0, 0, 0, 0, 0, 0, 0, 0]) (fun n => { n with host := { n.host with sessions := [(7, { path := 1, role := 3, keyId := 9, sA := 0 })] } }), 1, 0, ([7, 0, 0, 0, 0, 0, 0, 0, 0, 0, 0, 0, 0, 0, 0, 0, 0, 0, 0, 0, 0, 0, 0, 0, 0, 0, 0, 0, 0, 0, 0, 0, 0, 0, 0, 0] : List Byte), { path := 1, role := 3, keyId := 9, sA := 0 }, by decide⟩,
   ⟨served Cmd.sessionClose ([]) (fun n => n.setMbx 16 { n.mbx 16 with session := 7 }), 1, 0, ([] : List Byte), by decide⟩,
   ⟨served Cmd.certRead ([255, 255, 0, 0]) id, 1, 0, ([255, 255, 0, 0] : List Byte), by decide⟩,
   ⟨served Cmd.hostkeyAdd ([1, 0, 0, 0, 0, 0, 0, 0, 3, 0, 0, 0, 0, 0, 0, 0, 0, 0, 0, 0, 0, 0, 0, 0, 0, 0, 0, 0, 0, 0, 0, 0, 0, 0, 0, 0, 0, 0, 0, 0, 0, 0, 0, 0, 0, 0, 0, 0, 0, 0, 0, 0, 0, 0, 0, 0, 0, 0, 0, 0, 0, 0, 0, 0, 0, 0, 0, 0, 0, 0, 0, 0, 0, 0, 0, 0]) id, 1, 0, ([1, 0, 0, 0, 0, 0, 0, 0, 3, 0, 0, 0, 0, 0, 0, 0, 0, 0, 0, 0, 0, 0, 0, 0, 0, 0, 0, 0, 0, 0, 0, 0, 0, 0, 0, 0, 0, 0, 0, 0, 0, 0, 0, 0, 0, 0, 0, 0, 0, 0, 0, 0, 0, 0, 0, 0, 0, 0, 0, 0, 0, 0, 0, 0, 0, 0, 0, 0, 0, 0, 0, 0, 0, 0, 0, 0] : List Byte), by decide⟩,
   ⟨served Cmd.hostkeyRemove ([9, 0, 0, 0, 0, 0, 0, 0]) (fun n => { n with host := { n.host with keys := [(0, 9, 3, 5), (1, 10, 3, 6)] } }), 1, 0, ([9, 0, 0, 0, 0, 0, 0, 0] : List Byte), by decide⟩⟩

set_option maxRecDepth 20000 in
/-- The hypotheses of every clause of SecurityCommandsComplete are met. -/
theorem witness_SecurityCommandsComplete :
    (∃ (s : State) (path idx : Nat) (pl : List Byte), Serves s.node Cmd.attest path idx pl ∧
      Passes [badLen pl 16, (!(s.node.begun path idx).runs Isl.sec, Rs.busy, 0)] ∧ (s.node.begun path idx).secShort = false) ∧
    (∃ (s : State) (path idx : Nat) (pl : List Byte), Serves s.node Cmd.imageWrite path idx pl ∧
      (Passes [(decide (pl.length < 8), Rs.lengthBad, 0), badIn (u8 pl 0) 0 2 0, badRange (if u8 pl 0 = 0 then decide ((u16 pl 2) < 1 ∨ 472 < (u16 pl 2)) else (u16 pl 2) != 0) 2, badLen pl (8 + (if u8 pl 0 = 0 then (u16 pl 2) else 0)), badIn (u8 pl 1) 0 1 1, ((s.node.begun path idx).siloActive (u8 pl 1), Rs.siloActive, 0), badRange (u8 pl 0 == 0 && (u32 pl 4) != 0 && (u32 pl 4) != ((s.node.begun path idx).silo (u8 pl 1)).high) 4, badRange (u8 pl 0 == 0 && decide (siloSize < (u32 pl 4) + (u16 pl 2))) 2, (u8 pl 0 == 1 && ((s.node.begun path idx).mbx (path * 16 + idx)).session == 0, Rs.noSession, 0)]) ∧
      (s.node.begun path idx).siloRo (u8 pl 1) = false ∧ u8 pl 0 = 0) ∧
    (∃ (s : State) (path idx : Nat) (pl : List Byte), Serves s.node Cmd.imageWrite path idx pl ∧
      (Passes [(decide (pl.length < 8), Rs.lengthBad, 0), badIn (u8 pl 0) 0 2 0, badRange (if u8 pl 0 = 0 then decide ((u16 pl 2) < 1 ∨ 472 < (u16 pl 2)) else (u16 pl 2) != 0) 2, badLen pl (8 + (if u8 pl 0 = 0 then (u16 pl 2) else 0)), badIn (u8 pl 1) 0 1 1, ((s.node.begun path idx).siloActive (u8 pl 1), Rs.siloActive, 0), badRange (u8 pl 0 == 0 && (u32 pl 4) != 0 && (u32 pl 4) != ((s.node.begun path idx).silo (u8 pl 1)).high) 4, badRange (u8 pl 0 == 0 && decide (siloSize < (u32 pl 4) + (u16 pl 2))) 2, (u8 pl 0 == 1 && ((s.node.begun path idx).mbx (path * 16 + idx)).session == 0, Rs.noSession, 0)]) ∧
      (s.node.begun path idx).siloRo (u8 pl 1) = false ∧ u8 pl 0 = 1) ∧
    (∃ (s : State) (path idx : Nat) (pl : List Byte), Serves s.node Cmd.imageWrite path idx pl ∧
      (Passes [(decide (pl.length < 8), Rs.lengthBad, 0), badIn (u8 pl 0) 0 2 0, badRange (if u8 pl 0 = 0 then decide ((u16 pl 2) < 1 ∨ 472 < (u16 pl 2)) else (u16 pl 2) != 0) 2, badLen pl (8 + (if u8 pl 0 = 0 then (u16 pl 2) else 0)), badIn (u8 pl 1) 0 1 1, ((s.node.begun path idx).siloActive (u8 pl 1), Rs.siloActive, 0), badRange (u8 pl 0 == 0 && (u32 pl 4) != 0 && (u32 pl 4) != ((s.node.begun path idx).silo (u8 pl 1)).high) 4, badRange (u8 pl 0 == 0 && decide (siloSize < (u32 pl 4) + (u16 pl 2))) 2, (u8 pl 0 == 1 && ((s.node.begun path idx).mbx (path * 16 + idx)).session == 0, Rs.noSession, 0)]) ∧
      (s.node.begun path idx).siloRo (u8 pl 1) = false ∧ u8 pl 0 = 2) ∧
    (∃ (s : State) (path idx : Nat) (pl : List Byte) (same : Bool) (cut : Nat), Serves s.node Cmd.siloCommit path idx pl ∧
      Passes [badLen pl 4, badIn (u8 pl 0) 0 1 0, badRes pl 1 3, (!(s.node.begun path idx).secServes, Rs.busy, 0), ((s.node.begun path idx).siloActive (u8 pl 0), Rs.siloActive, 0)] ∧
      (s.node.begun path idx).partRo 8 = false) ∧
    (∃ (s : State) (path idx : Nat) (pl : List Byte), Serves s.node Cmd.islandUpdate path idx pl ∧
      (Passes [badLen pl 4, badIn (u8 pl 0) 0 6 0, badIn (u8 pl 1) 0 (if (u8 pl 0) = 5 then 2 else 0) 1, badRes pl 2 2, badRange (s.node.begun path idx).besideGap 0]) ∧
      (s.node.begun path idx).runsImage (u8 pl 0) (u8 pl 1) = true) ∧
    (∃ (s : State) (path idx : Nat) (pl : List Byte), Serves s.node Cmd.islandUpdate path idx pl ∧
      (Passes [badLen pl 4, badIn (u8 pl 0) 0 6 0, badIn (u8 pl 1) 0 (if (u8 pl 0) = 5 then 2 else 0) 1, badRes pl 2 2, badRange (s.node.begun path idx).besideGap 0]) ∧
      (s.node.begun path idx).runsImage (u8 pl 0) (u8 pl 1) = false ∧ (u8 pl 0) = 6) ∧
    (∃ (s : State) (path idx : Nat) (pl : List Byte), Serves s.node Cmd.islandUpdate path idx pl ∧
      (Passes [badLen pl 4, badIn (u8 pl 0) 0 6 0, badIn (u8 pl 1) 0 (if (u8 pl 0) = 5 then 2 else 0) 1, badRes pl 2 2, badRange (s.node.begun path idx).besideGap 0]) ∧
      (s.node.begun path idx).runsImage (u8 pl 0) (u8 pl 1) = false ∧ (u8 pl 0) = 5 ∧
      Passes [(((s.node.begun path idx).port (u8 pl 1)).st == .retired || ((s.node.begun path idx).port (u8 pl 1)).st == .disabled || ((s.node.begun path idx).port (u8 pl 1)).reload.isSome || !(s.node.begun path idx).runs Isl.line, Rs.busy, 0)]) ∧
    (∃ (s : State) (path idx : Nat) (pl : List Byte), Serves s.node Cmd.islandUpdate path idx pl ∧
      (Passes [badLen pl 4, badIn (u8 pl 0) 0 6 0, badIn (u8 pl 1) 0 (if (u8 pl 0) = 5 then 2 else 0) 1, badRes pl 2 2, badRange (s.node.begun path idx).besideGap 0]) ∧
      (s.node.begun path idx).runsImage (u8 pl 0) (u8 pl 1) = false ∧ (u8 pl 0) < 5 ∧
      Passes ((s.node.begun path idx).opRefusals (islandOf (u8 pl 0)) .reload)) ∧
    (∃ (s : State) (path idx : Nat) (pl : List Byte), Serves s.node Cmd.serviceFlagClear path idx pl ∧
      Passes [badLen pl 0, (((s.node.begun path idx).mbx (path * 16 + idx)).session == 0, Rs.noSession, 0)] ∧
      (s.node.begun path idx).partRo 7 = false) :=
  ⟨⟨served Cmd.attest ([7, 7, 7, 7, 7, 7, 7, 7, 7, 7, 7, 7, 7, 7, 7, 7]) id, 1, 0, ([7, 7, 7, 7, 7, 7, 7, 7, 7, 7, 7, 7, 7, 7, 7, 7] : List Byte), by decide⟩,
   ⟨served Cmd.imageWrite ([0, 1, 1, 0, 0, 0, 0, 0, 5]) id, 1, 0, ([0, 1, 1, 0, 0, 0, 0, 0, 5] : List Byte), by decide⟩,
   ⟨served Cmd.imageWrite ([1, 1, 0, 0, 0, 0, 0, 0]) (fun n => n.setMbx 16 { n.mbx 16 with session := 7 }), 1, 0, ([1, 1, 0, 0, 0, 0, 0, 0] : List Byte), by decide⟩,
   ⟨served Cmd.imageWrite ([2, 1, 0, 0, 0, 0, 0, 0]) id, 1, 0, ([2, 1, 0, 0, 0, 0, 0, 0] : List Byte), by decide⟩,
   ⟨served Cmd.siloCommit ([1, 0, 0, 0]) id, 1, 0, ([1, 0, 0, 0] : List Byte), true, 0, by decide⟩,
   ⟨served Cmd.islandUpdate ([0, 0, 0, 0]) (fun n => { n with sec := { n.sec with siloA := oneImage, running := [(0, 0, List.replicate 32 0)] } }), 1, 0, ([0, 0, 0, 0] : List Byte), by decide⟩,
   ⟨served Cmd.islandUpdate ([6, 0, 0, 0]) id, 1, 0, ([6, 0, 0, 0] : List Byte), by decide⟩,
   ⟨served Cmd.islandUpdate ([5, 1, 0, 0]) id, 1, 0, ([5, 1, 0, 0] : List Byte), by decide⟩,
   ⟨served Cmd.islandUpdate ([3, 0, 0, 0]) id, 1, 0, ([3, 0, 0, 0] : List Byte), by decide⟩,
   ⟨served Cmd.serviceFlagClear ([]) (fun n => n.setMbx 16 { n.mbx 16 with session := 7 }), 1, 0, ([] : List Byte), by decide⟩⟩

set_option maxRecDepth 20000 in
/-- The hypotheses of every clause of ChannelEventsComplete are met. -/
theorem witness_ChannelEventsComplete :
    (∃ (s : State) (k cause : Nat), (s.node.stall k).faultable = true ∧ (s.node.stall k).kd ≠ K.lift ∧ (s.node.stall k).kd ≠ K.gate) ∧
    (∃ (s : State) (k cause : Nat), (s.node.stall k).faultable = true) ∧
    (∃ (s : State) (k t : Nat), (s.node.stall k).episodes.getLast? = some t) ∧
    (∃ (s : State) (k cause : Nat) (c : HoldCause), HoldCause.all[cause]? = some c ∧ s.node.causeLasts k c = true) ∧
    (∃ (s : State) (k cause : Nat) (c : HoldCause), HoldCause.all[cause]? = some c ∧ s.node.causeLasts k c = false ∧
      (c ≠ .supply ∨ ((s.node.stall k).kd ≠ K.output ∧ (s.node.stall k).kd ≠ K.prot))) ∧
    (∃ (s : State) (k : Nat), (s.node.stall k).stopping = true ∧ s.node.stopReached k = true) ∧
    (∃ (s : State) (k : Nat) (v : W64) (t : Nat), (s.node.stall k).timedWrite = some (v, t)) ∧
    (∃ (s : State) (k z : Nat), (s.node.stall k).zeroAt = some z ∧ (s.node.stall k).pf 12 1 = 1) ∧
    (∃ (s : State) (k z : Nat), (s.node.stall k).zeroAt = some z ∧ (s.node.stall k).pf 12 1 ≠ 1) ∧
    (∃ (s : State) (k : Nat), (s.node.stall k).kd = K.linepoint ∧ (s.node.stall k).pf 12 2 ≤ (s.node.stall k).staleCount) :=
  ⟨⟨up (fun n => n.setStall 16 { n.stall 16 with st := .running }), 16, 2, by decide⟩,
   ⟨up (fun n => n.setStall 16 { n.stall 16 with st := .running }), 16, 3, by decide⟩,
   ⟨up (fun n => n.setStall 16 { n.stall 16 with st := .running, episodes := [9] }), 16, 9, by decide⟩,
   ⟨up (fun n => { n with fio := { n.fio with wdSt := .expired } }), 16, 0, .watchdog, by decide⟩,
   ⟨up id, 16, 0, .watchdog, by decide⟩,
   ⟨up (fun n => n.setStall 16 { n.stall 16 with st := .running, status := 4 }), 16, by decide⟩,
   ⟨up (fun n => n.setStall 16 { n.stall 16 with st := .running, timedWrite := some (1, 7) }), 16, 1, 7, by decide⟩,
   ⟨up (fun n => n.setStall 64 { n.stall 64 with kind := 0x11, st := .running, part := 0x100000001, zeroAt := some 9 }), 64, 9, by decide⟩,
   ⟨up (fun n => n.setStall 64 { n.stall 64 with kind := 0x11, st := .running, part := 1, zeroAt := some 9 }), 64, 9, by decide⟩,
   ⟨up (fun n => n.setStall 64 { n.stall 64 with kind := 0x13, st := .running }), 64, by decide⟩⟩

set_option maxRecDepth 20000 in
/-- The hypotheses of every clause of StepEngineEventsComplete are met. -/
theorem witness_StepEngineEventsComplete :
    (∃ (s : State) (i : Nat), (s.node.inst i).st = .running ∧ (s.node.inst i).act = none ∧ s.node.runs Isl.seq = true ∧
      ((s.node.stepRec (s.node.inst i).recipe (s.node.inst i).step).timeout != 0 && decide ((s.node.inst i).entered + ms (s.node.stepRec (s.node.inst i).recipe (s.node.inst i).step).timeout < s.node.now)) = false ∧
      s.node.groupTrue i = true ∧ Fetches s.node i) ∧
    (∃ (s : State) (i : Nat), (s.node.inst i).st = .running ∧ (s.node.inst i).act = none ∧ s.node.runs Isl.seq = true ∧
      ((s.node.stepRec (s.node.inst i).recipe (s.node.inst i).step).timeout != 0 && decide ((s.node.inst i).entered + ms (s.node.stepRec (s.node.inst i).recipe (s.node.inst i).step).timeout < s.node.now)) = false ∧
      s.node.groupTrue i = false ∧ (s.node.stepRec (s.node.inst i).recipe (s.node.inst i).step).test = true ∧ Fetches s.node i) ∧
    (∃ (s : State) (i : Nat), (s.node.inst i).st = .running ∧ (s.node.inst i).act = none ∧ s.node.runs Isl.seq = true ∧
      (s.node.stepRec (s.node.inst i).recipe (s.node.inst i).step).timeout ≠ 0 ∧
      (s.node.upTo ((s.node.inst i).entered + ms (s.node.stepRec (s.node.inst i).recipe (s.node.inst i).step).timeout)).groupTrue i = false ∧
      Fetches s.node i) ∧
    (∃ (s : State) (i : Nat), (s.node.inst i).st = .running ∧ (s.node.inst i).act = none ∧ s.node.runs Isl.seq = true ∧
      (s.node.stepRec (s.node.inst i).recipe (s.node.inst i).step).timeout ≠ 0 ∧
      (s.node.upTo ((s.node.inst i).entered + ms (s.node.stepRec (s.node.inst i).recipe (s.node.inst i).step).timeout)).groupTrue i = true ∧
      Fetches s.node i) ∧
    (∃ (s : State) (i t : Nat), (s.node.inst i).act = some t ∧ (s.node.inst i).st = .running ∧ (s.node.inst i).issued = false ∧
      (s.node.inst i).atOnce = false ∧ s.node.runs Isl.seq = true ∧ issuable (s.node.stepRec (s.node.inst i).recipe (s.node.inst i).step).act = true ∧
      Fetches s.node i ∧ (s.node.lockFree (s.node.stepRec (s.node.inst i).recipe (s.node.inst i).step).aStall = true ∧ s.node.lockTurn i t = true) ∧
      (s.node.stepRec (s.node.inst i).recipe (s.node.inst i).step).act ≠ 0x06) ∧
    (∃ (s : State) (i t : Nat), (s.node.inst i).act = some t ∧ (s.node.inst i).st = .running ∧ (s.node.inst i).issued = false ∧
      (s.node.inst i).atOnce = false ∧ s.node.runs Isl.seq = true ∧ issuable (s.node.stepRec (s.node.inst i).recipe (s.node.inst i).step).act = true ∧
      Fetches s.node i ∧ (s.node.lockFree (s.node.stepRec (s.node.inst i).recipe (s.node.inst i).step).aStall = true ∧ s.node.lockTurn i t = true) ∧
      (s.node.stepRec (s.node.inst i).recipe (s.node.inst i).step).act = 0x06) ∧
    (∃ (s : State) (i t : Nat), (s.node.inst i).act = some t ∧ (s.node.inst i).st = .running ∧ (s.node.inst i).issued = false ∧
      (s.node.inst i).atOnce = false ∧ s.node.runs Isl.seq = true ∧ issuable (s.node.stepRec (s.node.inst i).recipe (s.node.inst i).step).act = true ∧
      Fetches s.node i ∧ (¬ (s.node.lockFree (s.node.stepRec (s.node.inst i).recipe (s.node.inst i).step).aStall = true ∧
      s.node.lockTurn i t = true))) ∧
    (∃ (s : State) (e : Issued) (v : W64), s.node.rcp.firstIssued = some e ∧ e.act ≠ 0x11 ∧
      ({ ((({ s.node.upTo (max e.at_ (e.lockAt.getD 0)) with rcp := { s.node.rcp with issued := s.node.rcp.issued.erase e } } : Node).unlock e.stall).lockQueued (({ s.node.upTo (max e.at_ (e.lockAt.getD 0)) with rcp := { s.node.rcp with issued := s.node.rcp.issued.erase e } } : Node).unlock e.stall).rcp.issued).1 with rcp := { ((({ s.node.upTo (max e.at_ (e.lockAt.getD 0)) with rcp := { s.node.rcp with issued := s.node.rcp.issued.erase e } } : Node).unlock e.stall).lockQueued (({ s.node.upTo (max e.at_ (e.lockAt.getD 0)) with rcp := { s.node.rcp with issued := s.node.rcp.issued.erase e } } : Node).unlock e.stall).rcp.issued).1.rcp with issued := ((({ s.node.upTo (max e.at_ (e.lockAt.getD 0)) with rcp := { s.node.rcp with issued := s.node.rcp.issued.erase e } } : Node).unlock e.stall).lockQueued (({ s.node.upTo (max e.at_ (e.lockAt.getD 0)) with rcp := { s.node.rcp with issued := s.node.rcp.issued.erase e } } : Node).unlock e.stall).rcp.issued).2 } } : Node).stallAction e.act e.stall e.value = (true, some v)) ∧
    (∃ (s : State) (e : Issued), s.node.rcp.firstIssued = some e ∧ e.act ≠ 0x11 ∧
      ({ ((({ s.node.upTo (max e.at_ (e.lockAt.getD 0)) with rcp := { s.node.rcp with issued := s.node.rcp.issued.erase e } } : Node).unlock e.stall).lockQueued (({ s.node.upTo (max e.at_ (e.lockAt.getD 0)) with rcp := { s.node.rcp with issued := s.node.rcp.issued.erase e } } : Node).unlock e.stall).rcp.issued).1 with rcp := { ((({ s.node.upTo (max e.at_ (e.lockAt.getD 0)) with rcp := { s.node.rcp with issued := s.node.rcp.issued.erase e } } : Node).unlock e.stall).lockQueued (({ s.node.upTo (max e.at_ (e.lockAt.getD 0)) with rcp := { s.node.rcp with issued := s.node.rcp.issued.erase e } } : Node).unlock e.stall).rcp.issued).1.rcp with issued := ((({ s.node.upTo (max e.at_ (e.lockAt.getD 0)) with rcp := { s.node.rcp with issued := s.node.rcp.issued.erase e } } : Node).unlock e.stall).lockQueued (({ s.node.upTo (max e.at_ (e.lockAt.getD 0)) with rcp := { s.node.rcp with issued := s.node.rcp.issued.erase e } } : Node).unlock e.stall).rcp.issued).2 } } : Node).stallAction e.act e.stall e.value = (true, none)) ∧
    (∃ (s : State) (e : Issued), s.node.rcp.firstIssued = some e ∧ e.act = 0x11 ∧
      (({ ((({ s.node.upTo (max e.at_ (e.lockAt.getD 0)) with rcp := { s.node.rcp with issued := s.node.rcp.issued.erase e } } : Node).unlock e.stall).lockQueued (({ s.node.upTo (max e.at_ (e.lockAt.getD 0)) with rcp := { s.node.rcp with issued := s.node.rcp.issued.erase e } } : Node).unlock e.stall).rcp.issued).1 with rcp := { ((({ s.node.upTo (max e.at_ (e.lockAt.getD 0)) with rcp := { s.node.rcp with issued := s.node.rcp.issued.erase e } } : Node).unlock e.stall).lockQueued (({ s.node.upTo (max e.at_ (e.lockAt.getD 0)) with rcp := { s.node.rcp with issued := s.node.rcp.issued.erase e } } : Node).unlock e.stall).rcp.issued).1.rcp with issued := ((({ s.node.upTo (max e.at_ (e.lockAt.getD 0)) with rcp := { s.node.rcp with issued := s.node.rcp.issued.erase e } } : Node).unlock e.stall).lockQueued (({ s.node.upTo (max e.at_ (e.lockAt.getD 0)) with rcp := { s.node.rcp with issued := s.node.rcp.issued.erase e } } : Node).unlock e.stall).rcp.issued).2 } } : Node).recipeMove e.stall (toSigned 64 e.value.toNat)).1 = none) ∧
    (∃ (s : State) (i : Nat), (s.node.inst i).st = .armed ∧ s.node.runs Isl.seq = true) ∧
    (∃ (s : State) (core slot : Nat) (t : ThTask), s.node.coresRun = true ∧ s.node.rcp.coresOut.contains core = false ∧
      s.node.rcp.tasks.any (fun e => e.2.st == .inService core) = false ∧
      s.node.rcp.tasks.find? (fun e => e.2.st == .prefetched core) = some (slot, t) ∧ (t.handler = 0x0701 ∨ t.ran = true)) ∧
    (∃ (s : State) (core slot : Nat) (t : ThTask), s.node.coresRun = true ∧ s.node.rcp.coresOut.contains core = false ∧
      s.node.rcp.tasks.any (fun e => e.2.st == .inService core) = false ∧
      s.node.rcp.tasks.find? (fun e => e.2.st == .prefetched core) = some (slot, t) ∧ t.handler ≠ 0x0701 ∧ t.ran = false) ∧
    (∃ (s : State) (core slot : Nat) (t : ThTask), s.node.coresRun = true ∧ s.node.rcp.tasks.find? (fun e => e.2.st == .inService core) = some (slot, t) ∧
      t.ran = true) :=
  ⟨⟨up (fun n => ((n.write (dirAddr 0) (dirEntry 0 1 255)).writeSteps 0 0 ([0, 1] ++ leBytes 30 0)).setInst 0 { st := .running }), 0, by decide⟩,
   ⟨up (fun n => ((n.write (dirAddr 0) (dirEntry 0 1 255)).writeSteps 0 0 ([2, 1, 0x40, 0] ++ leBytes 28 0)).setInst 0 { st := .running }), 0, by decide⟩,
   ⟨up (fun n => ((n.write (dirAddr 0) (dirEntry 0 1 255)).writeSteps 0 0 ([2, 1] ++ leBytes 26 0 ++ [7, 0, 0, 0])).setInst 0 { st := .running }), 0, by decide⟩,
   ⟨up (fun n => ((n.write (dirAddr 0) (dirEntry 0 1 255)).writeSteps 0 0 ([0, 1] ++ leBytes 26 0 ++ [7, 0, 0, 0])).setInst 0 { st := .running }), 0, by decide⟩,
   ⟨up (fun n => ((n.write (dirAddr 0) (dirEntry 0 1 255)).writeSteps 0 0 ([0, 2, 0, 0, 0, 0, 16, 0] ++ leBytes 8 0 ++ leBytes 8 1 ++ leBytes 8 0)).setInst 0 { st := .running, act := some 9000000000 }), 0, 9000000000, by decide⟩,
   ⟨up (fun n => ((n.write (dirAddr 0) (dirEntry 0 1 255)).writeSteps 0 0 ([0, 6, 0, 0, 0, 0, 16, 0] ++ leBytes 8 0 ++ leBytes 8 1 ++ leBytes 8 0)).setInst 0 { st := .running, act := some 9000000000 }), 0, 9000000000, by decide⟩,
   ⟨up (fun n => let n : Node := { n with cache := (List.range 32).map (fun k => ({ stall := 100 + k, locks := 1 } : CacheEntry)) }; ((n.write (dirAddr 0) (dirEntry 0 1 255)).writeSteps 0 0 ([0, 2, 0, 0, 0, 0, 16, 0] ++ leBytes 8 0 ++ leBytes 8 1 ++ leBytes 8 0)).setInst 0 { st := .running, act := some 9000000000 }), 0, 9000000000, by decide⟩,
   ⟨up (fun n => { n with rcp := { n.rcp with issued := [{ inst := 0, step := 0, stall := 16, value := 1, at_ := 9, act := 2, lockAt := some 0 }] } }), { inst := 0, step := 0, stall := 16, value := 1, at_ := 9, act := 2, lockAt := some 0 }, 1, by decide⟩,
   ⟨up (fun n => { n with rcp := { n.rcp with issued := [{ inst := 0, step := 0, stall := 16, value := 100, at_ := 9, act := 5, lockAt := some 0 }] } }), { inst := 0, step := 0, stall := 16, value := 100, at_ := 9, act := 5, lockAt := some 0 }, by decide⟩,
   ⟨up (fun n => let n := ({ n with axes := [(0, { st := .standstill, configured := true, referenced := true, cfg := { vmax := 1000, amax := 1000, dmax := 1000, vDef := 500, aDef := 500, dDef := 500, dStop := 900 } })] }).setStall 42 { n.stall 42 with st := .running }; (fun n => { n with rcp := { n.rcp with issued := [{ inst := 0, step := 0, stall := 42, value := 1, at_ := 9, act := 17, lockAt := some 0 }] } }) n), { inst := 0, step := 0, stall := 42, value := 1, at_ := 9, act := 17, lockAt := some 0 }, by decide⟩,
   ⟨up (fun n => n.setInst 63 { st := .armed, epoch := 9 }), 63, by decide⟩,
   ⟨up (fun n => { n with rcp := { n.rcp with tasks := [(0, { handler := 0x0701, arg := 0, release := 0, deadline := 0, group := 0, sheaf := 0, st := .prefetched 2, readyNo := 0, gen := 1, owner := none })] } }), 2, 0, { handler := 0x0701, arg := 0, release := 0, deadline := 0, group := 0, sheaf := 0, st := .prefetched 2, readyNo := 0, gen := 1, owner := none }, by decide⟩,
   ⟨up (fun n => { n with rcp := { n.rcp with tasks := [(0, { handler := 0x0200, arg := 0, release := 0, deadline := 0, group := 0, sheaf := 0, st := .prefetched 2, readyNo := 0, gen := 1, owner := none })] } }), 2, 0, { handler := 0x0200, arg := 0, release := 0, deadline := 0, group := 0, sheaf := 0, st := .prefetched 2, readyNo := 0, gen := 1, owner := none }, by decide⟩,
   ⟨up (fun n => { n with rcp := { n.rcp with tasks := [(0, { handler := 0x0200, arg := 0, release := 0, deadline := 0, group := 0, sheaf := 0, st := .inService 2, readyNo := 0, gen := 1, owner := none, ran := true })] } }), 2, 0, { handler := 0x0200, arg := 0, release := 0, deadline := 0, group := 0, sheaf := 0, st := .inService 2, readyNo := 0, gen := 1, owner := none, ran := true }, by decide⟩⟩

set_option maxRecDepth 20000 in
/-- The hypotheses of every clause of RecipeActionsComplete are met. -/
theorem witness_RecipeActionsComplete :
    (∃ (s : State) (i t : Nat), Acts s.node i 0x00 t) ∧
    (∃ (s : State) (i t : Nat), Acts s.node i 0x01 t) ∧
    (∃ (s : State) (i t : Nat), Acts s.node i 0x02 t) ∧
    (∃ (s : State) (i t : Nat), Acts s.node i 0x03 t) ∧
    (∃ (s : State) (i t : Nat), Acts s.node i 0x04 t) ∧
    (∃ (s : State) (i t : Nat), Acts s.node i 0x05 t) ∧
    (∃ (s : State) (i t : Nat), Acts s.node i 0x0A t) ∧
    (∃ (s : State) (i t : Nat), Acts s.node i 0x06 t) ∧
    (∃ (s : State) (i t : Nat), Acts s.node i 0x07 t) ∧
    (∃ (s : State) (i t : Nat), Acts s.node i 0x08 t) ∧
    (∃ (s : State) (i t : Nat), Acts s.node i 0x09 t) ∧
    (∃ (s : State) (i t : Nat), Acts s.node i 0x0B t) ∧
    (∃ (s : State) (i t : Nat), Acts s.node i 0x0C t) ∧
    (∃ (s : State) (i t : Nat), Acts s.node i 0x0D t) ∧
    (∃ (s : State) (i t : Nat), Acts s.node i 0x0E t) ∧
    (∃ (s : State) (i t j : Nat), Acts s.node i 0x0F t ∧ (s.node.acting i t).recLen ((s.node.actRec i).aValue.toNat % 256) ≠ 0 ∧
      ((s.node.actRec i).aValue.toNat / 256 % 256 = 0xFF ∨ (s.node.acting i t).instEnded ((s.node.actRec i).aValue.toNat / 256 % 256) = true) ∧
      ((if (s.node.actRec i).aValue.toNat / 256 % 256 = 0xFF then (s.node.acting i t).freeInst else some ((s.node.actRec i).aValue.toNat / 256 % 256)) = some j) ∧
      ((s.node.acting i t).recipeFault ((s.node.actRec i).aValue.toNat % 256)).isSome = false) ∧
    (∃ (s : State) (i t : Nat), Acts s.node i 0x10 t) ∧
    (∃ (s : State) (i t : Nat), Acts s.node i 0x11 t) ∧
    (∃ (s : State) (i t : Nat), Acts s.node i 0x15 t) ∧
    (∃ (s : State) (i t h : Nat), Posts s.node i 0x12 t ∧
      ((s.node.posting i).postTask (fwHandler 0x12) (BitVec.ofNat 64 (s.node.actRec i).aStall) t (t + us (s.node.inst i).deadline) (s.node.inst i).group (s.node.inst i).sheaf (some (i, 8)) false).1 = some h) ∧
    (∃ (s : State) (i t h : Nat), Posts s.node i 0x13 t ∧
      ((s.node.posting i).postTask (fwHandler 0x13) (BitVec.ofNat 64 (s.node.actRec i).aStall) t (t + us (s.node.inst i).deadline) (s.node.inst i).group (s.node.inst i).sheaf (some (i, 8)) false).1 = some h) ∧
    (∃ (s : State) (i t h : Nat), Posts s.node i 0x14 t ∧
      ((s.node.posting i).postTask ((s.node.actRec i).aStall) ((s.node.actRec i).aValue) t (t + us (s.node.inst i).deadline) (s.node.inst i).group (s.node.inst i).sheaf (some (i, (s.node.actRec i).aux)) false).1 = some h) ∧
    (∃ (s : State) (i t h : Nat), Posts s.node i 0x16 t ∧
      ((s.node.posting i).postTask (fwHandler 0x16 + 0x10000 * (1 + (s.node.actRec i).aValue.toNat % 2 ^ 32)) ((s.node.posting i).reg i (s.node.actRec i).aux) t (t + us (s.node.inst i).deadline) (s.node.inst i).group (s.node.inst i).sheaf (some (i, 8)) false).1 = some h) ∧
    (∃ (s : State) (i t h : Nat), Posts s.node i 0x17 t ∧
      ((s.node.posting i).postTask (fwHandler 0x17) (BitVec.ofNat 64 (s.node.actRec i).aStall) t (t + us (s.node.inst i).deadline) (s.node.inst i).group (s.node.inst i).sheaf (some (i, 8)) false).1 = some h) :=
  ⟨⟨acting 0x00 16 ([1]) id, 0, 5, by decide⟩,
   ⟨acting 0x01 16 ([1]) id, 0, 5, by decide⟩,
   ⟨acting 0x02 16 ([1]) id, 0, 5, by decide⟩,
   ⟨acting 0x03 16 ([1]) id, 0, 5, by decide⟩,
   ⟨acting 0x04 16 ([1]) id, 0, 5, by decide⟩,
   ⟨acting 0x05 16 ([1]) id, 0, 5, by decide⟩,
   ⟨acting 0x0A 16 ([1]) id, 0, 5, by decide⟩,
   ⟨acting 0x06 16 ([1]) id, 0, 5, by decide⟩,
   ⟨acting 0x07 7 ([1]) id, 0, 5, by decide⟩,
   ⟨acting 0x08 7 ([1]) id, 0, 5, by decide⟩,
   ⟨acting 0x09 7 ([1]) id, 0, 5, by decide⟩,
   ⟨acting 0x0B 16 ([1]) id, 0, 5, by decide⟩,
   ⟨acting 0x0C 7 ([1]) id, 0, 5, by decide⟩,
   ⟨acting 0x0D 63 ([1]) id, 0, 5, by decide⟩,
   ⟨acting 0x0E 63 ([1]) id, 0, 5, by decide⟩,
   ⟨acting 0x0F 16 ([0, 255]) id, 0, 5, 1, by decide⟩,
   ⟨acting 0x10 0 ([1]) id, 0, 5, by decide⟩,
   ⟨acting 0x11 42 ([1]) id, 0, 5, by decide⟩,
   ⟨acting 0x15 16 ([1]) id, 0, 5, by decide⟩,
   ⟨acting 0x12 16 ([1]) id, 0, 5, 0x10000, by decide⟩,
   ⟨acting 0x13 16 ([1]) id, 0, 5, 0x10000, by decide⟩,
   ⟨acting 0x14 512 ([1]) id, 0, 5, 0x10000, by decide⟩,
   ⟨acting 0x16 16 ([1]) id, 0, 5, 0x10000, by decide⟩,
   ⟨acting 0x17 16 ([1]) id, 0, 5, 0x10000, by decide⟩⟩

set_option maxRecDepth 20000 in
/-- The hypotheses of every clause of LoopInputAndOutputEventsComplete are met. -/
theorem witness_LoopInputAndOutputEventsComplete :
    (∃ (s : State) (k drops : Nat), (s.node.loopRuns k) ∧ (
      let n : Node := s.node
      let g := n.loopPeriod k
      let t0 := n.loopNext k
      let t := max (t0 + drops * g) (n.now / g * g)
      let n := ((n.applyDue t).loopsAt k t).dropUpdates k ((List.range ((t - t0) / g)).map (fun i => t0 + i * g))
      n.loopRuns k)) ∧
    (∃ (s : State) (i : Nat) (level : Bool) (first : T64), (¬ (
      let n : Node := s.node
      let p := n.inPin i
      let k := n.inStall i
      n.latchedOff ∨ !(n.runs Isl.io) ∨ (n.fio.supply = .restoring ∧ (n.stall k).holds.contains .supply) ∨ (p.level = level ∧ !p.settling))) ∧ ((
      let n : Node := s.node
      let p := n.inPin i
      let k := n.inStall i
      let first := if p.settling then max first p.since else first
      let n := n.upTo (first + us (10 * (n.stall k).pf 10 2))
      let n := n.setIn i { p with level := level, comparator := level, settling := false, woke := false }
      let n := ((n.endHold k .supply).endHold k .ioIsland)
      let st := n.stall k
      st.st = .running)) ∧ ((
      let n : Node := s.node
      let p := n.inPin i
      let k := n.inStall i
      let first := if p.settling then max first p.since else first
      let n := n.upTo (first + us (10 * (n.stall k).pf 10 2))
      let n := n.setIn i { p with level := level, comparator := level, settling := false, woke := false }
      let n := ((n.endHold k .supply).endHold k .ioIsland)
      let st := n.stall k
      let v := BitVec.ofNat 64 (b2n level)
      let fresh := st.value ≠ v ∨ !st.valid ∨ p.settling
      fresh))) ∧
    (∃ (s : State) (i : Nat) (level : Bool) (first : T64), (¬ (
      let n : Node := s.node
      let p := n.inPin i
      let k := n.inStall i
      n.latchedOff ∨ !(n.runs Isl.io) ∨ (n.fio.supply = .restoring ∧ (n.stall k).holds.contains .supply) ∨ (p.level = level ∧ !p.settling))) ∧ ((
      let n : Node := s.node
      let p := n.inPin i
      let k := n.inStall i
      let first := if p.settling then max first p.since else first
      let n := n.upTo (first + us (10 * (n.stall k).pf 10 2))
      let n := n.setIn i { p with level := level, comparator := level, settling := false, woke := false }
      let n := ((n.endHold k .supply).endHold k .ioIsland)
      let st := n.stall k
      st.st = .running)) ∧ (¬ (
      let n : Node := s.node
      let p := n.inPin i
      let k := n.inStall i
      let first := if p.settling then max first p.since else first
      let n := n.upTo (first + us (10 * (n.stall k).pf 10 2))
      let n := n.setIn i { p with level := level, comparator := level, settling := false, woke := false }
      let n := ((n.endHold k .supply).endHold k .ioIsland)
      let st := n.stall k
      let v := BitVec.ofNat 64 (b2n level)
      let fresh := st.value ≠ v ∨ !st.valid ∨ p.settling
      fresh))) ∧
    (∃ (s : State) (i microAmp : Nat), (s.node.stall (s.node.inStall i)).kd = K.input ∧ (s.node.stall (s.node.inStall i)).pf 9 1 = 1 ∧
      (s.node.stall (s.node.inStall i)).active = true ∧ s.node.runs Isl.io = true ∧ s.node.latchedOff = false ∧
      ((if microAmp < 150 then min 10 ((s.node.inPin i).lowRun + 1) else 0) = 10) ∧ (s.node.stall (s.node.inStall i)).status.getLsbD St.field = false) ∧
    (∃ (s : State) (i microAmp : Nat), (s.node.stall (s.node.inStall i)).kd = K.input ∧ (s.node.stall (s.node.inStall i)).pf 9 1 = 1 ∧
      (s.node.stall (s.node.inStall i)).active = true ∧ s.node.runs Isl.io = true ∧ s.node.latchedOff = false ∧
      ((if microAmp < 150 then min 10 ((s.node.inPin i).lowRun + 1) else 0) ≠ 10) ∧
      ((if 300 ≤ microAmp then min 10 ((s.node.inPin i).highRun + 1) else 0) = 10) ∧ (s.node.stall (s.node.inStall i)).status.getLsbD St.field = true) ∧
    (∃ (s : State) (i microAmp : Nat), (s.node.stall (s.node.inStall i)).kd = K.input ∧ (s.node.stall (s.node.inStall i)).pf 9 1 = 1 ∧
      (s.node.stall (s.node.inStall i)).active = true ∧ s.node.runs Isl.io = true ∧ s.node.latchedOff = false ∧
      ((if microAmp < 150 then min 10 ((s.node.inPin i).lowRun + 1) else 0) ≠ 10 ∨ (s.node.stall (s.node.inStall i)).status.getLsbD St.field = true) ∧
      ((if 300 ≤ microAmp then min 10 ((s.node.inPin i).highRun + 1) else 0) ≠ 10 ∨ (s.node.stall (s.node.inStall i)).status.getLsbD St.field = false)) ∧
    (∃ (s : State) (i : Nat), (s.node.stall (s.node.inStall i)).kd = K.input) ∧
    (∃ (s : State) (o : Nat), (¬ (s.node.outOn o ∨ s.node.latchedOff))) ∧
    (∃ (s : State) (p : Nat) (isOpen : Bool) (milliAmp : Nat), ((
      let n : Node := s.node
      let k := n.outStall (12 + p)
      let st := n.stall k
      let tested := st.pf 12 1 == 1 && (!n.outOn (12 + p) || (n.seriesClosed p && !n.latchedOff))
      st.kd = K.prot ∧ (tested ∨ !isOpen) ∧ st.status.getLsbD St.field ≠ isOpen))) ∧
    (∃ (s : State) (o : Nat), (s.node.stall (s.node.outStall o)).pwm = true ∧ s.node.runs Isl.io = true) :=
  ⟨⟨up (fun n => n.setStall 72 { n.stall 72 with kind := K.loop, st := .running }), 72, 0, by decide⟩,
   ⟨up (fun n => { n.setStall 0 { n.stall 0 with kind := 0, st := .running, status := 0, value := 0 } with fio := { n.fio with supply := .on } }), 0, true, 9, by decide⟩,
   ⟨up (fun n => { n.setStall 0 { n.stall 0 with kind := 0, st := .running, status := 0, value := 1 } with fio := { n.fio with supply := .on } }), 0, true, 9, by decide⟩,
   ⟨up (fun n => { (n.setStall 0 { n.stall 0 with st := .running, part := 0x0100#224 }) with fio := { n.fio with supply := .on, ins := [(0, { lowRun := 9 })] } }), 0, 149, by decide⟩,
   ⟨up (fun n => { (n.setStall 0 { n.stall 0 with st := .running, part := 0x0100#224, status := 2 }) with fio := { n.fio with supply := .on, ins := [(0, { highRun := 9 })] } }), 0, 300, by decide⟩,
   ⟨up (fun n => { (n.setStall 0 { n.stall 0 with st := .running, part := 0x0100#224 }) with fio := { n.fio with supply := .on, ins := [(0, { lowRun := 8 })] } }), 0, 149, by decide⟩,
   ⟨up id, 15, by decide⟩,
   ⟨up (fun n => { n with fio := { n.fio with supply := .on } }), 12, by decide⟩,
   ⟨up (fun n => n.setStall 28 { n.stall 28 with kind := K.prot, part := 0x100000000#224 }), 0, true, 5, by decide⟩,
   ⟨up (fun n => n.setStall 16 { n.stall 16 with st := .running, part := 1 }), 0, by decide⟩⟩

set_option maxRecDepth 20000 in
/-- The hypotheses of every clause of WatchdogAndSupplyEventsComplete are met. -/
theorem witness_WatchdogAndSupplyEventsComplete :
    (∃ (s : State), s.node.fio.wdSource = 0 ∧ s.node.runs Isl.core = true ∧ s.node.host.restarting = false) ∧
    (∃ (s : State), s.node.fio.wdSt = .armed) ∧
    (∃ (s : State), ((s.node.fio.wdSt = .suspended ∧ s.node.glean.st = .awake))) ∧
    (∃ (s : State) (mV : Nat), s.node.fio.warn = false) ∧
    (∃ (s : State) (mV : Nat), s.node.fio.warn = true) ∧
    (∃ (s : State) (mV : Nat), (s.node.vauxOnly)) ∧
    (∃ (s : State) (mV : Nat), ¬ (s.node.vauxOnly) ∧ ¬ (!s.node.fieldPowered) ∧ (s.node.fio.supply) = .rising) ∧
    (∃ (s : State) (mV : Nat), ¬ (s.node.vauxOnly) ∧ ¬ (!s.node.fieldPowered) ∧ (s.node.fio.supply) = .on) ∧
    (∃ (s : State), ((s.node.fio.supply = .latched ∧ (s.node.fieldPowered ∨ s.node.vauxOnly)))) ∧
    (∃ (s : State) (mV : Nat), ((s.node.fio.supply = .rising ∧ (s.node.fieldPowered ∨ s.node.vauxOnly))) ∧ ¬ (
      let n : Node := s.node
      let n := (n.upTo (n.fio.risenAt + ms 10)).setVaux true
      n.vauxOnly)) ∧
    (∃ (s : State) (mV : Nat), ((s.node.fio.supply = .rising ∧ (s.node.fieldPowered ∨ s.node.vauxOnly))) ∧ (
      let n : Node := s.node
      let n := (n.upTo (n.fio.risenAt + ms 10)).setVaux true
      n.vauxOnly)) ∧
    (∃ (s : State) (o : Nat), (s.node.fio.supply = .restoring) ∧ (o = 15)) ∧
    (∃ (s : State) (o : Nat), (s.node.fio.supply = .restoring) ∧ ¬ (o = 15)) ∧
    (∃ (s : State), (s.node.fio.supply = .restoring)) :=
  ⟨⟨up id, by decide⟩,
   ⟨up (fun n => { n with fio := { n.fio with wdSt := .armed, wdTimeout := 20, wdDeadline := 20000000 } }), by decide⟩,
   ⟨up (fun n => { n with fio := { n.fio with wdSt := .suspended, wdHeld := 5 } }), by decide⟩,
   ⟨up id, 19200, by decide⟩,
   ⟨up (fun n => { n with fio := { n.fio with warn := true } }), 20400, by decide⟩,
   ⟨up (fun n => { n with power := { n.power with stage := .t3 } }), 16000, by decide⟩,
   ⟨up (fun n => { n with fio := { n.fio with supply := .rising } }), 16000, by decide⟩,
   ⟨up (fun n => { n with fio := { n.fio with supply := .on } }), 16000, by decide⟩,
   ⟨up (fun n => { n with fio := { n.fio with supply := .latched } }), by decide⟩,
   ⟨up (fun n => { n with fio := { n.fio with supply := .rising } }), 24000, by decide⟩,
   ⟨up (fun n => { n with power := { n.power with stage := .t3 }, fio := { n.fio with supply := .rising } }), 24000, by decide⟩,
   ⟨up (fun n => { n with fio := { n.fio with supply := .restoring } }), 15, by decide⟩,
   ⟨up (fun n => { n with fio := { n.fio with supply := .restoring } }), 0, by decide⟩,
   ⟨up (fun n => { n with fio := { n.fio with supply := .restoring } }), by decide⟩⟩

set_option maxRecDepth 20000 in
/-- The hypotheses of every clause of ConverterEventsComplete are met. -/
theorem witness_ConverterEventsComplete :
    (∃ (s : State), (¬ ((s.node.island Isl.io).st = .gated ∨ (s.node.glean.st = .waking ∧ !(s.node.runs Isl.io && s.node.runs Isl.seq)))) ∧ (¬ (
      let n : Node := s.node
      let p := us n.adc.list.period
      let t := nextGrid (max (max n.gridNow n.adc.notBefore) (n.adc.frameAt + 1)) p
      let n := n.upTo t
      !(n.runs Isl.io) ∨ !(n.runs Isl.seq))) ∧ (¬ (
      let n : Node := s.node
      let p := us n.adc.list.period
      let t := nextGrid (max (max n.gridNow n.adc.notBefore) (n.adc.frameAt + 1)) p
      let n := n.upTo t
      let check := t % ms 100 == 0
      let long := check && decide (p < 1000 + 500 * slotTime n.adc.list.slots 0 ∨ p < 1000 + 500 * slotTime n.adc.list.slots 1)
      long))) ∧
    (∃ (s : State), (¬ ((s.node.island Isl.io).st = .gated ∨ (s.node.glean.st = .waking ∧ !(s.node.runs Isl.io && s.node.runs Isl.seq)))) ∧ ((
      let n : Node := s.node
      let p := us n.adc.list.period
      let t := nextGrid (max (max n.gridNow n.adc.notBefore) (n.adc.frameAt + 1)) p
      let n := n.upTo t
      !(n.runs Isl.io) ∨ !(n.runs Isl.seq)))) ∧
    (∃ (s : State), (¬ ((s.node.island Isl.io).st = .gated ∨ (s.node.glean.st = .waking ∧ !(s.node.runs Isl.io && s.node.runs Isl.seq)))) ∧ (¬ (
      let n : Node := s.node
      let p := us n.adc.list.period
      let t := nextGrid (max (max n.gridNow n.adc.notBefore) (n.adc.frameAt + 1)) p
      let n := n.upTo t
      !(n.runs Isl.io) ∨ !(n.runs Isl.seq))) ∧ ((
      let n : Node := s.node
      let p := us n.adc.list.period
      let t := nextGrid (max (max n.gridNow n.adc.notBefore) (n.adc.frameAt + 1)) p
      let n := n.upTo t
      let check := t % ms 100 == 0
      let long := check && decide (p < 1000 + 500 * slotTime n.adc.list.slots 0 ∨ p < 1000 + 500 * slotTime n.adc.list.slots 1)
      long))) ∧
    (∃ (s : State) (conv : Nat) (agndV refV : Int), (s.node.runs Isl.io)) ∧
    (∃ (s : State) (slot : Nat) (nV nK nA : List Int) (sl : AdcSlot), (s.node.adc.list.slots[slot]?) = (some sl) ∧ (¬ (
      let n : Node := s.node
      let xs := n.inputsOf sl.source nV nK nA
      n.adc.frameDropped ∨ !n.adc.nextSlot slot sl.conv ∨ xs.length ≠ 2 ^ sl.avg ∨ !(n.runs Isl.io) ∨ !(n.runs Isl.seq))) ∧ (¬ (
      let n : Node := s.node
      let xs := n.inputsOf sl.source nV nK nA
      let start := n.adc.slotStart slot sl.conv
      let t := start + 160 + 250 * (2 ^ sl.avg - 1)
      let (code, ovr) := n.slotCode sl.source xs
      let n := n.upTo (start + 500 * 2 ^ sl.avg)
      let n := (n.updAdc (fun a => { a with slotsDone := a.slotsDone ++ [slot] })).slotToStall sl code ovr t
      let d := n.adc.list.desc sl.conv
      sl.ring ∧ d ≠ 0))) ∧
    (∃ (s : State) (slot : Nat) (nV nK nA : List Int) (sl : AdcSlot), (s.node.adc.list.slots[slot]?) = (some sl) ∧ (¬ (
      let n : Node := s.node
      let xs := n.inputsOf sl.source nV nK nA
      n.adc.frameDropped ∨ !n.adc.nextSlot slot sl.conv ∨ xs.length ≠ 2 ^ sl.avg ∨ !(n.runs Isl.io) ∨ !(n.runs Isl.seq))) ∧ ((
      let n : Node := s.node
      let xs := n.inputsOf sl.source nV nK nA
      let start := n.adc.slotStart slot sl.conv
      let t := start + 160 + 250 * (2 ^ sl.avg - 1)
      let (code, ovr) := n.slotCode sl.source xs
      let n := n.upTo (start + 500 * 2 ^ sl.avg)
      let n := (n.updAdc (fun a => { a with slotsDone := a.slotsDone ++ [slot] })).slotToStall sl code ovr t
      let d := n.adc.list.desc sl.conv
      sl.ring ∧ d ≠ 0))) ∧
    (∃ (s : State) (l : AdcList) (t : T64), (s.node.adc.pending) = (some (l, t))) :=
  ⟨⟨up id, by decide⟩,
   ⟨up (fun n => n.updIsland Isl.io (fun x => { x with st := .failed })), by decide⟩,
   ⟨up (fun n => ({ n with adc := { n.adc with list := { n.adc.list with period := 1 } } }).upTo 99999500), by decide⟩,
   ⟨up id, 1, 0, 16384, by decide⟩,
   ⟨up (fun n => { n with adc := { n.adc with list := { period := 100, desc0 := 0, desc1 := 0, slots := [⟨0, 0, 0, false⟩] }, frameAt := 5, frameDropped := false } }), 0, [5], [], [], _, by exact ⟨rfl, by decide, by decide⟩⟩,
   ⟨up (fun n => { n with adc := { n.adc with list := { period := 100, desc0 := 0x20000000, desc1 := 0, slots := [⟨0, 0, 0, true⟩] }, frameAt := 5, frameDropped := false } }), 0, [5], [], [], _, by exact ⟨rfl, by decide, by decide⟩⟩,
   ⟨up (fun n => { n with adc := { n.adc with pending := some (AdcList.default, 9) } }), _, _, by exact rfl⟩⟩

set_option maxRecDepth 20000 in
/-- The hypotheses of every clause of PositionEventsComplete are met. -/
theorem witness_PositionEventsComplete :
    (∃ (s : State) (i : Nat) (a b : Bool) (t : T64) (d : Int), (s.node.setEnc i { (s.node.enc i) with a := a, b := b }).encRuns i = true ∧
      (s.node.encSet i).pf 8 1 ≠ 2 ∧
      decodeStep ((s.node.encSet i).pf 8 1) ((s.node.encSet i).pf 9 1 == 1) (s.node.enc i).a (s.node.enc i).b a b = some d ∧ d ≠ 0) ∧
    (∃ (s : State) (i : Nat) (a b : Bool) (t : T64), (s.node.setEnc i { (s.node.enc i) with a := a, b := b }).encRuns i = true ∧
      (s.node.encSet i).pf 8 1 ≠ 2 ∧
      decodeStep ((s.node.encSet i).pf 8 1) ((s.node.encSet i).pf 9 1 == 1) (s.node.enc i).a (s.node.enc i).b a b = none) ∧
    (∃ (s : State) (i : Nat) (a b : Bool) (t : T64), (s.node.setEnc i { (s.node.enc i) with a := a, b := b }).encRuns i = true ∧
      (s.node.encSet i).pf 8 1 ≠ 2 ∧
      decodeStep ((s.node.encSet i).pf 8 1) ((s.node.encSet i).pf 9 1 == 1) (s.node.enc i).a (s.node.enc i).b a b = some 0) ∧
    (∃ (s : State) (i : Nat) (rising : Bool) (t : T64), ((s.node.updEnc i (fun e => { e with z := rising })).encSet i).pf 8 1 ≠ 2 ∧
      (s.node.updEnc i (fun e => { e with z := rising })).runs Isl.motion = true) ∧
    (∃ (s : State) (input : Nat) (rising : Bool), s.node.runs Isl.motion = true) ∧
    (∃ (s : State) (i l : Nat) (t : T64), ((s.node.enc i).latches.getD l {}).source = 4 ∧ ((s.node.enc i).latches.getD l {}).st = 1 ∧
      s.node.runs Isl.motion = true) ∧
    (∃ (s : State) (o t : Nat), (s.node.outPin o).pulseUntil = some t) ∧
    (∃ (s : State) (i : Nat) (aHigh : Bool), ((
      let n : Node := s.node
      let set := n.encSet i
      set.pf 8 1 = 2 ∧ (n.enc i).counting ∧ n.runs Isl.motion ∧ (n.enc i).frame = none))) ∧
    (∃ (s : State) (i word : Nat) (aHigh : Bool) (t : Nat) (okAtStart : Bool), ((s.node.enc i).frame) = (some (t, okAtStart)) ∧ ¬ (
      let n : Node := s.node
      let n := (n.upTo ((n.encSet i).frameEnd t)).updEnc i (fun e => { e.dropFrame with a := aHigh })
      !(n.enc i).counting || !(n.runs Isl.motion)) ∧ ¬ (!okAtStart || aHigh)) ∧
    (∃ (s : State) (i word : Nat) (aHigh : Bool) (t : Nat) (okAtStart : Bool), ((s.node.enc i).frame) = (some (t, okAtStart)) ∧ ¬ (
      let n : Node := s.node
      let n := (n.upTo ((n.encSet i).frameEnd t)).updEnc i (fun e => { e.dropFrame with a := aHigh })
      !(n.enc i).counting || !(n.runs Isl.motion)) ∧ (!okAtStart || aHigh)) ∧
    (∃ (s : State), s.node.host.restarting = false ∧ s.node.runs Isl.core = true) ∧
    (∃ (s : State) (i : Nat), ((
      let n : Node := s.node
      let n := n.upTo (nextGrid n.gridNow 10000)
      let k := n.encStall i
      let st := n.stall k
      st.kd = K.position ∧ n.runs Isl.motion ∧ n.runs Isl.seq)) ∧ ((
      let n : Node := s.node
      let n := n.upTo (nextGrid n.gridNow 10000)
      let k := n.encStall i
      let st := n.stall k
      let n := n.updEnc i (fun e => if st.pf 8 1 = 2 then e else e.fade n.now)
      let e := n.enc i
      (st.st = .running ∨ st.st = .retrying) ∧ (st.pf 8 1 ≠ 2 ∨ e.haveFrame)))) ∧
    (∃ (s : State) (i : Nat), (s.node.enc i).standstill = false ∧ (s.node.encSet i).pf 8 1 ≠ 2) :=
  ⟨⟨up (fun n => { n with encs := [(0, { counting := true })] }), 0, true, false, 9, 1, by decide⟩,
   ⟨up (fun n => { n with encs := [(0, { counting := true })] }), 0, true, true, 9, by decide⟩,
   ⟨up (fun n => { n with encs := [(0, { counting := true, a := true })] }), 0, true, false, 9, by decide⟩,
   ⟨up id, 0, true, 9, by decide⟩,
   ⟨up id, 15, false, by decide⟩,
   ⟨up (fun n => { n with encs := [(0, { latches := [(0, { st := 1, source := 4, instant := 9 })] })] }), 0, 0, 9, by decide⟩,
   ⟨up (fun n => n.setOut 3 { pulseUntil := some 9 }), 3, 9, by decide⟩,
   ⟨up (fun n => { (n.setStall 40 { n.stall 40 with part := 0x00C80000000000000002#224 }) with encs := [(0, { counting := true })] }), 0, true, by decide⟩,
   ⟨up (fun n => { (n.setStall 40 { n.stall 40 with part := 0x00C80000000000000002#224 }) with encs := [(0, { counting := true, frame := some (9, true) })] }), 0, 7, false, _, _, by exact ⟨rfl, by decide, by decide⟩⟩,
   ⟨up (fun n => { (n.setStall 40 { n.stall 40 with part := 0x00C80000000000000002#224 }) with encs := [(0, { counting := true, frame := some (9, true) })] }), 0, 7, true, _, _, by exact ⟨rfl, by decide, by decide⟩⟩,
   ⟨up id, by decide⟩,
   ⟨up (fun n => { (n.setStall 40 { n.stall 40 with st := .running }) with encs := [(0, { ext := 5, lastWritten := 4 })] }), 0, by decide⟩,
   ⟨up (fun n => { n with encs := [(1, { standstill := false })] }), 1, by decide⟩⟩

set_option maxRecDepth 20000 in
/-- The hypotheses of every clause of MotionAndDriveEventsComplete are met. -/
theorem witness_MotionAndDriveEventsComplete :
    (∃ (s : State), s.node.runs Isl.motion = true) ∧
    (∃ (s : State) (a : Nat) (e : Timed) (rest : List Timed), (earliest (s.node.axis a).timed) = (some (e, rest))) ∧
    (∃ (s : State) (a : Nat), (s.node.axis a).cfg.ferrWindow ≠ 0 ∧ 0 < (s.node.axis a).ferrTicks ∧
      (s.node.axis a).cfg.ferrTime ≤ (s.node.axis a).ferrTicks) ∧
    (∃ (s : State) (a : Nat) (positive : Bool), ((
      let n : Node := s.node
      let st := (n.axis a).st
      n.limitActive a positive ∧ st ≠ .disabled ∧ st ≠ .standstill))) ∧
    (∃ (s : State) (a : Nat), (s.node.axis a).st = .syncing) ∧
    (∃ (s : State) (a : Nat), ((s.node.axis a).st = .geared ∨ (s.node.axis a).st = .syncing) ∧ s.node.masterLost (s.node.axis a).gear = true) ∧
    (∃ (s : State) (a p : Nat), (
      let n : Node := s.node
      let ph := (n.drv a).phase p
      ph.chop = .blank)) ∧
    (∃ (s : State) (a p peak : Nat), (
      let n : Node := s.node
      let ph := (n.drv a).phase p
      ph.chop = .sampling)) ∧
    (∃ (s : State) (a p : Nat), (
      let n : Node := s.node
      let ph := (n.drv a).phase p
      ph.chop = .fast)) ∧
    (∃ (s : State) (a p : Nat), ((
      let n : Node := s.node
      let ph := (n.drv a).phase p
      ph.chop = .slow ∨ ph.chop = .allFast))) ∧
    (∃ (s : State) (a : Nat), (
      let n : Node := s.node
      let d := n.drv a
      let seen (ph : Phase) : Bool := ph.chop != .off && ph.chop != .blank
      d.chops && (seen d.phA || seen d.phB))) ∧
    (∃ (s : State) (a p : Nat), (s.node.drv a).chops = true ∧ 16 ≤ ((s.node.drv a).phase p).lowCycles) ∧
    (∃ (s : State) (a : Nat), (s.node.axis a).st = .standstill ∧ (s.node.drv a).coil = .run ∧ (s.node.drv a).standstill = 2) ∧
    (∃ (s : State) (a : Nat), (s.node.axis a).st = .standstill ∧ (s.node.drv a).coil = .run ∧ (s.node.drv a).standstill = 0) ∧
    (∃ (s : State) (a : Nat), (s.node.axis a).st = .standstill ∧ (s.node.drv a).coil = .run ∧ (s.node.drv a).standstill ≠ 0 ∧
      (s.node.drv a).standstill ≠ 2) :=
  ⟨⟨up id, by decide⟩,
   ⟨up (fun n => { n with axes := [(1, { timed := [.stop 1 9] })] }), 1, _, _, by exact rfl⟩,
   ⟨up (fun n => { n with axes := [(1, { cfg := { ferrWindow := 1, ferrTime := 1 }, ferrTicks := 1 })] }), 1, by decide⟩,
   ⟨up (fun n => (({ n with axes := [(1, { st := .moving, cfg := { limPos := 0 } })] }) : Node).setStall 0 { n.stall 0 with st := .running, status := 0, value := 1 }), 1, true, by decide⟩,
   ⟨up (fun n => { n with axes := [(1, { st := .syncing })] }), 1, by decide⟩,
   ⟨up (fun n => { n with axes := [(1, { st := .geared, gear := { source := 2, master := 0 } })] }), 1, by decide⟩,
   ⟨up (fun n => { n with drives := [(0, { coil := .run, phA := { chop := .blank } })] }), 0, 0, by decide⟩,
   ⟨up (fun n => { n with drives := [(0, { coil := .run, phA := { chop := .sampling } })] }), 0, 0, 0, by decide⟩,
   ⟨up (fun n => { n with drives := [(0, { coil := .run, phA := { chop := .fast } })] }), 0, 0, by decide⟩,
   ⟨up (fun n => { n with drives := [(0, { coil := .run, phA := { chop := .slow } })] }), 0, 0, by decide⟩,
   ⟨up (fun n => { n with drives := [(0, { coil := .run, phA := { chop := .fast } })] }), 0, by decide⟩,
   ⟨up (fun n => { n with drives := [(0, { coil := .run, phA := { lowCycles := 16 } })] }), 0, 0, by decide⟩,
   ⟨up (fun n => { n with axes := [(0, { st := .standstill })], drives := [(0, { coil := .run, standstill := 2 })] }), 0, by decide⟩,
   ⟨up (fun n => { n with axes := [(0, { st := .standstill })], drives := [(0, { coil := .run, standstill := 0 })] }), 0, by decide⟩,
   ⟨up (fun n => { n with axes := [(0, { st := .standstill })], drives := [(0, { coil := .run, standstill := 1 })] }), 0, by decide⟩⟩

set_option maxRecDepth 20000 in
/-- The hypotheses of every clause of LinkEventsComplete are met. -/
theorem witness_LinkEventsComplete :
    (∃ (s : State) (p adv bypasses : Nat), ((
      let n : Node := s.node
      let x := n.port p
      x.st = .down ∧ p < 3 ∧ x.reload.isNone ∧ n.runs Isl.line ∧ (p = 2 ∨ !n.power.bypassClosed)))) ∧
    (∃ (s : State) (p : Nat), ((
      let n : Node := s.node
      let x := n.port p
      x.st = .training ∧ !x.linkUp)) ∧ (
      let n : Node := s.node
      let x := n.port p
      let r := topRate x.adv (x.trying - 1)
      1 ≤ r)) ∧
    (∃ (s : State) (p : Nat), ((
      let n : Node := s.node
      let x := n.port p
      x.st = .training ∧ !x.linkUp)) ∧ ¬ (
      let n : Node := s.node
      let x := n.port p
      let r := topRate x.adv (x.trying - 1)
      1 ≤ r) ∧ (
      let n : Node := s.node
      let x := n.port p
      x.bypasses = 1)) ∧
    (∃ (s : State) (p : Nat), ((
      let n : Node := s.node
      let x := n.port p
      x.st = .training ∧ !x.linkUp)) ∧ ¬ (
      let n : Node := s.node
      let x := n.port p
      let r := topRate x.adv (x.trying - 1)
      1 ≤ r) ∧ ¬ (
      let n : Node := s.node
      let x := n.port p
      x.bypasses = 1)) ∧
    (∃ (s : State) (p length : Nat) (preempt lpi : Bool), ((
      let n : Node := s.node
      let x := n.port p
      x.st = .training ∧ !x.linkUp ∧ 1 ≤ x.trying))) ∧
    (∃ (s : State) (p : Nat), ((
      let n : Node := s.node
      let x := n.port p
      x.st = .training ∧ x.linkUp))) ∧
    (∃ (s : State) (p address level serial : Nat), (¬ (
      let n : Node := s.node
      let x := n.port p
      !n.runs Isl.line ∨ !(x.st == .up || x.st == .levelRefused || (x.st == .training && x.linkUp && decide (n.now ≤ x.upAt + sec 1))))) ∧ (partnerLevelOk level) ∧ (
      let n : Node := s.node
      let x := n.port p
      x.st = .up)) ∧
    (∃ (s : State) (p address level serial : Nat), (¬ (
      let n : Node := s.node
      let x := n.port p
      !n.runs Isl.line ∨ !(x.st == .up || x.st == .levelRefused || (x.st == .training && x.linkUp && decide (n.now ≤ x.upAt + sec 1))))) ∧ (partnerLevelOk level) ∧ ¬ (
      let n : Node := s.node
      let x := n.port p
      x.st = .up)) ∧
    (∃ (s : State) (p address level serial : Nat), (¬ (
      let n : Node := s.node
      let x := n.port p
      !n.runs Isl.line ∨ !(x.st == .up || x.st == .levelRefused || (x.st == .training && x.linkUp && decide (n.now ≤ x.upAt + sec 1))))) ∧ ¬ (partnerLevelOk level) ∧ ¬ (
      let n : Node := s.node
      let x := n.port p
      x.st = .levelRefused)) ∧
    (∃ (s : State) (p address level serial : Nat), (¬ (
      let n : Node := s.node
      let x := n.port p
      !n.runs Isl.line ∨ !(x.st == .up || x.st == .levelRefused || (x.st == .training && x.linkUp && decide (n.now ≤ x.upAt + sec 1))))) ∧ ¬ (partnerLevelOk level) ∧ (
      let n : Node := s.node
      let x := n.port p
      x.st = .levelRefused)) ∧
    (∃ (s : State) (p : Nat), (s.node.port p).st = .training) ∧
    (∃ (s : State) (p : Nat), (s.node.port p).st ≠ .training) ∧
    (∃ (s : State) (p : Nat), ((
      let n : Node := s.node
      let x := n.port p
      x.st = .up ∨ x.st = .levelRefused))) ∧
    (∃ (s : State) (p : Nat), ((
      let n : Node := s.node
      let x := n.port p
      let n := if x.st = .up then n.upTo (x.retryFrom + sec 600) else n
      x.st = .up ∧ x.partner = 1 ∧ x.rate < topRate x.adv (n.allowedRate p) ∧ x.lastExpress + ms 2 ≤ n.now))) ∧
    (∃ (s : State) (p t : Nat), (s.node.port p).failFrom = some t) ∧
    (∃ (s : State) (p blocks : Nat), ((
      let n : Node := s.node
      let x := n.port p
      x.rate ≠ 0 ∧ 10 < blocks))) ∧
    (∃ (s : State) (p : Nat), (s.node.port p).st = .up) ∧
    (∃ (s : State) (p : Nat), p < 3 ∧ s.node.runs Isl.line = true ∧ s.node.glean.flags.getLsbD (1 + p) = true ∧ (s.node.port p).lpiAgreed = true ∧
      ((s.node.port p).st = .up ∨ (s.node.port p).st = .foreign) ∧ s.node.queuesEmpty p = true ∧ (s.node.port p).entry ≠ 0 ∧
      s.node.now + us 40 < nextGrid (s.node.now + 1) (us s.node.line.cycle)) ∧
    (∃ (s : State) (p : Nat), (((s.node.port p).lpi ∧ !s.node.queuesEmpty p))) :=
  ⟨⟨up (fun n => n.setPort 2 { st := .down }), 2, 31, 0, by decide⟩,
   ⟨up (fun n => n.setPort 0 { st := .training, adv := 31, trying := 2 }), 0, by decide⟩,
   ⟨up (fun n => n.setPort 0 { st := .training, adv := 31, trying := 1, bypasses := 1 }), 0, by decide⟩,
   ⟨up (fun n => n.setPort 0 { st := .training, adv := 31, trying := 1 }), 0, by decide⟩,
   ⟨up (fun n => n.setPort 0 { st := .training, adv := 31, trying := 3 }), 0, 10, true, false, by decide⟩,
   ⟨up (fun n => n.setPort 0 { st := .training, linkUp := true }), 0, by decide⟩,
   ⟨up (fun n => n.setPort 0 { st := .up }), 0, 7, 6, 9, by decide⟩,
   ⟨up (fun n => n.setPort 0 { st := .training, linkUp := true }), 0, 7, 6, 9, by decide⟩,
   ⟨up (fun n => n.setPort 0 { st := .up }), 0, 7, 3, 9, by decide⟩,
   ⟨up (fun n => n.setPort 0 { st := .levelRefused }), 0, 7, 3, 9, by decide⟩,
   ⟨up (fun n => n.setPort 0 { st := .training }), 0, by decide⟩,
   ⟨up (fun n => n.setPort 0 { st := .up }), 0, by decide⟩,
   ⟨up (fun n => n.setPort 0 { st := .up }), 0, by decide⟩,
   ⟨up (fun n => n.setPort 0 { st := .up, rate := 2, adv := 31, partner := 1 }), 0, by decide⟩,
   ⟨up (fun n => n.setPort 0 { failFrom := some 9 }), 0, 9, by decide⟩,
   ⟨up (fun n => n.setPort 0 { st := .up, rate := 3 }), 0, 11, by decide⟩,
   ⟨up (fun n => n.setPort 0 { st := .up }), 0, by decide⟩,
   ⟨up (fun n => { (n.setPort 0 { st := .up, lpiAgreed := true, entry := 1 }) with glean := { n.glean with flags := 2 }, line := { (n.setPort 0 { st := .up, lpiAgreed := true, entry := 1 }).line with cycle := 1000 } }), 0, by decide⟩,
   ⟨up (fun n => (n.setPort 0 { st := .up, lpi := true }).enqueue 0 { level := 5, type := 1, flags := 0, dst := 1, src := 2, ttl := 3, seq := 4, payload := [] }), 0, by decide⟩⟩

set_option maxRecDepth 20000 in
/-- The hypotheses of every clause of LineEventsComplete are met. -/
theorem witness_LineEventsComplete :
    (∃ (s : State) (t : Nat), ((s.node.runs Isl.line ∧ t = nextGrid s.node.gridNow (us s.node.line.cycle)))) ∧
    (∃ (s : State) (p t : Nat), ((
      let n : Node := s.node
      let e := (n.port p).entry + 1
      p < 3 ∧ e < (n.gateList p).length ∧ n.runs Isl.line ∧ t = n.entryEnd p))) ∧
    (∃ (s : State), ((s.node.lineSends ∧ s.node.line.cyclicDue))) ∧
    (∃ (s : State) (p mac level type flags dst src ttl seq : Nat) (payload : List Nat) (hcrc fcs : Nat) (fec : Nat × Nat), (¬ (!s.node.runs Isl.line ∨ p ≥ 3)) ∧ (!knownType type) ∧ ((
      let n : Node := s.node
      let n := n.updPort p (fun x => { x with crcRun := satInc 32 x.crcRun, fecCorr := min (x.fecCorr + fec.1) (2 ^ 32 - 1),
                                              fecUnc := min (x.fecUnc + fec.2) (2 ^ 32 - 1) })
      let n := if fcs = 0 then n.updPort p (fun x => { x with lastGood := n.now,
                                                              lastExpress := if 5 ≤ classOf type ∧ type ≠ 0x01 then n.now else x.lastExpress }) else n
      n.line.cfg.flags.getLsbD 2 ∧ fcs = 0 ∧ (n.port p).st = .up))) ∧
    (∃ (s : State) (p mac level type flags dst src ttl seq : Nat) (payload : List Nat) (hcrc fcs : Nat) (fec : Nat × Nat), (¬ (!s.node.runs Isl.line ∨ p ≥ 3)) ∧ ¬ (!knownType type) ∧ (
      let n : Node := s.node
      let f : KFrame := { level := level, type := type, flags := BitVec.ofNat 16 flags, dst := dst, src := src, ttl := ttl, seq := seq,
                          payload := payload.map (BitVec.ofNat 8), smac := mac }
      hcrc ≠ f.hcrc)) ∧
    (∃ (s : State) (p mac level type flags dst src ttl seq : Nat) (payload : List Nat) (hcrc fcs : Nat) (fec : Nat × Nat), (¬ (!s.node.runs Isl.line ∨ p ≥ 3)) ∧ ¬ (!knownType type) ∧ ¬ (
      let n : Node := s.node
      let f : KFrame := { level := level, type := type, flags := BitVec.ofNat 16 flags, dst := dst, src := src, ttl := ttl, seq := seq,
                          payload := payload.map (BitVec.ofNat 8), smac := mac }
      hcrc ≠ f.hcrc) ∧ (type = 0x01) ∧ (fcs = 0)) ∧
    (∃ (s : State) (p mac level type flags dst src ttl seq : Nat) (payload : List Nat) (hcrc fcs : Nat) (fec : Nat × Nat), (¬ (!s.node.runs Isl.line ∨ p ≥ 3)) ∧ ¬ (!knownType type) ∧ ¬ (
      let n : Node := s.node
      let f : KFrame := { level := level, type := type, flags := BitVec.ofNat 16 flags, dst := dst, src := src, ttl := ttl, seq := seq,
                          payload := payload.map (BitVec.ofNat 8), smac := mac }
      hcrc ≠ f.hcrc) ∧ ¬ (type = 0x01) ∧ (!levelOk level)) ∧
    (∃ (s : State) (p mac level type flags dst src ttl seq : Nat) (payload : List Nat) (hcrc fcs : Nat) (fec : Nat × Nat), (¬ (!s.node.runs Isl.line ∨ p ≥ 3)) ∧ ¬ (!knownType type) ∧ ¬ (
      let n : Node := s.node
      let f : KFrame := { level := level, type := type, flags := BitVec.ofNat 16 flags, dst := dst, src := src, ttl := ttl, seq := seq,
                          payload := payload.map (BitVec.ofNat 8), smac := mac }
      hcrc ≠ f.hcrc) ∧ ¬ (type = 0x01) ∧ ¬ (!levelOk level) ∧ (¬ (
      let n : Node := s.node
      let n := n.updPort p (fun x => { x with crcRun := satInc 32 x.crcRun, fecCorr := min (x.fecCorr + fec.1) (2 ^ 32 - 1),
                                              fecUnc := min (x.fecUnc + fec.2) (2 ^ 32 - 1) })
      let f : KFrame := { level := level, type := type, flags := BitVec.ofNat 16 flags, dst := dst, src := src, ttl := ttl, seq := seq,
                          payload := payload.map (BitVec.ofNat 8), smac := mac }
      let n := if fcs = 0 then n.updPort p (fun x => { x with lastGood := n.now,
                                                              lastExpress := if 5 ≤ classOf type ∧ type ≠ 0x01 then n.now else x.lastExpress }) else n
      (n.port p).st ≠ .up ∨ n.spineBars p f ∨ (plantAddr src && neverPlant type))) ∧ (fcs = 1)) ∧
    (∃ (s : State) (p mac level type flags dst src ttl seq : Nat) (payload : List Nat) (hcrc fcs : Nat) (fec : Nat × Nat), (¬ (!s.node.runs Isl.line ∨ p ≥ 3)) ∧ ¬ (!knownType type) ∧ ¬ (
      let n : Node := s.node
      let f : KFrame := { level := level, type := type, flags := BitVec.ofNat 16 flags, dst := dst, src := src, ttl := ttl, seq := seq,
                          payload := payload.map (BitVec.ofNat 8), smac := mac }
      hcrc ≠ f.hcrc) ∧ ¬ (type = 0x01) ∧ ¬ (!levelOk level) ∧ (¬ (
      let n : Node := s.node
      let n := n.updPort p (fun x => { x with crcRun := satInc 32 x.crcRun, fecCorr := min (x.fecCorr + fec.1) (2 ^ 32 - 1),
                                              fecUnc := min (x.fecUnc + fec.2) (2 ^ 32 - 1) })
      let f : KFrame := { level := level, type := type, flags := BitVec.ofNat 16 flags, dst := dst, src := src, ttl := ttl, seq := seq,
                          payload := payload.map (BitVec.ofNat 8), smac := mac }
      let n := if fcs = 0 then n.updPort p (fun x => { x with lastGood := n.now,
                                                              lastExpress := if 5 ≤ classOf type ∧ type ≠ 0x01 then n.now else x.lastExpress }) else n
      (n.port p).st ≠ .up ∨ n.spineBars p f ∨ (plantAddr src && neverPlant type))) ∧ ¬ (fcs = 1) ∧ ¬ (fcs = 2)) ∧
    (∃ (s : State) (mac level type flags dst src ttl seq : Nat) (payload : List Nat), ((s.node.isHead ∧ s.node.line.cfg.portC = 3 ∧
      (s.node.port 2).st = .foreign ∧ s.node.runs Isl.line))) ∧
    (∃ (s : State) (address mac t : Nat), s.node.line.proxies.look address = some (mac, t)) ∧
    (∃ (s : State) (up down : Nat), s.node.line.ring = true ∧ s.node.runs Isl.line = true) ∧
    (∃ (s : State) (up down : Nat), s.node.line.ring = true ∧ s.node.line.ringBroken = true ∧ s.node.runs Isl.line = true) ∧
    (∃ (s : State), s.node.line.ringBroken = true ∧ ((if s.node.isHead then 2 else 1) ≤ s.node.line.ringClosed)) ∧
    (∃ (s : State) (serial address level : Nat) (ports neigh rates : List Nat) (head : Bool), s.node.isHead = true ∧ s.node.runs Isl.line = true ∧
      head = false) ∧
    (∃ (s : State) (serial address level : Nat) (ports neigh rates : List Nat) (head : Bool), s.node.isHead = true ∧ s.node.runs Isl.line = true ∧
      head = true ∧ (s.node.yieldTo address).isHead = false) ∧
    (∃ (s : State), s.node.isHead = true ∧ s.node.line.mapDue = true ∧ s.node.runs Isl.line = true) ∧
    (∃ (s : State) (src cycle cycleAt level raiseLevel raiseAt : Nat) (nodes : List (List Nat)), s.node.runs Isl.line = true ∧
      (s.node.yieldTo src).isHead = false) ∧
    (∃ (s : State) (serial a : Nat), s.node.isHead = true ∧ s.node.line.cfg.flags.getLsbD 0 = true ∧ s.node.runs Isl.line = true ∧
      (((List.range ((s.node.addr :: s.node.line.map.map (fun e => e.2.address)).length + 1)).map (· + 1)).find? (fun a => !(s.node.addr :: s.node.line.map.map (fun e => e.2.address)).contains a && decide (a ≤ 0xFEFF))) = some a) ∧
    (∃ (s : State) (serial address : Nat), ((serial = Config.serial.toNat ∧ s.node.runs Isl.line)) ∧ ¬ (address = 0xFFFF) ∧ ((
      let n : Node := s.node
      let n := n.raise 2
      n.addr = 0 ∧ 1 ≤ address ∧ address ≤ 0xFEFF ∧ !n.cfgRo))) ∧
    (∃ (s : State) (serial address : Nat), ((serial = Config.serial.toNat ∧ s.node.runs Isl.line)) ∧ (address = 0xFFFF)) ∧
    (∃ (s : State) (src : Nat) (t : T64) (entries : List (List Nat)), (¬ (!s.node.runs Isl.line ∨ plantAddr src))) ∧
    (∃ (s : State) (src stall value : Nat) (t : T64), (¬ (!s.node.runs Isl.line ∨ src = 0 ∨ 0xFEFF < src)) ∧ (!s.node.awake)) ∧
    (∃ (s : State) (src stall value : Nat) (t : T64) (code u31 : Nat), (¬ (!s.node.runs Isl.line ∨ src = 0 ∨ 0xFEFF < src)) ∧ ¬ (!s.node.awake) ∧ (
      let n : Node := s.node
      let st := n.stall stall
      let v := BitVec.ofNat 64 value
      firstBad [(decide (numStalls ≤ stall), Rs.paramRange, 0), (st.st == .fallow, Rs.chanFallow, 0),
              (st.st != .running && st.st != .hold, Rs.busy, 0), (st.readOnly, Rs.paramRange, 0), (!st.takesWrite v, Rs.paramRange, 0),
              (decide (n.now + sec 60 < t), Rs.paramRange, 0)]) = (some (code, u31))) ∧
    (∃ (s : State) (src stall value : Nat) (t : T64), (¬ (!s.node.runs Isl.line ∨ src = 0 ∨ 0xFEFF < src)) ∧ ¬ (!s.node.awake) ∧ (
      let n : Node := s.node
      let st := n.stall stall
      let v := BitVec.ofNat 64 value
      firstBad [(decide (numStalls ≤ stall), Rs.paramRange, 0), (st.st == .fallow, Rs.chanFallow, 0),
              (st.st != .running && st.st != .hold, Rs.busy, 0), (st.readOnly, Rs.paramRange, 0), (!st.takesWrite v, Rs.paramRange, 0),
              (decide (n.now + sec 60 < t), Rs.paramRange, 0)]) = none ∧ (t = 0)) ∧
    (∃ (s : State) (src stall value : Nat) (t : T64), (¬ (!s.node.runs Isl.line ∨ src = 0 ∨ 0xFEFF < src)) ∧ ¬ (!s.node.awake) ∧ (
      let n : Node := s.node
      let st := n.stall stall
      let v := BitVec.ofNat 64 value
      firstBad [(decide (numStalls ≤ stall), Rs.paramRange, 0), (st.st == .fallow, Rs.chanFallow, 0),
              (st.st != .running && st.st != .hold, Rs.busy, 0), (st.readOnly, Rs.paramRange, 0), (!st.takesWrite v, Rs.paramRange, 0),
              (decide (n.now + sec 60 < t), Rs.paramRange, 0)]) = none ∧ ¬ (t = 0) ∧ (t < s.node.now)) ∧
    (∃ (s : State) (src stall value : Nat) (t : T64), (¬ (!s.node.runs Isl.line ∨ src = 0 ∨ 0xFEFF < src)) ∧ ¬ (!s.node.awake) ∧ (
      let n : Node := s.node
      let st := n.stall stall
      let v := BitVec.ofNat 64 value
      firstBad [(decide (numStalls ≤ stall), Rs.paramRange, 0), (st.st == .fallow, Rs.chanFallow, 0),
              (st.st != .running && st.st != .hold, Rs.busy, 0), (st.readOnly, Rs.paramRange, 0), (!st.takesWrite v, Rs.paramRange, 0),
              (decide (n.now + sec 60 < t), Rs.paramRange, 0)]) = none ∧ ¬ (t = 0) ∧ ¬ (t < s.node.now)) ∧
    (∃ (s : State) (t : Nat), (
      let n : Node := s.node
      let at_ := (n.line.newCycle.map Prod.snd).toList ++ (List.range 3).filterMap (fun p => (n.port p).newGates.map Prod.snd)
      at_.min?) = (some t)) :=
  ⟨⟨up (fun n => { n with line := { n.line with cycle := 1000 } }), 1000000000, by decide⟩,
   ⟨up (fun n => n.setPort 2 { gates := some [(5, 255), (6, 255)] }), 2, 5, by decide⟩,
   ⟨up (fun n => { n with line := { n.line with cyclic := [1], cyclicDue := true } }), by decide⟩,
   ⟨up (fun n => { n.setPort 0 { st := .up } with line := { (n.setPort 0 { st := .up }).line with cfg := { flags := 4 } } }), 0, 9, 5, 0xEE, 0, 0xFFFF, 7, 3, 1, [1], ({ level := 5, type := 0xEE, flags := BitVec.ofNat 16 0, dst := 0xFFFF, src := 7, ttl := 3, seq := 1, payload := [1], smac := 9 } : KFrame).hcrc, 0, (1, 0), by decide⟩,
   ⟨up (fun n => n.setPort 0 { st := .up }), 0, 9, 5, 1, 0, 0xFFFF, 7, 3, 1, [1], 65536, 0, (1, 0), by decide⟩,
   ⟨up (fun n => n.setPort 0 { st := .up }), 0, 9, 5, 1, 0, 0xFFFF, 7, 3, 1, [1], ({ level := 5, type := 1, flags := BitVec.ofNat 16 0, dst := 0xFFFF, src := 7, ttl := 3, seq := 1, payload := [1], smac := 9 } : KFrame).hcrc, 0, (1, 0), by decide⟩,
   ⟨up (fun n => n.setPort 0 { st := .up }), 0, 9, 3, 0x10, 0, 0xFFFF, 7, 3, 1, [1], ({ level := 3, type := 0x10, flags := BitVec.ofNat 16 0, dst := 0xFFFF, src := 7, ttl := 3, seq := 1, payload := [1], smac := 9 } : KFrame).hcrc, 0, (1, 0), by decide⟩,
   ⟨up (fun n => n.setPort 0 { st := .up }), 0, 9, 5, 0x10, 0, 0xFFFF, 7, 3, 1, [1], ({ level := 5, type := 0x10, flags := BitVec.ofNat 16 0, dst := 0xFFFF, src := 7, ttl := 3, seq := 1, payload := [1], smac := 9 } : KFrame).hcrc, 1, (1, 0), by decide⟩,
   ⟨up (fun n => n.setPort 0 { st := .up }), 0, 9, 5, 0x10, 0, 0xFFFF, 7, 3, 1, [1], ({ level := 5, type := 0x10, flags := BitVec.ofNat 16 0, dst := 0xFFFF, src := 7, ttl := 3, seq := 1, payload := [1], smac := 9 } : KFrame).hcrc, 0, (1, 0), by decide⟩,
   ⟨up (fun n => { n.setPort 2 { st := .foreign } with line := { (n.setPort 2 { st := .foreign }).line with cfg := { head := true, portC := 3 } } }), 9, 5, 0x10, 0, 0xFFFF, 0, 3, 1, [1], by decide⟩,
   ⟨up (fun n => { n with line := { n.line with proxies := [(0xFF01, (3, 9))] } }), 0xFF01, 3, 9, by decide⟩,
   ⟨up (fun n => { n with line := { n.line with cfg := { topology := 1 } } }), 1, 2, by decide⟩,
   ⟨up (fun n => { n with line := { n.line with cfg := { topology := 1 }, ringBroken := true } }), 1, 2, by decide⟩,
   ⟨up (fun n => { n with line := { n.line with ringBroken := true, ringClosed := 1, cycle := 1000 } }), by decide⟩,
   ⟨up (fun n => { n with line := { n.line with cfg := { head := true, address := 1, flags := 1, portC := 3 } } }), 9, 7, 5, [3], [1], [3], false, by decide⟩,
   ⟨up (fun n => { n with line := { n.line with cfg := { head := true, address := 8 } } }), 9, 7, 5, [3], [1], [3], true, by decide⟩,
   ⟨up (fun n => { n with line := { n.line with cfg := { head := true, address := 1, flags := 1, portC := 3 }, mapDue := true } }), by decide⟩,
   ⟨up id, 1, 1000, 0, 5, 0, 0, [], by decide⟩,
   ⟨up (fun n => { n with line := { n.line with cfg := { head := true, address := 1, flags := 1, portC := 3 } } }), 9, 2, by decide⟩,
   ⟨up id, Config.serial.toNat, 5, ⟨rfl, by decide⟩, by decide, by decide⟩,
   ⟨up (fun n => { n with line := { n.line with cfg := { address := 3 } } }), Config.serial.toNat, 0xFFFF, ⟨rfl, by decide⟩, by decide⟩,
   ⟨up id, 7, 9, [[0, 1, 0, 5]], by decide⟩,
   ⟨up (fun n => { n with glean := { n.glean with st := .asleep } }), 7, 16, 1, 0, by decide⟩,
   ⟨up (fun n => n.setStall 16 { n.stall 16 with st := .retrying }), 7, 16, 1, 0, _, _, by exact ⟨by decide, by decide, rfl⟩⟩,
   ⟨up (fun n => n.setStall 16 { n.stall 16 with st := .running }), 7, 16, 1, 0, by decide⟩,
   ⟨up (fun n => (fun n => n.setStall 16 { n.stall 16 with st := .running }) (n.upTo 9)), 7, 16, 1, 5, by decide⟩,
   ⟨up (fun n => n.setStall 16 { n.stall 16 with st := .running }), 7, 16, 1, 10000000000, by decide⟩,
   ⟨up (fun n => { n with line := { n.line with newCycle := some (500, 9) } }), _, by exact rfl⟩⟩

set_option maxRecDepth 20000 in
/-- The hypotheses of every clause of TimeEventsComplete are met. -/
theorem witness_TimeEventsComplete :
    (∃ (s : State) (p raw : Nat), ((s.node.capable p ∧ p = s.node.time.slave))) ∧
    (∃ (s : State) (p : Nat) (origin : Nat × Int) (rateOffset : Int) (raws : List Nat) (stamp q : Nat), (s.node.time.sync) = (some (stamp, q)) ∧ ((q = p ∧
      p = s.node.time.slave ∧ s.node.capable p))) ∧
    (∃ (s : State), (¬ (s.node.isHead ∧ s.node.time.cfg.source ≠ 1)) ∧ ((
      let n : Node := s.node
      let n := n.upTo (n.time.lastSync + ⌈3 * n.time.cfg.interval⌉.toNat)
      let n := if n.isHead then n.updTime (fun t => { t with sourceLost := true }) else n
      n.time.servo) = .locked)) ∧
    (∃ (s : State), (¬ (s.node.isHead ∧ s.node.time.cfg.source ≠ 1)) ∧ ((
      let n : Node := s.node
      let n := n.upTo (n.time.lastSync + ⌈3 * n.time.cfg.interval⌉.toNat)
      let n := if n.isHead then n.updTime (fun t => { t with sourceLost := true }) else n
      n.time.servo) = .acquiring)) ∧
    (∃ (s : State), (s.node.time.servo = .holdover)) ∧
    (∃ (s : State) (at_ : Nat × Nat), ((
      let n : Node := s.node
      let n := (n.upTo ((n.port at_.1).syncAt + ratRound n.time.cfg.interval |>.toNat)).applyTimeCfg
      n.masterPort at_.1 ∧ n.capable at_.1)) ∧ ((
      let n : Node := s.node
      let n := (n.upTo ((n.port at_.1).syncAt + ratRound n.time.cfg.interval |>.toNat)).applyTimeCfg
      let (gm, steps, utc) := n.announced
      let n := if (n.port at_.1).announceAt + sec 1 ≤ n.now then n.sendAnnounce at_.1 gm steps utc else n
      n.isHead))) ∧
    (∃ (s : State) (p : Nat), (s.node.carriesTime p)) ∧
    (∃ (s : State) (p raw1 t2 t3 raw4 : Nat), ((
      let n : Node := s.node
      let x := n.port p
      x.pdelayOut ∧ n.carriesTime p))) ∧
    (∃ (s : State) (p gm steps : Nat) (utc : Int), ((s.node.capable p ∧ p = s.node.time.slave))) ∧
    (∃ (s : State) (started : Bool), s.node.time.cfg.refPeriod ≠ 0 ∧ s.node.runs Isl.zb = true) :=
  ⟨⟨up (fun n => (n.setPort 0 { st := .up, asCapable := true, linkDelay := 5 }).updTime (fun t => { t with slave := 0, sync := some (7, 0) })), 0, 99, by decide⟩,
   ⟨up (fun n => (n.setPort 0 { st := .up, asCapable := true, linkDelay := 5 }).updTime (fun t => { t with slave := 0, sync := some (7, 0) })), 0, (9, 0), 0, [], _, _, by exact ⟨rfl, by decide⟩⟩,
   ⟨up (fun n => n.updTime (fun t => { t with servo := .locked })), by decide⟩,
   ⟨up (fun n => n.updTime (fun t => { t with servo := .acquiring })), by decide⟩,
   ⟨up (fun n => n.updTime (fun t => { t with servo := .holdover })), by decide⟩,
   ⟨up (fun n => ({ n with line := { n.line with cfg := { head := true } } }).setPort 1 { st := .up, asCapable := true }), (1, 7), by decide +kernel⟩,
   ⟨up (fun n => (n.setPort 0 { st := .up, asCapable := true, linkDelay := 5 }).updTime (fun t => { t with slave := 0, sync := some (7, 0) })), 0, by decide⟩,
   ⟨up (fun n => (n.setPort 0 { st := .up, pdelayOut := true, linkDelay := 5 }).updTime (fun t => { t with slave := 0 })), 0, 1, 2, 3, 9, by decide⟩,
   ⟨up (fun n => (n.setPort 0 { st := .up, asCapable := true, linkDelay := 5 }).updTime (fun t => { t with slave := 0, sync := some (7, 0) })), 0, 3, 1, 37, by decide⟩,
   ⟨up (fun n => n.updTime (fun t => { t with cfg := { t.cfg with refPeriod := 100 } })), false, by decide⟩⟩

set_option maxRecDepth 20000 in
/-- The hypotheses of every clause of ZoneBusEventsComplete are met. -/
theorem witness_ZoneBusEventsComplete :
    (∃ (s : State), s.node.zb.st = .integrating) ∧
    (∃ (s : State) (ident : Nat) (fd brs esi rtr : Bool) (data : List Nat) (sof : Nat), (s.node.zb.st) = .errorActive ∧ ¬ (
      let n : Node := s.node
      let st := n.zb.st
      !zbLegal ident fd brs rtr data.length || (fd && !n.zb.fdOn && st != .restricted))) ∧
    (∃ (s : State) (ident : Nat) (fd brs esi rtr : Bool) (data : List Nat) (sof : Nat), (s.node.zb.st) = .errorPassive ∧ ¬ (
      let n : Node := s.node
      let st := n.zb.st
      !zbLegal ident fd brs rtr data.length || (fd && !n.zb.fdOn && st != .restricted))) ∧
    (∃ (s : State) (ident : Nat) (fd brs esi rtr : Bool) (data : List Nat) (sof : Nat), (s.node.zb.st) = .restricted ∧ ¬ (
      let n : Node := s.node
      let st := n.zb.st
      !zbLegal ident fd brs rtr data.length || (fd && !n.zb.fdOn && st != .restricted))) ∧
    (∃ (s : State) (sof delay : Nat) (x : ZbMsg) (rest : List ZbMsg), (s.node.zb.fifo) = (x :: rest) ∧ ¬ (!s.node.zbSends)) ∧
    (∃ (s : State) (kind : Nat) (clash : Bool) (add : Nat) (x : ZbMsg) (rest : List ZbMsg), (s.node.zb.fifo) = (x :: rest) ∧
      ¬ (!s.node.zbSends || s.node.zb.st == .loopback)) ∧
    (∃ (s : State) (kind add : Nat) (res : Bool), s.node.zb.st ≠ .off ∧ s.node.zb.st ≠ .integrating ∧ s.node.zb.st ≠ .loopback ∧ s.node.zb.st ≠ .offline ∧
      res = true ∧ s.node.zb.flags.getLsbD 2 = true) ∧
    (∃ (s : State) (kind add : Nat) (res : Bool), (s.node.zb.st = .errorActive ∨ s.node.zb.st = .errorPassive) ∧
      (res = false ∨ s.node.zb.flags.getLsbD 2 = false)) ∧
    (∃ (s : State) (kind add : Nat) (res : Bool), s.node.zb.st ≠ .off ∧ s.node.zb.st ≠ .integrating ∧ s.node.zb.st ≠ .loopback ∧ s.node.zb.st ≠ .offline ∧
      s.node.zb.st ≠ .errorActive ∧ s.node.zb.st ≠ .errorPassive ∧ (res = false ∨ s.node.zb.flags.getLsbD 2 = false)) ∧
    (∃ (s : State) (x : ZbMsg) (rest : List ZbMsg), (s.node.zb.fifo) = (x :: rest) ∧ ¬ (!s.node.zbSends)) ∧
    (∃ (s : State), s.node.zb.st = .busOff ∧ s.node.zb.autoRecover = true) ∧
    (∃ (s : State), s.node.zb.st = .recovering) ∧
    (∃ (s : State), s.node.zb.expressDue = true ∧ s.node.zb.started = false ∧ s.node.host.restarting = false) ∧
    (∃ (s : State) (ident : Nat) (started : Bool) (x : Stall), (s.node.remoteTx ident).head? = some x ∧ x.pf 18 2 ≠ 0 ∧ s.node.runs Isl.zb = true) ∧
    (∃ (s : State) (k : Nat), (s.node.stall k).kd = K.remote ∧ (s.node.stall k).st = .running ∧ (s.node.stall k).pf 12 1 = 0 ∧
      (s.node.stall k).pf 16 2 ≠ 0) :=
  ⟨⟨up (fun n => n.updZb (fun z => { z with st := .integrating, mode := 1 })), by decide⟩,
   ⟨up (fun n => n.updZb (fun z => { z with st := .errorActive, flags := 3 })), 5, true, false, false, false, [1], 9, by decide⟩,
   ⟨up (fun n => n.updZb (fun z => { z with st := .errorPassive, flags := 3, recCnt := 128 })), 5, true, false, false, false, [1], 9, by decide⟩,
   ⟨up (fun n => n.updZb (fun z => { z with st := .restricted, flags := 3 })), 5, true, false, false, false, [1], 9, by decide⟩,
   ⟨up (fun n => n.updZb (fun z => { z with st := .errorActive, started := true, fifo := [{ ident := 5, fd := false, brs := false, data := [1], limit := 0, src := .reference, express := false, at_ := 0 }] })), 9, 7, _, _, by exact ⟨rfl, by decide⟩⟩,
   ⟨up (fun n => n.updZb (fun z => { z with st := .errorActive, started := true, fifo := [{ ident := 5, fd := false, brs := false, data := [1], limit := 0, src := .reference, express := false, at_ := 0 }] })), 1, false, 8, _, _, by exact ⟨rfl, by decide⟩⟩,
   ⟨up (fun n => n.updZb (fun z => { z with st := .errorActive, flags := 4 })), 2, 1, true, by decide⟩,
   ⟨up (fun n => n.updZb (fun z => { z with st := .errorPassive })), 2, 1, false, by decide⟩,
   ⟨up (fun n => n.updZb (fun z => { z with st := .busOff })), 2, 1, false, by decide⟩,
   ⟨up (fun n => n.updZb (fun z => { z with st := .errorActive, started := true, fifo := [{ ident := 5, fd := false, brs := false, data := [1], limit := 0, src := .reference, express := false, at_ := 0 }] })), _, _, by exact ⟨rfl, by decide⟩⟩,
   ⟨up (fun n => n.updZb (fun z => { z with st := .busOff, flags := 8 })), by decide⟩,
   ⟨up (fun n => n.updZb (fun z => { z with st := .recovering })), by decide⟩,
   ⟨up (fun n => n.updZb (fun z => { z with expressDue := true })), by decide⟩,
   ⟨up (fun n => n.setStall 70 { n.stall 70 with kind := 0x12, st := .running, part := 0x6400000000000100000005#224 }), 5, false, ((up (fun n => n.setStall 70 { n.stall 70 with kind := 0x12, st := .running, part := 0x6400000000000100000005#224 })).node.stall 70), by decide⟩,
   ⟨up (fun n => n.setStall 70 { n.stall 70 with kind := 0x12, st := .running, part := 0x00640000000000000000#224 }), 70, by decide⟩⟩

set_option maxRecDepth 20000 in
/-- The hypotheses of every clause of CustodyEventsComplete are met. -/
theorem witness_CustodyEventsComplete :
    (∃ (s : State), s.node.cust.configured = true ∧ s.node.coresRun = true) ∧
    (∃ (s : State) (k t e : Nat) (es : List Nat), s.node.coresRun = true ∧ s.node.cust.configured = true ∧ (s.node.cust.exit k).kind ≠ 0 ∧
      s.node.cust.lastEdge.getD k 0 < t ∧ ((s.node.upTo t).updCust (fun c => { c with lastEdge := c.lastEdge.put k t })).cust.matches k t = e :: es) ∧
    (∃ (s : State) (k t slot : Nat), s.node.coresRun = true ∧ s.node.cust.configured = true ∧ (s.node.cust.exit k).kind ≠ 0 ∧
      s.node.cust.lastEdge.getD k 0 < t ∧ ((s.node.upTo t).updCust (fun c => { c with lastEdge := c.lastEdge.put k t })).cust.matches k t = [] ∧
      (((s.node.upTo t).updCust (fun c => { c with lastEdge := c.lastEdge.put k t })).recCreate t 0 0 k true).1 = some slot) ∧
    (∃ (s : State) (k p : Nat) (ps : List Nat) (t : T64) (slot : Nat) (r : CRec), s.node.cust.leaving.look k = some (p :: ps, t) ∧
      s.node.parcel p = some (slot, r) ∧
      ((if s.node.cust.stallSource then s.node else s.node.upTo (t + ((((r.length + 500) * 10 : Nat) : Int).toNat * 100000 + s.node.cust.speed - 1) / max 1 s.node.cust.speed)).coresRun = true) ∧
      (((if s.node.cust.stallSource then s.node else s.node.upTo (t + ((((r.length + 500) * 10 : Nat) : Int).toNat * 100000 + s.node.cust.speed - 1) / max 1 s.node.cust.speed)).cust.exit k).kind = 2) ∧
      ((((r.length + 500) * 10 : Nat) : Int) ≤ (if s.node.cust.stallSource then s.node else s.node.upTo (t + ((((r.length + 500) * 10 : Nat) : Int).toNat * 100000 + s.node.cust.speed - 1) / max 1 s.node.cust.speed)).cust.posAt r (if s.node.cust.stallSource then s.node else s.node.upTo (t + ((((r.length + 500) * 10 : Nat) : Int).toNat * 100000 + s.node.cust.speed - 1) / max 1 s.node.cust.speed)).now - (if s.node.cust.stallSource then s.node else s.node.upTo (t + ((((r.length + 500) * 10 : Nat) : Int).toNat * 100000 + s.node.cust.speed - 1) / max 1 s.node.cust.speed)).cust.posAt r t)) ∧
    (∃ (s : State) (slot : Nat) (t : ThTask) (core : Nat), s.node.rcp.tasks.look slot = some t ∧ t.st = .inService core ∧ t.handler = 0x0701 ∧
      t.ran = false) ∧
    (∃ (s : State) (f : ZbFrame) (rest : List ZbFrame) (slot : Nat) (r : CRec), s.node.zb.lane = f :: rest ∧ s.node.coresRun = true ∧
      s.node.cust.scanner ≠ 0xFFFFFFFF ∧ f.ident = s.node.cust.scanner ∧
      ((((s.node.updZb (fun z => { z with lane := rest })).cust.own.filter (fun e => e.2.tracked && decide ((fun r : CRec => ((s.node.updZb (fun z => { z with lane := rest })).cust.posAt r f.stamp - (s.node.updZb (fun z => { z with lane := rest })).cust.scanPos).natAbs) e.2 ≤ (s.node.updZb (fun z => { z with lane := rest })).cust.window))).foldl (fun (b : Option (Nat × CRec)) e => match b with | none => some e | some x => if (fun r : CRec => ((s.node.updZb (fun z => { z with lane := rest })).cust.posAt r f.stamp - (s.node.updZb (fun z => { z with lane := rest })).cust.scanPos).natAbs) e.2 < (fun r : CRec => ((s.node.updZb (fun z => { z with lane := rest })).cust.posAt r f.stamp - (s.node.updZb (fun z => { z with lane := rest })).cust.scanPos).natAbs) x.2 then some e else b) none) = some (slot, r))) ∧
    (∃ (s : State) (f : ZbFrame) (rest : List ZbFrame), s.node.zb.lane = f :: rest ∧ s.node.coresRun = true ∧ s.node.cust.scanner ≠ 0xFFFFFFFF ∧
      f.ident = s.node.cust.scanner ∧
      ((((s.node.updZb (fun z => { z with lane := rest })).cust.own.filter (fun e => e.2.tracked && decide ((fun r : CRec => ((s.node.updZb (fun z => { z with lane := rest })).cust.posAt r f.stamp - (s.node.updZb (fun z => { z with lane := rest })).cust.scanPos).natAbs) e.2 ≤ (s.node.updZb (fun z => { z with lane := rest })).cust.window))).foldl (fun (b : Option (Nat × CRec)) e => match b with | none => some e | some x => if (fun r : CRec => ((s.node.updZb (fun z => { z with lane := rest })).cust.posAt r f.stamp - (s.node.updZb (fun z => { z with lane := rest })).cust.scanPos).natAbs) e.2 < (fun r : CRec => ((s.node.updZb (fun z => { z with lane := rest })).cust.posAt r f.stamp - (s.node.updZb (fun z => { z with lane := rest })).cust.scanPos).natAbs) x.2 then some e else b) none) = none)) ∧
    (∃ (s : State) (f : ZbFrame) (rest : List ZbFrame), s.node.zb.lane = f :: rest ∧ s.node.coresRun = true ∧
      (s.node.cust.scanner = 0xFFFFFFFF ∨ f.ident ≠ s.node.cust.scanner)) ∧
    (∃ (s : State), (s.node.coresRun)) ∧
    (∃ (s : State) (parcel slot : Nat) (r : CRec), s.node.parcel parcel = some (slot, r) ∧ s.node.coresRun = true ∧ r.st = .outbound) ∧
    (∃ (s : State) (parcel u11 : Nat) (r : CRec), (s.node.parcel parcel) = (some (u11, r)) ∧ ((s.node.coresRun ∧ r.st = .inbound))) ∧
    (∃ (s : State), ((s.node.cust.configured ∧ s.node.coresRun))) ∧
    (∃ (s : State) (run : CkptRun), (s.node.cust.writing) = (some run)) ∧
    (∃ (s : State), ((s.node.coresRun ∧ s.node.power.stage = .t6 ∧ s.node.portsTrained))) ∧
    (∃ (s : State), s.node.coresRun = true ∧ (s.node.cust.recovering = true ∨ s.node.cust.rebuild ≠ [])) ∧
    (∃ (s : State) (seen : Nat × List Nat), s.node.powered Isl.power = true ∧
      ((((s.node.upTo (nextGrid (max s.node.gridNow (s.node.glean.energyAt + 1)) (ms 10))).updPower (fun p => { p with tap := seen.1 })).updGlean (fun g => { g.advance seen.2 with energyAt := nextGrid (max s.node.gridNow (s.node.glean.energyAt + 1)) (ms 10) })).cust.own.filter (fun r => r.2.st == .held)).length = 0) ∧
    (∃ (s : State) (seen : Nat × List Nat) (k : Nat), s.node.powered Isl.power = true ∧
      ((((s.node.upTo (nextGrid (max s.node.gridNow (s.node.glean.energyAt + 1)) (ms 10))).updPower (fun p => { p with tap := seen.1 })).updGlean (fun g => { g.advance seen.2 with energyAt := nextGrid (max s.node.gridNow (s.node.glean.energyAt + 1)) (ms 10) })).cust.own.filter (fun r => r.2.st == .held)).length = k ∧
      k ≠ 0) :=
  ⟨⟨up (fun n => { n with cust := { n.cust with configured := true } }), by decide⟩,
   ⟨up (fun n => { n with cust := { n.cust with configured := true, exits := [(0, { kind := 2 })], own := [(4, { parcel := 7, st := .held, exit := 0 })] } }), 0, 9, 4, [], by decide⟩,
   ⟨up (fun n => (fun n => { n with cust := { n.cust with configured := true, exits := [(0, { kind := 2 })] } }) { n with line := { n.line with cfg := { address := 1 } } }), 0, 9, 0, by decide⟩,
   ⟨up (fun n => { n with cust := { n.cust with speed := 1000000, exits := [(0, { kind := 2 })], leaving := [(0, ([7], 5))], own := [(0, { parcel := 7 })] } }), 0, 7, [], 5, 0, { parcel := 7 }, by decide⟩,
   ⟨up (fun n => { n with rcp := { n.rcp with tasks := [(0, { handler := 0x0701, arg := 0, release := 0, deadline := 0, group := 0, sheaf := 0, st := .inService 2, readyNo := 0, gen := 1, owner := none })] } }), 0, { handler := 0x0701, arg := 0, release := 0, deadline := 0, group := 0, sheaf := 0, st := .inService 2, readyNo := 0, gen := 1, owner := none }, 2, by decide⟩,
   ⟨up (fun n => { n with zb := { n.zb with lane := [{ ident := 5, fd := true, brs := true, esi := false, data := [1], stamp := 9 }] }, cust := { n.cust with scanner := 5, own := [(3, { parcel := 7, st := .held })] } }), { ident := 5, fd := true, brs := true, esi := false, data := [1], stamp := 9 }, [], 3, { parcel := 7, st := .held }, by decide⟩,
   ⟨up (fun n => { n with zb := { n.zb with lane := [{ ident := 5, fd := true, brs := true, esi := false, data := [1], stamp := 9 }] }, cust := { n.cust with scanner := 5 } }), { ident := 5, fd := true, brs := true, esi := false, data := [1], stamp := 9 }, [], by decide⟩,
   ⟨up (fun n => { n with zb := { n.zb with lane := [{ ident := 5, fd := true, brs := true, esi := false, data := [1], stamp := 9 }] }, cust := { n.cust with scanner := 6 } }), { ident := 5, fd := true, brs := true, esi := false, data := [1], stamp := 9 }, [], by decide⟩,
   ⟨up id, by decide⟩,
   ⟨up (fun n => { n with cust := { n.cust with own := [(3, { parcel := 7, version := 2, st := .outbound })] } }), 7, 3, { parcel := 7, version := 2, st := .outbound }, by decide⟩,
   ⟨up (fun n => { n with cust := { n.cust with own := [(3, { parcel := 7, version := 2, st := .inbound })] } }), 7, _, _, by exact ⟨rfl, by decide⟩⟩,
   ⟨up (fun n => { n with cust := { n.cust with configured := true } }), by decide⟩,
   ⟨up (fun n => { n with cust := { n.cust with writing := some ⟨true, [], 1, 2, 0⟩ } }), _, by exact rfl⟩,
   ⟨up (fun n => { n with power := { n.power with stage := .t6, bypassClosed := false }, line := { n.line with ports := [(0, { st := .up }), (1, { st := .up })] } }), by decide⟩,
   ⟨up (fun n => { n with cust := { n.cust with recovering := true } }), by decide⟩,
   ⟨up id, (48000, []), by decide⟩,
   ⟨up (fun n => { n with cust := { n.cust with own := [(3, { parcel := 7 })] } }), (48000, []), 1, by decide⟩⟩

set_option maxRecDepth 20000 in
/-- The hypotheses of every clause of CustodyMessagesComplete are met. -/
theorem witness_CustodyMessagesComplete :
    (∃ (s : State) (p : Nat) (record : List Nat), s.node.neighbour p = true ∧ s.node.coresRun = true) ∧
    (∃ (s : State) (p parcel version slot : Nat) (r : CRec), s.node.neighbour p = true ∧ s.node.coresRun = true ∧
      (s.node.parcel parcel) = (some (slot, r)) ∧ ((r.st = .outbound ∧ r.version = version ∧ (s.node.cust.exit r.exit).port = p))) ∧
    (∃ (s : State) (p parcel version status u21 : Nat) (r : CRec), s.node.neighbour p = true ∧ s.node.coresRun = true ∧
      (s.node.parcel parcel) = (some (u21, r)) ∧ ((r.st = .outbound ∧ r.version = version))) ∧
    (∃ (s : State) (p parcel version : Nat), s.node.neighbour p = true ∧ s.node.coresRun = true) ∧
    (∃ (s : State) (p parcel version : Nat), s.node.neighbour p = true ∧ s.node.coresRun = true) ∧
    (∃ (s : State) (p parcel version slot : Nat) (r : CRec), s.node.neighbour p = true ∧ s.node.coresRun = true ∧
      (s.node.parcel parcel) = (some (slot, r))) ∧
    (∃ (s : State) (p parcel version : Nat), s.node.neighbour p = true ∧ s.node.coresRun = true ∧ (s.node.parcel parcel) = none) ∧
    (∃ (s : State) (p : Nat) (records : List (List Nat)), s.node.coresRun = true ∧ s.node.neighbour p = true) ∧
    (∃ (s : State) (p parcel version : Nat), s.node.neighbour p = true ∧ s.node.coresRun = true) ∧
    (∃ (s : State) (p : Nat) (parcels : List Nat), s.node.neighbour p = true ∧ s.node.coresRun = true) ∧
    (∃ (s : State) (p durable : Nat), s.node.neighbour p = true ∧ s.node.coresRun = true) ∧
    (∃ (s : State) (p serial lastDurable : Nat), s.node.neighbour p = true ∧ s.node.coresRun = true ∧ ¬ (serial ≠ (s.node.port p).pserial) ∧
      ¬ (s.node.cust.recovering)) ∧
    (∃ (s : State) (p serial lastDurable : Nat), s.node.neighbour p = true ∧ s.node.coresRun = true ∧ ¬ (serial ≠ (s.node.port p).pserial) ∧
      (s.node.cust.recovering)) ∧
    (∃ (s : State) (p status : Nat) (records : List (List Nat)), s.node.neighbour p = true ∧ s.node.coresRun = true ∧ (s.node.cust.awaiting.contains p)) ∧
    (∃ (s : State) (p : Nat) (recovering : Bool), s.node.neighbour p = true ∧ s.node.coresRun = true) :=
  ⟨⟨up (fun n => (fun n => n) (n.setPort 0 { st := .up, partner := 1, pserial := 9 })), 0, [], by decide⟩,
   ⟨up (fun n => (fun n => { n with cust := { n.cust with own := [(3, { parcel := 7, version := 2, st := .outbound, exit := 0 })] } }) (n.setPort 0 { st := .up, partner := 1, pserial := 9 })), 0, 7, 2, _, _, by exact ⟨by decide, by decide, rfl, by decide⟩⟩,
   ⟨up (fun n => (fun n => { n with cust := { n.cust with own := [(3, { parcel := 7, version := 2, st := .outbound, exit := 0 })] } }) (n.setPort 0 { st := .up, partner := 1, pserial := 9 })), 0, 7, 2, 3, _, _, by exact ⟨by decide, by decide, rfl, by decide⟩⟩,
   ⟨up (fun n => (fun n => n) (n.setPort 0 { st := .up, partner := 1, pserial := 9 })), 0, 7, 2, by decide⟩,
   ⟨up (fun n => (fun n => n) (n.setPort 0 { st := .up, partner := 1, pserial := 9 })), 0, 7, 2, by decide⟩,
   ⟨up (fun n => (fun n => { n with cust := { n.cust with own := [(3, { parcel := 7, version := 2, st := .outbound, exit := 0 })] } }) (n.setPort 0 { st := .up, partner := 1, pserial := 9 })), 0, 7, 2, _, _, by exact ⟨by decide, by decide, rfl⟩⟩,
   ⟨up (fun n => (fun n => n) (n.setPort 0 { st := .up, partner := 1, pserial := 9 })), 0, 7, 2, by decide⟩,
   ⟨up (fun n => (fun n => n) (n.setPort 0 { st := .up, partner := 1, pserial := 9 })), 0, [], by decide⟩,
   ⟨up (fun n => (fun n => { n with cust := { n.cust with own := [(3, { parcel := 7, version := 2, holder := some 0 })] } }) (n.setPort 0 { st := .up, partner := 1, pserial := 9 })), 0, 7, 2, by decide⟩,
   ⟨up (fun n => (fun n => n) (n.setPort 0 { st := .up, partner := 1, pserial := 9 })), 0, [7], by decide⟩,
   ⟨up (fun n => (fun n => n) (n.setPort 0 { st := .up, partner := 1, pserial := 9 })), 0, 3, by decide⟩,
   ⟨up (fun n => (fun n => n) (n.setPort 0 { st := .up, partner := 1, pserial := 9 })), 0, 9, 3, by decide⟩,
   ⟨up (fun n => (fun n => { n with cust := { n.cust with recovering := true } }) (n.setPort 0 { st := .up, partner := 1, pserial := 9 })), 0, 9, 3, by decide⟩,
   ⟨up (fun n => (fun n => { n with cust := { n.cust with awaiting := [0] } }) (n.setPort 0 { st := .up, partner := 1, pserial := 9 })), 0, 1, [[]], by decide⟩,
   ⟨up (fun n => (fun n => n) (n.setPort 0 { st := .up, partner := 1, pserial := 9 })), 0, true, by decide⟩⟩

set_option maxRecDepth 20000 in
/-- The hypotheses of every clause of LiftAndGateEventsComplete are met. -/
theorem witness_LiftAndGateEventsComplete :
    (∃ (s : State) (l : Nat), s.node.liftRuns = true ∧ (s.node.lift l).st ≠ .inactive) ∧
    (∃ (s : State) (l k t : Nat), (¬ (
      let n : Node := s.node
      let x := n.lift l
      !n.liftRuns ∨ x.dir = 0 ∨ n.levels l ≤ k ∨ x.outOfService.getLsbD k)) ∧ (
      let n : Node := s.node
      let x := n.lift l
      let n := ((n.upTo t).sampleLift l).updLift l (fun x => { x with flagSeen := x.flagSeen ||| (1#16 <<< k) })
      let x := n.lift l
      x.st = .referencing)) ∧
    (∃ (s : State) (l k t : Nat), (¬ (
      let n : Node := s.node
      let x := n.lift l
      !n.liftRuns ∨ x.dir = 0 ∨ n.levels l ≤ k ∨ x.outOfService.getLsbD k)) ∧ ¬ (
      let n : Node := s.node
      let x := n.lift l
      let n := ((n.upTo t).sampleLift l).updLift l (fun x => { x with flagSeen := x.flagSeen ||| (1#16 <<< k) })
      let x := n.lift l
      x.st = .referencing) ∧ ((
      let n : Node := s.node
      let x := n.lift l
      let n := ((n.upTo t).sampleLift l).updLift l (fun x => { x with flagSeen := x.flagSeen ||| (1#16 <<< k) })
      let x := n.lift l
      let e : Int := if x.dir = 1 then x.level k - x.flagHalf else x.level k + x.flagHalf
      let d := x.posAt t - e
      d.natAbs ≤ x.refTol))) ∧
    (∃ (s : State) (l k t : Nat), (¬ (
      let n : Node := s.node
      let x := n.lift l
      !n.liftRuns ∨ x.dir = 0 ∨ n.levels l ≤ k ∨ x.outOfService.getLsbD k)) ∧ ¬ (
      let n : Node := s.node
      let x := n.lift l
      let n := ((n.upTo t).sampleLift l).updLift l (fun x => { x with flagSeen := x.flagSeen ||| (1#16 <<< k) })
      let x := n.lift l
      x.st = .referencing) ∧ (¬ (
      let n : Node := s.node
      let x := n.lift l
      let n := ((n.upTo t).sampleLift l).updLift l (fun x => { x with flagSeen := x.flagSeen ||| (1#16 <<< k) })
      let x := n.lift l
      let e : Int := if x.dir = 1 then x.level k - x.flagHalf else x.level k + x.flagHalf
      let d := x.posAt t - e
      d.natAbs ≤ x.refTol)) ∧ ((
      let n : Node := s.node
      let x := n.lift l
      let n := ((n.upTo t).sampleLift l).updLift l (fun x => { x with flagSeen := x.flagSeen ||| (1#16 <<< k) })
      let x := n.lift l
      x.st = .travelling ∨ x.st = .arriving))) ∧
    (∃ (s : State) (l a : Nat), s.node.liftAxis l = some a ∧ s.node.liftRuns = true ∧ (s.node.lift l).st = .travelling ∧ (s.node.axis a).atTarget = true) ∧
    (∃ (s : State) (l t : Nat), (
      let n : Node := s.node
      let x := n.lift l
      x.nearFrom) = (some t) ∧ ((
      let n : Node := s.node
      let x := n.lift l
      n.liftRuns ∧ x.st = .travelling ∧ (n.liftAxis l).isNone))) ∧
    (∃ (s : State) (l : Nat), s.node.liftRuns = true ∧ (s.node.lift l).st = .arriving ∧
      (((s.node.upTo ((s.node.lift l).arriveAt + ms 2000)).arriveNow l).lift l).st ≠ .arriving) ∧
    (∃ (s : State) (l : Nat), s.node.liftRuns = true ∧ (s.node.lift l).st = .arriving ∧
      (((s.node.upTo ((s.node.lift l).arriveAt + ms 2000)).arriveNow l).lift l).st = .arriving ∧
      (((s.node.upTo ((s.node.lift l).arriveAt + ms 2000)).arriveNow l).lift l).arrivalTried = true) ∧
    (∃ (s : State) (l : Nat), s.node.liftRuns = true ∧ (s.node.lift l).st = .arriving ∧
      (((s.node.upTo ((s.node.lift l).arriveAt + ms 2000)).arriveNow l).lift l).st = .arriving ∧
      (((s.node.upTo ((s.node.lift l).arriveAt + ms 2000)).arriveNow l).lift l).arrivalTried = false) ∧
    (∃ (s : State) (g : Nat), s.node.liftRuns = true ∧ (s.node.gate g).st = .opened ∧ (s.node.gate g).closeDue = false) ∧
    (∃ (s : State) (l : Nat), ((
      let n : Node := s.node
      let x := n.lift l
      n.liftRuns ∧ (x.st = .idle ∨ x.st = .unreferenced) ∧ x.calls = 0 ∧ x.idleTime ≠ 0 ∧ x.parkLevel < n.levels l)) ∧ (¬ (
      let n : Node := s.node
      let x := n.lift l
      let n := n.upTo (x.idleFrom + ms (1000 * x.idleTime))
      x.st = .idle ∧ n.atLevel l = some x.parkLevel))) ∧
    (∃ (s : State) (l : Nat), ((
      let n : Node := s.node
      let n' := n.sampleLift l
      let x := n'.lift l
      n.liftRuns ∧ x.st = .referencing ∧ x.refTravel ≤ (x.posAt n.now - x.refStart).natAbs))) ∧
    (∃ (s : State) (g : Nat), ¬ (!s.node.liftRuns) ∧ (
      let n : Node := s.node
      let n := n.reopenNow g
      let y := n.gate g
      y.st) = .unlocking ∧ ((
      let n : Node := s.node
      let n := n.reopenNow g
      let y := n.gate g
      n.gateFree g ∧ !y.held))) ∧
    (∃ (s : State) (g : Nat), ¬ (!s.node.liftRuns) ∧ (
      let n : Node := s.node
      let n := n.reopenNow g
      let y := n.gate g
      y.st) = .opening ∧ (
      let n : Node := s.node
      let n := n.reopenNow g
      n.openReached g)) ∧
    (∃ (s : State) (g : Nat), ¬ (!s.node.liftRuns) ∧ (
      let n : Node := s.node
      let n := n.reopenNow g
      let y := n.gate g
      y.st) = .locking ∧ (
      let n : Node := s.node
      let n := n.reopenNow g
      n.gateLocked g)) ∧
    (∃ (s : State) (g : Nat), ¬ (!s.node.liftRuns) ∧ (
      let n : Node := s.node
      let n := n.reopenNow g
      let y := n.gate g
      y.st) = .closedLocked ∧ (
      let n : Node := s.node
      let n := n.reopenNow g
      n.gateOff g || n.gateFree g)) ∧
    (∃ (s : State) (g : Nat), ¬ (!s.node.liftRuns) ∧ (
      let n : Node := s.node
      let n := n.reopenNow g
      let y := n.gate g
      y.st) = .reopening ∧ (
      let n : Node := s.node
      let n := n.reopenNow g
      n.openReached g) ∧ (
      let n : Node := s.node
      let n := n.reopenNow g
      let y := n.gate g
      y.attempts < 3)) ∧
    (∃ (s : State) (g : Nat), ¬ (!s.node.liftRuns) ∧ (
      let n : Node := s.node
      let n := n.reopenNow g
      let y := n.gate g
      y.st) = .reopening ∧ (
      let n : Node := s.node
      let n := n.reopenNow g
      n.openReached g) ∧ ¬ (
      let n : Node := s.node
      let n := n.reopenNow g
      let y := n.gate g
      y.attempts < 3)) ∧
    (∃ (s : State) (g : Nat), ¬ (!s.node.liftRuns) ∧ (
      let n : Node := s.node
      let n := n.reopenNow g
      let y := n.gate g
      y.st) = .closing) ∧
    (∃ (s : State) (g : Nat), s.node.liftRuns = true ∧ (s.node.gate g).st = .unlocking) ∧
    (∃ (s : State) (g : Nat), s.node.liftRuns = true ∧ (s.node.gate g).st = .opening) ∧
    (∃ (s : State) (g : Nat), s.node.liftRuns = true ∧ (s.node.gate g).st = .closing) ∧
    (∃ (s : State) (g : Nat), s.node.liftRuns = true ∧ (s.node.gate g).st = .locking) ∧
    (∃ (s : State) (g : Nat), ¬ (!s.node.liftRuns) ∧ ¬ (
      let n : Node := s.node
      let n := n.reopenNow g
      (n.gate g).st ≠ .closing)) ∧
    (∃ (s : State) (g : Nat), ((
      let n : Node := s.node
      let y := n.gate g
      n.liftRuns ∧ y.st = .opened ∧ y.closeDue ∧ !y.heldOpen))) ∧
    (∃ (s : State) (l : Nat), s.node.liftRuns = true ∧
      ((if (s.node.stall ((s.node.liftEntry l).pf 18 2)).valid then bit (s.node.interlock l) 1 else (s.node.lift l).demand) = true)) ∧
    (∃ (s : State) (l : Nat), s.node.liftRuns = true ∧
      ((if (s.node.stall ((s.node.liftEntry l).pf 18 2)).valid then bit (s.node.interlock l) 1 else (s.node.lift l).demand) = false)) :=
  ⟨⟨up (fun n => { n with lifts := [(0, { st := .idle })] }), 0, by decide⟩,
   ⟨up (fun n => { (n.setStall 70 { n.stall 70 with kind := 0x15, part := 0x020000000000000000#224 }) with lifts := [(0, { dir := 1, refTol := 5, st := .referencing, flagHalf := 0 })] }), 0, 1, 9, by decide +kernel⟩,
   ⟨up (fun n => { (n.setStall 70 { n.stall 70 with kind := 0x15, part := 0x020000000000000000#224 }) with lifts := [(0, { dir := 1, refTol := 5, st := .arriving, flagHalf := 0 })] }), 0, 1, 9, by decide +kernel⟩,
   ⟨up (fun n => { (n.setStall 70 { n.stall 70 with kind := 0x15, part := 0x020000000000000000#224 }) with lifts := [(0, { dir := 1, refTol := 5, st := .travelling, flagHalf := 90 })] }), 0, 1, 9, by decide +kernel⟩,
   ⟨up (fun n => { ((n.setStall 1000 { n.stall 1000 with kind := 0x15 }).setStall 64 { n.stall 64 with kind := 0x15, part := 0x2A0000#224 }) with lifts := [(0, { st := .travelling })], axes := [(0, { atTarget := true })] }), 0, 0, by decide⟩,
   ⟨up (fun n => { n with lifts := [(0, { st := .travelling, nearFrom := some 9 })] }), 0, _, by exact ⟨rfl, by decide⟩⟩,
   ⟨up (fun n => { (((n.setStall 64 { n.stall 64 with kind := 0x15, part := 0x100000000000000000000#224 }).setStall 0 { n.stall 0 with st := .running, value := 1, status := 0 }).setStall 1 { n.stall 1 with st := .running, value := 0xFFFFFFFF, status := 0 }) with lifts := [(0, { st := .arriving, target := 0 })] }), 0, by decide⟩,
   ⟨up (fun n => { n with lifts := [(0, { st := .arriving, arrivalTried := true, stopTol := 0, carPos := 7 })] }), 0, by decide⟩,
   ⟨up (fun n => { n with lifts := [(0, { st := .arriving, stopTol := 0, carPos := 7 })] }), 0, by decide⟩,
   ⟨up (fun n => { n with gates := [(0, { st := .opened })] }), 0, by decide⟩,
   ⟨up (fun n => { (n.setStall 64 { n.stall 64 with kind := 0x15, part := 0x020000000000000000#224 }) with lifts := [(0, { st := .unreferenced, idleTime := 1, parkLevel := 0 })] }), 0, by decide +kernel⟩,
   ⟨up (fun n => { n with lifts := [(0, { st := .referencing })] }), 0, by decide +kernel⟩,
   ⟨up (fun n => { ((n.setStall 64 { n.stall 64 with kind := 0x16, part := 0x0#224 }).setStall 0 { n.stall 0 with st := .running, value := 0, status := 0 }) with gates := [(0, { st := .unlocking })] }), 0, by decide⟩,
   ⟨up (fun n => { ((n.setStall 64 { n.stall 64 with kind := 0x16, part := 0x0#224 }).setStall 0 { n.stall 0 with st := .running, value := 0, status := 0 }) with gates := [(0, { st := .opening })] }), 0, by decide⟩,
   ⟨up (fun n => { ((n.setStall 64 { n.stall 64 with kind := 0x16, part := 0x0#224 }).setStall 0 { n.stall 0 with st := .running, value := 1, status := 0 }) with gates := [(0, { st := .locking })] }), 0, by decide⟩,
   ⟨up (fun n => { ((n.setStall 64 { n.stall 64 with kind := 0x16, part := 0x0#224 }).setStall 0 { n.stall 0 with st := .running, value := 0, status := 0 }) with gates := [(0, { st := .closedLocked })] }), 0, by decide⟩,
   ⟨up (fun n => { ((n.setStall 64 { n.stall 64 with kind := 0x16, part := 0x0#224 }).setStall 0 { n.stall 0 with st := .running, value := 0, status := 0 }) with gates := [(0, { st := .reopening })] }), 0, by decide⟩,
   ⟨up (fun n => { ((n.setStall 64 { n.stall 64 with kind := 0x16, part := 0x0#224 }).setStall 0 { n.stall 0 with st := .running, value := 0, status := 0 }) with gates := [(0, { st := .reopening, attempts := 3 })] }), 0, by decide⟩,
   ⟨up (fun n => { ((n.setStall 64 { n.stall 64 with kind := 0x16, part := 0x0#224 }).setStall 0 { n.stall 0 with st := .running, value := 1, status := 0 }) with gates := [(0, { st := .closing })] }), 0, by decide⟩,
   ⟨up (fun n => { n with gates := [(0, { st := .unlocking })] }), 0, by decide⟩,
   ⟨up (fun n => { n with gates := [(0, { st := .opening })] }), 0, by decide⟩,
   ⟨up (fun n => { n with gates := [(0, { st := .closing })] }), 0, by decide⟩,
   ⟨up (fun n => { n with gates := [(0, { st := .locking })] }), 0, by decide⟩,
   ⟨up (fun n => { n with gates := [(0, { st := .closing })] }), 0, by decide⟩,
   ⟨up (fun n => { n with gates := [(0, { st := .opened, closeDue := true })] }), 0, by decide⟩,
   ⟨up (fun n => { n with lifts := [(0, { demand := true })] }), 0, by decide⟩,
   ⟨up (fun n => { n with lifts := [(0, { st := .idle })] }), 0, by decide⟩⟩

set_option maxRecDepth 20000 in
/-- The hypotheses of every clause of HarvestAndRecorderEventsComplete are met. -/
theorem witness_HarvestAndRecorderEventsComplete :
    (∃ (s : State) (k : Nat), s.node.coresRun = true ∧ k < 4) ∧
    (∃ (s : State) (c : HvSet) (es : List HvEntry) (t : T64), s.node.harv.newList = some (c, es, t)) ∧
    (∃ (s : State) (k : Nat), (s.node.trig k).st = .holdoff) ∧
    (∃ (s : State) (stamp : Nat), s.node.harv.inForce.tbus = true ∧ s.node.harv.tbusLow = false ∧ s.node.awake = true) ∧
    (∃ (s : State) (stamp : Nat) (full : Bool), ¬ (
      let n : Node := s.node
      let n := n.upTo stamp
      !n.awake) ∧ (
      let n : Node := s.node
      let n := n.upTo stamp
      let h := n.harv
      h.inForce.clock = 1) ∧ ¬ (
      let n : Node := s.node
      let n := n.upTo stamp
      let h := n.harv
      h.cbusLow)) ∧
    (∃ (s : State) (stamp : Nat) (full : Bool), ¬ (
      let n : Node := s.node
      let n := n.upTo stamp
      !n.awake) ∧ (
      let n : Node := s.node
      let n := n.upTo stamp
      let h := n.harv
      h.inForce.clock = 1) ∧ (
      let n : Node := s.node
      let n := n.upTo stamp
      let h := n.harv
      h.cbusLow)) ∧
    (∃ (s : State) (stamp : Nat) (full : Bool), ¬ (
      let n : Node := s.node
      let n := n.upTo stamp
      !n.awake) ∧ ¬ (
      let n : Node := s.node
      let n := n.upTo stamp
      let h := n.harv
      h.inForce.clock = 1) ∧ (
      let n : Node := s.node
      let n := n.upTo stamp
      let h := n.harv
      h.inForce.clock = 2) ∧ ((
      let n : Node := s.node
      let n := n.upTo stamp
      let h := n.harv
      h.lastCbus ≠ 0 ∧ stamp < h.lastCbus + us 10))) ∧
    (∃ (s : State) (stamp : Nat) (full : Bool), ¬ (
      let n : Node := s.node
      let n := n.upTo stamp
      !n.awake) ∧ ¬ (
      let n : Node := s.node
      let n := n.upTo stamp
      let h := n.harv
      h.inForce.clock = 1) ∧ (
      let n : Node := s.node
      let n := n.upTo stamp
      let h := n.harv
      h.inForce.clock = 2) ∧ (¬ (
      let n : Node := s.node
      let n := n.upTo stamp
      let h := n.harv
      h.lastCbus ≠ 0 ∧ stamp < h.lastCbus + us 10))) ∧
    (∃ (s : State) (low : Bool), ((
      let n : Node := s.node
      let h := n.harv
      h.inForce.clock = 1 ∧ n.awake ∧ !h.entries.isEmpty)) ∧ (low)) ∧
    (∃ (s : State) (low : Bool), ((
      let n : Node := s.node
      let h := n.harv
      h.inForce.clock = 1 ∧ n.awake ∧ !h.entries.isEmpty)) ∧ ¬ (low) ∧ (
      let n : Node := s.node
      let h := n.harv
      h.cbusLow)) ∧
    (∃ (s : State), (s.node.harv.tbusLow)) ∧
    (∃ (s : State) (node slot collector share : Nat), s.node.isHead = true ∧ s.node.coresRun = true) ∧
    (∃ (s : State) (k share : Nat), ((s.node.coresRun ∧ k < 4))) ∧
    (∃ (s : State) (k : Nat), s.node.coresRun = true ∧ k < 4 ∧ (s.node.hslot k).st = .requested) ∧
    (∃ (s : State) (k : Nat), s.node.coresRun = true ∧ k < 4 ∧ (s.node.hslot k).st = .granted) ∧
    (∃ (s : State) (k : Nat), (s.node.hslot k).st = .requested ∧ s.node.coresRun = true) ∧
    (∃ (s : State) (k : Nat), ((s.node.hslot k).st = .refused ∨ (s.node.hslot k).st = .revoked) ∧ s.node.coresRun = true) ∧
    (∃ (s : State), (s.node.storeWorks && s.node.rcd.program.isNone && !s.node.rcd.eraseFirst)) ∧
    (∃ (s : State) (e : EvRec) (g : Bool), s.node.rcd.program = some (e, false, g)) ∧
    (∃ (s : State) (e : EvRec) (g : Bool), s.node.rcd.program = some (e, true, g)) ∧
    (∃ (s : State) (b : Nat), s.node.rcd.erasing.contains b = true) ∧
    (∃ (s : State) (p idx t : Nat) (ok : Bool), (ok)) ∧
    (∃ (s : State) (p idx t : Nat) (ok : Bool), ¬ (ok) ∧ ¬ (
      let n : Node := s.node
      let n := n.upTo t
      let key := blockKey p idx
      let old := (n.hlth.failing.look key).filter (fun e => decide (n.now ≤ e.2 + ms 100))
      let k := (old.map Prod.fst).getD 0 + 1
      3 ≤ k)) ∧
    (∃ (s : State) (p idx t : Nat) (ok : Bool), ¬ (ok) ∧ (
      let n : Node := s.node
      let n := n.upTo t
      let key := blockKey p idx
      let old := (n.hlth.failing.look key).filter (fun e => decide (n.now ≤ e.2 + ms 100))
      let k := (old.map Prod.fst).getD 0 + 1
      3 ≤ k)) ∧
    (∃ (s : State) (p idx u : Nat) (ok : Bool), (ok)) ∧
    (∃ (s : State) (p idx u : Nat) (ok : Bool), ¬ (ok)) :=
  ⟨⟨up id, 0, by decide⟩,
   ⟨up (fun n => n.updHarv (fun h => { h with newList := some ({}, [], 9) })), {}, [], 9, by decide⟩,
   ⟨up (fun n => n.setTrig 3 { st := .holdoff }), 3, by decide⟩,
   ⟨up (fun n => n.updHarv (fun h => { h with inForce := { h.inForce with tbus := true } })), 9, by decide⟩,
   ⟨up (fun n => n.updHarv (fun h => { h with inForce := { h.inForce with clock := 1 } })), 9, false, by decide⟩,
   ⟨up (fun n => n.updHarv (fun h => { h with inForce := { h.inForce with clock := 1 }, cbusLow := true })), 9, false, by decide⟩,
   ⟨up (fun n => n.updHarv (fun h => { h with inForce := { h.inForce with clock := 2 }, lastCbus := 8 })), 9, false, by decide⟩,
   ⟨up (fun n => n.updHarv (fun h => { h with inForce := { h.inForce with clock := 2 } })), 9, false, by decide⟩,
   ⟨up (fun n => n.updHarv (fun h => { h with inForce := { h.inForce with clock := 1 }, entries := [{ stall := 16 }] })), true, by decide⟩,
   ⟨up (fun n => n.updHarv (fun h => { h with inForce := { h.inForce with clock := 1 }, entries := [{ stall := 16 }], cbusLow := true })), false, by decide⟩,
   ⟨up (fun n => n.updHarv (fun h => { h with tbusLow := true })), by decide⟩,
   ⟨up (fun n => { n with line := { n.line with cfg := { head := true, address := 1 } } }), 7, 1, 9, 100, by decide⟩,
   ⟨up (fun n => n.setHslot 0 { st := .requested }), 0, 100, by decide⟩,
   ⟨up (fun n => n.setHslot 0 { st := .requested }), 0, by decide⟩,
   ⟨up (fun n => n.setHslot 0 { st := .granted }), 0, by decide⟩,
   ⟨up (fun n => n.setHslot 0 { st := .requested }), 0, by decide⟩,
   ⟨up (fun n => n.setHslot 0 { st := .refused }), 0, by decide⟩,
   ⟨up id, by decide⟩,
   ⟨up (fun n => n.updRcd (fun r => { r with program := some ({ code := 1, flags := 0, suppressed := 0, seq := 1, t := 2, p0 := 0, p1 := 0, p2 := 0 }, false, true) })), { code := 1, flags := 0, suppressed := 0, seq := 1, t := 2, p0 := 0, p1 := 0, p2 := 0 }, true, by decide⟩,
   ⟨up (fun n => n.updRcd (fun r => { r with program := some ({ code := 1, flags := 0, suppressed := 0, seq := 1, t := 2, p0 := 0, p1 := 0, p2 := 0 }, true, true) })), { code := 1, flags := 0, suppressed := 0, seq := 1, t := 2, p0 := 0, p1 := 0, p2 := 0 }, true, by decide⟩,
   ⟨up (fun n => n.updRcd (fun r => { r with erasing := [3] })), 3, by decide⟩,
   ⟨up id, 2, 3, 5, true, by decide⟩,
   ⟨up id, 2, 3, 5, false, by decide⟩,
   ⟨up (fun n => n.updHlth (fun h => { h with failing := [(blockKey 2 3, 2, 1000000000)] })), 2, 3, 5, false, by decide⟩,
   ⟨up id, 2, 3, 0, true, by decide⟩,
   ⟨up id, 2, 3, 0, false, by decide⟩⟩

set_option maxRecDepth 20000 in
/-- The hypotheses of every clause of SafetyEventsComplete are met. -/
theorem witness_SafetyEventsComplete :
    (∃ (s : State) (c : Nat), (s.node.chanAlive c) ∧ ((
      let n : Node := s.node
      let t := nextGrid (max n.gridNow ((n.chan c).cycleAt + 1)) (us n.sfCfg.cycle)
      let n := n.upTo t
      let n := if (n.chan (1 - c)).cycleAt < t then n.updSafe (fun f => { f with cycles := (f.cycles + 1) % 2 ^ 32 }) else n
      let n := n.updChan c (fun x => { x with cycleAt := t, silent := x.silent + 1 })
      (n.chan c).st) = .run)) ∧
    (∃ (s : State) (c : Nat), (s.node.chanAlive c) ∧ ((
      let n : Node := s.node
      let t := nextGrid (max n.gridNow ((n.chan c).cycleAt + 1)) (us n.sfCfg.cycle)
      let n := n.upTo t
      let n := if (n.chan (1 - c)).cycleAt < t then n.updSafe (fun f => { f with cycles := (f.cycles + 1) % 2 ^ 32 }) else n
      let n := n.updChan c (fun x => { x with cycleAt := t, silent := x.silent + 1 })
      (n.chan c).st) = .testing)) ∧
    (∃ (s : State) (c : Nat), (s.node.chanAlive c) ∧ ((
      let n : Node := s.node
      let t := nextGrid (max n.gridNow ((n.chan c).cycleAt + 1)) (us n.sfCfg.cycle)
      let n := n.upTo t
      let n := if (n.chan (1 - c)).cycleAt < t then n.updSafe (fun f => { f with cycles := (f.cycles + 1) % 2 ^ 32 }) else n
      let n := n.updChan c (fun x => { x with cycleAt := t, silent := x.silent + 1 })
      (n.chan c).st) = .follower)) ∧
    (∃ (s : State) (c above below : Nat), ((s.node.chanAlive c ∧ (s.node.chan c).st ≠ .follower))) ∧
    (∃ (s : State) (c : Nat), ((s.node.chanAlive c ∧ s.node.chanAlive (1 - c) ∧ ((s.node.chan (1 - c)).st = .run → (s.node.chan c).recAt < (s.node.chan (1 - c)).cycleAt))) ∧ (
      let n : Node := s.node
      let n := n.updChan c (fun x => { x with silent := 0 })
      (n.chan c).st) = .follower) ∧
    (∃ (s : State) (c : Nat), ((s.node.chanAlive c ∧ s.node.chanAlive (1 - c) ∧ ((s.node.chan (1 - c)).st = .run → (s.node.chan c).recAt < (s.node.chan (1 - c)).cycleAt))) ∧ (
      let n : Node := s.node
      let n := n.updChan c (fun x => { x with silent := 0 })
      (n.chan c).st) = .run) ∧
    (∃ (s : State) (c : Nat), s.node.chanAlive c = true ∧ (s.node.chan c).st = .run ∧
      ((if s.node.safe.zone.isSingle then 2 else 3) ≤ (s.node.chan c).silent) ∧ (s.node.chan (1 - c)).st ≠ .testing) ∧
    (∃ (s : State) (c k : Nat) (ok : Bool) (detail : Nat), s.node.chanAlive c = true ∧ (s.node.chan c).st = .run ∧ ok = false) ∧
    (∃ (s : State) (c k : Nat) (ok : Bool) (detail : Nat), ok = true) ∧
    (∃ (s : State) (c : Nat), c < 2 ∧ (s.node.chan c).st = .follower ∧ 2 ≤ (s.node.chan c).silent) ∧
    (∃ (s : State), s.node.safe.zone.isSingle = true) ∧
    (∃ (s : State) (c k t : Nat), (
      let n : Node := s.node
      let y := (n.chan c).sig k
      y.disFrom) = (some t) ∧ ((
      let n : Node := s.node
      let y := (n.chan c).sig k
      n.chanAlive c ∧ !y.fault))) ∧
    (∃ (s : State) (c k : Nat), s.node.chanAlive c = true ∧ ((s.node.chan c).conn k).st = .degraded) ∧
    (∃ (s : State), s.node.coresRun = true) ∧
    (∃ (s : State), s.node.coresRun = true) ∧
    (∃ (s : State) (i : Nat), s.node.coresRun = true) ∧
    (∃ (s : State) (i : Nat), s.node.coresRun = true) ∧
    (∃ (s : State) (i : Nat), s.node.coresRun = true) ∧
    (∃ (s : State) (i : Nat), s.node.coresRun = true) ∧
    (∃ (s : State) (i : Nat), s.node.coresRun = true) ∧
    (∃ (s : State), s.node.coresRun = true) ∧
    (∃ (s : State), s.node.coresRun = true) ∧
    (∃ (s : State) (c : Nat), (c < 2)) ∧
    (∃ (s : State) (c : Nat) (ok : Bool) (cause detail : Nat), c < 2 ∧ s.node.runs (safeIsl c) = true ∧ (s.node.chan c).st = .testing ∧ ok = true) ∧
    (∃ (s : State) (c : Nat) (ok : Bool) (cause detail : Nat), c < 2 ∧ s.node.runs (safeIsl c) = true ∧ (s.node.chan c).st = .testing ∧ ok = false) :=
  ⟨⟨up (fun n => { n with safe := { n.safe with chA := { st := .run } } }), 0, by decide⟩,
   ⟨up (fun n => { n with safe := { n.safe with chA := { st := .testing } } }), 0, by decide⟩,
   ⟨up (fun n => { n with safe := { n.safe with chA := { st := .follower } } }), 0, by decide⟩,
   ⟨up (fun n => { n with safe := { n.safe with chA := { st := .run } } }), 0, 1, 2, by decide⟩,
   ⟨up (fun n => { n with safe := { n.safe with chA := { st := .follower }, chB := { st := .run, cycleAt := 9 } } }), 0, by decide⟩,
   ⟨up (fun n => { n with safe := { n.safe with chA := { st := .run }, chB := { st := .run, cycleAt := 9 } } }), 0, by decide⟩,
   ⟨up (fun n => { n with safe := { n.safe with chA := { st := .run, silent := 3 }, chB := { st := .run } } }), 0, by decide⟩,
   ⟨up (fun n => { n with safe := { n.safe with chA := { st := .run } } }), 0, 2, false, 5, by decide⟩,
   ⟨up id, 0, 2, true, 5, by decide⟩,
   ⟨up (fun n => { n with safe := { n.safe with chA := { st := .follower, silent := 2 } } }), 0, by decide⟩,
   ⟨up (fun n => { n with safe := { n.safe with zone := .singleA } }), by decide⟩,
   ⟨up (fun n => { n with safe := { n.safe with chA := { st := .run, sigs := [(0, { disFrom := some 9 })] } } }), 0, 0, _, by exact ⟨rfl, by decide⟩⟩,
   ⟨up (fun n => { n with safe := { n.safe with chA := { st := .run, conns := [(0, { st := .degraded })] } } }), 0, 0, by decide⟩,
   ⟨up (fun n => { n with line := { n.line with cycle := 1000 } }), by decide⟩,
   ⟨up id, by decide⟩,
   ⟨up id, 3, by decide⟩,
   ⟨up id, 3, by decide⟩,
   ⟨up id, 3, by decide⟩,
   ⟨up id, 3, by decide⟩,
   ⟨up id, 3, by decide⟩,
   ⟨up id, by decide⟩,
   ⟨up id, by decide⟩,
   ⟨up (fun n => { n with safe := { n.safe with chB := { st := .lost } } }), 1, by decide⟩,
   ⟨up id, 0, true, 0, 0, by decide⟩,
   ⟨up id, 0, false, 2, 7, by decide⟩⟩

set_option maxRecDepth 20000 in
/-- The hypotheses of every clause of GleanerAndLevelEventsComplete are met. -/
theorem witness_GleanerAndLevelEventsComplete :
    (∃ (s : State), ((s.node.glean.st = .awake ∧ s.node.blockers = 0))) ∧
    (∃ (s : State), (s.node.glean.st = .entering0) ∧ (¬ (s.node.blockers ≠ 0 ∨ s.node.glean.pend ≠ 0))) ∧
    (∃ (s : State), (s.node.glean.st = .entering0) ∧ ((s.node.blockers ≠ 0 ∨ s.node.glean.pend ≠ 0))) ∧
    (∃ (s : State), (s.node.glean.st = .entering1) ∧ (¬ (s.node.blockers ≠ 0 ∨ s.node.glean.pend ≠ 0))) ∧
    (∃ (s : State), (s.node.glean.st = .entering1) ∧ ((s.node.blockers ≠ 0 ∨ s.node.glean.pend ≠ 0))) ∧
    (∃ (s : State) (t : Nat), s.node.glean.timer = some t ∧ s.node.glean.st = .asleep) ∧
    (∃ (s : State) (lines : Nat), ¬ (s.node.glean.pend.toNat &&& lines = 0)) ∧
    (∃ (s : State) (edgesLost : Nat), s.node.glean.st = .waking ∧ gatedIslands.any (fun i => !s.node.slept i && (s.node.island i).st != .run) = false) ∧
    (∃ (s : State) (levels : Nat) (xs : List Int), ¬ (!s.node.runs Isl.glean)) ∧
    (∃ (s : State) (src : Nat) (payload : List Nat) (k : Nat), ((
      let n : Node := s.node
      let b := toBytes payload
      let n := if n.runs Isl.line then n.raise 2 else n
      n.bulkSilo src (u32 b 0)) = (some k)) ∧ ((
      let n : Node := s.node
      let b := toBytes payload
      let d := b.drop 8
      let n := if n.runs Isl.line then n.raise 2 else n
      let x := n.silo k
      n.runs Isl.line ∧ 1 ≤ d.length ∧ d.length ≤ 1472 ∧ u32 b 4 = x.high ∧ x.high + d.length ≤ siloSize ∧ !n.siloActive k ∧ !n.siloRo k))) ∧
    (∃ (s : State) (src at_ op l t : Nat), (¬ (s.node.isHead ∨ !s.node.runs Isl.line ∨ !s.node.fromHead src ∨ !levelOk at_)) ∧ (op = 1)) ∧
    (∃ (s : State) (src at_ op l t : Nat), (¬ (s.node.isHead ∨ !s.node.runs Isl.line ∨ !s.node.fromHead src ∨ !levelOk at_)) ∧ ¬ (op = 1) ∧ (op = 0) ∧
      ¬ (ownLevel < l)) ∧
    (∃ (s : State) (src at_ op l t : Nat), (¬ (s.node.isHead ∨ !s.node.runs Isl.line ∨ !s.node.fromHead src ∨ !levelOk at_)) ∧ ¬ (op = 1) ∧ (op = 0) ∧
      (ownLevel < l)) ∧
    (∃ (s : State) (l t : Nat), s.node.line.raise = some (l, t)) ∧
    (∃ (s : State) (p : Nat) (ok : Bool) (m : Nat), ((s.node.port p).reload) = (some m)) :=
  ⟨⟨up (fun n => n.updGlean (fun g => { g with enable := true })), by decide⟩,
   ⟨up (fun n => n.updGlean (fun g => { g with st := .entering0, enable := true })), by decide⟩,
   ⟨up (fun n => n.updGlean (fun g => { g with st := .entering0 })), by decide⟩,
   ⟨up (fun n => n.updGlean (fun g => { g with enable := true, st := .entering1 })), by decide⟩,
   ⟨up (fun n => n.updGlean (fun g => { g with st := .entering1 })), by decide⟩,
   ⟨up (fun n => n.updGlean (fun g => { g with st := .asleep, timer := some 9 })), 9, by decide⟩,
   ⟨up (fun n => { n with glean := { n.glean with pend := 1 } }), 1, by decide⟩,
   ⟨up (fun n => n.updGlean (fun g => { g with st := .waking })), 1, by decide⟩,
   ⟨up id, 1, [], by decide⟩,
   ⟨up (fun n => n.setSilo 1 { ticket := some (5, 1, 7) }), 7, [5, 0, 0, 0, 0, 0, 0, 0, 1], _, by exact ⟨rfl, by decide⟩⟩,
   ⟨up id, 0xFF00, 5, 1, 4, 9, by decide⟩,
   ⟨up id, 0xFF00, 5, 0, 4, 9, by decide⟩,
   ⟨up id, 0xFF00, 5, 0, 6, 9, by decide⟩,
   ⟨up (fun n => n.updLine (fun x => { x with raise := some (5, 9) })), 5, 9, by decide⟩,
   ⟨up (fun n => n.setPort 1 { reload := some 16 }), 1, true, _, by exact rfl⟩⟩

/-- The hypotheses of StepRunsFront are met. -/
theorem witness_StepRunsFront : ∃ (s : State) (c : Instr) (rest : List Instr), s.pending = c :: rest :=
  ⟨{ pending := [.mailboxTake] }, .mailboxTake, [], rfl⟩

/-- The hypotheses of EmptyQueueIdles are met. -/
theorem witness_EmptyQueueIdles : ∃ s : State, s.pending = [] := ⟨{}, rfl⟩

/-- The hypotheses of CommandsStayWithinTheirFootprint are met. -/
theorem witness_CommandsStayWithinTheirFootprint : ∃ (c : Instr) (s t : State), exec c s = .next t :=
  ⟨.mailboxTake, {}, _, rfl⟩

/-- The hypotheses of MemoryReadsBackWhatWasWritten are met. -/
theorem witness_MemoryReadsBackWhatWasWritten : ∃ n : Node, n.memOk := ⟨{}, rfl⟩

/-- The hypotheses of AnswerFillsItsMailbox are met. -/
theorem witness_AnswerFillsItsMailbox : ∃ (n : Node) (m code seq flags : Nat) (pl rs : List Byte),
    n.memOk ∧ (n.mbx m).req = some (code, seq, flags, pl) ∧ (n.mbx m).session = 0 ∧ n.host.restarting = false ∧ rs.length ≤ 476
    ∧ ((n.mbx m).begun && n.earlier m (fun _ => true)) = false ∧ (∀ k, (n.mbx k).deferred = none) :=
  ⟨(served Cmd.zbStatus [] id).node, 16, Cmd.zbStatus, 1, 0, [], [], rfl, rfl, rfl, rfl, by decide, rfl, by
    intro k
    show (((served Cmd.zbStatus [] id).node.setMbx 16 _).mbx k).deferred = none
    by_cases h : k = 16
    · subst h; rfl
    · exact congrArg Mbx.deferred (Node.mbx_setMbx_ne { power := { stage := .t7 } } 16 k _ h)⟩

/-- The hypotheses of WrongLengthIsRefused are met. -/
theorem witness_WrongLengthIsRefused : ∃ (s : State) (path idx : Nat) (pl : List Byte),
    Serves s.node Cmd.zbStatus path idx pl ∧ pl.length ≠ 0 := ⟨served Cmd.zbStatus [1] id, 1, 0, [1], by decide⟩

/-- The hypotheses of QuadratureSteps are met. -/
theorem witness_QuadratureSteps : ∃ (s : State) (i : Nat) (a b : Bool), s.node.encRuns i = true ∧ (s.node.encSet i).pf 8 1 = 0
    ∧ (s.node.enc i).a = false ∧ (s.node.enc i).b = false ∧ a = true ∧ b = false :=
  ⟨up (fun n => n.setEnc 0 { counting := true }), 0, true, false, by decide⟩

/-- The hypotheses of PulseDirectionSteps are met. -/
theorem witness_PulseDirectionSteps :
    (∃ (s : State) (i : Nat) (a : Bool), s.node.encRuns i = true ∧ (s.node.encSet i).pf 8 1 = 1 ∧ ¬((s.node.enc i).a = false ∧ a = true)) ∧
    (∃ (s : State) (i : Nat) (a b : Bool), s.node.encRuns i = true ∧ (s.node.encSet i).pf 8 1 = 1 ∧ (s.node.enc i).a = false ∧ a = true ∧ b ≠ (s.node.enc i).b) ∧
    (∃ (s : State) (i : Nat) (a b : Bool), s.node.encRuns i = true ∧ (s.node.encSet i).pf 8 1 = 1 ∧ (s.node.enc i).a = false ∧ a = true ∧ b = (s.node.enc i).b) :=
  ⟨⟨up (fun n => (n.setEnc 0 { counting := true }).setStall 40 ((n.stall 40).setPf 8 1 1)), 0, false, by decide⟩,
   ⟨up (fun n => (n.setEnc 0 { counting := true }).setStall 40 ((n.stall 40).setPf 8 1 1)), 0, true, true, by decide⟩,
   ⟨up (fun n => (n.setEnc 0 { counting := true }).setStall 40 ((n.stall 40).setPf 8 1 1)), 0, true, false, by decide⟩⟩

/-- The hypotheses of ZbRecoverCompletes are met. -/
theorem witness_ZbRecoverCompletes :
    (∃ (s : State) (path idx : Nat) (pl : List Byte), Serves s.node Cmd.zbRecover path idx pl ∧ pl ≠ []) ∧
    (∃ (s : State) (path idx : Nat) (pl : List Byte), Serves s.node Cmd.zbRecover path idx pl ∧ pl = [] ∧ s.node.zb.st = .busOff) ∧
    (∃ (s : State) (path idx : Nat) (pl : List Byte), Serves s.node Cmd.zbRecover path idx pl ∧ pl = [] ∧ s.node.zb.st ≠ .busOff) :=
  ⟨⟨served Cmd.zbRecover [1] id, 1, 0, [1], by decide⟩,
   ⟨served Cmd.zbRecover [] (fun n => n.zbSet .busOff), 1, 0, [], by decide⟩,
   ⟨served Cmd.zbRecover [] id, 1, 0, [], by decide⟩⟩

/-- The hypotheses of RestartingAnswersBusy are met. -/
theorem witness_RestartingAnswersBusy : ∃ (n : Node) (m : Nat), n.memOk ∧ n.host.restarting = true ∧ ((n.mbx m).st = .free ∨ (n.mbx m).st = .done) :=
  ⟨(up (fun n => n.updHost (fun h => { h with restarting := true }))).node, 16, rfl, rfl, .inl rfl⟩

/-- A node whose host SPI mailbox 0 (mailbox 16) or line mailbox 0 holds a request. -/
def asked (m : Nat) (bs : List Byte) : Node := ({} : Node).write (mbxAddr m) bs
set_option maxRecDepth 20000 in
/-- The hypotheses of every clause of RequestsAreJudgedInOrder are met: a bad length, a bad flag, no session on the line, a code outside
the table, a role below, a session that does not exist. -/
theorem witness_RequestsAreJudgedInOrder :
    (480 < u16 ((asked 16 [1, 1, 0, 0, 225, 1]).read (mbxAddr 16) 512) 4) ∧
    (bit (u16 ((asked 16 [1, 1, 0, 0, 0, 0, 8, 0]).read (mbxAddr 16) 512) 6) 3 = true) ∧
    (sessionless (u16 ((asked 0 [1, 1, 0, 0, 0, 0, 0, 0]).read (mbxAddr 0) 512) 0) = false
      ∧ bit (u16 ((asked 0 [1, 1, 0, 0, 0, 0, 0, 0]).read (mbxAddr 0) 512) 6) 1 = false) ∧
    (∀ e ∈ cmdRoles, e.1 ≠ u16 ((asked 16 [0xFF, 0xFF, 0, 0, 0, 0, 0, 0]).read (mbxAddr 16) 512) 0) ∧
    (cmdRoles.find? (fun e => e.1 == u16 ((asked 16 [3, 1, 0, 0, 0, 0, 0, 0]).read (mbxAddr 16) 512) 0) = some (0x0103, 2)
      ∧ (asked 16 [3, 1, 0, 0, 0, 0, 0, 0]).pathRole 1 < 2) ∧
    ((asked 16 [1, 1, 0, 0, 0, 0, 2, 0]).sessionOf 16 (u32 ((asked 16 [1, 1, 0, 0, 0, 0, 2, 0]).read (mbxAddr 16) 512) 8) = none) := by
  refine ⟨by decide, by decide, by decide, by decide, by decide, by decide⟩

/-- The hypotheses of RecordsBecomeDurableByTheirValidMark are met. -/
theorem witness_RecordsBecomeDurableByTheirValidMark :
    (∃ (s : State) (e : EvRec) (q : List EvRec), s.node.runs Isl.sec = true ∧ s.node.rcd.program = none ∧ s.node.rcd.eraseFirst = false ∧ s.node.rcd.clear = .none ∧ s.node.rcd.queue = e :: q) ∧
    (∃ (s : State) (e : EvRec) (g : Bool), s.node.rcd.program = some (e, false, g)) ∧
    (∃ (s : State) (e : EvRec), s.node.rcd.program = some (e, true, true) ∧ s.node.rcd.clear = .none) ∧
    (∃ (s : State) (e : EvRec), s.node.rcd.program = some (e, true, false) ∧ s.node.rcd.clear = .none) :=
  ⟨⟨up (fun n => n.updRcd (fun r => { r with queue := [oneRec] })), oneRec, [], by decide⟩,
   ⟨up (fun n => n.updRcd (fun r => { r with program := some (oneRec, false, true) })), oneRec, true, by decide⟩,
   ⟨up (fun n => n.updRcd (fun r => { r with program := some (oneRec, true, true) })), oneRec, by decide⟩,
   ⟨up (fun n => n.updRcd (fun r => { r with program := some (oneRec, true, false) })), oneRec, by decide⟩⟩

set_option maxRecDepth 20000 in
/-- The hypotheses of ParcelIdentifiersHoldAddressAndCounter are met. -/
theorem witness_ParcelIdentifiersHoldAddressAndCounter :
    (∃ n : Node, n.addr = 0) ∧ (∃ (n : Node) (slot : Nat), n.addr ≠ 0 ∧ n.cust.freeSlot = some slot) :=
  ⟨⟨{}, by decide⟩, ⟨(up (fun n => n.updLine (fun l => { l with cfg := { l.cfg with address := 5 } }))).node, 0, by decide⟩⟩

/-- The hypotheses of StepKeepsTheInvariant are met. -/
theorem witness_StepKeepsTheInvariant : ∃ s t : State, s.Inv ∧ step s = .next t :=
  ⟨{ pending := [.mailboxTake] }, _, ⟨rfl, by decide⟩, rfl⟩

/-- The hypotheses of QuietCommandsLeaveMemory are met. -/
theorem witness_QuietCommandsLeaveMemory : ∃ (c : Instr) (s t : State), Part.ram ∉ footprint c ∧ exec c s = .next t :=
  ⟨.vaonRegulated, {}, _, by decide, rfl⟩

/-- The hypotheses of SafeFramesReadBack are met. -/
theorem witness_SafeFramesReadBack : ∃ f : SafeFrame, f.connId < 2 ^ 16 ∧ f.seq < 2 ^ 32 ∧ f.t < 2 ^ 64 ∧ f.watchdog < 2 ^ 16 :=
  ⟨{ connId := 1, fflags := 8, seq := 2 ^ 32 - 1, t := 5, watchdog := 1000, data := 3, ndata := 4, crc := 0 }, by decide⟩

/-- The hypotheses of CustodyRecordsReadBack are met. -/
theorem witness_CustodyRecordsReadBack : ∃ r : CRec, r.parcel < 2 ^ 64 ∧ r.version < 2 ^ 32 ∧ -(2 ^ 63) ≤ r.enteredRef ∧ r.enteredRef < 2 ^ 63
    ∧ r.tag.length ≤ 24 ∧ r.fromPort < 256 ∧ r.hops < 256 ∧ r.ckpt < 2 ^ 32 := ⟨{ tag := [1, 2] }, by decide⟩

/-- The hypotheses of RulesAndEntriesReadBack are met. -/
theorem witness_RulesAndEntriesReadBack :
    (∃ r : GlRule, r.src < 256 ∧ r.index < 256 ∧ r.filter < 256 ∧ r.p1 < 256 ∧ r.p2 < 256 ∧ r.cond < 256 ∧ r.action < 256 ∧ r.level < 2 ^ 16
      ∧ r.hyst < 2 ^ 16 ∧ r.target < 256 ∧ r.value < 256 ∧ r.limit < 2 ^ 16) ∧
    (∃ e : HvEntry, e.stall < 2 ^ 16 ∧ e.mode < 256 ∧ e.divider < 2 ^ 16) :=
  ⟨⟨{ src := 1, level := 65535 }, by decide⟩, ⟨{ stall := 0xFFFF, mode := 2 }, by decide⟩⟩
end

section
/-! PROOFS. What running a command answers, whatever the command: a next state with the queue as it was, or the one fault of
CROSSING_WORD; the parts it reaches; and how a completion follows from the node the meaning gives. -/

namespace Sys2Proof.Machine

/-! ### Completions -/

/-- A command that completes with a node completes with every node that equals it. -/
theorem Done.of_eq {c : Instr} {s : State} {m m' : Node} (hd : Done c s m') (h : m' = m) : Done c s m := h ▸ hd

/-- A host command that its mailbox serves completes with its own effect, on the node in which it has begun (R62). -/
theorem Done.of_hostCmd {c : Instr} {s : State} {code path idx : Nat} {pl : List Byte} {f : Node → Nat → List Byte → Node} {m : Node}
    (hd : Done c s (s.node.hostCmd code path idx f)) (hs : Serves s.node code path idx pl)
    (hf : f (s.node.begun path idx) (path * 16 + idx) pl = m) : Done c s m :=
  hd.of_eq ((Node.hostCmd_serves _ _ _ _ _ f hs).trans hf)

/-- The next state of a command that completes with a node is the state with that node. -/
theorem Done.next_eq {c : Instr} {s t : State} {m : Node} (hd : Done c s m) (h : exec c s = .next t) : t = { s with node := m } :=
  (Host.Outcome.next.inj (hd.symm.trans h)).symm

/-- Every meaning is a change of the node alone, but for CROSSING_WORD, which faults where R15 lists no crossing. -/
theorem exec_done_or_noCrossing (c : Instr) (s : State) : (∃ m, Done c s m) ∨ exec c s = .fault .noCrossing := by
  cases c with
  | crossingWord src dst =>
    by_cases h : crossings.contains (src, dst) = true
    · exact .inl ⟨_, if_pos h⟩
    · exact .inr (if_neg h)
  | _ => exact .inl ⟨_, rfl⟩

/-- No command touches the queue of waiting commands (95_what_each_step_holds.md). -/
theorem exec_pending {c : Instr} {s t : State} (h : exec c s = .next t) : t.pending = s.pending := by
  obtain ⟨m, hd⟩ | hf := exec_done_or_noCrossing c s
  · rw [hd.next_eq h]
  · exact nomatch hf.symm.trans h

/-! ### Steps -/

theorem step_of_pending_nil {s : State} (hp : s.pending = []) : step s = .next s.idle := by simp only [step, hp]

theorem step_of_pending_cons {s : State} {c : Instr} {rest : List Instr} (hp : s.pending = c :: rest) :
    step s = exec c { s with pending := rest } := by simp only [step, hp]

/-! ### Reach -/

/-- A command reaches its footprint at most and keeps memory canonical: the table of the meanings' own `_reach` lemmas. -/
theorem exec_reach {c : Instr} {s t : State} (h : exec c s = .next t) : Reach (footprint c) s.node t.node := by
  have hs {ps : List Part} : Reach ps s.node s.node := Reach.refl ps s.node
  cases c with
  | islandControl => exact execIslandControl_reach _ _ s t hs (within_refl _) h
  | islandStatus => exact execIslandStatus_reach _ _ s t hs (within_refl _) h
  | quiesceDrained => exact execQuiesceDrained_reach _ s t hs (within_refl _) h
  | quiesceTimeout => exact execQuiesceTimeout_reach _ s t hs (within_refl _) h
  | heldElapsed => exact execHeldElapsed_reach _ s t hs (within_refl _) h
  | islandLoadDone => exact execIslandLoadDone_reach _ _ s t hs (within_refl _) h
  | calibrationDone => exact execCalibrationDone_reach _ _ _ s t hs (within_refl _) h
  | lockAchieved => exact execLockAchieved_reach _ s t hs (within_refl _) h
  | relockTimeout => exact execRelockTimeout_reach _ s t hs (within_refl _) h
  | clockLockLost => exact execClockLockLost_reach _ s t hs (within_refl _) h
  | coreRestartDone => exact execCoreRestartDone_reach _ s t hs (within_refl _) h
  | crossingWord => exact execCrossingWord_reach _ _ _ _ _ _ _ _ _ _ s t hs (within_refl _) h
  | scrubRead => exact execScrubRead_reach _ _ _ _ _ s t hs (within_refl _) h
  | eccReread => exact execEccReread_reach _ _ s t hs (within_refl _) h
  | rowCopyDone => exact execRowCopyDone_reach _ s t hs (within_refl _) h
  | pageCopyDone => exact execPageCopyDone_reach _ s t hs (within_refl _) h
  | powerUpStart => exact execPowerUpStart_reach _ s t hs (within_refl _) h
  | vaonRegulated => exact execVaonRegulated_reach s t hs (within_refl _) h
  | suppliesRegulated => exact execSuppliesRegulated_reach _ s t hs (within_refl _) h
  | bootSiloSelect => exact execBootSiloSelect_reach s t hs (within_refl _) h
  | imagesLoaded => exact execImagesLoaded_reach s t hs (within_refl _) h
  | powerUpReady => exact execPowerUpReady_reach _ _ _ _ s t hs (within_refl _) h
  | bypassOpen => exact execBypassOpen_reach s t hs (within_refl _) h
  | powerFail => exact execPowerFail_reach s t hs (within_refl _) h
  | lineOvervoltage => exact execLineOvervoltage_reach s t hs (within_refl _) h
  | powerDownBypassClose => exact execPowerDownBypassClose_reach s t hs (within_refl _) h
  | converterStop => exact execConverterStop_reach s t hs (within_refl _) h
  | lineVoltageLow => exact execLineVoltageLow_reach s t hs (within_refl _) h
  | lineVoltageLowClear => exact execLineVoltageLowClear_reach s t hs (within_refl _) h
  | nrstLow => exact execNrstLow_reach s t hs (within_refl _) h
  | nrstRelease => exact execNrstRelease_reach s t hs (within_refl _) h
  | vaonLow => exact execVaonLow_reach s t hs (within_refl _) h
  | vauxFault => exact execVauxFault_reach s t hs (within_refl _) h
  | vauxRetry => exact execVauxRetry_reach s t hs (within_refl _) h
  | dieTempHigh => exact execDieTempHigh_reach s t hs (within_refl _) h
  | dieTempClear => exact execDieTempClear_reach s t hs (within_refl _) h
  | thermalStop => exact execThermalStop_reach s t hs (within_refl _) h
  | thermalRecover => exact execThermalRecover_reach s t hs (within_refl _) h
  | spiWriteFrame => exact execSpiWriteFrame_reach _ s t hs (within_refl _) h
  | spiReadFrame => exact execSpiReadFrame_reach _ s t hs (within_refl _) h
  | hsDoorbell => exact execHsDoorbell_reach _ _ s t hs (within_refl _) h
  | hsDone => exact execHsDone_reach _ _ s t hs (within_refl _) h
  | hsRegisterWrite => exact execHsRegisterWrite_reach _ _ _ s t hs (within_refl _) h
  | svcRead => exact execSvcRead_reach _ s t hs (within_refl _) h
  | svcWrite => exact execSvcWrite_reach _ s t hs (within_refl _) h
  | mailboxFrame => exact execMailboxFrame_reach _ _ s t hs (within_refl _) h
  | mailboxTake => exact execMailboxTake_reach s t hs (within_refl _) h
  | sessionHalfOpenTimeout => exact execSessionHalfOpenTimeout_reach _ s t hs (within_refl _) h
  | sessionIdleTimeout => exact execSessionIdleTimeout_reach _ s t hs (within_refl _) h
  | nodeIdent => exact execNodeIdent_reach _ _ s t hs (within_refl _) h
  | nodeStatus => exact execNodeStatus_reach _ _ s t hs (within_refl _) h
  | configRead => exact execConfigRead_reach _ _ s t hs (within_refl _) h
  | configWrite => exact execConfigWrite_reach _ _ s t hs (within_refl _) h
  | nodeReset => exact execNodeReset_reach _ _ s t hs (within_refl _) h
  | nodeResetStandstill => exact execNodeResetStandstill_reach _ s t hs (within_refl _) h
  | chanRead => exact execChanRead_reach _ _ s t hs (within_refl _) h
  | chanWrite => exact execChanWrite_reach _ _ s t hs (within_refl _) h
  | stallRead => exact execStallRead_reach _ _ s t hs (within_refl _) h
  | stallWrite => exact execStallWrite_reach _ _ s t hs (within_refl _) h
  | chanStart => exact execChanStart_reach _ _ s t hs (within_refl _) h
  | chanStop => exact execChanStop_reach _ _ s t hs (within_refl _) h
  | chanSpare => exact execChanSpare_reach _ _ s t hs (within_refl _) h
  | ioWatchdog => exact execIoWatchdog_reach _ _ s t hs (within_refl _) h
  | adcSequence => exact execAdcSequence_reach _ _ s t hs (within_refl _) h
  | recipeLoad => exact execRecipeLoad_reach _ _ s t hs (within_refl _) h
  | recipeRead => exact execRecipeRead_reach _ _ s t hs (within_refl _) h
  | recipeStart => exact execRecipeStart_reach _ _ s t hs (within_refl _) h
  | recipeStop => exact execRecipeStop_reach _ _ s t hs (within_refl _) h
  | recipeStopTimeout => exact execRecipeStopTimeout_reach _ s t hs (within_refl _) h
  | taskCancel => exact execTaskCancel_reach _ _ s t hs (within_refl _) h
  | schedConfig => exact execSchedConfig_reach _ _ s t hs (within_refl _) h
  | axisMove => exact execAxisMove_reach _ _ s t hs (within_refl _) h
  | axisStop => exact execAxisStop_reach _ _ s t hs (within_refl _) h
  | axisConfig => exact execAxisConfig_reach _ _ s t hs (within_refl _) h
  | axisStatus => exact execAxisStatus_reach _ _ s t hs (within_refl _) h
  | segmentLoad => exact execSegmentLoad_reach _ _ s t hs (within_refl _) h
  | gearSet => exact execGearSet_reach _ _ s t hs (within_refl _) h
  | posCompare => exact execPosCompare_reach _ _ s t hs (within_refl _) h
  | posLatch => exact execPosLatch_reach _ _ s t hs (within_refl _) h
  | driveConfig => exact execDriveConfig_reach _ _ s t hs (within_refl _) h
  | lineStatus => exact execLineStatus_reach _ _ s t hs (within_refl _) h
  | lineConfig => exact execLineConfig_reach _ _ s t hs (within_refl _) h
  | timeStatus => exact execTimeStatus_reach _ _ s t hs (within_refl _) h
  | timeConfig => exact execTimeConfig_reach _ _ s t hs (within_refl _) h
  | levelRaise => exact execLevelRaise_reach _ _ s t hs (within_refl _) h
  | zbConfig => exact execZbConfig_reach _ _ s t hs (within_refl _) h
  | zbStatus => exact execZbStatus_reach _ _ s t hs (within_refl _) h
  | zbSend => exact execZbSend_reach _ _ s t hs (within_refl _) h
  | zbSendTimeout => exact execZbSendTimeout_reach _ _ s t hs (within_refl _) h
  | zbRecover => exact execZbRecover_reach _ _ s t hs (within_refl _) h
  | custodyRead => exact execCustodyRead_reach _ _ s t hs (within_refl _) h
  | custodyList => exact execCustodyList_reach _ _ s t hs (within_refl _) h
  | custodyResolve => exact execCustodyResolve_reach _ _ s t hs (within_refl _) h
  | custodyConfig => exact execCustodyConfig_reach _ _ s t hs (within_refl _) h
  | liftCall => exact execLiftCall_reach _ _ s t hs (within_refl _) h
  | liftStatus => exact execLiftStatus_reach _ _ s t hs (within_refl _) h
  | liftConfig => exact execLiftConfig_reach _ _ s t hs (within_refl _) h
  | gateCommand => exact execGateCommand_reach _ _ s t hs (within_refl _) h
  | harvestList => exact execHarvestList_reach _ _ s t hs (within_refl _) h
  | harvestTrigger => exact execHarvestTrigger_reach _ _ s t hs (within_refl _) h
  | harvestCollector => exact execHarvestCollector_reach _ _ s t hs (within_refl _) h
  | harvestStatus => exact execHarvestStatus_reach _ _ s t hs (within_refl _) h
  | eventRead => exact execEventRead_reach _ _ s t hs (within_refl _) h
  | eventClear => exact execEventClear_reach _ _ s t hs (within_refl _) h
  | recorderStatus => exact execRecorderStatus_reach _ _ s t hs (within_refl _) h
  | safetyStatus => exact execSafetyStatus_reach _ _ s t hs (within_refl _) h
  | safetyConfigLoad => exact execSafetyConfigLoad_reach _ _ s t hs (within_refl _) h
  | safetyRestart => exact execSafetyRestart_reach _ _ s t hs (within_refl _) h
  | gleanerRules => exact execGleanerRules_reach _ _ s t hs (within_refl _) h
  | sleepPolicy => exact execSleepPolicy_reach _ _ s t hs (within_refl _) h
  | energyRead => exact execEnergyRead_reach _ _ s t hs (within_refl _) h
  | sessionHello => exact execSessionHello_reach _ _ s t hs (within_refl _) h
  | sessionConfirm => exact execSessionConfirm_reach _ _ s t hs (within_refl _) h
  | sessionClose => exact execSessionClose_reach _ _ s t hs (within_refl _) h
  | certRead => exact execCertRead_reach _ _ s t hs (within_refl _) h
  | hostkeyAdd => exact execHostkeyAdd_reach _ _ s t hs (within_refl _) h
  | hostkeyRemove => exact execHostkeyRemove_reach _ _ s t hs (within_refl _) h
  | attest => exact execAttest_reach _ _ s t hs (within_refl _) h
  | imageWrite => exact execImageWrite_reach _ _ s t hs (within_refl _) h
  | siloCommit => exact execSiloCommit_reach _ _ _ _ s t hs (within_refl _) h
  | islandUpdate => exact execIslandUpdate_reach _ _ s t hs (within_refl _) h
  | serviceFlagClear => exact execServiceFlagClear_reach _ _ s t hs (within_refl _) h
  | healthRead => exact execHealthRead_reach _ _ s t hs (within_refl _) h
  | chanTransientFault => exact execChanTransientFault_reach _ _ s t hs (within_refl _) h
  | chanPermanentFault => exact execChanPermanentFault_reach _ _ s t hs (within_refl _) h
  | chanRetry => exact execChanRetry_reach _ _ s t hs (within_refl _) h
  | faultWindowExpire => exact execFaultWindowExpire_reach _ s t hs (within_refl _) h
  | holdCauseBegin => exact execHoldCauseBegin_reach _ _ s t hs (within_refl _) h
  | holdCauseEnd => exact execHoldCauseEnd_reach _ _ s t hs (within_refl _) h
  | stopBehaviourDone => exact execStopBehaviourDone_reach _ s t hs (within_refl _) h
  | timedWriteDue => exact execTimedWriteDue_reach _ s t hs (within_refl _) h
  | cacheMissFill => exact execCacheMissFill_reach _ s t hs (within_refl _) h
  | timerZero => exact execTimerZero_reach _ s t hs (within_refl _) h
  | linepointStale => exact execLinepointStale_reach _ s t hs (within_refl _) h
  | conditionEval => exact execConditionEval_reach _ s t hs (within_refl _) h
  | stepTimeout => exact execStepTimeout_reach _ s t hs (within_refl _) h
  | actionIssue => exact execActionIssue_reach _ s t hs (within_refl _) h
  | timedActionApply => exact execTimedActionApply_reach s t hs (within_refl _) h
  | instanceEpoch => exact execInstanceEpoch_reach _ s t hs (within_refl _) h
  | actEnd => exact execActEnd_reach _ s t hs (within_refl _) h
  | actNop => exact execActNop_reach _ s t hs (within_refl _) h
  | actSet => exact execActSet_reach _ s t hs (within_refl _) h
  | actAdd => exact execActAdd_reach _ s t hs (within_refl _) h
  | actToggle => exact execActToggle_reach _ s t hs (within_refl _) h
  | actCopy => exact execActCopy_reach _ s t hs (within_refl _) h
  | actPulse => exact execActPulse_reach _ s t hs (within_refl _) h
  | actRegSet => exact execActRegSet_reach _ s t hs (within_refl _) h
  | actRegAdd => exact execActRegAdd_reach _ s t hs (within_refl _) h
  | actRegLoad => exact execActRegLoad_reach _ s t hs (within_refl _) h
  | actRegStore => exact execActRegStore_reach _ s t hs (within_refl _) h
  | actJump => exact execActJump_reach _ s t hs (within_refl _) h
  | actDjnz => exact execActDjnz_reach _ s t hs (within_refl _) h
  | actSignal => exact execActSignal_reach _ s t hs (within_refl _) h
  | actUnsignal => exact execActUnsignal_reach _ s t hs (within_refl _) h
  | actStartRecipe => exact execActStartRecipe_reach _ s t hs (within_refl _) h
  | actStopRecipe => exact execActStopRecipe_reach _ s t hs (within_refl _) h
  | actAxisMove => exact execActAxisMove_reach _ s t hs (within_refl _) h
  | actChanStart => exact execActChanStart_reach _ s t hs (within_refl _) h
  | actChanStop => exact execActChanStop_reach _ s t hs (within_refl _) h
  | actPostTask => exact execActPostTask_reach _ s t hs (within_refl _) h
  | actCancelTask => exact execActCancelTask_reach _ s t hs (within_refl _) h
  | actNodeWrite => exact execActNodeWrite_reach _ s t hs (within_refl _) h
  | actHarvestMark => exact execActHarvestMark_reach _ s t hs (within_refl _) h
  | taskRelease => exact execTaskRelease_reach s t hs (within_refl _) h
  | taskDispatch => exact execTaskDispatch_reach _ s t hs (within_refl _) h
  | taskComplete => exact execTaskComplete_reach _ s t hs (within_refl _) h
  | loopUpdate => exact execLoopUpdate_reach _ _ s t hs (within_refl _) h
  | inputFilteredChange => exact execInputFilteredChange_reach _ _ _ s t hs (within_refl _) h
  | wireBreakMeasure => exact execWireBreakMeasure_reach _ _ s t hs (within_refl _) h
  | comparatorDisagree => exact execComparatorDisagree_reach _ s t hs (within_refl _) h
  | outputCurrentLimit => exact execOutputCurrentLimit_reach _ s t hs (within_refl _) h
  | groupThermalShutdown => exact execGroupThermalShutdown_reach _ _ _ s t hs (within_refl _) h
  | thermalRestartTemp => exact execThermalRestartTemp_reach _ s t hs (within_refl _) h
  | outputReadbackFault => exact execOutputReadbackFault_reach _ s t hs (within_refl _) h
  | poThermalShutdown => exact execPoThermalShutdown_reach _ s t hs (within_refl _) h
  | outputOpenLoad => exact execOutputOpenLoad_reach _ _ _ s t hs (within_refl _) h
  | pwmBoundary => exact execPwmBoundary_reach _ s t hs (within_refl _) h
  | firmwareWatchdogFeed => exact execFirmwareWatchdogFeed_reach s t hs (within_refl _) h
  | ioWatchdogExpired => exact execIoWatchdogExpired_reach s t hs (within_refl _) h
  | ioWatchdogResume => exact execIoWatchdogResume_reach s t hs (within_refl _) h
  | fieldSupplyWarn => exact execFieldSupplyWarn_reach _ s t hs (within_refl _) h
  | fieldSupplyWarnClear => exact execFieldSupplyWarnClear_reach _ s t hs (within_refl _) h
  | fieldSupplyOff => exact execFieldSupplyOff_reach _ s t hs (within_refl _) h
  | fieldSupplyRise => exact execFieldSupplyRise_reach s t hs (within_refl _) h
  | fieldSupplyLatchClear => exact execFieldSupplyLatchClear_reach _ s t hs (within_refl _) h
  | outputRestoreSlot => exact execOutputRestoreSlot_reach _ s t hs (within_refl _) h
  | inputResume => exact execInputResume_reach s t hs (within_refl _) h
  | adcFrame => exact execAdcFrame_reach s t hs (within_refl _) h
  | adcSelfCheck => exact execAdcSelfCheck_reach _ _ _ s t hs (within_refl _) h
  | adcSlotResult => exact execAdcSlotResult_reach _ _ _ _ s t hs (within_refl _) h
  | adcListApply => exact execAdcListApply_reach s t hs (within_refl _) h
  | encoderStep => exact execEncoderStep_reach _ _ _ _ s t hs (within_refl _) h
  | encoderZEdge => exact execEncoderZEdge_reach _ _ _ s t hs (within_refl _) h
  | latchInputEdge => exact execLatchInputEdge_reach _ _ s t hs (within_refl _) h
  | latchInstant => exact execLatchInstant_reach _ _ _ s t hs (within_refl _) h
  | comparePulseEnd => exact execComparePulseEnd_reach _ s t hs (within_refl _) h
  | ssiFrameStart => exact execSsiFrameStart_reach _ _ s t hs (within_refl _) h
  | ssiFrameEnd => exact execSsiFrameEnd_reach _ _ _ s t hs (within_refl _) h
  | positionRebase => exact execPositionRebase_reach s t hs (within_refl _) h
  | positionStallWrite => exact execPositionStallWrite_reach _ s t hs (within_refl _) h
  | encoderStandstill => exact execEncoderStandstill_reach _ s t hs (within_refl _) h
  | plannerTick => exact execPlannerTick_reach s t hs (within_refl _) h
  | timedMotionDue => exact execTimedMotionDue_reach _ s t hs (within_refl _) h
  | followingError => exact execFollowingError_reach _ s t hs (within_refl _) h
  | limitSwitch => exact execLimitSwitch_reach _ _ s t hs (within_refl _) h
  | gearSyncTimeout => exact execGearSyncTimeout_reach _ s t hs (within_refl _) h
  | gearMasterLost => exact execGearMasterLost_reach _ s t hs (within_refl _) h
  | chopperBlankEnd => exact execChopperBlankEnd_reach _ _ s t hs (within_refl _) h
  | chopperTrip => exact execChopperTrip_reach _ _ _ s t hs (within_refl _) h
  | chopperForcedOff => exact execChopperForcedOff_reach _ _ _ s t hs (within_refl _) h
  | chopperSlowDecay => exact execChopperSlowDecay_reach _ _ s t hs (within_refl _) h
  | chopperOffEnd => exact execChopperOffEnd_reach _ _ s t hs (within_refl _) h
  | bridgeOvercurrent => exact execBridgeOvercurrent_reach _ s t hs (within_refl _) h
  | openPhase => exact execOpenPhase_reach _ _ s t hs (within_refl _) h
  | coilIdleTimeout => exact execCoilIdleTimeout_reach _ s t hs (within_refl _) h
  | partnerSignal => exact execPartnerSignal_reach _ _ _ s t hs (within_refl _) h
  | trainingRateTimeout => exact execTrainingRateTimeout_reach _ s t hs (within_refl _) h
  | linkUp => exact execLinkUp_reach _ _ _ _ s t hs (within_refl _) h
  | linkHelloTimeout => exact execLinkHelloTimeout_reach _ s t hs (within_refl _) h
  | linkHello => exact execLinkHello_reach _ _ _ _ s t hs (within_refl _) h
  | linkLost => exact execLinkLost_reach _ s t hs (within_refl _) h
  | portSilent => exact execPortSilent_reach _ s t hs (within_refl _) h
  | rateRetry => exact execRateRetry_reach _ s t hs (within_refl _) h
  | trainingFailTimeout => exact execTrainingFailTimeout_reach _ s t hs (within_refl _) h
  | fecBurst => exact execFecBurst_reach _ _ s t hs (within_refl _) h
  | lineCycleBoundary => exact execLineCycleBoundary_reach _ s t hs (within_refl _) h
  | gateEntryChange => exact execGateEntryChange_reach _ _ s t hs (within_refl _) h
  | cyclicSend => exact execCyclicSend_reach s t hs (within_refl _) h
  | kereyFrameForward => exact execKereyFrameForward_reach _ _ _ _ _ _ _ _ _ _ _ _ _ s t hs (within_refl _) h
  | plantFrameIn => exact execPlantFrameIn_reach _ _ _ _ _ _ _ _ _ s t hs (within_refl _) h
  | proxyExpire => exact execProxyExpire_reach _ s t hs (within_refl _) h
  | leave => exact execLeave_reach _ s t hs (within_refl _) h
  | ringBreak => exact execRingBreak_reach _ _ s t hs (within_refl _) h
  | ringClosed => exact execRingClosed_reach _ _ s t hs (within_refl _) h
  | ringRouteRestore => exact execRingRouteRestore_reach s t hs (within_refl _) h
  | topoReport => exact execTopoReport_reach _ _ _ _ _ _ _ s t hs (within_refl _) h
  | topoMapSend => exact execTopoMapSend_reach s t hs (within_refl _) h
  | topoMap => exact execTopoMap_reach _ _ _ _ _ _ _ s t hs (within_refl _) h
  | addrRequest => exact execAddrRequest_reach _ s t hs (within_refl _) h
  | addrAssign => exact execAddrAssign_reach _ _ s t hs (within_refl _) h
  | cyclic => exact execCyclic_reach _ _ _ s t hs (within_refl _) h
  | nodeWrite => exact execNodeWrite_reach _ _ _ _ s t hs (within_refl _) h
  | lineCycleApply => exact execLineCycleApply_reach s t hs (within_refl _) h
  | lpiEnter => exact execLpiEnter_reach _ s t hs (within_refl _) h
  | lpiExit => exact execLpiExit_reach _ s t hs (within_refl _) h
  | sync => exact execSync_reach _ _ s t hs (within_refl _) h
  | followUp => exact execFollowUp_reach _ _ _ _ s t hs (within_refl _) h
  | syncLost => exact execSyncLost_reach s t hs (within_refl _) h
  | holdoverExpired => exact execHoldoverExpired_reach s t hs (within_refl _) h
  | syncSend => exact execSyncSend_reach _ s t hs (within_refl _) h
  | pdelayReqSend => exact execPdelayReqSend_reach _ s t hs (within_refl _) h
  | pdelayReq => exact execPdelayReq_reach _ _ _ s t hs (within_refl _) h
  | pdelayResp => exact execPdelayResp_reach _ _ _ _ _ s t hs (within_refl _) h
  | announce => exact execAnnounce_reach _ _ _ _ s t hs (within_refl _) h
  | referenceMessageDue => exact execReferenceMessageDue_reach _ s t hs (within_refl _) h
  | zbIntegrated => exact execZbIntegrated_reach s t hs (within_refl _) h
  | zbFrameReceived => exact execZbFrameReceived_reach _ _ _ _ _ _ _ s t hs (within_refl _) h
  | zbFrameSent => exact execZbFrameSent_reach _ _ s t hs (within_refl _) h
  | zbTxError => exact execZbTxError_reach _ _ _ s t hs (within_refl _) h
  | zbRxError => exact execZbRxError_reach _ _ _ s t hs (within_refl _) h
  | zbArbLost => exact execZbArbLost_reach s t hs (within_refl _) h
  | zbSuspendEnd => exact execZbSuspendEnd_reach s t hs (within_refl _) h
  | zbRecoveryDelay => exact execZbRecoveryDelay_reach s t hs (within_refl _) h
  | zbRecovered => exact execZbRecovered_reach s t hs (within_refl _) h
  | zbExpressReload => exact execZbExpressReload_reach s t hs (within_refl _) h
  | remoteTxPeriod => exact execRemoteTxPeriod_reach _ _ s t hs (within_refl _) h
  | remoteRxTimeout => exact execRemoteRxTimeout_reach _ s t hs (within_refl _) h
  | custodyEval => exact execCustodyEval_reach s t hs (within_refl _) h
  | custodyEyeRise => exact execCustodyEyeRise_reach _ _ s t hs (within_refl _) h
  | custodyEyeFall => exact execCustodyEyeFall_reach _ _ s t hs (within_refl _) h
  | custodyTravelLimit => exact execCustodyTravelLimit_reach _ s t hs (within_refl _) h
  | custodyCreate => exact execCustodyCreate_reach _ s t hs (within_refl _) h
  | custodyScan => exact execCustodyScan_reach s t hs (within_refl _) h
  | handoffOffer => exact execHandoffOffer_reach _ _ s t hs (within_refl _) h
  | handoffAccept => exact execHandoffAccept_reach _ _ _ s t hs (within_refl _) h
  | handoffRefuse => exact execHandoffRefuse_reach _ _ _ _ s t hs (within_refl _) h
  | handoffCommit => exact execHandoffCommit_reach _ _ _ s t hs (within_refl _) h
  | commitAck => exact execCommitAck_reach _ _ _ s t hs (within_refl _) h
  | handoffQuery => exact execHandoffQuery_reach _ _ _ s t hs (within_refl _) h
  | mirrorUpdate => exact execMirrorUpdate_reach _ _ s t hs (within_refl _) h
  | mirrorFull => exact execMirrorFull_reach _ _ _ s t hs (within_refl _) h
  | mirrorDrop => exact execMirrorDrop_reach _ _ s t hs (within_refl _) h
  | ckptNote => exact execCkptNote_reach _ _ s t hs (within_refl _) h
  | recoverReq => exact execRecoverReq_reach _ _ _ s t hs (within_refl _) h
  | recoverData => exact execRecoverData_reach _ _ _ s t hs (within_refl _) h
  | recoverEnd => exact execRecoverEnd_reach _ _ s t hs (within_refl _) h
  | custodyRepeat => exact execCustodyRepeat_reach s t hs (within_refl _) h
  | handoffTimeout => exact execHandoffTimeout_reach _ s t hs (within_refl _) h
  | commitWaitTimeout => exact execCommitWaitTimeout_reach _ s t hs (within_refl _) h
  | checkpointPeriod => exact execCheckpointPeriod_reach s t hs (within_refl _) h
  | checkpointDurable => exact execCheckpointDurable_reach s t hs (within_refl _) h
  | custodyRecoveryStart => exact execCustodyRecoveryStart_reach s t hs (within_refl _) h
  | recoveryMerge => exact execRecoveryMerge_reach s t hs (within_refl _) h
  | energyInterval => exact execEnergyInterval_reach _ s t hs (within_refl _) h
  | liftPositionUpdate => exact execLiftPositionUpdate_reach _ s t hs (within_refl _) h
  | levelFlagEdge => exact execLevelFlagEdge_reach _ _ _ s t hs (within_refl _) h
  | liftDriveAtTarget => exact execLiftDriveAtTarget_reach _ s t hs (within_refl _) h
  | liftArrivalSettled => exact execLiftArrivalSettled_reach _ s t hs (within_refl _) h
  | liftArrivalTimeout => exact execLiftArrivalTimeout_reach _ s t hs (within_refl _) h
  | gateDwellExpired => exact execGateDwellExpired_reach _ s t hs (within_refl _) h
  | liftParkDue => exact execLiftParkDue_reach _ s t hs (within_refl _) h
  | liftRefTravelExceeded => exact execLiftRefTravelExceeded_reach _ s t hs (within_refl _) h
  | gateInputChange => exact execGateInputChange_reach _ s t hs (within_refl _) h
  | gateTimeout => exact execGateTimeout_reach _ s t hs (within_refl _) h
  | gateObstructionCheck => exact execGateObstructionCheck_reach _ s t hs (within_refl _) h
  | gateRetryDwell => exact execGateRetryDwell_reach _ s t hs (within_refl _) h
  | liftInterlockChange => exact execLiftInterlockChange_reach _ s t hs (within_refl _) h
  | harvestSample => exact execHarvestSample_reach _ s t hs (within_refl _) h
  | harvestFrameSend => exact execHarvestFrameSend_reach _ s t hs (within_refl _) h
  | harvestListApply => exact execHarvestListApply_reach s t hs (within_refl _) h
  | triggerHoldoffEnd => exact execTriggerHoldoffEnd_reach _ s t hs (within_refl _) h
  | tbusEdge => exact execTbusEdge_reach _ s t hs (within_refl _) h
  | cbusEdge => exact execCbusEdge_reach _ _ s t hs (within_refl _) h
  | cbusPulse => exact execCbusPulse_reach _ s t hs (within_refl _) h
  | tbusPulseEnd => exact execTbusPulseEnd_reach s t hs (within_refl _) h
  | harvestReserveRequest => exact execHarvestReserveRequest_reach _ _ _ _ s t hs (within_refl _) h
  | harvestGrant => exact execHarvestGrant_reach _ _ s t hs (within_refl _) h
  | harvestRefuse => exact execHarvestRefuse_reach _ s t hs (within_refl _) h
  | harvestRevoke => exact execHarvestRevoke_reach _ s t hs (within_refl _) h
  | harvestReservationTimeout => exact execHarvestReservationTimeout_reach _ s t hs (within_refl _) h
  | harvestReservationRetry => exact execHarvestReservationRetry_reach _ s t hs (within_refl _) h
  | storeRecordRequest => exact execStoreRecordRequest_reach s t hs (within_refl _) h
  | recordProgrammed => exact execRecordProgrammed_reach s t hs (within_refl _) h
  | recordValidMarkDone => exact execRecordValidMarkDone_reach s t hs (within_refl _) h
  | blockEraseDone => exact execBlockEraseDone_reach _ s t hs (within_refl _) h
  | nvsRetry => exact execNvsRetry_reach _ _ _ _ s t hs (within_refl _) h
  | nvsRewrite => exact execNvsRewrite_reach _ _ _ _ s t hs (within_refl _) h
  | safetyCycle => exact execSafetyCycle_reach _ s t hs (within_refl _) h
  | safetyInboundRead => exact execSafetyInboundRead_reach _ _ _ s t hs (within_refl _) h
  | crossRecord => exact execCrossRecord_reach _ s t hs (within_refl _) h
  | partnerLost => exact execPartnerLost_reach _ s t hs (within_refl _) h
  | safetySelfTest => exact execSafetySelfTest_reach _ _ _ _ s t hs (within_refl _) h
  | followerTimeout => exact execFollowerTimeout_reach _ s t hs (within_refl _) h
  | fallbackExpired => exact execFallbackExpired_reach s t hs (within_refl _) h
  | safetyDiscrepancy => exact execSafetyDiscrepancy_reach _ _ s t hs (within_refl _) h
  | lockMonitorTimeout => exact execLockMonitorTimeout_reach _ s t hs (within_refl _) h
  | unlockRequestTimeout => exact execUnlockRequestTimeout_reach _ s t hs (within_refl _) h
  | degradedTimeout => exact execDegradedTimeout_reach _ _ s t hs (within_refl _) h
  | safeFrameGather => exact execSafeFrameGather_reach s t hs (within_refl _) h
  | safetyFrame => exact execSafetyFrame_reach _ _ _ s t hs (within_refl _) h
  | safeStallUpdate => exact execSafeStallUpdate_reach s t hs (within_refl _) h
  | torqueOn => exact execTorqueOn_reach _ s t hs (within_refl _) h
  | torqueOff => exact execTorqueOff_reach _ s t hs (within_refl _) h
  | unlock => exact execUnlock_reach _ s t hs (within_refl _) h
  | lock => exact execLock_reach _ s t hs (within_refl _) h
  | restart => exact execRestart_reach _ s t hs (within_refl _) h
  | stopZone => exact execStopZone_reach s t hs (within_refl _) h
  | restartNotice => exact execRestartNotice_reach s t hs (within_refl _) h
  | sleepEntry => exact execSleepEntry_reach s t hs (within_refl _) h
  | sleepContextSaved => exact execSleepContextSaved_reach s t hs (within_refl _) h
  | sleepZbOffline => exact execSleepZbOffline_reach s t hs (within_refl _) h
  | wakeTimer => exact execWakeTimer_reach s t hs (within_refl _) h
  | wake => exact execWake_reach _ s t hs (within_refl _) h
  | woke => exact execWoke_reach _ s t hs (within_refl _) h
  | gleanerSample => exact execGleanerSample_reach _ _ s t hs (within_refl _) h
  | bulk => exact execBulk_reach _ _ s t hs (within_refl _) h
  | levelFrame => exact execLevelFrame_reach _ _ _ _ _ s t hs (within_refl _) h
  | levelRaiseInstant => exact execLevelRaiseInstant_reach s t hs (within_refl _) h
  | switchChargeDriveLapse => exact execSwitchChargeDriveLapse_reach _ s t hs (within_refl _) h
  | safetyStartTestsDone => exact execSafetyStartTestsDone_reach _ _ _ _ s t hs (within_refl _) h
  | portPhyReloadDone => exact execPortPhyReloadDone_reach _ _ s t hs (within_refl _) h

end Sys2Proof.Machine
end

section
/-! PROOFS. Memory (R18, R20): reads after writes, the invariant of a step, and commands that leave memory alone. -/

namespace Sys2Proof.Machine

/-- A byte outside the written span reads as before. -/
theorem ramGet_puts_outside {m : List Host.Cell} (h : Memory.wf m = true) (a x : Nat) (bs : List Byte) (hx : x < a ∨ a + bs.length ≤ x) :
    ramGet (ramPuts m a bs) x = ramGet m x := by
  induction bs generalizing m a with
  | nil => rfl
  | cons b t ih =>
    rw [List.length_cons] at hx
    calc ramGet (ramPuts (ramPut m a b) (a + 1) t) x
      _ = ramGet (ramPut m a b) x := ih (ramPut_wf h a b) (a + 1) (by omega)
      _ = ramGet m x := by rw [ramGet_put h, if_neg (by omega)]

/-- The written span reads as what was written. -/
theorem ramGets_puts {m : List Host.Cell} (h : Memory.wf m = true) (a : Nat) (bs : List Byte) :
    ramGets (ramPuts m a bs) a bs.length = bs := by
  induction bs generalizing m a with
  | nil => rfl
  | cons b t ih =>
    have hw : Memory.wf (ramPut m a b) = true := ramPut_wf h a b
    have hb : ramGet (ramPuts (ramPut m a b) (a + 1) t) a = b := by
      rw [ramGet_puts_outside hw _ _ _ (.inl a.lt_succ_self), ramGet_put h, if_pos rfl]
    exact congrArg₂ List.cons hb (ih hw (a + 1))

/-- Settles O43: the bytes of a span are put one after another, and each later one leaves the earlier ones alone. -/
theorem memoryReadsBackWhatWasWritten : Obligations.MemoryReadsBackWhatWasWritten := by
  unfold Obligations.MemoryReadsBackWhatWasWritten
  intro n a bs h
  refine ⟨ramGets_puts h a bs, Node.write_memOk h a bs, fun x hx => ?_⟩
  exact congrArg (fun b => [b]) (ramGet_puts_outside h a x bs hx)

/-- Every command keeps the invariant: the node by its reach, the queue because no command touches it. -/
theorem exec_inv {c : Instr} {s t : State} (hi : s.Inv) (h : exec c s = .next t) : t.Inv := by
  obtain ⟨hmem, hwell⟩ := hi
  exact ⟨(exec_reach h).2 hmem, exec_pending h ▸ hwell⟩

/-- Settles O54, by cases on the queue: an idle step moves line time alone, and the command at the front runs on a state that meets
the invariant with one command less to wait. -/
theorem stepKeepsTheInvariant : Obligations.StepKeepsTheInvariant := by
  unfold Obligations.StepKeepsTheInvariant
  intro s t hi h
  cases hp : s.pending with
  | nil =>
    rw [step_of_pending_nil hp] at h
    obtain rfl : s.idle = t := Host.Outcome.next.inj h
    exact hi
  | cons c rest =>
    rw [step_of_pending_cons hp] at h
    obtain ⟨hmem, hwell⟩ := hi
    rw [hp] at hwell
    have hfront : State.Inv { s with pending := rest } := ⟨hmem, fun d hd => hwell d (List.mem_cons_of_mem c hd)⟩
    exact exec_inv hfront h

/-- Settles O55: memory outside the footprint is the same list of bytes, so that every read of it is the same. -/
theorem quietCommandsLeaveMemory : Obligations.QuietCommandsLeaveMemory := by
  unfold Obligations.QuietCommandsLeaveMemory
  intro c s t hq h a
  have hram : s.node.ram = t.node.ram := (exec_reach h).1 .ram hq
  rw [Node.read, Node.read, hram]

end Sys2Proof.Machine
end

section
/-! PROOFS. Island operations (R29 to R33, R61): each completion is the branch of the meaning that its hypotheses select. -/

namespace Sys2Proof.Machine

/-- Settles O1, clause by clause in the order of the statement. -/
theorem islandOperationsComplete : Obligations.IslandOperationsComplete := by
  unfold Obligations.IslandOperationsComplete
  and_intros
  · -- ISLAND_CONTROL, answered at acceptance
    intro s path idx pl hs hp hc
    exact .of_hostCmd rfl hs ((Node.checked_pass _ _ _ _ hp).trans (if_neg hc))
  · -- ISLAND_CONTROL that restarts the Core island, answered after the restart
    intro s path idx pl hs hp hi ho
    exact .of_hostCmd rfl hs ((Node.checked_pass _ _ _ _ hp).trans ((if_pos ⟨hi, ho⟩).trans (by rw [hi])))
  · -- ISLAND_STATUS
    exact fun s path idx pl hs hp => .of_hostCmd rfl hs (Node.checked_pass _ _ _ _ hp)
  · -- QUIESCE_DRAINED
    exact fun s i h => .of_eq rfl (if_pos h)
  · -- QUIESCE_TIMEOUT
    exact fun s i h => .of_eq rfl (if_pos h)
  · -- HELD_ELAPSED after a wake or a lost lock
    exact fun s i h ho => .of_eq rfl ((if_pos h).trans (by rw [ho]))
  · -- HELD_ELAPSED before a reload
    exact fun s i h ho => .of_eq rfl ((if_pos h).trans (by rw [ho]))
  · -- HELD_ELAPSED after another operation
    intro s i o h ho hne hw
    refine .of_eq rfl ((if_pos h).trans ?_)
    rw [ho]
    cases o with
    | reload => exact absurd rfl hne
    | _ => exact if_neg (by simp [hw])
  · -- ISLAND_LOAD_DONE with every word
    intro s i h
    refine .of_eq rfl ((if_pos h).trans ?_)
    simp
  · -- ISLAND_LOAD_DONE with words missing
    exact fun s i h => .of_eq rfl ((if_pos h).trans (if_neg (by simp)))
  · -- CALIBRATION_DONE with new trims
    exact fun s i ports h => .of_eq rfl ((if_pos h).trans (if_pos rfl))
  · -- CALIBRATION_DONE that fails on an island without converters or ports
    intro s i ports h hl hi
    exact .of_eq rfl ((if_pos h).trans ((if_neg Bool.false_ne_true).trans ((if_neg hl).trans (if_neg hi))))
  · -- CALIBRATION_DONE that fails on the Line island
    intro s i ports h hl
    exact .of_eq rfl ((if_pos h).trans ((if_neg Bool.false_ne_true).trans (if_pos hl)))
  · -- CALIBRATION_DONE that fails on the I/O island
    intro s i ports h hi
    have hl : i ≠ Isl.line := by rw [hi]; decide
    exact .of_eq rfl ((if_pos h).trans ((if_neg Bool.false_ne_true).trans ((if_neg hl).trans (if_pos hi))))
  · -- LOCK_ACHIEVED into RUN
    intro s i h hr
    refine .of_eq rfl ((if_pos h).trans ?_)
    simp [hr]
  · -- LOCK_ACHIEVED into the state the lost lock had left
    intro s i r h hr
    refine .of_eq rfl ((if_pos h).trans ?_)
    simp [hr]
  · -- RELOCK_TIMEOUT
    exact fun s i h => .of_eq rfl (if_pos h)
  · -- CLOCK_LOCK_LOST from RUN
    intro s i bank hi h
    refine .of_eq rfl ((if_neg (Nat.not_le.mpr hi)).trans ?_)
    simp only [h]
  · -- CLOCK_LOCK_LOST during an operation
    intro s i bank hi h
    refine .of_eq rfl ((if_neg (Nat.not_le.mpr hi)).trans ?_)
    obtain h | h | h | h := h <;> simp only [h]
  · -- CORE_RESTART_DONE
    exact fun s bad h => .of_eq rfl (if_pos h)

end Sys2Proof.Machine
end

section
/-! PROOFS. Crossings (R14 to R17), reads of a bank (R22 to R26) and memory health (R28, R490, R491). -/

namespace Sys2Proof.Machine

/-- A word that its destination takes, or that waits in the crossing's buffer while the destination quiesces, does not find it
offline. -/
theorem not_offline_of_taken {n : Node} {src dst a : Nat} {buffered : Bool}
    (hd : n.endWorks dst src a = true ∨ buffered = true ∧ (n.island dst).st = .quiescing) :
    ¬((!n.endWorks dst src a) = true ∧ (!decide (buffered = true ∧ (n.island dst).st = .quiescing)) = true) := by
  rintro ⟨hdown, hgone⟩
  obtain hd | hd := hd
  · simp [hd] at hdown
  · simp [hd] at hgone

/-- Settles O2, clause by clause in the order of the statement. -/
theorem crossingsAndMemoryHealthComplete : Obligations.CrossingsAndMemoryHealthComplete := by
  unfold Obligations.CrossingsAndMemoryHealthComplete
  and_intros
  · -- CROSSING_WORD, delivered
    intro s src dst a word write buffered bank bankCheck err errCheck hc hd hs hn
    exact .of_eq (if_pos hc) ((if_neg (not_offline_of_taken hd)).trans ((if_neg (by simp [hs])).trans (if_neg (by simp [hn]))))
  · -- CROSSING_WORD to a destination that is offline
    intro s src dst a word write buffered bank bankCheck err errCheck hc hd hb
    exact .of_eq (if_pos hc) (if_pos ⟨by simp [hd], by simpa [or_iff_not_imp_left] using hb⟩)
  · -- CROSSING_WORD whose source stops
    intro s src dst a word write buffered bank bankCheck err errCheck hc hd hs
    exact .of_eq (if_pos hc) ((if_neg (not_offline_of_taken hd)).trans (if_pos (by simp [hs])))
  · -- CROSSING_WORD, denied
    intro s src dst a word write buffered bank bankCheck err errCheck hc hd hs hn
    exact .of_eq (if_pos hc) ((if_neg (not_offline_of_taken hd)).trans ((if_neg (by simp [hs])).trans (if_pos hn)))
  · -- SCRUB_READ at a place without an address
    intro s memory bank err errCheck beaten hw hr ha
    refine .of_eq rfl ((if_neg (by simp [hw, hr])).trans ?_)
    simp only [ha]
  · -- SCRUB_READ of a word
    intro s memory bank err errCheck beaten a hw hr ha
    refine .of_eq rfl ((if_neg (by simp [hw, hr])).trans ?_)
    simp only [ha]
  · -- ECC_REREAD with the same symbol wrong again
    intro s a err sym t hl r hf
    refine .of_eq rfl ?_
    simp [hl, r, hf]
  · -- ECC_REREAD that is clean, or wrong in another symbol
    intro s a err sym t k hl r hf
    refine .of_eq rfl ?_
    obtain hf | ⟨hf, hk⟩ := hf
    · simp [hl, r, hf]
    · simp [hl, r, hf, hk]
  · -- ECC_REREAD that the code does not correct
    intro s a err sym t hl r hf
    refine .of_eq rfl ?_
    obtain hf | hf := hf <;> simp [hl, r, hf]
  · -- a bank read, clean
    intro n a upset isl beaten c k hm hf
    simp only [Node.bankRead, hm, hf]
  · -- a bank read, corrected
    intro n a upset isl beaten c k hm hf
    simp only [Node.bankRead, hm, hf]
  · -- a bank read, uncorrectable
    intro n a upset isl beaten c k hm hf
    simp only [Node.bankRead, hm, hf]
  · -- a bank read of POISON
    intro n a upset isl beaten c k hm hf
    simp only [Node.bankRead, hm, hf]
  · -- ROW_COPY_DONE
    exact fun s row h => .of_eq rfl (if_pos h)
  · -- PAGE_COPY_DONE
    exact fun s page h => .of_eq rfl (if_pos h)

end Sys2Proof.Machine
end

section
/-! PROOFS. The stages of power-up (R47): each completion is the branch of the meaning that its hypotheses select. -/

namespace Sys2Proof.Machine

/-- Settles O3, clause by clause in the order of the statement. -/
theorem powerUpStagesComplete : Obligations.PowerUpStagesComplete := by
  unfold Obligations.PowerUpStagesComplete
  and_intros
  · -- POWER_UP_START
    intro s below h hov
    exact .of_eq rfl (if_pos ⟨h, by simpa using hov⟩)
  · -- VAON_REGULATED
    exact fun s h => .of_eq rfl (if_pos h)
  · -- SUPPLIES_REGULATED
    exact fun s rise h hn => .of_eq rfl (if_pos ⟨h, by simp [hn]⟩)
  · -- BOOT_SILO_SELECT
    exact fun s h => .of_eq rfl (if_pos h)
  · -- IMAGES_LOADED
    exact fun s h => .of_eq rfl (if_pos h)
  · -- POWER_UP_READY
    exact fun s mV field testA testB h => .of_eq rfl (if_pos h)
  · -- BYPASS_OPEN
    exact fun s hb hr hp hl ht hu => .of_eq rfl (if_pos ⟨hb, hr, hp, by simp [hl], ht, hu⟩)

end Sys2Proof.Machine
end

section
/-! PROOFS. Power-down (R48), NRST (R37, R44), VAON, VAUX (R46) and heat (R50). -/

namespace Sys2Proof.Machine

/-- The stages in which the converter's supplies are up and no power-down runs yet (R47, R48): a power-down that begins in one of them
runs its whole sequence. -/
def PowerStage.supplied : PowerStage → Bool
  | .off | .t0 | .thermalWait | .downT1 | .downT2 | .downT3 => false
  | _ => true

theorem PowerStage.supplied_of_ne {p : PowerStage} (hoff : p ≠ .off) (ht0 : p ≠ .t0) (hwait : p ≠ .thermalWait) (h1 : p ≠ .downT1)
    (h2 : p ≠ .downT2) (h3 : p ≠ .downT3) : p.supplied = true := by
  cases p with
  | off | t0 | thermalWait | downT1 | downT2 | downT3 => contradiction
  | _ => rfl

/-- A power-down that begins with the supplies up logs its event, keeps its cause and runs t1 of R48. -/
theorem Node.powerDown_supplied {n : Node} (h : n.power.stage.supplied = true) (ev leave cause : Nat) (rest : PowerStage) :
    n.powerDown ev leave cause rest = ((n.logFree ev).updPower (fun p => { p with resetCause := cause })).downT1 leave := by
  unfold Node.powerDown
  cases hp : n.power.stage with
  | off | t0 | thermalWait | downT1 | downT2 | downT3 => rw [hp] at h; contradiction
  | _ => rfl

/-- With nothing but the converter or VAON running, a power-down is the reset into its rest state. -/
theorem Node.powerDown_unsupplied {n : Node} (h : n.power.stage = .t0 ∨ n.power.stage = .thermalWait) (ev leave cause : Nat)
    (rest : PowerStage) : n.powerDown ev leave cause rest = n.deviceReset cause rest := by
  unfold Node.powerDown
  obtain h | h := h <;> rw [h]

/-- NRST_LOW, by the stage it meets. -/
theorem nrstLow_done (s : State) :
    Done .nrstLow s (
      let n := s.node.updPower (fun p => { p with nrstLow := true })
      if s.node.power.stage.supplied then n.deviceReset 1 .t1
      else if s.node.power.stage = .off ∨ s.node.power.stage = .t0 ∨ s.node.power.stage = .thermalWait then n
      else n.closeBypass none) := by
  refine .of_eq rfl ?_
  dsimp only [Node.updPower_power]
  cases s.node.power.stage <;> rfl

/-- Settles O4, clause by clause in the order of the statement. -/
theorem powerDownEventsComplete : Obligations.PowerDownEventsComplete := by
  unfold Obligations.PowerDownEventsComplete
  and_intros
  · -- POWER_FAIL with the supplies up
    intro s hoff ht0 hwait h1 h2 h3
    exact .of_eq rfl (Node.powerDown_supplied (PowerStage.supplied_of_ne hoff ht0 hwait h1 h2 h3) _ _ _ _)
  · -- POWER_FAIL with the converter or VAON alone
    exact fun s h => .of_eq rfl (Node.powerDown_unsupplied h _ _ _ _)
  · -- LINE_OVERVOLTAGE
    intro s hoff ht0 hwait h1 h2 h3
    refine .of_eq rfl ?_
    dsimp only
    rw [Node.powerDown_supplied (PowerStage.supplied_of_ne hoff ht0 hwait h1 h2 h3)]
  · -- THERMAL_STOP
    intro s hoff ht0 hwait h1 h2 h3
    exact .of_eq rfl ((if_neg (not_or.mpr ⟨ht0, hwait⟩)).trans
      (Node.powerDown_supplied (PowerStage.supplied_of_ne hoff ht0 hwait h1 h2 h3) _ _ _ _))
  · -- POWER_DOWN_BYPASS_CLOSE
    exact fun s h => .of_eq rfl (if_pos h)
  · -- CONVERTER_STOP
    exact fun s h hd => .of_eq rfl (if_pos ⟨h, hd⟩)
  · -- LINE_VOLTAGE_LOW
    exact fun s hl hoff => .of_eq rfl (if_neg (by simp [hl, hoff]))
  · -- LINE_VOLTAGE_LOW_CLEAR
    exact fun s => rfl
  · -- NRST_LOW with the converter or VAON alone
    intro s h
    refine (nrstLow_done s).of_eq ?_
    obtain h | h | h := h <;> simp [h, PowerStage.supplied]
  · -- NRST_LOW during a power-down
    intro s h
    refine (nrstLow_done s).of_eq ?_
    obtain h | h := h <;> simp [h, PowerStage.supplied]
  · -- NRST_LOW with the supplies up
    intro s hoff ht0 hwait h1 h2 h3
    exact (nrstLow_done s).of_eq (if_pos (PowerStage.supplied_of_ne hoff ht0 hwait h1 h2 h3))
  · -- NRST_RELEASE
    exact fun s => rfl
  · -- VAON_LOW when off
    exact fun s h => .of_eq rfl (if_pos h)
  · -- VAON_LOW with VAON up
    exact fun s h => .of_eq rfl (if_neg h)
  · -- VAUX_FAULT
    exact fun s h => .of_eq rfl (if_pos h)
  · -- VAUX_RETRY
    exact fun s h => .of_eq rfl (if_pos h)
  · -- DIE_TEMP_HIGH
    exact fun s hd hoff ht0 => .of_eq rfl (if_neg (by simp [hd, hoff, ht0]))
  · -- DIE_TEMP_CLEAR
    exact fun s => rfl
  · -- THERMAL_RECOVER
    exact fun s h => .of_eq rfl (if_pos h)

end Sys2Proof.Machine
end

section
/-! PROOFS. The state after reset (log 1). -/

namespace Sys2Proof.Machine

/-- A stall that was never written is IDLE: its default sets its kind, its format and, for an INTERNAL stall, its source and scale. -/
@[simp] theorem Stall.dflt_st (k : Nat) : (Stall.dflt k).st = .idle := by
  unfold Stall.dflt Stall.reformat
  dsimp only
  split
  case isTrue => rfl
  case isFalse => rfl

/-- Nothing is listed in the memory after reset, so that it is canonical, and no command waits. -/
theorem reset_inv : State.reset.Inv := ⟨rfl, fun _ hc => nomatch hc⟩

/-- Settles O40: after reset the tables of mailboxes and stalls list nothing, so that each reads as its default. -/
theorem resetMeetsTheInvariant : Obligations.ResetMeetsTheInvariant := by
  unfold Obligations.ResetMeetsTheInvariant
  have hmbx (m : Nat) : State.reset.node.mbx m = {} := rfl
  have hstall (k : Nat) : State.reset.node.stall k = Stall.dflt k := rfl
  exact ⟨reset_inv, rfl, rfl, fun m => by rw [hmbx m], fun k => by rw [hstall k, Stall.dflt_st], rfl⟩

end Sys2Proof.Machine
end

section
/-! PROOFS. Responses in their mailboxes (R53, R54, R57, R59 to R63): what completing a command writes and what it leaves alone. -/

namespace Sys2Proof.Machine

/-! ### Fields of a written layout -/

@[simp] theorem ramGets_length (m : List Host.Cell) (a k : Nat) : (ramGets m a k).length = k := by
  induction k generalizing a with
  | zero => rfl
  | succ k ih => exact congrArg (· + 1) (ih (a + 1))

/-- A read of a span is the read of its first part followed by that of the rest. -/
theorem ramGets_add (m : List Host.Cell) (a j k : Nat) : ramGets m a (j + k) = ramGets m a j ++ ramGets m (a + j) k := by
  induction j generalizing a with
  | zero => simp [ramGets]
  | succ j ih => rw [Nat.add_right_comm, ramGets, ih, ramGets, List.cons_append, Nat.add_assoc, Nat.add_comm 1 j]

/-- A field of a written layout reads as the layout has it. -/
theorem ramGets_puts_field {m : List Host.Cell} (h : Memory.wf m = true) (a off k : Nat) (bs : List Byte) (hk : off + k ≤ bs.length) :
    ramGets (ramPuts m a bs) (a + off) k = slice bs off k := by
  obtain ⟨r, hr⟩ := Nat.exists_eq_add_of_le hk
  have hparts := (ramGets_puts h a bs).symm
  rw [hr, Nat.add_assoc, ramGets_add, ramGets_add] at hparts
  conv_rhs => rw [hparts]
  rw [slice_skip _ _ _ _ (by simp), ramGets_length, Nat.sub_self, slice_here _ _ _ (by simp)]

/-! ### What an answer leaves alone -/

theorem Node.send_host (n : Node) (type : Nat) (flags : BitVec 16) (dst : Nat) (payload : List Byte) :
    (n.send type flags dst payload).host = n.host :=
  ((Node.send_reach n type flags dst payload (Reach.refl [.line, .freeCtr] n) (within_refl _)).1 .host (by decide)).symm

theorem Node.send_ram (n : Node) (type : Nat) (flags : BitVec 16) (dst : Nat) (payload : List Byte) :
    (n.send type flags dst payload).ram = n.ram :=
  ((Node.send_reach n type flags dst payload (Reach.refl [.line, .freeCtr] n) (within_refl _)).1 .ram (by decide)).symm

theorem Node.sessionRefused_host (n : Node) (m code status : Nat) (pl : List Byte) : (n.sessionRefused m code status pl).host = n.host :=
  ((Node.sessionRefused_reach n m code status pl (Reach.refl [.rcd, .freeCtr] n) (within_refl _)).1 .host (by decide)).symm

theorem Node.sessionRefused_ram (n : Node) (m code status : Nat) (pl : List Byte) : (n.sessionRefused m code status pl).ram = n.ram :=
  ((Node.sessionRefused_reach n m code status pl (Reach.refl [.rcd, .freeCtr] n) (within_refl _)).1 .ram (by decide)).symm

theorem Node.sessionRefused_memOk {n : Node} (hn : n.memOk) (m code status : Nat) (pl : List Byte) :
    (n.sessionRefused m code status pl).memOk :=
  (Node.sessionRefused_reach n m code status pl (Reach.refl [.rcd, .freeCtr] n) (within_refl _)).2 hn

theorem Node.setMbx_memOk {n : Node} (hn : n.memOk) (m : Nat) (x : Mbx) : (n.setMbx m x).memOk := hn

@[simp] theorem HostIf.touch_mbx (h : HostIf) (id now : Nat) : (h.touch id now).mbx = h.mbx := by
  unfold HostIf.touch
  split <;> rfl

@[simp] theorem HostIf.purge_mbx (h : HostIf) (id : Nat) : (h.purge id).mbx = h.mbx := by
  unfold HostIf.purge
  split
  · split <;> rfl
  · rfl

/-! ### Response bytes -/

/-- The bytes of a response outside a session: flags RESP and the mailbox index, a session tag of 0, no trailer (R54, R57). -/
theorem respBytes_outside_session (code seq m status detail : Nat) (rs : List Byte) :
    respBytes code seq m status detail false none rs
      = (leBytes 2 code ++ leBytes 2 seq ++ leBytes 2 (4 + rs.length) ++ leBytes 2 (1 + 16 * (m % 16)) ++ List.replicate 8 0
          ++ leBytes 2 status ++ leBytes 2 detail ++ rs, []) := rfl

theorem respBytes_outside_session_length (code seq m status detail : Nat) (rs : List Byte) :
    (respBytes code seq m status detail false none rs).1.length = 20 + rs.length := by
  simp only [respBytes_outside_session, List.length_append, leBytes_length, List.length_replicate]

/-- Response bytes go to memory, and on the line to the requester; host access is as before. -/
@[simp] theorem Node.putResp_host (n : Node) (m : Nat) (body trailer : List Byte) : (n.putResp m body trailer).host = n.host := by
  unfold Node.putResp
  dsimp only
  split <;> split <;> simp [Node.send_host, Node.write]

@[simp] theorem Node.putResp_mbx (n : Node) (m k : Nat) (body trailer : List Byte) : (n.putResp m body trailer).mbx k = n.mbx k :=
  congrArg (fun h : HostIf => h.mbx.getD k {}) (n.putResp_host m body trailer)

theorem Node.putResp_ram (n : Node) (m : Nat) (body : List Byte) : (n.putResp m body []).ram = ramPuts n.ram (mbxAddr m) body := by
  unfold Node.putResp
  dsimp only
  split <;> simp [Node.send_ram, Node.write]

/-- The status of a response stands at offset 16 of its mailbox (R54, R57). -/
theorem Node.putResp_status {n : Node} (hn : n.memOk) (m code seq status detail : Nat) (rs : List Byte) (hs : status < 65536) :
    u16 ((n.putResp m (respBytes code seq m status detail false none rs).1 []).read (mbxAddr m + 16) 2) 0 = status := by
  have hbody : slice (respBytes code seq m status detail false none rs).1 16 2 = leBytes 2 status := by
    rw [respBytes_outside_session, slice_within _ rs _ _ (by simp), slice_within _ (leBytes 2 detail) _ _ (by simp),
      slice_skip _ (leBytes 2 status) _ _ (by simp)]
    exact slice_all _ _ (leBytes_length 2 status)
  have hlen := respBytes_outside_session_length code seq m status detail rs
  rw [Node.read, Node.putResp_ram, ramGets_puts_field hn _ _ _ _ (by omega), hbody]
  exact field_last 2 status hs

/-! ### Completing a command -/

/-- A mailbox whose command is complete: DONE, with the request and the response kept for the duplicate rule (R59, R63). -/
def Mbx.completed (x : Mbx) (code seq : Nat) (pl body : List Byte) : Mbx :=
  { x with st := .done, req := none, again := false, deferred := none, begun := false, lastReq := some (code, seq, pl), lastResp := body }

/-- Completing a command changes its own mailbox alone. -/
theorem Node.complete_mbx {n : Node} {m code seq flags : Nat} {pl : List Byte} (h : (n.mbx m).req = some (code, seq, flags, pl))
    (st d : Nat) (noAuth : Bool) (rs : List Byte) :
    ∃ body, ∀ k, (n.complete m st d noAuth rs).mbx k = (n.setMbx m ((n.mbx m).completed code seq pl body)).mbx k := by
  have hlogged : (if st = Rs.ok then n else n.sessionRefused m code st pl).host = n.host := by
    rw [apply_ite Node.host, Node.sessionRefused_host, ite_self]
  unfold Node.complete
  simp only [h]
  simp only [Node.mbx, Node.putResp_host, HostIf.purge_mbx, HostIf.touch_mbx, Node.setMbx, hlogged]
  exact ⟨_, fun _ => rfl⟩

/-- Outside a session, completing a command writes the bytes of its response to its mailbox, and nothing else to memory. -/
theorem Node.complete_ram {n : Node} {m code seq flags : Nat} {pl : List Byte} (h : (n.mbx m).req = some (code, seq, flags, pl))
    (hs : (n.mbx m).session = 0) (st d : Nat) (rs : List Byte) :
    (n.complete m st d false rs).ram = ramPuts n.ram (mbxAddr m) (respBytes code seq m st d false none rs).1 := by
  have hlogged : (if st = Rs.ok then n else n.sessionRefused m code st pl).ram = n.ram := by
    rw [apply_ite Node.ram, Node.sessionRefused_ram, ite_self]
  have hauth (x : HostIf) : x.authOut 0 = none := rfl
  unfold Node.complete
  simp only [h, hs, hauth, respBytes_outside_session, Bool.false_eq_true, if_false, Node.putResp_ram, Node.setMbx, hlogged]

/-- No answer goes out where none is held back. -/
theorem Node.releaseAnswers_of_none {n : Node} (h : ∀ k, (n.mbx k).deferred = none) : n.releaseAnswers = n :=
  List.foldl_fixed' (fun m => by simp only [h m]) n.host.held

/-- A command that neither a restart nor an earlier command delays is completed at once (R59, R62). -/
theorem Node.answer_complete {n : Node} {m : Nat} {r : Nat × Nat × Nat × List Byte} (hreq : (n.mbx m).req = some r)
    (hr : n.host.restarting = false) (he : ((n.mbx m).begun && n.earlier m (fun _ => true)) = false) (st d : Nat) (rs : List Byte) :
    n.answer m st d rs = (n.complete m st d false rs).releaseAnswers :=
  (if_neg (by simp [hreq])).trans (if_neg (by simp [hr, he]))

/-- Settles O44: the answer is the completion of the command, after which no answer is held back; its mailbox, the other mailboxes and
memory then read as the completion leaves them. -/
theorem answerFillsItsMailbox : Obligations.AnswerFillsItsMailbox := by
  unfold Obligations.AnswerFillsItsMailbox
  intro n m code seq flags pl st d rs hn hreq hs hr hlen he hdef
  obtain ⟨body, hmbx⟩ := Node.complete_mbx hreq st d false rs
  have hsame : (n.complete m st d false rs).mbx m = (n.mbx m).completed code seq pl body := (hmbx m).trans (Node.mbx_setMbx _ _ _)
  have hne (k : Nat) (hk : k ≠ m) : (n.complete m st d false rs).mbx k = n.mbx k := (hmbx k).trans (Node.mbx_setMbx_ne _ _ _ _ hk)
  have hfree (k : Nat) : ((n.complete m st d false rs).mbx k).deferred = none := by
    by_cases hk : k = m
    · rw [hk, hsame, Mbx.completed]
    · rw [hne k hk, hdef k]
  have hram := Node.complete_ram hreq hs st d rs
  have hresp := respBytes_outside_session_length code seq m st d rs
  rw [Node.answer_complete hreq hr he, Node.releaseAnswers_of_none hfree]
  refine ⟨by rw [hsame, Mbx.completed], by rw [hsame, Mbx.completed], ?_, fun a ha => ?_, hne⟩
  · rw [Node.read, hram, ← hresp]
    exact ramGets_puts hn _ _
  · rw [Node.read, Node.read, hram]
    exact congrArg (fun b => [b]) (ramGet_puts_outside hn _ _ _ (by omega))

/-! ### The front end while the field cores restart (R59, R60, R70) -/

theorem Node.frontBusy_st (n : Node) (m : Nat) : ((n.frontBusy m).mbx m).st = .free := by
  unfold Node.frontBusy
  dsimp only
  rw [Node.putResp_mbx, Node.mbx_setMbx]

theorem Node.frontBusy_status {n : Node} (hn : n.memOk) (m : Nat) :
    u16 ((n.frontBusy m).read (mbxAddr m + 16) 2) 0 = Rs.busyRestarting := by
  unfold Node.frontBusy
  dsimp only
  exact Node.putResp_status (Node.setMbx_memOk (Node.sessionRefused_memOk hn _ _ _ _) m _) m _ _ _ 0 [] (by decide)

/-- A request posted in a mailbox that is FREE or DONE goes to the front end while the field cores restart. -/
theorem Node.post_restarting {n : Node} {m : Nat} (src : Nat) (hr : n.host.restarting = true)
    (hst : (n.mbx m).st = .free ∨ (n.mbx m).st = .done) :
    n.post m src = (n.setMbx m { n.mbx m with st := .posted, src := src, again := (n.mbx m).st == .done }).frontBusy m :=
  (if_neg (by obtain h | h := hst <;> simp [h])).trans (if_pos hr)

/-- HS_STATUS.RESTARTING is bit 0 (R70). -/
theorem HsRegs.statusWord_restarting (r : HsRegs) (restarting session alive : Bool) :
    r.statusWord restarting session alive % 2 = b2n restarting := by
  have h : b2n restarting < 2 := by cases restarting <;> decide
  unfold HsRegs.statusWord
  omega

/-- Settles O49: the front end answers at once and frees the mailbox, and RESTARTING does not depend on the register set. -/
theorem restartingAnswersBusy : Obligations.RestartingAnswersBusy := by
  unfold Obligations.RestartingAnswersBusy
  refine ⟨fun n m src hn hr hst => ?_, fun n path hr => ?_⟩
  · rw [Node.post_restarting src hr hst]
    exact ⟨Node.frontBusy_st _ m, Node.frontBusy_status (Node.setMbx_memOk hn m _) m⟩
  · rw [Node.hsStatus, hr]
    exact HsRegs.statusWord_restarting _ _ _ _

end Sys2Proof.Machine
end

section
/-! PROOFS. The checks of R58: those of a taken request in their order, and the length of a command's payload. -/

namespace Sys2Proof.Machine

/-! ### Judging a request (R58 steps 1 to 8) -/

/-- Steps 1 and 2 of R58 pass (R54): the length is at most 480, RESP and DUP are clear, and so is every reserved flag. -/
def HeaderOk (b : List Byte) : Prop :=
  u16 b 4 ≤ 480 ∧ bit (u16 b 6) 0 = false ∧ bit (u16 b 6) 2 = false ∧ bit (u16 b 6) 3 = false ∧ u16 b 6 / 256 = 0

theorem badFlag_iff (flags : Nat) : (bit flags 0 || bit flags 2 || bit flags 3 || flags / 256 != 0) = true ↔
    ¬(bit flags 0 = false ∧ bit flags 2 = false ∧ bit flags 3 = false ∧ flags / 256 = 0) := by
  simp only [Bool.or_eq_true, bne_iff_ne, ne_eq, not_and_or, Bool.not_eq_false, or_assoc]

/-- A request with a good header goes on to step 3. -/
theorem HeaderOk.pass {b : List Byte} {badLength badFlag rest : Node} (h : HeaderOk b) :
    (if 480 < u16 b 4 then badLength
      else if bit (u16 b 6) 0 || bit (u16 b 6) 2 || bit (u16 b 6) 3 || u16 b 6 / 256 != 0 then badFlag else rest) = rest := by
  obtain ⟨hlen, hflags⟩ := h
  exact (if_neg (Nat.not_lt.mpr hlen)).trans (if_neg fun hbad => (badFlag_iff _).mp hbad hflags)

/-- The node that has taken the request `b` in mailbox `m` and now judges it: the mailbox executes outside any session, in the role of
its path (R62, R73). -/
def Node.taking (n : Node) (m : Nat) (b : List Byte) : Node :=
  let n := n.updHost (fun h => { h with taken := h.taken + 1 })
  n.setMbx m { n.mbx m with
    st := .executing, req := some (u16 b 0, u16 b 2, u16 b 6, slice b 16 (min (u16 b 4) 480)), session := 0, role := n.pathRole (m / 16),
    takenNo := n.host.taken, takenAt := n.now, begun := false, deferred := none }

/-- Steps 7 and 8 of R58 on a command that runs with `role`. -/
def Node.judgeCode (n : Node) (m code role : Nat) : Node :=
  match cmdRoles.find? (fun e => e.1 == code) with
  | none => n.answer m Rs.cmdUnknown 0 []
  | some (_, need) => if need < 4 && decide (role < need) then n.answer m Rs.roleDenied 0 [] else n

theorem Node.judgeCode_unknown (n : Node) (m code role : Nat) (h : ∀ e ∈ cmdRoles, e.1 ≠ code) :
    n.judgeCode m code role = n.answer m Rs.cmdUnknown 0 [] := by
  have hnone : cmdRoles.find? (fun e => e.1 == code) = none := List.find?_eq_none.mpr fun e he => by simpa using h e he
  rw [Node.judgeCode, hnone]

theorem Node.judgeCode_denied (n : Node) (m code role need : Nat) (h : cmdRoles.find? (fun e => e.1 == code) = some (code, need))
    (hneed : need < 4) (hrole : role < need) : n.judgeCode m code role = n.answer m Rs.roleDenied 0 [] := by
  rw [Node.judgeCode, h]
  exact if_pos (by simp [hneed, hrole])

/-- Outside a session, on the host SPI or the service path, a request with a good header that is no repeat comes to steps 7 and 8 in the
role of its path. -/
theorem Node.judgeRequest_outside_session {n : Node} {m : Nat} {b : List Byte} (hb : n.read (mbxAddr m) 512 = b) (hhead : HeaderOk b)
    (hpath : 16 ≤ m) (hauth : bit (u16 b 6) 1 = false)
    (hrep : ¬((n.mbx m).again = true ∧ (n.mbx m).lastReq = some (u16 b 0, u16 b 2, slice b 16 (min (u16 b 4) 480)))) :
    n.judgeRequest m = (n.taking m b).judgeCode m (u16 b 0) (n.pathRole (m / 16)) := by
  subst hb
  refine hhead.pass.trans ((if_neg ?line).trans ((if_pos ?noSession).trans (if_neg ?again)))
  case line => simp [hpath]
  case noSession => simp [hauth]
  case again =>
    intro h
    obtain ⟨hagain, hlast⟩ := Bool.and_eq_true_iff.mp h
    exact hrep ⟨hagain, beq_iff_eq.mp hlast⟩

/-- Settles O50: each clause ends at the check it names, and the checks before it pass. -/
theorem requestsAreJudgedInOrder : Obligations.RequestsAreJudgedInOrder := by
  unfold Obligations.RequestsAreJudgedInOrder
  intro n m b n1 k flagsOk repeated
  have hb : n.read (mbxAddr m) 512 = b := rfl
  and_intros
  · -- step 1: the length
    exact fun hlen => if_pos hlen
  · -- step 2: the flags
    exact fun hlen hf => (if_neg (Nat.not_lt.mpr hlen)).trans (if_pos ((badFlag_iff _).mpr fun h => hf ⟨hlen, h⟩))
  · -- step 3: no session on the line
    intro hhead hline hauth hcode
    exact (HeaderOk.pass hhead).trans (if_pos (by simp [hb, hline, hauth, hcode]))
  · -- step 7: a code outside the table
    intro hhead hpath hauth hrep hcode
    exact (Node.judgeRequest_outside_session hb hhead hpath hauth hrep).trans (Node.judgeCode_unknown _ _ _ _ hcode)
  · -- step 8: a role below the minimum
    intro need hhead hpath hauth hrep hfind hneed hrole
    exact (Node.judgeRequest_outside_session hb hhead hpath hauth hrep).trans (Node.judgeCode_denied _ _ _ _ _ hfind hneed hrole)
  · -- step 4: a session that is not open
    intro hhead hauth hsess
    refine (HeaderOk.pass hhead).trans ((if_neg (by simp [hb, hauth])).trans ((if_neg (by simp [hb, hauth])).trans ?_))
    split
    · rfl
    · next y hy => exact nomatch hy.symm.trans hsess

/-! ### The length of a payload (R58 step 9, R78) -/

/-- A payload of another length fails the check of its length, whatever checks follow. -/
theorem firstBad_badLen {pl : List Byte} {k : Nat} (h : pl.length ≠ k) (cs : List (Bool × Nat × Nat)) :
    firstBad (badLen pl k :: cs) = some (Rs.lengthBad, 0) :=
  if_pos (bne_iff_ne.mpr h)

/-- A host command refuses every payload whose length is not `k`: it answers LENGTH_BAD and has no other effect. -/
def RefusesOtherLengths (c : Nat → Nat → Instr) (code k : Nat) : Prop :=
  ∀ (s : State) (path idx : Nat) (pl : List Byte), Serves s.node code path idx pl → pl.length ≠ k →
    Done (c path idx) s ((s.node.begun path idx).answer (path * 16 + idx) Rs.lengthBad 0 [])

/-- A host command whose first check is that of its length refuses every other length. -/
theorem refusesOtherLengths_of_checked {c : Nat → Nat → Instr} {code k : Nat} {f : Node → Nat → List Byte → Node}
    (hc : ∀ s path idx, Done (c path idx) s (s.node.hostCmd code path idx f))
    (hf : ∀ n m pl, ∃ cs g, f n m pl = n.checked m (badLen pl k :: cs) g) : RefusesOtherLengths c code k := by
  intro s path idx pl hs hlen
  obtain ⟨cs, g, h⟩ := hf (s.node.begun path idx) (path * 16 + idx) pl
  exact (hc s path idx).of_hostCmd hs (h.trans (Node.checked_fail _ _ _ _ _ _ (firstBad_badLen hlen cs)))

/-- Settles O45: each command of the list checks its length first. -/
theorem wrongLengthIsRefused : Obligations.WrongLengthIsRefused := by
  unfold Obligations.WrongLengthIsRefused
  intro s path idx pl
  refine fun e he hs hlen => (?rows : ∀ e ∈ _, RefusesOtherLengths e.1 e.2.1 e.2.2) e he s path idx pl hs hlen
  simp only [List.forall_mem_append, List.forall_mem_cons, List.not_mem_nil, false_implies, implies_true, and_true]
  and_intros
  all_goals exact refusesOtherLengths_of_checked (fun _ _ _ => rfl) (fun _ _ _ => ⟨_, _, rfl⟩)

end Sys2Proof.Machine
end

section
/-! PROOFS. Host transports (R59 to R76): each completion is the branch of the meaning that its hypotheses select. -/

namespace Sys2Proof.Machine

/-- A wake line touches no island and no supply, so that the same islands run. -/
@[simp] theorem Node.runs_raise (n : Node) (k i : Nat) : (n.raise k).runs i = n.runs i := by
  unfold Node.raise
  split <;> rfl

/-- Settles O5, clause by clause in the order of the statement. -/
theorem hostTransportsComplete : Obligations.HostTransportsComplete := by
  unfold Obligations.HostTransportsComplete
  and_intros
  · -- SPI_WRITE_FRAME to the registers
    intro s frame hon hheld hop hk1 hk2 hlen hcrc hreg
    exact .of_eq rfl ((if_neg (by simp [hon])).trans ((if_neg (ne_true_of_eq_false hheld)).trans ((if_neg (by omega)).trans
      ((if_neg (not_not.mpr hcrc)).trans (if_pos hreg)))))
  · -- SPI_WRITE_FRAME to the aperture
    intro s frame hon hheld hop hk1 hk2 hlen hcrc hreg hap
    exact .of_eq rfl ((if_neg (by simp [hon])).trans ((if_neg (ne_true_of_eq_false hheld)).trans ((if_neg (by omega)).trans
      ((if_neg (not_not.mpr hcrc)).trans ((if_neg (ne_true_of_eq_false hreg)).trans (if_pos hap))))))
  · -- SPI_READ_FRAME of the registers
    intro s frame hon hheld hop hk1 hk2 hlen hreg
    exact .of_eq rfl ((if_neg (by simp [hon])).trans ((if_neg (ne_true_of_eq_false hheld)).trans ((if_neg (by omega)).trans
      (if_pos hreg))))
  · -- SPI_READ_FRAME of the aperture
    intro s frame hon hheld hop hk1 hk2 hlen hreg hap r hr
    exact .of_eq rfl ((if_neg (by simp [hon])).trans ((if_neg (ne_true_of_eq_false hheld)).trans ((if_neg (by omega)).trans
      ((if_neg (ne_true_of_eq_false hreg)).trans ((if_pos hap).trans (if_neg (ne_true_of_eq_false hr)))))))
  · -- HS_DOORBELL
    exact fun s svc v hon hsvc => .of_eq rfl (if_pos ⟨hon, hsvc.imp_right (by simp [·])⟩)
  · -- HS_DONE
    exact fun s svc v hon hsvc => .of_eq rfl (if_pos ⟨hon, hsvc.imp_right (by simp [·])⟩)
  · -- HS_REGISTER_WRITE
    intro s svc off v hon hsvc h8 h10
    exact .of_eq rfl ((if_neg (by simp [h8, h10])).trans (if_pos ⟨hon, hsvc.imp_right (by simp [·])⟩))
  · -- SVC_READ
    intro s frame ⟨base, size, isl, wr⟩ hoff ht0 hgood harr hop hk1 hk2 hal hup r hr
    refine .of_eq rfl ((if_neg (by simp [hoff, ht0])).trans ((if_neg (by simp [hgood])).trans ?_))
    rw [hop] at hup
    simp only [harr, hop]
    exact (if_neg (by omega)).trans ((if_neg (ne_true_of_eq_false hup)).trans (if_neg (ne_true_of_eq_false hr)))
  · -- SVC_WRITE
    intro s frame ⟨base, size, isl, wr⟩ hoff ht0 hgood harr hop hk1 hk2 hal hup hwr n n'
    refine .of_eq rfl ((if_neg (by simp [hoff, ht0])).trans ((if_neg (by simp [hgood])).trans ?_))
    rw [hop] at hup
    obtain rfl : wr = true := hwr
    simp only [harr, hop]
    exact (if_neg (by simp only [ne_eq, not_true, Bool.not_true, Bool.false_eq_true, false_or]; omega)).trans (if_neg (ne_true_of_eq_false hup))
  · -- MAILBOX_FRAME
    intro s src frame hrun hbank hlen hposted hexec hfits len n n'
    have hraise : (if s.node.runs Isl.line then s.node.raise 2 else s.node) = s.node.raise 2 := if_pos hrun
    refine .of_eq rfl ?_
    simp only [hraise]
    exact (if_neg (by simpa [hrun, hbank] using hlen)).trans (if_neg (by simp [hposted, hexec, hfits]))
  · -- MAILBOX_TAKE
    intro s p m h8 hboot hcores hnext n r
    have hserve : s.node.coresServe = true := by simp [Node.coresServe, hcores]
    have hrun : (!n.coresRun) = false := congrArg not hcores
    refine .of_eq rfl ((if_neg (Nat.not_le.mpr h8)).trans ((if_neg hboot).trans ((if_pos hserve).trans ?_)))
    simp only [hnext]
    refine (if_neg (ne_true_of_eq_false hrun)).trans ?_
    split
    · next n' hpost =>
      have hr : r = (true, n') := hpost
      rw [hr, if_pos rfl]
    · next n' hpost =>
      have hr : r = (false, n') := hpost
      rw [hr, if_neg Bool.false_ne_true]
  · -- SESSION_HALF_OPEN_TIMEOUT
    intro s id x hlook hhalf
    refine .of_eq rfl ?_
    simp only [hlook]
    exact if_pos hhalf
  · -- SESSION_IDLE_TIMEOUT
    intro s id x hlook hhalf hend
    refine .of_eq rfl ?_
    simp only [hlook]
    exact if_neg (by simp [hhalf, hend])

end Sys2Proof.Machine
end

section
/-! PROOFS. Node commands (R81, R477, R485, R499, R500) and session and host key commands (R75, R76, R82, R463): each completion is the
branch of the meaning that its hypotheses select. -/

namespace Sys2Proof.Machine

/-- One more check that passes, after all the others. -/
theorem Passes.snoc {cs : List (Bool × Nat × Nat)} (h : Passes cs) {b : Bool} (hb : b = false) (st d : Nat) :
    Passes (cs ++ [(b, st, d)]) := by
  induction cs with
  | nil => exact if_neg (ne_true_of_eq_false hb)
  | cons c t ih =>
    obtain ⟨bad, s, e⟩ := c
    cases bad with
    | true => exact absurd h (by simp [firstBad])
    | false => exact ih h

/-- A configuring command goes on where the configuration partition takes writes (R496). -/
theorem Node.needCfg_pass {n : Node} (h : n.cfgRo = false) (m code : Nat) (k : Node) : n.needCfg m code k = k :=
  if_neg (ne_true_of_eq_false h)

/-- Settles O6, clause by clause in the order of the statement. -/
theorem nodeCommandsComplete : Obligations.NodeCommandsComplete := by
  unfold Obligations.NodeCommandsComplete
  and_intros
  · -- NODE_IDENT
    exact fun s path idx pl hs hp => .of_hostCmd rfl hs (Node.checked_pass _ _ _ _ hp)
  · -- NODE_STATUS
    exact fun s path idx pl hs hp => .of_hostCmd rfl hs (Node.checked_pass _ _ _ _ hp)
  · -- CONFIG_READ
    intro s path idx pl img hs hp himg
    refine .of_hostCmd rfl hs ((Node.checked_pass _ _ _ _ (hp.snoc ?found Rs.busy 0)).trans ?answer)
    case found => rw [himg]; rfl
    case answer => rw [himg]; rfl
  · -- CONFIG_WRITE, data of the image
    intro s path idx pl hs hp hop hrw hoff
    exact .of_hostCmd rfl hs ((Node.checked_pass _ _ _ _ hp).trans ((Node.needCfg_pass hrw _ _ _).trans ((if_pos hop).trans
      (Node.checked_pass _ _ _ _ hoff))))
  · -- CONFIG_WRITE, the commit
    intro s path idx pl hs hp hop hrw hgood
    exact .of_hostCmd rfl hs ((Node.checked_pass _ _ _ _ hp).trans ((Node.needCfg_pass hrw _ _ _).trans ((if_neg hop).trans
      (Node.checked_pass _ _ _ _ hgood))))
  · -- NODE_RESET of the Core island, answered after the restart
    exact fun s path idx pl hs hp hc => .of_hostCmd rfl hs ((Node.checked_pass _ _ _ _ hp).trans (if_pos hc))
  · -- NODE_RESET of the device, answered at acceptance
    exact fun s path idx pl hs hp hc => .of_hostCmd rfl hs ((Node.checked_pass _ _ _ _ hp).trans (if_neg (by simp [hc])))
  · -- NODE_RESET_STANDSTILL with every axis at rest
    exact fun s late hr hm => .of_eq rfl ((if_pos ⟨hr, by simp [hm]⟩).trans (by simp [hm]))
  · -- NODE_RESET_STANDSTILL after 30 s
    exact fun s late hr hm hl => .of_eq rfl ((if_pos ⟨hr, by simp [hl]⟩).trans (by simp [hm]))
  · -- HEALTH_READ
    exact fun s path idx pl hs hp => .of_hostCmd rfl hs (Node.checked_pass _ _ _ _ hp)

/-- Settles O18, clause by clause in the order of the statement. -/
theorem sessionCommandsComplete : Obligations.SessionCommandsComplete := by
  unfold Obligations.SessionCommandsComplete
  and_intros
  · -- SESSION_HELLO
    intro s path idx pl e i r pub hs hp hsec hkey n
    refine .of_hostCmd rfl hs ((Node.checked_pass _ _ _ _ hp).trans ((if_neg (ne_true_of_eq_false hsec)).trans ?_))
    rw [hkey] <;> rfl
  · -- SESSION_CONFIRM
    intro s path idx pl x hs hp hlook hhalf hpath hsA id n n'
    have hopen : (if x.halfOpen && x.path == mbxPath (path * 16 + idx) then some x else none) = some x := by simp [hhalf, hpath]
    refine .of_hostCmd rfl hs ((Node.checked_pass _ _ _ _ (hp.snoc ?found Rs.sessionUnknown 0)).trans ?answer)
    case found => simp only [hlook, hopen, Option.isNone_some]
    case answer =>
      simp only [hlook, hopen, Option.getD_some]
      exact if_neg (not_not.mpr hsA)
  · -- SESSION_CLOSE
    exact fun s path idx pl hs hp hid => .of_hostCmd rfl hs (Node.checked_pass _ _ _ _ (hp.snoc (by simpa using hid) Rs.noSession 0))
  · -- CERT_READ
    exact fun s path idx pl hs hp => .of_hostCmd rfl hs (Node.checked_pass _ _ _ _ hp)
  · -- HOSTKEY_ADD
    exact fun s path idx pl hs hp hrw => .of_hostCmd rfl hs ((Node.checked_pass _ _ _ _ hp).trans (Node.needCfg_pass hrw _ _ _))
  · -- HOSTKEY_REMOVE
    exact fun s path idx pl hs hp hrw => .of_hostCmd rfl hs ((Node.checked_pass _ _ _ _ hp).trans (Node.needCfg_pass hrw _ _ _))

end Sys2Proof.Machine
end

section
/-! PROOFS. Channel commands (R83 to R98, R102) and channel events (R92 to R105, R274): each completion is the branch of the meaning that
its hypotheses select. -/

namespace Sys2Proof.Machine

/-- Settles O7, clause by clause in the order of the statement. -/
theorem channelCommandsComplete : Obligations.ChannelCommandsComplete := by
  unfold Obligations.ChannelCommandsComplete
  and_intros
  · -- CHAN_READ
    exact fun s path idx pl hs hp => .of_hostCmd rfl hs (Node.checked_pass _ _ _ _ hp)
  · -- CHAN_WRITE at once
    exact fun s path idx pl hs hp hnow => .of_hostCmd rfl hs ((Node.checked_pass _ _ _ _ hp).trans (if_pos hnow))
  · -- CHAN_WRITE at a later instant
    exact fun s path idx pl hs hp hlater => .of_hostCmd rfl hs ((Node.checked_pass _ _ _ _ hp).trans (if_neg hlater))
  · -- STALL_READ
    exact fun s path idx pl hs hp => .of_hostCmd rfl hs (Node.checked_pass _ _ _ _ hp)
  · -- STALL_WRITE
    exact fun s path idx pl hs hp hrw => .of_hostCmd rfl hs ((Node.checked_pass _ _ _ _ hp).trans (Node.needCfg_pass hrw _ _ _))
  · -- CHAN_START of a channel whose configuration is valid
    intro s path idx pl hs hp hvalid
    refine .of_hostCmd rfl hs ((Node.checked_pass _ _ _ _ hp).trans ?_)
    split
    · next d n hstart => rw [hstart] at hvalid; contradiction
    · next n hstart => rw [hstart]
  · -- CHAN_STOP of an active channel, answered when its stop behaviour is done
    exact fun s path idx pl hs hp ha => .of_hostCmd rfl hs ((Node.checked_pass _ _ _ _ hp).trans (if_pos ha))
  · -- CHAN_STOP of a channel that is not active
    exact fun s path idx pl hs hp ha => .of_hostCmd rfl hs ((Node.checked_pass _ _ _ _ hp).trans (if_neg (ne_true_of_eq_false ha)))
  · -- CHAN_SPARE, a spare is designated
    intro s path idx pl hs hp hj hfree hrw
    have hlt : u16 pl 2 < 1024 := hj
    exact .of_hostCmd rfl hs ((Node.checked_pass _ _ _ _ hp).trans ((if_neg (by omega)).trans ((if_neg (by omega)).trans
      ((Node.checked_pass _ _ _ _ hfree).trans (Node.needCfg_pass hrw _ _ _)))))
  · -- CHAN_SPARE, the designation is removed
    exact fun s path idx pl hs hp hj hpaired hrw => .of_hostCmd rfl hs ((Node.checked_pass _ _ _ _ hp).trans ((if_pos hj).trans
      ((Node.checked_pass _ _ _ _ hpaired).trans (Node.needCfg_pass hrw _ _ _))))
  · -- CHAN_SPARE, the channel moves to its spare
    intro s path idx pl hs hp hj hspare hrw
    exact .of_hostCmd rfl hs ((Node.checked_pass _ _ _ _ hp).trans ((if_neg (by omega)).trans ((if_pos hj).trans
      ((Node.checked_pass _ _ _ _ hspare).trans (Node.needCfg_pass hrw _ _ _)))))

/-- Settles O20, clause by clause in the order of the statement. -/
theorem channelEventsComplete : Obligations.ChannelEventsComplete := by
  unfold Obligations.ChannelEventsComplete
  and_intros
  · -- CHAN_TRANSIENT_FAULT
    exact fun s k cause hf hlift hgate => .of_eq rfl (if_pos (by simp [hf, hlift, hgate]))
  · -- CHAN_PERMANENT_FAULT
    exact fun s k cause hf => .of_eq rfl (if_pos hf)
  · -- CHAN_RETRY
    exact fun s k ok => rfl
  · -- FAULT_WINDOW_EXPIRE
    intro s k t hlast w n
    refine .of_eq rfl ?_
    simp only [hlast]
    rfl
  · -- HOLD_CAUSE_BEGIN
    intro s k cause c hc hl
    refine .of_eq rfl ?_
    simp only [hc]
    exact if_pos hl
  · -- HOLD_CAUSE_END
    intro s k cause c hc hl hother
    have hslot : (c == .supply && ((s.node.stall k).kd == K.output || (s.node.stall k).kd == K.prot)) = false := by
      obtain hne | ⟨hout, hprot⟩ := hother
      · simp [hne]
      · simp [hout, hprot]
    refine .of_eq rfl ?_
    simp only [hc]
    exact if_neg (by simp [hl, hslot])
  · -- STOP_BEHAVIOUR_DONE
    exact fun s k hstop hreached => .of_eq rfl (if_pos (by simp [hstop, hreached]))
  · -- TIMED_WRITE_DUE
    intro s k v t hw n
    refine .of_eq rfl ?_
    simp only [hw]
    rfl
  · -- CACHE_MISS_FILL
    exact fun s k => rfl
  · -- TIMER_ZERO of a periodic TIMER
    intro s k z hz hmode st n per
    refine .of_eq rfl ?_
    simp only [hz]
    exact if_pos hmode
  · -- TIMER_ZERO of a one-shot TIMER
    intro s k z hz hmode
    refine .of_eq rfl ?_
    simp only [hz]
    exact if_neg hmode
  · -- LINEPOINT_STALE
    exact fun s k hkind hstale => .of_eq rfl (if_pos ⟨hkind, hstale⟩)

end Sys2Proof.Machine
end

section
/-! PROOFS. Recipe and task commands (R122 to R136), the step engine and the Thresher (R112 to R132), and the recipe actions (R113 to
R120): each completion is the branch of the meaning that its hypotheses select. -/

namespace Sys2Proof.Machine

/-! ### RECIPE_STOP by the state it finds (R122, R136) -/

/-- In mode 0 a running recipe ends at once; in mode 1 the stop waits until the present step is left. -/
theorem Node.stopInst_running {n : Node} {i : Nat} (h : (n.inst i).st = .running) (m mode : Nat) :
    n.stopInst i m mode = if mode = 0 then (n.endInst i true).ok m (stateResult .done)
      else n.updInst i (fun x => { x with stopPending := true, stopWaiters := x.stopWaiters ++ [m] }) := by
  simp only [Node.stopInst, h]

theorem Node.stopInst_armed {n : Node} {i : Nat} (h : (n.inst i).st = .armed) (m mode : Nat) :
    n.stopInst i m mode = (n.endInst i true).ok m (stateResult .done) := by
  simp only [Node.stopInst, h]

theorem Node.stopInst_done {n : Node} {i : Nat} (h : (n.inst i).st = .done) (m mode : Nat) :
    n.stopInst i m mode = n.ok m (stateResult .done) := by
  simp only [Node.stopInst, h]

/-- Settles O9, clause by clause in the order of the statement. -/
theorem recipeCommandsComplete : Obligations.RecipeCommandsComplete := by
  unfold Obligations.RecipeCommandsComplete
  and_intros
  · -- RECIPE_LOAD that empties the recipe
    intro s path idx pl base hs hbase hp hrw hfirst hempty
    subst hbase
    refine .of_hostCmd rfl hs ((Node.checked_pass _ _ _ _ hp).trans ((if_neg (ne_true_of_eq_false hrw)).trans
      ((if_neg ?placed).trans ?store)))
    case placed => simp [hfirst, hempty]
    case store => simp [hfirst, hempty]
  · -- RECIPE_LOAD, the first part
    intro s path idx pl base b hs hbase hp hrw hfirst hlen hb n
    subst hbase
    have hfree : (s.node.begun path idx).freeRun (u8 pl 0) (u16 pl 2) = some b := by simpa [hfirst] using hb
    refine .of_hostCmd rfl hs ((Node.checked_pass _ _ _ _ hp).trans ((if_neg (ne_true_of_eq_false hrw)).trans
      ((if_neg ?placed).trans ?store)))
    case placed => simp [hfirst, hfree]
    case store => simp [hfirst, hlen, hfree, n]
  · -- RECIPE_LOAD, a later part
    intro s path idx pl base hs hbase hp hrw hlater
    subst hbase
    refine .of_hostCmd rfl hs ((Node.checked_pass _ _ _ _ hp).trans ((if_neg (ne_true_of_eq_false hrw)).trans
      ((if_neg ?placed).trans ?store)))
    case placed => simp [hlater]
    case store => simp [hlater]
  · -- RECIPE_READ of the records of instances
    intro s path idx pl hs hp hinsts
    refine .of_hostCmd rfl hs ((Node.checked_pass _ _ _ _ hp).trans ?_)
    simp only [hinsts, decide_true, if_true]
  · -- RECIPE_READ of the steps of a recipe
    intro s path idx pl hs hp hsteps
    refine .of_hostCmd rfl hs ((Node.checked_pass _ _ _ _ hp).trans ?_)
    simp only [hsteps, decide_false, Bool.false_eq_true, if_false]
  · -- RECIPE_START
    intro s path idx pl i hs hi hp
    subst hi
    exact .of_hostCmd rfl hs (Node.checked_pass _ _ _ _ hp)
  · -- RECIPE_STOP of a running recipe, at once
    exact fun s path idx pl hs hp hrun hmode => .of_hostCmd rfl hs ((Node.checked_pass _ _ _ _ hp).trans
      ((if_neg (by simp [hrun])).trans ((Node.stopInst_running hrun _ _).trans (if_pos hmode))))
  · -- RECIPE_STOP of a running recipe, when it leaves its step
    exact fun s path idx pl hs hp hrun hmode => .of_hostCmd rfl hs ((Node.checked_pass _ _ _ _ hp).trans
      ((if_neg (by simp [hrun])).trans ((Node.stopInst_running hrun _ _).trans (if_neg hmode))))
  · -- RECIPE_STOP of a held recipe, which waits until the hold ends
    exact fun s path idx pl hs hp hheld => .of_hostCmd rfl hs ((Node.checked_pass _ _ _ _ hp).trans (if_pos hheld))
  · -- RECIPE_STOP of an armed recipe
    exact fun s path idx pl hs hp harmed => .of_hostCmd rfl hs ((Node.checked_pass _ _ _ _ hp).trans
      ((if_neg (by simp [harmed])).trans (Node.stopInst_armed harmed _ _)))
  · -- RECIPE_STOP of a recipe that is done
    exact fun s path idx pl hs hp hdone => .of_hostCmd rfl hs ((Node.checked_pass _ _ _ _ hp).trans
      ((if_neg (by simp [hdone])).trans (Node.stopInst_done hdone _ _)))
  · -- RECIPE_STOP_TIMEOUT, the stops that are due
    intro s i t hdue
    refine .of_eq rfl ?_
    simp only [hdue]
  · -- RECIPE_STOP_TIMEOUT with no stop that waits
    intro s i hnone
    refine .of_eq rfl ?_
    simp only [hnone]
    rfl
  · -- TASK_CANCEL
    intro s path idx pl hs hp hcancelled
    refine .of_hostCmd rfl hs ((Node.checked_pass _ _ _ _ hp).trans ?_)
    rw [← Prod.eta (Node.cancelTask _ _), hcancelled]
  · -- SCHED_CONFIG
    exact fun s path idx pl hs hp hrw => .of_hostCmd rfl hs ((Node.checked_pass _ _ _ _ hp).trans (Node.needCfg_pass hrw _ _ _))

/-! ### Issuing an action (R104, R118) -/

/-- What ACTION_ISSUE makes of the action recipe run `i` has reached for `t`: its island gets it where a lock is free and it is its
turn, with a PULSE the trailing edge too; otherwise it waits. -/
def Node.issueOrWait (n : Node) (i : Nat) (t : T64) : Node :=
  let x := n.inst i
  let r := n.actRec i
  if n.lockFree r.aStall ∧ n.lockTurn i t then
    let n := (n.setInst i { x with issued := true, lockWait := false }).issue
      { inst := i, step := x.step, stall := r.aStall, value := n.actOperand i r, at_ := t, act := r.act }
    if r.act = 0x06 then n.issueEdge i x.step r t else n
  else n.setInst i { x with late := true, lockWait := true }

theorem actionIssue_done {s : State} {i : Nat} {t : T64} {m : Node} (hact : (s.node.inst i).act = some t)
    (hrun : (s.node.inst i).st = .running) (hissued : (s.node.inst i).issued = false) (honce : (s.node.inst i).atOnce = false)
    (hseq : s.node.runs Isl.seq = true) (hcode : issuable (s.node.actRec i).act = true) (hfetch : Fetches s.node i)
    (hm : s.node.issueOrWait i t = m) : Done (.actionIssue i) s m := by
  refine .of_eq rfl ?_
  dsimp only
  split
  · next u hu =>
    obtain rfl : t = u := Option.some.inj (hact.symm.trans hu)
    exact (if_pos ⟨hrun, by simp [hissued], by simp [honce], hseq, hcode⟩).trans ((Node.withStep_fetches _ _ _ hfetch).trans hm)
  · next hnone => exact nomatch hact.symm.trans hnone

/-! ### An issued action takes effect (R118, R119, R122) -/

/-- The instant at which an issued action takes effect: T_act, or later when it got its lock later (R118). -/
def Issued.instant (e : Issued) : T64 := max e.at_ (e.lockAt.getD 0)

/-- The node an issued action acts on: line time has come up to its instant, the action is off the list, and its lock has gone to the
actions that wait for one. -/
def Node.takeIssued (n : Node) (e : Issued) : Node :=
  let u : Node := ({ n.upTo e.instant with rcp := { n.rcp with issued := n.rcp.issued.erase e } } : Node).unlock e.stall
  { (u.lockQueued u.rcp.issued).1 with rcp := { (u.lockQueued u.rcp.issued).1.rcp with issued := (u.lockQueued u.rcp.issued).2 } }

/-- What an issued action does to its axis or its stall (R113, R114). -/
def Node.actIssued (n : Node) (e : Issued) : Node :=
  if e.act = 0x11 then
    match n.recipeMove e.stall (toSigned 64 e.value.toNat) with
    | (some st, n) => n.log Ev.recipeActionRefused e.inst e.step st
    | (none, n) => n
  else match n.stallAction e.act e.stall e.value with
    | (true, some v) => n.engineWrite e.stall (if e.edge then 0 else v) e.instant
    | (true, none) => n
    | (false, _) => n.log Ev.recipeActionRefused e.inst e.step Rs.chanInvalid

/-- The recipe whose step issued the action goes on, if it still stands at that step (R122). -/
def Node.leaveIssued (n : Node) (e : Issued) : Node :=
  let x := n.inst e.inst
  if !e.edge ∧ (x.st = .running ∨ x.st = .held) ∧ x.issued ∧ x.step = e.step ∧ x.act = some e.at_
  then n.enterStep e.inst (n.afterStep e.inst) e.at_
  else n

/-- The three stages of an issued action. -/
theorem Node.applyIssued_eq (n : Node) (e : Issued) : n.applyIssued e = ((n.takeIssued e).actIssued e).leaveIssued e := rfl

theorem Node.actIssued_write {n : Node} {e : Issued} {v : W64} (hact : e.act ≠ 0x11)
    (hv : n.stallAction e.act e.stall e.value = (true, some v)) :
    n.actIssued e = n.engineWrite e.stall (if e.edge then 0 else v) e.instant :=
  (if_neg hact).trans (by simp only [hv])

theorem Node.actIssued_noValue {n : Node} {e : Issued} (hact : e.act ≠ 0x11)
    (hv : n.stallAction e.act e.stall e.value = (true, none)) : n.actIssued e = n :=
  (if_neg hact).trans (by simp only [hv])

theorem Node.actIssued_move {n : Node} {e : Issued} (hact : e.act = 0x11)
    (hm : (n.recipeMove e.stall (toSigned 64 e.value.toNat)).1 = none) :
    n.actIssued e = (n.recipeMove e.stall (toSigned 64 e.value.toNat)).2 := by
  refine (if_pos hact).trans ?_
  rw [← Prod.eta (n.recipeMove _ _), hm]

/-- TIMED_ACTION_APPLY carries out the first action that an island holds. -/
theorem timedActionApply_done {s : State} {e : Issued} {m : Node} (he : s.node.rcp.firstIssued = some e)
    (hm : (s.node.takeIssued e).actIssued e = m) : Done .timedActionApply s (m.leaveIssued e) := by
  refine .of_eq rfl ?_
  simp only [he]
  exact (Node.applyIssued_eq _ _).trans (congrArg (fun m : Node => m.leaveIssued e) hm)

/-! ### Dispatch (R131) -/

/-- Nothing keeps core `core` from taking a task: the cores run, this one is not out of use, and it serves none. -/
theorem Node.dispatch_ready {n : Node} {core : Nat} (hcores : n.coresRun = true) (hin : n.rcp.coresOut.contains core = false)
    (hidle : n.rcp.tasks.any (fun e => e.2.st == .inService core) = false) :
    ¬(!n.coresRun ∨ n.rcp.coresOut.contains core ∨ n.rcp.tasks.any (fun e => e.2.st == .inService core)) :=
  not_or.mpr ⟨by simp [hcores], not_or.mpr ⟨ne_true_of_eq_false hin, ne_true_of_eq_false hidle⟩⟩

/-- Settles O21, clause by clause in the order of the statement. -/
theorem stepEngineEventsComplete : Obligations.StepEngineEventsComplete := by
  unfold Obligations.StepEngineEventsComplete
  and_intros
  · -- CONDITION_EVAL, the condition holds
    exact fun s i hrun hact hseq htime hcond hfetch => .of_eq rfl ((if_pos ⟨hrun, hact, hseq, by simp [htime]⟩).trans
      ((Node.withStep_fetches _ _ _ hfetch).trans (if_pos hcond)))
  · -- CONDITION_EVAL of a test whose condition does not hold
    exact fun s i hrun hact hseq htime hcond htest hfetch => .of_eq rfl ((if_pos ⟨hrun, hact, hseq, by simp [htime]⟩).trans
      ((Node.withStep_fetches _ _ _ hfetch).trans ((if_neg (ne_true_of_eq_false hcond)).trans (if_pos htest))))
  · -- STEP_TIMEOUT, the condition does not hold
    exact fun s i hrun hact hseq htime hcond hfetch => .of_eq rfl ((if_pos ⟨hrun, hact, hseq, htime⟩).trans
      ((Node.withStep_fetches _ _ _ hfetch).trans (if_neg (ne_true_of_eq_false hcond))))
  · -- STEP_TIMEOUT, the condition holds at the last evaluation
    exact fun s i hrun hact hseq htime hcond hfetch => .of_eq rfl ((if_pos ⟨hrun, hact, hseq, htime⟩).trans
      ((Node.withStep_fetches _ _ _ hfetch).trans (if_pos hcond)))
  · -- ACTION_ISSUE
    exact fun s i t hact hrun hissued honce hseq hcode hfetch hlock hlevel =>
      actionIssue_done hact hrun hissued honce hseq hcode hfetch ((if_pos hlock).trans (if_neg hlevel))
  · -- ACTION_ISSUE of a PULSE
    exact fun s i t hact hrun hissued honce hseq hcode hfetch hlock hpulse =>
      actionIssue_done hact hrun hissued honce hseq hcode hfetch ((if_pos hlock).trans (if_pos hpulse))
  · -- ACTION_ISSUE that waits for a lock
    exact fun s i t hact hrun hissued honce hseq hcode hfetch hlock =>
      actionIssue_done hact hrun hissued honce hseq hcode hfetch (if_neg hlock)
  · -- TIMED_ACTION_APPLY, the action writes its stall
    exact fun s e v he hact hv => timedActionApply_done he (Node.actIssued_write hact hv)
  · -- TIMED_ACTION_APPLY, the action has no value to write
    exact fun s e he hact hv => timedActionApply_done he (Node.actIssued_noValue hact hv)
  · -- TIMED_ACTION_APPLY, the action moves its axis
    exact fun s e he hact hm => timedActionApply_done he (Node.actIssued_move hact hm)
  · -- INSTANCE_EPOCH
    exact fun s i harmed hseq => .of_eq rfl (if_pos ⟨harmed, hseq⟩)
  · -- TASK_RELEASE
    exact fun s => rfl
  · -- TASK_DISPATCH of a task that has run, or of CREATE
    intro s core slot t hcores hin hidle hslot hran n
    refine .of_eq rfl ((if_neg (Node.dispatch_ready hcores hin hidle)).trans ?_)
    simp only [hslot]
    exact if_pos hran
  · -- TASK_DISPATCH of a task whose handler runs
    intro s core slot t hcores hin hidle hslot hcreate hran n r
    refine .of_eq rfl ((if_neg (Node.dispatch_ready hcores hin hidle)).trans ?_)
    simp only [hslot]
    exact if_neg (by simp [hcreate, hran])
  · -- TASK_COMPLETE
    intro s core slot t hcores hslot hran n
    refine .of_eq rfl ((if_neg (by simp [hcores])).trans ?_)
    simp only [hslot]
    exact if_neg (by simp [hran])

/-! ### Recipe actions (R113 to R120) -/

/-- An action that has been reached completes with its own effect, after which the recipe goes on to the step it names. -/
theorem Done.of_carryOut {c : Instr} {s : State} {i code : Nat} {t : T64} {f : Node → Step → T64 → Node × Nat} {m : Node}
    (hd : Done c s (s.node.carryOut i code f)) (h : Acts s.node i code t)
    (hf : (f (s.node.acting i t) (s.node.actRec i) t).1.goOn i (f (s.node.acting i t) (s.node.actRec i) t).2 t = m) : Done c s m :=
  hd.of_eq ((Node.carryOut_acts _ _ _ _ _ h).trans hf)

/-- Settles O22, clause by clause in the order of the statement: an action's own effect is the clause, but for START_RECIPE, whose
hypotheses pass its refusals, and RECIPE_AXIS_MOVE, whose move may be refused. -/
theorem recipeActionsComplete : Obligations.RecipeActionsComplete := by
  unfold Obligations.RecipeActionsComplete
  and_intros
  · -- END
    exact fun s i t h => .of_carryOut rfl h rfl
  · -- NOP
    exact fun s i t h => .of_carryOut rfl h rfl
  · -- SET
    exact fun s i t h => .of_carryOut rfl h rfl
  · -- ADD
    exact fun s i t h => .of_carryOut rfl h rfl
  · -- TOGGLE
    exact fun s i t h => .of_carryOut rfl h rfl
  · -- COPY
    exact fun s i t h => .of_carryOut rfl h rfl
  · -- REG_STORE
    exact fun s i t h => .of_carryOut rfl h rfl
  · -- PULSE
    exact fun s i t h => .of_carryOut rfl h rfl
  · -- REG_SET
    exact fun s i t h => .of_carryOut rfl h rfl
  · -- REG_ADD
    exact fun s i t h => .of_carryOut rfl h rfl
  · -- REG_LOAD
    exact fun s i t h => .of_carryOut rfl h rfl
  · -- JUMP
    exact fun s i t h => .of_carryOut rfl h rfl
  · -- DJNZ
    exact fun s i t h => .of_carryOut rfl h rfl
  · -- SIGNAL
    exact fun s i t h => .of_carryOut rfl h rfl
  · -- UNSIGNAL
    exact fun s i t h => .of_carryOut rfl h rfl
  · -- START_RECIPE
    intro s i t j h hlen hended hj hvalid r n
    refine .of_carryOut rfl h (congrArg (fun m : Node => m.goOn i (n.afterStep i) t)
      ((if_neg hlen).trans ((if_neg ?ended).trans ?start)))
    case ended =>
      rintro ⟨hnamed, hbusy⟩
      obtain hany | hfree := hended
      · exact hnamed hany
      · exact ne_true_of_eq_false (congrArg not hfree) hbusy
    case start =>
      simp only [hj]
      exact if_neg (ne_true_of_eq_false hvalid)
  · -- STOP_RECIPE
    exact fun s i t h => .of_carryOut rfl h rfl
  · -- RECIPE_AXIS_MOVE
    intro s i t h r n p
    refine .of_carryOut rfl h (congrArg (fun m : Node => m.goOn i (n.afterStep i) t) ?_)
    change (match p with | (some st, n) => n.refuseAction i st | (none, n) => n) = _
    obtain ⟨_ | st, m⟩ := p <;> rfl
  · -- CANCEL_TASK
    exact fun s i t h => .of_carryOut rfl h rfl
  · -- RECIPE_CHAN_START
    exact fun s i t k h hk => .of_eq rfl (Node.postAction_posts _ _ _ _ _ _ _ _ h hk)
  · -- RECIPE_CHAN_STOP
    exact fun s i t k h hk => .of_eq rfl (Node.postAction_posts _ _ _ _ _ _ _ _ h hk)
  · -- POST_TASK
    exact fun s i t k h hk => .of_eq rfl (Node.postAction_posts _ _ _ _ _ _ _ _ h hk)
  · -- RECIPE_NODE_WRITE
    exact fun s i t k h hk => .of_eq rfl (Node.postAction_posts _ _ _ _ _ _ _ _ h hk)
  · -- HARVEST_MARK
    exact fun s i t k h hk => .of_eq rfl (Node.postAction_posts _ _ _ _ _ _ _ _ h hk)

end Sys2Proof.Machine
end

section
/-! PROOFS. Loop updates and the rest value of a loop (R140, R141), and the events of inputs and outputs (R156 to R166): each completion is
the branch of the meaning that its hypotheses select. -/

namespace Sys2Proof.Machine

/-! ### The rest value of a loop (R141) -/

/-- The range lies above 0: its lower end is the nearest. -/
theorem Stall.restValue_of_pos {st : Stall} (hlo : b32.lt 0 (st.pf 24 4) = true) : st.restValue = st.pf 24 4 := if_pos hlo

/-- The range lies below 0: its upper end is the nearest. -/
theorem Stall.restValue_of_neg {st : Stall} (hlo : b32.lt 0 (st.pf 24 4) = false) (hhi : b32.lt (st.pf 28 4) 0 = true) :
    st.restValue = st.pf 28 4 :=
  (if_neg (ne_true_of_eq_false hlo)).trans (if_pos hhi)

/-- The range holds 0. -/
theorem Stall.restValue_of_zero_mem {st : Stall} (hlo : b32.lt 0 (st.pf 24 4) = false) (hhi : b32.lt (st.pf 28 4) 0 = false) :
    st.restValue = 0 :=
  (if_neg (ne_true_of_eq_false hlo)).trans (if_neg (ne_true_of_eq_false hhi))

/-- A loop that rests writes its rest value to its sink, as an engine writes. -/
theorem Node.restSink_eq (n : Node) (k : Nat) :
    n.restSink k = n.engineWrite ((n.stall k).pf 10 2) ((n.stall ((n.stall k).pf 10 2)).fromF32 (n.stall k).restValue) n.now := rfl

/-- Settles O53, by where the output range lies. -/
theorem loopRestsNearestToZero : Obligations.LoopRestsNearestToZero := by
  unfold Obligations.LoopRestsNearestToZero
  refine fun n k => ⟨?_, n.restSink_eq k⟩
  split
  · next hlo => exact Stall.restValue_of_pos hlo
  · next hlo =>
    split
    · next hhi => exact Stall.restValue_of_neg (eq_false_of_ne_true hlo) hhi
    · next hhi => exact Stall.restValue_of_zero_mem (eq_false_of_ne_true hlo) (eq_false_of_ne_true hhi)

/-! ### The events of loops, inputs and outputs -/

/-- WIRE_BREAK_MEASURE judges the current of an active input whose wire-break supervision is on, while its island runs and the field
supply is not latched off (R156). -/
theorem Node.wireBreak_judged {n : Node} {k : Nat} (hkind : (n.stall k).kd = K.input) (hon : (n.stall k).pf 9 1 = 1)
    (hactive : (n.stall k).active = true) (hio : n.runs Isl.io = true) (hpowered : n.latchedOff = false) :
    (n.stall k).kd = K.input ∧ (n.stall k).pf 9 1 = 1 ∧ (n.stall k).active ∧ n.runs Isl.io ∧ !n.latchedOff :=
  ⟨hkind, hon, hactive, hio, by simp [hpowered]⟩

/-- Settles O23, clause by clause in the order of the statement. -/
theorem loopInputAndOutputEventsComplete : Obligations.LoopInputAndOutputEventsComplete := by
  unfold Obligations.LoopInputAndOutputEventsComplete
  and_intros
  · -- LOOP_UPDATE of a loop that still runs when the writes due before it have been applied
    exact fun s k drops hruns hstill => .of_eq rfl ((if_pos hruns).trans (if_pos hstill))
  · -- INPUT_FILTERED_CHANGE that the channel takes
    exact fun s i level first hcounts hrunning hfresh => .of_eq rfl ((if_neg hcounts).trans ((if_pos hrunning).trans (if_pos hfresh)))
  · -- INPUT_FILTERED_CHANGE to the value the channel has
    exact fun s i level first hcounts hrunning hsame => .of_eq rfl ((if_neg hcounts).trans ((if_pos hrunning).trans (if_neg hsame)))
  · -- WIRE_BREAK_MEASURE, the tenth low measurement in a row
    intro s i microAmp hkind hon hactive hio hpowered hlow hfield m
    exact .of_eq rfl ((if_pos (Node.wireBreak_judged hkind hon hactive hio hpowered)).trans
      (if_pos ⟨hlow, by simp [hfield]⟩))
  · -- WIRE_BREAK_MEASURE, the tenth high measurement in a row
    intro s i microAmp hkind hon hactive hio hpowered hlow hhigh hfield m
    exact .of_eq rfl ((if_pos (Node.wireBreak_judged hkind hon hactive hio hpowered)).trans
      ((if_neg fun h => hlow h.1).trans (if_pos ⟨hhigh, hfield⟩)))
  · -- WIRE_BREAK_MEASURE that leaves the field fault as it is
    intro s i microAmp hkind hon hactive hio hpowered hlow hhigh m
    refine .of_eq rfl ((if_pos (Node.wireBreak_judged hkind hon hactive hio hpowered)).trans ((if_neg ?broken).trans (if_neg ?whole)))
    case broken =>
      rintro ⟨hten, hclear⟩
      exact hlow.elim (fun hne => hne hten) (fun hset => by simp [hset] at hclear)
    case whole =>
      rintro ⟨hten, hset⟩
      exact hhigh.elim (fun hne => hne hten) (fun hclear => ne_true_of_eq_false hclear hset)
  · -- COMPARATOR_DISAGREE
    exact fun s i hkind => .of_eq rfl (if_pos hkind)
  · -- OUTPUT_CURRENT_LIMIT
    exact fun s o => rfl
  · -- GROUP_THERMAL_SHUTDOWN
    exact fun s group hot highest => rfl
  · -- THERMAL_RESTART_TEMP
    exact fun s sensor => rfl
  · -- OUTPUT_READBACK_FAULT of a switch that is commanded off
    exact fun s o hoff => .of_eq rfl (if_neg hoff)
  · -- PO_THERMAL_SHUTDOWN
    exact fun s p => rfl
  · -- OUTPUT_OPEN_LOAD that changes the field fault
    exact fun s p isOpen milliAmp hchanges => .of_eq rfl (if_pos hchanges)
  · -- PWM_BOUNDARY
    intro s o hpwm hio m
    exact .of_eq rfl (if_pos ⟨hpwm, hio⟩)

end Sys2Proof.Machine
end

section
/-! PROOFS. The commands IO_WATCHDOG and ADC_SEQUENCE (R169, R170, R187, R188) and the events of the I/O watchdog and the field supply
(R169 to R172): each completion is the branch of the meaning that its hypotheses select. -/

namespace Sys2Proof.Machine

/-- Settles O8, clause by clause in the order of the statement. -/
theorem ioAndAnalogCommandsComplete : Obligations.IoAndAnalogCommandsComplete := by
  unfold Obligations.IoAndAnalogCommandsComplete
  and_intros
  · -- IO_WATCHDOG, op 0 configures
    intro s path idx pl hs hp hop hrw
    exact .of_hostCmd rfl hs ((Node.checked_pass _ _ _ _ hp).trans ((if_pos (decide_eq_true hop)).trans (Node.needCfg_pass hrw _ _ _)))
  · -- IO_WATCHDOG, op 1 feeds
    intro s path idx pl hs hp hop
    exact .of_hostCmd rfl hs ((Node.checked_pass _ _ _ _ hp).trans ((if_neg (by simp [hop])).trans (if_pos hop)))
  · -- IO_WATCHDOG, op 2 re-arms
    intro s path idx pl hs hp hop
    exact .of_hostCmd rfl hs ((Node.checked_pass _ _ _ _ hp).trans ((if_neg (by simp [hop])).trans ((if_neg (by simp [hop])).trans
      (if_pos hop))))
  · -- IO_WATCHDOG, op 3 reads
    intro s path idx pl hs hp hop
    exact .of_hostCmd rfl hs ((Node.checked_pass _ _ _ _ hp).trans ((if_neg (by simp [hop])).trans ((if_neg (by simp [hop])).trans
      (if_neg (by simp [hop])))))
  · -- ADC_SEQUENCE
    intro s path idx pl l hs hl hp hrw
    subst hl
    exact .of_hostCmd rfl hs ((Node.checked_pass _ _ _ _ hp).trans (Node.needCfg_pass hrw _ _ _))

/-- Settles O24, clause by clause in the order of the statement. -/
theorem watchdogAndSupplyEventsComplete : Obligations.WatchdogAndSupplyEventsComplete := by
  unfold Obligations.WatchdogAndSupplyEventsComplete
  and_intros
  · -- FIRMWARE_WATCHDOG_FEED
    exact fun s hsource hcores hup => .of_eq rfl (if_pos ⟨hsource, hcores, by simp [hup]⟩)
  · -- IO_WATCHDOG_EXPIRED
    exact fun s harmed => .of_eq rfl (if_pos harmed)
  · -- IO_WATCHDOG_RESUME
    exact fun s hsuspended => .of_eq rfl (if_pos hsuspended)
  · -- FIELD_SUPPLY_WARN
    exact fun s mV hclear => .of_eq rfl (if_neg (ne_true_of_eq_false hclear))
  · -- FIELD_SUPPLY_WARN_CLEAR
    exact fun s mV hwarn => .of_eq rfl (if_pos hwarn)
  · -- FIELD_SUPPLY_OFF between t2 and t5 of power-up, which takes VAUX off alone
    exact fun s mV hvaux => .of_eq rfl (if_pos hvaux)
  · -- FIELD_SUPPLY_OFF while the supply rises, which starts the wait again
    intro s mV hvaux hpowered hrising
    refine .of_eq rfl ((if_neg hvaux).trans ((if_neg hpowered).trans ?_))
    simp only [hrising]
  · -- FIELD_SUPPLY_OFF of a supply that is on, which latches it off
    intro s mV hvaux hpowered hon
    refine .of_eq rfl ((if_neg hvaux).trans ((if_neg hpowered).trans ?_))
    simp only [hon]
  · -- FIELD_SUPPLY_RISE
    exact fun s hlatched => .of_eq rfl (if_pos hlatched)
  · -- FIELD_SUPPLY_LATCH_CLEAR from t5 of power-up on, which starts the restoring
    exact fun s mV hrising hvaux => .of_eq rfl ((if_pos hrising).trans (if_neg hvaux))
  · -- FIELD_SUPPLY_LATCH_CLEAR between t2 and t5, which brings VAUX on alone
    exact fun s mV hrising hvaux => .of_eq rfl ((if_pos hrising).trans (if_pos hvaux))
  · -- OUTPUT_RESTORE_SLOT of the last output, which logs
    exact fun s o hrestoring hlast => .of_eq rfl ((if_pos hrestoring).trans (if_pos hlast))
  · -- OUTPUT_RESTORE_SLOT of an earlier output
    exact fun s o hrestoring hearlier => .of_eq rfl ((if_pos hrestoring).trans (if_neg hearlier))
  · -- INPUT_RESUME
    exact fun s hrestoring => .of_eq rfl (if_pos hrestoring)

end Sys2Proof.Machine
end

section
/-! PROOFS. The events of the converters: frames (R184, R186, R192), slot results and their rings (R185, R190, R191), the self-check
(R186, R192) and the list that takes force (R188). Each completion is the branch of the meaning that its hypotheses select. -/

namespace Sys2Proof.Machine

/-- Settles O25, clause by clause in the order of the statement. -/
theorem converterEventsComplete : Obligations.ConverterEventsComplete := by
  unfold Obligations.ConverterEventsComplete
  and_intros
  · -- ADC_FRAME that starts a frame
    exact fun s hawake hruns hfits => .of_eq rfl ((if_neg hawake).trans ((if_neg hruns).trans (if_neg hfits)))
  · -- ADC_FRAME dropped because the I/O island or the Sequencer does not run
    exact fun s hawake hstopped => .of_eq rfl ((if_neg hawake).trans (if_pos hstopped))
  · -- ADC_FRAME dropped because the self-check pushes its last slot past the next boundary
    exact fun s hawake hruns hlong => .of_eq rfl ((if_neg hawake).trans ((if_neg hruns).trans (if_pos hlong)))
  · -- ADC_SELF_CHECK
    exact fun s conv agndV refV hio => .of_eq rfl (if_pos hio)
  · -- ADC_SLOT_RESULT that reaches its stall alone
    intro s slot nV nK nA sl hslot htaken hstallOnly
    refine .of_eq rfl ?_
    simp only [hslot]
    exact (if_neg htaken).trans (if_neg hstallOnly)
  · -- ADC_SLOT_RESULT that also reaches its ring
    intro s slot nV nK nA sl hslot htaken hring
    refine .of_eq rfl ?_
    simp only [hslot]
    exact (if_neg htaken).trans (if_pos hring)
  · -- ADC_LIST_APPLY
    intro s l t hpending
    refine .of_eq rfl ?_
    simp only [hpending]

end Sys2Proof.Machine
end

section
/-! PROOFS. Position feedback: the decoding of A and B in both modes (R196, R197), the events of encoders, latches, compares, SSI frames
and position stalls (R196 to R211), and the commands POS_COMPARE, POS_LATCH and DRIVE_CONFIG (R206 to R212, R254, R255). -/

namespace Sys2Proof.Machine

/-! ### ENCODER_STEP by the step it decodes (R196 to R198) -/

/-- The node with an accepted sample as the previous one of interface `i`. -/
abbrev Node.sampled (n : Node) (i : Nat) (a b : Bool) : Node := n.setEnc i { n.enc i with a := a, b := b }

/-- A sample leaves alone whether the interface counts. -/
theorem Node.encRuns_sampled (n : Node) (i : Nat) (a b : Bool) : (n.sampled i a b).encRuns i = n.encRuns i := by
  rw [Node.encRuns, Node.enc_setEnc]
  rfl

/-- What an interface that counts makes of a decoded step: nothing, a count, or an illegal transition where there is none. -/
def Node.takeStep (n : Node) (i : Nat) (t : T64) : Option Int → Node
  | none => n.illegalStep i
  | some d => if d = 0 then n else n.countStep i d t

theorem Node.takeStep_count (n : Node) (i : Nat) (t : T64) {d : Int} (hd : d ≠ 0) :
    n.takeStep i t (some d) = n.countStep i d t := if_neg hd

/-- ENCODER_STEP of an interface that counts, in a mode that decodes A and B. -/
theorem encoderStep_done {s : State} {i : Nat} {a b : Bool} {t : T64} {mode : Nat} {step : Option Int}
    (hruns : s.node.encRuns i = true) (hmode : (s.node.encSet i).pf 8 1 = mode) (hdecodes : mode ≠ 2)
    (hstep : decodeStep mode ((s.node.encSet i).pf 9 1 == 1) (s.node.enc i).a (s.node.enc i).b a b = step) :
    Done (.encoderStep i a b t) s ((s.node.sampled i a b).takeStep i t step) := by
  subst hmode
  refine .of_eq rfl ((if_pos ⟨(s.node.encRuns_sampled i a b).trans hruns, hdecodes⟩).trans ?_)
  rw [hstep]
  cases step <;> rfl

/-! ### The step tables -/

/-- The table of R196 before invert: the previous levels of A and B, those of the sample, and the step, or none for an illegal
transition. -/
def quadratureTable : List (Bool × Bool × Bool × Bool × Option Int) :=
  [(false, false, false, false, some 0), (false, false, true, false, some 1), (false, false, true, true, none), (false, false, false, true, some (-1))] ++
  [(true, false, false, false, some (-1)), (true, false, true, false, some 0), (true, false, true, true, some 1), (true, false, false, true, none)] ++
  [(true, true, false, false, none), (true, true, true, false, some (-1)), (true, true, true, true, some 0), (true, true, false, true, some 1)] ++
  [(false, true, false, false, some 1), (false, true, true, false, none), (false, true, true, true, some (-1)), (false, true, false, true, some 0)]

/-- Mode 0 decodes every row of the table of R196, with the sign changed by invert. -/
theorem decodeStep_quadrature (invert : Bool) : ∀ r ∈ quadratureTable,
    decodeStep 0 invert r.1 r.2.1 r.2.2.1 r.2.2.2.1 = r.2.2.2.2.map (fun z => if invert then -z else z) := by
  cases invert <;> decide

/-- Mode 1: a sample without a rising edge of A is no step. -/
theorem decodeStep_pulse_noEdge (invert : Bool) {pa a : Bool} (hedge : ¬(pa = false ∧ a = true)) (pb b : Bool) :
    decodeStep 1 invert pa pb a b = some 0 := by
  have hno : (!pa && a) = false := by simpa using hedge
  simp [decodeStep, hno]

/-- Mode 1: a rising edge of A with which B changes is illegal. -/
theorem decodeStep_pulse_illegal (invert : Bool) {pb b : Bool} (hb : b ≠ pb) : decodeStep 1 invert false pb true b = none := by
  simp [decodeStep, hb.symm]

/-- Mode 1: a rising edge of A steps in the direction B gives, with the sign changed by invert. -/
theorem decodeStep_pulse_edge (invert b : Bool) :
    decodeStep 1 invert false b true b = some (if invert then (if b then -1 else 1) else if b then 1 else -1) := by
  cases invert <;> cases b <;> rfl

/-- Settles O46: the step is the row's, with its sign changed by invert, which makes no step of 0 into one. -/
theorem quadratureSteps : Obligations.QuadratureSteps := by
  unfold Obligations.QuadratureSteps
  intro s i a b t hruns hmode d hrow
  have hdone := encoderStep_done (t := t) hruns hmode (by decide) (decodeStep_quadrature _ _ hrow)
  simp only [beq_iff_eq] at hdone
  cases d with
  | none => exact hdone
  | some z =>
    refine hdone.of_eq ?_
    by_cases hz : z = 0
    · simp [hz, Node.takeStep]
    · have hsigned : (if (s.node.encSet i).pf 9 1 = 1 then -z else z) ≠ 0 := by split <;> omega
      exact (Node.takeStep_count _ _ _ hsigned).trans (if_neg hz).symm

/-- Settles O47: the edges of A and B decide the step, and a rising edge of A steps by one count. -/
theorem pulseDirectionSteps : Obligations.PulseDirectionSteps := by
  unfold Obligations.PulseDirectionSteps
  intro s i a b t hruns hmode
  have hdone {step : Option Int}
      (hstep : decodeStep 1 ((s.node.encSet i).pf 9 1 == 1) (s.node.enc i).a (s.node.enc i).b a b = step) :
      Done (.encoderStep i a b t) s ((s.node.sampled i a b).takeStep i t step) :=
    encoderStep_done hruns hmode (by decide) hstep
  and_intros
  · -- no rising edge of A
    exact fun hedge => hdone (decodeStep_pulse_noEdge _ hedge _ _)
  · -- a rising edge of A with which B changes
    rintro hlow rfl hb
    rw [hlow] at hdone
    exact hdone (decodeStep_pulse_illegal _ hb)
  · -- a rising edge of A alone
    rintro hlow rfl hb
    rw [hlow, ← hb] at hdone
    have hcount := hdone (decodeStep_pulse_edge _ b)
    simp only [beq_iff_eq] at hcount
    exact hcount.of_eq (Node.takeStep_count _ _ _ (by split <;> split <;> decide))

/-! ### Events and commands -/

/-- Settles O26, clause by clause in the order of the statement. -/
theorem positionEventsComplete : Obligations.PositionEventsComplete := by
  unfold Obligations.PositionEventsComplete
  and_intros
  · -- ENCODER_STEP that counts
    intro s i a b t d hruns hmode hstep hd
    exact (encoderStep_done ((s.node.encRuns_sampled i a b).symm.trans hruns) rfl hmode hstep).of_eq (Node.takeStep_count _ _ _ hd)
  · -- ENCODER_STEP of an illegal transition
    intro s i a b t hruns hmode hstep
    exact encoderStep_done ((s.node.encRuns_sampled i a b).symm.trans hruns) rfl hmode hstep
  · -- ENCODER_STEP of a sample that is no step
    intro s i a b t hruns hmode hstep
    exact encoderStep_done ((s.node.encRuns_sampled i a b).symm.trans hruns) rfl hmode hstep
  · -- ENCODER_Z_EDGE
    exact fun s i rising t hmode hmotion => .of_eq rfl (if_neg (by simp [hmode, hmotion]))
  · -- LATCH_INPUT_EDGE
    exact fun s input rising hmotion => .of_eq rfl (if_pos hmotion)
  · -- LATCH_INSTANT
    exact fun s i l t hsource harmed hmotion => .of_eq rfl (if_pos ⟨hsource, harmed, hmotion⟩)
  · -- COMPARE_PULSE_END
    intro s o t hpulse
    refine .of_eq rfl ?_
    simp only [hpulse]
  · -- SSI_FRAME_START
    exact fun s i aHigh hready => .of_eq rfl (if_pos hready)
  · -- SSI_FRAME_END with a good word
    intro s i word aHigh t okAtStart hframe hcounts hgood
    refine .of_eq rfl ?_
    simp only [hframe]
    exact (if_neg hcounts).trans (if_neg hgood)
  · -- SSI_FRAME_END of a frame in which A was wrong at its start or its end
    intro s i word aHigh t okAtStart hframe hcounts hbad
    refine .of_eq rfl ?_
    simp only [hframe]
    exact (if_neg hcounts).trans (if_pos hbad)
  · -- POSITION_REBASE
    exact fun s hup hcore => .of_eq rfl (if_neg (by simp [hup, hcore]))
  · -- POSITION_STALL_WRITE
    exact fun s i hruns hwrites => .of_eq rfl ((if_pos hruns).trans (if_pos hwrites))
  · -- ENCODER_STANDSTILL
    exact fun s i hmoves hmode => .of_eq rfl (if_neg (by simp [hmoves, hmode]))

/-- Settles O11, clause by clause in the order of the statement. -/
theorem positionAndDriveCommandsComplete : Obligations.PositionAndDriveCommandsComplete := by
  unfold Obligations.PositionAndDriveCommandsComplete
  and_intros
  · -- POS_COMPARE, op 0 arms
    exact fun s path idx pl hs hp hop => .of_hostCmd rfl hs ((Node.checked_pass _ _ _ _ hp).trans (if_pos (decide_eq_true hop)))
  · -- POS_COMPARE, op 1 disarms
    exact fun s path idx pl hs hp hop => .of_hostCmd rfl hs ((Node.checked_pass _ _ _ _ hp).trans
      ((if_neg (by simp [hop])).trans (if_pos hop)))
  · -- POS_COMPARE, op 2 reads
    exact fun s path idx pl hs hp hop => .of_hostCmd rfl hs ((Node.checked_pass _ _ _ _ hp).trans
      ((if_neg (by simp [hop])).trans (if_neg (by simp [hop]))))
  · -- POS_LATCH, op 0 arms
    exact fun s path idx pl hs hp hop => .of_hostCmd rfl hs ((Node.checked_pass _ _ _ _ hp).trans (if_pos (decide_eq_true hop)))
  · -- POS_LATCH, op 1 disarms
    exact fun s path idx pl hs hp hop => .of_hostCmd rfl hs ((Node.checked_pass _ _ _ _ hp).trans
      ((if_neg (by simp [hop])).trans (if_pos hop)))
  · -- POS_LATCH, op 2 reads
    exact fun s path idx pl hs hp hop => .of_hostCmd rfl hs ((Node.checked_pass _ _ _ _ hp).trans
      ((if_neg (by simp [hop])).trans (if_neg (by simp [hop]))))
  · -- DRIVE_CONFIG, op 0 sets the chopper and the currents
    exact fun s path idx pl hs hp hop hset hrw => .of_hostCmd rfl hs ((Node.checked_pass _ _ _ _ hp).trans ((if_pos hop).trans
      ((Node.checked_pass _ _ _ _ hset).trans (Node.needCfg_pass hrw _ _ _))))
  · -- DRIVE_CONFIG, op 1 stages entries of a table
    intro s path idx pl hs hp hop hspan hentries
    refine .of_hostCmd rfl hs ((Node.checked_pass _ _ _ _ hp).trans ((if_neg (by simp [hop])).trans ((if_pos hop).trans
      ((Node.checked_pass _ _ _ _ hspan).trans ?_))))
    rw [hentries]
  · -- DRIVE_CONFIG, op 2 commits the staged table
    intro s path idx pl hs hp hop hready hrw
    refine .of_hostCmd rfl hs ((Node.checked_pass _ _ _ _ hp).trans ?_)
    rw [hop]
    exact (Node.checked_pass _ _ _ _ hready).trans (Node.needCfg_pass hrw _ _ _)
  · -- DRIVE_CONFIG, op 3 reads the settings
    intro s path idx pl hs hp hop
    refine .of_hostCmd rfl hs ((Node.checked_pass _ _ _ _ hp).trans ?_)
    rw [hop]
    rfl
  · -- DRIVE_CONFIG, op 4 reads entries of the active table
    intro s path idx pl hs hp hop hspan
    refine .of_hostCmd rfl hs ((Node.checked_pass _ _ _ _ hp).trans ?_)
    rw [hop]
    exact Node.checked_pass _ _ _ _ hspan
  · -- DRIVE_CONFIG, op 5 restores the default table
    intro s path idx pl hs hp hop hrest hrw
    have hstill : Passes [(!(((s.node.begun path idx).axis (u8 pl 0)).st == .disabled
        || ((s.node.begun path idx).axis (u8 pl 0)).st == .standstill), Rs.axisMoving, 0)] :=
      if_neg (by simpa [or_iff_not_imp_left] using hrest)
    refine .of_hostCmd rfl hs ((Node.checked_pass _ _ _ _ hp).trans ?_)
    rw [hop]
    exact (Node.checked_pass _ _ _ _ hstill).trans (Node.needCfg_pass hrw _ _ _)

end Sys2Proof.Machine
end


section
/-! PROOFS. Motion and drive commands (R217, R222 to R227, R230 to R233, R241) and the events of the planner, the axes, the chopper and the
coils (R219, R223, R233 to R236, R247, R251 to R253): each completion is the branch of the meaning that its hypotheses select. -/

namespace Sys2Proof.Machine

/-! ### Commands -/

/-- The check of a velocity step (R233): one above the limit is refused unless SYNC is set. -/
theorem not_above_of_sync_or_le {step limit : Rat} {sync : Bool} (h : sync = true ∨ step ≤ limit) :
    (decide (limit < step) && !sync) = false := by
  obtain rfl | hle := h
  · exact Bool.and_false _
  · rw [decide_eq_false (not_lt.mpr hle), Bool.false_and]

/-- Settles O10, clause by clause in the order of the statement. -/
theorem motionCommandsComplete : Obligations.MotionCommandsComplete := by
  unfold Obligations.MotionCommandsComplete
  and_intros
  · -- AXIS_MOVE at the next tick
    exact fun s path idx pl hs hp hnow => .of_hostCmd rfl hs ((Node.checked_pass _ _ _ _ hp).trans (if_pos hnow))
  · -- AXIS_MOVE at a stated instant
    exact fun s path idx pl hs hp hlater => .of_hostCmd rfl hs ((Node.checked_pass _ _ _ _ hp).trans (if_neg hlater))
  · -- AXIS_STOP at the next tick
    exact fun s path idx pl hs hp hnow => .of_hostCmd rfl hs ((Node.checked_pass _ _ _ _ hp).trans (if_pos hnow))
  · -- AXIS_STOP at a stated instant
    exact fun s path idx pl hs hp hlater => .of_hostCmd rfl hs ((Node.checked_pass _ _ _ _ hp).trans (if_neg hlater))
  · -- AXIS_CONFIG, op 0 configures the axis
    exact fun s path idx pl hs hp hop hset hrw => .of_hostCmd rfl hs ((Node.checked_pass _ _ _ _ hp).trans ((if_pos hop).trans
      ((Node.checked_pass _ _ _ _ hset).trans (Node.needCfg_pass hrw _ _ _))))
  · -- AXIS_CONFIG, op 1 sets the position
    exact fun s path idx pl hs hp hop hrest => .of_hostCmd rfl hs ((Node.checked_pass _ _ _ _ hp).trans ((if_neg (by simp [hop])).trans
      ((if_pos hop).trans (Node.checked_pass _ _ _ _ hrest))))
  · -- AXIS_CONFIG, op 2 reads the configuration
    intro s path idx pl hs hp hop hzero
    have hnoPos : Passes [badRange (u64 pl 88 != 0) 88] := if_neg (by simp [hzero])
    exact .of_hostCmd rfl hs ((Node.checked_pass _ _ _ _ hp).trans ((if_neg (by simp [hop])).trans ((if_neg (by simp [hop])).trans
      (Node.checked_pass _ _ _ _ hnoPos))))
  · -- AXIS_STATUS
    exact fun s path idx pl hs hp => .of_hostCmd rfl hs (Node.checked_pass _ _ _ _ hp)
  · -- SEGMENT_LOAD
    exact fun s path idx pl hs hp hrw => .of_hostCmd rfl hs ((Node.checked_pass _ _ _ _ hp).trans (if_neg (ne_true_of_eq_false hrw)))
  · -- GEAR_SET, op 0 engages an axis that is not geared
    intro s path idx pl hs hp hop hranges hfree hengage hstep
    refine .of_hostCmd rfl hs ((Node.checked_pass _ _ _ _ hp).trans ((if_pos hop).trans ((Node.checked_pass _ _ _ _ hranges).trans
      ((if_neg (ne_true_of_eq_false hfree)).trans (Node.checked_pass _ _ _ _ (hengage.snoc ?_ Rs.limitExceeded 0))))))
    exact not_above_of_sync_or_le hstep
  · -- GEAR_SET, op 0 schedules a change of ratio
    exact fun s path idx pl hs hp hop hranges hgeared hlater => .of_hostCmd rfl hs ((Node.checked_pass _ _ _ _ hp).trans
      ((if_pos hop).trans ((Node.checked_pass _ _ _ _ hranges).trans ((if_pos hgeared).trans (if_neg (ne_true_of_eq_false hlater))))))
  · -- GEAR_SET, op 0 changes the ratio at once
    intro s path idx pl hs hp hop hranges hgeared hnow hstep
    exact .of_hostCmd rfl hs ((Node.checked_pass _ _ _ _ hp).trans
      ((if_pos hop).trans ((Node.checked_pass _ _ _ _ hranges).trans ((if_pos hgeared).trans ((if_pos hnow).trans
        (Node.checked_pass _ _ _ _ (if_neg (ne_true_of_eq_false (not_above_of_sync_or_le hstep)))))))))
  · -- GEAR_SET, op 1 leaves the gear
    exact fun s path idx pl hs hp hop => .of_hostCmd rfl hs ((Node.checked_pass _ _ _ _ hp).trans ((if_neg (by simp [hop])).trans
      (if_pos hop)))
  · -- GEAR_SET, op 2 reads the gear
    exact fun s path idx pl hs hp hop => .of_hostCmd rfl hs ((Node.checked_pass _ _ _ _ hp).trans ((if_neg (by simp [hop])).trans
      (if_neg (by simp [hop]))))

/-! ### Events -/

/-- Settles O27, clause by clause in the order of the statement. -/
theorem motionAndDriveEventsComplete : Obligations.MotionAndDriveEventsComplete := by
  unfold Obligations.MotionAndDriveEventsComplete
  and_intros
  · -- PLANNER_TICK
    exact fun s hmotion => .of_eq rfl (if_pos hmotion)
  · -- TIMED_MOTION_DUE
    intro s a e rest hfirst
    refine .of_eq rfl ?_
    cases e <;> simp only [hfirst]
  · -- FOLLOWING_ERROR
    exact fun s a hwindow hticks htime => .of_eq rfl (if_pos ⟨hwindow, hticks, htime⟩)
  · -- LIMIT_SWITCH
    exact fun s a positive hmoves => .of_eq rfl (if_pos hmoves)
  · -- GEAR_SYNC_TIMEOUT
    exact fun s a hsyncing => .of_eq rfl (if_pos hsyncing)
  · -- GEAR_MASTER_LOST
    exact fun s a hgeared hlost => .of_eq rfl (if_pos ⟨hgeared, hlost⟩)
  · -- CHOPPER_BLANK_END
    exact fun s a p hblank => .of_eq rfl (if_pos hblank)
  · -- CHOPPER_TRIP
    exact fun s a p code => rfl
  · -- CHOPPER_FORCED_OFF
    exact fun s a p peak hsampling => .of_eq rfl (if_pos hsampling)
  · -- CHOPPER_SLOW_DECAY
    exact fun s a p hfast => .of_eq rfl (if_pos hfast)
  · -- CHOPPER_OFF_END
    exact fun s a p hoff => .of_eq rfl (if_pos hoff)
  · -- BRIDGE_OVERCURRENT
    exact fun s a hseen => .of_eq rfl (if_pos hseen)
  · -- OPEN_PHASE
    exact fun s a p hchops hlow => .of_eq rfl (if_pos (by simp [hchops, hlow]))
  · -- COIL_IDLE_TIMEOUT with the current held
    exact fun s a hstands hrun hhold => .of_eq rfl ((if_pos ⟨hstands, hrun⟩).trans (if_pos hhold))
  · -- COIL_IDLE_TIMEOUT with the coils open
    intro s a hstands hrun hopen
    refine .of_eq rfl ((if_pos ⟨hstands, hrun⟩).trans ((if_neg (by simp [hopen])).trans ?_))
    simp only [if_pos hopen]
  · -- COIL_IDLE_TIMEOUT with the coils shorted
    intro s a hstands hrun hclosed hnotHold
    refine .of_eq rfl ((if_pos ⟨hstands, hrun⟩).trans ((if_neg hnotHold).trans ?_))
    simp only [if_neg hclosed]

end Sys2Proof.Machine
end

section
/-! PROOFS. The default table of phase amplitudes (R245): its length, its strict rise and the four entries the rule names. -/

namespace Sys2Proof.Machine

/-- In a rising list every entry is below its neighbour, as the comparison of the list with its own tail reads it. -/
theorem all_zip_drop_lt_of_isChain {l : List Nat} (h : l.IsChain (· < ·)) :
    (l.zip (l.drop 1)).all (fun e => decide (e.1 < e.2)) = true := by
  induction h with
  | nil => rfl
  | singleton => rfl
  | cons_cons hlt _ ih => simpa [hlt] using ih

/-- The table is the sum of eight rows of 32 entries. -/
theorem sineTable_length : sineTable.length = 256 := by
  simp only [sineTable, List.length_append]
  rfl

/-- Each row of the table rises, and each row starts above the end of the rows before it. -/
theorem sineTable_isChain_lt : sineTable.IsChain (· < ·) := by
  simp only [sineTable, List.isChain_append]
  and_intros
  all_goals decide

/-- Settles O56: the rise comes from the rows of the table, the four entries by evaluation. -/
theorem defaultSineTable : Obligations.DefaultSineTable :=
  ⟨sineTable_length, rfl, rfl, rfl, rfl, all_zip_drop_lt_of_isChain sineTable_isChain_lt⟩

end Sys2Proof.Machine
end

section
/-! PROOFS. What a step does with the queue (R290, log 4), and the frame of every command (95_what_each_step_holds.md). -/

namespace Sys2Proof.Machine

/-- Settles O41: no command touches the queue, and each reaches the parts of its footprint at most. -/
theorem commandsStayWithinTheirFootprint : Obligations.CommandsStayWithinTheirFootprint := by
  unfold Obligations.CommandsStayWithinTheirFootprint
  intro c s t h
  obtain ⟨hframe, _⟩ := exec_reach h
  exact ⟨exec_pending h, hframe⟩

/-- Settles O38: a step with a command in front is that command on the rest of the queue. -/
theorem stepRunsFront : Obligations.StepRunsFront := by
  unfold Obligations.StepRunsFront
  exact fun s c rest hp => step_of_pending_cons hp

/-- Settles O39: a step with an empty queue is the idle step, which adds 400 increments to line time. -/
theorem emptyQueueIdles : Obligations.EmptyQueueIdles := by
  unfold Obligations.EmptyQueueIdles
  intro s hp
  rw [step_of_pending_nil hp]
  rfl

end Sys2Proof.Machine
end

section
/-! PROOFS. Line and time commands (R277, R284, R285, R303, R304, R479): each completion is the branch of the meaning that its hypotheses
select. -/

namespace Sys2Proof.Machine

/-- Settles O12, clause by clause in the order of the statement. -/
theorem lineAndTimeCommandsComplete : Obligations.LineAndTimeCommandsComplete := by
  unfold Obligations.LineAndTimeCommandsComplete
  and_intros
  · -- LINE_STATUS
    exact fun s path idx pl hs hp => .of_hostCmd rfl hs (Node.checked_pass _ _ _ _ hp)
  · -- LINE_CONFIG, op 0 settings
    exact fun s path idx pl hs hp hop hset hrw => .of_hostCmd rfl hs ((Node.checked_pass _ _ _ _ hp).trans ((if_pos hop).trans
      ((Node.checked_pass _ _ _ _ hset).trans (Node.needCfg_pass hrw _ _ _))))
  · -- LINE_CONFIG, op 1 gate schedule
    exact fun s path idx pl hs hp hop hgates hrw => .of_hostCmd rfl hs ((Node.checked_pass _ _ _ _ hp).trans ((if_neg (by simp [hop])).trans
      ((if_pos hop).trans ((Node.checked_pass _ _ _ _ hgates).trans (Node.needCfg_pass hrw _ _ _)))))
  · -- LINE_CONFIG, op 2 disables a port
    intro s path idx pl hs hp hop hport hact
    refine .of_hostCmd rfl hs ((Node.checked_pass _ _ _ _ hp).trans ((if_neg (by simp [hop])).trans ((if_neg (by simp [hop])).trans
      ((Node.checked_pass _ _ _ _ hport).trans ?_))))
    exact congrArg (fun n : Node => n.ok (path * 16 + idx) []) (if_pos hact)
  · -- LINE_CONFIG, op 2 enables a port
    intro s path idx pl hs hp hop hport hact
    refine .of_hostCmd rfl hs ((Node.checked_pass _ _ _ _ hp).trans ((if_neg (by simp [hop])).trans ((if_neg (by simp [hop])).trans
      ((Node.checked_pass _ _ _ _ hport).trans ?_))))
    exact congrArg (fun n : Node => n.ok (path * 16 + idx) []) ((if_neg (by simp [hact])).trans (if_pos hact))
  · -- LINE_CONFIG, op 2 trains a port again
    intro s path idx pl hs hp hop hport hact
    refine .of_hostCmd rfl hs ((Node.checked_pass _ _ _ _ hp).trans ((if_neg (by simp [hop])).trans ((if_neg (by simp [hop])).trans
      ((Node.checked_pass _ _ _ _ hport).trans ?_))))
    exact congrArg (fun n : Node => n.ok (path * 16 + idx) []) ((if_neg (by simp [hact])).trans (if_neg (by simp [hact])))
  · -- TIME_STATUS
    exact fun s path idx pl hs hp => .of_hostCmd rfl hs (Node.checked_pass _ _ _ _ hp)
  · -- TIME_CONFIG
    exact fun s path idx pl hs hp hrw => .of_hostCmd rfl hs ((Node.checked_pass _ _ _ _ hp).trans (Node.needCfg_pass hrw _ _ _))
  · -- LEVEL_RAISE
    exact fun s path idx pl hs hp => .of_hostCmd rfl hs (Node.checked_pass _ _ _ _ hp)

end Sys2Proof.Machine
end

section
/-! PROOFS. The events of line ports (R259 to R263, R271, R281, R458): each completion is the branch of the meaning that its hypotheses
select. -/

namespace Sys2Proof.Machine

/-- Settles O28, clause by clause in the order of the statement. -/
theorem linkEventsComplete : Obligations.LinkEventsComplete := by
  unfold Obligations.LinkEventsComplete
  and_intros
  · -- PARTNER_SIGNAL
    exact fun s p adv bypasses hsees => .of_eq rfl (if_pos hsees)
  · -- TRAINING_RATE_TIMEOUT with a lower rate left
    exact fun s p htraining hlower => .of_eq rfl ((if_pos htraining).trans (if_pos hlower))
  · -- TRAINING_RATE_TIMEOUT that tries again over two bypasses
    exact fun s p htraining hlast hone => .of_eq rfl ((if_pos htraining).trans ((if_neg hlast).trans (if_pos hone)))
  · -- TRAINING_RATE_TIMEOUT that ends the training
    exact fun s p htraining hlast hmore => .of_eq rfl ((if_pos htraining).trans ((if_neg hlast).trans (if_neg hmore)))
  · -- LINK_UP
    exact fun s p length preempt lpi htraining => .of_eq rfl (if_pos htraining)
  · -- LINK_HELLO_TIMEOUT
    exact fun s p hwaits => .of_eq rfl (if_pos hwaits)
  · -- LINK_HELLO on a port that is UP
    exact fun s p address level serial htaken hlevel hup =>
      .of_eq rfl ((if_neg htaken).trans ((if_pos hlevel).trans (if_pos hup)))
  · -- LINK_HELLO that brings the port UP
    exact fun s p address level serial htaken hlevel hup =>
      .of_eq rfl ((if_neg htaken).trans ((if_pos hlevel).trans (if_neg hup)))
  · -- LINK_HELLO of a level out of reach, which the port refuses
    exact fun s p address level serial htaken hlevel hrefused =>
      .of_eq rfl ((if_neg htaken).trans ((if_neg hlevel).trans (if_neg hrefused)))
  · -- LINK_HELLO of a level out of reach, which the port has refused before
    exact fun s p address level serial htaken hlevel hrefused =>
      .of_eq rfl ((if_neg htaken).trans ((if_neg hlevel).trans (if_pos hrefused)))
  · -- LINK_LOST in training
    exact fun s p htraining => .of_eq rfl (if_pos htraining)
  · -- LINK_LOST after it
    exact fun s p htrained => .of_eq rfl (if_neg htrained)
  · -- PORT_SILENT
    exact fun s p hjudged => .of_eq rfl (if_pos hjudged)
  · -- RATE_RETRY
    exact fun s p hslow => .of_eq rfl (if_pos hslow)
  · -- TRAINING_FAIL_TIMEOUT
    intro s p t hfails
    refine .of_eq rfl ?_
    simp only [hfails]
  · -- FEC_BURST
    exact fun s p blocks hburst => .of_eq rfl (if_pos hburst)
  · -- LEAVE
    exact fun s p hup => .of_eq rfl (if_pos hup)
  · -- LPI_ENTER
    intro s p hp hrun hon hagreed hlinked hempty hentry hfar
    exact .of_eq rfl (if_pos ⟨hp, hrun, hon, hagreed, hlinked, hempty, hentry, by simpa using hfar⟩)
  · -- LPI_EXIT
    exact fun s p hqueued => .of_eq rfl (if_pos hqueued)

end Sys2Proof.Machine
end

section
/-! PROOFS. The events of the line as a whole (R267 to R280, R284): each completion is the branch of the meaning that its hypotheses
select. -/

namespace Sys2Proof.Machine

/-- Settles O29, clause by clause in the order of the statement. -/
theorem lineEventsComplete : Obligations.LineEventsComplete := by
  unfold Obligations.LineEventsComplete
  and_intros
  · -- LINE_CYCLE_BOUNDARY
    exact fun s t hdue => .of_eq rfl (if_pos hdue)
  · -- GATE_ENTRY_CHANGE
    exact fun s p t hdue => .of_eq rfl (if_pos hdue)
  · -- CYCLIC_SEND
    exact fun s hdue => .of_eq rfl (if_pos hdue)
  · -- KEREY_FRAME_FORWARD of a foreign frame
    exact fun s p mac level type flags dst src ttl seq payload hcrc fcs fec hruns hforeign hpasses =>
      .of_eq rfl ((if_neg hruns).trans ((if_pos hforeign).trans (if_pos hpasses)))
  · -- KEREY_FRAME_FORWARD of a frame with a bad header
    exact fun s p mac level type flags dst src ttl seq payload hcrc fcs fec hruns hknown hbad =>
      .of_eq rfl ((if_neg hruns).trans ((if_neg hknown).trans (if_pos hbad)))
  · -- KEREY_FRAME_FORWARD of a hello
    exact fun s p mac level type flags dst src ttl seq payload hcrc fcs fec hruns hknown hheader hhello hgood =>
      .of_eq rfl ((if_neg hruns).trans ((if_neg hknown).trans ((if_neg hheader).trans ((if_pos hhello).trans (if_pos hgood)))))
  · -- KEREY_FRAME_FORWARD of a level out of reach
    exact fun s p mac level type flags dst src ttl seq payload hcrc fcs fec hruns hknown hheader hother hlevel =>
      .of_eq rfl ((if_neg hruns).trans ((if_neg hknown).trans ((if_neg hheader).trans ((if_neg hother).trans (if_pos hlevel)))))
  · -- KEREY_FRAME_FORWARD of a frame whose check sequence is wrong
    exact fun s p mac level type flags dst src ttl seq payload hcrc fcs fec hruns hknown hheader hother hlevel hopen hwrong =>
      .of_eq rfl ((if_neg hruns).trans ((if_neg hknown).trans ((if_neg hheader).trans ((if_neg hother).trans ((if_neg hlevel).trans
        ((if_neg hopen).trans (if_pos hwrong)))))))
  · -- KEREY_FRAME_FORWARD of a good frame
    exact fun s p mac level type flags dst src ttl seq payload hcrc fcs fec hruns hknown hheader hother hlevel hopen hright hwhole =>
      .of_eq rfl ((if_neg hruns).trans ((if_neg hknown).trans ((if_neg hheader).trans ((if_neg hother).trans ((if_neg hlevel).trans
        ((if_neg hopen).trans ((if_neg hright).trans (if_neg hwhole))))))))
  · -- PLANT_FRAME_IN
    exact fun s mac level type flags dst src ttl seq payload hbridges => .of_eq rfl (if_pos hbridges)
  · -- PROXY_EXPIRE
    intro s address mac t hproxy
    refine .of_eq rfl ?_
    simp only [hproxy]
  · -- RING_BREAK
    exact fun s up down hring hrun => .of_eq rfl (if_pos ⟨hring, hrun⟩)
  · -- RING_CLOSED
    exact fun s up down hring hbroken hrun => .of_eq rfl (if_pos ⟨hring, hbroken, hrun⟩)
  · -- RING_ROUTE_RESTORE
    exact fun s hbroken hclosed => .of_eq rfl (if_pos ⟨hbroken, hclosed⟩)
  · -- TOPO_REPORT of a node that is no head
    rintro s serial address level ports neigh rates _ hhead hrun rfl
    exact .of_eq rfl ((if_pos ⟨hhead, hrun⟩).trans (if_pos hhead))
  · -- TOPO_REPORT of another head, to which this one yields
    rintro s serial address level ports neigh rates _ hhead hrun rfl hyields
    exact .of_eq rfl ((if_pos ⟨hhead, hrun⟩).trans (if_neg (ne_true_of_eq_false hyields)))
  · -- TOPO_MAP_SEND
    exact fun s hhead hdue hrun => .of_eq rfl (if_pos ⟨hhead, hdue, hrun⟩)
  · -- TOPO_MAP
    intro s src cycle cycleAt level raiseLevel raiseAt nodes hrun hyields
    exact .of_eq rfl ((if_neg (by simp [hrun])).trans (if_neg (ne_true_of_eq_false hyields)))
  · -- ADDR_REQUEST
    intro s serial a hhead hassigns hrun hfree
    refine .of_eq rfl ((if_pos ⟨hhead, hassigns, hrun⟩).trans ?_)
    simp only [hfree]
  · -- ADDR_ASSIGN of an address
    exact fun s serial address hown haddress htakes => .of_eq rfl ((if_pos hown).trans ((if_neg haddress).trans (if_pos htakes)))
  · -- ADDR_ASSIGN that suspends the node
    exact fun s serial address hown hconflict => .of_eq rfl ((if_pos hown).trans (if_pos hconflict))
  · -- CYCLIC
    exact fun s src t entries hheard => .of_eq rfl (if_neg hheard)
  · -- NODE_WRITE to a node that sleeps
    exact fun s src stall value t hheard hasleep => .of_eq rfl ((if_neg hheard).trans (if_pos hasleep))
  · -- NODE_WRITE that is refused
    intro s src stall value t code detail hheard hawake hrefused
    refine .of_eq rfl ((if_neg hheard).trans ((if_neg hawake).trans ?_))
    simp only [hrefused]
  · -- NODE_WRITE at once
    intro s src stall value t hheard hawake hpasses hnow
    refine .of_eq rfl ((if_neg hheard).trans ((if_neg hawake).trans ?_))
    simp only [hpasses]
    exact if_pos hnow
  · -- NODE_WRITE whose instant is past
    intro s src stall value t hheard hawake hpasses htimed hpast
    refine .of_eq rfl ((if_neg hheard).trans ((if_neg hawake).trans ?_))
    simp only [hpasses]
    exact (if_neg htimed).trans (if_pos hpast)
  · -- NODE_WRITE at a later instant
    intro s src stall value t hheard hawake hpasses htimed hahead
    refine .of_eq rfl ((if_neg hheard).trans ((if_neg hawake).trans ?_))
    simp only [hpasses]
    exact (if_neg htimed).trans (if_neg hahead)
  · -- LINE_CYCLE_APPLY
    intro s t hdue
    refine .of_eq rfl ?_
    dsimp only
    split
    · next u hu => cases hdue.symm.trans hu; rfl
    · next hnone => exact nomatch hdue.symm.trans hnone

end Sys2Proof.Machine
end

section
/-! PROOFS. The events of the clock and its ports (R293 to R303, R323): each completion is the branch of the meaning that its hypotheses
select. -/

namespace Sys2Proof.Machine

/-- Settles O30, clause by clause in the order of the statement. -/
theorem timeEventsComplete : Obligations.TimeEventsComplete := by
  unfold Obligations.TimeEventsComplete
  and_intros
  · -- SYNC
    exact fun s p raw hslave => .of_eq rfl (if_pos hslave)
  · -- FOLLOW_UP
    intro s p origin rateOffset raws stamp q hsync hslave
    refine .of_eq rfl ?_
    simp only [hsync]
    exact if_pos hslave
  · -- SYNC_LOST when LOCKED
    intro s hfollows hlocked
    refine .of_eq rfl ((if_neg hfollows).trans ?_)
    simp only [hlocked]
  · -- SYNC_LOST when ACQUIRING
    intro s hfollows hacquiring
    refine .of_eq rfl ((if_neg hfollows).trans ?_)
    simp only [hacquiring]
  · -- HOLDOVER_EXPIRED
    exact fun s hholdover => .of_eq rfl (if_pos hholdover)
  · -- SYNC_SEND
    exact fun s at_ hmaster hhead => .of_eq rfl ((if_pos hmaster).trans (if_pos hhead))
  · -- PDELAY_REQ_SEND
    exact fun s p hcarries => .of_eq rfl (if_pos hcarries)
  · -- PDELAY_REQ
    exact fun s p req raw => rfl
  · -- PDELAY_RESP
    exact fun s p raw1 t2 t3 raw4 hasked => .of_eq rfl (if_pos hasked)
  · -- ANNOUNCE
    exact fun s p gm steps utc hslave => .of_eq rfl (if_pos hslave)
  · -- REFERENCE_MESSAGE_DUE
    exact fun s started hperiod hrun => .of_eq rfl (if_neg (by simp [hperiod, hrun]))

end Sys2Proof.Machine
end

section
/-! PROOFS. Zone bus commands (R312 to R318, R326 to R329) and the events of the zone bus (R310 to R321): each completion is the branch of
the meaning that its hypotheses select. -/

namespace Sys2Proof.Machine

/-! ### Commands -/

/-- ZB_RECOVER with no payload starts RECOVERING from BUS_OFF alone, and answers the state it has reached (R329). -/
theorem zbRecover_done {s : State} {path idx : Nat} {pl : List Byte} (hs : Serves s.node Cmd.zbRecover path idx pl)
    (hp : Passes [badLen pl 0]) :
    let n := if (s.node.begun path idx).zb.st = .busOff then (s.node.begun path idx).zbSet .recovering else s.node.begun path idx
    DoneOk (.zbRecover path idx) s n path idx [BitVec.ofNat 8 n.zb.st.code, 0, 0, 0] :=
  .of_hostCmd rfl hs (Node.checked_pass _ _ _ _ hp)

/-- Settles O48: a payload fails the check of its length, and without one the state decides. -/
theorem zbRecoverCompletes : Obligations.ZbRecoverCompletes := by
  unfold Obligations.ZbRecoverCompletes
  intro s path idx pl hs
  refine ⟨fun hne => ?_, fun hnil hoff => ?_, fun hnil hon => ?_⟩
  · have hlen : pl.length ≠ 0 := fun h => hne (List.length_eq_zero_iff.mp h)
    exact .of_hostCmd rfl hs (Node.checked_fail _ _ _ _ _ _ (firstBad_badLen hlen []))
  · have hdone := zbRecover_done hs (by rw [hnil]; rfl)
    simp only [if_pos hoff] at hdone
    exact hdone
  · have hdone := zbRecover_done hs (by rw [hnil]; rfl)
    simp only [if_neg hon] at hdone
    exact hdone

/-- Settles O13, clause by clause in the order of the statement. -/
theorem zoneBusCommandsComplete : Obligations.ZoneBusCommandsComplete := by
  unfold Obligations.ZoneBusCommandsComplete
  and_intros
  · -- ZB_CONFIG, op 0 settings
    exact fun s path idx pl started hs hp hop hset hrw => .of_hostCmd rfl hs ((Node.checked_pass _ _ _ _ hp).trans ((if_pos hop).trans
      ((Node.checked_pass _ _ _ _ hset).trans (Node.needCfg_pass hrw _ _ _))))
  · -- ZB_CONFIG, op 1 a filter
    exact fun s path idx pl started hs hp hop hfilter hrw => .of_hostCmd rfl hs ((Node.checked_pass _ _ _ _ hp).trans
      ((if_neg (by simp [hop])).trans ((if_pos hop).trans ((Node.checked_pass _ _ _ _ hfilter).trans (Node.needCfg_pass hrw _ _ _)))))
  · -- ZB_CONFIG, op 2 the receive ring
    exact fun s path idx pl started hs hp hop hring hrw => .of_hostCmd rfl hs ((Node.checked_pass _ _ _ _ hp).trans
      ((if_neg (by simp [hop])).trans ((if_neg (by simp [hop])).trans ((Node.checked_pass _ _ _ _ hring).trans
        (Node.needCfg_pass hrw _ _ _)))))
  · -- ZB_STATUS
    exact fun s path idx pl hs hp => .of_hostCmd rfl hs (Node.checked_pass _ _ _ _ hp)
  · -- ZB_SEND
    exact fun s path idx pl started hs hp => .of_hostCmd rfl hs (Node.checked_pass _ _ _ _ hp)
  · -- ZB_SEND that times out
    intro s path idx x hwaits
    refine .of_eq rfl ?_
    simp only [hwaits]
  · -- ZB_RECOVER
    exact fun s path idx pl hs hp => zbRecover_done hs hp

/-! ### Events -/

/-- The states in which the controller hears the bus (R312, R316). -/
def ZbSt.hears : ZbSt → Bool
  | .off | .integrating | .loopback | .offline => false
  | _ => true

theorem ZbSt.hears_of_ne {st : ZbSt} (hoff : st ≠ .off) (hint : st ≠ .integrating) (hloop : st ≠ .loopback) (hline : st ≠ .offline) :
    st.hears = true := by
  cases st with
  | off | integrating | loopback | offline => contradiction
  | _ => rfl

/-- What a reception error does to a controller that hears it (R316). -/
def Node.zbTakeRxError (n : Node) (kind add : Nat) (res : Bool) : Node :=
  if res && n.zb.flags.getLsbD 2 then n.updZb (fun z => { z with protException := true })
  else
    let m := n.updZb (fun z => { z with lastError := if res then 2 else kind, errors := satInc 32 z.errors })
    (if n.zb.st = .errorActive ∨ n.zb.st = .errorPassive then (m.updZb (fun z => { z with recCnt := z.recCnt + add })).zbLevel else m).zbIdle

theorem zbRxError_done {s : State} (hears : s.node.zb.st.hears = true) (kind add : Nat) (res : Bool) :
    Done (.zbRxError kind add res) s (s.node.zbTakeRxError kind add res) := by
  refine .of_eq rfl ?_
  unfold Node.zbTakeRxError
  cases hst : s.node.zb.st with
  | off | integrating | loopback | offline => rw [hst] at hears; contradiction
  | _ => simp only [hst]

/-- A reception error that is no protocol exception, or for which the exception is off, is counted. -/
theorem notException {res flag : Bool} (h : res = false ∨ flag = false) : ¬(res && flag) = true := by
  obtain rfl | rfl := h <;> simp

/-- Settles O31, clause by clause in the order of the statement. -/
theorem zoneBusEventsComplete : Obligations.ZoneBusEventsComplete := by
  unfold Obligations.ZoneBusEventsComplete
  and_intros
  · -- ZB_INTEGRATED
    exact fun s hintegrating => .of_eq rfl (if_pos hintegrating)
  · -- ZB_FRAME_RECEIVED when error active
    intro s ident fd brs esi rtr data sof hst hlegal
    refine .of_eq rfl ?_
    simp only [hst] at hlegal ⊢
    exact if_neg hlegal
  · -- ZB_FRAME_RECEIVED when error passive
    intro s ident fd brs esi rtr data sof hst hlegal
    refine .of_eq rfl ?_
    simp only [hst] at hlegal ⊢
    exact if_neg hlegal
  · -- ZB_FRAME_RECEIVED when restricted
    intro s ident fd brs esi rtr data sof hst hlegal
    refine .of_eq rfl ?_
    simp only [hst] at hlegal ⊢
    exact if_neg hlegal
  · -- ZB_FRAME_SENT
    intro s sof delay x rest hfifo hsends
    refine .of_eq rfl ?_
    simp only [hfifo]
    exact if_neg hsends
  · -- ZB_TX_ERROR
    intro s kind clash add x rest hfifo hsends
    refine .of_eq rfl ?_
    simp only [hfifo]
    exact if_neg hsends
  · -- ZB_RX_ERROR of a reserved bit, which is a protocol exception
    exact fun s kind add res hoff hint hloop hline hres hon =>
      (zbRxError_done (ZbSt.hears_of_ne hoff hint hloop hline) kind add res).of_eq (if_pos (by simp [hres, hon]))
  · -- ZB_RX_ERROR that is counted
    intro s kind add res hst hcounts
    have hears : s.node.zb.st.hears = true := by obtain h | h := hst <;> rw [h] <;> rfl
    refine (zbRxError_done hears kind add res).of_eq ((if_neg (notException hcounts)).trans ?_)
    exact congrArg Node.zbIdle (if_pos hst)
  · -- ZB_RX_ERROR of a controller that counts none
    intro s kind add res hoff hint hloop hline hactive hpassive hcounts
    refine (zbRxError_done (ZbSt.hears_of_ne hoff hint hloop hline) kind add res).of_eq ((if_neg (notException hcounts)).trans ?_)
    exact congrArg Node.zbIdle (if_neg (not_or.mpr ⟨hactive, hpassive⟩))
  · -- ZB_ARB_LOST
    intro s x rest hfifo hsends
    refine .of_eq rfl ?_
    simp only [hfifo]
    exact if_neg hsends
  · -- ZB_SUSPEND_END
    exact fun s => rfl
  · -- ZB_RECOVERY_DELAY
    exact fun s hoff hauto => .of_eq rfl (if_pos ⟨hoff, hauto⟩)
  · -- ZB_RECOVERED
    exact fun s hrecovering => .of_eq rfl (if_pos hrecovering)
  · -- ZB_EXPRESS_RELOAD
    exact fun s hdue hidle hup => .of_eq rfl (if_pos ⟨hdue, by simp [hidle], by simp [hup]⟩)
  · -- REMOTE_TX_PERIOD
    intro s ident started x hfirst hperiod hrun
    refine .of_eq rfl ?_
    simp only [hfirst]
    exact if_neg (by simpa [hrun, ms] using hperiod)
  · -- REMOTE_RX_TIMEOUT
    exact fun s k hremote hrunning hrx hout => .of_eq rfl (if_pos ⟨hremote, hrunning, hrx, hout⟩)

end Sys2Proof.Machine
end

section
/-! PROOFS. Custody commands (R331, R352, R353): each completion is the branch of the meaning that its hypotheses select. -/

namespace Sys2Proof.Machine

/-- Settles O14, clause by clause in the order of the statement. -/
theorem custodyCommandsComplete : Obligations.CustodyCommandsComplete := by
  unfold Obligations.CustodyCommandsComplete
  and_intros
  · -- CUSTODY_READ of a record of this node
    intro s path idx pl e hs hp hown hparcel
    refine .of_hostCmd rfl hs ((Node.checked_pass _ _ _ _ hp).trans ?_)
    simp only [hown, if_true, hparcel, Option.map_some]
  · -- CUSTODY_READ of a mirror copy from the upstream neighbour
    intro s path idx pl e hs hp hmirror hup
    refine .of_hostCmd rfl hs ((Node.checked_pass _ _ _ _ hp).trans ?_)
    simp only [if_neg hmirror, hup]
  · -- CUSTODY_READ of a mirror copy from the downstream neighbour
    intro s path idx pl e hs hp hmirror hup hdown
    refine .of_hostCmd rfl hs ((Node.checked_pass _ _ _ _ hp).trans ?_)
    simp only [if_neg hmirror, hup, hdown, Option.map_some]
  · -- CUSTODY_LIST
    exact fun s path idx pl hs hp => .of_hostCmd rfl hs (Node.checked_pass _ _ _ _ hp)
  · -- CUSTODY_RESOLVE, resolution 0 holds the parcel again
    rintro s path idx pl ⟨slot, r⟩ hs hp hres hparcel hst
    refine .of_hostCmd rfl hs ((Node.checked_pass _ _ _ _ hp).trans ?_)
    simp only [hparcel]
    exact (if_neg (by simpa [hres] using hst)).trans (if_pos hres)
  · -- CUSTODY_RESOLVE, resolution 1 removes the parcel
    rintro s path idx pl ⟨slot, r⟩ hs hp hres hparcel hst
    refine .of_hostCmd rfl hs ((Node.checked_pass _ _ _ _ hp).trans ?_)
    simp only [hparcel]
    exact (if_neg (by simpa [hres, or_iff_not_imp_left] using hst)).trans ((if_neg (by simp [hres])).trans (if_pos hres))
  · -- CUSTODY_RESOLVE, resolution 2 merges the parcel into another
    rintro s path idx pl ⟨slot, r⟩ ⟨target, t⟩ hs hp hres hparcel hst htarget hheld
    refine .of_hostCmd rfl hs ((Node.checked_pass _ _ _ _ hp).trans ?_)
    simp only [hparcel, htarget]
    exact (if_neg (by simpa [hres] using hst)).trans ((if_neg (by simp [hres])).trans ((if_neg (by simp [hres])).trans
      ((if_pos hres).trans (if_neg (not_not.mpr hheld)))))
  · -- CUSTODY_RESOLVE, resolution 3 sends the parcel elsewhere
    rintro s path idx pl ⟨slot, r⟩ hs hp hres hparcel hst
    refine .of_hostCmd rfl hs ((Node.checked_pass _ _ _ _ hp).trans ?_)
    simp only [hparcel]
    exact (if_neg (by simpa [hres] using hst)).trans ((if_neg (by simp [hres])).trans ((if_neg (by simp [hres])).trans
      (if_neg (by simp [hres]))))
  · -- CUSTODY_CONFIG, op 0 the zone
    exact fun s path idx pl hs hp hop hzone hrw => .of_hostCmd rfl hs ((Node.checked_pass _ _ _ _ hp).trans ((if_pos hop).trans
      ((Node.checked_pass _ _ _ _ hzone).trans (Node.needCfg_pass hrw _ _ _))))
  · -- CUSTODY_CONFIG, op 1 an exit
    exact fun s path idx pl hs hp hop hexit hrw => .of_hostCmd rfl hs ((Node.checked_pass _ _ _ _ hp).trans ((if_neg (by simp [hop])).trans
      ((if_pos hop).trans ((Node.checked_pass _ _ _ _ hexit).trans (Node.needCfg_pass hrw _ _ _)))))
  · -- CUSTODY_CONFIG, op 2 routes
    exact fun s path idx pl hs hp hop hroutes hrw => .of_hostCmd rfl hs ((Node.checked_pass _ _ _ _ hp).trans
      ((if_neg (by simp [hop])).trans ((if_neg (by simp [hop])).trans ((Node.checked_pass _ _ _ _ hroutes).trans
        (Node.needCfg_pass hrw _ _ _)))))

end Sys2Proof.Machine
end

section
/-! PROOFS. Custody events (R335 to R350, R460) and the messages of custody neighbours (R335, R340 to R343, R349): each completion is the
branch of the meaning that its hypotheses select. -/

namespace Sys2Proof.Machine

/-! ### Events -/

/-- The node with an edge of eye `k` seen at `t` (R336). -/
abbrev Node.eyeSeen (n : Node) (k t : Nat) : Node := (n.upTo t).updCust (fun c => { c with lastEdge := c.lastEdge.put k t })

/-- An eye that rises where records match passes the edge to each of them. -/
theorem Node.eyeRise_matched {n : Node} {k t e : Nat} {es : List Nat}
    (hcounts : n.coresRun = true ∧ n.cust.configured = true ∧ (n.cust.exit k).kind ≠ 0 ∧ n.cust.lastEdge.getD k 0 < t)
    (hmatch : (n.eyeSeen k t).cust.matches k t = e :: es) :
    n.eyeRise k t = (e :: es).foldl (fun n slot => n.recMatch k slot t) (n.eyeSeen k t) := by
  refine (if_pos hcounts).trans ?_
  simp only [hmatch]

/-- An eye that rises where no record matches creates one, if it can (R338). -/
theorem Node.eyeRise_created {n : Node} {k t slot : Nat}
    (hcounts : n.coresRun = true ∧ n.cust.configured = true ∧ (n.cust.exit k).kind ≠ 0 ∧ n.cust.lastEdge.getD k 0 < t)
    (hmatch : (n.eyeSeen k t).cust.matches k t = []) (hslot : ((n.eyeSeen k t).recCreate t 0 0 k true).1 = some slot) :
    n.eyeRise k t =
      (let m := ((n.eyeSeen k t).recCreate t 0 0 k true).2
       let p := (m.cust.own.getD slot {}).parcel
       (m.log Ev.custodyUnmatched (p % 2 ^ 32) (p / 2 ^ 32) k).recMatch k slot t) := by
  refine (if_pos hcounts).trans ?_
  simp only [hmatch]
  rw [← Prod.eta (Node.recCreate _ _ _ _ _ _), hslot]

/-- Settles O32, clause by clause in the order of the statement. -/
theorem custodyEventsComplete : Obligations.CustodyEventsComplete := by
  unfold Obligations.CustodyEventsComplete
  and_intros
  · -- CUSTODY_EVAL
    exact fun s hzone hcores => .of_eq rfl (if_pos ⟨hzone, hcores⟩)
  · -- CUSTODY_EYE_RISE that records match
    exact fun s k t e es hcores hzone hkind hlater hmatch => .of_eq rfl (Node.eyeRise_matched ⟨hcores, hzone, hkind, hlater⟩ hmatch)
  · -- CUSTODY_EYE_RISE that no record matches
    intro s k t slot hcores hzone hkind hlater hmatch hslot m p
    refine .of_eq (m' := s.node.eyeRise k t) rfl ?_
    rw [Node.eyeRise_created ⟨hcores, hzone, hkind, hlater⟩ hmatch hslot]
  · -- CUSTODY_EYE_FALL
    exact fun s k t => rfl
  · -- CUSTODY_TRAVEL_LIMIT
    intro s k p ps t slot r hleaving hparcel hcores hkind hfar
    refine .of_eq rfl ?_
    simp only [hleaving, hparcel]
    exact if_pos (Bool.and_eq_true_iff.mpr ⟨Bool.and_eq_true_iff.mpr ⟨hcores, beq_iff_eq.mpr hkind⟩, decide_eq_true hfar⟩)
  · -- CUSTODY_CREATE
    intro s slot t core htask hserved hhandler hran
    refine .of_eq rfl ?_
    simp only [htask, hserved]
    exact if_pos ⟨hhandler, by simp [hran]⟩
  · -- CUSTODY_SCAN near a record
    intro s f rest slot r hlane hcores hscanner hident hnear
    refine .of_eq rfl ?_
    simp only [hlane]
    refine (if_neg (by simp [hcores])).trans ((if_pos ⟨hscanner, hident⟩).trans ?_)
    split
    · next slot' r' hfound => cases hnear.symm.trans hfound; rfl
    · next hnone => exact nomatch hnear.symm.trans hnone
  · -- CUSTODY_SCAN near no record
    intro s f rest hlane hcores hscanner hident hnone
    refine .of_eq rfl ?_
    simp only [hlane]
    refine (if_neg (by simp [hcores])).trans ((if_pos ⟨hscanner, hident⟩).trans ?_)
    split
    · next slot r hfound => exact nomatch hnone.symm.trans hfound
    · rfl
  · -- CUSTODY_SCAN of another frame
    intro s f rest hlane hcores hother
    refine .of_eq rfl ?_
    simp only [hlane]
    exact (if_neg (by simp [hcores])).trans (if_neg fun ⟨hscanner, hident⟩ => hother.elim hscanner (absurd hident))
  · -- CUSTODY_REPEAT
    exact fun s hcores => .of_eq rfl (if_pos hcores)
  · -- HANDOFF_TIMEOUT
    intro s parcel slot r hparcel hcores hst
    refine .of_eq rfl ?_
    simp only [hparcel]
    exact if_pos ⟨hcores, hst⟩
  · -- COMMIT_WAIT_TIMEOUT
    intro s parcel slot r hparcel hwaits
    refine .of_eq rfl ?_
    simp only [hparcel]
    exact if_pos hwaits
  · -- CHECKPOINT_PERIOD
    exact fun s hzone => .of_eq rfl (if_pos hzone)
  · -- CHECKPOINT_DURABLE
    intro s run hwriting
    refine .of_eq rfl ?_
    simp only [hwriting]
  · -- CUSTODY_RECOVERY_START
    exact fun s hready => .of_eq rfl (if_pos hready)
  · -- RECOVERY_MERGE
    exact fun s hcores hrecovers => .of_eq rfl (if_pos ⟨hcores, hrecovers⟩)
  · -- ENERGY_INTERVAL with no parcel held
    exact fun s seen hpower hnone => .of_eq rfl ((if_neg (by simp [hpower])).trans (if_pos hnone))
  · -- ENERGY_INTERVAL with parcels held
    rintro s seen _ hpower rfl hheld
    exact .of_eq rfl ((if_neg (by simp [hpower])).trans (if_neg hheld))

/-! ### Messages -/

/-- A message from a neighbour reaches the cores that run (R335). -/
theorem Node.custIn_neighbour {n : Node} {p : Nat} (hneigh : n.neighbour p = true) (hcores : n.coresRun = true) (f : Node → Node) :
    n.custIn p f = f n :=
  (if_neg (by simp [hneigh])).trans (if_pos hcores)

/-- Settles O33, clause by clause in the order of the statement. -/
theorem custodyMessagesComplete : Obligations.CustodyMessagesComplete := by
  unfold Obligations.CustodyMessagesComplete
  and_intros
  · -- HANDOFF_OFFER
    exact fun s p record hneigh hcores => .of_eq rfl (Node.custIn_neighbour hneigh hcores _)
  · -- HANDOFF_ACCEPT
    intro s p parcel version slot r hneigh hcores hparcel hoffered
    refine .of_eq rfl ((Node.custIn_neighbour hneigh hcores _).trans ?_)
    simp only [hparcel]
    exact if_pos hoffered
  · -- HANDOFF_REFUSE
    intro s p parcel version status slot r hneigh hcores hparcel hoffered
    refine .of_eq rfl ((Node.custIn_neighbour hneigh hcores _).trans ?_)
    simp only [hparcel]
    exact if_pos hoffered
  · -- HANDOFF_COMMIT
    exact fun s p parcel version hneigh hcores => .of_eq rfl (Node.custIn_neighbour hneigh hcores _)
  · -- COMMIT_ACK
    exact fun s p parcel version hneigh hcores => .of_eq rfl (Node.custIn_neighbour hneigh hcores _)
  · -- HANDOFF_QUERY of a parcel this node has a record of
    intro s p parcel version slot r hneigh hcores hparcel
    refine .of_eq rfl ((Node.custIn_neighbour hneigh hcores _).trans ?_)
    simp only [hparcel]
  · -- HANDOFF_QUERY of another parcel
    intro s p parcel version hneigh hcores hparcel
    refine .of_eq rfl ((Node.custIn_neighbour hneigh hcores _).trans ?_)
    simp only [hparcel]
  · -- MIRROR_UPDATE
    exact fun s p records hcores hneigh => .of_eq rfl (Node.custIn_neighbour hneigh hcores _)
  · -- MIRROR_FULL
    exact fun s p parcel version hneigh hcores => .of_eq rfl (Node.custIn_neighbour hneigh hcores _)
  · -- MIRROR_DROP
    exact fun s p parcels hneigh hcores => .of_eq rfl (Node.custIn_neighbour hneigh hcores _)
  · -- CKPT_NOTE
    exact fun s p durable hneigh hcores => .of_eq rfl (Node.custIn_neighbour hneigh hcores _)
  · -- RECOVER_REQ, answered with the records
    exact fun s p serial lastDurable hneigh hcores hserial hready =>
      .of_eq rfl ((Node.custIn_neighbour hneigh hcores _).trans ((if_neg hserial).trans (if_neg hready)))
  · -- RECOVER_REQ to a node that recovers itself
    exact fun s p serial lastDurable hneigh hcores hserial hrecovers =>
      .of_eq rfl ((Node.custIn_neighbour hneigh hcores _).trans ((if_neg hserial).trans (if_pos hrecovers)))
  · -- RECOVER_DATA
    exact fun s p status records hneigh hcores hawaited =>
      .of_eq rfl ((Node.custIn_neighbour hneigh hcores _).trans (if_pos hawaited))
  · -- RECOVER_END
    exact fun s p recovering hneigh hcores => .of_eq rfl (Node.custIn_neighbour hneigh hcores _)

end Sys2Proof.Machine
end

section
/-! PROOFS. Lift and gate commands (R372 to R375) and the events of lifts and gates (R355 to R369): each completion is the branch of the
meaning that its hypotheses select. -/

namespace Sys2Proof.Machine

/-- Settles O15, clause by clause in the order of the statement. -/
theorem liftAndGateCommandsComplete : Obligations.LiftAndGateCommandsComplete := by
  unfold Obligations.LiftAndGateCommandsComplete
  and_intros
  · -- LIFT_CALL
    rintro s path idx pl ⟨st, d, n⟩ hs hp hcall hok
    refine .of_hostCmd rfl hs ((Node.checked_pass _ _ _ _ hp).trans ?_)
    simp only [← hcall]
    exact if_pos hok
  · -- LIFT_STATUS
    exact fun s path idx pl hs hp => .of_hostCmd rfl hs (Node.checked_pass _ _ _ _ hp)
  · -- LIFT_CONFIG, op 0 the settings of a lift
    exact fun s path idx pl hs hp hop hset hrw => .of_hostCmd rfl hs ((Node.checked_pass _ _ _ _ hp).trans ((if_pos hop).trans
      ((Node.checked_pass _ _ _ _ hset).trans (Node.needCfg_pass hrw _ _ _))))
  · -- LIFT_CONFIG, op 1 the table of levels
    exact fun s path idx pl hs hp hop htable hrw => .of_hostCmd rfl hs ((Node.checked_pass _ _ _ _ hp).trans ((if_neg (by simp [hop])).trans
      ((if_pos hop).trans ((Node.checked_pass _ _ _ _ htable).trans (Node.needCfg_pass hrw _ _ _)))))
  · -- LIFT_CONFIG, op 2 the settings of a gate
    exact fun s path idx pl hs hp hop hset hrw => .of_hostCmd rfl hs ((Node.checked_pass _ _ _ _ hp).trans ((if_neg (by simp [hop])).trans
      ((if_neg (by simp [hop])).trans ((if_pos hop).trans ((Node.checked_pass _ _ _ _ hset).trans (Node.needCfg_pass hrw _ _ _))))))
  · -- LIFT_CONFIG, op 3 reads
    exact fun s path idx pl hs hp hop hread => .of_hostCmd rfl hs ((Node.checked_pass _ _ _ _ hp).trans ((if_neg (by simp [hop])).trans
      ((if_neg (by simp [hop])).trans ((if_neg (by simp [hop])).trans (Node.checked_pass _ _ _ _ hread)))))
  · -- GATE_COMMAND
    rintro s path idx pl ⟨st, n⟩ hs hp hcommand hok
    refine .of_hostCmd rfl hs ((Node.checked_pass _ _ _ _ hp).trans ?_)
    simp only [← hcommand]
    exact if_pos hok

/-! ### Events -/

/-- Settles O34, clause by clause in the order of the statement. -/
theorem liftAndGateEventsComplete : Obligations.LiftAndGateEventsComplete := by
  unfold Obligations.LiftAndGateEventsComplete
  and_intros
  · -- LIFT_POSITION_UPDATE
    intro s l hruns hactive
    refine .of_eq rfl ((if_pos ⟨hruns, hactive⟩).trans ?_)
    dsimp only <;> generalize Node.depart _ l = n <;> rfl
  · -- LEVEL_FLAG_EDGE that ends the referencing
    exact fun s l k t hsees hreferencing => .of_eq rfl ((if_neg hsees).trans (if_pos hreferencing))
  · -- LEVEL_FLAG_EDGE that corrects the position
    exact fun s l k t hsees hreferenced hnear => .of_eq rfl ((if_neg hsees).trans ((if_neg hreferenced).trans (if_pos hnear)))
  · -- LEVEL_FLAG_EDGE too far from where the car should be
    exact fun s l k t hsees hreferenced hfar hmoves =>
      .of_eq rfl ((if_neg hsees).trans ((if_neg hreferenced).trans ((if_neg hfar).trans (if_pos hmoves))))
  · -- LIFT_DRIVE_AT_TARGET
    intro s l a haxis hruns htravelling hthere
    refine .of_eq rfl ?_
    simp only [haxis]
    exact if_pos ⟨hruns, htravelling, hthere⟩
  · -- LIFT_ARRIVAL_SETTLED
    intro s l t hnear htravels
    refine .of_eq rfl ?_
    simp only [hnear]
    exact if_pos htravels
  · -- LIFT_ARRIVAL_TIMEOUT of a car that arrives after all
    exact fun s l hruns harriving harrived => .of_eq rfl ((if_pos ⟨hruns, harriving⟩).trans (if_pos harrived))
  · -- LIFT_ARRIVAL_TIMEOUT after the second try
    exact fun s l hruns harriving hstill htried =>
      .of_eq rfl ((if_pos ⟨hruns, harriving⟩).trans ((if_neg (not_not.mpr hstill)).trans (if_pos htried)))
  · -- LIFT_ARRIVAL_TIMEOUT that tries again
    exact fun s l hruns harriving hstill hfirst =>
      .of_eq rfl ((if_pos ⟨hruns, harriving⟩).trans ((if_neg (not_not.mpr hstill)).trans (if_neg (ne_true_of_eq_false hfirst))))
  · -- GATE_DWELL_EXPIRED
    exact fun s g hruns hopened hdue => .of_eq rfl (if_pos ⟨hruns, hopened, by simp [hdue]⟩)
  · -- LIFT_PARK_DUE
    exact fun s l hidle haway => .of_eq rfl ((if_pos hidle).trans (if_neg haway))
  · -- LIFT_REF_TRAVEL_EXCEEDED
    exact fun s l hfar => .of_eq rfl (if_pos hfar)
  · -- GATE_INPUT_CHANGE, unlocked
    intro s g hruns hst hfree
    refine .of_eq rfl ((if_neg hruns).trans ?_)
    simp only [hst]
    exact if_pos hfree
  · -- GATE_INPUT_CHANGE, opened
    intro s g hruns hst hopen
    refine .of_eq rfl ((if_neg hruns).trans ?_)
    simp only [hst]
    exact if_pos hopen
  · -- GATE_INPUT_CHANGE, locked
    intro s g hruns hst hlocked
    refine .of_eq rfl ((if_neg hruns).trans ?_)
    simp only [hst]
    exact if_pos hlocked
  · -- GATE_INPUT_CHANGE that takes a locked gate out of its place
    intro s g hruns hst hlost
    refine .of_eq rfl ((if_neg hruns).trans ?_)
    simp only [hst]
    exact if_pos hlost
  · -- GATE_INPUT_CHANGE, opened again with tries left
    intro s g hruns hst hopen hleft
    refine .of_eq rfl ((if_neg hruns).trans ?_)
    simp only [hst]
    exact (if_pos hopen).trans (if_pos hleft)
  · -- GATE_INPUT_CHANGE, opened again after the last try
    intro s g hruns hst hopen hlast
    refine .of_eq rfl ((if_neg hruns).trans ?_)
    simp only [hst]
    exact (if_pos hopen).trans (if_neg hlast)
  · -- GATE_INPUT_CHANGE while the gate closes
    intro s g hruns hst
    refine .of_eq rfl ((if_neg hruns).trans ?_)
    simp only [hst] <;> rfl
  · -- GATE_TIMEOUT of the unlocking
    intro s g hruns hst
    refine .of_eq rfl ((if_neg (by simp [hruns])).trans ?_)
    simp only [hst]
  · -- GATE_TIMEOUT of the opening
    intro s g hruns hst
    refine .of_eq rfl ((if_neg (by simp [hruns])).trans ?_)
    simp only [hst]
  · -- GATE_TIMEOUT of the closing
    intro s g hruns hst
    refine .of_eq rfl ((if_neg (by simp [hruns])).trans ?_)
    simp only [hst]
  · -- GATE_TIMEOUT of the locking
    intro s g hruns hst
    refine .of_eq rfl ((if_neg (by simp [hruns])).trans ?_)
    simp only [hst]
  · -- GATE_OBSTRUCTION_CHECK
    exact fun s g hruns hclosing => .of_eq rfl ((if_neg hruns).trans (if_neg hclosing))
  · -- GATE_RETRY_DWELL
    exact fun s g hwaits => .of_eq rfl (if_pos hwaits)
  · -- LIFT_INTERLOCK_CHANGE that demands a halt
    exact fun s l hruns hdemand => .of_eq rfl ((if_neg (by simp [hruns])).trans (if_pos hdemand))
  · -- LIFT_INTERLOCK_CHANGE that ends a halt
    exact fun s l hruns hdemand => .of_eq rfl ((if_neg (by simp [hruns])).trans (if_neg (ne_true_of_eq_false hdemand)))

end Sys2Proof.Machine
end

section
/-! PROOFS. Harvest commands (R378 to R391) and event recorder commands (R396, R406 to R408): each completion is the branch of the meaning
that its hypotheses select. -/

namespace Sys2Proof.Machine

/-! ### Checks -/

/-- A check that passes, before others that do. -/
theorem Passes.cons {c : Bool × Nat × Nat} {cs : List (Bool × Nat × Nat)} (hc : c.1 = false) (h : Passes cs) : Passes (c :: cs) := by
  obtain ⟨bad, st, d⟩ := c
  exact (if_neg (ne_true_of_eq_false hc)).trans h

theorem passes_nil : Passes [] := rfl

/-- A payload of the right length passes the check of its length. -/
theorem badLen_passes {pl : List Byte} {k : Nat} (h : pl.length = k) : (badLen pl k).1 = false := by simp [badLen, h]

/-- The two checks of a token of EVENT_CLEAR, its target and its signature (R407). -/
theorem tokenRefused_iff {a b c d : Nat} {good : Bool} : (a != b || c != d || !good) = true ↔ ¬(a = b ∧ c = d ∧ good = true) := by
  simp only [Bool.or_eq_true, bne_iff_ne, Bool.not_eq_true', ← Bool.not_eq_true, not_and_or, or_assoc, ne_eq]

/-- A last check fails after all the others have passed. -/
theorem Passes.firstBad_snoc {cs : List (Bool × Nat × Nat)} (h : Passes cs) (st d : Nat) : firstBad (cs ++ [(true, st, d)]) = some (st, d) := by
  induction cs with
  | nil => rfl
  | cons c t ih =>
    obtain ⟨bad, s, e⟩ := c
    cases bad with
    | true => exact absurd h (by simp [firstBad])
    | false => exact ih h

/-- One more check after those that pass decides alone. -/
theorem Node.checked_snoc {cs : List (Bool × Nat × Nat)} (h : Passes cs) (n : Node) (m : Nat) (b : Bool) (st d : Nat) (k : Node) :
    n.checked m (cs ++ [(b, st, d)]) k = if b then n.answer m st d [] else k := by
  cases b with
  | true => exact Node.checked_fail _ _ _ _ _ _ (h.firstBad_snoc st d)
  | false => exact Node.checked_pass _ _ _ _ (h.snoc rfl st d)

/-! ### The staged list (R378, R379) -/

/-- The check that no entry of a list has the property `p`, which names the first that has. -/
def noEntry (es : List HvEntry) (p : HvEntry → Bool) : Bool × Nat × Nat :=
  match ((List.range es.length).zip es).find? (fun e => p e.2) with
  | some e => (true, Rs.paramRange, 0x100 + e.1)
  | none => (false, 0, 0)

theorem noEntry_passes {es : List HvEntry} {p : HvEntry → Bool} (h : ∀ e ∈ es, p e = false) : (noEntry es p).1 = false := by
  have hnone : ((List.range es.length).zip es).find? (fun e => p e.2) = none :=
    List.find?_eq_none.mpr fun e he => ne_true_of_eq_false (h e.2 (List.of_mem_zip he).2)
  rw [noEntry, hnone]

/-- The checks of a commit, in their order (R378, R379). -/
def Node.commitChecks (n : Node) (pl : List Byte) (es : List HvEntry) (gap : Bool) : List (Bool × Nat × Nat) :=
  [badLen pl 1, badRange (es.isEmpty || gap) 0, noEntry es (fun e => (n.stall e.stall).kd == K.unassigned),
    noEntry es (fun e => e.mode == 1 && (n.stall e.stall).fm == F.bool), noEntry es (fun e => !n.bandOk e),
    badRange (decide (2000000 < hvLoad n.harv.stagedSet es)) 4]

theorem Node.commitChecks_pass {n : Node} {pl : List Byte} {es : List HvEntry} {gap : Bool} (hlen : pl.length = 1)
    (hsome : es.isEmpty = false) (hgap : gap = false)
    (hgood : es.any (fun e => (n.stall e.stall).kd == K.unassigned || (e.mode == 1 && (n.stall e.stall).fm == F.bool) || !n.bandOk e) = false)
    (hload : hvLoad n.harv.stagedSet es ≤ 2000000) : Passes (n.commitChecks pl es gap) := by
  have hentry (e : HvEntry) (he : e ∈ es) : ((n.stall e.stall).kd == K.unassigned) = false ∧
      (e.mode == 1 && (n.stall e.stall).fm == F.bool) = false ∧ (!n.bandOk e) = false := by
    simpa only [Bool.or_eq_true, not_or, Bool.not_eq_true, and_assoc] using List.any_eq_false.mp hgood e he
  refine .cons (badLen_passes hlen) (.cons (by simp [badRange, hsome, hgap]) (.cons (noEntry_passes fun e he => (hentry e he).1)
    (.cons (noEntry_passes fun e he => (hentry e he).2.1) (.cons (noEntry_passes fun e he => (hentry e he).2.2)
      (.cons (decide_eq_false (not_lt.mpr hload)) passes_nil)))))

/-- Settles O16, clause by clause in the order of the statement. -/
theorem harvestAndRecorderCommandsComplete : Obligations.HarvestAndRecorderCommandsComplete := by
  unfold Obligations.HarvestAndRecorderCommandsComplete
  and_intros
  · -- HARVEST_LIST, op 0 stages the settings
    intro s path idx pl hs hp hop hset
    refine .of_hostCmd rfl hs ((Node.checked_pass _ _ _ _ hp).trans ?_)
    rw [hop]
    exact Node.checked_pass _ _ _ _ hset
  · -- HARVEST_LIST, op 1 stages entries
    intro s path idx pl hs hp hop hentries
    refine .of_hostCmd rfl hs ((Node.checked_pass _ _ _ _ hp).trans ?_)
    rw [hop]
    exact Node.checked_pass _ _ _ _ hentries
  · -- HARVEST_LIST, op 2 commits
    intro s path idx pl hs hp hop hlen hsome hends hgood hload hrw hroom
    refine .of_hostCmd rfl hs ((Node.checked_pass _ _ _ _ hp).trans ?_)
    rw [hop]
    exact (Node.checked_pass _ _ _ _ (Node.commitChecks_pass hlen hsome hends hgood hload)).trans ((Node.needCfg_pass hrw _ _ _).trans
      (if_neg (Nat.not_lt.mpr hroom)))
  · -- HARVEST_LIST, op 3 reads the settings
    intro s path idx pl hs hp hop hset hlen
    refine .of_hostCmd rfl hs ((Node.checked_pass _ _ _ _ hp).trans ?_)
    rw [hop]
    exact (if_pos hset).trans (Node.checked_pass _ _ _ _ (Passes.cons (badLen_passes hlen) passes_nil))
  · -- HARVEST_LIST, op 3 reads entries
    intro s path idx pl hs hp hop hset hspan
    refine .of_hostCmd rfl hs ((Node.checked_pass _ _ _ _ hp).trans ?_)
    rw [hop]
    exact (if_neg hset).trans (Node.checked_pass _ _ _ _ hspan)
  · -- HARVEST_TRIGGER, op 0 arms
    exact fun s path idx pl hs hp hop hset => .of_hostCmd rfl hs ((Node.checked_pass _ _ _ _ hp).trans ((if_pos hop).trans
      (Node.checked_pass _ _ _ _ hset)))
  · -- HARVEST_TRIGGER, op 1 disarms
    exact fun s path idx pl hs hp hop hlen => .of_hostCmd rfl hs ((Node.checked_pass _ _ _ _ hp).trans ((if_neg (by simp [hop])).trans
      ((Node.checked_pass _ _ _ _ (Passes.cons (badLen_passes hlen) passes_nil)).trans (if_pos hop))))
  · -- HARVEST_TRIGGER, op 2 fires
    intro s path idx pl hs hp hop hlen hsource harmed
    exact .of_hostCmd rfl hs ((Node.checked_pass _ _ _ _ hp).trans ((if_neg (by simp [hop])).trans
      ((Node.checked_pass _ _ _ _ (Passes.cons (badLen_passes hlen) passes_nil)).trans ((if_neg (by simp [hop])).trans ((if_pos hop).trans
        (Node.checked_pass _ _ _ _ (.cons (by simp [badRange, hsource]) (.cons (by simp [harmed]) passes_nil))))))))
  · -- HARVEST_TRIGGER, op 3 reads
    exact fun s path idx pl hs hp hop hlen => .of_hostCmd rfl hs ((Node.checked_pass _ _ _ _ hp).trans ((if_neg (by simp [hop])).trans
      ((Node.checked_pass _ _ _ _ (Passes.cons (badLen_passes hlen) passes_nil)).trans ((if_neg (by simp [hop])).trans (if_neg (by simp [hop]))))))
  · -- HARVEST_COLLECTOR, op 0 asks for a reservation
    intro s path idx pl hs hp hop hcap hshare hrw
    exact .of_hostCmd rfl hs ((Node.checked_pass _ _ _ _ hp).trans ((if_neg (by simp [hcap])).trans
      ((Node.checked_pass _ _ _ _ (.cons (by simp [hshare]) passes_nil)).trans ((Node.needCfg_pass hrw _ _ _).trans
        (if_pos (by simp [hop]))))))
  · -- HARVEST_COLLECTOR, op 1 gives the slot up
    intro s path idx pl hs hp hop hrw
    exact .of_hostCmd rfl hs ((Node.checked_pass _ _ _ _ hp).trans ((if_neg (by simp [hop])).trans
      ((Node.checked_pass _ _ _ _ (.cons (by simp [hop]) passes_nil)).trans ((Node.needCfg_pass hrw _ _ _).trans (if_neg (by simp [hop]))))))
  · -- HARVEST_STATUS
    exact fun s path idx pl hs hp => .of_hostCmd rfl hs (Node.checked_pass _ _ _ _ hp)
  · -- EVENT_READ
    exact fun s path idx pl hs hp => .of_hostCmd rfl hs (Node.checked_pass _ _ _ _ hp)
  · -- EVENT_CLEAR, by the token
    intro s path idx pl hs hp
    exact .of_hostCmd rfl hs ((Node.checked_snoc hp _ _ _ _ _ _).trans ((if_congr tokenRefused_iff rfl rfl).trans (ite_not _ _ _)))
  · -- RECORDER_STATUS
    exact fun s path idx pl hs hp => .of_hostCmd rfl hs (Node.checked_pass _ _ _ _ hp)

end Sys2Proof.Machine
end

section
/-! PROOFS. The events of the harvest (R377 to R395), and the records and blocks of the store (R402, R403, R495): each completion is the
branch of the meaning that its hypotheses select. -/

namespace Sys2Proof.Machine

/-- Settles O35, clause by clause in the order of the statement. -/
theorem harvestAndRecorderEventsComplete : Obligations.HarvestAndRecorderEventsComplete := by
  unfold Obligations.HarvestAndRecorderEventsComplete
  and_intros
  · -- HARVEST_SAMPLE
    exact fun s full => rfl
  · -- HARVEST_FRAME_SEND
    exact fun s k hcores hk => .of_eq rfl (if_pos ⟨hcores, hk⟩)
  · -- HARVEST_LIST_APPLY
    intro s c es t hnew
    refine .of_eq rfl ?_
    simp only [hnew]
  · -- TRIGGER_HOLDOFF_END
    exact fun s k hholdoff => .of_eq rfl (if_pos hholdoff)
  · -- TBUS_EDGE
    exact fun s stamp htbus hhigh hawake => .of_eq rfl (if_pos ⟨htbus, congrArg not hhigh, hawake⟩)
  · -- CBUS_EDGE from another node on a bus this node drives
    exact fun s stamp full hawake hdrives hforeign =>
      .of_eq rfl ((if_neg hawake).trans ((if_pos hdrives).trans (if_neg hforeign)))
  · -- CBUS_EDGE of this node's own pulse
    exact fun s stamp full hawake hdrives hown => .of_eq rfl ((if_neg hawake).trans ((if_pos hdrives).trans (if_pos hown)))
  · -- CBUS_EDGE too soon after the last
    exact fun s stamp full hawake hslave hfollows hsoon =>
      .of_eq rfl ((if_neg hawake).trans ((if_neg hslave).trans ((if_pos hfollows).trans (if_pos hsoon))))
  · -- CBUS_EDGE that takes a sample
    exact fun s stamp full hawake hslave hfollows hapart =>
      .of_eq rfl ((if_neg hawake).trans ((if_neg hslave).trans ((if_pos hfollows).trans (if_neg hapart))))
  · -- CBUS_PULSE, the falling edge
    exact fun s low hdrives hlow => .of_eq rfl ((if_pos hdrives).trans (if_pos hlow))
  · -- CBUS_PULSE, the rising edge
    exact fun s low hdrives hhigh hpulse => .of_eq rfl ((if_pos hdrives).trans ((if_neg hhigh).trans (if_pos hpulse)))
  · -- TBUS_PULSE_END
    exact fun s hpulse => .of_eq rfl (if_pos hpulse)
  · -- HARVEST_RESERVE_REQUEST
    exact fun s node slot collector share hhead hcores => .of_eq rfl (if_pos ⟨hhead, hcores⟩)
  · -- HARVEST_GRANT
    exact fun s k share hcores => .of_eq rfl (if_pos hcores)
  · -- HARVEST_REFUSE
    exact fun s k hcores hk hrequested => .of_eq rfl ((if_pos ⟨hcores, hk⟩).trans (if_pos hrequested))
  · -- HARVEST_REVOKE
    exact fun s k hcores hk hgranted => .of_eq rfl ((if_pos ⟨hcores, hk⟩).trans (if_pos hgranted))
  · -- HARVEST_RESERVATION_TIMEOUT
    exact fun s k hrequested hcores => .of_eq rfl (if_pos ⟨hrequested, hcores⟩)
  · -- HARVEST_RESERVATION_RETRY
    exact fun s k hidle hcores => .of_eq rfl (if_pos ⟨hidle, hcores⟩)
  · -- STORE_RECORD_REQUEST
    exact fun s hready => .of_eq rfl (if_pos hready)
  · -- RECORD_PROGRAMMED
    intro s e g hprogram
    refine .of_eq rfl ?_
    simp only [hprogram]
  · -- RECORD_VALID_MARK_DONE
    intro s e g hprogram
    refine .of_eq rfl ?_
    simp only [hprogram]
  · -- BLOCK_ERASE_DONE
    exact fun s b herasing => .of_eq rfl (if_pos herasing)
  · -- NVS_RETRY that succeeds
    exact fun s p idx t ok hok => .of_eq rfl (if_pos hok)
  · -- NVS_RETRY that fails with tries left
    exact fun s p idx t ok hfailed hleft => .of_eq rfl ((if_neg hfailed).trans (if_neg hleft))
  · -- NVS_RETRY that fails for the third time
    exact fun s p idx t ok hfailed hlast => .of_eq rfl ((if_neg hfailed).trans (if_pos hlast))
  · -- NVS_REWRITE that succeeds
    exact fun s p idx u ok hok => .of_eq rfl (if_pos hok)
  · -- NVS_REWRITE that fails
    exact fun s p idx u ok hfailed => .of_eq rfl (if_neg hfailed)

end Sys2Proof.Machine
end

section
/-! PROOFS. How a record becomes durable (R398, R403, R407): its Granary copy before its Rick copy, and each by its valid mark. -/

namespace Sys2Proof.Machine

/-! ### Beginning a program (R402, R403) -/

/-- The erase of a block of the Rick touches the slots of the Rick alone. -/
theorem Recorder.startErase_rick (r : Recorder) {b : Nat} (h : 128 ≤ b) : ∃ es rk, r.startErase b = { r with erasing := es, rick := rk } :=
  ⟨_, _, if_neg (Nat.not_lt.mpr h)⟩

/-- A record that enters a block of the Rick starts the erase of the block after it, which touches the slots of that block alone; within
a block nothing is erased. -/
theorem Recorder.enterRick_eq (r : Recorder) :
    ∃ es rk, r.enterRick = { r with erasing := es, rick := rk } ∧ (r.rHead % 128 ≠ 0 → rk = r.rick) := by
  unfold Recorder.enterRick
  split
  · next hblock =>
    obtain ⟨es, rk, herase⟩ := r.startErase_rick (Nat.le_add_right 128 (r.blockAfter (r.rHead / 128)))
    exact ⟨es, rk, herase, fun hwithin => absurd hblock hwithin⟩
  · exact ⟨_, _, rfl, fun _ => rfl⟩

/-- A record that starts to be programmed takes the next sequence; of the slots the Granary keeps all, and the Rick all within a block. -/
theorem Recorder.begin_eq (r : Recorder) (e : EvRec) (granary : Bool) :
    ∃ f es rk, r.begin e granary = { r with
        seq := (r.seq + 1) % 2 ^ 32, program := some ({ e with seq := r.seq, flags := f }, false, granary), erasing := es, rick := rk }
      ∧ (r.rHead % 128 ≠ 0 → rk = r.rick) := by
  cases granary with
  | true => exact ⟨_, _, _, rfl, fun _ => rfl⟩
  | false =>
    obtain ⟨es, rk, henter, hrick⟩ := Recorder.enterRick_eq
      { r with seq := (r.seq + 1) % 2 ^ 32, program := some ({ e with seq := r.seq }, false, false) }
    exact ⟨e.flags, es, rk, henter, hrick⟩

/-- With no clear in progress the store takes the oldest record of its queue. -/
theorem Node.takeRecord_queued {n : Node} {e : EvRec} {q : List EvRec} (hclear : n.rcd.clear = .none) (hqueue : n.rcd.queue = e :: q) :
    n.takeRecord = n.updRcd (fun r => { r with queue := q, clear := .none }.begin e n.granaryTakes) := by
  simp only [Node.takeRecord, hclear, hqueue]

/-! ### The valid mark (R403) -/

/-- The valid mark of a Granary copy makes its slot valid, and the Rick copy starts. -/
theorem Node.recordDurable_granary {n : Node} (hclear : n.rcd.clear = .none) (e : EvRec) :
    n.recordDurable e true = n.updRcd (fun r =>
      { r with granary := r.granary.put r.gHead (.valid e), gHead := r.gHead + 1, program := some (e, false, false) }.enterRick) := by
  simp only [Node.recordDurable, Node.updRcd_rcd, hclear]
  rfl

/-- The valid mark of a Rick copy makes its slot valid, and the record is done. -/
theorem Node.recordDurable_rick {n : Node} (hclear : n.rcd.clear = .none) (e : EvRec) :
    n.recordDurable e false = n.updRcd (fun r =>
      { r with rick := r.rick.put r.rHead (.valid e), rHead := r.slotAfter r.rHead, program := none }) := by
  simp only [Node.recordDurable, Node.updRcd_rcd, hclear]
  rfl

/-- RECORD_VALID_MARK_DONE after the program of a copy is complete. -/
theorem recordValidMarkDone_done {s : State} {e : EvRec} {granary : Bool} (hprogram : s.node.rcd.program = some (e, true, granary)) :
    Done .recordValidMarkDone s (s.node.recordDurable e granary) := by
  refine .of_eq rfl ?_
  simp only [hprogram]

/-- Settles O51: a record is programmed by STORE_RECORD_REQUEST and RECORD_PROGRAMMED, and made valid by its valid mark alone. -/
theorem recordsBecomeDurableByTheirValidMark : Obligations.RecordsBecomeDurableByTheirValidMark := by
  unfold Obligations.RecordsBecomeDurableByTheirValidMark
  and_intros
  · -- STORE_RECORD_REQUEST
    intro s e q hsec hidle herase hclear hqueue
    have hready : (s.node.storeWorks && s.node.rcd.program.isNone && !s.node.rcd.eraseFirst) = true := by
      simp [Node.storeWorks, hsec, hidle, herase]
    obtain ⟨f, es, rk, hbegin, hrick⟩ := Recorder.begin_eq { s.node.rcd with queue := q, clear := .none } e s.node.granaryTakes
    have htake : Done .storeRecordRequest s { s.node with rcd := _ } :=
      .of_eq rfl ((if_pos hready).trans ((Node.takeRecord_queued hclear hqueue).trans (congrArg (fun r => { s.node with rcd := r }) hbegin)))
    exact ⟨_, f, htake, rfl, rfl, rfl, rfl, hrick⟩
  · -- RECORD_PROGRAMMED, and a valid mark before the program is complete
    intro s e g hprogram
    refine ⟨.of_eq rfl ?_, .of_eq rfl ?_⟩
    · simp only [hprogram]
      rfl
    · simp only [hprogram]
  · -- RECORD_VALID_MARK_DONE of the Granary copy
    intro s e hprogram hclear
    obtain ⟨es, rk, henter, _⟩ := Recorder.enterRick_eq { s.node.rcd with
      granary := s.node.rcd.granary.put s.node.rcd.gHead (.valid e), gHead := s.node.rcd.gHead + 1, program := some (e, false, false) }
    have hdone : Done .recordValidMarkDone s { s.node with rcd := _ } := (recordValidMarkDone_done hprogram).of_eq
      ((Node.recordDurable_granary hclear e).trans (congrArg (fun r => { s.node with rcd := r }) henter))
    exact ⟨_, hdone, Tbl.look_put_same _ _ _, rfl, rfl⟩
  · -- RECORD_VALID_MARK_DONE of the Rick copy
    intro s e hprogram hclear
    exact ⟨_, (recordValidMarkDone_done hprogram).of_eq (Node.recordDurable_rick hclear e), Tbl.look_put_same _ _ _, rfl, rfl⟩

end Sys2Proof.Machine
end

section
/-! PROOFS. Byte layouts: safe frames, custody records, Gleaner rules and harvest entries read back from the bytes they are written as. -/

namespace Sys2Proof.Machine

/-- What `k` bytes keep of a number is what is read of it at the head of a layout. -/
theorem leNat_slice_leBytes (k v : Nat) (b : List Byte) : leNat (slice (leBytes k v ++ b) 0 k) = v % 256 ^ k := by
  rw [slice_here _ _ _ (leBytes_length k v), leNat_leBytes]

/-- As `leNat_slice_leBytes`, with nothing after the number. -/
theorem leNat_slice_leBytes_last (k v : Nat) : leNat (slice (leBytes k v) 0 k) = v % 256 ^ k := by
  rw [slice_all _ _ (leBytes_length k v), leNat_leBytes]

theorem leNat_slice_cons (x : Byte) (b : List Byte) : leNat (slice (x :: b) 0 1) = x.toNat := byte_here x b

theorem slice_cons_succ (x : Byte) (b : List Byte) (off k : Nat) : slice (x :: b) (off + 1) k = slice b off k := rfl

theorem one_byte_holds {v : Nat} (h : v < 256) : v % 256 ^ 1 = v := Nat.mod_eq_of_lt h

theorem two_bytes_hold {v : Nat} (h : v < 2 ^ 16) : v % 256 ^ 2 = v := Nat.mod_eq_of_lt h

theorem four_bytes_hold {v : Nat} (h : v < 2 ^ 32) : v % 256 ^ 4 = v := Nat.mod_eq_of_lt h

theorem eight_bytes_hold {v : Nat} (h : v < 2 ^ 64) : v % 256 ^ 8 = v := Nat.mod_eq_of_lt h

/-- A word of 32 bits fits the four bytes it is written in. -/
theorem word_of_four_bytes (x : BitVec 32) : BitVec.ofNat 32 (x.toNat % 256 ^ 4) = x := by
  rw [four_bytes_hold x.isLt, BitVec.ofNat_toNat, BitVec.setWidth_eq]

/-- The fields of a safe frame, each cut to its width in R429. -/
theorem SafeFrame.ofBytes_bytes (f : SafeFrame) :
    SafeFrame.ofBytes f.bytes =
      { f with connId := f.connId % 256 ^ 2, seq := f.seq % 256 ^ 4, t := f.t % 256 ^ 8, watchdog := f.watchdog % 256 ^ 2 } := by
  simp only [SafeFrame.ofBytes, SafeFrame.bytes, SafeFrame.body, u8, u16, u32, u64, List.append_assoc, List.cons_append, List.nil_append,
    slice_skip, slice_cons_succ, leBytes_length, Nat.reduceLeDiff, Nat.reduceSub, Nat.sub_self, le_refl, leNat_slice_leBytes,
    leNat_slice_leBytes_last, leNat_slice_cons, word_of_four_bytes, BitVec.ofNat_toNat, BitVec.setWidth_eq]

theorem SafeFrame.bytes_length (f : SafeFrame) : f.bytes.length = 32 := by
  simp [SafeFrame.bytes, SafeFrame.body]

/-- Settles O57: the fields of `SafeFrame.ofBytes_bytes` are whole, since each fits its width. -/
theorem safeFramesReadBack : Obligations.SafeFramesReadBack := by
  unfold Obligations.SafeFramesReadBack
  intro f hconn hseq ht hwatchdog
  refine ⟨?_, f.bytes_length⟩
  rw [f.ofBytes_bytes, two_bytes_hold hconn, four_bytes_hold hseq, eight_bytes_hold ht, two_bytes_hold hwatchdog]

/-- The fields of a Gleaner rule, each cut to its width in R454. -/
theorem GlRule.ofBytes_bytes (r : GlRule) :
    GlRule.ofBytes r.bytes =
      { src := r.src % 256 ^ 1, index := r.index % 256 ^ 1, filter := r.filter % 256 ^ 1, p1 := r.p1 % 256 ^ 1, p2 := r.p2 % 256 ^ 1,
        cond := r.cond % 256 ^ 1, action := r.action % 256 ^ 1, act := r.act, level := r.level % 256 ^ 2, hyst := r.hyst % 256 ^ 2,
        target := r.target % 256 ^ 1, value := r.value % 256 ^ 1, limit := r.limit % 256 ^ 2 } := by
  simp only [GlRule.ofBytes, GlRule.bytes, u8, u16, List.append_assoc, List.cons_append, List.nil_append,
    slice_skip, slice_cons_succ, leBytes_length, Nat.reduceLeDiff, Nat.reduceSub, Nat.sub_self, le_refl, leNat_slice_leBytes,
    leNat_slice_leBytes_last, leNat_slice_cons, BitVec.ofNat_toNat, BitVec.setWidth_eq]

/-- The fields of a harvest entry, each cut to its width in R379. -/
theorem HvEntry.ofBytes_bytes (e : HvEntry) :
    HvEntry.ofBytes e.bytes 0 =
      { e with stall := e.stall % 256 ^ 2, mode := e.mode % 256 ^ 1, divider := e.divider % 256 ^ 2 } := by
  simp only [HvEntry.ofBytes, HvEntry.bytes, u8, u16, u32, List.append_assoc, Nat.zero_add,
    slice_skip, leBytes_length, Nat.reduceLeDiff, Nat.reduceSub, Nat.sub_self, le_refl, leNat_slice_leBytes,
    leNat_slice_leBytes_last, word_of_four_bytes]

/-- Settles O59: the fields of `GlRule.ofBytes_bytes` and `HvEntry.ofBytes_bytes` are whole, since each fits its width. -/
theorem rulesAndEntriesReadBack : Obligations.RulesAndEntriesReadBack := by
  unfold Obligations.RulesAndEntriesReadBack
  constructor
  · intro r hsrc hindex hfilter hp1 hp2 hcond haction hlevel hhyst htarget hvalue hlimit
    refine ⟨?_, by simp [GlRule.bytes]⟩
    rw [r.ofBytes_bytes, one_byte_holds hsrc, one_byte_holds hindex, one_byte_holds hfilter, one_byte_holds hp1,
      one_byte_holds hp2, one_byte_holds hcond, one_byte_holds haction, two_bytes_hold hlevel, two_bytes_hold hhyst,
      one_byte_holds htarget, one_byte_holds hvalue, two_bytes_hold hlimit]
  · intro e hstall hmode hdivider
    refine ⟨?_, by simp [HvEntry.bytes]⟩
    rw [e.ofBytes_bytes, two_bytes_hold hstall, one_byte_holds hmode, two_bytes_hold hdivider]

theorem ofSigned_64_lt (z : Int) : ofSigned 64 z < 2 ^ 64 := by
  simp only [ofSigned]
  omega

/-- A signed number that fits 64 bits is what its 64-bit form stands for. -/
theorem toSigned_ofSigned_64 (z : Int) (hlo : -(2 ^ 63) ≤ z) (hhi : z < 2 ^ 63) : toSigned 64 (ofSigned 64 z) = z := by
  have hwidth : ofSigned 64 z % 2 ^ 64 = ofSigned 64 z := Nat.mod_eq_of_lt (ofSigned_64_lt z)
  rw [toSigned, hwidth, ofSigned]
  split <;> omega

@[simp] theorem RecSt.ofCode_code (st : RecSt) : RecSt.ofCode (st.code % 256 ^ 1) = st := by
  cases st <;> rfl

/-- The 24 bytes of the tag in a custody record (R332): the tag, then zeros. -/
def tagField (tag : List Byte) : List Byte := tag ++ List.replicate (24 - tag.length) 0

theorem tagField_length {tag : List Byte} (htag : tag.length ≤ 24) : (tagField tag).length = 24 := by
  simp only [tagField, List.length_append, List.length_replicate]
  omega

theorem tag_append_zeros (tag b : List Byte) : tag ++ (List.replicate (24 - tag.length) 0 ++ b) = tagField tag ++ b := by
  rw [tagField, List.append_assoc]

/-- The tag is read by the length byte before it. -/
theorem slice_tagField (tag b : List Byte) (htag : tag.length ≤ 24) :
    slice (tagField tag ++ b) 0 (min 24 (tag.length % 256 ^ 1)) = tag := by
  have hlen : tag.length = min 24 (tag.length % 256 ^ 1) := by omega
  rw [← tag_append_zeros]
  exact slice_here _ _ _ hlen

theorem CRec.body_length (r : CRec) (htag : r.tag.length ≤ 24) : (r.body false).length = 124 := by
  unfold CRec.body
  simp only [List.length_append, leBytes_length, List.length_cons, List.length_nil, List.length_replicate, Bool.false_eq_true, if_false]
  omega

/-- The crc at the end is the crc of the 124 bytes before it. -/
theorem CRec.crecOk_bytes (r : CRec) (htag : r.tag.length ≤ 24) : crecOk (r.bytes false) = true := by
  have hlen := r.body_length htag
  have hcrc : u32 (r.bytes false) 124 = (crc32c (r.body false)).toNat := by
    rw [u32, CRec.bytes, slice_skip _ _ _ _ (by omega), hlen, leNat_slice_leBytes_last, four_bytes_hold (crc32c _).isLt]
  have htake : (r.bytes false).take 124 = r.body false := by
    rw [CRec.bytes, List.take_append_of_le_length (by omega), List.take_of_length_le (by omega)]
  have htotal : (r.bytes false).length = 128 := by
    rw [CRec.bytes, List.length_append, hlen, leBytes_length]
  simp only [crecOk, htake, hcrc, htotal, beq_self_eq_true, Bool.and_self]

/-- The fields of a custody record, each cut to its width in R332. -/
theorem CRec.ofBytes_bytes (r : CRec) (htag : r.tag.length ≤ 24) :
    CRec.ofBytes (r.bytes false) =
      { parcel := r.parcel % 256 ^ 8, st := r.st, cflags := r.cflags, hops := r.hops % 256 ^ 1, level := r.level % 256 ^ 1,
        version := r.version % 256 ^ 4, created := r.created % 256 ^ 8, entered := r.entered % 256 ^ 8,
        enteredRef := toSigned 64 (ofSigned 64 r.enteredRef % 256 ^ 8), length := r.length % 256 ^ 2, destination := r.destination % 256 ^ 2,
        from_ := r.from_ % 256 ^ 2, to_ := r.to_ % 256 ^ 2, fromPort := r.fromPort % 256 ^ 1, exit := r.exit % 256 ^ 1, tag := r.tag,
        energyZone := r.energyZone % 256 ^ 4, energyLine := r.energyLine % 256 ^ 4, boundary := r.boundary % 256 ^ 8,
        resolved := r.resolved % 256 ^ 8, ckpt := r.ckpt % 256 ^ 4 } := by
  unfold CRec.bytes CRec.body
  simp only [CRec.ofBytes, Bool.false_eq_true, if_false, u8, u16, u32, u64, s64, List.append_assoc, List.cons_append, List.nil_append,
    tag_append_zeros, slice_skip, slice_cons_succ, leBytes_length, tagField_length htag, Nat.reduceLeDiff, Nat.reduceSub, Nat.sub_self, le_refl,
    leNat_slice_leBytes, leNat_slice_cons, slice_tagField _ _ htag, RecSt.ofCode_code, BitVec.ofNat_toNat, BitVec.setWidth_eq]

/-- Settles O58: the fields of `CRec.ofBytes_bytes` are whole, since each fits its width. -/
theorem custodyRecordsReadBack : Obligations.CustodyRecordsReadBack := by
  unfold Obligations.CustodyRecordsReadBack
  intro r hparcel hhops hlevel hversion hcreated hentered hreflo hrefhi hlength hdest hfrom hto hport hexit htag hzone hline hboundary
    hresolved hckpt
  refine ⟨r.crecOk_bytes htag, ?_⟩
  rw [r.ofBytes_bytes htag, eight_bytes_hold hparcel, one_byte_holds hhops, one_byte_holds hlevel, four_bytes_hold hversion,
    eight_bytes_hold hcreated, eight_bytes_hold hentered, eight_bytes_hold (ofSigned_64_lt r.enteredRef),
    toSigned_ofSigned_64 _ hreflo hrefhi, two_bytes_hold hlength, two_bytes_hold hdest, two_bytes_hold hfrom, two_bytes_hold hto,
    one_byte_holds hport, one_byte_holds hexit, four_bytes_hold hzone, four_bytes_hold hline, eight_bytes_hold hboundary,
    eight_bytes_hold hresolved, four_bytes_hold hckpt]

end Sys2Proof.Machine
end

section
/-! PROOFS. Safety, sleep and energy commands (R440 to R442, R446, R457, R459): each completion is the branch of the meaning that its
hypotheses select. -/

namespace Sys2Proof.Machine

/-- Settles O17, clause by clause in the order of the statement. -/
theorem safetyAndGleanerCommandsComplete : Obligations.SafetyAndGleanerCommandsComplete := by
  unfold Obligations.SafetyAndGleanerCommandsComplete
  and_intros
  · -- SAFETY_STATUS
    exact fun s path idx pl hs hp => .of_hostCmd rfl hs (Node.checked_pass _ _ _ _ hp)
  · -- SAFETY_CONFIG_LOAD, op 0 stages bytes
    intro s path idx pl hs hp hop hrange
    refine .of_hostCmd rfl hs ((Node.checked_pass _ _ _ _ hp).trans ?_)
    rw [hop]
    exact Node.checked_pass _ _ _ _ hrange
  · -- SAFETY_CONFIG_LOAD, op 1 commits
    intro s path idx pl hs hp hop
    refine .of_hostCmd rfl hs ((Node.checked_pass _ _ _ _ hp).trans ?_)
    rw [hop]
    rfl
  · -- SAFETY_CONFIG_LOAD, op 2 reads bytes in force
    intro s path idx pl hs hp hop hrange
    refine .of_hostCmd rfl hs ((Node.checked_pass _ _ _ _ hp).trans ?_)
    rw [hop]
    exact Node.checked_pass _ _ _ _ hrange
  · -- SAFETY_RESTART
    exact fun s path idx pl hs hp => .of_hostCmd rfl hs (Node.checked_pass _ _ _ _ hp)
  · -- GLEANER_RULES, op 0 stages rules
    exact fun s path idx pl hs hp hop => .of_hostCmd rfl hs ((Node.checked_pass _ _ _ _ hp).trans (if_pos hop))
  · -- GLEANER_RULES, op 1 commits a table without fault that fits
    intro s path idx pl hs hp hop hfault hfits hrw
    refine .of_hostCmd rfl hs ((Node.checked_pass _ _ _ _ hp).trans ((if_neg (by simp [hop])).trans ((if_pos hop).trans ?_)))
    rw [hfault]
    exact (if_neg (by simp [hfits])).trans (Node.needCfg_pass hrw _ _ _)
  · -- GLEANER_RULES, op 2 reads rules and their counts
    exact fun s path idx pl hs hp hop =>
      .of_hostCmd rfl hs ((Node.checked_pass _ _ _ _ hp).trans ((if_neg (by simp [hop])).trans (if_neg (by simp [hop]))))
  · -- SLEEP_POLICY, op 0 sets
    exact fun s path idx pl hs hp hop hset hrw =>
      .of_hostCmd rfl hs ((Node.checked_pass _ _ _ _ hp).trans ((if_pos hop).trans
        ((Node.checked_pass _ _ _ _ hset).trans (Node.needCfg_pass hrw _ _ _))))
  · -- SLEEP_POLICY, op 1 reads
    exact fun s path idx pl hs hp hop hres =>
      .of_hostCmd rfl hs ((Node.checked_pass _ _ _ _ hp).trans ((if_neg (by simp [hop])).trans (Node.checked_pass _ _ _ _ hres)))
  · -- ENERGY_READ
    exact fun s path idx pl hs hp => .of_hostCmd rfl hs (Node.checked_pass _ _ _ _ hp)

end Sys2Proof.Machine
end

section
/-! PROOFS. Events of the safety zone and its channels (R411 to R436): each completion is the branch of the meaning that its hypotheses select. -/

namespace Sys2Proof.Machine

/-- With the field cores running a request of the firmware is placed in both channels. -/
theorem Node.sfPlace_coresRun {n : Node} (h : n.coresRun = true) (code target : Nat) : n.sfPlace code target = n.sfRequest code target :=
  if_pos h

/-- Settles O36, clause by clause in the order of the statement. -/
theorem safetyEventsComplete : Obligations.SafetyEventsComplete := by
  unfold Obligations.SafetyEventsComplete
  and_intros
  · -- SAFETY_CYCLE of a channel in RUN
    intro s c halive hrun
    refine .of_eq rfl ((if_pos halive).trans ?_)
    simp only [hrun]
  · -- SAFETY_CYCLE of a channel in TESTING
    intro s c halive htesting
    refine .of_eq rfl ((if_pos halive).trans ?_)
    simp only [htesting]
  · -- SAFETY_CYCLE of a follower
    intro s c halive hfollower
    refine .of_eq rfl ((if_pos halive).trans ?_)
    simp only [hfollower]
  · -- SAFETY_INBOUND_READ
    exact fun s c above below hreads => .of_eq rfl (if_pos hreads)
  · -- CROSS_RECORD at a follower
    intro s c hnew hfollower
    refine .of_eq rfl ((if_pos hnew).trans ?_)
    simp only [hfollower]
  · -- CROSS_RECORD at a channel in RUN
    intro s c hnew hrun
    refine .of_eq rfl ((if_pos hnew).trans ?_)
    simp only [hrun]
  · -- PARTNER_LOST
    exact fun s c halive hrun hsilent htesting => .of_eq rfl (if_pos ⟨halive, hrun, hsilent, htesting⟩)
  · -- SAFETY_SELF_TEST that fails
    exact fun s c k ok detail halive hrun hfails => .of_eq rfl (if_pos ⟨halive, hrun, by simp [hfails]⟩)
  · -- SAFETY_SELF_TEST that passes
    exact fun s c k ok detail hpasses => .of_eq rfl (if_neg (by simp [hpasses]))
  · -- FOLLOWER_TIMEOUT
    exact fun s c hc hfollower hsilent => .of_eq rfl (if_pos ⟨hc, hfollower, hsilent⟩)
  · -- FALLBACK_EXPIRED
    exact fun s hsingle => .of_eq rfl (if_pos hsingle)
  · -- SAFETY_DISCREPANCY
    intro s c k t hfrom hgood
    refine .of_eq rfl ?_
    simp only [hfrom]
    exact if_pos hgood
  · -- LOCK_MONITOR_TIMEOUT
    exact fun s i => .of_eq rfl rfl
  · -- UNLOCK_REQUEST_TIMEOUT
    exact fun s i => .of_eq rfl rfl
  · -- DEGRADED_TIMEOUT
    exact fun s c k halive hdegraded => .of_eq rfl (if_pos ⟨halive, hdegraded⟩)
  · -- SAFE_FRAME_GATHER
    exact fun s hcores => .of_eq rfl (if_pos hcores)
  · -- SAFETY_FRAME
    exact fun s src path2 copies => .of_eq rfl rfl
  · -- SAFE_STALL_UPDATE
    exact fun s hcores => .of_eq rfl (if_pos hcores)
  · -- TORQUE_ON
    exact fun s i hcores => .of_eq rfl (Node.sfPlace_coresRun hcores _ _)
  · -- TORQUE_OFF
    exact fun s i hcores => .of_eq rfl (Node.sfPlace_coresRun hcores _ _)
  · -- UNLOCK
    exact fun s i hcores => .of_eq rfl (Node.sfPlace_coresRun hcores _ _)
  · -- LOCK
    exact fun s i hcores => .of_eq rfl (Node.sfPlace_coresRun hcores _ _)
  · -- RESTART
    exact fun s i hcores => .of_eq rfl (Node.sfPlace_coresRun hcores _ _)
  · -- STOP_ZONE
    exact fun s hcores => .of_eq rfl (Node.sfPlace_coresRun hcores _ _)
  · -- RESTART_NOTICE
    exact fun s hcores => .of_eq rfl (Node.sfPlace_coresRun hcores _ _)
  · -- SWITCH_CHARGE_DRIVE_LAPSE
    exact fun s c hc => .of_eq rfl (if_pos hc)
  · -- SAFETY_START_TESTS_DONE, tests passed
    exact fun s c ok cause detail hc hruns htesting hok => .of_eq rfl ((if_pos ⟨hc, hruns, htesting⟩).trans (if_pos hok))
  · -- SAFETY_START_TESTS_DONE, a test failed
    exact fun s c ok cause detail hc hruns htesting hfails =>
      .of_eq rfl ((if_pos ⟨hc, hruns, htesting⟩).trans (if_neg (by simp [hfails])))

end Sys2Proof.Machine
end

section
/-! PROOFS. Events of sleep and waking (R448 to R451), of the Gleaner (R456), of staged images and the line level (R471, R475, R479, R480): each
completion is the branch of the meaning that its hypotheses select. -/

namespace Sys2Proof.Machine

/-- Settles O37, clause by clause in the order of the statement. -/
theorem gleanerAndLevelEventsComplete : Obligations.GleanerAndLevelEventsComplete := by
  unfold Obligations.GleanerAndLevelEventsComplete
  and_intros
  · -- SLEEP_ENTRY
    exact fun s hidle => .of_eq rfl (if_pos hidle)
  · -- SLEEP_CONTEXT_SAVED, nothing against the sleep
    exact fun s hst hquiet => .of_eq rfl ((if_pos hst).trans (if_neg hquiet))
  · -- SLEEP_CONTEXT_SAVED, the sleep is given up
    exact fun s hst hagainst => .of_eq rfl ((if_pos hst).trans (if_pos hagainst))
  · -- SLEEP_ZB_OFFLINE, nothing against the sleep
    exact fun s hst hquiet => .of_eq rfl ((if_pos hst).trans (if_neg hquiet))
  · -- SLEEP_ZB_OFFLINE, the sleep is given up
    exact fun s hst hagainst => .of_eq rfl ((if_pos hst).trans (if_pos hagainst))
  · -- WAKE_TIMER
    intro s t htimer hasleep
    refine .of_eq rfl ?_
    simp only [htimer]
    exact if_pos hasleep
  · -- WAKE
    exact fun s lines hnew => .of_eq rfl (if_neg hnew)
  · -- WOKE
    exact fun s edgesLost hwaking hrun => .of_eq rfl (if_neg (by simp only [hwaking, hrun]; decide))
  · -- GLEANER_SAMPLE
    exact fun s levels xs hruns => .of_eq rfl (if_neg hruns)
  · -- BULK
    intro s src payload k hsilo hfits
    refine .of_eq rfl ?_
    simp only [hsilo]
    exact if_pos hfits
  · -- LEVEL, op 1 cancels
    exact fun s src at_ op l t hlisten hop => .of_eq rfl ((if_neg hlisten).trans (if_pos hop))
  · -- LEVEL, op 0 to a level this node has
    exact fun s src at_ op l t hlisten hop1 hop hlevel =>
      .of_eq rfl ((if_neg hlisten).trans ((if_neg hop1).trans ((if_pos hop).trans (if_neg hlevel))))
  · -- LEVEL, op 0 to a level above this node's
    exact fun s src at_ op l t hlisten hop1 hop hgap =>
      .of_eq rfl ((if_neg hlisten).trans ((if_neg hop1).trans ((if_pos hop).trans (if_pos hgap))))
  · -- LEVEL_RAISE_INSTANT
    intro s l t hraise
    refine .of_eq rfl ?_
    simp only [hraise]
  · -- PORT_PHY_RELOAD_DONE
    intro s p ok m hreload
    refine .of_eq rfl ?_
    simp only [hreload]

end Sys2Proof.Machine
end

section
/-! PROOFS. Attestation, update and service flag commands (R466, R467, R470, R474, R475): each completion is the branch of the meaning that its
hypotheses select. -/

namespace Sys2Proof.Machine

/-- Settles O19, clause by clause in the order of the statement. -/
theorem securityCommandsComplete : Obligations.SecurityCommandsComplete := by
  unfold Obligations.SecurityCommandsComplete
  and_intros
  · -- ATTEST
    exact fun s path idx pl hs hp hmem => .of_hostCmd rfl hs ((Node.checked_pass _ _ _ _ hp).trans (if_neg (by simp [hmem])))
  · -- IMAGE_WRITE, op 0 stages bytes
    exact fun s path idx pl hs hp hrw hop =>
      .of_hostCmd rfl hs ((Node.checked_pass _ _ _ _ hp).trans ((if_neg (by simp [hrw])).trans (if_pos hop)))
  · -- IMAGE_WRITE, op 1 issues a ticket
    exact fun s path idx pl hs hp hrw hop =>
      .of_hostCmd rfl hs ((Node.checked_pass _ _ _ _ hp).trans ((if_neg (by simp [hrw])).trans
        ((if_neg (by simp [hop])).trans (if_pos hop))))
  · -- IMAGE_WRITE, op 2 asks how far staging is
    exact fun s path idx pl hs hp hrw hop =>
      .of_hostCmd rfl hs ((Node.checked_pass _ _ _ _ hp).trans ((if_neg (by simp [hrw])).trans
        ((if_neg (by simp [hop])).trans (if_neg (by simp [hop])))))
  · -- SILO_COMMIT
    exact fun s path idx pl same cut hs hp hrw => .of_hostCmd rfl hs ((Node.checked_pass _ _ _ _ hp).trans (if_neg (by simp [hrw])))
  · -- ISLAND_UPDATE of an image that runs already
    exact fun s path idx pl hs hp hruns => .of_hostCmd rfl hs ((Node.checked_pass _ _ _ _ hp).trans (if_pos hruns))
  · -- ISLAND_UPDATE, code 6 answers at once
    exact fun s path idx pl hs hp hruns hcode =>
      .of_hostCmd rfl hs ((Node.checked_pass _ _ _ _ hp).trans ((if_neg (by simp [hruns])).trans (if_pos hcode)))
  · -- ISLAND_UPDATE, code 5 reloads a port PHY
    exact fun s path idx pl hs hp hruns hcode hport =>
      .of_hostCmd rfl hs ((Node.checked_pass _ _ _ _ hp).trans ((if_neg (by simp [hruns])).trans
        ((if_neg (by simp [hcode])).trans ((if_pos hcode).trans (Node.checked_pass _ _ _ _ hport)))))
  · -- ISLAND_UPDATE, codes 0 to 4 reload an island
    exact fun s path idx pl hs hp hruns hcode hisland =>
      .of_hostCmd rfl hs ((Node.checked_pass _ _ _ _ hp).trans ((if_neg (by simp [hruns])).trans
        ((if_neg (by omega)).trans ((if_neg (by omega)).trans (Node.checked_pass _ _ _ _ hisland)))))
  · -- SERVICE_FLAG_CLEAR
    exact fun s path idx pl hs hp hrw => .of_hostCmd rfl hs ((Node.checked_pass _ _ _ _ hp).trans (if_neg (by simp [hrw])))

end Sys2Proof.Machine
end
